-- ==== Sys2Proof/Word.lean ====
section
/-! DEFINITION. The words of the hub and their plainest arithmetic: the 18-bit word of the image and of every
message, the 36-bit register, bit fields numbered as the manual numbers them, and saturating counters. -/

namespace Sys2Proof

/-- One 18-bit word: quality in [17:16] and payload in [15:0] where it holds a point (R152). -/
abbrev Word := BitVec 18

/-- One 36-bit register or a pair of words, bits [35:18] first (R448). -/
abbrev Wide := BitVec 36

/-- Field [hi:lo] of a value read as an unsigned number. -/
def fld (v hi lo : Nat) : Nat := (v >>> lo) % 2 ^ (hi + 1 - lo)

/-- Bit `n` of a value. -/
def bit (v n : Nat) : Bool := v.testBit n

/-- A value of `n` at bit `lo`, `w` bits wide, for building registers field by field. -/
def put (lo w n : Nat) : Nat := (n % 2 ^ w) <<< lo

/-- A flag at bit `lo`. -/
def putB (lo : Nat) (b : Bool) : Nat := if b then 1 <<< lo else 0

/-- Field [hi:lo] of a value replaced by `n`. -/
def setFld (v hi lo n : Nat) : Nat :=
  v - ((fld v hi lo) <<< lo) + ((n % 2 ^ (hi + 1 - lo)) <<< lo)

/-- A counter of `w` bits that stays at its all-ones value. -/
def satAdd (w n k : Nat) : Nat := min (n + k) (2 ^ w - 1)

/-- The two's complement value of the low `w` bits. -/
def sgn (w n : Nat) : Int :=
  let m := n % 2 ^ w
  if m < 2 ^ (w - 1) then (m : Int) else (m : Int) - 2 ^ w

/-- The low `w` bits of an integer, two's complement. -/
def unsgn (w : Nat) (i : Int) : Nat := (i % (2 ^ w : Int)).toNat

/-- The two words of a U36, bits [35:18] first (R448). -/
def words36 (v : Nat) : List Nat := [fld v 35 18, fld v 17 0]

/-- The U36 in the two words that begin a list (R448). -/
def u36 : List Nat → Nat
  | a :: b :: _ => a * 2 ^ 18 + b
  | [a] => a * 2 ^ 18
  | [] => 0

/-- Sparse data by number, ascending, with no entry equal to what an unlisted number holds. -/
abbrev Tab (α : Type) := List (Nat × α)

end Sys2Proof
end

