-- ==== Sys2Proof/Syntax.lean ====
section
/-! DEFINITION. The commands of the hub, one constructor for each row of the opcode table, with the operands a command
carries. A command stands for one whole, indivisible step of the spec; its operands name the unit concerned and carry
what the outside world supplies (received words, levels at balls, measured values). -/

namespace Sys2Proof

/-- A SYNC as received (R400): ORIGIN as a TIME of 112 bits; CORRECTION and the domain offsets in 2^-16 ns; `utc` in the
layout of TIME_UTC [18:0]. -/
structure SyncMsg where
  epoch : Nat
  state : Fin 4
  traceable : Bool
  follow : Fin 4
  origin : Nat
  corr : Nat
  f : Nat
  utc : Nat
  off0 : Int
  off1 : Int
  deriving DecidableEq, Repr

/-- The dataset of an ANNOUNCE or PTP Announce (R400, R405). -/
structure AnnounceMsg where
  prio1 : Nat
  cls : Nat
  acc : Nat
  prio2 : Nat
  variance : Nat
  gm : Nat
  steps : Nat
  deriving DecidableEq, Repr

/-- A PTP message on a port: domainNumber, sequenceId, correctionField in 2^-16 ns, the timestamp it carries in ns, and
the tide offset of its own timestamp point here. -/
structure PtpMsg where
  port : Fin 49
  number : Nat
  seq : Nat
  corr : Int
  t : Nat
  off : Nat
  deriving DecidableEq, Repr

/-- A dictionary message as it arrives: its path and source (R456) and the header fields and body of R458. FORMAT is 1
and RESP 0; every other shape is the command DICT_MALFORMED_REQUEST. -/
structure Msg where
  path : Fin 4
  source : Nat
  session : Fin 16
  tag : Nat
  target : Nat
  unit : Nat
  entry : Nat
  sub : Nat
  count : Nat
  body : List Word
  deriving DecidableEq, Repr

/-- One beat of a burst on the Quay bus as sampled (R481, R486): samples with WAIT_N low before it ends, ERR_N low at the
last sample, a HALT during it, and the 16 bits that the far side drives. -/
structure QBeat where
  waits : Nat
  err : Bool
  halt : Bool
  data : Nat
  deriving DecidableEq, Repr

/-- How a service-port packet ends (R490): whole at the end of frame LEN or cut before it, and edges after frame LEN. -/
structure SvcEnd where
  whole : Bool
  extra : Nat
  deriving DecidableEq, Repr

/-- Who asks for a Fold operation (R536): path and source of R456, session and TAG. -/
structure Asker where
  path : Fin 4
  source : Nat
  session : Fin 16
  tag : Nat
  deriving DecidableEq, Repr

/-- Target metadata of a Fold operation, as words 1 and 2 of FOLD_OP hold it (R552). -/
structure Fill where
  info : BitVec 18
  count : BitVec 18
  deriving DecidableEq, Repr

/-- A sample of a gate (R577, R582): VIN and VOUT in 0.1 V, I in 10 mA, T_FET in °C + 64. -/
structure GateSample where
  vin : Fin 4096
  vout : Fin 4096
  i : Fin 4096
  t : Fin 512
  deriving DecidableEq, Repr

/-- One command of the hub for each row of the opcode table. -/
inductive Instr where
  /-- TURN (R99): a new tide starts at offset 0. -/
  | turn
  /-- NO_TIDE_PERIOD (R450). -/
  | noTidePeriod
  /-- TILE_WAKE (R76): a planned wake begins at the offset. -/
  | tileWake (tile : Fin 16) (off : Nat)
  /-- TILE_DARK (R76): a planned dark interval begins at the offset. -/
  | tileDark (tile : Fin 16) (off : Nat)
  /-- TILE_REDARK (R78). -/
  | tileRedark (tile : Fin 16) (off : Nat)
  /-- Strokes (R93): entry `idx` of the segment of sluice `sl` in the active half starts. -/
  | wait (sl : Fin 16) (idx : Nat)
  | move (sl : Fin 16) (idx : Nat)
  | carry (sl : Fin 16) (idx : Nat)
  | push (sl : Fin 16) (idx : Nat)
  | fetch (sl : Fin 16) (idx : Nat)
  | store (sl : Fin 16) (idx : Nat)
  | drvWr (sl : Fin 16) (idx : Nat)
  | drvRd (sl : Fin 16) (idx : Nat)
  | pinIn (sl : Fin 16) (idx : Nat)
  | pinOut (sl : Fin 16) (idx : Nat)
  | cellTx (sl : Fin 16) (idx : Nat)
  | pairTx (sl : Fin 16) (idx : Nat)
  | cellRx (sl : Fin 16) (idx : Nat)
  | pairRx (sl : Fin 16) (idx : Nat)
  | penRd (sl : Fin 16) (idx : Nat)
  | penWr (sl : Fin 16) (idx : Nat)
  | busLoad (sl : Fin 16) (idx : Nat)
  | frameTx (sl : Fin 16) (idx : Nat)
  | digest (sl : Fin 16) (idx : Nat)
  /-- RESERVED_OPCODE_STROKE (R95). -/
  | reservedOpcodeStroke (sl : Fin 16) (idx : Nat)
  /-- UPLAND_REFRESH (R59): the window at the offset, and whether the refresh completes in it (R173). -/
  | uplandRefresh (ch : Fin 4) (off : Nat) (completed : Bool)
  /-- UPLAND_COMMAND_RETRY (R173): a command failed its parity; its repeat at the offset passes or fails. -/
  | uplandCommandRetry (ch : Fin 4) (off : Nat) (ok : Bool)
  /-- LEDGER_BLOCK_START (R139): a block of 256 wc starts. -/
  | ledgerBlockStart
  /-- LEDGER_STAGE_GRANT (R140): one cycle of one instance (class and instance of R131) at the offset. -/
  | ledgerStageGrant (rcls : Fin 16) (inst : Nat) (off : Nat)
  /-- LEDGER_OVERDUE (R143): the oldest access of a class waits longer than its bound. -/
  | ledgerOverdue (cls : Fin 9)
  /-- SCRUB_READ (R176): the next line of bank u, or the next burst of channel u − 64, in a cycle at the offset. -/
  | scrubRead (unit : Fin 68) (off : Nat)
  /-- SCRUB_WRITE_BACK (R177): the oldest queued line. -/
  | scrubWriteBack (off : Nat)
  /-- POISON_MARK_WRITE (R169): the oldest line queued for marking. -/
  | poisonMarkWrite (off : Nat)
  /-- TABLE_CMD (R111, R117). -/
  | tableOpen
  | tableCheck
  | tableArm
  | tableDisarm
  | tableDiscard
  /-- TABLE_CHECK_DONE (R123): the check ends after the given number of µs. -/
  | tableCheckDone (elapsed : Nat)
  /-- SHEPHERD_WATCHDOG (R31): the core that missed its report. -/
  | shepherdWatchdog (core : Fin 4)
  | shepherdRestartDone
  /-- CLEAR_LINE (R181): tier and tier word address. -/
  | clearLine (upland : Bool) (addr : Nat)
  /-- PEN_ACCESS_READ (R200): pen p's access line. -/
  | penAccessRead (pen : Fin 4096)
  /-- PEN_ACCESS_WRITE (R200): words pushed in offset order; `ends` is the end mark of the producer's path (R196) and
  `posted` says that no transaction is open (R198). -/
  | penAccessWrite (pen : Fin 4096) (words : List Word) (ends : Bool) (posted : Bool)
  /-- PEN_CTRL (R202, R197). -/
  | flush (pen : Fin 4096)
  | penHalt (pen : Fin 4096)
  | markBad (pen : Fin 4096)
  /-- PEN_DRAIN_DONE (R201). -/
  | penDrainDone (pen : Fin 4096)
  /-- A drover instruction (R217) of drover `d` at the drove clock edge at offset `off`, with the levels that its SENSE
  window and its test pin show to that edge (R210, R211). -/
  | br (d : Fin 256) (off : Nat) (sense : Nat) (test : Bool)
  | hold (d : Fin 256) (off : Nat) (sense : Nat) (test : Bool)
  | shin (d : Fin 256) (off : Nat) (sense : Nat) (test : Bool)
  | shout (d : Fin 256) (off : Nat) (sense : Nat) (test : Bool)
  | latch (d : Fin 256) (off : Nat) (sense : Nat) (test : Bool)
  | take (d : Fin 256) (off : Nat) (sense : Nat) (test : Bool)
  | copy (d : Fin 256) (off : Nat) (sense : Nat) (test : Bool)
  | put_ (d : Fin 256) (off : Nat) (sense : Nat) (test : Bool)
  | step_ (d : Fin 256) (off : Nat) (sense : Nat) (test : Bool)
  | edge (d : Fin 256) (off : Nat) (sense : Nat) (test : Bool)
  | flag (d : Fin 256) (off : Nat) (sense : Nat) (test : Bool)
  | halt (d : Fin 256) (off : Nat) (sense : Nat) (test : Bool)
  | undefinedDroverOpcode (d : Fin 256) (off : Nat) (sense : Nat) (test : Bool)
  | droveStoreUncorrectable (d : Fin 256) (off : Nat) (sense : Nat) (test : Bool)
  /-- DROVER_CLOCK_EDGE (R216): an edge at which the drover executes no instruction. -/
  | droverClockEdge (d : Fin 256) (off : Nat) (sense : Nat) (test : Bool)
  /-- DRV_CTRL (R228, R229). -/
  | drvRun (d : Fin 256)
  | drvStop (d : Fin 256)
  | drvRestart (d : Fin 256)
  /-- DROVE_EXCHANGE (R237). -/
  | droveCopy (drove : Fin 32)
  | droveCopyDone (drove : Fin 32)
  | exchange (drove : Fin 32) (mask : Fin 256) (carry : Fin 16)
  | exchangeCancel (drove : Fin 32)
  /-- DROVE_REGISTER_WRITE (R235): register word `w` of a drove through space 4. -/
  | droveRegisterWrite (drove : Fin 32) (w : Fin 64) (value : Word)
  /-- DROVE_STORE_WRITE (R235): instruction `a` of a drove's load store through space 4. -/
  | droveStoreWrite (drove : Fin 32) (a : Fin 512) (value : Word)
  /-- VIO_STATE_CHANGE (R245): the bank's state, 0 IN_RANGE, 1 LOW, 2 HIGH, 3 ABSENT. -/
  | vioStateChange (bank : Fin 32) (vio : Fin 4)
  /-- BANK_RETURN_TO_SERVICE (R245). -/
  | bankReturnToService (bank : Fin 32)
  /-- PIN_CAPTURE (R257): an edge of the pin's filter output detected at the offset. -/
  | pinCapture (pin : Fin 1024) (rise : Bool) (off : Nat)
  /-- FILTER_OUTPUT_CHANGE (R255). -/
  | filterOutputChange (pin : Fin 1024) (level : Bool)
  /-- BEACON_CTRL (R262). -/
  | beaconArm (b : Fin 64)
  | beaconStop (b : Fin 64)
  /-- BEACON_EDGE (R261): the beacon's next edge, in the work cycle at the offset. -/
  | beaconEdge (b : Fin 64) (off : Nat)
  /-- BUS_INTEGRATED (R275). -/
  | busIntegrated (ch : Fin 128)
  /-- BUS_FRAME_START (R280): the SOF edge leaves the ball in the work cycle at the offset. -/
  | busFrameStart (ch : Fin 128) (off : Nat)
  /-- BUS_FRAME_TX_END (R280): 0 success, 1 lost arbitration, 2 an error that moves TEC by 8, 3 an error that leaves TEC. -/
  | busFrameTxEnd (ch : Fin 128) (outcome : Fin 4)
  /-- BUS_FRAME_RECEIVED (R283): the frame as words 0 to 7 of R277 and its payload from word 8, with ESI, whether this hub
  sent it, and the work cycles since its SOF edge reached the ball. -/
  | busFrameReceived (ch : Fin 128) (own : Bool) (esi : Bool) (frame : List Word) (back : Nat)
  /-- BUS_PROTOCOL_VIOLATION (R286): a frame format not enabled or a reserved bit, or else a stuff, form, CRC or bit error;
  and what REC rises by under ISO 11898-1. -/
  | busProtocolViolation (ch : Fin 128) (format : Bool) (rise : Fin 9)
  /-- BUS_RX_RECORD_WRITE (R285). -/
  | busRxRecordWrite (ch : Fin 128)
  /-- BUS_TB_PEN_FETCH (R282). -/
  | busTbPenFetch (ch : Fin 128) (tb : Fin 3)
  | busRecoverDelayExpiry (ch : Fin 128)
  | busRecoveryDone (ch : Fin 128)
  | busDrainDone (ch : Fin 128)
  /-- BUS_CTRL (R275, R291, R297). -/
  | busRecover (ch : Fin 128)
  | busHalt (ch : Fin 128)
  | busAbortTb (ch : Fin 128) (tb : Fin 3)
  /-- ETH_FRAME_RECEIVED (R308): a frame on a port, its bytes from destination address up to the FCS, whether it ends in
  an FCS error, a code error or a cut, and the work cycles since its first destination-address bit reached the port. -/
  | ethFrameReceived (port : Fin 49) (bytes : List Nat) (bad : Bool) (back : Nat)
  /-- BEST_EFFORT_FRAME_START (R316) at the offset. -/
  | bestEffortFrameStart (port : Fin 49) (off : Nat)
  /-- PORT_TX_PEN_FETCH (R316): a port's transmit pen, or HOST_TX_PEN for 49. -/
  | portTxPenFetch (port : Fin 50)
  | portSettleDone (port : Fin 49)
  /-- PORT_LINK_UP (R302), with the 10BASE-T1L level that auto-negotiation chose. -/
  | portLinkUp (port : Fin 49) (ampl : Fin 3)
  | portLinkLost (port : Fin 49)
  | portLanePllLoss (port : Fin 49)
  | portLocalFault (port : Fin 49)
  | localFaultEnd (port : Fin 49)
  /-- REMOTE_FAULT_RECEIVED (R301): remote fault ordered sets are received, or cease. -/
  | remoteFaultReceived (port : Fin 49) (lasts : Bool)
  | portDrainDone (port : Fin 49)
  /-- PORT_CTRL (R302, R320). -/
  | portHalt (port : Fin 49)
  | portCalibrate (port : Fin 49)
  | portRestart (port : Fin 49)
  /-- FDB_AGE_EXPIRY (R313): a learned VID and address. -/
  | fdbAgeExpiry (vid : Nat) (mac : Nat)
  /-- TUNNEL_REPATH_HOLD_EXPIRY (R318): a node. -/
  | tunnelRepathHoldExpiry (node : Fin 1024)
  /-- RING_SCHEDULED_CELL (R342): a cell arrives on a receive link for a beat and slot of R339, with its CHECK. -/
  | ringScheduledCell (link : Fin 5) (beat : Nat) (slot : Fin 5) (cell : List Word) (check : Fin 256)
  /-- UNSCHEDULED_CELL_TRANSIT (R346): a cell arrives on a link, with the beat and slot that it would take onward (R62);
  TRANSIT_CELL_SEND (R343): the head of a transit buffer, for a beat and slot of its link. -/
  | unscheduledCellTransit (link : Fin 5) (cell : List Word) (check : Fin 256) (beat : Nat) (slot : Fin 5)
  | transitCellSend (link : Fin 4) (beat : Nat) (slot : Fin 5)
  /-- Markers received (R330); TRAIN_OK with the sender's PROTECT, DELAY_PROBE with the TA that the echo will carry,
  DELAY_ECHO with its TA and the RT measured, in 1/16 wc. -/
  | linkFault (link : Fin 5)
  | trainOk (link : Fin 5) (protect : Bool)
  | delayProbe (link : Fin 5) (ta : Nat)
  | delayEcho (link : Fin 5) (ta : Nat) (rt : Nat)
  | ringLinkSettleDone (link : Fin 5)
  /-- RING_LINK_TRAINED (R348) with the polarity and lane order that training found. -/
  | ringLinkTrained (link : Fin 5) (polarity : Fin 16) (swapped : Bool)
  | ringTrainingTimeout (link : Fin 5)
  | ringBlockLockLost (link : Fin 5)
  | ringBlockLockAcquired (link : Fin 5)
  | ringLanePllLoss (link : Fin 5)
  | retrainHoldExpiry (link : Fin 5)
  /-- RING_LINK_CTRL (R348). -/
  | ringHalt (link : Fin 5)
  | ringCalibrate (link : Fin 5)
  | retrain (link : Fin 5)
  /-- TOPOLOGY (R351): a station's report of a link, with its report counter. -/
  | topology (station : Fin 2048) (link : Fin 5) (up : Bool) (counter : Nat)
  /-- TUNNEL (R347): a cell of a TUNNEL message, with the direction it travels in. -/
  | tunnel (dir : Fin 4) (cell : List Word) (check : Fin 256)
  /-- SEAL (R357): the tag and the sealed fabric tide number. -/
  | seal_ (link : Fin 5) (tag : Nat) (tide : Nat)
  | sealLimitExpiry (link : Fin 5)
  /-- MALFORMED_SLOT (R331): a data block followed by a control block, or else a reserved control type or marker. -/
  | malformedSlot (link : Fin 5) (data : Bool)
  /-- RESERVED_CELL (R345, R358, R364, R400, R428): a cell with a reserved KIND, TYPE or field. -/
  | reservedCell (link : Fin 5) (cell : List Word) (check : Fin 256)
  /-- Muster messages received (R364). Stations are node × 2 + unit; `dir` is the direction of travel (0 A forward, 1 A
  return, 2 B forward, 3 B return). -/
  | musterHello (link : Fin 4) (src : Fin 2048) (epoch : Nat)
  | claim (dir : Fin 4) (src : Fin 2048) (claimw : Nat) (part : Nat) (nonce : Nat) (hops : Nat) (wrapped : Bool)
  | standin (dir : Fin 4) (src : Fin 2048) (claimw : Nat) (part : Nat) (nonce : Nat) (epoch : Nat) (hops : Nat) (wrapped : Bool)
  | roster (src : Fin 2048) (claimw : Nat) (west : Option (Fin 2048)) (d : List (Option Nat)) (epoch : Nat)
  | set (link : Fin 4) (src : Fin 2048) (epoch : Nat) (resume : Bool) (p : Nat) (first : Nat) (start : Nat) (stations : Nat)
  | join (src : Fin 2048) (epoch : Nat)
  | reject (link : Fin 4) (src : Fin 2048) (reason : Fin 8)
  | remuster (src : Fin 2048) (epoch : Nat)
  /-- MUSTER_CMD REMUSTER (R376). -/
  | remusterCmd
  | tide (src : Fin 2048) (epoch : Nat) (claimw : Nat) (acting : Bool) (f : Nat) (p : Nat)
  | round (src : Fin 2048) (n : Nat)
  | consent (src : Fin 2048) (n : Nat)
  | veto (src : Fin 2048) (n : Nat) (need : Nat)
  | commit (link : Fin 4) (src : Fin 2048) (n : Nat) (ebbAt : Nat)
  | cancel (link : Fin 4) (src : Fin 2048) (n : Nat) (reason : Fin 8) (vetoer : Fin 2048)
  | flood (src : Fin 2048) (beacons : Nat)
  /-- EBB_CMD (R377, R379). -/
  | startRound
  | cancelRound
  | claimListenExpiry
  | electLimitExpiry
  | claimRepeatExpiry
  | joinRepeatExpiry
  | tideMasterLoss
  | roundLimitExpiry
  | roundIntervalExpiry
  | ebbAtReached
  | floodQuietExpiry
  | floodBeaconExpiry
  /-- WAKE_PATTERN_REPEAT_EXPIRY (R382): the link DOWN for 3,125 sc. -/
  | wakePatternRepeatExpiry (link : Fin 4)
  /-- BEACON_LIMIT_EXPIRY (R383): the beaconing station. -/
  | beaconLimitExpiry (station : Fin 2048)
  | resumeWaitExpiry
  | resumeLimitExpiry
  /-- WAKE_INPUT (R384): the input takes its active level, or its inactive level. -/
  | wakeInput (active : Bool)
  /-- WAKE_PATTERN_DETECTED (R385). -/
  | wakePatternDetected (link : Fin 4)
  /-- SYNC (R401, R402): a copy on a receive link; `at16` is the tide offset of its block 0 at the receive ball in 1/16 wc,
  `residence` the time to the onward ball in 1/16 wc. -/
  | sync (link : Fin 4) (src : Fin 2048) (wrapped : Bool) (hops : Nat) (m : SyncMsg) (at16 : Nat) (residence : Nat)
  /-- REPORT (R400): OFFSET in 2^-16 ns, RATE in 2^-40. -/
  | report (src : Fin 2048) (d : Fin 2) (dstate : Fin 4) (offset : Int) (rate : Int) (gm : Nat) (cls : Nat) (steps : Nat)
  /-- ANNOUNCE (R400): VALID, DOMAIN, the dataset and PORT of a station. -/
  | announce (src : Fin 2048) (d : Fin 2) (valid : Bool) (port : Fin 49) (m : AnnounceMsg)
  | syncPreTideExpiry
  | syncLossTides
  | holdoverLimitExpiry
  | revertHoldExpiry
  | domainSyncLoss (d : Fin 2)
  | domainReportLoss (d : Fin 2)
  | ptpSyncIntervalExpiry (d : Fin 2) (port : Fin 49) (off : Nat)
  | announceIntervalExpiry (d : Fin 2)
  /-- PTP messages received (R404 to R408). -/
  | ptpSync (m : PtpMsg) (twoStep : Bool)
  | ptpFollowUp (m : PtpMsg)
  | ptpDelayReq (m : PtpMsg)
  | ptpDelayResp (m : PtpMsg)
  | ptpPdelayReq (m : PtpMsg)
  | ptpPdelayResp (m : PtpMsg) (twoStep : Bool)
  | ptpPdelayRespFollowUp (m : PtpMsg)
  | ptpAnnounce (m : PtpMsg) (a : AnnounceMsg) (utc : Nat) (path : List Nat)
  | ptpManagement (m : PtpMsg)
  /-- PTP_MALFORMED (R408): a message that breaks its profile, or a reserved messageType. -/
  | ptpMalformed (port : Fin 49)
  /-- TIME_SET (R398): AT as a TIME of 112 bits. -/
  | timeSet (at_ : Nat)
  /-- TIME_CMD SWITCH (R409). -/
  | switch
  /-- CLAIM_FRAME_START (R422). -/
  | claimFrameStart
  /-- CLAIM_FRAME_RECEIVED (R423): CLAIM, NEXT and CRC of a frame, whether SYNC and bit cells check, and whether a turn
  fell between the start of its SYNC and the end of its CRC. -/
  | claimFrameReceived (claim : Fin 65536) (next : Fin 65536) (crc : Fin 256) (good : Bool) (turned : Bool)
  | claimInSilence
  /-- PAIR_HELLO (R417, R428). -/
  | pairHello (node : Fin 1024) (unit : Fin 2) (st : Fin 8) (claim : Fin 65536) (image : Nat) (f : Nat) (fw : Nat)
  | aloneWaitExpiry
  /-- PAIR_DIGEST (R430): F and the entries' region, VALID and digest. -/
  | pairDigest (f : Nat) (entries : List (Nat × Bool × Nat))
  | pairDigestSend
  /-- SELFCHECK_DONE (R432): PASS, and the signature. -/
  | selfcheckDone (signature : Nat)
  /-- SELFCHECK (R432): the partner's RESULT. -/
  | selfcheck (pass : Bool) (f : Nat) (signature : Nat)
  /-- MIRROR (R437): SEQ and item words. -/
  | mirror (seq : Nat) (words : List Word)
  | pairCommit (seq : Nat) (count : Nat) (crc : Nat) (fk : Nat)
  | pairAck (seq : Nat)
  | nak (seq : Nat)
  | partnerSilence
  /-- PAIR_CMD (R418, R424, R439). -/
  | swap
  | rejoin
  | confirm
  | resync
  /-- Dictionary operations (R459). -/
  | read (m : Msg)
  | write (m : Msg)
  | writeVerify (m : Msg)
  | readBulk (m : Msg)
  | writeBulk (m : Msg)
  | subscribe (m : Msg)
  | unsubscribe (m : Msg)
  /-- NOTIFY (R462): subscription `n` falls due at the turn; it leaves, or it is dropped because its path is blocked. -/
  | notify (n : Fin 64) (leaves : Bool)
  | describe (m : Msg)
  | pointRead (m : Msg)
  | pointWrite (m : Msg)
  | challenge (m : Msg)
  | open_ (m : Msg)
  | close (m : Msg)
  | blobRead (m : Msg)
  | blobWrite (m : Msg)
  /-- DICT_MALFORMED_REQUEST (R464): the words received on a path; `packing` says that a UDP payload was not a multiple
  of 3 bytes or had a packing byte with bits [7:2] set. -/
  | dictMalformedRequest (path : Fin 4) (source : Nat) (words : List Word) (packing : Bool)
  /-- RELAYED_RESPONSE (R457): the response to relay number `relay`. -/
  | relayedResponse (relay : Nat) (abort : Nat) (pend : Bool) (dflt : Bool) (body : List Word)
  | relayTimeout (relay : Nat)
  /-- BLOB_GAP_EXPIRY (R460): the open blob of an entry. -/
  | blobGapExpiry (entry : Nat)
  | sessionIdleExpiry (n : Fin 16)
  /-- NONCE_EXPIRY (R454): the oldest nonce of a path and source lapses. -/
  | nonceExpiry (path : Fin 4) (source : Nat)
  /-- ARP_REQUEST, ICMP_ECHO_REQUEST (R456): the address asked for, and the echo's payload. -/
  | arpRequest (address : Nat) (asker : Nat)
  | icmpEchoRequest (address : Nat) (asker : Nat) (payload : List Nat)
  /-- DICT_CMD (R467). -/
  | resetGroup (group : Nat)
  | clearDefaulted (group : Nat)
  | closeAll
  /-- BAR2_READ, BAR2_WRITE (R475): BAR byte address, dwords, whether every dword carries byte enables 0xF, and EP of the
  TLP (R476). -/
  | bar2Read (addr : Fin 1073741824) (n : Nat) (full : Bool)
  | bar2Write (addr : Fin 1073741824) (words : List Word) (full : Bool) (ep : Bool)
  /-- BAR0 registers (R472). -/
  | reqData (w : Word)
  | reqEnd
  | reqAbort
  | rspData
  | rspFlush
  /-- INT_STATUS_CLEAR (R477): the bits written 1, and INT_ENABLE when the same request writes it. -/
  | intStatusClear (mask : Fin 32) (enable : Option (Fin 32))
  | qlock (on : Bool)
  /-- BAR0_UNMAPPED_ACCESS (R472): the offset, and whether it is a write. -/
  | bar0UnmappedAccess (offset : Fin 65536) (write : Bool)
  /-- MSI_X_TABLE_WRITE (R477): one dword of a vector's entry. -/
  | msiXTableWrite (vector : Fin 64) (dword : Fin 4) (value : BitVec 32)
  | tideInterrupt
  /-- PCIE_RESET (R478): a link going down, or another reset that it names. -/
  | pcieReset (linkDown : Bool)
  /-- PCIE_LINK_UP (R493): SPEED and WIDTH codes of HOST_STATE. -/
  | pcieLinkUp (speed : Fin 5) (width : Fin 5)
  /-- QUAY_READ (R481): a space-7 offset, words, and the beats as sampled. -/
  | quayRead (offset : Fin 134217728) (n : Nat) (beats : List QBeat)
  | quayPostedWrite (offset : Fin 134217728) (words : List Word)
  /-- QUAY_WRITE_BURST (R481): the beats of the oldest posted write. -/
  | quayWriteBurst (beats : List QBeat)
  | quayLockTimeout
  | quayDrainDone
  /-- QUAY_CTRL HALT (R487). -/
  | quayHalt
  /-- Service-port packets (R489). -/
  | msgWrite (words : List Word) (e : SvcEnd)
  | msgRead (len : Nat) (e : SvcEnd)
  | imageWrite (words : List Word) (e : SvcEnd)
  | reservedServiceCommand
  /-- BELL_FIRING (R495): a source fires with an instance and a detail. -/
  | bellFiring (src : Nat) (inst : Nat) (detail : Nat)
  /-- BELL_WINDOW_TICK (R499): the next millisecond tick. -/
  | bellWindowTick
  | bellCompareMismatch
  /-- BELL_ACK (R498) by a session on a path. -/
  | bellAck (src : Nat) (session : Fin 16) (path : Fin 4)
  | bellForce (src : Nat) (inst : Nat)
  | ackAll (session : Fin 16) (path : Fin 4)
  /-- TALLY_RECORD_WRITE (R508). -/
  | tallyRecordWrite
  | tallyRepeatWrite
  | tallyOverrunQueue
  | ophoursStore
  | tallyFlush
  | tallyClear
  /-- TRACE_RECORD_WRITE (R519). -/
  | traceRecordWrite
  /-- FOLD_TAMPER (R528): the cause less one, and VBAT in mV. -/
  | foldTamper (cause : Fin 9) (vbat : Fin 4096)
  | foldRootDraw
  /-- VBAT_LOW_EXPIRY (R527): VBAT in mV. -/
  | vbatLowExpiry (vbat : Fin 4096)
  /-- FOLD_OP (R536): slots named, target metadata and the payload from word 3. -/
  | installClear (a : Asker) (target : Fin 64) (fill : Fill) (payload : List Word)
  | installSigned (a : Asker) (target : Fin 64) (fill : Fill) (payload : List Word)
  | installWrapped (a : Asker) (slot : Fin 64) (target : Fin 64) (fill : Fill) (payload : List Word)
  | derive (a : Asker) (slot : Fin 64) (target : Fin 64) (fill : Fill) (payload : List Word)
  | deriveRoot (a : Asker) (target : Fin 64) (fill : Fill) (payload : List Word)
  | erase (a : Asker) (target : Fin 64)
  | sign (a : Asker) (slot : Fin 64) (payload : List Word)
  | verify (a : Asker) (slot : Fin 64) (payload : List Word)
  | lifecycle (a : Asker) (payload : List Word)
  | otpWrite (a : Asker) (target : Fin 64) (payload : List Word)
  | revoke (a : Asker) (target : Fin 64)
  /-- FOLD_OP_DONE (R539): the fixed time of the operation in service ends. -/
  | foldOpDone
  | trngHealthFail
  | trngHealthRecover
  /-- LIFECYCLE_BURN_DONE (R549): the cold start that follows samples the straps. -/
  | lifecycleBurnDone (straps : Fin 64) (bad : Fin 16)
  /-- UPDATE_BLOCK (R558, R560): a block frame of 515 words on a dictionary path. -/
  | updateBlock (frame : List Word)
  /-- UPDATE_CMD (R559, R561). -/
  | updateDiscard
  | updateCheck
  /-- UPDATE_CHECK_DONE (R561). -/
  | updateCheckDone
  | schedule
  | unschedule (id : Nat)
  /-- PROFILE_CMD (R570, R571). -/
  | profileSelect (n : Fin 4)
  | profileStore (n : Fin 4)
  | storeStaging (n : Fin 4)
  | profileErase (n : Fin 4)
  | profileCommandDone
  /-- Gates (chapter 21), each event with the sample that shows it. -/
  | gateSeated (g : Fin 16) (m : GateSample)
  /-- GATE_UNSEATED (R578): the seat pins that are still made. -/
  | gateUnseated (g : Fin 16) (a : Bool) (b : Bool)
  | seatDebounceExpiry (g : Fin 16)
  | gateStart (g : Fin 16) (m : GateSample)
  | prechargeDone (g : Fin 16) (m : GateSample)
  | turnOnDone (g : Fin 16) (m : GateSample)
  | pgoodDelayExpiry (g : Fin 16)
  | preTimeExpiry (g : Fin 16)
  | mainTimeExpiry (g : Fin 16)
  | slowCurrentTrip (g : Fin 16) (m : GateSample)
  | fastCurrentTrip (g : Fin 16)
  | fetHotTrip (g : Fin 16) (m : GateSample)
  | railWindowExit (g : Fin 16) (m : GateSample)
  /-- COOLDOWN_EXPIRY (R583): the off time passes. -/
  | cooldownExpiry (g : Fin 16) (m : GateSample)
  | fetCooled (g : Fin 16) (m : GateSample)
  | retryResetExpiry (g : Fin 16)
  | gateDamageDetected (g : Fin 16) (m : GateSample)
  /-- GATE_CMD (R579); CLEAR_DAMAGED says whether the test has run for DAMAGE_WAIT with the condition clear (R584). -/
  | gateOn (g : Fin 16)
  | gateOff (g : Fin 16)
  | gateReset (g : Fin 16)
  | clearDamaged (g : Fin 16) (clear : Bool)
  /-- SUPPLY_STATE_CHANGE (R598): the state of a core supply, 0 UP, 1 LOW, 2 HIGH, 3 DOWN, and its voltage. -/
  | supplyStateChange (supply : Fin 9) (st : Fin 4) (mv : Fin 4096)
  /-- POWER_ORDER_BREACH (R596): KIND and supply of R597. -/
  | powerOrderBreach (kind : Fin 4) (supply : Fin 64)
  | shoreXtalFail
  /-- WORK_PLL_LOSS (R601): REFCLK also left its range. -/
  | workPllLoss (ref : Bool)
  | vddShoreUp
  | resetNAsserted
  | resetNRelease (straps : Fin 64) (bad : Fin 16)
  | warmNRelease (straps : Fin 64) (bad : Fin 16)
  | deepAfterExpiry
  /-- T_J thresholds (R611), with T_J in °C + 64. -/
  | junctionHotThreshold (tj : Fin 512)
  | junctionLimitThreshold (tj : Fin 512)
  | thermalTrip (tj : Fin 512)
  | junctionThresholdClear (k : Fin 3) (tj : Fin 512)
  /-- Starts (R608, R609), with SLOTID in [5:2] and PSEL in [1:0] as sampled (R607), and the upland channels whose link
  training fails (R173), by bit. -/
  | coldStart (straps : Fin 64) (bad : Fin 16)
  | warmRestart (straps : Fin 64) (bad : Fin 16)
  | deepKeepExit (straps : Fin 64) (bad : Fin 16)
  | floodFromKeep (bad : Fin 16)
  /-- POWER_CMD (R604). -/
  | powerLight
  | powerFull
  | powerKeep
  | powerDeepKeep
  | powerWarm
  | powerCold
  deriving DecidableEq, Repr

end Sys2Proof
end

