-- ==== Sys2Proof/WellFormed.lean ====
section
/-! DEFINITION. The terms of Instr that are commands of the hub: each operand within the size of the frame, cell, message or
register field that carries it. A term that fails the check stands for no event; no meaning stops on one. -/

namespace Sys2Proof

/-- A number that fits a field of `w` bits. -/
def fits (w n : Nat) : Bool := decide (n < 2 ^ w)

/-- A signed number that fits a field of `w` bits. -/
def fitsS (w : Nat) (i : Int) : Bool := decide (-2 ^ (w - 1) ≤ i) && decide (i < 2 ^ (w - 1))

/-- An optional number, such as a link's d in a ROSTER (R364), that fits its field. -/
def optFits (w : Nat) : Option Nat → Bool
  | none => true
  | some n => fits w n

/-- A tide offset: P is at most 2^27 work cycles (R40). -/
def inTide (off : Nat) : Bool := fits 27 off

/-- An index into a sluice's stroke range (R109). -/
def strokeIndex (idx : Nat) : Bool := decide (idx < 524288)

/-- A cell is 32 words (R329, R344). -/
def isCell (cell : List Word) : Bool := decide (cell.length = 32)

/-- Bytes of a frame or packet. -/
def bytesOk (bytes : List Nat) : Bool := bytes.all (fits 8)

/-- Words 0 to 7 of R277 and at most 2,048 bytes of payload. -/
def busFrame (frame : List Word) : Bool := decide (8 ≤ frame.length) && decide (frame.length ≤ 1032)

/-- CLAIMW, PART, NONCE and HOPS of R344 and R364. -/
def claimOk (claimw part nonce hops : Nat) : Bool := fits 18 claimw && fits 18 part && fits 18 nonce && fits 12 hops

/-- Region and digest of a DIGEST entry (R428). -/
def digestEntry (e : Nat × Bool × Nat) : Bool := fits 10 e.1 && fits 32 e.2.2

/-- The payload of a FOLD_OP value (R536). -/
def foldPayload (payload : List Word) : Bool := decide (payload.length ≤ 4608)

/-- A BAR2 request of at most 1,024 dwords (R475). -/
def hostRun (addr : Fin 1073741824) (n : Nat) : Bool :=
  decide (1 ≤ n) && decide (n ≤ 1024) && decide (addr.val % 4 = 0) && decide (addr.val / 4 + n ≤ 268435456)

/-- A run of words of space 7 (R481). -/
def quayRun (offset : Fin 134217728) (n : Nat) : Bool := decide (1 ≤ n) && decide (offset.val + n ≤ 134217728)

/-- A Bell source number (R495, R506). -/
def bellSource (src : Nat) : Bool := fits 9 src

def SyncMsg.wellFormed (m : SyncMsg) : Bool :=
  fits 18 m.epoch && fits 112 m.origin && fits 72 m.corr && fits 36 m.f && fits 19 m.utc && fitsS 72 m.off0 && fitsS 72 m.off1

def AnnounceMsg.wellFormed (m : AnnounceMsg) : Bool :=
  fits 8 m.prio1 && fits 8 m.cls && fits 8 m.acc && fits 8 m.prio2 && fits 16 m.variance && fits 64 m.gm && fits 16 m.steps

def PtpMsg.wellFormed (m : PtpMsg) : Bool :=
  fits 8 m.number && fits 16 m.seq && fitsS 64 m.corr && fits 80 m.t && inTide m.off

/-- The header of R458 and a body within the longest limit of R456. -/
def Msg.wellFormed (m : Msg) : Bool :=
  fits 18 m.tag && fits 10 m.target && fits 1 m.unit && fits 18 m.entry && fits 12 m.sub && fits 9 m.count
    && decide (m.body.length ≤ 4601)

/-- The command is one the hub can be given. -/
def wellFormed : Instr → Bool
  | .turn => true
  | .noTidePeriod => true
  | .tileWake _ off => inTide off
  | .tileDark _ off => inTide off
  | .tileRedark _ off => inTide off
  | .wait _ idx => strokeIndex idx
  | .move _ idx => strokeIndex idx
  | .carry _ idx => strokeIndex idx
  | .push _ idx => strokeIndex idx
  | .fetch _ idx => strokeIndex idx
  | .store _ idx => strokeIndex idx
  | .drvWr _ idx => strokeIndex idx
  | .drvRd _ idx => strokeIndex idx
  | .pinIn _ idx => strokeIndex idx
  | .pinOut _ idx => strokeIndex idx
  | .cellTx _ idx => strokeIndex idx
  | .pairTx _ idx => strokeIndex idx
  | .cellRx _ idx => strokeIndex idx
  | .pairRx _ idx => strokeIndex idx
  | .penRd _ idx => strokeIndex idx
  | .penWr _ idx => strokeIndex idx
  | .busLoad _ idx => strokeIndex idx
  | .frameTx _ idx => strokeIndex idx
  | .digest _ idx => strokeIndex idx
  | .reservedOpcodeStroke _ idx => strokeIndex idx
  | .uplandRefresh _ off _ => inTide off
  | .uplandCommandRetry _ off _ => inTide off
  | .ledgerBlockStart => true
  | .ledgerStageGrant _ inst off => fits 12 inst && inTide off
  | .ledgerOverdue _ => true
  | .scrubRead _ off => inTide off
  | .scrubWriteBack off => inTide off
  | .poisonMarkWrite off => inTide off
  | .tableOpen => true
  | .tableCheck => true
  | .tableArm => true
  | .tableDisarm => true
  | .tableDiscard => true
  | .tableCheckDone elapsed => fits 36 elapsed
  | .shepherdWatchdog _ => true
  | .shepherdRestartDone => true
  | .clearLine _ addr => fits 29 addr
  | .penAccessRead _ => true
  | .penAccessWrite _ words _ _ => decide (words.length ≤ 4)
  | .flush _ => true
  | .penHalt _ => true
  | .markBad _ => true
  | .penDrainDone _ => true
  | .br _ off sense _ => inTide off && fits 32 sense
  | .hold _ off sense _ => inTide off && fits 32 sense
  | .shin _ off sense _ => inTide off && fits 32 sense
  | .shout _ off sense _ => inTide off && fits 32 sense
  | .latch _ off sense _ => inTide off && fits 32 sense
  | .take _ off sense _ => inTide off && fits 32 sense
  | .copy _ off sense _ => inTide off && fits 32 sense
  | .put_ _ off sense _ => inTide off && fits 32 sense
  | .step_ _ off sense _ => inTide off && fits 32 sense
  | .edge _ off sense _ => inTide off && fits 32 sense
  | .flag _ off sense _ => inTide off && fits 32 sense
  | .halt _ off sense _ => inTide off && fits 32 sense
  | .undefinedDroverOpcode _ off sense _ => inTide off && fits 32 sense
  | .droveStoreUncorrectable _ off sense _ => inTide off && fits 32 sense
  | .droverClockEdge _ off sense _ => inTide off && fits 32 sense
  | .drvRun _ => true
  | .drvStop _ => true
  | .drvRestart _ => true
  | .droveCopy _ => true
  | .droveCopyDone _ => true
  | .exchange _ _ _ => true
  | .exchangeCancel _ => true
  | .droveRegisterWrite _ _ _ => true
  | .droveStoreWrite _ _ _ => true
  | .vioStateChange _ _ => true
  | .bankReturnToService _ => true
  | .pinCapture _ _ off => inTide off
  | .filterOutputChange _ _ => true
  | .beaconArm _ => true
  | .beaconStop _ => true
  | .beaconEdge _ off => inTide off
  | .busIntegrated _ => true
  | .busFrameStart _ off => inTide off
  | .busFrameTxEnd _ _ => true
  | .busFrameReceived _ _ _ frame back => busFrame frame && inTide back
  | .busProtocolViolation _ _ _ => true
  | .busRxRecordWrite _ => true
  | .busTbPenFetch _ _ => true
  | .busRecoverDelayExpiry _ => true
  | .busRecoveryDone _ => true
  | .busDrainDone _ => true
  | .busRecover _ => true
  | .busHalt _ => true
  | .busAbortTb _ _ => true
  | .ethFrameReceived _ bytes _ back => bytesOk bytes && inTide back
  | .bestEffortFrameStart _ off => inTide off
  | .portTxPenFetch _ => true
  | .portSettleDone _ => true
  | .portLinkUp _ _ => true
  | .portLinkLost _ => true
  | .portLanePllLoss _ => true
  | .portLocalFault _ => true
  | .localFaultEnd _ => true
  | .remoteFaultReceived _ _ => true
  | .portDrainDone _ => true
  | .portHalt _ => true
  | .portCalibrate _ => true
  | .portRestart _ => true
  | .fdbAgeExpiry vid mac => fits 12 vid && fits 48 mac
  | .tunnelRepathHoldExpiry _ => true
  | .ringScheduledCell _ beat _ cell _ => inTide (36 * beat) && isCell cell
  | .unscheduledCellTransit _ cell _ beat _ => inTide (36 * beat) && isCell cell
  | .transitCellSend _ beat _ => inTide (36 * beat)
  | .linkFault _ => true
  | .trainOk _ _ => true
  | .delayProbe _ ta => fits 16 ta
  | .delayEcho _ ta rt => fits 16 ta && fits 27 rt
  | .ringLinkSettleDone _ => true
  | .ringLinkTrained _ _ _ => true
  | .ringTrainingTimeout _ => true
  | .ringBlockLockLost _ => true
  | .ringBlockLockAcquired _ => true
  | .ringLanePllLoss _ => true
  | .retrainHoldExpiry _ => true
  | .ringHalt _ => true
  | .ringCalibrate _ => true
  | .retrain _ => true
  | .topology _ _ _ counter => fits 16 counter
  | .tunnel _ cell _ => isCell cell
  | .seal_ _ tag tide => fits 128 tag && fits 36 tide
  | .sealLimitExpiry _ => true
  | .malformedSlot _ _ => true
  | .reservedCell _ cell _ => isCell cell
  | .musterHello _ _ epoch => fits 18 epoch
  | .claim _ _ claimw part nonce hops _ => claimOk claimw part nonce hops
  | .standin _ _ claimw part nonce epoch hops _ => claimOk claimw part nonce hops && fits 18 epoch
  | .roster _ claimw _ d epoch => fits 18 claimw && decide (d.length = 4) && d.all (optFits 17) && fits 18 epoch
  | .set _ _ epoch _ p first start stations => fits 18 epoch && fits 36 p && fits 36 first && fits 112 start && fits 12 stations
  | .join _ epoch => fits 18 epoch
  | .reject _ _ _ => true
  | .remuster _ epoch => fits 18 epoch
  | .remusterCmd => true
  | .tide _ epoch claimw _ f p => fits 18 epoch && fits 18 claimw && fits 36 f && fits 36 p
  | .round _ n => fits 18 n
  | .consent _ n => fits 18 n
  | .veto _ n need => fits 18 n && fits 8 need
  | .commit _ _ n ebbAt => fits 18 n && fits 112 ebbAt
  | .cancel _ _ n _ _ => fits 18 n
  | .flood _ beacons => fits 18 beacons
  | .startRound => true
  | .cancelRound => true
  | .claimListenExpiry => true
  | .electLimitExpiry => true
  | .claimRepeatExpiry => true
  | .joinRepeatExpiry => true
  | .tideMasterLoss => true
  | .roundLimitExpiry => true
  | .roundIntervalExpiry => true
  | .ebbAtReached => true
  | .floodQuietExpiry => true
  | .floodBeaconExpiry => true
  | .wakePatternRepeatExpiry _ => true
  | .beaconLimitExpiry _ => true
  | .resumeWaitExpiry => true
  | .resumeLimitExpiry => true
  | .wakeInput _ => true
  | .wakePatternDetected _ => true
  | .sync _ _ _ hops m at16 residence => fits 12 hops && m.wellFormed && fits 31 at16 && fits 31 residence
  | .report _ _ _ offset rate gm cls steps => fitsS 72 offset && fitsS 36 rate && fits 64 gm && fits 8 cls && fits 8 steps
  | .announce _ _ _ _ m => m.wellFormed
  | .syncPreTideExpiry => true
  | .syncLossTides => true
  | .holdoverLimitExpiry => true
  | .revertHoldExpiry => true
  | .domainSyncLoss _ => true
  | .domainReportLoss _ => true
  | .ptpSyncIntervalExpiry _ _ off => inTide off
  | .announceIntervalExpiry _ => true
  | .ptpSync m _ => m.wellFormed
  | .ptpFollowUp m => m.wellFormed
  | .ptpDelayReq m => m.wellFormed
  | .ptpDelayResp m => m.wellFormed
  | .ptpPdelayReq m => m.wellFormed
  | .ptpPdelayResp m _ => m.wellFormed
  | .ptpPdelayRespFollowUp m => m.wellFormed
  | .ptpAnnounce m a utc path => m.wellFormed && a.wellFormed && fits 19 utc && path.all (fits 64)
  | .ptpManagement m => m.wellFormed
  | .ptpMalformed _ => true
  | .timeSet at_ => fits 112 at_
  | .switch => true
  | .claimFrameStart => true
  | .claimFrameReceived _ _ _ _ _ => true
  | .claimInSilence => true
  | .pairHello _ _ _ _ image f fw => fits 36 image && fits 36 f && fits 18 fw
  | .aloneWaitExpiry => true
  | .pairDigest f entries => fits 36 f && decide (entries.length ≤ 8) && entries.all digestEntry
  | .pairDigestSend => true
  | .selfcheckDone signature => fits 32 signature
  | .selfcheck _ f signature => fits 36 f && fits 32 signature
  | .mirror seq words => fits 18 seq && decide (1 ≤ words.length) && decide (words.length ≤ 26)
  | .pairCommit seq count crc fk => fits 18 seq && fits 36 count && fits 32 crc && fits 36 fk
  | .pairAck seq => fits 18 seq
  | .nak seq => fits 18 seq
  | .partnerSilence => true
  | .swap => true
  | .rejoin => true
  | .confirm => true
  | .resync => true
  | .read m => m.wellFormed
  | .write m => m.wellFormed
  | .writeVerify m => m.wellFormed
  | .readBulk m => m.wellFormed
  | .writeBulk m => m.wellFormed
  | .subscribe m => m.wellFormed
  | .unsubscribe m => m.wellFormed
  | .notify _ _ => true
  | .describe m => m.wellFormed
  | .pointRead m => m.wellFormed
  | .pointWrite m => m.wellFormed
  | .challenge m => m.wellFormed
  | .open_ m => m.wellFormed
  | .close m => m.wellFormed
  | .blobRead m => m.wellFormed
  | .blobWrite m => m.wellFormed
  | .dictMalformedRequest _ _ words _ => decide (words.length ≤ 4608)
  | .relayedResponse relay abort _ _ body => fits 18 relay && fits 9 abort && decide (body.length ≤ 4601)
  | .relayTimeout relay => fits 18 relay
  | .blobGapExpiry entry => fits 18 entry
  | .sessionIdleExpiry _ => true
  | .nonceExpiry _ _ => true
  | .arpRequest address _ => fits 32 address
  | .icmpEchoRequest address _ payload => fits 32 address && bytesOk payload
  | .resetGroup group => fits 5 group
  | .clearDefaulted group => fits 5 group
  | .closeAll => true
  | .bar2Read addr n _ => hostRun addr n
  | .bar2Write addr words _ _ => hostRun addr words.length
  | .reqData _ => true
  | .reqEnd => true
  | .reqAbort => true
  | .rspData => true
  | .rspFlush => true
  | .intStatusClear _ _ => true
  | .qlock _ => true
  | .bar0UnmappedAccess _ _ => true
  | .msiXTableWrite _ _ _ => true
  | .tideInterrupt => true
  | .pcieReset _ => true
  | .pcieLinkUp _ _ => true
  | .quayRead offset n _ => quayRun offset n
  | .quayPostedWrite offset words => quayRun offset words.length
  | .quayWriteBurst _ => true
  | .quayLockTimeout => true
  | .quayDrainDone => true
  | .quayHalt => true
  | .msgWrite words _ => decide (words.length ≤ 4608)
  | .msgRead len _ => decide (len ≤ 4608)
  | .imageWrite words _ => decide (words.length ≤ 4608)
  | .reservedServiceCommand => true
  | .bellFiring src inst detail => bellSource src && fits 18 inst && fits 36 detail
  | .bellWindowTick => true
  | .bellCompareMismatch => true
  | .bellAck src _ _ => bellSource src
  | .bellForce src inst => bellSource src && fits 18 inst
  | .ackAll _ _ => true
  | .tallyRecordWrite => true
  | .tallyRepeatWrite => true
  | .tallyOverrunQueue => true
  | .ophoursStore => true
  | .tallyFlush => true
  | .tallyClear => true
  | .traceRecordWrite => true
  | .foldTamper _ _ => true
  | .foldRootDraw => true
  | .vbatLowExpiry _ => true
  | .installClear _ _ _ payload => foldPayload payload
  | .installSigned _ _ _ payload => foldPayload payload
  | .installWrapped _ _ _ _ payload => foldPayload payload
  | .derive _ _ _ _ payload => foldPayload payload
  | .deriveRoot _ _ _ payload => foldPayload payload
  | .erase _ _ => true
  | .sign _ _ payload => foldPayload payload
  | .verify _ _ payload => foldPayload payload
  | .lifecycle _ payload => foldPayload payload
  | .otpWrite _ _ payload => foldPayload payload
  | .revoke _ _ => true
  | .foldOpDone => true
  | .trngHealthFail => true
  | .trngHealthRecover => true
  | .lifecycleBurnDone _ _ => true
  | .updateBlock frame => decide (7 ≤ frame.length) && decide (frame.length ≤ 4608)
  | .updateDiscard => true
  | .updateCheck => true
  | .updateCheckDone => true
  | .schedule => true
  | .unschedule id => fits 36 id
  | .profileSelect _ => true
  | .profileStore _ => true
  | .storeStaging _ => true
  | .profileErase _ => true
  | .profileCommandDone => true
  | .gateSeated _ _ => true
  | .gateUnseated _ _ _ => true
  | .seatDebounceExpiry _ => true
  | .gateStart _ _ => true
  | .prechargeDone _ _ => true
  | .turnOnDone _ _ => true
  | .pgoodDelayExpiry _ => true
  | .preTimeExpiry _ => true
  | .mainTimeExpiry _ => true
  | .slowCurrentTrip _ _ => true
  | .fastCurrentTrip _ => true
  | .fetHotTrip _ _ => true
  | .railWindowExit _ _ => true
  | .cooldownExpiry _ _ => true
  | .fetCooled _ _ => true
  | .retryResetExpiry _ => true
  | .gateDamageDetected _ _ => true
  | .gateOn _ => true
  | .gateOff _ => true
  | .gateReset _ => true
  | .clearDamaged _ _ => true
  | .supplyStateChange _ _ _ => true
  | .powerOrderBreach _ _ => true
  | .shoreXtalFail => true
  | .workPllLoss _ => true
  | .vddShoreUp => true
  | .resetNAsserted => true
  | .resetNRelease _ _ => true
  | .warmNRelease _ _ => true
  | .deepAfterExpiry => true
  | .junctionHotThreshold _ => true
  | .junctionLimitThreshold _ => true
  | .thermalTrip _ => true
  | .junctionThresholdClear _ _ => true
  | .coldStart _ _ => true
  | .warmRestart _ _ => true
  | .deepKeepExit _ _ => true
  | .floodFromKeep _ => true
  | .powerLight => true
  | .powerFull => true
  | .powerKeep => true
  | .powerDeepKeep => true
  | .powerWarm => true
  | .powerCold => true

end Sys2Proof
end

