-- ==== Sys2Proof/Decode.lean ====
section
/-! DEFINITION. The rows of the opcode table give no bits: a command is an event or a register operation that no word
spells, so there is nothing to decode. -/

namespace Sys2Proof

/-- The command that a word spells by the table's bits: none, as no row of the table gives any. -/
def decodeTableWord (_nbits _w : Nat) : Option Instr := none

end Sys2Proof
end

