-- ==== Sys2Proof/Config.lean ====
section
/-! DEFINITION. What the spec leaves open: opaque values and functions with no body, so that nothing can be proved of
what they hold. A statement about one of them holds whatever it is. -/

namespace Sys2Proof.Config

/-- The n-th free value of 36 bits, for a value that the spec leaves open or that a random source of the part gives. -/
opaque freeValue : Nat → BitVec 36

/-- HMAC-SHA-384 of FIPS 198-1 under a key, over bytes (R454, R538). The standard is not part of the spec's text. -/
opaque hmacSha384 : Nat → List Nat → Nat

/-- SHA-384 of FIPS 180-4 over bytes. -/
opaque sha384 : List Nat → Nat

/-- ECDSA P-384 of FIPS 186-5: a public key, a digest and a signature verify. -/
opaque ecdsaVerify : Nat → Nat → Nat → Bool

/-- ECDSA P-384: the signature a private key gives a digest, with the n-th draw of the TRNG. -/
opaque ecdsaSign : Nat → Nat → Nat → Nat

/-- AES-256-GCM of FIPS 197 and SP 800-38D: the plain bytes of a wrapped value under a key, or none when the tag fails. -/
opaque gcmOpen : Nat → List Nat → Option (List Nat)

/-- AES-256-GCM: the tag of a tide's cells under a key and a nonce. -/
opaque gcmTag : Nat → Nat → List Nat → Nat

/-- AES-256-GCM: the key stream of a message under a key and a nonce, 584 bits of it from a byte (R356). -/
opaque gcmStream : Nat → Nat → Nat → Nat

/-- Egress latency correction of a port in 2^-16 ns (R406). -/
opaque egressLatency : Nat → BitVec 36

/-- H0 of manufacture (R542): the SHA-384 of the public point that firmware images verify against, and that point. -/
opaque otpHash0 : Nat
opaque otpPoint0 : Nat

/-- The identity that manufacture fixed: whether the part is a QM1024-X (R3). -/
opaque isX : Bool

/-- The cell of the packet buffer in which the k-th part of a stored copy stands, that of a scheduled queue's entry by port and
t_tx, and the payload of a word of the rest after so many copies (R315, R321, log 43). -/
opaque bufferCell : Nat → Nat → BitVec 16
opaque schedCell : Nat → Nat → BitVec 16
opaque bufferRest : Nat → Nat → BitVec 16

/-- The last synchronised sample of a pin's ball in a work cycle, where no command tells it (R268, log 34). -/
opaque ballLevel : Nat → Nat → Bool

/-- The bank that the lines of trace records pass through (R143, log 110). -/
opaque traceBank : BitVec 6

/-- SELFCHECK_REF in OTP, the signature of a self-check that passes (R431). -/
opaque selfcheckRef : BitVec 32

/-- The serial number's two words (R467). -/
opaque serialHigh : BitVec 36
opaque serialLow : BitVec 36

end Sys2Proof.Config
end

