-- ==== Sys2Proof/Machine/Entries.lean ====
section
/-! DEFINITION. The object dictionary's map: every entry that a chapter defines, with its type, access, persistence,
lowest writing role, default and the write checks of its field map. -/

namespace Sys2Proof.Machine

/-- Types of R448, in code order. -/
inductive Ty where
  | bool | u9 | s9 | u18 | s18 | u36 | s36 | q18 | time | enum | text | blob | keyref
  deriving DecidableEq, Repr

/-- The type's code (R448). -/
def Ty.code : Ty → Nat
  | .bool => 0 | .u9 => 1 | .s9 => 2 | .u18 => 3 | .s18 => 4 | .u36 => 5 | .s36 => 6 | .q18 => 7
  | .time => 8 | .enum => 9 | .text => 10 | .blob => 11 | .keyref => 12

/-- Value words of a type; 0 for TEXT and BLOB (R448, R465). -/
def Ty.words : Ty → Nat
  | .u36 | .s36 => 2
  | .time => 7
  | .text | .blob => 0
  | _ => 1

/-- Access classes of R449. -/
inductive Acc where
  | ro | rw | wo | rwt | rws
  deriving DecidableEq, Repr

/-- Persistence classes of R451. -/
inductive Per where
  | vol | kept | prof
  deriving DecidableEq, Repr

/-- One check of a field map: a reserved field, a field's range, or a check that binds one sub-entry alone. -/
inductive Chk where
  | zero (hi lo : Nat)
  | rng (hi lo a b : Nat)
  | sub (k : Nat) (c : Chk)
  deriving DecidableEq, Repr

/-- The value keeps the check (R18). -/
def Chk.ok (sub v : Nat) : Chk → Bool
  | .zero hi lo => fld v hi lo == 0
  | .rng hi lo a b => a ≤ fld v hi lo && fld v hi lo ≤ b
  | .sub k c => sub != k || c.ok sub v

/-- A run of entries that one table row of a chapter defines: `units` entries `step` apart from `base`, each with
`subs` sub-entries. `dflt` gives the default by sub-entry, the last value holding for the rest. -/
structure Row where
  base : Nat
  units : Nat := 1
  step : Nat := 1
  subs : Nat := 1
  ty : Ty
  acc : Acc
  per : Per := .vol
  role : Nat := 2
  dflt : List Nat := []
  chk : List Chk := []
  deriving DecidableEq, Repr

/-- The unit of entry `e` in the row, when the row holds it. -/
def Row.unit? (r : Row) (e : Nat) : Option Nat :=
  if e < r.base then none
  else
    let d := e - r.base
    if d % r.step = 0 ∧ d / r.step < r.units then some (d / r.step) else none

/-- The row's default for a sub-entry. -/
def Row.default (r : Row) (sub : Nat) : Nat :=
  match r.dflt[sub]? with
  | some v => v
  | none => r.dflt.getLast?.getD 0

/-- Identity and the dictionary's own entries (R3, R467). -/
def entries00 : List Row :=
  [ { base := 0x00000, ty := .u36, acc := .ro },
    { base := 0x00001, ty := .u36, acc := .ro },
    { base := 0x00002, subs := 2, ty := .u36, acc := .ro },
    { base := 0x00003, ty := .u18, acc := .ro },
    { base := 0x00004, ty := .u18, acc := .rws, per := .kept, role := 3, chk := [.zero 17 10] },
    { base := 0x00100, ty := .u36, acc := .rw, per := .kept, role := 3, dflt := [0x01E328A88],
      chk := [.zero 35 32, .rng 31 24 1 255, .rng 23 16 1 255, .rng 11 11 1 1, .rng 15 15 1 1, .zero 0 0, .zero 4 4,
        .zero 8 8, .zero 12 12, .zero 2 2, .zero 6 6, .zero 10 10, .zero 14 14] },
    { base := 0x00101, subs := 2, ty := .u36, acc := .rws, per := .kept, role := 3, dflt := [0, 0xBB92],
      chk := [.sub 0 (.zero 35 32), .sub 1 (.zero 35 16), .sub 1 (.rng 15 0 1 65535)] },
    { base := 0x00102, subs := 16, ty := .u36, acc := .ro },
    { base := 0x00103, subs := 64, ty := .u36, acc := .ro },
    { base := 0x00104, subs := 8, ty := .u36, acc := .ro },
    { base := 0x00105, ty := .u18, acc := .wo, chk := [.rng 17 14 1 3, .zero 13 5] },
    { base := 0x00106, subs := 17, ty := .u18, acc := .ro, per := .kept } ]

/-- Power, clocks and starts (R615). -/
def entries01 : List Row :=
  [ { base := 0x01000, ty := .u36, acc := .ro },
    { base := 0x01001, ty := .u36, acc := .rw, per := .kept, dflt := [0x800000000], chk := [.zero 22 0] },
    { base := 0x01002, ty := .u18, acc := .wo, chk := [.zero 17 3, .rng 2 0 1 6] },
    { base := 0x01003, subs := 9, ty := .u18, acc := .ro },
    { base := 0x01004, ty := .u18, acc := .ro },
    { base := 0x01005, ty := .u18, acc := .ro },
    { base := 0x01006, ty := .u36, acc := .ro, per := .kept } ]

/-- The tide, the table, Pilot and the ledger (R84, R117, R151). -/
def entries02 : List Row :=
  [ { base := 0x02000, ty := .u36, acc := .ro },
    { base := 0x02001, ty := .u36, acc := .ro },
    { base := 0x02002, ty := .u18, acc := .ro, dflt := [1] },
    { base := 0x02003, ty := .u36, acc := .ro },
    { base := 0x02010, subs := 16, ty := .u36, acc := .ro },
    { base := 0x02020, ty := .u18, acc := .ro },
    { base := 0x02021, ty := .enum, acc := .wo, chk := [.zero 17 4, .rng 3 0 1 5] },
    { base := 0x02022, ty := .time, acc := .rw },
    { base := 0x02023, ty := .u36, acc := .ro },
    { base := 0x02024, ty := .u36, acc := .ro },
    { base := 0x02025, ty := .u18, acc := .ro },
    { base := 0x02026, ty := .u36, acc := .ro },
    { base := 0x02027, ty := .u36, acc := .ro },
    { base := 0x02028, ty := .u18, acc := .ro },
    { base := 0x02030, subs := 8, ty := .u36, acc := .ro },
    { base := 0x02032, subs := 7, ty := .u36, acc := .ro },
    { base := 0x02034, ty := .u18, acc := .ro },
    { base := 0x02035, ty := .u18, acc := .rw, per := .prof, dflt := [0x104],
      chk := [.zero 17 12, .rng 11 4 1 255, .rng 3 2 0 2, .rng 1 0 0 2] },
    { base := 0x02040, subs := 9, ty := .u36, acc := .rw, per := .prof,
      dflt := [0xA10400, 0xA10200, 0x820200, 0xC08400, 0x440080, 0x680400, 0x300100, 0x440200, 0x1FE100],
      chk := [.zero 35 24, .rng 20 13 1 255, .rng 12 0 0 4096, .sub 2 (.rng 12 0 128 4096), .sub 7 (.rng 12 0 256 4096)] },
    { base := 0x02041, subs := 9, ty := .u36, acc := .ro },
    { base := 0x02042, subs := 9, ty := .u36, acc := .ro },
    { base := 0x02043, ty := .u18, acc := .ro } ]

/-- The image and the pens (R190, R207). -/
def entries03 : List Row :=
  [ { base := 0x03000, ty := .u18, acc := .ro },
    { base := 0x03001, ty := .u36, acc := .rwt, per := .prof, dflt := [0x18A418820], chk := [.zero 35 35] },
    { base := 0x03002, ty := .blob, acc := .rwt, per := .prof },
    { base := 0x03003, ty := .u18, acc := .ro },
    { base := 0x03004, ty := .u36, acc := .ro },
    { base := 0x03010, subs := 256, ty := .u36, acc := .rwt, role := 1, chk := [.zero 34 25] },
    { base := 0x03011, subs := 256, ty := .u18, acc := .rwt, role := 1, chk := [.zero 17 16] },
    { base := 0x03012, ty := .u18, acc := .ro },
    { base := 0x03020, ty := .u36, acc := .ro },
    { base := 0x03021, subs := 4, ty := .u36, acc := .ro },
    { base := 0x03022, ty := .u36, acc := .ro },
    { base := 0x03023, subs := 16, ty := .u36, acc := .ro },
    { base := 0x03024, ty := .u36, acc := .wo, chk := [.rng 35 32 1 1, .zero 31 30, .zero 1 0] },
    { base := 0x03025, ty := .u36, acc := .ro },
    { base := 0x03026, subs := 2, ty := .u36, acc := .ro },
    { base := 0x03027, subs := 4, ty := .u18, acc := .ro },
    { base := 0x03100, subs := 4096, ty := .u36, acc := .rwt, per := .prof, chk := [.zero 31 30] },
    { base := 0x03101, subs := 4096, ty := .u18, acc := .rwt, per := .prof, dflt := [0x1FFFF] },
    { base := 0x03102, subs := 4096, ty := .u36, acc := .rwt, per := .prof, chk := [.zero 35 30] },
    { base := 0x03103, subs := 4096, ty := .u18, acc := .wo, role := 1, chk := [.zero 17 3] },
    { base := 0x03104, subs := 4096, ty := .u36, acc := .ro },
    { base := 0x03105, subs := 4096, ty := .u36, acc := .ro },
    { base := 0x03106, subs := 4096, ty := .u36, acc := .ro } ]

/-- The drovers (R243). -/
def entries04 : List Row :=
  [ { base := 0x04000, units := 256, step := 16, ty := .u36, acc := .ro },
    { base := 0x04001, units := 256, step := 16, ty := .u36, acc := .ro },
    { base := 0x04002, units := 256, step := 16, ty := .u36, acc := .ro },
    { base := 0x04003, units := 256, step := 16, ty := .u18, acc := .ro },
    { base := 0x04004, units := 256, step := 16, ty := .u36, acc := .ro },
    { base := 0x04005, units := 256, step := 16, ty := .u36, acc := .rw, chk := [.zero 14 14] },
    { base := 0x04006, units := 256, step := 16, ty := .u18, acc := .rw, chk := [.zero 0 0, .rng 13 8 1 36, .rng 7 2 1 36] },
    { base := 0x04007, units := 256, step := 16, ty := .u36, acc := .rw },
    { base := 0x04008, units := 256, step := 16, ty := .u36, acc := .ro },
    { base := 0x04009, units := 256, step := 16, ty := .u18, acc := .wo, role := 1, chk := [.zero 17 2, .rng 1 0 1 3] },
    { base := 0x0400A, units := 256, step := 16, ty := .u36, acc := .ro },
    { base := 0x0400C, units := 256, step := 16, ty := .u18, acc := .ro },
    { base := 0x0400D, units := 256, step := 16, ty := .u36, acc := .wo, chk := [.rng 35 34 1 3, .zero 21 0] },
    { base := 0x0400E, units := 256, step := 16, ty := .u18, acc := .ro },
    { base := 0x0400F, units := 256, step := 16, ty := .u18, acc := .ro } ]

/-- The field pins (R268). -/
def entries05 : List Row :=
  [ { base := 0x05000, subs := 1024, ty := .u36, acc := .ro },
    { base := 0x05001, subs := 32, ty := .u18, acc := .ro },
    { base := 0x05002, subs := 32, ty := .u18, acc := .ro },
    { base := 0x05003, subs := 1024, ty := .u18, acc := .rwt, role := 1, chk := [.zero 17 2, .rng 1 0 0 2] },
    { base := 0x05004, subs := 1024, ty := .u18, acc := .ro },
    { base := 0x05005, subs := 1024, ty := .time, acc := .ro },
    { base := 0x05006, subs := 1024, ty := .time, acc := .ro },
    { base := 0x05007, subs := 1024, ty := .u36, acc := .ro },
    { base := 0x05010, subs := 64, ty := .time, acc := .rw, per := .prof },
    { base := 0x05011, subs := 64, ty := .u36, acc := .rw, per := .prof, chk := [.zero 34 34, .zero 3 0] },
    { base := 0x05012, subs := 64, ty := .u18, acc := .rw, per := .prof, chk := [.rng 17 16 0 2] },
    { base := 0x05013, subs := 64, ty := .u18, acc := .wo, role := 1, chk := [.zero 17 2, .rng 1 0 1 2] },
    { base := 0x05014, subs := 64, ty := .u18, acc := .ro } ]

/-- The bus channels (R297). -/
def entries06 : List Row :=
  [ { base := 0x06000, units := 128, step := 32, ty := .u36, acc := .rwt, per := .prof,
      chk := [.rng 34 32 0 4, .rng 13 12 0 2, .zero 7 0] },
    { base := 0x06001, units := 128, step := 32, ty := .u36, acc := .rws, per := .prof, dflt := [0x00A003199],
      chk := [.rng 35 16 512 1048575, .rng 15 7 2 256, .rng 6 0 1 127] },
    { base := 0x06002, units := 128, step := 32, ty := .u36, acc := .rws, per := .prof, dflt := [0x019001C40],
      chk := [.rng 35 16 512 1048575, .rng 15 10 1 63, .rng 9 5 1 31, .zero 4 0] },
    { base := 0x06003, units := 128, step := 32, ty := .u36, acc := .rws, per := .prof, dflt := [0x211800000],
      chk := [.rng 35 29 1 127, .rng 28 24 1 31, .zero 14 0] },
    { base := 0x06004, units := 128, step := 32, ty := .u36, acc := .rws, per := .prof, chk := [.zero 13 0] },
    { base := 0x06005, units := 128, step := 32, subs := 64, ty := .u36, acc := .rwt, per := .prof, chk := [.zero 29 29] },
    { base := 0x06006, units := 128, step := 32, subs := 64, ty := .u36, acc := .rwt, per := .prof,
      chk := [.zero 35 31, .zero 29 29] },
    { base := 0x06007, units := 128, step := 32, subs := 64, ty := .u18, acc := .rwt, per := .prof, chk := [.zero 17 12] },
    { base := 0x06008, units := 128, step := 32, ty := .u36, acc := .rwt, per := .prof },
    { base := 0x06009, units := 128, step := 32, ty := .blob, acc := .rws, per := .prof },
    { base := 0x0600A, units := 128, step := 32, ty := .u36, acc := .rwt, per := .prof, chk := [.zero 35 11] },
    { base := 0x0600B, units := 128, step := 32, ty := .u36, acc := .ro },
    { base := 0x0600C, units := 128, step := 32, ty := .u18, acc := .wo, role := 1, chk := [.zero 17 3, .rng 2 0 1 5] },
    { base := 0x0600D, units := 128, step := 32, subs := 8, ty := .u36, acc := .ro },
    { base := 0x0600E, units := 128, step := 32, subs := 2, ty := .time, acc := .ro } ]

/-- The switch core (R324). -/
def entries07 : List Row :=
  [ { base := 0x07000, subs := 49, ty := .u36, acc := .rws, per := .prof, dflt := [0x040020600],
      chk := [.rng 28 17 1 4094, .rng 13 0 64 9216] },
    { base := 0x07001, subs := 49, ty := .u18, acc := .ro },
    { base := 0x07002, subs := 49, ty := .u18, acc := .wo, role := 1, chk := [.zero 17 2, .rng 1 0 1 3] },
    { base := 0x07003, subs := 784, ty := .u36, acc := .ro },
    { base := 0x07004, subs := 49, ty := .u18, acc := .rwt, per := .prof, chk := [.zero 17 13] },
    { base := 0x07010, ty := .u36, acc := .rwt, per := .prof, dflt := [0x9012C0400] },
    { base := 0x07011, ty := .u36, acc := .ro },
    { base := 0x07012, subs := 3, ty := .u18, acc := .rws, per := .kept, chk := [.zero 17 16] },
    { base := 0x07013, ty := .u36, acc := .rwt, per := .prof, dflt := [0x044444444], chk := [.zero 35 32] },
    { base := 0x07014, ty := .u36, acc := .rwt, per := .prof, chk := [.zero 33 24] },
    { base := 0x07020, subs := 256, ty := .u36, acc := .rwt, per := .prof, chk := [.zero 2 0] },
    { base := 0x07021, subs := 256, ty := .u18, acc := .rwt, per := .prof, chk := [.zero 17 16] },
    { base := 0x07022, subs := 256, ty := .u36, acc := .rwt, per := .prof },
    { base := 0x07023, subs := 256, ty := .u36, acc := .rwt, per := .prof },
    { base := 0x07024, subs := 16, ty := .u36, acc := .rwt, per := .prof },
    { base := 0x07025, subs := 49, ty := .u18, acc := .rwt, per := .prof, chk := [.zero 17 12] },
    { base := 0x07030, subs := 4096, ty := .u36, acc := .rwt, per := .prof, dflt := [0, 0xFFFFFFFFF, 0] },
    { base := 0x07031, subs := 4096, ty := .u36, acc := .rwt, per := .prof, dflt := [0, 0x7FFF, 0], chk := [.zero 24 15] },
    { base := 0x07032, ty := .blob, acc := .rwt, per := .prof },
    { base := 0x07033, ty := .u36, acc := .ro },
    { base := 0x07040, subs := 256, ty := .u36, acc := .rwt, per := .prof, chk := [.rng 34 29 0 47, .rng 28 17 0 4094, .zero 16 12] },
    { base := 0x07041, subs := 256, ty := .u18, acc := .rwt, per := .prof, chk := [.zero 17 16] },
    { base := 0x07050, ty := .u36, acc := .rwt, per := .prof, dflt := [0x800000000], chk := [.zero 34 32] },
    { base := 0x07051, ty := .u36, acc := .ro },
    { base := 0x07060, subs := 4, ty := .u36, acc := .rwt, per := .prof, chk := [.rng 35 34 0 2, .rng 23 18 0 48, .zero 1 0] },
    { base := 0x07061, subs := 4, ty := .u18, acc := .rwt, per := .prof, chk := [.zero 17 12] },
    { base := 0x07062, subs := 4, ty := .u36, acc := .ro } ]

/-- Ring links, muster, ebb and flood (R362, R390). -/
def entries08 : List Row :=
  [ { base := 0x08000, subs := 5, ty := .u36, acc := .rws, per := .prof, dflt := [0x800004010],
      chk := [.rng 34 33 0 1, .zero 32 18, .rng 17 8 1 1023, .rng 7 0 1 255] },
    { base := 0x08001, subs := 5, ty := .u18, acc := .ro },
    { base := 0x08002, subs := 5, ty := .u18, acc := .wo, role := 1, chk := [.zero 17 2, .rng 1 0 1 3] },
    { base := 0x08003, subs := 80, ty := .u36, acc := .ro },
    { base := 0x08004, subs := 5, ty := .u36, acc := .ro },
    { base := 0x08005, subs := 5, ty := .u36, acc := .rws, per := .prof, dflt := [0x002000000],
      chk := [.zero 28 26, .rng 25 23 1 7, .zero 22 0] },
    { base := 0x08006, subs := 5, ty := .u18, acc := .ro },
    { base := 0x08007, subs := 4096, ty := .u36, acc := .ro },
    { base := 0x08008, subs := 4, ty := .u36, acc := .ro },
    { base := 0x08009, subs := 4, ty := .u36, acc := .ro },
    { base := 0x0800A, ty := .u18, acc := .ro },
    { base := 0x08010, ty := .u36, acc := .rws, per := .kept, dflt := [0x80400100A],
      chk := [.rng 31 24 2 255, .rng 23 12 1 4095, .rng 11 0 1 4095] },
    { base := 0x08011, ty := .u36, acc := .rws, per := .kept, dflt := [0x02864320A],
      chk := [.rng 35 27 1 511, .rng 26 18 1 511, .rng 17 9 1 511, .rng 8 0 1 511] },
    { base := 0x08012, ty := .u36, acc := .rws, per := .kept, dflt := [0x0003D090], chk := [.zero 35 28, .rng 27 0 25000 134217728] },
    { base := 0x08013, ty := .u36, acc := .ro },
    { base := 0x08014, ty := .u36, acc := .ro },
    { base := 0x08015, subs := 2048, ty := .u36, acc := .ro },
    { base := 0x08016, ty := .u18, acc := .wo, chk := [.zero 17 2, .rng 1 0 1 1] },
    { base := 0x08017, subs := 8, ty := .u36, acc := .ro },
    { base := 0x01100, ty := .u36, acc := .rw, per := .prof, dflt := [0x80782D010],
      chk := [.rng 32 21 1 4095, .rng 20 9 1 4095, .rng 8 0 1 511] },
    { base := 0x01101, ty := .u36, acc := .rw, per := .prof, dflt := [0x3E8C81A0A],
      chk := [.rng 35 27 1 511, .rng 26 18 1 511, .rng 17 9 1 511, .rng 8 0 1 511] },
    { base := 0x01102, ty := .u18, acc := .rw, role := 1, chk := [.zero 17 8] },
    { base := 0x01103, ty := .u18, acc := .wo, role := 1, chk := [.zero 17 2, .rng 1 0 1 2] },
    { base := 0x01104, ty := .u36, acc := .ro },
    { base := 0x01105, subs := 16, ty := .u36, acc := .ro },
    { base := 0x01106, ty := .u18, acc := .rw, per := .kept, dflt := [0x03D09], chk := [.rng 16 0 1 131071] },
    { base := 0x01107, ty := .u36, acc := .ro } ]

/-- Fabric time (R415). -/
def entries09 : List Row :=
  [ { base := 0x09000, ty := .time, acc := .ro },
    { base := 0x09001, ty := .u36, acc := .ro },
    { base := 0x09002, ty := .u36, acc := .rws, per := .prof, dflt := [0x283C53C60],
      chk := [.rng 35 30 1 50, .rng 29 21 1 511, .rng 20 16 1 31, .rng 14 8 1 127, .rng 7 4 0 12, .zero 2 0] },
    { base := 0x09003, ty := .time, acc := .wo },
    { base := 0x09004, ty := .u36, acc := .ro },
    { base := 0x09005, ty := .u36, acc := .rw, per := .kept, chk := [.zero 35 19] },
    { base := 0x09006, subs := 5, ty := .s18, acc := .rws, per := .kept },
    { base := 0x09010, subs := 2, ty := .u36, acc := .rws, per := .prof,
      chk := [.rng 34 33 0 2, .rng 32 25 0 127, .rng 20 17 0 3, .zero 12 0] },
    { base := 0x09011, subs := 2, ty := .u36, acc := .rws, per := .prof, dflt := [0xF8F8FE800], chk := [.zero 3 0] },
    { base := 0x09012, subs := 4, ty := .u36, acc := .rws, per := .prof, chk := [.sub 1 (.zero 35 13), .sub 3 (.zero 35 13)] },
    { base := 0x09013, subs := 2, ty := .u36, acc := .ro },
    { base := 0x09014, subs := 2, ty := .s36, acc := .ro },
    { base := 0x09015, subs := 4, ty := .u36, acc := .ro },
    { base := 0x09016, subs := 8, ty := .u36, acc := .ro },
    { base := 0x09017, ty := .u18, acc := .wo, chk := [.zero 17 2, .rng 1 0 1 1] } ]

/-- Redundant pairs (R445). -/
def entries0A : List Row :=
  [ { base := 0x0A000, ty := .u36, acc := .rws, per := .kept, dflt := [0x005010000],
      chk := [.rng 33 22 1 4095, .rng 21 14 2 255, .zero 1 0] },
    { base := 0x0A001, ty := .u18, acc := .ro },
    { base := 0x0A002, ty := .u36, acc := .ro },
    { base := 0x0A003, ty := .u18, acc := .wo, chk := [.zero 17 3, .rng 2 0 1 4] },
    { base := 0x0A004, subs := 64, ty := .u36, acc := .rws, per := .prof, chk := [.zero 33 29, .zero 1 0] },
    { base := 0x0A005, subs := 64, ty := .u18, acc := .rws, per := .prof },
    { base := 0x0A006, subs := 8, ty := .u36, acc := .rws, per := .prof, chk := [.zero 35 32] },
    { base := 0x0A007, ty := .u36, acc := .ro },
    { base := 0x0A008, subs := 10, ty := .u36, acc := .ro },
    { base := 0x0A009, ty := .u36, acc := .ro } ]

/-- The host endpoint, the Quay bridge and the service port (R493). -/
def entries0B : List Row :=
  [ { base := 0x0B000, ty := .u18, acc := .ro },
    { base := 0x0B001, subs := 8, ty := .u18, acc := .rw, per := .prof,
      dflt := [0x01000, 0x03000, 0x05000, 0x07000, 0x15000, 0x21000, 0x39000, 0x19000], chk := [.zero 11 0] },
    { base := 0x0B002, ty := .u36, acc := .rw, per := .prof, chk := [.zero 34 27] },
    { base := 0x0B003, subs := 4096, ty := .u9, acc := .rw, per := .prof, chk := [.zero 8 7] },
    { base := 0x0B004, subs := 8, ty := .u36, acc := .ro },
    { base := 0x0B010, ty := .u36, acc := .rwt, per := .prof, dflt := [0x034019000],
      chk := [.rng 33 26 13 255, .rng 25 10 1 65535, .zero 9 0] },
    { base := 0x0B011, subs := 8, ty := .u36, acc := .rws, per := .prof, chk := [.zero 23 0] },
    { base := 0x0B012, ty := .u18, acc := .ro },
    { base := 0x0B013, ty := .u18, acc := .wo, role := 1, chk := [.zero 17 2, .rng 1 0 1 1] },
    { base := 0x0B014, subs := 8, ty := .u36, acc := .ro },
    { base := 0x0B015, subs := 6, ty := .u36, acc := .ro },
    { base := 0x0B020, subs := 5, ty := .u36, acc := .ro } ]

/-- A Bell source of the table under R505: number, base level, default W in ms and N. -/
structure SrcRow where
  num : Nat
  level : Nat
  w : Nat
  n : Nat
  deriving DecidableEq, Repr

/-- The rows of one class of R505: the sources that are NOTE, and the others with their level, W and N. -/
def srcClass (w n : Nat) (l : List (Nat × Nat)) : List SrcRow :=
  l.map fun (num, lv) => if lv ≤ 1 then ⟨num, lv, 0, 0⟩ else ⟨num, lv, w, n⟩

/-- The source table of R505. Levels: 1 NOTE, 2 MINOR, 3 MAJOR, 4 SEVERE, 5 FATAL. -/
def srcTable : List SrcRow :=
  srcClass 0 0 [(0, 5), (1, 1), (2, 2), (3, 1), (4, 2)]
  ++ srcClass 1000 4 [(16, 1), (17, 2), (18, 3), (19, 3)]
  ++ srcClass 1000 4 [(32, 3), (33, 1), (34, 1)]
  ++ srcClass 1000 64 [(48, 1), (49, 2), (50, 2), (51, 1), (52, 1)]
  ++ srcClass 0 0 [(64, 4), (65, 1)]
  ++ srcClass 1000 16 [(80, 2), (81, 1), (82, 1)]
  ++ srcClass 1000 4 [(96, 3), (97, 1), (98, 1), (99, 1)]
  ++ srcClass 10000 4 [(112, 3), (113, 1), (114, 1)]
  ++ srcClass 10000 16 [(128, 2), (129, 1), (130, 1), (131, 1), (132, 1), (133, 1), (134, 1)]
  ++ srcClass 0 0 [(144, 1), (145, 1), (146, 1), (147, 1), (148, 1)]
  ++ srcClass 60000 8 [(160, 2), (161, 1), (162, 3), (163, 1)]
  ++ srcClass 0 0 [(176, 1), (177, 1), (178, 1), (179, 1)]
  ++ srcClass 60000 4 [(192, 1), (193, 2), (194, 3), (195, 1), (196, 2), (197, 1)]
  ++ srcClass 0 0 [(208, 1), (209, 1), (210, 1)]
  ++ srcClass 60000 8 [(224, 1), (225, 2), (226, 2), (227, 1), (228, 2), (229, 1), (230, 1)]
  ++ srcClass 60000 8 [(240, 1), (241, 2), (242, 1), (243, 2), (244, 2)]
  ++ srcClass 60000 3 [(256, 2), (257, 3)]
  ++ srcClass 0 0 [(272, 1), (273, 1), (274, 1), (275, 1)]
  ++ srcClass 1000 16 [(288, 1), (289, 1), (290, 2), (291, 1)]
  ++ srcClass 60000 4 [(304, 3), (305, 2), (306, 1), (307, 3), (308, 1)]
  ++ srcClass 0 0 [(320, 1), (321, 1), (322, 1)]
  ++ srcClass 10000 8 [(336, 1), (337, 2), (338, 2), (339, 3), (340, 5)]
  ++ srcClass 1000 4 [(352, 3), (353, 2)]
  ++ srcClass 1000 4 [(368, 3), (369, 3), (370, 2), (371, 4)]

/-- The source's row, when the number exists (R494, R505). -/
def srcRow? (n : Nat) : Option SrcRow := srcTable.find? (·.num == n)

/-- Bell entries of one source (R523) and the Tally's and trace's (R524). -/
def entries0C : List Row :=
  srcTable.flatMap (fun r =>
    [ { base := 0x0C000 + 8 * r.num, ty := .u36, acc := .rw, per := .prof,
        dflt := [put 20 16 r.w + put 12 8 r.n], chk := [.zero 11 0] },
      { base := 0x0C001 + 8 * r.num, ty := .u18, acc := .ro },
      { base := 0x0C002 + 8 * r.num, ty := .u36, acc := .ro },
      { base := 0x0C003 + 8 * r.num, ty := .time, acc := .ro },
      { base := 0x0C004 + 8 * r.num, ty := .u36, acc := .wo, role := 1, chk := [.rng 35 34 1 2, .zero 33 18] } ])
  ++ [ { base := 0x0C005, subs := 32, ty := .u18, acc := .ro },
       { base := 0x0C006, ty := .u36, acc := .ro },
       { base := 0x0C007, ty := .u18, acc := .wo, role := 1, chk := [.zero 17 2, .rng 1 0 1 1] } ]

/-- The Tally and trace (R524). -/
def entries0D : List Row :=
  [ { base := 0x0D000, ty := .u36, acc := .ro },
    { base := 0x0D001, subs := 2, ty := .u36, acc := .ro, per := .kept },
    { base := 0x0D002, subs := 4, ty := .u36, acc := .ro },
    { base := 0x0D003, ty := .u18, acc := .wo, chk := [.zero 17 2, .rng 1 0 1 2] },
    { base := 0x0D004, ty := .blob, acc := .ro, per := .kept },
    { base := 0x0D010, ty := .u36, acc := .rwt, per := .prof, chk := [.zero 15 12] },
    { base := 0x0D011, ty := .u18, acc := .rwt, per := .prof, dflt := [0x3FE80], chk := [.rng 8 6 1 5, .zero 5 0] },
    { base := 0x0D012, subs := 3, ty := .u36, acc := .ro },
    { base := 0x0D013, ty := .blob, acc := .ro } ]

/-- The Fold (R552). -/
def entries0E : List Row :=
  [ { base := 0x0E000, ty := .u36, acc := .ro },
    { base := 0x0E001, subs := 64, ty := .u36, acc := .ro },
    { base := 0x0E002, ty := .blob, acc := .wo, role := 0 },
    { base := 0x0E003, ty := .blob, acc := .ro },
    { base := 0x0E004, ty := .u18, acc := .ro },
    { base := 0x0E005, subs := 4, ty := .u36, acc := .ro },
    { base := 0x0E006, ty := .u18, acc := .rw, per := .kept, role := 3, chk := [.zero 17 1] },
    { base := 0x0E007, ty := .u18, acc := .rws, per := .kept, role := 3, chk := [.zero 17 6, .zero 1 0] },
    { base := 0x0E008, ty := .u36, acc := .ro, per := .kept },
    { base := 0x0E009, ty := .u36, acc := .ro, per := .kept },
    { base := 0x0E00A, subs := 4, ty := .u36, acc := .ro },
    { base := 0x0E00B, subs := 4, ty := .blob, acc := .ro, per := .kept } ]

/-- Firmware update and profiles (R575). -/
def entries0F : List Row :=
  [ { base := 0x0F000, ty := .u36, acc := .ro, per := .kept },
    { base := 0x0F001, ty := .blob, acc := .wo },
    { base := 0x0F002, ty := .blob, acc := .ro, per := .kept },
    { base := 0x0F003, ty := .u36, acc := .wo, chk := [.rng 35 33 1 4, .zero 32 18] },
    { base := 0x0F004, ty := .time, acc := .rw, per := .kept },
    { base := 0x0F005, ty := .u18, acc := .rw, per := .kept, dflt := [1], chk := [.rng 17 0 1 262143] },
    { base := 0x0F006, ty := .u18, acc := .rw, per := .kept, dflt := [0x3C], chk := [.zero 17 12, .rng 11 0 1 4095] },
    { base := 0x0F007, subs := 3, ty := .u36, acc := .ro, per := .kept },
    { base := 0x0F008, ty := .u18, acc := .ro, per := .kept },
    { base := 0x0F009, subs := 6, ty := .u36, acc := .ro },
    { base := 0x0F010, subs := 4, ty := .u36, acc := .ro, per := .kept },
    { base := 0x0F011, ty := .u18, acc := .rw, per := .kept, chk := [.zero 17 3] },
    { base := 0x0F012, ty := .u18, acc := .wo, chk := [.zero 17 5, .rng 4 2 1 4] },
    { base := 0x0F013, subs := 4, ty := .u36, acc := .ro, per := .kept },
    { base := 0x0F014, ty := .u18, acc := .ro } ]

/-- The gates (R591). -/
def entries10 : List Row :=
  [ { base := 0x10000, subs := 16, ty := .u36, acc := .rws, per := .kept, dflt := [0x10C80A032],
      chk := [.rng 31 22 1 1023, .rng 11 0 1 4095] },
    { base := 0x10001, subs := 16, ty := .u36, acc := .rws, per := .kept, dflt := [0x032015900],
      chk := [.rng 35 22 1 16383, .rng 21 14 1 255, .rng 13 7 10 100, .zero 6 0] },
    { base := 0x10002, subs := 16, ty := .u36, acc := .rws, per := .kept, dflt := [0x64B428500],
      chk := [.rng 35 28 1 255, .rng 27 21 50 99, .rng 20 13 1 255, .rng 12 8 1 31, .zero 7 0] },
    { base := 0x10003, subs := 16, ty := .u36, acc := .rws, per := .kept, dflt := [0x640641900],
      chk := [.rng 35 26 1 1023, .rng 25 16 1 1023, .rng 15 6 1 1023, .zero 5 0] },
    { base := 0x10004, subs := 16, ty := .u18, acc := .rws, per := .kept, dflt := [0x12C55],
      chk := [.rng 17 9 100 200, .rng 8 0 0 150] },
    { base := 0x10005, subs := 16, ty := .u36, acc := .rws, per := .kept, dflt := [0x028200A14],
      chk := [.rng 35 26 1 500, .rng 17 8 1 1023, .rng 7 0 1 255] },
    { base := 0x10006, subs := 16, ty := .u18, acc := .rws, per := .kept, dflt := [0x05190],
      chk := [.rng 17 10 1 255, .rng 9 3 10 90, .zero 2 0] },
    { base := 0x10007, subs := 16, ty := .u36, acc := .ro },
    { base := 0x10008, subs := 16, ty := .u36, acc := .ro },
    { base := 0x10009, subs := 16, ty := .u18, acc := .wo, role := 1, chk := [.zero 17 3, .rng 2 0 1 4] },
    { base := 0x1000A, subs := 64, ty := .u36, acc := .ro },
    { base := 0x1000B, ty := .u18, acc := .ro, per := .kept } ]

/-- Every entry of the dictionary. -/
def entryRows : List Row :=
  entries00 ++ entries01 ++ entries02 ++ entries03 ++ entries04 ++ entries05 ++ entries06 ++ entries07 ++ entries08 ++ entries09 ++ entries0A ++ entries0B ++ entries0C ++ entries0D ++ entries0E ++ entries0F ++ entries10

/-- The row of entry `e` and its unit (R446). -/
def findRow (e : Nat) : Option (Row × Nat) :=
  entryRows.findSome? fun r => (r.unit? e).map fun u => (r, u)

/-- The number under which a sub-entry's value stands. -/
def key (e sub : Nat) : Nat := e * 4096 + sub

/-- The default of a sub-entry; 0 for an entry that does not exist. -/
def defaultOf (e sub : Nat) : Nat :=
  match findRow e with
  | some (r, _) => r.default sub
  | none => 0

end Sys2Proof.Machine
end

