-- ==== Sys2Proof/Machine/State.lean ====
section
/-! DEFINITION. The state of the hub: everything the spec says it holds, as plain data. Sparse stores are `Tab`s in one
canonical form (ascending numbers, no entry equal to what an unlisted number holds). A setting, a counter or a stored
value that the dictionary numbers is kept under its entry and sub-entry number, as the manual names it. -/

namespace Sys2Proof.Machine

/-- Reasons a command can stop the block. -/
inductive Fault where
  /-- For a machine that stops on a term no event of the hub has. No meaning of this model raises it: every command
  completes, and such a term (a cell that is not 32 words, a MIRROR of no word) leaves the state as it is. Safe. -/
  | illFormed
  deriving DecidableEq, Repr

/-- Reasons a command has no meaning here. -/
inductive Refusal where
  /-- The command has no meaning in this model yet; no arm of exec answers it. Safe. -/
  | notModelled (mnemonic : String)
  deriving DecidableEq, Repr


/-! ### Strokes in flight -/

/-- A stroke (R85). -/
structure Stroke where
  op : Nat
  sluice : Nat
  crit : Nat
  wake : Bool
  rgen : Nat
  wgen : Nat
  tsel : Nat
  len : Nat
  start : Nat
  resv : Nat
  opnd : Nat
  deriving DecidableEq, Repr

/-- An operand descriptor (R90). -/
structure Desc where
  abank : Nat
  aline : Nat
  fm : Nat
  lm : Nat
  b : Nat
  deriving DecidableEq, Repr

/-- Where a line of a stroke's source or destination stands: its tier, the line of the copy that the stroke's generation
names (R99, R101), the copy-0 line, and in a turn region its stale mark and its tag. -/
structure Place where
  up : Bool
  line : Nat
  logical : Nat
  reg : Option (Nat × Nat)
  deriving DecidableEq, Repr

/-- What a stroke does in a cycle of its footprint (R51, R52). -/
inductive Act where
  /-- Line i of the source is read. -/
  | read (i : Nat)
  /-- Line i of the destination is read for its merge. -/
  | merge (i : Nat)
  /-- Words leave a shared block: line i, or of a drove port cycle q. -/
  | take (q : Nat)
  /-- Line i of the destination is written. -/
  | write (i : Nat)
  /-- Words reach a shared block. -/
  | put (q : Nat)
  /-- The stroke meets the other tile, or its port's queue, at s + 8. -/
  | meet
  /-- The packet of a PEN_WR is committed. -/
  | commit
  /-- The cell departs on link l. -/
  | depart (l : Nat)
  /-- The first preamble bit of a frame leaves, the first bit of its destination address, and its last bit. -/
  | begin_
  | stamp
  | sent
  /-- The done cycle. -/
  | done
  deriving DecidableEq, Repr

/-- A stroke in flight (R49): its sluice, entry index, stroke and descriptor, the work cycle of its start, the fabric tide it
started in, whether its reads of the previous generation go unchecked (R102), its lines, the words it holds, its merge
reads (line, poisoned, words), its null cause (0 none), a flag of its class, and what it still has to do by work cycle. -/
structure Flight where
  sl : Nat
  idx : Nat
  st : Stroke
  d : Desc
  at_ : Nat
  tideF : Nat
  free : Bool
  src : List Place
  dst : List Place
  got : List (List Word)
  old : List (Nat × Bool × List Word)
  cause : Nat
  flag : Bool
  acts : List (Nat × Act)
  deriving DecidableEq, Repr

/-- The tide grid as it runs (R40 to R44, R84, R99). -/
structure TideSt where
  /-- The tide counter of R99: 0 at the first tide after start-up, not reset by a swap. -/
  t : Nat
  /-- The tide offset in wc of the event last taken. -/
  off : Nat
  /-- Work cycles from the start of the work domain to offset 0 of the tide. -/
  abs0 : Nat
  /-- Tide index within the spring cycle (R42). -/
  index : Nat
  /-- Tides completed since the active table became active (R84). -/
  count : Nat
  /-- A first tide has begun since start-up, so that the counter advances at the next tide start. -/
  begun : Bool
  /-- Tides run now: the hub is in FULL and a tide of the grid has begun, a table active or not (R395, R603). -/
  runs : Bool
  /-- FIRST of GENERATION (R116, R175). -/
  first : Bool
  /-- P of the active table in wc; 0 with none. -/
  period : Nat
  /-- S of the active table; 0 with none. -/
  spring : Nat
  /-- One more than the offset at which a tile went dark in this tide, by tile; 0 while awake (R76). -/
  darkAt : Tab Nat
  /-- Dark cycles of this tide so far, by tile. -/
  darkNow : Tab Nat
  /-- TILE_DARK of the last completed tide, by tile. -/
  darkLast : Tab Nat
  /-- The offset of this tide from which a woken tile is awake (R76, R78), by tile; 0 when no wake is in progress. -/
  wakeAt : Tab Nat
  /-- Tiles woken for slack inside a planned dark interval (R78), by tile. -/
  slackAwake : List Nat
  /-- The strokes in flight, in the order of their starts (R49). -/
  flights : List Flight
  deriving DecidableEq, Repr

/-- States of the staging half (R111), with the codes of TABLE_STATE. -/
inductive Stage where
  | empty | loading | checking | admitted | armed | committed | retiring | refused
  deriving DecidableEq, Repr

/-- The check code of a stored entry (R98): good, a single-bit error, an uncorrectable error. -/
inductive Ecc where
  | good | single | multi
  deriving DecidableEq, Repr

/-- One half of the table store (R107 to R110) with what the container carried beside it. -/
structure Half where
  period : Nat
  spring : Nat
  imageId : Nat
  /-- The load window. -/
  load : Tab Word
  strokes : Tab Word
  opnds : Tab Word
  regions : Tab Word
  segs : Tab Word
  /-- Sections 5 to 9 as unpacked (R122 step 9), by TYPE. -/
  sects : List (Nat × List Word)
  /-- Check codes of stroke entries and of descriptor entries that are not good (R98). -/
  strokeEcc : Tab Ecc
  opndEcc : Tab Ecc
  deriving DecidableEq, Repr

/-- The table store (R107 to R117). -/
structure TableSt where
  half0 : Half
  half1 : Half
  /-- ACTIVE_VALID and ACTIVE_HALF. -/
  valid : Bool
  active : Bool
  stage : Stage
  /-- The tide counter and the fabric time when ARM was accepted (R112). -/
  armedAt : Nat
  armUnits : Nat
  /-- STAGING_IMAGE_ID as R122 sets it. -/
  stagingId : Nat
  /-- PILOT_REPORT/0 to /7 (R151). -/
  report : List Nat
  /-- The profile whose container the staging half was loaded from (R570); none for the load window. -/
  fromProfile : Option Nat
  deriving DecidableEq, Repr

/-- One stage of an unscheduled access: the resource class and instance of R131 and its stage cycles (R144). -/
structure LStage where
  cls : Nat
  inst : Nat
  /-- Into the port (0), out of it (1), or no port of two directions (2). -/
  dir : Nat
  cycles : Nat
  /-- Gap in wc after the previous stage (R138), and after the access's first (R172). -/
  gap : Nat
  since : Nat
  deriving DecidableEq, Repr

/-- One pending access of the ledger (R138, R139). -/
structure Access where
  age : Nat
  /-- The work cycle of its entry. -/
  entered : Nat
  /-- The work cycle before which the next stage is not ready. -/
  ready : Nat
  /-- The first stage has been granted, in the work cycle of `first`. -/
  started : Bool
  first : Nat
  /-- The image line concerned: its tier, and its copy-0 address. -/
  line : Option (Bool × Nat)
  /-- The stage granted last, in whose port the line waits (R138), and the stages to come. -/
  last : Option LStage
  stages : List LStage
  /-- The write waits for the CARRY of its line of a HOST turn region (R104). -/
  carried : Bool
  overdue : Bool
  /-- The cell that leaves on a link with the last stage (R343). -/
  cell : Option (Nat × List Word)
  deriving DecidableEq, Repr

/-- An unscheduled write of a HOST line that waits for its CARRY (R104): its class, the line, the mask and the words, the bit
where it writes one bit (R163), and the POINT_WRITE that it belongs to. -/
structure WaitWrite where
  cls : Nat
  line : Nat
  mask : Nat
  words : List Word
  bit : Option Nat
  req : Option Msg
  deriving DecidableEq, Repr

/-- The ledger and the degraded tide (R137 to R151). -/
structure LedgerSt where
  /-- Pending accesses by class, oldest first, at most 16. -/
  queue : Tab (List Access)
  /-- Accesses whose requesters are held back while their class is full, oldest first (R139). -/
  behind : Tab (List Access)
  /-- The work cycle from which an instance can be granted again, by resource class × 2^12 + instance (R140). -/
  busy : Tab Nat
  /-- The work cycle of the last granted use of each tile (R78). -/
  lastUse : Tab Nat
  /-- The granted writes of pasture lines of the last 4 wc: physical line and work cycle (R138). -/
  writes : List (Nat × Nat)
  /-- Stage cycles used this tide, by class × 2^16 + resource class × 2^12 + instance (R144). -/
  use : Tab Nat
  /-- LEDGER_USE: peak use by class in the last completed tide. -/
  peak : Tab Nat
  /-- MAX_WAIT in wc and URGENT of LEDGER_WAIT, by class. -/
  maxWait : Tab Nat
  urgent : Tab Nat
  overdue : Nat
  /-- Classes already refused by quota this tide (QUOTA_REACHED, R150). -/
  quotaHit : List Nat
  /-- Pasture lines of HOST regions whose CARRY is done this tide (R104). -/
  carried : List Nat
  /-- Unscheduled writes of HOST lines that wait for their CARRY (R104), oldest first. -/
  waiting : List WaitWrite
  /-- The level raised by R147 and the level in force. -/
  level : Nat
  inForce : Nat
  /-- A source reached SEVERE since the last turn; of each source SEVERE at the last turn, one more than the tides on end at
  level 1 through which it has stayed so (R147). -/
  severeSeen : Bool
  severeRuns : Tab Nat
  deriving DecidableEq, Repr

/-- What the eight check bits of an image line say of it (R167, R168): good, a single-bit error, or an error not
correctable. The spec names a SECDED code and no matrix, so the bits stand here as what the check finds. No command makes an
error; the state says which lines hold one (log 26). -/
inductive LineCode where
  | good | single | multi
  deriving DecidableEq, Repr

/-- One image line (R167): four words, the poison bit, its check bits and, in pasture, the side store: the generation tag,
whether the parity bit does not verify, and whether the tag, kept by the marking write of R170, matches no generation. The
spare bit of the side store reads 0. The words are those a read returns: corrected for a single-bit error, as stored
otherwise. -/
structure Line where
  w0 : Word
  w1 : Word
  w2 : Word
  w3 : Word
  poison : Bool
  code : LineCode
  tag : Nat
  sideBad : Bool
  tagVoid : Bool
  deriving DecidableEq, Repr

/-- One entry of a held list (R134): a line range with its first-line and last-line word masks. -/
structure Held where
  first : Nat
  last : Nat
  fm : Nat
  lm : Nat
  deriving DecidableEq, Repr

/-- One run of the point map (R159). -/
structure Run where
  first : Nat
  upland : Bool
  addr : Nat
  kind : Nat
  width : Nat
  bitPos : Nat
  count : Nat
  deriving DecidableEq, Repr

/-- The point image (R152 to R190). Pasture lines are numbered bank × 65,536 + line, upland lines a[28:2]. Units of
scrubbing are banks 0 to 63 and 64 + channel. -/
structure ImageSt where
  pasture : Tab Line
  upland : Tab Line
  /-- Held lists (R134) of tile n (0–15) and of 16 + upland channel. -/
  held : Tab (List Held)
  /-- Stale marks (R103): generation mod 4 of copy c of region r at 2r + c; absent when empty. -/
  stale : Tab Nat
  /-- Corrected lines queued for write-back (R177), as (upland, line). -/
  writeBack : List (Bool × Nat)
  /-- Lines found not correctable, queued for marking (R169). -/
  marking : List (Bool × Nat)
  scrubAt : Tab Nat
  scrubTides : Tab Nat
  scrubLast : Tab Nat
  scrubPasses : Tab Nat
  /-- POISON_LOG values, newest first, at most 16. -/
  poisonLog : List Nat
  pastureReady : Bool
  uplandReady : List Bool
  /-- UPLAND_LOSS_CAUSE by channel, 0 not lost (R173). -/
  lost : Tab Nat
  /-- Lines of each channel found not correctable this tide (R173). -/
  foundTide : Tab Nat
  /-- An upland command that failed its parity and awaits its repeat, by channel. -/
  retrying : List Nat
  /-- POINT_MAP in force. -/
  map : List Run
  deriving DecidableEq, Repr

/-- States of R201. -/
inductive RunState where
  | off | run | drain
  deriving DecidableEq, Repr

/-- One pen (R191 to R205). Pointers run modulo twice the pen's size, so that a full pen differs from an empty one;
each is held twice, in binary and in complement (R194). -/
structure Pen where
  state : RunState
  rd : Nat
  cm : Nat
  wr : Nat
  rdC : Nat
  cmC : Nat
  wrC : Nat
  /-- A packet is open; its words since the header, and whether the rest of it is being discarded. -/
  opened : Bool
  words : Nat
  discard : Bool
  high : Bool
  deriving DecidableEq, Repr

/-- The pen pool: pens by number, words by pool word number. -/
structure PenSt where
  pens : Tab Pen
  pool : Tab Word
  deriving DecidableEq, Repr

/-- States of a drover (R228). -/
inductive DState where
  | off | run | stopped | fault
  deriving DecidableEq, Repr

/-- A register write or a DRV_CTRL command waiting for its edge (R54, R229): what it writes (0 to 7 a register word, 8 a
command), the value, the work cycle of the port write or grant, and how many edges have passed since. -/
structure DWait where
  word : Nat
  value : Word
  at_ : Nat
  seen : Nat
  deriving DecidableEq, Repr

/-- One drover (chapter 7): the settings in force, then its registers. Edge modes hold two bits for each detector. Beside
them stand the edge it last acted at, as work cycle plus 1, its register words as that edge found them (R54), and whether
a LATCH exported at it. -/
structure Drover where
  prog : Nat
  outwin : Nat
  inwin : Nat
  shift : Nat
  init : Nat
  state : DState
  cause : Nat
  pc : Nat
  x : Nat
  y : Nat
  xpre : Nat
  ypre : Nat
  t : Nat
  tper : Nat
  cnt : Nat
  sin : Nat
  sout : Nat
  sinFill : Nat
  soutLeft : Nat
  txd0 : Word
  txd1 : Word
  txNew : Bool
  txq : Nat
  rxd0 : Nat
  rxd1 : Nat
  rxq : Nat
  rxUnread : Bool
  fresh : Bool
  rxOverrun : Nat
  eMode : Nat
  eFlag : Nat
  eLast : Nat
  dwell : Nat
  safeOverride : Bool
  waits : List DWait
  edgeAt : Nat
  shown : List Word
  exported : Bool
  deriving DecidableEq, Repr

/-- States of the exchange (R237, R240). -/
inductive XState where
  | idle | copying | pending | blocked
  deriving DecidableEq, Repr

/-- One drove: its divider, stores with their check codes, flags and exchange. The flag actions of one edge are gathered beside the flags as
they stood before it (R224). -/
structure Drove where
  n : Nat
  store : Tab Word
  load : Tab Word
  ecc : Tab Ecc
  loadEcc : Tab Ecc
  eccCorrected : Nat
  flags : Nat
  flagsBefore : Nat
  edgeAt : Nat
  sets : Nat
  toggled : Nat
  toggleAny : Nat
  clears : Nat
  xstate : XState
  exchanges : Nat
  mask : Nat
  carry : Nat
  pendingAt : Nat
  deriving DecidableEq, Repr

/-- The drovers, the droves, and the level and direction each drover last gave its pins, by field pin. -/
structure DrvSt where
  drovers : Tab Drover
  droves : Tab Drove
  lvl : Tab Bool
  dir : Tab Bool
  deriving DecidableEq, Repr

/-- States of a beacon (R262), with the codes of BEACON_STATUS. -/
inductive BState where
  | idle | armed | running | done | missed | stopped
  deriving DecidableEq, Repr

/-- One beacon: the settings as ARM took them, the next edge and the pulse in progress (R261 to R263). -/
structure Beacon where
  state : BState
  pulses : Nat
  activeLow : Bool
  /-- Width and period in time units; period 0 for once. -/
  width : Nat
  period : Nat
  /-- Fabric time in units of the next edge. -/
  due : Nat
  /-- A pulse is in progress. -/
  active : Bool
  deriving DecidableEq, Repr

/-- The field pins and banks (R244 to R268). -/
structure PinSt where
  /-- Filter output of each pin (R255). -/
  filt : Tab Bool
  /-- DOUT output registers (R258). -/
  dout : Tab Bool
  /-- Bank words (2b + half) whose DOUT pins a BAD word has set safe (R258). -/
  unsafe_ : List Nat
  /-- VIO state of each bank with the codes of BANK_STATUS. -/
  vio : Tab Nat
  /-- Banks out of service (R245). -/
  out : List Nat
  /-- The pins are in hold (R264), and what each then keeps: 2 drives low, 3 drives high, 0 high-impedance. -/
  hold : Bool
  held : Tab Nat
  /-- What a pin of SAFE HOLD drove in the cycle before its safe state began (R252), in the same code. -/
  safeHeld : Tab Nat
  /-- CAPTURE_RISE, CAPTURE_FALL and CAPTURE_COUNT of each pin. -/
  rise : Tab Nat
  fall : Tab Nat
  captures : Tab Nat
  beacons : Tab Beacon
  deriving DecidableEq, Repr

/-- States of a bus channel (R275), with the codes of BUS_STATE. -/
inductive BusState where
  | off | integrating | active | passive | busOff | recovering | drain
  deriving DecidableEq, Repr

/-- States of a transmit buffer (R279), with the codes of BUS_STATE. -/
inductive TbState where
  | empty | pending | active
  deriving DecidableEq, Repr

/-- One transmit buffer (R277 to R282): its state, the marks of its image and the image's words. `voidAfter` marks an
ACTIVE frame whose image a late load makes VOID at the frame's end (R281). -/
structure TxBuf where
  state : TbState
  void : Bool
  tainted : Bool
  voidAfter : Bool
  image : Tab Word
  deriving DecidableEq, Repr

/-- One bus channel (chapter 9). -/
structure BusChan where
  state : BusState
  tec : Nat
  rec_ : Nat
  tb0 : TxBuf
  tb1 : TxBuf
  tb2 : TxBuf
  /-- After a protocol exception the channel waits for 11 recessive bits (R286). -/
  waits : Bool
  /-- A completed frame awaiting its write: its pen and the record's words (R285). -/
  held : Option (Nat × List Word)
  /-- Cycle count of the reference messages sent (R288). -/
  refs : Nat
  /-- Fabric time of the ACTIVE frame's SOF, and the payload that a reference message carries. -/
  sof : Nat
  refBody : List Word
  /-- Turns in BUS_OFF. -/
  offTurns : Nat
  /-- BUS_TIME_LAST/0 and /1. -/
  lastMaster : Nat
  lastLocal : Nat
  deriving DecidableEq, Repr

/-- The message-bus channels that differ from a channel that is OFF. -/
structure BusSt where
  chans : Tab BusChan
  deriving DecidableEq, Repr

/-- States of a port (R302), with the codes of PORT_STATE. -/
inductive PortState where
  | off | down | settling | up | drain
  deriving DecidableEq, Repr

/-- A best-effort frame: its bytes from destination address up to the FCS, traffic class, colour (0 green, 1 yellow, 2
red), VLAN, the port it came in by, the number of its stored copy, and whether a session made it. -/
structure QFrame where
  bytes : List Nat
  tc : Nat
  colour : Nat
  vid : Nat
  ingress : Nat
  copy : Nat
  mirrored : Bool
  deriving DecidableEq, Repr

/-- An entry of a scheduled queue: the frame's bytes with padding, the work cycles (from start-up) of its first bit and
of the end of its wire time, whether it has begun, whether its port was not UP at s + 8 (R305), and the TIME with its
quality in [113:112] at which its first destination-address bit left (R309). -/
structure SchedFrame where
  bytes : List Nat
  at_ : Nat
  till : Nat
  begun : Bool
  doomed : Bool
  stamp : Nat
  deriving DecidableEq, Repr

/-- One port: its state, the faults sent and received (R301), the level in use, and the work cycle up to which its wire is
taken. -/
structure Port where
  state : PortState
  faultSent : Bool
  faultSeen : Bool
  ampl : Nat
  busy : Nat
  deriving DecidableEq, Repr

/-- One meter: both buckets in 1/65,536 byte at a work cycle (R312). -/
structure Meter where
  tc : Nat
  te : Nat
  at_ : Nat
  deriving DecidableEq, Repr

/-- The switch core (chapter 10). Best-effort queues stand at 8 × port + TC; learned addresses at VID × 2^48 + address,
with the port, or 64 + node. -/
structure SwitchSt where
  ports : Tab Port
  queues : Tab (List QFrame)
  avg : Tab Nat
  sched : Tab (List SchedFrame)
  /-- Meters whose buckets are not full by never having been used. -/
  meters : Tab (Option Meter)
  fdb : Tab Nat
  nextCopy : Nat
  lowFree : Nat
  /-- SWITCH_BUFFER_FULL has fired this tide. -/
  fullSeen : Bool
  /-- Source frames since the last sample, by session. -/
  samples : Tab Nat
  /-- Ports whose PORT_CONFIG waits for the turn. -/
  configured : List Nat
  /-- Tunnel frames held for a node (R318), oldest first. -/
  held : List (Nat × QFrame)
  deriving DecidableEq, Repr

/-- States of a ring or pair link (R348), with the codes of RING_LINK_STATE. -/
inductive LinkState where
  | off | settling | training | up | down
  deriving DecidableEq, Repr

/-- The cells of one tide on a protected link as one GCM message (R356): its fabric tide number, its bytes and whether
some cell failed its check. -/
structure SealMsg where
  tide : Nat
  bytes : List Nat
  failed : Bool
  deriving DecidableEq, Repr

/-- One ring or pair link (R348 to R357). -/
structure RLink where
  state : LinkState
  cause : Nat
  polarity : Nat
  swapped : Bool
  /-- LINK_FAULT is being received, and its run of free slots. -/
  faultRx : Bool
  faultRun : Nat
  /-- Run of TRAIN_OK with one PROTECT, and that PROTECT. -/
  trainRun : Nat
  trainProtect : Bool
  /-- Training is done; UP from the next turn. -/
  trained : Bool
  /-- Receive lanes hold block lock; RETRAIN_HOLD has passed. -/
  locked : Bool
  holdDone : Bool
  /-- Failed cells in window `window` since entry to UP at work cycle `upAt` (R349). -/
  fails : Nat
  window : Nat
  upAt : Nat
  /-- RT − TA last measured in 1/16 wc, d in force and the phase (R350, R372). -/
  raw : Nat
  dValid : Bool
  d : Nat
  phase : Nat
  phaseValid : Bool
  /-- The phase to come into force at the next turn. -/
  phaseNext : Option Nat
  /-- PHASE_INCOMPLETE has fired in this epoch. -/
  phaseFired : Bool
  transit : List (List Word)
  peak : Nat
  /-- Markers that wait for a free slot, code and argument (R343). -/
  marks : List (Nat × Nat)
  /-- The message of the tide as sent, and the messages received that no SEAL has settled, oldest first. -/
  sent : List Nat
  seals : List SealMsg
  /-- The copy of the key in the link's cipher (R537). -/
  key : Option Nat
  deriving DecidableEq, Repr

/-- A receive slot (R336): the cell kept last, whose words are ready in work cycle `ready`, and the cell before it, which reads
see until then. -/
structure RxSlot where
  words : List Word
  h : Nat
  valid : Bool
  link : Nat
  ready : Nat
  oldWords : List Word
  oldH : Nat
  oldValid : Bool
  deriving DecidableEq, Repr

/-- A TUNNEL message being assembled (R347): the last sequence number and the words so far. -/
structure Assembly where
  seq : Nat
  words : List Word
  /-- The frame has been discarded: what is left of it is dropped. -/
  dead : Bool
  deriving DecidableEq, Repr

/-- Ring links and cells (chapter 11). Stations are numbered node × 2 + unit. -/
structure RingSt where
  links : Tab RLink
  rx : Tab RxSlot
  /-- Counters of R346, by KIND × 4 + direction. -/
  seqs : Tab Nat
  /-- Newest TOPOLOGY report at station × 8 + link: 2 × counter + STATE. -/
  topo : Tab (Option Nat)
  reports : Nat
  /-- RING_WRAP has fired this tide. -/
  wrapSeen : Bool
  /-- Links that Bell took down and that TOPOLOGY has not yet reported (R351). -/
  toReport : List Nat
  synt : Nat
  syntChanges : Nat
  /-- Assemblies by source station × 4 + direction. -/
  asm : Tab (Option Assembly)
  /-- Usable paths last seen for a node, plus one (1 A, 2 B), and nodes under REPATH_HOLD (R318). -/
  paths : Tab Nat
  repath : List Nat
  deriving DecidableEq, Repr

/-- Ring-role states (R363), with the codes of MUSTER_STATE. -/
inductive MState where
  | solo | listen | claiming | yielded | joining | member | ebbPending | ebbed | out
  deriving DecidableEq, Repr

/-- A ROSTER entry (R364): CLAIMW, the station to the west, and d by link (none where not VALID). -/
structure RosterEnt where
  claimw : Nat
  west : Option Nat
  d : List (Option Nat)
  deriving DecidableEq, Repr

/-- PHASE of EBB_STATE. -/
inductive EbbPhase where
  | awake | roundOpen | pending | beacon | ebbing
  deriving DecidableEq, Repr

/-- Muster, ebb and flood (chapter 12). Stations are numbered node × 2 + unit; ticks are of 3,125 sc. -/
structure MusterSt where
  state : MState
  /-- LISTEN after a flood (R386). -/
  flooded : Bool
  role : Nat
  epoch : Nat
  /-- Highest epoch held or seen (R369). -/
  highest : Nat
  /-- A muster record is kept (R387). -/
  record : Bool
  best : Nat
  nonce : Nat
  /-- Rings on which the claim was sent and on which it returned, bit 0 A, bit 1 B; the claim is a STANDIN. -/
  sentOn : Nat
  returned : Nat
  standin : Bool
  roster : Tab (Option RosterEnt)
  rosterTick : Nat
  rosterDue : Bool
  masterKnown : Bool
  masterClaimw : Nat
  acting : Bool
  actStation : Nat
  west : Option Nat
  /-- What tells the last broadcast acted on from others, plus one, by station × 256 + KIND × 16 + TYPE (R365). -/
  seen : Tab Nat
  /-- A JOINING station knows the grid and becomes MEMBER at the next tide start. -/
  joinReady : Bool
  /-- The tide master is counted as lost (R374). -/
  lost : Bool
  /-- An acting master with the lower claim falls back to member at its next turn (R375). -/
  quits : Bool
  /-- P of the grid that a SET brings, until its first tide begins. -/
  setP : Nat
  ebb : EbbPhase
  round : Nat
  reason : Nat
  required : List Nat
  consents : List Nat
  vetoes : Tab Nat
  /-- Fabric time of EBB_AT in units. -/
  ebbAt : Nat
  /-- EBB_HOLDOUT values, newest first. -/
  holdout : List Nat
  /-- First and last tick of each station's FLOOD cells (R383). -/
  floods : Tab (Option (Nat × Nat))
  beacons : Nat
  wakeActive : Bool
  wakeCause : Nat
  wakeLink : Nat
  wakes : Nat
  /-- This station's answer to the last round was a VETO (R379). -/
  vetoed : Bool
  /-- The round that a SET of a new epoch voided (R388). -/
  void : Option Nat
  /-- F and P of the last TIDE at a JOINING station that waits for fabric time, and whether it holds that grid (R373). -/
  tideSeen : Option (Nat × Nat × Bool)
  deriving DecidableEq, Repr

/-- States of fabric time at a station (R399), with the codes of TIME_STATE. -/
inductive TimeState where
  | unset | free | locked | holdover
  deriving DecidableEq, Repr

/-- An announced foreign time transmitter (R400, R405): the dataset that the comparison reads. -/
structure Dataset where
  prio1 : Nat
  cls : Nat
  acc : Nat
  variance : Nat
  prio2 : Nat
  gm : Nat
  steps : Nat
  deriving DecidableEq, Repr

/-- One time domain (R405, R407). Times of one station's clock are in time units; offsets, delays and corrections in
2^-16 ns. -/
structure Domain where
  /-- DSTATE: 0 DISABLED, 1 LISTENING, 2 LOCKING, 3 LOCKED. -/
  dstate : Nat
  /-- Ingress: station × 64 + port. -/
  ingress : Option Nat
  gm : Nat
  cls : Nat
  steps : Nat
  /-- Domain time less fabric time, signed: as SYNC or REPORT gives it, as this station's ingress measures it, and its average
  over 2^FILTER values (R402, R407, R411) with the sum and count of the next. -/
  offset : Int
  measured : Int
  filtered : Int
  sum : Int
  count : Nat
  /-- Signed, in 2^-40. -/
  rate : Int
  /-- Consecutive Sync intervals that gave a measurement, and the sequence number of the last Sync measured (R407). -/
  run : Nat
  lastSeq : Nat
  delay : Int
  /-- Last Sync measured: its domain time with correction and its local time, in units. -/
  t1 : Nat
  t2 : Nat
  /-- A two-step Sync waits for its Follow_Up: sequence number, correction, local time. -/
  twoStep : Option (Nat × Int × Nat)
  /-- The Delay_Req or Pdelay_Req sent last: sequence number and local time in units. -/
  reqSeq : Nat
  reqAt : Nat
  /-- A two-step Pdelay_Resp waits for its Follow_Up: sequence number, t2 and t4 in units, and its correction. -/
  pdelay : Option (Nat × Nat × Nat × Int)
  deriving DecidableEq, Repr

/-- Fabric time (R391 to R415). Times inside the machine count units of 1/327,680 ns, 262,144 to the work cycle. -/
structure TimeSt where
  state : TimeState
  /-- Fabric time at offset 0 of the tide, or the last value while no grid is known. -/
  base : Nat
  /-- The fabric tide number F of the tide. -/
  F : Nat
  /-- The grid known (R395): P, 0 while none is known, and the anchor. -/
  gridP : Nat
  anchorF : Nat
  anchorT : Nat
  /-- The first tide of the grid and its start, until it begins. -/
  first : Option (Nat × Nat)
  /-- One more than the highest F run or seen; 0 for none (R396). -/
  highest : Nat
  /-- Domain followed: 0, 1, or 2 for none; the domain a switch at the next turn moves to (R409, R410). -/
  follow : Nat
  switchTo : Option Nat
  traceable : Bool
  /-- LOCKED since the station took its role (R399). -/
  everLocked : Bool
  /-- A SYNC was accepted in this epoch, and in this tide; a flood came since (R399, R402). -/
  synced : Bool
  heard : Bool
  afterFlood : Bool
  /-- Successive offsets of R402: their sum and count, and the last average, in 2^-16 ns. -/
  sum : Int
  count : Nat
  average : Int
  /-- State of the master and offsets of the domains as the last SYNC gave them. -/
  masterState : Nat
  /-- AT of the last TIME_SET since start, in units (R398). -/
  setTo : Option Nat
  /-- R411: the bound when the present state began, in 0.1 ns, its growth in ppb and the tick. -/
  errBase : Nat
  errPpb : Nat
  errTick : Nat
  /-- TIME_OFFSET_LARGE has fired for the offset now followed. -/
  large : Bool
  domains : Tab Domain
  /-- ANNOUNCE entries of all stations (R405) at domain × 2^17 + station × 64 + port. -/
  announced : Tab (Option Dataset)
  /-- Next sequence number of PTP messages sent. -/
  ptpSeq : Nat
  /-- A SYNC was accepted since cold start (R399). -/
  everSynced : Bool
  /-- What steering adds to the work clock's rate against its reference, in ppb (R397). -/
  rate : Int
  /-- Path trace of the 802.1AS Announce last received, by the key of its ANNOUNCE entry (R404). -/
  traces : Tab (List Nat)
  deriving DecidableEq, Repr

/-- States of a pair unit (R418), with the codes of PAIR_STATE. -/
inductive PairState where
  | off | waiting | joining | standby | active | out
  deriving DecidableEq, Repr

/-- What a planned change of the claim is for (R424). -/
inductive Plan where
  | takeover | rebase | swapOut | swapIn
  deriving DecidableEq, Repr

/-- A planned change: the NEXT claim and the work cycle from which a turn brings it into force. -/
structure Planned where
  plan : Plan
  claim : Nat
  due : Nat
  deriving DecidableEq, Repr

/-- The words one DIGEST stroke read in the tide, its region, its place in the order of R429, and whether it was null. -/
structure DigestPart where
  F : Nat
  region : Nat
  place : Nat
  words : List Nat
  null : Bool
  deriving DecidableEq, Repr

/-- A digest of a region for a fabric tide (R429, R430). -/
structure Digest where
  F : Nat
  region : Nat
  valid : Bool
  value : Nat
  deriving DecidableEq, Repr

/-- A mirror epoch: its SEQ, F_k, and its items, each with its head word (R435, R437). -/
structure Epoch where
  seq : Nat
  fk : Nat
  items : List (List Nat)
  deriving DecidableEq, Repr

/-- Redundant pairs (chapter 15). -/
structure PairSt where
  state : PairState
  claim : Nat
  plan : Option Planned
  /-- Content of the claim frame in progress on CLAIM_OUT. -/
  frame : Nat × Nat
  /-- The partner record and its SOURCE (R421). -/
  record : Nat
  source : Nat
  /-- EPOCH of the active claim last recorded from the partner, 0 for none (R420). -/
  lastActive : Nat
  /-- Millisecond tick at which the partner record last became 0 (R564). -/
  zeroSince : Nat
  /-- CLAIM and NEXT of the last valid frame. -/
  last : Option (Nat × Nat)
  claimSilent : Bool
  claimInFault : Bool
  /-- E of R420. -/
  highest : Nat
  formed : Bool
  /-- Causes for which PAIR_MISMATCH has fired (R417). -/
  mismatched : List Nat
  /-- Firmware version word of the partner's HELLO. -/
  partnerFw : Nat
  silence : Bool
  linkLost : Bool
  resync : Bool
  confirmWait : Bool
  /-- The first resync has committed at a JOINING unit. -/
  firstDone : Bool
  /-- The active unit has begun the resync of its JOINING partner. -/
  served : Bool
  resolving : Bool
  checkNext : Bool
  checking : Bool
  own : Nat
  partner : Nat
  signature : Nat
  /-- OWN and PARTNER results of the resolution in progress. -/
  ownNow : Nat
  partnerNow : Nat
  mismatchRegion : Nat
  mismatchF : Nat
  /-- Parts of the tide in progress; digests of the last tides, newest first. -/
  parts : List DigestPart
  digests : List Digest
  /-- Mirroring at the active: SEQ last acknowledged, next SEQ, F of the turn that opened the epoch, items pending,
  unacknowledged epochs oldest first, an overflow of MIRROR_PEN. -/
  acked : Nat
  nextSeq : Nat
  openF : Nat
  items : List (List Nat)
  unacked : List Epoch
  overflow : Bool
  /-- At the standby: SEQ last committed, the partial epoch, committed epochs to apply, writes waiting for their F_eff
  (F_eff, number of the sub-entry, value words), and latches of X, Y, CNT by F, newest first. -/
  committed : Nat
  rxSeq : Nat
  rx : List Nat
  apply : List Epoch
  writes : List (Nat × Nat × List Nat)
  latches : List (Nat × List (Nat × Nat × Nat × Nat))
  deriving DecidableEq, Repr

/-- One session of R454. -/
structure Session where
  role : Nat
  path : Nat
  source : Nat
  slot : Nat
  idle : Nat
  deriving DecidableEq, Repr

/-- One subscription of R462. -/
structure Sub where
  path : Nat
  source : Nat
  session : Nat
  tag : Nat
  entry : Nat
  sub : Nat
  count : Nat
  periodic : Bool
  interval : Nat
  /-- Tides since the last NOTIFY, whether one was ever sent, the next NSEQ and the values last sent. -/
  since : Nat
  sent : Bool
  nseq : Nat
  last : List Word
  deriving DecidableEq, Repr

/-- A request still open, by its OP: relayed under a number from 1 (R457), a WRITE_VERIFY waiting for its turn (R461), or
a CHECK of the update that waits for its end (R561). -/
structure OpenReq where
  op : Nat
  path : Nat
  source : Nat
  msg : Msg
  relay : Nat
  deriving DecidableEq, Repr

/-- A blob being staged (R460). -/
structure OpenBlob where
  entry : Nat
  sub : Nat
  path : Nat
  source : Nat
  words : List Word
  deriving DecidableEq, Repr

/-- A CHALLENGE nonce waiting for its OPEN (R454). -/
structure Nonce where
  path : Nat
  source : Nat
  value : Nat
  deriving DecidableEq, Repr

/-- The object dictionary (R446 to R469). Values stand under entry × 4,096 + sub-entry. -/
structure DictSt where
  /-- Settings in force that differ from their defaults. -/
  settings : Tab Nat
  /-- Counters the dictionary numbers, by entry and sub-entry. -/
  counts : Tab Nat
  /-- RWT writes accepted and waiting for the turn, oldest first (R449). -/
  pending : List (Nat × Nat)
  /-- MRAM: kept values (copy 4) and per-profile values of P0 to P3, at copy × 2^40 + number (R451). -/
  kept : Tab Nat
  /-- Blob values in force, pending at the turn, and kept. -/
  blobs : Tab (List Word)
  pendingBlobs : List (Nat × List Word)
  keptBlobs : Tab (List Word)
  sessions : Tab Session
  subs : Tab Sub
  nonces : List Nonce
  waiting : List OpenReq
  openBlobs : List OpenBlob
  nextRelay : Nat
  /-- DICT_FORMAT by group: version stored and DEFAULTED (R466). -/
  format : Tab Nat
  defaulted : List Nat
  /-- Groups to be reset at the next turn (RESET_GROUP). -/
  resetAt : List Nat
  /-- SLOTID and PSEL at the last reset. -/
  straps : Nat
  /-- Shepherd cores run (R31). -/
  shepherds : Bool
  deriving DecidableEq, Repr

/-- A BAR0 queue (R473): committed messages without their headers, oldest first; the words left of a message whose
reading has begun, header word included; the open packet. -/
structure MsgQueue where
  ready : List (List Word)
  reading : List Word
  open_ : List Word
  /-- A packet is open; the rest of it is discarded. -/
  opened : Bool
  discard : Bool
  deriving DecidableEq, Repr

/-- The PCI Express endpoint (R470 to R478, R493). -/
structure HostSt where
  linkUp : Bool
  speed : Nat
  width : Nat
  req : MsgQueue
  rsp : MsgQueue
  intStatus : Nat
  intEnable : Nat
  qlock : Bool
  /-- MSI-X table dwords 0 to 2 of each vector at 4 × vector + dword, the vectors that are not masked, and the pending
  bits. -/
  msix : Tab Nat
  msixOn : List Nat
  pba : List Nat
  deriving DecidableEq, Repr

/-- The Quay bridge (R479 to R487). -/
structure QuaySt where
  state : RunState
  /-- LOCK_N is low; posted writes that must still end before it rises, once QLOCK has been written 0. -/
  locked : Bool
  lockLeft : Option Nat
  /-- Posted writes, oldest first: the space-7 offset and the words. -/
  posts : List (Nat × List Word)
  /-- QUAY_ERR_LOG values, newest first, at most 8. -/
  errLog : List Nat
  deriving DecidableEq, Repr

/-- The service port (R488 to R490): committed request messages and ready responses, oldest first. -/
structure SvcSt where
  req : List (List Word)
  rsp : List (List Word)
  deriving DecidableEq, Repr

/-- One Bell source (R498 to R501). -/
structure Source where
  /-- Highest level among unacknowledged firings; 0 for none. -/
  unack : Nat
  /-- Window count C and window start ws in ms ticks (R499). -/
  c : Nat
  ws : Nat
  raised : Bool
  latch : Bool
  firings : Nat
  forced : Nat
  /-- BELL_LAST as a TIME. -/
  last : Nat
  /-- Instances named by firings, each with its firing's level, since the source last fell below MAJOR (R497). -/
  insts : List (Nat × Nat)
  deriving DecidableEq, Repr

/-- Bell (R494 to R505). -/
structure BellSt where
  srcs : Tab Source
  /-- The shore domain's millisecond tick. -/
  tick : Nat
  fatal : Bool
  stopped : Bool
  compareFail : Bool
  lastSource : Nat
  deriving DecidableEq, Repr

/-- One Tally record before its clocks and check word: its TYPE, PARTNER flag, AT, REPEAT and payload (R510). -/
structure Rec where
  type : Nat
  partner : Bool
  hours : Nat
  cycles : Nat
  stamp : Nat
  rep : Nat
  payload : List Nat
  deriving DecidableEq, Repr

/-- The Tally (R506 to R515). Words of MRAM are numbered block × 2,048 + word. -/
structure TallySt where
  mram : Tab Word
  /-- MRAM words that fail writing (R508); no command makes one. -/
  bad : List Nat
  block : Nat
  word : Nat
  seq : Nat
  retired : List Nat
  /-- Records waiting in the backlog, oldest first. -/
  backlog : List Rec
  /-- The last record queued (R512). -/
  last : Option Rec
  /-- A raised REPEAT of a record already written waits to be rewritten. -/
  repDirty : Bool
  /-- Word number of the last record written. -/
  lastAt : Nat
  lost : Tab Nat
  ophours : Nat
  cycles : Nat
  /-- Clocks as last stored in MRAM (R515). -/
  storedHours : Nat
  /-- CAUSE, ORDER and RESET of the last start. -/
  startCause : Nat
  deriving DecidableEq, Repr

/-- Trace (R516 to R521): the 256-word buffer, the retained tail, the run of dropped records. -/
structure TraceSt where
  buffer : List (List Word)
  tail : List (List Word)
  lostRun : Nat
  deriving DecidableEq, Repr

/-- One key slot (R532): its metadata as KEY_SLOT lays it out with COUNT 0, its COUNT and its material. -/
structure Slot where
  info : Nat
  count : Nat
  material : Nat
  deriving DecidableEq, Repr

/-- One owner hash H1 to H3 (R542) with its public point (OTP_PUBKEY). -/
structure OtpKey where
  hash : Option Nat
  revoked : Bool
  point : List Nat
  deriving DecidableEq, Repr

/-- An operation that the engine serves or that waits for it (R539): its words and who asked. -/
structure FoldReq where
  words : List Nat
  asker : Asker
  deriving DecidableEq, Repr

/-- The Fold (chapter 19). -/
structure FoldSt where
  root : Option Nat
  slots : Tab Slot
  /-- Tamper causes that stand, and that are latched, bit k − 1 for cause k; tampers latched, and those of them for which
  FOLD_TAMPER has not fired. -/
  standing : Nat
  latched : Nat
  events : Nat
  unfired : Nat
  trngOk : Bool
  vbat : Nat
  /-- The operation in service, then those waiting. -/
  engine : List FoldReq
  /-- A tamper or a TRNG failure fell into the service: its operation answers REFUSED (R550). -/
  spoiled : Bool
  /-- FOLD_RESULT by session × 4 + path: the source and the words. -/
  results : Tab (Option (Nat × List Nat))
  lifecycle : Nat
  /-- A granted change whose fuses are being burnt (R549). -/
  burning : Option Nat
  /-- H1 to H3; H0 is a constant of manufacture. -/
  otp : Tab OtpKey
  installSeq : Nat
  tamperLog : Nat
  deriving DecidableEq, Repr

/-- States of the staging region (R559), with the codes of UPDATE_STATE. -/
inductive UState where
  | empty | receiving | checking | verified | scheduled | activating | refused
  deriving DecidableEq, Repr

/-- A stored profile (R568): its state with the codes of PROFILE_STATE (0 EMPTY, 1 VALID, 2 STALE), its format, and its
container's words and IMAGE_ID. -/
structure Profile where
  state : Nat
  pformat : Nat
  container : List Word
  imageId : Nat
  deriving DecidableEq, Repr

/-- Firmware update and profiles (chapter 20). -/
structure UpdateSt where
  state : UState
  deferred : Bool
  cause : Nat
  /-- Blocks held in staging, each its 512 data words; block 0 is the header. -/
  blocks : Tab (List Nat)
  /-- ACT_AT and ACT_ID as SCHEDULE took them, in time units, and the tides still to begin before an activation at once. -/
  actAt : Nat
  actId : Nat
  actNow : Bool
  actWait : Nat
  /-- The active firmware: its version, SVN, profile format and group formats; whether its region passes its check. -/
  version : Nat
  svn : Nat
  pformat : Nat
  gformats : List Nat
  good : Bool
  profiles : Tab Profile
  selected : Nat
  /-- The profile whose container SELECT is bringing into force (R570). -/
  selecting : Option Nat
  /-- The profile being stored or erased, and what it becomes (R571). -/
  busy : Option (Nat × Profile)
  deriving DecidableEq, Repr

/-- States of a gate (R579), in the order of the codes of GATE_STATE. -/
inductive GState where
  | disabled | empty | seating | ready | precharge | turnOn | settle | on | cooldown | lockout | damaged
  deriving DecidableEq, Repr

/-- One gate (chapter 21): the last sample in VIN, VOUT, I and T_FET (°C + 64). -/
structure Gate where
  state : GState
  cause : Nat
  tries : Nat
  seatA : Bool
  seatB : Bool
  req : Bool
  vin : Nat
  vout : Nat
  i : Nat
  t : Nat
  /-- The off time of R583 has passed in COOLDOWN. -/
  offDone : Bool
  /-- ON for the field banks (R586). -/
  banksOn : Bool
  deriving DecidableEq, Repr

/-- The gates and GATE_LATCH. -/
structure GateSt where
  gates : Tab Gate
  latch : Nat
  deriving DecidableEq, Repr

/-- Power states (R603), with the codes of POWER_STATE. -/
inductive PState where
  | dark | deepKeep | keep | light | full
  deriving DecidableEq, Repr

/-- Supplies, clocks, power states and starts (chapter 22). -/
structure PowerSt where
  state : PState
  previous : PState
  /-- State code and mV of supplies 0 to 8 (R593). -/
  supplies : List (Nat × Nat)
  /-- A breach holds the hub (R596), and the ORDER word of the first one. -/
  breach : Bool
  order : Nat
  /-- The work domain is held in reset. -/
  inReset : Bool
  /-- SOURCE of the start that follows; 0 for none (R610). -/
  source : Nat
  workLock : Bool
  refOk : Bool
  xtalOk : Bool
  losses : Nat
  /-- T_J now and its peak, °C + 64. -/
  junction : Nat
  peak : Nat
  /-- JUNCTION_HOT, JUNCTION_LIMIT and the thermal trip hold: bits 0, 1, 2. -/
  thresholds : Nat
  /-- A POWER_CMD accepted and waiting, by its code; 0 for none (R604). -/
  request : Nat
  /-- RESET_N counts as asserted. -/
  resetLow : Bool
  startLog : Nat
  deriving DecidableEq, Repr

/-- What leaves the hub, with the ball group or path it leaves by. -/
inductive OutKind where
  | response | notify | abort | hostCompletion | interrupt
  | ringCell | pairCell | marker | wakePattern | ethFrame | busFrame | busSignal | ptp
  | claimFrame | quay | service | arp | icmp
  deriving DecidableEq, Repr

/-- One thing that left the hub: its kind, the unit it left by (link, port, channel, path) and its words. -/
structure Out where
  kind : OutKind
  unit : Nat
  words : List Nat
  deriving DecidableEq, Repr

/-- The state of the hub. -/
structure State where
  /-- Commands waiting, first in, first out. -/
  pending : List Instr
  /-- What has left the hub, newest first. -/
  outbox : List Out
  /-- Index of the next free value (Config); the model's own field. -/
  freeAt : Nat
  tide : TideSt
  table : TableSt
  ledger : LedgerSt
  image : ImageSt
  pen : PenSt
  drv : DrvSt
  pin : PinSt
  bus : BusSt
  sw : SwitchSt
  ring : RingSt
  muster : MusterSt
  time : TimeSt
  pair : PairSt
  upd : UpdateSt
  gate : GateSt
  power : PowerSt
  fold : FoldSt
  dict : DictSt
  host : HostSt
  quay : QuaySt
  svc : SvcSt
  bell : BellSt
  tally : TallySt
  trace : TraceSt
  deriving DecidableEq, Repr

/-! ### The machine right after reset -/

/-- A half that holds nothing. -/
def Half.blank : Half :=
  { period := 0, spring := 0, imageId := 0, load := [], strokes := [], opnds := [], regions := [], segs := [], sects := [],
    strokeEcc := [], opndEcc := [] }

def TideSt.reset : TideSt :=
  { t := 0, off := 0, abs0 := 0, index := 0, count := 0, begun := false, runs := false, first := false, period := 0,
    spring := 0, darkAt := [], darkNow := [], darkLast := [], wakeAt := [], slackAwake := [], flights := [] }

def TableSt.reset : TableSt :=
  { half0 := Half.blank, half1 := Half.blank, valid := false, active := false, stage := .empty, armedAt := 0, armUnits := 0,
    stagingId := 0, report := List.replicate 8 0, fromProfile := none }

def LedgerSt.reset : LedgerSt :=
  { queue := [], behind := [], busy := [], lastUse := [], writes := [], use := [], peak := [], maxWait := [], urgent := [], overdue := 0, quotaHit := [], carried := [],
    waiting := [], level := 0, inForce := 0, severeSeen := false, severeRuns := [] }

/-- Both tiers as R174 leaves them: an unlisted line holds four words 0x3_0000 with tag 0. -/
def ImageSt.reset : ImageSt :=
  { pasture := [], upland := [], held := [], stale := [], writeBack := [], marking := [], scrubAt := [], scrubTides := [],
    scrubLast := [], scrubPasses := [], poisonLog := [], pastureReady := true, uplandReady := [true, true, true, true],
    lost := [], foundTide := [], retrying := [], map := [] }

def PinSt.reset : PinSt :=
  { filt := [], dout := [], unsafe_ := [], vio := [], out := [], hold := false, held := [], safeHeld := [], rise := [],
    fall := [], captures := [], beacons := [] }

def SwitchSt.reset : SwitchSt :=
  { ports := [], queues := [], avg := [], sched := [], meters := [], fdb := [], nextCopy := 0, lowFree := 65536,
    fullSeen := false, samples := [], configured := [], held := [] }

/-- A ring or pair link whose ENABLE is 1 at entry to FULL (R348). -/
def RLink.starts : RLink :=
  { state := .settling, cause := 0, polarity := 0, swapped := false, faultRx := false, faultRun := 0, trainRun := 0,
    trainProtect := false, trained := false, locked := false, holdDone := false, fails := 0, window := 0, upAt := 0,
    raw := 0, dValid := false, d := 0, phase := 0, phaseValid := false, phaseNext := none, phaseFired := false, transit := [],
    peak := 0, marks := [], sent := [], seals := [], key := none }

def RingSt.reset : RingSt :=
  { links := [(0, RLink.starts), (1, RLink.starts), (2, RLink.starts), (3, RLink.starts), (4, RLink.starts)], rx := [], seqs := [], topo := [], reports := 0, wrapSeen := false, toReport := [], synt := 0,
    syntChanges := 0, asm := [], paths := [], repath := [] }

def MusterSt.reset : MusterSt :=
  { state := .solo, flooded := false, role := 0, epoch := 0, highest := 0, record := false, best := 0, nonce := 0,
    sentOn := 0, returned := 0, standin := false, roster := [], rosterTick := 0, rosterDue := false, masterKnown := false,
    masterClaimw := 0, acting := false, actStation := 0, west := none, seen := [], joinReady := false, lost := false,
    quits := false, setP := 0, ebb := .awake, round := 0, reason := 0, required := [], consents := [], vetoes := [],
    ebbAt := 0, holdout := [], floods := [], beacons := 0, wakeActive := false, wakeCause := 0, wakeLink := 0, wakes := 0,
    vetoed := false, void := none, tideSeen := none }

def TimeSt.reset : TimeSt :=
  { state := .unset, base := 0, F := 0, gridP := 0, anchorF := 0, anchorT := 0, first := none, highest := 0, follow := 2,
    switchTo := none, traceable := false, everLocked := false, synced := false, heard := false, afterFlood := false,
    sum := 0, count := 0, average := 0, masterState := 0, setTo := none, errBase := 0, errPpb := 0, errTick := 0,
    large := false, domains := [], announced := [], ptpSeq := 0, everSynced := false, rate := 0, traces := [] }

def PairSt.reset : PairSt :=
  { state := .off, claim := 0, plan := none, frame := (0, 0), record := 0, source := 0, lastActive := 0, zeroSince := 0, last := none,
    claimSilent := false, claimInFault := false, highest := 0, formed := false, mismatched := [], partnerFw := 0,
    silence := false, linkLost := false, resync := false, confirmWait := false, firstDone := false, served := false,
    resolving := false, checkNext := false, checking := false, own := 0, partner := 0, signature := 0, ownNow := 0,
    partnerNow := 0, mismatchRegion := 0, mismatchF := 0, parts := [], digests := [], acked := 0, nextSeq := 0, openF := 0,
    items := [], unacked := [], overflow := false, committed := 0, rxSeq := 0, rx := [], apply := [], writes := [],
    latches := [] }

def UpdateSt.reset : UpdateSt :=
  { state := .empty, deferred := false, cause := 0, blocks := [], actAt := 0, actId := 0, actNow := false, actWait := 0,
    version := 0, svn := 0, pformat := 0, gformats := List.replicate 17 0, good := true, profiles := [], selected := 0,
    selecting := none, busy := none }

def PowerSt.reset : PowerSt :=
  { state := .full, previous := .light,
    supplies := [(0, 800), (0, 850), (0, 750), (0, 900), (0, 1200), (0, 1100), (0, 1800), (0, 1800), (0, 3300)],
    breach := false, order := 0, inReset := false, source := 0, workLock := true, refOk := true, xtalOk := true, losses := 0,
    junction := 89, peak := 89, thresholds := 0, request := 0, resetLow := false, startLog := 0x208000000 }

def FoldSt.reset : FoldSt :=
  { root := none, slots := [], standing := 0, latched := 0, events := 0, unfired := 0, trngOk := true, vbat := 3000,
    engine := [], spoiled := false, results := [], lifecycle := 0, burning := none, otp := [], installSeq := 0,
    tamperLog := 0 }

def DictSt.reset : DictSt :=
  { settings := [], counts := [], pending := [], kept := [], blobs := [], pendingBlobs := [], keptBlobs := [],
    sessions := [], subs := [], nonces := [], waiting := [], openBlobs := [], nextRelay := 1, format := [],
    defaulted := [], resetAt := [], straps := 0, shepherds := true }

/-- A queue with nothing in it. -/
def MsgQueue.empty : MsgQueue := { ready := [], reading := [], open_ := [], opened := false, discard := false }

def HostSt.reset : HostSt :=
  { linkUp := false, speed := 0, width := 0, req := MsgQueue.empty, rsp := MsgQueue.empty, intStatus := 0, intEnable := 0,
    qlock := false, msix := [], msixOn := [], pba := [] }

def BellSt.reset : BellSt :=
  { srcs := [], tick := 0, fatal := false, stopped := false, compareFail := false, lastSource := 0 }

/-- The START record of a first cold start with source POWER_ON (R509 to R511, R610); no fabric time is known. -/
def Rec.powerOn : Rec :=
  { type := 4, partner := false, hours := 0, cycles := 1, stamp := 3 * 2 ^ 112, rep := 0, payload := [1, 0, 0x1000] }

/-- The Tally at a first cold start: block 0 begun with SEQ 1 and no record yet written. -/
def TallySt.reset : TallySt :=
  { mram := [(0, 0x27A11), (2, 1)], bad := [], block := 0, word := 4, seq := 1, retired := [], backlog := [Rec.powerOn],
    last := some Rec.powerOn, repDirty := false, lastAt := 0, lost := [], ophours := 0, cycles := 1, storedHours := 0,
    startCause := 0x1000001000 }

/-- The hub right after a first cold start with source POWER_ON: in FULL, with no table active, no tide running and empty
stores. -/
def State.reset : State :=
  { pending := [], outbox := [], freeAt := 0, tide := TideSt.reset, table := TableSt.reset, ledger := LedgerSt.reset,
    image := ImageSt.reset, pen := { pens := [], pool := [] }, drv := { drovers := [], droves := [], lvl := [], dir := [] },
    pin := PinSt.reset, bus := { chans := [] }, sw := SwitchSt.reset, ring := RingSt.reset, muster := MusterSt.reset,
    time := TimeSt.reset, pair := PairSt.reset, upd := UpdateSt.reset, gate := { gates := [], latch := 0 },
    power := PowerSt.reset, fold := FoldSt.reset, dict := DictSt.reset, host := HostSt.reset,
    quay := { state := .off, locked := false, lockLeft := none, posts := [], errLog := [] }, svc := { req := [], rsp := [] },
    bell := BellSt.reset, tally := TallySt.reset, trace := { buffer := [], tail := [], lostRun := 0 } }

end Sys2Proof.Machine
end

