-- ==== Sys2Proof/Machine/Ops.lean ====
section
/-! DEFINITION. The shared operations: sparse stores, dictionary settings and counters, what leaves the hub, check
sums, and the clocks that stamp events. -/

namespace Sys2Proof.Machine

/-! ### Sparse stores -/

/-- The value at a number; `d` where none is listed. -/
def Tab.get (d : α) : Tab α → Nat → α
  | [], _ => d
  | (k, v) :: m, n => if n = k then v else if n < k then d else Tab.get d m n

/-- Setting a number's value; a value equal to `d` is not listed. -/
def Tab.set [DecidableEq α] (d : α) : Tab α → Nat → α → Tab α
  | [], n, v => if v = d then [] else [(n, v)]
  | (k, w) :: m, n, v =>
    if n < k then (if v = d then (k, w) :: m else (n, v) :: (k, w) :: m)
    else if n = k then (if v = d then m else (n, v) :: m)
    else (k, w) :: Tab.set d m n v

/-- All listed numbers lie above `lo` and rise, and no listed value is `d`. -/
def Tab.above [DecidableEq α] (d : α) : Option Nat → Tab α → Bool
  | _, [] => true
  | lo, (k, v) :: m => (match lo with | none => true | some b => decide (b < k)) && decide (v ≠ d) && Tab.above d (some k) m

/-- The canonical form of a sparse store. -/
def Tab.wf [DecidableEq α] (d : α) (m : Tab α) : Bool := Tab.above d none m

/-- The values of `n` numbers from `from_`. -/
def Tab.range (d : α) (m : Tab α) (from_ n : Nat) : List α :=
  (List.range n).map fun i => Tab.get d m (from_ + i)

/-- Setting the numbers from `from_` on to a list of values. -/
def Tab.setList [DecidableEq α] (d : α) (m : Tab α) (from_ : Nat) : List α → Tab α
  | [] => m
  | v :: l => Tab.setList d (Tab.set d m from_ v) (from_ + 1) l

/-- Cells 0 to n − 1 of a list that may be shorter. -/
def cells (l : List α) (d : α) (n : Nat) : List α := (List.range n).map fun i => l.getD i d

/-! ### Settings and counters of the dictionary -/

/-- The value in force of a setting. -/
def State.cfg (s : State) (e : Nat) (sub : Nat := 0) : Nat :=
  Tab.get (defaultOf e sub) s.dict.settings (key e sub)

/-- A setting's value in force replaced. -/
def State.setCfg (s : State) (e sub v : Nat) : State :=
  { s with dict.settings := Tab.set (defaultOf e sub) s.dict.settings (key e sub) v }

/-- A counter. -/
def State.count (s : State) (e : Nat) (sub : Nat := 0) : Nat := Tab.get 0 s.dict.counts (key e sub)

/-- A counter replaced. -/
def State.setCount (s : State) (e sub v : Nat) : State :=
  { s with dict.counts := Tab.set 0 s.dict.counts (key e sub) v }

/-- A counter of 36 bits raised by `k`, saturating. -/
def State.bump (s : State) (e : Nat) (sub : Nat := 0) (k : Nat := 1) : State :=
  s.setCount e sub (satAdd 36 (s.count e sub) k)

/-- Field [hi:lo] of a counting entry raised by one, saturating at its all-ones value. -/
def State.bumpFld (s : State) (e sub hi lo : Nat) : State :=
  s.setCount e sub (setFld (s.count e sub) hi lo (satAdd (hi + 1 - lo) (fld (s.count e sub) hi lo) 1))

/-! ### What leaves the hub -/

/-- Something leaves the hub. -/
def State.emit (s : State) (k : OutKind) (unit : Nat) (words : List Nat) : State :=
  { s with outbox := ⟨k, unit, words⟩ :: s.outbox }

/-- A command entry answers with an abort code of R463. -/
def State.abort (s : State) (entry code : Nat) : State := s.emit .abort entry [code]

/-- The next free value. -/
def State.draw (s : State) : State × Nat :=
  ({ s with freeAt := s.freeAt + 1 }, (Config.freeValue s.freeAt).toNat)

/-- What the shepherd cores do waits while they restart: no cell of their own leaves, and none is acted on (R31). -/
def State.byShepherd (s : State) (f : State → State) : State := if s.dict.shepherds then f s else s

/-! ### Check sums -/

/-- One bit of the IEEE 802.3 CRC-32, least significant bit first (R121). -/
def crc32Bit (c : Nat) (b : Bool) : Nat :=
  let x := c.testBit 0 != b
  if x then (c >>> 1) ^^^ 0xEDB88320 else c >>> 1

/-- One byte of the CRC-32, taken least significant bit first as the FCS takes it. -/
def crc32Byte (c b : Nat) : Nat :=
  (List.range 8).foldl (fun c i => crc32Bit c (b.testBit i)) c

/-- The CRC-32 of bytes, with the initial value and the final inversion of the FCS. -/
def crc32 (bytes : List Nat) : Nat := (bytes.foldl crc32Byte 0xFFFFFFFF) ^^^ 0xFFFFFFFF

/-- A word as three bytes, most significant first (R121). -/
def wordBytes (w : Nat) : List Nat := [fld w 17 16, fld w 15 8, fld w 7 0]

/-- The CRC-32 of words (R121). -/
def crcWords (l : List Nat) : Nat := crc32 (l.flatMap wordBytes)

/-- One bit of the CRC-8 with generator x^8 + x^5 + x^3 + x^2 + x + 1 (0x2F), most significant bit first (R332). -/
def crc8Bit (c : Nat) (b : Bool) : Nat :=
  let x := c.testBit 7 != b
  if x then ((c <<< 1) % 256) ^^^ 0x2F else (c <<< 1) % 256

/-- The bits of a value, highest first. -/
def bitsOf (w v : Nat) : List Bool := (List.range w).map fun i => v.testBit (w - 1 - i)

/-! ### Clocks -/

/-- Units of 1/327,680 ns in one work cycle. -/
def tickPerWc : Nat := 262144

/-- Units of 1/327,680 ns in one shore cycle. -/
def tickPerSc : Nat := 400 * tickPerWc

/-- Units in one nanosecond and in one second. -/
def tickPerNs : Nat := 327680
def tickPerS : Nat := tickPerNs * 1000000000

/-- Fabric time in units at tide offset `off` (R394). -/
def State.timeAt (s : State) (off : Nat) : Nat := s.time.base + off * tickPerWc

/-- Fabric time of the event being taken, in units. -/
def State.now (s : State) : Nat := s.timeAt s.tide.off

/-- A time in units as a TIME of 112 bits: seconds [111:48], nanoseconds [47:16], fraction [15:0] (R284, R393). -/
def timeVal (u : Nat) : Nat :=
  put 48 64 (u / tickPerS) + put 16 32 (u % tickPerS / tickPerNs) + put 0 16 (u % tickPerNs / 5)

/-- A TIME of 112 bits in units. -/
def timeUnits (v : Nat) : Nat :=
  fld v 111 48 * tickPerS + fld v 47 16 * tickPerNs + fld v 15 0 * 5

/-- The quality of a timestamp in the station's time state (R399): 0 GOOD, 1 HELD, 3 BAD. -/
def State.timeQ (s : State) : Nat :=
  match s.time.state with
  | .free | .locked => 0
  | .holdover => 1
  | .unset => 3

/-- The time of the event being taken as a stamp: a TIME in [111:0], its quality in [113:112]. -/
def State.stampAt (s : State) (u : Nat) : Nat := timeVal u + put 112 2 s.timeQ

/-- The seven words of a TIME with a quality in every word (R284). -/
def timeWords (v q : Nat) : List Nat :=
  (List.range 7).map fun i => put 16 2 q + fld v (111 - 16 * i) (96 - 16 * i)

/-- A TIME word list read back as 112 bits. -/
def timeOf (l : List Nat) : Nat := (l.take 7).foldl (fun a w => a * 65536 + w % 65536) 0

/-- A TIME keeps R393: nanoseconds below 10^9, reserved bits 0. -/
def timeOk (v : Nat) : Bool := fld v 47 16 < 1000000000

/-- Absolute work cycle of an offset of this tide. -/
def State.abs (s : State) (off : Nat) : Nat := s.tide.abs0 + off

/-- A core supply of R592 is UP. -/
def State.supplyUp (s : State) (n : Nat) : Bool := (s.power.supplies.getD n (0, 0)).1 == 0

/-- The work domain runs: LIGHT or FULL, and nothing holds it in reset (R596, R601, R603). -/
def State.workRuns (s : State) : Bool :=
  (s.power.state == .light || s.power.state == .full) && !s.power.inReset && !s.power.breach

/-- The field side is clocked: the work domain runs in FULL (R603). -/
def State.clocked (s : State) : Bool := s.workRuns && s.power.state == .full

/-- A tide is running (R603), a table active or not. -/
def State.tideRuns (s : State) : Bool := s.tide.runs

/-- A table is active in a running tide (R81). -/
def State.tableRuns (s : State) : Bool := s.table.valid && s.tide.runs

/-- P of the running tide: the table's, or the grid's while none is active. -/
def State.tideP (s : State) : Nat := if s.table.valid then s.tide.period else s.time.gridP

/-- The trace stamp of R518. -/
def State.stamp (s : State) : Nat :=
  if s.tideRuns then put 27 8 s.time.F + put 0 27 s.tide.off
  else put 35 1 1 + put 0 35 (s.bell.tick * 3125)

end Sys2Proof.Machine
end

