-- ==== Sys2Proof/Machine/Bell.lean ====
section
/-! DEFINITION. Bell, the Tally and trace (chapter 18): firings with their windows and escalation, records, the paced
MRAM writer, and host interrupts, which a firing raises. What a source's safe state does to its function stands in
Machine/Safe.lean. -/

namespace Sys2Proof.Machine

/-! ### Host interrupts (R477) -/

/-- Vector `v`'s message leaves, or waits in the PBA while the vector is masked. -/
def State.msiSend (s : State) (v : Nat) : State :=
  if s.host.msixOn.contains v then
    (s.bump 0x0B004 6).emit .interrupt v [Tab.get 0 s.host.msix (4 * v), Tab.get 0 s.host.msix (4 * v + 1), Tab.get 0 s.host.msix (4 * v + 2)]
  else if s.host.pba.contains v then s
  else { s with host.pba := v :: s.host.pba }

/-- Cause bit `k` of INT_STATUS is set; its message leaves when the bit rises while enabled. -/
def State.interrupt (s : State) (k : Nat) : State :=
  if s.host.intStatus.testBit k then s
  else
    let s := { s with host.intStatus := s.host.intStatus ||| 1 <<< k }
    if s.host.intEnable.testBit k then s.msiSend k else s

/-! ### Sources (R494 to R501) -/

/-- A source that never fired. -/
def Source.quiet : Source :=
  { unack := 0, c := 0, ws := 0, raised := false, latch := false, firings := 0, forced := 0, last := 0, insts := [] }

/-- The record of a source. -/
def State.src (s : State) (n : Nat) : Source := Tab.get Source.quiet s.bell.srcs n

/-- The record of a source replaced. -/
def State.setSrc (s : State) (n : Nat) (x : Source) : State :=
  { s with bell.srcs := Tab.set Source.quiet s.bell.srcs n x }

/-- The active level of R498. -/
def Source.level (x : Source) : Nat :=
  max x.unack (max (if x.raised then 4 else 0) (if x.latch then 5 else 0))

/-- The active level of a source. -/
def State.level (s : State) (n : Nat) : Nat := (s.src n).level

/-- Any source of class c holds an unacknowledged fault (R500). -/
def State.classFault (s : State) (c : Nat) : Bool :=
  s.bell.srcs.any fun (n, x) => n / 16 == c && decide (2 ≤ x.unack)

/-- The number of sources active at SEVERE or higher (R147). -/
def State.severeCount (s : State) : Nat := s.bell.srcs.countP fun (_, x) => decide (4 ≤ x.level)

/-- The function that an instance of a source names is in its safe state (R497): the source is MAJOR or higher and a
firing named the instance, at MAJOR or higher or in the window that raised the source. FATAL holds every function. -/
def State.safe (s : State) (n inst : Nat) : Bool :=
  s.bell.fatal || (decide (3 ≤ s.level n) && (s.src n).insts.any fun (i, l) => i == inst && (decide (3 ≤ l) || (s.src n).raised))

/-- Some source of class c holds the function `inst` names in its safe state. -/
def State.classSafe (s : State) (c inst : Nat) : Bool :=
  s.bell.fatal || s.bell.srcs.any fun (n, _) => n / 16 == c && s.safe n inst

/-! ### Tally records (R510 to R514) -/

/-- Words of a record: 12 before the payload and the check word, at least 14. -/
def Rec.len (r : Rec) : Nat := max 14 (r.payload.length + 13)

/-- Words waiting in the backlog (R513). -/
def State.backlogFill (s : State) : Nat := (s.tally.backlog.map Rec.len).sum

/-- A record of the moment. -/
def State.mkRec (s : State) (type : Nat) (payload : List Nat) : Rec :=
  { type := type, partner := false, hours := s.tally.ophours, cycles := s.tally.cycles,
    stamp := timeVal s.now + put 112 2 s.timeQ, rep := 0, payload := payload }

/-- Two EVENT records equal but for AT and REPEAT (R512). -/
def Rec.same (a b : Rec) : Bool :=
  a.type == 1 && b.type == 1 && a.partner == b.partner && a.hours == b.hours && a.cycles == b.cycles && a.payload == b.payload

/-- A record that is always admitted enters the backlog (R513). -/
def State.tally_ (s : State) (type : Nat) (payload : List Nat) : State :=
  let r := s.mkRec type payload
  { s with tally.backlog := s.tally.backlog ++ [r], tally.last := some r }

/-- An EVENT record of class c: absorbed by an equal last record (R512), admitted at or below 6,144 words, or counted
as lost (R513). -/
def State.tallyEvent (s : State) (c : Nat) (payload : List Nat) : State :=
  let r := s.mkRec 1 payload
  match s.tally.last with
  | some q =>
    if Rec.same q r then
      let q' := { q with rep := satAdd 18 q.rep 1 }
      let s := s.bump 0x0D002 1
      match s.tally.backlog.getLast? with
      | some l =>
        if l = q then { s with tally.backlog := s.tally.backlog.dropLast ++ [q'], tally.last := some q' }
        else { s with tally.last := some q', tally.repDirty := true }
      | none => { s with tally.last := some q', tally.repDirty := true }
    else if s.backlogFill ≤ 6144 then { s with tally.backlog := s.tally.backlog ++ [r], tally.last := some r }
    else { s.bump 0x0D002 2 with tally.lost := Tab.set 0 s.tally.lost c (satAdd 36 (Tab.get 0 s.tally.lost c) 1) }
  | none =>
    if s.backlogFill ≤ 6144 then { s with tally.backlog := s.tally.backlog ++ [r], tally.last := some r }
    else { s.bump 0x0D002 2 with tally.lost := Tab.set 0 s.tally.lost c (satAdd 36 (Tab.get 0 s.tally.lost c) 1) }

/-! ### Firings (R495 to R502) -/

/-- The level of a firing made now: the base level, one higher for a fault of a class with an unacknowledged fault
(R500). -/
def State.firingLevel (s : State) (n : Nat) : Nat :=
  let b := ((srcRow? n).map SrcRow.level).getD 0
  if 2 ≤ b ∧ s.classFault (n / 16) = true then min (b + 1) 5 else b

/-- The source after a firing of level `lv` at the present tick (R498, R499). -/
def State.fired (s : State) (n inst lv : Nat) (forced : Bool) : Source :=
  let x := s.src n
  let w := fld (s.cfg (0x0C000 + 8 * n)) 35 20
  let thr := fld (s.cfg (0x0C000 + 8 * n)) 19 12
  let fresh : Bool := x.c == 0 || decide (x.ws + w ≤ s.bell.tick)
  let c := if fresh then 1 else satAdd 8 x.c 1
  { x with
    c := c, ws := if fresh then s.bell.tick else x.ws,
    raised := x.raised || (thr != 0 && decide (thr ≤ c)),
    latch := x.latch || decide (lv = 5),
    unack := max x.unack lv,
    firings := satAdd 18 x.firings 1,
    forced := if forced then satAdd 18 x.forced 1 else x.forced,
    last := timeVal s.now,
    insts := (inst, lv) :: x.insts.filter (fun p => p.1 != inst || decide (lv < p.2)) }

/-- A firing's counts, level, latch, interrupt and EVENT record (R495, R511), without its trace record. -/
def State.firePlain (s : State) (n inst detail : Nat) (forced : Bool := false) : State :=
  match srcRow? n with
  | none => s
  | some row =>
    let lv := s.firingLevel n
    let x := s.fired n inst lv forced
    let s := s.setSrc n x
    let s := if lv = 5 then { s with bell.fatal := true, bell.stopped := true } else s
    let s := if 2 ≤ lv then { s with bell.lastSource := n } else s
    let s := s.tallyEvent (n / 16)
      ([put 9 9 n + put 6 3 lv + put 3 3 row.level + putB 2 forced + putB 1 (lv != row.level) + putB 0 x.raised, fld inst 17 0]
        ++ words36 detail)
    if 2 ≤ lv then s.interrupt 1 else s

/-! ### Trace (R516 to R521) -/

/-- Words waiting in the trace buffer. -/
def State.traceFill (s : State) : Nat := (s.trace.buffer.map List.length).sum

/-- The newest whole records that fit 16,384 words, oldest first (R521). -/
def tailKeep (l : List (List Word)) : List (List Word) :=
  (l.reverse.foldl (fun (acc : List (List Word) × Nat) r =>
    if acc.2 + r.length ≤ 16384 then (r :: acc.1, acc.2 + r.length) else (acc.1, 16384 + 1)) ([], 0)).1

/-- A record enters the retained tail (R521). -/
def State.traceTail (s : State) (words : List Word) : State := { s with trace.tail := tailKeep (s.trace.tail ++ [words]) }

/-- A trace record's words: to the retained tail, and to the buffer while room lasts; a LOST record that precedes it goes
both ways too (R519, R521). -/
def State.traceWords (s : State) (words : List Word) : State :=
  let lost := if s.trace.lostRun = 0 then [] else
    [([put 14 4 6] ++ words36 s.stamp ++ words36 s.trace.lostRun).map (BitVec.ofNat 18)]
  let need := words.length + (lost.map List.length).sum
  if s.traceFill + need ≤ 256 then
    let s := (lost.foldl State.traceTail s).traceTail words
    { s with trace.buffer := s.trace.buffer ++ lost ++ [words], trace.lostRun := 0 }
  else
    let s := s.traceTail words
    let s := s.bump 0x0D012 1
    let first := s.trace.lostRun = 0
    let s := { s with trace.lostRun := s.trace.lostRun + 1 }
    if first then s.firePlain 3 0 0 else s

/-- A trace record of TYPE `type`. -/
def State.traceRec (s : State) (type w0 : Nat) (rest : List Nat) : State :=
  s.traceWords (([put 14 4 type + put 0 14 w0] ++ words36 s.stamp ++ rest).map (BitVec.ofNat 18))

/-- The words of a SLEEP or WAKE marker (R517): its shore-form stamp, then fabric time. -/
def State.markerWords (s : State) (type w0 q : Nat) (rest : List Nat) : List Word :=
  ([put 14 4 type + put 0 14 w0] ++ words36 (put 35 1 1 + put 0 35 (s.bell.tick * 3125)) ++ timeWords (timeVal s.now) q
    ++ rest).map (BitVec.ofNat 18)

/-- Tracing is enabled (R516). -/
def State.traceOn (s : State) : Bool := bit (s.cfg 0x0D010) 35

/-- A firing with its FAULT record (R516, R517), before its safe state. -/
def State.fireCore (s : State) (n inst detail : Nat) (forced : Bool := false) : State :=
  match srcRow? n with
  | none => s
  | some _ =>
    let lv := s.firingLevel n
    let s := s.firePlain n inst detail forced
    if s.traceOn && bit (s.cfg 0x0D010) 33 && decide (fld (s.cfg 0x0D011) 8 6 ≤ lv) then
      s.traceRec 2 (put 11 3 lv + put 0 9 n) [fld inst 17 0]
    else s

/-- The STROKE record of a stroke's done cycle (R517): its sluice, segment index and null cause. -/
def State.traceStroke (s : State) (sl idx cause : Nat) : State :=
  if s.traceOn && bit (s.cfg 0x0D010) 34 && bit (s.cfg 0x0D010) (16 + sl) then
    s.traceRec 1 (put 10 4 sl + putB 9 (cause != 0) + put 6 3 cause) (words36 idx)
  else s

/-- The GRANT record of an access's last stage (R517). -/
def State.traceGrant (s : State) (cls rcls inst wait : Nat) : State :=
  if s.traceOn && bit (s.cfg 0x0D010) 32 && bit (s.cfg 0x0D011) (9 + cls) then
    s.traceRec 3 (put 10 4 cls + put 4 6 rcls) [fld inst 17 0, min wait 0x3FFFF]
  else s

/-! ### Acknowledgement and the window tick (R498, R499) -/

/-- A source after an ACK: its firings are acknowledged; RAISED falls only with the window (R499). -/
def Source.acked (x : Source) : Source :=
  let x := { x with unack := 0 }
  if x.raised || x.latch then x else { x with insts := [] }

/-- ACK of a source: an ACK record when it held an unacknowledged firing. -/
def State.ackSource (s : State) (n session path : Nat) : State :=
  if (s.src n).unack = 0 then s
  else
    (s.setSrc n (s.src n).acked).tally_ 2 [put 9 9 n, put 2 4 session + put 0 2 path]

/-- A source at a tick: the window clears, and RAISED with it when nothing is unacknowledged. -/
def Source.ticked (x : Source) (tick w : Nat) : Source :=
  let c := if x.c != 0 && decide (x.ws + w ≤ tick) then 0 else x.c
  let raised := x.raised && !(c == 0 && x.unack == 0)
  let x := { x with c := c, raised := raised }
  if x.level < 3 && x.unack = 0 then { x with insts := [] } else x

/-- Every source at the next millisecond tick. -/
def State.bellTick (s : State) : State :=
  let t := s.bell.tick + 1
  let srcs := s.bell.srcs.foldl (fun m (n, x) =>
    Tab.set Source.quiet m n (x.ticked t (fld (s.cfg (0x0C000 + 8 * n)) 35 20))) s.bell.srcs
  { s with bell.tick := t, bell.srcs := srcs }

/-! ### The MRAM writer (R506 to R509) -/

/-- The words of a record with its check word (R510). -/
def Rec.toWords (r : Rec) : List Nat :=
  let pay := r.payload ++ List.replicate (r.len - 13 - r.payload.length) 0
  let q := fld r.stamp 113 112
  let w := [put 12 6 r.type + putB 11 r.partner + put 0 7 r.len] ++ words36 r.hours ++ [fld r.cycles 17 0]
    ++ timeWords (fld r.stamp 111 0) q ++ [fld r.rep 17 0] ++ pay
  w ++ [fld (crcWords w) 17 0]

/-- The next block in ring order that is not retired (R508). -/
def nextBlock (retired : List Nat) (b : Nat) : Nat :=
  (((List.range 256).map fun i => (b + 1 + i) % 256).find? fun i => !retired.contains i).getD b

/-- Block `b` begins with the next SEQ (R506). -/
def State.beginBlock (s : State) (b : Nat) : State :=
  let seq := s.tally.seq + 1
  { s with
    tally.block := b, tally.word := 4, tally.seq := seq,
    tally.mram := Tab.setList 0 s.tally.mram (b * 2048) (([0x27A11] ++ words36 seq ++ [0]).map (BitVec.ofNat 18)) }

/-- One record goes to MRAM: into this block when it fits with its end word, else into the next. A word that fails two
writes, the header's with the first record's, retires the block, and the record is written again at the start of the next
one (R508). -/
def State.writeRec (s : State) (r : Rec) (fuel : Nat := 256) : State :=
  match fuel with
  | 0 => s
  | f + 1 =>
    let w := r.toWords
    if 2048 < s.tally.word + w.length then (s.beginBlock (nextBlock s.tally.retired s.tally.block)).writeRec r f
    else
      let at_ := s.tally.block * 2048 + s.tally.word
      let ended := s.tally.word + w.length < 2048
      let all := if ended then w ++ [0] else w
      let lo := if s.tally.word = 4 then s.tally.block * 2048 else at_
      if s.tally.bad.any fun b => decide (lo ≤ b) && decide (b < at_ + all.length) then
        let b := s.tally.block
        let s := { s with tally.retired := b :: s.tally.retired }
        ((s.fireCore 2 b 0).beginBlock (nextBlock (b :: s.tally.retired) b)).writeRec r f
      else
        { s.bump 0x0D002 0 with
          tally.mram := Tab.setList 0 s.tally.mram at_ (all.map (BitVec.ofNat 18))
          tally.word := s.tally.word + w.length, tally.lastAt := at_ }

/-- A raised REPEAT of the last record written reaches MRAM (R512). -/
def State.flushRepeat (s : State) : State :=
  if s.tally.repDirty then
    match s.tally.last with
    | some q =>
      { s with tally.repDirty := false,
               tally.mram := Tab.setList 0 s.tally.mram s.tally.lastAt (q.toWords.map (BitVec.ofNat 18)) }
    | none => { s with tally.repDirty := false }
  else s

/-- A START record (R511): CAUSE, ORDER and RESET. -/
def State.startRecord (s : State) (cause order reset : Nat) : State :=
  { s.tally_ 4 [cause, order, reset] with tally.startCause := put 36 3 cause + put 18 18 order + put 0 18 reset }

/-- A SETTING record (R511). -/
def State.settingRecord (s : State) (entry sub session path role : Nat) : State :=
  s.tally_ 5 [entry, put 6 12 sub + put 2 4 session + put 0 2 path, put 0 2 role]

/-- LIST records of KIND `kind`, split where a record would pass 127 words (R511). Items are given as words. -/
def State.listRecord (s : State) (kind : Nat) (items : List (List Nat)) (fuel : Nat := 64) : State :=
  match fuel with
  | 0 => s
  | f + 1 =>
    let n := if kind = 1 then 56 else 112
    if items.length ≤ n then s.tally_ 6 ([kind, items.length] ++ items.flatten)
    else (s.tally_ 6 ([kind, n] ++ (items.take n).flatten)).listRecord kind (items.drop n) f

end Sys2Proof.Machine
end

