-- ==== Sys2Proof/Machine/Flags.lean ====
section
/-! DEFINITION. The quality of a word (R152 to R154), the flag every value carries. -/

namespace Sys2Proof.Machine

/-- Quality codes of R153. -/
def qGood : Nat := 0
def qHeld : Nat := 1
def qForced : Nat := 2
def qBad : Nat := 3

/-- Rank of a quality code (R153). -/
def qRank (q : Nat) : Nat :=
  match q with
  | 0 => 0
  | 2 => 1
  | 1 => 2
  | _ => 3

/-- worst(a, b) of R154. -/
def worst (a b : Nat) : Nat := if qRank a < qRank b then b else a

/-- Quality and payload of a word. -/
def wq (w : Word) : Nat := fld w.toNat 17 16
def wp (w : Word) : Nat := fld w.toNat 15 0

/-- The word with a quality and a payload. -/
def mkW (q p : Nat) : Word := BitVec.ofNat 18 (put 16 2 q + put 0 16 p)

/-- The word with its quality made no better than `q`. -/
def worsen (w : Word) (q : Nat) : Word := mkW (worst (wq w) q) (wp w)

end Sys2Proof.Machine
end

