-- ==== Sys2Proof/Machine/Operands.lean ====
section
/-! DEFINITION. Strokes, operand descriptors, turn-region entries and segments as the table store holds them
(R85 to R92, R109, R110), and how a stroke is selected (R43, R86). -/

namespace Sys2Proof.Machine

/-- A turn region (R110), its banks numbered over the hub. -/
structure Region where
  tile : Nat
  kind : Nat
  lines : Nat
  base0 : Nat
  base1 : Nat
  deriving DecidableEq, Repr

/-- Four words of an entry as one 72-bit number, word 0 lowest. -/
def entry72 (m : Tab Word) (i : Nat) : Nat :=
  (List.range 4).foldl (fun a k => a + (Tab.get 0 m (4 * i + k)).toNat * 2 ^ (18 * k)) 0

/-- The stroke in 72 bits (R85). -/
def Stroke.of (v : Nat) : Stroke :=
  { op := fld v 71 67, sluice := fld v 66 63, crit := fld v 62 61, wake := bit v 60, rgen := fld v 59 59,
    wgen := fld v 58 58, tsel := fld v 57 47, len := fld v 46 43, start := fld v 42 16, resv := fld v 15 15,
    opnd := fld v 14 0 }

/-- The descriptor in 72 bits (R90). -/
def Desc.of (v : Nat) : Desc :=
  { abank := fld v 71 70, aline := fld v 69 54, fm := fld v 53 50, lm := fld v 49 46, b := fld v 45 0 }

/-- m and φ of a TSEL (R86). -/
def tselM (tsel : Nat) : Nat := 2 ^ Nat.log2 tsel
def tselPhi (tsel : Nat) : Nat := tsel - tselM tsel

/-- The stroke runs in tide index i (R43, R86). -/
def tselRuns (tsel i : Nat) : Bool := tsel != 0 && i % tselM tsel == tselPhi tsel

/-- Lines a stroke touches (R87). -/
def Stroke.n (st : Stroke) : Nat := st.len + 1

/-- Pasture line number of line `l` of bank `b`. -/
def lineNo (b l : Nat) : Nat := b * 65536 + l

/-- First line of the A side in tile `sl`. -/
def Desc.aFirst (d : Desc) (sl : Nat) : Nat := lineNo (4 * sl + d.abank) d.aline

/-- Mask of line i of n (R91). -/
def Desc.mask (d : Desc) (n i : Nat) : Nat :=
  if i = 0 then d.fm else if i + 1 = n then d.lm else 15

/-- Mask of line i that the stroke's opcode gives it: whole lines for the classes that move lines only (R93); CARRY writes
every line whole, whatever the masks of its A side (R180, log 109). -/
def Stroke.mask (st : Stroke) (d : Desc) (i : Nat) : Nat :=
  match st.op with
  | 0x02 | 0x04 | 0x05 | 0x0A | 0x0B | 0x0C | 0x0D => 15
  | _ => d.mask st.n i

/-- Word positions a mask selects, ascending. -/
def maskBits (m : Nat) : List Nat := (List.range 4).filter fun k => m.testBit k

/-- Words that the masks of n lines select. -/
def Desc.words (d : Desc) (n : Nat) : Nat := (((List.range n).map (d.mask n)).map fun m => (maskBits m).length).sum

/-! ### What a stroke reads and writes, and when (R51, R93) -/

/-- First upland line of a FETCH or STORE (R93). -/
def uplandLine (d : Desc) : Nat := fld d.b 26 0

/-- First line of a stroke's source in a tier, true for upland; none for a class that reads no line. -/
def strokeSrc (sl : Nat) (st : Stroke) (d : Desc) : Option (Bool × Nat) :=
  match st.op with
  | 0x01 | 0x02 | 0x03 | 0x05 | 0x06 | 0x09 | 0x0A | 0x0B | 0x0F | 0x10 | 0x11 | 0x12 => some (false, d.aFirst sl)
  | 0x04 => some (true, uplandLine d)
  | _ => none

/-- First line that a stroke writes, with its tier; none for a class that writes no line. -/
def strokeDest (sl : Nat) (st : Stroke) (d : Desc) : Option (Bool × Nat) :=
  match st.op with
  | 0x01 => some (false, lineNo (4 * sl + fld d.b 17 16) (fld d.b 15 0))
  | 0x03 => some (false, lineNo (4 * fld d.b 21 18 + fld d.b 17 16) (fld d.b 15 0))
  | 0x05 => some (true, uplandLine d)
  | 0x02 | 0x04 | 0x07 | 0x08 | 0x0C | 0x0D | 0x0E => some (false, d.aFirst sl)
  | _ => none

/-- Burst of line i of a stroke's upland range, counted from its first (R57), and the number of bursts. -/
def Desc.burst (d : Desc) (i : Nat) : Nat := (uplandLine d + i) / 8 - uplandLine d / 8
def Stroke.bursts (st : Stroke) (d : Desc) : Nat := d.burst (st.n - 1) + 1

/-- Command cycles of a FETCH's burst j and of a STORE's (R51). -/
def Stroke.fetchAt (st : Stroke) (j : Nat) : Nat := st.start + 5 + 8 * j
def Stroke.storeAt (st : Stroke) (d : Desc) (j : Nat) : Nat :=
  st.start + 9 + min (st.n - 1) (8 * (uplandLine d / 8 + j) + 7 - uplandLine d)

/-- The cycle in which a stroke reads line i of its source (R51); a FETCH reads in the first cycle of the burst's command
(log 17). -/
def Stroke.readAt (st : Stroke) (d : Desc) (i : Nat) : Nat :=
  match st.op with
  | 0x04 => st.fetchAt (d.burst i)
  | 0x06 => st.start + 1 + 2 * i
  | _ => st.start + 1 + i

/-- The cycle in which it writes line i of its destination (R51); a STORE's lines land with their burst's command. -/
def Stroke.writeAt (st : Stroke) (d : Desc) (i : Nat) : Nat :=
  match st.op with
  | 0x01 | 0x02 => st.start + 5 + i
  | 0x04 => st.fetchAt (d.burst i) + 53 + (uplandLine d + i) % 8
  | 0x05 => st.storeAt d (d.burst i)
  | 0x07 => st.start + 4 + 2 * i
  | _ => st.start + 9 + i

/-- Port cycles of a drove access, two to a line, less those of which the masks use no position (R51). -/
def Desc.drovePorts (d : Desc) (n : Nat) : List Nat :=
  (List.range (2 * n)).filter fun q => (d.mask n (q / 2)).testBit (2 * (q % 2)) || (d.mask n (q / 2)).testBit (2 * (q % 2) + 1)

/-- T_TX of a FRAME_TX, and B of R304. -/
def Stroke.ttx (st : Stroke) (d : Desc) : Nat := st.start + fld d.b 32 6
def Stroke.frameB (st : Stroke) (d : Desc) : Nat := max (2 * d.words st.n) 60 + 4

/-- Links that a cell stroke names. -/
def Stroke.links (st : Stroke) (d : Desc) : List Nat :=
  if st.op = 0x0B then [4] else (List.range 4).filter fun i => (fld d.b 15 12).testBit i

/-- The active half and the staging half (R107). -/
def State.activeHalf (s : State) : Half := if s.table.active then s.table.half1 else s.table.half0
def State.stagingHalf (s : State) : Half :=
  if s.table.valid then (if s.table.active then s.table.half0 else s.table.half1) else s.table.half0

/-- The staging half replaced. -/
def State.setStaging (s : State) (h : Half) : State :=
  if s.table.valid && !s.table.active then { s with table.half1 := h } else { s with table.half0 := h }

/-- STROKE_BASE, STROKE_COUNT and OPND_BASE of segment j (R109). -/
def Half.seg (h : Half) (j : Nat) : Nat × Nat × Nat :=
  let w k := (Tab.get 0 h.segs (6 * j + k)).toNat
  (w 0 * 2 ^ 18 + w 1, w 2 * 2 ^ 18 + w 3, w 4 * 2 ^ 18 + w 5)

/-- Entry idx of segment j as a stroke, with its descriptor. -/
def Half.stroke (h : Half) (i : Nat) : Stroke := Stroke.of (entry72 h.strokes i)
def Half.desc (h : Half) (i : Nat) : Desc := Desc.of (entry72 h.opnds i)

/-- Turn-region entry r (R110); none for an unused entry. -/
def Half.region (h : Half) (r : Nat) : Option Region :=
  let w k := (Tab.get 0 h.regions (4 * r + k)).toNat
  if w 0 = 0 ∧ w 1 = 0 ∧ w 2 = 0 then none
  else
    let t := fld (w 0) 17 14
    some { tile := t, kind := fld (w 0) 13 12, lines := fld (w 0) 11 0 + 1,
           base0 := lineNo (4 * t + fld (w 1) 17 16) (fld (w 1) 15 0),
           base1 := lineNo (4 * t + fld (w 2) 17 16) (fld (w 2) 15 0) }

/-- Numbers of the entries that are not unused. -/
def Half.regionList (h : Half) : List (Nat × Region) :=
  ((h.regions.map fun p => p.1 / 4).dedup).filterMap fun r => (h.region r).map fun x => (r, x)

/-- The region whose copy c holds a pasture line. -/
def Half.regionAt (h : Half) (c L : Nat) : Option (Nat × Region) :=
  h.regionList.find? fun p =>
    let b := if c = 0 then p.2.base0 else p.2.base1
    decide (b ≤ L) && decide (L < b + p.2.lines)

/-- The line of copy c that answers to copy-0 line L. -/
def Region.copyLine (r : Region) (c L : Nat) : Nat := if c = 0 then L else r.base1 + (L - r.base0)

/-- Generation of the tide, t − back, mod 4 and mod 2 (R99). -/
def State.genTag (s : State) (back : Nat) : Nat := (s.tide.t + 4 - back) % 4
def State.genCopy (s : State) (back : Nat) : Nat := (s.tide.t + 4 - back) % 2

end Sys2Proof.Machine
end

