-- ==== Sys2Proof/Machine/Units.lean ====
section
/-! DEFINITION. The units whose function a Bell safe state stops: what each holds when it is off, reading and replacing
one, and the operation that turns it off. -/

namespace Sys2Proof.Machine

/-! ### Drovers and droves -/

/-- A drover before any program (R232: the receive latch holds 0 with quality BAD). -/
def Drover.blank : Drover :=
  { prog := 0, outwin := 0, inwin := 0, shift := 0, init := 0, state := .off, cause := 0, pc := 0, x := 0, y := 0,
    xpre := 0, ypre := 0, t := 0, tper := 0, cnt := 0, sin := 0, sout := 0, sinFill := 0, soutLeft := 0, txd0 := 0,
    txd1 := 0, txNew := false, txq := 0, rxd0 := 0, rxd1 := 0, rxq := 3, rxUnread := false, fresh := false,
    rxOverrun := 0, eMode := 0, eFlag := 0, eLast := 0, dwell := 0, safeOverride := false, waits := [],
    edgeAt := 0, shown := [], exported := false }

/-- A drove before any program. -/
def Drove.blank : Drove :=
  { n := 0, store := [], load := [], ecc := [], loadEcc := [], eccCorrected := 0, flags := 0, flagsBefore := 0, edgeAt := 0, sets := 0,
    toggled := 0, toggleAny := 0, clears := 0, xstate := .idle, exchanges := 0, mask := 0, carry := 0, pendingAt := 0 }

/-- Drover k and drove d. -/
def State.drover (s : State) (k : Nat) : Drover := Tab.get Drover.blank s.drv.drovers k
def State.drove (s : State) (d : Nat) : Drove := Tab.get Drove.blank s.drv.droves d
def State.setDrover (s : State) (k : Nat) (x : Drover) : State :=
  { s with drv.drovers := Tab.set Drover.blank s.drv.drovers k x }
def State.setDrove (s : State) (d : Nat) (x : Drove) : State :=
  { s with drv.droves := Tab.set Drove.blank s.drv.droves d x }

/-! ### Beacons -/

/-- A beacon that is IDLE. -/
def Beacon.blank : Beacon :=
  { state := .idle, pulses := 0, activeLow := false, width := 0, period := 0, due := 0, active := false }

def State.beacon (s : State) (b : Nat) : Beacon := Tab.get Beacon.blank s.pin.beacons b
def State.setBeacon (s : State) (b : Nat) (x : Beacon) : State :=
  { s with pin.beacons := Tab.set Beacon.blank s.pin.beacons b x }

/-! ### Bus channels -/

/-- An EMPTY buffer with an image of zeros, and a channel that is OFF. -/
def TxBuf.blank : TxBuf := { state := .empty, void := false, tainted := false, voidAfter := false, image := [] }
def BusChan.blank : BusChan :=
  { state := .off, tec := 0, rec_ := 0, tb0 := TxBuf.blank, tb1 := TxBuf.blank, tb2 := TxBuf.blank, waits := false,
    held := none, refs := 0, sof := 0, refBody := [], offTurns := 0, lastMaster := 0, lastLocal := 0 }

def State.chan (s : State) (c : Nat) : BusChan := Tab.get BusChan.blank s.bus.chans c
def State.setChan (s : State) (c : Nat) (x : BusChan) : State :=
  { s with bus.chans := Tab.set BusChan.blank s.bus.chans c x }

/-- Buffer b of a channel. -/
def BusChan.tb (x : BusChan) (b : Nat) : TxBuf := match b with | 0 => x.tb0 | 1 => x.tb1 | _ => x.tb2
def BusChan.setTb (x : BusChan) (b : Nat) (t : TxBuf) : BusChan :=
  match b with | 0 => { x with tb0 := t } | 1 => { x with tb1 := t } | _ => { x with tb2 := t }

/-- Entry j of a channel. -/
def busEntry (c j : Nat) : Nat := 0x06000 + 32 * c + j

/-- A count of BUS_COUNTS. -/
def State.busCount (s : State) (c k : Nat) : State := s.bump (busEntry c 13) k

/-- The frame of a buffer ends: the buffer is EMPTY and its image VOID where a late load made it so (R281: from the end of
that frame, including any retransmission). -/
def TxBuf.done (t : TxBuf) : TxBuf := { t with state := .empty, void := t.void || t.voidAfter, voidAfter := false }

/-- A PENDING frame is withdrawn and counts in TX_ABORTED. -/
def State.withdraw (s : State) (c b : Nat) : State :=
  let x := s.chan c
  if (x.tb b).state = .pending then (s.setChan c (x.setTb b (x.tb b).done)).busCount c 1 else s

/-- A frame that was ACTIVE ends in the buffer as EMPTY (R280, R281). -/
def TxBuf.ended (t : TxBuf) : TxBuf := if t.state = .active then t.done else t

/-- Every PENDING frame withdrawn and an ACTIVE frame abandoned. -/
def State.dropFrames (s : State) (c : Nat) : State :=
  let s := ((s.withdraw c 0).withdraw c 1).withdraw c 2
  let x := s.chan c
  s.setChan c { x with tb0 := x.tb0.ended, tb1 := x.tb1.ended, tb2 := x.tb2.ended }

/-- HALT (R291). -/
def State.busHaltOp (s : State) (c : Nat) : State :=
  let s := s.dropFrames c
  s.setChan c { s.chan c with state := .off, held := none, waits := false }

/-! ### Ring and pair links -/

/-- A link that is OFF. -/
def RLink.blank : RLink :=
  { state := .off, cause := 0, polarity := 0, swapped := false, faultRx := false, faultRun := 0, trainRun := 0,
    trainProtect := false, trained := false, locked := false, holdDone := false, fails := 0, window := 0, upAt := 0,
    raw := 0, dValid := false, d := 0, phase := 0, phaseValid := false, phaseNext := none, phaseFired := false, transit := [],
    peak := 0, marks := [], sent := [], seals := [], key := none }

def State.link (s : State) (l : Nat) : RLink := Tab.get RLink.blank s.ring.links l
def State.setLink (s : State) (l : Nat) (x : RLink) : State :=
  { s with ring.links := Tab.set RLink.blank s.ring.links l x }

/-- A count of RING_LINK_COUNTS. -/
def State.linkCount (s : State) (l k : Nat) : State := s.bump 0x08003 (16 * l + k)

/-- What a link forgets when it leaves a state; the messages of its seals end with it (R356), and a link that takes no marker
receives no LINK_FAULT (R362). -/
def RLink.leave (x : RLink) (st : LinkState) : RLink :=
  { x with state := st, faultRx := x.faultRx && st != .off && st != .settling, marks := [], faultRun := 0, trainRun := 0, trained := false, holdDone := false, fails := 0, window := 0, key := none,
           sent := [], seals := [] }

/-- PROTECT of a link. -/
def State.protect (s : State) (l : Nat) : Bool := bit (s.cfg 0x08005 l) 35

/-! ### The Quay bridge and the pair -/

/-- The bridge enters OFF with LOCK_N high. -/
def State.quayOff (s : State) : State := { s with quay.state := .off, quay.locked := false, quay.lockLeft := none }

/-- QUAY_CTRL HALT (R487): the queued posted writes are discarded and counted. -/
def State.quayHaltOp (s : State) : State :=
  let n := (s.quay.posts.map fun p => p.2.length).sum
  { (s.bump 0x0B015 4 n).quayOff with quay.posts := [] }

/-- OUT at once: an unplanned change (R418, R425). -/
def State.pairOut (s : State) : State := { s with pair.state := .out, pair.claim := 0, pair.plan := none }

/-- The rows of R418 that Bell moves. -/
def State.pairBell (s : State) : State :=
  let on := s.pair.state = .standby ∨ s.pair.state = .active
  if on ∧ (s.bell.fatal = true ∨ (s.severeCount ≠ 0 ∧ s.pair.record ≠ 0)) then s.pairOut else s

end Sys2Proof.Machine
end

