-- ==== Sys2Proof/Machine/Govern.lean ====
section
/-! DEFINITION. What governs a field pin (R248 to R254, R264, R265): what holds each function in its safe state, the walk of
the precedence levels, and the hold of every pin over a restart or a sleep. -/

namespace Sys2Proof.Machine

/-- U36 at word i of a section. -/
def sec36 (l : List Word) (i : Nat) : Nat := (l.getD i 0).toNat * 2 ^ 18 + (l.getD (i + 1) 0).toNat

/-! ### The binding section in force (R249, R268) -/

/-- A section of the active table; empty with none active. -/
def State.sect (s : State) (ty : Nat) : List Word :=
  if s.table.valid then ((s.activeHalf.sects.find? (·.1 == ty)).map Prod.snd).getD [] else []

/-- PIN_CONFIG and BANK_CONFIG of a binding section. -/
def secPin (l : List Word) (p : Nat) : Nat := sec36 l (65 * (p / 32) + 1 + 2 * (p % 32))
def secBank (l : List Word) (b : Nat) : Nat := (l.getD (65 * b) 0).toNat

/-- PIN_CONFIG and BANK_CONFIG in force. -/
def State.pinCfg (s : State) (p : Nat) : Nat := secPin (s.sect 6) p
def State.bankCfg (s : State) (b : Nat) : Nat := secBank (s.sect 6) b

/-- Fields of PIN_CONFIG. -/
def pinOwner (c : Nat) : Nat := fld c 35 33
def pinUnit (c : Nat) : Nat := fld c 32 25
def pinSafe (c : Nat) : Nat := fld c 11 10
def pinInvert (c : Nat) : Bool := bit c 6

/-- Length of the filter in wc (R255). -/
def pinFilter (c : Nat) : Nat := if fld c 15 12 = 0 then 0 else 2 ^ (fld c 15 12 + 2)

/-- The bank is in range and in service (R245). -/
def State.bankOk (s : State) (b : Nat) : Bool := Tab.get 0 s.pin.vio b == 0 && !s.pin.out.contains b

/-! ### Gates (R579, R583, R586) -/

/-- A gate under its reset settings. -/
def Gate.blank : Gate :=
  { state := .disabled, cause := 0, tries := 0, seatA := false, seatB := false, req := false, vin := 0, vout := 0, i := 0,
    t := 0, offDone := false, banksOn := false }

/-- Gate g. -/
def State.gateAt (s : State) (g : Nat) : Gate := Tab.get Gate.blank s.gate.gates g

/-- Gate g replaced. -/
def State.setGate (s : State) (g : Nat) (x : Gate) : State := { s with gate.gates := Tab.set Gate.blank s.gate.gates g x }

/-- A gate runs in PRECHARGE, TURN_ON, SETTLE and ON (R579). -/
def Gate.running (x : Gate) : Bool := x.state == .precharge || x.state == .turnOn || x.state == .settle || x.state == .on

/-- A running gate turns off into a state with a cause. -/
def Gate.off (x : Gate) (st : GState) (cause : Nat) : Gate := { x with state := st, cause := cause, banksOn := false }

/-- Both switches of a running gate off, back in READY (R579, R587, R588). -/
def State.gateDown (s : State) (g cause : Nat) : State :=
  if (s.gateAt g).running then s.setGate g ((s.gateAt g).off .ready cause) else s

/-- A gate-linked bank whose gate is not ON (R253, R586). -/
def State.gateBlocks (s : State) (b : Nat) : Bool :=
  bit (s.bankCfg b) 15 && !(s.gateAt (fld (s.bankCfg b) 14 11)).banksOn

/-! ### What holds a function in its safe state (R497, R505) -/

/-- Strokes of a tile's sluice with one opcode, in the active half, with their descriptors. -/
def State.strokesOf (s : State) (t op : Nat) : List Desc :=
  let h := s.activeHalf
  let (base, cnt, ob) := h.seg t
  (List.range cnt).filterMap fun i =>
    let st := h.stroke (base + i)
    if st.op = op then some (h.desc (ob + st.opnd)) else none

/-- Tiles that class 1 holds in their safe state. -/
def State.safeTiles (s : State) : List Nat :=
  if s.bell.srcs.any fun p => p.1 / 16 == 1 && decide (3 ≤ p.2.level) then (List.range 16).filter fun t => s.classSafe 1 t else []

/-- Some safe tile's sluice feeds a unit by strokes of an opcode. -/
def State.fedSafe (s : State) (op : Nat) (test : Desc → Bool) : Bool :=
  s.safeTiles.any fun t => (s.strokesOf t op).any test

/-- The drover's function is held (classes 1 and 6; DROVE_STORE_ECC and DROVER_EXCHANGE name a drove). -/
def State.droverHeld (s : State) (k : Nat) : Bool :=
  s.bell.fatal || s.safe 96 k || s.safe 98 k || s.safe 97 (k / 8) || s.safe 99 (k / 8) || s.safeTiles.contains (k / 16)

/-- The bus channel is held (class 8, or a safe tile's BUS_LOAD feeds it). -/
def State.busHeld (s : State) (c : Nat) : Bool := s.classSafe 8 c || s.fedSafe 0x10 fun d => fld d.b 6 0 == c

/-- The port is held (class 9, or a safe tile's FRAME_TX feeds it). -/
def State.portSafe (s : State) (p : Nat) : Bool := s.classSafe 9 p || s.fedSafe 0x11 fun d => fld d.b 5 0 == p

/-- The DOUT pins of a bank are held (class 7, or a safe tile's PIN_OUT feeds the bank). -/
def State.doutHeld (s : State) (b : Nat) : Bool := s.safe 112 b || s.fedSafe 0x09 fun d => fld d.b 4 0 == b

/-- Some source of class 14 or 18 holds the beacons or the Quay bridge. -/
def State.classHeld (s : State) (c : Nat) : Bool :=
  s.bell.fatal || s.bell.srcs.any fun p => p.1 / 16 == c && decide (3 ≤ p.2.level)

/-! ### The walk of R251 -/

/-- What a ball does: 0 high-impedance, 1 set to the level that DRIVE_MODE leaves high-impedance, 2 drives low, 3 drives
high (R246). -/
def pinDriveOf (mode : Nat) (level : Bool) : Nat :=
  match mode, level with
  | 1, true => 1
  | 2, false => 1
  | _, true => 3
  | _, false => 2

/-- DRIVE_MODE of a pin. -/
def pinMode (c : Nat) : Nat := fld c 22 21

/-- The SAFE state of pin p (R252). -/
def State.pinSafeDrive (s : State) (p : Nat) : Nat :=
  let c := s.pinCfg p
  match pinSafe c with
  | 0 => 0
  | 1 => pinDriveOf (pinMode c) false
  | 2 => pinDriveOf (pinMode c) true
  | _ => Tab.get 0 s.pin.safeHeld p

/-- Level 2 claims pin p (R251, R252, R497): its owner's function or its bank is safe, or its drover is in FAULT. -/
def State.pinBell (s : State) (p : Nat) : Bool :=
  let c := s.pinCfg p
  let u := pinUnit c
  s.bell.fatal || s.safe 112 (p / 32) ||
    (match pinOwner c with
     | 2 => s.doutHeld (p / 32)
     | 3 => s.droverHeld u || (s.drover u).state == .fault
     | 4 => s.busHeld u
     | 5 => s.classHeld 14
     | 6 => s.classHeld 18
     | _ => false)

/-- CLAIM_WIN (R260, R423): 1 outside a pair. -/
def State.paired (s : State) : Bool := bit (s.cfg 0x0A000) 35
/-- CLAIM_WIN. -/
def State.claimWin (s : State) : Bool := !s.paired || decide (s.pair.record < s.pair.claim)

/-- The level of a Quay signal between bursts (R479, R481); none where the bridge does not drive it. QCLK's level within
its period is free. -/
def State.quaySignal (s : State) (sig : Nat) : Option Bool :=
  if sig < 16 ∨ sig = 22 ∨ sig = 23 then none
  else if sig = 16 then some ((Config.freeValue s.freeAt).toNat % 2 == 1)
  else if sig = 17 ∨ sig = 18 then some false
  else if sig = 21 then some (!s.quay.locked)
  else some true

/-- Pin p lies in the drover's CUE window, whose pins drive both levels while it is RUN or STOPPED (R215). -/
def Drover.inCue (x : Drover) (p : Nat) : Bool :=
  decide (fld x.inwin 9 0 ≤ p) && decide (p < fld x.inwin 9 0 + fld x.outwin 5 3)

/-- What the owner sets at level 4 (R248); none while it does not drive: a bus channel that a HALT turned OFF drives nothing,
where R291 has it drive recessive (DESIGN CHOICE, log 146). A frame's bits on a bus ball are free. -/
def State.pinOwnerDrive (s : State) (p : Nat) : Option Nat :=
  let c := s.pinCfg p
  let u := pinUnit c
  let m := pinMode c
  match pinOwner c with
  | 2 => some (if s.pin.unsafe_.contains (p / 16) then s.pinSafeDrive p else pinDriveOf m (Tab.get false s.pin.dout p))
  | 3 =>
    match (s.drover u).state with
    | .run | .stopped =>
      some (if (s.drover u).safeOverride then s.pinSafeDrive p
        else if (s.drover u).inCue p || Tab.get false s.drv.dir p then pinDriveOf m (Tab.get false s.drv.lvl p) else 0)
    | _ => none
  | 4 =>
    let x := s.chan u
    if bit c 24 && x.state != .off then
      let sending := fld (s.cfg (busEntry u 0)) 34 32 != 3 && (List.range 3).any fun b => (x.tb b).state == .active
      some (pinDriveOf m (if sending then (Config.freeValue s.freeAt).toNat % 2 == 1 else true))
    else none
  | 5 =>
    let b := s.beacon u
    if b.state = .idle then none else some (pinDriveOf m (b.active != b.activeLow))
  | 6 => if s.quay.state = .off then none else some (((s.quaySignal u).map (pinDriveOf m)).getD 0)
  | _ => none

/-- The walk of R251: the governing level, and what the ball does. -/
def State.pinWalk (s : State) (p : Nat) : Nat × Nat :=
  let b := p / 32
  let c := s.pinCfg p
  let force := s.cfg 0x05003 p
  if !s.bankOk b || s.gateBlocks b then (1, 0)
  else if s.pinBell p then (2, s.pinSafeDrive p)
  else if bit c 23 && !s.claimWin then (3, 0)
  else
    match s.pinOwnerDrive p with
    | some d => (4, d)
    | none => if force = 0 then (0, 0) else (5, pinDriveOf (pinMode c) (force == 2))

/-- What governs pin p in the present power condition (R264), and what its ball does; 6 is the shore's hold, under which
level 1 still takes a bank out of range or behind a gate that is not ON (R245, R586). -/
def State.pinDrive (s : State) (p : Nat) : Nat × Nat :=
  if s.power.breach || s.power.resetLow then (0, 0)
  else if s.pin.hold then
    if !s.bankOk (p / 32) || s.gateBlocks (p / 32) then (1, 0) else (6, Tab.get 0 s.pin.held p)
  else if s.power.state = .full then s.pinWalk p
  else (0, 0)

/-- What the hub does to a ball: drives it, or leaves it to its pull: 0 none, 1 up, 2 down, 3 keeper (R246). -/
inductive Pad where
  | low | high
  | free (pull : Nat)
  deriving DecidableEq, Repr

/-- The pulls of PIN_CONFIG are on (R264): in FULL and in a hold, with the supplies in order. -/
def State.pullsOn (s : State) : Bool := !(s.power.breach || s.power.resetLow) && (s.pin.hold || s.power.state == .full)

/-- The pad of pin p (R246, R251, R264). -/
def State.pad (s : State) (p : Nat) : Pad :=
  match (s.pinDrive p).2 with
  | 2 => .low
  | 3 => .high
  | _ => .free (if s.pullsOn then fld (s.pinCfg p) 17 16 else 0)

/-! ### The hold (R264, R265) -/

/-- What pin p keeps in a hold entered now: SAFE HOLD is what the ball does before it (R252, R264); a claim-gated pin of a
unit whose partner holds a claim keeps nothing (R440). -/
def State.pinHold (s : State) (p : Nat) : Nat :=
  let c := s.pinCfg p
  if bit c 23 && s.paired && s.pair.record != 0 then 0
  else if pinOwner c = 4 ∧ bit c 24 = true then 3
  else if bit c 9 && pinSafe c != 3 then s.pinSafeDrive p
  else (s.pinDrive p).2

/-- Hold entry; a hold already entered stays. -/
def State.holdEntry (s : State) : State :=
  if s.pin.hold then s
  else
    let m := (List.range 1024).foldl (fun m p => let v := s.pinHold p; if v = 0 then m else m ++ [(p, v)]) []
    { s with pin.hold := true, pin.held := m }

/-- The level of a held pin that keeps one: that which DRIVE_MODE leaves high-impedance, or the one driven. -/
def heldLevel (mode v : Nat) : Bool := if v = 1 then mode == 1 else v == 3

/-- The end of the hold: output registers and the drovers' initial levels and directions take the held levels (R265); a
drover's pin held high-impedance starts so. -/
def State.holdExit (s : State) : State :=
  if !s.pin.hold then s
  else
    let s := s.pin.held.foldl (fun (s : State) (p, v) =>
      let high := heldLevel (pinMode (s.pinCfg p)) v
      match pinOwner (s.pinCfg p) with
      | 2 => { s with pin.dout := Tab.set false s.pin.dout p high }
      | 3 => { s with drv.lvl := Tab.set false s.drv.lvl p high, drv.dir := Tab.set false s.drv.dir p true }
      | _ => s) s
    let dir := s.drv.dir.filter fun x => pinOwner (s.pinCfg x.1) != 3 || Tab.get 0 s.pin.held x.1 != 0
    { s with pin.hold := false, pin.held := [], drv.dir := dir }

/-- Something is in a safe state, or may be: a source at MAJOR or above, or a drover in FAULT. -/
def State.anySafe (s : State) : Bool :=
  s.bell.fatal || (s.bell.srcs.any fun p => decide (3 ≤ p.2.level)) || s.drv.drovers.any fun p => p.2.state == .fault

/-- Pins that drove something, and that keep it in their safe state HOLD (R252), between a state before and one after. -/
def State.keepSafe (after before : State) : State :=
  if !after.anySafe then after else (List.range 1024).foldl (fun (s : State) p =>
    if pinSafe (s.pinCfg p) = 3 && s.pinBell p && !before.pinBell p then
      { s with pin.safeHeld := Tab.set 0 s.pin.safeHeld p (before.pinDrive p).2 }
    else s) after

/-- Pins of SAFE HOLD among some keep what they do now, as their unit's safe state begins (R233, R252, R258). -/
def State.snapHold (s : State) (ps : List Nat) : State :=
  ps.foldl (fun (t : State) p =>
    if pinSafe (s.pinCfg p) = 3 then { t with pin.safeHeld := Tab.set 0 t.pin.safeHeld p (s.pinDrive p).2 } else t) s

/-- BANK_STATUS (R268). -/
def State.bankStatusWord (s : State) (b : Nat) : Nat :=
  put 16 2 (Tab.get 0 s.pin.vio b) + putB 15 (s.gateBlocks b) + putB 14 s.pin.hold

/-- The last synchronised sample of a ball: the filter output of a pin without a filter (R255); of a filtered pin it
is free for each pin and work cycle: a drover's samples are those of its own edges (R211, log 34). -/
def State.ballSample (s : State) (p : Nat) : Bool :=
  if pinFilter (s.pinCfg p) = 0 then Tab.get false s.pin.filt p else Config.ballLevel p (s.abs s.tide.off)

/-- PIN_STATE (R268). -/
def State.pinStateWord (s : State) (p : Nat) : Nat :=
  let (g, d) := s.pinDrive p
  let f := Tab.get false s.pin.filt p
  put 16 2 (if s.bankOk (p / 32) && !s.pin.hold then qGood else qBad) + putB 15 (s.ballSample p) + putB 14 f + putB 13 (decide (2 ≤ d))
    + putB 12 (d == 3) + put 9 3 g

end Sys2Proof.Machine
end

