-- ==== Sys2Proof/Machine/Safe.lean ====
section
/-! DEFINITION. A firing with everything its level does (R495, R497): Bell's own part, then what the safe state of the
named function does to that function's unit. -/

namespace Sys2Proof.Machine

/-! ### Entering a safe state -/

/-- A drover in RUN or STOPPED enters FAULT with CAUSE 6 (R227, R228). -/
def State.droverSafe (s : State) (k : Nat) : State :=
  let x := s.drover k
  if x.state = .run ∨ x.state = .stopped then s.setDrover k { x with state := .fault, cause := 6 } else s

/-- A link that is neither OFF nor DOWN enters DOWN with CAUSE BELL (R349). -/
def State.linkSafe (s : State) (l : Nat) : State :=
  let x := s.link l
  if x.state = .off ∨ x.state = .down then s
  else
    let s := ((s.setLink l { x.leave .down with cause := 7 }).linkCount l 13).emit .marker l [1, 0]
    let s := if x.state = .up then s.fireCore 160 l 7 else s
    { s with ring.toReport := s.ring.toReport ++ [l] }

/-- A beacon that is ARMED or RUNNING stops (R262). -/
def State.beaconSafe (s : State) (b : Nat) : State :=
  let x := s.beacon b
  if x.state = .armed ∨ x.state = .running then (s.setBeacon b { x with state := .stopped, active := false }).fireCore 114 b 0
  else s

/-- Every beacon stops. -/
def State.beaconsSafe (s : State) : State := (List.range 64).foldl (fun s b => s.beaconSafe b) s

/-- Every bus channel of a test that is not OFF halts. -/
def State.busesSafe (s : State) (test : Nat → Bool) : State :=
  (s.bus.chans.filter fun p => p.2.state != .off && test p.1).foldl (fun s p => s.busHaltOp p.1) s

/-- A tile's drovers, and the channels that its sluice feeds. -/
def State.tileSafe (s : State) (t : Nat) : State :=
  let s := (List.range 16).foldl (fun s j => s.droverSafe (16 * t + j)) s
  let fed := (s.strokesOf t 0x10).map fun d => fld d.b 6 0
  s.busesSafe fed.contains

/-- The function that an instance of a source names enters its safe state. -/
def State.enterSafe (s : State) (n inst : Nat) : State :=
  match n / 16 with
  | 1 => if inst < 16 then s.tileSafe inst else s
  | 6 =>
    if n = 97 ∨ n = 99 then (List.range 8).foldl (fun s j => s.droverSafe (8 * inst + j)) s else s.droverSafe inst
  | 8 => s.busHaltOp inst
  | 10 => s.linkSafe inst
  | 14 => s.beaconsSafe
  | 18 => s.quayHaltOp
  | 19 => (List.range 5).foldl (fun s l => if s.protect l then s.linkSafe l else s) s
  | 21 => s.gateDown inst 9
  | _ => s

/-- FATAL: every function of R505 enters its safe state. -/
def State.enterFatal (s : State) : State :=
  let s := (List.range 256).foldl (fun s k => s.droverSafe k) s
  let s := s.busesSafe fun _ => true
  let s := (List.range 5).foldl (fun s l => s.linkSafe l) s
  (List.range 16).foldl (fun s g => s.gateDown g 9) (s.beaconsSafe.quayHaltOp)

/-- The instances of a source whose function its firing puts into the safe state: the one it names, and those that the rise
to RAISED reaches (R497). -/
def State.nowSafe (s before : State) (n inst : Nat) : List Nat :=
  (((s.src n).insts.map Prod.fst).dedup).filter fun i => s.safe n i && (i == inst || !before.safe n i)

/-- A firing with the actions of its level: at MAJOR the function it names is safe, at SEVERE the pair unit leaves, at
FATAL every function is safe (R495). -/
def State.fire (s : State) (n inst : Nat) (detail : Nat := 0) (forced : Bool := false) : State :=
  let before := s
  let s := s.fireCore n inst detail forced
  let s := if 4 ≤ s.level n then { s with ledger.severeSeen := true } else s
  let s := (s.nowSafe before n inst).foldl (fun (s : State) i => (s.keepSafe before).enterSafe n i) s
  let s := if s.bell.fatal && !before.bell.fatal then (s.keepSafe before).enterFatal else s
  s.pairBell

/-- A firing of a unit of the shore domain or the Fold, which Bell takes while the work domain runs (R515). -/
def State.fireLive (s : State) (n inst : Nat) (detail : Nat := 0) : State := if s.workRuns then s.fire n inst detail else s

end Sys2Proof.Machine
end

