-- ==== Sys2Proof/Machine/Image.lean ====
section
/-! DEFINITION. The point image (chapter 5): lines and their check, quality on the way through, forces, held lists,
turn regions, and scheduled and unscheduled reads and writes of a line. -/

namespace Sys2Proof.Machine

/-- A line after cold start (R174), which an unlisted line holds. -/
def Line.fresh : Line :=
  { w0 := 0x30000, w1 := 0x30000, w2 := 0x30000, w3 := 0x30000, poison := false, code := .good, tag := 0,
    sideBad := false, tagVoid := false }

/-- The words of a line. -/
def Line.words (l : Line) : List Word := [l.w0, l.w1, l.w2, l.w3]

/-- Word k of a line. -/
def Line.word (l : Line) (k : Nat) : Word := match k with | 0 => l.w0 | 1 => l.w1 | 2 => l.w2 | _ => l.w3

/-- The words that a mask selects replaced. -/
def Line.merge (l : Line) (mask : Nat) (w : List Word) : Line :=
  { l with
    w0 := if mask.testBit 0 then w.getD 0 0 else l.w0, w1 := if mask.testBit 1 then w.getD 1 0 else l.w1,
    w2 := if mask.testBit 2 then w.getD 2 0 else l.w2, w3 := if mask.testBit 3 then w.getD 3 0 else l.w3 }

/-- The line of a tier. -/
def State.line (s : State) (up : Bool) (L : Nat) : Line :=
  if up then Tab.get Line.fresh s.image.upland L else Tab.get Line.fresh s.image.pasture L

/-- The line of a tier replaced. -/
def State.setLine (s : State) (up : Bool) (L : Nat) (l : Line) : State :=
  if up then { s with image.upland := Tab.set Line.fresh s.image.upland L l }
  else { s with image.pasture := Tab.set Line.fresh s.image.pasture L l }

/-- Lines of each tier: 64 banks of 65,536, 2^27 of upland. -/
def tierLines (up : Bool) : Nat := if up then 2 ^ 27 else 2 ^ 22

/-- Tile of a pasture line; channel of an upland line (R57). -/
def lineTile (L : Nat) : Nat := L / 262144
def lineChan (L : Nat) : Nat := L / 2 ^ 25

/-- Bell instance of a line (class 3 of R505): its tile, or 16 + its channel. -/
def lineInst (up : Bool) (L : Nat) : Nat := if up then 16 + lineChan L else lineTile L

/-- Scrub unit of a line: its bank, or 64 + its channel. -/
def lineUnit (up : Bool) (L : Nat) : Nat := if up then 64 + lineChan L else L / 65536

/-- The ECC counter of a line's tier (R190). -/
def eccEntry (up : Bool) (L : Nat) : Nat × Nat := if up then (0x03021, lineChan L) else (0x03020, 0)

/-- Channel c is lost (R173). -/
def State.chanLost (s : State) (c : Nat) : Bool := Tab.get 0 s.image.lost c != 0

/-- An upland channel is lost (R149, R173): UPLAND_LOSS fires; the level reaches ON_LOSS at the next turn. -/
def State.loseChannel (s : State) (c cause : Nat) : State :=
  if s.chanLost c then s
  else
    { s with image.lost := Tab.set 0 s.image.lost c cause, image.uplandReady := s.image.uplandReady.set c false }.fire 64 c

/-! ### The check of a line read (R168 to R170) -/

/-- A read queues a corrected line for write-back, while its bank or channel has room for eight (R177). -/
def State.queueBack (s : State) (up : Bool) (L : Nat) : State :=
  if s.image.writeBack.contains (up, L) then s
  else if 8 ≤ s.image.writeBack.countP (fun p => lineUnit p.1 p.2 == lineUnit up L) then s
  else { s with image.writeBack := s.image.writeBack ++ [(up, L)] }

/-- A line found not correctable enters POISON_LOG, newest first, and the queue for marking (R169). -/
def State.logPoison (s : State) (up : Bool) (L : Nat) : State :=
  let v := put 35 1 1 + putB 34 up + put 0 29 (4 * L)
  { s with image.poisonLog := (v :: s.image.poisonLog).take 16, image.marking := s.image.marking ++ [(up, L)] }

/-- A channel's count of lines found not correctable in this tide, and its loss at 64 (R173). -/
def State.countFound (s : State) (c : Nat) : State :=
  let n := Tab.get 0 s.image.foundTide c + 1
  let s := { s with image.foundTide := Tab.set 0 s.image.foundTide c n }
  if 64 ≤ n then s.loseChannel c 2 else s

/-- A line found not correctable: counted, logged, fired and queued for marking, once (R168 to R170, R173). -/
def State.foundBad (s : State) (up : Bool) (L : Nat) : State :=
  if s.image.marking.contains (up, L) then s
  else
    let s := ((s.bumpFld (eccEntry up L).1 (eccEntry up L).2 17 0).bumpFld 0x03022 0 35 18).logPoison up L
    let s := s.fire 49 (lineInst up L) (4 * L)
    if up then s.countFound (lineChan L) else s

/-- The line's tag matches a generation: the side store is good and no marking write has voided it (R102, R170). -/
def Line.tagIs (l : Line) (g : Nat) : Bool := l.tag == g && !l.sideBad && !l.tagVoid

/-- A read of the code finds a single-bit error, which it corrects (R168, R177). -/
def State.foundSingle (s : State) (up : Bool) (L : Nat) : State :=
  ((s.bumpFld (eccEntry up L).1 (eccEntry up L).2 35 18).queueBack up L).fire 48 (lineInst up L) (4 * L)

/-- LINE_CHECK: the check of a line read, and whether the line is poisoned (R168); the side store of a pasture line is
checked beside the code (R170). -/
def State.checkLine (s : State) (up : Bool) (L : Nat) : State × Bool :=
  let l := s.line up L
  let s := if l.code = .single then s.foundSingle up L else s
  if l.code = .multi ∨ l.sideBad = true then (s.foundBad up L, true) else (s, l.poison)

/-! ### Points and forces (R159 to R163, R183 to R185) -/

/-- Words of a point of a run's kind. -/
def Run.width_ (r : Run) : Nat := if r.kind = 2 then r.width + 1 else 1

/-- The word address and bit of point x (R160). -/
def Run.place (r : Run) (x : Nat) : Nat × Nat :=
  let k := x - r.first
  if r.kind = 0 then (r.addr + (r.bitPos + k) / 16, (r.bitPos + k) % 16)
  else if r.kind = 1 then (r.addr + k, 0)
  else (r.addr + k * (r.width + 1), 0)

/-- The run that maps point x. -/
def mapRun (m : List Run) (x : Nat) : Option Run :=
  m.find? fun r => decide (r.first ≤ x) && decide (x ≤ r.first + r.count)

/-- The forces in effect: point and value of every enabled entry (R183). -/
def State.forces (s : State) : List (Nat × Nat) :=
  s.dict.settings.filterMap fun (k, v) =>
    if k / 4096 = 0x03010 ∧ bit v 35 = true then some (fld v 24 0, fld (s.cfg 0x03011 (k % 4096)) 15 0) else none

/-- A word as the forces present it (R182). -/
def State.forceWord (s : State) (up : Bool) (addr : Nat) (w : Word) : Word :=
  s.forces.foldl (fun w (x, v) =>
    match mapRun s.image.map x with
    | none => w
    | some r =>
      let (a, b) := r.place x
      if r.upland != up || a != addr then w
      else if r.kind = 1 then mkW qForced v
      else if r.kind = 0 then mkW (worst (wq w) qForced) (setFld (wp w) b b v)
      else w) w

/-! ### Held lists (R134, R135) -/

/-- Words of line L that an entry covers. -/
def Held.cover (h : Held) (L : Nat) : Nat :=
  if L < h.first ∨ h.last < L then 0
  else if L = h.first then h.fm
  else if L = h.last then h.lm
  else 15

/-- The entry less the words of `mask` in line L, in as few entries as their form allows. -/
def Held.less (h : Held) (L mask : Nat) : List Held :=
  let cov := h.cover L
  let rest := (List.range 4).foldl (fun a k => if cov.testBit k && !mask.testBit k then a + 2 ^ k else a) 0
  if cov = rest then [h]
  else if h.first = h.last then (if rest = 0 then [] else [{ h with fm := rest, lm := rest }])
  else if L = h.first then
    (if rest = 0 then [{ h with first := L + 1, fm := if L + 1 = h.last then h.lm else 15 }] else [{ h with fm := rest }])
  else if L = h.last then
    (if rest = 0 then [{ h with last := L - 1, lm := if L - 1 = h.first then h.fm else 15 }] else [{ h with lm := rest }])
  else
    [{ h with last := L - 1, lm := if L - 1 = h.first then h.fm else 15 }]
    ++ (if rest = 0 then [] else [⟨L, L, rest, rest⟩])
    ++ [{ h with first := L + 1, fm := if L + 1 = h.last then h.lm else 15 }]

/-- The held list of a line's tile or channel. -/
def State.heldOf (s : State) (up : Bool) (L : Nat) : List Held := Tab.get [] s.image.held (lineInst up L)

/-- Words of a line that the held list covers. -/
def State.heldCover (s : State) (up : Bool) (L : Nat) : Nat :=
  (s.heldOf up L).foldl (fun a h => a ||| h.cover L) 0

/-- HELD_LIST_ENTRY overflow (R135). -/
def State.heldFull (s : State) (up : Bool) (L : Nat) : State := (s.bump 0x02032 6).fire 18 (lineInst up L)

/-- A null stroke's destination range enters the held list (R134, R135). -/
def State.heldAdd (s : State) (up : Bool) (h : Held) : State :=
  let l := s.heldOf up h.first
  if 64 ≤ l.length then s.heldFull up h.first
  else { s with image.held := Tab.set [] s.image.held (lineInst up h.first) (l ++ [h]) }

/-- A write clears the covered words it writes; an entry that cannot be split stays whole (R134). -/
def State.heldClear (s : State) (up : Bool) (L mask : Nat) : State :=
  let l := s.heldOf up L
  let res := l.foldl (fun (acc : List Held × Nat × Bool) h =>
    let p := h.less L mask
    if acc.2.1 + p.length ≤ 65 then (acc.1 ++ p, acc.2.1 + p.length - 1, acc.2.2)
    else (acc.1 ++ [h], acc.2.1, true)) ([], l.length, false)
  let s := { s with image.held := Tab.set [] s.image.held (lineInst up L) res.1 }
  if res.2.2 then s.heldFull up L else s

/-! ### Reading through the image (R182) -/

/-- A line's words after the composition of R182: `held` when a stale mark or a tag makes them HELD, `logical` the
copy-0 line that forces name. -/
def State.compose (s : State) (up : Bool) (L logical : Nat) (held poisoned : Bool) : List Word :=
  let l := s.line up L
  let cov := s.heldCover up L
  let bad := poisoned || (up && s.classSafe 1 (16 + lineChan L))
  (List.range 4).map fun k =>
    let w := l.word k
    let w := if held || cov.testBit k then worsen w qHeld else w
    let w := s.forceWord up (4 * logical + k) w
    if bad then mkW qBad (wp w) else w

/-- A read that a held list answers counts in NULL_STROKES/5 (R134). -/
def State.countHeld (s : State) (up : Bool) (L mask : Nat) : State :=
  if s.heldCover up L &&& mask = 0 then s else s.bump 0x02032 5

/-- No line. -/
def Place.none : Place := ⟨false, 0, 0, .none⟩

/-- Where line L of a tier stands for a stroke of this tide and generation t − back (R99, R101). -/
def State.placeOf (s : State) (up : Bool) (back L : Nat) : Place :=
  match if up then none else s.activeHalf.regionAt 0 L with
  | none => ⟨up, L, L, none⟩
  | some (r, reg) => ⟨false, reg.copyLine (s.genCopy back) L, L, some (2 * r + s.genCopy back, s.genTag back)⟩

/-- The stale mark of a place's copy names its generation (R103). -/
def State.isStale (s : State) (k g : Nat) : Bool := Tab.get 4 s.image.stale k == g

/-- A scheduled read of one line (R102, R103); none on a schedule fault. `free` says that a read of the previous generation
goes unchecked. -/
def State.schedRead (s : State) (p : Place) (free : Bool) (mask : Nat) : State × Option (List Word) :=
  let (s, bad) := s.checkLine p.up p.line
  let s := s.countHeld p.up p.line mask
  match p.reg with
  | none => (s, some (s.compose p.up p.line p.logical false bad))
  | some (k, g) =>
    if free then (s, some (s.compose false p.line p.logical false bad))
    else if s.isStale k g then (s.bump 0x02026, some (s.compose false p.line p.logical true bad))
    else if (s.line false p.line).tagIs g then (s, some (s.compose false p.line p.logical false bad))
    else (s, none)

/-! ### Writing a line (R52, R101, R178 to R180) -/

/-- A DISCRETE point's flock word with its bit replaced and the quality that R163 gives. -/
def mergeBit (old new : Word) (b : Nat) : Word :=
  let p := wp old
  mkW (worst (wq old) (wq new))
    ((if p.testBit b then p - 2 ^ b else p) + (if (wp new).testBit 0 then 2 ^ b else 0))

/-- The words of a write as they land on a line: as presented, or each with one bit merged into the word that stands
there. -/
def Line.landing (l : Line) (w : List Word) : Option Nat → List Word
  | none => w
  | some b => (List.range 4).map fun k => mergeBit (l.word k) (w.getD k 0) b

/-- A partial write refused because its line is poisoned (R179). -/
def State.refusePoison (s : State) (up : Bool) (P : Nat) : State :=
  (s.bumpFld 0x03022 0 17 0).fire 50 (lineInst up P) (4 * P)

/-- The side store of a line after a write that sets a tag, or that sets none and leaves a voided tag void (R101, R170). -/
def Line.retag (l : Line) (tag : Option Nat) : Line :=
  match tag with
  | some g => { l with tag := g, sideBad := false, tagVoid := false }
  | none => { l with sideBad := false, tagVoid := l.tagVoid || l.sideBad }

/-- A partial write refused because the line is poisoned keeps its content and sets the tag it would have set; a line that
the side store alone made poisoned stays so by its poison bit (R170, R179). -/
def Line.refused (l : Line) (tag : Option Nat) : Line :=
  match tag with
  | some g => { l with tag := g, sideBad := false, tagVoid := false, poison := l.poison || l.sideBad }
  | none => l

/-- A write of a whole physical line, with the tag it sets in a turn region. -/
def State.writeWhole (s : State) (up : Bool) (P : Nat) (w : List Word) (tag : Option Nat) : State :=
  let l := { (s.line up P).merge 15 w with poison := false, code := .good }.retag tag
  let s := s.setLine up P l
  { s with image.writeBack := s.image.writeBack.filter (· != (up, P)),
           image.marking := s.image.marking.filter (· != (up, P)) }.heldClear up P 15

/-- A write of the words of `mask` over the words that the merge read brought, `bad` when it found the line poisoned: it is
then refused (R52, R179). The answer says whether the words were written. -/
def State.writeOver (s : State) (up : Bool) (P mask : Nat) (w : List Word) (tag : Option Nat) (bad : Bool) (old : List Word) :
    State × Bool :=
  if bad then
    let s := s.refusePoison up P
    (s.setLine up P ((s.line up P).refused tag), false)
  else
    let l := ((s.line up P).merge 15 old).merge mask w
    let s := s.setLine up P ({ l with code := .good }.retag tag)
    let s := { s with image.writeBack := s.image.writeBack.filter (· != (up, P)) }
    (s.heldClear up P mask, true)

/-- A write of the words of `mask` into a physical line with its own merge read, and the tag it sets in a turn region. The
answer says whether the words were written (R179). -/
def State.writeLine (s : State) (up : Bool) (P mask : Nat) (w : List Word) (tag : Option Nat) : State × Bool :=
  if mask = 15 then (s.writeWhole up P w tag, true)
  else if mask = 0 then (s, true)
  else
    let (s, bad) := s.checkLine up P
    s.writeOver up P mask w tag bad (s.line up P).words

/-- A scheduled write of one line, whole or over its merge read (R99, R101). -/
def State.schedWrite (s : State) (p : Place) (mask : Nat) (w : List Word) (old : Option (Bool × List Word)) : State :=
  let tag := p.reg.map Prod.snd
  match old with
  | some (bad, o) => (s.writeOver p.up p.line mask w tag bad o).1
  | none => (s.writeLine p.up p.line mask w tag).1

/-- The maximal runs of numbers below n that pass a test, as first and last, in rising order. -/
def stretchesOf (test : Nat → Bool) (n : Nat) : List (Nat × Nat) :=
  (List.range n).foldr (fun i l =>
    if test i then
      match l with
      | (a, b) :: l' => if a = i + 1 then (i, b) :: l' else (i, i) :: l
      | [] => [(i, i)]
    else l) []

/-- The destination of a null stroke reads HELD (R103, R133, R134): the stale mark of every turn region's copy that it meets,
and an entry of the held list for each run of lines outside them. -/
def State.markHeld (s : State) (dst : List Place) (mask : Nat → Nat) : State :=
  let at_ i := dst.getD i Place.none
  let marks := (dst.filterMap Place.reg).dedup
  let s := marks.foldl (fun (s : State) m => { s with image.stale := Tab.set 4 s.image.stale m.1 m.2 }) s
  (stretchesOf (fun i => (at_ i).reg.isNone) dst.length).foldl (fun s p =>
    s.heldAdd (at_ p.1).up ⟨(at_ p.1).line, (at_ p.2).line, mask p.1, mask p.2⟩) s

/-! ### Unscheduled access to a line (R104, R105, R164 to R166) -/

/-- How an unscheduled access ends other than well. -/
inductive Deny where
  | unmapped | readOnly | error | held | poisoned
  deriving DecidableEq, Repr

/-- An unscheduled read of a line: the previous generation of a turn region, HELD on a tag that differs (R105). -/
def State.unschedRead (s : State) (up : Bool) (L mask : Nat) : State × Except Deny (List Word) :=
  if up then
    if s.chanLost (lineChan L) then (s, .error .error)
    else
      let (s, p) := s.checkLine true L
      (s.countHeld true L mask, .ok (s.compose true L L false p))
  else if (s.activeHalf.regionAt 1 L).isSome && s.table.valid then (s, .error .unmapped)
  else
    match if s.table.valid then s.activeHalf.regionAt 0 L else none with
    | none =>
      let (s, p) := s.checkLine false L
      (s.countHeld false L mask, .ok (s.compose false L L false p))
    | some (r, reg) =>
      let c := s.genCopy 1
      let P := reg.copyLine c L
      let (s, p) := s.checkLine false P
      let s := s.countHeld false P mask
      if Tab.get 4 s.image.stale (2 * r + c) = s.genTag 1 ∨ (s.line false P).tagIs (s.genTag 1) = false then (s.bump 0x02026, .ok (s.compose false P L true p))
      else (s, .ok (s.compose false P L false p))

/-- An unscheduled write of a line, or of one bit of a word of it (R163). A STROKE region is read-only; a HOST line is
refused under a stale mark, and waits for its CARRY (R104). -/
def State.unschedWrite (s : State) (up : Bool) (L mask : Nat) (w : List Word) (b : Option Nat) : State × Except Deny Unit :=
  if up then
    if s.chanLost (lineChan L) then (s, .error .error)
    else
      let (s, ok) := s.writeLine true L mask ((s.line true L).landing w b) none
      (s, if ok then .ok () else .error .poisoned)
  else if (s.activeHalf.regionAt 1 L).isSome && s.table.valid then (s, .error .unmapped)
  else
    match if s.table.valid then s.activeHalf.regionAt 0 L else none with
    | none =>
      let (s, ok) := s.writeLine false L mask ((s.line false L).landing w b) none
      (s, if ok then .ok () else .error .poisoned)
    | some (r, reg) =>
      if reg.kind ≠ 1 then (s, .error .readOnly)
      else if Tab.get 4 s.image.stale (2 * r + s.genCopy 0) = s.genTag 0 then (s, .error .error)
      else if !s.ledger.carried.contains L then (s, .error .held)
      else
        let P := reg.copyLine (s.genCopy 0) L
        let (s, ok) := s.writeLine false P mask ((s.line false P).landing w b) (some (s.genTag 0))
        (s, if ok then .ok () else .error .poisoned)

/-- The tier and word address of an offset of space 0 (R164). -/
def State.space0 (s : State) (off : Nat) : Bool × Nat :=
  let v := fld off 26 24
  if v = 0 then (false, fld off 23 0)
  else (true, fld (s.cfg 0x03001) (5 * v - 1) (5 * v - 5) * 2 ^ 24 + fld off 23 0)

end Sys2Proof.Machine
end

