-- ==== Sys2Proof/Machine/Pens.lean ====
section
/-! DEFINITION. Pens (chapter 6): pointers held twice, packets, idle items, flush, halt, watermarks, and the commands
on a pen. -/

namespace Sys2Proof.Machine

/-- A pointer's complement copy (R194). -/
def penComp (n : Nat) : Nat := 2 ^ 22 - 1 - n

/-- A pen that was never enabled. -/
def Pen.fresh : Pen :=
  { state := .off, rd := 0, cm := 0, wr := 0, rdC := penComp 0, cmC := penComp 0, wrC := penComp 0,
    opened := false, words := 0, discard := false, high := false }

/-- Pen p. -/
def State.penAt (s : State) (p : Nat) : Pen := Tab.get Pen.fresh s.pen.pens p

/-- Pen p replaced. -/
def State.setPen (s : State) (p : Nat) (x : Pen) : State :=
  { s with pen.pens := Tab.set Pen.fresh s.pen.pens p x }

/-- Fields of PEN_CONFIG (R207). -/
def State.penSize (s : State) (p : Nat) : Nat := (fld (s.cfg 0x03100 p) 14 0 + 1) * 64
def State.penBase (s : State) (p : Nat) : Nat := fld (s.cfg 0x03100 p) 29 15 * 64
def State.penItem (s : State) (p : Nat) : Nat := fld (s.cfg 0x03100 p) 33 32 + 1
def State.penPacket (s : State) (p : Nat) : Bool := bit (s.cfg 0x03100 p) 34

/-- Pointers with their complement copies. -/
def Pen.setRd (x : Pen) (n : Nat) : Pen := { x with rd := n, rdC := penComp n }
def Pen.setCm (x : Pen) (n : Nat) : Pen := { x with cm := n, cmC := penComp n }
def Pen.setWr (x : Pen) (n : Nat) : Pen := { x with wr := n, wrC := penComp n }

/-- Both copies of every pointer agree (R194). -/
def Pen.agrees (x : Pen) : Bool := x.rdC == penComp x.rd && x.cmC == penComp x.cm && x.wrC == penComp x.wr

/-- Committed fill, open fill and free words of a pen of n words (R194). -/
def Pen.fill (x : Pen) (n : Nat) : Nat := (x.cm + 2 * n - x.rd) % (2 * n)
def Pen.openFill (x : Pen) (n : Nat) : Nat := (x.wr + 2 * n - x.cm) % (2 * n)
def Pen.free (x : Pen) (n : Nat) : Nat := n - x.fill n - x.openFill n

/-- A pen with its pointers at its first word and no packet open. -/
def Pen.clear (x : Pen) : Pen :=
  { (((x.setRd 0).setCm 0).setWr 0) with opened := false, words := 0, discard := false }

/-- HIGH after committed fill rose (R205); the flag may raise a host interrupt (R477). -/
def State.penRise (s : State) (p : Nat) : State :=
  let x := s.penAt p
  let hi := fld (s.cfg 0x03102 p) 29 15 * 64
  if hi ≠ 0 ∧ hi ≤ x.fill (s.penSize p) ∧ x.high = false then
    let s := (s.setPen p { x with high := true }).fire 82 p
    let v := s.cfg 0x0B003 p
    if bit v 6 then s.msiSend (fld v 5 0) else s
  else s

/-- HIGH after committed fill fell (R205). -/
def State.penFall (s : State) (p : Nat) : State :=
  let x := s.penAt p
  if x.high && decide (x.fill (s.penSize p) ≤ fld (s.cfg 0x03102 p) 14 0 * 64) then s.setPen p { x with high := false } else s

/-- PEN_POINTER_RESET (R194): the pen, and whether its copies disagreed. The pen stays in its state; whatever else reaches
it in the same cycle has no effect (R204). -/
def State.penCheck (s : State) (p : Nat) : State × Bool :=
  if (s.penAt p).agrees then (s, false)
  else ((((s.setPen p (s.penAt p).clear).penFall p).bumpFld 0x03105 p 8 0).fire 80 p, true)

/-- A discard counts in OVERFLOW and fires PEN_OVERFLOW (R198, R201, R203). -/
def State.penOverflow (s : State) (p : Nat) : State := (s.bumpFld 0x03105 p 35 27).fire 81 p

/-- A word stored at pointer `at_` of pen p. -/
def State.penPoke (s : State) (p at_ : Nat) (w : Word) : State :=
  { s with pen.pool := Tab.set 0 s.pen.pool (s.penBase p + at_ % s.penSize p) w }

/-- The open packet rewound, the rest of it to be discarded (R198, R202). -/
def Pen.drop (x : Pen) : Pen := { x.setWr x.cm with discard := true }

/-- One word at WR. -/
def State.penWord (s : State) (p : Nat) (w : Word) : State :=
  let n := s.penSize p
  let x := s.penAt p
  (s.penPoke p x.wr w).setPen p { x.setWr ((x.wr + 1) % (2 * n)) with words := x.words + 1 }

/-- A word of a stream item that is being discarded: the discard ends with the item. -/
def Pen.skipWord (x : Pen) (item : Nat) : Pen :=
  let last := item ≤ x.words + 1
  { x with words := if last then 0 else x.words + 1, discard := !last }

/-- A word reaches a pen in stream mode (R193, R198), and whether it was lost to a full pen. -/
def State.penStream (s : State) (p : Nat) (w : Word) : State × Bool :=
  let n := s.penSize p
  let x := s.penAt p
  if x.discard then (s.setPen p (x.skipWord (s.penItem p)), false)
  else if x.free n = 0 then ((s.setPen p (x.drop.skipWord (s.penItem p))).penOverflow p, true)
  else
    let s := s.penWord p w
    let y := s.penAt p
    (if x.words + 1 = s.penItem p then (s.setPen p { y.setCm y.wr with words := 0 }).penRise p else s, false)

/-- A word reaches a pen in packet mode: the header item is reserved as the packet opens; a packet that would hold more than
65,535 data items or more than the pen is dropped (R195, R198). -/
def State.penPacketWord (s : State) (p : Nat) (w : Word) : State × Bool :=
  let n := s.penSize p
  let x := s.penAt p
  if x.discard then (s, false)
  else
    let hdr := if x.opened then 0 else s.penItem p
    if x.free n < hdr + 1 ∨ 65536 * s.penItem p ≤ x.words + 1 then
      ((s.setPen p { x.drop with opened := true, words := 0 }).penOverflow p, true)
    else ((s.setPen p { x.setWr ((x.wr + hdr) % (2 * n)) with opened := true }).penWord p w, false)

/-- No packet is open, and in stream mode no item: what comes next is new (R201). The rest of an item that a stream pen had
begun is taken in DRAIN too, and commits with it: R201 names the open packet alone (DESIGN CHOICE, log 143). -/
def Pen.fresh_ (x : Pen) : Bool := !x.opened && x.words == 0

/-- A packet or an item that comes to a draining pen is discarded to its end. -/
def Pen.refuse (x : Pen) (packet : Bool) (item : Nat) : Pen :=
  if packet then { x with opened := true, discard := true } else { x with discard := true }.skipWord item

/-- One word reaches a pen that is not OFF; in DRAIN a packet or an item that is new is discarded, and counts once, at its first
word (R201, R207; log 108). -/
def State.penWordIn (s : State) (p : Nat) (w : Word) : State × Bool :=
  let x := s.penAt p
  if x.state = .drain ∧ x.fresh_ = true then
    ((s.setPen p (x.refuse (s.penPacket p) (s.penItem p))).penOverflow p, true)
  else if s.penPacket p then s.penPacketWord p w
  else s.penStream p w

/-- Words reach a pen in order, and whether some were lost. -/
def State.penWordsIn (s : State) (p : Nat) : List Word → State × Bool
  | [] => (s, false)
  | w :: ws =>
    let (s, a) := s.penWordIn p w
    let (s, b) := s.penWordsIn p ws
    (s, a || b)

/-- Words written to a pen in order, and whether some were lost (R196, R198, R201, R203, R497). A write to an OFF pen counts
once, whatever its length (log 108); the rest of an item being discarded passes there too. -/
def State.penPushLost (s : State) (p : Nat) (ws : List Word) : State × Bool :=
  match s.penCheck p with
  | (s, true) => (s, false)
  | (s, false) =>
    if s.classSafe 5 p then (s, false)
    else if (s.penAt p).state = .off then
      if ws.isEmpty then (s, false)
      else
        let s := if s.penPacket p || !(s.penAt p).discard then s
          else s.setPen p (ws.foldl (fun x _ => if x.discard then x.skipWord (s.penItem p) else x) (s.penAt p))
        (s.penOverflow p, true)
    else s.penWordsIn p ws

/-- Words written to a pen in order. -/
def State.penPush (s : State) (p : Nat) (ws : List Word) : State := (s.penPushLost p ws).1

/-- The header and CM of a packet of k whole items (R195). -/
def State.penSeal (s : State) (p k : Nat) : State :=
  let n := s.penSize p
  let it := s.penItem p
  let x := s.penAt p
  let s := (List.range it).foldl (fun s i => s.penPoke p (x.cm + i) (if i = 0 then BitVec.ofNat 18 k else 0)) s
  let e := (x.cm + it * (k + 1)) % (2 * n)
  (s.setPen p { (x.setWr e).setCm e with opened := false, words := 0, discard := false }).penRise p

/-- PACKET_COMMIT at the end mark (R195, R196). -/
def State.penCommit (s : State) (p : Nat) : State :=
  let (s, mis) := s.penCheck p
  let x := s.penAt p
  if mis || !s.penPacket p || !x.opened then s
  else if x.discard then s.setPen p { x with opened := false, words := 0, discard := false }
  else
    let k := x.words / s.penItem p
    if k = 0 then s.setPen p { x.setWr x.cm with opened := false, words := 0 }
    else s.penSeal p k

/-- A packet marked bad, or a partial item in stream mode (R197); the next word begins a new packet or item (log 42). -/
def State.penBad (s : State) (p : Nat) : State :=
  let (s, mis) := s.penCheck p
  let x := s.penAt p
  if mis || x.state = .off || x.discard then s
  else if (s.penPacket p && x.opened) || (!s.penPacket p && x.words != 0) then
    (s.setPen p { x.setWr x.cm with opened := false, words := 0 }).bumpFld 0x03105 p 26 18
  else s

/-- A stroke that writes a packet turns null (R133): its open packet is rewound as though marked bad; of one that was lost
already nothing more is discarded. -/
def State.penCutShort (s : State) (p : Nat) : State :=
  let x := s.penAt p
  if x.agrees && x.discard then s.setPen p { x with opened := false, words := 0, discard := false } else s.penBad p

/-- One position read from RD (R199); none beyond CM. -/
def State.penTake (s : State) (p : Nat) : State × Option Word :=
  let n := s.penSize p
  let x := s.penAt p
  if x.fill n = 0 then (s, none)
  else
    let w := Tab.get 0 s.pen.pool (s.penBase p + x.rd % n)
    (s.setPen p (x.setRd ((x.rd + 1) % (2 * n))), some w)

/-- The pen is fed by a bus channel or a port that Bell holds in its safe state (R295, R505). -/
def State.penFedSafe (s : State) (p : Nat) : Bool :=
  (s.bell.fatal || s.bell.srcs.any fun (n, x) => (n / 16 == 1 || n / 16 == 8 || n / 16 == 9) && decide (3 ≤ x.level))
  && ((List.range 128).any (fun c => s.busHeld c && (List.range 64).any fun i =>
        bit (s.cfg (0x06005 + 32 * c) i) 35 && fld (s.cfg (0x06007 + 32 * c) i) 11 0 == p)
      || (List.range 256).any fun i =>
        let v := s.cfg 0x07040 i
        bit v 35 && fld v 11 0 == p && s.portSafe (fld v 34 29))

/-- n positions read from pen p, idle words beyond CM (R199, R203). -/
def State.penPositions (s : State) (p : Nat) : Nat → State × List Word
  | 0 => (s, [])
  | n + 1 =>
    let idle := BitVec.ofNat 18 (s.cfg 0x03101 p)
    let (s, w) :=
      if s.classSafe 5 p then (s, mkW qBad (wp idle))
      else if (s.penAt p).state = .off then (s.bump 0x03106 p, worsen idle qHeld)
      else
        match s.penTake p with
        | (s, some w) => (s, w)
        | (s, none) => (s.bump 0x03106 p, if s.penFedSafe p then mkW qBad (wp idle) else idle)
    let (s, l) := s.penPositions p n
    (s, w :: l)

/-- A read of n positions with the checks around it. -/
def State.penReadN (s : State) (p n : Nat) : State × List Word :=
  let (s, _) := s.penCheck p
  let (s, l) := s.penPositions p n
  (s.penFall p, l)

/-- FLUSH (R202): the pen is empty, the open packet and a partial item are discarded to their end. -/
def State.penFlush (s : State) (p : Nat) : State :=
  let (s, mis) := s.penCheck p
  if mis then s
  else
    let x := s.penAt p
    let x := { (x.setRd x.cm).setWr x.cm with discard := x.opened || (!s.penPacket p && x.words != 0) }
    ((s.setPen p x).bumpFld 0x03105 p 17 9).penFall p

/-- HALT (R201): flushed, then OFF; the rest of an open packet stays to be discarded (R202). A pointer mismatch takes its
place (R204). -/
def State.penHaltOp (s : State) (p : Nat) : State :=
  if (s.penAt p).agrees then
    let s := s.penFlush p
    s.setPen p { s.penAt p with state := .off }
  else (s.penCheck p).1

/-- A pen that goes from OFF to RUN: RD, CM and WR stand at the first word (R201). A packet that a HALT cut goes on being
discarded in packet mode, and an item in stream mode (R202). -/
def Pen.start (x : Pen) (packet : Bool) : Pen :=
  if x.discard && x.opened == packet then { (((x.setRd 0).setCm 0).setWr 0) with state := .run }
  else { x.clear with state := .run }

/-- ENABLE of a PEN_CONFIG value that takes effect at a turn (R201). -/
def State.penEnable (s : State) (p v : Nat) : State :=
  let x := s.penAt p
  match x.state, bit v 35 with
  | .off, true => s.setPen p (x.start (bit v 34))
  | .run, false => s.setPen p { x with state := .drain }
  | .drain, true => s.setPen p { x with state := .run }
  | _, _ => s

/-- A packet written whole by a unit of the hub: its words, then its end mark; and whether it was lost. -/
def State.penPacketIn (s : State) (p : Nat) (ws : List Word) : State × Bool :=
  let (s, lost) := s.penPushLost p ws
  (s.penCommit p, lost)

/-- The oldest whole packet of a pen, without its header; none when the pen holds none. -/
def State.penPacketOut (s : State) (p : Nat) : State × Option (List Word) :=
  if (s.penAt p).state = .off ∨ (s.penAt p).fill (s.penSize p) = 0 then (s, none)
  else
    let (s, h) := s.penReadN p (s.penItem p)
    let (s, l) := s.penReadN p ((h.getD 0 0).toNat % 65536 * s.penItem p)
    (s, some l)

/-! ### Commands on a pen -/

/-- FLUSH (R202). -/
def execFlush (p : Fin 4096) (s : State) : Host.Outcome State Fault Refusal :=
  .next (if (s.penAt p).state = .off then s else s.penFlush p)

/-- PEN_HALT (R201, R202). -/
def execPenHalt (p : Fin 4096) (s : State) : Host.Outcome State Fault Refusal :=
  .next (if (s.penAt p).state = .off then s else s.penHaltOp p)

/-- MARK_BAD (R197). -/
def execMarkBad (p : Fin 4096) (s : State) : Host.Outcome State Fault Refusal := .next (s.penBad p)

/-- PEN_DRAIN_DONE (R201). -/
def execPenDrainDone (p : Fin 4096) (s : State) : Host.Outcome State Fault Refusal :=
  let x := s.penAt p
  .next (if x.state = .drain ∧ x.fill (s.penSize p) = 0 ∧ (x.opened = false ∨ x.discard = true) then s.setPen p { x with state := .off } else s)

end Sys2Proof.Machine
end

