-- ==== Sys2Proof/Machine/Session.lean ====
section
/-! DEFINITION. Abort codes (R463), the header of a message (R458) and the ways a message leaves by (R456). -/

namespace Sys2Proof.Machine

/-- Abort codes of R463. -/
def aNoObject : Nat := 0x001
def aNoSub : Nat := 0x002
def aReadOnly : Nat := 0x003
def aWriteOnly : Nat := 0x004
def aBadLength : Nat := 0x005
def aBadValue : Nat := 0x006
def aBadState : Nat := 0x007
def aNoRight : Nat := 0x008
def aNoSession : Nat := 0x009
def aBusy : Nat := 0x00A
def aTooMany : Nat := 0x00B
def aVerifyFail : Nat := 0x00C
def aBlobSequence : Nat := 0x00D
def aTimeout : Nat := 0x00E
def aUnreachable : Nat := 0x00F
def aBadRequest : Nat := 0x010
def aMemoryError : Nat := 0x011
def aFormatChanged : Nat := 0x012
def aNoProfile : Nat := 0x013
def aRefused : Nat := 0x1F0

/-- A message's header and body (R458). -/
structure Head where
  resp : Bool
  op : Nat
  session : Nat
  tag : Nat
  target : Nat
  unit : Nat
  entry : Nat
  sub : Nat
  abort : Nat
  count : Nat
  pend : Bool
  dflt : Bool
  deriving DecidableEq, Repr

/-- The words of a message (R458). -/
def Head.words (h : Head) (body : List Nat) : List Nat :=
  [put 14 4 1 + putB 13 h.resp + put 8 5 h.op + put 4 4 h.session, h.tag % 2 ^ 18, put 8 10 h.target + put 7 1 h.unit,
   h.entry % 2 ^ 18, put 6 12 h.sub, put 9 9 h.abort + put 0 9 h.count,
   putB 17 h.pend + putB 16 h.dflt + put 0 16 body.length] ++ body

/-! ### The BAR0 and service queues (R473, R489) -/

/-- Words of a BAR0 queue that are committed, and that are free. -/
def MsgQueue.fill (q : MsgQueue) : Nat := q.reading.length + (q.ready.map fun m => m.length + 1).sum
def MsgQueue.free (q : MsgQueue) : Nat := 8192 - q.fill - (if q.opened && !q.discard then q.open_.length + 1 else 0)

/-- A flushed queue (R202): empty, the open packet discarded to its end. -/
def MsgQueue.flush (q : MsgQueue) : MsgQueue :=
  { q with ready := [], reading := [], open_ := [], discard := q.opened }

/-- A response or a NOTIFY enters the response queue; one without room is lost (R198). Its fill rising from 0 sets
DICT_RSP (R477). -/
def State.hostRsp (s : State) (ws : List Nat) : State :=
  if s.host.rsp.free < ws.length + 1 then s
  else
    let was := s.host.rsp.fill
    let s := { s with host.rsp := { s.host.rsp with ready := s.host.rsp.ready ++ [ws.map (BitVec.ofNat 18)] } }
    if was = 0 then s.interrupt 0 else s

/-- A message leaves by a path to a source (R456): the BAR0 response queue, the service port's responses, or the ring and
UDP carriages. -/
def State.reply (s : State) (path source : Nat) (ws : List Nat) : State :=
  match path with
  | 2 => s.hostRsp ws
  | 3 => { s with svc.rsp := s.svc.rsp ++ [ws.map (BitVec.ofNat 18)] }
  | _ => s.emit .response (path * 2 ^ 64 + source) ws

/-- A response leaves, counted when it is aborted (R467), with DEFAULTED of its entry's group (R466). -/
def State.respond (s : State) (path source : Nat) (h : Head) (body : List Nat) : State :=
  let d := h.entry != 0 && s.dict.defaulted.contains (h.entry / 4096)
  let s := if h.abort = 0 then s else s.bump 0x00104 1
  let s := if h.abort = aRefused then s.bump 0x00104 3 else s
  s.reply path source ({ h with resp := true, dflt := d }.words body)

/-- The request's header for a response. -/
def msgHead (m : Msg) (op : Nat) : Head :=
  { resp := true, op := op, session := m.session, tag := m.tag, target := m.target, unit := m.unit, entry := m.entry,
    sub := m.sub, abort := 0, count := m.count, pend := false, dflt := false }

/-- The request whose handling begins leaves its queue. -/
def State.takeReq (s : State) (path : Nat) : State :=
  match path with
  | 2 => { s with host.req := { s.host.req with ready := s.host.req.ready.drop 1 } }
  | 3 => { s with svc.req := s.svc.req.drop 1 }
  | _ => s

end Sys2Proof.Machine
end

