-- ==== Sys2Proof/Machine/Mirror.lean ====
section
/-! DEFINITION. What an unscheduled client's write does to a line of the image: the mirror ranges of a pair that it may lie
in (R435, R436), and the writes that wait for the CARRY of a HOST region (R104). -/

namespace Sys2Proof.Machine

/-! ### The mirror ranges of a pair -/

/-- Lines of mirror range r: tier, first line, count. -/
def State.mirrorRange (s : State) (r : Nat) : Option (Bool × Nat × Nat) :=
  let v := s.cfg 0x0A004 r
  if bit v 35 then some (bit v 34, fld v 28 2, s.cfg 0x0A005 r + 1) else none

/-- A line of a mirror range. -/
def State.inMirror (s : State) (up : Bool) (L : Nat) : Bool :=
  (List.range 64).any fun r => match s.mirrorRange r with
    | some (u, a, n) => u == up && decide (a ≤ L) && decide (L < a + n)
    | none => false

/-- The pair is formed and mirroring runs at this ACTIVE unit. -/
def State.mirrors (s : State) : Bool := s.pair.state == .active && s.pair.formed && !s.pair.silence

/-- An item joins the open epoch, or is lost to an overflow of MIRROR_PEN. -/
def State.addItem (s : State) (it : List Nat) : State :=
  if !s.mirrors then s
  else
    let pen := fld (s.cfg 0x0A000) 13 2
    let held := if 2 ≤ s.pair.unacked.length then (s.pair.items.map List.length).sum else 0
    if held != 0 && decide (s.penSize pen < held + it.length) then { s with pair.overflow := true }
    else { s with pair.items := s.pair.items ++ [it] }

/-- An IMAGE_LINE item. -/
def lineItem (up : Bool) (L : Nat) (w : List Nat) : List Nat :=
  [put 14 4 2 + put 0 14 6, putB 17 up + put 0 11 (4 * L / 2 ^ 18), 4 * L % 2 ^ 18] ++ w

/-! ### A client's write -/

/-- The copy-0 line's physical line for a write now. -/
def State.currentLine (s : State) (up : Bool) (L : Nat) : Nat :=
  if up || !s.table.valid then L
  else match s.activeHalf.regionAt 0 L with
    | some (_, reg) => reg.copyLine (s.genCopy 0) L
    | none => L

/-- A line as a write left it joins the mirror epoch. -/
def State.mirrorLine (s : State) (up : Bool) (L : Nat) : State :=
  s.addItem (lineItem up L ((s.line up (s.currentLine up L)).words.map BitVec.toNat))

/-- An unscheduled write of a line by a client of class c: a line of a mirror range is read-only at a unit that does not lead
its pair, and its new words join the mirror epoch at one that does (R436); a HOST line waits for its CARRY (R104). -/
def State.clientWrite (s : State) (c : Nat) (up : Bool) (L mask : Nat) (w : List Word) (b : Option Nat := none)
    (req : Option Msg := none) : State × Except Deny Unit :=
  let mine := s.inMirror up L
  if mine && (s.pair.state == .standby || s.pair.state == .joining) then (s, .error .readOnly)
  else
    match s.unschedWrite up L mask w b with
    | (s, .ok ()) => (if mine then s.mirrorLine up L else s, .ok ())
    | (s, .error .held) => ({ s with ledger.waiting := s.ledger.waiting ++ [⟨c, L, mask, w, b, req⟩] }, .ok ())
    | (s, .error d) => (s, .error d)

/-- The open request of a POINT_WRITE some of whose lines wait for their CARRY. -/
def openPoint (m : Msg) : OpenReq := { op := 11, path := m.path, source := m.source, msg := m, relay := 0 }

/-- A POINT_WRITE that waits is answered: with an abort code, or once none of its lines waits any more. -/
def State.pointEnds (s : State) (req : Option Msg) (code : Nat) : State :=
  match req with
  | none => s
  | some m =>
    if s.dict.waiting.contains (openPoint m) && (code != 0 || !s.ledger.waiting.any fun x => x.req == some m) then
      { s with dict.waiting := s.dict.waiting.erase (openPoint m) }.respond m.path m.source { msgHead m 11 with abort := code } []
    else s

/-- A line of a mirror epoch that is not written: the item counts as skipped, and an EVENT record logs the address, as no
transaction is open (R104, R149; log 122). -/
def State.skipLine (s : State) (up : Bool) (L : Nat) : State :=
  (s.bump 0x0A008 6).tallyEvent 4 ([put 9 9 64 + put 6 3 1 + put 3 3 4, if up then lineChan L else 0] ++ words36 (4 * L))

/-- A write that waited lands: it joins the mirror epoch as any other. One that is refused under a stale mark, or meets a
poisoned line, ends with its client's error: at the host endpoint with its count and its record in the Tally, and in the
dictionary with the response (R104, R179, R459, R476). -/
def State.landWrite (s : State) (x : WaitWrite) : State :=
  match s.unschedWrite false x.line x.mask x.words x.bit with
  | (s, .ok ()) => (if s.inMirror false x.line then s.mirrorLine false x.line else s).pointEnds x.req 0
  | (s, .error d) =>
    let s := match x.cls with
      | 0 => if d = Deny.error then (s.bump 0x0B004 4).fire 288 0 (4 * x.line) else s.bump 0x0B004 4
      | 3 => s.skipLine false x.line
      | _ => s
    s.pointEnds x.req aMemoryError

/-- A line's current copy carries a stale mark for the current generation (R103). -/
def State.staleNow (s : State) (L : Nat) : Bool :=
  match s.activeHalf.regionAt 0 L with
  | some (r, _) => s.isStale (2 * r + s.genCopy 0) (s.genTag 0)
  | none => false

/-- Unscheduled writes that waited for a CARRY land once it is done, oldest first; those that a stale mark bars are refused
(R104). -/
def State.landHeld (s : State) : State :=
  let (now, later) := s.ledger.waiting.partition fun x => s.ledger.carried.contains x.line || s.staleNow x.line
  now.foldl (fun (s : State) x => { s with ledger.waiting := s.ledger.waiting.erase x }.landWrite x)
    { s with ledger.waiting := now ++ later }

end Sys2Proof.Machine
end

