-- ==== Sys2Proof/Machine/Ledger.lean ====
section
/-! DEFINITION. The ledger's queues and quotas (R137 to R145) and the degraded tide (R146 to R149). -/

namespace Sys2Proof.Machine

/-! ### Entering the ledger (R138, R139) -/

/-- Pending accesses of a class. -/
def State.queueOf (s : State) (c : Nat) : List Access := Tab.get [] s.ledger.queue c

/-- Pending accesses of a class replaced. -/
def State.setQueue (s : State) (c : Nat) (l : List Access) : State :=
  { s with ledger.queue := Tab.set [] s.ledger.queue c l }

/-- Whether a class has room for another access (R139). -/
def State.ledgerRoom (s : State) (c : Nat) : Bool := (s.queueOf c).length < 16

/-- The tile of a tile resource (R75); none for a shared block. -/
def resTile (rcls inst : Nat) : Option Nat :=
  match rcls with
  | 1 | 3 => some inst
  | 2 => some (inst / 4)
  | 4 => some (inst / 2)
  | _ => none

/-- A tile is awake at an offset: it is not dark and its wake has ended (R27, R76). -/
def State.awakeAt (s : State) (t off : Nat) : Bool :=
  Tab.get 0 s.tide.darkAt t == 0 && decide (Tab.get 0 s.tide.wakeAt t ≤ off)

/-- A tile is awake at the offset of the event being taken. -/
def State.tileAwake (s : State) (t : Nat) : Bool := s.awakeAt t s.tide.off

/-- A dark tile's wake begins at an offset; its dark cycles count (R84). -/
def State.wakeTile (s : State) (t off : Nat) : State :=
  let from_ := Tab.get 0 s.tide.darkAt t
  { s with
    tide.darkAt := Tab.set 0 s.tide.darkAt t 0,
    tide.darkNow := Tab.set 0 s.tide.darkNow t (Tab.get 0 s.tide.darkNow t + (off + 1 - from_)),
    tide.wakeAt := Tab.set 0 s.tide.wakeAt t (off + 64) }

/-- An access whose next stage is `l`'s first reaches its tile, which wakes for slack when it is dark (R78). -/
def State.reachTile (s : State) (l : List LStage) (off : Nat) : State :=
  match l with
  | [] => s
  | st :: _ =>
    match resTile st.cls st.inst with
    | none => s
    | some t =>
      if Tab.get 0 s.tide.darkAt t = 0 then s
      else
        let s := s.wakeTile t off
        { s with tide.slackAwake := t :: s.tide.slackAwake.filter (· ≠ t) }


/-- A new access now. -/
def State.newAccess (s : State) (stages : List LStage) (line : Option (Bool × Nat)) (carried : Bool)
    (cell : Option (Nat × List Word)) : Access :=
  { age := 0, entered := s.abs s.tide.off, ready := s.abs s.tide.off, started := false, first := 0, line := line, last := none,
    stages := stages, carried := carried, overdue := false, cell := cell }

/-- An access enters its class's queue, or waits behind it while it is full: its requester is held back (R139). -/
def State.takeAccess (s : State) (c : Nat) (a : Access) : State :=
  if s.ledgerRoom c then (s.setQueue c (s.queueOf c ++ [a])).reachTile a.stages s.tide.off
  else { s with ledger.behind := Tab.set [] s.ledger.behind c (Tab.get [] s.ledger.behind c ++ [a]) }

/-- The oldest access held back enters the class's queue, which has room again; its wait counts from now. -/
def State.admitNext (s : State) (c : Nat) : State :=
  match Tab.get [] s.ledger.behind c with
  | [] => s
  | a :: l =>
    let now := s.abs s.tide.off
    { s with ledger.behind := Tab.set [] s.ledger.behind c l }.takeAccess c { a with entered := now, ready := now }

/-- An unscheduled access of a class with its stages. -/
def State.enter (s : State) (c : Nat) (stages : List LStage) (line : Option (Bool × Nat) := none) (carried : Bool := false)
    (cell : Option (Nat × List Word) := none) : State :=
  s.takeAccess c (s.newAccess stages line carried cell)

/-- The stage on the pen-pool port of pen p, into the pool and out of it. -/
def penIn (p gap : Nat) : LStage := ⟨9, p % 8, 0, 1, gap, 0⟩
def penOut (p : Nat) : LStage := ⟨9, p % 8, 1, 1, 0, 0⟩

/-- Stages of a line that passes through pen p: the stage of its pen-pool port, and before that of a line of a trace record,
of class TRACE or PILOT, the bank and the tile port of the line it comes from, which no rule names (R138, R143; log 110). -/
def penStages (c p : Nat) (into : Bool) : List LStage :=
  if !into then [penOut p]
  else if c = 6 ∨ c = 7 then
    let b := Config.traceBank.toNat
    [⟨2, b, 2, 1, 0, 0⟩, ⟨3, b / 4, 1, 1, 3, 0⟩, penIn p 4]
  else [penIn p 0]

/-- One access for each pen line of n words that pass through pen p: into it, or out of it (R138). -/
def State.enterPen (s : State) (c p n : Nat) (into : Bool) : State :=
  (List.range ((n + 3) / 4)).foldl (fun s _ => s.enter c (penStages c p into)) s

/-- Accesses of a class for n words that come from no named line, a line each, through pen-pool port 0 (log 110). -/
def State.enterWords (s : State) (c n : Nat) (into : Bool) : State :=
  (List.range ((n + 3) / 4)).foldl (fun s _ => s.enter c [if into then penIn 0 0 else penOut 0]) s

/-- Stages of a one-line access to pasture line L through pen port `port` (R138): a read, or a write of a mask, whose merge
read and write form one pair. -/
def readStages (L port : Nat) : List LStage :=
  [⟨2, L / 65536, 2, 1, 0, 0⟩, ⟨3, lineTile L, 1, 1, 3, 0⟩, penIn port 4]
def writeStages (L port mask : Nat) : List LStage :=
  [penOut port, ⟨3, lineTile L, 0, 1, 4, 0⟩, ⟨2, L / 65536, 2, if mask = 15 then 1 else 2, 1, 0⟩]

/-- Stages of a one-line access to upland line L (R646). The write command of a partial write starts 28 wc or more after its
merge read (R172). -/
def upReadStages (L port : Nat) : List LStage :=
  [⟨7, lineChan L, 2, 7, 0, 0⟩, ⟨6, lineChan L, 1, 1, 48, 0⟩, penIn port 4]
def upWriteStages (L port mask : Nat) : List LStage :=
  (if mask = 15 then [] else [⟨7, lineChan L, 2, 7, 0, 0⟩])
  ++ [penOut port, ⟨6, lineChan L, 0, 1, 4, 0⟩, ⟨7, lineChan L, 2, 7, 1, if mask = 15 then 0 else 28⟩]

/-- An unscheduled access of a client to a line of the image enters the ledger (R138, R646), through pen-pool port 0: the spec
names the pen of no client but a pen's own accesses (log 111). -/
def State.clientEnter (s : State) (c : Nat) (up : Bool) (L : Nat) (write : Bool) (mask : Nat) : State :=
  if up then
    if s.chanLost (lineChan L) then s
    else s.enter c (if write then upWriteStages L 0 mask else upReadStages L 0) (some (true, L))
  else
    let host := match if s.table.valid then s.activeHalf.regionAt 0 L else none with
      | some (_, r) => r.kind == 1
      | none => false
    s.enter c (if write then writeStages L 0 mask else readStages L 0) (some (false, L)) (write && host)

/-- Stages of an access to one register word of drove d (R235): a write, or a read. -/
def regWriteStages (d : Nat) : List LStage := [penOut 0, ⟨3, d / 2, 0, 1, 4, 0⟩, ⟨4, d, 2, 1, 1, 0⟩]
def regReadStages (d : Nat) : List LStage := [⟨4, d, 2, 1, 0, 0⟩, ⟨3, d / 2, 1, 1, 3, 0⟩, penIn 0 4]

/-! ### The access line of a pen (R199, R200) -/

/-- PEN_ACCESS_READ (R200): four positions of the pen leave to the reader (R199). -/
def execPenAccessRead (p : Fin 4096) (s : State) : Host.Outcome State Fault Refusal :=
  let (s, l) := (s.enter 0 [penOut p]).penReadN p 4
  .next (s.emit .hostCompletion p (l.map BitVec.toNat))

/-- PEN_ACCESS_WRITE (R200): an open writer whose words are lost gets an error response, whatever pen or state lost them
(R198, log 108). -/
def execPenAccessWrite (p : Fin 4096) (words : List Word) (ends posted : Bool) (s : State) :
    Host.Outcome State Fault Refusal :=
  let (s, lost) := (s.enter 0 [penIn p 0]).penPushLost p (words.take 4)
  let s := if lost && !posted then s.emit .abort p [2] else s
  .next (if ends then s.penCommit p else s)

/-! ### Quotas (R144, R145) -/

/-- The key of a class's use on an instance, and of an instance. -/
def useKey (c rcls inst : Nat) : Nat := c * 2 ^ 16 + rcls * 2 ^ 12 + inst

/-- Stage cycles a class has used on an instance this tide. -/
def State.useOf (s : State) (c rcls inst : Nat) : Nat := Tab.get 0 s.ledger.use (useKey c rcls inst)

/-- The quota limit of a class in the running tide (R144). -/
def State.quotaLimit (s : State) (c : Nat) : Nat :=
  fld (s.cfg 0x02040 c) 12 0 * ((s.tideP + 31) / 32) / 4096

/-- Stage cycles counted in a class's use. -/
def State.addUse (s : State) (c rcls inst n : Nat) : State :=
  { s with ledger.use := Tab.set 0 s.ledger.use (useKey c rcls inst) (s.useOf c rcls inst + n) }

/-- A class's use of an instance is below its limit; without tides there is no limit (R144). -/
def State.belowQuota (s : State) (c rcls inst : Nat) : Bool :=
  !s.tideRuns || decide (s.useOf c rcls inst < s.quotaLimit c)

/-- Every instance that a new access touches has a use below its limit. -/
def State.withinQuota (s : State) (c : Nat) (a : Access) : Bool :=
  a.started || a.stages.all fun st => s.belowQuota c st.cls st.inst

/-! ### Candidates for a grant (R138 to R140) -/

/-- The crossbar port in whose hold register a line waits after stage `st`, with the stages to come: the port of that stage,
or after a bank, a drove port or a burst command the port that the line goes on to. -/
def holdPort (st : LStage) (rest : List LStage) : Option LStage :=
  if st.dir != 2 then some st
  else match rest with
    | x :: _ => if x.dir != 2 && x.cls != 9 then some x else none
    | [] => none

/-- Two stages on one port in one direction. -/
def LStage.samePort (x y : LStage) : Bool := x.cls == y.cls && x.inst == y.inst && x.dir == y.dir

/-- The hold register in which a class's line would wait after stage `st`: free of the class's other accesses. -/
def State.holdFree (s : State) (c pos : Nat) (st : LStage) (rest : List LStage) : Bool :=
  match holdPort st rest with
  | none => true
  | some p => (s.queueOf c).zipIdx.all fun (b, i) =>
      i == pos || !b.started || !(match b.last.bind fun x => holdPort x b.stages with
                                  | some q => p.samePort q
                                  | none => false)

/-- The access presents its next stage to the instance at offset `off`. -/
def State.presents (s : State) (c pos rcls inst off : Nat) (a : Access) : Bool :=
  match a.stages with
  | [] => false
  | st :: rest =>
    st.cls == rcls && st.inst == inst && decide (a.ready ≤ s.abs off) && decide (a.first + st.since ≤ s.abs off)
    && (match resTile rcls inst with | some t => s.awakeAt t off | none => true)
    && (!a.carried || (match a.line with | some l => s.ledger.carried.contains l.2 | none => true))
    && (rest.isEmpty || s.holdFree c pos st rest)

/-- The access is urgent (R139). -/
def State.isUrgent (s : State) (c : Nat) (a : Access) : Bool := fld (s.cfg 0x02040 c) 20 13 ≤ a.age

/-- A candidate: its class, its place in the class's queue and the access. -/
structure Cand where
  cls : Nat
  pos : Nat
  acc : Access
  deriving DecidableEq, Repr

/-- Accesses that present a stage to the instance, class by class, oldest first. -/
def State.cands (s : State) (rcls inst off : Nat) : List Cand :=
  (List.range 9).flatMap fun c =>
    ((s.queueOf c).zipIdx.filter fun p => s.presents c p.2 rcls inst off p.1).map fun p => ⟨c, p.2, p.1⟩

/-- The first of the candidates that no other beats. -/
def pickBy (better : Cand → Cand → Bool) : List Cand → Option Cand
  | [] => none
  | a :: l =>
    match pickBy better l with
    | none => some a
    | some b => if better b a then some b else some a

/-- The pick of an urgent slot (R140): the oldest urgent access of each class, highest age, then lowest class. -/
def State.pickUrgent (s : State) (l : List Cand) : Option Cand :=
  let u := l.filter fun x => s.isUrgent x.cls x.acc && s.withinQuota x.cls x.acc
    && ((s.queueOf x.cls).take x.pos).all fun a => !s.isUrgent x.cls a
  pickBy (fun a b => decide (b.acc.age < a.acc.age)) u

/-- The pick of a slack cycle (R140): highest PRIO, then age, then lowest class, then earliest arrival. -/
def State.pickSlack (s : State) (l : List Cand) : Option Cand :=
  let prio c := fld (s.cfg 0x02040 c) 23 21
  pickBy (fun a b => decide (prio b.cls < prio a.cls) || (prio a.cls == prio b.cls && decide (b.acc.age < a.acc.age)))
    (l.filter fun x => s.withinQuota x.cls x.acc)

/-- A class refuses a new access by quota: the first refusal of a tide fires (R150). -/
def State.quotaStop (s : State) (c : Nat) : State :=
  if s.ledger.quotaHit.contains c then s else { s with ledger.quotaHit := c :: s.ledger.quotaHit }.fire 33 c

/-- The candidates that are refused by quota. -/
def State.noteQuota (s : State) (l : List Cand) : State :=
  l.foldl (fun s x => if s.withinQuota x.cls x.acc then s else s.quotaStop x.cls) s

/-- The wait of a completed access in MAX_WAIT (R151). -/
def State.noteWait (s : State) (c w : Nat) : State :=
  { s with ledger.maxWait := Tab.set 0 s.ledger.maxWait c (max w (Tab.get 0 s.ledger.maxWait c)) }

/-- LEDGER_BLOCK_START (R139): every pending access ages by one block. -/
def execLedgerBlockStart (s : State) : Host.Outcome State Fault Refusal :=
  .next { s with ledger.queue := s.ledger.queue.map fun (c, l) => (c, l.map fun a => { a with age := satAdd 8 a.age 1 }) }

/-- LEDGER_OVERDUE (R143): the oldest access of the class has passed its bound; each access counts once. -/
def execLedgerOverdue (c : Fin 9) (s : State) : Host.Outcome State Fault Refusal :=
  .next (match s.queueOf c with
    | a :: l =>
      if a.overdue then s
      else
        ({ s with ledger.overdue := satAdd 18 s.ledger.overdue 1 }.setQueue c ({ a with overdue := true } :: l)).fire 32 c
    | [] => s)

/-! ### The turn of the ledger and the degraded tide (R144 to R149) -/

/-- PEAK of each class, and the carried excess that starts the next tide. -/
def State.ledgerTurn (s : State) : State :=
  let peak := (List.range 9).map fun c =>
    s.ledger.use.foldl (fun a (k, v) => if k / 2 ^ 16 = c then max a v else a) 0
  let use := s.ledger.use.foldl (fun m (k, v) => Tab.set 0 m k (v - s.quotaLimit (k / 2 ^ 16))) []
  { s with ledger.peak := Tab.setList 0 [] 0 peak, ledger.use := use, ledger.quotaHit := [], ledger.carried := [] }

/-- Of each source that is SEVERE now, one more than the tides on end at level 1 through which it has stayed so. A tide counts
whose two turns find the source SEVERE (log 112). -/
def State.severeRunsNow (s : State) : Tab Nat :=
  (s.bell.srcs.filter fun p => decide (4 ≤ p.2.level)).foldl (fun m p =>
    let n := Tab.get 0 s.ledger.severeRuns p.1
    Tab.set 0 m p.1 (if n ≠ 0 ∧ s.ledger.level = 1 then n + 1 else 1)) []

/-- The level of R147 at a turn. -/
def State.nextLevel (s : State) : Nat :=
  let n := s.severeCount
  let hold := fld (s.cfg 0x02035) 11 4
  match s.ledger.level with
  | 0 => if s.ledger.severeSeen || decide (1 ≤ n) then 1 else 0
  | 1 =>
    if 2 ≤ n ∨ s.severeRunsNow.any (fun p => decide (hold + 1 ≤ p.2)) = true then 2 else if n = 0 then 0 else 1
  | k => if n = 0 then k - 1 else k

/-- DEGRADE_LEVEL_CHANGE (R147, R149): the level, and the level in force with FORCE and ON_LOSS. No ledger class is concerned:
DEGRADE_CHANGE fires at instance 0 (log 113). -/
def State.degradeTurn (s : State) : State :=
  let lv := s.nextLevel
  let cmd := s.cfg 0x02035
  let inForce := max lv (max (fld cmd 1 0) (if s.image.lost.isEmpty then 0 else fld cmd 3 2))
  let changed := inForce ≠ s.ledger.inForce
  let s := { s with ledger.level := lv, ledger.inForce := inForce, ledger.severeSeen := false, ledger.severeRuns := s.severeRunsNow }
  if changed then s.fire 34 0 else s

end Sys2Proof.Machine
end

