-- ==== Sys2Proof/Machine/Stroke.lean ====
section
/-! DEFINITION. How a stroke of the active table is selected (R43, R80 to R98), what makes it null from its start (R133 to
R136), and the words that its masks select. -/

namespace Sys2Proof.Machine

/-! ### Null strokes (R133, R136) -/

/-- Causes of a null stroke, as the STROKE record of R517 codes them. -/
def cSched : Nat := 1
def cStorage : Nat := 2
def cSettle : Nat := 3
def cShed : Nat := 4
def cUpland : Nat := 5

/-- The sub-entry of NULL_STROKES that a cause counts in (R136). -/
def nullSub (cause : Nat) : Nat :=
  match cause with
  | 1 => 0 | 2 => 1 | 3 => 2 | 4 => 3 | _ => 4

/-- A null stroke counts once under its cause, and a schedule fault fires SCHED_FAULT (R136). -/
def State.countNull (s : State) (sl cause : Nat) : State :=
  let s := s.bump 0x02032 (nullSub cause)
  if cause = cSched then s.fire 17 sl else s

/-! ### Selecting a stroke -/

/-- The check codes of a stroke and its descriptor, as entry numbers of the active half. -/
def Half.entryEcc (h : Half) (i j : Nat) : List Ecc := [Tab.get .good h.strokeEcc i, Tab.get .good h.opndEcc j]

/-- TABLE_STORE_ERROR (R98): corrections count; an uncorrectable entry counts and fires TABLE_STORE_ECC. -/
def State.tableEcc (s : State) (sl : Nat) (l : List Ecc) : State :=
  let s := l.foldl (fun s e => if e = .single then s.bumpFld 0x02027 0 35 18 else s) s
  if l.contains .multi then (s.bumpFld 0x02027 0 17 0).fire 19 sl else s

/-- Criticality classes shed at the level in force (R146). -/
def State.sheds (s : State) (crit : Nat) : Bool :=
  (s.ledger.inForce == 1 && crit == 3) || (decide (2 ≤ s.ledger.inForce) && decide (2 ≤ crit))

/-- The upland channel a stroke uses (R149). -/
def strokeChan (st : Stroke) (d : Desc) : Option Nat :=
  if st.op = 0x04 ∨ st.op = 0x05 then some (lineChan (uplandLine d)) else none

/-- The stroke uses a channel that is lost. -/
def State.strokeLost (s : State) (st : Stroke) (d : Desc) : Bool :=
  match strokeChan st d with
  | some c => s.chanLost c
  | none => false

/-- A stroke's entry, when entry `idx` of the sluice's segment holds one that the opcode test names and that runs in this
tide at or after the present offset (R43, R44). A reserved opcode is a storage fault of the entry (R95). -/
def State.selects (s : State) (sl idx : Nat) (ops : Nat → Bool) : Option (Stroke × Desc × List Ecc) :=
  let h := s.activeHalf
  let (base, cnt, ob) := h.seg sl
  let st := h.stroke (base + idx)
  let d := h.desc (ob + st.opnd)
  if s.tableRuns && decide (idx < cnt) && ops st.op && tselRuns st.tsel s.tide.index && decide (s.tide.off ≤ st.start)
      && decide (st.start < s.tide.period) then
    some (st, d, if st.op = 0 then [Tab.get .good h.strokeEcc (base + idx)]
      else if 0x13 ≤ st.op then [.multi] else h.entryEcc (base + idx) (ob + st.opnd))
  else none

/-! ### Words and masks -/

/-- A flat list of words laid into the words that a mask selects; the rest is 0. -/
def layLine (m : Nat) (ws : List Word) : List Word :=
  (List.range 4).map fun i => if m.testBit i then ws.getD ((maskBits m).idxOf i) 0 else 0

/-- The words that the masks select, in address order. -/
def pickOut (l : List (Nat × List Word)) : List Word :=
  l.flatMap fun (m, w) => (maskBits m).map fun k => w.getD k 0

/-- Tier word address of the line that holds the first BAD word the masks select, from line `first` on (R187, R505). -/
def badAddr (first : Nat) : List (Nat × List Word) → Nat
  | [] => 4 * first
  | x :: l => if (pickOut [x]).any fun w => wq w == qBad then 4 * first else badAddr (first + 1) l

end Sys2Proof.Machine
end

