-- ==== Sys2Proof/Machine/Ports.lean ====
section
/-! DEFINITION. What the ports of the drove registers and of the field banks give to strokes and take from them (R54, R230 to
R232, R256, R258), and the digests that strokes feed (R429, R430). -/

namespace Sys2Proof.Machine

/-! ### Register words of a drover (R230 to R232) -/

/-- The STATUS word (R232). -/
def DState.code : DState → Nat
  | .off => 0 | .run => 1 | .stopped => 2 | .fault => 3

def Drover.statusWord (x : Drover) : Nat :=
  put 14 2 x.state.code + put 7 7 x.pc + put 5 2 x.txq + putB 4 x.txNew + putB 3 x.rxUnread + putB 2 x.safeOverride

/-- A register word as read (R232). -/
def Drover.regRead (x : Drover) (w : Nat) : Word :=
  let rxQ := match x.state with
    | .run => if x.fresh then x.rxq else worst x.rxq qHeld
    | .fault => qBad
    | _ => worst x.rxq qHeld
  let q := match x.state with | .run => qGood | .fault => qBad | _ => qHeld
  match w with
  | 0 => mkW rxQ x.rxd0
  | 1 => mkW rxQ x.rxd1
  | 2 => mkW q x.x
  | 3 => mkW q x.y
  | 4 => mkW q x.t
  | 5 => mkW qGood x.statusWord
  | 6 => mkW q (put 8 8 x.eLast + put 0 8 x.eFlag)
  | _ => mkW q x.cnt

/-- The eight register words as they read now. -/
def Drover.words (x : Drover) : List Word := (List.range 8).map x.regRead

/-- A register word written at work cycle `at_`. -/
def State.drvRegWrite (s : State) (d w : Nat) (v : Word) (at_ : Nat) : State :=
  let k := 8 * d + w / 8
  let x := s.drover k
  s.setDrover k { x with waits := x.waits ++ [⟨w % 8, v, at_, 0⟩] }

/-- The drover's last edge lies at or before r − 2, so that a port read in cycle r returns what it left (R54). -/
def Drover.latched (x : Drover) (r : Nat) : Bool := x.edgeAt == 0 || decide (x.edgeAt + 1 ≤ r)

/-- Register word w of drove d as a port read in work cycle r returns it (R54, R232). -/
def State.drvRegWord (s : State) (d w r : Nat) : Word :=
  let x := s.drover (8 * d + w / 8)
  if x.latched r then x.regRead (w % 8) else x.shown.getD (w % 8) 0

/-- A scheduled read of RXD0 in cycle r clears freshness and rx_unread (R232), but those of a LATCH at an edge that the read
does not see. -/
def State.drvRegTaken (s : State) (d w r : Nat) : State :=
  let k := 8 * d + w / 8
  let x := s.drover k
  if w % 8 = 0 ∧ (x.latched r || !x.exported) = true then s.setDrover k { x with fresh := false, rxUnread := false } else s

/-! ### Field banks (R247, R256, R258) -/

/-- The payload of half h of bank b: filter outputs, inverted where INVERT is 1. -/
def State.bankWord (s : State) (b h : Nat) : Nat :=
  (List.range 16).foldl (fun a i =>
    let p := 32 * b + 16 * h + i
    if Tab.get false s.pin.filt p != pinInvert (s.pinCfg p) then a + 2 ^ i else a) 0

/-- One flock word reaches the DOUT pins of half h of bank b (R186, R258). -/
def State.loadDout (s : State) (b h : Nat) (w : Word) : State :=
  let hw := 2 * b + h
  if wq w = qHeld then s
  else if wq w = qBad then
    if s.pin.unsafe_.contains hw then s
    else
      let s := s.snapHold (((List.range 16).map fun i => 16 * hw + i).filter fun p => pinOwner (s.pinCfg p) = 2)
      { s with pin.unsafe_ := hw :: s.pin.unsafe_ }
  else
    let dout := (List.range 16).foldl (fun m i =>
      let p := 32 * b + 16 * h + i
      if pinOwner (s.pinCfg p) = 2 then Tab.set false m p ((wp w).testBit i != pinInvert (s.pinCfg p)) else m) s.pin.dout
    { s with pin.dout := dout, pin.unsafe_ := s.pin.unsafe_.filter (· != hw) }

/-! ### Digests (R429, R430) -/

/-- Parts in the order of R429. -/
def insertPart (p : DigestPart) : List DigestPart → List DigestPart
  | [] => [p]
  | q :: l => if p.place ≤ q.place then p :: q :: l else q :: insertPart p l

/-- The digest of a region for a fabric tide, of the parts that are there; `ok` says that a digest of this unit counts. -/
def State.digestOf (s : State) (f r : Nat) (ok : Bool) : Digest :=
  let ps := (s.pair.parts.filter fun p => p.F == f && p.region == r).foldr insertPart []
  { F := f, region := r, valid := ok && !ps.any DigestPart.null, value := crcWords (ps.flatMap DigestPart.words) }

/-- A digest made now counts: no degraded tide, and a unit that is ACTIVE or STANDBY. -/
def State.digestsCount (s : State) : Bool := s.ledger.inForce == 0 && (s.pair.state == .standby || s.pair.state == .active)

/-- The digests of the tide that ends, and the last four tides' kept. Its parts stay for the strokes still in flight. -/
def State.digestClose (s : State) : State :=
  let parts := s.pair.parts.filter fun p => p.F == s.time.F
  let ds := ((parts.map DigestPart.region).dedup).map fun r => s.digestOf s.time.F r s.digestsCount
  { s with pair.parts := parts, pair.digests := (ds ++ s.pair.digests).filter fun d => decide (s.time.F < d.F + 4) }

/-- A stroke's part joins its digest; one that R49 carries past its tide's end mends the digest made there (R429). -/
def State.addPart (s : State) (p : DigestPart) : State :=
  let s := { s with pair.parts := p :: s.pair.parts }
  if p.F = s.time.F then s
  else
    let ok := match s.pair.digests.find? fun d => d.F == p.F && d.region == p.region with
      | some d => d.valid
      | none => s.digestsCount
    { s with pair.digests := s.digestOf p.F p.region ok :: s.pair.digests.filter fun d => d.F != p.F || d.region != p.region }

end Sys2Proof.Machine
end

