-- ==== Sys2Proof/Machine/Bus.lean ====
section
/-! DEFINITION. The message-bus channels (chapter 9): frames, arbitration among the channel's own buffers, error
counters, reception through the filters, and the response-time bound that Pilot uses. -/

namespace Sys2Proof.Machine

/-- BUS_MODE in force and its fields. -/
def State.busMode (s : State) (c : Nat) : Nat := s.cfg (busEntry c 0)
def State.busModeNo (s : State) (c : Nat) : Nat := fld (s.busMode c) 34 32

/-! ### Frames (R277, R278) -/

/-- Header word i of an image, its payload. -/
def hdrw (m : Tab Word) (i : Nat) : Nat := wp (Tab.get 0 m i)

/-- Format, IDE, identifier and length of a header given by word. -/
def hFmt (w : Nat → Nat) : Nat := fld (w 0) 15 14
def hIde (w : Nat → Nat) : Bool := bit (w 0) 13
def hRtr (w : Nat → Nat) : Bool := bit (w 0) 12
def hId (w : Nat → Nat) : Nat := fld (w 1) 12 0 * 65536 + fld (w 2) 15 0
def hLen (w : Nat → Nat) : Nat := fld (w 3) 11 0

/-- The lengths of R278. -/
def lenOk (fmt n : Nat) : Bool :=
  match fmt with
  | 0 => decide (n ≤ 8)
  | 1 => decide (n ≤ 8) || [12, 16, 20, 24, 32, 48, 64].contains n
  | _ => decide (1 ≤ n) && decide (n ≤ 2048)

/-- The header's fields are those of its format (R277, R278). -/
def hdrShape (w : Nat → Nat) : Bool :=
  let fmt := hFmt w
  decide (fmt < 3) && fld (w 0) 9 0 == 0 && fld (w 1) 15 13 == 0 && fld (w 3) 15 12 == 0 && w 7 == 0
  && (!hIde w || fmt != 2) && (hIde w || (fld (w 1) 12 0 == 0 && fld (w 2) 15 11 == 0))
  && (!hRtr w || fmt == 0) && (!bit (w 0) 11 || fmt == 1) && (!bit (w 0) 10 || fmt == 2)
  && (fmt == 2 || (w 4 == 0 && w 5 == 0 && w 6 == 0)) && lenOk fmt (hLen w)

/-- The header is a reference message's identifier (R288). -/
def isRef (refId : Nat) (w : Nat → Nat) : Bool := !hIde w && hId w == refId

/-- The header is valid on the channel for buffer b (R278, R288). -/
def State.hdrOk (s : State) (c b : Nat) (w : Nat → Nat) : Bool :=
  let m := s.busMode c
  hdrShape w && (hFmt w != 1 || bit m 31) && (hFmt w != 2 || bit m 30)
  && (!(b == 0 && fld m 13 12 == 1 && isRef (s.cfg (busEntry c 10)) w) || (hFmt w == 0 && !hRtr w && hLen w == 8))

/-- Payload words of a frame; a remote frame carries none. -/
def hWords (w : Nat → Nat) : Nat := if hRtr w then 0 else (hLen w + 1) / 2

/-- A key that orders frames by arbitration, lowest first (ISO 11898-1). -/
def arbKey (w : Nat → Nat) : Nat :=
  if hIde w then
    (fld (hId w) 28 18) * 2 ^ 22 + 2 ^ 21 + 2 ^ 20 + fld (hId w) 17 0 * 4 + (if hRtr w then 2 else 0) + (if hFmt w = 1 then 1 else 0)
  else
    (fld (hId w) 10 0) * 2 ^ 22 + (if hRtr w then 2 ^ 21 else 0) + (if hFmt w = 0 then 0 else 2 ^ 19) + (if hFmt w = 2 then 2 ^ 18 else 0)

/-! ### Declared traffic and the bound (R292, R293) -/

/-- A record of BUS_TRAFFIC (R297). -/
structure Traffic where
  fmt : Nat
  ide : Bool
  brs : Bool
  own : Bool
  tb : Nat
  id : Nat
  len : Nat
  t : Nat
  j : Nat
  deriving DecidableEq, Repr

/-- The records of a BUS_TRAFFIC blob. -/
def trafficOf (l : List Word) : List Traffic :=
  let n := fld (l.getD 0 0).toNat 7 0
  (List.range n).map fun i =>
    let w k := (l.getD (1 + 8 * i + k) 0).toNat
    { fmt := fld (w 0) 15 14, ide := bit (w 0) 13, brs := bit (w 0) 12, own := bit (w 0) 11, tb := fld (w 0) 10 9,
      id := fld (w 1) 12 0 * 65536 + fld (w 2) 15 0, len := fld (w 3) 11 0,
      t := w 4 * 2 ^ 18 + w 5, j := w 6 * 2 ^ 18 + w 7 }

/-- A record as header words, for its arbitration key. -/
def Traffic.hdr (r : Traffic) (k : Nat) : Nat :=
  match k with
  | 0 => put 14 2 r.fmt + putB 13 r.ide + putB 11 r.brs
  | 1 => r.id / 65536
  | 2 => r.id % 65536
  | 3 => r.len
  | _ => 0

/-- BUS_TRAFFIC in force, and the OWN record of a buffer. -/
def State.traffic (s : State) (c : Nat) : List Traffic := trafficOf (Tab.get [] s.dict.blobs (key (busEntry c 9) 0))
def State.ownRec (s : State) (c b : Nat) : Option Traffic := (s.traffic c).find? fun r => r.own && r.tb == b

/-- The bits that a record of BUS_TRAFFIC reserves, in its words 0 to 3, are 0 (R16, R297): those of R277 for the identifier,
and every bit above a word's payload. -/
def trafficResv (l : List Word) (i : Nat) : Bool :=
  let w k := (l.getD (1 + 8 * i + k) 0).toNat
  fld (w 0) 17 16 == 0 && fld (w 0) 8 0 == 0 && fld (w 1) 17 13 == 0 && fld (w 2) 17 16 == 0 && fld (w 3) 17 12 == 0

/-- The blob's own checks (R297): no reserved bit, no reserved FMT, one OWN record for a buffer, T above 0. -/
def trafficOk (l : List Word) : Bool :=
  let r := trafficOf l
  fld (l.getD 0 0).toNat 17 8 == 0 && l.length == 1 + 8 * r.length
  && (List.range r.length).all (trafficResv l)
  && r.all (fun x => x.fmt != 3 && x.t != 0 && !(x.own && x.tb == 3))
  && (List.range 3).all fun b => decide (r.countP (fun x => x.own && x.tb == b) ≤ 1)

/-- τ_n and τ_d of the settings in force, in 1/256 wc (R272). -/
def nbtTau (v : Nat) : Nat := (1 + fld v 15 7 + fld v 6 0) * fld v 35 16
def dbtTau (v : Nat) : Nat := (1 + fld v 15 10 + fld v 9 5) * fld v 35 16

/-- The rates of R270 and R273 and the jump widths of R274, for NBT, DBT, SYNC, XL and MODE. -/
def ratesOk (nbt dbt sync xl mode : Nat) : Bool :=
  let n := nbtTau nbt
  let d := dbtTau dbt
  decide (1250 * 256 ≤ n) && decide (n ≤ 125000 * 256) && decide (d ≤ n)
  && decide (125 * 128 ≤ d) && (!bit mode 31 || decide (625 * 64 ≤ d)) && (!bit mode 30 || bit xl 35 || decide (125 * 256 ≤ d))
  && decide (fld sync 35 29 ≤ fld nbt 6 0) && decide (fld sync 28 24 ≤ fld dbt 9 5)
  && (!bit xl 35 || (fld xl 34 28 != 0 && fld xl 27 21 != 0))

/-- The frame time C in wc (R292). -/
def Traffic.time (tn td : Nat) (r : Traffic) : Nat :=
  let (nn, nd) :=
    match r.fmt with
    | 0 => let g := if r.ide then 54 else 34
           (g + 8 * r.len + 13 + (g + 8 * r.len - 1) / 4, 0)
    | 1 => let a := if r.ide then 36 else 17
           (a + (a - 1) / 4 + 13, 5 + 8 * r.len + (4 + 8 * r.len) / 4 + (if r.len ≤ 16 then 28 else 33))
    | _ => (33, 112 + 8 * r.len + (112 + 8 * r.len + 9) / 10 + 6)
  let v := if r.fmt = 1 ∧ r.brs = false then (nn + nd) * tn else nn * tn + nd * td
  (v + 255) / 256

/-- One step of the iteration of R293; jobs are C, T and J. -/
def busIter (base tn : Nat) (jobs : List (Nat × Nat × Nat)) (w : Nat) : Nat :=
  base + (jobs.map fun (c, t, j) => (256 * (w + j) + tn + 256 * t - 1) / (256 * t) * c).sum

/-- The fixed point of R293; none when it reaches 2^27. -/
def busFix (base tn : Nat) (jobs : List (Nat × Nat × Nat)) : Nat → Nat → Option Nat
  | 0, _ => none
  | f + 1, w =>
    let w' := busIter base tn jobs w
    if 2 ^ 27 ≤ w' then none else if w' = w then some w else busFix base tn jobs f w'

/-- R_f of the frame of buffer b (R293); none when no OWN record stands or the bound is unbounded. A fraction of a wc is rounded
up in E and in tau_n (DESIGN CHOICE, log 147). -/
def State.busBound (s : State) (c b : Nat) : Option Nat :=
  match s.ownRec c b with
  | none => none
  | some f =>
    let tn := nbtTau (s.cfg (busEntry c 1))
    let td := dbtTau (s.cfg (busEntry c 2))
    let order := bit (s.busMode c) 29
    let others := (s.traffic c).filter (· != f)
    let hp := others.filter fun r => decide (arbKey r.hdr < arbKey f.hdr) || (order && r.own && decide (r.tb < b))
    let lp := others.filter fun r => !hp.contains r
    let mx (l : List Traffic) := (l.map (Traffic.time tn td)).foldl max 0
    let e := fld (s.busMode c) 11 8 * ((31 * tn + 255) / 256 + mx (f :: hp))
    let base := mx lp + e + (tn + 255) / 256
    (busFix base tn (hp.map fun r => (r.time tn td, r.t, r.j)) 8192 base).map (· + f.time tn td)

/-! ### Counters and states (R275, R276) -/

/-- Entry to BUS_OFF (R276). -/
def State.busOffEnter (s : State) (c : Nat) : State :=
  let s := s.dropFrames c
  let s := (s.setChan c { s.chan c with state := .busOff, offTurns := 0, waits := false }).bumpFld (busEntry c 13) 7 17 0
  s.fire 128 c

/-- The state after TEC and REC have moved (R275). -/
def State.busLevel (s : State) (c : Nat) : State :=
  let x := s.chan c
  match x.state with
  | .active =>
    if 255 < x.tec then s.busOffEnter c
    else if 127 < x.tec ∨ 127 < x.rec_ then (s.setChan c { x with state := .passive }).fire 129 c else s
  | .passive =>
    if 255 < x.tec then s.busOffEnter c
    else if x.tec ≤ 127 ∧ x.rec_ ≤ 127 then s.setChan c { x with state := .active } else s
  | _ => s

/-- TEC moves, except in LISTEN and INT_LOOP (R275); it saturates at 256. -/
def State.moveTec (s : State) (c : Nat) (f : Nat → Nat) : State :=
  if s.busModeNo c = 1 ∨ s.busModeNo c = 3 then s
  else (s.setChan c { s.chan c with tec := min 256 (f (s.chan c).tec) }).busLevel c

/-- REC after a valid reception (ISO 11898-1): one lower, or a free value from 119 to 127 where it stood above 127. -/
def State.recDown (s : State) (c : Nat) : State :=
  let r := (s.chan c).rec_
  if 127 < r then
    let (s, v) := s.draw
    (s.setChan c { s.chan c with rec_ := 119 + v % 9 }).busLevel c
  else (s.setChan c { s.chan c with rec_ := r - 1 }).busLevel c

/-- REC rises and saturates at 255. -/
def State.recUp (s : State) (c n : Nat) : State :=
  (s.setChan c { s.chan c with rec_ := min 255 ((s.chan c).rec_ + n) }).busLevel c

/-- ENABLE of a BUS_MODE value that takes effect at a turn (R275); a channel held safe stays OFF (R295). -/
def State.busEnable (s : State) (c v : Nat) : State :=
  let x := s.chan c
  if bit v 35 then
    match x.state with
    | .off => if s.busHeld c then s
              else s.setChan c { x with state := .integrating, tec := 0, rec_ := 0, waits := false }
    | _ => s
  else
    match x.state with
    | .integrating | .active | .passive => s.setChan c { x with state := .drain }
    | .busOff | .recovering => s.setChan c { x with state := .off }
    | _ => s

/-- A turn in BUS_OFF counts toward RECOVER_DELAY. -/
def State.busTurn (s : State) : State :=
  s.bus.chans.foldl (fun s (c, x) =>
    if x.state = .busOff then s.setChan c { x with offTurns := x.offTurns + 1 } else s) s

/-! ### Releases (R276, R279, R281, R287, R290) -/

/-- Why a RELEASE does nothing: TX_ABORTED in a state or mode that takes none. -/
def State.releaseBarred (s : State) (c : Nat) : Bool :=
  match (s.chan c).state with
  | .integrating | .active | .passive => s.busModeNo c == 1 || s.busModeNo c == 2
  | _ => true

/-- The image may be released: its header is valid and is the frame declared for the buffer (R279). -/
def State.imageOk (s : State) (c b : Nat) : Bool :=
  let w := hdrw ((s.chan c).tb b).image
  s.hdrOk c b w
  && match s.ownRec c b with
     | none => false
     | some r => r.fmt == hFmt w && r.ide == hIde w && r.id == hId w && decide (hLen w ≤ r.len)

/-- A RELEASE at r (R279); `marked` says that the stroke itself counted a suppression (R187). -/
def State.busRelease (s : State) (tile c b : Nat) (marked : Bool) : State :=
  let t := (s.chan c).tb b
  if s.releaseBarred c then s.busCount c 1
  else if t.void || t.tainted || !s.imageOk c b then
    let s := if t.tainted && !marked then (s.bump 0x03025).fire 51 tile else s
    (s.busCount c 2).fire 131 c
  else s.setChan c ((s.chan c).setTb b { t with state := .pending })

/-- The image after the words of one line: those that its mask selects are loaded. -/
def loadLine (m : Tab Word) (line mask : Nat) (w : List Word) : Tab Word :=
  (maskBits mask).foldl (fun m k => Tab.set 0 m (4 * line + k) (w.getD k 0)) m

/-- Lines loaded from a line offset on (R186, R277). -/
def TxBuf.load (t : TxBuf) (line : Nat) (l : List (Nat × List Word)) : TxBuf :=
  let t := if line = 0 then { t with void := false, tainted := false } else t
  let bad := (pickOut l).any fun w => wq w == qBad
  { t with image := (l.zipIdx.foldl (fun m p => loadLine m (line + p.2) p.1.1 p.1.2) t.image), tainted := t.tainted || bad }

/-- The first buffer write of a BUS_LOAD, at s + 8, finds the buffer PENDING, whose frame is withdrawn, or ACTIVE, whose image
is void once its frame is sent (R281). -/
def State.busMeet (s : State) (c b : Nat) : State :=
  let t := (s.chan c).tb b
  match t.state with
  | .active => ((s.setChan c ((s.chan c).setTb b { t with voidAfter := true })).busCount c 2).fire 132 c
  | .pending => (s.withdraw c b).fire 132 c
  | _ => s

/-! ### Sending (R280, R288) -/

/-- The buffer that is ACTIVE. -/
def BusChan.activeTb (x : BusChan) : Option Nat := (List.range 3).find? fun b => (x.tb b).state == .active

/-- The buffer chosen at a start-of-frame decision. -/
def State.busChoose (s : State) (c : Nat) : Option Nat :=
  let x := s.chan c
  let p := (List.range 3).filter fun b => (x.tb b).state == .pending
  if bit (s.busMode c) 29 then p.head?
  else
    let k b := arbKey (hdrw (x.tb b).image)
    p.find? fun b => p.all fun a => decide (k b ≤ k a)

/-- The payload that a reference message carries, with its cycle count and time (R288). -/
def refPayload (w : Nat → Nat) (count t : Nat) (valid : Bool) : List Word :=
  let v := if valid then timeVal t else 0
  [put 8 8 (put 2 6 count) + fld (w 8) 7 0, fld v 63 48, fld v 45 32, fld v 31 16].map (BitVec.ofNat 18)

/-- The error state indicator that the channel sends: 1 while it is error passive, its counters above 127 (R269, R275). -/
def BusChan.esi (x : BusChan) : Bool := decide (127 < x.tec) || decide (127 < x.rec_)

/-- Header word 7 of a frame sent, in the layout of R284: ESI of an FD frame at [15], from the channel's error state
(R269). -/
def BusChan.esiWord (x : BusChan) (w : Nat → Nat) : Nat := putB 15 (hFmt w == 1 && x.esi)

/-- The words of the frame that buffer b sends. -/
def State.frameWords (s : State) (c b : Nat) : List Nat :=
  let t := (s.chan c).tb b
  let w := hdrw t.image
  (List.range 7).map w ++ [(s.chan c).esiWord w] ++
    (if (s.chan c).refBody.isEmpty then (List.range (hWords w)).map fun i => w (8 + i) else (s.chan c).refBody.map BitVec.toNat)

/-- A frame may start on the channel. -/
def State.maySend (s : State) (c : Nat) : Bool :=
  let x := s.chan c
  (match x.state with | .active | .passive | .drain => true | _ => false)
  && !x.waits && x.activeTb.isNone && s.busModeNo c != 1 && s.busModeNo c != 2 && !s.busHeld c

/-- The master's time that a reference message carries in bytes 2 to 7 (R289). -/
def refTime (body : List Word) : Nat :=
  put 48 64 (wp (body.getD 1 0)) + put 32 14 (wp (body.getD 2 0)) + put 16 16 (wp (body.getD 3 0))

/-- A reference message was sent: the count rises and both times are stored (R288, R289). -/
def BusChan.refSent (x : BusChan) : BusChan :=
  if x.refBody.isEmpty then x
  else { x with refs := (x.refs + 1) % 64, lastMaster := refTime x.refBody, lastLocal := x.sof, refBody := [] }

/-- A frame sent with success: EMPTY, TX_OK, TEC one lower. -/
def State.txDone (s : State) (c b : Nat) : State :=
  let s := if s.busModeNo c = 3 then s else s.emit .busFrame c (s.frameWords c b)
  let x := s.chan c
  let s := (s.setChan c (x.setTb b (x.tb b).ended).refSent).busCount c 0
  s.moveTec c (· - 1)

/-- A frame that lost arbitration or met an error: PENDING again, or EMPTY and TX_ABORTED under DAR. -/
def State.txAgain (s : State) (c b : Nat) : State :=
  let x := s.chan c
  if (x.tb b).state ≠ .active then s
  else if bit (s.busMode c) 25 then ((s.setChan c { x.setTb b (x.tb b).ended with refBody := [] })).busCount c 1
  else s.setChan c { x.setTb b { x.tb b with state := .pending } with refBody := [] }

/-- BUS_FRAME_TX_END (R280, R276): TEC above 255 abandons the frame at that bit. -/
def execBusFrameTxEnd (ch : Fin 128) (outcome : Fin 4) (s : State) : Host.Outcome State Fault Refusal :=
  let c := ch.val
  .next (match (s.chan c).activeTb with
    | none => s
    | some b =>
      match outcome.val with
      | 0 => s.txDone c b
      | 1 => s.txAgain c b
      | 2 => ((s.bumpFld (busEntry c 13) 7 35 18).moveTec c (· + 8)).txAgain c b
      | _ => (s.bumpFld (busEntry c 13) 7 35 18).txAgain c b)

/-! ### Receiving (R283 to R289) -/

/-- Header word i of a received frame. -/
def frw (l : List Word) (i : Nat) : Nat := wp (l.getD i 0)

/-- Filter i matches the frame (R283). -/
def State.filterHit (s : State) (c i : Nat) (w : Nat → Nat) : Bool :=
  let f := s.cfg (busEntry c 5) i
  let m := s.cfg (busEntry c 6) i
  bit f 35 && bit f (32 + hFmt w) && bit f 31 == hIde w && (!bit m 30 || bit f 30 == hRtr w)
  && (fld f 28 0 &&& fld m 28 0) == (hId w &&& fld m 28 0)

/-- The channel takes frames of this origin now (R283, R287). -/
def State.mayReceive (s : State) (c : Nat) (own : Bool) : Bool :=
  let x := s.chan c
  (match x.state with | .active | .passive | .drain => true | _ => false) && !x.waits
  && match s.busModeNo c with
     | 3 => own
     | 4 => true
     | 0 => !own || bit (s.busMode c) 24
     | _ => !own

/-- The record of a delivered frame (R284). -/
def State.busRecord (s : State) (frame : List Word) (esi : Bool) (filter t : Nat) : List Word :=
  let n := hWords (frw frame)
  (cells frame 0 7).map (fun w => mkW qGood (wp w)) ++ [mkW qGood (putB 15 esi + filter)]
  ++ (timeWords t s.timeQ).map (BitVec.ofNat 18) ++ [0] ++ (cells (frame.drop 8) 0 n).map (fun w => mkW qGood (wp w))

/-- A reference message received: a foreign one at a master is a protocol event too (R289, R296). -/
def State.refSeen (s : State) (c : Nat) (own : Bool) (frame : List Word) (t : Nat) : State :=
  if isRef (s.cfg (busEntry c 10)) (frw frame) then
    match fld (s.busMode c) 13 12 with
    | 2 => s.setChan c { s.chan c with lastMaster := refTime (frame.drop 8), lastLocal := t }
    | 1 => if own then s else ((s.busCount c 6).fire 130 c).fire 134 c
    | _ => s
  else s

/-- The frame passes the filters (R283, R285). -/
def State.busDeliver (s : State) (c : Nat) (esi : Bool) (frame : List Word) (t : Nat) : State :=
  match (List.range 64).find? fun i => s.filterHit c i (frw frame) with
  | none => s.busCount c 4
  | some i =>
    let x := s.chan c
    if x.held.isSome then (s.busCount c 5).fire 133 c
    else
      (s.setChan c { x with held := some (fld (s.cfg (busEntry c 7) i) 11 0, s.busRecord frame esi i t) }).busCount c 3

/-- A received frame breaks the protocol (R286): a protocol exception event, after which the channel waits for 11 recessive
bits, or an error frame, and REC rises as ISO 11898-1 has it. -/
def State.busViolation (s : State) (c : Nat) (format : Bool) (rise : Nat) : State :=
  match (s.chan c).state with
  | .active | .passive | .drain =>
    let s := (s.busCount c 6).fire 130 c
    if format && !bit (s.busMode c) 23 then s.setChan c { s.chan c with waits := true }
    else
      let s := s.bumpFld (busEntry c 13) 7 35 18
      let s := if s.busModeNo c = 0 ∨ s.busModeNo c = 4 then s.emit .busSignal c [1] else s
      s.recUp c rise
  | _ => s

/-- The frame's format is not enabled on the channel (R286). -/
def State.busBarred (s : State) (c : Nat) (w : Nat → Nat) : Bool :=
  (hFmt w == 1 && !bit (s.busMode c) 31) || (hFmt w == 2 && !bit (s.busMode c) 30)

/-- BUS_FRAME_RECEIVED (R283): a frame whose header is of no format, or whose payload is not of its length, is no frame; one
of a format that is not enabled breaks the protocol (R286). -/
def execBusFrameReceived (ch : Fin 128) (own esi : Bool) (frame : List Word) (back : Nat) (s : State) :
    Host.Outcome State Fault Refusal :=
  let c := ch.val
  let t := timeVal (s.now - back * tickPerWc)
  .next (if hdrShape (frw frame) && frame.length == 8 + hWords (frw frame) && s.mayReceive c own then
        if s.busBarred c (frw frame) then s.busViolation c true 1
        else
          let s := (s.refSeen c own frame t).busDeliver c esi frame t
          if own then s else s.recDown c
      else s)

/-- BUS_PROTOCOL_VIOLATION (R286). -/
def execBusProtocolViolation (ch : Fin 128) (format : Bool) (rise : Fin 9) (s : State) :
    Host.Outcome State Fault Refusal :=
  .next (s.busViolation ch.val format rise)

/-- The channel writes receive records: it is ACTIVE or PASSIVE, or drains (R276, R290). -/
def BusChan.writes (x : BusChan) : Bool := match x.state with | .active | .passive | .drain => true | _ => false

/-- BUS_RX_RECORD_WRITE (R285): an access of class FRAME; a pen overflow, or a class that Bell holds (R497), counts in
RX_LOST, and so does a record that an OFF or draining pen discards (DESIGN CHOICE, log 108). From entry to BUS_OFF no receive
record is written until the channel is ACTIVE again: the record waits (R276). -/
def execBusRxRecordWrite (ch : Fin 128) (s : State) : Host.Outcome State Fault Refusal :=
  let c := ch.val
  .next (match (s.chan c).held with
    | none => s
    | some (p, ws) =>
      if !(s.chan c).writes then s
      else if s.classSafe 2 5 then ((s.setChan c { s.chan c with held := none }).busCount c 5).fire 133 c
      else if s.ledgerRoom 5 then
        match ((s.enterPen 5 p ws.length true).setChan c { s.chan c with held := none }).penPacketIn p ws with
        | (s, false) => s
        | (s, true) => (s.busCount c 5).fire 133 c
      else s)

/-- BUS_TB_PEN_FETCH (R282). -/
def execBusTbPenFetch (ch : Fin 128) (tb : Fin 3) (s : State) : Host.Outcome State Fault Refusal :=
  let c := ch.val
  let b := tb.val
  let p := fld (s.cfg (busEntry c 8)) (35 - 12 * b) (24 - 12 * b)
  let up := (s.chan c).state = .active ∨ (s.chan c).state = .passive
  .next (if up ∧ bit (s.busMode c) (26 + b) = true ∧ ((s.chan c).tb b).state = .empty ∧ s.ledgerRoom 5 = true
      ∧ s.classSafe 2 5 = false then
      match s.penPacketOut p with
      | (_, none) => s
      | (s, some ws) =>
        let s := s.enterPen 5 p ws.length false
        if s.hdrOk c b (frw ws) && ws.length == 8 + (hLen (frw ws) + 1) / 2 then
          s.setChan c ((s.chan c).setTb b { TxBuf.blank with state := .pending, image := Tab.setList 0 [] 0 ws })
        else (s.busCount c 2).fire 131 c
    else s)

/-! ### The channel's own events (R275) -/

/-- BUS_INTEGRATED (R275, R286). -/
def execBusIntegrated (ch : Fin 128) (s : State) : Host.Outcome State Fault Refusal :=
  let x := s.chan ch
  .next (if x.state = .integrating then s.setChan ch { x with state := .active, waits := false }
    else s.setChan ch { x with waits := false })

/-- BUS_RECOVER_DELAY_EXPIRY (R275). -/
def execBusRecoverDelayExpiry (ch : Fin 128) (s : State) : Host.Outcome State Fault Refusal :=
  let x := s.chan ch
  let m := s.busMode ch
  .next (if x.state = .busOff ∧ bit m 22 = false ∧ fld m 21 14 ≤ x.offTurns then s.setChan ch { x with state := .recovering } else s)

/-- BUS_RECOVERY_DONE (R275). -/
def execBusRecoveryDone (ch : Fin 128) (s : State) : Host.Outcome State Fault Refusal :=
  let x := s.chan ch
  .next (if x.state = .recovering then s.setChan ch { x with state := .active, tec := 0, rec_ := 0 } else s)

/-- BUS_DRAIN_DONE (R275): every frame has ended, and a frame received is delivered (R290). -/
def execBusDrainDone (ch : Fin 128) (s : State) : Host.Outcome State Fault Refusal :=
  let x := s.chan ch
  .next (if x.state = .drain ∧ x.held = none ∧ (List.range 3).all (fun b => (x.tb b).state == .empty) = true then
      s.setChan ch { x with state := .off }
    else s)

/-- BUS_RECOVER (R275). -/
def execBusRecover (ch : Fin 128) (s : State) : Host.Outcome State Fault Refusal :=
  let x := s.chan ch
  .next (if x.state = .busOff ∧ bit (s.busMode ch) 22 = true then s.setChan ch { x with state := .recovering }
    else s.abort (busEntry ch 12) 7)

/-- BUS_HALT (R291). -/
def execBusHalt (ch : Fin 128) (s : State) : Host.Outcome State Fault Refusal :=
  .next (if (s.chan ch).state = .off then s.abort (busEntry ch 12) 7 else s.busHaltOp ch)

/-- BUS_ABORT_TB (R297). -/
def execBusAbortTb (ch : Fin 128) (tb : Fin 3) (s : State) : Host.Outcome State Fault Refusal :=
  .next (if ((s.chan ch).tb tb).state = .pending then s.withdraw ch tb else s.abort (busEntry ch 12) 7)

/-- BUS_STATE as read (R297). -/
def State.busStateWord (s : State) (c : Nat) : Nat :=
  let x := s.chan c
  let code : Nat := match x.state with
    | .off => 0 | .integrating => 1 | .active => 2 | .passive => 3 | .busOff => 4 | .recovering => 5 | .drain => 6
  let tb (t : TxBuf) : Nat := match t.state with | .empty => 0 | .pending => 1 | .active => 2
  put 33 3 code + put 24 9 x.tec + put 16 8 x.rec_ + put 14 2 (tb x.tb0) + put 12 2 (tb x.tb1) + put 10 2 (tb x.tb2)
  + putB 7 x.tb0.void + putB 8 x.tb1.void + putB 9 x.tb2.void
  + putB 4 x.tb0.tainted + putB 5 x.tb1.tainted + putB 6 x.tb2.tainted

end Sys2Proof.Machine
end

