-- ==== Sys2Proof/Machine/Keys.lean ====
section
/-! DEFINITION. Sessions (R453 to R455) and the key slots of the Fold (R532 to R537), which other units use. -/

namespace Sys2Proof.Machine

/-! ### Sessions -/

/-- A session number that is not open. -/
def Session.none : Session := { role := 0, path := 4, source := 0, slot := 64, idle := 0 }

/-- Session n. -/
def State.session (s : State) (n : Nat) : Session := Tab.get Session.none s.dict.sessions n

/-- Session n replaced. -/
def State.setSession (s : State) (n : Nat) (x : Session) : State :=
  { s with dict.sessions := Tab.set Session.none s.dict.sessions n x }

/-- Session n ends, with its subscriptions and its result of the Fold (R455, R462, R541). -/
def State.endSession (s : State) (n : Nat) : State :=
  { s.setSession n Session.none with
    dict.subs := s.dict.subs.filter fun p => p.2.session != n,
    fold.results := s.fold.results.filter fun p => p.1 / 4 != n }

/-- Every open session that a test names ends. -/
def State.endSessions (s : State) (test : Session → Bool) : State :=
  (s.dict.sessions.filter fun p => test p.2).foldl (fun s p => s.endSession p.1) s

/-- The role in force for a request of a session on a path (R453, R454): session 0 has the path's default role. -/
def State.roleOf (s : State) (path session : Nat) : Nat :=
  if session = 0 then fld (s.cfg 0x00100) (4 * path + 2) (4 * path + 1) else (s.session session).role

/-! ### Key slots -/

/-- An EMPTY slot. -/
def Slot.none : Slot := { info := 0, count := 0, material := 0 }

/-- Slot k. -/
def State.slot (s : State) (k : Nat) : Slot := Tab.get Slot.none s.fold.slots k

/-- Slot k replaced. -/
def State.setSlot (s : State) (k : Nat) (x : Slot) : State := { s with fold.slots := Tab.set Slot.none s.fold.slots k x }

/-- Fields of R532. -/
def Slot.kind (x : Slot) : Nat := fld x.info 35 33
def Slot.sign (x : Slot) : Bool := bit x.info 27
def Slot.verify (x : Slot) : Bool := bit x.info 28
def Slot.encrypt (x : Slot) : Bool := bit x.info 29
def Slot.decrypt (x : Slot) : Bool := bit x.info 30
def Slot.derive (x : Slot) : Bool := bit x.info 31
def Slot.authenticate (x : Slot) : Bool := bit x.info 32
def Slot.roleMax (x : Slot) : Nat := fld x.info 26 25
def Slot.expire (x : Slot) : Bool := bit x.info 24
def Slot.countEn (x : Slot) : Bool := bit x.info 23

/-- The Fold serves key operations: not ZEROED, the TRNG healthy (R530, R540, R546). -/
def State.foldReady (s : State) : Bool := s.fold.standing == 0 && s.fold.trngOk

/-- PROVISIONED or FIELD (R547). -/
def State.lcKeys (s : State) : Bool := s.fold.lifecycle == 1 || s.fold.lifecycle == 2

/-- A slot is erased (R535): its sessions end and link copies of it are zeroed (R550). -/
def State.eraseSlot (s : State) (k : Nat) : State :=
  let links := s.ring.links.map fun (l, x) =>
    if fld (s.cfg 0x08005 l) 34 29 = k then (l, { x with key := none }) else (l, x)
  ({ s.setSlot k Slot.none with ring.links := links }).endSessions fun x => x.slot == k

/-- A granted operation counts, and uses a slot (R534). -/
def State.useSlot (s : State) (k : Nat) : State :=
  let x := s.slot k
  if !x.countEn then s
  else if x.count ≤ 1 then s.eraseSlot k
  else s.setSlot k { x with count := x.count - 1 }

/-- A key operation granted, and one refused (R540). -/
def State.foldGrant (s : State) : State := s.bump 0x0E00A 0
def State.foldRefuse (s : State) : State := (s.bump 0x0E00A 1).fire 306 0 0

/-- A random value of `n` bits from the TRNG, in draws of 36 bits. -/
def State.drawBits (s : State) (n : Nat) : State × Nat :=
  let (s, v) := (List.range ((n + 35) / 36)).foldl (fun (acc : State × Nat) _ =>
    let (s, d) := acc.1.draw
    (s, acc.2 * 2 ^ 36 + d)) (s, 0)
  (s, v % 2 ^ n)

/-- A link key load (R537): AES256 with ENCRYPT and DECRYPT. -/
def State.loadKey (s : State) (k : Nat) : State × Option Nat :=
  let x := s.slot k
  if s.foldReady && s.lcKeys && x.kind == 1 && x.encrypt && x.decrypt then ((s.useSlot k).foldGrant, some x.material)
  else (s.foldRefuse, none)

end Sys2Proof.Machine
end

