-- ==== Sys2Proof/Machine/Ring.lean ====
section
/-! DEFINITION. Ring and pair links (chapter 11): the cell check, departures and receive slots, unscheduled cells with
wrap and the transit buffer, link states, delays, protection, and which stations are reachable. -/

namespace Sys2Proof.Machine

/-! ### Links, stations, settings -/

/-- An empty receive slot. -/
def RxSlot.blank : RxSlot :=
  { words := List.replicate 32 0x30000, h := 0, valid := false, link := 0, ready := 0, oldWords := List.replicate 32 0x30000,
    oldH := 0, oldValid := false }

/-- A receive slot after a restart that keeps its words alone (R337). -/
def RxSlot.warm (x : RxSlot) : RxSlot :=
  { x with valid := false, ready := 0, oldWords := x.words, oldH := x.h, oldValid := false }

def State.rxSlot (s : State) (n : Nat) : RxSlot := Tab.get RxSlot.blank s.ring.rx n

/-- This station's node, unit and number. -/
def State.node (s : State) : Nat := fld (s.cfg 0x00004) 9 0
def State.unit (s : State) : Nat := if s.paired then fld (s.cfg 0x0A000) 34 34 else 0
def State.station (s : State) : Nat := 2 * s.node + s.unit

def State.linkUp (s : State) (l : Nat) : Bool := (s.link l).state == .up

/-- A link that carries scheduled cells: UP, and phased unless it is the pair link (R358, R372). -/
def State.linkSched (s : State) (l : Nat) : Bool := s.linkUp l && (l == 4 || (s.link l).phaseValid)

/-- Directions of travel (R326): 0 A forward, 1 A return, 2 B forward, 3 B return; the link each leaves on, the link it
enters on, the direction a wrap turns to, and the direction of a receive link. -/
def dirOut (d : Nat) : Nat := match d with | 0 => 0 | 1 => 1 | 2 => 3 | _ => 2
def dirWrap (d : Nat) : Nat := match d with | 0 => 1 | 1 => 0 | 2 => 3 | _ => 2
def rxDir (l : Nat) : Nat := match l with | 1 => 0 | 0 => 1 | 2 => 2 | _ => 3

/-- The direction in which cells leave on a link (R326). -/
def txDir (l : Nat) : Nat := match l with | 0 => 0 | 1 => 1 | 3 => 2 | _ => 3

/-- The onward link of a receive link. -/
def onward (l : Nat) : Nat := dirOut (rxDir l)

/-! ### Ring order (R371) -/

/-- The roster entry of a station. -/
def State.rosterOf (s : State) (st : Nat) : Option RosterEnt := Tab.get none s.muster.roster st

/-- The next station east and west of a station by the WEST fields. -/
def State.eastOf (s : State) (st : Nat) : Option Nat :=
  (s.muster.roster.find? fun p => (p.2.bind RosterEnt.west) == some st).map Prod.fst
def State.westOf (s : State) (st : Nat) : Option Nat := (s.rosterOf st).bind RosterEnt.west

/-- The station at the far end of a link, and the link's number there. -/
def State.farEnd (s : State) (l : Nat) : Nat × Nat :=
  match l with
  | 0 => ((s.eastOf s.station).getD 0, 1)
  | 1 => ((s.westOf s.station).getD 0, 0)
  | 2 => ((s.eastOf s.station).getD 0, 3)
  | 3 => ((s.westOf s.station).getD 0, 2)
  | _ => (2 * s.node + 1 - s.unit, 4)

/-! ### The cell check (R332) and protected bytes (R356) -/

/-- The 576 bits of a cell as one number: word j at bits [18j + 17 : 18j]. -/
def cellNat (w : List Word) : Nat := w.foldr (fun x a => a * 2 ^ 18 + x.toNat) 0

/-- CHECK of 32 words in a 40-bit context. -/
def cellCheck (ctx : Nat) (w : List Word) : Nat :=
  let n := cellNat w
  ((bitsOf 40 ctx) ++ (List.range 576).map fun i => n.testBit i).foldl crc8Bit 0xFF

/-- The context of a scheduled cell. -/
def cellCtx (src stream seq : Nat) : Nat := put 30 10 src + put 18 12 stream + put 0 18 seq

/-- The IV of a link's message (R356) as one number; `src` is the sending station. -/
def gcmIv (src link tide : Nat) : Nat := put 86 10 (src / 2) + put 85 1 (src % 2) + put 82 3 link + put 0 64 tide

/-- The 584 bits of a cell and its CHECK under the key stream of a message, from byte `at_` of it: the ciphertext of the plain
bits, and the plain bits of the ciphertext (R356). -/
def cipherCell (k iv at_ : Nat) (w : List Word) (check : Nat) : List Word × Nat :=
  let n := (cellNat w + check * 2 ^ 576) ^^^ (Config.gcmStream k iv at_ % 2 ^ 584)
  ((List.range 32).map fun j => BitVec.ofNat 18 (n / 2 ^ (18 * j)), n / 2 ^ 576)

/-- The 73 bytes of a cell in the message of its tide. -/
def cellBytes (w : List Word) (check : Nat) : List Nat :=
  (List.range 72).map (fun m => fld (cellNat w) (8 * m + 7) (8 * m)) ++ [check]

/-- A cell leaves on a link: its words and CHECK, then for a scheduled cell the beat and slot that it takes (R62, R65); on a
protected link it joins the tide's message, whose ciphertext is sent in its place (R356). -/
def State.cellOut (s : State) (l : Nat) (w : List Word) (ctx : Nat) (place : List Nat) : State :=
  let c := cellCheck ctx w
  let x := s.link l
  let (v, d) := match (if s.protect l then x.key else none) with
    | some k => cipherCell k (gcmIv s.station l s.time.F) x.sent.length w c
    | none => (w, c)
  let s := s.emit (if l = 4 then .pairCell else .ringCell) l (v.map BitVec.toNat ++ [d] ++ place)
  if s.protect l then s.setLink l { s.link l with sent := x.sent ++ cellBytes w c } else s

/-- The message of the running tide that a link has received so far (R356). -/
def State.rxMessage (s : State) (l : Nat) : List Nat :=
  match (s.link l).seals.getLast? with
  | some m => if m.tide = s.time.F then m.bytes else []
  | none => []

/-- The plain cell and CHECK of what arrives on a link (R356). -/
def State.opened (s : State) (l : Nat) (w : List Word) (check : Nat) : List Word × Nat :=
  match (if s.protect l then (s.link l).key else none) with
  | some k => cipherCell k (gcmIv (s.farEnd l).1 (s.farEnd l).2 s.time.F) (s.rxMessage l).length w check
  | none => (w, check)

/-- A cell with a data block 0 arrives on a link (R356). -/
def State.cellIn (s : State) (l : Nat) (w : List Word) (check : Nat) (ok : Bool) : State :=
  if s.protect l then
    let x := s.link l
    let add (m : SealMsg) : SealMsg := { m with bytes := m.bytes ++ cellBytes w check, failed := m.failed || !ok }
    match x.seals.getLast? with
    | some m =>
      if m.tide = s.time.F then s.setLink l { x with seals := x.seals.dropLast ++ [add m] }
      else s.setLink l { x with seals := x.seals ++ [add ⟨s.time.F, [], false⟩] }
    | none => s.setLink l { x with seals := [add ⟨s.time.F, [], false⟩] }
  else s

/-! ### Reach (R351) -/

/-- A station's newest report of a link says DOWN (R351), this station's own reports too. -/
def State.linkDown? (s : State) (st l : Nat) : Bool :=
  match Tab.get none s.ring.topo (8 * st + l) with
    | some v => v % 2 == 0
    | none => false

/-- The cable from a station to its neighbour along a direction is broken at either end. -/
def State.cableBroken (s : State) (dir a b : Nat) : Bool :=
  match dir with
  | 0 => s.linkDown? a 0 || s.linkDown? b 1
  | 1 => s.linkDown? a 1 || s.linkDown? b 0
  | 2 => s.linkDown? a 3 || s.linkDown? b 2
  | _ => s.linkDown? a 2 || s.linkDown? b 3

/-- The neighbour along a direction. -/
def State.neighbour (s : State) (dir st : Nat) : Option Nat := if dir = 0 ∨ dir = 3 then s.eastOf st else s.westOf st

/-- The stations in order along a direction from this one, each with whether the cable before it is whole. -/
def State.walk (s : State) (dir st : Nat) : Nat → List (Nat × Bool)
  | 0 => []
  | n + 1 =>
    match s.neighbour dir st with
    | none => []
    | some b =>
      (b, !s.cableBroken dir st b) :: (if b = s.station then [] else s.walk dir b n)

/-- The walk once around. -/
def State.round (s : State) (dir : Nat) : List (Nat × Bool) := s.walk dir s.station (s.muster.roster.length + 1)

/-- A node is reachable along a direction. -/
def State.reach (s : State) (dir node : Nat) : Bool := ((s.round dir).takeWhile Prod.snd).any fun p => p.1 / 2 == node

/-- Usable paths of R317 to a node: 1 ring A forward, 2 ring B forward. -/
def State.usable (s : State) (node : Nat) : Nat := (if s.reach 0 node then 1 else 0) + (if s.reach 2 node then 2 else 0)

/-! ### Phases (R61, R62, R372) -/

/-- The station that a CLAIMW names. -/
def claimStation (w : Nat) : Nat := 2 * fld w 13 4 + fld w 3 3

/-- The elected tide master's station. -/
def State.electedMaster (s : State) : Option Nat := if s.muster.masterKnown then some (claimStation s.muster.masterClaimw) else none

/-- d of a link at a station, as the roster tells it. -/
def State.delayOf (s : State) (st l : Nat) : Option Nat :=
  if st = s.station then (if (s.link l).dValid then some (s.link l).d else none)
  else ((s.rosterOf st).map fun e => (e.d.getD l none)).getD none

/-- The phase of station `goal`'s transmit link in a direction: the walk from station `st`, whose phase is φ. -/
def State.phaseWalk (s : State) (dir goal st φ : Nat) : Nat → Option Nat
  | 0 => none
  | n + 1 =>
    if st = goal then some φ
    else
      match s.neighbour dir st with
      | none => none
      | some b =>
        match s.delayOf b (dirOut (dirWrap dir)) with
        | none => none
        | some d => s.phaseWalk dir goal b ((φ + 120 + d) % 36) n

/-- The phase of a station's transmit link in a direction, once its whole chain from the elected tide master is known. -/
def State.phaseIn (s : State) (dir goal : Nat) : Option Nat :=
  match s.electedMaster with
  | none => none
  | some m => s.phaseWalk dir goal m 0 (s.muster.roster.length + 1)

/-- The phase of a transmit link of this station. -/
def State.phaseOf (s : State) (l : Nat) : Option Nat := s.phaseIn (txDir l) s.station

/-- The phase of the grid of a transmit link; the pair link's is 0. -/
def State.gridPhase (s : State) (l : Nat) : Nat := if l = 4 then 0 else (s.link l).phase

/-- The phase of the transmit link at the far end of receive link l: the chain gives it at the elected tide master, where the
grids meet, and anywhere else it stands behind this station's own (R61). -/
def State.farPhase (s : State) (l : Nat) : Nat :=
  if l = 4 then 0
  else
    let behind := (s.gridPhase (onward l) + 36 * 8192 - 120 - (s.link l).d) % 36
    if s.electedMaster = some s.station then (s.phaseIn (rxDir l) (s.farEnd l).1).getD behind else behind

/-- Work cycles from a slot's start on the far end's transmit link to the cell's pass here (R62). -/
def State.hop (s : State) (l : Nat) : Nat := 120 + (s.link l).d

/-- The hold of a passing cell: h at the elected tide master, nothing elsewhere and on the pair link (R62). -/
def State.holdOf (s : State) (l : Nat) : Nat :=
  if l ≠ 4 ∧ s.electedMaster = some s.station then (36 - (s.farPhase l + s.hop l) % 36) % 36 else 0

/-- The offset at which a cell in a slot of the far end's beat passes this station (R60, R62). -/
def State.passOffset (s : State) (l beat slot : Nat) : Nat := 36 * beat + s.farPhase l + 36 * slot / 5 + s.hop l

/-- The beat at this station that R62 computes for a cell in a beat of the far end's grid. -/
def State.hereBeat (s : State) (l beat : Nat) : Nat :=
  if l = 4 then beat + s.hop l / 36
  else beat + (s.farPhase l + s.hop l + s.holdOf l - s.gridPhase (onward l)) / 36

/-! ### Unscheduled cells from this station (R344 to R346, R352) -/

/-- HOPS of a cell sent round the ring. -/
def State.hops (s : State) : Nat := min 4095 (2 * s.muster.roster.length)

/-- Header and payload of an unscheduled cell of a station as 32 words. -/
def cellOf (src kind : Nat) (wrapped bcast : Bool) (dest seq hops : Nat) (first last : Bool) (pay : List Nat) : List Word :=
  let used := max 1 (min 28 pay.length)
  let w0 := put 14 4 kind + putB 13 wrapped + putB 12 bcast + (if bcast then 0 else put 11 1 (dest % 2) + put 1 10 (dest / 2))
  let w1 := put 8 10 (src / 2) + put 7 1 (src % 2) + put 2 5 (used - 1)
  let w3 := put 6 12 hops + putB 5 first + putB 4 last
  ([w0, w1, seq % 2 ^ 18, w3] ++ cells pay 0 28).map (BitVec.ofNat 18)

/-- An unscheduled cell of this station. -/
def State.mkCell (s : State) (kind : Nat) (bcast : Bool) (dest seq hops : Nat) (first last : Bool) (pay : List Nat) : List Word :=
  cellOf s.station kind false bcast dest seq hops first last pay

/-- A broadcast that a command gives by its fields has come on a link: it counts, and on a protected link it is a cell of the
tide's message, with a SEQ that the command leaves open (R356; log 118). -/
def State.heard (s : State) (l kind src hops : Nat) (wrapped : Bool) (pay : List Nat) : State :=
  let s := s.linkCount l 3
  if s.protect l then
    let (s, seq) := s.draw
    let w := cellOf src kind wrapped true 0 seq hops true true pay
    s.cellIn l w (cellCheck 0 w) true
  else s

/-- The WRAPPED bit set. -/
def setWrapped (w : List Word) : List Word := match w with | a :: l => (a ||| 0x2000) :: l | [] => []

/-- A wrap counts, and the first of a tide fires RING_WRAP (R352). -/
def State.countWrap (s : State) (l : Nat) : State :=
  let s := s.linkCount l 9
  if s.ring.wrapSeen then s else { s with ring.wrapSeen := true }.fire 178 l

/-- An unscheduled cell leaves on a link. -/
def State.unschedOut (s : State) (l : Nat) (w : List Word) : State := (s.cellOut l w 0 []).linkCount l 2

/-- An unscheduled cell of this station for a link, an access of ledger class c: out of the pen pool, into its adapter, and a
slot of the link, in which it leaves (R137, R343, R428). -/
def State.ownOut (s : State) (c l : Nat) (w : List Word) : State :=
  s.enter c (penOut 0 :: if l = 4 then [⟨11, 0, 0, 1, 4, 0⟩, ⟨15, 0, 2, 1, 1, 0⟩] else [⟨10, l / 2, 0, 1, 4, 0⟩, ⟨14, l, 2, 1, 1, 0⟩])
    none false (some (l, w))

/-- A cell waits at the tail of a link's transit buffer (R343). -/
def State.transitPut (s : State) (l : Nat) (w : List Word) : State :=
  let x := s.link l
  if 64 ≤ x.transit.length then (s.linkCount l 7).fire 177 l
  else s.setLink l { x with transit := x.transit ++ [w], peak := max x.peak (x.transit.length + 1) }

/-- The link takes unscheduled cells: it is UP, or is SETTLING and they wait for it (R352, R354). -/
def State.linkTakes (s : State) (l : Nat) : Bool := s.linkUp l || (s.link l).state == .settling

/-- A cell of this station for a direction: on its link, or wrapped, or lost where neither link takes cells (R352, R354). -/
def State.sendDir (s : State) (dir : Nat) (w : List Word) : State :=
  let l := dirOut dir
  let l' := dirOut (dirWrap dir)
  if s.linkTakes l then s.ownOut 5 l w
  else if s.linkTakes l' then (s.countWrap l).ownOut 5 l' (setWrapped w)
  else s.linkCount l 9

/-- The link on which a cell for link l goes wrapped (R352). -/
def wrapLink (l : Nat) : Nat := dirOut (dirWrap (txDir l))

/-- A cell waiting for a link that is not to come UP again soon: wrapped onto the other link of its ring, or dropped where it
is wrapped already or that link takes none (R352). -/
def State.wrapCell (s : State) (l : Nat) (w : List Word) (put : State → List Word → State) : State :=
  if bit (w.getD 0 0).toNat 13 || !s.linkTakes (wrapLink l) then s.linkCount l 9 else put (s.countWrap l) (setWrapped w)

/-- Cells of this station's tunnel frames to some nodes that still wait for a link: the frames are lost, and each counts once,
with its last cell (R318). -/
def State.loseTunnel (s : State) (l : Nat) (node : Nat → Bool) : State :=
  let mine (a : Access) : Bool := match a.cell with
    | some (k, w) => k == l && fld (w.getD 0 0).toNat 17 14 == 1 && node (fld (w.getD 0 0).toNat 10 1)
    | none => false
  let ends (a : Access) : Bool := match a.cell with | some (_, w) => bit (w.getD 3 0).toNat 4 | none => false
  let lost := ((s.queueOf 5 ++ Tab.get [] s.ledger.behind 5).filter mine).filter ends
  let s := s.setQueue 5 ((s.queueOf 5).filter fun a => !mine a)
  let s := { s with ledger.behind := Tab.set [] s.ledger.behind 5 ((Tab.get [] s.ledger.behind 5).filter fun a => !mine a) }
  lost.foldl (fun s _ => s.bumpFld 0x07051 0 17 0) s

/-- The cells that wait for a ring link which went DOWN or OFF, in its transit buffer and with the ledger, are wrapped (R352);
this station's tunnel frames among them are lost (R318). -/
def State.wrapWaiting (s : State) (l : Nat) : State :=
  if 4 ≤ l then s
  else
    let s := s.loseTunnel l fun _ => true
    let mine (a : Access) : Bool := match a.cell with | some (k, _) => k == l | none => false
    let cells := (s.link l).transit
    let own := (s.queueOf 5 ++ Tab.get [] s.ledger.behind 5).filter mine
    let s := s.setLink l { s.link l with transit := [] }
    let s := s.setQueue 5 ((s.queueOf 5).filter fun a => !mine a)
    let s := { s with ledger.behind := Tab.set [] s.ledger.behind 5 ((Tab.get [] s.ledger.behind 5).filter fun a => !mine a) }
    let s := cells.foldl (fun (s : State) w => s.wrapCell l w fun s v => s.transitPut (wrapLink l) v) s
    own.foldl (fun (s : State) a => match a.cell with
      | some (_, w) => s.wrapCell l w fun s v => s.ownOut 5 (wrapLink l) v
      | none => s) s

/-- The next value of the counter of a KIND and direction. -/
def State.nextSeq (s : State) (kind dir : Nat) : State × Nat :=
  let k := 4 * kind + dir
  let n := (Tab.get 0 s.ring.seqs k + 1) % 2 ^ 18
  ({ s with ring.seqs := Tab.set 0 s.ring.seqs k n }, n)

/-- A one-cell message of this station in one direction. -/
def State.sendCell (s : State) (dir kind : Nat) (dest : Option Nat) (pay : List Nat) : State :=
  let (s, n) := s.nextSeq kind dir
  s.sendDir dir (s.mkCell kind dest.isNone (dest.getD 0) n s.hops true true pay)

/-- A broadcast on both forward directions. -/
def State.broadcast (s : State) (kind : Nat) (pay : List Nat) : State := (s.sendCell 0 kind none pay).sendCell 2 kind none pay

/-- A unicast on both forward directions. -/
def State.unicastBoth (s : State) (kind dest : Nat) (pay : List Nat) : State :=
  (s.sendCell 0 kind (some dest) pay).sendCell 2 kind (some dest) pay

/-- A marker leaves on a link in the next free slot; while cells wait for slots it is pending, before them (R343, R360). -/
def State.marker (s : State) (l code arg : Nat) : State :=
  let x := s.link l
  if s.linkUp l && !x.transit.isEmpty then s.setLink l { x with marks := x.marks ++ [(code, arg)] } else s.emit .marker l [code, arg]

/-! ### Tunnel frames (R317, R318, R347) -/

/-- A bit-by-bit CRC-32 from a given state over bytes, without final inversion. -/
def crcFrom (init : Nat) (bytes : List Nat) : Nat := bytes.foldl crc32Byte init

/-- Byte i of a frame, and a run of bytes. -/
def fb (l : List Nat) (i : Nat) : Nat := l.getD i 0
def fbs (l : List Nat) (i n : Nat) : List Nat := (List.range n).map fun k => fb l (i + k)

/-- The frame carries a VLAN tag; its TCI, VID, EtherType and the offset of what follows. -/
def tagged (b : List Nat) : Bool := fb b 12 == 0x81 && fb b 13 == 0
def tci (b : List Nat) : Nat := if tagged b then fb b 14 * 256 + fb b 15 else 0
def etype (b : List Nat) : Nat := if tagged b then fb b 16 * 256 + fb b 17 else fb b 12 * 256 + fb b 13
def l3at (b : List Nat) : Nat := if tagged b then 18 else 14

/-- The bytes that the flow hash covers. -/
def flowBytes (b : List Nat) (l3 : Bool) : List Nat :=
  let vid := tci b % 4096
  let o := l3at b
  let base := fbs b 0 12 ++ [vid / 256, vid % 256, etype b / 256, etype b % 256]
  if l3 && etype b == 0x0800 then
    let ports := (fb b (o + 9) == 6 || fb b (o + 9) == 17) && (fb b (o + 6) * 256 + fb b (o + 7)) &&& 0x3FFF == 0
    base ++ fbs b (o + 12) 8 ++ [fb b (o + 9)] ++ (if ports then fbs b (o + 4 * (fb b o % 16)) 4 else [])
  else if l3 && etype b == 0x86DD then
    base ++ fbs b (o + 8) 32 ++ [fb b (o + 6)] ++ (if fb b (o + 6) == 6 || fb b (o + 6) == 17 then fbs b (o + 40) 4 else [])
  else base

/-- Ring A (0) or ring B (2) by the hash H. -/
def State.flowDir (s : State) (b : List Nat) : Nat :=
  let h := s.cfg 0x07050
  if (crcFrom (fld h 31 0) (flowBytes b (bit h 35))).testBit 31 then 2 else 0

/-- Words of a TUNNEL message: TC and colour, then the bytes two to a word (R347). -/
def tunnelWords (f : QFrame) : List Nat :=
  (put 13 3 f.tc + put 11 2 f.colour) :: (List.range ((f.bytes.length + 1) / 2)).map fun i => fb f.bytes (2 * i) * 256 + fb f.bytes (2 * i + 1)

/-- Payload words cut into cells of at most 28. -/
def cutCells : Nat → List Nat → List (List Nat)
  | 0, _ => []
  | n + 1, l => if l.length ≤ 28 then [l] else l.take 28 :: cutCells n (l.drop 28)

/-- A message of several cells in one direction. -/
def State.sendMessage (s : State) (dir kind dest : Nat) (words : List Nat) : State :=
  let cs := cutCells (words.length + 1) words
  cs.zipIdx.foldl (fun s p =>
    let (s, n) := s.nextSeq kind dir
    s.sendDir dir (s.mkCell kind false dest n s.hops (p.2 == 0) (p.2 + 1 == cs.length) p.1)) s

/-- A frame goes to its node by the flow hash, or by the one usable path; with none it is lost (R317, R318). -/
def State.tunnelNow (s : State) (node : Nat) (f : QFrame) : State :=
  match s.usable node with
  | 0 => s.bumpFld 0x07051 0 17 0
  | 1 => s.sendMessage 0 1 (2 * node) (tunnelWords f)
  | 2 => s.sendMessage 2 1 (2 * node) (tunnelWords f)
  | _ => s.sendMessage (s.flowDir f.bytes) 1 (2 * node) (tunnelWords f)

/-- A frame sent to port 50: held while its node waits for REPATH_HOLD. -/
def State.tunnelSend (s : State) (node : Nat) (f : QFrame) : State :=
  if s.ring.repath.contains node then { s with sw.held := s.sw.held ++ [(node, f)] } else s.tunnelNow node f

/-- After the map changed: a path change of a known node starts its hold and loses the frames on a lost path (R318), and the sessions of a node that becomes
unreachable end (R455). -/
def State.repath (s : State) : State :=
  let nodes := (s.muster.roster.map fun p => p.1 / 2).dedup
  nodes.foldl (fun s n =>
    let u := s.usable n + 1
    let was := Tab.get 0 s.ring.paths n
    let s := { s with ring.paths := Tab.set 0 s.ring.paths n u }
    if was = 0 ∨ was = u then s
    else
      let gone k := (was - 1).testBit k && !(u - 1).testBit k
      let s := if gone 0 then s.loseTunnel (dirOut 0) (· == n) else s
      let s := if gone 1 then s.loseTunnel (dirOut 2) (· == n) else s
      let s := if u = 1 then s.endSessions fun x => x.path == 0 && x.source / 2 == n else s
      ({ s with ring.repath := if s.ring.repath.contains n then s.ring.repath else n :: s.ring.repath }.bumpFld 0x07051 0 33 18).fire 148 0) s

/-! ### Syntonisation (R353) -/

/-- The station in whose place the tide master's clock is taken. -/
def State.clockMaster (s : State) : Option Nat :=
  if s.muster.acting then some s.muster.actStation
  else if s.muster.masterKnown then some (fld s.muster.masterClaimw 13 4 * 2 + fld s.muster.masterClaimw 3 3) else none

/-- The path from the tide master to this station along a forward direction has no break. -/
def State.fromMaster (s : State) (dir : Nat) : Bool :=
  match s.clockMaster with
  | none => false
  | some m => ((s.round (dirWrap dir)).takeWhile Prod.snd).any fun p => p.1 == m

/-- The source of R353. -/
def State.syntSource (s : State) : Nat :=
  if s.muster.role = 1 ∨ s.muster.role = 2 then 0
  else if s.linkUp 1 && s.fromMaster 0 then 1
  else if s.linkUp 2 && s.fromMaster 2 then 2
  else 3

/-- SYNTONISATION_SOURCE_CHANGE (R353): RING_SYNT names the link of the new source, AW or BE. -/
def State.syntonise (s : State) : State :=
  let n := s.syntSource
  if n = s.ring.synt then s
  else { s with ring.synt := n, ring.syntChanges := satAdd 16 s.ring.syntChanges 1 }.fire 163 (n % 3)

/-! ### The claim and the partner record (R419 to R421, R426) -/

def claimRole (c : Nat) : Nat := fld c 15 12
def claimEpoch (c : Nat) : Nat := fld c 11 0
def activeClaim (e : Nat) : Nat := 8 * 4096 + min e 4095
def standbyClaim (e : Nat) : Nat := 4 * 4096 + max 1 (min e 4095)

/-- The highest EPOCH held or recorded. -/
def State.seenEpoch (s : State) (c : Nat) : State := { s with pair.highest := max s.pair.highest (claimEpoch c) }

/-- The unit's own claim changes. -/
def State.setClaim (s : State) (c : Nat) : State := { s with pair.claim := c }.seenEpoch c

/-- The claim of a new ACTIVE unit. -/
def State.nextActive (s : State) : Nat := activeClaim (s.pair.highest + 1)

/-- The swap turn of a planned swap has come (R424). -/
def State.swapDue (s : State) : Bool :=
  match s.pair.plan with | some p => p.plan == .swapOut && decide (p.due ≤ s.tide.abs0) | none => false

/-- The partner record takes a value (R418, R421, R423). At the swap turn the record is no contest: the planned change looks at it
next (R424). -/
def State.setRecord (s : State) (v src : Nat) : State :=
  let was := s.pair.record
  let since := if v = 0 ∧ was ≠ 0 then s.bell.tick else s.pair.zeroSince
  let last := if claimRole v = 8 then claimEpoch v else s.pair.lastActive
  let s := { s with pair.record := v, pair.source := src, pair.lastActive := last, pair.zeroSince := since }.seenEpoch v
  let now := s.abs s.tide.off
  let s :=
    match s.pair.state with
    | .standby =>
      if v = 0 then (if was = 0 then s else { s with pair.plan := some ⟨.takeover, s.nextActive, now + 8800⟩ })
      else if claimRole v = 8 then s.setClaim (standbyClaim (claimEpoch v)) else s
    | .active =>
      if v = 0 then
        (match s.pair.plan with
          | some p => if p.plan = Plan.swapOut then { s with pair.plan := none } else s
          | none => s)
      else if s.swapDue = false ∧ claimRole v = 8 ∧ (s.pair.claim < v ∨ (s.pair.claim = v ∧ s.unit = 1)) then
        { s.setClaim (standbyClaim (claimEpoch v)) with pair.state := .standby, pair.resync := true, pair.plan := none }
      else s
    | _ => s
  s.pairBell

/-- The pair link left UP while CLAIM_IN was silent: the partner record is 0 (R426). -/
def State.pairLinkLost (s : State) : State :=
  if s.pair.claimSilent && !s.linkUp 4 && s.pair.record != 0 then s.setRecord 0 0 else s

/-! ### Link states (R348, R349) -/

/-- The report of a link that entered DOWN or UP (R351): broadcast, and taken into the station's own map; what waited for a
ring link that is DOWN is wrapped, and the pair link's loss bears on the partner record (R426). -/
def State.reportLink (s : State) (l : Nat) (up : Bool) : State :=
  let n := (s.ring.reports + 1) % 65536
  let s := { s with ring.reports := n, ring.topo := Tab.set none s.ring.topo (8 * s.station + l) (some (2 * n + if up then 1 else 0)) }
  let s := if up then s else s.wrapWaiting l
  let s := (s.broadcast 6 [putB 15 up + put 12 3 l, n]).repath.syntonise
  if l = 4 then s.pairLinkLost else s

/-- Links that Bell took DOWN are reported (R351). -/
def State.reportTurns (s : State) : State :=
  s.ring.toReport.foldl (fun (s : State) l => s.reportLink l false) { s with ring.toReport := [] }

/-- RING_LINK_DOWN (R348, R349): a link enters DOWN, and sends LINK_FAULT in every free slot from now on; the source fires
where it was UP. -/
def State.linkFall (s : State) (l cause : Nat) : State :=
  let x := s.link l
  let s := ((s.setLink l { x.leave .down with cause := cause }).linkCount l 13).marker l 1 0
  (if x.state = .up then s.fire 160 l cause else s).reportLink l false

/-- Some Bell safe state holds the link (R349, R505): class 10, or a PROTECT link under class 19. -/
def State.linkHeld (s : State) (l : Nat) : Bool :=
  s.bell.fatal || s.classSafe 10 l ||
    (s.protect l && s.bell.srcs.any fun (n, _) => n / 16 == 19 && decide (3 ≤ s.level n))

/-- A link enters SETTLING; RING_SETTLE fires. -/
def State.linkSettle (s : State) (l : Nat) : State :=
  ((s.setLink l ((s.link l).leave .settling)).fire 161 l).repath.syntonise.pairLinkLost

/-- A link enters OFF (R348). -/
def State.linkOff (s : State) (l : Nat) : State :=
  ((s.setLink l ((s.link l).leave .off)).wrapWaiting l).repath.syntonise.pairLinkLost

/-- ENABLE of RING_LINK_CONFIG takes effect (R348); a link that a Bell safe state holds goes on to DOWN, CAUSE BELL (R349). -/
def State.linkEnable (s : State) (l v : Nat) : State :=
  let x := s.link l
  if bit v 35 then
    if x.state = .off then
      let s := s.setLink l (x.leave .settling)
      if s.linkHeld l then s.linkFall l 7 else s
    else s
  else if x.state = .off then s else s.linkOff l

/-- The link enters TRAINING: it sends TRAIN_OK with its PROTECT (R330, R355) and a DELAY_PROBE (R350); with PROTECT 1 it loads
its key (R348, R537). -/
def State.linkTrain (s : State) (l : Nat) : State :=
  let s := ((s.setLink l ((s.link l).leave .training)).marker l 2 (if s.protect l then 1 else 0)).marker l 3 0
  if s.protect l then
    let (s, k) := s.loadKey (fld (s.cfg 0x08005 l) 34 29)
    s.setLink l { s.link l with key := k }
  else s

/-- A link that measured another d than the one in force stays DOWN until muster puts a new d in force (R350). -/
def RLink.delayHeld (x : RLink) : Bool := x.dValid && (x.raw + 31) / 32 != x.d

/-- A DOWN link starts training when its lanes are locked and its hold has passed. -/
def State.linkTryTrain (s : State) (l : Nat) : State :=
  let x := s.link l
  if x.state = .down ∧ x.locked = true ∧ x.holdDone = true ∧ x.delayHeld = false ∧ s.linkHeld l = false then
    s.linkTrain l
  else s

/-- Failed cells in the window of R349, which take the link DOWN at CHECK_LIMIT. -/
def State.checkFail (s : State) (l : Nat) : State :=
  let s := (s.linkCount l 4).fire 176 l
  let x := s.link l
  let w := (s.abs s.tide.off - x.upAt) / 36864
  let n := if w = x.window then x.fails + 1 else 1
  let s := s.setLink l { x with window := w, fails := n }
  if fld (s.cfg 0x08000 l) 7 0 ≤ n ∧ s.linkUp l = true then s.linkFall l 2 else s

/-! ### Departures (R341) -/

/-- A staged cell departs on a link, or is suppressed; a pair unit whose claim is 0 sends none on a ring link (R434). -/
def State.depart (s : State) (l stream : Nat) (w : List Word) (place : List Nat) : State :=
  if s.linkSched l && !(l != 4 && s.paired && s.pair.claim == 0) then
    (s.cellOut l w (cellCtx s.node stream s.time.F) place).linkCount l 0
  else s.linkCount l 5

/-- BEAT and SLOT of a cell stroke (R93). -/
def Desc.place (d : Desc) : List Nat := [fld d.b 40 19, fld d.b 18 16]

/-! ### Receive slots (R336, R337) -/

/-- A cell of a slot's stream that passed its check (R336); of two copies in one cycle the one on the lower link is kept
(R360). -/
def State.keepCell (s : State) (l n seq : Nat) (w : List Word) : State :=
  let x := s.rxSlot n
  let ready := s.abs s.tide.off + 8
  let set (s : State) (x : RxSlot) : State := { s with ring.rx := Tab.set RxSlot.blank s.ring.rx n x }
  let δ := (seq + 2 ^ 18 - x.h) % 2 ^ 18
  if !x.valid || (decide (1 ≤ δ) && decide (δ ≤ 261120)) then
    (set s { words := w, h := seq, valid := true, link := l, ready := ready, oldWords := x.words, oldH := x.h, oldValid := x.valid }).bump 0x08008 0
  else
    let s := if δ = 0 ∧ x.ready = ready ∧ l < x.link then set s { x with words := w, link := l } else s
    s.bump 0x08008 1

/-- The words of a receive slot as a stroke of fabric tide f delivers them now (R336, R337). -/
def State.rxDeliver (s : State) (n f : Nat) : State × List Word :=
  let x := s.rxSlot n
  let (words, h, valid) := if x.ready ≤ s.abs s.tide.off then (x.words, x.h, x.valid) else (x.oldWords, x.oldH, x.oldValid)
  if valid && h == f % 2 ^ 18 then (s, words)
  else (s.bump 0x08008 2, words.map fun w => worsen w qHeld)

/-! ### The ring plan (R338, R339) -/

/-- A slot record. -/
structure SlotRec where
  link : Nat
  action : Nat
  stream : Nat
  src : Nat
  slot : Nat
  beat : Nat
  tsel : Nat
  deriving DecidableEq, Repr

/-- Slot records and receive records (stream, source, receive slot) of a RING_PLAN section. -/
def planSlots (l : List Word) : List SlotRec :=
  (List.range (sec36 l 0)).map fun i =>
    let w k := (l.getD (8 + 4 * i + k) 0).toNat
    { link := fld (w 0) 17 15, action := fld (w 0) 14 12, stream := fld (w 0) 11 0, src := fld (w 1) 17 8,
      slot := fld (w 1) 7 5, beat := w 2 * 16 + fld (w 3) 17 14, tsel := fld (w 3) 13 3 }
def planRx (l : List Word) : List (Nat × Nat × Nat) :=
  (List.range (sec36 l 2)).map fun i =>
    let w k := (l.getD (8 + 4 * sec36 l 0 + 3 * i + k) 0).toNat
    (fld (w 0) 17 6, fld (w 1) 17 8, fld (w 2) 17 6)

/-- The record that a slot of a receive link matches in this tide index (R342). -/
def State.slotRec (s : State) (l beat slot : Nat) : Option SlotRec :=
  if !s.tableRuns then none
  else (planSlots (s.sect 7)).find? fun r =>
    r.beat == beat && r.slot == slot && tselRuns r.tsel s.tide.index
    && (((r.action == 2 || r.action == 3) && l != 4 && r.link == onward l) || ((r.action == 4 || r.action == 5) && r.link == l))

/-- The receive slot of a stream. -/
def State.rxOf (s : State) (src stream : Nat) : Option Nat :=
  ((planRx (s.sect 7)).find? fun r => r.1 == stream && r.2.1 == src).map fun r => r.2.2

/-- Receive slots whose mapping a swap changes hold 0x3_0000 again (R337). -/
def State.rxSwap (s : State) (old new : List Word) : State :=
  let o := planRx old
  let n := planRx new
  let slots := ((o ++ n).map fun r => r.2.2).dedup
  slots.foldl (fun s k =>
    if o.find? (fun r => r.2.2 == k) = n.find? (fun r => r.2.2 == k) then s
    else { s with ring.rx := Tab.set RxSlot.blank s.ring.rx k RxSlot.blank }) s

/-- A record's cell takes a slot of its transmit link: it is sent, or passes. -/
def SlotRec.takes (r : SlotRec) : Bool := r.action == 1 || r.action == 2 || r.action == 3

/-- The ring plan of the running table gives a slot of link l to a scheduled cell in this tide (R339). -/
def State.slotPlanned (s : State) (l b k : Nat) : Bool :=
  s.tableRuns && (planSlots (s.sect 7)).any fun r =>
    r.takes && r.link == l && r.beat == b && r.slot == k && tselRuns r.tsel s.tide.index

/-! ### Passing unscheduled cells (R343, R346, R352) -/

/-- The offset at which a slot of a link's grid starts (R60). -/
def State.slotOffset (s : State) (l beat slot : Nat) : Nat := 36 * beat + s.gridPhase l + 36 * slot / 5

/-- A slot of a transmit link is left to markers and passing cells: no scheduled cell has it, nor in an urgent slot an access
that the ledger grants it to (R66, R72, R343). -/
def State.slotFree (s : State) (l beat slot : Nat) : Bool :=
  !s.slotPlanned l beat slot &&
    !(beat % 32 == 31 && slot == 4 &&
      (s.cands (if l = 4 then 15 else 14) (if l = 4 then 0 else l) (s.slotOffset l beat slot)).any fun x => s.withinQuota x.cls x.acc)

/-- An unscheduled cell goes on in a direction, in its slot when that is free and nothing waits. -/
def State.passOn (s : State) (l : Nat) (w : List Word) (free : Bool) : State :=
  if free && s.linkUp l && (s.link l).transit.isEmpty then s.unschedOut l w else s.transitPut l w

/-- The cell with HOPS one lower. -/
def lessHop (w : List Word) : List Word := w.set 3 ((w.getD 3 0) - 0x40)

/-- The header of an unscheduled cell has a reserved KIND, or a nonzero reserved field (R344, R345); KIND 8 is of the pair link
only, and the pair link carries KIND 7 and 8 only (R358). -/
def headerReserved (l : Nat) (w : Nat → Nat) : Bool :=
  let kind := fld (w 0) 17 14
  kind == 0 || decide (8 < kind) || (if l = 4 then decide (kind < 7) else kind == 8)
  || bit (w 0) 0 || decide (27 < fld (w 1) 6 2) || fld (w 1) 1 0 != 0 || fld (w 3) 3 0 != 0

/-- A cell dropped for a reserved value: it counts in the link's RESERVED and fires CELL_RESERVED (R19, R345, R358). -/
def State.dropReserved (s : State) (l : Nat) : State := (s.linkCount l 10).fire 179 l

/-- An unscheduled cell arrives for a slot of the onward link (R345, R346); the commands of its KIND deliver it. A wrapped one
goes back by the cable it came (R352). No cell that crosses the pair link is forwarded (R358). -/
def State.unplannedIn (s : State) (l : Nat) (cell : List Word) (check beat slot : Nat) : State :=
  let ok := cellCheck 0 cell == check
  let s := s.cellIn l cell check ok
  let w k := (cell.getD k 0).toNat
  let dest := 2 * fld (w 0) 10 1 + fld (w 0) 11 11
  let src := 2 * fld (w 1) 17 8 + fld (w 1) 7 7
  let wrapped := bit (w 0) 13
  if !ok then s.checkFail l
  else
    let s := s.linkCount l 3
    if headerReserved l w then s.dropReserved l
    else if l = 4 then s
    else if !bit (w 0) 12 && dest == s.station then s
    else if bit (w 0) 12 && src == s.station && !wrapped then s
    else if fld (w 3) 17 6 ≤ 1 then s.linkCount l 8
    else
      let c := lessHop cell
      let out := onward l
      if s.linkTakes out then s.passOn out c (s.slotFree out beat slot)
      else if wrapped then s.linkCount out 9
      else (s.countWrap out).passOn l (setWrapped c) (s.slotFree l beat slot)

/-- A cell arrives in a slot that a PASS or END record names (R342). -/
def State.plannedIn (s : State) (l : Nat) (cell : List Word) (check beat slot : Nat) (r : SlotRec) : State :=
  let seq := s.time.F % 2 ^ 18
  let ctx := cellCtx r.src r.stream seq
  let ok := cellCheck ctx cell == check
  let s := s.cellIn l cell check ok
  let keeps := r.action = 3 ∨ r.action = 4
  if !ok then
    let s := s.checkFail l
    if keeps then s.bump 0x08008 3 else s
  else
    let s := s.linkCount l 1
    let s := if keeps then (match s.rxOf r.src r.stream with | some n => s.keepCell l n seq cell | none => s) else s
    if r.action = 2 ∨ r.action = 3 then
      if s.linkSched (onward l) then (s.cellOut (onward l) cell ctx [beat, slot]).linkCount (onward l) 0
      else s.linkCount (onward l) 6
    else s

/-- A slot with a data block 0 arrives on a link, from a beat and slot of the far end's grid (R342): the ring plan says whether
its cell is a scheduled one. -/
def State.cellArrives (s : State) (l : Nat) (cell : List Word) (check beat slot : Nat) : State :=
  if cell.length ≠ 32 ∨ s.linkUp l = false then s
  else
    let (w, c) := s.opened l cell check
    let b := s.hereBeat l beat
    match s.slotRec l b slot with
    | some r => s.plannedIn l w c b slot r
    | none => s.unplannedIn l w c b slot

/-- A slot of a link that no scheduled cell and no ledger grant has: a pending marker takes it, then the head of the transit
buffer (R66, R343). -/
def State.slotServes (s : State) (l beat slot : Nat) : State :=
  let x := s.link l
  if !(s.linkUp l && s.slotFree l beat slot) then s
  else match x.marks with
    | (code, arg) :: rest => (s.setLink l { x with marks := rest }).emit .marker l [code, arg]
    | [] => match x.transit with
      | w :: rest => (s.setLink l { x with transit := rest }).unschedOut l w
      | [] => s

/-! ### The ROSTER entry (R364, R371) -/

/-- This station's CLAIMW (R364). -/
def State.ownClaim (s : State) : Nat := put 14 4 (fld (s.cfg 0x08010) 35 32) + put 4 10 s.node + put 3 1 s.unit

/-- This station's ROSTER entry. -/
def State.ownEntry (s : State) : RosterEnt :=
  { claimw := s.ownClaim, west := s.muster.west,
    d := (List.range 4).map fun l => if (s.link l).dValid then some (s.link l).d else none }

/-- The station's ROSTER entry leaves. -/
def State.sendRoster (s : State) : State :=
  let e := s.ownEntry
  let west := match e.west with | some w => put 8 10 (w / 2) + put 7 1 (w % 2) + put 6 1 1 | none => 0
  let s := { s with muster.roster := Tab.set none s.muster.roster s.station (some e),
                    muster.rosterDue := false, muster.rosterTick := s.bell.tick + 1 }
  s.broadcast 3 ([put 14 4 4, e.claimw, west] ++ e.d.map (fun d => match d with | some n => put 17 1 1 + put 0 17 n | none => 0) ++ [s.muster.epoch])

/-- A ROSTER entry may leave: the shepherd cores run, and a station in OUT sends none (R31, R363). -/
def State.rosterMay (s : State) : Bool := s.dict.shepherds && s.muster.state != .out

/-- At most one ROSTER entry in any 3,125 sc (R371); one that must wait leaves at a later tick. -/
def State.wantRoster (s : State) : State :=
  if s.rosterMay && (s.muster.rosterTick == 0 || decide (s.muster.rosterTick < s.bell.tick)) then s.sendRoster
  else { s with muster.rosterDue := true }

/-! ### Markers and training (R330, R348 to R350) -/

/-- LINK_FAULT (R349): four in consecutive free slots take an UP link DOWN. -/
def execLinkFault (l : Fin 5) (s : State) : Host.Outcome State Fault Refusal :=
  let x := s.link l
  .next (match x.state with
    | .off | .settling => s
    | _ =>
      let s1 := s.setLink l { x with faultRx := true, faultRun := min 4 (x.faultRun + 1), trainRun := 0 }
      if x.state = .up ∧ 4 ≤ x.faultRun + 1 then s1.linkFall l 3 else s1)

/-- TRAIN_OK (R348): a run with equal PROTECT. -/
def execTrainOk (l : Fin 5) (protect : Bool) (s : State) : Host.Outcome State Fault Refusal :=
  let x := s.link l
  .next (match x.state with
    | .off | .settling => s
    | _ =>
      let run := if x.trainProtect = protect then min 16 (x.trainRun + 1) else 1
      s.setLink l { x with trainRun := run, trainProtect := protect, faultRx := false, faultRun := 0 })

/-- A free slot with another marker ends the runs of LINK_FAULT and of TRAIN_OK (R348, R349, R362). -/
def RLink.breakRuns (x : RLink) : RLink := { x with faultRx := false, faultRun := 0, trainRun := 0 }

/-- DELAY_PROBE (R350): answered with DELAY_ECHO. -/
def execDelayProbe (l : Fin 5) (ta : Nat) (s : State) : Host.Outcome State Fault Refusal :=
  .next (match (s.link l).state with
    | .off | .settling => s
    | _ => (s.setLink l ((s.link l).breakRuns)).marker l 4 (ta % 65536))

/-- DELAY_ECHO (R350, R370, R371): the first d after a SET comes into force, and the ROSTER entry leaves; another one keeps the
link DOWN. Before the first SET no d is in force. -/
def execDelayEcho (l : Fin 5) (ta rt : Nat) (s : State) : Host.Outcome State Fault Refusal :=
  let s := match (s.link l).state with
    | .off | .settling => s
    | _ => s.setLink l { (s.link l).breakRuns with raw := rt - ta }
  let x := s.link l
  let d := (rt - ta + 31) / 32
  .next (match x.state with
    | .off | .settling => s
    | _ =>
      if !x.dValid then (if s.muster.epoch = 0 then s else (s.setLink l { x with dValid := true, d := d }).wantRoster)
      else if x.d = d then s
      else if x.state = .down then s.setLink l { x with cause := 6 }
      else s.linkFall l 6)

/-- RING_LINK_SETTLE_DONE (R348). -/
def execRingLinkSettleDone (l : Fin 5) (s : State) : Host.Outcome State Fault Refusal :=
  let x := s.link l
  .next (if x.state = .settling ∧ s.power.state = .full ∧ s.supplyUp 3 = true ∧ s.supplyUp 4 = true then
      let s := s.linkTrain l
      s.setLink l { s.link l with locked := false }
    else s)

/-- RING_LINK_TRAINED (R348): 16 TRAIN_OK with this end's PROTECT, and no measured d other than the one in force (R350); UP
from the next turn. -/
def execRingLinkTrained (l : Fin 5) (polarity : Fin 16) (swapped : Bool) (s : State) : Host.Outcome State Fault Refusal :=
  let x := s.link l
  .next (if x.state = .training ∧ x.delayHeld = false ∧ 16 ≤ x.trainRun ∧ x.trainProtect = s.protect l ∧ (s.protect l = true → x.key.isSome = true) then
      s.setLink l { x with trained := true, polarity := polarity, swapped := swapped, locked := true }
    else s)

/-- RING_TRAINING_TIMEOUT (R348, R355), also of a link whose turn to come UP has not come: CAUSE AUTH where the ends' PROTECT differ or no key is loaded
(R537), else SKEW. -/
def execRingTrainingTimeout (l : Fin 5) (s : State) : Host.Outcome State Fault Refusal :=
  let x := s.link l
  .next (if x.state = .training then
      s.linkFall l (if (x.trainRun ≠ 0 ∧ x.trainProtect ≠ s.protect l) ∨ (s.protect l = true ∧ x.key = none) then 4 else 5)
    else s)

/-- RING_BLOCK_LOCK_LOST (R349). -/
def execRingBlockLockLost (l : Fin 5) (s : State) : Host.Outcome State Fault Refusal :=
  let x := s.link l
  let s1 := s.setLink l { x with locked := false, trained := false }
  .next (if x.state = .up then s1.linkFall l 1 else s1)

/-- RING_BLOCK_LOCK_ACQUIRED (R348). -/
def execRingBlockLockAcquired (l : Fin 5) (s : State) : Host.Outcome State Fault Refusal :=
  .next ((s.setLink l { s.link l with locked := true }).linkTryTrain l)

/-- The link's lanes lose their PLL or their supply (R348, R598). -/
def State.laneLost (s : State) (l : Nat) : State :=
  match (s.link l).state with
  | .up | .training => s.linkSettle l
  | .down => if s.linkHeld l then s else s.linkSettle l
  | _ => s

/-- RING_LANE_PLL_LOSS (R348, R354). -/
def execRingLanePllLoss (l : Fin 5) (s : State) : Host.Outcome State Fault Refusal := .next (s.laneLost l)

/-- RETRAIN_HOLD_EXPIRY (R348). -/
def execRetrainHoldExpiry (l : Fin 5) (s : State) : Host.Outcome State Fault Refusal :=
  .next (if (s.link l).state = .down ∧ s.linkHeld l = false then
      (s.setLink l { s.link l with holdDone := true }).linkTryTrain l
    else s)

/-- RING_HALT (R348). -/
def execRingHalt (l : Fin 5) (s : State) : Host.Outcome State Fault Refusal :=
  .next (if (s.link l).state = .off then s.abort 0x08002 7 else s.linkOff l)

/-- RING_CALIBRATE (R348): a link that Bell holds stays DOWN (R349). -/
def execRingCalibrate (l : Fin 5) (s : State) : Host.Outcome State Fault Refusal :=
  .next (match (s.link l).state with
    | .training | .up => s.linkSettle l
    | .down => if s.linkHeld l then s else s.linkSettle l
    | _ => s.abort 0x08002 7)

/-- RETRAIN (R348). -/
def State.retrainOp (s : State) (l : Nat) : State := (s.setLink l ((s.link l).leave .settling)).repath.syntonise.pairLinkLost

/-- RETRAIN (R348). -/
def execRetrain (l : Fin 5) (s : State) : Host.Outcome State Fault Refusal :=
  .next (match (s.link l).state with
    | .up => s.retrainOp l
    | .down => if s.linkHeld l then s else s.retrainOp l
    | _ => s.abort 0x08002 7)

/-! ### Reports, tunnel cells, protection (R347, R351, R355 to R357) -/

/-- A 16-bit report counter is newer than another. -/
def newer16 (a b : Nat) : Bool := let δ := (a + 65536 - b) % 65536; decide (1 ≤ δ) && decide (δ < 32768)

/-- TOPOLOGY (R351): the newest report of a station and link is kept. -/
def execTopology (st : Fin 2048) (l : Fin 5) (up : Bool) (counter : Nat) (s : State) : Host.Outcome State Fault Refusal :=
  let k := 8 * st.val + l.val
  let fresh := match Tab.get none s.ring.topo k with
    | none => true
    | some v => newer16 (counter % 65536) (v / 2)
  .next (if fresh && st.val != s.station then
      ({ s with ring.topo := Tab.set none s.ring.topo k (some (2 * (counter % 65536) + if up then 1 else 0)) }.repath).syntonise
    else s)

/-- An AUTH event on a link that is UP (R357): CAUSE AUTH, before the safe state that the firing brings (R349). -/
def State.authEvent (s : State) (l tide : Nat) : State :=
  (s.linkFall l 4).fire 162 l tide

/-- The message at the head of the seals, when it is of a tide. -/
def SealMsg.tagOk (m : SealMsg) (k iv tag : Nat) : Bool := Config.gcmTag k iv m.bytes == tag

/-- SEAL (R357): the tag of a tide's message, checked against the cells received. -/
def execSeal (l : Fin 5) (tag tide : Nat) (s : State) : Host.Outcome State Fault Refusal :=
  let x := s.link l
  .next (if !s.protect l || !s.linkUp l then s
    else
      let iv := gcmIv (s.farEnd l).1 (s.farEnd l).2 tide
      let m := (x.seals.find? fun m => m.tide == tide).getD ⟨tide, [], false⟩
      let s := s.setLink l { x with seals := x.seals.filter fun m => decide (tide < m.tide) }
      match x.key with
      | none => s.authEvent l tide
      | some k =>
        if m.tagOk k iv tag then s
        else if m.failed then s.linkCount l 11
        else s.authEvent l tide)

/-- No SEAL has come for SEAL_LIMIT tides: the oldest message of cells is as old, or no cell has come at all (R357). -/
def RLink.sealLate (x : RLink) (limit f : Nat) : Bool := match x.seals with | [] => true | m :: _ => decide (m.tide + limit ≤ f)

/-- SEAL_LIMIT_EXPIRY (R357). -/
def execSealLimitExpiry (l : Fin 5) (s : State) : Host.Outcome State Fault Refusal :=
  let x := s.link l
  .next (if s.protect l && s.linkUp l && x.sealLate (fld (s.cfg 0x08005 l) 25 23) s.time.F then
      s.authEvent l ((x.seals.head?.map SealMsg.tide).getD 0)
    else s)

/-- A slot whose block 0 is a data block counts as a cell of the tide's message (R356): one that failed, of bits that the
command leaves open. -/
def State.badCellIn (s : State) (l : Nat) : State :=
  if s.protect l then
    let (s, v) := s.draw
    s.cellIn l ((List.range 32).map fun j => BitVec.ofNat 18 (v / 2 ^ (18 * j))) (v / 2 ^ 576) false
  else s

/-- MALFORMED_SLOT (R331): a malformed cell of an UP link counts in CHECK_FAIL; a reserved marker counts in RESERVED in
TRAINING, DOWN and UP, in which markers are acted on (R342). -/
def execMalformedSlot (l : Fin 5) (data : Bool) (s : State) : Host.Outcome State Fault Refusal :=
  .next (match (s.link l).state with
    | .off | .settling => s
    | .up => if data then (s.badCellIn l).linkCount l 4 else (s.setLink l (s.link l).breakRuns).dropReserved l
    | _ => if data then s else (s.setLink l (s.link l).breakRuns).dropReserved l)

/-- Where a dropped cell counts: MUSTER and TIDE cells in MUSTER_COUNTS/7 (R364), TIME cells in TIME_COUNTS/7 (R400), PAIR
cells in PAIR_COUNTS/8 (R428), every other cell, and any with a reserved header, in the link's RESERVED (R345). -/
def State.countReserved (s : State) (l : Nat) (w : Nat → Nat) : State :=
  if headerReserved l w then s.linkCount l 10
  else match fld (w 0) 17 14 with
    | 3 | 4 => s.bump 0x08017 7
    | 5 => s.bump 0x09016 7
    | 8 => s.bump 0x0A008 8
    | _ => s.linkCount l 10

/-- RESERVED_CELL (R345, R358, R364, R400, R428): an unscheduled cell with a reserved KIND, TYPE or field arrives on a link. -/
def execReservedCell (l : Fin 5) (cell : List Word) (check : Fin 256) (s : State) : Host.Outcome State Fault Refusal :=
  .next (if cell.length ≠ 32 then s
    else if !s.linkUp l then s
    else
      let (cell, check) := s.opened l cell check
      let ok := cellCheck 0 cell == check
      let s := s.cellIn l cell check ok
      if ok then ((s.linkCount l 3).countReserved l fun k => (cell.getD k 0).toNat).fire 179 l else s.checkFail l)

/-! ### The turn of the links -/

/-- The SEAL of a tide's message leaves on its link (R356), under the key in force; a link whose copy was zeroed
enters DOWN with CAUSE AUTH (R550). -/
def State.sealTurn (s : State) (l : Nat) : State :=
  let x := s.link l
  if !s.protect l || x.state != .up then s
  else
    match x.key with
    | none => s.linkFall l 4
    | some keyValue =>
      let tag := Config.gcmTag keyValue (gcmIv s.station l s.time.F) x.sent
      let pay := (List.range 8).map (fun i => fld tag (127 - 16 * i) (112 - 16 * i))
        ++ (List.range 4).map (fun i => fld s.time.F (63 - 16 * i) (48 - 16 * i))
      let s := s.setLink l { x with sent := [] }
      let (s, n) := s.nextSeq 7 (if l = 4 then 0 else txDir l)
      s.ownOut 5 l (s.mkCell 7 true 0 n 1 true true pay)

/-- Phases that come into force at the turn (R372). -/
def State.phaseTurn (s : State) (l : Nat) : State :=
  let x := s.link l
  match x.phaseNext with
  | some p => s.setLink l { x with phase := p, phaseValid := true, phaseNext := none }
  | none => s

/-- RING_LINK_STATE, RING_DELAY, RING_TRANSIT, RING_RX_SLOT, RING_TOPO and RING_SYNT as read (R362). -/
def State.linkStateWord (s : State) (l : Nat) : Nat :=
  let x := s.link l
  let code : Nat := match x.state with | .off => 0 | .settling => 1 | .training => 2 | .up => 3 | .down => 4
  put 15 3 code + put 12 3 x.cause + put 8 4 x.polarity + putB 7 x.swapped + putB 6 x.faultRx
def State.delayWord (s : State) (l : Nat) : Nat :=
  let x := s.link l
  if x.dValid && (x.phaseValid || l == 4) then put 35 1 1 + put 6 18 x.d + put 0 6 x.phase else put 6 18 x.d
def State.transitWord (s : State) (l : Nat) : Nat := put 11 7 (s.link l).transit.length + put 4 7 (s.link l).peak
def State.rxSlotWord (s : State) (n : Nat) : Nat :=
  let x := s.rxSlot n
  put 18 18 x.h + putB 17 x.valid + put 14 3 x.link
/-- A map that holds no station yet is not INTACT: the entry's default is 0. -/
def State.topoWord (s : State) (dir : Nat) : Nat :=
  let r := s.round dir
  let n := r.countP fun p => !p.2
  let before := s.station :: r.map Prod.fst
  let i := r.findIdx fun p => !p.2
  let b := if n = 0 then 0 else before.getD i 0
  putB 35 (n == 0 && !r.isEmpty) + put 25 10 (b / 2) + put 24 1 (b % 2) + put 12 12 n
def State.syntWord (s : State) : Nat := put 16 2 s.ring.synt + put 0 16 s.ring.syntChanges

end Sys2Proof.Machine
end

