-- ==== Sys2Proof/Machine/Switch.lean ====
section
/-! DEFINITION. Ethernet ports and the switch core (chapter 10): reception, classification, meters, forwarding,
admission, scheduled and best-effort transmission, sessions and port states. -/

namespace Sys2Proof.Machine

/-! ### Ports, queues and the buffer -/

def Port.blank : Port := { state := .off, faultSent := false, faultSeen := false, ampl := 0, busy := 0 }
def State.port (s : State) (p : Nat) : Port := Tab.get Port.blank s.sw.ports p
def State.setPort (s : State) (p : Nat) (x : Port) : State := { s with sw.ports := Tab.set Port.blank s.sw.ports p x }

/-- PORT_CONFIG in force and its fields (R324). -/
def State.portCfg (s : State) (p : Nat) : Nat := s.cfg 0x07000 p
def portMode (v : Nat) : Nat := fld v 34 32
def portPvid (v : Nat) : Nat := fld v 28 17
def portMax (v : Nat) : Nat := fld v 13 0

/-- The speed or mode that a port runs in: port 48 in mode 0 takes the speed that in-band status gave at link up (R298,
R302). -/
def State.portRate (s : State) (p : Nat) : Nat :=
  let m := portMode (s.portCfg p)
  if p = 48 ∧ m = 0 then (s.port p).ampl + 1 else m

/-- A count of PORT_COUNTS. -/
def State.portCount (s : State) (p k : Nat) : State := if p < 49 then s.bump 0x07003 (16 * p + k) else s

/-- The best-effort queue of port p and class tc. -/
def State.bq (s : State) (p tc : Nat) : List QFrame := Tab.get [] s.sw.queues (8 * p + tc)
def State.setBq (s : State) (p tc : Nat) (l : List QFrame) : State :=
  { s with sw.queues := Tab.set [] s.sw.queues (8 * p + tc) l }

/-- Cells of a frame of these bytes, FCS included. -/
def frameCells (b : List Nat) : Nat := (b.length + 4 + 255) / 256

/-- Cells that a list of stored frames refers to, one copy once. -/
def copyCells (l : List QFrame) : Nat :=
  (l.foldl (fun (acc : List Nat × Nat) f =>
    if acc.1.contains f.copy then acc else (f.copy :: acc.1, acc.2 + frameCells f.bytes)) ([], 0)).2

/-- Shared cells free now: 65,536 less the 384 of the scheduled queues and less the stored copies (R315). -/
def State.freeCells (s : State) : Nat := 65152 - copyCells (s.sw.queues.flatMap Prod.snd)

/-- The fewest free cells so far. -/
def State.noteFree (s : State) : State :=
  { s with sw.lowFree := min s.sw.lowFree s.freeCells }

def State.schedQ (s : State) (p : Nat) : List SchedFrame := Tab.get [] s.sw.sched p
def State.setSchedQ (s : State) (p : Nat) (l : List SchedFrame) : State :=
  { s with sw.sched := Tab.set [] s.sw.sched p l }

/-! ### Wire time (R67) -/

/-- Tenths of a wc for one byte by port and mode. -/
def tau10 (p mode : Nat) : Nat :=
  if p < 16 then (match mode with | 0 => 100 | 1 => 40 | 2 => 10 | _ => 4)
  else if p < 48 then 10000
  else match mode with | 1 => 10000 | 2 => 1000 | _ => 100

/-- Wire time of B bytes, destination address through FCS, with preamble and gap. -/
def wireTime (p mode b : Nat) : Nat := ((b + 20) * tau10 p mode + 9) / 10

/-- From the first preamble bit to the last FCS bit, and to the first bit of the destination address. -/
def wireBits (p mode b : Nat) : Nat := ((b + 8) * tau10 p mode + 9) / 10
def wireAddr (p mode : Nat) : Nat := (8 * tau10 p mode + 9) / 10

/-- The FCS that a port appends (R304): the CRC-32 of IEEE 802.3, its lowest byte first (log 136). -/
def withFcs (b : List Nat) : List Nat := let c := crc32 b; b ++ [c % 256, c / 2 ^ 8 % 256, c / 2 ^ 16 % 256, c / 2 ^ 24]

/-- Records of FRAME_PLAN (R307) of a port: TSEL, T_TX and B. -/
def planFrames (l : List Word) (p : Nat) : List (Nat × Nat × Nat) :=
  (List.range (fld (l.getD 0 0).toNat 15 0)).filterMap fun i =>
    let w k := (l.getD (1 + 6 * i + k) 0).toNat
    if fld (w 0) 5 0 = p then some (fld (w 1) 10 0, w 2 * 2 ^ 18 + w 3, fld (w 4) 7 0) else none

/-- The t_tx of a table's records on a port (R307): of strokes that start in its tides 0 to n − 1 from index `first` on, the
first of which begins at work cycle `at_`. -/
def planTimes (l : List Word) (p period spring first at_ n : Nat) : List Nat :=
  (planFrames l p).flatMap fun (tsel, t, _) =>
    (List.range n).filterMap fun k => if tselRuns tsel ((first + k) % spring) then some (at_ + k * period + t) else none

/-- The next t_tx of a port after work cycle `now` (R67): of the frames in its scheduled queue, of the strokes that the active
table still starts, which are those of this tide alone where it gives way to a COMMITTED table, and of that table's. -/
def State.nextTx (s : State) (p now : Nat) : Option Nat :=
  let queued := (s.schedQ p).map SchedFrame.at_
  let ends := s.table.stage == .committed
  let running := if s.tableRuns && s.tide.spring != 0 then
      planTimes (s.sect 8) p s.tide.period s.tide.spring s.tide.index s.tide.abs0 (if ends then 1 else s.tide.spring + 1)
    else []
  let coming := if ends && s.tideRuns && s.stagingHalf.spring != 0 then
      planTimes (((s.stagingHalf.sects.find? (·.1 == 8)).map Prod.snd).getD []) p s.stagingHalf.period s.stagingHalf.spring 0
        (s.abs s.tideP) (s.stagingHalf.spring + 1)
    else []
  ((queued ++ running ++ coming).filter fun t => decide (now < t)).foldl (fun m t => match m with
    | none => some t
    | some u => some (min t u)) none

/-! ### Frame records (R309) -/

/-- A frame record with `c` bytes carried, its stamp `t` with the quality it had (R309). -/
def frameRec (b : List Nat) (port dir tc colour t c : Nat) : List Word :=
  ([b.length % 16384, put 8 8 port + put 7 1 dir + put 4 3 tc + put 2 2 colour].map fun n => mkW qGood n)
  ++ (timeWords (fld t 111 0) (fld t 113 112)).map (BitVec.ofNat 18) ++ [0]
  ++ (List.range ((c + 1) / 2)).map fun i => mkW qGood (fb b (2 * i) * 256 + (if 2 * i + 1 < c then fb b (2 * i + 1) else 0))

/-- A record written to a pen through class FRAME; whether it was lost, to an overflow or to a class that Bell holds
(R497). -/
def State.recToPen (s : State) (p : Nat) (ws : List Word) : State × Bool :=
  if s.classSafe 2 5 then (s, true)
  else (s.enterPen 5 p ws.length true).penPacketIn p ws

/-! ### Admission (R315, R316) -/

/-- The average of a queue after it is looked at: 19 bits of fraction. -/
def avgStep (avg q w : Nat) : Nat := ((avg : Int) + ((q * 2 ^ 19 : Int) - (avg : Int)) / (2 ^ w : Int)).toNat

/-- Early drop (R315): whether the frame is admitted. -/
def State.redAdmit (s : State) (p tc colour : Nat) : State × Bool :=
  let sel := s.cfg 0x07025 p
  let prof := s.cfg 0x07024 (match colour with | 0 => fld sel 11 8 | 1 => fld sel 7 4 | _ => fld sel 3 0)
  let mn := fld prof 35 22
  let mx := fld prof 21 8
  let avg := avgStep (Tab.get 0 s.sw.avg (8 * p + tc)) (copyCells (s.bq p tc)) (fld (s.cfg 0x07010) 35 32)
  let s := { s with sw.avg := Tab.set 0 s.sw.avg (8 * p + tc) avg }
  if mx = 0 then (s, true)
  else if avg < 4 * mn * 2 ^ 19 then (s, true)
  else if 4 * mx * 2 ^ 19 ≤ avg then (s, false)
  else
    let (s, r) := s.draw
    let pr := fld prof 7 0 * (avg - 4 * mn * 2 ^ 19) / ((4 * mx - 4 * mn) * 2 ^ 19)
    (s, !decide (r % 256 < pr))

/-- The first DROP_FULL of a tide fires SWITCH_BUFFER_FULL (R323). -/
def State.noteFull (s : State) (ingress : Nat) : State :=
  let s := s.portCount ingress 9
  if s.sw.fullSeen then s else { s with sw.fullSeen := true }.fire 147 ingress

/-- Best-effort frames enter the port's queues (R302, R320). -/
def State.portTakes (s : State) (p : Nat) : Bool :=
  match (s.port p).state with | .settling | .up => true | _ => false

/-- A stored frame enters an egress queue, or is dropped there; whether it entered. -/
def State.enqueue (s : State) (p : Nat) (f : QFrame) : State × Bool :=
  if !s.portTakes p then (s.portCount p 12, false)
  else
    let (s, ok) := s.redAdmit p f.tc f.colour
    if ok then ((s.setBq p f.tc (s.bq p f.tc ++ [f])).noteFree, true) else (s.portCount p 8, false)

/-- A copy for a frame: its number. -/
def State.newCopy (s : State) (f : QFrame) : State × QFrame :=
  ({ s with sw.nextCopy := s.sw.nextCopy + 1 }, { f with copy := s.sw.nextCopy })

/-! ### Sessions (R319) -/

/-- A session's entry and its fields. -/
def State.sess (s : State) (k : Nat) : Nat := s.cfg 0x07060 k

/-- A mirror copy enters queue TC 0 of DEST with colour RED. A copy dropped under R315 counts in MIRROR_DROP; one for a port
that takes none counts in DROP_LINK alone (R302, R320). -/
def State.mirror (s : State) (k : Nat) (f : QFrame) : State :=
  let dest := fld (s.sess k) 23 18
  if s.freeCells < frameCells f.bytes then s.portCount dest 11
  else
    let (s, g) := s.newCopy { f with tc := 0, colour := 2, mirrored := true }
    match s.enqueue dest g with
    | (s, true) => s.bump 0x07062 k
    | (s, false) => if s.portTakes dest then s.portCount dest 11 else s

/-- A sample session counts its frame and writes every N-th; a count that stands past an N set lower writes the next. -/
def State.sample (s : State) (k : Nat) (f : QFrame) (port dir t : Nat) : State :=
  let n := Tab.get 0 s.sw.samples k + 1
  if fld (s.sess k) 17 2 ≤ n then
    let s := { s with sw.samples := Tab.set 0 s.sw.samples k 0 }
    match s.recToPen (fld (s.cfg 0x07061 k) 11 0) (frameRec f.bytes port dir f.tc f.colour t (min f.bytes.length 128)) with
    | (s, true) => s
    | (s, false) => s.bump 0x07062 k
  else { s with sw.samples := Tab.set 0 s.sw.samples k n }

/-- The sessions whose source a frame is: received on (dir 0) or sent on (dir 1) a port, or, where `rule` names one, first
matching that rule. -/
def State.sessions (s : State) (f : QFrame) (port dir t : Nat) (rule : Option Nat) : State :=
  (List.range 4).foldl (fun s k =>
    let v := s.sess k
    let src := fld v 31 24
    let hit := match fld v 33 32 with
      | 0 => rule.isNone && dir == 0 && src == port
      | 1 => dir == 1 && src == port
      | 2 => rule.isNone && src == port
      | _ => rule == some src
    if !hit then s
    else match fld v 35 34 with
      | 1 => if f.mirrored then s else s.mirror k f
      | 2 => s.sample k f port dir t
      | _ => s) s

/-! ### Meters (R312) -/

/-- Buckets after the work cycles passed, in 1/65,536 byte. -/
def Meter.refill (m : Meter) (now rate burst : Nat) : Meter :=
  let n := now - m.at_
  { tc := min (m.tc + n * fld rate 35 18 * 65536 / 100000) (fld burst 35 18 * 64 * 65536),
    te := min (m.te + n * fld rate 17 0 * 65536 / 100000) (fld burst 17 0 * 64 * 65536), at_ := now }

/-- The meter's decision on a frame of b bytes: the new colour. -/
def State.meter (s : State) (k b colour : Nat) : State × Nat :=
  let rate := s.cfg 0x07022 k
  let burst := s.cfg 0x07023 k
  let now := s.abs s.tide.off
  let m := match Tab.get none s.sw.meters k with
    | some m => m.refill now rate burst
    | none => { tc := fld burst 35 18 * 64 * 65536, te := fld burst 17 0 * 64 * 65536, at_ := now }
  let need := b * 65536
  let (m, c) :=
    if colour = 0 ∧ need ≤ m.tc then ({ m with tc := m.tc - need }, 0)
    else if colour ≠ 2 ∧ need ≤ m.te then ({ m with te := m.te - need }, 1)
    else (m, 2)
  ({ s with sw.meters := Tab.set none s.sw.meters k (some m) }, c)

/-! ### Forwarding (R310 to R314) -/

/-- VID that streams compare: 0 for an untagged or priority-tagged frame. -/
def rawVid (b : List Nat) : Nat := tci b % 4096

/-- Bit `port` of a VID's members. -/
def State.member (s : State) (vid port : Nat) : Bool :=
  if port < 36 then bit (s.cfg 0x07030 vid) port else bit (s.cfg 0x07031 vid) (port - 36)

/-- A six-byte address. -/
def macAt (b : List Nat) (i : Nat) : Nat := (fbs b i 6).foldl (fun a x => a * 256 + x) 0

/-- HUB_MAC. -/
def State.hubMac (s : State) : Nat :=
  (s.cfg 0x07012 0 % 65536) * 2 ^ 32 + (s.cfg 0x07012 1 % 65536) * 2 ^ 16 + s.cfg 0x07012 2 % 65536

/-- Entries of FDB_STATIC: key VID × 2^48 + address, and the port or 64 + node. -/
def staticEntries (l : List Word) : List (Nat × Nat) :=
  (List.range (fld (l.getD 0 0).toNat 12 0)).map fun i =>
    let w k := (l.getD (1 + 6 * i + k) 0).toNat
    (fld (w 0) 11 0 * 2 ^ 48 + fld (w 1) 15 0 * 2 ^ 32 + fld (w 2) 15 0 * 2 ^ 16 + fld (w 3) 15 0,
     if bit (w 4) 17 then 64 + fld (w 4) 9 0 else fld (w 4) 5 0)

/-- Checks of an FDB_STATIC value (R324). -/
def staticOk (l : List Word) : Bool :=
  let e := staticEntries l
  fld (l.getD 0 0).toNat 17 13 == 0 && decide (e.length ≤ 4096) && l.length == 1 + 6 * e.length
  && (e.map Prod.fst).dedup.length == e.length
  && (List.range e.length).all fun i =>
    let w k := (l.getD (1 + 6 * i + k) 0).toNat
    fld (w 0) 17 12 == 0 && fld (w 1) 17 16 == 0 && fld (w 2) 17 16 == 0 && fld (w 3) 17 16 == 0 && w 5 == 0
    && (if bit (w 4) 17 then fld (w 4) 16 10 == 0 else fld (w 4) 16 6 == 0 && decide (fld (w 4) 5 0 ≤ 48))

def State.fdbStatic (s : State) : List (Nat × Nat) := staticEntries (Tab.get [] s.dict.blobs (key 0x07032 0))

/-- The database's answer for a VID and address, static entries first. -/
def State.lookup (s : State) (vid mac : Nat) : Option Nat :=
  let k := vid * 2 ^ 48 + mac
  match s.fdbStatic.find? (·.1 == k) with
  | some e => some e.2
  | none => let v := Tab.get 0 s.sw.fdb k; if v = 0 then none else some (v - 1)

/-- Entries of the database: the static ones, and the learned ones that no static entry has replaced (R313). -/
def State.fdbCount (s : State) : Nat :=
  s.fdbStatic.length + s.sw.fdb.countP fun e => !s.fdbStatic.any (·.1 == e.1)

/-- Static entries have taken effect: a learned one of the same key gives way, and so do those that the 65,536 entries have no
room for, the last in order of key first (R313; DESIGN CHOICE, log 150). -/
def State.fdbTrim (s : State) : State :=
  { s with sw.fdb := (s.sw.fdb.filter fun e => !s.fdbStatic.any (·.1 == e.1)).take (65536 - s.fdbStatic.length) }

/-- Learning (R313): learned values stand one higher, 0 is none. -/
def State.learn (s : State) (vid mac dest : Nat) : State :=
  let k := vid * 2 ^ 48 + mac
  if s.fdbStatic.any (·.1 == k) then s
  else if Tab.get 0 s.sw.fdb k = 0 ∧ 65536 ≤ s.fdbCount then s.bumpFld 0x07033 0 18 0
  else { s with sw.fdb := Tab.set 0 s.sw.fdb k (dest + 1) }

/-- Flow rule i matches (R311). -/
def State.ruleHit (s : State) (i port vid et : Nat) : Bool :=
  let r := s.cfg 0x07020 i
  bit r 35 && (fld r 34 29 == port || fld r 34 29 == 63) && (fld r 28 17 == vid || fld r 28 17 == 4095)
  && (!bit r 16 || fld (s.cfg 0x07021 i) 15 0 == et)

/-- The destination is taken by port 49 (R314). -/
def State.toShepherd (s : State) (b : List Nat) : Bool :=
  let d := macAt b 0
  d == s.hubMac || etype b == 0x88F7 || d / 16 == 0x0180C200000

/-- What the shepherd cores take from a frame of port 48 or a time message, and whether it is a fragment for them. -/
def State.coreTakes (s : State) (port : Nat) (b : List Nat) : Bool × Bool :=
  let o := l3at b
  let ip := (fbs b (o + 16) 4).foldl (fun a x => a * 256 + x) 0
  let my := fld (s.cfg 0x00101 0) 31 0
  let frag := (fb b (o + 6) * 256 + fb b (o + 7)) &&& 0x3FFF != 0
  let hl := 4 * (fb b o % 16)
  if etype b = 0x88F7 then (true, false)
  else if port ≠ 48 ∨ my = 0 then (false, false)
  else if etype b = 0x0806 then (fb b (o + 7) == 1 && (fbs b (o + 24) 4).foldl (fun a x => a * 256 + x) 0 == my, false)
  else if etype b = 0x0800 ∧ ip = my then
    if frag then (true, true)
    else if fb b (o + 9) = 1 then (fb b (o + hl) == 8, false)
    else (fb b (o + 9) == 17 && fb b (o + hl + 2) * 256 + fb b (o + hl + 3) == fld (s.cfg 0x00101 1) 15 0, false)
  else (false, false)

/-- A frame reaches port 49 (R314, R456). -/
def State.toCore (s : State) (f : QFrame) (t : Nat) : State :=
  match s.coreTakes f.ingress f.bytes with
  | (true, true) => s.bump 0x00104 2
  | (true, false) => s
  | _ =>
    let v := s.cfg 0x07014
    if bit v 35 then (s.recToPen (fld v 23 12) (frameRec f.bytes f.ingress 0 f.tc f.colour t f.bytes.length)).1 else s

/-- A frame leaves for an egress: a port's queue, port 49, or a node (64 + node) unless it came by the tunnel. -/
def State.egress (s : State) (f : QFrame) (t dest : Nat) : State :=
  if 64 ≤ dest then (if f.ingress = 50 then s else s.tunnelSend (dest - 64) f)
  else if dest = 49 then s.toCore f t
  else (s.enqueue dest f).1

/-- Egresses of a frame (R314). A flood reaches port 50 by FLOOD_EN alone: a VID of which port 50 is a member names no node
(DESIGN CHOICE, log 149). -/
def State.egressSet (s : State) (f : QFrame) : List Nat :=
  if s.toShepherd f.bytes then [49]
  else
    match if fb f.bytes 0 % 2 = 0 then s.lookup f.vid (macAt f.bytes 0) else none with
    | some d => [d]
    | none =>
      let hi := s.cfg 0x07031 f.vid
      ((List.range 50).filter fun p => s.member f.vid p && p != f.ingress) ++ (if bit hi 35 then [64 + fld hi 34 25] else [])

/-- A classified frame is stored and switched (R314, R315). -/
def State.switchFrame (s : State) (f : QFrame) (t : Nat) : State :=
  if s.freeCells < frameCells f.bytes then s.noteFull f.ingress
  else
    let (s, g) := s.newCopy f
    (s.egressSet g).foldl (fun s d => s.egress g t d) s

/-- Classification, meters and switching of a best-effort frame (R310 to R314) with the initial values given. -/
def State.classify (s : State) (f : QFrame) (t : Nat) : State :=
  if !s.member f.vid f.ingress then s.portCount f.ingress 3
  else
    let rule := (List.range 256).find? fun i => s.ruleHit i f.ingress f.vid (etype f.bytes)
    let (s, f) := match rule with
      | none => (s, f)
      | some i =>
        let r := s.cfg 0x07020 i
        let f := if bit r 6 then { f with tc := fld r 5 3 } else f
        let (s, f) := if bit r 7 then
            let (s, c) := s.meter (fld r 15 8) (f.bytes.length + 4) f.colour
            (s, { f with colour := c })
          else (s, f)
        (s.sessions f f.ingress 0 t (some i), f)
    s.switchFrame f t

/-- Initial VID, TC and colour of a received frame (R310). -/
def State.initial (s : State) (p : Nat) (b : List Nat) : QFrame :=
  let c := s.portCfg p
  let pcp := if tagged b then tci b / 8192 else fld c 16 14
  let dei := if tagged b then tci b / 4096 % 2 else 0
  let map := s.cfg 0x07013
  let i := 2 * pcp + dei
  { bytes := b, tc := pcp, colour := fld map (2 * i + 1) (2 * i), vid := if rawVid b = 0 then portPvid c else rawVid b,
    ingress := p, copy := 0, mirrored := false }

/-- The stream filter that a frame matches (R308). -/
def State.streamOf (s : State) (p : Nat) (b : List Nat) : Option Nat :=
  (List.range 256).find? fun i =>
    let v := s.cfg 0x07040 i
    bit v 35 && fld v 34 29 == p && fld v 28 17 == rawVid b && fld (s.cfg 0x07041 i) 15 0 == etype b

/-- What a receive check drops (R300): the count, and whether a reserved value fires FRAME_RESERVED. -/
def rxDrop (max : Nat) (b : List Nat) (bad : Bool) : Option (Nat × Bool) :=
  if bad then some (1, false)
  else if b.length + 4 < 64 ∨ max < b.length + 4 then some (2, false)
  else if tagged b ∧ rawVid b = 0xFFF then some (3, true)
  else if etype b = 0x8808 then some (4, false)
  else none

/-- A good frame of a port: given to ingress sessions, then to its stream pen or the switch, whose lookup sees the database
before its address is learned (R322). -/
def State.rxGood (s : State) (p : Nat) (b : List Nat) (t : Nat) : State :=
  let s := s.portCount p 0
  let f := s.initial p b
  let look := s
  let s := s.sessions f p 0 t none
  let s := match look.streamOf p b with
    | some i =>
      match s.recToPen (fld (s.cfg 0x07040 i) 11 0) (frameRec b p 0 0 0 t b.length) with
      | (s, true) => s.portCount p 10
      | (s, false) => s
    | none => s.classify f t
  if bit (s.portCfg p) 30 then s.learn f.vid (macAt b 6) p else s

/-- ETH_FRAME_RECEIVED (R300, R308). -/
def execEthFrameReceived (p : Fin 49) (bytes : List Nat) (bad : Bool) (back : Nat) (s : State) :
    Host.Outcome State Fault Refusal :=
  .next (match (s.port p).state with
    | .up | .drain =>
      match rxDrop (portMax (s.portCfg p)) bytes bad with
      | some (k, res) => let s := s.portCount p k; if res then s.fire 146 p else s
      | none => s.rxGood p bytes (s.stampAt (s.now - back * tickPerWc))
    | _ => s)

/-! ### Scheduled transmission (R303 to R306) -/

/-- The port sends frames: it receives no remote fault, and sends no remote fault ordered sets (R301). -/
def Port.sends (x : Port) : Bool := !x.faultSeen && !x.faultSent

/-- A frame on the wire is ended with an error code group, on SerDes ports, or with TX_ER, on the others (R303, R320); the
last 12 bytes of a frame's wire time are its gap. -/
def State.cutWire (s : State) (p : Nat) : State :=
  let now := s.abs s.tide.off
  if now + (12 * tau10 p (s.portRate p) + 9) / 10 < (s.port p).busy then
    (s.setPort p { s.port p with busy := now }).emit .marker (200 + p) [if p < 16 then 0 else 1]
  else s

/-- The entry of a port's scheduled queue whose first bit is due at work cycle `at_`. -/
def State.schedAt (s : State) (p at_ : Nat) : Option SchedFrame := (s.schedQ p).find? (·.at_ == at_)

/-- The entries but that one, and that one replaced. -/
def State.schedDrop (s : State) (p at_ : Nat) : State := s.setSchedQ p ((s.schedQ p).filter (·.at_ != at_))
def State.schedPut (s : State) (p : Nat) (f : SchedFrame) : State :=
  s.setSchedQ p ((s.schedQ p).map fun g => if g.at_ = f.at_ then f else g)

/-- A FRAME_TX meets its port's queue at s + 8 (R305): an entry, doomed where the port is not UP. -/
def State.schedEnter (s : State) (p at_ till : Nat) : State :=
  s.setSchedQ p (s.schedQ p ++ [⟨[], at_, till, false, (s.port p).state ≠ .up, 0⟩])

/-- t_tx (R305): the frame begins on the wire, or is lost where the port takes none. -/
def State.schedBegin (s : State) (p at_ : Nat) : State :=
  match s.schedAt p at_ with
  | none => s
  | some f =>
    let up := (match (s.port p).state with | .up | .drain => true | _ => false) && !s.portSafe p && (s.port p).sends
    if up && !f.doomed then
      (s.schedPut p { f with begun := true }).setPort p { s.port p with busy := max (s.port p).busy f.till }
    else (s.schedDrop p at_).portCount p 7

/-- The first bit of the destination address leaves (R309, R412). -/
def State.schedStamp (s : State) (p at_ : Nat) : State :=
  match s.schedAt p at_ with
  | some f => if f.begun then s.schedPut p { f with stamp := s.stampAt s.now } else s
  | none => s

/-- The last bit of a scheduled frame leaves: TX_SCHED, and the sessions that take sent frames. -/
def State.schedSent (s : State) (p at_ : Nat) : State :=
  match s.schedAt p at_ with
  | none => s
  | some f =>
    if !f.begun then s
    else
      let s := ((s.schedDrop p at_).emit .ethFrame p (withFcs f.bytes)).portCount p 6
      s.sessions { bytes := f.bytes, tc := 0, colour := 0, vid := rawVid f.bytes, ingress := p, copy := 0, mirrored := false } p 1
        f.stamp none

/-- Bytes of the words that a FRAME_TX's masks select, padded to 60 (R304). -/
def txBytes (ws : List Word) : List Nat :=
  let b := ws.flatMap fun w => [fld w.toNat 15 8, fld w.toNat 7 0]
  b ++ List.replicate (60 - b.length) 0

/-- A FRAME_TX of the port whose last bit has not left. -/
def Flight.frameOf (f : Flight) (p : Nat) : Bool :=
  f.st.op == 0x11 && fld f.d.b 5 0 == p && f.cause == 0 && f.acts.any fun a => a.2 == .sent

/-- Every frame still scheduled on a port that enters SETTLING becomes a null stroke, and one on the wire is cut (R303). -/
def State.schedSettle (s : State) (p : Nat) : State :=
  let n := (s.tide.flights.filter (·.frameOf p)).length
  let s := { s with tide.flights := s.tide.flights.map fun (f : Flight) => if f.frameOf p then { f with cause := cSettle } else f }
  (List.range n).foldl (fun s _ => (s.bump 0x02032 2).fire 145 p) ((s.setSchedQ p []).cutWire p)

/-! ### Best-effort transmission (R67, R316) -/

/-- The frame as its egress port tags it (TAG_OUT). -/
def tagOut (cfg : Nat) (f : QFrame) : List Nat :=
  if bit cfg 29 then
    if tagged f.bytes then f.bytes
    else f.bytes.take 12 ++ [0x81, 0, f.tc * 32 + f.vid / 256, f.vid % 256] ++ f.bytes.drop 12
  else if tagged f.bytes ∧ rawVid f.bytes = portPvid cfg then
    let b := f.bytes.take 12 ++ f.bytes.drop 16
    b ++ List.replicate (60 - b.length) 0
  else f.bytes

/-- The head of the highest traffic class that waits. -/
def State.nextFrame (s : State) (p : Nat) : Option (Nat × QFrame) :=
  [7, 6, 5, 4, 3, 2, 1, 0].findSome? fun tc => (s.bq p tc).head?.map fun f => (tc, f)

/-- A record of a transmit pen as a frame; none when R316 discards it. -/
def penFrame (port max : Nat) (pvid : Nat) (ws : List Word) : Option QFrame :=
  let w k := wp (ws.getD k 0)
  let n := fld (w 0) 13 0
  if 60 ≤ n ∧ n ≤ max - 4 ∧ fld (w 0) 15 14 = 0 ∧ fld (w 1) 1 0 = 0 ∧ fld (w 1) 3 2 ≠ 3 ∧ w 9 = 0 ∧ ws.length = 10 + (n + 1) / 2 then
    let b := ((List.range ((n + 1) / 2)).flatMap fun i => [fld (w (10 + i)) 15 8, fld (w (10 + i)) 7 0]).take n
    some { bytes := b, tc := fld (w 1) 6 4, colour := fld (w 1) 3 2, vid := if rawVid b = 0 then pvid else rawVid b,
           ingress := port, copy := 0, mirrored := false }
  else none

/-- PORT_TX_PEN_FETCH (R316). -/
def execPortTxPenFetch (p : Fin 50) (s : State) : Host.Outcome State Fault Refusal :=
  let host := p.val = 49
  let v := s.cfg 0x07014
  let t := s.cfg 0x07004 p
  let on := if host then bit v 34 else bit t 12 && (s.port p).state == .up
  let pen := if host then fld v 11 0 else fld t 11 0
  .next (if on && s.ledgerRoom 5 && !s.classSafe 2 5 then
      match s.penPacketOut pen with
      | (_, none) => s
      | (s, some ws) =>
        let s := s.enterPen 5 pen ws.length false
        match penFrame p (if host then 9216 else portMax (s.portCfg p)) (if host then 1 else portPvid (s.portCfg p)) ws with
        | none => s.portCount p 12
        | some f =>
          if host then s.classify f (s.stampAt s.now)
          else if s.freeCells < frameCells f.bytes then s.noteFull p
          else
            let (s, g) := s.newCopy f
            (s.enqueue p g).1
    else s)

/-! ### Port states (R301, R302, R320) -/

/-- Best-effort queues of a port discarded, each frame counted in DROP_LINK. -/
def State.dropQueues (s : State) (p : Nat) : State :=
  (List.range 8).foldl (fun s tc => (s.bq p tc).foldl (fun s _ => s.portCount p 12) s |>.setBq p tc []) s

/-- ENABLE of a PORT_CONFIG that takes effect at a turn. -/
def State.portEnable (s : State) (p : Nat) : State :=
  let x := s.port p
  if bit (s.portCfg p) 35 then
    if x.state = .off then
      if 16 ≤ p && decide (p < 48) && !s.supplyUp 8 then s
      else s.setPort p { x with state := if p < 16 then .settling else .down }
    else s
  else
    match x.state with
    | .up | .down | .settling => s.setPort p { s.port p with state := .drain }
    | _ => s

/-- Ports whose PORT_CONFIG waits take it at the turn. -/
def State.portTurn (s : State) : State :=
  let l := s.sw.configured
  l.foldl (fun s p => s.portEnable p) { s with sw.configured := [], sw.fullSeen := false }

/-- A port enters SETTLING from UP or DOWN. -/
def State.portSettle (s : State) (p : Nat) : State :=
  let s := s.schedSettle p
  (s.setPort p { s.port p with state := .settling }).fire 145 p

/-- A link that is lost. -/
def State.portLost (s : State) (p : Nat) : State :=
  let s := s.dropQueues p
  (s.setPort p { s.port p with state := .down, ampl := 0 }).fire 144 p

/-- PORT_SETTLE_DONE (R302). -/
def execPortSettleDone (p : Fin 49) (s : State) : Host.Outcome State Fault Refusal :=
  .next (if (s.port p).state = .settling ∧ s.supplyUp 3 = true ∧ s.supplyUp 4 = true then s.setPort p { s.port p with state := .down } else s)

/-- PORT_LINK_UP (R302): auto-negotiation gives a 10BASE-T1L port its amplitude, and in-band status port 48 its speed. -/
def execPortLinkUp (p : Fin 49) (ampl : Fin 3) (s : State) : Host.Outcome State Fault Refusal :=
  let m := portMode (s.portCfg p)
  let a := if p.val < 16 then 0 else if m = 0 then ampl.val else if p.val < 48 then m else 0
  .next (if (s.port p).state = .down then (s.setPort p { s.port p with state := .up, ampl := a }).fire 144 p else s)

/-- PORT_LINK_LOST (R302). -/
def execPortLinkLost (p : Fin 49) (s : State) : Host.Outcome State Fault Refusal :=
  .next (if (s.port p).state = .up then s.portLost p else s)

/-- PORT_LANE_PLL_LOSS (R302, R303). -/
def execPortLanePllLoss (p : Fin 49) (s : State) : Host.Outcome State Fault Refusal :=
  .next (if p.val < 16 ∧ ((s.port p).state = .up ∨ (s.port p).state = .down) then s.portSettle p else s)

/-- A port on which link fault signalling runs (R299). -/
def State.faultPort (s : State) (p : Nat) : Bool := decide (p < 16) && decide (2 ≤ portMode (s.portCfg p))

/-- PORT_LOCAL_FAULT (R301): remote fault ordered sets are sent. -/
def execPortLocalFault (p : Fin 49) (s : State) : Host.Outcome State Fault Refusal :=
  .next (if s.faultPort p && (s.port p).state != .off then
      (s.setPort p { s.port p with faultSent := true }).emit .marker (100 + p) [1]
    else s)

/-- LOCAL_FAULT_END (R301). -/
def execLocalFaultEnd (p : Fin 49) (s : State) : Host.Outcome State Fault Refusal :=
  .next (if (s.port p).faultSent then (s.setPort p { s.port p with faultSent := false }).emit .marker (100 + p) [0] else s)

/-- REMOTE_FAULT_RECEIVED (R301). -/
def execRemoteFaultReceived (p : Fin 49) (lasts : Bool) (s : State) : Host.Outcome State Fault Refusal :=
  .next (if s.faultPort p && (s.port p).state != .off then
      s.setPort p { s.port p with faultSeen := lasts }
    else s)

/-- PORT_DRAIN_DONE (R302). -/
def execPortDrainDone (p : Fin 49) (s : State) : Host.Outcome State Fault Refusal :=
  .next (if (s.port p).state = .drain ∧ (s.schedQ p).isEmpty = true ∧ (List.range 8).all (fun tc => (s.bq p tc).isEmpty) = true then
      s.setPort p { Port.blank with busy := (s.port p).busy }
    else s)

/-- Scheduled frames whose t_tx is the present cycle are lost (R322). -/
def State.schedLose (s : State) (p : Nat) : State :=
  let now := s.abs s.tide.off
  let due (f : SchedFrame) : Bool := !f.begun && f.at_ == now
  ((s.schedQ p).filter due).foldl (fun s _ => s.portCount p 7) (s.setSchedQ p ((s.schedQ p).filter fun f => !due f))

/-- HALT (R320, R322). -/
def State.portHaltOp (s : State) (p : Nat) : State :=
  let s := ((s.schedLose p).cutWire p).dropQueues p
  let s := (s.schedQ p).foldl (fun s _ => s.portCount p 12) s
  (s.setSchedQ p []).setPort p Port.blank

/-- PORT_HALT (R320). -/
def execPortHalt (p : Fin 49) (s : State) : Host.Outcome State Fault Refusal :=
  .next (if (s.port p).state = .off then s.abort 0x07002 7 else s.portHaltOp p)

/-- PORT_CALIBRATE (R302): a SerDes port in UP or DOWN; of another port it is BAD_STATE (DESIGN CHOICE, log 148). -/
def execPortCalibrate (p : Fin 49) (s : State) : Host.Outcome State Fault Refusal :=
  .next (if p.val < 16 ∧ ((s.port p).state = .up ∨ (s.port p).state = .down) then s.portSettle p else s.abort 0x07002 7)

/-- PORT_RESTART (R302): a port that never settles restarts in DOWN. -/
def execPortRestart (p : Fin 49) (s : State) : Host.Outcome State Fault Refusal :=
  .next (match (s.port p).state with
    | .up => if p.val < 16 then s.portSettle p else s.portLost p
    | .down => if p.val < 16 then s.portSettle p else s
    | _ => s.abort 0x07002 7)

/-- FDB_AGE_EXPIRY (R313). -/
def execFdbAgeExpiry (vid mac : Nat) (s : State) : Host.Outcome State Fault Refusal :=
  .next (if fld (s.cfg 0x07010) 31 16 = 0 then s
    else { s with sw.fdb := Tab.set 0 s.sw.fdb (vid * 2 ^ 48 + mac) 0 })

/-! ### The tunnel (R318, R347) -/

/-- TUNNEL_REPATH_HOLD_EXPIRY (R318): held frames leave on the new path. -/
def execTunnelRepathHoldExpiry (node : Fin 1024) (s : State) : Host.Outcome State Fault Refusal :=
  let l := s.sw.held.filter (·.1 == node.val)
  let s1 := { s with sw.held := s.sw.held.filter (·.1 != node.val), ring.repath := s.ring.repath.filter (· != node.val) }
  .next (l.foldl (fun s p => s.tunnelNow node p.2) s1)

/-- A frame out of the tunnel enters the switch core as received on port 50. -/
def State.tunnelIn (s : State) (src : Nat) (words : List Word) : State :=
  let w0 := (words.getD 0 0).toNat
  let b := (words.drop 1).flatMap fun w => [fld w.toNat 15 8, fld w.toNat 7 0]
  let vid := if rawVid b = 0 then 1 else rawVid b
  let f : QFrame := { bytes := b, tc := fld w0 15 13, colour := fld w0 12 11, vid := vid, ingress := 50, copy := 0, mirrored := false }
  (s.classify f (s.stampAt s.now)).learn vid (macAt b 6) (64 + src / 2)

/-- One cell of a TUNNEL message reaches its assembly (R347); the cells left of a discarded frame count nothing more. -/
def State.assemble (s : State) (l k : Nat) (cell : List Word) : State :=
  let w j := (cell.getD j 0).toNat
  let n := fld (w 1) 6 2 + 1
  let pay := (cell.drop 4).take n
  let first := bit (w 3) 5
  let last := bit (w 3) 4
  let put (s : State) (a : Option Assembly) : State := { s with ring.asm := Tab.set none s.ring.asm k a }
  let dead (s : State) : State := put s (if last then none else some ⟨w 2, [], true⟩)
  let go (s : State) (words : List Word) : State :=
    if 1 + 4608 < words.length then dead (s.linkCount l 12)
    else if last then (put s none).tunnelIn (2 * fld (w 1) 17 8 + fld (w 1) 7 7) words
    else put s (some ⟨w 2, words, false⟩)
  let start (s : State) : State := if fld (w 4) 10 0 = 0 then go s pay else dead (s.dropReserved l)
  match Tab.get none s.ring.asm k with
  | none => if first then start s else dead (s.linkCount l 12)
  | some a =>
    if first then start (if a.dead then s else s.linkCount l 12)
    else if a.dead then dead s
    else if (a.seq + 1) % 2 ^ 18 ≠ w 2 then dead (s.linkCount l 12)
    else go s (a.words ++ pay)

/-- TUNNEL (R347): a cell for this station. -/
def execTunnel (dir : Fin 4) (cell : List Word) (check : Fin 256) (s : State) : Host.Outcome State Fault Refusal :=
  let l := dirOut (dirWrap dir)
  let (cell, check) := s.opened l cell check
  let w k := (cell.getD k 0).toNat
  .next (if cell.length != 32 || !s.linkUp l || fld (w 0) 17 14 != 1 || bit (w 0) 12 || 2 * fld (w 0) 10 1 + fld (w 0) 11 11 != s.station then s
    else
      let ok := cellCheck 0 cell == check
      let s := s.cellIn l cell check ok
      if !ok then s.checkFail l
      else if headerReserved l w then (s.linkCount l 3).dropReserved l
      else (s.linkCount l 3).assemble l (4 * (2 * fld (w 1) 17 8 + fld (w 1) 7 7) + dir) cell)

/-! ### Entries as read (R324) -/

def State.portStateWord (s : State) (p : Nat) : Nat :=
  let x := s.port p
  let code : Nat := match x.state with | .off => 0 | .down => 1 | .settling => 2 | .up => 3 | .drain => 4
  put 15 3 code + putB 14 x.faultSent + put 12 2 (if p < 48 then x.ampl else 0)
def State.switchStateWord (s : State) : Nat := put 20 16 s.freeCells + put 4 16 (min s.sw.lowFree s.freeCells)
def State.fdbStateWord (s : State) : Nat :=
  put 19 17 s.fdbCount + fld (s.count 0x07033) 18 0
def State.tunnelWord (s : State) : Nat :=
  let v := s.count 0x07051
  let any dir := (s.round dir).head?.any Prod.snd
  putB 35 (any 0) + putB 34 (any 2) + fld v 33 0

end Sys2Proof.Machine
end

