-- ==== Sys2Proof/Machine/Flight.lean ====
section
/-! DEFINITION. Strokes in flight (R49, R51 to R54): what a stroke does in each cycle of its footprint, and how time passes. -/

namespace Sys2Proof.Machine

/-! ### The footprint as a list of acts (R51, R52, R65, R68) -/

/-- Departure of a stroke's cell on a link, as an offset of its tide (R60, R65). -/
def State.departsAt (s : State) (d : Desc) (l : Nat) : Nat :=
  36 * fld d.b 40 19 + (if l = 4 then 0 else (s.link l).phase) + 36 * fld d.b 18 16 / 5

/-- The last departure of a cell stroke. -/
def State.lastDepart (s : State) (st : Stroke) (d : Desc) : Nat := ((st.links d).map (s.departsAt d)).foldl max 0

/-- Wire time of a FRAME_TX, from its first preamble bit to its last bit, and to the end of its gap (R67, R304). -/
def State.txBits (s : State) (st : Stroke) (d : Desc) : Nat :=
  wireBits (fld d.b 5 0) (portMode (s.portCfg (fld d.b 5 0))) (st.frameB d)
def State.txTime (s : State) (st : Stroke) (d : Desc) : Nat :=
  wireTime (fld d.b 5 0) (portMode (s.portCfg (fld d.b 5 0))) (st.frameB d)

/-- The done cycle (R51). -/
def State.doneAt (s : State) (st : Stroke) (d : Desc) : Nat :=
  let a := st.start
  let n := st.n
  match st.op with
  | 0x00 => a + 1
  | 0x01 | 0x02 => a + n + 5
  | 0x03 | 0x0E | 0x0F => a + n + 9
  | 0x04 => ((List.range n).map (st.writeAt d)).foldl max 0 + 1
  | 0x05 => st.storeAt d (st.bursts d - 1) + 7
  | 0x06 => ((d.drovePorts n).map (a + 5 + ·)).foldl max 0 + 1
  | 0x07 => a + 2 * n + 3
  | 0x08 | 0x09 => a + 10
  | 0x0A | 0x0B => s.lastDepart st d + 8
  | 0x0C | 0x0D => a + 17
  | 0x10 => a + n + 8
  | 0x11 => st.ttx d + s.txTime st d
  | _ => a + n + 4

/-- Of the acts in one cycle, reads come before writes (R53). -/
def Act.rank : Act → Nat
  | .read _ | .merge _ | .take _ => 0
  | .done => 2
  | _ => 1

/-- The place of an act in time. -/
def actKey (a : Nat × Act) : Nat := 3 * a.1 + a.2.rank

/-- An act placed in a list in order of time, after those of its own place. -/
def insertAct (a : Nat × Act) : List (Nat × Act) → List (Nat × Act)
  | [] => [a]
  | b :: l => if actKey b ≤ actKey a then b :: insertAct a l else a :: b :: l

/-- What a stroke does, by tide offset, which may lie past the end of its tide (R49, R51, R52). -/
def State.strokeActs (s : State) (st : Stroke) (d : Desc) : List (Nat × Act) :=
  let a := st.start
  let lines := List.range st.n
  let rd := lines.map fun i => (st.readAt d i, Act.read i)
  let wr := lines.flatMap fun i =>
    (if st.mask d i = 15 then [] else [(st.writeAt d i - 4, Act.merge i)]) ++ [(st.writeAt d i, Act.write i)]
  let put := lines.map fun i => (a + 8 + i, Act.put i)
  let ports := d.drovePorts st.n
  let tx := st.ttx d
  (match st.op with
    | 0x01 | 0x02 | 0x04 => rd ++ wr
    | 0x03 => rd ++ [(a + 8, .meet)] ++ wr
    | 0x05 => rd ++ lines.map fun i => (st.writeAt d i, Act.write i)
    | 0x06 => rd ++ ports.map fun q => (a + 5 + q, Act.put q)
    | 0x07 => (ports.map fun q => (a + 1 + q, Act.take q)) ++ wr
    | 0x08 => [(a + 4, .take 0)] ++ wr
    | 0x09 => rd ++ [(a + 9, .put 0)]
    | 0x0A | 0x0B => rd ++ (st.links d).map fun l => (s.departsAt d l, Act.depart l)
    | 0x0C | 0x0D => [(a + 4, .take 0)] ++ wr
    | 0x0E => (lines.map fun i => (a + 4 + i, Act.take i)) ++ wr
    | 0x0F => rd ++ put ++ [(a + st.n + 8, .commit)]
    | 0x10 => rd ++ put
    | 0x11 => rd ++ [(a + 8, .meet), (a + st.n + 7, .put 0), (tx, .begin_),
        (tx + wireAddr (fld d.b 5 0) (portMode (s.portCfg (fld d.b 5 0))), .stamp), (tx + s.txBits st d, .sent)]
    | 0x12 => rd
    | _ => []) ++ [(s.doneAt st d, .done)]

/-- The stroke as it takes off in this tide: its lines stand where its generations name them, for all its cycles (R99). -/
def State.flightOf (s : State) (sl idx : Nat) (st : Stroke) (d : Desc) : Flight :=
  let lines (x : Option (Bool × Nat)) (back : Nat) : List Place := match x with
    | some (up, a) => (List.range st.n).map fun i => s.placeOf up back (a + i)
    | none => []
  let dst := if 0x13 ≤ st.op then some (false, d.aFirst sl) else strokeDest sl st d
  { sl := sl, idx := idx, st := st, d := d, at_ := s.abs st.start, tideF := s.time.F,
    free := s.tide.first && st.rgen == 1,
    src := lines (strokeSrc sl st d) st.rgen, dst := lines dst (if st.op = 0x02 then 0 else st.wgen),
    got := [], old := [], cause := 0, flag := false,
    acts := ((s.strokeActs st d).map fun a => (s.tide.abs0 + a.1, a.2)).foldl (fun l a => insertAct a l) [] }

/-! ### Null strokes (R80, R133, R136) -/

/-- Mask of line i of a flight. -/
def Flight.mask (f : Flight) (i : Nat) : Nat := f.st.mask f.d i

/-- The lines read, with their masks, and the words that the masks select. -/
def Flight.lines (f : Flight) : List (Nat × List Word) := f.got.zipIdx.map fun p => (f.mask p.2, p.1)

/-- PEN_WR: some words have reached the pen. -/
def Flight.begun (f : Flight) : Bool := !f.acts.any fun a => a.2 == .put 0

/-- What a null stroke of its class leaves beside its destination (R133); the writes that waited for a CARRY are refused
(R104). -/
def State.nullClass (s : State) (f : Flight) : State :=
  match f.st.op with
  | 0x02 => s.landHeld
  | 0x0F => if f.cause = 0 && f.begun then s.penCutShort (fld f.d.b 11 0) else s
  | 0x10 =>
    let c := fld f.d.b 6 0
    let b := fld f.d.b 8 7
    s.setChan c ((s.chan c).setTb b { (s.chan c).tb b with void := true })
  | 0x11 => s.schedDrop (fld f.d.b 5 0) (f.at_ + fld f.d.b 32 6)
  | _ => s

/-- The stroke is null from now on for a cause: its destination reads HELD, and it counts (R103, R133, R134, R136). -/
def State.failed (s : State) (f : Flight) (cause : Nat) : State × Flight :=
  ((((s.markHeld f.dst f.mask).countNull f.sl cause).nullClass f), { f with cause := cause })

/-! ### The acts of each class -/

/-- A pasture line's tile is awake (R80). -/
def State.reaches (s : State) (p : Place) : Bool := p.up || s.tileAwake (lineTile p.line)

/-- Words leave a shared block for the stroke: of port cycle q of a drove, of a field bank, of the receive store, or of a pen
for line q. -/
def State.flightTake (s : State) (f : Flight) (q : Nat) : State × Flight :=
  match f.st.op with
  | 0x07 =>
    let i := q / 2
    let k := 2 * f.sl + fld f.d.b 6 6
    let now := s.abs s.tide.off
    let pos := (maskBits (f.mask i)).filter fun j => j / 2 == q % 2
    let reg j := fld f.d.b 5 0 + 4 * i + j
    let line := f.got.getD i [0, 0, 0, 0]
    let line := pos.foldl (fun l j => l.set j (s.drvRegWord k (reg j) now)) line
    let s := pos.foldl (fun s j => s.drvRegTaken k (reg j) now) s
    (s, { f with got := (List.range f.st.n).map fun n => if n = i then line else f.got.getD n [0, 0, 0, 0] })
  | 0x08 =>
    let b := fld f.d.b 4 0
    let g := if s.bankOk b && !s.pin.hold && !s.gateBlocks b && !s.safe 112 b then qGood else qBad
    (s, { f with got := [layLine (f.mask 0) [mkW g (s.bankWord b 0), mkW g (s.bankWord b 1)]] })
  | 0x0E =>
    let (s, ws) := s.penReadN (fld f.d.b 11 0) (maskBits (f.mask q)).length
    (s, { f with got := f.got ++ [layLine (f.mask q) ws] })
  | _ =>
    let (s, ws) := s.rxDeliver (fld f.d.b 11 0) f.tideF
    (s, { f with got := (List.range f.st.n).map fun i => (ws.drop (4 * i)).take 4 })

/-- Words of line q, or of port cycle q of a drove, reach a shared block. -/
def State.flightPut (s : State) (f : Flight) (q : Nat) : State × Flight :=
  match f.st.op with
  | 0x06 =>
    let i := q / 2
    let k := 2 * f.sl + fld f.d.b 6 6
    let pos := (maskBits (f.mask i)).filter fun j => j / 2 == q % 2
    (pos.foldl (fun s j => s.drvRegWrite k (fld f.d.b 5 0 + 4 * i + j) ((f.got.getD i []).getD j 0) (s.abs s.tide.off)) s, f)
  | 0x09 =>
    let ws := pickOut f.lines
    ((s.loadDout (fld f.d.b 4 0) 0 (ws.getD 0 0)).loadDout (fld f.d.b 4 0) 1 (ws.getD 1 0), f)
  | 0x0F => (s.penPush (fld f.d.b 11 0) (pickOut ((f.lines.drop q).take 1)), f)
  | 0x10 =>
    let c := fld f.d.b 6 0
    let b := fld f.d.b 8 7
    let f := { f with flag := f.flag || (q == 0 && ((s.chan c).tb b).state == .active) }
    let s := if q = 0 then s.busMeet c b else s
    (if f.flag then s else s.setChan c ((s.chan c).setTb b (((s.chan c).tb b).load (fld f.d.b 18 10 + q) ((f.lines.drop q).take 1))), f)
  | _ =>
    let p := fld f.d.b 5 0
    let at_ := f.at_ + fld f.d.b 32 6
    let ws := pickOut f.lines
    match s.schedAt p at_ with
    | none => (s, f)
    | some g =>
      if ws.any fun w => wq w == qBad then
        (((s.schedDrop p at_).bump 0x03025).fire 51 f.sl (badAddr (f.d.aFirst f.sl) f.lines), f)
      else (s.schedPut p { g with bytes := txBytes ws }, f)

/-- The stroke meets the receiving tile of a PUSH, or the queue of its port (R51, R80, R303). -/
def State.flightMeet (s : State) (f : Flight) : State × Flight :=
  if f.st.op = 0x03 then (if s.tileAwake (fld f.d.b 21 18) then (s, f) else s.failed f cSched)
  else
    let p := fld f.d.b 5 0
    if (s.port p).state = .settling then (s.fire 145 p).failed f cSettle
    else
      let at_ := f.at_ + fld f.d.b 32 6
      (s.schedEnter p at_ (at_ + s.txTime f.st f.d), f)

/-- A departure, or its suppression; RING_SETTLE fires once for each stroke with one on a SETTLING link (R341, R354). -/
def State.flightDepart (s : State) (f : Flight) (l : Nat) : State × Flight :=
  let settles := (s.link l).state == .settling
  let s := if settles && !f.flag then s.fire 161 l else s
  (s.depart l (fld f.d.b 11 0) f.got.flatten f.d.place, { f with flag := f.flag || settles })

/-- The done cycle of a stroke that was not null: CARRY frees the writes that wait for its lines (R104), BUS_LOAD releases
(R68), and DIGEST hands its words over (R429). -/
def State.flightDone (s : State) (f : Flight) : State :=
  match f.st.op with
  | 0x02 =>
    if f.tideF = s.time.F then
      { s with ledger.carried := (List.range f.st.n).map (f.d.aFirst f.sl + ·) ++ s.ledger.carried }.landHeld
    else s
  | 0x10 =>
    if f.flag then s
    else
      let bad := (pickOut f.lines).any fun w => wq w == qBad
      let s := if bad then (s.bump 0x03025).fire 51 f.sl (badAddr (f.d.aFirst f.sl) f.lines) else s
      if bit f.d.b 9 then s.busRelease f.sl (fld f.d.b 6 0) (fld f.d.b 8 7) bad else s
  | _ => s

/-- The part that a DIGEST has in its region's digest, invalid of a null stroke (R133, R429). -/
def State.digestPart (s : State) (f : Flight) : State :=
  if f.st.op = 0x12 then
    s.addPart ⟨f.tideF, fld f.d.b 9 0, f.st.start * 16 + f.sl,
      if f.cause = 0 then (pickOut f.lines).map BitVec.toNat else [], f.cause != 0⟩
  else s

/-- One act of a stroke that is not null. -/
def State.flightAct (s : State) (f : Flight) (a : Act) : State × Flight :=
  match a with
  | .read i =>
    let p := f.src.getD i Place.none
    if !s.reaches p then s.failed f cSched
    else match s.schedRead p f.free (f.mask i) with
      | (s, none) => s.failed f cSched
      | (s, some w) => (s, { f with got := f.got ++ [w] })
  | .merge i =>
    let p := f.dst.getD i Place.none
    if !s.reaches p then s.failed f cSched
    else
      let (s, bad) := s.checkLine p.up p.line
      (s, { f with old := f.old ++ [(i, bad, (s.line p.up p.line).words)] })
  | .write i =>
    match f.dst[i]? with
    | none => (s, f)
    | some p =>
      if !s.reaches p then s.failed f cSched
      else (s.schedWrite p (f.mask i) (f.got.getD i []) ((f.old.find? (·.1 == i)).map Prod.snd), f)
  | .take q => s.flightTake f q
  | .put q => s.flightPut f q
  | .meet => s.flightMeet f
  | .commit => (s.penCommit (fld f.d.b 11 0), f)
  | .depart l => s.flightDepart f l
  | .begin_ => (s.schedBegin (fld f.d.b 5 0) (f.at_ + fld f.d.b 32 6), f)
  | .stamp => (s.schedStamp (fld f.d.b 5 0) (f.at_ + fld f.d.b 32 6), f)
  | .sent => (s.schedSent (fld f.d.b 5 0) (f.at_ + fld f.d.b 32 6), f)
  | .done => (s.flightDone f, f)

/-- A cycle of a stroke: the loss of its channel makes it null (R149), a null stroke does nothing (R82), and at the done cycle
its STROKE record is written (R516). -/
def State.flightCycle (s : State) (f : Flight) (a : Act) : State × Flight :=
  let (s, f) := if f.cause = 0 && s.strokeLost f.st f.d then s.failed f cUpland else (s, f)
  let (s, f) := if f.cause = 0 then s.flightAct f a else (s, f)
  if a = .done then (((s.digestPart f).traceStroke f.sl f.idx f.cause), f) else (s, f)

/-! ### Time -/

/-- The flight with the earliest act before a work cycle, by its place in the list. -/
def State.nextFlight (s : State) (limit : Nat) : Option Nat :=
  (s.tide.flights.zipIdx.foldl (fun (m : Option (Nat × Nat)) p =>
    match p.1.acts with
    | [] => m
    | a :: _ =>
      if a.1 < limit then
        (match m with
        | some (k, _) => if actKey a < k then some (actKey a, p.2) else m
        | none => some (actKey a, p.2))
      else m) none).map Prod.snd

/-- The next act of the k-th flight, at its own cycle. -/
def State.runAct (s : State) (k : Nat) : State :=
  match s.tide.flights[k]? with
  | none => s
  | some f =>
    match f.acts with
    | [] => { s with tide.flights := s.tide.flights.eraseIdx k }
    | a :: rest =>
      let s := { s with tide.off := max s.tide.off (a.1 - s.tide.abs0) }
      let (s, f) := s.flightCycle { f with acts := rest } a.2
      { s with tide.flights := if rest.isEmpty then s.tide.flights.eraseIdx k else s.tide.flights.set k f }

/-- Acts of the flights before a work cycle, in order of time; at most n of them. -/
def State.runActs (s : State) (limit : Nat) : Nat → State
  | 0 => s
  | n + 1 =>
    match s.nextFlight limit with
    | none => s
    | some k => (s.runAct k).runActs limit n

/-- Acts still to come. -/
def State.actsLeft (s : State) : Nat := (s.tide.flights.map fun f => f.acts.length).sum

/-- Time passes to an offset of the tide: links that Bell took DOWN have been reported (R351), and what the strokes in flight do
in the cycles before it has been done. -/
def State.advance (s : State) (off : Nat) : State :=
  let s := s.reportTurns
  let s := s.runActs (s.abs off) s.actsLeft
  { s with tide.off := max s.tide.off off }

/-- What the hub does while no command waits: the acts of the next cycle of this tide in which a stroke in flight has one
(log 1). -/
def State.tick (s : State) : State :=
  let s := s.reportTurns
  match (s.tide.flights.filterMap fun f => (f.acts.head?).map Prod.fst).min? with
  | none => s
  | some c => if c < s.abs s.tideP then s.runActs (c + 1) s.actsLeft else s

/-! ### The start of a stroke -/

/-- The cause that makes a stroke null from its start (R136, R303, R341): storage, shed, upland loss, a tile that is not
awake, and a transmit whose port or links settle. -/
def State.startCause (s : State) (sl : Nat) (st : Stroke) (d : Desc) (l : List Ecc) : Nat :=
  if l.contains .multi then cStorage
  else if s.sheds st.crit then cShed
  else if s.strokeLost st d then cUpland
  else if !s.tileAwake sl then cSched
  else if st.op = 0x0A ∨ st.op = 0x0B then
    if (st.links d).all (fun l => !s.linkUp l) && (st.links d).any (fun l => (s.link l).state == .settling) then cSettle else 0
  else if st.op = 0x11 ∧ (s.port (fld d.b 5 0)).state = .settling then cSettle
  else 0

/-- The source that a transmit on a settling port or link fires (R303, R354). -/
def State.fireSettle (s : State) (st : Stroke) (d : Desc) : State :=
  if st.op = 0x11 then s.fire 145 (fld d.b 5 0)
  else match (st.links d).find? fun l => (s.link l).state == .settling with
    | some l => s.fire 161 l
    | none => s

/-- A stroke starts at its START (R44): it is in flight from now on, null at once on a cause. -/
def State.launch (s : State) (sl idx : Nat) (ops : Nat → Bool) : State :=
  match s.selects sl idx ops with
  | none => s
  | some (st, d, ecc) =>
    let s := (s.advance st.start).tableEcc sl ecc
    let c := s.startCause sl st d ecc
    let f := s.flightOf sl idx st d
    let s := if c = cSettle then s.fireSettle st d else s
    let (s, f) := if c = 0 then (s, f) else s.failed f c
    { s with tide.flights := s.tide.flights ++ [f] }

end Sys2Proof.Machine
end

