-- ==== Sys2Proof/Machine/Sluices.lean ====
section
/-! DEFINITION. The stroke commands (R93): each starts the stroke that its entry holds; what the stroke does then follows in
the cycles of its footprint (State.advance). -/

namespace Sys2Proof.Machine

/-- WAIT (R93). -/
def execWait (sl : Fin 16) (idx : Nat) (s : State) : Host.Outcome State Fault Refusal := .next (s.launch sl idx (· == 0x00))
/-- MOVE (R93): own bank to own bank. -/
def execMove (sl : Fin 16) (idx : Nat) (s : State) : Host.Outcome State Fault Refusal := .next (s.launch sl idx (· == 0x01))
/-- CARRY (R104): a turn region's lines from the previous generation into the current one. -/
def execCarry (sl : Fin 16) (idx : Nat) (s : State) : Host.Outcome State Fault Refusal := .next (s.launch sl idx (· == 0x02))
/-- PUSH (R93): own bank to a bank of another tile. -/
def execPush (sl : Fin 16) (idx : Nat) (s : State) : Host.Outcome State Fault Refusal := .next (s.launch sl idx (· == 0x03))
/-- FETCH (R51): upland lines to own bank. -/
def execFetch (sl : Fin 16) (idx : Nat) (s : State) : Host.Outcome State Fault Refusal := .next (s.launch sl idx (· == 0x04))
/-- STORE (R51): own bank to upland lines. -/
def execStore (sl : Fin 16) (idx : Nat) (s : State) : Host.Outcome State Fault Refusal := .next (s.launch sl idx (· == 0x05))
/-- DRV_WR (R94): own-bank words to a drove's register words. -/
def execDrvWr (sl : Fin 16) (idx : Nat) (s : State) : Host.Outcome State Fault Refusal := .next (s.launch sl idx (· == 0x06))
/-- DRV_RD (R94): a drove's register words into an own bank. -/
def execDrvRd (sl : Fin 16) (idx : Nat) (s : State) : Host.Outcome State Fault Refusal := .next (s.launch sl idx (· == 0x07))
/-- PIN_IN (R256). -/
def execPinIn (sl : Fin 16) (idx : Nat) (s : State) : Host.Outcome State Fault Refusal := .next (s.launch sl idx (· == 0x08))
/-- PIN_OUT (R258). -/
def execPinOut (sl : Fin 16) (idx : Nat) (s : State) : Host.Outcome State Fault Refusal := .next (s.launch sl idx (· == 0x09))
/-- CELL_TX (R65, R341). -/
def execCellTx (sl : Fin 16) (idx : Nat) (s : State) : Host.Outcome State Fault Refusal := .next (s.launch sl idx (· == 0x0A))
/-- PAIR_TX (R65). -/
def execPairTx (sl : Fin 16) (idx : Nat) (s : State) : Host.Outcome State Fault Refusal := .next (s.launch sl idx (· == 0x0B))
/-- CELL_RX (R337). -/
def execCellRx (sl : Fin 16) (idx : Nat) (s : State) : Host.Outcome State Fault Refusal := .next (s.launch sl idx (· == 0x0C))
/-- PAIR_RX (R337). -/
def execPairRx (sl : Fin 16) (idx : Nat) (s : State) : Host.Outcome State Fault Refusal := .next (s.launch sl idx (· == 0x0D))
/-- PEN_RD (R199). -/
def execPenRd (sl : Fin 16) (idx : Nat) (s : State) : Host.Outcome State Fault Refusal := .next (s.launch sl idx (· == 0x0E))
/-- PEN_WR (R196). -/
def execPenWr (sl : Fin 16) (idx : Nat) (s : State) : Host.Outcome State Fault Refusal := .next (s.launch sl idx (· == 0x0F))
/-- BUS_LOAD (R68, R279). -/
def execBusLoad (sl : Fin 16) (idx : Nat) (s : State) : Host.Outcome State Fault Refusal := .next (s.launch sl idx (· == 0x10))
/-- FRAME_TX (R303 to R306, R186). -/
def execFrameTx (sl : Fin 16) (idx : Nat) (s : State) : Host.Outcome State Fault Refusal := .next (s.launch sl idx (· == 0x11))
/-- DIGEST (R429, R430). -/
def execDigest (sl : Fin 16) (idx : Nat) (s : State) : Host.Outcome State Fault Refusal := .next (s.launch sl idx (· == 0x12))
/-- RESERVED_OPCODE_STROKE (R95): a storage fault of the table store; the A side reads HELD. -/
def execReservedOpcodeStroke (sl : Fin 16) (idx : Nat) (s : State) : Host.Outcome State Fault Refusal :=
  .next (s.launch sl idx (fun op => decide (0x13 ≤ op)))

end Sys2Proof.Machine
end

