-- ==== Sys2Proof/Machine/Drover.lean ====
section
/-! DEFINITION. The drovers (chapter 7): the edge, the twelve instructions, faults, control commands, register words,
and the exchange of programs. -/

namespace Sys2Proof.Machine

/-! ### Settings (R243) -/

def Drover.enabled (x : Drover) : Bool := bit x.prog 35
def Drover.origin (x : Drover) : Nat := fld x.prog 34 26
def Drover.last (x : Drover) : Nat := fld x.prog 25 19
def Drover.dwellN (x : Drover) : Nat := fld x.prog 18 15
def Drover.wrapTop (x : Drover) : Nat := fld x.prog 13 7
def Drover.wrapBottom (x : Drover) : Nat := fld x.prog 6 0
def Drover.driveBase (x : Drover) : Nat := fld x.outwin 35 26
def Drover.driveCount (x : Drover) : Nat := fld x.outwin 25 20
def Drover.fixBase (x : Drover) : Nat := fld x.outwin 19 10
def Drover.fixCount (x : Drover) : Nat := fld x.outwin 9 6
def Drover.cueCount (x : Drover) : Nat := fld x.outwin 5 3
def Drover.senseBase (x : Drover) : Nat := fld x.inwin 35 26
def Drover.senseCount (x : Drover) : Nat := fld x.inwin 25 20
def Drover.cueBase (x : Drover) : Nat := fld x.inwin 9 0
def Drover.inDir (x : Drover) : Bool := bit x.shift 17
def Drover.outDir (x : Drover) : Bool := bit x.shift 16
def Drover.inFrame (x : Drover) : Nat := fld x.shift 13 8
def Drover.outFrame (x : Drover) : Nat := fld x.shift 7 2
def Drover.frame (x : Drover) : Nat := fld x.init 35 32
def Drover.cuePat (x : Drover) (c : Nat) : Nat :=
  match c with | 1 => fld x.init 11 8 | 2 => fld x.init 7 4 | _ => fld x.init 3 0

/-- EDGE_ARM of the settings as modes (R229). -/
def Drover.edgeArm (x : Drover) : Nat := fld x.init 31 16

/-- T as a restart sets it (R229, R239). -/
def Drover.restartT (x : Drover) : Nat := x.tper - 1

/-- Pins of a drover's DRIVE, FIX and CUE windows (R212). -/
def Drover.windowPins (x : Drover) : List Nat :=
  (List.range x.driveCount).map (x.driveBase + ·) ++ (List.range x.fixCount).map (x.fixBase + ·)
  ++ (List.range x.cueCount).map (x.cueBase + ·)

/-! ### Pins -/

/-- Levels or directions of pins base + i for i below k. -/
def setPins (m : Tab Bool) (base k v : Nat) : Tab Bool :=
  (List.range k).foldl (fun m i => Tab.set false m (base + i) (v.testBit i)) m

def State.setLvls (s : State) (base k v : Nat) : State := { s with drv.lvl := setPins s.drv.lvl base k v }
def State.setDirs (s : State) (base k v : Nat) : State := { s with drv.dir := setPins s.drv.dir base k v }

/-- The cue pins take a pattern; they drive both levels (R215). -/
def State.setCue (s : State) (x : Drover) (pat : Nat) : State :=
  (s.setLvls x.cueBase x.cueCount pat).setDirs x.cueBase x.cueCount (2 ^ x.cueCount - 1)

/-- Pins of a drover that enters RUN from OFF (R645). -/
def State.startPins (s : State) (x : Drover) : State :=
  let z (s : State) (b k : Nat) := (s.setLvls b k 0).setDirs b k 0
  (z (z s x.driveBase x.driveCount) x.fixBase x.fixCount).setCue x (x.cuePat 1)

/-! ### Faults (R227) and the safe state -/

/-- FAULT with a cause; every cause but 6 fires DROVER_FAULT. -/
def State.droverFault (s : State) (k cause : Nat) : State :=
  let s := (s.snapHold (s.drover k).windowPins).setDrover k { s.drover k with state := .fault, cause := cause }
  if cause = 6 then s else s.fire 96 k

/-! ### The edge (R210) -/

/-- A register write becomes visible (R230, R231). -/
def Drover.regWrite (x : Drover) (word : Nat) (v : Word) : Drover :=
  let ok := wq v = 0 ∨ wq v = 2
  match word with
  | 0 => { x with txd0 := v, txNew := true }
  | 1 => { x with txd1 := v, txNew := true }
  | 2 => if ok then { x with xpre := wp v } else x
  | 3 => if ok then { x with ypre := wp v } else x
  | 4 => if ok then { x with tper := wp v } else x
  | 6 => if ok then { x with eFlag := (List.range 8).foldl (fun a i => if (wp v).testBit i then setFld a i i 0 else a) x.eFlag } else x
  | _ => x

/-- A restart (R229): the last samples, CNT, the transmit words and the receive latch stay. -/
def Drover.restart (x : Drover) : Drover :=
  { x with state := .run, cause := 0, pc := 0, x := x.xpre, y := x.ypre, sin := 0, sout := 0, sinFill := 0, soutLeft := 0,
           t := x.restartT, eMode := x.edgeArm, eFlag := 0, dwell := 0 }

/-- A DRV_CTRL command takes effect (R228): a drover in FAULT restarts only while nothing holds it there. -/
def Drover.control (x : Drover) (cmd : Nat) (free : Bool) : Drover :=
  match cmd, x.state with
  | 1, .stopped => { x with state := .run, cause := 0 }
  | 2, .run => { x with state := .stopped, cause := 2 }
  | 3, .run | 3, .stopped => x.restart
  | 3, .fault => if free then x.restart else x
  | _, _ => x

/-- Writes and commands whose second edge this is take effect, oldest first (R54, R229); beside a fault at the same edge a
command has none. -/
def Drover.visible (x : Drover) (abs : Nat) (free fault : Bool) : Drover :=
  let step (x : Drover) (w : DWait) : Drover :=
    if abs < w.at_ + 1 then { x with waits := x.waits ++ [w] }
    else if w.seen = 0 then { x with waits := x.waits ++ [{ w with seen := 1 }] }
    else if w.word = 8 then (if fault then x else x.control w.value.toNat free)
    else x.regWrite w.word w.value
  x.waits.foldl step { x with waits := [] }

/-- Edge detection (R210, R223): mode bit 0 arms RISE, bit 1 FALL. -/
def Drover.detect (x : Drover) (sense : Nat) : Drover :=
  let n := min x.senseCount 8
  let flag := (List.range n).foldl (fun a i =>
    let now := sense.testBit i
    let was := x.eLast.testBit i
    if (x.eMode.testBit (2 * i) && !was && now) || (x.eMode.testBit (2 * i + 1) && was && !now) then setFld a i i 1 else a) x.eFlag
  { x with eFlag := flag, eLast := sense % 2 ^ n }

/-- The timer rule (R221). -/
def Drover.tick (x : Drover) (te : Nat) : Nat :=
  if te = 0 then (if x.tper ≠ 0 then x.tper - 1 else 0) else te - 1

/-- An edge of the drove's clock falls at a tide offset (R55): none of a drove that carries no program (R209). -/
def Drove.isEdge (v : Drove) (off : Nat) : Bool := v.n != 0 && (256 * off + v.n - 1) / v.n * v.n / 256 == off

/-- The drove of drover k has an edge at the offset, at which the drover has yet to act (R209, R210). -/
def State.edgeHere (s : State) (k off : Nat) : Bool :=
  s.clocked && s.tideRuns && decide (off < s.tideP) && (s.drove (k / 8)).isEdge off && (s.drover k).edgeAt != s.abs off + 1

/-- A drover in FAULT may restart (R228): no Bell source holds its function safe, and but for CAUSE 6 DROVER_FAULT is
acknowledged. -/
def State.drvFree (s : State) (k : Nat) : Bool :=
  !s.droverHeld k && ((s.drover k).cause == 6 || (s.src 96).unack == 0)

/-- The writes that the edge makes visible; the words as they stood before it stay for a port read (R54). -/
def State.edgeWrites (s : State) (k off : Nat) (fault : Bool) : State :=
  let s := s.advance off
  let x := s.drover k
  s.setDrover k { (x.visible (s.abs off) (s.drvFree k) fault) with edgeAt := s.abs off + 1, shown := x.words, exported := false }

/-- The state as the edge begins: visible writes, then samples. -/
def State.edgeBegin (s : State) (k off sense : Nat) (fault : Bool := false) : State :=
  let s := s.edgeWrites k off fault
  let x := s.drover k
  s.setDrover k (x.detect (sense % 2 ^ x.senseCount))

/-- An instruction is due at the edge: the drover is RUN with no dwell left. -/
def State.instrDue (s : State) (k : Nat) : Bool := (s.drover k).state == .run && (s.drover k).dwell == 0

/-- The instruction word at ORIGIN + PC: PC counts modulo 128, and an address above 511 reads 0 (log 117). -/
def State.instrAt (s : State) (k : Nat) : Nat :=
  let x := s.drover k
  (Tab.get 0 (s.drove (k / 8)).store (x.origin + x.pc)).toNat

/-- The check code of the next instruction (R227). -/
def State.instrEcc (s : State) (k : Nat) : Ecc :=
  let x := s.drover k
  Tab.get .good (s.drove (k / 8)).ecc (x.origin + x.pc)

/-- A corrected store error is written back (R227). -/
def State.storeCorrect (s : State) (k : Nat) : State :=
  if s.instrEcc k = .single then
    let d := s.drove (k / 8)
    let x := s.drover k
    (s.setDrove (k / 8) { d with ecc := Tab.set .good d.ecc (x.origin + x.pc) .good, eccCorrected := satAdd 7 d.eccCorrected 1 }).fire 97 (k / 8)
  else s

/-- The next PC without a branch (R225). -/
def Drover.nextPc (x : Drover) : Nat := if x.pc = x.wrapTop then x.wrapBottom else (x.pc + 1) % 128

/-! ### Flags of a drove at one edge (R224) -/

/-- The flags that a drover sees at an edge: as they stood before it. -/
def State.flagsAt (s : State) (d at_ : Nat) : Nat :=
  let v := s.drove d
  if v.edgeAt = at_ + 1 then v.flagsBefore else v.flags

/-- The drove ready to gather the flag actions of the edge. -/
def Drove.atEdge (v : Drove) (at_ : Nat) : Drove :=
  if v.edgeAt = at_ + 1 then v
  else { v with edgeAt := at_ + 1, flagsBefore := v.flags, sets := 0, toggled := 0, toggleAny := 0, clears := 0 }

/-- The flags after the gathered actions. -/
def Drove.settleFlags (v : Drove) : Drove :=
  let f := (List.range 8).foldl (fun a i =>
    let old := v.flagsBefore.testBit i
    let new := if v.sets.testBit i then true
      else if v.toggleAny.testBit i then old != v.toggled.testBit i
      else if v.clears.testBit i then false else old
    if new then a + 2 ^ i else a) 0
  { v with flags := f }

/-- One FLAG action: 0 SET, 1 CLEAR, 2 TOGGLE. -/
def State.flagAct (s : State) (d at_ act f : Nat) : State :=
  let v := (s.drove d).atEdge at_
  let b := 2 ^ f
  let v := match act with
    | 0 => { v with sets := v.sets ||| b }
    | 1 => { v with clears := v.clears ||| b }
    | _ => { v with toggled := v.toggled ^^^ b, toggleAny := v.toggleAny ||| b }
  s.setDrove d v.settleFlags

/-! ### Shifters (R220) -/

def m36 (n : Nat) : Nat := n % 2 ^ 36
def m18 (n : Nat) : Nat := n % 2 ^ 18

/-- The LATCH of a program or of AUTOPUSH. -/
def State.doLatch (s : State) (k qual : Nat) (drop keep : Bool) : State :=
  let x := s.drover k
  let e := if x.inDir then fld x.sin 35 4 else fld x.sin 31 0
  let lostOne := !drop && x.rxUnread
  let x1 := if drop then x else
    { x with rxd0 := fld e 15 0, rxd1 := fld e 31 16, rxq := qual, rxUnread := true, fresh := true, exported := true,
             rxOverrun := if x.rxUnread then satAdd 18 x.rxOverrun 1 else x.rxOverrun }
  let x2 := if keep then x1 else { x1 with sin := 0, sinFill := 0 }
  let s := s.setDrover k x2
  if lostOne then s.fire 98 k else s

/-- The TAKE of a program or of AUTOPULL, with the override of R233. -/
def Drover.doTake (x : Drover) (onlyNew : Bool) : Drover :=
  if onlyNew && !x.txNew then x
  else
    let d := put 16 16 (wp x.txd1) + wp x.txd0
    let q := worst (wq x.txd0) (wq x.txd1)
    { x with
      sout := if x.outDir then put 32 4 x.frame + d else put 4 32 d + x.frame,
      soutLeft := x.outFrame, txq := q, txNew := false,
      safeOverride := bit x.shift 1 && q == 3 }

/-- The drover as a TAKE or a new program leaves it; its pins keep their levels for SAFE HOLD when the override begins. -/
def State.takeDrover (s : State) (k : Nat) (x : Drover) : State :=
  (if x.safeOverride && !(s.drover k).safeOverride then s.snapHold (s.drover k).windowPins else s).setDrover k x

/-- The bits of SOUT that a SHOUT takes, and SOUT after it. -/
def Drover.shoutBits (x : Drover) (n : Nat) : Nat × Nat :=
  if x.outDir then (x.sout % 2 ^ n, x.sout >>> n) else (x.sout >>> (36 - n), m36 (x.sout <<< n))

/-- SIN after a SHIN of n bits. -/
def Drover.shinBits (x : Drover) (n src : Nat) : Nat :=
  if x.inDir then (x.sin >>> n) ||| ((src % 2 ^ n) <<< (36 - n)) else m36 (x.sin <<< n) ||| (src % 2 ^ n)

/-! ### Finishing an instruction -/

/-- AUTOPUSH and AUTOPULL, after an instruction that leaves SIN full or SOUT empty (R220). -/
def State.autos (s : State) (k w : Nat) : State :=
  let x := s.drover k
  let s := if bit x.shift 15 && decide (x.inFrame ≤ x.sinFill) && fld w 17 14 != 4 then s.doLatch k 0 false false else s
  let x := s.drover k
  if bit x.shift 14 && x.soutLeft == 0 && fld w 17 14 != 5 then s.takeDrover k (x.doTake true) else s

/-- PC and dwell after an instruction completes, T by its rule unless written, AUTOPUSH, AUTOPULL and the cue. A pin that the cue
window shares with a DRIVE or a FIX window takes what PUT, SHOUT or COPY drives while CUE is 0: R216 does not name it (DESIGN
CHOICE, log 144). -/
def State.finish (s : State) (k : Nat) (w te : Nat) (wroteT : Bool) (pc : Nat) : State :=
  let x := s.drover k
  let x := { x with pc := pc, dwell := if bit w 11 then x.dwellN else 0, t := if wroteT then x.t else x.tick te }
  let s := (s.setDrover k x).autos k w
  if fld w 13 12 = 0 then s else s.setCue (s.drover k) ((s.drover k).cuePat (fld w 13 12))

/-- The instruction does not complete (a HOLD that waits): T counts, AUTOPUSH and AUTOPULL follow and the cue drives. -/
def State.again (s : State) (k : Nat) (w te : Nat) : State :=
  let x := s.drover k
  let s := (s.setDrover k { x with t := x.tick te }).autos k w
  if fld w 13 12 = 0 then s else s.setCue x (x.cuePat (fld w 13 12))

/-- An instruction command: the drove has an edge at the offset, at it the drover is RUN with no dwell left, the word is not
uncorrectable and its OP is the command's; the body gets the instruction word and T at the edge. Otherwise the command
names no event. -/
def State.instr (s : State) (k off sense : Nat) (op : Nat → Bool) (body : State → Nat → Nat → State) : State :=
  let s1 := s.edgeBegin k off sense
  let x := s1.drover k
  if s.edgeHere k off = true ∧ s1.instrDue k = true ∧ s1.instrEcc k ≠ .multi ∧ op (fld (s1.instrAt k) 17 14) = true then
    let s2 := s1.storeCorrect k
    body s2 (s2.instrAt k) x.t
  else s

/-- The state at the edge of a fault that a test sees: before a command due at the same edge, which then has no effect, or
after it (R229, R234); none without the fault. -/
def State.faultEdge (s : State) (k off sense : Nat) (test : State → Bool) : Option State :=
  let a := s.edgeBegin k off sense true
  let b := s.edgeBegin k off sense
  if !s.edgeHere k off then none
  else if a.instrDue k && test a then some a
  else if b.instrDue k && test b then some b
  else none

/-- A drover that meets a fault at an edge: T counts, FAULT with the cause (R221, R227). -/
def State.faultNow (s : State) (k cause : Nat) : State :=
  let x := s.drover k
  (s.setDrover k { x with t := x.tick x.t }).droverFault k cause

/-! ### The instructions (R218 to R225) -/

/-- A BR condition that holds, with the drover after its side effect (R219). -/
def Drover.cond (x : Drover) (c : Nat) (test : Bool) : Bool × Drover :=
  match c with
  | 0 => (true, x)
  | 1 => (x.x == 0, x)
  | 2 => let v := (x.x + 2 ^ 18 - 1) % 2 ^ 18; (v != 0, { x with x := v })
  | 3 => (x.y == 0, x)
  | 4 => let v := (x.y + 2 ^ 18 - 1) % 2 ^ 18; (v != 0, { x with y := v })
  | 5 => (x.x == x.y, x)
  | 6 => (test, x)
  | 7 => (!test, x)
  | 8 => (decide (x.inFrame ≤ x.sinFill), x)
  | 9 => (x.soutLeft == 0, x)
  | 10 => (x.eFlag.testBit 0, { x with eFlag := setFld x.eFlag 0 0 0 })
  | 11 => (x.eFlag.testBit 1, { x with eFlag := setFld x.eFlag 1 1 0 })
  | 12 => (x.t == 0, x)
  | 13 => (x.txq == 3, x)
  | 14 => (x.txNew, x)
  | _ => (decide (x.x < x.y), x)

/-- BR (R219). -/
def execBr (k : Fin 256) (off sense : Nat) (test : Bool) (s : State) : Host.Outcome State Fault Refusal :=
  .next (s.instr k off sense (· == 0) fun s w te =>
    let x := s.drover k
    let (taken, x') := x.cond (fld w 10 7) test
    (s.setDrover k x').finish k w te false (if taken then fld w 6 0 else x.nextPc))

/-- The state a HOLD waits for (R218): present, and the flag it clears on completion. -/
def State.holdState (s : State) (k : Nat) (w sense : Nat) (test : Bool) : Bool :=
  let x := s.drover k
  let i := fld w 4 0
  match fld w 10 8 with
  | 0 => sense.testBit i
  | 1 => test
  | 2 => x.eFlag.testBit i
  | 3 => x.t == 0
  | 4 => (s.flagsAt (k / 8) (s.abs s.tide.off)).testBit i
  | 5 => decide (x.inFrame ≤ x.sinFill)
  | _ => x.soutLeft == 0

/-- HOLD (R218, R219, R223, R224). -/
def execHold (k : Fin 256) (off sense : Nat) (test : Bool) (s : State) : Host.Outcome State Fault Refusal :=
  .next (s.instr k off sense (· == 1) fun s w te =>
    let x := s.drover k
    let pol := bit w 7
    let i := fld w 4 0
    if s.holdState k w sense test = pol then
      let s :=
        if pol && fld w 10 8 == 2 then s.setDrover k { x with eFlag := setFld x.eFlag i i 0 }
        else if pol && fld w 10 8 == 4 then s.flagAct (k / 8) (s.abs s.tide.off) 1 i
        else s
      s.finish k w te false x.nextPc
    else s.again k w te)

/-- Sources of SHIN (R218, R220). -/
def Drover.shinSrc (x : Drover) (c sense : Nat) : Nat :=
  match c with
  | 0 => sense % 2 ^ x.senseCount
  | 1 => x.x
  | 2 => x.y
  | 3 => 0
  | 4 => 2 ^ 36 - 1
  | 5 => x.t
  | 6 => x.eFlag
  | _ => x.cnt

/-- SHIN (R220). -/
def execShin (k : Fin 256) (off sense : Nat) (_test : Bool) (s : State) : Host.Outcome State Fault Refusal :=
  .next (s.instr k off sense (· == 2) fun s w te =>
    let x := s.drover k
    let n := fld w 5 0
    let x' := { x with sin := x.shinBits n (x.shinSrc (fld w 10 8) sense), sinFill := min (x.sinFill + n) 36 }
    (s.setDrover k x').finish k w te false x.nextPc)

/-- The next instruction is a SHOUT to PC of an address above LAST (R227). -/
def State.shoutsPast (s : State) (k : Nat) : Bool :=
  let x := s.drover k
  let w := s.instrAt k
  s.instrEcc k != .multi && fld w 17 14 == 3 && fld w 10 8 == 6 && decide (x.last < (x.shoutBits (fld w 5 0)).1 % 128)

/-- SHOUT (R220, R227). -/
def execShout (k : Fin 256) (off sense : Nat) (_test : Bool) (s : State) : Host.Outcome State Fault Refusal :=
  .next (match s.faultEdge k off sense (fun t => t.shoutsPast k) with
  | some t => (t.storeCorrect k).faultNow k 4
  | none => s.instr k off sense (· == 3) fun s w te =>
      let x := s.drover k
      let n := fld w 5 0
      let (v, so) := x.shoutBits n
      let dst := fld w 10 8
      let x' := { x with sout := so, soutLeft := x.soutLeft - n }
      let s := s.setDrover k (match dst with
        | 1 => { x' with x := m18 v }
        | 2 => { x' with y := m18 v }
        | 5 => { x' with t := m18 v }
        | 7 => { x' with cnt := m18 v }
        | _ => x')
      let s := match dst with
        | 0 => s.setLvls x.driveBase (min n x.driveCount) v
        | 4 => s.setDirs x.driveBase (min n x.driveCount) v
        | _ => s
      s.finish k w te (dst == 5) (if dst = 6 then v % 128 else x.nextPc))

/-- LATCH (R220). -/
def execLatch (k : Fin 256) (off sense : Nat) (_test : Bool) (s : State) : Host.Outcome State Fault Refusal :=
  .next (s.instr k off sense (· == 4) fun s w te =>
    let pc := (s.drover k).nextPc
    (s.doLatch k (fld w 10 9) (bit w 8) (bit w 7)).finish k w te false pc)

/-- TAKE (R220, R233). -/
def execTake (k : Fin 256) (off sense : Nat) (_test : Bool) (s : State) : Host.Outcome State Fault Refusal :=
  .next (s.instr k off sense (· == 5) fun s w te =>
    let x := s.drover k
    (s.takeDrover k (x.doTake (bit w 10))).finish k w te false x.nextPc)

/-- Sources of COPY (R218). -/
def Drover.copySrc (x : Drover) (c sense : Nat) : Nat :=
  match c with
  | 0 => sense % 2 ^ x.senseCount
  | 1 => x.x
  | 2 => x.y
  | 3 => x.sin
  | 4 => x.sout
  | 5 => x.t
  | 6 => x.xpre
  | _ => x.ypre

/-- The function of COPY within a width of w bits (R222). -/
def copyFn (fn w v : Nat) : Nat :=
  let v := v % 2 ^ w
  match fn with
  | 0 => v
  | 1 => 2 ^ w - 1 - v
  | 2 => (List.range w).foldl (fun a i => if v.testBit i then a + 2 ^ (w - 1 - i) else a) 0
  | _ => (2 ^ w - v) % 2 ^ w

/-- COPY (R222). -/
def execCopy (k : Fin 256) (off sense : Nat) (_test : Bool) (s : State) : Host.Outcome State Fault Refusal :=
  .next (s.instr k off sense (· == 6) fun s w te =>
    let x := s.drover k
    let dst := fld w 10 8
    let width := match dst with | 3 | 4 => 36 | 0 | 6 => x.driveCount | _ => 18
    let v := copyFn (fld w 7 6) width (x.copySrc (fld w 5 3) sense)
    let s := s.setDrover k (match dst with
      | 1 => { x with x := v }
      | 2 => { x with y := v }
      | 3 => { x with sin := v, sinFill := 36 }
      | 4 => { x with sout := v, soutLeft := x.outFrame }
      | 5 => { x with t := v }
      | 7 => { x with cnt := v }
      | _ => x)
    let s := match dst with
      | 0 => s.setLvls x.driveBase x.driveCount v
      | 6 => s.setDirs x.driveBase x.driveCount v
      | _ => s
    s.finish k w te (dst == 5) x.nextPc)

/-- PUT (R222). -/
def execPut (k : Fin 256) (off sense : Nat) (_test : Bool) (s : State) : Host.Outcome State Fault Refusal :=
  .next (s.instr k off sense (· == 7) fun s w te =>
    let x := s.drover k
    let v := fld w 7 0
    let dst := fld w 10 8
    let s := s.setDrover k (match dst with
      | 1 => { x with x := v }
      | 2 => { x with y := v }
      | 4 => { x with t := v }
      | 5 => { x with cnt := v }
      | _ => x)
    let s := match dst with
      | 0 => s.setLvls x.fixBase x.fixCount v
      | 3 => s.setDirs x.fixBase x.fixCount v
      | _ => s
    s.finish k w te (dst == 4) x.nextPc)

/-- STEP (R222). -/
def execStep (k : Fin 256) (off sense : Nat) (_test : Bool) (s : State) : Host.Outcome State Fault Refusal :=
  .next (s.instr k off sense (· == 8) fun s w te =>
    let x := s.drover k
    let add n := unsgn 18 ((n : Int) + sgn 9 (fld w 8 0))
    let dst := fld w 10 9
    let x' := match dst with
      | 0 => { x with x := add x.x }
      | 1 => { x with y := add x.y }
      | 2 => { x with t := add x.t }
      | _ => { x with cnt := add x.cnt }
    (s.setDrover k x').finish k w te (dst == 2) x.nextPc)

/-- The EDGE action on detector i (R223). -/
def Drover.edgeAct (x : Drover) (act i : Nat) : Drover :=
  match act with
  | 0 => { x with eFlag := setFld x.eFlag i i 0 }
  | 1 => { x with eMode := setFld x.eMode (2 * i + 1) (2 * i) 0 }
  | 2 => { x with eMode := setFld x.eMode (2 * i + 1) (2 * i) 1, eFlag := setFld x.eFlag i i 0 }
  | 3 => { x with eMode := setFld x.eMode (2 * i + 1) (2 * i) 2, eFlag := setFld x.eFlag i i 0 }
  | _ => { x with eMode := setFld x.eMode (2 * i + 1) (2 * i) 3, eFlag := setFld x.eFlag i i 0 }

/-- EDGE (R223). -/
def execEdge (k : Fin 256) (off sense : Nat) (_test : Bool) (s : State) : Host.Outcome State Fault Refusal :=
  .next (s.instr k off sense (· == 9) fun s w te =>
    let x := s.drover k
    let x' := (List.range 8).foldl (fun x i => if (fld w 7 0).testBit i then x.edgeAct (fld w 10 8) i else x) x
    (s.setDrover k x').finish k w te false x.nextPc)

/-- FLAG (R224). -/
def execFlag (k : Fin 256) (off sense : Nat) (_test : Bool) (s : State) : Host.Outcome State Fault Refusal :=
  .next (s.instr k off sense (· == 10) fun s w te =>
    (s.flagAct (k / 8) (s.abs s.tide.off) (fld w 10 9) (fld w 2 0)).finish k w te false (s.drover k).nextPc)

/-- HALT (R228): STOPPED with CAUSE 1, the PC as R225 gives it; a drover that its AUTOPUSH has put into FAULT stays there. -/
def execHalt (k : Fin 256) (off sense : Nat) (_test : Bool) (s : State) : Host.Outcome State Fault Refusal :=
  .next (s.instr k off sense (· == 11) fun s w te =>
    let s := s.finish k w te false (s.drover k).nextPc
    if (s.drover k).state = .run then s.setDrover k { s.drover k with state := .stopped, cause := 1 } else s)

/-- UNDEFINED_DROVER_OPCODE (R227): FAULT, also where a command takes effect at the same edge (R229, R234). -/
def execUndefinedDroverOpcode (k : Fin 256) (off sense : Nat) (_test : Bool) (s : State) :
    Host.Outcome State Fault Refusal :=
  .next (match s.faultEdge k off sense (fun t => t.instrEcc k != .multi && decide (12 ≤ fld (t.instrAt k) 17 14)) with
  | some t => (t.storeCorrect k).faultNow k (fld (t.instrAt k) 17 14 - 4)
  | none => s)

/-- The store word at ORIGIN + PC is uncorrectable from now on. -/
def State.storeBad (s : State) (k : Nat) : State :=
  let d := s.drove (k / 8)
  let x := s.drover k
  s.setDrove (k / 8) { d with ecc := Tab.set .good d.ecc (x.origin + x.pc) .multi }

/-- DROVE_STORE_UNCORRECTABLE (R227): the word at ORIGIN + PC is found uncorrectable, CAUSE 5. -/
def execDroveStoreUncorrectable (k : Fin 256) (off sense : Nat) (_test : Bool) (s : State) :
    Host.Outcome State Fault Refusal :=
  .next (match s.faultEdge k off sense (fun _ => true) with
  | some t => (t.storeBad k).faultNow k 5
  | none => s)

/-- DROVER_CLOCK_EDGE (R216): a dwell clock, or an edge of a drover that is not RUN; of one that is OFF the edge makes its
register writes visible (R54, R230). The detectors of a drover that is STOPPED or in FAULT go on setting their flags: R210
speaks of RUN, R223 of every edge (DESIGN CHOICE, log 145). -/
def execDroverClockEdge (k : Fin 256) (off sense : Nat) (_test : Bool) (s : State) :
    Host.Outcome State Fault Refusal :=
  let s1 := s.edgeBegin k off sense
  let x := s1.drover k
  .next (if !s.edgeHere k off then s
    else if x.state = .off then s.edgeWrites k off false
    else if x.state = .run then
      if x.dwell = 0 then s else s1.setDrover k { x with dwell := x.dwell - 1, t := x.tick x.t }
    else s1.setDrover k { x with t := x.tick x.t })

/-! ### Control (R228, R229) -/

/-- A tile that a drover is about to run in stays awake from now to the end of its dark interval (R236). -/
def State.keepAwake (s : State) (t : Nat) : State :=
  let s := if Tab.get 0 s.tide.darkAt t = 0 then s else s.wakeTile t s.tide.off
  { s with tide.slackAwake := s.tide.slackAwake.filter (· ≠ t) }

/-- A command waits for its edge; RUN and RESTART keep the tile awake (R236). -/
def State.drvQueue (s : State) (k cmd : Nat) : State :=
  let s := if cmd = 2 then s else s.keepAwake (k / 16)
  let x := s.drover k
  s.setDrover k { x with waits := x.waits ++ [⟨8, BitVec.ofNat 18 cmd, s.abs s.tide.off, 0⟩] }

/-- Whether a DRV_CTRL command is listed for the drover's state (R228). -/
def State.drvAllowed (s : State) (k cmd : Nat) : Bool :=
  match cmd, (s.drover k).state with
  | 1, .stopped => true
  | 2, .run => true
  | 3, .run | 3, .stopped => true
  | 3, .fault => s.drvFree k
  | _, _ => false

/-- A DRV_CTRL command, or BAD_STATE. -/
def State.drvCtrl (s : State) (k cmd : Nat) : State :=
  if s.drvAllowed k cmd then s.drvQueue k cmd else s.abort (0x04009 + 16 * k) 7

/-- DRV_RUN (R228). -/
def execDrvRun (k : Fin 256) (s : State) : Host.Outcome State Fault Refusal := .next (s.drvCtrl k 1)
/-- DRV_STOP (R228). -/
def execDrvStop (k : Fin 256) (s : State) : Host.Outcome State Fault Refusal := .next (s.drvCtrl k 2)
/-- DRV_RESTART (R229). -/
def execDrvRestart (k : Fin 256) (s : State) : Host.Outcome State Fault Refusal := .next (s.drvCtrl k 3)

/-! ### Unscheduled writes (R235) -/

/-- DROVE_REGISTER_WRITE (R235): one access of class DICT, visible as R54 gives. -/
def execDroveRegisterWrite (d : Fin 32) (w : Fin 64) (v : Word) (s : State) : Host.Outcome State Fault Refusal :=
  .next ((s.enter 2 (regWriteStages d)).drvRegWrite d w v (s.abs s.tide.off))

/-- DROVE_STORE_WRITE (R235): the load store is writable while XSTATE is IDLE. -/
def execDroveStoreWrite (d : Fin 32) (a : Fin 512) (v : Word) (s : State) : Host.Outcome State Fault Refusal :=
  let x := s.drove d
  .next (if x.xstate = .idle then s.setDrove d { x with load := Tab.set 0 x.load a v, loadEcc := Tab.set .good x.loadEcc a .good }
    else s.emit .abort (0x0400E + 128 * d) [3])

/-! ### Load checks (R226) -/

/-- An instruction's reserved bits and codes, targets and indexes, for a drover of these settings (R218, R223, R226). -/
def instrOk (x : Drover) (w : Nat) : Bool :=
  let op := fld w 17 14
  let sub := fld w 10 8
  (fld w 13 12 == 0 || x.cueCount != 0) &&
  match op with
  | 0 => decide (fld w 6 0 ≤ x.last)
  | 1 => fld w 6 5 == 0 && (match sub with
      | 0 => decide (fld w 4 0 < x.senseCount)
      | 1 | 5 | 6 => fld w 4 0 == 0
      | 2 => bit w 7 && decide (fld w 4 0 < min x.senseCount 8)
      | 3 => bit w 7 && fld w 4 0 == 0
      | 4 => decide (fld w 4 0 ≤ 7)
      | _ => false)
  | 2 => fld w 7 6 == 0 && decide (1 ≤ fld w 5 0) && decide (fld w 5 0 ≤ 36)
  | 3 => fld w 7 6 == 0 && decide (1 ≤ fld w 5 0) && decide (fld w 5 0 ≤ 36)
  | 4 => fld w 6 0 == 0 && fld w 10 9 != 2 && (!bit w 8 || (fld w 10 9 == 0 && !bit w 7))
  | 5 => fld w 9 0 == 0
  | 6 => fld w 2 0 == 0
  | 7 => decide (sub ≤ 5)
  | 8 => true
  | 9 => decide (sub ≤ 4) && (List.range 8).all fun i => !(fld w 7 0).testBit i || decide (i < min x.senseCount 8)
  | 10 => fld w 10 9 != 3 && fld w 8 3 == 0
  | 11 => fld w 10 0 == 0
  | _ => false

/-- The settings' own fields (R226). -/
def Drover.settingsOk (x : Drover) : Bool :=
  decide (x.wrapTop ≤ x.last) && decide (x.wrapBottom ≤ x.last) && decide (x.origin + x.last ≤ 511)
  && decide (x.cueCount ≤ 4) && decide (x.driveCount ≤ 32) && decide (x.fixCount ≤ 8) && decide (x.senseCount ≤ 32)
  && decide (x.driveBase + x.driveCount ≤ 1024) && decide (x.fixBase + x.fixCount ≤ 1024)
  && decide (x.cueBase + x.cueCount ≤ 1024) && decide (x.senseBase + x.senseCount ≤ 1024)
  && decide (1 ≤ x.inFrame) && decide (x.inFrame ≤ 36) && decide (1 ≤ x.outFrame) && decide (x.outFrame ≤ 36)
  && !bit x.prog 14 && !bit x.shift 0 && fld x.outwin 2 0 == 0

/-- A drover's program in a store passes R226. -/
def progOk (store : Nat → Nat) (x : Drover) : Bool :=
  !x.enabled || (x.settingsOk && (List.range (x.last + 1)).all fun i => instrOk x (store (x.origin + i)))

/-! ### Exchange (R237 to R239) -/

/-- The drover with its NEXT settings (R237). -/
def State.nextDrover (s : State) (k : Nat) : Drover :=
  { s.drover k with prog := s.cfg (0x04005 + 16 * k), shift := s.cfg (0x04006 + 16 * k), init := s.cfg (0x04007 + 16 * k) }

/-- The checks of an EXCHANGE (R237). -/
def State.exchangeOk (s : State) (d mask : Nat) : Bool :=
  let v := s.drove d
  (List.range 8).all fun j =>
    let k := 8 * d + j
    if mask.testBit j then progOk (fun a => (Tab.get 0 v.load a).toNat) (s.nextDrover k)
    else
      let x := s.drover k
      !x.enabled || (List.range (x.last + 1)).all fun i => Tab.get 0 v.load (x.origin + i) == Tab.get 0 v.store (x.origin + i)

/-- What a started program carries (R239). -/
def Drover.carried (x : Drover) (carry : Nat) : Drover :=
  let x := if carry.testBit 0 then x else { x with sin := 0, sout := 0, sinFill := 0, soutLeft := 0 }
  let x := if carry.testBit 1 then x else { x with x := x.xpre, y := x.ypre }
  let x := if carry.testBit 2 then x else { x with t := x.restartT }
  let x := if carry.testBit 3 then x else { x with eMode := x.edgeArm, eFlag := 0 }
  { x with safeOverride := bit x.shift 1 && x.txq == 3, dwell := 0, pc := 0 }

/-- A drover takes new settings at an exchange or a swap: it goes OFF when they disable it, and in a drove without a clock
(R209); else its program starts at address 0, in a tile that is not dark (R236). A drover that is STOPPED or in FAULT stays so
until its command (R228). -/
def State.startDrover (s : State) (k : Nat) (new : Drover) (carry : Nat) : State :=
  if !new.enabled || (s.drove (k / 8)).n == 0 then s.setDrover k { new with state := .off, cause := 0 }
  else
    let was := (s.drover k).state
    let x := new.carried carry
    let x := if was = .fault ∨ was = .stopped then x else { x with state := .run, cause := 0 }
    let s := (if x.state = .run then s.keepAwake (k / 16) else s).takeDrover k x
    if was = .off then s.startPins x else s

/-- EXCHANGE_TURN (R238): at the first turn at least 256 wc after the acceptance. -/
def State.exchangeTurn (s : State) (d : Nat) : State :=
  let v := s.drove d
  if v.xstate = .pending ∧ v.pendingAt + 256 ≤ s.tide.abs0 then
    let s := s.setDrove d
      { v with store := v.load, load := v.store, ecc := v.loadEcc, loadEcc := v.ecc, xstate := .idle, exchanges := satAdd 9 v.exchanges 1 }
    let s := (List.range 8).foldl (fun s j =>
      if v.mask.testBit j then s.startDrover (8 * d + j) (s.nextDrover (8 * d + j)) v.carry else s) s
    s.fire 99 d
  else s

/-- DROVE_COPY (R237). -/
def execDroveCopy (d : Fin 32) (s : State) : Host.Outcome State Fault Refusal :=
  let v := s.drove d
  .next (if v.xstate = .idle then s.setDrove d { v with xstate := .copying } else s.abort (0x0400D + 128 * d) 7)

/-- DROVE_COPY_DONE (R237). -/
def execDroveCopyDone (d : Fin 32) (s : State) : Host.Outcome State Fault Refusal :=
  let v := s.drove d
  .next (if v.xstate = .copying then s.setDrove d { v with xstate := .idle, load := v.store, loadEcc := v.ecc.filter fun p => p.2 == .multi }
    else s)

/-- EXCHANGE (R237). -/
def execExchange (d : Fin 32) (mask : Fin 256) (carry : Fin 16) (s : State) : Host.Outcome State Fault Refusal :=
  let v := s.drove d
  .next (if v.xstate ≠ .idle then s.abort (0x0400D + 128 * d) 7
    else if s.exchangeOk d mask then
      s.setDrove d { v with xstate := .pending, mask := mask, carry := carry, pendingAt := s.abs s.tide.off }
    else s.abort (0x0400D + 128 * d) 6)

/-- EXCHANGE_CANCEL (R237, R242). -/
def execExchangeCancel (d : Fin 32) (s : State) : Host.Outcome State Fault Refusal :=
  let v := s.drove d
  .next (if v.xstate = .pending then (s.setDrove d { v with xstate := .idle }).fire 99 d else s.abort (0x0400D + 128 * d) 7)

/-! ### The DROVER_PROGRAMS section (R240, R241) -/

/-- The drover record k of drove record r. -/
def secDrover (r : List Word) (k : Nat) : Drover :=
  let b := 513 + 12 * k
  { Drover.blank with
    prog := sec36 r b, outwin := sec36 r (b + 2), inwin := sec36 r (b + 4), init := sec36 r (b + 6),
    shift := (r.getD (b + 8) 0).toNat, xpre := (r.getD (b + 9) 0).toNat, ypre := (r.getD (b + 10) 0).toNat,
    tper := (r.getD (b + 11) 0).toNat }

/-- The drove record d of a section. -/
def secDrove (l : List Word) (d : Nat) : List Word := (l.drop (609 * d)).take 609

/-- Settings equal, program words and initial values aside. -/
def Drover.sameSettings (a b : Drover) : Bool :=
  a.prog == b.prog && a.outwin == b.outwin && a.inwin == b.inwin && a.shift == b.shift && a.init == b.init

/-- The initial values of XPRE, YPRE and TPER in two records are equal (R241). -/
def sameInitial (a b : Drover) : Bool := a.xpre == b.xpre && a.ypre == b.ypre && a.tper == b.tper

/-- One drover at the swap tide (R240), by the new section's record and the old one's: one that was not enabled starts with the
section's XPRE, YPRE and TPER, and carries everything else as R239 says. -/
def State.swapDrover (s : State) (r old : List Word) (k : Nat) (oldN : Nat) (oldStore : Tab Word) : State :=
  let x := s.drover k
  let new := secDrover r (k % 8)
  let n := (r.getD 0 0).toNat % 65536
  let same := x.enabled && new.enabled && x.sameSettings new && sameInitial new (secDrover old (k % 8)) && oldN == n
    && (List.range (x.last + 1)).all fun i => Tab.get 0 oldStore (x.origin + i) == r.getD (1 + x.origin + i) 0
  if same then s
  else if x.enabled then
    s.startDrover k { x with prog := new.prog, outwin := new.outwin, inwin := new.inwin, shift := new.shift, init := new.init } (fld new.init 15 12)
  else s.startDrover k { x with prog := new.prog, outwin := new.outwin, inwin := new.inwin, shift := new.shift, init := new.init,
                                xpre := new.xpre, ypre := new.ypre, tper := new.tper } (fld new.init 15 12)

/-- Every drove takes its load store as active at the swap tide; a table without the section carries no program, and ends an
exchange that is still pending. -/
def State.droveSwap (s : State) (old sec : List Word) : State :=
  (List.range 32).foldl (fun s d =>
    let v := s.drove d
    let r := secDrove sec d
    let r0 := secDrove old d
    let n := (r.getD 0 0).toNat % 65536
    let store := Tab.setList 0 [] 0 ((r.drop 1).take 512)
    let s := s.setDrove d { v with n := n, store := store, load := v.store, ecc := v.loadEcc, loadEcc := v.ecc, xstate := .idle }
    let s := if v.xstate = .pending then s.fire 99 d else s
    (List.range 8).foldl (fun s j => s.swapDrover r r0 (8 * d + j) v.n v.store) s) s

/-- Step 9 of R122 for the section: the load stores belong to the staging table, and pending exchanges are cancelled. -/
def State.droveStage (s : State) (sec : List Word) : State :=
  (List.range 32).foldl (fun s d =>
    let v := s.drove d
    let s := s.setDrove d { v with load := Tab.setList 0 [] 0 (((secDrove sec d).drop 1).take 512), loadEcc := [], xstate := .blocked }
    if v.xstate = .pending then s.fire 99 d else s) s

/-- The load stores are free again (R240). -/
def State.droveUnstage (s : State) : State :=
  (List.range 32).foldl (fun s d =>
    let v := s.drove d
    if v.xstate = .blocked then s.setDrove d { v with xstate := .idle } else s) s

/-- A drover runs, or has been told to (R77, R236). -/
def Drover.runs (x : Drover) : Bool := x.state == .run || x.waits.any fun w => w.word == 8 && w.value != 2

/-- A tile has a running drover (R77). -/
def State.tileRuns (s : State) (t : Nat) : Bool := (List.range 16).any fun j => (s.drover (16 * t + j)).runs

end Sys2Proof.Machine
end

