-- ==== Sys2Proof/Machine/Pins.lean ====
section
/-! DEFINITION. The field pins (chapter 8): banks, filters, captures, discrete inputs and outputs, and beacons. What
drives a ball stands in Machine/Govern.lean. -/

namespace Sys2Proof.Machine

/-! ### Banks (R245) -/

/-- VIO_STATE_CHANGE (R245); Bell takes the fault only while it runs (R515). -/
def execVioStateChange (b : Fin 32) (vio : Fin 4) (s : State) : Host.Outcome State Fault Refusal :=
  let was := Tab.get 0 s.pin.vio b
  let s1 := { s with pin.vio := Tab.set 0 s.pin.vio b vio.val }
  .next (if vio.val = 0 then s1
    else
      let s2 := if s1.pin.out.contains b.val then s1 else { s1 with pin.out := b.val :: s1.pin.out }
      if was = 0 then s2.fireLive 112 b else s2)

/-- BANK_RETURN_TO_SERVICE (R245): at the first turn after 1 ms in range. -/
def execBankReturnToService (b : Fin 32) (s : State) : Host.Outcome State Fault Refusal :=
  .next (if Tab.get 0 s.pin.vio b = 0 then { s with pin.out := s.pin.out.filter (· != b.val) } else s)

/-! ### Filters and capture (R255, R257) -/

/-- FILTER_OUTPUT_CHANGE (R255). -/
def execFilterOutputChange (p : Fin 1024) (level : Bool) (s : State) : Host.Outcome State Fault Refusal :=
  .next { s with pin.filt := Tab.set false s.pin.filt p level }

/-- Fabric time at which an edge detected at an offset reached the ball: less the synchroniser's 3 wc (R56) and F. -/
def State.edgeTime (s : State) (p off : Nat) : Nat :=
  timeVal (s.timeAt off - (3 + pinFilter (s.pinCfg p)) * tickPerWc)

/-- The counts and time quality of CAPTURE_COUNT after one more edge. -/
def State.captureCount (s : State) (p : Nat) (rise : Bool) : Nat :=
  let v := Tab.get 0 s.pin.captures p
  let v := if rise then setFld v 33 18 (satAdd 16 (fld v 33 18) 1) else setFld v 17 2 (satAdd 16 (fld v 17 2) 1)
  setFld v 35 34 s.timeQ

/-- PIN_CAPTURE (R257). -/
def execPinCapture (p : Fin 1024) (rise : Bool) (off : Nat) (s : State) : Host.Outcome State Fault Refusal :=
  let s1 := s.advance off
  let t := s1.edgeTime p off
  .next (if bit (s.pinCfg p) (if rise then 7 else 8) && s.bankOk (p.val / 32) && Tab.get false s.pin.filt p == rise then
      let s2 := { s1 with pin.captures := Tab.set 0 s1.pin.captures p (s1.captureCount p rise) }
      if rise then { s2 with pin.rise := Tab.set 0 s2.pin.rise p t } else { s2 with pin.fall := Tab.set 0 s2.pin.fall p t }
    else s)

/-! ### Beacons (R261 to R263) -/

/-- BEACON_WIDTH in time units. -/
def beaconWidth (v : Nat) : Nat :=
  fld v 15 0 * (match fld v 17 16 with | 0 => tickPerWc | 1 => 1000 * tickPerNs | _ => 1000000 * tickPerNs)

/-- The settings as they stand, as an ARMED beacon: the first pulse is at START, or periodic at the first
START + k × PERIOD at least 1,024 wc after the grant. -/
def State.beaconTake (s : State) (b : Nat) : Beacon :=
  let start := timeUnits (s.cfg 0x05010 b)
  let period := fld (s.cfg 0x05011 b) 33 4 * tickPerNs
  let least := s.now + 1024 * tickPerWc
  let due := if period = 0 ∨ least ≤ start then start else start + ((least - start + period - 1) / period) * period
  { state := .armed, pulses := 0, activeLow := bit (s.cfg 0x05011 b) 35, width := beaconWidth (s.cfg 0x05012 b),
    period := period, due := due, active := false }

/-- An armed or running beacon without valid fabric time stops (R262). -/
def State.beaconLost (s : State) (b : Nat) : State :=
  let x := s.beacon b
  if x.state = .armed ∨ x.state = .running then
    (s.setBeacon b { x with state := .stopped, active := false }).fire 114 b
  else s

/-- BEACON_ARM (R262). -/
def execBeaconArm (b : Fin 64) (s : State) : Host.Outcome State Fault Refusal :=
  let x := s.beaconTake b
  .next (if (s.beacon b).state ≠ .idle then s.abort 0x05013 7
    else if x.width = 0 ∨ (x.period ≠ 0 ∧ x.period ≤ x.width) then s.abort 0x05013 6
    else if s.time.state = .unset then (s.setBeacon b x).beaconLost b
    else if x.period = 0 ∧ x.due < s.now + 1024 * tickPerWc then (s.setBeacon b { x with state := .missed }).fire 114 b
    else s.setBeacon b x)

/-- BEACON_STOP (R262). -/
def execBeaconStop (b : Fin 64) (s : State) : Host.Outcome State Fault Refusal :=
  .next (if (s.beacon b).state = .idle then s.abort 0x05013 7
    else s.setBeacon b { s.beacon b with state := .idle, active := false })

/-- A beacon after its next edge. -/
def Beacon.edge (x : Beacon) : Beacon :=
  if x.active then
    { x with active := false, pulses := satAdd 15 x.pulses 1, due := x.due - x.width + x.period,
             state := if x.period = 0 then .done else x.state }
  else { x with active := true, due := x.due + x.width, state := if x.period = 0 then x.state else .running }

/-- BEACON_EDGE (R261): the edge falls within 0.4 ns before and 2.0 ns after its programmed time. -/
def execBeaconEdge (b : Fin 64) (off : Nat) (s : State) : Host.Outcome State Fault Refusal :=
  let s1 := s.advance off
  let x := s1.beacon b
  .next (if (x.state = .armed ∨ x.state = .running) ∧ 5 * x.due ≤ 5 * s1.now + 2 * tickPerNs
        ∧ s1.now ≤ x.due + 2 * tickPerNs then
      s1.setBeacon b x.edge
    else s)

end Sys2Proof.Machine
end

