-- ==== Sys2Proof/Machine/Events.lean ====
section
/-! DEFINITION. Events of buses, links and ports that come at a stated cycle: the start of a bus frame, a scheduled cell that
arrives, the start of a best-effort frame. -/

namespace Sys2Proof.Machine

/-- BUS_FRAME_START (R280). -/
def execBusFrameStart (ch : Fin 128) (off : Nat) (s : State) : Host.Outcome State Fault Refusal :=
  let c := ch.val
  let s1 := s.advance off
  .next (if s1.maySend c then
      match s1.busChoose c with
      | none => s
      | some b =>
        let x := s1.chan c
        let w := hdrw (x.tb b).image
        let isR := b == 0 && fld (s1.busMode c) 13 12 == 1 && isRef (s1.cfg (busEntry c 10)) w
        let body := if isR then refPayload w x.refs s1.now (s1.time.state != .unset) else []
        s1.setChan c { x.setTb b { x.tb b with state := .active } with sof := timeVal s1.now, refBody := body }
    else s)

/-- Time at which a slot of the far end's grid passes this station (R62); with no tide there is no grid to wait on. -/
def State.atPass (s : State) (l beat slot : Nat) : State := if s.tideRuns then s.advance (s.passOffset l beat slot) else s

/-- RING_SCHEDULED_CELL (R342); `beat` counts in the grid of the far end's transmit link (R62). -/
def execRingScheduledCell (l : Fin 5) (beat : Nat) (slot : Fin 5) (cell : List Word) (check : Fin 256) (s : State) :
    Host.Outcome State Fault Refusal :=
  .next ((s.atPass l beat slot).cellArrives l cell check beat slot)

/-- UNSCHEDULED_CELL_TRANSIT (R342, R346); `beat` counts as there. -/
def execUnscheduledCellTransit (l : Fin 5) (cell : List Word) (check : Fin 256) (beat : Nat) (slot : Fin 5) (s : State) :
    Host.Outcome State Fault Refusal :=
  .next ((s.atPass l beat slot).cellArrives l cell check beat slot)

/-- TRANSIT_CELL_SEND (R66, R343): what waits on a link, in a beat and slot of its own grid. -/
def execTransitCellSend (l : Fin 4) (beat : Nat) (slot : Fin 5) (s : State) : Host.Outcome State Fault Refusal :=
  .next ((if s.tideRuns then s.advance (s.slotOffset l beat slot) else s).slotServes l beat slot)

/-- BEST_EFFORT_FRAME_START (R316): only when it ends at or before the port's next t_tx; its stamp is that of the
first bit of the destination address (R309). -/
def execBestEffortFrameStart (p : Fin 49) (off : Nat) (s : State) : Host.Outcome State Fault Refusal :=
  let s1 := s.advance off
  let now := s1.abs s1.tide.off
  let x := s1.port p
  .next (match s1.nextFrame p with
    | none => s1
    | some (tc, f) =>
      let b := tagOut (s1.portCfg p) f
      let till := now + wireTime p (s1.portRate p) (b.length + 4)
      let fits := match s1.nextTx p now with | none => true | some t => decide (till ≤ t)
      if (x.state = .up ∨ x.state = .drain) ∧ x.sends = true ∧ s1.portSafe p = false ∧ x.busy ≤ now ∧ fits = true then
        let s := (s1.setBq p tc ((s1.bq p tc).drop 1)).setPort p { x with busy := till }
        ((s.emit .ethFrame p (withFcs b)).portCount p 5).sessions { f with bytes := b } p 1 (s.stampAt (s.now + wireAddr p (s1.portRate p) * tickPerWc)) none
      else s1)

end Sys2Proof.Machine
end

