-- ==== Sys2Proof/Machine/Time.lean ====
section
/-! DEFINITION. Fabric time (chapter 13): the time state of a station, SYNC over the ring, time domains and PTP on the
Ethernet ports, and which domain the tide master follows. -/

namespace Sys2Proof.Machine

/-! ### The time state (R399) and its bound (R411) -/

def Domain.blank : Domain :=
  { dstate := 0, ingress := none, gm := 0, cls := 0, steps := 0, offset := 0, measured := 0, filtered := 0, sum := 0, count := 0, rate := 0, run := 0, lastSeq := 0, delay := 0, t1 := 0, t2 := 0,
    twoStep := none, reqSeq := 0, reqAt := 0, pdelay := none }
def State.domain (s : State) (d : Nat) : Domain := Tab.get Domain.blank s.time.domains d
def State.setDomain (s : State) (d : Nat) (x : Domain) : State :=
  { s with time.domains := Tab.set Domain.blank s.time.domains d x }

/-- TIME_DOMAIN and its fields. -/
def State.domCfg (s : State) (d : Nat) : Nat := s.cfg 0x09010 d
def State.domOn (s : State) (d : Nat) : Bool := bit (s.domCfg d) 35
def State.domProfile (s : State) (d : Nat) : Nat := fld (s.domCfg d) 34 33

/-- DSTATE as it shows: DISABLED while ENABLE is 0, else LISTENING at the least. -/
def State.dstate (s : State) (d : Nat) : Nat := if s.domOn d then max 1 (s.domain d).dstate else 0

/-- The station of the tide master or acting master. -/
def State.masterStation (s : State) : Option Nat := s.clockMaster
def State.isMaster (s : State) : Bool := s.muster.role == 1 || s.muster.role == 2

/-- Hops of the intact path from the tide master along a forward direction (R402). -/
def State.pathHops (s : State) (dir : Nat) : Option Nat :=
  match s.clockMaster with
  | none => none
  | some m =>
    let w := (s.round (dirWrap dir)).takeWhile Prod.snd
    let i := w.findIdx fun p => p.1 == m
    if i < w.length then some (i + 1) else none

/-- The forward direction whose SYNC a member takes, and its hops: the fewer hops, ring A on equal hops; while the roster
tells of neither, the one whose receive link is UP, ring A first. -/
def State.syncPath (s : State) : Option (Nat × Nat) :=
  match s.pathHops 0, s.pathHops 2 with
  | some a, some b => if a ≤ b then some (0, a) else some (2, b)
  | some a, none => some (0, a)
  | none, some b => some (2, b)
  | none, none => if s.linkUp 1 then some (0, 0) else if s.linkUp 2 then some (2, 0) else none

/-- A bound e of R403 over a path, in 0.1 ns. -/
def errPath (hops : Nat) : Nat := (400 + 201 * hops + 99) / 100

/-- An offset's size in 0.1 ns. -/
def errOffset (o : Int) : Nat := (o.natAbs * 10 + 65535) / 65536

/-- The bound as it grows from its last entry (R411), in 0.1 ns. -/
def State.errGrown (s : State) : Nat := s.time.errBase + (s.time.errPpb * (s.bell.tick - s.time.errTick) + 99) / 100

/-- HOLD_PPB in ppb (R415). -/
def State.holdPpb (s : State) : Nat := fld (s.cfg 0x09002) 20 16 * 10

/-- The bound of R411 now, in 0.1 ns. -/
def State.errNow (s : State) : Nat :=
  match s.time.state with
  | .free | .locked =>
    let own := errPath (if s.isMaster then 0 else (s.syncPath.map Prod.snd).getD 0)
    own + (if s.time.follow < 2 then errOffset (s.domain s.time.follow).filtered else 0)
  | _ => s.errGrown

/-- Every beacon loses valid time (R262). -/
def State.beaconsLost (s : State) : State := (s.pin.beacons.map Prod.fst).foldl (fun s b => s.beaconLost b) s

/-- TIME_STATE_CHANGE (R399). -/
def State.toTime (s : State) (st : TimeState) : State :=
  if s.time.state = st then s
  else
    let e := s.errNow
    let s := { s with time.state := st, time.errBase := e, time.errPpb := s.holdPpb, time.errTick := s.bell.tick }
    let s := (s.bump 0x09016 6).fire 224 0
    match st with
    | .holdover => s.fire 225 0
    | .unset => (s.fire 226 0).beaconsLost
    | _ => s

/-- The bound grows from here by a rate in ppb (R411): from entry to KEEP or DEEP KEEP on by 50 ppm. -/
def State.errFrom (s : State) (ppb : Nat) : State :=
  { s with time.errBase := s.errNow, time.errPpb := ppb, time.errTick := s.bell.tick }
def State.errKept (s : State) : State := if s.power.state = .keep then s else s.errFrom 50000

/-- After a flood: HOLDOVER, unless the station was UNSET (R399), with the bound at KEEP entry and its growth in KEEP, which
grows on by HOLD_PPB (R411). -/
def State.timeFlooded (s : State) : State :=
  let e := s.errGrown
  let s := if s.time.state = .unset then s else s.toTime .holdover
  { s with time.errBase := e, time.errPpb := s.holdPpb, time.errTick := s.bell.tick }

/-- The state that a tide master or acting master holds (R399). -/
def State.masterTime (s : State) : State :=
  if s.time.follow < 2 ∧ s.dstate s.time.follow = 3 then
    { s with time.everLocked := true, time.afterFlood := false }.toTime .locked
  else if s.time.everLocked || s.time.afterFlood then s.toTime .holdover
  else s.toTime .free

/-- The state that a member holds after an accepted SYNC (R399). -/
def State.memberTime (s : State) : State :=
  if 20 * 65536 < s.time.average.natAbs then s.toTime .holdover
  else match s.time.masterState with
    | 1 => s.toTime .free
    | 2 => s.toTime .locked
    | 3 => s.toTime .holdover
    | _ => s

/-- TRACEABLE: the fabric follows a domain. -/
def State.traceable (s : State) : Bool := if s.isMaster then s.time.follow < 2 else s.time.traceable

/-! ### SYNC (R400 to R402) -/

/-- Division rounded to nearest. -/
def roundDiv (a : Int) (b : Nat) : Int := (2 * a + b) / (2 * (b : Int))

/-- A count of 1/16 wc in 2^-16 ns. -/
def sixteenths (n : Nat) : Int := roundDiv ((n : Int) * 65536) 20

/-- Incoming delay of a receive link in 2^-16 ns: (RT − TA)/2 and ASYM/2 (R350, R401). -/
def State.incoming (s : State) (l : Nat) : Int :=
  roundDiv ((50 * ((s.link l).raw : Int) + sgn 18 (s.cfg 0x09006 l)) * 65536) 2000

/-- A 112-bit TIME in 2^-16 ns. -/
def time16 (v : Nat) : Int := ((timeUnits v / 5 : Nat) : Int)

/-- 16-bit words of a signed 64-bit number, highest first. -/
def words64 (i : Int) : List Nat :=
  let n := unsgn 64 i
  [fld n 63 48, fld n 47 32, fld n 31 16, fld n 15 0]

/-- The payload of a SYNC. -/
def syncPay (m : SyncMsg) (corr : Int) : List Nat :=
  [put 14 4 1, m.epoch, put 16 2 m.state.val + putB 15 m.traceable + put 13 2 m.follow.val] ++ timeWords m.origin 0
  ++ words64 corr ++ words36 m.f ++ [fld m.utc 15 0, fld m.utc 18 16] ++ words64 m.off0 ++ words64 m.off1

/-- A SYNC of this station now. -/
def State.mkSync (s : State) : SyncMsg :=
  { epoch := s.muster.epoch
    state := match s.time.state with | .unset => 0 | .free => 1 | .locked => 2 | .holdover => 3
    traceable := s.traceable, follow := Fin.ofNat 4 s.time.follow, origin := timeVal s.now, corr := 0, f := s.time.F,
    utc := s.cfg 0x09005, off0 := (s.domain 0).offset, off1 := (s.domain 1).offset }

/-- SYNC leaves on each forward direction whose link is UP. -/
def State.sendSync (s : State) : State :=
  s.byShepherd fun (s : State) =>
    let pay := syncPay s.mkSync 0
    let s := if s.linkUp 0 then s.sendCell 0 5 none pay else s
    if s.linkUp 3 then s.sendCell 2 5 none pay else s

/-- A cell of this station as it leaves now: in a SYNC, ORIGIN is the fabric time of its block 0 (R401). -/
def State.stampOrigin (s : State) (w : List Word) : List Word :=
  let x k := (w.getD k 0).toNat
  if fld (x 0) 17 14 = 5 ∧ fld (x 4) 17 14 = 1 ∧ 2 * fld (x 1) 17 8 + fld (x 1) 7 7 = s.station then
    w.take 7 ++ (timeWords (timeVal s.now) 0).map (BitVec.ofNat 18) ++ w.drop 14
  else w

/-- A forwarded broadcast that this station changes waits in the transit buffer of the onward link, or wrapped, or is lost (R66,
R346, R352), with a SEQ that its command leaves open (log 118). -/
def State.forward (s : State) (l : Nat) (kind src hops : Nat) (wrapped : Bool) (pay : List Nat) : State :=
  let send (s : State) (o : Nat) (w : Bool) : State :=
    let (s, seq) := s.draw
    s.transitPut o (cellOf src kind w true 0 seq (hops - 1) true true pay)
  if hops ≤ 1 then s.linkCount l 8
  else if s.linkTakes (onward l) then send s (onward l) wrapped
  else if wrapped then s.linkCount (onward l) 9
  else send (s.countWrap (onward l)) l true

/-- The averaged offset of R402 takes another sample; whole averages take force. -/
def State.filterOffset (s : State) (o : Int) : State :=
  let n := s.time.count + 1
  let sum := s.time.sum + o
  if 2 ^ fld (s.cfg 0x09002) 7 4 ≤ n then
    { s with time.sum := 0, time.count := 0, time.average := sum / (n : Int) }
  else { s with time.sum := sum, time.count := n }

/-- The first SYNC that a station accepts in an epoch steps its fabric time while it runs no tide (R398). -/
def State.stepTime (s : State) (o : Int) : State :=
  { s with time.base := ((s.time.base : Int) - 5 * o).toNat, time.sum := 0, time.count := 0, time.average := 0 }

/-- An offset of a domain against fabric time, with its average over 2^FILTER values (R402, R411). -/
def State.noteOffset (s : State) (d : Nat) (o : Int) : State :=
  let x := s.domain d
  let n := x.count + 1
  if 2 ^ fld (s.cfg 0x09002) 7 4 ≤ n then
    s.setDomain d { x with offset := o, filtered := (x.sum + o) / (n : Int), sum := 0, count := 0 }
  else s.setDomain d { x with offset := o, sum := x.sum + o, count := n }

/-- What a station takes from an accepted SYNC; its F too, but while tides run on the grid that gives it (R394, R402). -/
def State.takeSync (s : State) (m : SyncMsg) : State :=
  let s := { s with time.synced := true, time.everSynced := true, time.heard := true, time.afterFlood := false,
                    time.masterState := m.state, time.traceable := m.traceable, time.follow := m.follow,
                    time.F := if s.tideRuns then s.time.F else m.f % 2 ^ 36,
                    time.highest := max s.time.highest (m.f + 1),
                    muster.tideSeen := s.muster.tideSeen.map fun (t : Nat × Nat × Bool) => (m.f, t.2) }
  let s := s.setCfg 0x09005 0 (m.utc % 2 ^ 19)
  (s.noteOffset 0 m.off0).noteOffset 1 m.off1

/-- A joining station learns the grid from a TIDE cell and fabric time: the tide named has begun, and less than P ago. -/
def State.learnGrid (s : State) (f p : Nat) : State :=
  let (s, r) := s.draw
  let len := p * tickPerWc
  let start := s.now - (if len = 0 then 0 else r % len)
  { s with muster.setP := p, muster.joinReady := true, muster.tideSeen := none, time.anchorF := f, time.anchorT := start,
           time.first := some ((f + 1) % 2 ^ 36, start + len) }

/-- A JOINING station knows the grid once a TIDE has told F and P and it knows fabric time: by a SYNC of this epoch, or as it
runs its tides (R373, R398). -/
def State.gridKnown (s : State) : State :=
  match s.muster.tideSeen with
  | none => s
  | some (f, p, known) =>
    if !(s.time.synced || s.tideRuns) then s
    else if known then { s with muster.joinReady := true, muster.tideSeen := none } else s.learnGrid f p

/-- An accepted SYNC whose block 0 came at `at16` (R402). -/
def State.acceptSync (s : State) (l : Nat) (m : SyncMsg) (at16 : Nat) : State :=
  let local_ : Int := ((s.time.base + at16 * 16384) / 5 : Nat)
  let o := local_ - (time16 m.origin + m.corr + s.incoming l)
  let s := s.bump 0x09016 0
  let s := if s.time.synced = false ∧ s.tideRuns = false then s.stepTime o else s.filterOffset o
  let s := (s.takeSync m).memberTime
  if s.muster.state = .joining then s.gridKnown else s

/-- SYNC (R401, R402): forwarded with its correction; a copy of the followed direction and epoch is accepted. One with a reserved
time or FOLLOW is dropped (R19, R393, R415). -/
def execSync (l : Fin 4) (src : Fin 2048) (wrapped : Bool) (hops : Nat) (m : SyncMsg) (at16 residence : Nat) (s : State) :
    Host.Outcome State Fault Refusal :=
  .next (if !s.linkUp l then s
    else
      let s := (s.advance (at16 / 16)).heard l 5 src hops wrapped (syncPay m m.corr)
      if !timeOk m.origin || m.follow.val == 3 then (s.bump 0x09016 7).fire 179 l
      else
        let s1 := if src.val = s.station ∧ wrapped = false then s
          else s.forward l 5 src hops wrapped (syncPay m (m.corr + s.incoming l + sixteenths residence))
        let held := s1.dict.shepherds && match s1.muster.state with | .joining | .member | .ebbPending => true | _ => false
        if held && !wrapped && !s1.isMaster && src.val != s1.station && m.epoch == s1.muster.epoch
            && s1.syncPath.any fun p => p.1 == rxDir l then
          s1.acceptSync l m at16
        else s1)

/-- SYNC_PRE_TIDE_EXPIRY (R400): between a SET and its first tide the master sends SYNC. -/
def execSyncPreTideExpiry (s : State) : Host.Outcome State Fault Refusal :=
  .next (s.byShepherd fun (s : State) => if s.isMaster && s.time.first.isSome then s.sendSync else s)

/-- SYNC_LOSS_TIDES (R399). -/
def execSyncLossTides (s : State) : Host.Outcome State Fault Refusal :=
  .next (if !s.isMaster ∧ (s.time.state = .free ∨ s.time.state = .locked) then s.toTime .holdover else s)

/-- HOLDOVER_LIMIT_EXPIRY (R399): a member's HOLDOVER ends in UNSET. -/
def execHoldoverLimitExpiry (s : State) : Host.Outcome State Fault Refusal :=
  .next (if !s.isMaster ∧ s.time.state = .holdover then s.toTime .unset else s)

/-! ### Domains (R405, R407) -/

/-- Key of an ANNOUNCE entry. -/
def annKey (d st port : Nat) : Nat := d * 2 ^ 17 + st * 64 + port

/-- The clock identity of a station: the EUI-64 of HUB_MAC (R405). -/
def State.clockId (s : State) : Nat :=
  let m := s.hubMac
  (m / 2 ^ 24) * 2 ^ 40 + 0xFFFE * 2 ^ 24 + m % 2 ^ 24

/-- The fabric's own dataset (R405). -/
def State.ownDataset (s : State) (d : Nat) : Dataset :=
  let v := s.cfg 0x09011 d
  { prio1 := fld v 35 28, cls := fld v 27 20, acc := fld v 19 12, variance := 0xFFFF, prio2 := fld v 11 4, gm := s.clockId, steps := 0 }


/-- Lexicographic order. -/
def listLt : List Nat → List Nat → Bool
  | a :: l, b :: m => decide (a < b) || (a == b && listLt l m)
  | [], _ :: _ => true
  | _, [] => false

/-- The dataset comparison (R405): of two grandmasters PRIORITY1, CLASS, ACCURACY, VARIANCE, PRIORITY2 and identity in order, the
lower better; of one, STEPS_REMOVED, then node, unit and port. -/
def betterSet (a b : Nat × Dataset) : Bool :=
  if a.2.gm = b.2.gm then listLt [a.2.steps, a.1] [b.2.steps, b.1]
  else
    let key (x : Dataset) : List Nat := [x.prio1, x.cls, x.acc, x.variance, x.prio2, x.gm]
    listLt (key a.2) (key b.2)

/-- The entries of a domain, with station × 64 + port. -/
def State.entries (s : State) (d : Nat) : List (Nat × Dataset) :=
  s.time.announced.filterMap fun (k, a) => if k / 2 ^ 17 = d then a.map fun a => (k % 2 ^ 17, a) else none

/-- The best entry of a domain. -/
def State.bestEntry (s : State) (d : Nat) : Option (Nat × Dataset) :=
  (s.entries d).foldl (fun b e =>
    match b with
    | none => some e
    | some x => if betterSet e x then some e else some x) none

/-- A domain leaves LOCKED for LISTENING, and fires TIME_DOMAIN_LOST (R407). -/
def State.domainLost (s : State) (d : Nat) : State :=
  let x := s.domain d
  let y := { x with dstate := 1, run := 0, twoStep := none }
  if x.dstate = 3 then (s.setDomain d y).fire 228 d else s.setDomain d y

/-- The best entry is chosen again (R405): the ingress, or none where the fabric's own dataset wins. Another grandmaster ends
LOCKED (R407); another ingress of the same one only measures its delay anew. -/
def State.choose (s : State) (d : Nat) : State :=
  let own := s.ownDataset d
  let x := s.domain d
  match s.bestEntry d with
  | some (at_, a) =>
    if betterSet (at_, a) (2 ^ 17, own) then
      let s := if x.gm = a.gm ∧ x.ingress.isSome = true then s else s.domainLost d
      let s := if x.ingress = some at_ then s else s.setDomain d { s.domain d with delay := 0, twoStep := none, pdelay := none }
      s.setDomain d { s.domain d with ingress := some at_, gm := a.gm, cls := a.cls, steps := a.steps }
    else
      let s := s.domainLost d
      s.setDomain d { s.domain d with ingress := none, gm := own.gm, cls := own.cls, steps := 0, offset := 0 }
  | none =>
    let s := s.domainLost d
    s.setDomain d { s.domain d with ingress := none, gm := own.gm, cls := own.cls, steps := 0, offset := 0 }

/-- An ANNOUNCE entry changes, and the best is chosen again. -/
def State.announceEntry (s : State) (d st port : Nat) (a : Option Dataset) : State :=
  { s with time.announced := Tab.set none s.time.announced (annKey d st port) a }.choose d

/-- A dataset from an announcement. -/
def announceData (m : AnnounceMsg) : Dataset :=
  { prio1 := m.prio1, cls := m.cls, acc := m.acc, variance := m.variance, prio2 := m.prio2, gm := m.gm, steps := m.steps }

/-- ANNOUNCE (R400, R405). -/
def execAnnounce (src : Fin 2048) (d : Fin 2) (valid : Bool) (port : Fin 49) (m : AnnounceMsg) (s : State) :
    Host.Outcome State Fault Refusal :=
  .next (s.byShepherd fun (s : State) => if s.domOn d && src.val != s.station then s.announceEntry d src port (if valid then some (announceData m) else none) else s)

/-- The ANNOUNCE of a port of this station (R400). -/
def State.sendAnnounce (s : State) (d port : Nat) : State :=
  let e := Tab.get none s.time.announced (annKey d s.station port)
  let a := e.getD { prio1 := 0, cls := 0, acc := 0, variance := 0, prio2 := 0, gm := 0, steps := 0 }
  s.broadcast 5 ([put 14 4 3, putB 1 e.isSome + put 0 1 d, put 8 8 a.prio1 + put 0 8 a.cls, put 8 8 a.acc + put 0 8 a.prio2, put 0 16 a.variance]
    ++ words64 a.gm ++ [put 0 16 a.steps, port])

/-- REPORT (R400, R407) at the tide master: the domain as its ingress measures it. -/
def State.takeReport (s : State) (d dstate : Nat) (offset : Int) (rate : Int) (gm cls steps : Nat) : State :=
  let x := s.domain d
  let s := (s.setDomain d { x with dstate := dstate, rate := rate, gm := gm, cls := cls, steps := steps }).noteOffset d offset
  let big := s.time.follow = d ∧ 1000000 * 65536 < offset.natAbs ∧ s.table.valid = true
  if big then (if s.time.large then s else { s with time.large := true }.fire 229 d)
  else if s.time.follow = d then { s with time.large := false } else s

/-- REPORT (R400). -/
def execReport (src : Fin 2048) (d : Fin 2) (dstate : Fin 4) (offset rate : Int) (gm cls steps : Nat) (s : State) :
    Host.Outcome State Fault Refusal :=
  .next (s.byShepherd fun (s : State) => if s.isMaster && s.domOn d && (s.domain d).ingress.all fun i => i / 64 == src.val then
      s.takeReport d dstate offset rate gm cls steps
    else s)

/-- DOMAIN_SYNC_LOSS (R407), at the ingress. -/
def execDomainSyncLoss (d : Fin 2) (s : State) : Host.Outcome State Fault Refusal :=
  .next (if (s.domain d).ingress.any (fun i => i / 64 == s.station) && decide (2 ≤ (s.domain d).dstate) then s.domainLost d else s)

/-- DOMAIN_REPORT_LOSS (R407), at the tide master. -/
def execDomainReportLoss (d : Fin 2) (s : State) : Host.Outcome State Fault Refusal :=
  .next (if s.isMaster && decide (2 ≤ (s.domain d).dstate) then s.domainLost d else s)

/-! ### PTP on the Ethernet ports (R404 to R408) -/

/-- The enabled domain of a domainNumber. -/
def State.domOf (s : State) (number : Nat) : Option Nat :=
  [0, 1].find? fun d => s.domOn d && fld (s.domCfg d) 32 25 == number

/-- A port belongs to a domain (R415). -/
def State.inPorts (s : State) (d port : Nat) : Bool :=
  if port < 36 then bit (s.cfg 0x09012 (2 * d)) port else bit (s.cfg 0x09012 (2 * d + 1)) (port - 36)

/-- This station's port is the domain's ingress. -/
def State.isIngress (s : State) (d port : Nat) : Bool := (s.domain d).ingress == some (s.station * 64 + port)

/-- The dataset that this station's time-transmitter ports send. -/
def State.sentDataset (s : State) (d : Nat) : Dataset :=
  match (s.domain d).ingress with
  | some i => match Tab.get none s.time.announced (d * 2 ^ 17 + i) with
    | some a => { a with steps := a.steps + 1 }
    | none => s.ownDataset d
  | none => s.ownDataset d

/-- A port of the set is time transmitter: not the ingress, and the fabric's best beats its foreign master (R405). -/
def State.transmits (s : State) (d port : Nat) : Bool :=
  s.inPorts d port && !s.isIngress d port &&
    match Tab.get none s.time.announced (annKey d s.station port) with
    | none => true
    | some a =>
      let own := (2 ^ 17, s.ownDataset d)
      let best := match (s.domain d).ingress with
        | some i => ((Tab.get none s.time.announced (d * 2 ^ 17 + i)).map fun b => (i, b)).getD own
        | none => own
      betterSet best (s.station * 64 + port, a)

/-- The ports of this station whose foreign time transmitter has an entry in a domain. -/
def State.foreignPorts (s : State) (d : Nat) : List Nat :=
  ((s.entries d).filter fun e => e.1 / 64 == s.station).map fun e => e.1 % 64

/-- The domain at a turn (R405, R407): a disabled one keeps nothing but the offset that SYNC brought; of an enabled one an entry
ends with VALID 0 whose port has left the set or is not UP, and the best is chosen again under TIME_DATASET in force. -/
def State.domainTurn (s : State) (d : Nat) : State :=
  if s.domOn d then
    let gone := (s.foreignPorts d).filter fun p => !s.inPorts d p || decide ((s.port p).state ≠ .up)
    (gone.foldl (fun s p => (s.announceEntry d s.station p none).sendAnnounce d p) s).choose d
  else
    { s with time.announced := s.time.announced.filter fun e => e.1 / 2 ^ 17 != d }.setDomain d
      { Domain.blank with offset := (s.domain d).offset }

/-- A received PTP message; it belongs to an enabled domain that holds its port, or it is dropped (R408). -/
def State.ptpDrop (s : State) (port : Nat) : State := (s.bump 0x09016 4).fire 230 port

/-- A PTP message is received at its timestamp point. -/
def State.ptpIn (s : State) (m : PtpMsg) (body : Nat → State → State) : State :=
  let s := (s.advance m.off).bump 0x09016 2
  match s.domOf m.number with
  | none => s.ptpDrop m.port
  | some d => if s.inPorts d m.port && decide ((s.port m.port).state = .up) then body d s else s.ptpDrop m.port

/-- A PTP message leaves a port: messageType, domainNumber, sequenceId, the identity of the clock and the number of the port
(R405), then its fields. -/
def State.ptpOut (s : State) (port type number seq : Nat) (rest : List Nat) : State :=
  (s.emit .ptp port ([type, number, seq] ++ words64 s.clockId ++ [port + 1] ++ rest)).bump 0x09016 3

/-- The path trace of an Announce in the 802.1AS profile (R404): that of the ingress, where it is here, and this clock. -/
def State.pathTrace (s : State) (d : Nat) : List Nat :=
  if s.domProfile d ≠ 2 then []
  else
    let heard := match (s.domain d).ingress with
      | some i => Tab.get [] s.time.traces (d * 2 ^ 17 + i)
      | none => []
    (heard ++ [s.clockId]).flatMap fun n => words64 n

/-- The Announce of a time-transmitter port (R405): the dataset that this station's ports send. -/
def State.ptpAnnounce (s : State) (d port : Nat) : State :=
  let a := s.sentDataset d
  let n := s.time.ptpSeq
  { s with time.ptpSeq := (n + 1) % 65536 }.ptpOut port 11 (fld (s.domCfg d) 32 25) n
    ([a.prio1, a.cls, a.acc, a.variance, a.prio2] ++ words64 a.gm ++ [a.steps, s.cfg 0x09005] ++ s.pathTrace d)

/-- The ports of a domain that transmit time. -/
def State.timePorts (s : State) (d : Nat) : List Nat :=
  (List.range 49).filter fun p => decide ((s.port p).state = .up) && s.transmits d p

/-- ANNOUNCE_INTERVAL_EXPIRY: the ANNOUNCE of every port with a foreign time transmitter (R400), and the Announce of every
time-transmitter port (R405). -/
def execAnnounceIntervalExpiry (d : Fin 2) (s : State) : Host.Outcome State Fault Refusal :=
  .next (s.byShepherd fun (s : State) => if s.domOn d then
      (s.timePorts d).foldl (fun s p => s.ptpAnnounce d p) ((s.foreignPorts d).foldl (fun s p => s.sendAnnounce d p) s)
    else s)

/-- Seconds (48 bits), nanoseconds and the fraction of a time in units. -/
def ptpTime (u : Nat) : List Nat := [fld (u / tickPerS) 47 0, u % tickPerS / tickPerNs, u % tickPerNs / 5]

/-- The time of a domain in units at fabric time `u`. -/
def State.domTime (s : State) (d u : Nat) : Nat := ((u : Int) + 5 * (s.domain d).offset).toNat

/-- A measurement (R407): domain time `m16` of the Sync of a sequence number met local time `l16`, in 2^-16 ns; an interval
that gave none begins the count of consecutive ones again. -/
def Domain.measure (x : Domain) (seq : Nat) (m16 l16 : Int) : Domain :=
  let n := if seq = (x.lastSeq + 1) % 65536 then x.run else 0
  let dl := l16 - ((x.t2 / 5 : Nat) : Int)
  let dm := m16 - ((x.t1 / 5 : Nat) : Int)
  { x with
    offset := m16 + x.delay - l16, measured := m16 + x.delay - l16,
    rate := if x.run = 0 ∨ dl = 0 then x.rate else (dm - dl) * 2 ^ 40 / dl,
    run := n + 1, lastSeq := seq,
    dstate := if 16 ≤ n then 3 else max 2 x.dstate,
    t1 := (5 * m16).toNat, t2 := (5 * l16).toNat }

/-- Local time of the event in 2^-16 ns. -/
def State.now16 (s : State) : Int := ((s.now / 5 : Nat) : Int)

/-- The ingress asks for its delay: a Delay_Req after each Sync, in the request-response profile. -/
def State.askDelay (s : State) (d port : Nat) : State :=
  if s.domProfile d = 0 then
    let n := s.time.ptpSeq
    let s := { s.setDomain d { s.domain d with reqSeq := n, reqAt := s.now } with time.ptpSeq := (n + 1) % 65536 }
    s.ptpOut port 1 (fld (s.domCfg d) 32 25) n []
  else s

/-- PTP_SYNC (R407). -/
def execPtpSync (m : PtpMsg) (twoStep : Bool) (s : State) : Host.Outcome State Fault Refusal :=
  .next (s.ptpIn m fun d s =>
    if !s.isIngress d m.port then s
    else
      let x := s.domain d
      if twoStep then s.setDomain d { x with twoStep := some (m.seq, m.corr, s.now), dstate := max 2 x.dstate }
      else (s.setDomain d (x.measure m.seq ((m.t : Int) * 65536 + m.corr) s.now16)).askDelay d m.port)

/-- PTP_FOLLOW_UP (R404): completes the two-step Sync of its sequence number. -/
def execPtpFollowUp (m : PtpMsg) (s : State) : Host.Outcome State Fault Refusal :=
  .next (s.ptpIn m fun d s =>
    let x := s.domain d
    match x.twoStep with
    | some (n, c, t2) =>
      if s.isIngress d m.port ∧ n = m.seq then
        (s.setDomain d ({ x with twoStep := none }.measure m.seq ((m.t : Int) * 65536 + c + m.corr) ((t2 / 5 : Nat) : Int))).askDelay d m.port
      else s
    | none => s)

/-- PTP_DELAY_REQ (R404): answered by a time transmitter of the request-response profile. -/
def execPtpDelayReq (m : PtpMsg) (s : State) : Host.Outcome State Fault Refusal :=
  .next (s.ptpIn m fun d s =>
    if s.domProfile d ≠ 0 then s.ptpDrop m.port
    else if s.transmits d m.port then s.ptpOut m.port 9 m.number m.seq (ptpTime (s.domTime d s.now) ++ [unsgn 64 m.corr])
    else s)

/-- PTP_DELAY_RESP (R407): ((t2 − t1) + (t4 − t3)) / 2. -/
def execPtpDelayResp (m : PtpMsg) (s : State) : Host.Outcome State Fault Refusal :=
  .next (s.ptpIn m fun d s =>
    let x := s.domain d
    if s.domProfile d ≠ 0 then s.ptpDrop m.port
    else if s.isIngress d m.port ∧ x.reqSeq = m.seq then
      let a : Int := ((x.t2 / 5 : Nat) : Int) - ((x.t1 / 5 : Nat) : Int)
      let b : Int := (m.t : Int) * 65536 - m.corr - ((x.reqAt / 5 : Nat) : Int)
      s.setDomain d { x with delay := (a + b) / 2 }
    else s)

/-- PTP_PDELAY_REQ (R408): a peer-to-peer port always answers, whatever its state; one-step (R404), with the turnaround, a time
that the spec does not state, in the correction. -/
def execPtpPdelayReq (m : PtpMsg) (s : State) : Host.Outcome State Fault Refusal :=
  .next (s.ptpIn m fun d s =>
    if s.domProfile d = 0 then s.ptpDrop m.port
    else
      let (s, turn) := s.draw
      s.ptpOut m.port 3 m.number m.seq [0, 0, unsgn 64 (m.corr + turn)])

/-- The mean delay of a link from the four times of a peer exchange, in 2^-16 ns. -/
def peerDelay (t1 t2 t3 t4 : Int) (corr : Int) : Int := ((t4 - t1) - (t3 - t2) - corr) / 2

/-- PTP_PDELAY_RESP (R404): one-step, the turnaround stands in the correction. -/
def execPtpPdelayResp (m : PtpMsg) (twoStep : Bool) (s : State) : Host.Outcome State Fault Refusal :=
  .next (s.ptpIn m fun d s =>
    let x := s.domain d
    if s.domProfile d = 0 then s.ptpDrop m.port
    else if !(s.isIngress d m.port && x.reqSeq == m.seq) then s
    else if twoStep then s.setDomain d { x with pdelay := some (m.seq, m.t * tickPerNs, s.now, m.corr) }
    else s.setDomain d { x with delay := peerDelay ((x.reqAt / 5 : Nat) : Int) 0 0 s.now16 m.corr })

/-- PTP_PDELAY_RESP_FOLLOW_UP (R404). -/
def execPtpPdelayRespFollowUp (m : PtpMsg) (s : State) : Host.Outcome State Fault Refusal :=
  .next (s.ptpIn m fun d s =>
    let x := s.domain d
    match x.pdelay with
    | some (n, t2, t4, c) =>
      if s.isIngress d m.port ∧ n = m.seq then
        s.setDomain d { x with pdelay := none, delay := peerDelay (x.reqAt / 5 : Nat) (t2 / 5 : Nat) (m.t * 65536 : Nat) (t4 / 5 : Nat) (c + m.corr) }
      else s
    | none => s)

/-- PTP_ANNOUNCE (R405): a foreign time transmitter of a port; its change is broadcast. Its UTC fields reach TIME_UTC
where its domain is the one followed (R415). In the 802.1AS profile one whose path trace names this clock is not taken (R404,
log 135). -/
def execPtpAnnounce (m : PtpMsg) (a : AnnounceMsg) (utc : Nat) (path : List Nat) (s : State) : Host.Outcome State Fault Refusal :=
  .next (s.ptpIn m fun d s => if s.domProfile d = 2 ∧ path.contains s.clockId = true then s
    else
    let s := { s with time.traces := Tab.set [] s.time.traces (annKey d s.station m.port) path }
    let same := Tab.get none s.time.announced (annKey d s.station m.port) == some (announceData a)
    let s := s.announceEntry d s.station m.port (some (announceData a))
    let s := if same then s else s.byShepherd fun (s : State) => s.sendAnnounce d m.port
    if s.isIngress d m.port ∧ s.time.follow = d then s.setCfg 0x09005 0 (utc % 2 ^ 19) else s)

/-- PTP_MANAGEMENT (R408): answered with NOT_SUPPORTED. -/
def execPtpManagement (m : PtpMsg) (s : State) : Host.Outcome State Fault Refusal :=
  .next (s.ptpIn m fun _ s => s.ptpOut m.port 13 m.number m.seq [6])

/-- PTP_MALFORMED (R408). -/
def execPtpMalformed (port : Fin 49) (s : State) : Host.Outcome State Fault Refusal :=
  .next ((s.bump 0x09016 2).ptpDrop port)

/-- The fields of a one-step Sync (R406): originTimestamp of the domain's time now, and the correction, which is the fraction and
the port's egress latency; in the 802.1AS profile the rate ratio too. -/
def State.syncFields (s : State) (d port : Nat) : List Nat :=
  match ptpTime (s.domTime d s.now) with
  | [sec, ns, f] => [sec, ns, f + (Config.egressLatency port).toNat] ++ (if s.domProfile d = 2 then [unsgn 36 (s.domain d).rate] else [])
  | l => l

/-- PTP_SYNC_INTERVAL_EXPIRY (R406): a one-step Sync whose message timestamp point leaves at the offset, and in the peer-to-peer
profiles a Pdelay_Req of the ingress port. -/
def execPtpSyncIntervalExpiry (d : Fin 2) (port : Fin 49) (off : Nat) (s : State) : Host.Outcome State Fault Refusal :=
  let number := fld (s.domCfg d) 32 25
  let s := if s.tideRuns then s.advance off else s
  .next (if !s.domOn d || decide ((s.port port).state ≠ .up) then s
    else if s.transmits d port then
      let n := s.time.ptpSeq
      { s.ptpOut port 0 number n (s.syncFields d port) with time.ptpSeq := (n + 1) % 65536 }
    else if s.isIngress d port ∧ s.domProfile d ≠ 0 then
      let n := s.time.ptpSeq
      let s := { s with time.ptpSeq := (n + 1) % 65536 }
      (s.setDomain d { s.domain d with reqSeq := n, reqAt := s.now }).ptpOut port 2 number n []
    else s)

/-! ### Following a domain (R398, R409, R410) -/

/-- TIME_SET (R398): at once in SOLO, LISTEN or CLAIMING while no tide runs; kept for the next election or SET. -/
def State.timeSetOp (s : State) (v : Nat) : State :=
  if !timeOk v then s.abort 0x09003 6
  else if s.time.follow < 2 then s.abort 0x09003 7
  else
    let s := { s with time.setTo := some (timeUnits v) }
    match s.muster.state with
    | .solo | .listen | .claiming => if s.tideRuns then s else { s with time.base := timeUnits v - s.tide.off * tickPerWc }
    | _ => s

/-- TIME_SET (R398). -/
def execTimeSet (v : Nat) (s : State) : Host.Outcome State Fault Refusal := .next (s.timeSetOp v)

/-- TIME_CMD SWITCH (R409, R415): to the other domain at the next turn, at the tide master only. -/
def State.switchOp (s : State) : State :=
  let o := if s.time.follow = 0 then 1 else if s.time.follow = 1 then 0 else 1 - fld (s.cfg 0x09002) 3 3
  if s.muster.role = 1 ∧ s.dstate o = 3 then { s with time.switchTo := some o } else s.abort 0x09017 7

/-- SWITCH (R409). -/
def execSwitch (s : State) : Host.Outcome State Fault Refusal := .next s.switchOp

/-- REVERT_HOLD_EXPIRY (R410). -/
def execRevertHoldExpiry (s : State) : Host.Outcome State Fault Refusal :=
  let pref := fld (s.cfg 0x09002) 3 3
  .next (if s.isMaster ∧ bit (s.cfg 0x09002) 15 = true ∧ s.time.follow < 2 ∧ s.time.follow ≠ pref ∧ s.dstate pref = 3 then
      { s with time.switchTo := some pref }
    else s)

/-- A switch of the followed domain: counted and reported (R409). -/
def State.switchDomain (s : State) (d : Nat) : State :=
  ({ s with time.follow := d, time.switchTo := none }.bump 0x09016 5).fire 227 d

/-- Which domain the tide master follows from this turn (R409). -/
def State.followTurn (s : State) : State :=
  if !s.isMaster then s
  else
    let pref := fld (s.cfg 0x09002) 3 3
    let s := match s.time.switchTo with
      | some d => if s.dstate d = 3 then s.switchDomain d else { s with time.switchTo := none }
      | none => s
    let s :=
      if s.time.follow = 2 then
        if s.dstate pref = 3 then { s with time.follow := pref }
        else if s.dstate (1 - pref) = 3 then { s with time.follow := 1 - pref } else s
      else if s.dstate s.time.follow = 3 then s
      else if s.dstate (1 - s.time.follow) = 3 then s.switchDomain (1 - s.time.follow)
      else { s with time.follow := 2 }
    s.masterTime

/-- The REPORT of each domain whose ingress this station holds (R400), at a turn. -/
def State.reportTurn (s : State) : State :=
  [0, 1].foldl (fun s d =>
    if s.domOn d && (s.domain d).ingress.any (fun i => i / 64 == s.station) then
      let x := s.domain d
      if s.isMaster then s.takeReport d x.dstate x.measured x.rate x.gm x.cls x.steps
      else s.byShepherd fun (s : State) => match s.clockMaster with
        | some m => s.unicastBoth 5 m ([put 14 4 2, d, s.dstate d] ++ words64 x.measured ++ words36 (unsgn 36 x.rate) ++ words64 x.gm
            ++ [put 8 8 x.cls + put 0 8 x.steps])
        | none => s
    else s) s

/-- x brought nearer to 0 by at most m. -/
def toZero (m x : Int) : Int := if x < 0 then min 0 (x + m) else max 0 (x - m)

/-- What steering can remove in one tide, in 2^-16 ns (R397). -/
def State.slewStep (s : State) : Int :=
  ((fld (s.cfg 0x09002) 35 30 * s.time.gridP * 262144 / 5 / 1000000 : Nat) : Int)

/-- The rate that gains `o` of 2^-16 ns in one tide, in ppb and within 100 ppm (R397). -/
def State.rateFor (s : State) (o : Int) : Int :=
  let len : Int := ((s.time.gridP * 262144 / 5 : Nat) : Int)
  max (-100000) (min 100000 (if len = 0 then 0 else o * 1000000000 / len))

/-- Steering over the tide that ended (R397, R402): a member removes its average, and the tide master the offset of the domain it
follows, each by at most SLEW_PPM; HOLDOVER and a master that follows none keep the last rate (R353, R411). -/
def State.steerTurn (s : State) : State :=
  if !s.tideRuns then s
  else if s.isMaster then
    if 2 ≤ s.time.follow then s
    else
      let o := (s.domain s.time.follow).offset
      let δ := o - toZero s.slewStep o
      let shift (s : State) (d : Nat) : State := s.setDomain d { s.domain d with offset := (s.domain d).offset - δ }
      { shift (shift s 0) 1 with time.rate := s.rateFor δ }
  else if s.time.state = .holdover then s
  else
    let left := toZero s.slewStep s.time.average
    { s with time.average := left, time.rate := s.rateFor (left - s.time.average) }

/-- TIME cells at a tide start (R400), and tides without an accepted SYNC. -/
def State.timeTurn (s : State) : State :=
  let s := if s.isMaster || !(s.muster.state == .member || s.muster.state == .ebbPending) then s else if s.time.heard then s else s.bump 0x09016 1
  let s := { s with time.heard := false }.byShepherd fun (s : State) => (s.domainTurn 0).domainTurn 1
  let s := s.steerTurn.followTurn.reportTurn
  if s.isMaster then s.sendSync else s

/-! ### Entries as read (R415) -/

def State.timeStateWord (s : State) : Nat :=
  let code : Nat := match s.time.state with | .unset => 0 | .free => 1 | .locked => 2 | .holdover => 3
  let path := if s.isMaster then 0 else match s.syncPath with | some (0, _) => 1 | some _ => 2 | none => 3
  let hops := if s.isMaster then 0 else (s.syncPath.map Prod.snd).getD 0
  put 34 2 code + putB 33 s.traceable + put 31 2 s.time.follow + put 29 2 path + put 18 11 hops + put 0 18 (min s.errNow 0x3FFFF)
def State.domainStateWord (s : State) (d : Nat) : Nat :=
  let x := s.domain d
  let i := x.ingress.getD 0
  put 34 2 (s.dstate d) + putB 33 (x.ingress.any fun i => i / 64 == s.station) + put 23 10 (i / 128) + put 22 1 (i / 64 % 2)
    + put 16 6 (i % 64) + put 8 8 x.steps + put 0 8 x.cls
def State.timeOffsetWord (s : State) (d : Nat) : Nat :=
  let n := (s.domain d).offset / 65536
  unsgn 36 (max (-(2 ^ 35 : Int)) (min (2 ^ 35 - 1) n))
def State.gmWord (s : State) (k : Nat) : Nat :=
  let g := (s.domain (k / 2)).gm
  if k % 2 = 0 then fld g 63 32 else fld g 31 0

end Sys2Proof.Machine
end

