-- ==== Sys2Proof/Machine/Muster.lean ====
section
/-! DEFINITION. Muster, ebb and flood (chapter 12): claims and election, SET, roster and phases, joining, loss of the tide
master, ebb rounds, flood beacons and wakes. -/

namespace Sys2Proof.Machine

/-! ### Claims -/

/-- The key of a CLAIMW (R366). -/
def claimKey (w : Nat) : Nat := fld w 17 14 * 2048 + fld w 13 4 * 2 + (1 - fld w 3 3)

/-- The fields of MUSTER_TIMERS in time units. -/
def State.timer125 (s : State) (e hi lo : Nat) : Nat := fld (s.cfg e) hi lo * 125 * tickPerSc

def State.toMuster (s : State) (m : MState) : State := { s with muster.state := m }

/-- A count of MUSTER_COUNTS. -/
def State.musterCount (s : State) (k : Nat) : State := s.bump 0x08017 k

/-- The claim leaves on each forward direction whose transmit link is UP (R364). -/
def State.sendClaim (s : State) : State :=
  let m := s.muster
  let pay := [put 14 4 (if m.standin then 3 else 2), s.ownClaim, 0x400, m.nonce] ++ (if m.standin then [m.epoch] else [])
  let a := s.linkUp 0
  let b := s.linkUp 3
  let s := if a then s.sendCell 0 3 none pay else s
  let s := if b then s.sendCell 2 3 none pay else s
  let s := if a || b then s.musterCount 0 else s
  { s with muster.sentOn := m.sentOn ||| ((if a then 1 else 0) + if b then 2 else 0) }

/-- A claim begins: a NONCE is drawn and the claim is sent; `standin` makes it a STANDIN (R363, R374). -/
def State.claimNow (s : State) (standin : Bool) : State :=
  let (s, r) := s.draw
  let s := { s with muster.nonce := r % (2 ^ 18 - 1) + 1, muster.best := s.ownClaim, muster.sentOn := 0, muster.returned := 0,
                    muster.standin := standin }
  s.sendClaim

/-- A STANDIN is sent: MUSTER_STANDIN fires (R374). -/
def State.standinNow (s : State) : State := ((s.claimNow true).musterCount 3).fire 193 s.station

/-- A REJECT leaves, once, eastward on ring A (R364). -/
def State.sendReject (s : State) (src reason detail : Nat) : State :=
  ((s.sendCell 0 3 (some src) [put 14 4 7, reason]).musterCount 4).fire 195 src detail

/-- A role that keeps the clock has ended: a member that has accepted no SYNC since cold start is UNSET (R399). -/
def State.memberClock (s : State) : State :=
  (if s.time.everSynced || s.time.afterFlood then s else s.toTime .unset).syntonise

/-- Entry to OUT (R367): the station leads no ring any more. -/
def State.duplicate (s : State) : State :=
  (({ s with muster.state := .out, muster.role := 0 }.musterCount 5).fire 194 s.station).syntonise

/-! ### Roster and phases (R370 to R372) -/

/-- The roster at a tick of 3,125 sc. -/
def State.musterTick (s : State) : State :=
  if s.rosterMay = true ∧ s.muster.rosterDue = true ∧ s.muster.rosterTick < s.bell.tick then s.sendRoster else s

/-- A ring link's phase at a turn: a known phase comes into force; an unphased link that is UP fires PHASE_INCOMPLETE once
per epoch. -/
def State.phaseLink (s : State) (l : Nat) : State :=
  let x := s.link l
  match s.phaseOf l with
  | some p => s.setLink l { x with phase := p, phaseValid := true, phaseNext := none }
  | none =>
    if x.phaseValid || x.phaseFired || !s.linkUp l then s
    else (s.setLink l { x with phaseFired := true }).fire 197 l

/-- An epoch is seen (R369). -/
def State.seeEpoch (s : State) (e : Nat) : State := { s with muster.highest := max s.muster.highest (e % 2 ^ 18) }

/-- A new epoch (R370): every d and phase leaves force, each ring link that is UP retrains, the ROSTER entry leaves; a round of
the old epoch is void (R388). -/
def State.takeEpoch (s : State) (e : Nat) : State :=
  let open_ := s.muster.ebb == .roundOpen || s.muster.ebb == .pending
  let s := { s.seeEpoch e with
    muster.epoch := e, muster.roster := [], muster.record := true,
    muster.void := if open_ then some s.muster.round else s.muster.void,
    muster.ebb := if open_ then .awake else s.muster.ebb,
    time.synced := false, time.sum := 0, time.count := 0 }
  let s := (List.range 5).foldl (fun s l =>
    s.setLink l { s.link l with dValid := false, d := 0, phase := 0, phaseValid := false, phaseNext := none, phaseFired := false }) s
  let s := s.wantRoster
  (List.range 4).foldl (fun s l => if s.linkUp l then s.retrainOp l else s.linkTryTrain l) s

/-! ### SET (R369, R396) and election (R398) -/

/-- SET leaves. -/
def State.sendSet (s : State) (resume : Bool) (f start : Nat) : State :=
  s.broadcast 3 ([put 14 4 5, s.muster.epoch, putB 17 resume] ++ words36 s.muster.setP ++ words36 f ++ timeWords (timeVal start) 0
    ++ [put 0 12 s.muster.roster.length])

/-- The tide master's fabric time at its election (R398), unless tides run. -/
def State.electTime (s : State) : State :=
  if s.tideRuns then s
  else
    let pref := fld (s.cfg 0x09002) 3 3
    let base : Nat :=
      if s.dstate pref = 3 then s.domTime pref s.time.base
      else if s.dstate (1 - pref) = 3 then s.domTime (1 - pref) s.time.base
      else match s.time.setTo with
        | some u => u
        | none => if s.time.afterFlood then s.time.base else 0
    { s with time.base := base }

/-- A role that keeps the clock begins (R399). -/
def State.masterClock (s : State) (acting : Bool) : State :=
  { s with time.follow := 2, time.switchTo := none, time.everLocked := acting, time.synced := true }.masterTime

/-- A grid becomes known (R395): its anchor, P and first tide. -/
def State.newGrid (s : State) (p f start : Nat) : State :=
  { s with muster.setP := p, time.anchorF := f, time.anchorT := start, time.first := some (f, start) }

/-- The first whole microsecond at least SET_LEAD × 125 sc from now (R396). -/
def State.setStart (s : State) : Nat :=
  let u := 1000 * tickPerNs
  (s.now + s.timer125 0x08011 26 18 + u - 1) / u * u

/-- Election of this station as tide master (R366, R369). -/
def State.elected (s : State) : State :=
  let e := if (s.muster.highest + 1) % 2 ^ 18 = 0 then 1 else (s.muster.highest + 1) % 2 ^ 18
  let s := { s with muster.state := .member, muster.role := 1, muster.masterKnown := true, muster.masterClaimw := s.ownClaim,
                    muster.acting := false, muster.lost := false, muster.flooded := false, muster.ebb := .awake, muster.epoch := e,
                    muster.setP := s.cfg 0x08012 }
  let s := s.electTime
  let f := s.time.highest % 2 ^ 36
  let start := s.setStart
  let s := (s.newGrid (s.cfg 0x08012) f start).masterClock false
  ((((s.sendSet false f start).takeEpoch e).musterCount 2).fire 192 s.station).syntonise

/-- The first tide of the kept grid that starts at least SET_LEAD × 125 sc from now. -/
def State.resumeTide (s : State) : Nat × Nat :=
  let len := s.time.gridP * tickPerWc
  let least := s.now + s.timer125 0x08011 26 18
  let k := if len = 0 ∨ least ≤ s.time.anchorT then 0 else (least - s.time.anchorT + len - 1) / len
  ((s.time.anchorF + k) % 2 ^ 36, s.time.anchorT + k * len)

/-- SET with RESUME 1 leaves (R386, R396). -/
def State.resume (s : State) : State :=
  let (f, start) := s.resumeTide
  let s := { s with muster.state := .member, muster.flooded := false, muster.setP := s.time.gridP, time.first := some (f, start) }
  s.sendSet true f start

/-- Election of this station as acting master (R374, R386): the tide master counts as lost, and ebb runs by beacons (R382). -/
def State.electedActing (s : State) : State :=
  let claiming := s.muster.state == .claiming
  let s := { s with muster.role := 2, muster.acting := true, muster.actStation := s.station, muster.standin := false,
                    muster.lost := true, muster.ebb := .beacon }
  let s := (((s.masterClock true).musterCount 2).fire 192 s.station).syntonise
  if claiming then s.resume else s

/-- The claim has returned on every ring on which it was sent; a station that has seen a higher one yields (R388). -/
def State.claimReturned (s : State) (dir : Nat) : State :=
  let s := { s with muster.returned := s.muster.returned ||| (if dir < 2 then 1 else 2) }
  let m := s.muster
  if m.sentOn != 0 && (m.returned &&& m.sentOn) == m.sentOn then
    if m.state = .claiming then (if m.standin then s.electedActing else s.elected)
    else if m.state = .member ∧ m.standin = true ∧ m.best = s.ownClaim then s.electedActing else s
  else s

/-- A claim copy at a station that takes part (R366); `pay` is what goes on, `counts` whether it counts as forwarded. -/
def State.claimCopy (s : State) (dir src claimw part nonce hops : Nat) (wrapped : Bool) (pay : List Nat) : State :=
  let l := dirOut (dirWrap dir)
  let on (s : State) : State := (s.forward l 3 src hops wrapped pay).musterCount 1
  let own := s.ownClaim
  if part ≠ 0x400 then s.sendReject src 1 part
  else if claimKey claimw = claimKey own ∧ nonce ≠ s.muster.nonce then (s.sendReject src 2 0).duplicate
  else if claimKey claimw = claimKey own then
    let s := if wrapped then on s else s
    s.claimReturned dir
  else if claimKey s.muster.best < claimKey claimw then
    let s := on { s with muster.best := claimw }
    if s.muster.state = .claiming then s.toMuster .yielded else s
  else if claimKey own < claimKey claimw then on s
  else s

/-- The best claim of a station that has sent none since its record was kept: its own, or a higher one seen. -/
def State.ownBest (s : State) : State :=
  { s with muster.best := if claimKey s.muster.best < claimKey s.ownClaim then s.ownClaim else s.muster.best }

/-- CLAIM (R363, R366): every copy in LISTEN, CLAIMING and YIELDED; after a flood a station waits in LISTEN (R386). A claim of
another PART is rejected, and in LISTEN starts no claim of this station: that is the model's choice (log 134). -/
def execClaim (dir : Fin 4) (src : Fin 2048) (claimw part nonce hops : Nat) (wrapped : Bool) (s : State) :
    Host.Outcome State Fault Refusal :=
  let l := dirOut (dirWrap dir)
  .next (s.byShepherd fun (s : State) => if !s.linkUp l then s
    else
      let pay := [put 14 4 2, claimw, part, nonce]
      let s := s.heard l 3 src hops wrapped pay
      let go (s : State) : State := s.claimCopy dir src claimw part nonce hops wrapped pay
      match s.muster.state with
      | .listen =>
        if part ≠ 0x400 then go s
        else if s.muster.flooded then go s.ownBest
        else go ((s.toMuster .claiming).claimNow false)
      | .claiming | .yielded => go s
      | _ => s)

/-- STANDIN (R374, R386): every copy in LISTEN, CLAIMING and YIELDED as a claim's (R366), and in MEMBER by stations that hold its
epoch; after a flood it starts the stand-in of a station that waits. -/
def execStandin (dir : Fin 4) (src : Fin 2048) (claimw part nonce epoch hops : Nat) (wrapped : Bool) (s : State) :
    Host.Outcome State Fault Refusal :=
  let l := dirOut (dirWrap dir)
  .next (s.byShepherd fun (s : State) => if !s.linkUp l then s
    else
      let pay := [put 14 4 3, claimw, part, nonce, epoch]
      let mine := s.muster.epoch == epoch
      let s := (s.heard l 3 src hops wrapped pay).seeEpoch epoch
      let go (s : State) : State := s.claimCopy dir src claimw part nonce hops wrapped pay
      match s.muster.state with
      | .member =>
        if part ≠ 0x400 then go s
        else if mine ∧ s.muster.role = 0 then go (if s.muster.standin then s else { s with muster.best := s.ownClaim })
        else s
      | .listen => if part = 0x400 ∧ s.muster.flooded = true ∧ mine then go ((s.toMuster .claiming).standinNow) else go s.ownBest
      | .claiming | .yielded => go s
      | _ => s)

/-- CLAIM_LISTEN_EXPIRY (R363). -/
def execClaimListenExpiry (s : State) : Host.Outcome State Fault Refusal :=
  .next (s.byShepherd fun (s : State) => if s.muster.state = .listen ∧ s.muster.flooded = false then (s.toMuster .claiming).claimNow false else s)

/-- ELECT_LIMIT_EXPIRY (R363). -/
def execElectLimitExpiry (s : State) : Host.Outcome State Fault Refusal :=
  .next (s.byShepherd fun (s : State) => if s.muster.state = .yielded then (s.toMuster .claiming).claimNow s.muster.standin else s)

/-- CLAIM_REPEAT_EXPIRY (R364): a claim that has not yielded is sent again. -/
def execClaimRepeatExpiry (s : State) : Host.Outcome State Fault Refusal :=
  let m := s.muster
  .next (s.byShepherd fun (s : State) => if m.state = .claiming ∨ (m.state = .member ∧ m.standin = true ∧ m.best = s.ownClaim) then s.sendClaim else s)

/-! ### Messages of the muster -/

/-- The first copy of a broadcast by SRC, TYPE and what tells it from the sender's others, word 5 and beyond (R365; log 50);
later copies are discarded. -/
def State.firstCopy (s : State) (src kind type id : Nat) : Option State :=
  let k := src * 256 + kind * 16 + type
  if Tab.get 0 s.muster.seen k = id + 1 then none
  else some { s with muster.seen := Tab.set 0 s.muster.seen k (id + 1) }

/-- The first copy of a JOIN, which its sender repeats every 3,125 sc unchanged (R363, R365). -/
def State.firstJoin (s : State) (src : Nat) : Option State :=
  let k := src * 256 + 54
  let was := Tab.get 0 s.muster.seen k
  if was ≠ 0 ∧ s.now < was + 3125 * tickPerSc then none else some { s with muster.seen := Tab.set 0 s.muster.seen k (s.now + 1) }

/-- Entry to JOINING (R363): JOIN leaves, and the first SYNC accepted from now steps fabric time (R398). -/
def State.enterJoining (s : State) : State :=
  ({ s with muster.state := .joining, muster.joinReady := false, muster.role := 0, muster.flooded := false, muster.standin := false,
            muster.tideSeen := none, time.synced := false }.memberClock).broadcast 3 [put 14 4 6, s.muster.epoch]

/-- The test of R378. -/
def State.ebbTest (s : State) : Bool :=
  bit (s.cfg 0x01100) 35 && s.cfg 0x01102 == 0 && !s.muster.wakeActive
  && (match s.table.stage with | .armed | .committed => false | _ => true)
  && (match s.upd.state with | .scheduled => false | _ => true)
  && s.severeCount == 0

/-- The answer of a MEMBER to the open round (R378). -/
def State.answer (s : State) : State :=
  match s.electedMaster with
  | some m =>
    if s.ebbTest then { s with muster.vetoed := false }.unicastBoth 4 m [put 14 4 3, s.muster.round]
    else { s with muster.vetoed := true }.unicastBoth 4 m [put 14 4 4, s.muster.round, fld (s.cfg 0x01102) 7 0]
  | none => s

/-- Entry to MEMBER: an open round is answered as well (R378). -/
def State.answerOpen (s : State) : State := if s.muster.ebb = .roundOpen ∧ s.dict.shepherds = true then s.answer else s

/-- MUSTER_HELLO (R371): the station that AW reaches is WEST. -/
def execMusterHello (l : Fin 4) (src : Fin 2048) (epoch : Nat) (s : State) : Host.Outcome State Fault Refusal :=
  .next (s.byShepherd fun (s : State) => if !s.linkUp l then s
    else
      let s := (s.heard l 3 src 1 false [put 14 4 1, epoch]).seeEpoch epoch
      if l.val = 1 then { s with muster.west := some src.val } else s)

/-- ROSTER (R371): entries of its epoch are kept. -/
def execRoster (src : Fin 2048) (claimw : Nat) (west : Option (Fin 2048)) (d : List (Option Nat)) (epoch : Nat) (s : State) :
    Host.Outcome State Fault Refusal :=
  .next (s.byShepherd fun (s : State) =>
    let s := s.seeEpoch epoch
    if epoch = s.muster.epoch ∧ src.val ≠ s.station then
      ({ s with muster.roster := Tab.set none s.muster.roster src (some ⟨claimw, west.map Fin.val, cells d none 4⟩) }.repath).syntonise
    else s)

/-- The tide master that a SET names: the best claim where it is that station's. -/
def State.setMaster (s : State) (src : Nat) : State :=
  let w := if claimStation s.muster.best = src then s.muster.best else put 4 10 (src / 2) + put 3 1 (src % 2)
  { s with muster.masterKnown := true, muster.masterClaimw := w, muster.acting := false, muster.role := 0, muster.lost := false }.memberClock

/-- SET of a new muster (R363, R370); a station in CLAIMING or OUT takes its epoch and stays as it is. -/
def State.takeSet (s : State) (src epoch p f start : Nat) : State :=
  let go (s : State) : State := ((s.setMaster src).newGrid p f start).takeEpoch epoch
  match s.muster.state with
  | .listen => go s.enterJoining
  | .yielded => go { s with muster.state := .member, muster.standin := false }
  | .joining | .member | .ebbPending =>
    if epoch = s.muster.epoch then s
    else go { s with muster.state := if s.muster.state = MState.ebbPending then .member else s.muster.state }
  | .claiming | .out => if epoch = s.muster.epoch then s else s.takeEpoch epoch
  | _ => s

/-- SET with RESUME 1 (R363, R386): a station that holds the epoch becomes MEMBER again, after a flood or where it has yielded;
one that only listens joins; a new epoch is taken as any SET's (R370). -/
def State.takeResume (s : State) (src epoch p f start : Nat) : State :=
  if epoch ≠ s.muster.epoch then s.takeSet src epoch p f start
  else
    let wait := match s.muster.state with
      | .listen => s.muster.flooded
      | .yielded => true
      | .claiming => s.muster.standin
      | _ => false
    if wait then
      let act := s.electedMaster != some src
      ({ s with muster.state := .member, muster.flooded := false, muster.standin := false, muster.role := 0, muster.setP := p,
                muster.acting := act, muster.actStation := if act then src else s.muster.actStation,
                muster.lost := act, time.first := some (f, start) }.memberClock).answerOpen
    else match s.muster.state with
      | .listen => s.enterJoining
      | _ => s

/-- SET (R369, R370, R386, R393), its first copy (R365). -/
def execSet (l : Fin 4) (src : Fin 2048) (epoch : Nat) (resume : Bool) (p first start stations : Nat) (s : State) :
    Host.Outcome State Fault Refusal :=
  let _ := stations
  .next (s.byShepherd fun (s : State) => if src.val = s.station then s
    else if !timeOk start then (s.musterCount 7).fire 179 l
    else match s.firstCopy src 3 5 ((epoch * 2 + if resume then 1 else 0) * 2 ^ 36 + first) with
      | none => s
      | some s =>
        let s := s.seeEpoch epoch
        if resume then s.takeResume src epoch p first (timeUnits start) else s.takeSet src epoch p first (timeUnits start))

/-- JOIN (R371): answered in every state in which the station sends MUSTER cells. -/
def execJoin (src : Fin 2048) (epoch : Nat) (s : State) : Host.Outcome State Fault Refusal :=
  .next (s.byShepherd fun (s : State) => if src.val = s.station then s
    else match (s.seeEpoch epoch).firstJoin src with
      | none => s
      | some s => match s.muster.state with
        | .solo | .ebbed => s
        | _ => s.wantRoster)

/-- JOIN_REPEAT_EXPIRY (R363). -/
def execJoinRepeatExpiry (s : State) : Host.Outcome State Fault Refusal :=
  .next (s.byShepherd fun (s : State) => if s.muster.state = .joining then s.broadcast 3 [put 14 4 6, s.muster.epoch] else s)

/-- REJECT (R389). -/
def execReject (l : Fin 4) (src : Fin 2048) (reason : Fin 8) (s : State) : Host.Outcome State Fault Refusal :=
  .next (s.byShepherd fun (s : State) => if reason.val = 1 ∨ reason.val = 2 then s.fire 195 src reason else (s.musterCount 7).fire 179 l)

/-- A station elects anew (R376). -/
def State.remusterNow (s : State) : State :=
  { s with muster.state := .listen, muster.role := 0, muster.flooded := false, muster.standin := false, muster.lost := false,
           muster.acting := false, muster.ebb := .awake, muster.joinReady := false }.musterCount 6 |>.syntonise

/-- REMUSTER (R376). -/
def execRemuster (src : Fin 2048) (epoch : Nat) (s : State) : Host.Outcome State Fault Refusal :=
  .next (s.byShepherd fun (s : State) => match s.muster.state with
    | .solo | .ebbed => s
    | _ => match s.firstCopy src 3 8 epoch with
      | none => s
      | some s => (s.seeEpoch epoch).remusterNow)

/-- REMUSTER leaves, and the station follows it. -/
def State.sendRemuster (s : State) : State := (s.broadcast 3 [put 14 4 8, s.muster.epoch]).remusterNow

/-- MUSTER_CMD REMUSTER (R363, R376). -/
def State.remusterOp (s : State) : State :=
  match s.muster.state with
  | .solo | .ebbed => s.abort 0x08016 7
  | _ => s.sendRemuster

/-- MUSTER_CMD REMUSTER (R376), which the shepherd cores carry out (R31). -/
def execRemusterCmd (s : State) : Host.Outcome State Fault Refusal := .next (s.byShepherd State.remusterOp)

/-! ### TIDE, loss of the tide master (R373 to R375) -/

/-- TIDE at a JOINING station (R363, R373); one that holds the grid of this epoch and P keeps it (R387, R396). -/
def State.joinTide (s : State) (src epoch claimw f p : Nat) (acting : Bool) : State :=
  let grid := if s.time.first.isSome then s.muster.setP else s.time.gridP
  let known := match s.muster.tideSeen with
    | some (_, _, k) => k
    | none => epoch == s.muster.epoch && p == grid && grid != 0
  let s := if epoch = s.muster.epoch then s else s.takeEpoch epoch
  let s := { s with muster.masterKnown := true, muster.lost := acting, muster.acting := acting,
                    muster.actStation := if acting then src else s.muster.actStation,
                    muster.masterClaimw := if acting then s.muster.masterClaimw else claimw }
  if s.muster.joinReady then s else { s with muster.tideSeen := some (f, p, known) }.gridKnown

/-- TIDE at a tide master or acting master (R375). -/
def State.masterTide (s : State) (src epoch claimw f p : Nat) (acting : Bool) : State :=
  let lower := claimKey s.ownClaim < claimKey claimw
  if epoch ≠ s.muster.epoch then (if lower then (s.fire 196 src).sendRemuster else s)
  else if s.muster.role = 2 ∧ acting = true then (if lower then { s with muster.quits := true } else s)
  else if s.muster.role = 1 ∧ acting = true then s.enterJoining.joinTide src epoch claimw f p acting
  else s

/-- TIDE (R363, R373 to R375), its first copy (R365): a tide's TIDE of an epoch is one broadcast. -/
def execTide (src : Fin 2048) (epoch claimw : Nat) (acting : Bool) (f p : Nat) (s : State) : Host.Outcome State Fault Refusal :=
  .next (s.byShepherd fun (s : State) => if src.val = s.station then s
    else match s.firstCopy src 4 1 (epoch * 2 ^ 36 + f) with
    | none => s
    | some s =>
      let s := { s with time.highest := max s.time.highest (f + 1) }.seeEpoch epoch
      match s.muster.state with
      | .listen => s.enterJoining.joinTide src epoch claimw f p acting
      | .joining => s.joinTide src epoch claimw f p acting
      | .member | .ebbPending =>
        if s.muster.role ≠ 0 then s.masterTide src epoch claimw f p acting
        else if epoch ≠ s.muster.epoch then s
        else if acting then
          ({ s with muster.acting := true, muster.actStation := src.val, muster.standin := false }).syntonise
        else
          ({ s with muster.masterKnown := true, muster.masterClaimw := claimw, muster.acting := false, muster.lost := false,
                    muster.standin := false, muster.ebb := if s.muster.ebb = EbbPhase.beacon then .awake else s.muster.ebb }).syntonise
      | _ => s)

/-- TIDE_MASTER_LOSS (R374, R380, R382). -/
def execTideMasterLoss (s : State) : Host.Outcome State Fault Refusal :=
  .next (s.byShepherd fun (s : State) => if (s.muster.state = .member ∨ s.muster.state = .ebbPending) ∧ s.muster.role = 0 ∧ s.muster.lost = false then
      let open_ := s.muster.ebb = .roundOpen ∨ s.muster.ebb = .pending
      let s := { s with muster.state := .member, muster.lost := true, muster.ebb := .beacon,
                        muster.reason := if open_ then 5 else s.muster.reason }
      s.standinNow.syntonise
    else s)

/-! ### The ebb round (R377 to R381) -/

/-- The first spring-cycle boundary at least EBB_LEAD × 125 sc from now. -/
def State.ebbTime (s : State) : Nat :=
  let len := s.time.gridP * tickPerWc
  let cycle := len * max 1 s.tide.spring
  let next := s.time.base + len * (max 1 s.tide.spring - s.tide.index)
  let least := s.now + s.timer125 0x01101 26 18
  if cycle = 0 ∨ least ≤ next then next else next + (least - next + cycle - 1) / cycle * cycle

/-- More than CANCEL_GUARD × 125 sc before EBB_AT. -/
def State.beforeGuard (s : State) : Bool := s.now + s.timer125 0x01101 17 9 < s.muster.ebbAt

/-- CANCEL leaves (R379), and the tide master's own state follows. -/
def State.cancelNow (s : State) (reason vetoer : Nat) : State :=
  let s := s.broadcast 4 [put 14 4 6, s.muster.round, reason, put 8 10 (vetoer / 2) + put 7 1 (vetoer % 2)]
  { s with muster.state := (if s.muster.state = MState.ebbPending then .member else s.muster.state),
           muster.ebb := .awake, muster.reason := reason }.fire 208 vetoer

/-- A new EBB_HOLDOUT entry, newest first (R381, R383). -/
def State.holdoutNow (s : State) (kind st count need : Nat) : State :=
  let w := put 35 1 1 + put 34 1 kind + put 24 10 (st / 2) + put 23 1 (st % 2) + put 0 23 (min count (2 ^ 23 - 1))
  { s with muster.holdout := (w :: s.muster.holdout).take 16 }.fire 209 st (count * 256 + need)

/-- One more consecutive veto of a station (R381). -/
def State.countVeto (s : State) (st need : Nat) : State :=
  let n := Tab.get 0 s.muster.vetoes st + 1
  if fld (s.cfg 0x01100) 8 0 ≤ n then
    { s with muster.vetoes := Tab.set 0 s.muster.vetoes st 0 }.holdoutNow 0 st n need
  else { s with muster.vetoes := Tab.set 0 s.muster.vetoes st n }

/-- Every station of the required set has consented: COMMIT (R379). -/
def State.tryCommit (s : State) : State :=
  if s.muster.ebb = .roundOpen ∧ s.muster.required.all (fun st => s.muster.consents.contains st) = true then
    let at_ := s.ebbTime
    let s := s.broadcast 4 ([put 14 4 5, s.muster.round] ++ timeWords (timeVal at_) 0)
    { s with muster.state := .ebbPending, muster.ebb := .pending, muster.ebbAt := at_, muster.reason := 1 }
  else s

/-- A station's consent reaches the tide master. -/
def State.consentOf (s : State) (st : Nat) : State :=
  { s with muster.consents := if s.muster.consents.contains st then s.muster.consents else s.muster.consents ++ [st],
           muster.vetoes := Tab.set 0 s.muster.vetoes st 0 }.tryCommit

/-- A station's veto reaches the tide master (R379). -/
def State.vetoOf (s : State) (st need : Nat) : State :=
  match s.muster.ebb with
  | .roundOpen => (s.countVeto st need).cancelNow 2 st
  | .pending => if s.beforeGuard then (s.countVeto st need).cancelNow 4 st else s.countVeto st need
  | _ => s

/-- Stations of the roster that are reachable now (R377), this one among them. -/
def State.reachable (s : State) : List Nat :=
  let on := ((s.round 0).takeWhile Prod.snd ++ (s.round 2).takeWhile Prod.snd).map Prod.fst
  (s.muster.roster.map Prod.fst).filter fun st => st == s.station || on.contains st

/-- A round begins (R377). -/
def State.roundNow (s : State) : State :=
  let n := (s.muster.round + 1) % 2 ^ 18
  let s := { s with muster.round := n, muster.ebb := .roundOpen, muster.consents := [], muster.required := s.reachable, muster.reason := 0 }
  let s := { s.broadcast 4 [put 14 4 2, n] with muster.vetoed := false }
  if s.ebbTest then s.consentOf s.station else { s with muster.vetoed := true }.vetoOf s.station (fld (s.cfg 0x01102) 7 0)

/-- A round may start here. -/
def State.mayRound (s : State) : Bool :=
  s.muster.role == 1 && s.muster.state == .member && s.muster.ebb == .awake

/-- EBB_CMD START_ROUND (R377). -/
def State.startRoundOp (s : State) : State := if s.mayRound then s.roundNow else s.abort 0x01103 7
def execStartRound (s : State) : Host.Outcome State Fault Refusal := .next (s.byShepherd State.startRoundOp)

/-- EBB_CMD CANCEL_ROUND (R390). -/
def State.cancelRoundOp (s : State) : State :=
  if s.muster.role = 1 ∧ (s.muster.ebb = .roundOpen ∨ s.muster.ebb = .pending) then s.cancelNow 6 s.station else s.abort 0x01103 7
def execCancelRound (s : State) : Host.Outcome State Fault Refusal := .next (s.byShepherd State.cancelRoundOp)

/-- ROUND_INTERVAL_EXPIRY (R377). -/
def execRoundIntervalExpiry (s : State) : Host.Outcome State Fault Refusal :=
  .next (s.byShepherd fun (s : State) => if bit (s.cfg 0x01100) 33 && s.mayRound then s.roundNow else s)

/-- ROUND_LIMIT_EXPIRY (R379). -/
def execRoundLimitExpiry (s : State) : Host.Outcome State Fault Refusal :=
  .next (s.byShepherd fun (s : State) => if s.muster.role = 1 ∧ s.muster.ebb = .roundOpen then s.cancelNow 3 s.station else s)

/-- ROUND (R378): a station on its way to MEMBER answers once it is there. -/
def execRound (src : Fin 2048) (n : Nat) (s : State) : Host.Outcome State Fault Refusal :=
  .next (s.byShepherd fun (s : State) => if src.val = s.station then s
    else match s.firstCopy src 4 2 n with
      | none => s
      | some s =>
        let s1 : State := { s with muster.round := n, muster.ebb := .roundOpen, muster.reason := 0 }
        match s.muster.state with
        | .member => s1.answer
        | .listen | .claiming | .yielded | .joining => s1
        | _ => s)

/-- CONSENT (R379). -/
def execConsent (src : Fin 2048) (n : Nat) (s : State) : Host.Outcome State Fault Refusal :=
  .next (s.byShepherd fun (s : State) => if s.muster.role = 1 ∧ s.muster.ebb = .roundOpen ∧ n = s.muster.round then s.consentOf src else s)

/-- VETO (R379). -/
def execVeto (src : Fin 2048) (n need : Nat) (s : State) : Host.Outcome State Fault Refusal :=
  .next (s.byShepherd fun (s : State) => if s.muster.role = 1 ∧ n = s.muster.round then s.vetoOf src (need % 256) else s)

/-- COMMIT (R363, R388): not of a round cancelled or void, and not once the tide master is lost. -/
def execCommit (l : Fin 4) (src : Fin 2048) (n ebbAt : Nat) (s : State) : Host.Outcome State Fault Refusal :=
  .next (s.byShepherd fun (s : State) => if !timeOk ebbAt then (s.musterCount 7).fire 179 l
    else if s.muster.state = .member ∧ s.muster.lost = false ∧ s.muster.role = 0 ∧ s.muster.void ≠ some n
        ∧ ¬(s.muster.round = n ∧ 2 ≤ s.muster.reason) then
      match s.firstCopy src 4 5 n with
      | none => s
      | some s => { s with muster.state := .ebbPending, muster.round := n, muster.ebb := .pending, muster.reason := 1,
                           muster.ebbAt := timeUnits ebbAt }
    else s)

/-- CANCEL (R363, R379); REASON 7 does not occur, and its cell is dropped (R19, R390). -/
def execCancel (l : Fin 4) (src : Fin 2048) (n : Nat) (reason : Fin 8) (vetoer : Fin 2048) (s : State) :
    Host.Outcome State Fault Refusal :=
  .next (s.byShepherd fun (s : State) => if reason.val = 7 then (s.musterCount 7).fire 179 l
    else if s.muster.role ≠ 0 then s
    else match s.firstCopy src 4 6 n with
      | none => s
      | some s =>
        { s with muster.state := (if s.muster.state = MState.ebbPending then .member else s.muster.state), muster.round := n,
                 muster.ebb := (if s.muster.ebb = EbbPhase.beacon then .beacon else .awake), muster.reason := reason.val }.fire 208 vetoer)

/-! ### Flood beacons (R382, R383) -/

/-- FLOOD (R382, R383). -/
def execFlood (src : Fin 2048) (beacons : Nat) (s : State) : Host.Outcome State Fault Refusal :=
  .next (s.byShepherd fun (s : State) => if src.val = s.station then s
    else match s.firstCopy src 4 7 beacons with
      | none => s
      | some s =>
        let t := s.bell.tick
        let span := match Tab.get none s.muster.floods src with
          | some (a, b) => if t ≤ b + 200 then (a, t) else (t, t)
          | none => (t, t)
        let s := { s with muster.floods := Tab.set none s.muster.floods src (some span) }
        if s.muster.state = .ebbPending ∧ s.muster.lost = true ∧ s.beforeGuard = true then
          { s with muster.state := .member, muster.ebb := .beacon }
        else s)

/-- FLOOD_BEACON_EXPIRY (R382). -/
def execFloodBeaconExpiry (s : State) : Host.Outcome State Fault Refusal :=
  .next (s.byShepherd fun (s : State) => if s.muster.state = .member ∧ s.muster.lost = true ∧ s.ebbTest = false then
      let n := (s.muster.beacons + 1) % 2 ^ 18
      { s with muster.beacons := n }.broadcast 4 [put 14 4 7, n]
    else s)

/-- FLOOD_QUIET_EXPIRY (R382). -/
def execFloodQuietExpiry (s : State) : Host.Outcome State Fault Refusal :=
  .next (s.byShepherd fun (s : State) => if s.muster.state = .member ∧ s.muster.lost = true ∧ s.ebbTest = true then
      { s with muster.state := .ebbPending, muster.ebb := .pending, muster.ebbAt := s.ebbTime }
    else s)

/-- WAKE_PATTERN_REPEAT_EXPIRY (R382): while need stands and the link has been DOWN. -/
def execWakePatternRepeatExpiry (l : Fin 4) (s : State) : Host.Outcome State Fault Refusal :=
  .next (if (s.link l).state = .down ∧ s.ebbTest = false then s.emit .wakePattern l [] else s)

/-- BEACON_LIMIT_EXPIRY (R383): the measure restarts. -/
def execBeaconLimitExpiry (st : Fin 2048) (s : State) : Host.Outcome State Fault Refusal :=
  .next (s.byShepherd fun (s : State) => match Tab.get none s.muster.floods st with
    | some (a, b) =>
      { s with muster.floods := Tab.set none s.muster.floods st (some (s.bell.tick, b)) }.holdoutNow 1 st ((s.bell.tick - a) / 1000) 0
    | none => s)

/-! ### Flood (R384 to R387) -/

/-- A wake is recorded (R384, R385); RING_WAKE names the link of a pattern, or this station. -/
def State.noteWake (s : State) (cause l : Nat) : State :=
  { s with muster.wakeCause := cause, muster.wakeLink := l, muster.wakes := satAdd 18 s.muster.wakes 1 }.fire 210
    (if cause = 2 then l else s.station)

/-- An EBBED station wakes: LISTEN, after a flood where a muster record is kept, and the pattern on its links: all four
after WAKE, else those that are not UP and did not bring it (R385). -/
def State.wakeNow (s : State) (cause l : Nat) : State :=
  let s := s.noteWake cause l
  let s := { s with muster.state := .listen, muster.flooded := s.muster.record, muster.ebb := .awake, muster.lost := false,
                    time.afterFlood := true }
  (List.range 4).foldl (fun s k =>
    if cause = 2 ∧ (k = l ∨ s.linkUp k = true) then s else s.emit .wakePattern k []) s

/-- WAKE_INPUT (R384): an EBBED station wakes; an active input vetoes rounds while it lasts. -/
def execWakeInput (active : Bool) (s : State) : Host.Outcome State Fault Refusal :=
  let s1 := { s with muster.wakeActive := active }
  .next (if active = true ∧ s.muster.state = .ebbed ∧ bit s.power.thresholds 2 = false then s1.wakeNow 1 0 else s1)

/-- WAKE_PATTERN_DETECTED (R385); at an awake station the pattern only keeps the link DOWN. -/
def execWakePatternDetected (l : Fin 4) (s : State) : Host.Outcome State Fault Refusal :=
  .next (if s.muster.state = .ebbed ∧ bit s.power.thresholds 2 = false then s.wakeNow 2 l else s)

/-- RESUME_WAIT_EXPIRY (R386): the station recorded as tide master. -/
def execResumeWaitExpiry (s : State) : Host.Outcome State Fault Refusal :=
  .next (s.byShepherd fun (s : State) => if s.muster.state = .listen ∧ s.muster.flooded = true ∧ s.muster.role = 1 then s.resume else s)

/-- RESUME_LIMIT_EXPIRY (R386). -/
def execResumeLimitExpiry (s : State) : Host.Outcome State Fault Refusal :=
  .next (s.byShepherd fun (s : State) => if s.muster.state = .listen ∧ s.muster.flooded = true ∧ s.muster.role ≠ 1 then (s.toMuster .claiming).standinNow else s)

/-- The ebb ends this station's tides (R363): EBBED, the veto counts of a committed ebb reset (R381). -/
def State.ebbedNow (s : State) : State :=
  { s with muster.state := .ebbed, muster.ebb := .ebbing, muster.vetoes := [], muster.flooded := false }

/-! ### The turn -/

/-- A trained link enters UP at the turn (R348), keeps the key that it loaded (R537) and is reported (R351); on a ring link HELLO
leaves, but in OUT, and SOLO moves to LISTEN (R363). -/
def State.linkRise (s : State) (l : Nat) : State :=
  let x := s.link l
  if x.trained && x.state == .training && !s.linkHeld l then
    let s := s.setLink l { x.leave .up with upAt := s.tide.abs0, key := x.key, faultRx := false }
    if l = 4 then s.reportLink l true
    else
      let s := s.byShepherd fun (s : State) => if s.muster.state = .out then s else
        let (s, n) := s.nextSeq 3 (txDir l)
        s.ownOut 5 l (s.mkCell 3 true 0 n 1 true true [put 14 4 1, s.muster.epoch])
      let s := s.reportLink l true
      if s.muster.state = .solo then s.toMuster .listen else s
  else s

/-- A JOINING station that knows the grid becomes MEMBER, and answers an open round (R363, R378). -/
def State.joinTurn (s : State) : State :=
  if s.muster.state = .joining ∧ s.muster.joinReady = true then
    let s := { s with muster.state := .member, muster.joinReady := false }
    s.answerOpen
  else s

/-- TIDE cells at a tide start (R364), with an acting master that quits (R375). -/
def State.tideCell (s : State) : State :=
  if s.muster.quits then { s with muster.quits := false, muster.role := 0 }.memberClock
  else if s.isMaster ∧ s.muster.state ≠ .listen ∧ s.muster.state ≠ .out ∧ s.dict.shepherds = true then
    s.broadcast 4 ([put 14 4 1, s.muster.epoch, s.ownClaim, putB 17 (s.muster.role == 2)] ++ words36 s.time.F ++ words36 s.time.gridP)
  else s

/-- Links at a turn: those that trained come UP, and phases are derived (R348, R372). -/
def State.linksTurn (s : State) : State :=
  let s := (List.range 5).foldl (fun s l => s.linkRise l) s
  (List.range 4).foldl (fun s l => s.phaseLink l) s

/-! ### Entries as read (R390) -/

def MState.code : MState → Nat
  | .solo => 0 | .listen => 1 | .claiming => 2 | .yielded => 3 | .joining => 4 | .member => 5 | .ebbPending => 6 | .ebbed => 7 | .out => 8
def State.musterStateWord (s : State) : Nat :=
  put 32 4 s.muster.state.code + put 30 2 s.muster.role + put 12 18 s.muster.epoch + put 0 12 s.muster.roster.length
def State.musterMasterWord (s : State) : Nat :=
  let m := s.muster
  putB 35 m.masterKnown + put 17 18 m.masterClaimw + putB 16 m.acting
    + (if m.acting then put 6 10 (m.actStation / 2) + put 5 1 (m.actStation % 2) else 0)
/-- The station n hops east of `st`, before the walk comes round to the tide master m. -/
def State.eastward (s : State) (m st : Nat) : Nat → Option Nat
  | 0 => some st
  | n + 1 => match s.eastOf st with | some b => if b = m then none else s.eastward m b n | none => none
def State.rosterWord (s : State) (k : Nat) : Nat :=
  match s.electedMaster.bind fun m => s.eastward m m k with
    | none => 0
    | some st => match s.rosterOf st with
      | none => 0
      | some e => put 35 1 1 + put 17 18 e.claimw + put 13 4 ((List.range 4).foldl (fun a l => a + putB l (e.d.getD l none).isSome) 0)
def State.ebbStateWord (s : State) : Nat :=
  let code : Nat := match s.muster.ebb with
    | .awake => if s.muster.state = .member ∧ s.muster.lost = true then 3 else 0
    | .roundOpen => 1 | .pending => 2 | .beacon => 3 | .ebbing => 4
  put 33 3 code + put 15 18 s.muster.round + put 12 3 s.muster.reason + put 0 12 s.muster.consents.length
def State.wakeWord (s : State) : Nat := put 34 2 s.muster.wakeCause + put 32 2 s.muster.wakeLink + put 0 18 s.muster.wakes

end Sys2Proof.Machine
end

