-- ==== Sys2Proof/Machine/Pair.lean ====
section
/-! DEFINITION. Redundant pairs (chapter 15): the claim and its frames, forming the pair, digests and resolution, partner
silence, and mirroring. -/

namespace Sys2Proof.Machine

/-! ### Claims (R419 to R421) -/

/-- A claim of the forms of R419. -/
def claimOk (c : Nat) : Bool :=
  c == 0 || ((claimRole c == 4 || claimRole c == 8) && claimEpoch c != 0)

/-- A count of PAIR_COUNTS. -/
def State.pairCount (s : State) (k : Nat) : State := s.bump 0x0A008 k

def State.toPair (s : State) (p : PairState) : State := { s with pair.state := p }

/-- The role ACTIVE begins (R420); PAIR_TAKEOVER fires. -/
def State.goActive (s : State) (claim : Nat) : State :=
  (({ s.setClaim claim with pair.state := .active, pair.plan := none, pair.resync := false }).pairCount 7).fire 240 0

/-- Any flag of PAIR_STATE is set. -/
def State.pairFlags (s : State) : Bool :=
  let p := s.pair
  p.resync || p.resolving || p.linkLost || p.claimInFault || p.confirmWait

/-- The partner is STANDBY with no flag set (R420, R424). -/
def State.partnerReady (s : State) : Bool := claimRole s.pair.record == 4 && !s.pairFlags

/-! ### Claim frames (R422 to R426) -/

/-- The CRC-8 of a claim frame over CLAIM : NEXT, from bit 31 (R422). -/
def claimCrc (claim next : Nat) : Nat := (bitsOf 32 (claim * 65536 + next)).foldl crc8Bit 0xFF

/-- CLAIM_FRAME_START (R422); CLAIM_OUT is low while the hub is no pair unit or its pins are in hold (R416, R440). -/
def execClaimFrameStart (s : State) : Host.Outcome State Fault Refusal :=
  .next (if !s.paired || s.pin.hold then s
    else
      let next := (s.pair.plan.map Planned.claim).getD s.pair.claim
      { s with pair.frame := (s.pair.claim, next) }.emit .claimFrame 0 [s.pair.claim, next, claimCrc s.pair.claim next])

/-- A STANDBY unit that sees the swap announces its own part (R424). The acceptance lies at most 3,488 wc back: 1,760 for the
frame then in progress, 1,728 to the end of the CRC of the frame seen and its decoding; so the swap turn is at least 14,112
wc ahead (log 60). -/
def State.seeSwap (s : State) (claim next : Nat) : State :=
  if s.pair.state = .standby ∧ s.pair.plan = none ∧ claimRole claim = 8 ∧ next = standbyClaim (claimEpoch claim + 1) then
    { s with pair.plan := some ⟨.swapIn, activeClaim (claimEpoch claim + 1), s.abs s.tide.off + 14112⟩ }
  else s

/-- CLAIM_FRAME_RECEIVED (R423). -/
def execClaimFrameReceived (claim next : Fin 65536) (crc : Fin 256) (good turned : Bool) (s : State) :
    Host.Outcome State Fault Refusal :=
  .next (if !s.paired then s
    else if !(good && crc.val == claimCrc claim next && claimOk claim && claimOk next) then (s.pairCount 8).fire 242 0
    else
      let s := { s with pair.claimSilent := false, pair.claimInFault := false, pair.last := some (claim.val, next.val) }
      (s.setRecord (if turned then next else claim) 1).seeSwap claim next)

/-- CLAIM_IN_SILENCE (R426). -/
def execClaimInSilence (s : State) : Host.Outcome State Fault Refusal :=
  .next (if !s.paired then s
    else
      let s := { s with pair.claimSilent := true, pair.last := none }
      if s.linkUp 4 then (if s.pair.claimInFault then s else { s with pair.claimInFault := true }.fire 241 0)
      else s.setRecord 0 0)

/-- A planned change at a turn (R424); a void swap leaves the contest to R418. -/
def State.planTurn (s : State) : State :=
  match s.pair.plan with
  | none => s
  | some p =>
    if s.tide.abs0 < p.due then s
    else
      match p.plan with
      | .takeover => if s.pair.state = .standby ∧ s.pair.record = 0 then s.goActive p.claim else { s with pair.plan := none }
      | .rebase => if s.pair.state = .active then { s.setClaim p.claim with pair.plan := none } else { s with pair.plan := none }
      | .swapOut =>
        if s.pair.state = .active ∧ s.pair.record = activeClaim (claimEpoch p.claim) then
          { s.setClaim p.claim with pair.state := .standby, pair.plan := none }
        else { s with pair.plan := none }.setRecord s.pair.record s.pair.source
      | .swapIn => if s.pair.state = .standby then s.goActive p.claim else { s with pair.plan := none }

/-- An ACTIVE unit of high EPOCH plans its return to EPOCH 1 (R420). -/
def State.rebaseTurn (s : State) : State :=
  if s.pair.state = .active ∧ 2048 ≤ claimEpoch s.pair.claim ∧ s.partnerReady = true ∧ s.pair.plan = none then
    { s with pair.plan := some ⟨.rebase, activeClaim 1, s.tide.abs0 + 8800⟩ }
  else s

/-- The claims at a turn: NEXT of the last valid frame, then the planned change (R423, R424). -/
def State.claimTurn (s : State) : State :=
  let s := match s.pair.last with
    | some (c, n) => if c = n then s else { s.setRecord n 1 with pair.last := some (n, n) }
    | none => s
  s.planTurn.rebaseTurn

/-! ### Forming the pair (R416 to R418) -/

/-- ENABLE takes effect (R416, R418); OFF holds nothing of the pair but the highest EPOCH since the cold start (R420) and the
writes still to take effect. -/
def State.pairEnable (s : State) : State :=
  if s.paired then (if s.pair.state = .off then s.toPair .waiting else s)
  else { s with pair := { PairSt.reset with highest := s.pair.highest, lastActive := s.pair.lastActive, zeroSince := s.bell.tick, writes := s.pair.writes } }

/-- ACTIVE_IMAGE_ID. -/
def State.imageId (s : State) : Nat := if s.table.valid then s.activeHalf.imageId else 0

/-- A PAIR cell leaves on the pair link, in ledger class MIRROR (R428). -/
def State.pairCell (s : State) (pay : List Nat) : State :=
  if s.linkUp 4 then
    let (s, n) := s.nextSeq 8 0
    s.ownOut 3 4 (s.mkCell 8 false (2 * s.node + 1 - s.unit) n 1 true true pay)
  else s

def PairState.code : PairState → Nat
  | .off => 0 | .waiting => 1 | .joining => 2 | .standby => 3 | .active => 4 | .out => 5

/-- The HELLO of a tide start (R417). -/
def State.sendHello (s : State) : State :=
  s.pairCell ([put 14 4 1, put 15 3 s.pair.state.code, s.pair.claim] ++ words36 s.imageId ++ words36 s.time.F ++ [fld s.upd.version 17 0])

/-- The field that keeps a HELLO from forming the pair: 1 node, 2 unit, 3 image. -/
def State.helloDiffers (s : State) (node unit image : Nat) : Option Nat :=
  if node ≠ s.node then some 1
  else if unit = s.unit then some 2
  else if image ≠ s.imageId ∨ image = 0 then some 3
  else none

/-- A formed pair moves a WAITING unit (R418). -/
def State.formWith (s : State) (partner : Nat) : State :=
  if s.pair.state ≠ .waiting then s
  else if partner = 4 then { s with pair.state := .joining, pair.firstDone := false }
  else if partner = 1 then (if s.unit = 0 then s.goActive s.nextActive else { s with pair.state := .joining, pair.firstDone := false })
  else s

/-! ### Mirroring at the active (R435 to R437) -/

/-- Value words of a setting: one, two or seven. -/
def valWords (n v : Nat) : List Nat :=
  match n with
  | 2 => words36 v
  | 7 => timeWords v 0
  | _ => [v]

/-- A mirrored entry (R436); the gates' entries are not (R591). -/
def mirrored (e : Nat) (r : Row) : Bool :=
  let g := e / 4096
  (match r.acc with | .rw | .rwt | .rws => true | _ => false)
  && !([0x01, 0x08, 0x0A, 0x0B, 0x0E, 0x0F, 0x10].contains g) && e != 0x07012 && e != 0x09006
  && !([0x00004, 0x00100, 0x00101].contains e)

/-- A DICT_WRITE item. -/
def dictItem (e sub feff : Nat) (v : List Nat) : List Nat := [put 14 4 1 + put 0 14 (4 + v.length), e, sub] ++ words36 feff ++ v

/-- A DROVER item (R435). -/
def State.droverItem (s : State) (k fk : Nat) : List Nat :=
  let x := s.drover k
  [put 14 4 3 + put 0 14 6, k] ++ words36 fk ++ [x.x, x.y, x.cnt]

/-- Drovers that are mirrored. -/
def State.mirrorDrovers (s : State) : List Nat := (List.range 256).filter fun k => bit (s.cfg 0x0A006 (k / 32)) (k % 32)

/-- Every mirrored entry's value, as DICT_WRITE items, and the writes accepted that are still to take effect (R436, R439). -/
def State.resyncDict (s : State) : List (List Nat) :=
  (entryRows.flatMap fun r => (List.range r.units).flatMap fun u =>
    let e := r.base + u * r.step
    if mirrored e r then (List.range r.subs).map fun k =>
      if r.ty.words = 0 then dictItem e k s.time.F ((Tab.get [] s.dict.blobs (key e k)).map BitVec.toNat)
      else dictItem e k s.time.F (valWords r.ty.words (s.cfg e k))
    else []) ++ s.pair.writes.map fun p => dictItem (p.2.1 / 4096) (p.2.1 % 4096) p.1 p.2.2

/-- An IMAGE_LINE item of a line as an access of class MIRROR reads it, checked and composed (R168, R182); a line whose read
ends with an error is logged and gives none (R149). -/
def State.readItem (s : State) (up : Bool) (L : Nat) : State × List (List Nat) :=
  match (s.clientEnter 3 up L false 15).unschedRead up L 15 with
  | (s, .ok w) => (s, [lineItem up L (w.map BitVec.toNat)])
  | (s, .error _) => (s.skipLine up L, [])

/-- The lines of every mirror range. -/
def State.mirrorLines (s : State) : List (Bool × Nat) :=
  (List.range 64).flatMap fun r => match s.mirrorRange r with
    | some (up, a, n) => (List.range n).map fun i => (up, a + i)
    | none => []

/-- The items of a list of lines. -/
def State.readItems (s : State) : List (Bool × Nat) → State × List (List Nat)
  | [] => (s, [])
  | p :: l =>
    let (s, it) := s.readItem p.1 p.2
    let (s, its) := s.readItems l
    (s, it ++ its)

/-- Every mirrored entry's value, every line of the mirror ranges and every DROVER item (R439). -/
def State.resyncItems (s : State) : State × List (List Nat) :=
  let dict := s.resyncDict
  let (s, lines) := s.readItems s.mirrorLines
  (s, dict ++ lines ++ s.mirrorDrovers.map fun k => s.droverItem k s.time.F)

/-- The items of one epoch: at most 4,096 words, at item ends; one longer item stands alone. -/
def takeItems : Nat → List (List Nat) → List (List Nat) × List (List Nat)
  | _, [] => ([], [])
  | n, it :: l =>
    if n + it.length ≤ 4096 ∨ n = 0 then
      let (a, b) := takeItems (n + it.length) l
      (it :: a, b)
    else ([], it :: l)

/-- Words cut into runs of 26. -/
def cut26 : Nat → List Nat → List (List Nat)
  | 0, _ => []
  | n + 1, l => if l.length ≤ 26 then [l] else l.take 26 :: cut26 n (l.drop 26)

/-- An epoch's MIRROR cells and its COMMIT leave. -/
def State.sendEpoch (s : State) (e : Epoch) : State :=
  let ws := e.items.flatten
  let s := (cut26 (ws.length + 1) ws).foldl (fun s c => s.pairCell ([put 14 4 4, e.seq] ++ c)) s
  let crc := crcWords ws
  s.pairCell ([put 14 4 5, e.seq] ++ words36 ws.length ++ [fld crc 31 16, fld crc 15 0] ++ words36 e.fk)

/-- An epoch closes: with two unacknowledged, none does (R437), nor while the shepherd cores restart (R31). -/
def State.closeEpoch (s : State) : State :=
  if s.pair.items.isEmpty || decide (2 ≤ s.pair.unacked.length) || !s.dict.shepherds then s
  else
    let (a, b) := takeItems 0 s.pair.items
    let e : Epoch := ⟨s.pair.nextSeq, s.pair.openF, a⟩
    { s with pair.items := b, pair.unacked := s.pair.unacked ++ [e], pair.nextSeq := (s.pair.nextSeq + 1) % 2 ^ 18 }.sendEpoch e

/-- A resync run begins at the active (R439); its first epoch has the SEQ given. -/
def State.startResync (s : State) (seq : Nat) : State :=
  let (s, items) := s.resyncItems
  { s with pair.items := items, pair.unacked := [], pair.nextSeq := seq, pair.openF := s.time.F, pair.overflow := false }.closeEpoch

/-- MIRROR_EPOCH_CLOSE (R437), at a turn: the epoch with items pending closes, and another where more than 4,096 item words
are pending; the next one opens. Mirroring pauses while the shepherd cores restart (R31). -/
def State.mirrorTurn (s : State) : State :=
  if !s.mirrors || !s.dict.shepherds then s
  else if s.pair.overflow ∧ s.pair.unacked.isEmpty = true then s.startResync s.pair.nextSeq
  else
    let s := s.closeEpoch.closeEpoch
    if s.pair.items.isEmpty then
      { s with pair.openF := s.time.F, pair.items := s.mirrorDrovers.map fun k => s.droverItem k s.time.F }
    else s

/-- The epochs not yet acknowledged are sent again: after a restart of the shepherd cores the active resumes from its last
acknowledged epoch (R31, R437). -/
def State.mirrorResume (s : State) : State :=
  if s.mirrors then s.pair.unacked.foldl (fun s e => s.sendEpoch e) s else s

/-- A pair unit takes PAIR cells while its pair link is UP (R342, R428). -/
def State.takesPair (s : State) : Bool := s.paired && s.linkUp 4

/-- PAIR_ACK (R437). -/
def execPairAck (seq : Nat) (s : State) : Host.Outcome State Fault Refusal :=
  .next (s.byShepherd fun (s : State) => if s.takesPair && s.pair.unacked.any fun e => e.seq == seq then
      { s with pair.unacked := s.pair.unacked.filter fun e => e.seq != seq, pair.acked := seq }.closeEpoch
    else s)

/-- NAK (R437): sent again from that epoch; one no longer held asks for a resync. -/
def execNak (seq : Nat) (s : State) : Host.Outcome State Fault Refusal :=
  .next (s.byShepherd fun (s : State) => if !(s.takesPair && s.mirrors) then s
    else
      let s := s.pairCount 5
      if s.pair.unacked.any fun e => e.seq == seq then
        (s.pair.unacked.dropWhile fun e => e.seq != seq).foldl (fun s e => s.sendEpoch e) s
      else s.startResync (seq % 2 ^ 18))

/-! ### Mirroring at the standby (R437 to R439) -/

/-- A unit that takes epochs; none does while its shepherd cores restart (R31). -/
def State.takesEpochs (s : State) : Bool :=
  s.takesPair && s.dict.shepherds && (s.pair.state == .standby || s.pair.state == .joining) && !s.pair.silence

/-- The SEQ that the next COMMIT must carry. -/
def State.expected (s : State) : Nat := (s.pair.committed + 1) % 2 ^ 18

/-- RESYNC is set, and the active hears of it. -/
def State.askResync (s : State) : State := { s with pair.resync := true }.pairCell [put 14 4 7, s.expected]

/-- MIRROR (R437): held unapplied. -/
def execMirror (seq : Nat) (words : List Word) (s : State) : Host.Outcome State Fault Refusal :=
  .next (if words.length = 0 ∨ 26 < words.length then s
    else if !s.takesEpochs then s
    else if s.pair.rxSeq = seq then { s with pair.rx := s.pair.rx ++ words.map BitVec.toNat }
    else { s with pair.rxSeq := seq, pair.rx := words.map BitVec.toNat })

/-- Items of a run of words, each with its head. -/
def splitItems : Nat → List Nat → List (List Nat)
  | 0, _ => []
  | _, [] => []
  | n + 1, h :: l =>
    let k := fld h 13 0
    (h :: l.take k) :: splitItems n (l.drop k)

/-- JOINING ends once the first resync has committed and CONFIRM_WAIT is 0 (R418); a unit that has recorded no active claim takes
the highest EPOCH it knows (DESIGN CHOICE, log 151). -/
def State.tryStandby (s : State) : State :=
  if s.pair.state = .joining ∧ s.pair.firstDone = true ∧ s.pair.confirmWait = false then
    { s.setClaim (standbyClaim (if s.pair.lastActive = 0 then s.pair.highest else s.pair.lastActive)) with pair.state := .standby }
  else s

/-- PAIR_COMMIT (R437): SEQ, word count and CRC; ACK or NAK. An epoch below 4,096 words ends a resync run (R439). -/
def execPairCommit (seq count crc fk : Nat) (s : State) : Host.Outcome State Fault Refusal :=
  .next (if !s.takesEpochs then s
    else
      let ws := s.pair.rx.take count
      if seq = s.expected ∧ s.pair.rxSeq = seq ∧ ws.length = count ∧ crcWords ws = crc then
        let e : Epoch := ⟨seq, fk, splitItems (ws.length + 1) ws⟩
        let last : Bool := decide (count < 4096)
        let s := { s with pair.committed := seq, pair.rx := [], pair.apply := s.pair.apply ++ [e],
                          pair.resync := s.pair.resync && !last, pair.firstDone := s.pair.firstDone || last }
        ((s.pairCount 4).pairCell [put 14 4 6, seq]).tryStandby
      else ({ s with pair.rx := [], pair.rxSeq := s.expected }.pairCount 5).pairCell [put 14 4 7, s.expected])

/-- X, Y and CNT of the drovers, kept for the last 8 turns (R438). -/
def State.latchTurn (s : State) : State :=
  match s.pair.state with
  | .standby | .joining =>
    let l := s.mirrorDrovers.map fun k => let x := s.drover k; (k, x.x, x.y, x.cnt)
    { s with pair.latches := ((s.time.F, l) :: s.pair.latches).take 8 }
  | _ => s

/-- A DROVER item: X, Y and CNT move by the difference (R438). -/
def State.applyDrover (s : State) (k fk xa ya ca : Nat) : State :=
  match s.pair.latches.find? fun p => p.1 == fk with
  | none => s.askResync
  | some (_, l) =>
    match l.find? fun p => p.1 == k with
    | none => s
    | some (_, xs, ys, cs) =>
      let x := s.drover k
      let move (own a b : Nat) : Nat := (own + a + 2 ^ 18 - b) % 2 ^ 18
      s.setDrover k { x with x := move x.x xa xs, y := move x.y ya ys, cnt := move x.cnt ca cs }

/-- A full-line write of an IMAGE_LINE item, in ledger class MIRROR (R180, R438): a line that is refused
is logged (R104, R149), and a HOST line waits for its CARRY (R104). -/
def State.mirrorWrite (s : State) (up : Bool) (L : Nat) (w : List Word) : State :=
  match (s.clientEnter 3 up L true 15).unschedWrite up L 15 w none with
  | (s, .error .held) => { s with ledger.waiting := s.ledger.waiting ++ [⟨3, L, 15, w, none, none⟩] }
  | (s, .error _) => s.skipLine up L
  | (s, .ok ()) => s

/-- One item of a committed epoch (R438); a late DICT_WRITE counts, and an item of a reserved KIND is dropped, counted and
reported (R19, R435; log 141). -/
def State.applyItem (s : State) (it : List Nat) : State :=
  let w k := it.getD k 0
  match fld (w 0) 17 14 with
  | 1 =>
    let feff := w 3 * 2 ^ 18 + w 4
    let late : Bool := decide (feff < s.time.F)
    let s := if late then s.pairCount 6 else s
    let same : Bool := s.pair.partnerFw == fld s.upd.version 17 0
    let (s, r) := if same then (s, 1) else s.draw
    if r % 2 = 1 then { s with pair.writes := s.pair.writes ++ [(feff, key (w 1) (fld (w 2) 11 0), it.drop 5)] }
    else { s.pairCount 6 with pair.confirmWait := true }
  | 2 => s.mirrorWrite (bit (w 1) 17) ((fld (w 1) 10 0 * 2 ^ 18 + w 2) / 4) ((it.drop 3).map (BitVec.ofNat 18))
  | 3 => s.applyDrover (fld (w 1) 7 0) (w 2 * 2 ^ 18 + w 3) (w 4) (w 5) (w 6)
  | 4 =>
    let rec_ := it.drop 1
    let r k := rec_.getD k 0
    let q : Rec :=
      { type := fld (r 0) 17 12, partner := true, hours := r 1 * 2 ^ 18 + r 2, cycles := r 3,
        stamp := timeOf (rec_.drop 4) + put 112 2 (fld (r 4) 17 16), rep := r 11, payload := (rec_.drop 12).dropLast }
    { s with tally.backlog := s.tally.backlog ++ [q], tally.last := some q }
  | _ => (s.pairCount 8).fire 179 4

/-- MIRROR_EPOCH_APPLY (R438), at a turn. -/
def State.applyTurn (s : State) : State :=
  let l := s.pair.apply
  l.foldl (fun s e => e.items.foldl (fun s it => s.applyItem it) s) { s with pair.apply := [] }

/-! ### Digests and resolution (R429 to R432) -/

/-- Digest entries, eight to a cell. -/
def cut8 : Nat → List Digest → List (List Digest)
  | 0, _ => []
  | n + 1, l => if l.length ≤ 8 then [l] else l.take 8 :: cut8 n (l.drop 8)

/-- PAIR_DIGEST_SEND (R430): the digests of the last tide, at least one cell. -/
def execPairDigestSend (s : State) : Host.Outcome State Fault Refusal :=
  .next (if !s.paired then s
    else
      let f := s.time.F - 1
      let ds := s.pair.digests.filter fun d => d.F == f
      (cut8 (ds.length + 1) ds).foldl (fun s c =>
        s.pairCell ([put 14 4 2, c.length] ++ words36 f ++ c.flatMap fun d => [putB 17 d.valid + put 0 10 d.region, fld d.value 31 16, fld d.value 15 0])) s)

/-- One entry of the partner's digests (R430, R431). -/
def State.compare (s : State) (f region : Nat) (valid : Bool) (value : Nat) : State :=
  match s.pair.digests.find? fun d => d.F == f && d.region == region with
  | some d =>
    if d.valid && valid then
      if d.value = value then s.pairCount 0
      else
        let s := s.pairCount 1
        if s.pair.resolving then s
        else { s with pair.resolving := true, pair.checkNext := true, pair.ownNow := 0, pair.partnerNow := 0,
                      pair.mismatchRegion := region, pair.mismatchF := f }
    else s.pairCount 2
  | none => s.pairCount 2

/-- PAIR_DIGEST (R430): no comparison during partner silence. -/
def execPairDigest (f : Nat) (entries : List (Nat × Bool × Nat)) (s : State) : Host.Outcome State Fault Refusal :=
  .next (if 8 < entries.length then s
    else if !s.takesPair || s.pair.silence then s
    else entries.foldl (fun s e => s.compare f e.1 e.2.1 e.2.2) s)

/-- SELFCHECK_START (R431), at the turn. -/
def State.checkTurn (s : State) : State :=
  if s.pair.checkNext then { s with pair.checkNext := false, pair.checking := true } else s

/-- RESOLVING clears. -/
def State.resolved (s : State) : State := { s with pair.resolving := false }

/-- Both units passed (R432). -/
def State.diverged (s : State) : State :=
  let s := (s.pairCount 3).fire 256 s.pair.mismatchRegion s.pair.mismatchF
  if s.pair.state = .standby then s.askResync else s

/-- Both results are known (R432). -/
def State.resolve (s : State) : State :=
  match s.pair.ownNow, s.pair.partnerNow with
  | 1, 1 => s.resolved.diverged
  | 1, 2 => s.resolved.setRecord 0 0
  | 2, 1 | 2, 2 => s.resolved
  | _, _ => s

/-- SELFCHECK_DONE (R431, R432): the signature is compared with SELFCHECK_REF. -/
def execSelfcheckDone (signature : Nat) (s : State) : Host.Outcome State Fault Refusal :=
  .next (if !s.pair.checking then s
    else
      let sig := signature % 2 ^ 32
      let pass : Bool := sig == Config.selfcheckRef.toNat
      let r : Nat := if pass then 1 else 2
      let s := { s with pair.checking := false, pair.own := r, pair.ownNow := r, pair.signature := sig }
      let s := s.pairCell ([put 14 4 3, r] ++ words36 s.pair.mismatchF ++ [fld sig 31 16, fld sig 15 0])
      let s := if pass then s
        else (if s.pair.state = .standby ∨ s.pair.state = .active then s.pairOut else s).fire 257 0
      if s.pair.resolving then s.resolve else s)

/-- SELFCHECK (R432): the partner's result. -/
def execSelfcheck (pass : Bool) (f signature : Nat) (s : State) : Host.Outcome State Fault Refusal :=
  let _ := f
  let _ := signature
  .next (if !s.takesPair || s.pair.silence then s
    else
      let r : Nat := if pass then 1 else 2
      let s := { s with pair.partner := r, pair.partnerNow := r }
      if s.pair.resolving then s.resolve else s)

/-! ### HELLO and silence (R417, R426, R433) -/

/-- A valid HELLO (R417, R426, R433). -/
def State.goodHello (s : State) (st claim fw : Nat) : State :=
  let back := s.pair.silence
  let s := { s with pair.formed := true, pair.silence := false, pair.partnerFw := fw }
  let s := if back ∧ s.pair.state = .standby ∧ s.pair.linkLost = true then { s with pair.linkLost := false }.askResync else s
  let s := { s with pair.linkLost := s.pair.linkLost && !back }
  let s := if s.pair.claimSilent then
      let s := if s.pair.claimInFault then s else { s with pair.claimInFault := true }.fire 241 0
      s.setRecord claim 2
    else s
  let s := s.formWith st
  if s.pair.state = .active then
    if st = 2 then (if s.pair.served then s else ({ s with pair.served := true }).startResync 1)
    else { s with pair.served := false }
  else s

/-- PAIR_HELLO (R417). -/
def execPairHello (node : Fin 1024) (unit : Fin 2) (st : Fin 8) (claim : Fin 65536) (image f fw : Nat) (s : State) :
    Host.Outcome State Fault Refusal :=
  let _ := f
  .next (if !s.takesPair then s
    else if !claimOk claim || decide (5 < st.val) then (s.pairCount 8).fire 179 4
    else match s.helloDiffers node unit image with
      | some k =>
        let s := s.pairCount 9
        if s.pair.mismatched.contains k then s
        else { s with pair.mismatched := k :: s.pair.mismatched }.fire 243 0 k
      | none => s.goodHello st claim (fw % 2 ^ 18))

/-- ALONE_WAIT_EXPIRY (R418). -/
def execAloneWaitExpiry (s : State) : Host.Outcome State Fault Refusal :=
  .next (if s.pair.state = .waiting ∧ s.pair.record = 0 ∧ s.pair.formed = false then s.goActive s.nextActive else s)

/-- PARTNER_SILENCE (R433, R438); while CLAIM_IN is silent too, nothing of the partner is left that its record could come from,
and the record is 0 (R426, R442). -/
def execPartnerSilence (s : State) : Host.Outcome State Fault Refusal :=
  .next (if !s.paired || s.pair.silence then s
    else
      let s := if s.pair.claimSilent && s.pair.record != 0 then s.setRecord 0 0 else s
      let s := { s with pair.silence := true, pair.formed := false, pair.resolving := false, pair.checkNext := false, pair.rx := [],
                        pair.linkLost := s.pair.linkLost || s.pair.record != 0 }.fire 244 0
      match s.pair.state with
      | .joining => s.toPair .waiting
      | .standby =>
        if s.pair.record = 0 ∧ s.pair.plan = none then
          { s with pair.plan := some ⟨.takeover, s.nextActive, s.abs s.tide.off + 8800⟩ }
        else s
      | _ => s)

/-! ### PAIR_CMD (R418, R424, R439) -/

/-- PAIR_CMD, by its code. -/
def State.pairCmd (s : State) (cmd : Nat) : State :=
  match cmd with
  | 1 =>
    if s.pair.state = .active ∧ s.partnerReady = true then
      { s with pair.plan := some ⟨.swapOut, standbyClaim (claimEpoch s.pair.claim + 1), s.abs s.tide.off + 17600⟩ }
    else s.abort 0x0A003 7
  | 2 => if s.pair.state = .out ∧ s.severeCount = 0 ∧ s.bell.fatal = false then s.toPair .waiting else s.abort 0x0A003 7
  | 3 =>
    if s.pair.state = .joining ∧ s.pair.firstDone = true then { s with pair.confirmWait := false }.tryStandby
    else s.abort 0x0A003 7
  | _ => if s.pair.state = .standby then s.askResync else s.abort 0x0A003 7

def execSwap (s : State) : Host.Outcome State Fault Refusal := .next (s.pairCmd 1)
def execRejoin (s : State) : Host.Outcome State Fault Refusal := .next (s.pairCmd 2)
def execConfirm (s : State) : Host.Outcome State Fault Refusal := .next (s.pairCmd 3)
def execResync (s : State) : Host.Outcome State Fault Refusal := .next (s.pairCmd 4)

/-- The pair's part of a turn, its mirrored writes apart. -/
def State.pairTurn (s : State) : State :=
  if !s.paired then s
  else s.claimTurn.checkTurn.applyTurn.latchTurn.mirrorTurn.sendHello

/-! ### Entries as read (R445) -/

def State.pairStateWord (s : State) : Nat :=
  let p := s.pair
  put 15 3 p.state.code + putB 14 p.resync + putB 13 p.resolving + putB 12 p.linkLost + putB 11 p.claimInFault + putB 10 s.claimWin
    + putB 9 p.confirmWait + putB 8 (p.state == .active && p.record == 0)
def State.pairClaimsWord (s : State) : Nat := put 34 2 s.pair.source + put 16 16 s.pair.claim + put 0 16 s.pair.record
def State.mirrorWord (s : State) : Nat :=
  put 18 18 (if s.pair.state = .active then s.pair.acked else s.pair.committed) + put 16 2 s.pair.unacked.length
def State.selfcheckWord (s : State) : Nat := put 34 2 s.pair.own + put 32 2 s.pair.partner + put 0 32 s.pair.signature

end Sys2Proof.Machine
end

