-- ==== Sys2Proof/Machine/Host.lean ====
section
/-! DEFINITION. The PCI Express endpoint, the Quay bridge and the service port (chapter 17). -/

namespace Sys2Proof.Machine

/-- The hub is in FULL (R603). -/
def State.full (s : State) : Bool := s.power.state == .full

/-! ### Answers to PCIe requests (R476) -/

/-- A completion with words (unit 0), an Unsupported Request (1), a Completer Abort (2) or an Unsupported Request error
message for a posted write (3). -/
def State.hostWords (s : State) (l : List Nat) : State := s.emit .hostCompletion 0 l

/-- A request that fails: HOST_TLP_ERROR, with the address of a posted write, and HOST_ERR. -/
def State.hostErr (s : State) (addr : Nat) : State := (s.fire 288 0 addr).interrupt 3

/-- Unsupported Request for a read; for a write its error message, and the write is dropped. -/
def State.hostUr (s : State) (addr : Nat) (write : Bool) : State :=
  let s := s.bump 0x0B004 2
  let s := if write then s.bump 0x0B004 4 else s
  (s.emit .hostCompletion (if write then 3 else 1) [addr]).hostErr (if write then addr else 0)

/-- Completer Abort. -/
def State.hostCa (s : State) (addr : Nat) : State := ((s.bump 0x0B004 3).emit .hostCompletion 2 [addr]).hostErr 0

/-- A posted write dropped with its record in the Tally. -/
def State.hostDrop (s : State) (addr : Nat) : State := (s.bump 0x0B004 4).hostErr addr

/-- A write that its own rules refuse (R104): its record in the Tally, and HOST_ERR, since only a poisoned word has none
(R477). -/
def State.hostRefused (s : State) (addr : Nat) : State := (s.bump 0x0B004 4).hostErr addr

/-! ### Unscheduled access by a client -/

/-- Lines that n words from word offset `o` touch: line offset, first word and words. -/
def lineSpans (o n : Nat) : List (Nat × Nat × Nat) :=
  if n = 0 then []
  else (List.range ((o + n - 1) / 4 - o / 4 + 1)).map fun i =>
    let l := o / 4 + i
    let a := if i = 0 then o % 4 else 0
    (l, a, min 4 (o + n - 4 * l) - a)

/-- The mask of words a to a + k − 1. -/
def spanMask (a k : Nat) : Nat := (2 ^ k - 1) * 2 ^ a

/-! ### The spaces behind BAR2 (R474) -/

/-- The bytes of the packet buffer that hold a frame, by cell: stored copies and entries of the scheduled queues, each where the
part places it (R315, log 43). -/
def State.bufferCells (s : State) : List (Nat × List Nat) :=
  ((s.sw.queues.flatMap Prod.snd).flatMap fun f => (List.range (frameCells f.bytes)).map fun k =>
    ((Config.bufferCell f.copy k).toNat, (f.bytes.drop (256 * k)).take 256))
  ++ s.sw.sched.flatMap fun e => e.2.map fun f => ((Config.schedCell e.1 f.at_).toNat, f.bytes)

/-- Payload of a word of the packet buffer, two bytes in the order of R309; what no stored frame fills is free. -/
def State.bufferWord (s : State) (o : Nat) : Nat :=
  match s.bufferCells.find? fun e => e.1 == o / 128 && decide (2 * (o % 128) < e.2.length) with
  | some e => fb e.2 (2 * (o % 128)) * 256 + (if 2 * (o % 128) + 1 < e.2.length then fb e.2 (2 * (o % 128) + 1) else 0)
  | none => (Config.bufferRest s.sw.nextCopy o).toNat

/-- Space 2 (R200, R321). -/
def State.space2Read (s : State) (l a k : Nat) : State × Except Deny (List Word) :=
  if 4 * l < 0x0800000 then
    (s, .ok ((List.range k).map fun i => mkW qGood (s.bufferWord (4 * l + a + i))))
  else if 0x1000000 ≤ l ∧ l < 0x1001000 then
    let p := l - 0x1000000
    let (s, ws) := (s.enter 0 [penOut p]).penReadN p 4
    (s, .ok ((ws.drop a).take k))
  else (s, .error .unmapped)

/-- Space 3 (R507). -/
def State.space3Read (s : State) (l a k : Nat) : State × Except Deny (List Word) :=
  if 4 * l < 0x80000 then
    (s.enterWords 0 k true, .ok ((List.range k).map fun i => mkW qGood (wp (Tab.get 0 s.tally.mram (4 * l + a + i)))))
  else (s, .error .unmapped)

/-- One word of space 4 (R235). -/
def State.space4Word (s : State) (o : Nat) : Option Word :=
  if o < 0x4000 then some (Tab.get 0 (s.drove (o / 512)).store (o % 512))
  else if 0x10000 ≤ o ∧ o < 0x14000 then some (Tab.get 0 (s.drove (o / 512 - 128)).load (o % 512))
  else if 0x20000 ≤ o ∧ o < 0x20800 then
    let w := o - 0x20000
    some (s.drvRegWord (w / 64) (w % 64) (s.abs s.tide.off))
  else none

/-- The access of class DICT that reads a word of space 4: a register has its stages; a store uses no resource (R235). -/
def State.space4Enter (s : State) (o : Nat) : State :=
  if 0x20000 ≤ o ∧ o < 0x20800 then s.enter 2 (regReadStages ((o - 0x20000) / 64)) else s

/-- One word of space 5 (R107). -/
def State.space5Word (s : State) (o : Nat) : Option Word :=
  let h := if bit o 26 then s.table.half1 else s.table.half0
  let r := fld o 25 0
  if r < 0x200000 then some (Tab.get 0 h.strokes r)
  else if r < 0x400000 then some (Tab.get 0 h.opnds (r - 0x200000))
  else if r < 0x401000 then some (Tab.get 0 h.regions (r - 0x400000))
  else if r < 0x401060 then some (Tab.get 0 h.segs (r - 0x401000))
  else if 0x1000000 ≤ r ∧ r < 0x2000000 then some (Tab.get 0 h.load (r - 0x1000000))
  else none

/-- Words of a space whose words stand alone. -/
def wordsOr (f : Nat → Option Word) (o : Nat) : Nat → Except Deny (List Word)
  | 0 => .ok []
  | k + 1 => match f o, wordsOr f (o + 1) k with
    | some w, .ok l => .ok (w :: l)
    | _, .error d => .error d
    | none, .ok _ => .error .unmapped

/-- Words a to a + k − 1 of line l of a space. -/
def State.spaceRead (s : State) (space l a k : Nat) : State × Except Deny (List Word) :=
  match space with
  | 0 =>
    let (up, addr) := s.space0 (4 * l)
    let s := s.clientEnter 0 up (addr / 4) false (spanMask a k)
    match s.unschedRead up (addr / 4) (spanMask a k) with
    | (s, .ok ws) => (s, .ok ((ws.drop a).take k))
    | (s, .error d) => (s, .error d)
  | 2 => s.space2Read l a k
  | 3 => s.space3Read l a k
  | 4 => ((List.range k).foldl (fun s i => s.space4Enter (4 * l + a + i)) s, wordsOr s.space4Word (4 * l + a) k)
  | 5 => (s, wordsOr s.space5Word (4 * l + a) k)
  | _ => (s, .error .unmapped)

/-- Lines read in order, up to the first that fails. -/
def State.spansRead (s : State) (space : Nat) : List (Nat × Nat × Nat) → State × Except Deny (List Word)
  | [] => (s, .ok [])
  | (l, a, k) :: rest =>
    match s.spaceRead space l a k with
    | (s, .error d) => (s, .error d)
    | (s, .ok ws) =>
      match s.spansRead space rest with
      | (s, .ok more) => (s, .ok (ws ++ more))
      | (s, .error d) => (s, .error d)

/-- One word written to space 4 (R230, R235): a register, or the load store while XSTATE is IDLE. -/
def State.space4Write (s : State) (o : Nat) (w : Word) : State × Except Deny Unit :=
  if 0x10000 ≤ o ∧ o < 0x14000 then
    let d := o / 512 - 128
    let x := s.drove d
    if x.xstate = .idle then
      (s.setDrove d { x with load := Tab.set 0 x.load (o % 512) w, loadEcc := Tab.set .good x.loadEcc (o % 512) .good }, .ok ())
    else (s, .error .readOnly)
  else if 0x20000 ≤ o ∧ o < 0x20800 then
    let r := o - 0x20000
    let d := r / 64
    let s := s.enter 2 (regWriteStages d)
    (s.drvRegWrite d (r % 64) w (s.abs s.tide.off), .ok ())
  else (s, .error (if o < 0x4000 then .readOnly else .unmapped))

/-- One word written to the load window (R108). -/
def State.space5Write (s : State) (o : Nat) (w : Word) : State × Except Deny Unit :=
  let stagingBit := s.table.valid && !s.table.active
  let r := fld o 25 0
  if (s.space5Word o).isNone then (s, .error .unmapped)
  else if bit o 26 = stagingBit ∧ 0x1000000 ≤ r ∧ s.table.stage = .loading then
    let h := s.stagingHalf
    (s.setStaging { h with load := Tab.set 0 h.load (r - 0x1000000) w }, .ok ())
  else (s, .error .readOnly)

/-- Words written one by one, up to the first that fails. -/
def writeEach (f : State → Nat → Word → State × Except Deny Unit) (s : State) (o : Nat) : List Word → State × Except Deny Unit
  | [] => (s, .ok ())
  | w :: l =>
    match f s o w with
    | (s, .ok ()) => writeEach f s (o + 1) l
    | r => r

/-- Words written from word a of line l of a space. -/
def State.spaceWrite (s : State) (space l a : Nat) (ws : List Word) : State × Except Deny Unit :=
  match space with
  | 0 =>
    let (up, addr) := s.space0 (4 * l)
    let m := spanMask a ws.length
    let s := s.clientEnter 0 up (addr / 4) true m
    s.clientWrite 0 up (addr / 4) m (List.replicate a 0 ++ ws)
  | 2 =>
    if 4 * l < 0x0800000 then (s, .error .readOnly)
    else if 0x1000000 ≤ l ∧ l < 0x1001000 then
      let p := l - 0x1000000
      ((s.enter 0 [penIn p 0]).penPush p ws, .ok ())
    else (s, .error .unmapped)
  | 3 => (s, .error (if 4 * l < 0x80000 then .readOnly else .unmapped))
  | 4 => writeEach State.space4Write s (4 * l + a) ws
  | 5 => writeEach State.space5Write s (4 * l + a) ws
  | _ => (s, .error .unmapped)

/-- HOST_APERTURE of a BAR address: EN, the space and the offset of its word (R474). -/
def State.aperture (s : State) (addr : Nat) : Bool × Nat × Nat :=
  let v := s.cfg 0x0B001 (fld addr 29 27)
  (bit v 12, fld v 17 15, fld v 14 13 * 2 ^ 25 + fld addr 26 2)

/-- Chip select `c` of the bridge is in use: the bridge runs and Bell does not hold it (R480, R487, R497). -/
def State.quayMapped (s : State) (o : Nat) : Bool :=
  s.quay.state == .run && bit (s.cfg 0x0B011 (fld o 26 24)) 35 && !(List.range 8).any (s.classSafe 18)

/-- BAR2_READ (R475, R476). A request to space 7 that is mapped is the bridge's own command. -/
def execBar2Read (addr : Fin 1073741824) (n : Nat) (full : Bool) (s : State) : Host.Outcome State Fault Refusal :=
  let (en, space, o) := s.aperture addr
  let s := s.bump 0x0B004 0
  .next (if !full then (s.bump 0x0B004 4).hostUr addr false
    else if !en then s.hostUr addr false
    else if (!s.full && space != 5) || s.classSafe 2 (if space = 7 then 1 else 0) then s.hostCa addr
    else if space = 7 then (if s.quayMapped o then s else s.hostUr addr false)
    else
      match s.spansRead space (lineSpans o n) with
      | (s, .ok ws) => s.hostWords (ws.map BitVec.toNat)
      | (s, .error .error) => s.hostCa addr
      | (s, .error _) => s.hostUr addr false)

/-- Lines of a write in order; each line that fails is answered by itself (R475, R476). -/
def State.spansWrite (s : State) (addr space : Nat) (ws : List Word) : List (Nat × Nat × Nat) → State
  | [] => s
  | (l, a, k) :: rest =>
    let s := match s.spaceWrite space l a (ws.take k) with
      | (s, .ok ()) => s
      | (s, .error .unmapped) | (s, .error .readOnly) => s.hostUr addr true
      | (s, .error .held) => s.hostRefused addr
      | (s, .error .poisoned) => s.bump 0x0B004 4
      | (s, .error .error) =>
        if space = 0 ∧ (s.space0 (4 * l)).1 ∧ s.chanLost (lineChan ((s.space0 (4 * l)).2 / 4)) then s.hostDrop addr
        else s.hostRefused addr
    s.spansWrite (addr + 4 * k) space (ws.drop k) rest

/-- BAR2_WRITE (R475, R476). The path gives no end mark of a pen's packet (R196). -/
def execBar2Write (addr : Fin 1073741824) (words : List Word) (full ep : Bool) (s : State) :
    Host.Outcome State Fault Refusal :=
  let (en, space, o) := s.aperture addr
  let s := s.bump 0x0B004 1
  let spans := lineSpans o words.length
  .next (if ep then s.hostDrop addr
    else if !full then s.hostUr addr true
    else if !en then s.hostUr addr true
    else if (!s.full && space != 5) || s.classSafe 2 (if space = 7 then 1 else 0) then s.hostDrop addr
    else if space = 7 then (if s.quayMapped o then s else s.hostUr addr true)
    else s.spansWrite addr space words spans)

/-! ### BAR0 (R472, R473) -/

/-- REQ_DATA (R473): a word of the open request; one longer than 4,608 words or without room is dropped to its end. -/
def execReqData (w : Word) (s : State) : Host.Outcome State Fault Refusal :=
  let q := s.host.req
  .next (if q.discard then { s with host.req := { q with opened := true } }
    else if q.open_.length = 4608 ∨ q.free < (if q.opened then 1 else 2) then
      { s.bump 0x0B004 4 with host.req := { q with open_ := [], opened := true, discard := true } }
    else { s with host.req := { q with open_ := q.open_ ++ [w], opened := true } })

/-- REQ_END (R473): the open message is committed. -/
def execReqEnd (s : State) : Host.Outcome State Fault Refusal :=
  let q := s.host.req
  let q' := { q with open_ := [], opened := false, discard := false }
  .next (if q.opened && !q.discard && !q.open_.isEmpty then
      { s.bump 0x0B004 7 with host.req := { q' with ready := q.ready ++ [q.open_] } }
    else { s with host.req := q' })

/-- REQ_ABORT (R197): the open message is bad. -/
def execReqAbort (s : State) : Host.Outcome State Fault Refusal :=
  .next (if s.host.req.discard then s
    else { s with host.req := { s.host.req with open_ := [], opened := false } })

/-- RSP_DATA (R473): the next word, the header item before each message, the idle word beyond the fill. -/
def execRspData (s : State) : Host.Outcome State Fault Refusal :=
  let q := s.host.rsp
  .next (match q.reading, q.ready with
    | w :: l, _ => ({ s with host.rsp := { q with reading := l } }).hostWords [w.toNat]
    | [], m :: l => ({ s with host.rsp := { q with reading := m, ready := l } }).hostWords [m.length]
    | [], [] => s.hostWords [0x1FFFF])

/-- RSP_FLUSH (R202). -/
def execRspFlush (s : State) : Host.Outcome State Fault Refusal :=
  .next { s with host.rsp := s.host.rsp.flush }

/-- INT_STATUS_CLEAR (R477): DICT_RSP still holds while the response queue is not empty. -/
def execIntStatusClear (mask : Fin 32) (enable : Option (Fin 32)) (s : State) : Host.Outcome State Fault Refusal :=
  let keep := (List.range 5).foldl (fun a k => if s.host.intStatus.testBit k && !mask.val.testBit k then a + 2 ^ k else a) 0
  let s := { s with host.intStatus := keep, host.intEnable := (enable.map Fin.val).getD s.host.intEnable }
  .next (if mask.val.testBit 0 && decide (0 < s.host.rsp.fill) then s.interrupt 0 else s)

/-- An access to a BAR0 offset that no register occupies (R472, R476). -/
def execBar0UnmappedAccess (offset : Fin 65536) (write : Bool) (s : State) : Host.Outcome State Fault Refusal :=
  .next (s.hostUr offset write)

/-- MSI_X_TABLE_WRITE (R477): address, data, or the mask bit, whose fall sends a pending message. -/
def execMsiXTableWrite (v : Fin 64) (dword : Fin 4) (value : BitVec 32) (s : State) : Host.Outcome State Fault Refusal :=
  .next (if dword.val < 3 then { s with host.msix := Tab.set 0 s.host.msix (4 * v + dword) value.toNat }
    else if value.getLsbD 0 then { s with host.msixOn := s.host.msixOn.filter (· != v.val) }
    else if s.host.msixOn.contains v.val then s
    else
      let was := s.host.pba.contains v.val
      let s := { s with host.msixOn := v.val :: s.host.msixOn, host.pba := s.host.pba.filter (· != v.val) }
      if was then s.msiSend v else s)

/-- TIDE_INTERRUPT (R477). -/
def execTideInterrupt (s : State) : Host.Outcome State Fault Refusal :=
  let v := s.cfg 0x0B002
  .next (if bit v 35 && s.tideRuns then (s.advance (fld v 26 0)).interrupt 4 else s)

/-- QLOCK written 0 (R485): LOCK_N rises once every posted write accepted before has ended. -/
def State.qlockOff (s : State) : State :=
  if !s.host.qlock then s
  else if s.quay.posts.isEmpty then { s with host.qlock := false, quay.locked := false, quay.lockLeft := none }
  else { s with host.qlock := false, quay.lockLeft := some s.quay.posts.length }

/-- PCIE_RESET (R478). -/
def execPcieReset (linkDown : Bool) (s : State) : Host.Outcome State Fault Refusal :=
  let s := (s.endSessions fun x => x.path == 2)
  let h := s.host
  let h := { h with req := h.req.flush, rsp := h.rsp.flush, intStatus := 0, intEnable := 0, msix := [], msixOn := [], pba := [] }
  let s := { s with host := h }.qlockOff
  .next (if linkDown && s.host.linkUp then
      ({ s with host.linkUp := false, host.speed := 0, host.width := 0 }.bump 0x0B004 5).fire 289 0
    else s)

/-- PCIE_LINK_UP (R493). -/
def execPcieLinkUp (speed width : Fin 5) (s : State) : Host.Outcome State Fault Refusal :=
  .next (if speed.val = 0 ∨ width.val = 0 ∨ width.val = 3 then s
    else { s with host.linkUp := true, host.speed := speed, host.width := width })

/-! ### The Quay bridge (R479 to R487) -/

/-- An entry of QUAY_ERR_LOG, and QUAY_ERR. -/
def State.quayLog (s : State) (cause dir cs far : Nat) : State :=
  let v := put 35 1 1 + put 32 3 cause + put 31 1 dir + put 28 3 cs + put 0 26 far
  ({ s with quay.errLog := (v :: s.quay.errLog).take 8 }).interrupt 2

/-- A burst fails (R486). -/
def State.quayFail (s : State) (cause dir cs far : Nat) : State :=
  ((s.quayLog cause dir cs far).bump 0x0B015 2).fire 290 cs far

/-- The beats of words at a space-7 offset: far address and 16 bits (R480, R482). -/
def quayBeats (wide : Bool) (o : Nat) (ws : List Word) : List (Nat × Nat) :=
  ws.zipIdx.flatMap fun (w, j) =>
    let i := fld o 23 0 + j
    if wide then [(4 * i, wp w), (4 * i + 2, wq w)] else [(2 * i, wp w)]

/-- The failure of one beat as sampled, by cause (R486, R491). -/
def QBeat.failure (b : QBeat) (limit : Nat) : Option Nat :=
  if b.halt then some 4 else if limit ≤ b.waits then some 2 else if b.err then some 1 else none

/-- The beat that no sample describes: it ends at once. -/
def QBeat.plain : QBeat := { waits := 0, err := false, halt := false, data := 0 }

/-- Beats run in order to the first failure, a new burst at every far boundary of 256 bytes (R481, R483): the data read and
the failing cause and address. -/
def State.quayRun (s : State) (limit : Nat) : Bool → List (Nat × Nat) → List QBeat → State × List Nat × Option (Nat × Nat)
  | _, [], _ => (s, [], none)
  | fresh, (far, _) :: rest, bs =>
    let b := bs.headD QBeat.plain
    let s := if fresh || far % 256 == 0 then s.bump 0x0B015 0 else s
    let s := s.bump 0x0B015 5 (min b.waits limit)
    match QBeat.failure b limit with
    | some c => (s, [], some (c, far))
    | none =>
      let (s, l, f) := (s.bump 0x0B015 1).quayRun limit false rest (bs.drop 1)
      (s, b.data % 65536 :: l, f)

/-- LOCK_N goes low in the next burst while QLOCK is 1, or while posted writes of the sequence wait (R485). -/
def State.quayLockStart (s : State) : State :=
  if s.host.qlock || s.quay.lockLeft.isSome then { s with quay.locked := true } else s

/-- A posted write has ended on the far bus; the last of those that a release waits for lets LOCK_N rise (R485). -/
def State.quayLockEnd (s : State) : State :=
  match s.quay.lockLeft with
  | some n => if n ≤ 1 then { s with quay.locked := false, quay.lockLeft := none } else { s with quay.lockLeft := some (n - 1) }
  | none => s

/-- The words of a read from its beats; those that were not read are 0x3_0000 (R482, R486). -/
def quayWords (wide : Bool) (n : Nat) (l : List Nat) : List Nat :=
  (List.range n).map fun j =>
    if wide then
      if 2 * j + 1 < l.length then l.getD (2 * j) 0 + l.getD (2 * j + 1) 0 % 4 * 65536 else 0x30000
    else if j < l.length then l.getD j 0 else 0x30000

/-- WAIT_LIMIT and WIDE of a chip select. -/
def State.quayLimit (s : State) (cs : Nat) : Nat := fld (s.cfg 0x0B011 cs) 33 26
def State.quayWide (s : State) (cs : Nat) : Bool := bit (s.cfg 0x0B011 cs) 34

/-- QUAY_READ (R481, R484, R486), through ledger class QUAY (R137): it waits for every earlier posted write, unless a HALT ends
it. -/
def execQuayRead (o : Fin 134217728) (n : Nat) (beats : List QBeat) (s : State) : Host.Outcome State Fault Refusal :=
  let cs := fld o 26 24
  let wide := s.quayWide cs
  .next (if !s.full then s.hostCa o
    else if !s.quayMapped o then s.hostUr o false
    else if s.quay.posts ≠ [] ∧ (beats.headD QBeat.plain).halt = false then s
    else
      let s := (s.enterWords 1 n true).quayLockStart
      let (s, l, f) := s.quayRun (s.quayLimit cs) true (quayBeats wide o (List.replicate n 0)) beats
      let s := s.emit .quay cs [0, fld o 23 0, l.length]
      match f with
      | none => s.hostWords (quayWords wide n l)
      | some (c, far) =>
        let s := s.quayFail c 0 cs far
        if bit (s.cfg 0x0B010) 34 then s.hostCa o else s.hostWords (quayWords wide n l))

/-- QUAY_POSTED_WRITE (R484), through ledger class QUAY (R137): without room the endpoint holds it by flow control. -/
def execQuayPostedWrite (o : Fin 134217728) (words : List Word) (s : State) : Host.Outcome State Fault Refusal :=
  .next (if !s.full then s.hostDrop o
    else if !s.quayMapped o then s.hostUr o true
    else if 1024 < (s.quay.posts.map fun p => p.2.length).sum + words.length then s
    else { s.enterWords 1 words.length false with quay.posts := s.quay.posts ++ [(o.val, words)] })

/-- QUAY_WRITE_BURST (R481, R486): the oldest posted write leaves. -/
def execQuayWriteBurst (beats : List QBeat) (s : State) : Host.Outcome State Fault Refusal :=
  .next (match s.quay.posts with
    | [] => s
    | (o, ws) :: rest =>
      let cs := fld o 26 24
      let bs := quayBeats (s.quayWide cs) o ws
      let s := { s with quay.posts := rest }.quayLockStart
      let (s, l, f) := s.quayRun (s.quayLimit cs) true bs beats
      let s := s.emit .quay cs ([1, fld o 23 0] ++ (bs.take l.length).map Prod.snd)
      let s := match f with
        | some (c, far) => s.quayFail c 1 cs far
        | none => s
      s.quayLockEnd)

/-- QLOCK (R485). -/
def execQlock (on : Bool) (s : State) : Host.Outcome State Fault Refusal :=
  .next (if on then { s with host.qlock := true, quay.lockLeft := none } else s.qlockOff)

/-- QUAY_LOCK_TIMEOUT (R485). The spec names no beat for this entry, so the rest of its fields is free. -/
def execQuayLockTimeout (s : State) : Host.Outcome State Fault Refusal :=
  .next (if s.quay.locked then
      let (s, v) := s.draw
      let s := { s with quay.locked := false, quay.lockLeft := none, host.qlock := false }
      (s.bump 0x0B015 3).quayLog 3 (v % 2) (v / 2 % 8) (v / 16)
    else s)

/-- QUAY_CONFIG's ENABLE takes effect at a turn (R487). -/
def State.quayEnable (s : State) (v : Nat) : State :=
  match s.quay.state, bit v 35 with
  | .off, true => { s with quay.state := .run }
  | .drain, true => { s with quay.state := .run }
  | .run, false => { s with quay.state := .drain }
  | _, _ => s

/-- QUAY_DRAIN_DONE (R487). -/
def execQuayDrainDone (s : State) : Host.Outcome State Fault Refusal :=
  .next (if s.quay.state = .drain ∧ s.quay.posts = [] then s.quayOff else s)

/-- QUAY_HALT (R487, R493): BAD_STATE in OFF. -/
def execQuayHalt (s : State) : Host.Outcome State Fault Refusal :=
  .next (if s.quay.state = .off then s.abort 0x0B013 aBadState else s.quayHaltOp)

/-! ### The service port (R488 to R490) -/

/-- The port accepts packets (R488); a SCRAPPED hub takes none (R547, R560). -/
def State.svcOpen (s : State) : Bool := s.workRuns && s.fold.lifecycle != 4

/-- What the end of a packet leaves (R490): extra edges, and a packet cut short, which is rewound. -/
def State.svcEnd (s : State) (e : SvcEnd) : State :=
  let s := if e.extra = 0 then s else (s.bump 0x0B020 1 e.extra).fire 291 0
  if e.whole then s else (s.bump 0x0B020 4).fire 291 0

/-- SVC_INT_N is low while a response is ready (R488). -/
def State.svcIntLow (s : State) : Bool := !s.svc.rsp.isEmpty

/-- STATUS, which MISO frame 0 of every packet carries (R489): RSP_READY, REQ_FULL while the request queue has no free
word, and the length of the next response. -/
def State.svcStatus (s : State) : Nat :=
  putB 17 s.svcIntLow + putB 16 (decide (8192 ≤ (s.svc.req.map List.length).sum)) + put 0 13 (s.svc.rsp.headD []).length

/-- What a packet reads on MISO: STATUS, then its words (R489). -/
def State.svcMiso (s : State) (l : List Nat) : State := s.emit .service 0 (s.svcStatus :: l)

/-- A command that is dropped (R489). -/
def State.svcDrop (s : State) : State := (s.bump 0x0B020 3).fire 291 0

/-- MSG_WRITE (R489): one path-3 message; one that finds no room is answered BUSY. -/
def execMsgWrite (words : List Word) (e : SvcEnd) (s : State) : Host.Outcome State Fault Refusal :=
  .next (if !s.svcOpen then s
    else if words.length < 7 ∨ 4608 < words.length then (s.svcMiso []).svcDrop
    else
      let s := (s.svcMiso (List.replicate words.length 0x1FFFF)).svcEnd e
      if !e.whole then s
      else if 8192 < (s.svc.req.map List.length).sum + words.length then
        let h : Head := { resp := true, op := 0, session := 0, tag := (words.getD 1 0).toNat, target := 0, unit := 0,
                          entry := 0, sub := 0, abort := aBusy, count := 0, pend := false, dflt := false }
        (s.bump 0x0B020 2).reply 3 0 (h.words [])
      else { s.bump 0x0B020 0 with svc.req := s.svc.req ++ [words] })

/-- MSG_READ (R489): the ready response, when LEN is its length; LEN 0 and any other LEN take nothing. -/
def execMsgRead (len : Nat) (e : SvcEnd) (s : State) : Host.Outcome State Fault Refusal :=
  .next (if !s.svcOpen then s
    else if 4608 < len then (s.svcMiso []).svcDrop
    else
      match s.svc.rsp with
      | m :: l =>
        if len = m.length then
          let s := (s.svcMiso (m.map BitVec.toNat)).svcEnd e
          if e.whole then { s.bump 0x0B020 0 with svc.rsp := l } else s
        else
          let s := (s.svcMiso (List.replicate len 0x1FFFF)).svcEnd e
          if e.whole then s.bump 0x0B020 0 else s
      | [] =>
        let s := (s.svcMiso (List.replicate len 0x1FFFF)).svcEnd e
        if e.whole then s.bump 0x0B020 0 else s)

/-- RESERVED_SERVICE_COMMAND (R489). -/
def execReservedServiceCommand (s : State) : Host.Outcome State Fault Refusal :=
  .next (if s.svcOpen then (s.svcMiso []).svcDrop else s)

/-! ### What the dictionary publishes (R493) -/

/-- HOST_STATE, QUAY_STATE. -/
def State.hostStateWord (s : State) : Nat :=
  if s.host.linkUp then put 17 1 1 + put 14 3 s.host.speed + put 11 3 s.host.width else 0
def State.quayStateWord (s : State) : Nat :=
  put 16 2 (match s.quay.state with | .off => 0 | .run => 1 | .drain => 2) + putB 15 s.quay.locked
    + put 4 11 (s.quay.posts.map fun p => p.2.length).sum

/-- REQ_FREE, RSP_FILL and TIDE_POS of BAR0 (R472). -/
def State.reqFreeWord (s : State) : Nat := s.host.req.free
def State.rspFillWord (s : State) : Nat := s.host.rsp.fill
def State.tidePosWord (s : State) : Nat := if s.tideRuns then put 31 1 1 + put 0 27 s.tide.off else 0

end Sys2Proof.Machine
end

