-- ==== Sys2Proof/Machine/Records.lean ====
section
/-! DEFINITION. The commands of Bell, the Tally and trace (chapter 18). -/

namespace Sys2Proof.Machine

/-- Bell and the Tally run (R515). -/
def State.bellRuns (s : State) : Bool := s.workRuns

/-- BELL_FIRING (R495), while Bell runs (R515). -/
def execBellFiring (src inst detail : Nat) (s : State) : Host.Outcome State Fault Refusal :=
  .next (if s.bellRuns then s.fire src inst detail else s)

/-- Operating hours at tick t, in 1/4,096 h past tick 0 (R515). -/
def hoursAt (t : Nat) : Nat := t * 32 / 28125

/-- BELL_WINDOW_TICK (R499): windows, the operating hours while VDD_CORE is up (R515), what muster paces by ticks, and
fabric time while no tide runs. -/
def execBellWindowTick (s : State) : Host.Outcome State Fault Refusal :=
  let h := hoursAt (s.bell.tick + 1) - hoursAt s.bell.tick
  let s := if s.bellRuns then s.bellTick else { s with bell.tick := s.bell.tick + 1 }
  let s := { s with tally.ophours := if s.supplyUp 2 then satAdd 36 s.tally.ophours h else s.tally.ophours }
  let s := if s.tide.runs then s
    else { s with
      time.base := s.time.base + 3125 * tickPerSc,
      tide.abs0 := if s.workRuns then s.tide.abs0 + 3125 * 400 else s.tide.abs0 }
  .next s.musterTick

/-- BELL_COMPARE_MISMATCH (R503). -/
def execBellCompareMismatch (s : State) : Host.Outcome State Fault Refusal :=
  .next ({ s with bell.compareFail := true, bell.stopped := true }.fire 0 0)

/-- What the BELL ball shows (R504): 0 not driven, 1 low, 2 toggling from Bell, 3 toggling from the shore domain. -/
def State.bellBall (s : State) : Nat :=
  if s.power.state = .dark then 0
  else if s.power.breach = true ∨ s.bell.fatal = true ∨ s.bell.stopped = true ∨ s.upd.good = false ∨ s.fold.lifecycle = 4 then 1
  else if s.bellRuns then 2
  else 3

/-- BELL_ACK (R498); a source that does not exist has no entry. -/
def execBellAck (src : Nat) (session : Fin 16) (path : Fin 4) (s : State) : Host.Outcome State Fault Refusal :=
  .next (if !s.bellRuns then s else if (srcRow? src).isSome then s.ackSource src session path else s.abort (0x0C004 + 8 * src) aNoObject)

/-- BELL_FORCE (R502). -/
def execBellForce (src inst : Nat) (s : State) : Host.Outcome State Fault Refusal :=
  .next (if !s.bellRuns then s else if (srcRow? src).isSome then s.fire src inst 0 true else s.abort (0x0C004 + 8 * src) aNoObject)

/-- BELL_HUB_CMD ACK_ALL (R523). -/
def State.ackAll (s : State) (session path : Nat) : State :=
  let srcs := s.bell.srcs.foldl (fun m (n, x) => Tab.set Source.quiet m n x.acked) s.bell.srcs
  { s with bell.srcs := srcs }.tally_ 2 [put 8 1 1, put 2 4 session + put 0 2 path]

/-- ACK_ALL (R523). -/
def execAckAll (session : Fin 16) (path : Fin 4) (s : State) : Host.Outcome State Fault Refusal :=
  .next (if s.bellRuns then s.ackAll session path else s)

/-! ### The Tally (R506 to R515) -/

/-- A raised REPEAT goes to MRAM: a read and a write of class TALLY (R137, R512). -/
def State.repeatWrite (s : State) : State :=
  if s.tally.repDirty then ((s.enterWords 4 4 true).enterWords 4 4 false).flushRepeat else s

/-- TALLY_RECORD_WRITE (R508): the oldest waiting record, after a raised REPEAT of the one before it, through ledger class TALLY
(R137), which may hold it back; an ACTIVE unit mirrors it (R435). -/
def execTallyRecordWrite (s : State) : Host.Outcome State Fault Refusal :=
  .next (match s.tally.backlog, s.bellRuns with
    | [], _ | _, false => s
    | r :: l, true =>
      if !s.ledgerRoom 4 then s
      else
      let s := ({ s with tally.backlog := l }.repeatWrite.enterWords 4 r.len false).writeRec r
      if r.partner then s else s.addItem ((put 14 4 4 + put 0 14 r.len) :: r.toWords))

/-- TALLY_REPEAT_WRITE (R512). -/
def execTallyRepeatWrite (s : State) : Host.Outcome State Fault Refusal := .next (if s.bellRuns then s.repeatWrite else s)

/-- TALLY_OVERRUN_QUEUE (R514): one record for each class that lost firings, in ascending order. -/
def execTallyOverrunQueue (s : State) : Host.Outcome State Fault Refusal :=
  .next (if !s.bellRuns || decide (4096 < s.backlogFill) then s
    else s.tally.lost.foldl (fun s (c, n) =>
      ({ s with tally.lost := Tab.set 0 s.tally.lost c 0 }.tally_ 3 ([c] ++ words36 n)).fire 1 c) s)

/-- OPHOURS_STORE (R515). -/
def execOphoursStore (s : State) : Host.Outcome State Fault Refusal :=
  .next { s with tally.storedHours := s.tally.ophours }

/-- TALLY_FLUSH (R512, R524). -/
def execTallyFlush (s : State) : Host.Outcome State Fault Refusal := .next (if s.bellRuns then s.repeatWrite else s)

/-- TALLY_CMD CLEAR (R524): every block ends after its header, and the next one begins with a START record. -/
def State.tallyClear (s : State) : State :=
  let mram := (List.range 256).foldl (fun m b => Tab.set 0 m (b * 2048 + 4) 0) s.tally.mram
  let s := { s with tally.mram := mram, tally.repDirty := false }
  let s := s.beginBlock (nextBlock s.tally.retired s.tally.block)
  let c := s.tally.startCause
  s.startRecord (fld c 38 36) (fld c 35 18) (fld c 17 0)

/-- TALLY_CLEAR (R524). -/
def execTallyClear (s : State) : Host.Outcome State Fault Refusal := .next (if s.bellRuns then s.tallyClear else s)

/-! ### Trace (R519) -/

/-- A record that the trace pen could not take counts as dropped; the first of a run fires TRACE_LOST. -/
def State.traceDrop (s : State) : State :=
  let first : Bool := s.trace.lostRun == 0
  let s := { s.bump 0x0D012 1 with trace.lostRun := s.trace.lostRun + 1 }
  if first then s.fire 3 0 else s

/-- The ledger class of a trace record: PILOT for the record of a refusal or an abort, else TRACE (R126, R137; log 142). -/
def recClass (r : List Word) : Nat := if fld (r.getD 0 0).toNat 17 14 = 2 ∧ fld (r.getD 0 0).toNat 8 0 = 16 then 7 else 6

/-- TRACE_RECORD_WRITE (R516, R519): the oldest waiting record enters the trace pen. -/
def execTraceRecordWrite (s : State) : Host.Outcome State Fault Refusal :=
  .next (match s.trace.buffer with
    | [] => s
    | r :: l =>
      if !s.traceOn || !s.ledgerRoom (recClass r) then s
      else if s.classSafe 2 (recClass r) then { s with trace.buffer := l }.traceDrop
      else
        let p := fld (s.cfg 0x0D010) 11 0
        match ({ s with trace.buffer := l }.enterPen (recClass r) p r.length true).penPacketIn p r with
        | (s, false) => s.bump 0x0D012 0
        | (s, true) => s.traceDrop)

/-! ### What the dictionary publishes (R523, R524) -/

def State.bellStateWord (s : State) (n : Nat) : Nat :=
  let x := s.src n
  put 15 3 x.level + putB 14 (x.unack != 0) + putB 13 x.raised + putB 12 x.latch + put 4 8 x.c
def State.bellCountsWord (s : State) (n : Nat) : Nat := put 18 18 (s.src n).firings + put 0 18 (s.src n).forced

/-- The highest active level of a class. -/
def State.classLevel (s : State) (c : Nat) : Nat :=
  s.bell.srcs.foldl (fun a (n, x) => if n / 16 = c then max a x.level else a) 0
def State.bellClassWord (s : State) (c : Nat) : Nat := putB 17 (s.classFault c) + put 14 3 (s.classLevel c)
def State.bellSummaryWord (s : State) : Nat :=
  let top := s.bell.srcs.foldl (fun a (_, x) => max a x.level) 0
  put 33 3 top + putB 32 s.bell.fatal + putB 31 s.bell.stopped + putB 30 s.bell.compareFail + putB 29 (decide (3 ≤ top))
    + put 20 9 s.bell.lastSource
def State.tallyStateWord (s : State) : Nat :=
  put 28 8 s.tally.block + put 17 11 s.tally.word + put 9 8 s.tally.retired.length

end Sys2Proof.Machine
end

