-- ==== Sys2Proof/Machine/Fold.lean ====
section
/-! DEFINITION. The Fold and the life cycle (chapter 19): tampers, the operations of the engine, and the TRNG's health. -/

namespace Sys2Proof.Machine

/-- An owner hash that is not written. -/
def OtpKey.none : OtpKey := { hash := Option.none, revoked := false, point := [] }
def State.otp (s : State) (k : Nat) : OtpKey := Tab.get OtpKey.none s.fold.otp k
def State.setOtp (s : State) (k : Nat) (x : OtpKey) : State := { s with fold.otp := Tab.set OtpKey.none s.fold.otp k x }

/-! ### Forms -/

/-- Words of 16 bits as one number, most significant first (R536). -/
def big16 (l : List Nat) : Nat := l.foldl (fun a w => a * 65536 + w % 65536) 0

/-- A number as n words of 16 bits, most significant first. -/
def words16 (n v : Nat) : List Nat := (List.range n).map fun i => fld v (16 * (n - i) - 1) (16 * (n - 1 - i))

/-- Bytes as one number, and the bytes of 16-bit words. -/
def big8 (l : List Nat) : Nat := l.foldl (fun a b => a * 256 + b % 256) 0
def bytes16 (l : List Nat) : List Nat := l.flatMap fun w => [fld w 15 8, fld w 7 0]

/-- Every word has [17:16] 0. -/
def plain16 (l : List Nat) : Bool := l.all fun w => decide (w < 65536)

/-- Words of material by KIND (R536). -/
def matWords (kind : Nat) : Nat := match kind with | 1 => 16 | 2 => 24 | 3 => 24 | 4 => 48 | _ => 0

/-- USAGE bits allowed for a KIND (R533), as bits of [32:27]. -/
def usageOf (kind : Nat) : Nat := match kind with | 1 => 0b001100 | 2 => 0b110000 | 3 => 0b000001 | 4 => 0b000010 | _ => 0

/-- Metadata in form for a fill (R532, R533). -/
def fillOk (w1 w2 : Nat) : Bool :=
  let u := fld w1 14 9
  usageOf (fld w1 17 15) != 0 && u != 0 && (u &&& usageOf (fld w1 17 15)) == u && fld w1 4 0 == 0 && fld w2 17 17 == 0
    && (!bit w1 5 || decide (1 ≤ fld w2 16 0))

/-- A slot is filled. -/
def State.fillSlot (s : State) (k w1 w2 m : Nat) : State :=
  s.setSlot k { info := w1 * 2 ^ 18, count := fld w2 16 0, material := m }

/-! ### Authorities (R536, R548) -/

def Asker.custodian (a : Asker) (s : State) : Bool := decide (3 ≤ s.roleOf a.path a.session)
def Asker.engineer (a : Asker) (s : State) : Bool := decide (2 ≤ s.roleOf a.path a.session)
def Asker.service (a : Asker) : Bool := a.path.val == 3

/-- SERIAL_NUMBER's four words (R467). -/
def serialWords : List Nat := words36 Config.serialHigh.toNat ++ words36 Config.serialLow.toNat

/-- A signed request (R536): INSTALL_SEQ, serial number and H index stand from word `at_`; the signature covers words 0 to
the last before r. -/
def State.signedOk (s : State) (w : List Nat) (at_ : Nat) : Bool :=
  let n := w.length - 48
  let seq := u36 ((w.drop at_).take 2)
  let h := w.getD (at_ + 6) 0
  let k := s.otp h
  let sig := big16 (w.drop n)
  decide (1 ≤ h) && decide (h ≤ 3) && k.hash.isSome && !k.revoked && decide (s.fold.installSeq < seq)
    && (w.drop (at_ + 2)).take 4 == serialWords && plain16 (w.drop n) && !k.point.isEmpty
    && Config.ecdsaVerify (big16 k.point) (Config.sha384 ((w.take n).flatMap wordBytes)) sig

/-- The change of life cycle is one of R548, with its authority; `signed` says that the request carries a good
signature. -/
def State.lcOk (s : State) (a : Asker) (dest : Nat) (signed : Bool) : Bool :=
  match s.fold.lifecycle, dest with
  | 0, 1 => Asker.service a && (s.otp 1).hash.isSome
  | 1, 2 => Asker.custodian a s || Asker.service a
  | 1, 3 | 2, 3 => Asker.custodian a s || (Asker.service a && signed)
  | 0, 4 | 1, 4 | 3, 4 => Asker.service a
  | 2, 4 => Asker.service a && signed
  | _, _ => false

/-! ### The operations (R536 to R538) -/

/-- The KDF input (R538) of words 3 on, when their lengths and padding are in form. -/
def kdfInput (w : List Nat) (l : Nat) : Option (List Nat) :=
  let n := w.getD 3 0
  let c := w.getD 4 0
  let lw := (n + 1) / 2
  let cw := (c + 1) / 2
  let lb := bytes16 ((w.drop 5).take lw)
  let cb := bytes16 ((w.drop (5 + lw)).take cw)
  if 1 ≤ n ∧ n ≤ 64 ∧ c ≤ 64 ∧ w.length = 5 + lw + cw ∧ plain16 (w.drop 5) = true ∧ (lb.drop n).all (· == 0) = true
      ∧ (cb.drop c).all (· == 0) = true then
    some ([0, 0, 0, 1] ++ lb.take n ++ [0] ++ cb.take c ++ [0, 0, l / 256, l % 256])
  else none

/-- A derived key for the target metadata: 256 bits for AES256, 384 for HMAC384. -/
def deriveKey (key : Nat) (w : List Nat) (kind : Nat) : Option Nat :=
  match kind with
  | 1 => (kdfInput w 256).map fun b => Config.hmacSha384 key b / 2 ^ 128
  | 2 => (kdfInput w 384).map fun b => Config.hmacSha384 key b % 2 ^ 384
  | _ => none

/-- INSTALL_CLEAR. -/
def State.opInstallClear (s : State) (a : Asker) (w : List Nat) (target : Nat) : Option (State × List Nat) :=
  let w1 := w.getD 1 0
  let m := w.drop 3
  if s.fold.lifecycle = 1 ∧ Asker.service a ∧ fillOk w1 (w.getD 2 0) ∧ (s.slot target).kind = 0
      ∧ m.length = matWords (fld w1 17 15) ∧ plain16 m then
    some (s.fillSlot target w1 (w.getD 2 0) (big16 m), [])
  else none

/-- INSTALL_SIGNED. -/
def State.opInstallSigned (s : State) (a : Asker) (w : List Nat) (target : Nat) : Option (State × List Nat) :=
  let w1 := w.getD 1 0
  let n := matWords (fld w1 17 15)
  let m := (w.drop 10).take n
  if s.lcKeys ∧ Asker.service a ∧ fillOk w1 (w.getD 2 0) ∧ (s.slot target).kind = 0 ∧ w.length = 10 + n + 48 ∧ plain16 m
      ∧ s.signedOk w 3 then
    some ({ s.fillSlot target w1 (w.getD 2 0) (big16 m) with fold.installSeq := u36 (w.drop 3) }, [])
  else none

/-- INSTALL_WRAPPED: AES-256-GCM with words 0 to 2 as AAD, the IV, the ciphertext and the tag. -/
def State.opInstallWrapped (s : State) (a : Asker) (w : List Nat) (slot target : Nat) : Option (State × List Nat) :=
  let w1 := w.getD 1 0
  let n := matWords (fld w1 17 15)
  let x := s.slot slot
  if s.lcKeys ∧ Asker.custodian a s ∧ fillOk w1 (w.getD 2 0) ∧ (s.slot target).kind = 0 ∧ x.kind = 1 ∧ x.decrypt
      ∧ w.length = 9 + n + 8 ∧ plain16 (w.drop 3) then
    (Config.gcmOpen x.material ((w.take 3).flatMap wordBytes ++ bytes16 (w.drop 3))).map fun b =>
      ((s.fillSlot target w1 (w.getD 2 0) (big8 (cells b 0 (2 * n)))).useSlot slot, [])
  else none

/-- DERIVE and DERIVE_ROOT, with the key they derive from. -/
def State.opDerive (s : State) (a : Asker) (w : List Nat) (target : Nat) (key : Option Nat) : Option (State × List Nat) :=
  let w1 := w.getD 1 0
  match key with
  | none => none
  | some k =>
    if s.lcKeys ∧ Asker.custodian a s ∧ fillOk w1 (w.getD 2 0) ∧ (s.slot target).kind = 0 then
      (deriveKey k w (fld w1 17 15)).map fun m => (s.fillSlot target w1 (w.getD 2 0) m, [])
    else none

/-- A request that fills no slot has words 1 and 2 at 0. -/
def noFill (w : List Nat) : Bool := w.getD 1 0 == 0 && w.getD 2 0 == 0

/-- SIGN. -/
def State.opSign (s : State) (a : Asker) (w : List Nat) (slot target : Nat) : Option (State × List Nat) :=
  let x := s.slot slot
  if s.lcKeys ∧ Asker.engineer a s ∧ noFill w ∧ target = 0 ∧ x.kind = 3 ∧ x.sign ∧ w.length = 27 ∧ plain16 (w.drop 3) then
    let (s, d) := s.drawBits 384
    some (s.useSlot slot, words16 48 (Config.ecdsaSign x.material (big16 (w.drop 3)) d))
  else none

/-- VERIFY. -/
def State.opVerify (s : State) (a : Asker) (w : List Nat) (slot target : Nat) : Option (State × List Nat) :=
  let x := s.slot slot
  if s.lcKeys ∧ Asker.engineer a s ∧ noFill w ∧ target = 0 ∧ x.kind = 4 ∧ x.verify ∧ w.length = 75 ∧ plain16 (w.drop 3)
      ∧ Config.ecdsaVerify x.material (big16 ((w.drop 3).take 24)) (big16 (w.drop 27)) then
    some (s.useSlot slot, [])
  else none

/-- Every secret of the Fold is zeroed: root, slots, link key copies (R529, R549). -/
def State.foldZero (s : State) : State :=
  let keys := s.fold.slots
  let s := { s with fold.root := none, ring.links := s.ring.links.map fun (l, x) => (l, { x with key := none }) }
  keys.foldl (fun s p => s.eraseSlot p.1) s

/-- LIFECYCLE (R548, R549): a granted change zeroes the Fold, fires, and burns the fuses. -/
def State.opLifecycle (s : State) (a : Asker) (w : List Nat) (slot target : Nat) : Option (State × List Nat) :=
  let dest := w.getD 3 0
  let signed := w.length == 59 && s.signedOk w 4
  if slot = 0 ∧ target = 0 ∧ noFill w ∧ (w.length = 4 ∨ signed) ∧ s.lcOk a dest signed then
    let s := if signed then { s with fold.installSeq := u36 (w.drop 4) } else s
    let old := s.fold.lifecycle
    some ({ s.foldZero with fold.burning := some dest }.fire 308 0 (8 * old + dest), [])
  else none

/-- OTP_WRITE: a hash, or a hash with the point that it is checked against. -/
def State.opOtpWrite (s : State) (a : Asker) (w : List Nat) (slot target : Nat) : Option (State × List Nat) :=
  let h := big16 ((w.drop 3).take 24)
  let point := w.drop 27
  if s.fold.lifecycle ≤ 1 ∧ Asker.service a ∧ slot = 0 ∧ 1 ≤ target ∧ target ≤ 3 ∧ noFill w ∧ (s.otp target).hash = none
      ∧ (w.length = 27 ∨ (w.length = 75 ∧ Config.sha384 (bytes16 point) = h)) ∧ plain16 (w.drop 3) then
    some (s.setOtp target { hash := some h, revoked := false, point := point }, [])
  else none

/-- Owner hashes written and not revoked. -/
def State.ownerHashes (s : State) : List Nat := [1, 2, 3].filter fun k => (s.otp k).hash.isSome && !(s.otp k).revoked

/-- REVOKE: never of the last unrevoked owner hash. -/
def State.opRevoke (s : State) (a : Asker) (w : List Nat) (slot target : Nat) : Option (State × List Nat) :=
  if s.lcKeys ∧ Asker.custodian a s ∧ slot = 0 ∧ noFill w ∧ w.length = 3 ∧ s.ownerHashes.contains target
      ∧ 2 ≤ s.ownerHashes.length then
    some (s.setOtp target { s.otp target with revoked := true }, [])
  else none

/-- An operation by its words: the state and its output words when it is granted, none when it is refused (R540). -/
def State.foldRun (s : State) (r : FoldReq) : Option (State × List Nat) :=
  let w0 := r.words.getD 0 0
  let slot := fld w0 11 6
  let target := fld w0 5 0
  let x := s.slot slot
  match fld w0 17 12 with
  | 1 => if slot = 0 then s.opInstallClear r.asker r.words target else none
  | 2 => if slot = 0 then s.opInstallSigned r.asker r.words target else none
  | 3 => s.opInstallWrapped r.asker r.words slot target
  | 4 =>
    (s.opDerive r.asker r.words target (if x.kind = 2 ∧ x.derive then some x.material else none)).map fun p =>
      (p.1.useSlot slot, p.2)
  | 5 => if slot = 0 then s.opDerive r.asker r.words target s.fold.root else none
  | 6 =>
    if slot = 0 ∧ s.lcKeys ∧ Asker.custodian r.asker s ∧ noFill r.words ∧ r.words.length = 3 then some (s.eraseSlot target, [])
    else none
  | 7 => s.opSign r.asker r.words slot target
  | 8 => s.opVerify r.asker r.words slot target
  | 9 => s.opLifecycle r.asker r.words slot target
  | 10 => s.opOtpWrite r.asker r.words slot target
  | 11 => s.opRevoke r.asker r.words slot target
  | _ => none

/-! ### The engine (R539 to R541) -/

/-- The response to a FOLD_OP. -/
def State.foldReply (s : State) (a : Asker) (abort : Nat) : State :=
  let h : Head := { resp := true, op := 16, session := a.session, tag := a.tag, target := s.station / 2, unit := s.station % 2,
                    entry := 0x0E002, sub := 0, abort := abort, count := 0, pend := false, dflt := false }
  s.respond a.path a.source h []

/-- A FOLD_OP at its FINAL: BUSY when four dictionary operations wait. -/
def State.foldRequest (s : State) (a : Asker) (words : List Nat) : State :=
  if 5 ≤ s.fold.engine.length then s.foldReply a aBusy
  else { s with fold.engine := s.fold.engine ++ [⟨words, a⟩] }

/-- FOLD_OP_DONE (R539 to R541). -/
def execFoldOpDone (s : State) : Host.Outcome State Fault Refusal :=
  .next (match s.fold.engine with
    | [] => s
    | r :: rest =>
      let spoiled := s.fold.spoiled
      let s := { s with fold.engine := rest, fold.spoiled := false }
      let op := fld (r.words.getD 0 0) 17 12
      let k := 4 * r.asker.session.val + r.asker.path.val
      match if spoiled || !s.foldReady then none else s.foldRun r with
      | some (s, out) =>
        let s := { s with fold.results := Tab.set none s.fold.results k (some (r.asker.source, (put 12 6 op + put 10 2 1) :: out)) }
        (s.foldGrant).foldReply r.asker 0
      | none =>
        let s := { s with fold.results := Tab.set none s.fold.results k (some (r.asker.source, [put 12 6 op + put 10 2 2])) }
        (s.foldRefuse).foldReply r.asker aRefused)

/-- Word 0 of FOLD_OP (R536). -/
def foldWord (op slot target : Nat) : Nat := put 12 6 op + put 6 6 slot + put 0 6 target

/-- A request with its target metadata and payload. -/
def State.foldAsk (s : State) (a : Asker) (op slot target : Nat) (fill : Fill) (payload : List Word) : State :=
  s.foldRequest a ([foldWord op slot target, fill.info.toNat, fill.count.toNat] ++ payload.map BitVec.toNat)

/-- No target metadata. -/
def Fill.zero : Fill := { info := 0, count := 0 }

/-- INSTALL_CLEAR (R536). -/
def execInstallClear (a : Asker) (target : Fin 64) (fill : Fill) (payload : List Word) (s : State) :
    Host.Outcome State Fault Refusal := .next (s.foldAsk a 1 0 target fill payload)

/-- INSTALL_SIGNED (R536). -/
def execInstallSigned (a : Asker) (target : Fin 64) (fill : Fill) (payload : List Word) (s : State) :
    Host.Outcome State Fault Refusal := .next (s.foldAsk a 2 0 target fill payload)

/-- INSTALL_WRAPPED (R536). -/
def execInstallWrapped (a : Asker) (slot target : Fin 64) (fill : Fill) (payload : List Word) (s : State) :
    Host.Outcome State Fault Refusal := .next (s.foldAsk a 3 slot target fill payload)

/-- DERIVE (R538). -/
def execDerive (a : Asker) (slot target : Fin 64) (fill : Fill) (payload : List Word) (s : State) :
    Host.Outcome State Fault Refusal := .next (s.foldAsk a 4 slot target fill payload)

/-- DERIVE_ROOT (R538). -/
def execDeriveRoot (a : Asker) (target : Fin 64) (fill : Fill) (payload : List Word) (s : State) :
    Host.Outcome State Fault Refusal := .next (s.foldAsk a 5 0 target fill payload)

/-- ERASE (R536). -/
def execErase (a : Asker) (target : Fin 64) (s : State) : Host.Outcome State Fault Refusal :=
  .next (s.foldAsk a 6 0 target Fill.zero [])

/-- SIGN (R536). -/
def execSign (a : Asker) (slot : Fin 64) (payload : List Word) (s : State) : Host.Outcome State Fault Refusal :=
  .next (s.foldAsk a 7 slot 0 Fill.zero payload)

/-- VERIFY (R536). -/
def execVerify (a : Asker) (slot : Fin 64) (payload : List Word) (s : State) : Host.Outcome State Fault Refusal :=
  .next (s.foldAsk a 8 slot 0 Fill.zero payload)

/-- LIFECYCLE (R548). -/
def execLifecycle (a : Asker) (payload : List Word) (s : State) : Host.Outcome State Fault Refusal :=
  .next (s.foldAsk a 9 0 0 Fill.zero payload)

/-- OTP_WRITE (R536). -/
def execOtpWrite (a : Asker) (target : Fin 64) (payload : List Word) (s : State) : Host.Outcome State Fault Refusal :=
  .next (s.foldAsk a 10 0 target Fill.zero payload)

/-- REVOKE (R536). -/
def execRevoke (a : Asker) (target : Fin 64) (s : State) : Host.Outcome State Fault Refusal :=
  .next (s.foldAsk a 11 0 target Fill.zero [])

/-! ### Tamper, root and TRNG (R527 to R530, R546) -/

/-- A tamper cause is armed (R528). -/
def State.tamperArmed (s : State) (cause : Nat) : Bool :=
  match cause with
  | 2 => bit (s.cfg 0x0E007) 5
  | 3 => bit (s.cfg 0x0E007) 3
  | 4 => bit (s.cfg 0x0E007) 2
  | _ => true

/-- The lowest cause in a set of cause bits. -/
def lowestCause (v : Nat) : Nat := (((List.range 9).find? fun k => v.testBit k).getD 0) + 1

/-- FOLD_TAMPER (R529). -/
def execFoldTamper (cause : Fin 9) (vbat : Fin 4096) (s : State) : Host.Outcome State Fault Refusal :=
  let c := cause.val + 1
  .next (if !s.tamperArmed c then s
    else
      let s := s.foldZero
      let s := { s with fold.vbat := vbat, fold.standing := s.fold.standing ||| 2 ^ cause.val,
                        fold.latched := s.fold.latched ||| 2 ^ cause.val, fold.events := s.fold.events + 1, dict.nonces := [],
                        fold.spoiled := !s.fold.engine.isEmpty }
      if s.bellRuns then ((s.bump 0x0E00A 2).fire 304 c).endSessions fun _ => true
      else { s with fold.unfired := s.fold.unfired + 1 })

/-- A fresh root from the TRNG. -/
def State.drawRoot (s : State) : State :=
  let (s, v) := s.drawBits 256
  { s with fold.root := some v }

/-- FOLD_ROOT_DRAW (R530): every cause has been clear for 1 s. -/
def execFoldRootDraw (s : State) : Host.Outcome State Fault Refusal :=
  let s := { s with fold.standing := 0 }
  .next (if s.lcKeys && s.fold.root.isNone then s.drawRoot else s)

/-- VBAT_LOW_EXPIRY (R527). -/
def execVbatLowExpiry (vbat : Fin 4096) (s : State) : Host.Outcome State Fault Refusal :=
  let s := { s with fold.vbat := vbat }
  .next (if 2000 ≤ vbat.val ∧ vbat.val ≤ 2200 then s.fireLive 305 0 else s)

/-- TRNG_HEALTH_FAIL (R546). -/
def execTrngHealthFail (s : State) : Host.Outcome State Fault Refusal :=
  let s := { s with fold.trngOk := false, fold.spoiled := s.fold.spoiled || !s.fold.engine.isEmpty }
  .next ((s.bump 0x0E00A 3).fireLive 307 0)

/-- TRNG_HEALTH_RECOVER (R546). -/
def execTrngHealthRecover (s : State) : Host.Outcome State Fault Refusal := .next { s with fold.trngOk := true }

/-- What the Fold does at every start, a flood from KEEP among them (R529, R530, R608): latched causes enter TAMPER_LOG, and a
missing root is drawn where no cause stands. -/
def State.foldLatched (s : State) : State :=
  let s :=
    if s.fold.latched = 0 then s
    else
      let n := s.fold.events
      let causes := s.fold.latched
      let unfired := s.fold.unfired
      let log := put 27 9 causes + put 9 18 (satAdd 18 (fld s.fold.tamperLog 26 9) n)
      let s := { s with fold.tamperLog := log, fold.latched := 0, fold.events := 0, fold.unfired := 0 }
      if unfired == 0 then s else (s.bump 0x0E00A 2 unfired).fire 304 (lowestCause causes)
  if s.lcKeys && s.fold.root.isNone && s.fold.standing == 0 then s.drawRoot else s

/-- The Fold's part of a cold start or a warm restart (R535, R550): waiting operations are dropped, EXPIRE slots erased, and
then what every start does. -/
def State.foldStart (s : State) : State :=
  let s := { s with fold.engine := [], fold.spoiled := false, fold.results := [] }
  let s : State := s.fold.slots.foldl (fun (s : State) p => if p.2.expire then s.eraseSlot p.1 else s) s
  s.foldLatched

/-! ### What the dictionary publishes (R552) -/

def State.foldStateWord (s : State) : Nat :=
  let st := if s.fold.standing ≠ 0 then 1 else if s.lcKeys then (if s.fold.root.isSome then 0 else 1) else 2
  put 34 2 st + putB 33 (!s.fold.engine.isEmpty) + put 29 4 (s.fold.engine.length - 1) + putB 28 s.fold.trngOk
    + put 19 9 s.fold.standing + put 7 12 s.fold.vbat
def State.keySlotWord (s : State) (k : Nat) : Nat := (s.slot k).info + (s.slot k).count
def State.otpKeyWord (s : State) (k : Nat) : Nat :=
  if k = 0 then put 35 1 1 + fld Config.otpHash0 383 352
  else match (s.otp k).hash with
    | some h => put 35 1 1 + putB 34 (s.otp k).revoked + fld h 383 352
    | none => 0

end Sys2Proof.Machine
end

