-- ==== Sys2Proof/Machine/Gates.lean ====
section
/-! DEFINITION. The gates for hot insertion (chapter 21). A command carries the sample that shows its event; the sample's
T_FET is the diode's reading or the model of R582 as it stands at that sample. -/

namespace Sys2Proof.Machine

/-- Settings of R591. -/
def State.gRail48 (s : State) (g : Nat) : Bool := bit (s.cfg 0x10000 g) 34
def State.gAuto (s : State) (g : Nat) : Bool := bit (s.cfg 0x10000 g) 32
def State.gHot (s : State) (g : Nat) : Nat := fld (s.cfg 0x10004 g) 17 9
def State.gRef (s : State) (g : Nat) : Nat := fld (s.cfg 0x10004 g) 8 0

/-- The gate with a sample taken. -/
def Gate.take (x : Gate) (m : GateSample) : Gate := { x with vin := m.vin, vout := m.vout, i := m.i, t := m.t }

/-- VIN in its window (R577). -/
def State.inWindow (s : State) (g vin : Nat) : Bool :=
  if s.gRail48 g then decide (360 ≤ vin) && decide (vin ≤ 600) else decide (180 ≤ vin) && decide (vin ≤ 320)

/-- T_FET below T_HOT − 20 °C. -/
def State.gCool (s : State) (g t : Nat) : Bool := decide (t + 20 < s.gHot g + 64)

/-- Bell holds the gate in its safe state (R587). -/
def State.gateSafe (s : State) (g : Nat) : Bool := s.classSafe 21 g

/-- A count of GATE_COUNTS. -/
def State.gCount (s : State) (g k : Nat) : State := s.bump 0x1000A (4 * g + k)

/-- ENABLE takes effect (R579). -/
def State.gateEnable (s : State) (g v : Nat) : State :=
  let x := s.gateAt g
  match x.state, bit v 35 with
  | .disabled, true => s.setGate g { x with state := .empty, t := s.gRef g + 64, tries := 0 }
  | .disabled, false => s
  | .damaged, _ => s
  | _, true => s
  | _, false => s.setGate g (x.off .disabled 1)

/-- A trip (R581 to R583): a try, its firing, then COOLDOWN or LOCKOUT. -/
def State.gateTrip (s : State) (g cause : Nat) : State :=
  let x := s.gateAt g
  let tries := satAdd 8 x.tries 1
  let out := fld (s.cfg 0x10005 g) 25 18 < tries
  let s := s.setGate g { x.off (if out then .lockout else .cooldown) cause with tries := tries, offDone := false }
  let s := s.gCount g 1
  let s := if cause = 4 then s.gCount g 3 else s
  let s := s.fireLive (if cause = 7 then 338 else 337) g
  if out then (s.gCount g 2).fireLive 339 g else s

/-- GATE_SEATED (R578, R579); a DISABLED gate takes no samples (R577). -/
def execGateSeated (g : Fin 16) (m : GateSample) (s : State) : Host.Outcome State Fault Refusal :=
  let x := s.gateAt g
  .next (if x.state = .disabled then s
    else if x.state = .empty then
      ((s.setGate g { x.take m with state := .seating, seatA := true, seatB := true }).gCount g 0).fireLive 336 g
    else s.setGate g { x with seatA := true, seatB := true })

/-- GATE_UNSEATED (R578, R579). -/
def execGateUnseated (g : Fin 16) (a b : Bool) (s : State) : Host.Outcome State Fault Refusal :=
  let x := { s.gateAt g with seatA := a, seatB := b }
  .next (if (a && b) || x.state == .disabled then s
    else if x.running then (s.setGate g { x.off .empty 2 with tries := 0 }).fireLive 336 g
    else
      match x.state with
      | .seating => s.setGate g { x with state := .empty }
      | .ready | .cooldown | .lockout => s.setGate g { x with state := .empty, tries := 0 }
      | _ => s.setGate g x)

/-- SEAT_DEBOUNCE_EXPIRY (R579). -/
def execSeatDebounceExpiry (g : Fin 16) (s : State) : Host.Outcome State Fault Refusal :=
  let x := s.gateAt g
  .next (if x.state = .seating then s.setGate g { x with state := .ready, req := s.gAuto g } else s)

/-- GATE_START (R580). -/
def execGateStart (g : Fin 16) (m : GateSample) (s : State) : Host.Outcome State Fault Refusal :=
  let x := (s.gateAt g).take m
  .next (if x.state = .ready ∧ x.seatA = true ∧ x.seatB = true ∧ x.req = true ∧ s.inWindow g m.vin = true ∧ s.gCool g m.t = true
      ∧ s.gateSafe g = false ∧ s.bellRuns = true then s.setGate g { x with state := .precharge }
    else s)

/-- PRECHARGE_DONE (R579). -/
def execPrechargeDone (g : Fin 16) (m : GateSample) (s : State) : Host.Outcome State Fault Refusal :=
  let x := (s.gateAt g).take m
  .next (if x.state = .precharge ∧ fld (s.cfg 0x10002 g) 27 21 * m.vin.val ≤ 100 * m.vout.val then
      s.setGate g { x with state := .turnOn }
    else s)

/-- TURN_ON_DONE (R579). -/
def execTurnOnDone (g : Fin 16) (m : GateSample) (s : State) : Host.Outcome State Fault Refusal :=
  let x := (s.gateAt g).take m
  .next (if x.state = .turnOn ∧ m.vin.val ≤ m.vout.val + fld (s.cfg 0x10002 g) 12 8 then s.setGate g { x with state := .settle }
    else s)

/-- PGOOD_DELAY_EXPIRY (R579). -/
def execPgoodDelayExpiry (g : Fin 16) (s : State) : Host.Outcome State Fault Refusal :=
  let x := s.gateAt g
  .next (if x.state = .settle then s.setGate g { x with state := .on } else s)

/-- PRE_TIME_EXPIRY (R579). -/
def execPreTimeExpiry (g : Fin 16) (s : State) : Host.Outcome State Fault Refusal :=
  .next (if (s.gateAt g).state = .precharge then s.gateTrip g 5 else s)

/-- MAIN_TIME_EXPIRY (R579). -/
def execMainTimeExpiry (g : Fin 16) (s : State) : Host.Outcome State Fault Refusal :=
  .next (if (s.gateAt g).state = .turnOn then s.gateTrip g 6 else s)

/-- SLOW_CURRENT_TRIP (R581). -/
def execSlowCurrentTrip (g : Fin 16) (m : GateSample) (s : State) : Host.Outcome State Fault Refusal :=
  .next (if (s.gateAt g).running ∧ fld (s.cfg 0x10001 g) 35 22 ≤ m.i.val then (s.setGate g ((s.gateAt g).take m)).gateTrip g 3
    else s)

/-- FAST_CURRENT_TRIP (R581). -/
def execFastCurrentTrip (g : Fin 16) (s : State) : Host.Outcome State Fault Refusal :=
  .next (if (s.gateAt g).running then s.gateTrip g 4 else s)

/-- FET_HOT_TRIP (R582). -/
def execFetHotTrip (g : Fin 16) (m : GateSample) (s : State) : Host.Outcome State Fault Refusal :=
  .next (if (s.gateAt g).running ∧ s.gHot g + 64 ≤ m.t.val then (s.setGate g ((s.gateAt g).take m)).gateTrip g 7 else s)

/-- RAIL_WINDOW_EXIT (R577, R579): no try. -/
def execRailWindowExit (g : Fin 16) (m : GateSample) (s : State) : Host.Outcome State Fault Refusal :=
  let x := (s.gateAt g).take m
  .next (if x.running ∧ s.inWindow g m.vin = false then s.setGate g (x.off .ready 8) else s)

/-- COOLDOWN_EXPIRY (R583). -/
def execCooldownExpiry (g : Fin 16) (m : GateSample) (s : State) : Host.Outcome State Fault Refusal :=
  let x := { (s.gateAt g).take m with offDone := true }
  .next (if x.state = .cooldown then s.setGate g (if s.gCool g m.t then { x with state := .ready } else x) else s)

/-- FET_COOLED (R579). -/
def execFetCooled (g : Fin 16) (m : GateSample) (s : State) : Host.Outcome State Fault Refusal :=
  let x := (s.gateAt g).take m
  .next (if x.state = .cooldown ∧ x.offDone = true ∧ s.gCool g m.t = true then s.setGate g { x with state := .ready } else s)

/-- RETRY_RESET_EXPIRY (R579). -/
def execRetryResetExpiry (g : Fin 16) (s : State) : Host.Outcome State Fault Refusal :=
  let x := s.gateAt g
  .next (if x.state = .on then s.setGate g { x with tries := 0 } else s)

/-- GATE_DAMAGE_DETECTED (R584): a gate whose switches are both off. -/
def execGateDamageDetected (g : Fin 16) (m : GateSample) (s : State) : Host.Outcome State Fault Refusal :=
  let x := (s.gateAt g).take m
  .next (if x.state ≠ .disabled ∧ x.state ≠ .damaged ∧ x.running = false
        ∧ fld (s.cfg 0x10006 g) 9 3 * m.vin.val ≤ 100 * m.vout.val then
      ({ s.setGate g (x.off .damaged 11) with gate.latch := s.gate.latch ||| 2 ^ g.val }).fireLive 340 g
    else s)

/-! ### GATE_CMD (R579, R584) -/

/-- BAD_STATE of a GATE_CMD. -/
def State.gateBad (s : State) : State := s.abort 0x10009 aBadState

/-- GATE_CMD ON. -/
def State.gateOnOp (s : State) (g : Nat) : State :=
  let x := s.gateAt g
  if x.state = .ready then s.setGate g { x with req := true } else s.gateBad

/-- GATE_CMD OFF. -/
def State.gateOffOp (s : State) (g : Nat) : State :=
  let x := s.gateAt g
  if x.running then s.setGate g { x.off .ready 1 with req := false }
  else
    match x.state with
    | .ready | .cooldown => s.setGate g { x with state := .ready, req := false }
    | _ => s.gateBad

/-- GATE_CMD RESET. -/
def State.gateResetOp (s : State) (g : Nat) : State :=
  let x := s.gateAt g
  if x.state = .lockout then s.setGate g { x with state := .ready, tries := 0, req := s.gAuto g } else s.gateBad

/-- GATE_CMD CLEAR_DAMAGED. -/
def State.gateClearOp (s : State) (g : Nat) (clear : Bool) : State :=
  let x := s.gateAt g
  if x.state = .damaged ∧ clear = true then
    { s.setGate g { x with state := .empty } with
      gate.latch := (List.range 16).foldl (fun a k => if s.gate.latch.testBit k && k != g then a + 2 ^ k else a) 0 }
  else s.gateBad

def execGateOn (g : Fin 16) (s : State) : Host.Outcome State Fault Refusal := .next (s.gateOnOp g)
def execGateOff (g : Fin 16) (s : State) : Host.Outcome State Fault Refusal := .next (s.gateOffOp g)
def execGateReset (g : Fin 16) (s : State) : Host.Outcome State Fault Refusal := .next (s.gateResetOp g)
def execClearDamaged (g : Fin 16) (clear : Bool) (s : State) : Host.Outcome State Fault Refusal := .next (s.gateClearOp g clear)

/-! ### Turns, power and what the dictionary publishes -/

/-- A gate in ON counts as ON for the banks from this turn (R586). -/
def State.gateTurn (s : State) : State :=
  { s with gate.gates := s.gate.gates.map fun (g, x) => (g, { x with banksOn := x.state == .on }) }

/-- Every running gate off with CAUSE 10 (R588). -/
def State.gatesPower (s : State) : State := (List.range 16).foldl (fun s g => s.gateDown g 10) s

/-- Every gate at a cold start, under its kept settings; a DAMAGED gate stays DAMAGED (R584, R588). -/
def State.gatesCold (s : State) : State :=
  (List.range 16).foldl (fun (s : State) g =>
    if s.gate.latch.testBit g then s.setGate g { Gate.blank with state := .damaged, cause := 11 }
    else (s.setGate g Gate.blank).gateEnable g (s.cfg 0x10000 g)) s

def GState.code : GState → Nat
  | .disabled => 0 | .empty => 1 | .seating => 2 | .ready => 3 | .precharge => 4 | .turnOn => 5 | .settle => 6 | .on => 7
  | .cooldown => 8 | .lockout => 9 | .damaged => 10
def State.gateStateWord (s : State) (g : Nat) : Nat :=
  let x := s.gateAt g
  put 32 4 x.state.code + put 28 4 x.cause + put 20 8 x.tries + putB 19 x.seatA + putB 18 x.seatB
    + putB 17 (x.state == .precharge || x.state == .turnOn) + putB 16 (x.running && x.state != .precharge)
    + putB 15 (s.gate.latch.testBit g) + putB 14 x.req + put 5 9 x.t
def State.gateMeasureWord (s : State) (g : Nat) : Nat :=
  let x := s.gateAt g
  put 24 12 x.vin + put 12 12 x.vout + put 0 12 x.i

end Sys2Proof.Machine
end

