-- ==== Sys2Proof/Machine/Checks.lean ====
section
/-! DEFINITION. The write checks of the dictionary's chapters that look beyond one value's field map (R18, R449): against
other entries, the active table, or the state. -/

namespace Sys2Proof.Machine

/-- The value that mirrored words of an entry spell. -/
def wordsValue (e : Nat) (l : List Nat) : Nat :=
  match findRow e with
  | some (r, _) => if r.ty.words = 2 then u36 l else if r.ty.words = 7 then timeOf l else l.getD 0 0
  | none => 0

/-- Values of the accepted writes of a setting that have yet to take effect, in the order in which they will: at the next
turn, or at their F_eff (R436, R449). -/
def State.awaited (s : State) (e sub : Nat) : List Nat :=
  ((s.dict.pending.filter (·.1 == key e sub)).map Prod.snd)
    ++ (s.pair.writes.filter (·.2.1 == key e sub)).map fun p => wordsValue e p.2.2

/-- The value a setting holds or will hold once every accepted write has taken effect. -/
def State.wanted (s : State) (e sub : Nat) : Nat := (s.awaited e sub).getLastD (s.cfg e sub)

/-! ### The point map (R158 to R161) -/

/-- Runs of a POINT_MAP value. -/
def mapRuns (l : List Word) : List Run :=
  (List.range (l.length / 6)).map fun i =>
    let w k := sec36 l (6 * i + k)
    { first := fld (w 0) 24 0, upland := bit (w 2) 35, addr := fld (w 2) 28 0, kind := fld (w 4) 35 34,
      width := fld (w 4) 33 31, bitPos := fld (w 4) 30 27, count := fld (w 4) 20 0 }

/-- First and last word of a run. -/
def Run.firstWord (r : Run) : Nat := r.addr
def Run.lastWord (r : Run) : Nat :=
  if r.kind = 0 then r.addr + (r.bitPos + r.count) / 16
  else if r.kind = 1 then r.addr + r.count
  else r.addr + (r.count + 1) * (r.width + 1) - 1

/-- R158 for every value of a WIDE run: 2 to 4 words within a line, 5 to 8 from word 0 of a line. -/
def Run.wideOk (r : Run) : Bool :=
  let w := r.width + 1
  (List.range (min (r.count + 1) 4)).all fun k =>
    let a := r.addr + k * w
    if w ≤ 4 then decide (a % 4 + w ≤ 4) else a % 4 == 0

/-- Bits of word `a` that a DISCRETE run uses, as the first and last bit. -/
def Run.bitsIn (r : Run) (a : Nat) : Nat × Nat :=
  (if a = r.firstWord then r.bitPos else 0, if a = r.lastWord then (r.bitPos + r.count) % 16 else 15)

/-- Two runs share no word, but for a flock word with disjoint bits (R161). Words shared by two DISCRETE runs are looked
at from the later first word on. -/
def Run.apart (r q : Run) : Bool :=
  r.upland != q.upland || decide (r.lastWord < q.firstWord) || decide (q.lastWord < r.firstWord)
  || (r.kind == 0 && q.kind == 0 &&
    let a := max r.firstWord q.firstWord
    let b := min r.lastWord q.lastWord
    decide (a = b) && (let (i, j) := r.bitsIn a
                       let (k, l) := q.bitsIn a
                       decide (j < k) || decide (l < i)))

/-- No word of a pasture run lies in a copy-1 line. -/
def Run.offCopy1 (h : Half) (r : Run) : Bool :=
  r.upland || h.regionList.all fun p =>
    decide (r.lastWord / 4 < p.2.base1) || decide (p.2.base1 + p.2.lines ≤ r.firstWord / 4)

/-- A run's own checks (R161 1, 3, 4, 6); a run whose last point passes the 25-bit point index, of which R161 says nothing, is
refused too (log 116). -/
def runOk (h : Half) (l : List Word) (i : Nat) (r : Run) : Bool :=
  let w k := sec36 l (6 * i + k)
  fld (w 0) 35 25 == 0 && fld (w 2) 34 29 == 0 && fld (w 4) 26 21 == 0 && decide (r.kind < 3)
  && decide (r.lastWord < (if r.upland then 2 ^ 29 else 2 ^ 24)) && decide (r.first + r.count < 2 ^ 25)
  && (if r.kind = 2 then decide (1 ≤ r.width) && r.wideOk else r.width == 0) && (r.kind == 0 || r.bitPos == 0)
  && r.offCopy1 h

/-- The first run of a POINT_MAP value that breaks R161, by index. -/
def mapBad (h : Half) (l : List Word) : Option Nat :=
  let rs := mapRuns l
  if l.length % 6 ≠ 0 then some rs.length
  else (List.range rs.length).find? fun i =>
    let r := rs.getD i default0
    decide (32768 ≤ i) || !runOk h l i r
    || (decide (0 < i) && (let p := rs.getD (i - 1) default0
                           decide (r.first ≤ p.first + p.count)))
    || (rs.take i).any fun q => !r.apart q
where
  default0 : Run := { first := 0, upland := false, addr := 0, kind := 0, width := 0, bitPos := 0, count := 0 }

/-- The active half, or one with no regions. -/
def State.regionHalf (s : State) : Half :=
  if s.table.valid then s.activeHalf
  else { s.activeHalf with regions := [] }

/-! ### Pens (R192, R205) -/

/-- A pen is not OFF, or an accepted write that has yet to take effect sets its ENABLE to 1, whatever a later one says
(R192). -/
def State.penClaims (s : State) (p : Nat) : Bool :=
  (s.penAt p).state != .off || (s.awaited 0x03100 p).any fun v => bit v 35

/-- Blocks of a PEN_CONFIG value. -/
def penFirst (v : Nat) : Nat := fld v 29 15
def penLast (v : Nat) : Nat := fld v 29 15 + fld v 14 0

/-- Pens that claim blocks. -/
def State.claimants (s : State) : List Nat :=
  (((s.pair.writes.filter fun (p : Nat × Nat × List Nat) => p.2.1 / 4096 == 0x03100).map fun (p : Nat × Nat × List Nat) => p.2.1 % 4096)
    ++ ((s.dict.pending.filter fun (p : Nat × Nat) => p.1 / 4096 == 0x03100).map fun (p : Nat × Nat) => p.1 % 4096)
    ++ s.pen.pens.map Prod.fst).dedup.filter s.penClaims

/-- The blocks of a value end in the pool. -/
def penInPool (v : Nat) : Bool := decide (penLast v ≤ 32767)

/-- The blocks of two values share none. -/
def pensApart (u v : Nat) : Bool := decide (penLast v < penFirst u) || decide (penLast u < penFirst v)

/-- The blocks of a value overlap no other claiming pen (R192). -/
def State.penRoom (s : State) (p v : Nat) : Bool :=
  s.claimants.all fun q => q == p || pensApart (s.wanted 0x03100 q) v

/-- A change of BASE, SIZE, ITEM or PACKET of a pen that is not OFF (R192). -/
def State.penMoves (s : State) (p v : Nat) : Bool :=
  s.penClaims p && fld (s.wanted 0x03100 p) 34 0 != fld v 34 0

/-- A pen is enabled in packet mode with ITEM 0, by the entry in force (R297). -/
def State.penPacket0 (s : State) (p : Nat) : Bool :=
  let v := s.cfg 0x03100 p
  bit v 35 && bit v 34 && fld v 33 32 == 0

/-! ### Forces, bus channels, the switch core (R183, R271, R297, R324) -/

/-- The run of a point in the map in force. -/
def State.pointRun (s : State) (x : Nat) : Option Run := mapRun s.image.map x

/-- A force may be enabled on its point: it is mapped and not WIDE, no other enabled entry names it, and a DISCRETE point's
forced value has only bit 0 (R183). Whether an entry whose accepted ENABLE 0 still awaits the turn is an enabled entry is
left open: it is not one here (DESIGN CHOICE, log 137). -/
def State.forceOk (s : State) (k v : Nat) : Bool :=
  !bit v 35 ||
    ((match s.pointRun (fld v 24 0) with
      | some r => r.kind != 2 && (r.kind != 0 || fld (s.wanted 0x03011 k) 15 1 == 0)
      | none => false)
    && (List.range 256).all fun j => j == k || !bit (s.wanted 0x03010 j) 35
        || fld (s.wanted 0x03010 j) 24 0 != fld v 24 0)

/-- A forced payload of a DISCRETE point has only bit 0. -/
def State.forceValOk (s : State) (k v : Nat) : Bool :=
  let p := s.wanted 0x03010 k
  !bit p 35 || fld v 15 1 == 0 || (match s.pointRun (fld p 24 0) with | some r => r.kind != 0 | none => true)

/-- The pins that a binding section gives a bus channel's role (R271). -/
def busPins (l : List Word) (c role : Nat) : List Nat :=
  (List.range 1024).filter fun p =>
    let v := secPin l p
    pinOwner v == 4 && pinUnit v == c && fld v 24 24 == role

/-- The binding of an enabled channel (R271). -/
def busBinding (l : List Word) (c : Nat) : Bool :=
  (match busPins l c 1 with
    | [p] => let v := secPin l p
             pinMode v == 0 && !pinInvert v
    | _ => false)
  && (match busPins l c 0 with
    | [p] => let v := secPin l p
             fld v 15 12 == 0 && !pinInvert v
    | _ => false)

/-- Pens of the enabled filters and of the pen-fed buffers, as they are in force (R282, R284, R297). -/
def State.busPensOk (s : State) (c mode : Nat) : Bool :=
  ((List.range 64).all fun i => !bit (s.cfg (busEntry c 5) i) 35 || s.penPacket0 (fld (s.cfg (busEntry c 7) i) 11 0))
  && (List.range 3).all fun b => !bit mode (26 + b)
      || s.penPacket0 (fld (s.cfg (busEntry c 8)) (35 - 12 * b) (24 - 12 * b))

/-- The rates with one of the entries replaced, the others as they are in force (R274). -/
def State.ratesWith (s : State) (c j v : Nat) : Bool :=
  let g k := if k = j then v else s.cfg (busEntry c k) 0
  ratesOk (g 1) (g 2) (g 3) (g 4) (g 0)

/-- BUS_MODE with ENABLE 1 (R297). -/
def State.busModeOk (s : State) (c v : Nat) : Bool :=
  !bit v 35 || (busBinding (s.sect 6) c && s.ratesWith c 0 v && s.busPensOk c v)

/-- MODE of PORT_CONFIG suits the port, and AN is 1 only on 1000BASE-X (R324). -/
def portModeOk (p v : Nat) : Bool :=
  let m := fld v 34 32
  (if p < 16 then decide (m ≤ 3) else if p < 48 then decide (m ≤ 2) else decide (m ≤ 3))
  && (!bit v 31 || (decide (p < 16) && m == 0))

/-- SRC and N of a SESSION suit its SRC_KIND and KIND (R324): a port is 0 to 48; a sample ratio is at least 1, and a mirror
has none. -/
def sessionOk (v : Nat) : Bool :=
  (fld v 33 32 == 3 || decide (fld v 31 24 ≤ 48))
  && (match fld v 35 34 with | 1 => fld v 17 2 == 0 | 2 => fld v 17 2 != 0 | _ => true)

/-- The bus channel and entry of a number of group 0x06. -/
def busOf (e : Nat) : Nat × Nat := ((e - 0x06000) / 32, (e - 0x06000) % 32)

/-! ### Fabric time, the host, the Fold, the gates -/

/-- The TIME_DOMAIN fields that bind one another (R415). -/
def State.domainOk (s : State) (d v : Nat) : Bool :=
  let o := s.wanted 0x09010 (1 - d)
  (fld v 24 21 == 0 || decide (9 ≤ fld v 24 21)) && decide (2 ≤ fld v 16 13)
  && !(bit v 35 && bit o 35 && fld v 32 25 == fld o 32 25)

/-- No port is in both domains: ports 0 to 35 in sub-entries 0 and 2, the others in 1 and 3. -/
def State.portsApart (s : State) (sub v : Nat) : Bool := v &&& s.wanted 0x09012 ((sub + 2) % 4) == 0

/-- FOLD_POLICY in the life cycle (R552): codes 0 BLANK, 2 FIELD, 3 RETURNED. -/
def State.policyOk (s : State) (v : Nat) : Bool :=
  if bit v 0 then s.fold.lifecycle != 0 && s.fold.lifecycle != 3 else s.fold.lifecycle != 2

/-- GATE_LIMITS and GATE_CONFIG against one another (R591). -/
def gateFits (limits config : Nat) : Bool :=
  let p := fld limits 35 22 * fld config 11 0
  decide (p ≤ 100000) && decide (p < fld limits 13 7 * 1000)

/-- Some stroke of a half writes a line of a run (R436). -/
def Half.strokeWrites (h : Half) (up : Bool) (first n : Nat) : Bool :=
  (List.range 16).any fun sl =>
    let (base, cnt, ob) := h.seg sl
    (List.range cnt).any fun i =>
      let st := h.stroke (base + i)
      match strokeDest sl st (h.desc (ob + st.opnd)) with
      | some (u, a) => u == up && decide (a < first + n) && decide (first < a + st.n)
      | none => false

/-- A mirror range names no line that a stroke of the active table writes (R436). -/
def State.rangeOk (s : State) (v lines : Nat) : Bool :=
  !bit v 35 || !s.table.valid || !s.activeHalf.strokeWrites (bit v 34) (fld v 28 0 / 4) (lines + 1)

/-! ### All together -/

/-- The checks of a bus channel's entry j. -/
def State.busValueOk (s : State) (c j v : Nat) : Bool :=
  if j = 0 then s.busModeOk c v
  else if 1 ≤ j ∧ j ≤ 4 then s.ratesWith c j v
  else true

/-- The checks of a value beyond its field map: false ends the write with BAD_VALUE. -/
def State.specialOk (s : State) (e sub v : Nat) : Bool :=
  if 0x06000 ≤ e ∧ e < 0x07000 then s.busValueOk (busOf e).1 (busOf e).2 v
  else match e with
    | 0x03010 => s.forceOk sub v
    | 0x03011 => s.forceValOk sub v
    | 0x03100 => penInPool v && (!(bit v 35 || s.penClaims sub) || s.penRoom sub v)
    | 0x03102 => fld v 29 15 == 0 || decide (fld v 14 0 < fld v 29 15)
    | 0x05003 => fld v 1 0 == 0 || pinOwner (s.pinCfg sub) != 1
    | 0x05011 => fld v 33 4 == 0 || decide (1000 ≤ fld v 33 4)
    | 0x05012 => fld v 15 0 != 0
    | 0x07000 => portModeOk sub v
    | 0x07013 => (List.range 16).all fun i => fld v (2 * i + 1) (2 * i) != 3
    | 0x07020 => decide (fld v 34 29 ≤ 48) || fld v 34 29 == 63
    | 0x07024 => fld v 21 8 == 0 || decide (fld v 35 22 < fld v 21 8)
    | 0x07060 => sessionOk v
    | 0x07030 | 0x07031 => (sub != 0 && sub != 4095) || v == 0
    | 0x01101 => decide (fld v 17 9 < fld v 26 18)
    | 0x09010 => s.domainOk sub v
    | 0x09012 => s.portsApart sub v
    | 0x0A004 => s.rangeOk v (s.wanted 0x0A005 sub)
    | 0x0A005 => s.rangeOk (s.wanted 0x0A004 sub) v
    | 0x0B001 => [0, 2, 3, 4, 7].contains (fld v 17 15)
    | 0x0B002 => !s.table.valid || decide (fld v 26 0 < s.tide.period)
    | 0x0B003 => decide (5 ≤ fld v 5 0)
    | 0x0B011 => !bit v 35 || (fld v 33 26 != 0 && fld v 25 24 != 0)
    | 0x0D010 => s.penPacket0 (fld v 11 0)
    | 0x0E006 => s.policyOk v
    | 0x10000 => gateFits (s.wanted 0x10001 sub) v
    | 0x10001 => gateFits v (s.wanted 0x10000 sub)
    | _ => true

/-- States in which a write that its class takes is not allowed: true ends it with BAD_STATE. -/
def State.stateBars (s : State) (e sub v : Nat) : Bool :=
  match e with
  | 0x03100 => s.penMoves sub v
  | 0x09005 => s.traceable
  | 0x0E007 => s.fold.lifecycle == 2 || s.fold.lifecycle == 3
  | 0x0F004 | 0x0F005 => s.upd.state == .scheduled
  | _ => false

/-- The checks of a BLOB entry's value. -/
def State.blobOk (s : State) (e : Nat) (l : List Word) : Bool :=
  match e with
  | 0x03002 => (mapBad s.regionHalf l).isNone
  | 0x07032 => staticOk l
  | _ => if 0x06000 ≤ e ∧ e < 0x07000 ∧ (busOf e).2 = 9 then trafficOk l else true

/-- A value keeps its type (R448): BOOL of one bit, the 9-bit and 18-bit types within their width, TIME under R393. -/
def Ty.fits (ty : Ty) (v : Nat) : Bool :=
  match ty with
  | .bool => decide (v ≤ 1)
  | .u9 => decide (v < 2 ^ 9)
  | .s9 => decide (v < 2 ^ 8) || decide (2 ^ 18 - 2 ^ 8 ≤ v)
  | .time => timeOk v
  | .keyref => fld v 16 6 == 0
  | _ => true

/-- A value passes every check of its entry but those of its class and the state. -/
def State.valueOk (s : State) (r : Row) (e sub v : Nat) : Bool :=
  r.ty.fits v && (r.chk.all fun c => c.ok sub v) && s.specialOk e sub v

end Sys2Proof.Machine
end

