-- ==== Sys2Proof/Machine/Container.lean ====
section
/-! DEFINITION. The tide image container (R118 to R122): its header, directory, check words, signature and unpacking, and
the form of a Pilot report (R129 to R132). -/

namespace Sys2Proof.Machine

/-! ### Reports (R129 to R132, R151) -/

/-- A failure of a check: what PILOT_REPORT holds of it but ELAPSED. -/
structure PFail where
  code : Nat
  step : Nat := 10
  pass : Nat := 0
  item : Nat := 0
  tide : Nat := 0
  off : Nat := 0
  cls : Nat := 0
  inst : Nat := 0
  other : Nat := 0
  found : Nat := 0
  limit : Nat := 0
  deriving DecidableEq, Repr

/-- The value of PILOT_REPORT/1 and /5 for an item. -/
def itemWord (active : Bool) (sluice section_ index : Nat) : Nat :=
  put 35 1 1 + putB 34 active + put 30 4 sluice + put 26 4 section_ + put 0 19 index

/-- A value that saturates at 0x3_FFFF. -/
def sat18 (n : Nat) : Nat := min n 0x3FFFF

/-- The eight values of PILOT_REPORT (R151). -/
def PFail.report (f : PFail) (elapsed : Nat) : List Nat :=
  [put 27 9 f.code + put 23 4 f.step + put 20 3 f.pass + put 18 2 3, f.item, fld f.tide 10 0, fld f.off 26 0,
   put 30 6 f.cls + put 18 12 f.inst, f.other, put 18 18 (sat18 f.found) + sat18 f.limit, fld elapsed 35 0]

/-- The report of an admitted table. -/
def admittedReport (elapsed : Nat) : List Nat :=
  [put 23 4 10 + put 20 3 6 + put 18 2 2, 0, 0, 0, 0, 0, 0, fld elapsed 35 0]

/-- A refusal at steps 1 to 9. -/
def stepFail (step code found limit : Nat) : PFail := { code := code, step := step, found := found, limit := limit }

/-- The first failure of a list of checks taken in order. -/
def firstOf : List (Option PFail) → Option PFail
  | [] => none
  | some f :: _ => some f
  | none :: l => firstOf l

/-- A failure when a condition holds. -/
def failIf (c : Bool) (f : PFail) : Option PFail := if c then some f else none

/-- The first failure that a check finds over the numbers 0 to n − 1. -/
def firstUpTo (n : Nat) (f : Nat → Option PFail) : Option PFail := (List.range n).findSome? f

/-! ### The header (R118) -/

/-- Word i of the container in the load window. -/
def Half.cw (h : Half) (i : Nat) : Nat := (Tab.get 0 h.load i).toNat
/-- A U36 of the container. -/
def Half.cw36 (h : Half) (i : Nat) : Nat := h.cw i * 2 ^ 18 + h.cw (i + 1)

def Half.cPeriod (h : Half) : Nat := h.cw36 5
def Half.cSpring (h : Half) : Nat := fld (h.cw 7) 10 0
def Half.cImageId (h : Half) : Nat := h.cw36 8
def Half.cSections (h : Half) : Nat := h.cw 10
def Half.cSigned (h : Half) : Bool := bit (h.cw 11) 0
def Half.cLength (h : Half) : Nat := h.cw36 12

/-- Words i to i + n − 1 of the container. -/
def Half.cRange (h : Half) (i n : Nat) : List Nat := (List.range n).map fun k => h.cw (i + k)

/-- Steps 1 to 4 of R122. -/
def Half.step1to4 (h : Half) : Option PFail :=
  firstOf
    [failIf (h.cw 0 != 0x271DE) (stepFail 1 0x001 (h.cw 0) 0),
     failIf (h.cw 1 != 1) (stepFail 1 0x001 (h.cw 1) 0),
     failIf (h.cw 2 != 0x400) (stepFail 2 0x002 (h.cw 2) 0x400),
     failIf (h.cw 3 != 0x1100) (stepFail 3 0x003 (h.cw 3) 0x1100),
     failIf (h.cw 4 != 1) (stepFail 4 0x004 (h.cw 4) 1)]

/-- Step 5: LENGTH, then the check words (R121). -/
def Half.step5 (h : Half) : Option PFail :=
  let n := h.cLength
  let sections := max 4 (min 10 h.cSections)
  if n < 16 + 6 * sections + 2 ∨ 16777216 < n then some (stepFail 5 0x009 (fld n 17 0) 0)
  else
    let c := crcWords (h.cRange 0 (n - 2))
    failIf (h.cw (n - 2) != fld c 31 16 || h.cw (n - 1) != fld c 15 0) (stepFail 5 0x005 (fld c 31 16) (h.cw (n - 2)))

/-- Step 6: reserved header fields and IMAGE_ID not 0, the lowest header word at fault. -/
def Half.step6 (h : Half) : Option PFail :=
  ((List.range 16).find? fun i =>
    (i == 7 && fld (h.cw 7) 17 11 != 0) || (i == 8 && h.cImageId == 0) || (i == 11 && fld (h.cw 11) 17 1 != 0)
      || ((i == 14 || i == 15) && h.cw i != 0)).map fun i => stepFail 6 0x006 i 0

/-! ### The directory (R119, R120) -/

/-- A directory entry: TYPE, VERSION, OFFSET, LENGTH. -/
structure DirEnt where
  ty : Nat
  version : Nat
  offset : Nat
  length : Nat
  deriving DecidableEq, Repr

def Half.dirEnt (h : Half) (i : Nat) : DirEnt :=
  { ty := h.cw (16 + 6 * i), version := h.cw (17 + 6 * i), offset := h.cw36 (18 + 6 * i), length := h.cw36 (20 + 6 * i) }

/-- Entry i at fault: its type, its version, its place, an overlap with an earlier section, a type already seen, or a
signature in an unsigned container. -/
def Half.dirBad (h : Half) (i : Nat) : Bool :=
  let e := h.dirEnt i
  let earlier := (List.range i).map h.dirEnt
  e.ty == 0 || decide (10 < e.ty) || e.version != 1
  || decide (e.offset < 16 + 6 * h.cSections) || decide (h.cLength < e.offset + e.length + 2)
  || earlier.any (fun q => q.ty == e.ty || (decide (e.offset < q.offset + q.length) && decide (q.offset < e.offset + e.length)))
  || (e.ty == 10 && !h.cSigned)

/-- Step 7: SECTIONS, each entry in index order, then the set of types. -/
def Half.step7 (h : Half) : Option PFail :=
  let n := h.cSections
  if n < 4 ∨ 10 < n then some (stepFail 7 0x007 n 10)
  else
    let types := (List.range n).map fun i => (h.dirEnt i).ty
    match (List.range n).find? h.dirBad with
    | some i => some (stepFail 7 0x007 i 0)
    | none =>
      (([1, 2, 3, 4] ++ if h.cSigned then [10] else []).find? fun t => !types.contains t).map fun t => stepFail 7 0x007 n t

/-- The words of the section of a type; none where the directory does not name it. -/
def Half.cSection (h : Half) (ty : Nat) : Option (List Nat) :=
  (((List.range h.cSections).map h.dirEnt).find? (·.ty == ty)).map fun e => h.cRange e.offset e.length

/-! ### The signature (R543 to R545) -/

/-- The container's words before the check words, the SIGNATURE section taken as zeros. -/
def Half.signedWords (h : Half) : List Nat :=
  let sg := ((List.range h.cSections).map h.dirEnt).find? (·.ty == 10)
  (h.cRange 0 (h.cLength - 2)).zipIdx.map fun (w, i) =>
    match sg with
    | some e => if e.offset ≤ i ∧ i < e.offset + e.length then 0 else w
    | none => w

/-- The four things that step 8 checks (R544). -/
def State.signatureOk (s : State) (h : Half) : Bool :=
  match h.cSection 10 with
  | none => false
  | some g =>
    let w k := g.getD k 0
    let k := s.otp (fld (w 0) 1 0)
    let point := (g.drop 2).take 48
    g.length == 100 && fld (w 0) 1 0 != 0 && fld (w 0) 17 2 == 0 && w 1 == 0 && w 98 == 0 && w 99 == 0 && plain16 g
    && k.hash == some (Config.sha384 (bytes16 point)) && !k.revoked
    && Config.ecdsaVerify (big16 point) (Config.sha384 (h.signedWords.flatMap wordBytes)) (big16 ((g.drop 50).take 48))

/-- Step 8: run when SIGNED is 1, or for every container while TABLE_SIG is 1 (R545). -/
def State.signs (s : State) (h : Half) : Bool := h.cSigned || bit (s.cfg 0x0E006) 0

/-- What step 8 finds: a key operation, refused as R540 and R546 lay down. -/
def State.step8 (s : State) (h : Half) : Option PFail :=
  failIf (s.signs h && !(h.cSigned && s.foldReady && s.signatureOk h)) (stepFail 8 0x1F0 0 0)

/-! ### Unpacking (R122 step 9) -/

/-- A section's length suits its part of the half. -/
def unpackOk (ty n : Nat) : Bool :=
  match ty with
  | 1 => n == 96
  | 2 | 3 => n % 4 == 0 && decide (n ≤ 4 * 524288)
  | 4 => n % 4 == 0 && decide (n ≤ 4 * 1024)
  | _ => true

/-- Step 9, the sections in type order. -/
def Half.step9 (h : Half) : Option PFail :=
  ([1, 2, 3, 4].find? fun t => !unpackOk t ((h.cSection t).getD []).length).map fun t => stepFail 9 0x008 t 0

/-- Words as a part of a half. -/
def partOf (l : List Nat) : Tab Word := Tab.setList 0 [] 0 (l.map (BitVec.ofNat 18))

/-- The half with its parts unpacked from its load window. -/
def Half.unpack (h : Half) : Half :=
  let sec t := (h.cSection t).getD []
  { h with
    period := h.cPeriod, spring := h.cSpring, imageId := h.cImageId,
    segs := partOf (sec 1), strokes := partOf (sec 2), opnds := partOf (sec 3), regions := partOf (sec 4),
    sects := [5, 6, 7, 8, 9].filterMap fun t => (h.cSection t).map fun l => (t, l.map (BitVec.ofNat 18)),
    strokeEcc := [], opndEcc := [] }

/-- Steps 1 to 7 of R122. -/
def Half.steps1to7 (h : Half) : Option PFail :=
  (h.step1to4).orElse fun _ => h.step5.orElse fun _ => h.step6.orElse fun _ => h.step7

/-- Steps 1 to 9 of R122. -/
def State.steps1to9 (s : State) (h : Half) : Option PFail :=
  h.steps1to7.orElse fun _ => (s.step8 h).orElse fun _ => h.step9

/-- The key operation of step 8 counts, where a check comes to it (R540, R544). -/
def State.signCount (s : State) (h : Half) : State :=
  if h.steps1to7.isSome || !s.signs h then s
  else if (s.step8 h).isNone then s.foldGrant else s.foldRefuse

end Sys2Proof.Machine
end

