-- ==== Sys2Proof/Machine/Structure.lean ====
section
/-! DEFINITION. Pilot's passes 1 to 3 (R123): the structure of every entry and section of the staging half, the fetch rate,
and ownership. -/

namespace Sys2Proof.Machine

/-- A stroke of a table with its place: the segment that holds it, its entry index, its descriptor and that one's index. -/
structure PS where
  sl : Nat
  idx : Nat
  st : Stroke
  dx : Nat
  d : Desc
  /-- The stroke stands in the active table (R114). -/
  old : Bool
  deriving DecidableEq, Repr

/-- Every stroke within a segment's range, segment by segment. -/
def Half.strokeList (h : Half) (old : Bool := false) : List PS :=
  (List.range 16).flatMap fun j =>
    let (base, cnt, ob) := h.seg j
    (List.range cnt).map fun k =>
      let st := h.stroke (base + k)
      { sl := j, idx := base + k, st := st, dx := ob + st.opnd, d := h.desc (ob + st.opnd), old := old }

/-- PILOT_REPORT/1 of a stroke. -/
def PS.item (p : PS) : Nat := itemWord p.old p.sl 2 p.idx

/-- The element of a list whose number is lowest, the first of equals. -/
def leastBy (f : α → Nat) : List α → Option α
  | [] => none
  | a :: l => match leastBy f l with
    | none => some a
    | some b => if f b < f a then some b else some a

/-- The failure of the lowest number among those a check finds in a list. -/
def leastFail (num : α → Nat) (chk : α → Option PFail) (l : List α) : Option PFail :=
  (leastBy num (l.filter fun a => (chk a).isSome)).bind chk

/-- A failure in pass 1. -/
def p1 (code item found limit : Nat) : Option PFail := some { code := code, pass := 1, item := item, found := found, limit := limit }

/-! ### Header and segments (R40, R42, R109) -/

/-- S is a power of two from 1 to 1,024. -/
def springOk (n : Nat) : Bool := (List.range 11).any fun k => n == 2 ^ k

/-- Two stroke ranges overlap. -/
def rangesMeet (a n b m : Nat) : Bool := n != 0 && m != 0 && decide (a < b + m) && decide (b < a + n)

def Half.headerFail (h : Half) : Option PFail :=
  if h.period < 25000 ∨ 134217728 < h.period then p1 0x010 0 (fld h.period 26 9) 0
  else if springOk h.spring then none else p1 0x011 0 h.spring 1024

def Half.segBad (h : Half) (j : Nat) : Bool :=
  let (base, cnt, ob) := h.seg j
  decide (524288 < cnt) || decide (524288 < base + cnt)
  || (List.range j).any (fun i => rangesMeet base cnt (h.seg i).1 (h.seg i).2.1)
  || (List.range cnt).any fun k => decide (524287 < ob + (h.stroke (base + k)).opnd)

def Half.segFail (h : Half) : Option PFail :=
  ((List.range 16).find? h.segBad).bind fun j => p1 0x012 (itemWord false 0 1 j) j 15

/-! ### Strokes (R85 to R89, R93, R95, R96) -/

/-- Lines an opcode accepts (R93). -/
def lenOkFor (op n : Nat) : Bool :=
  match op with
  | 0x00 | 0x08 | 0x09 => n == 1
  | 0x0A | 0x0B | 0x0C | 0x0D => n == 8
  | _ => true

/-- The generation bits that a row of R93 requires. -/
def genRow (st : Stroke) : Bool :=
  match st.op with
  | 0x00 => st.rgen == 0 && st.wgen == 0
  | 0x02 => st.rgen == 1 && st.wgen == 0
  | 0x04 => st.rgen == 0
  | 0x05 => st.wgen == 0
  | _ => true

/-- A stroke's failure, in the order of the codes of R130. -/
def Half.strokeFail (h : Half) (p : PS) : Option PFail :=
  let st := p.st
  let first := (h.seg p.sl).1
  let prev := h.stroke (p.idx - 1)
  if st.resv ≠ 0 then p1 0x013 p.item 0 0
  else if 0x13 ≤ st.op then p1 0x014 p.item st.op 0x12
  else if st.sluice ≠ p.sl then p1 0x015 p.item st.sluice p.sl
  else if st.tsel = 0 ∨ h.spring < tselM st.tsel then p1 0x016 p.item st.tsel (2 * h.spring - 1)
  else if h.period ≤ st.start then p1 0x017 p.item (fld st.start 26 9) (fld h.period 26 9)
  else if first < p.idx ∧ (st.start < prev.start ∨ (st.start = prev.start ∧ st.tsel ≤ prev.tsel)) then
    p1 0x018 p.item (fld (p.idx - 1) 17 0) 0
  else if !genRow st then p1 0x01A p.item (2 * st.rgen + st.wgen) 0
  else if !lenOkFor st.op st.n then p1 0x01F p.item 2 0
  else if st.op = 0 ∧ st.opnd ≠ 0 then p1 0x01F p.item 0 0
  else none

/-- A stroke entry outside every segment's range is all zero. -/
def Half.strayFail (h : Half) : Option PFail :=
  let inSeg i := (List.range 16).any fun j => decide ((h.seg j).1 ≤ i) && decide (i < (h.seg j).1 + (h.seg j).2.1)
  (h.strokes.find? fun (k, _) => !inSeg (k / 4)).bind fun (k, _) => p1 0x013 (itemWord false 0 2 (k / 4)) (k % 4) 0

/-! ### Descriptors (R90 to R94, R52) -/

/-- Reserved bits of B by opcode, as the bits that may be set (R93). -/
def bMask (op : Nat) : Nat :=
  match op with
  | 0x01 => 2 ^ 18 - 1
  | 0x03 => 2 ^ 22 - 1
  | 0x04 | 0x05 => 2 ^ 27 - 1
  | 0x06 | 0x07 => 2 ^ 7 - 1
  | 0x08 | 0x09 => 2 ^ 5 - 1
  | 0x0A => 2 ^ 41 - 1
  | 0x0B => 2 ^ 41 - 1 - (2 ^ 16 - 2 ^ 12)
  | 0x0C | 0x0D | 0x0E | 0x0F => 2 ^ 12 - 1
  | 0x10 => 2 ^ 19 - 1
  | 0x11 => 2 ^ 33 - 1
  | 0x12 => 2 ^ 10 - 1
  | _ => 0

/-- The lowest nonzero reserved B bit. -/
def bStray (op b : Nat) : Option Nat := (List.range 46).find? fun i => b.testBit i && !(bMask op).testBit i

/-- A CELL_TX's links: one link, or one of ring A with one of ring B (R94). -/
def linksOk (m : Nat) : Bool := [1, 2, 4, 8, 5, 9, 6, 10].contains m

/-- The rules of a row of R93 for masks and B: the descriptor word at fault. A field of B that lies across words 0 and 1 is
reported by word 0, which holds its lower bits (log 114). -/
def rowFault (p : PS) : Option Nat :=
  let d := p.d
  let n := p.st.n
  let full : Bool := d.fm == 15 && d.lm == 15
  match p.st.op with
  | 0x01 => if 65536 < fld d.b 15 0 + n then some 0 else none
  | 0x03 => if fld d.b 21 18 = p.sl then some 1 else if 65536 < fld d.b 15 0 + n then some 0 else none
  | 0x04 | 0x05 => if full then none else some 2
  | 0x08 | 0x09 => if [3, 6, 12].contains d.fm then none else some 2
  | 0x0A => if !full then some 2 else if 4 < fld d.b 18 16 then some 0 else if !linksOk (fld d.b 15 12) then some 0 else none
  | 0x0B => if !full then some 2 else if 4 < fld d.b 18 16 then some 0 else none
  | 0x0C | 0x0D => if full then none else some 2
  | 0x10 => if fld d.b 8 7 = 3 ∨ 258 < fld d.b 18 10 + n then some 0 else none
  | 0x11 => if fld d.b 32 6 < n + 32 ∨ 47 < fld d.b 5 0 then some 0
            else if 2 * d.words n < 14 ∨ 128 < 2 * d.words n then some 2 else none
  | _ => none

/-- The list of R94: register words of DRV_WR and DRV_RD within 0 to 63. -/
def listFault (p : PS) : Option Nat :=
  if p.st.op = 0x06 ∨ p.st.op = 0x07 then
    let ms := (List.range p.st.n).map (p.d.mask p.st.n)
    if (ms.zipIdx.flatMap fun (m, i) => (maskBits m).map fun k => fld p.d.b 5 0 + 4 * i + k).any fun w => decide (63 < w) then some 0 else none
  else none

/-- A range of n lines lies in copy 0 of one turn region. -/
def Half.inOneRegion (h : Half) (a n : Nat) : Bool :=
  match h.regionAt 0 a with
  | some (_, r) => decide (a + n ≤ r.base0 + r.lines)
  | none => false

/-- The word of a descriptor at fault, in the order of R124. -/
def Half.formFault (h : Half) (p : PS) : Option Nat :=
  let d := p.d
  let n := p.st.n
  if d.fm = 0 ∨ d.lm = 0 then some 2
  else if n = 1 ∧ d.lm ≠ d.fm then some 2
  else if 65536 < d.aline + n then some 3
  else match bStray p.st.op d.b with
    | some i => some (if i < 18 then 0 else if i < 36 then 1 else 2)
    | none =>
      if p.st.op = 0x02 ∧ h.inOneRegion (d.aFirst p.sl) n = false then some 3
      else (rowFault p).orElse fun _ => listFault p

/-- The first upland line of a FETCH or STORE lies with the last in one channel (R52, R57). -/
def uplandFault (p : PS) : Bool :=
  (p.st.op == 0x04 || p.st.op == 0x05)
  && (decide (2 ^ 27 < fld p.d.b 26 0 + p.st.n) || fld p.d.b 26 0 / 2 ^ 25 != (fld p.d.b 26 0 + p.st.n - 1) / 2 ^ 25)

/-- The pasture ranges of a stroke: source and destination, as first lines. -/
def PS.src (p : PS) : Option Nat :=
  match strokeSrc p.sl p.st p.d with
  | some (false, a) => some a
  | _ => none
def PS.dst (p : PS) : Option Nat :=
  match strokeDest p.sl p.st p.d with
  | some (false, a) => if p.st.op = 0 then none else some a
  | _ => none

/-- A range of n lines meets copy 0 of a region. -/
def Half.inRegion (h : Half) (a n : Nat) : Bool :=
  h.regionList.any fun r => decide (a < r.2.base0 + r.2.lines) && decide (r.2.base0 < a + n)

/-- A generation bit whose operand does not lie in a turn region (R92). An operand that covers a whole region and runs on
into plain lines may have the bit 1: the rule leaves it open (DESIGN CHOICE, log 138). -/
def Half.genFault (h : Half) (p : PS) : Bool :=
  let bad (g : Nat) (a : Option Nat) : Bool := g == 1 && (match a with | some x => !h.inRegion x p.st.n | none => true)
  bad p.st.rgen p.src || bad p.st.wgen p.dst

/-- A descriptor's failure as the stroke that names it uses it. -/
def Half.descFail (h : Half) (p : PS) : Option PFail :=
  if p.st.op = 0 then none
  else match h.formFault p with
    | some w => p1 0x019 (itemWord false 0 3 p.dx) w 0
    | none =>
      if uplandFault p then p1 0x01B (itemWord false 0 3 p.dx) (fld (4 * fld p.d.b 26 0) 17 0) 0
      else if h.genFault p then p1 0x01A p.item (2 * p.st.rgen + p.st.wgen) 0
      else none

/-! ### Turn regions (R100, R110) -/

/-- Two line ranges meet. -/
def linesMeet (a n b m : Nat) : Bool := decide (a < b + m) && decide (b < a + n)

/-- A range runs over the edge of copy 0, with lines inside and outside it, and not over all of it; or it meets copy 1
(R100). A range inside the region names a part of it and no other line, as the strokes of the worked cell do (log 23). -/
def Region.cuts (r : Region) (a n : Nat) : Bool :=
  let covers := decide (a ≤ r.base0) && decide (r.base0 + r.lines ≤ a + n)
  let inside := decide (r.base0 ≤ a) && decide (a + n ≤ r.base0 + r.lines)
  linesMeet a n r.base1 r.lines || (linesMeet a n r.base0 r.lines && !covers && !inside)

/-- A copy runs past its bank. -/
def Region.spills (r : Region) : Bool :=
  decide (65536 < r.base0 % 65536 + r.lines) || decide (65536 < r.base1 % 65536 + r.lines)

/-- A turn-region entry's failure. -/
def Half.regionFail (h : Half) (ps : List PS) (r : Nat) (x : Region) : Option PFail :=
  let others := h.regionList.filter fun q => decide (q.1 < r)
  let bad : Bool := decide (1 < x.kind) || x.spills || linesMeet x.base0 x.lines x.base1 x.lines
    || (others.any fun q => linesMeet x.base0 x.lines q.2.base0 q.2.lines || linesMeet x.base0 x.lines q.2.base1 q.2.lines
        || linesMeet x.base1 x.lines q.2.base0 q.2.lines || linesMeet x.base1 x.lines q.2.base1 q.2.lines)
    || ps.any fun p => ([p.src, p.dst].filterMap id).any fun a => x.cuts a p.st.n
  if (Tab.get 0 h.regions (4 * r + 3)).toNat ≠ 0 then p1 0x013 (itemWord false 0 4 r) 3 0
  else if bad then some { code := 0x01C, pass := 1, item := itemWord false 0 4 r, cls := 22, inst := r, found := r, limit := 1023 }
  else none

/-- An entry with words 0 to 2 zero and word 3 not. -/
def Half.strayRegion (h : Half) : Option PFail :=
  (h.regions.find? fun (k, _) => k % 4 == 3 && (h.region (k / 4)).isNone).bind fun (k, _) =>
    p1 0x013 (itemWord false 0 4 (k / 4)) 3 0

def Half.regionsFail (h : Half) (ps : List PS) : Option PFail :=
  firstOf [leastFail (fun q => q.1) (fun q => h.regionFail ps q.1 q.2) h.regionList, h.strayRegion]

/-! ### Sections 5 to 9 -/

/-- The words of a section as unpacked. -/
def Half.sec (h : Half) (ty : Nat) : Option (List Word) := (h.sects.find? (·.1 == ty)).map Prod.snd
def Half.secD (h : Half) (ty : Nat) : List Word := (h.sec ty).getD []

/-- A fault of a section as a whole (R644). -/
def wholeFault (ty n : Nat) : Option PFail := p1 0x01D (itemWord false 0 ty 0x7FFFF) (fld n 17 0) 0x3FFFF

/-- A fault of a section's item. -/
def contentFault (ty i : Nat) : Option PFail := p1 0x01D (itemWord false 0 ty i) i 0

/-- The drove record d: its header, its PRESENT 0 form, and stray store words (R226, R241). -/
def droveBad (r : List Word) : Bool :=
  let w0 := (r.getD 0 0).toNat
  let xs := (List.range 8).map (secDrover r)
  if bit w0 17 then
    bit w0 16 || decide (fld w0 15 0 < 512)
    || (List.range 512).any fun a => (r.getD (1 + a) 0) != 0
        && !xs.any fun x => x.enabled && decide (x.origin ≤ a) && decide (a ≤ x.origin + x.last)
  else r.any (· != 0)

/-- A drover's program and settings (R226). -/
def secDroverBad (r : List Word) (k : Nat) : Bool :=
  let x := secDrover r k
  !progOk (fun a => (r.getD (1 + a) 0).toNat) x || bit x.prog 14 || bit x.shift 0 || fld x.outwin 2 0 != 0

def sec5Fail (l : List Word) : Option PFail :=
  if l.length ≠ 19488 then wholeFault 5 l.length
  else
    (firstUpTo 32 fun d => if droveBad (secDrove l d) then contentFault 5 d else none).orElse fun _ =>
      firstUpTo 256 fun k => if bit ((secDrove l (k / 8)).getD 0 0).toNat 17 && secDroverBad (secDrove l (k / 8)) (k % 8)
        then contentFault 5 (32 + k) else none

/-- UNIT and ROLE in range for the kind (R248). -/
def unitOk (v : Nat) : Bool :=
  (match pinOwner v with
    | 3 => true
    | 4 => decide (pinUnit v < 128)
    | 5 => decide (pinUnit v < 64)
    | 6 => decide (pinUnit v < 32)
    | _ => pinUnit v == 0)
  && (pinOwner v == 4 || fld v 24 24 == 0)

/-- A pin's record (R250). -/
def pinBad (l : List Word) (p : Nat) : Bool :=
  let v := secPin l p
  pinOwner v == 7 || !unitOk v || fld v 22 21 == 3 || fld v 5 0 != 0
  || (bit v 23 && pinSafe v != 0)
  || ((pinOwner v == 1 || (pinOwner v == 4 && fld v 24 24 == 0)) && pinSafe v != 0)
  || (pinOwner v == 4 && fld v 24 24 == 1 && pinSafe v != 2)
  || (pinOwner v == 5 && (List.range p).any fun q => pinOwner (secPin l q) == 5 && pinUnit (secPin l q) == pinUnit v)

/-- A bank's record (R249). -/
def bankBad (v : Nat) : Bool := fld v 17 16 == 3 || fld v 10 0 != 0 || (!bit v 15 && fld v 14 11 != 0)

def sec6Fail (l : List Word) : Option PFail :=
  if l.length ≠ 2080 then wholeFault 6 l.length
  else
    (firstUpTo 32 fun b => if bankBad (secBank l b) then contentFault 6 b else none).orElse fun _ =>
      firstUpTo 1024 fun p => if pinBad l p then contentFault 6 (32 + p) else none

/-- The links a CELL_TX or PAIR_TX names. -/
def PS.links (p : PS) : List Nat := p.st.links p.d

def PS.beat (p : PS) : Nat := fld p.d.b 40 19
def PS.slot (p : PS) : Nat := fld p.d.b 18 16
def PS.stream (p : PS) : Nat := fld p.d.b 11 0
def PS.sends (p : PS) : Bool := p.st.op == 0x0A || p.st.op == 0x0B
def PS.receives (p : PS) : Bool := p.st.op == 0x0C || p.st.op == 0x0D

/-- The SEND record of a stroke on a link. -/
def SlotRec.isSend (r : SlotRec) (p : PS) (l : Nat) : Bool :=
  r.action == 1 && r.link == l && r.beat == p.beat && r.slot == p.slot && r.stream == p.stream && r.tsel == p.st.tsel

/-- A slot record at fault (R340). -/
def slotRecBad (l : List Word) (ps : List PS) (i : Nat) (r : SlotRec) : Bool :=
  let w k := (l.getD (8 + 4 * i + k) 0).toNat
  fld (w 1) 4 0 != 0 || fld (w 3) 2 0 != 0 || decide (4 < r.link) || decide (4 < r.slot)
  || r.action == 0 || decide (5 < r.action) || (r.link == 4 && (r.action == 2 || r.action == 3))
  || (r.action == 1 && !ps.any fun p => p.sends && p.links.any fun k => r.isSend p k)
  || ((r.action == 3 || r.action == 4) && !(planRx l).any fun x => x.1 == r.stream && x.2.1 == r.src)

/-- A receive record at fault (R340). -/
def rxRecBad (l : List Word) (j : Nat) : Bool :=
  let rx := planRx l
  let w k := (l.getD (8 + 4 * sec36 l 0 + 3 * j + k) 0).toNat
  let x := rx.getD j (0, 0, 0)
  fld (w 0) 5 0 != 0 || fld (w 1) 7 0 != 0 || fld (w 2) 5 0 != 0
  || (rx.take j).any fun y => y.2.2 == x.2.2 || (y.1 == x.1 && y.2.1 == x.2.1)

/-- A sending or receiving stroke without the record it needs (R340). -/
def lacksRecord (l : List Word) (p : PS) : Bool :=
  (p.sends && p.links.any fun k => !(planSlots l).any fun r => r.isSend p k)
  || (p.receives && !(planRx l).any fun x => x.2.2 == p.stream)

def sec7Fail (o : Option (List Word)) (ps : List PS) : Option PFail :=
  let l := o.getD []
  let sc := sec36 l 0
  let rc := sec36 l 2
  if o.isSome = true ∧ (l.length ≠ 8 + 4 * sc + 3 * rc ∨ 1048576 < sc ∨ ((l.drop 4).take 4).any (· != 0) = true) then wholeFault 7 l.length
  else
    (firstUpTo sc fun i => if slotRecBad l ps i ((planSlots l).getD i ⟨0, 0, 0, 0, 0, 0, 0⟩) then contentFault 7 i else none).orElse fun _ =>
    (firstUpTo rc fun j => if rxRecBad l j then contentFault 7 (sc + j) else none).orElse fun _ =>
      leastFail PS.idx (fun p => if lacksRecord l p then p1 0x01D p.item (sc + rc) 0 else none) ps

/-- B of R304 and T_TX of a FRAME_TX. -/
def PS.frameB (p : PS) : Nat := p.st.frameB p.d
def PS.ttx (p : PS) : Nat := p.st.ttx p.d
def PS.port (p : PS) : Nat := fld p.d.b 5 0

/-- Records of FRAME_PLAN: PORT, TSEL, T_TX and B. -/
def planRecs (l : List Word) : List (Nat × Nat × Nat × Nat) :=
  (List.range (fld (l.getD 0 0).toNat 15 0)).map fun i =>
    let w k := (l.getD (1 + 6 * i + k) 0).toNat
    (fld (w 0) 5 0, fld (w 1) 10 0, w 2 * 2 ^ 18 + w 3, fld (w 4) 7 0)

def frameRecBad (l : List Word) (ps : List PS) (i : Nat) : Bool :=
  let w k := (l.getD (1 + 6 * i + k) 0).toNat
  let r := (planRecs l).getD i (0, 0, 0, 0)
  fld (w 0) 17 6 != 0 || fld (w 1) 17 11 != 0 || fld (w 4) 17 8 != 0 || w 5 != 0 || decide (47 < r.1)
  || decide (r.2.2.2 < 64) || decide (132 < r.2.2.2)
  || !ps.any fun p => p.st.op == 0x11 && r == (p.port, p.st.tsel, p.ttx, p.frameB)

def sec8Fail (o : Option (List Word)) (ps : List PS) : Option PFail :=
  let l := o.getD []
  let n := fld (l.getD 0 0).toNat 15 0
  if o.isSome = true ∧ (l.length ≠ 1 + 6 * n ∨ fld (l.getD 0 0).toNat 17 16 ≠ 0) then wholeFault 8 l.length
  else
    (firstUpTo n fun i => if frameRecBad l ps i then contentFault 8 i else none).orElse fun _ =>
      leastFail PS.idx (fun p =>
        if p.st.op = 0x11 ∧ (planRecs l).contains (p.port, p.st.tsel, p.ttx, p.frameB) = false then p1 0x01D p.item n 0 else none) ps

/-! ### DICT_SETTINGS (R452) -/

/-- A record of DICT_SETTINGS. -/
structure SetRec where
  entry : Nat
  sub : Nat
  resv : Nat
  value : List Word
  deriving DecidableEq, Repr

/-- The records of a section's words from word 2, and the words left over; none when a record runs past the end. -/
def setRecs : Nat → List Word → Option (List SetRec × List Word)
  | 0, l => some ([], l)
  | n + 1, e :: sb :: hi :: lo :: l =>
    let k := hi.toNat * 2 ^ 18 + lo.toNat
    if l.length < k then none
    else (setRecs n (l.drop k)).map fun (rs, rest) =>
      ({ entry := e.toNat, sub := fld sb.toNat 17 6, resv := fld sb.toNat 5 0, value := l.take k } :: rs, rest)
  | _ + 1, _ => none

/-- The records of a section whose counts agree with its length. -/
def settingsOf (l : List Word) : Option (List SetRec) :=
  if l = [] then some []
  else match setRecs (min (sec36 l 0) l.length) (l.drop 2) with
    | some (rs, []) => if rs.length = sec36 l 0 ∧ 2 ≤ l.length then some rs else none
    | _ => none

/-- Value words as one number, the first highest, TIME in its own layout. -/
def valueOf (ty : Ty) (l : List Word) : Nat :=
  match ty with
  | .time => timeOf (l.map (·.toNat))
  | .u36 | .s36 => u36 (l.map (·.toNat))
  | _ => (l.getD 0 0).toNat

/-- Value words that keep the encoding of their type (R284, R393, R448). -/
def wordsFit (ty : Ty) (l : List Word) : Bool :=
  match ty with
  | .time => l.all fun w => decide (w.toNat < 65536)
  | _ => true

/-- The state as the staging half would have it: every accepted write and the half's settings in force, its table active. -/
def State.judged (s : State) (h : Half) (rs : List SetRec) : State :=
  let s := s.dict.pending.foldl (fun (s : State) p => s.setCfg (p.1 / 4096) (p.1 % 4096) p.2) s
  let s := s.pair.writes.foldl (fun (s : State) p =>
    s.setCfg (p.2.1 / 4096) (p.2.1 % 4096) (wordsValue (p.2.1 / 4096) p.2.2)) s
  let s := { s with table.valid := true, table.half0 := h, table.active := false, tide.period := h.period, dict.pending := [], pair.writes := [] }
  rs.foldl (fun (s : State) r =>
    match findRow r.entry with
    | some (row, _) =>
      if row.ty = .blob then
        let s := { s with dict.blobs := Tab.set [] s.dict.blobs (key r.entry r.sub) r.value }
        if r.entry = 0x03002 then { s with image.map := mapRuns r.value } else s
      else s.setCfg r.entry r.sub (valueOf row.ty r.value)
    | none => s) s

/-- The value in force of a record's sub-entry equals the record's. -/
def State.sameAsForce (s : State) (row : Row) (r : SetRec) : Bool :=
  if row.ty = .blob then Tab.get [] s.dict.blobs (key r.entry r.sub) == r.value
  else s.cfg r.entry r.sub == valueOf row.ty r.value

/-- The pens of the enabled bus filters (R284) and stream filters (R308), by the entry and sub-entry that enables each. -/
def State.filterPens (j : State) : List (Nat × Nat × Nat) :=
  ((List.range 128).flatMap fun c => (List.range 64).filterMap fun i =>
    if bit (j.cfg (busEntry c 5) i) 35 then some (busEntry c 5, i, fld (j.cfg (busEntry c 7) i) 11 0) else none)
  ++ (List.range 256).filterMap fun i =>
    if bit (j.cfg 0x07040 i) 35 then some (0x07040, i, fld (j.cfg 0x07040 i) 11 0) else none

/-- A record that leaves an enabled filter with a pen not enabled in packet mode with ITEM 0: the filter's own, that of its
pen number, or the pen's (R284, R308). -/
def State.filterBad (j : State) (r : SetRec) : Bool :=
  j.filterPens.any fun (e, i, p) => !j.penPacket0 p
    && ((r.entry == e && r.sub == i) || (r.entry == e + 2 && e != 0x07040 && r.sub == i) || (r.entry == 0x03100 && r.sub == p))

/-- An enabled filter with such a pen that no record names: the section is at fault as a whole, with the pen as DETAIL
(log 139). -/
def State.filtersFail (j : State) : Option PFail :=
  (j.filterPens.find? fun (_, _, p) => !j.penPacket0 p).bind fun (_, _, p) => p1 0x01D (itemWord false 0 9 0x7FFFF) p 0

/-- A record at fault; `j` is the judged state. -/
def State.setRecBad (s j : State) (rs : List SetRec) (i : Nat) (r : SetRec) : Bool :=
  match findRow r.entry with
  | none => true
  | some (row, _) =>
    r.resv != 0 || decide (row.subs ≤ r.sub) || !(row.acc == .rwt || row.acc == .rws)
    || (row.ty != .blob && row.ty != .text && r.value.length != row.ty.words)
    || (rs.take i).any (fun q => q.entry == r.entry && q.sub == r.sub)
    || (if row.ty == .blob then r.entry != 0x03002 && !j.blobOk r.entry r.value
        else !wordsFit row.ty r.value
          || !(if r.entry = 0x03100 then row.chk.all fun c => c.ok r.sub (valueOf row.ty r.value)
               else j.valueOk row r.entry r.sub (valueOf row.ty r.value)))
    || j.filterBad r
    || (s.power.state == .full && row.acc == .rws && !s.sameAsForce row r)

/-- A record's failure: a POINT_MAP names its run (R161). -/
def State.setRecFail (s j : State) (h : Half) (rs : List SetRec) (i : Nat) (r : SetRec) : Option PFail :=
  if s.setRecBad j rs i r then contentFault 9 i
  else if r.entry = 0x03002 then (mapBad h r.value).bind (contentFault 9)
  else none

/-- Pens that overlap or leave the pool, and strokes that name a pen left disabled (R192): the pens that are not OFF, and
those whose accepted write or record enables them. -/
def State.pensFail (s j : State) (rs : List SetRec) (ps : List PS) : Option PFail :=
  let set := (rs.filter fun r => r.entry == 0x03100).map SetRec.sub
  let claims := ((set.filter fun p => bit (j.cfg 0x03100 p) 35) ++ s.claimants).dedup
  let bad p := let v := j.cfg 0x03100 p
    !penInPool v || claims.contains p && claims.any fun q => q != p && !pensApart (j.cfg 0x03100 q) v
  (leastBy id ((set ++ claims).dedup.filter bad)).elim
    (leastFail PS.idx (fun p =>
      if (p.st.op = 0x0E ∨ p.st.op = 0x0F) ∧ bit (j.cfg 0x03100 (fld p.d.b 11 0)) 35 = false then p1 0x01D p.item (fld p.d.b 11 0) 0
      else none) ps)
    (contentFault 9)

/-- Mirror ranges that a stroke of the table writes (R436). -/
def State.rangesFail (j : State) : Option PFail :=
  firstUpTo 64 fun r => if j.rangeOk (j.cfg 0x0A004 r) (j.cfg 0x0A005 r) then none else contentFault 9 r

def State.sec9Fail (s : State) (h : Half) (ps : List PS) : Option PFail :=
  let l := h.secD 9
  match if h.sec 9 = some [] then none else settingsOf l with
  | none => wholeFault 9 l.length
  | some rs =>
    let j := s.judged h rs
    (firstUpTo rs.length fun i => (rs[i]?).bind fun r => s.setRecFail j h rs i r).orElse fun _ =>
    (s.pensFail j rs ps).orElse fun _ => j.filtersFail.orElse fun _ => j.rangesFail

/-- The state judged with the half's own settings. -/
def State.judgedBy (s : State) (h : Half) : State := s.judged h ((settingsOf (h.secD 9)).getD [])

/-! ### Pass 1 -/

def State.pass1 (s : State) (h : Half) : Option PFail :=
  h.headerFail.orElse fun _ => h.segFail.orElse fun _ =>
  let ps := h.strokeList
  (leastFail PS.idx h.strokeFail ps).orElse fun _ => h.strayFail.orElse fun _ =>
  (leastFail (fun p => p.dx * 2 ^ 20 + p.idx) h.descFail ps).orElse fun _ => (h.regionsFail ps).orElse fun _ =>
  ((h.sec 5).bind sec5Fail).orElse fun _ => ((h.sec 6).bind sec6Fail).orElse fun _ =>
  (sec7Fail (h.sec 7) ps).orElse fun _ => (sec8Fail (h.sec 8) ps).orElse fun _ => (s.sec9Fail h ps).orElse fun _ =>
  if 4096 < sec36 (h.secD 7) 2 then
    some { code := 0x01E, pass := 1, item := itemWord false 0 7 0, cls := 17, found := sec36 (h.secD 7) 2, limit := 4096 }
  else none

/-! ### Pass 2: fetch rate (R97) -/

/-- Entries of a list of starts, with the turn's repetition, that lie in the run of L cycles from a. -/
def inRun (xs : List Nat) (P a L : Nat) : Nat :=
  xs.countP (fun x => decide (a ≤ x) && decide (x < a + L)) + xs.countP fun x => decide (x + P < a + L)

/-- The runs worth looking at start and end at a start: offset and length. -/
def runsOf (xs : List Nat) (P : Nat) : List (Nat × Nat) :=
  xs.flatMap fun a => xs.map fun b => (a, (b + P - a) % P + 1)

/-- The shortest run of a sluice that holds more than 8L + 256 entries, the earliest of equals. -/
def worstRun (xs : List Nat) (P : Nat) : Option (Nat × Nat) :=
  leastBy (fun (a, L) => L * 2 ^ 28 + a) ((runsOf xs P).filter fun (a, L) => decide (8 * L + 256 < inRun xs P a L))

def Half.pass2 (h : Half) : Option PFail :=
  let ps := h.strokeList
  firstUpTo 16 fun sl =>
    let xs := (ps.filter (·.sl == sl)).map fun p => p.st.start
    (worstRun xs h.period).map fun (a, L) =>
      { code := 0x020, pass := 2, item := itemWord false sl 1 sl, off := a, cls := 1, inst := sl,
        found := inRun xs h.period a L, limit := 8 * L + 256 }

/-! ### Pass 3: ownership (R213, R250, R271, R479, R282, R55) -/

/-- Enabled drovers of a section with their windows' pins. -/
def secWindows (l : List Word) : List (Nat × List Nat) :=
  (List.range 256).filterMap fun k =>
    let x := secDrover (secDrove l (k / 8)) (k % 8)
    if x.enabled then some (k, x.windowPins) else none

/-- Quay signals that the binding must give a pin (R479). -/
def State.quayNeeds (j : State) : List Nat :=
  if bit (j.cfg 0x0B010) 35 then List.range 24 ++ ((List.range 8).filter fun k => bit (j.cfg 0x0B011 k) 35).map (24 + ·) else []

/-- The pins of a Quay signal. -/
def quayPins (l : List Word) (sig : Nat) : List Nat :=
  (List.range 1024).filter fun p => pinOwner (secPin l p) == 6 && pinUnit (secPin l p) == sig

/-- A pin whose record breaks ownership. -/
def State.pinOwnerBad (j : State) (l : List Word) (wins : List (Nat × List Nat)) (p : Nat) : Bool :=
  let v := secPin l p
  let own := pinOwner v
  (wins.any fun w => w.2.contains p && !(own == 3 && pinUnit v == w.1))
  || (own == 3 && !(wins.any fun w => w.1 == pinUnit v && w.2.contains p))
  || (own == 4 && bit (j.cfg (busEntry (pinUnit v) 0)) 35
      && ((List.range p).any (fun q => secPin l q / 2 ^ 24 == v / 2 ^ 24)
          || (if fld v 24 24 = 1 then fld v 22 21 != 0 || pinInvert v else fld v 15 12 != 0 || pinInvert v)))
  || (own == 6 && (List.range p).any fun q =>
      pinOwner (secPin l q) == 6 && (pinUnit (secPin l q) == pinUnit v || fld (secBank l (q / 32)) 17 16 != fld (secBank l (p / 32)) 17 16))

/-- An enabled function without a pin of its own. -/
def State.pinMissing (j : State) (l : List Word) : Bool :=
  ((List.range 128).any fun c => bit (j.cfg (busEntry c 0)) 35 && ((busPins l c 0).isEmpty || (busPins l c 1).isEmpty))
  || j.quayNeeds.any fun sig => (quayPins l sig).isEmpty

def p3 (code found cls inst item other : Nat) : Option PFail :=
  some { code := code, pass := 3, item := item, other := other, cls := cls, inst := inst, found := found }

def State.pinsFail (j : State) (h : Half) : Option PFail :=
  let l := h.secD 6
  let wins := secWindows (h.secD 5)
  match (List.range 1024).find? (j.pinOwnerBad l wins) with
  | some p => p3 0x028 p 21 p (itemWord false 0 6 (32 + p)) 0
  | none => if j.pinMissing l then p3 0x028 0 21 0 (itemWord false 0 6 0x7FFFF) 0 else none

/-- The later of two strokes of R132, then the other. -/
def PS.after (a b : PS) : Bool :=
  !a.old && (b.old || decide (b.st.start < a.st.start) || (b.st.start == a.st.start && (decide (b.sl < a.sl) || (b.sl == a.sl && decide (b.idx < a.idx)))))

/-- What a stroke sends, loads, fills or drains: a kind and a number. -/
def PS.owns (p : PS) : Option (Nat × Nat) :=
  match p.st.op with
  | 0x0A => some (0, p.stream)
  | 0x0B => some (1, p.stream)
  | 0x10 => some (2, 3 * fld p.d.b 6 0 + fld p.d.b 8 7)
  | 0x0F => some (3, fld p.d.b 11 0)
  | 0x0E => some (4, fld p.d.b 11 0)
  | _ => none

/-- Two strokes of different sluices own one thing, or a BUS_LOAD loads a pen-fed buffer (R282). -/
def State.ownerFail (j : State) (ps : List PS) (p : PS) : Option PFail :=
  match p.owns with
  | none => none
  | some (k, n) =>
    let cls := if k = 2 then 20 else 0
    let inst := if k = 2 then n else 0
    if k = 2 ∧ bit (j.cfg (busEntry (n / 3) 0)) (26 + n % 3) = true then p3 0x02B n cls inst p.item 0
    else match ps.find? fun q => q.owns == some (k, n) && q.sl != p.sl with
      | some q => let (a, b) := if p.after q then (p, q) else (q, p)
                  p3 0x02B n cls inst a.item b.item
      | none => none

/-- The order of the owned things: kind, then number. -/
def PS.ownKey (p : PS) : Nat := match p.owns with | some (k, n) => k * 2 ^ 16 + n | none => 0

def Half.dividerFail (h : Half) : Option PFail :=
  firstUpTo 32 fun d =>
    let w := ((secDrove (h.secD 5) d).getD 0 0).toNat
    if bit w 17 && 256 * h.period % fld w 15 0 != 0 then p3 0x02A (fld w 15 0) 0 0 (itemWord false 0 5 d) 0 else none

def State.pass3 (s : State) (h : Half) : Option PFail :=
  let j := s.judgedBy h
  let ps := h.strokeList
  (j.pinsFail h).orElse fun _ => (leastFail PS.ownKey (j.ownerFail ps) ps).orElse fun _ => h.dividerFail

end Sys2Proof.Machine
end

