-- ==== Sys2Proof/Machine/Occupancy.lean ====
section
/-! DEFINITION. Pilot's passes 4 to 6 (R123): the footprints of R51 and R52 against the capacities of R46, the slack of R69 to
R73, and the generations of R102, R104, R106 and R114; and the dark intervals of R76. -/

namespace Sys2Proof.Machine

/-! ### Footprints (R47, R51, R52) -/

/-- One footprint run: a resource (class, instance, direction 0 in, 1 out, 2 both), its first cycle and its length; in a
tide that holds a part of it, the cycles that lie before the tide and after it. -/
structure Use where
  cls : Nat
  inst : Nat
  dir : Nat
  at_ : Nat
  len : Nat
  ps : PS
  before : Nat
  past : Nat
  deriving DecidableEq, Repr

/-- A whole run. -/
def Use.whole (cls inst dir at_ len : Nat) (ps : PS) : Use := ⟨cls, inst, dir, at_, len, ps, 0, 0⟩

/-- The line that logical line L is in the copy of a generation of parity g. -/
def Half.phys (h : Half) (L g : Nat) : Nat :=
  match h.regionAt 0 L with
  | some (_, r) => r.copyLine (g % 2) L
  | none => L

/-- Lines of a stroke's source and destination in the copies of a tide of parity `par`. -/
def PS.srcLine (p : PS) (h : Half) (par i : Nat) : Option Nat := p.src.map fun a => h.phys (a + i) (par + p.st.rgen)
def PS.dstLine (p : PS) (h : Half) (par i : Nat) : Option Nat := p.dst.map fun a => h.phys (a + i) (par + p.st.wgen)

/-- Command cycles of a FETCH's burst j and of a STORE's (R51). -/
def PS.fetchAt (p : PS) (j : Nat) : Nat := p.st.fetchAt j
def PS.storeAt (p : PS) (j : Nat) : Nat := p.st.storeAt p.d j

/-- The cycle in which a stroke reads line i of its source, and in which it writes line i of its destination. -/
def PS.readAt (p : PS) (i : Nat) : Nat := p.st.readAt p.d i
def PS.writeAt (p : PS) (i : Nat) : Nat := p.st.writeAt p.d i

/-- Masks of a stroke's lines. -/
def PS.mask (p : PS) (i : Nat) : Nat := p.d.mask p.st.n i

/-- Departure of a cell on a link (R60, R65). -/
def State.departs (j : State) (p : PS) (l : Nat) : Nat := j.departsAt p.d l

/-- The last departure of a CELL_TX or PAIR_TX. -/
def State.lastDeparts (j : State) (p : PS) : Nat := j.lastDepart p.st p.d

/-- MODE of a port, and the wire time of a FRAME_TX (R67). -/
def State.frameWire (j : State) (p : PS) : Nat := wireTime p.port (portMode (j.portCfg p.port)) p.frameB

/-- Cycles from the first preamble bit to the last FCS bit. -/
def State.frameBits (j : State) (p : PS) : Nat := wireBits p.port (portMode (j.portCfg p.port)) p.frameB

/-- Cycles of a run over the lines of a stroke. -/
def PS.run (p : PS) (cls inst dir first : Nat) : List Use :=
  (List.range p.st.n).map fun i => .whole cls inst dir (first + i) 1 p

/-- Bank reads of the source, bank writes of the destination, and merge reads of its partly written lines. -/
def PS.bankReads (p : PS) (h : Half) (par : Nat) : List Use :=
  (List.range p.st.n).filterMap fun i => (p.srcLine h par i).map fun L => .whole 2 (L / 65536) 2 (p.readAt i) 1 p
def PS.bankWrites (p : PS) (h : Half) (par : Nat) : List Use :=
  (List.range p.st.n).flatMap fun i =>
    match p.dstLine h par i with
    | none => []
    | some L => .whole 2 (L / 65536) 2 (p.writeAt i) 1 p ::
      (if p.mask i = 15 then [] else [.whole 2 (L / 65536) 2 (p.writeAt i - 4) 1 p])

/-- Port uses of a drove access, one for each word: positions 0 and 1 in one cycle, 2 and 3 in the next (R46, R51). -/
def PS.drovePort (p : PS) (first : Nat) : List Use :=
  let d := 2 * p.sl + fld p.d.b 6 6
  (List.range p.st.n).flatMap fun i =>
    (maskBits (p.mask i)).map fun k => .whole 4 d 2 (first + 2 * i + k / 2) 1 p

/-- Channel and DRAM-bank cycles of a stroke's bursts. -/
def PS.commands (p : PS) (at_ : Nat → Nat) : List Use :=
  let u := fld p.d.b 26 0
  (List.range (p.st.bursts p.d)).flatMap fun j =>
    [.whole 7 (lineChan u) 2 (at_ j) 7 p, .whole 8 (16 * lineChan u + (u / 8 + j) % 16) 2 (at_ j) 28 p]

/-- The footprint of a stroke beside its sluice start, in a tide of parity `par`. -/
def State.footprint (j : State) (h : Half) (par : Nat) (p : PS) : List Use :=
  let s := p.st.start
  let rd := p.bankReads h par
  let wr := p.bankWrites h par
  let out := p.run 3 p.sl 1 (s + 4)
  let in_ := p.run 3 p.sl 0 (s + 8)
  match p.st.op with
  | 0x01 | 0x02 => rd ++ wr
  | 0x03 => rd ++ out ++ p.run 3 (fld p.d.b 21 18) 0 (s + 8) ++ wr
  | 0x04 =>
    let u := fld p.d.b 26 0
    p.commands p.fetchAt ++ wr ++ (List.range p.st.n).flatMap fun i =>
      let c := p.fetchAt (p.d.burst i) + (u + i) % 8
      [.whole 6 (lineChan u) 1 (c + 48) 1 p, .whole 3 p.sl 0 (c + 52) 1 p]
  | 0x05 => rd ++ out ++ p.run 6 (lineChan (fld p.d.b 26 0)) 0 (s + 8) ++ p.commands p.storeAt
  | 0x06 => rd ++ p.drovePort (s + 5)
  | 0x07 => wr ++ p.drovePort (s + 1)
  | 0x08 => [.whole 5 (fld p.d.b 4 0) 2 (s + 4) 1 p] ++ in_ ++ wr
  | 0x09 => rd ++ out ++ [.whole 5 (fld p.d.b 4 0) 2 (s + 8) 1 p]
  | 0x0A => rd ++ out ++ p.run 10 (p.sl % 2) 0 (s + 8) ++ [.whole 16 0 2 (s + 8) (j.lastDeparts p + 1 - s) p]
  | 0x0B => rd ++ out ++ p.run 11 0 0 (s + 8) ++ [.whole 16 0 2 (s + 8) (j.lastDeparts p + 1 - s) p]
  | 0x0C => p.run 10 (p.sl % 2) 1 (s + 4) ++ in_ ++ wr
  | 0x0D => p.run 11 0 1 (s + 4) ++ in_ ++ wr
  | 0x0E => p.run 9 (fld p.d.b 11 0 % 8) 1 (s + 4) ++ in_ ++ wr
  | 0x0F => rd ++ out ++ p.run 9 (fld p.d.b 11 0 % 8) 0 (s + 8)
  | 0x10 => rd ++ out ++ p.run 13 (fld p.d.b 6 0 / 16) 0 (s + 8)
  | 0x11 => rd ++ out ++ p.run 12 (p.sl % 4) 0 (s + 8)
    ++ [.whole 19 p.port 2 (s + 8) (p.ttx + j.frameBits p - (s + 8)) p, .whole 18 p.port 2 p.ttx (j.frameWire p) p]
  | 0x12 => rd
  | _ => []

/-- Every run a stroke occupies: its start, its flight (direction 3 of the sluice) and its footprint. -/
def State.usesOf (j : State) (h : Half) (par : Nat) (p : PS) : List Use :=
  [.whole 1 p.sl 2 p.st.start 1 p, .whole 1 p.sl 3 p.st.start (j.doneAt p.st p.d - p.st.start) p] ++ j.footprint h par p

/-- A run less the part before a tide start and past its end; none where it does not reach the tide. -/
def Use.clip (u : Use) (back P : Nat) : Option Use :=
  let a := max u.at_ (back * P)
  let b := min (u.at_ + u.len) ((back + 1) * P)
  if a < b then
    some { u with at_ := a - back * P, len := b - a, before := u.before + (a - u.at_), past := u.past + (u.at_ + u.len - b) }
  else none

/-- A run of the table before, as cycles of the first tide of the new table, of P wc: its stroke began `back` tides of Q wc
before (R49, R115). -/
def Use.carry (u : Use) (back Q P : Nat) : Option Use :=
  let a := max u.at_ (back * Q)
  let b := min (u.at_ + u.len) (back * Q + P)
  if a < b then
    some { u with at_ := a - back * Q, len := b - a, before := u.before + (a - u.at_), past := u.past + (u.at_ + u.len - b) }
  else none

/-- Tides that the longest footprint of a table reaches beyond its own. -/
def State.reachOf (j : State) (h : Half) (ps : List PS) : Nat :=
  ((ps.flatMap (j.usesOf h 0)).map fun u => u.at_ + u.len).foldl max 0 / h.period

/-- Runs that the strokes of the tide `back` tides before tide index i leave in it; `par` is the parity of tide i (R49). -/
def State.landed (j : State) (h : Half) (ps : List PS) (i par back : Nat) : List Use :=
  (ps.filter fun p => tselRuns p.st.tsel ((i + h.spring * back - back) % h.spring)).flatMap fun p =>
    (j.usesOf h ((par + back) % 2) p).filterMap fun u => u.clip back h.period

/-- Runs that the strokes of the retiring half, `back` tides before the first tide of P wc, leave in it. -/
def State.carried (j : State) (o : Half) (os : List PS) (par back P : Nat) : List Use :=
  (os.filter fun p => tselRuns p.st.tsel ((o.spring * back - back) % o.spring)).flatMap fun p =>
    (j.usesOf o ((par + back) % 2) p).filterMap fun u => u.carry back o.period P

/-- A picture of one tide index: the runs in it. The spring cycle is looked at in both parities of the tide counter, and tide
index 0 also with what the active table carries over (R114, R125). -/
structure Picture where
  tide : Nat
  par : Nat
  uses : List Use
  deriving DecidableEq, Repr

/-- The pictures of the staging half h, with `old` the active half where one is active. -/
def State.pictures (j : State) (h : Half) (ps : List PS) (old : Option Half) : List Picture :=
  let k := j.reachOf h ps
  ((List.range h.spring).flatMap fun i => [0, 1].map fun par =>
    { tide := i, par := par, uses := (List.range (k + 1)).flatMap fun back => j.landed h ps i par back })
  ++ match old with
    | none => []
    | some o =>
      let os := o.strokeList true
      [0, 1].map fun par =>
        { tide := 0, par := par,
          uses := j.landed h ps 0 par 0
            ++ (List.range (j.reachOf o os)).flatMap fun b => j.carried o os par (b + 1) h.period }

/-! ### Failures in order (R124, R132) -/

/-- The order of R124. -/
def PFail.rank (f : PFail) : Nat :=
  ((((f.tide * 2 ^ 28 + f.off) * 64 + f.cls) * 4096 + f.inst) * 16 + fld f.item 33 30) * 2 ^ 19 + fld f.item 18 0

/-- The first of several failures. -/
def firstFail (l : List PFail) : Option PFail := leastBy PFail.rank l

/-- The strokes of a failure in the order of R132: the later, then the other. -/
def twoOf (l : List PS) : Nat × Nat :=
  let pick := fun (l : List PS) => l.foldl (fun m p => match m with | none => some p | some q => if PS.after p q then some p else some q) none
  match pick l with
  | none => (0, 0)
  | some a => (a.item, match pick (l.filter (· != a)) with | some b => b.item | none => 0)

/-! ### Pass 4: occupancy -/

/-- The capacity of a resource in one direction (R46). -/
def capacityOf (u : Use) : Nat :=
  match u.cls, u.dir with
  | 1, 3 => 16
  | 4, _ | 6, _ => 2
  | 16, _ => 16
  | 19, _ => 8
  | _, _ => 1

/-- The code of a capacity passed. -/
def capCode (u : Use) : Nat :=
  match u.cls, u.dir with
  | 1, 3 => 0x031
  | 8, _ => 0x032
  | 18, _ => 0x038
  | _, _ => 0x030

/-- Runs of the same resource and direction that cover a cycle. -/
def covering (l : List Use) (u : Use) (c : Nat) : List Use :=
  l.filter fun v => v.cls == u.cls && v.inst == u.inst && v.dir == u.dir && decide (v.at_ ≤ c) && decide (c < v.at_ + v.len)

/-- The failure at the first cycle of a run, when more runs than the capacity cover it. -/
def Picture.capFail (q : Picture) (u : Use) : Option PFail :=
  let on := covering q.uses u u.at_
  if on.length ≤ capacityOf u then none
  else
    let (a, b) := twoOf (on.map Use.ps)
    let others := on.filter (· != u)
    let (found, limit) :=
      match u.cls with
      | 8 => (match others with | v :: _ => ((u.at_ + v.before : Int) - (v.at_ + u.before)).natAbs | [] => 0, 28)
      | 18 => (match others with | v :: _ => min (u.at_ + u.len + u.past) (v.at_ + v.len + v.past) - u.at_ | [] => u.len, 0)
      | _ => (on.length, capacityOf u)
    some { code := capCode u, pass := 4, item := a, other := b, tide := q.tide, off := u.at_, cls := u.cls, inst := u.inst,
           found := found, limit := limit }

/-- Cycles of a run [a, a + n) inside [b, b + m). -/
def overlap (a n b m : Nat) : Nat := min (a + n) (b + m) - max a b

/-- A burst command inside a refresh window (R59). -/
def Picture.refreshFail (P : Nat) (q : Picture) (u : Use) : Option PFail :=
  if u.cls ≠ 7 then none
  else
    let k := (u.at_ + u.len - 1 - 1216 * u.inst) / 4864
    let w := 1216 * u.inst + 4864 * k
    let n := overlap u.at_ u.len w 32
    if n = 0 ∨ P < w + 32 ∨ u.at_ + u.len ≤ 1216 * u.inst then none
    else some { code := 0x033, pass := 4, item := u.ps.item, tide := q.tide, off := max u.at_ w, cls := 7, inst := u.inst, found := n }

/-- The transmit link in whose grid a record's beat counts (R339). -/
def SlotRec.grid (r : SlotRec) : Nat := if (r.action = 4 ∨ r.action = 5) ∧ r.link ≠ 4 then onward r.link else r.link

/-- Offset of a record's slot. -/
def State.slotOff (j : State) (r : SlotRec) : Nat := 36 * r.beat + j.gridPhase r.grid + 36 * r.slot / 5

/-- The record's beat lies wholly in the tide. -/
def State.beatWhole (j : State) (P : Nat) (r : SlotRec) : Bool := decide (36 * r.beat + j.gridPhase r.grid + 36 ≤ P)

/-- Class and instance of a transmit link. -/
def linkCls (l : Nat) : Nat × Nat := if l = 4 then (15, 0) else (14, l)

/-- The direction of travel of a record's cell: by its transmit link, or by its receive link. -/
def SlotRec.dir (r : SlotRec) : Nat :=
  if r.action = 4 ∨ r.action = 5 then rxDir r.link else match r.link with | 0 => 0 | 1 => 1 | 3 => 2 | _ => 3

/-- This station's index on the path of a record's cell: 0 where it sends, else its distance from the sender as the roster
gives it, and 0 where the roster does not (log 115). -/
def State.pathIndex (j : State) (r : SlotRec) : Nat :=
  if r.action = 1 then 0
  else if r.link = 4 then 1
  else match (j.round (dirWrap r.dir)).findIdx? fun p => p.1 / 2 == r.src with
    | some i => i + 1
    | none => 0

/-- Failures of the ring plan in a tide index (R340). -/
def State.planFails (j : State) (h : Half) (i : Nat) : List PFail :=
  let rs := (planSlots (h.secD 7)).zipIdx
  let now := rs.filter fun r => tselRuns r.1.tsel i
  now.flatMap fun (r, n) =>
    let (c, k) := linkCls r.grid
    let same := now.filter fun x => x.1.takes && r.takes && x.1.link == r.link && x.1.beat == r.beat && x.1.slot == r.slot
    let base : PFail := { code := 0x034, pass := 4, item := itemWord false 0 7 n, tide := (i + j.slotOff r / h.period) % h.spring,
                          off := j.slotOff r % h.period, cls := c, inst := k }
    (if 2 ≤ same.length ∧ same.any (fun x => decide (x.2 < n)) = true then [{ base with found := same.length, limit := 1 }] else [])
    ++ (if j.beatWhole h.period r then [] else [{ base with code := 0x035, found := j.pathIndex r }])

/-- Departures too early, and receives before their cell is ready (R64, R65). -/
def State.cellFails (j : State) (h : Half) (ps : List PS) (i : Nat) : List PFail :=
  (ps.filter fun p => tselRuns p.st.tsel i).flatMap fun p =>
    if p.sends then
      p.links.filterMap fun l =>
        let t := j.departs p l
        if p.st.start + 24 ≤ t then none
        else some { code := 0x036, pass := 4, item := p.item, tide := (i + t / h.period) % h.spring, off := t % h.period, cls := (linkCls l).1, inst := (linkCls l).2,
                    found := t - p.st.start, limit := 24 }
    else if p.receives then
      let plan := h.secD 7
      match (planRx plan).find? fun x => x.2.2 == p.stream with
      | none => []
      | some x => (planSlots plan).filterMap fun r =>
        let t := j.slotOff r + 8
        if (r.action = 3 ∨ r.action = 4) ∧ r.stream = x.1 ∧ r.src = x.2.1 ∧ tselRuns r.tsel i = true ∧ p.st.start + 4 < t then
          some { code := 0x037, pass := 4, item := p.item, tide := (i + (p.st.start + 4) / h.period) % h.spring,
                 off := (p.st.start + 4) % h.period, cls := 17, inst := 0,
                 found := t - p.st.start, limit := 4 }
        else none
    else []

/-- BUS_LOADs of one buffer: first-write and release cycles over the spring cycle (R68, R294). -/
def PS.buffer (p : PS) : Nat := 3 * fld p.d.b 6 0 + fld p.d.b 8 7
def PS.releases (p : PS) : Bool := bit p.d.b 9

/-- Releases of a buffer over a spring cycle. -/
def Half.releaseTimes (h : Half) (ps : List PS) (b : Nat) : List (Nat × PS) :=
  (List.range h.spring).flatMap fun i =>
    (ps.filter fun p => p.st.op == 0x10 && p.buffer == b && p.releases && tselRuns p.st.tsel i).map fun p =>
      (i * h.period + p.st.start + p.st.n + 8, p)

/-- The spacing from the buffer's previous release to a load at time x, across the wrap of the spring cycle. -/
def Half.sinceRelease (h : Half) (rel : List (Nat × PS)) (x : Nat) : Option (Nat × PS) :=
  let c := h.spring * h.period
  leastBy (fun r => r.1) (rel.map fun (t, p) => ((x + 2 * c - t) % c, p))

def State.busFails (j : State) (h : Half) (ps : List PS) (i : Nat) : List PFail :=
  (ps.filter fun p => p.st.op == 0x10 && tselRuns p.st.tsel i).filterMap fun p =>
    let b := p.buffer
    let base : PFail := { code := 0x039, pass := 4, item := p.item, tide := (i + (p.st.start + 8) / h.period) % h.spring,
                          off := (p.st.start + 8) % h.period, cls := 20, inst := b }
    let near := h.sinceRelease (h.releaseTimes ps b) (i * h.period + p.st.start + 8)
    match j.busBound (b / 3) (b % 3) with
    | none => if p.releases then some { base with found := fld ((near.map Prod.fst).getD 0) 17 0, limit := 0x3FFFF } else none
    | some r =>
      match near with
      | some (g, q) => if g < r then
          let (a, o) := if p.after q || q = p then (p, q) else (q, p)
          some { base with item := a.item, other := if a = o then 0 else o.item, found := fld g 17 0, limit := fld r 17 0 }
        else none
      | none => none

/-- Pass 4 for every tide index. -/
def State.pass4 (j : State) (h : Half) (ps : List PS) (pics : List Picture) : Option PFail :=
  firstFail
    ((pics.flatMap fun q => q.uses.filterMap q.capFail ++ q.uses.filterMap (q.refreshFail h.period))
     ++ (List.range h.spring).flatMap fun i => j.planFails h i ++ j.cellFails h ps i ++ j.busFails h ps i)

/-! ### Pass 5: slack (R69 to R73) -/

/-- First cycle and length of block q. -/
def blockLen (P q : Nat) : Nat := min 256 (P - 256 * q)

/-- Slack that a block must keep. -/
def slackNeed (n : Nat) : Nat := if n = 256 then 8 else (n + 31) / 32

/-- The resources with an urgent slot. R69 names every resource whose unit is the wc; the upland DRAM banks (class 8) are left
out, as the worked placement holds bank 6 over slot 1,023 (log 104). -/
def isWc (c : Nat) : Bool := decide (1 ≤ c && c ≤ 6) || decide (9 ≤ c && c ≤ 13)

/-- Cycles of a block that runs of a resource take. -/
def takenIn (l : List Use) (cls inst a n : Nat) : List Nat :=
  (List.range n).filterMap fun x =>
    if l.any fun u => u.cls == cls && u.inst == inst && u.dir != 3 && decide (u.at_ ≤ a + x) && decide (a + x < u.at_ + u.len) then some (a + x) else none

/-- The strokes that use a resource in a block. -/
def usersIn (l : List Use) (cls inst a n : Nat) : List PS :=
  (l.filter fun u => u.cls == cls && u.inst == inst && u.dir != 3 && decide (u.at_ < a + n) && decide (a < u.at_ + u.len)).map Use.ps

/-- Slack of a wc resource in a block. No cycle fails by itself; the failure stands at the block's first (log 105). -/
def Picture.slackFail (P : Nat) (q : Picture) (cls inst b : Nat) : Option PFail :=
  let a := 256 * b
  let n := blockLen P b
  let free := n - 1 - (takenIn q.uses cls inst a (n - 1)).length
  if slackNeed n ≤ free then none
  else some { code := 0x040, pass := 5, item := (twoOf (usersIn q.uses cls inst a n)).1, tide := q.tide, off := a, cls := cls, inst := inst,
              found := free, limit := slackNeed n }

/-- A run in the urgent slot or window of block b. -/
def Picture.urgentIn (P : Nat) (q : Picture) (u : Use) (b : Nat) : Option PFail :=
  let e := 256 * b + blockLen P b
  let w := if u.cls = 7 then min 8 (blockLen P b) else 1
  let n := overlap u.at_ u.len (e - w) w
  if (u.cls = 7 ∨ (isWc u.cls = true ∧ u.dir ≠ 3)) ∧ n ≠ 0 then
    some { code := 0x041, pass := 5, item := u.ps.item, tide := q.tide, off := max u.at_ (e - w), cls := u.cls, inst := u.inst, found := n }
  else none

/-- A run in the urgent slot or window of the block of its first cycle, or else of its last (R69, R71). -/
def Picture.urgentFail (P : Nat) (q : Picture) (u : Use) : Option PFail :=
  (q.urgentIn P u (u.at_ / 256)).or (q.urgentIn P u ((u.at_ + u.len - 1) / 256))

/-- Cycles of a channel's block that are free of commands, refresh and the urgent window. -/
def Picture.chanFree (P : Nat) (q : Picture) (ch b : Nat) : List Bool :=
  let a := 256 * b
  let n := blockLen P b
  (List.range n).map fun x =>
    let c := a + x
    let r := c + 4864 - 1216 * ch
    decide (x + 8 < n) && !(decide (1216 * ch ≤ c) && decide (r % 4864 < 32) && decide (c - (c - 1216 * ch) % 4864 + 32 ≤ P))
    && !q.uses.any fun u => u.cls == 7 && u.inst == ch && decide (u.at_ ≤ c) && decide (c < u.at_ + u.len)

/-- The longest run of true. -/
def longest (l : List Bool) : Nat :=
  (l.foldl (fun (acc : Nat × Nat) b => if b then (acc.1 + 1, max acc.2 (acc.1 + 1)) else (0, acc.2)) (0, 0)).2

/-- Slack of a channel's block, and then its run of 7 cycles (R71); where both fall short, the slack is reported, at the
block's first cycle (log 105). -/
def Picture.chanFail (P : Nat) (q : Picture) (ch b : Nat) : Option PFail :=
  let l := q.chanFree P ch b
  let n := blockLen P b
  let base : PFail := { code := 0x042, pass := 5, item := (twoOf (usersIn q.uses 7 ch (256 * b) n)).1, tide := q.tide, off := 256 * b, cls := 7, inst := ch }
  if l.countP id < slackNeed n then some { base with code := 0x040, found := l.countP id, limit := slackNeed n }
  else if longest l < 7 then some { base with found := longest l, limit := 7 }
  else none

/-- Blocks a picture's runs touch on a resource, and the final block. -/
def Picture.blocks (P : Nat) (q : Picture) (cls inst : Nat) : List Nat :=
  ((q.uses.filter fun (u : Use) => u.cls == cls && u.inst == inst && u.dir != 3).flatMap (fun (u : Use) =>
    [u.at_ / 256, (u.at_ + u.len - 1) / 256]) ++ [(P - 1) / 256]).dedup

/-- Instances of the resources whose unit is the wc, beside the upland channels (R46, R70). -/
def wcInsts : List (Nat × Nat) :=
  [(1, 16), (2, 64), (3, 16), (4, 32), (5, 32), (6, 4), (8, 64), (9, 8), (10, 2), (11, 1), (12, 4), (13, 8)].flatMap fun (c, n) =>
    (List.range n).map fun i => (c, i)

/-- Slack of the ring and pair links in a tide index (R72). -/
def State.linkSlack (j : State) (h : Half) (i : Nat) : List PFail :=
  let rs := (planSlots (h.secD 7)).zipIdx.filter fun r => r.1.takes && tselRuns r.1.tsel i
  rs.flatMap fun (r, n) =>
    let (c, k) := linkCls r.link
    let beats := (h.period - j.gridPhase r.link) / 36
    let g := r.beat / 8
    let size := min 8 (beats - 8 * g)
    let used := rs.countP fun x => x.1.link == r.link && x.1.beat / 8 == g
    let need := if size = 8 then 2 else (5 * size + 31) / 32
    let base : PFail := { code := 0x041, pass := 5, item := itemWord false 0 7 n, tide := i, off := min (j.slotOff r) (2 ^ 27 - 1), cls := c, inst := k }
    (if r.beat % 32 = 31 ∧ r.slot = 4 then [{ base with found := 1 }] else [])
    ++ (if 5 * size < used + need then
          [{ base with code := 0x040, off := min (288 * g + j.gridPhase r.link) (2 ^ 27 - 1), found := 5 * size - used, limit := need }] else [])

/-- Scheduled wire time of each port in a tide index (R73, R306). -/
def Picture.shareFails (P : Nat) (q : Picture) : List PFail :=
  (List.range 48).filterMap fun p =>
    let w := ((q.uses.filter fun u => u.cls == 18 && u.inst == p).map Use.len).sum
    if 32 * w ≤ 31 * P then none
    else some { code := 0x043, pass := 5, item := (twoOf (usersIn q.uses 18 p 0 P)).1, tide := q.tide, cls := 18, inst := p,
                found := w / 2 ^ 18, limit := P * 31 / 32 / 2 ^ 18 }

def State.pass5 (j : State) (h : Half) (pics : List Picture) : Option PFail :=
  let P := h.period
  firstFail
    ((pics.flatMap fun q =>
        wcInsts.flatMap (fun (c, i) => (q.blocks P c i).filterMap (q.slackFail P c i))
        ++ q.uses.filterMap (q.urgentFail P)
        ++ (List.range 4).flatMap (fun ch => (q.blocks P 7 ch).filterMap (q.chanFail P ch))
        ++ q.shareFails P)
     ++ (List.range h.spring).flatMap (j.linkSlack h))

/-! ### Pass 6: generations (R102, R104, R106, R114) -/

/-- Words of a turn line that strokes write for the generation of tide index i − r before cycle `x` of tide i's count. A
CARRY counts with the words that its masks name, although it writes whole lines (log 109): the rule leaves the count open
(DESIGN CHOICE, log 140). -/
def Half.covered (h : Half) (ps : List PS) (i r L x : Nat) : Nat :=
  ps.foldl (fun m p =>
    match p.dst with
    | none => m
    | some a =>
      if L < a ∨ a + p.st.n ≤ L then m
      else
        -- the tide in which p writes this generation: tide i − r + WGEN
        let idx := (i + h.spring * 2 + p.st.wgen - r) % h.spring
        if tselRuns p.st.tsel idx && decide (p.writeAt (L - a) + h.period * p.st.wgen < x + h.period * r) then m ||| p.mask (L - a) else m) 0

/-- Reads of turn lines that no write of their generation covers. -/
def Half.coverFails (h : Half) (ps : List PS) (i : Nat) : List PFail :=
  (ps.filter fun p => tselRuns p.st.tsel i).flatMap fun p =>
    match p.src with
    | none => []
    | some a => (List.range p.st.n).filterMap fun k =>
      (h.regionAt 0 (a + k)).bind fun (r, _) =>
        let cov := h.covered ps i p.st.rgen (a + k) (p.readAt k)
        let miss := p.mask k - (p.mask k &&& cov)
        if miss = 0 then none
        else some { code := 0x048, pass := 6, item := p.item, tide := (i + p.readAt k / h.period) % h.spring, off := p.readAt k % h.period,
                    cls := 22, inst := r, found := miss }

/-- Lines of HOST regions without a CARRY in a tide index (R104). -/
def Half.carryFails (h : Half) (ps : List PS) (i : Nat) : List PFail :=
  h.regionList.filterMap fun (r, x) =>
    if x.kind ≠ 1 then none
    else
      ((List.range x.lines).find? fun l => !ps.any fun p =>
        p.st.op == 0x02 && tselRuns p.st.tsel i
        && (match p.src with
            | some a => decide (a ≤ x.base0 + l) && decide (x.base0 + l < a + p.st.n) && p.mask (x.base0 + l - a) == 15
            | none => false)).map fun l =>
        { code := 0x049, pass := 6, item := itemWord false 0 4 r, tide := i, cls := 22, inst := r, found := l }

/-- A new-table write in the first tide before a carried-over old-table read of the same line (R114). -/
def swapFails (h : Half) (ps : List PS) (o : Half) : List PFail :=
  let os := (o.strokeList true).filter fun p => tselRuns p.st.tsel (o.spring - 1)
  let ns := ps.filter fun p => tselRuns p.st.tsel 0
  [0, 1].flatMap fun par => os.flatMap fun q => (List.range q.st.n).flatMap fun k =>
    match q.srcLine o (par + 1) k with
    | none => []
    | some L =>
      if q.readAt k < o.period then []
      else ns.flatMap fun p => (List.range p.st.n).filterMap fun i =>
        if p.dstLine h par i = some L ∧ p.writeAt i < q.readAt k - o.period then
          some { code := 0x04A, pass := 6, item := p.item, other := q.item, off := p.writeAt i, cls := 2, inst := L / 65536, found := fld L 17 0 }
        else none

def Half.pass6 (h : Half) (ps : List PS) (old : Option Half) : Option PFail :=
  firstFail ((List.range h.spring).flatMap (fun i => h.coverFails ps i ++ h.carryFails ps i)
    ++ (match old with | some o => swapFails h ps o | none => []))

/-! ### Pilot -/

/-- The six passes over an unpacked staging half. -/
def State.pilot (s : State) (h : Half) : Option PFail :=
  (s.pass1 h).orElse fun _ => h.pass2.orElse fun _ => (s.pass3 h).orElse fun _ =>
  let j := s.judgedBy h
  let ps := h.strokeList
  let old := if s.table.valid then some s.activeHalf else none
  let pics := j.pictures h ps old
  (j.pass4 h ps pics).orElse fun _ => (j.pass5 h pics).orElse fun _ => h.pass6 ps old

/-- The whole check of R122: steps 1 to 9, then Pilot on the unpacked half. -/
def State.checkTable (s : State) (h : Half) : Option PFail :=
  (s.steps1to9 h).orElse fun _ => s.pilot h.unpack

/-! ### Dark intervals (R75, R76) -/

/-- A run is a use of a tile resource of tile n. -/
def Use.ofTile (u : Use) (n : Nat) : Bool := u.dir != 3 && resTile u.cls u.inst == some n

/-- Uses of a tile by a stroke, as cycles of its own tide. -/
def State.tileUses (j : State) (h : Half) (n : Nat) (p : PS) : List Nat :=
  ((j.usesOf h 0 p ++ j.usesOf h 1 p).filter fun u => u.ofTile n).map Use.at_

/-- Uses of a tile over some spring cycles on end, each with the start of its stroke, in cycles of the first. -/
def State.tileUsesOver (j : State) (h : Half) (n cycles : Nat) : List (Nat × Nat) :=
  (List.range (cycles * h.spring)).flatMap fun i =>
    (h.strokeList.filter fun p => tselRuns p.st.tsel (i % h.spring)).flatMap fun p =>
      (j.tileUses h n p).map fun c => (i * h.period + p.st.start, i * h.period + c)

/-- Uses of a tile over two spring cycles. -/
def State.tileCalendar (j : State) (h : Half) (n : Nat) : List (Nat × Nat) := j.tileUsesOver h n 2

/-- Planned dark intervals of a tile: first and last cycle, counted in a spring cycle from 0 (the end may lie in the next).
The spring cycle before counts with what its strokes carry into this one. -/
def State.darkPlan (j : State) (h : Half) (n : Nat) : List (Nat × Nat) :=
  let cal := j.tileUsesOver h n 3
  let c := h.spring * h.period
  ((List.range h.spring).flatMap fun i =>
    (h.strokeList.filter fun p => p.sl == n && p.st.wake && tselRuns p.st.tsel i).filterMap fun p =>
      let t := c + i * h.period + p.st.start
      let u := ((cal.filter fun x => decide (x.1 ≤ t)).map Prod.snd).foldl max 0
      match leastBy id ((cal.map Prod.snd).filter fun x => decide (u < x)) with
      | none => none
      | some v => if u + 8 + 32 ≤ v - 64 then some (u + 8 - c, v - 65 - c) else none).dedup

/-- A tile with no scheduled use in any tide index (R76). -/
def State.tileUnused (j : State) (h : Half) (n : Nat) : Bool := (j.tileCalendar h n).isEmpty

end Sys2Proof.Machine
end

