-- ==== Sys2Proof/Machine/Slack.lean ====
section
/-! DEFINITION. What the ledger grants in the running tide: slack cycles and urgent slots of an instance (R69 to R74), the
grant of a stage (R138, R140), and the accesses of class SCRUB that need no queue: the scrubber (R176 to R178), the marking
write (R169) and a repeated upland command (R173). -/

namespace Sys2Proof.Machine

/-! ### Slack cycles and urgent slots of the running tide (R59, R69 to R72) -/

/-- The runs in this tide: those of the active table's strokes, of the tides since it became active, and in its first tide
what the retiring table carries over (R49, R114). A shed or null stroke's cycles stay its own (R148). -/
def State.tideUses (s : State) : List Use :=
  if !s.tableRuns then []
  else
    let h := s.activeHalf
    let ps := h.strokeList
    let par := s.tide.t % 2
    (List.range (min (s.reachOf h ps) s.tide.count + 1)).flatMap (s.landed h ps s.tide.index par)
    ++ (if s.table.stage = .retiring then
        let o := s.stagingHalf
        let os := o.strokeList true
        (List.range (s.reachOf o os)).flatMap fun b => s.carried o os par (b + 1) h.period
      else [])

/-- The runs in the tide before, and its length: of the active table, or in its first tide of the retiring one. -/
def State.usesBefore (s : State) : List Use × Nat :=
  if !s.tableRuns then ([], s.tideP)
  else
    let par := (s.tide.t + 1) % 2
    if s.tide.count = 0 then
      if s.table.stage = .retiring then
        let o := s.stagingHalf
        let os := o.strokeList true
        ((List.range (s.reachOf o os + 1)).flatMap (s.landed o os (o.spring - 1) par), o.period)
      else ([], s.tideP)
    else
      let h := s.activeHalf
      let ps := h.strokeList
      ((List.range (min (s.reachOf h ps) (s.tide.count - 1) + 1)).flatMap
        (s.landed h ps ((s.tide.index + s.tide.spring - 1) % s.tide.spring) par), s.tideP)

/-- A grant cycle of an instance. -/
inductive GrantCycle where
  | taken | slack | urgent
  deriving DecidableEq, Repr

/-- A run of a resource covers a cycle from `a` to `a + n - 1`. -/
def busyIn (us : List Use) (cls inst a n : Nat) : Bool :=
  us.any fun u => u.cls == cls && u.inst == inst && u.dir != 3 && decide (u.at_ < a + n) && decide (a < u.at_ + u.len)

/-- The first cycle after the block of 256 wc that holds an offset (R69). -/
def blockEnd (P off : Nat) : Nat := min P (256 * (off / 256) + 256)

/-- A cycle of a wc resource. -/
def wcSlot (us : List Use) (P cls inst off : Nat) : GrantCycle :=
  if P ≤ off ∨ busyIn us cls inst off 1 = true then .taken
  else if off + 1 = blockEnd P off then .urgent else .slack

/-- A refresh window of a channel meets the n cycles from `a` (R59). -/
def refreshMeets (P ch a n : Nat) : Bool :=
  (List.range n).any fun x =>
    let c := a + x
    decide (1216 * ch ≤ c) && decide ((c - 1216 * ch) % 4864 < 32) && decide (c - (c - 1216 * ch) % 4864 + 32 ≤ P)

/-- The seven cycles of a burst command on a channel (R71): urgent when one of them lies in an urgent window. -/
def chanSlot (us : List Use) (P ch off : Nat) : GrantCycle :=
  if P < off + 7 ∨ busyIn us 7 ch off 7 = true ∨ refreshMeets P ch off 7 = true then .taken
  else if blockEnd P (off + 6) < off + 15 ∨ blockEnd P off < off + 15 then .urgent else .slack

/-- Beat and slot of a link's grid that start at an offset (R60). -/
def beatSlot (phase P off : Nat) : Option (Nat × Nat) :=
  let b := (off - phase) / 36
  if off < phase ∨ P < 36 * b + phase + 36 then none
  else ((List.range 5).find? fun k => 36 * k / 5 == (off - phase) % 36).map fun k => (b, k)

/-- A slot of a transmit link (R72, R343): outside an urgent slot markers and passing cells go before a grant. -/
def State.linkSlot (s : State) (l off : Nat) : GrantCycle :=
  match beatSlot (s.gridPhase l) s.tideP off with
  | none => .taken
  | some (b, k) =>
    if s.slotPlanned l b k then .taken
    else if b % 32 = 31 ∧ k = 4 then .urgent
    else if (s.link l).marks.isEmpty && (s.link l).transit.isEmpty then .slack else .taken

/-- What a cycle of an instance is to the ledger. Without tides every cycle is slack, but on a link that is not UP (R354). -/
def State.slotAt (s : State) (cls inst off : Nat) : GrantCycle :=
  if !s.workRuns then .taken
  else if (cls = 14 && !s.linkUp inst) || (cls = 15 && !s.linkUp 4) then .taken
  else if !s.tideRuns then .slack
  else if isWc cls then wcSlot s.tideUses s.tideP cls inst off
  else if cls = 7 then chanSlot s.tideUses s.tideP inst off
  else if cls = 14 then s.linkSlot inst off
  else if cls = 15 then s.linkSlot 4 off
  else .taken

/-! ### Where a stage can run -/

/-- No grant stands on the instance at an offset or later. -/
def State.idleAt (s : State) (cls inst off : Nat) : Bool :=
  decide (Tab.get 0 s.ledger.busy (useKey 0 cls inst) ≤ s.abs off)

/-- A DRAM bank of an upland line. -/
def dramOf (L : Nat) : Nat := 16 * lineChan L + L / 8 % 16

/-- Commands of the strokes of the next tide on a DRAM bank, in cycles of this one. -/
def State.dramNext (s : State) : List Use :=
  if !s.tableRuns then []
  else
    let h := s.activeHalf
    (s.landed h h.strokeList ((s.tide.index + 1) % s.tide.spring) ((s.tide.t + 1) % 2) 0).map fun u => { u with at_ := u.at_ + s.tideP }

/-- A command at an offset holds the DRAM bank of line L for 28 wc beside every other (R58, R646). -/
def State.dramFree (s : State) (L off : Nat) : Bool :=
  s.idleAt 8 (dramOf L) off && (!s.tideRuns || !busyIn (s.tideUses ++ s.dramNext) 8 (dramOf L) off 28)

/-- A stroke of the running table writes physical line L in one of the three cycles before an offset. -/
def State.strokeWrites (s : State) (L off : Nat) : Bool :=
  s.tableRuns &&
    let h := s.activeHalf
    let ps := h.strokeList
    (List.range (min (s.reachOf h ps + 1) s.tide.count + 1)).any fun back =>
      (ps.filter fun p => tselRuns p.st.tsel ((s.tide.index + h.spring * back - back) % h.spring)).any fun p =>
        (List.range p.st.n).any fun i =>
          p.dstLine h ((s.tide.t + back) % 2) i == some L && decide (off + back * h.period < p.writeAt i + 4)
          && decide (p.writeAt i < off + back * h.period)

/-- What the cycle 4 wc before an offset is to the ledger, on a bank: for the first four cycles, one of the tide before. -/
def State.slotBefore (s : State) (bank off : Nat) : GrantCycle :=
  if 4 ≤ off then s.slotAt 2 bank (off - 4)
  else
    let (us, P) := s.usesBefore
    wcSlot us P 2 bank (P + off - 4)

/-- The merge read 4 wc before a write at the offset: a slack or urgent cycle of the bank too, in which it has no grant, with
no other write of the line between (R138). -/
def State.pairFree (s : State) (bank L off : Nat) : Bool :=
  !s.tideRuns ||
    let P := s.currentLine false L
    s.slotBefore bank off != .taken && decide (Tab.get 0 s.ledger.busy (useKey 0 2 bank) ≤ s.abs off - 4)
    && !s.strokeWrites P off
    && !s.ledger.writes.any fun w => w.1 == P && decide (s.abs off < w.2 + 4)

/-- What a stage needs beside its own cycle: its DRAM bank, or the cycle of its merge read. -/
def State.stageFree (s : State) (off : Nat) (a : Access) : Bool :=
  match a.stages, a.line with
  | st :: _, some (true, L) => st.cls != 7 || s.dramFree L off
  | st :: _, some (false, L) => !(st.cls == 2 && st.cycles == 2) || s.pairFree st.inst L off
  | _, _ => true

/-! ### The grant (R138 to R140, R144) -/

/-- A stage granted to class c in a cycle of an instance: its use, the instance's and the DRAM bank's hold, the tile's last
use, and URGENT. -/
def State.useStage (s : State) (c : Nat) (st : LStage) (line : Option (Bool × Nat)) (off : Nat) : State :=
  let urgent : Bool := s.slotAt st.cls st.inst off == .urgent
  let s := (s.advance off).addUse c st.cls st.inst st.cycles
  let now := s.abs off
  let busy := Tab.set 0 s.ledger.busy (useKey 0 st.cls st.inst) (now + (if st.cls = 7 then 7 else 1))
  let busy := match line with
    | some (true, L) => if st.cls = 7 then Tab.set 0 busy (useKey 0 8 (dramOf L)) (now + 28) else busy
    | _ => busy
  let last := match resTile st.cls st.inst with
    | some t => Tab.set 0 s.ledger.lastUse t now
    | none => s.ledger.lastUse
  let n := Tab.get 0 s.ledger.urgent c
  { s with
    ledger.busy := busy, ledger.lastUse := last,
    ledger.urgent := if urgent then Tab.set 0 s.ledger.urgent c (satAdd 18 n 1) else s.ledger.urgent }

/-- The write of a granted stage of a pasture bank, which keeps later merge reads of its line away (R138). -/
def State.noteWrite (s : State) (st : LStage) (line : Option (Bool × Nat)) (off : Nat) : State :=
  match line with
  | some (false, L) =>
    if st.cls = 2 then
      { s with ledger.writes := (s.ledger.writes.filter fun w => decide (s.abs off < w.2 + 4)) ++ [(s.currentLine false L, s.abs off)] }
    else s
  | _ => s

/-- The grant of a candidate's next stage: after its last the access has waited from its entry, its cell leaves (R343), and the
next one held back enters. -/
def State.grant (s : State) (x : Cand) (off : Nat) : State :=
  match x.acc.stages with
  | [] => s
  | st :: rest =>
    let s := s.useStage x.cls st x.acc.line off
    let now := s.abs off
    match rest with
    | [] =>
      let wait := now - x.acc.entered
      let s := (((s.noteWrite st x.acc.line off).setQueue x.cls ((s.queueOf x.cls).eraseIdx x.pos)).noteWait x.cls wait).traceGrant
        x.cls st.cls st.inst wait
      (match x.acc.cell with | some (l, w) => s.unschedOut l (s.stampOrigin w) | none => s).admitNext x.cls
    | st' :: _ =>
      (s.setQueue x.cls ((s.queueOf x.cls).set x.pos
        { x.acc with stages := rest, started := true, first := if x.acc.started then x.acc.first else now, last := some st,
                     ready := now + st'.gap })).reachTile rest off

/-- Candidates of an instance at an offset that can run there. -/
def State.candsAt (s : State) (cls inst off : Nat) : List Cand :=
  (s.cands cls inst off).filter fun x => s.stageFree off x.acc

/-- LEDGER_STAGE_GRANT (R140): a cycle that is neither slack nor urgent, or in which the instance has a grant, grants
nothing. -/
def execLedgerStageGrant (rcls : Fin 16) (inst : Nat) (off : Nat) (s : State) : Host.Outcome State Fault Refusal :=
  let slot := s.slotAt rcls inst off
  .next (if slot = .taken ∨ s.idleAt rcls inst off = false then s
    else
      let l := s.candsAt rcls inst off
      let pick := if slot = .urgent then (s.pickUrgent l).or (s.pickSlack l) else s.pickSlack l
      let s := s.noteQuota l
      match pick with
      | some x => s.grant x off
      | none => s)

/-! ### Accesses of class SCRUB (R169, R173, R176, R177) -/

/-- A one-stage access of class SCRUB finds a cycle: a slack or urgent one that no waiting stage of a higher PRIO, or of the
same, takes. -/
def State.scrubFree (s : State) (st : LStage) (line : Option (Bool × Nat)) (off : Nat) : Bool :=
  let prio c := fld (s.cfg 0x02040 c) 23 21
  s.slotAt st.cls st.inst off != .taken && s.idleAt st.cls st.inst off
  && (match line with | some (true, L) => s.dramFree L off | _ => true)
  && (match resTile st.cls st.inst with | some t => s.awakeAt t off | none => true)
  && !(s.candsAt st.cls st.inst off).any fun x =>
      s.withinQuota x.cls x.acc && (decide (prio 8 ≤ prio x.cls) || (s.slotAt st.cls st.inst off == .urgent && s.isUrgent x.cls x.acc))

/-- An access of class SCRUB in one stage: the tile of its bank wakes first (R78); the work runs in a cycle that it gets,
within quota. -/
def State.scrubStage (s : State) (st : LStage) (line : Option (Bool × Nat)) (off : Nat) (work : State → State) : State :=
  if !s.workRuns then s
  else
    let dark : Bool := match resTile st.cls st.inst with | some t => decide (Tab.get 0 s.tide.darkAt t ≠ 0) | none => false
    if dark then s.reachTile [st] off
    else if !s.scrubFree st line off then s
    else if !s.belowQuota 8 st.cls st.inst then s.quotaStop 8
    else work (((s.useStage 8 st line off).noteWait 8 0).traceGrant 8 st.cls st.inst 0)

/-- The stage that reads or writes one line of class SCRUB. -/
def scrubOf (up : Bool) (L : Nat) : LStage :=
  if up then ⟨7, lineChan L, 2, 7, 0, 0⟩ else ⟨2, L / 65536, 2, 1, 0, 0⟩

/-- A unit's scrub pointer after a pass completes or goes on (R176). -/
def State.scrubAdvance (s : State) (u n : Nat) : State :=
  let at_ := Tab.get 0 s.image.scrubAt u + 1
  if at_ < n then { s with image.scrubAt := Tab.set 0 s.image.scrubAt u at_ }
  else
    { s with
      image.scrubAt := Tab.set 0 s.image.scrubAt u 0,
      image.scrubLast := Tab.set 0 s.image.scrubLast u (s.tide.t - Tab.get 0 s.image.scrubTides u),
      image.scrubTides := Tab.set 0 s.image.scrubTides u s.tide.t,
      image.scrubPasses := Tab.set 0 s.image.scrubPasses u (Tab.get 0 s.image.scrubPasses u + 1) }

/-- SCRUB_READ (R176): one line of a bank, or one burst of eight lines of a channel that is not lost. -/
def execScrubRead (unit : Fin 68) (off : Nat) (s : State) : Host.Outcome State Fault Refusal :=
  let u := unit.val
  let n := Tab.get 0 s.image.scrubAt u
  .next (if u < 64 then
      let L := u * 65536 + n
      s.scrubStage (scrubOf false L) none off fun s => ((s.checkLine false L).1).scrubAdvance u 65536
    else if s.chanLost (u - 64) then s
    else
      let first := (u - 64) * 2 ^ 25 + 8 * n
      s.scrubStage (scrubOf true first) (some (true, first)) off fun s =>
        ((List.range 8).foldl (fun s i => (s.checkLine true (first + i)).1) s).scrubAdvance u 4194304)

/-- SCRUB_WRITE_BACK (R177): the oldest queued line gets fresh check bits, unless a stroke has written it meanwhile. -/
def execScrubWriteBack (off : Nat) (s : State) : Host.Outcome State Fault Refusal :=
  .next (match s.image.writeBack with
    | [] => s
    | (up, L) :: rest =>
      if up && s.chanLost (lineChan L) then { s with image.writeBack := rest }
      else s.scrubStage (scrubOf up L) (some (up, L)) off fun s =>
        if s.image.writeBack.contains (up, L) then
          let l := s.line up L
          let s := { s with image.writeBack := s.image.writeBack.erase (up, L) }.noteWrite (scrubOf up L) (some (up, L)) off
          if l.code = .single then s.setLine up L { l with code := .good } else s
        else s)

/-- POISON_MARK_WRITE (R169, R170): the oldest line queued for marking gets its poison bit, good check bits and good
side-store parity, unless a stroke has written it meanwhile; a tag whose parity did not verify matches no generation until a
write sets it. -/
def execPoisonMarkWrite (off : Nat) (s : State) : Host.Outcome State Fault Refusal :=
  .next (match s.image.marking with
    | [] => s
    | (up, L) :: rest =>
      if up && s.chanLost (lineChan L) then { s with image.marking := rest }
      else s.scrubStage (scrubOf up L) (some (up, L)) off fun s =>
        if s.image.marking.contains (up, L) then
          let l := s.line up L
          ({ s with image.marking := s.image.marking.erase (up, L) }.noteWrite (scrubOf up L) (some (up, L)) off).setLine up L
            { l with poison := true, code := .good, sideBad := false, tagVoid := l.tagVoid || l.sideBad }
        else s)

/-! ### Upland commands -/

/-- UPLAND_REFRESH (R59, R173): a window of R59 in which the refresh does not complete loses the channel. Nothing else is a
window; without tides, and where the work domain does not run, no window comes (R171). -/
def execUplandRefresh (ch : Fin 4) (off : Nat) (completed : Bool) (s : State) : Host.Outcome State Fault Refusal :=
  .next (if !s.workRuns || !s.tideRuns || !refreshMeets s.tideP ch off 1
      || decide (off ≠ 0 ∧ refreshMeets s.tideP ch (off - 1) 1 = true) then s
    else
      let s := s.advance off
      if (completed && s.supplyUp 5 && s.supplyUp 6) || s.chanLost ch then s else s.loseChannel ch 4)

/-- UPLAND_COMMAND_RETRY (R173): the repeat, in a cycle of class SCRUB, fires UPLAND_RETRY; a second parity failure loses the
channel. -/
def execUplandCommandRetry (ch : Fin 4) (off : Nat) (ok : Bool) (s : State) : Host.Outcome State Fault Refusal :=
  .next (if s.chanLost ch then s
    else s.scrubStage ⟨7, ch, 2, 7, 0, 0⟩ none off fun s =>
      let s := s.fire 65 ch
      if ok then s else s.loseChannel ch 3)

/-- CLEAR_LINE (R181): one access of class DICT, which ends with the path's error response while Bell holds the class
(R505). -/
def execClearLine (up : Bool) (addr : Nat) (s : State) : Host.Outcome State Fault Refusal :=
  let L := addr / 4
  .next (if !s.workRuns then s
    else if addr % 4 ≠ 0 ∨ tierLines up ≤ L ∨ (up = true ∧ s.chanLost (lineChan L) = true) then s.abort 0x03024 6
    else if s.classSafe 2 2 then s.abort 0x03024 0x011
    else ((s.clientEnter 2 up L true 15).writeLine up L 15 Line.fresh.words none).1)

end Sys2Proof.Machine
end

