-- ==== Sys2Proof/Machine/Tide.lean ====
section
/-! DEFINITION. The tiles' power (R75 to R78). -/

namespace Sys2Proof.Machine

/-- A place in the spring cycle lies in an interval, whose end may lie in the next cycle. -/
def inCycle (cycle pos : Nat) (i : Nat × Nat) : Bool :=
  (decide (i.1 ≤ pos) && decide (pos ≤ i.2)) || (decide (i.1 ≤ pos + cycle) && decide (pos + cycle ≤ i.2))

/-- Work cycles from the start of the spring cycle to an offset of this tide. -/
def State.springPos (s : State) (off : Nat) : Nat := s.tide.index * s.tide.period + off

/-- The offset lies in a planned dark interval of the tile (R76). -/
def State.plannedDark (s : State) (t off : Nat) : Bool :=
  s.tableRuns && (s.tileUnused s.activeHalf t
    || (s.darkPlan s.activeHalf t).any (inCycle (s.tide.spring * s.tide.period) (s.springPos off)))

/-- A planned dark interval of the tile begins at the offset: an unused tile's at offset 0 of every tide (R76). -/
def State.darkBegins (s : State) (t off : Nat) : Bool :=
  let c := s.tide.spring * s.tide.period
  s.tableRuns && ((off == 0 && s.tileUnused s.activeHalf t)
    || (s.darkPlan s.activeHalf t).any fun i => i.1 % c == s.springPos off)

/-- A tile use begins 64 wc after the offset (R76), of the active table or, at the end of its last tide, of the table that
the swap brings. -/
def State.wakeDue (s : State) (t off : Nat) : Bool :=
  let c := s.tide.spring * s.tide.period
  s.tableRuns
    && ((s.tileCalendar s.activeHalf t).any (fun u => u.2 % c == (s.springPos off + 64) % c)
      || (s.table.stage == .committed && decide (s.tide.period ≤ off + 64)
        && (s.tileCalendar s.stagingHalf t).any fun u => u.2 == off + 64 - s.tide.period))

/-- A pending access waits for a stage in the tile (R78). -/
def State.tileWanted (s : State) (t : Nat) : Bool :=
  s.ledger.queue.any fun q => q.2.any fun a =>
    match a.stages with
    | st :: _ => resTile st.cls st.inst == some t
    | [] => false

/-- TILE_WAKE (R76, R78): a tile awake for slack simply stays awake. -/
def execTileWake (t : Fin 16) (off : Nat) (s : State) : Host.Outcome State Fault Refusal :=
  .next (if !s.wakeDue t off then s
    else if s.tide.slackAwake.contains t.val then { s with tide.slackAwake := s.tide.slackAwake.filter (· ≠ t.val) }
    else if Tab.get 0 s.tide.darkAt t = 0 then s
    else (s.advance off).wakeTile t off)

/-- TILE_DARK (R76, R77): unless a drover of the tile runs; an access that waits for the tile wakes it again (R78). -/
def execTileDark (t : Fin 16) (off : Nat) (s : State) : Host.Outcome State Fault Refusal :=
  .next (if !s.darkBegins t off || s.tileRuns t || decide (Tab.get 0 s.tide.darkAt t ≠ 0) || s.tide.slackAwake.contains t.val
    then s
    else
      let s := s.advance off
      let s := { s with tide.darkAt := Tab.set 0 s.tide.darkAt t (off + 1) }
      if s.tileWanted t then
        let s := s.wakeTile t off
        { s with tide.slackAwake := t.val :: s.tide.slackAwake }
      else s)

/-- TILE_REDARK (R78): 8 wc after the tile's last granted access, while no drover of it runs (R236). -/
def execTileRedark (t : Fin 16) (off : Nat) (s : State) : Host.Outcome State Fault Refusal :=
  .next (if s.tide.slackAwake.contains t.val && s.plannedDark t off && !s.tileWanted t && !s.tileRuns t
      && decide (Tab.get 0 s.ledger.lastUse t + 8 ≤ s.abs off) then
      let s := s.advance off
      { s with
        tide.slackAwake := s.tide.slackAwake.filter (· ≠ t.val),
        tide.darkAt := Tab.set 0 s.tide.darkAt t (off + 1) }
    else s)

/-- The dark cycles of the tide that ends, of P cycles, for TILE_DARK (R84); a dark tile is dark on into the next. -/
def State.tileTurn (s : State) (p : Nat) : State :=
  let dark t := Tab.get 0 s.tide.darkNow t
    + (if Tab.get 0 s.tide.darkAt t = 0 then 0 else p + 1 - Tab.get 0 s.tide.darkAt t)
  let ts := List.range 16
  { s with
    tide.darkLast := Tab.setList 0 [] 0 (ts.map dark),
    tide.darkNow := [],
    tide.wakeAt := Tab.setList 0 [] 0 (ts.map fun t => Tab.get 0 s.tide.wakeAt t - p),
    tide.darkAt := Tab.setList 0 [] 0 (ts.map fun t => min 1 (Tab.get 0 s.tide.darkAt t)) }

/-- TILE_DARK of a tile (R84). -/
def State.tileDarkWord (s : State) (t : Nat) : Nat := Tab.get 0 s.tide.darkLast t

/-! ### The end of a tide -/

/-- A tide of the active table is complete (R84). -/
def State.countTide (s : State) : State :=
  if s.table.valid then { s with tide.count := satAdd 36 s.tide.count 1 } else s

/-- The end of a running tide, at which its strokes have done what they do in it: SEAL of each link, digests, dark cycles, the ledger's use against that tide's limits (R145). -/
def State.tideEnds (s : State) : State :=
  if s.tideRuns then
    (((List.range 5).foldl (fun (s : State) l => s.sealTurn l) (s.advance s.tideP)).digestClose.tileTurn s.tideP).ledgerTurn.countTide
  else s

end Sys2Proof.Machine
end

