-- ==== Sys2Proof/Machine/Settings.lean ====
section
/-! DEFINITION. How a written value is kept and how it takes effect (R449 to R452, R436, R466, R467). -/

namespace Sys2Proof.Machine

/-! ### MRAM copies (R451) -/

/-- The number of a sub-entry's stored value in copy c: P0 to P3, or 4 for kept entries. -/
def copyKey (c e sub : Nat) : Nat := c * 2 ^ 40 + key e sub

/-- The copy that a write to the row goes to. -/
def State.copyOf (s : State) (r : Row) : Option Nat :=
  match r.per with
  | .vol => none
  | .kept => some 4
  | .prof => some s.upd.selected

/-- The value is stored in MRAM where its class keeps one. -/
def State.storeKept (s : State) (r : Row) (e sub v : Nat) : State :=
  match s.copyOf r with
  | none => s
  | some c => { s with dict.kept := Tab.set (defaultOf e sub) s.dict.kept (copyKey c e sub) v }

/-- A blob value is stored in MRAM where its class keeps one. -/
def State.storeBlob (s : State) (r : Row) (e sub : Nat) (l : List Word) : State :=
  match s.copyOf r with
  | none => s
  | some c => { s with dict.keptBlobs := Tab.set [] s.dict.keptBlobs (copyKey c e sub) l }

/-- The value that copy c holds. -/
def State.keptValue (s : State) (c e sub : Nat) : Nat := Tab.get (defaultOf e sub) s.dict.kept (copyKey c e sub)

/-- Copy c's values with those in force of every entry of a class in their place (R571). -/
def State.copyForce (s : State) (c : Nat) (per : Per) : State :=
  let mine (n : Nat) : Bool := match findRow (n % 2 ^ 40 / 4096) with
    | some (r, _) => decide (r.per = per)
    | none => false
  let keep (n : Nat) : Bool := n / 2 ^ 40 != c
  let kept := (s.dict.settings.filter fun (p : Nat × Nat) => mine p.1).foldl
    (fun (m : Tab Nat) (p : Nat × Nat) => Tab.set (defaultOf (p.1 / 4096) (p.1 % 4096)) m (c * 2 ^ 40 + p.1) p.2)
    (s.dict.kept.filter fun (p : Nat × Nat) => keep p.1)
  let blobs := (s.dict.blobs.filter fun (p : Nat × List Word) => mine p.1).foldl
    (fun (m : Tab (List Word)) (p : Nat × List Word) => Tab.set [] m (c * 2 ^ 40 + p.1) p.2)
    (s.dict.keptBlobs.filter fun (p : Nat × List Word) => keep p.1)
  { s with dict.kept := kept, dict.keptBlobs := blobs }

/-! ### Taking effect (R449) -/

/-- A value comes into force, with what it starts or stops in its unit; a meter whose settings take effect starts with full
buckets (R312). -/
def State.takeForce (s : State) (e sub v : Nat) : State :=
  let was := s.cfg e sub
  let s := s.setCfg e sub v
  if 0x06000 ≤ e ∧ e < 0x07000 then (if (e - 0x06000) % 32 = 0 then s.busEnable ((e - 0x06000) / 32) v else s)
  else match e with
    | 0x00101 => if sub = 0 ∧ was ≠ v then s.endSessions fun x => x.path == 1 else s
    | 0x03100 => s.penEnable sub v
    | 0x05003 => if was = v then s else s.fire 113 sub
    | 0x07000 => { s with sw.configured := s.sw.configured.filter (· ≠ sub) ++ [sub] }
    | 0x07022 | 0x07023 => { s with sw.meters := Tab.set none s.sw.meters sub none }
    | 0x08000 => s.linkEnable sub v
    | 0x0A000 => s.pairEnable
    | 0x0B010 => s.quayEnable v
    | 0x10000 => s.gateEnable sub v
    | _ => s

/-- Tile or channel and address of the word that a point stands in, as FORCE_CHANGE names them (R505). -/
def State.pointAt (s : State) (x : Nat) : Nat × Nat :=
  match mapRun s.image.map x with
  | some r =>
    let a := (r.place x).1
    (lineInst r.upland (a / 4), a)
  | none => (0, 0)

/-- FORCE_CHANGE for each point whose force differs between two lists (R185). -/
def State.forcesChanged (s : State) (a b : List (Nat × Nat)) : State :=
  let pts := ((a.filter fun x => !b.contains x) ++ (b.filter fun x => !a.contains x)).map Prod.fst
  pts.dedup.foldl (fun (s : State) x => s.fire 52 (s.pointAt x).1 (s.pointAt x).2) s

/-- ENABLE of every force whose point is unmapped or WIDE is cleared (R185). -/
def State.clearForces (s : State) : State :=
  let lost (v : Nat) : Bool := bit v 35 && match mapRun s.image.map (fld v 24 0) with | some r => r.kind == 2 | none => true
  (s.dict.settings.filter fun (p : Nat × Nat) => p.1 / 4096 == 0x03010 && lost p.2).foldl
    (fun (s : State) (p : Nat × Nat) => s.setCfg 0x03010 (p.1 % 4096) (fld p.2 34 0)) s

/-- A point map comes into force: a force follows its point, and one whose point is unmapped or WIDE is cleared (R185). -/
def State.mapForce (s : State) (l : List Word) : State := { s with image.map := mapRuns l }.clearForces

/-- A blob value comes into force. -/
def State.takeBlob (s : State) (e sub : Nat) (l : List Word) : State :=
  let s := { s with dict.blobs := Tab.set [] s.dict.blobs (key e sub) l }
  if e = 0x03002 then s.mapForce l else if e = 0x07032 then s.fdbTrim else s

/-! ### Accepting a write (R436, R449) -/

/-- The F_eff of a write to a mirrored entry accepted now (R436). -/
def State.feff (s : State) : Nat := s.time.F + fld (s.cfg 0x0A000) 21 14

/-- A write to a mirrored entry of a formed pair, at its active unit. -/
def State.mirrorsWrite (s : State) (e : Nat) (r : Row) : Bool :=
  mirrored e r && s.pair.state == .active && s.pair.formed

/-- An accepted value is kept, mirrored, and takes effect now or at its turn. -/
def State.accept (s : State) (r : Row) (e sub v : Nat) : State :=
  let s := s.storeKept r e sub v
  let pairs := s.mirrorsWrite e r
  let s := if pairs then s.addItem (dictItem e sub s.feff (valWords r.ty.words v)) else s
  if r.acc = .rwt then
    if pairs then { s with pair.writes := s.pair.writes ++ [(s.feff, key e sub, valWords r.ty.words v)] }
    else { s with dict.pending := s.dict.pending ++ [(key e sub, v)] }
  else s.takeForce e sub v

/-- An accepted blob value likewise. -/
def State.acceptBlob (s : State) (r : Row) (e sub : Nat) (l : List Word) : State :=
  let s := s.storeBlob r e sub l
  let pairs := s.mirrorsWrite e r
  let s := if pairs then s.addItem (dictItem e sub s.feff (l.map BitVec.toNat)) else s
  if r.acc = .rwt then
    if pairs then { s with pair.writes := s.pair.writes ++ [(s.feff, key e sub, l.map BitVec.toNat)] }
    else { s with dict.pendingBlobs := s.dict.pendingBlobs ++ [(key e sub, l)] }
  else s.takeBlob e sub l

/-- A write of a sub-entry waits for its turn (R461). -/
def State.isPending (s : State) (e sub : Nat) : Bool :=
  (s.dict.pending.any fun p => p.1 == key e sub) || (s.dict.pendingBlobs.any fun p => p.1 == key e sub)
  || (s.pair.writes.any fun p => p.2.1 == key e sub)

/-! ### At a turn (R438, R449, R452, R467) -/

/-- A value as a mirrored write carries it comes into force, and is stored where the class keeps one. -/
def State.applyWords (s : State) (n : Nat) (l : List Nat) : State :=
  let e := n / 4096
  let sub := n % 4096
  match findRow e with
  | none => s
  | some (r, _) =>
    if r.ty = .blob then (s.storeBlob r e sub (l.map (BitVec.ofNat 18))).takeBlob e sub (l.map (BitVec.ofNat 18))
    else
      let v := valueOf r.ty (l.map (BitVec.ofNat 18))
      (s.storeKept r e sub v).takeForce e sub v

/-- Writes whose F_eff has come (R436, R438). -/
def State.pairWritesTurn (s : State) : State :=
  let now := s.pair.writes.filter fun p => decide (p.1 ≤ s.time.F)
  now.foldl (fun (s : State) p => s.applyWords p.2.1 p.2.2)
    { s with pair.writes := s.pair.writes.filter fun p => !decide (p.1 ≤ s.time.F) }

/-- RWT writes accepted before the turn, in order (R449). -/
def State.pendingTurn (s : State) : State :=
  let ws := s.dict.pending
  let bs := s.dict.pendingBlobs
  let s := { s with dict.pending := [], dict.pendingBlobs := [] }
  let s := bs.foldl (fun (s : State) p => s.takeBlob (p.1 / 4096) (p.1 % 4096) p.2) s
  ws.foldl (fun (s : State) p => s.takeForce (p.1 / 4096) (p.1 % 4096) p.2) s

/-- RESET_GROUP (R467): every setting of the group takes its default, in force and in the stored copy. -/
def State.resetGroup (s : State) (g : Nat) : State :=
  let mine (n : Nat) : Bool := decide (n % 2 ^ 40 / 2 ^ 24 = g)
  let copy (n : Nat) : Bool := n / 2 ^ 40 == 4 || n / 2 ^ 40 == s.upd.selected
  let ns := (s.dict.settings.filter fun (p : Nat × Nat) => mine p.1).map Prod.fst
  let bs := (s.dict.blobs.filter fun (p : Nat × List Word) => mine p.1).map Prod.fst
  let kept := s.dict.kept.filter fun (p : Nat × Nat) => !(mine p.1 && copy p.1)
  let keptB := s.dict.keptBlobs.filter fun (p : Nat × List Word) => !(mine p.1 && copy p.1)
  let s := { s with dict.kept := kept, dict.keptBlobs := keptB }
  let s := bs.foldl (fun (s : State) n => s.takeBlob (n / 4096) (n % 4096) []) s
  ns.foldl (fun (s : State) n => s.takeForce (n / 4096) (n % 4096) (defaultOf (n / 4096) (n % 4096))) s

/-- Groups whose reset is due. -/
def State.resetTurn (s : State) : State :=
  s.dict.resetAt.foldl (fun (s : State) g => s.resetGroup g) { s with dict.resetAt := [] }

/-- Per-profile values of a copy come into force as RWT writes (R570). -/
def State.profileForce (s : State) (c : Nat) : State :=
  let prof (n : Nat) : Bool := match findRow (n % 2 ^ 40 / 4096) with
    | some (r, _) => decide (r.per = .prof)
    | none => false
  let ns := ((s.dict.settings.filter fun (p : Nat × Nat) => prof p.1).map Prod.fst
    ++ (s.dict.kept.filter fun (p : Nat × Nat) => p.1 / 2 ^ 40 == c && prof p.1).map fun (p : Nat × Nat) => p.1 % 2 ^ 40).dedup
  let bs := ((s.dict.blobs.filter fun (p : Nat × List Word) => prof p.1).map Prod.fst
    ++ (s.dict.keptBlobs.filter fun (p : Nat × List Word) => p.1 / 2 ^ 40 == c && prof p.1).map fun (p : Nat × List Word) => p.1 % 2 ^ 40).dedup
  let s := bs.foldl (fun (s : State) n => s.takeBlob (n / 4096) (n % 4096) (Tab.get [] s.dict.keptBlobs (c * 2 ^ 40 + n))) s
  ns.foldl (fun (s : State) n =>
    let v := s.keptValue c (n / 4096) (n % 4096)
    if v = s.cfg (n / 4096) (n % 4096) then s else s.takeForce (n / 4096) (n % 4096) v) s

end Sys2Proof.Machine
end

