-- ==== Sys2Proof/Machine/Tables.lean ====
section
/-! DEFINITION. The staging half and its commands (R107 to R117), the end of its check (R122 to R129), and the restart of
the shepherd cores (R31). -/

namespace Sys2Proof.Machine

/-- Codes of STAGE. -/
def Stage.code : Stage → Nat
  | .empty => 0 | .loading => 1 | .checking => 2 | .admitted => 3 | .armed => 4 | .committed => 5 | .retiring => 6
  | .refused => 7

/-- The report cleared (R129). -/
def blankReport : List Nat := List.replicate 8 0

/-- Pilot writes its report, in accesses of ledger class PILOT (R126, R137). -/
def State.writeReport (s : State) (l : List Nat) : State := { s.enterWords 7 l.length false with table.report := l }

/-- OUTCOME of PILOT_REPORT set to 1 (R129). -/
def State.reportRuns (s : State) : State := s.writeReport (setFld (s.table.report.getD 0 0) 19 18 1 :: s.table.report.drop 1)

/-- The code of the last report. -/
def State.reportCode (s : State) : Nat := fld (s.table.report.getD 0 0) 35 27

/-- The code of PILOT_ABORTED (R130). -/
def cAborted : Nat := 0x050

/-- The staging half becomes EMPTY; its load stores are free again and no profile's container waits. -/
def State.emptyStaging (s : State) : State :=
  let s := s.setStaging Half.blank
  { s with table.stage := .empty, table.stagingId := 0, table.fromProfile := none, upd.selecting := none }.droveUnstage

/-! ### The swap tide (R112, R113) -/

/-- TABLE_ARM_TIME is 0, or lies at or before the time of the ARM. -/
def State.armPast (s : State) : Bool := s.cfg 0x02022 0 == 0 || decide (timeUnits (s.cfg 0x02022) ≤ s.table.armUnits)

/-- The next tide, starting at units `start` as tide `t` of the counter at the index given, is the swap tide. With no table
active it is the first tide start that TABLE_ARM_TIME allows (R112, R117). -/
def State.swapsAt (s : State) (t start index : Nat) : Bool :=
  if !s.table.valid then s.armPast || decide (timeUnits (s.cfg 0x02022) ≤ start)
  else index == 0
    && (if s.armPast then decide (s.table.armedAt + 2 ≤ t) else decide (timeUnits (s.cfg 0x02022) ≤ start))

/-- The tide after the one that runs is the swap tide of an ARMED half. -/
def State.swapsNext (s : State) : Bool :=
  s.tideRuns
    && s.swapsAt (s.tide.t + 1) (s.time.base + s.tideP * tickPerWc) ((s.tide.index + 1) % max 1 s.tide.spring)

/-- ARM: the half becomes ARMED, or COMMITTED at once in the last tide before the swap tide. -/
def State.arm (s : State) : State :=
  let s := { s with
    table.armedAt := s.tide.t + (if s.tide.off = 0 then 0 else 1), table.armUnits := s.now, table.stage := .armed }
  if s.swapsNext then { s with table.stage := .committed } else s

/-! ### TABLE_CMD (R111) -/

/-- OPEN. -/
def State.openTable (s : State) : State :=
  let s := s.setStaging Half.blank
  { s with table.stage := .loading, table.stagingId := 0, table.report := blankReport, table.fromProfile := none }

def State.tableOpenOp (s : State) : State :=
  match s.table.stage with
  | .empty | .refused => s.openTable
  | _ => s.abort 0x02021 aBadState

def State.tableCheckOp (s : State) : State :=
  if s.table.stage = .loading ∨ (s.table.stage = .refused ∧ s.reportCode = cAborted) then
    { s with table.stage := .checking }.reportRuns
  else s.abort 0x02021 aBadState

def State.tableArmOp (s : State) : State :=
  if s.table.stage = .admitted then s.arm else s.abort 0x02021 aBadState

def State.tableDisarmOp (s : State) : State :=
  if s.table.stage = .armed then { s with table.stage := .admitted } else s.abort 0x02021 aBadState

def State.tableDiscardOp (s : State) : State :=
  match s.table.stage with
  | .loading | .refused | .admitted => s.emptyStaging
  | _ => s.abort 0x02021 aBadState

/-- TABLE_OPEN (R111). -/
def execTableOpen (s : State) : Host.Outcome State Fault Refusal := .next s.tableOpenOp
/-- TABLE_CHECK (R111, R122, R127); it waits for the shepherd cores (R30). -/
def execTableCheck (s : State) : Host.Outcome State Fault Refusal := .next (s.byShepherd State.tableCheckOp)
/-- TABLE_ARM (R112). -/
def execTableArm (s : State) : Host.Outcome State Fault Refusal := .next s.tableArmOp
/-- TABLE_DISARM (R113). -/
def execTableDisarm (s : State) : Host.Outcome State Fault Refusal := .next s.tableDisarmOp
/-- TABLE_DISCARD (R111). -/
def execTableDiscard (s : State) : Host.Outcome State Fault Refusal := .next s.tableDiscardOp

/-! ### The end of a check (R122, R123, R129, R570) -/

/-- A half that passed steps 1 to 9 is unpacked; its drover programs go to the load stores. -/
def State.unpackHalf (s : State) (h : Half) : State :=
  let u := h.unpack
  let s := s.setStaging u
  match u.sects.find? (·.1 == 5) with
  | some p => s.droveStage p.2
  | none => s

/-- The half is refused; PILOT_REFUSED fires. -/
def State.refuseHalf (s : State) (f : PFail) (id elapsed : Nat) : State :=
  { s.writeReport (f.report elapsed) with
    table.stage := .refused, table.stagingId := if 6 ≤ f.step then id else 0, upd.selecting := none }.fire 16 0

/-- The records of a half's DICT_SETTINGS of one access class come into force, each as one write (R452). -/
def State.applySettings (s : State) (h : Half) (acc : Acc) : State :=
  ((settingsOf (h.secD 9)).getD []).foldl (fun (s : State) r =>
    match findRow r.entry with
    | some (row, _) => if row.acc = acc then s.applyWords (key r.entry r.sub) (r.value.map BitVec.toNat) else s
    | none => s) s

/-- A half that a profile brought is armed with TABLE_ARM_TIME 0; outside FULL its RWS settings come into force. -/
def State.armProfile (s : State) : State :=
  let s := if s.power.state = .full then s else s.applySettings s.stagingHalf .rws
  (s.setCfg 0x02022 0 0).arm

/-- The half is admitted; one that SELECT brought is armed. -/
def State.admitHalf (s : State) (id elapsed : Nat) : State :=
  let s := { s.writeReport (admittedReport elapsed) with table.stage := .admitted, table.stagingId := id }
  if s.upd.selecting.isSome then s.armProfile else s

/-- The check ends. -/
def State.checkEnds (s : State) (elapsed : Nat) : State :=
  let h := s.stagingHalf
  let r := s.checkTable h
  let s := s.signCount h
  let s := match r with
    | some f => if f.step < 10 then s else s.unpackHalf h
    | none => s.unpackHalf h
  match r with
  | some f => s.refuseHalf f h.cImageId elapsed
  | none => s.admitHalf h.cImageId elapsed

/-- TABLE_CHECK_DONE. -/
def execTableCheckDone (elapsed : Nat) (s : State) : Host.Outcome State Fault Refusal :=
  .next (s.byShepherd fun (s : State) => if s.table.stage = .checking then s.checkEnds elapsed else s)

/-- What an aborted check had reached: a step of R122, in step 10 a pass, and the time taken. None of them is known here; a
check that would have failed had reached no further than its failure. -/
def State.reached (s : State) (v : Nat) : PFail :=
  match s.steps1to9 s.stagingHalf with
  | some f => { code := cAborted, step := 1 + v % f.step }
  | none =>
    let n := match s.pilot s.stagingHalf.unpack with
      | some f => f.pass
      | none => 6
    let step := 1 + v % 10
    let p := if step = 10 then 1 + v / 16 % n else 0
    { code := cAborted, step := step, pass := p, found := p }

/-- PILOT_ABORTED (R127). -/
def State.abortCheck (s : State) : State :=
  if s.table.stage = .checking then
    let h := s.stagingHalf
    let (s, v) := s.draw
    let (s, t) := s.draw
    let f := s.reached v
    let s := if f.step < 10 then s else s.unpackHalf h
    s.refuseHalf f h.cImageId t
  else s

/-! ### The shepherd cores restart alone (R31) -/

/-- Sessions, requests and queues. -/
def State.dropClients (s : State) : State :=
  let s := s.endSessions fun _ => true
  { s with
    dict.subs := [], dict.openBlobs := [], dict.waiting := [], dict.nonces := [],
    host.req := s.host.req.flush, host.rsp := s.host.rsp.flush, svc.req := [] }

/-- Fold operations not yet in service are dropped. -/
def State.dropWaiting (s : State) : State := { s with fold.engine := s.fold.engine.take 1 }

/-- An update check starts over from RECEIVING (R562). -/
def State.updateRestart (s : State) : State :=
  if s.upd.state = .checking then { s with upd.state := .receiving } else s

/-- An epoch not committed at the standby is discarded; the active resumes from its last acknowledged epoch (R437, R438). -/
def State.mirrorPause (s : State) : State := { s with pair.rx := [], pair.rxSeq := s.pair.committed }

/-- SHEPHERD_WATCHDOG (R31, R127). -/
def execShepherdWatchdog (core : Fin 4) (s : State) : Host.Outcome State Fault Refusal :=
  .next ((((((s.fire 4 core).dropClients).abortCheck).updateRestart).dropWaiting).mirrorPause |> fun (s : State) =>
    { s with dict.shepherds := false })

/-- SHEPHERD_RESTART_DONE (R31): the cores run again, and mirroring resumes. -/
def execShepherdRestartDone (s : State) : Host.Outcome State Fault Refusal :=
  .next (if s.dict.shepherds then s else { s with dict.shepherds := true }.mirrorResume)

/-! ### Entries (R117) -/

/-- TABLE_STATE. -/
def State.tableStateWord (s : State) : Nat := put 2 3 s.table.stage.code + putB 1 s.table.active + putB 0 s.table.valid

/-- GENERATION. -/
def State.generationWord (s : State) : Nat := putB 2 (s.table.valid && s.tide.first) + s.tide.t % 4

end Sys2Proof.Machine
end

