-- ==== Sys2Proof/Machine/Update.lean ====
section
/-! DEFINITION. Firmware update and profiles (chapter 20), but for what a start does. -/

namespace Sys2Proof.Machine

/-! ### Block frames (R554, R555, R560) -/

/-- INDEX of a frame. -/
def frameIndex (w : List Nat) : Nat := fld (w.getD 0 0) 9 0

/-- The CRC of a frame holds. -/
def frameCrc (w : List Nat) : Bool :=
  let hi := w.getD 513 0
  let lo := w.getD 514 0
  decide (hi < 65536) && decide (lo < 65536) && hi * 65536 + lo == crcWords (w.take 513)

/-- Data word i of a header. -/
def hdr (d : List Nat) (i : Nat) : Nat := d.getD i 0

/-- A header with every reserved field 0 (R555). -/
def headerPlain (d : List Nat) : Bool :=
  fld (hdr d 4) 15 4 == 0 && fld (hdr d 9) 15 8 == 0
  && (List.range 17).all (fun g => fld (hdr d (10 + g)) 15 8 == 0)
  && (List.range 5).all (fun i => hdr d (27 + i) == 0) && (d.drop 128).all (· == 0)

/-- What step 3 of R560 finds in a header, as a CAUSE; 0 for nothing. -/
def State.headerCause (s : State) (d : List Nat) : Nat :=
  if hdr d 0 ≠ 0x05F1A ∨ hdr d 1 ≠ 1 then 3
  else if hdr d 2 ≠ 0x00400 then 4
  else if hdr d 3 ≠ 0x01100 then 5
  else if !(hdr d 4).testBit s.fold.lifecycle then 6
  else if hdr d 7 < s.upd.svn then 7
  else if hdr d 8 < 2 ∨ 1024 < hdr d 8 then 8
  else if headerPlain d then 0
  else 9

/-- The header held in staging, and its BLOCKS. -/
def State.stagedHeader (s : State) : List Nat := Tab.get [] s.upd.blocks 0
def State.stagedBlocks (s : State) : Nat := hdr s.stagedHeader 8

/-- What R560 finds in a frame, as a CAUSE; 0 for nothing. -/
def State.frameCause (s : State) (w : List Nat) : Nat :=
  let d := (w.drop 1).take 512
  if fld (w.getD 0 0) 17 10 ≠ 0 ∨ (d.any fun x => decide (65536 ≤ x)) = true then 1
  else if !frameCrc w then 2
  else if frameIndex w = 0 then s.headerCause d
  else if s.upd.state = .receiving ∧ s.stagedBlocks ≤ frameIndex w then 10
  else 0

/-! ### Arrival (R557 to R560) -/

/-- A refused frame (R560). -/
def State.refuseFrame (s : State) (cause : Nat) (header : Bool) : State :=
  let s := { s.bump 0x0F009 1 with upd.cause := cause }
  if header then (s.bump 0x0F009 3).fire 320 0 else s

/-- A block of staging replaced. -/
def State.storeBlock (s : State) (i : Nat) (d : List Nat) : State :=
  { s.bump 0x0F009 0 with upd.blocks := Tab.set [] s.upd.blocks i d }

/-- A frame that passes R560 meets the state of staging (R559). -/
def State.takeBlock (s : State) (w : List Nat) : State × Nat :=
  let d := (w.drop 1).take 512
  let i := frameIndex w
  match s.upd.state with
  | .empty => if i = 0 then ({ s.storeBlock 0 d with upd.state := .receiving }, 0) else (s, aBadState)
  | .receiving =>
    if i ≠ 0 then (s.storeBlock i d, 0)
    else if d = s.stagedHeader then (s.bump 0x0F009 2, 0)
    else (s, aBadState)
  | _ => (s, aBadState)

/-- A block frame: the state after it and the abort code of a dictionary path. -/
def State.frameIn (s : State) (w : List Nat) : State × Nat :=
  match s.upd.state with
  | .empty | .receiving =>
    let c := s.frameCause w
    if c = 0 then s.takeBlock w else (s.refuseFrame c (frameIndex w == 0), aBadValue)
  | _ => (s, aBadState)

/-- The value of UPDATE_BLOCK (R558). -/
def State.blockOp (s : State) (w : List Nat) : State × Nat := if w.length = 515 then s.frameIn w else (s, aBadLength)

/-- UPDATE_BLOCK. -/
def execUpdateBlock (frame : List Word) (s : State) : Host.Outcome State Fault Refusal :=
  let (s, c) := s.blockOp (frame.map BitVec.toNat)
  .next (if c = 0 then s else s.abort 0x0F001 c)

/-- The frames of an IMAGE_WRITE packet; one that its state does not take counts (R559). -/
def State.imageFrames (s : State) (words : List Nat) : Nat → State
  | 0 => s
  | k + 1 =>
    let (s, c) := s.frameIn (words.take 515)
    let s := if c = aBadState then s.bump 0x0F009 1 else s
    s.imageFrames (words.drop 515) k

/-- IMAGE_WRITE (R489, R557). -/
def execImageWrite (words : List Word) (e : SvcEnd) (s : State) : Host.Outcome State Fault Refusal :=
  .next (if !s.svcOpen then s
    else if words.length = 0 ∨ 4608 < words.length then (s.svcMiso []).svcDrop
    else
      let n := words.length / 515
      let s := (s.svcMiso (List.replicate words.length 0x1FFFF)).svcEnd e
      if !e.whole then s
      else if words.length % 515 ≠ 0 ∨ 8 < n then s.bump 0x0F009 1
      else (s.bump 0x0B020 0).imageFrames (words.map BitVec.toNat) n)

/-! ### UPDATE_CMD (R559 to R563) -/

/-- The hub runs firmware: its active region is good (R566), and it is not SCRAPPED (R547). -/
def State.firmware (s : State) : Bool := s.upd.good && s.fold.lifecycle != 4

/-- Blocks held. -/
def State.heldBlocks (s : State) : Nat := s.upd.blocks.length

/-- DISCARD. -/
def State.updateDiscardOp (s : State) : State × Nat :=
  match s.upd.state with
  | .receiving | .verified | .refused =>
    ({ s with upd.state := .empty, upd.blocks := [], upd.deferred := false }, 0)
  | _ => (s, aBadState)

/-- CHECK; its answer comes with the check's end (R561). -/
def State.updateCheckOp (s : State) : State × Nat :=
  if s.upd.state = .receiving ∧ s.heldBlocks = s.stagedBlocks then ({ s with upd.state := .checking }, 0) else (s, aBadState)

/-- SCHEDULE takes ACT_AT and ACT_ID as they stand (R559, R563). -/
def State.scheduleOp (s : State) : State × Nat :=
  if s.upd.state = .verified then
    let t := timeUnits (s.cfg 0x0F004)
    ({ s with
      upd.state := .scheduled, upd.deferred := false, upd.actAt := t, upd.actId := s.cfg 0x0F005,
      upd.actNow := t == 0 || decide (t ≤ s.now),
      upd.actWait := if s.tableRuns then (if s.tide.off = 0 then 2 else 3) else 0 }, 0)
  else (s, aBadState)

/-- UNSCHEDULE. -/
def State.unscheduleOp (s : State) (id : Nat) : State × Nat :=
  if s.upd.state ≠ .scheduled then (s, aBadState)
  else if id ≠ s.upd.actId then (s, aBadValue)
  else ({ s with upd.state := .verified, upd.deferred := false }, 0)

/-- A command's effect, with its abort. -/
def State.cmdEnd (p : State × Nat) (entry : Nat) : State := if p.2 = 0 then p.1 else p.1.abort entry p.2

/-- UPDATE_DISCARD. -/
def execUpdateDiscard (s : State) : Host.Outcome State Fault Refusal := .next (State.cmdEnd s.updateDiscardOp 0x0F003)
/-- UPDATE_CHECK; it waits for the shepherd cores (R30). -/
def execUpdateCheck (s : State) : Host.Outcome State Fault Refusal :=
  .next (s.byShepherd fun (s : State) => State.cmdEnd s.updateCheckOp 0x0F003)
/-- SCHEDULE. -/
def execSchedule (s : State) : Host.Outcome State Fault Refusal := .next (State.cmdEnd s.scheduleOp 0x0F003)
/-- UNSCHEDULE. -/
def execUnschedule (id : Nat) (s : State) : Host.Outcome State Fault Refusal := .next (State.cmdEnd (s.unscheduleOp id) 0x0F003)

/-- The data words that R556 signs: the header with its point and signature taken as 0, then the other blocks. -/
def signedData (blocks : Tab (List Nat)) : List Nat :=
  let d := Tab.get [] blocks 0
  d.take 32 ++ List.replicate 96 0 ++ d.drop 128
    ++ (List.range (hdr d 8 - 1)).flatMap fun i => Tab.get [] blocks (i + 1)

/-- The signature of R556 verifies under H0. -/
def imageSigned (blocks : Tab (List Nat)) : Bool :=
  let d := Tab.get [] blocks 0
  let point := (d.drop 32).take 48
  Config.sha384 (bytes16 point) == Config.otpHash0
    && Config.ecdsaVerify (big16 point) (Config.sha384 ((signedData blocks).flatMap wordBytes)) (big16 ((d.drop 80).take 48))

/-- The CHECK that waits is answered (R561). -/
def State.checkAnswer (s : State) (abort : Nat) : State :=
  let mine (q : OpenReq) : Bool := q.relay == 0 && q.msg.entry == 0x0F003
  let l := s.dict.waiting.filter mine
  let s := { s with dict.waiting := s.dict.waiting.filter fun q => !mine q }
  if l = [] then (if abort = 0 then s else s.abort 0x0F003 abort)
  else l.foldl (fun (s : State) q =>
    let h : Head := { resp := true, op := q.op, session := q.msg.session, tag := q.msg.tag, target := q.msg.target,
                      unit := q.msg.unit, entry := q.msg.entry, sub := q.msg.sub, abort := abort, count := q.msg.count,
                      pend := false, dflt := false }
    s.respond q.path q.source h []) s

/-- UPDATE_CHECK_DONE (R561): a key operation of the Fold. -/
def execUpdateCheckDone (s : State) : Host.Outcome State Fault Refusal :=
  .next (if s.upd.state ≠ .checking then s
    else if s.foldReady && imageSigned s.upd.blocks then
      ({ s.foldGrant with upd.state := .verified }).checkAnswer 0
    else
      let s := (s.foldRefuse).bump 0x0F009 4
      ({ s with upd.state := .refused, upd.cause := 63 }.fire 320 0).checkAnswer aRefused)

/-! ### Profiles (R568 to R572) -/

/-- A profile that holds nothing. -/
def Profile.none : Profile := { state := 0, pformat := 0, container := [], imageId := 0 }

/-- Profile n. -/
def State.profile (s : State) (n : Nat) : Profile := Tab.get Profile.none s.upd.profiles n

/-- A profile replaced. -/
def State.setProfile (s : State) (n : Nat) (x : Profile) : State :=
  { s with upd.profiles := Tab.set Profile.none s.upd.profiles n x }

/-- The selected profile is STALE: per-profile writes are refused (R572). -/
def State.noProfile (s : State) : Bool := (s.profile s.upd.selected).state == 2

/-- Every RWS value of profile n equals the value in force (R570). -/
def State.sameRws (s : State) (n : Nat) : Bool :=
  let rws (k : Nat) : Bool := match findRow (k % 2 ^ 40 / 4096) with
    | some (r, _) => decide (r.per = .prof) && decide (r.acc = .rws)
    | none => false
  ((s.dict.kept.filter fun (p : Nat × Nat) => p.1 / 2 ^ 40 == n && rws p.1).all fun (p : Nat × Nat) =>
      s.cfg (p.1 % 2 ^ 40 / 4096) (p.1 % 4096) == p.2)
  && ((s.dict.settings.filter fun (p : Nat × Nat) => rws p.1).all fun (p : Nat × Nat) =>
      s.keptValue n (p.1 / 4096) (p.1 % 4096) == p.2)
  && ((s.dict.keptBlobs.filter fun (p : Nat × List Word) => p.1 / 2 ^ 40 == n && rws p.1).all fun (p : Nat × List Word) =>
      Tab.get [] s.dict.blobs (p.1 % 2 ^ 40) == p.2)
  && ((s.dict.blobs.filter fun (p : Nat × List Word) => rws p.1).all fun (p : Nat × List Word) =>
      Tab.get [] s.dict.keptBlobs (n * 2 ^ 40 + p.1) == p.2)

/-- A stored container goes to the load window of an opened staging half, and its check begins (R569, R570). -/
def State.loadProfile (s : State) (n : Nat) : State :=
  let s := s.openTable
  let s := s.setStaging { s.stagingHalf with load := Tab.setList 0 [] 0 (s.profile n).container }
  { s with table.stage := .checking, table.fromProfile := some n }.reportRuns

/-- SELECT (R570). -/
def State.selectOp (s : State) (n : Nat) : State × Nat :=
  if s.upd.busy.isNone ∧ (s.profile n).state = 1 ∧ s.table.stage = .empty ∧ (s.power.state ≠ .full ∨ s.sameRws n = true) then
    ({ s.loadProfile n with upd.selecting := some n }, 0)
  else (s, aBadState)

/-- The words of a half's container. -/
def Half.container (h : Half) : List Word := Tab.range 0 h.load 0 h.cLength

/-- STORE and STORE_STAGING of a half (R571). -/
def State.storeHalf (s : State) (n : Nat) (h : Half) : State × Nat :=
  if h.cLength ≤ 393216 then
    ({ s with upd.busy := some (n, { state := 1, pformat := s.upd.pformat, container := h.container, imageId := h.imageId }) }, 0)
  else (s, aBadState)

def State.storeOp (s : State) (n : Nat) : State × Nat :=
  if s.upd.busy.isNone ∧ s.table.valid = true then s.storeHalf n s.activeHalf else (s, aBadState)

def State.storeStagingOp (s : State) (n : Nat) : State × Nat :=
  if s.upd.busy.isNone ∧ s.table.stage = .admitted then s.storeHalf n s.stagingHalf else (s, aBadState)

/-- ERASE (R571). -/
def State.eraseOp (s : State) (n : Nat) : State × Nat :=
  if s.upd.busy.isNone ∧ n ≠ s.upd.selected then ({ s with upd.busy := some (n, Profile.none) }, 0) else (s, aBadState)

/-- PROFILE_SELECT. -/
def execProfileSelect (n : Fin 4) (s : State) : Host.Outcome State Fault Refusal := .next (State.cmdEnd (s.selectOp n) 0x0F012)
/-- PROFILE_STORE. -/
def execProfileStore (n : Fin 4) (s : State) : Host.Outcome State Fault Refusal := .next (State.cmdEnd (s.storeOp n) 0x0F012)
/-- STORE_STAGING. -/
def execStoreStaging (n : Fin 4) (s : State) : Host.Outcome State Fault Refusal :=
  .next (State.cmdEnd (s.storeStagingOp n) 0x0F012)
/-- PROFILE_ERASE. -/
def execProfileErase (n : Fin 4) (s : State) : Host.Outcome State Fault Refusal := .next (State.cmdEnd (s.eraseOp n) 0x0F012)

/-- The values of a copy are cleared. -/
def State.clearCopy (s : State) (n : Nat) : State :=
  { s with
    dict.kept := s.dict.kept.filter fun (p : Nat × Nat) => p.1 / 2 ^ 40 != n,
    dict.keptBlobs := s.dict.keptBlobs.filter fun (p : Nat × List Word) => p.1 / 2 ^ 40 != n }

/-- PROFILE_COMMAND_DONE (R571): a store takes the per-profile values then in force. -/
def execProfileCommandDone (s : State) : Host.Outcome State Fault Refusal :=
  .next (match s.upd.busy with
    | none => s
    | some (n, x) =>
      let s := { s.setProfile n x with upd.busy := none }
      if x.state = 1 then s.copyForce n .prof else s.clearCopy n)

/-! ### Activation at a boundary (R563, R564) -/

/-- The partner record has been 0 without a break for DEFER_LIMIT. -/
def State.partnerGone (s : State) : Bool :=
  s.pair.record == 0 && decide (1000 * fld (s.cfg 0x0F006) 11 0 ≤ s.bell.tick - s.pair.zeroSince)

/-- The unit defers its activation: it is ACTIVE in a pair whose partner is not gone. -/
def State.defers (s : State) : Bool := s.pair.state == .active && !s.partnerGone

/-- An activation is due at a boundary whose start is `start` units. -/
def State.activationDue (s : State) (start : Nat) : Bool :=
  s.upd.state == .scheduled && (s.upd.deferred || (if s.upd.actNow then s.upd.actWait == 0 else decide (s.upd.actAt ≤ start)))

/-! ### Entries (R575) -/

def UState.code : UState → Nat
  | .empty => 0 | .receiving => 1 | .checking => 2 | .verified => 3 | .scheduled => 4 | .activating => 5 | .refused => 6

/-- Lowest index not held. -/
def State.nextMissing (s : State) : Nat :=
  if s.upd.state = .empty then 0
  else ((List.range s.stagedBlocks).find? fun i => (Tab.get [] s.upd.blocks i) == []).getD s.stagedBlocks

/-- UPDATE_STATE. -/
def State.updateStateWord (s : State) : Nat :=
  put 33 3 s.upd.state.code + putB 32 s.upd.deferred + put 26 6 s.upd.cause + put 15 11 s.heldBlocks + put 4 11 s.nextMissing

/-- UPDATE_HELD. -/
def State.heldWords (s : State) : List Nat :=
  (List.range 64).map fun j => ((List.range 16).map fun k => putB k (Tab.get [] s.upd.blocks (16 * j + k) != [])).sum

/-- UPDATE_HEADER. -/
def State.updateHeaderWord (s : State) (k : Nat) : Nat :=
  if s.upd.state = .empty then 0
  else
    let d := s.stagedHeader
    match k with
    | 0 => put 20 16 (hdr d 5) + put 4 16 (hdr d 6)
    | 1 => put 20 16 (hdr d 7) + put 9 11 (hdr d 8)
    | _ => put 28 8 (hdr d 9)

/-- PROFILE_STATE. -/
def State.profileWord (s : State) (n : Nat) : Nat :=
  let x := s.profile n
  let st := if s.upd.busy.any (fun p => p.1 == n) then 3 else x.state
  put 34 2 st + putB 33 (s.upd.selected == n) + put 25 8 x.pformat + put 6 19 x.container.length

end Sys2Proof.Machine
end

