-- ==== Sys2Proof/Machine/Power.lean ====
section
/-! DEFINITION. Supplies, clocks, power states and starts (chapter 22), with the firmware copy, the profile and the format
reset of a start (R466, R565 to R572). -/

namespace Sys2Proof.Machine

/-- The WAKE marker (R520): quality HELD, to the retained tail alone. -/
def State.wakeMarker (s : State) : State :=
  s.traceTail (s.markerWords 5 (put 12 2 s.muster.wakeCause + put 10 2 s.muster.wakeLink) qHeld [])

/-! ### What a start reads from MRAM -/

/-- The profile selected at a start (R569): PROFILE_SEL with OVERRIDE, else PSEL. -/
def State.startProfile (s : State) (straps : Nat) : Nat :=
  let v := s.keptValue 4 0x0F011 0
  if bit v 2 then fld v 1 0 else straps % 4

/-- The values of a copy without their copy number. -/
def copyValues (m : Tab α) (c : Nat) : Tab α :=
  (m.filter fun (p : Nat × α) => p.1 / 2 ^ 40 == c).map fun (p : Nat × α) => (p.1 % 2 ^ 40, p.2)

/-- Settings at a start (R451): the kept copy and the selected profile's, every volatile entry at its default. -/
def State.startValues (s : State) (n : Nat) : State :=
  let vals := (copyValues s.dict.kept n).foldl (fun (m : Tab Nat) (p : Nat × Nat) =>
    Tab.set (defaultOf (p.1 / 4096) (p.1 % 4096)) m p.1 p.2) (copyValues s.dict.kept 4)
  let blobs := (copyValues s.dict.keptBlobs n).foldl (fun (m : Tab (List Word)) (p : Nat × List Word) => Tab.set [] m p.1 p.2)
    (copyValues s.dict.keptBlobs 4)
  { s with dict.settings := vals, dict.blobs := blobs, image.map := mapRuns (Tab.get [] blobs (key 0x03002 0)), upd.selected := n }

/-- One group whose format version differs from the firmware's (R466). -/
def State.formatGroup (s : State) (g : Nat) : State :=
  let new := s.upd.gformats.getD g 0
  let old := Tab.get 0 s.dict.format g
  if old = new then s
  else
    let mine (n : Nat) : Bool := n % 2 ^ 40 / 2 ^ 24 == g
    { s with
      dict.kept := s.dict.kept.filter fun (p : Nat × Nat) => !mine p.1,
      dict.keptBlobs := s.dict.keptBlobs.filter fun (p : Nat × List Word) => !mine p.1,
      dict.format := Tab.set 0 s.dict.format g new,
      dict.defaulted := if s.dict.defaulted.contains g then s.dict.defaulted else s.dict.defaulted ++ [g]
      }.fire 273 g (put 8 8 old + put 0 8 new)

/-- Every group (R466). -/
def State.formats (s : State) : State := (List.range 17).foldl (fun (s : State) g => s.formatGroup g) s

/-- A profile of another format becomes STALE (R572). -/
def State.staleProfile (s : State) (n : Nat) : State :=
  let x := s.profile n
  if x.state = 1 ∧ x.pformat ≠ s.upd.pformat then (s.setProfile n { x with state := 2 }).fire 322 n else s

/-- Every profile (R572). -/
def State.staleProfiles (s : State) : State := (List.range 4).foldl (fun (s : State) n => s.staleProfile n) s

/-! ### The boot ROM's copy (R565 to R567) -/

/-- A start copies the staged image: one whose activation has begun, one staged for firmware that fails its check, or one
whose moment came while no tide ran (R563, R566). -/
def State.copies (s : State) : Bool :=
  s.upd.state == .activating || (!s.upd.good && s.upd.state == .verified)
    || (s.upd.state == .scheduled && !s.upd.deferred && s.upd.actNow && s.upd.actWait == 0)

/-- The staged image passes steps 1 to 3 of R565. -/
def State.stagedGood (s : State) : Bool := s.headerCause s.stagedHeader == 0 && imageSigned s.upd.blocks

/-- The active firmware after the copy. -/
def State.takeFirmware (s : State) : State :=
  let d := s.stagedHeader
  { s with upd := { s.upd with
      state := .empty, deferred := false, blocks := [], actWait := 0, good := true,
      version := put 20 16 (hdr d 5) + put 4 16 (hdr d 6), svn := hdr d 7, pformat := fld (hdr d 9) 7 0,
      gformats := (List.range 17).map fun g => fld (hdr d (10 + g)) 7 0 } }

/-- UPDATE_ACTIVATED and its count, or the refusal of an image that no longer passes. -/
def State.copyFires (s : State) (old : Nat) (copied passed : Bool) : State :=
  if !copied then s
  else if passed then (s.bump 0x0F009 5).fire 321 0 old
  else ({ s with upd.state := .refused, upd.cause := 63 }.bump 0x0F009 4).fire 320 0

/-! ### Units at a start -/

/-- What the settings start in their units: pens, channels, the bridge and the pair. -/
def State.startUnits (s : State) : State :=
  let s := s.dict.settings.foldl (fun (s : State) (p : Nat × Nat) =>
    let e := p.1 / 4096
    if e = 0x03100 then s.penEnable (p.1 % 4096) p.2
    else if 0x06000 ≤ e ∧ e < 0x07000 ∧ (e - 0x06000) % 32 = 0 then s.busEnable ((e - 0x06000) / 32) p.2
    else s) s
  (s.quayEnable (s.cfg 0x0B010)).pairEnable

/-- A pair unit joins with CONFIRM_WAIT after an activation or a profile change (R441). -/
def State.confirmJoin (s : State) : State :=
  if s.paired then { s.setClaim 0 with pair.state := .joining, pair.confirmWait := true } else s

/-- Entry to FULL (R604): links train, and ports take their settings at the next turn. -/
def State.enterFull (s : State) : State :=
  let s := { s with power.previous := s.power.state, power.state := .full,
                    sw.configured := (List.range 49).filter fun p => bit (s.portCfg p) 35 }
  (List.range 5).foldl (fun (s : State) l => if bit (s.cfg 0x08000 l) 35 then s.linkEnable l (s.cfg 0x08000 l) else s) s

/-- The end of a start (R604): FULL where START_FULL is 1 and firmware runs. -/
def State.endStart (s : State) : State :=
  if s.firmware && bit (s.cfg 0x01001) 35 then s.enterFull else s

/-- The selected profile's container where no table is kept (R569): checked, and armed when admitted. -/
def State.startTable (s : State) : State :=
  let n := s.upd.selected
  if s.table.valid ∨ s.firmware = false ∨ (s.profile n).state ≠ 1 then s
  else
    let (s, t) := (s.loadProfile n).draw
    let s := s.checkEnds t
    if s.table.stage = .admitted then s.armProfile else s

/-! ### Records of a start (R185, R254, R509 to R511, R596) -/

/-- The Tally begins its next block and writes the START record, which START_LOG repeats. -/
def State.startLogs (s : State) (cause source : Nat) : State :=
  let s := s.beginBlock (nextBlock s.tally.retired s.tally.block)
  let s := s.startRecord cause s.power.order (put 12 6 source)
  { s with power.startLog := put 33 3 cause + put 27 6 source + put 9 18 s.power.order }

/-- Forced points and forced pins of the state before a restart that drops them: one record of each, and the change of each
force fires (R185, R254). -/
def State.forcedLists (s before : State) : State :=
  let pts := before.forces.map Prod.fst
  let pins := (before.dict.settings.filter fun (p : Nat × Nat) => p.1 / 4096 == 0x05003).map fun p => p.1 % 4096
  let s := if pts = [] then s else s.listRecord 1 (pts.map words36)
  let s := if pins = [] then s else s.listRecord 2 (pins.map fun p => [p])
  let s := pts.foldl (fun (s : State) x => s.fire 52 (before.pointAt x).1 (before.pointAt x).2) s
  pins.foldl (fun (s : State) p => s.fire 113 p) s

/-- Firings that wait for the start: POWER_ORDER with its supply, PLL_LOCK. -/
def State.startFirings (s : State) (source : Nat) : State :=
  let s := if s.power.breach then s.fire 353 (fld s.power.order 15 10) else s
  let s := { s with power.breach := false, power.order := 0 }
  if source = 11 then s.fire 368 0 else s

/-! ### Cold start and exit from DEEP KEEP (R608, R609) -/

/-- The Tally over a cold start (R509, R515). -/
def TallySt.cold (x : TallySt) : TallySt :=
  { TallySt.reset with
    mram := x.mram, bad := x.bad, block := x.block, word := x.word, seq := x.seq, retired := x.retired, lastAt := x.lastAt,
    backlog := [], last := none, storedHours := x.storedHours, ophours := x.storedHours, cycles := satAdd 18 x.cycles 1 }

/-- The update state over any restart: a check starts over, a store is forgotten (R562, R571). -/
def UpdateSt.restart (x : UpdateSt) : UpdateSt :=
  { x with state := if x.state = .checking then .receiving else x.state, selecting := none, busy := none }

/-- The dictionary over any restart: MRAM, formats, straps, and the nonces that the Fold keeps (R525, R609). -/
def DictSt.restart (x : DictSt) (straps : Nat) : DictSt :=
  { DictSt.reset with
    kept := x.kept, keptBlobs := x.keptBlobs, format := x.format, defaulted := x.defaulted, straps := straps, nonces := x.nonces }

/-- What only MRAM, OTP, the Fold and the shore keep. -/
def State.coldBase (s : State) (straps : Nat) : State :=
  { State.reset with
    pending := s.pending, outbox := s.outbox, freeAt := s.freeAt,
    fold := s.fold, gate := s.gate,
    pin := { PinSt.reset with filt := s.pin.filt, vio := s.pin.vio, out := s.pin.out },
    ring := { RingSt.reset with links := [] },
    dict := s.dict.restart straps,
    tally := s.tally.cold,
    upd := s.upd.restart,
    bell := { BellSt.reset with tick := s.bell.tick },
    power := { s.power with
      state := .light, previous := s.power.state, inReset := false, source := 0, workLock := true, refOk := true,
      losses := 0, peak := s.power.junction, request := 0, resetLow := false } }

/-- The muster record and the grid (R387, R396), which DEEP KEEP keeps, with fabric time as the shore counts it. -/
def State.keepRecord (s before : State) : State :=
  { s with
    muster := { MusterSt.reset with
      record := before.muster.record, epoch := before.muster.epoch, highest := before.muster.highest,
      role := before.muster.role, masterClaimw := before.muster.masterClaimw, masterKnown := before.muster.masterKnown,
      roster := before.muster.roster, west := before.muster.west, rosterTick := before.muster.rosterTick,
      wakeActive := before.muster.wakeActive, wakeCause := before.muster.wakeCause, wakeLink := before.muster.wakeLink,
      wakes := before.muster.wakes },
    time := { TimeSt.reset with
      base := before.time.base, F := before.time.F, gridP := before.time.gridP, anchorF := before.time.anchorF,
      anchorT := before.time.anchorT, highest := before.time.highest,
      state := before.time.state, everSynced := before.time.everSynced, errBase := before.errGrown,
      errPpb := before.holdPpb, errTick := before.bell.tick },
    ring.links := before.ring.links.map fun (p : Nat × RLink) =>
      (p.1, { RLink.blank with dValid := p.2.dValid, d := p.2.d, raw := p.2.raw, phase := p.2.phase, phaseValid := p.2.phaseValid }) }

/-- The shore waits for a crystal that had failed, and starts on its own oscillator where it stays away (R600). -/
def State.xtalStart (s : State) : State :=
  if s.power.xtalOk then s
  else
    let (s, v) := s.draw
    { s with power.xtalOk := decide (v % 2 = 1) }

/-- The rest of a cold start, from the base on. -/
def State.coldFrom (b before : State) (straps cause source : Nat) : State :=
  let b := b.xtalStart
  let copied := b.copies
  let passed := copied && b.stagedGood
  let old := b.upd.version
  let b := if passed then b.takeFirmware else b
  let b := (b.startLogs cause source).startFirings source
  let b := b.foldStart
  let b := if before.power.state = .dark ∨ before.power.state = .deepKeep then b else b.forcedLists before
  let b := (b.copyFires old copied passed).formats.staleProfiles
  let b := (b.startValues (b.startProfile straps)).gatesCold.startUnits
  let b := if passed then b.confirmJoin else b
  b.startTable.endStart

/-- A cold start with a source of R610. -/
def State.coldStartAs (s : State) (straps source : Nat) : State := (s.coldBase straps).coldFrom s straps 1 source

/-- An exit from DEEP KEEP: a cold start that keeps the muster record, the grid and the trace tail; HOLDOVER begins (R399). -/
def State.deepExit (s : State) (straps source : Nat) : State :=
  let s := s.wakeMarker
  ({ (s.coldBase straps).keepRecord s with
      trace.tail := s.trace.tail, muster.state := .solo, time.afterFlood := true }).coldFrom s straps 4 source |>.timeFlooded

/-- The upland channels of a mask, whose link training fails at a start or at a flood from KEEP, are lost (R173). -/
def State.untrained (s : State) (m : Nat) : State :=
  (List.range 4).foldl (fun (s : State) c => if bit m c then s.loseChannel c 1 else s) s

/-- Supplies 0 to 8 are UP, and no thermal hold stands. -/
def State.mayStart (s : State) : Bool :=
  (List.range 9).all (fun n => s.supplyUp n) && !bit s.power.thresholds 2 && s.power.state != .dark

/-- The source that a cold start carries, where one waits. -/
def coldSource (v : Nat) : Option Nat :=
  match v with
  | 0 => some 1
  | 1 | 2 | 4 | 7 | 8 | 10 => some v
  | _ => none

/-- COLD_START (R608); it carries the source that waits, POWER_ON with none. -/
def execColdStart (straps : Fin 64) (bad : Fin 16) (s : State) : Host.Outcome State Fault Refusal :=
  .next (match coldSource s.power.source with
    | some v => if s.mayStart then (s.coldStartAs straps v).untrained bad else s
    | none => s)

/-- DEEP_KEEP_EXIT (R608, R611). -/
def execDeepKeepExit (straps : Fin 64) (bad : Fin 16) (s : State) : Host.Outcome State Fault Refusal :=
  .next (if s.power.state = .deepKeep ∧ s.mayStart = true then
      (match coldSource s.power.source with
       | some v => if s.power.source = 0 then s.deepExit straps 14 else s.coldStartAs straps v
       | none => s.deepExit straps (if s.power.source = 12 then 12 else 14)).untrained bad
    else s)

/-! ### Warm restart (R609) -/

/-- The table store over a warm restart: both halves stay; a half that was ARMED or COMMITTED is ARMED from the restart. -/
def State.warmTable (s : State) : TableSt :=
  { s.table with
    stage := match s.table.stage with
      | .committed => .armed
      | x => x
    armedAt := 0, armUnits := 0 }

/-- The image over a warm restart: lines, tags and stale marks. -/
def ImageSt.warm (x : ImageSt) : ImageSt :=
  { ImageSt.reset with pasture := x.pasture, upland := x.upland, stale := x.stale }

/-- A drover over a warm restart: what waited for an edge is lost with the work domain, and the edges count from the first
tide. -/
def Drover.warm (x : Drover) : Drover := { x with waits := [], edgeAt := 0, shown := [], exported := false }

/-- The drovers over a warm restart: stores, settings and registers (R609). -/
def DrvSt.warm (x : DrvSt) : DrvSt :=
  { x with drovers := x.drovers.foldl (fun (m : Tab Drover) (p : Nat × Drover) => Tab.set Drover.blank m p.1 p.2.warm) [] }

/-- What a warm restart keeps. -/
def State.warmBase (s : State) (straps : Nat) : State :=
  let b := (s.coldBase straps).keepRecord s
  { b with
    tide := { TideSt.reset with index := s.tide.index, period := s.tide.period, spring := s.tide.spring },
    table := s.warmTable,
    image := s.image.warm,
    drv := s.drv.warm,
    pin := { b.pin with hold := s.pin.hold, held := s.pin.held, safeHeld := s.pin.safeHeld },
    ring.rx := s.ring.rx.map fun (p : Nat × RxSlot) => (p.1, p.2.warm),
    pair := { PairSt.reset with highest := s.pair.highest, lastActive := s.pair.lastActive, zeroSince := s.bell.tick },
    bell := { s.bell with
      fatal := false, stopped := false, compareFail := false,
      srcs := s.bell.srcs.map fun (p : Nat × Source) => (p.1, { p.2 with latch := false }) },
    tally := { s.tally with backlog := [], repDirty := false },
    trace.tail := s.trace.tail,
    power := { b.power with
      previous := if s.power.inReset then s.power.previous else s.power.state,
      losses := s.power.losses, peak := s.power.peak } }

/-- A half that was RETIRING or being checked: the one is EMPTY, the other was refused when the cores stopped. -/
def State.warmStage (s : State) : State := if s.table.stage = .retiring then s.emptyStaging else s

/-- The rest of a warm restart, from the base on. -/
def State.warmFrom (b before : State) (straps source : Nat) : State :=
  let copied := b.copies
  let passed := copied && b.stagedGood
  let old := b.upd.version
  let b := if passed then b.takeFirmware else b
  let b := (b.startLogs 2 source).startFirings source
  let b := (b.foldStart.forcedLists before).copyFires old copied passed
  let b := b.formats.staleProfiles
  let b := (b.startValues (b.startProfile straps)).startUnits
  let b := if passed then b.confirmJoin else b
  b.warmStage.startTable.endStart

/-- HOLDOVER begins with a warm restart, unless the bound already grows in KEEP (R411). -/
def State.errWarm (s : State) : State := if s.power.state = .keep then s else s.errFrom s.holdPpb

/-- A warm restart with a source of R610; HOLDOVER begins (R399). -/
def State.warmStartAs (s : State) (straps source : Nat) : State :=
  let s := s.holdEntry.abortCheck.errWarm
  ((s.warmBase straps).warmFrom s straps source).timeFlooded

/-- The power states from which a warm restart is made (R604). -/
def State.mayWarm (s : State) : Bool :=
  s.mayStart && !s.power.breach && (s.power.state == .light || s.power.state == .full || s.power.state == .keep)

/-- The source that a warm restart carries, where one waits. -/
def warmSource (v : Nat) : Option Nat :=
  match v with
  | 0 => some 5
  | 3 | 5 | 6 | 9 | 11 => some v
  | _ => none

/-- WARM_RESTART (R609); it carries the source that waits, COMMAND_WARM with none. -/
def execWarmRestart (straps : Fin 64) (bad : Fin 16) (s : State) : Host.Outcome State Fault Refusal :=
  .next (match warmSource s.power.source with
    | some v => if s.mayWarm then (s.warmStartAs straps v).untrained bad else s
    | none => s)

/-! ### Restarts that begin (R598, R601, R604) -/

/-- The work domain is held in reset until the start named; no tide runs. -/
def State.intoReset (s : State) (source : Nat) : State :=
  { s with tide.runs := false, tide.flights := [], power.inReset := true, power.source := source, power.request := 0,
           power.previous := if s.power.inReset then s.power.previous else s.power.state, power.state := .light }

/-- A warm restart begins: pins in hold. -/
def State.beginWarm (s : State) (source : Nat) : State := s.holdEntry.abortCheck.intoReset source

/-- A cold start begins: pins high-impedance. -/
def State.beginCold (s : State) (source : Nat) : State :=
  let s := s.abortCheck.intoReset source
  { s with pin.hold := false, pin.held := [] }

/-! ### KEEP, DEEP KEEP and the flood (R520, R604) -/

/-- The SLEEP marker: to the retained tail, and to the buffer too while tracing is enabled and the work domain runs. -/
def State.sleepMarker (s : State) (target : Nat) : State :=
  let w := s.markerWords 4 (put 12 2 target) s.timeQ (words36 s.time.F)
  if s.traceOn && s.workRuns then s.traceWords w else s.traceTail w

/-- Links and ports leave service with their logic. -/
def State.linksDark (s : State) : State :=
  { s with
    ring.links := s.ring.links.map fun (p : Nat × RLink) => (p.1, { p.2.leave .off with locked := false, transit := [] }),
    ring.asm := [], ring.seqs := s.ring.seqs, sw := { SwitchSt.reset with meters := [] },
    host.linkUp := false, host.speed := 0, host.width := 0 }.endSessions fun x => x.path == 2

/-- KEEP is entered. -/
def State.keepEntry (s : State) : State :=
  let s := (s.flushRepeat.sleepMarker 0).holdEntry.abortCheck.ebbedNow.linksDark.errKept
  { s with power.previous := s.power.state, power.state := .keep, power.request := 0, tide.runs := false, tide.flights := [] }

/-- DEEP KEEP is entered: pins high-impedance, gates off. -/
def State.deepEntry (s : State) : State :=
  let s := (s.flushRepeat.sleepMarker 1).abortCheck.ebbedNow.linksDark.gatesPower.errKept
  { s with power.previous := s.power.state, power.state := .deepKeep, power.request := 0, power.inReset := false,
           power.source := 0, tide.runs := false, tide.flights := [], pin.hold := false, pin.held := [] }

/-- LIGHT is entered from FULL: pins in hold; the station sends and forwards nothing. -/
def State.lightEntry (s : State) : State :=
  let s := s.holdEntry.abortCheck.linksDark
  { s with power.previous := .full, power.state := .light, power.request := 0, tide.runs := false, tide.flights := [],
           muster.state := .solo, muster.role := 0 }

/-- EBB_AT at the end of the tide (R363, R604): EBBED and the target state; while SHORE_XTAL is safe the station wakes at once
(R600), and so does one whose WAKE input is active (R388) or whose late VETO still has its need (R379). -/
def State.ebbNow (s : State) : State :=
  if 3 ≤ s.level 369 then (s.ebbedNow.errKept.wakeNow s.muster.wakeCause s.muster.wakeLink).timeFlooded
  else
    let wakes := (s.muster.wakeActive || s.muster.vetoed && !s.ebbTest) && !bit s.power.thresholds 2
    let s := if bit (s.cfg 0x01100) 34 then s.deepEntry else s.keepEntry
    if wakes then s.wakeNow 1 0 else s

/-- EBB_AT_REACHED (R363, R604). -/
def execEbbAtReached (s : State) : Host.Outcome State Fault Refusal :=
  .next (if s.muster.state = .ebbPending then s.tideEnds.ebbNow else s)

/-- DEEP_AFTER_EXPIRY (R604): retention ends. -/
def execDeepAfterExpiry (s : State) : Host.Outcome State Fault Refusal :=
  .next (if s.power.state = .keep ∧ s.muster.state = .ebbed then
      { s.gatesPower with power.previous := .keep, power.state := .deepKeep, pin.hold := false, pin.held := [] }
    else s)

/-- The work domain after KEEP: what retention keeps, and everything else as a start leaves it. -/
def State.floodBase (s : State) : State :=
  { s with
    pen := { pens := [], pool := [] }, bus := { chans := [] }, ledger := LedgerSt.reset,
    ring := { s.ring with rx := s.ring.rx.map fun (p : Nat × RxSlot) => (p.1, p.2.warm) },
    quay := State.reset.quay, svc := State.reset.svc, host := HostSt.reset,
    pair := { PairSt.reset with highest := s.pair.highest, lastActive := s.pair.lastActive, zeroSince := s.bell.tick },
    time.afterFlood := true,
    power.previous := .keep, power.state := .light, power.source := 0 }

/-- FLOOD_FROM_KEEP (R604, R608). -/
def execFloodFromKeep (bad : Fin 16) (s : State) : Host.Outcome State Fault Refusal :=
  .next (if s.power.state = .keep ∧ s.muster.state = .listen ∧ s.mayStart = true then
      let s := s.wakeMarker.floodBase
      ((((s.startLogs 3 13).foldLatched).startUnits).enterFull.timeFlooded).untrained bad
    else s)

/-! ### POWER_CMD (R604, R615) -/

/-- The safe state of SHORE_XTAL (R600). -/
def State.xtalSafe (s : State) : Bool := decide (3 ≤ s.level 369)

/-- POWER_CMD, while the work domain runs; code 7 is BAD_STATE. -/
def State.powerOp (s : State) (cmd : Nat) : State :=
  if !s.workRuns then s
  else match s.power.state, cmd with
  | .full, 1 => { s with power.request := 1 }
  | .full, 3 => if s.xtalSafe then s.abort 0x01002 aBadState else { s with power.request := 3 }
  | .full, 4 => if s.xtalSafe then s.abort 0x01002 aBadState else { s with power.request := 4 }
  | .full, 5 | .light, 5 => s.beginWarm 5
  | .full, 6 | .light, 6 => s.beginCold 4
  | .light, 2 => if s.firmware then s.enterFull else s.abort 0x01002 aBadState
  | _, _ => s.abort 0x01002 aBadState

def execPowerLight (s : State) : Host.Outcome State Fault Refusal := .next (s.powerOp 1)
def execPowerFull (s : State) : Host.Outcome State Fault Refusal := .next (s.powerOp 2)
def execPowerKeep (s : State) : Host.Outcome State Fault Refusal := .next (s.powerOp 3)
def execPowerDeepKeep (s : State) : Host.Outcome State Fault Refusal := .next (s.powerOp 4)
def execPowerWarm (s : State) : Host.Outcome State Fault Refusal := .next (s.powerOp 5)
def execPowerCold (s : State) : Host.Outcome State Fault Refusal := .next (s.powerOp 6)

/-! ### Supplies (R592 to R598) -/

/-- DARK (R604): nothing of the work and shore domains stays. -/
def State.goDark (s : State) : State :=
  { s.abortCheck with
    power.previous := s.power.state, power.state := .dark, power.inReset := false, power.request := 0, power.source := 0,
    tide.runs := false, tide.flights := [], pin.hold := false, pin.held := [], power.breach := false, power.order := 0 }.gatesPower

/-- Ring, pair and SerDes links enter SETTLING (R598). -/
def State.serLost (s : State) : State :=
  let s := (List.range 5).foldl (fun (s : State) l => s.laneLost l) s
  (List.range 16).foldl (fun (s : State) p =>
    match (s.port p).state with
    | .up | .down => s.portSettle p
    | _ => s) s

/-- Every 10BASE-T1L port is OFF (R598). -/
def State.t1lLost (s : State) : State :=
  (List.range 32).foldl (fun (s : State) k =>
    if (s.port (16 + k)).state = .off then s
    else (s.dropQueues (16 + k)).setPort (16 + k) Port.blank) s

/-- The work PLL or its supply is lost (R601, R602). -/
def State.pllLost (s : State) (ref : Bool) : State :=
  let s := { s with power.workLock := false, power.refOk := s.power.refOk && !ref,
                    power.losses := satAdd 15 s.power.losses 1 }
  s.beginWarm 11

/-- A supply that left UP without a breach in KEEP, LIGHT or FULL (R598). -/
def State.supplyLost (s : State) (n : Nat) : State :=
  match n with
  | 1 => (s.fire 352 n).beginWarm 10
  | 2 => (s.fire 352 n).beginWarm 9
  | 3 | 4 => (s.fire 352 n).serLost
  | 5 | 6 => s.fire 352 n
  | 7 => (s.fire 352 n).pllLost false
  | _ => (s.fire 352 n).t1lLost

/-- VDDA_H is UP again: its ports take their settings at the next turn. -/
def State.t1lBack (s : State) : State :=
  { s with sw.configured := s.sw.configured ++ (((List.range 32).map (· + 16)).filter fun p => bit (s.portCfg p) 35) }

/-- SUPPLY_STATE_CHANGE (R593, R598). -/
def execSupplyStateChange (supply : Fin 9) (st : Fin 4) (mv : Fin 4096) (s : State) : Host.Outcome State Fault Refusal :=
  let was := s.supplyUp supply
  let s1 := { s with power.supplies := s.power.supplies.set supply (st.val, mv.val) }
  .next (if supply.val = 0 then (if st.val = 0 ∨ s.power.state = .dark then s1 else s1.goDark)
    else if was && decide (st.val ≠ 0) then
      (if s.power.state = .keep ∨ s.power.state = .light ∨ s.power.state = .full then s1.supplyLost supply else s1)
    else if supply.val = 8 ∧ st.val = 0 ∧ was = false ∧ s.power.state = .full then s1.t1lBack
    else s1)

/-- POWER_ORDER_BREACH (R594 to R597): the first ORDER word stays. -/
def execPowerOrderBreach (kind : Fin 4) (supply : Fin 64) (s : State) : Host.Outcome State Fault Refusal :=
  .next (if kind.val = 0 ∨ (9 ≤ supply.val ∧ supply.val < 16) ∨ 48 ≤ supply.val ∨ (s.power.state = .dark ∧ kind.val ≠ 3) then s
    else
      let s := if s.power.breach then s else { s with power.order := put 16 2 kind + put 10 6 supply }
      { s.abortCheck.gatesPower.intoReset 8 with power.breach := true, pin.hold := false, pin.held := [] })

/-- VDD_SHORE_UP (R604). -/
def execVddShoreUp (s : State) : Host.Outcome State Fault Refusal :=
  .next (if s.power.state = .dark then
      { s with power.previous := .dark, power.state := .deepKeep, power.source := 1,
               power.supplies := s.power.supplies.set 0 (0, (s.power.supplies.getD 0 (0, 0)).2) }
    else s)

/-! ### Clocks and resets (R599 to R607) -/

/-- SHORE_XTAL_FAIL (R600). -/
def execShoreXtalFail (s : State) : Host.Outcome State Fault Refusal :=
  let s := { s with power.xtalOk := false }
  .next (s.fireLive 369 0)

/-- WORK_PLL_LOSS (R601); a REFCLK out of range is a tamper too, which FOLD_TAMPER brings. -/
def execWorkPllLoss (ref : Bool) (s : State) : Host.Outcome State Fault Refusal :=
  .next (if s.workRuns then s.pllLost ref else s)

/-- RESET_N_ASSERTED (R606). -/
def execResetNAsserted (s : State) : Host.Outcome State Fault Refusal :=
  .next (if s.power.state = .dark then s else { s with power.resetLow := true })

/-- RESET_N_RELEASE (R606): a cold start, which waits for the supplies with the pins high-impedance (R264). -/
def execResetNRelease (straps : Fin 64) (bad : Fin 16) (s : State) : Host.Outcome State Fault Refusal :=
  .next (if s.power.state = .dark then s
    else if s.mayStart && !s.power.breach then (s.coldStartAs straps 2).untrained bad
    else if s.power.breach then { s with power.resetLow := false }
    else if s.power.state = .deepKeep then { s with power.resetLow := false, power.source := 2 }
    else { s.beginCold 2 with power.resetLow := false })

/-- WARM_N_RELEASE (R606); with RESET_N asserted as well, the cold start that follows stands for both. -/
def execWarmNRelease (straps : Fin 64) (bad : Fin 16) (s : State) : Host.Outcome State Fault Refusal :=
  .next (if s.power.resetLow || !s.mayWarm || s.power.inReset then s else (s.warmStartAs straps 3).untrained bad)

/-- TABLE_SIG of the kept FOLD_POLICY is fixed at 0 in RETURNED (R547). -/
def State.policyFixed (s : State) : State :=
  if s.fold.lifecycle = 3 then { s with dict.kept := Tab.set 0 s.dict.kept (copyKey 4 0x0E006 0) 0 } else s

/-- LIFECYCLE_BURN_DONE (R547, R549): the fuses hold the granted state, and the hub makes a cold start. -/
def execLifecycleBurnDone (straps : Fin 64) (bad : Fin 16) (s : State) : Host.Outcome State Fault Refusal :=
  .next (match s.fold.burning with
    | some lc => ({ s with fold.lifecycle := lc, fold.burning := none }.policyFixed).coldStartAs straps 7 |>.untrained bad
    | none => s)

/-! ### Heat (R611) -/

/-- T_max in °C + 64. -/
def tMax : Nat := if Config.isX then 189 else 179

/-- A reading of T_J. -/
def State.readJunction (s : State) (tj : Nat) : State := { s with power.junction := tj, power.peak := max s.power.peak tj }

/-- A threshold that T_J has held: its bit, and its source where Bell runs. -/
def State.hotAt (s : State) (k src tj limit : Nat) : State :=
  if s.power.state = .dark ∨ tj < limit then s
  else
    let s := s.readJunction tj
    if bit s.power.thresholds k then s
    else
      let s := { s with power.thresholds := s.power.thresholds ||| 2 ^ k }
      s.fireLive src 0

/-- JUNCTION_HOT_THRESHOLD. -/
def execJunctionHotThreshold (tj : Fin 512) (s : State) : Host.Outcome State Fault Refusal := .next (s.hotAt 0 370 tj (tMax - 10))

/-- JUNCTION_LIMIT_THRESHOLD. -/
def execJunctionLimitThreshold (tj : Fin 512) (s : State) : Host.Outcome State Fault Refusal := .next (s.hotAt 1 371 tj tMax)

/-- THERMAL_TRIP: DEEP KEEP at once; the next start carries THERMAL. -/
def execThermalTrip (tj : Fin 512) (s : State) : Host.Outcome State Fault Refusal :=
  .next (if s.power.state = .dark ∨ tj.val < tMax + 10 then s
    else
      let s := s.readJunction tj
      let s := { s with power.thresholds := s.power.thresholds ||| 4 }
      let s := if s.power.state = .deepKeep then s else s.deepEntry
      { s with power.source := 12 })

/-- JUNCTION_THRESHOLD_CLEAR. -/
def execJunctionThresholdClear (k : Fin 3) (tj : Fin 512) (s : State) : Host.Outcome State Fault Refusal :=
  let ok : Bool := match k.val with
    | 0 => decide (tj.val < tMax - 10)
    | 1 => decide (tj.val < tMax)
    | _ => decide (tj.val ≤ tMax - 20)
  .next (if s.power.state = .dark ∨ ok = false then s
    else
      let s := s.readJunction tj
      { s with power.thresholds := if bit s.power.thresholds k then s.power.thresholds - 2 ^ k.val else s.power.thresholds })

/-! ### Entries (R615) -/

def PState.code : PState → Nat
  | .dark => 0 | .deepKeep => 1 | .keep => 2 | .light => 3 | .full => 4

def State.powerStateWord (s : State) : Nat := put 33 3 s.power.state.code + put 30 3 s.power.previous.code + putB 29 s.pin.hold
def State.supplyWord (s : State) (n : Nat) : Nat :=
  put 16 2 (s.power.supplies.getD n (0, 0)).1 + put 0 12 (s.power.supplies.getD n (0, 0)).2
def State.junctionWord (s : State) : Nat := put 9 9 s.power.peak + put 0 9 s.power.junction
def State.clockWord (s : State) : Nat :=
  putB 17 s.power.workLock + putB 16 s.power.refOk + putB 15 s.power.xtalOk + put 0 15 s.power.losses

end Sys2Proof.Machine
end

