-- ==== Sys2Proof/Machine/Values.lean ====
section
/-! DEFINITION. The value that a read of an entry returns (R446, R449): the settings in force, the counters, and what each
chapter publishes of its state. -/

namespace Sys2Proof.Machine

/-! ### Words of chapters that publish a field map and no more -/

def RunState.code : RunState → Nat
  | .off => 0 | .run => 1 | .drain => 2
def XState.code : XState → Nat
  | .idle => 0 | .copying => 1 | .pending => 2 | .blocked => 3
def BState.code : BState → Nat
  | .idle => 0 | .armed => 1 | .running => 2 | .done => 3 | .missed => 4 | .stopped => 5

/-- SPRING_STATE (R84). -/
def State.springStateWord (s : State) : Nat := put 11 11 s.tide.spring + put 0 11 s.tide.index

/-- DEGRADE_STATE (R151). -/
def State.degradeWord (s : State) : Nat :=
  put 4 2 s.ledger.inForce + ((List.range 4).map fun c => putB c (s.chanLost c)).sum

/-- LEDGER_WAIT (R151). -/
def State.ledgerWaitWord (s : State) (c : Nat) : Nat :=
  put 18 18 (min (2 ^ 18 - 1) ((Tab.get 0 s.ledger.maxWait c + 255) / 256)) + put 0 18 (Tab.get 0 s.ledger.urgent c)

/-- IMAGE_STATE (R190): pasture, and each upland channel that is ready and not lost. -/
def State.imageStateWord (s : State) : Nat :=
  putB 4 s.image.pastureReady + ((List.range 4).map fun c => putB c (s.image.uplandReady.getD c false && !s.chanLost c)).sum

/-- POINT_MAP_POINTS (R190). -/
def State.mapPoints (s : State) : Nat := (s.image.map.map fun r => r.count + 1).sum

/-- SCRUB_STATE (R190): the banks, or the channels. -/
def State.scrubWord (s : State) (k : Nat) : Nat :=
  let us := if k = 0 then List.range 64 else (List.range 4).map (64 + ·)
  let last := us.foldl (fun a u => max a (Tab.get 0 s.image.scrubLast u)) 0
  let passes := us.foldl (fun a u => min a (Tab.get 0 s.image.scrubPasses u)) (2 ^ 18 - 1)
  put 18 18 (min last (2 ^ 18 - 1)) + put 0 18 passes

/-- PEN_STATUS (R207). -/
def State.penStatusWord (s : State) (p : Nat) : Nat :=
  let x := s.penAt p
  put 34 2 x.state.code + putB 33 (!x.discard && (x.opened || (!s.penPacket p && x.words != 0))) + putB 32 x.high + put 0 22 (x.fill (s.penSize p))

/-- BEACON_STATUS (R268). -/
def State.beaconWord (s : State) (b : Nat) : Nat := put 15 3 (s.beacon b).state.code + put 0 15 (s.beacon b).pulses

/-- DROVE_XSTATE (R243). -/
def Drove.xstateWord (v : Drove) : Nat := put 16 2 v.xstate.code + put 9 7 v.eccCorrected + put 0 9 v.exchanges

/-- DICT_SESSIONS (R467). -/
def State.sessionWord (s : State) (n : Nat) : Nat :=
  let x := s.session n
  if x = Session.none then 0
  else put 35 1 1 + put 33 2 x.role + put 31 2 x.path + put 25 6 x.slot
    + put 0 25 (min (2 ^ 25 - 1) ((s.bell.tick - x.idle) / 1000))

/-- DICT_SUBS (R467). -/
def State.subWord (s : State) (n : Nat) : Nat :=
  match s.dict.subs.find? (·.1 == n) with
  | some (_, x) => put 35 1 1 + put 33 2 x.path + put 15 18 x.entry + put 3 12 x.sub
  | none => 0

/-- DICT_FORMAT (R467). -/
def State.formatWord (s : State) (g : Nat) : Nat := putB 17 (s.dict.defaulted.contains g) + put 0 8 (Tab.get 0 s.dict.format g)

/-! ### RO entries, group by group -/

/-- DEVICE_IDENT (R3): PART 0x00400, revision A1 and the variant. -/
def identWord : Nat := put 18 18 0x00400 + put 12 6 1 + put 8 4 1 + putB 4 Config.isX

/-- Identity, version and the dictionary (R3, R467). -/
def State.ro00 (s : State) (e k : Nat) : Nat :=
  match e with
  | 0x00000 => identWord
  | 0x00001 => s.upd.version
  | 0x00002 => if k = 0 then Config.serialHigh.toNat else Config.serialLow.toNat
  | 0x00003 => put 14 4 (s.dict.straps / 4) + put 12 2 s.dict.straps
  | 0x00102 => s.sessionWord k
  | 0x00103 => s.subWord k
  | 0x00106 => s.formatWord k
  | _ => s.count e k

/-- Power, clocks, ebb and flood (R390, R615). -/
def State.ro01 (s : State) (e k : Nat) : Nat :=
  match e with
  | 0x01000 => s.powerStateWord
  | 0x01003 => s.supplyWord k
  | 0x01004 => s.junctionWord
  | 0x01005 => s.clockWord
  | 0x01006 => s.power.startLog
  | 0x01104 => s.ebbStateWord
  | 0x01105 => s.muster.holdout.getD k 0
  | 0x01107 => s.wakeWord
  | _ => s.count e k

/-- The tide, the table, Pilot and the ledger (R84, R117, R151). -/
def State.ro02 (s : State) (e k : Nat) : Nat :=
  match e with
  | 0x02000 => if s.table.valid then s.tide.period else 0
  | 0x02001 => if s.table.valid then s.springStateWord else 0
  | 0x02002 => 1
  | 0x02003 => if s.table.valid then min s.tide.count (2 ^ 36 - 1) else 0
  | 0x02010 => if s.table.valid then s.tileDarkWord k else 0
  | 0x02020 => s.tableStateWord
  | 0x02023 => if s.table.valid then s.activeHalf.imageId else 0
  | 0x02024 => s.table.stagingId
  | 0x02025 => s.generationWord
  | 0x02030 => s.table.report.getD k 0
  | 0x02034 => s.degradeWord
  | 0x02041 => Tab.get 0 s.ledger.peak k
  | 0x02042 => s.ledgerWaitWord k
  | 0x02043 => min s.ledger.overdue (2 ^ 18 - 1)
  | _ => s.count e k

/-- The image and the pens (R190, R207). -/
def State.ro03 (s : State) (e k : Nat) : Nat :=
  match e with
  | 0x03000 => s.imageStateWord
  | 0x03003 => s.image.map.length
  | 0x03004 => s.mapPoints
  | 0x03012 => s.forces.length
  | 0x03023 => s.image.poisonLog.getD k 0
  | 0x03026 => s.scrubWord k
  | 0x03027 => Tab.get 0 s.image.lost k
  | 0x03104 => s.penStatusWord k
  | _ => s.count e k

/-- Drover k's entry j (R243). -/
def State.ro04 (s : State) (e : Nat) : Nat :=
  let k := (e - 0x04000) / 16
  let x := s.drover k
  let v := s.drove (k / 8)
  match (e - 0x04000) % 16 with
  | 0 => x.prog
  | 1 => x.outwin
  | 2 => x.inwin
  | 3 => x.shift
  | 4 => x.init
  | 8 => put 34 2 x.state.code + put 30 4 x.cause + put 23 7 x.pc + put 17 6 x.sinFill + put 11 6 x.soutLeft + put 9 2 x.txq
      + putB 8 x.txNew + putB 7 x.rxUnread + putB 6 x.safeOverride
  | 10 => put 18 18 x.rxOverrun + put 0 18 x.cnt
  | 12 => v.n
  | 14 => v.xstateWord
  | 15 => v.flags
  | _ => 0

/-- Field pins (R268). -/
def State.ro05 (s : State) (e k : Nat) : Nat :=
  match e with
  | 0x05000 => if s.table.valid then s.pinCfg k else 0
  | 0x05001 => if s.table.valid then s.bankCfg k else 0
  | 0x05002 => s.bankStatusWord k
  | 0x05004 => s.pinStateWord k
  | 0x05005 => Tab.get 0 s.pin.rise k
  | 0x05006 => Tab.get 0 s.pin.fall k
  | 0x05007 => Tab.get 0 s.pin.captures k
  | 0x05014 => s.beaconWord k
  | _ => s.count e k

/-- Message-bus channels (R297). -/
def State.ro06 (s : State) (e k : Nat) : Nat :=
  let (c, j) := busOf e
  match j with
  | 11 => s.busStateWord c
  | 14 => if k = 0 then (s.chan c).lastMaster else (s.chan c).lastLocal
  | _ => s.count e k

/-- The switch core (R324). -/
def State.ro07 (s : State) (e k : Nat) : Nat :=
  match e with
  | 0x07001 => s.portStateWord k
  | 0x07011 => s.switchStateWord
  | 0x07033 => s.fdbStateWord
  | 0x07051 => s.tunnelWord
  | _ => s.count e k

/-- Ring links and muster (R362, R390). -/
def State.ro08 (s : State) (e k : Nat) : Nat :=
  match e with
  | 0x08001 => s.linkStateWord k
  | 0x08004 => s.delayWord k
  | 0x08006 => s.transitWord k
  | 0x08007 => s.rxSlotWord k
  | 0x08009 => s.topoWord k
  | 0x0800A => s.syntWord
  | 0x08013 => s.musterStateWord
  | 0x08014 => s.musterMasterWord
  | 0x08015 => s.rosterWord k
  | _ => s.count e k

/-- Fabric time (R415). -/
def State.ro09 (s : State) (e k : Nat) : Nat :=
  match e with
  | 0x09000 => timeVal s.now
  | 0x09001 => s.timeStateWord
  | 0x09004 => s.time.F
  | 0x09013 => s.domainStateWord k
  | 0x09014 => s.timeOffsetWord k
  | 0x09015 => s.gmWord k
  | _ => s.count e k

/-- Redundant pairs (R445). -/
def State.ro0A (s : State) (e k : Nat) : Nat :=
  match e with
  | 0x0A001 => s.pairStateWord
  | 0x0A002 => s.pairClaimsWord
  | 0x0A007 => s.mirrorWord
  | 0x0A009 => s.selfcheckWord
  | _ => s.count e k

/-- The host endpoint and the Quay bridge (R493). -/
def State.ro0B (s : State) (e k : Nat) : Nat :=
  match e with
  | 0x0B000 => s.hostStateWord
  | 0x0B012 => s.quayStateWord
  | 0x0B014 => s.quay.errLog.getD k 0
  | _ => s.count e k

/-- Bell (R523). -/
def State.ro0C (s : State) (e k : Nat) : Nat :=
  match e with
  | 0x0C005 => s.bellClassWord k
  | 0x0C006 => s.bellSummaryWord
  | _ =>
    let n := (e - 0x0C000) / 8
    match (e - 0x0C000) % 8 with
    | 1 => s.bellStateWord n
    | 2 => s.bellCountsWord n
    | 3 => (s.src n).last
    | _ => 0

/-- The Tally and trace (R524). -/
def State.ro0D (s : State) (e k : Nat) : Nat :=
  match e with
  | 0x0D000 => s.tallyStateWord
  | 0x0D001 => if k = 0 then s.tally.ophours else s.tally.cycles
  | 0x0D012 => if k = 2 then s.trace.tail.length else s.count e k
  | _ => s.count e k

/-- The Fold (R552). -/
def State.ro0E (s : State) (e k : Nat) : Nat :=
  match e with
  | 0x0E000 => s.foldStateWord
  | 0x0E001 => s.keySlotWord k
  | 0x0E004 => s.fold.lifecycle
  | 0x0E005 => s.otpKeyWord k
  | 0x0E008 => s.fold.tamperLog
  | 0x0E009 => s.fold.installSeq
  | _ => s.count e k

/-- Firmware update and profiles (R575). -/
def State.ro0F (s : State) (e k : Nat) : Nat :=
  match e with
  | 0x0F000 => s.updateStateWord
  | 0x0F007 => s.updateHeaderWord k
  | 0x0F008 => s.upd.svn
  | 0x0F010 => s.profileWord k
  | 0x0F013 => (s.profile k).imageId
  | 0x0F014 => s.upd.pformat
  | _ => s.count e k

/-- The gates (R591). -/
def State.ro10 (s : State) (e k : Nat) : Nat :=
  match e with
  | 0x10007 => s.gateStateWord k
  | 0x10008 => s.gateMeasureWord k
  | 0x1000B => s.gate.latch
  | _ => s.count e k

/-- The value of an RO entry. -/
def State.roValue (s : State) (e k : Nat) : Nat :=
  match e / 4096 with
  | 0x00 => s.ro00 e k
  | 0x01 => s.ro01 e k
  | 0x02 => s.ro02 e k
  | 0x03 => s.ro03 e k
  | 0x04 => s.ro04 e
  | 0x05 => s.ro05 e k
  | 0x06 => s.ro06 e k
  | 0x07 => s.ro07 e k
  | 0x08 => s.ro08 e k
  | 0x09 => s.ro09 e k
  | 0x0A => s.ro0A e k
  | 0x0B => s.ro0B e k
  | 0x0C => s.ro0C e k
  | 0x0D => s.ro0D e k
  | 0x0E => s.ro0E e k
  | 0x0F => s.ro0F e k
  | _ => s.ro10 e k

/-- The value in force of a sub-entry that is not WO (R449). -/
def State.valueNow (s : State) (r : Row) (e k : Nat) : Nat := if r.acc = .ro then s.roValue e k else s.cfg e k

/-- The quality of a published TIME (R284, R448): of the time that is now, or of the time captured; else GOOD. -/
def State.timeQuality (s : State) (e k : Nat) : Nat :=
  match e with
  | 0x09000 => s.timeQ
  | 0x05005 | 0x05006 => fld (Tab.get 0 s.pin.captures k) 35 34
  | _ => 0

/-- The words of a value as a message carries them (R448). -/
def State.readWords (s : State) (r : Row) (e k : Nat) : List Nat :=
  let v := s.valueNow r e k
  if r.ty = .time then timeWords v (s.timeQuality e k) else valWords r.ty.words v

/-! ### Blobs (R448, R458) -/

/-- TRACE_TAIL: whole records, oldest first. -/
def State.tailWords (s : State) : List Word := s.trace.tail.flatten

/-- The words of a BLOB value for a client: its session, path and source name its FOLD_RESULT (R541). -/
def State.blobWords (s : State) (e k session path source : Nat) : List Nat :=
  match e with
  | 0x0D004 => (List.range 524288).map fun i => wp (Tab.get 0 s.tally.mram i)
  | 0x0D013 => s.tailWords.map BitVec.toNat
  | 0x0E003 => match Tab.get none s.fold.results (4 * session + path) with
    | some (src, l) => if src = source then l else []
    | none => []
  | 0x0E00B => if k = 0 then words16 24 (Config.otpPoint0 / 2 ^ 384) ++ words16 24 (Config.otpPoint0 % 2 ^ 384) else (s.otp k).point
  | 0x0F002 => s.heldWords
  | _ => (Tab.get [] s.dict.blobs (key e k)).map BitVec.toNat

end Sys2Proof.Machine
end

