-- ==== Sys2Proof/Machine/Requests.lean ====
section
/-! DEFINITION. How a request reaches the dictionary (R454 to R464): the path, the target station, the limits on open
requests, the session, and the answer. -/

namespace Sys2Proof.Machine

/-! ### Rows and sub-entries (R446) -/

/-- The row has the sub-entry; the counters of ports and links leave gaps (R324, R362). -/
def Row.hasSub (r : Row) (e k : Nat) : Bool :=
  decide (k < r.subs) && (e != 0x07003 || decide (k % 16 < 13)) && (e != 0x08003 || decide (k % 16 < 14))

/-- The row of an entry, or NO_OBJECT; NO_SUB when it lacks the sub-entry. -/
def lookEntry (e k : Nat) : Except Nat Row :=
  match findRow e with
  | none => .error aNoObject
  | some (r, _) => if r.hasSub e k then .ok r else .error aNoSub

/-! ### Answers -/

/-- How a request ends: an answer with its body, an abort code with the sub-entry that failed and the words that go with
it, or an answer that comes later. -/
inductive Reply where
  | body (pend : Bool) (words : List Nat)
  | fail (code sub : Nat) (words : List Nat)
  | later
  deriving DecidableEq, Repr

/-- The answer leaves. -/
def State.answerReq (s : State) (m : Msg) (op : Nat) : Reply → State
  | .body p ws => s.respond m.path m.source { msgHead m op with pend := p } ws
  | .fail c k ws => s.respond m.path m.source { msgHead m op with abort := c, sub := k } ws
  | .later => s

/-- An abort at the request's own sub-entry. -/
def State.abortReq (s : State) (m : Msg) (op code : Nat) : State := s.answerReq m op (.fail code m.sub [])

/-! ### Limits and sessions -/

/-- The limit of a path in words (R456). -/
def pathLimit (path : Nat) : Nat := match path with | 0 => 1024 | 1 => 480 | _ => 4608

/-- The path is open (R456, R467). -/
def State.pathOpen (s : State) (path : Nat) : Bool :=
  bit (s.cfg 0x00100) (4 * path + 3) && (path != 1 || s.cfg 0x00101 0 != 0)

/-- Firmware that fails its check leaves the update group on the service port alone (R566). -/
def State.served (s : State) (m : Msg) : Bool :=
  s.firmware || (s.fold.lifecycle != 4 && m.path.val == 3 && decide (0x0F000 ≤ m.entry) && decide (m.entry ≤ 0x0F009))

/-- The hub takes the request up: it runs, its shepherd cores run, and the path is open. -/
def State.takes (s : State) (m : Msg) : Bool :=
  s.workRuns && s.dict.shepherds && s.pathOpen m.path && s.served m

/-- Which of ENTRY with SUB, and COUNT, an operation takes (R459, R464): 0 none, 1 ENTRY and SUB, 2 ENTRY alone,
3 ENTRY, SUB and COUNT, 4 COUNT alone. -/
def shapeOk (shape : Nat) (m : Msg) : Bool :=
  match shape with
  | 0 => m.entry == 0 && m.sub == 0 && m.count == 0
  | 1 => m.count == 0
  | 2 => m.sub == 0 && m.count == 0
  | 3 => true
  | _ => m.entry == 0 && m.sub == 0

/-- A malformed request counts, and fires DICT_PROTOCOL with its path (R464). -/
def State.malformed (s : State) (path : Nat) : State := (s.bump 0x00104 2).fire 272 path

/-- Requests that a source holds open, and all of them (R461). -/
def State.openOf (s : State) (path source : Nat) : Nat :=
  s.dict.waiting.countP fun q => q.path == path && q.source == source
def State.tooManyOpen (s : State) (m : Msg) : Bool :=
  decide (4 ≤ s.openOf m.path m.source) || decide (64 ≤ s.dict.waiting.length)

/-- The session serves the source (R454, R455). -/
def State.sessionOk (s : State) (m : Msg) : Bool :=
  m.session.val == 0 || (let x := s.session m.session
                         x != Session.none && x.path == m.path.val && x.source == m.source)

/-- The session was used now. -/
def State.touch (s : State) (n : Nat) : State :=
  if n = 0 then s else s.setSession n { s.session n with idle := s.bell.tick }

/-! ### Relaying (R457) -/

/-- The station that the request names. -/
def msgDest (m : Msg) : Nat := 2 * m.target + m.unit

/-- The request goes to its station in DICT cells under a relay number. -/
def State.relay (s : State) (m : Msg) (op : Nat) : State :=
  let n := s.dict.nextRelay
  let s := s.sendMessage (if bit (s.usable m.target) 0 then 0 else 2) 2 (msgDest m)
    ({ msgHead m op with resp := false, tag := n }.words (m.body.map BitVec.toNat))
  let q : OpenReq := { op := op, path := m.path, source := m.source, msg := m, relay := n }
  { s.bump 0x00104 4 with
    dict.waiting := s.dict.waiting ++ [q],
    dict.nextRelay := if n + 1 = 2 ^ 18 then 1 else n + 1 }

/-- A request for another station. -/
def State.relayReq (s : State) (m : Msg) (op : Nat) : State :=
  if 64 ≤ s.dict.waiting.countP fun q => q.relay != 0 then s.abortReq m op aBusy
  else if s.usable m.target = 0 then s.abortReq m op aUnreachable
  else s.relay m op

/-! ### A request, from its arrival to its answer -/

/-- A request of this station that nothing holds back: its session, its count, its effect and its answer. -/
def State.serveHere (s : State) (m : Msg) (op : Nat) (run : State → State × Reply) : State :=
  if !s.sessionOk m then s.abortReq m op aNoSession
  else
    let (s, r) := run ((s.bump 0x00104 0).touch m.session)
    s.answerReq m op r

/-- A request with its header fields and its length judged (R456, R461, R464). -/
def State.admitReq (s : State) (m : Msg) (op shape : Nat) (run : State → State × Reply) : State :=
  if pathLimit m.path < m.body.length + 7 then s.abortReq m op aBadLength
  else if !shapeOk shape m then (s.malformed m.path).abortReq m op aBadRequest
  else if s.tooManyOpen m then s.abortReq m op aBusy
  else if msgDest m ≠ s.station then s.relayReq m op
  else s.serveHere m op run

/-- A request on a path (R456 to R461). -/
def State.serve (s : State) (m : Msg) (op shape : Nat) (run : State → State × Reply) : State :=
  if !s.takes m then s else (s.takeReq m.path).admitReq m op shape run

/-- The role in force for a request (R453, R454). -/
def State.roleFor (s : State) (m : Msg) : Nat := s.roleOf m.path m.session

end Sys2Proof.Machine
end

