-- ==== Sys2Proof/Machine/Commands.lean ====
section
/-! DEFINITION. Command entries (R449, WO): what a written value asks of the unit that the entry names, and the code that
the unit answers with. DICT_CMD itself (R467). -/

namespace Sys2Proof.Machine

/-! ### DICT_CMD (R467) -/

/-- RESET_GROUP waits for the turn, and writes a Tally record. -/
def State.resetGroupOp (s : State) (g session path : Nat) : State :=
  if g = 0 ∨ g = 0x0E ∨ 0x10 < g then s.abort 0x00105 aBadValue
  else { s with dict.resetAt := s.dict.resetAt.filter (· ≠ g) ++ [g] }.settingRecord 0x00105 g session path 3

/-- CLEAR_DEFAULTED. -/
def State.clearDefaultedOp (s : State) (g : Nat) : State :=
  if 0x10 < g then s.abort 0x00105 aBadValue else { s with dict.defaulted := s.dict.defaulted.filter (· ≠ g) }

/-- CLOSE_ALL ends every session (R455). -/
def State.closeAllOp (s : State) : State := s.endSessions fun _ => true

/-- RESET_GROUP (R467). -/
def execResetGroup (group : Nat) (s : State) : Host.Outcome State Fault Refusal := .next (s.resetGroupOp group 0 3)
/-- CLEAR_DEFAULTED (R467). -/
def execClearDefaulted (group : Nat) (s : State) : Host.Outcome State Fault Refusal := .next (s.clearDefaultedOp group)
/-- CLOSE_ALL (R467). -/
def execCloseAll (s : State) : Host.Outcome State Fault Refusal := .next s.closeAllOp

def State.dictCmd (s : State) (v session path : Nat) : State :=
  match fld v 17 14 with
  | 1 => s.resetGroupOp (fld v 4 0) session path
  | 2 => s.clearDefaultedOp (fld v 4 0)
  | _ => s.closeAllOp

/-! ### Commands of the units -/

/-- A command's own step, as part of a write. -/
def nextOf (s : State) : Host.Outcome State Fault Refusal → State
  | .next t => t
  | _ => s

/-- TABLE_CMD (R111). -/
def State.tableCmd (s : State) (v : Nat) : State :=
  match v with
  | 1 => s.tableOpenOp
  | 2 => s.tableCheckOp
  | 3 => s.tableArmOp
  | 4 => s.tableDisarmOp
  | _ => s.tableDiscardOp

/-- PEN_CTRL (R202): exactly one of FLUSH, MARK_BAD and HALT. -/
def State.penCmd (s : State) (p v : Nat) : State :=
  match v with
  | 1 => nextOf s (execFlush (Fin.ofNat 4096 p) s)
  | 2 => s.penBad p
  | 4 => nextOf s (execPenHalt (Fin.ofNat 4096 p) s)
  | _ => s.abort 0x03103 aBadValue

/-- DROVE_EXCHANGE (R237). -/
def State.droveCmd (s : State) (d v : Nat) : State :=
  nextOf s (match fld v 35 34 with
    | 1 => execDroveCopy (Fin.ofNat 32 d) s
    | 2 => execExchange (Fin.ofNat 32 d) (Fin.ofNat 256 (fld v 33 26)) (Fin.ofNat 16 (fld v 25 22)) s
    | _ => execExchangeCancel (Fin.ofNat 32 d) s)

/-- DRV_CTRL and DROVE_EXCHANGE of drover k (R243). -/
def State.drvEntry (s : State) (e v : Nat) : State :=
  let k := (e - 0x04000) / 16
  if (e - 0x04000) % 16 = 9 then s.drvCtrl k (fld v 1 0) else s.droveCmd (k / 8) v

/-- BEACON_CTRL (R262). -/
def State.beaconCmd (s : State) (b v : Nat) : State :=
  nextOf s (if v = 1 then execBeaconArm (Fin.ofNat 64 b) s else execBeaconStop (Fin.ofNat 64 b) s)

/-- BUS_CTRL (R297): 1 RECOVER, 2 HALT, 3 to 5 ABORT of a buffer. -/
def State.busCmd (s : State) (c v : Nat) : State :=
  let ch : Fin 128 := Fin.ofNat 128 c
  nextOf s (match v with
    | 1 => execBusRecover ch s
    | 2 => execBusHalt ch s
    | _ => execBusAbortTb ch (Fin.ofNat 3 (v - 3)) s)

/-- PORT_CTRL (R302). -/
def State.portCmd (s : State) (p v : Nat) : State :=
  let p : Fin 49 := Fin.ofNat 49 p
  nextOf s (match v with
    | 1 => execPortHalt p s
    | 2 => execPortCalibrate p s
    | _ => execPortRestart p s)

/-- RING_LINK_CTRL (R348). -/
def State.linkCmd (s : State) (l v : Nat) : State :=
  let l : Fin 5 := Fin.ofNat 5 l
  nextOf s (match v with
    | 1 => execRingHalt l s
    | 2 => execRingCalibrate l s
    | _ => execRetrain l s)

/-- BELL_CMD of a source (R498, R502): an ACK names no instance. -/
def State.bellCmd (s : State) (n v session path : Nat) : State :=
  if fld v 35 34 = 1 then (if fld v 17 0 = 0 then s.ackSource n session path else s.abort (0x0C004 + 8 * n) aBadValue)
  else s.fire n (fld v 17 0) 0 true

/-- UPDATE_CMD (R559, R563): ID belongs to UNSCHEDULE. -/
def State.updateCmd (s : State) (v : Nat) : State :=
  if fld v 35 33 ≠ 4 ∧ fld v 17 0 ≠ 0 then s.abort 0x0F003 aBadValue
  else State.cmdEnd (match fld v 35 33 with
    | 1 => s.updateDiscardOp
    | 2 => s.updateCheckOp
    | 3 => s.scheduleOp
    | _ => s.unscheduleOp (fld v 17 0)) 0x0F003

/-- PROFILE_CMD (R570, R571). -/
def State.profileCmd (s : State) (v : Nat) : State :=
  State.cmdEnd (match fld v 4 2 with
    | 1 => s.selectOp (fld v 1 0)
    | 2 => s.storeOp (fld v 1 0)
    | 3 => s.storeStagingOp (fld v 1 0)
    | _ => s.eraseOp (fld v 1 0)) 0x0F012

/-- GATE_CMD (R579, R584). The damage condition is judged from the last sample. -/
def State.gateCmd (s : State) (g v : Nat) : State :=
  match v with
  | 1 => s.gateOnOp g
  | 2 => s.gateOffOp g
  | 3 => s.gateResetOp g
  | _ =>
    let x := s.gateAt g
    s.gateClearOp g (decide (x.vout * 100 < fld (s.cfg 0x10006 g) 9 3 * x.vin))

/-- A write of a command entry, by a session on a path. -/
def State.commandOp (s : State) (e k v session path : Nat) : State :=
  if 0x04000 ≤ e ∧ e < 0x05000 then s.drvEntry e v
  else if 0x06000 ≤ e ∧ e < 0x07000 then s.busCmd (busOf e).1 v
  else if 0x0C000 ≤ e ∧ e < 0x0D000 ∧ e ≠ 0x0C007 then s.bellCmd ((e - 0x0C000) / 8) v session path
  else match e with
    | 0x00105 => s.dictCmd v session path
    | 0x01002 => s.powerOp v
    | 0x01103 => if v = 1 then s.startRoundOp else s.cancelRoundOp
    | 0x02021 => s.tableCmd v
    | 0x03024 => nextOf s (execClearLine (bit v 29) (fld v 28 0) s)
    | 0x03103 => s.penCmd k v
    | 0x05013 => s.beaconCmd k v
    | 0x07002 => s.portCmd k v
    | 0x08002 => s.linkCmd k v
    | 0x08016 => s.remusterOp
    | 0x09003 => s.timeSetOp v
    | 0x09017 => s.switchOp
    | 0x0A003 => s.pairCmd v
    | 0x0B013 => nextOf s (execQuayHalt s)
    | 0x0C007 => s.ackAll session path
    | 0x0D003 => if v = 1 then s.flushRepeat else s.tallyClear
    | 0x0F003 => s.updateCmd v
    | 0x0F012 => s.profileCmd v
    | 0x10009 => s.gateCmd k v
    | _ => s

/-- A command's step with the code it answers with: what it would have sent as its abort. -/
def State.runCommand (s : State) (f : State → State) : State × Nat :=
  let t := f { s with outbox := [] }
  ({ t with outbox := (t.outbox.filter fun o => o.kind != .abort) ++ s.outbox },
   match t.outbox.find? fun o => o.kind == .abort with
   | some o => o.words.headD 0
   | none => 0)

/-- The lowest role that may write a value of an entry: some commands ask for more, or allow less, than their entry
(R467, R498, R502, R524, R584, R615). -/
def writeRole (r : Row) (e v : Nat) : Nat :=
  if 0x0C000 ≤ e ∧ e < 0x0D000 ∧ e ≠ 0x0C007 ∧ r.acc = .wo then (if fld v 35 34 = 2 then 2 else 1)
  else match e with
    | 0x00105 => if fld v 17 14 = 2 then 2 else 3
    | 0x01002 => if v = 6 then 3 else r.role
    | 0x0D003 => if v = 2 then 3 else r.role
    | 0x10009 => if v = 4 then 3 else r.role
    | _ => r.role

end Sys2Proof.Machine
end

