-- ==== Sys2Proof/Machine/Dict.lean ====
section
/-! DEFINITION. Operations on values (R449, R459, R461): READ, WRITE, WRITE_VERIFY, their bulk forms, DESCRIBE, and the
blob operations (R460). -/

namespace Sys2Proof.Machine

/-! ### Checks of a write -/

/-- The words of one value of a row; BLOB values travel in blob operations alone, TEXT holds its own count. -/
def Row.words (r : Row) : Nat := r.ty.words

/-- A write to a mirrored entry is refused at a unit that follows its partner (R436). -/
def State.mirrorBars (s : State) (e : Nat) (r : Row) : Bool :=
  mirrored e r && (s.pair.state == .standby || s.pair.state == .joining)

/-- The state forbids the write (R449, R436 and the entry's own chapter). -/
def State.barred (s : State) (r : Row) (e k v : Nat) : Bool :=
  (r.acc == .rws && s.power.state == .full) || s.mirrorBars e r || s.stateBars e k v

/-- The code that a write of a value ends with; 0 when it is accepted (R449, R453, R463). -/
def State.writeCode (s : State) (r : Row) (e k role : Nat) (ws : List Word) : Nat :=
  let v := valueOf r.ty ws
  if r.acc = .ro then aReadOnly
  else if r.ty = .blob ∨ ws.length ≠ r.words then aBadLength
  else if role < writeRole r e v then aNoRight
  else if r.per = .prof ∧ s.noProfile = true then aNoProfile
  else if s.barred r e k v then aBadState
  else if wordsFit r.ty ws && s.valueOk r e k v then 0
  else aBadValue

/-- An accepted write of a kept or per-profile entry by an Engineer or Custodian session writes a Tally record (R451). -/
def State.recordWrite (s : State) (m : Msg) (r : Row) (e k : Nat) : State :=
  if r.per ≠ .vol ∧ m.session.val ≠ 0 ∧ 2 ≤ s.roleFor m then s.settingRecord e k m.session m.path (s.roleFor m) else s

/-- An accepted write acts: the state and the code its command answers with. -/
def State.doWrite (s : State) (m : Msg) (r : Row) (e k : Nat) (ws : List Word) : State × Nat :=
  let v := valueOf r.ty ws
  if r.acc = .wo then s.runCommand fun s => s.commandOp e k v m.session m.path
  else ((s.recordWrite m r e k).accept r e k v, 0)

/-! ### READ and WRITE -/

/-- READ (R459). -/
def State.readOp (s : State) (m : Msg) : State × Reply :=
  match lookEntry m.entry m.sub with
  | .error c => (s, .fail c m.sub [])
  | .ok r =>
    if r.acc = .wo then (s, .fail aWriteOnly m.sub [])
    else if r.ty = .blob ∨ m.body ≠ [] then (s, .fail aBadLength m.sub [])
    else (s, .body (s.isPending m.entry m.sub) (s.readWords r m.entry m.sub))

/-- The answer of a command that the update runs until its check ends (R561). -/
def State.waitCheck (s : State) (m : Msg) : State :=
  let q : OpenReq := { op := 2, path := m.path, source := m.source, msg := m, relay := 0 }
  { s with dict.waiting := s.dict.waiting ++ [q] }

/-- A CHECK of the update answers at its end. -/
def waitsCheck (e : Nat) (ws : List Word) : Bool := e == 0x0F003 && fld (u36 (ws.map BitVec.toNat)) 35 33 == 2

/-- WRITE (R459). -/
def State.writeOp (s : State) (m : Msg) : State × Reply :=
  match lookEntry m.entry m.sub with
  | .error c => (s, .fail c m.sub [])
  | .ok r =>
    let c := s.writeCode r m.entry m.sub (s.roleFor m) m.body
    if c ≠ 0 then (s, .fail c m.sub [])
    else
      let (s, c) := s.doWrite m r m.entry m.sub m.body
      if c ≠ 0 then (s, .fail c m.sub [])
      else if waitsCheck m.entry m.body then (s.waitCheck m, .later)
      else (s, .body false [])

/-- The answer of a WRITE_VERIFY whose write has taken effect: the value then read, under VERIFY_FAIL when it is not the
one written (R461). -/
def State.verified (s : State) (m : Msg) (r : Row) : Reply :=
  let ws := s.readWords r m.entry m.sub
  if ws = m.body.map BitVec.toNat then .body false ws else .fail aVerifyFail m.sub ws

/-- WRITE_VERIFY (R461): an RWT entry answers after the turn. -/
def State.verifyOp (s : State) (m : Msg) : State × Reply :=
  match lookEntry m.entry m.sub with
  | .error c => (s, .fail c m.sub [])
  | .ok r =>
    if r.acc = .wo then (s, .fail aWriteOnly m.sub [])
    else
      let c := s.writeCode r m.entry m.sub (s.roleFor m) m.body
      if c ≠ 0 then (s, .fail c m.sub [])
      else
        let (s, _) := s.doWrite m r m.entry m.sub m.body
        if r.acc = .rwt then
          let q : OpenReq := { op := 3, path := m.path, source := m.source, msg := m, relay := 0 }
          ({ s with dict.waiting := s.dict.waiting ++ [q] }, .later)
        else (s, s.verified m r)

/-- READ (R459). -/
def execRead (m : Msg) (s : State) : Host.Outcome State Fault Refusal := .next (s.serve m 1 1 fun s => s.readOp m)
/-- WRITE (R459). -/
def execWrite (m : Msg) (s : State) : Host.Outcome State Fault Refusal := .next (s.serve m 2 1 fun s => s.writeOp m)
/-- WRITE_VERIFY (R459, R461). -/
def execWriteVerify (m : Msg) (s : State) : Host.Outcome State Fault Refusal := .next (s.serve m 3 1 fun s => s.verifyOp m)

/-! ### Bulk operations (R461) -/

/-- The sub-entries that a request names. -/
def subsOf (m : Msg) : List Nat := (List.range (m.count + 1)).map (m.sub + ·)

/-- COUNT stays within 511 and ends at or before the last sub-entry, and every sub-entry exists: none, or the code and the
sub-entry missing. -/
def rangeBad (r : Row) (m : Msg) : Option (Nat × Nat) :=
  if 511 < m.count ∨ r.subs < m.sub + m.count + 1 then some (aTooMany, m.sub)
  else ((subsOf m).find? fun k => !r.hasSub m.entry k).map fun k => (aNoSub, k)

/-- READ_BULK (R461). -/
def State.readBulkOp (s : State) (m : Msg) : State × Reply :=
  match lookEntry m.entry m.sub with
  | .error c => (s, .fail c m.sub [])
  | .ok r =>
    if r.acc = .wo then (s, .fail aWriteOnly m.sub [])
    else if r.ty = .blob ∨ m.body ≠ [] then (s, .fail aBadLength m.sub [])
    else match rangeBad r m with
      | some (c, k) => (s, .fail c k [])
      | none =>
        if pathLimit m.path < 7 + r.words * (m.count + 1) then (s, .fail aBadLength m.sub [])
        else (s, .body ((subsOf m).any fun k => s.isPending m.entry k) ((subsOf m).flatMap fun k => s.readWords r m.entry k))

/-- The values of a bulk write, each with its sub-entry. -/
def valuesOf (m : Msg) (w : Nat) : List (Nat × List Word) :=
  (List.range (m.count + 1)).map fun i => (m.sub + i, (m.body.drop (w * i)).take w)

/-- The first value of a bulk write that is refused, each judged against those before it. -/
def State.bulkCode (s : State) (m : Msg) (r : Row) : List (Nat × List Word) → Option (Nat × Nat)
  | [] => none
  | (k, ws) :: l =>
    let c := s.writeCode r m.entry k (s.roleFor m) ws
    if c ≠ 0 then some (c, k)
    else
      let v := valueOf r.ty ws
      (if r.acc = .rwt then { s with dict.pending := s.dict.pending ++ [(key m.entry k, v)] }
        else if r.acc = .wo then s else s.setCfg m.entry k v).bulkCode m r l

/-- The values of a bulk write act in turn; a command that refuses leaves nothing done. -/
def State.bulkWrite (s : State) (m : Msg) (r : Row) : List (Nat × List Word) → State × Option (Nat × Nat)
  | [] => (s, none)
  | (k, ws) :: l =>
    match s.doWrite m r m.entry k ws with
    | (s, 0) => s.bulkWrite m r l
    | (s, c) => (s, some (c, k))

/-- WRITE_BULK (R461): all or none. -/
def State.writeBulkOp (s : State) (m : Msg) : State × Reply :=
  match lookEntry m.entry m.sub with
  | .error c => (s, .fail c m.sub [])
  | .ok r =>
    if r.acc = .ro then (s, .fail aReadOnly m.sub [])
    else match rangeBad r m with
      | some (c, k) => (s, .fail c k [])
      | none =>
        if r.ty = .blob ∨ m.body.length ≠ r.words * (m.count + 1) then (s, .fail aBadLength m.sub [])
        else match s.bulkCode m r (valuesOf m r.words) with
          | some (c, k) => (s, .fail c k [])
          | none => match s.bulkWrite m r (valuesOf m r.words) with
            | (_, some (c, k)) => (s, .fail c k [])
            | (t, none) => (t, .body false [])

/-- READ_BULK (R459, R461). -/
def execReadBulk (m : Msg) (s : State) : Host.Outcome State Fault Refusal := .next (s.serve m 4 3 fun s => s.readBulkOp m)
/-- WRITE_BULK (R459, R461). -/
def execWriteBulk (m : Msg) (s : State) : Host.Outcome State Fault Refusal := .next (s.serve m 5 3 fun s => s.writeBulkOp m)

/-! ### DESCRIBE (R465) -/

def Acc.code : Acc → Nat
  | .ro => 0 | .rw => 1 | .wo => 2 | .rwt => 3 | .rws => 4
def Per.code : Per → Nat
  | .vol => 0 | .kept => 1 | .prof => 2

/-- The lowest writing role of an entry; 0 for one that nobody writes. -/
def lowestRole (r : Row) (e : Nat) : Nat :=
  if r.acc = .ro then 0 else if e = 0x00105 then 2 else r.role

/-- The number of sub-entries that exist. -/
def subCount (r : Row) (e : Nat) : Nat := (List.range r.subs).countP fun k => r.hasSub e k

/-- The default of sub-entry 0: an RO entry that stands on the firmware, the straps or OTP reads its value there. -/
def State.describedDefault (s : State) (r : Row) (e : Nat) : List Nat :=
  if r.acc = .wo ∨ r.ty = .blob then []
  else if [0x00000, 0x00001, 0x00002, 0x00003, 0x00106, 0x0E004, 0x0E005, 0x0F014].contains e then
    valWords r.ty.words (s.roValue e 0)
  else valWords r.ty.words (r.default 0)

/-- The body of a DESCRIBE response. -/
def State.describeWords (s : State) (r : Row) (e : Nat) : List Nat :=
  [put 14 4 r.ty.code + put 11 3 r.acc.code + put 9 2 r.per.code + put 7 2 (lowestRole r e),
   subCount r e % 2 ^ 13, r.ty.words] ++ s.describedDefault r e

/-- DESCRIBE (R465). -/
def State.describeOp (s : State) (m : Msg) : State × Reply :=
  match lookEntry m.entry 0 with
  | .error c => (s, .fail c 0 [])
  | .ok r => if m.body ≠ [] then (s, .fail aBadLength 0 []) else (s, .body false (s.describeWords r m.entry))

/-- DESCRIBE (R459, R465). -/
def execDescribe (m : Msg) (s : State) : Host.Outcome State Fault Refusal := .next (s.serve m 9 2 fun s => s.describeOp m)

/-! ### Blobs (R459, R460) -/

/-- OFFSET of a blob request. -/
def blobOffset (m : Msg) : Nat := u36 ((m.body.take 2).map BitVec.toNat)

/-- BLOB_READ. -/
def State.blobReadOp (s : State) (m : Msg) : State × Reply :=
  match lookEntry m.entry m.sub with
  | .error c => (s, .fail c m.sub [])
  | .ok r =>
    let n := (m.body.getD 2 0).toNat
    if r.acc = .wo then (s, .fail aWriteOnly m.sub [])
    else if r.ty ≠ .blob ∨ m.body.length ≠ 3 then (s, .fail aBadLength m.sub [])
    else
      let l := s.blobWords m.entry m.sub m.session m.path m.source
      if n = 0 ∨ pathLimit m.path - 12 < n ∨ l.length < blobOffset m then (s, .fail aBadValue m.sub [])
      else (s, .body (s.isPending m.entry m.sub) (words36 l.length ++ (l.drop (blobOffset m)).take n))

/-- The open blob of an entry (R460). -/
def State.openBlob (s : State) (m : Msg) : Option OpenBlob :=
  s.dict.openBlobs.find? fun b => b.entry == m.entry && b.sub == m.sub

/-- The staged words of an entry discarded. -/
def State.dropBlob (s : State) (m : Msg) : State :=
  { s with dict.openBlobs := s.dict.openBlobs.filter fun b => !(b.entry == m.entry && b.sub == m.sub) }

/-- The code of a BLOB entry's whole value; 0 when it is accepted. -/
def State.blobCode (s : State) (m : Msg) (r : Row) (l : List Word) : Nat :=
  if s.roleFor m < r.role then aNoRight
  else if r.per = .prof ∧ s.noProfile = true then aNoProfile
  else if s.barred r m.entry m.sub 0 then aBadState
  else if s.blobOk m.entry l then 0
  else aBadValue

/-- The whole value of a blob acts on FINAL: a request to the Fold (R536), a block of firmware (R558), or a setting. -/
def State.blobFinal (s : State) (m : Msg) (r : Row) (l : List Word) : State × Reply :=
  let c := s.blobCode m r l
  if c ≠ 0 then (s, .fail c m.sub [])
  else if m.entry = 0x0E002 then
    (s.foldRequest { path := m.path, source := m.source, session := m.session, tag := m.tag } (l.map BitVec.toNat), .later)
  else if m.entry = 0x0F001 then
    match s.blockOp (l.map BitVec.toNat) with
    | (s, 0) => (s, .body false [])
    | (s, c) => (s, .fail c m.sub [])
  else ((s.recordWrite m r m.entry m.sub).acceptBlob r m.entry m.sub l, .body false [])

/-- A segment in its order. -/
def State.blobSegment (s : State) (m : Msg) (r : Row) (staged : List Word) : State × Reply :=
  let l := staged ++ m.body.drop 3
  let s := s.dropBlob m
  if bit (m.body.getD 2 0).toNat 17 then s.blobFinal m r l
  else
    let b : OpenBlob := { entry := m.entry, sub := m.sub, path := m.path, source := m.source, words := l }
    ({ s with dict.openBlobs := s.dict.openBlobs ++ [b] }, .body false [])

/-- BLOB_WRITE of a BLOB entry that takes writes. -/
def State.blobStage (s : State) (m : Msg) (r : Row) : State × Reply :=
  match s.openBlob m with
  | some b =>
    if b.path ≠ m.path.val ∨ b.source ≠ m.source then (s, .fail aBusy m.sub [])
    else if blobOffset m ≠ b.words.length then (s.dropBlob m, .fail aBlobSequence m.sub [])
    else s.blobSegment m r b.words
  | none =>
    if blobOffset m ≠ 0 then (s, .fail aBlobSequence m.sub [])
    else if 4 ≤ s.dict.openBlobs.length then (s, .fail aBusy m.sub [])
    else s.blobSegment m r []

/-- BLOB_WRITE. -/
def State.blobWriteOp (s : State) (m : Msg) : State × Reply :=
  match lookEntry m.entry m.sub with
  | .error c => (s, .fail c m.sub [])
  | .ok r =>
    if r.acc = .ro then (s, .fail aReadOnly m.sub [])
    else if r.ty ≠ .blob ∨ m.body.length < 3 then (s, .fail aBadLength m.sub [])
    else if s.roleFor m < r.role then (s, .fail aNoRight m.sub [])
    else if fld (m.body.getD 2 0).toNat 16 0 ≠ 0 then (s, .fail aBadValue m.sub [])
    else s.blobStage m r

/-- BLOB_READ (R459). -/
def execBlobRead (m : Msg) (s : State) : Host.Outcome State Fault Refusal := .next (s.serve m 15 1 fun s => s.blobReadOp m)
/-- BLOB_WRITE (R459, R460). -/
def execBlobWrite (m : Msg) (s : State) : Host.Outcome State Fault Refusal := .next (s.serve m 16 1 fun s => s.blobWriteOp m)

/-- BLOB_GAP_EXPIRY (R460): the staged words of the entry are discarded, and nothing answers. -/
def execBlobGapExpiry (entry : Nat) (s : State) : Host.Outcome State Fault Refusal :=
  .next { s with dict.openBlobs := s.dict.openBlobs.filter fun b => b.entry != entry }

end Sys2Proof.Machine
end

