-- ==== Sys2Proof/Machine/Points.lean ====
section
/-! DEFINITION. Point-indexed operations (R162, R163, R459). -/

namespace Sys2Proof.Machine

/-- The abort code of an access that the image refuses (R104, R149, R179, R459). -/
def Deny.code : Deny → Nat
  | .unmapped => aNoObject
  | .readOnly => aBadState
  | .error | .held | .poisoned => aMemoryError

/-- Index of the first point, and the points that a request names. -/
def pointFirst (m : Msg) : Nat := u36 ((m.body.take 2).map BitVec.toNat)
def pointsOf (m : Msg) : List Nat := (List.range (m.count + 1)).map (pointFirst m + ·)

/-- The runs of the points that a request names, in order; none when one of them is unmapped. -/
def State.pointRuns (s : State) (m : Msg) : Option (List (Nat × Run)) :=
  (pointsOf m).mapM fun x => (mapRun s.image.map x).map fun r => (x, r)

/-- Words of a point's value. -/
def Run.words (r : Run) : Nat := if r.kind = 2 then r.width + 1 else 1

/-- One line of an unscheduled read of class DICT; a class that Bell holds ends it (R497). -/
def State.dictLine (s : State) (up : Bool) (L mask : Nat) : State × Except Deny (List Word) :=
  if s.classSafe 2 2 then (s, .error .error)
  else (s.clientEnter 2 up L false mask).unschedRead up L mask

/-- The words from an address on, line by line. -/
def State.readSpans (s : State) (up : Bool) : List (Nat × Nat × Nat) → State × Except Deny (List Word)
  | [] => (s, .ok [])
  | (l, a, k) :: rest =>
    match s.dictLine up l (spanMask a k) with
    | (s, .error d) => (s, .error d)
    | (s, .ok ws) => match s.readSpans up rest with
      | (s, .ok more) => (s, .ok ((ws.drop a).take k ++ more))
      | (s, .error d) => (s, .error d)

/-- The effective quality of a wide value: that of its lowest word with every higher word that is HELD or BAD (R157). -/
def wideQuality : List Word → Nat
  | [] => qBad
  | w :: l => l.foldl (fun q x => if wq x = qHeld ∨ wq x = qBad then worst q (wq x) else q) (wq w)

/-- A point's words as a read returns them (R162). -/
def pointValue (r : Run) (x : Nat) : List Word → List Word
  | [] => []
  | w :: l =>
    match r.kind with
    | 0 => [mkW (wq w) (if (wp w).testBit (r.place x).2 then 1 else 0)]
    | 1 => [w]
    | _ => mkW (wideQuality (w :: l)) (wp w) :: l

/-- One point read. -/
def State.readPoint (s : State) (x : Nat) (r : Run) : State × Except Deny (List Word) :=
  match s.readSpans r.upland (lineSpans (r.place x).1 r.words) with
  | (s, .ok ws) => (s, .ok (pointValue r x ws))
  | (s, .error d) => (s, .error d)

/-- Points read in order, up to the first that fails. -/
def State.readPoints (s : State) : List (Nat × Run) → State × Except Deny (List Word)
  | [] => (s, .ok [])
  | (x, r) :: l =>
    match s.readPoint x r with
    | (s, .error d) => (s, .error d)
    | (s, .ok ws) => match s.readPoints l with
      | (s, .ok more) => (s, .ok (ws ++ more))
      | (s, .error d) => (s, .error d)

/-- POINT_READ. -/
def State.pointReadOp (s : State) (m : Msg) : State × Reply :=
  if m.body.length ≠ 2 then (s, .fail aBadLength 0 [])
  else match s.pointRuns m with
    | none => (s, .fail aNoObject 0 [])
    | some rs =>
      if pathLimit m.path < 7 + (rs.map fun p => p.2.words).sum then (s, .fail aBadLength 0 [])
      else match s.readPoints rs with
        | (s, .ok ws) => (s, .body false (ws.map BitVec.toNat))
        | (s, .error d) => (s, .fail d.code 0 [])

/-- The words that a point write stores (R163): a flock word's bit, the word, or every word of a wide value with the quality
presented in its lowest word; and the bit that is merged. -/
def pointStores (x : Nat) (r : Run) (ws : List Word) : List Word × Option Nat :=
  match r.kind with
  | 0 => (ws.take 1, some (r.place x).2)
  | 1 => (ws, none)
  | _ => (ws.map fun w => mkW (wq (ws.getD 0 0)) (wp w), none)

/-- Words of a request written line by line, each line one access of class DICT. -/
def State.writeSpans (s : State) (m : Msg) (up : Bool) (b : Option Nat) : List (Nat × Nat × Nat) → List Word → State × Except Deny Unit
  | [], _ => (s, .ok ())
  | (l, a, k) :: rest, ws =>
    if s.classSafe 2 2 then (s, .error .error)
    else
      match (s.clientEnter 2 up l true (spanMask a k)).clientWrite 2 up l (spanMask a k) (List.replicate a 0 ++ ws.take k) b (some m) with
      | (s, .ok ()) => s.writeSpans m up b rest (ws.drop k)
      | (s, .error d) => (s, .error d)

/-- Points written in order, up to the first that fails. -/
def State.writePoints (s : State) (m : Msg) : List (Nat × Run) → List Word → State × Except Deny Unit
  | [], _ => (s, .ok ())
  | (x, r) :: l, ws =>
    let (stores, b) := pointStores x r (ws.take r.words)
    match s.writeSpans m r.upland b (lineSpans (r.place x).1 r.words) stores with
    | (s, .ok ()) => s.writePoints m l (ws.drop r.words)
    | (s, .error d) => (s, .error d)

/-- POINT_WRITE needs Operator; one of whose lines waits for its CARRY is answered when none waits any more (R104, R461). -/
def State.pointWriteOp (s : State) (m : Msg) : State × Reply :=
  if m.body.length < 2 then (s, .fail aBadLength 0 [])
  else match s.pointRuns m with
    | none => (s, .fail aNoObject 0 [])
    | some rs =>
      if m.body.length ≠ 2 + (rs.map fun p => p.2.words).sum then (s, .fail aBadLength 0 [])
      else if s.roleFor m < 1 then (s, .fail aNoRight 0 [])
      else match s.writePoints m rs (m.body.drop 2) with
        | (s, .ok ()) =>
          if s.ledger.waiting.any fun x => x.req == some m then
            ({ s with dict.waiting := s.dict.waiting ++ [openPoint m] }, .later)
          else (s, .body false [])
        | (s, .error d) => (s, .fail d.code 0 [])

/-- POINT_READ (R162, R459). -/
def execPointRead (m : Msg) (s : State) : Host.Outcome State Fault Refusal := .next (s.serve m 10 4 fun s => s.pointReadOp m)
/-- POINT_WRITE (R163, R459). -/
def execPointWrite (m : Msg) (s : State) : Host.Outcome State Fault Refusal := .next (s.serve m 11 4 fun s => s.pointWriteOp m)

end Sys2Proof.Machine
end

