-- ==== Sys2Proof/Machine/Dialog.lean ====
section
/-! DEFINITION. Subscriptions (R462), sessions (R454, R455), malformed requests (R464), the ends of relayed requests (R457)
and what the shepherd cores answer at the IP layer (R456). -/

namespace Sys2Proof.Machine

/-! ### Subscriptions (R462) -/

/-- The lowest number that no entry of a store uses, below a bound. -/
def freeNumber (m : List (Nat × α)) (from_ till : Nat) : Option Nat :=
  ((List.range (till - from_)).map (from_ + ·)).find? fun n => !(m.any fun p => p.1 == n)

/-- A store with a number's entry put in its place. -/
def putAt (m : List (Nat × α)) (n : Nat) (x : α) : List (Nat × α) :=
  (m.filter fun p => decide (p.1 < n)) ++ (n, x) :: m.filter fun p => decide (n < p.1)

/-- Subscriptions of a source. -/
def State.subsHeld (s : State) (path source : Nat) : Nat :=
  s.dict.subs.countP fun p => p.2.path == path && p.2.source == source

/-- A subscription as its request gives it. -/
def Sub.asked (m : Msg) : Sub :=
  { path := m.path, source := m.source, session := m.session, tag := m.tag, entry := m.entry, sub := m.sub, count := m.count,
    periodic := bit (m.body.getD 0 0).toNat 17, interval := fld (m.body.getD 0 0).toNat 15 0, since := 0, sent := false,
    nseq := 0, last := [] }

/-- A subscription's words judged, and its place found. -/
def State.subscribeOk (s : State) (m : Msg) : State × Reply :=
  let w := (m.body.getD 0 0).toNat
  if bit w 16 ∨ fld w 15 0 = 0 then (s, .fail aBadValue m.sub [])
  else if 8 ≤ s.subsHeld m.path m.source then (s, .fail aTooMany m.sub [])
  else match freeNumber s.dict.subs 0 64 with
    | none => (s, .fail aTooMany m.sub [])
    | some n => ({ s with dict.subs := putAt s.dict.subs n (Sub.asked m) }, .body false [n])

/-- SUBSCRIBE. -/
def State.subscribeOp (s : State) (m : Msg) : State × Reply :=
  match lookEntry m.entry m.sub with
  | .error c => (s, .fail c m.sub [])
  | .ok r =>
    if r.acc = .wo then (s, .fail aWriteOnly m.sub [])
    else if r.ty = .blob ∨ m.body.length ≠ 1 then (s, .fail aBadLength m.sub [])
    else match rangeBad r m with
      | some (c, k) => (s, .fail c k [])
      | none =>
        if pathLimit m.path < 8 + r.words * (m.count + 1) then (s, .fail aBadLength m.sub []) else s.subscribeOk m

/-- UNSUBSCRIBE: of its own source's subscriptions. -/
def State.unsubscribeOp (s : State) (m : Msg) : State × Reply :=
  let n := (m.body.getD 0 0).toNat
  if m.body.length ≠ 1 then (s, .fail aBadLength 0 [])
  else if s.dict.subs.any fun p => p.1 == n && p.2.path == m.path.val && p.2.source == m.source then
    ({ s with dict.subs := s.dict.subs.filter fun p => p.1 != n }, .body false [])
  else (s, .fail aBadValue 0 [])

/-- The values that a subscription samples. -/
def State.sampled (s : State) (x : Sub) : List Nat :=
  match findRow x.entry with
  | some (r, _) => (List.range (x.count + 1)).flatMap fun i => s.readWords r x.entry (x.sub + i)
  | none => []

/-- A NOTIFY is due at the turn now taken: the first one at the turn after acceptance (R462). -/
def State.notifyDue (s : State) (x : Sub) : Bool :=
  decide (1 ≤ x.since) && (!x.sent || (decide (x.interval ≤ x.since) && (x.periodic || (s.sampled x != x.last.map BitVec.toNat))))

/-- The header of a NOTIFY. -/
def State.notifyHead (s : State) (x : Sub) : Head :=
  { resp := true, op := 8, session := x.session, tag := x.tag, target := s.node, unit := s.unit, entry := x.entry, sub := x.sub,
    abort := 0, count := x.count, pend := false, dflt := s.dict.defaulted.contains (x.entry / 4096) }

/-- A NOTIFY falls due: it leaves with its number and the values, or it is dropped and its number is used. -/
def State.notifyOp (s : State) (n : Nat) (x : Sub) (leaves : Bool) : State :=
  let ws := s.sampled x
  let x' := { x with since := 0, sent := true, nseq := (x.nseq + 1) % 2 ^ 18,
                     last := if leaves then ws.map (BitVec.ofNat 18) else x.last }
  let s := { s with dict.subs := putAt s.dict.subs n x' }
  if leaves then (s.bump 0x00104 6).reply x.path x.source ((s.notifyHead x).words (x.nseq :: ws)) else s.bump 0x00104 7

/-- NOTIFY (R462). -/
def execNotify (n : Fin 64) (leaves : Bool) (s : State) : Host.Outcome State Fault Refusal :=
  .next (match s.dict.subs.find? fun p => p.1 == n.val with
    | some (_, x) => if s.workRuns && s.dict.shepherds && s.notifyDue x then s.notifyOp n x leaves else s
    | none => s)

/-- SUBSCRIBE (R462). -/
def execSubscribe (m : Msg) (s : State) : Host.Outcome State Fault Refusal := .next (s.serve m 6 3 fun s => s.subscribeOp m)
/-- UNSUBSCRIBE (R462). -/
def execUnsubscribe (m : Msg) (s : State) : Host.Outcome State Fault Refusal := .next (s.serve m 7 0 fun s => s.unsubscribeOp m)

/-! ### Sessions (R454, R455) -/

/-- A source's nonces less those it holds. -/
def State.dropNonce (s : State) (path source : Nat) : State :=
  { s with dict.nonces := s.dict.nonces.filter fun x => !(x.path == path && x.source == source) }

/-- CHALLENGE: BUSY while the TRNG is unhealthy (R546). -/
def State.challengeOp (s : State) (m : Msg) : State × Reply :=
  if m.body ≠ [] then (s, .fail aBadLength 0 [])
  else if !s.fold.trngOk then (s, .fail aBusy 0 [])
  else
    let (s, v) := (s.dropNonce m.path m.source).drawBits 256
    let x : Nonce := { path := m.path, source := m.source, value := v }
    ({ s with dict.nonces := s.dict.nonces ++ [x] }, .body false (words16 16 v))

/-- The bytes that a proof covers (R454): the nonce, ROLE, the station and the path. -/
def State.proofBytes (s : State) (nonce role path : Nat) : List Nat :=
  bytes16 (words16 16 nonce) ++ [role, s.station / 256, s.station % 256, path]

/-- The proof of an OPEN verifies under a slot that may grant its role. -/
def State.proofOk (s : State) (m : Msg) (nonce : Nat) : Bool :=
  let w := (m.body.getD 0 0).toNat
  let x := s.slot (fld w 5 0)
  let proof := (m.body.drop 1).map BitVec.toNat
  m.body.length == 17 && fld w 15 6 == 0 && plain16 proof && s.foldReady && s.lcKeys && x.kind == 2 && x.authenticate
    && decide (fld w 17 16 ≤ x.roleMax)
    && big16 proof == Config.hmacSha384 x.material (s.proofBytes nonce (fld w 17 16) m.path) / 2 ^ 128

/-- OPEN. -/
def State.openOp (s : State) (m : Msg) : State × Reply :=
  let s := s.fire 274 m.path
  match freeNumber s.dict.sessions 1 16 with
  | none => (s, .fail aBusy 0 [])
  | some n =>
    let nonce := s.dict.nonces.find? fun x => x.path == m.path.val && x.source == m.source
    let s := s.dropNonce m.path m.source
    if nonce.any fun x => s.proofOk m x.value then
      let w := (m.body.getD 0 0).toNat
      let x : Session := { role := fld w 17 16, path := m.path, source := m.source, slot := fld w 5 0, idle := s.bell.tick }
      (((s.setSession n x).useSlot (fld w 5 0)).foldGrant, .body false [n])
    else (s.foldRefuse, .fail aRefused 0 [])

/-- CLOSE ends the session that the request names. -/
def State.closeOp (s : State) (m : Msg) : State × Reply :=
  if m.body ≠ [] then (s, .fail aBadLength 0 [])
  else if m.session.val = 0 then (s, .fail aNoSession 0 [])
  else (s.endSession m.session, .body false [])

/-- CHALLENGE (R454). -/
def execChallenge (m : Msg) (s : State) : Host.Outcome State Fault Refusal := .next (s.serve m 12 0 fun s => s.challengeOp m)
/-- OPEN (R454). -/
def execOpen (m : Msg) (s : State) : Host.Outcome State Fault Refusal := .next (s.serve m 13 0 fun s => s.openOp m)
/-- CLOSE (R455). -/
def execClose (m : Msg) (s : State) : Host.Outcome State Fault Refusal := .next (s.serve m 14 0 fun s => s.closeOp m)

/-- SESSION_IDLE_EXPIRY (R455): the session received no request for SESSION_IDLE. -/
def execSessionIdleExpiry (n : Fin 16) (s : State) : Host.Outcome State Fault Refusal :=
  .next (if n.val = 0 then s else s.endSession n)

/-- NONCE_EXPIRY (R454). -/
def execNonceExpiry (path : Fin 4) (source : Nat) (s : State) : Host.Outcome State Fault Refusal :=
  .next (s.dropNonce path source)

/-! ### Malformed requests (R464) -/

/-- Word i of a received message. -/
def wordAt (ws : List Word) (i : Nat) : Nat := (ws.getD i 0).toNat

/-- The header of a received message, as far as its fields go. -/
def headOf (ws : List Word) : Head :=
  { resp := true, op := fld (wordAt ws 0) 12 8, session := fld (wordAt ws 0) 7 4, tag := wordAt ws 1, target := fld (wordAt ws 2) 17 8,
    unit := fld (wordAt ws 2) 7 7, entry := wordAt ws 3, sub := fld (wordAt ws 4) 17 6, abort := 0, count := fld (wordAt ws 5) 8 0,
    pend := false, dflt := false }

/-- A header of which the TAG alone is kept. -/
def tagHead (tag : Nat) : Head :=
  { resp := true, op := 0, session := 0, tag := tag, target := 0, unit := 0, entry := 0, sub := 0, abort := 0, count := 0,
    pend := false, dflt := false }

/-- A reserved OP, a reserved header bit, or ABORT, PENDING or DEFAULTED set. -/
def headBad (ws : List Word) : Bool :=
  let op := fld (wordAt ws 0) 12 8
  op == 0 || op == 8 || decide (17 ≤ op) || fld (wordAt ws 0) 3 0 != 0 || fld (wordAt ws 2) 6 0 != 0 || fld (wordAt ws 4) 5 0 != 0
    || fld (wordAt ws 5) 17 9 != 0 || fld (wordAt ws 6) 17 16 != 0

/-- The operation's shape (`shapeOk`), by OP. -/
def opShape (op : Nat) : Nat :=
  match op with
  | 1 | 2 | 3 | 15 | 16 => 1
  | 9 => 2
  | 4 | 5 | 6 => 3
  | 10 | 11 => 4
  | _ => 0

/-- COUNT, ENTRY or SUB set where the operation takes none. -/
def fieldsBad (ws : List Word) : Bool :=
  let entry : Bool := wordAt ws 3 != 0
  let sub : Bool := fld (wordAt ws 4) 17 6 != 0
  let count : Bool := fld (wordAt ws 5) 8 0 != 0
  match opShape (fld (wordAt ws 0) 12 8) with
  | 0 => entry || sub || count
  | 1 => count
  | 2 => sub || count
  | 3 => false
  | _ => entry || sub

/-- How a received message is malformed: the header and code of its answer, or no answer; none when it is well formed. -/
def malformedAs (ws : List Word) (packing : Bool) : Option (Option (Head × Nat)) :=
  if packing ∨ ws.length < 7 then some (some (tagHead 0, aBadRequest))
  else if fld (wordAt ws 0) 17 14 ≠ 1 then some (some (tagHead (wordAt ws 1), aBadRequest))
  else if bit (wordAt ws 0) 13 then some none
  else if headBad ws || fieldsBad ws then some (some (headOf ws, aBadRequest))
  else if fld (wordAt ws 6) 15 0 ≠ ws.length - 7 then some (some (headOf ws, aBadLength))
  else none

/-- DICT_MALFORMED_REQUEST (R464). -/
def execDictMalformedRequest (path : Fin 4) (source : Nat) (words : List Word) (packing : Bool) (s : State) :
    Host.Outcome State Fault Refusal :=
  .next (if !(s.workRuns && s.dict.shepherds && s.pathOpen path) then s
    else match malformedAs words packing with
      | none => s
      | some a =>
        let s := (s.takeReq path).malformed path
        match a with
        | none => s
        | some (h, c) => s.respond path source { h with abort := c } [])

/-! ### The ends of relayed requests (R457) -/

/-- The relayed request under a number. -/
def State.relayed (s : State) (relay : Nat) : Option OpenReq :=
  s.dict.waiting.find? fun q => q.relay != 0 && q.relay == relay

/-- The relayed request under a number is no longer open. -/
def State.endRelay (s : State) (relay : Nat) : State :=
  { s with dict.waiting := s.dict.waiting.filter fun q => !(q.relay != 0 && q.relay == relay) }

/-- RELAYED_RESPONSE: the response goes to its origin under the origin's TAG, its ABORT not judged; one that no relayed
request matches is malformed (R464). -/
def execRelayedResponse (relay abort : Nat) (pend dflt : Bool) (body : List Word) (s : State) :
    Host.Outcome State Fault Refusal :=
  .next (if !(s.workRuns && s.dict.shepherds) then s
    else match s.relayed relay with
      | none => s.malformed 0
      | some q =>
        (s.endRelay relay).reply q.path q.source
          ({ msgHead q.msg q.op with abort := abort, pend := pend, dflt := dflt }.words (body.map BitVec.toNat)))

/-- RELAY_TIMEOUT: TIMEOUT answers the origin. -/
def execRelayTimeout (relay : Nat) (s : State) : Host.Outcome State Fault Refusal :=
  .next (match s.relayed relay with
    | none => s
    | some q => (((s.endRelay relay).bump 0x00104 5).fire 275 q.path).abortReq q.msg q.op aTimeout)

/-! ### The IP layer of the management port (R456) -/

/-- The shepherd cores answer for the DICT_UDP address. -/
def State.ownsAddress (s : State) (address : Nat) : Bool :=
  s.workRuns && s.dict.shepherds && s.cfg 0x00101 0 != 0 && s.cfg 0x00101 0 == address

/-- ARP_REQUEST (R456). -/
def execArpRequest (address asker : Nat) (s : State) : Host.Outcome State Fault Refusal :=
  .next (if s.ownsAddress address then s.emit .arp 48 [asker, address, s.hubMac] else s)

/-- ICMP_ECHO_REQUEST (R456). -/
def execIcmpEchoRequest (address asker : Nat) (payload : List Nat) (s : State) : Host.Outcome State Fault Refusal :=
  .next (if s.ownsAddress address then s.emit .icmp 48 (asker :: address :: payload) else s)

end Sys2Proof.Machine
end

