-- ==== Sys2Proof/Machine/Turn.lean ====
section
/-! DEFINITION. The turn (R99) and the period that stands for it while no tide runs (R450): the grid moves on, tables swap,
and every rule that acts at a turn acts. -/

namespace Sys2Proof.Machine

/-! ### The next tide on the grid (R394 to R396) -/

/-- A tide about to begin: its number, its start in time units, the grid it lies on, and a first tide still to come. -/
structure NextTide where
  f : Nat
  start : Nat
  p : Nat
  anchorF : Nat
  anchorT : Nat
  first : Option (Nat × Nat)
  deriving DecidableEq, Repr

/-- The tide after the running one on the grid in force. -/
def State.followingTide (s : State) : NextTide :=
  { f := (s.time.F + 1) % 2 ^ 36, start := s.time.base + s.time.gridP * tickPerWc, p := s.time.gridP,
    anchorF := s.time.anchorF, anchorT := s.time.anchorT, first := s.time.first }

/-- The first tide of a known grid that a hub running none can begin. -/
def State.resumedTide (s : State) : NextTide :=
  let step := s.time.gridP * tickPerWc
  let k := max ((s.time.base - s.time.anchorT + step - 1) / step) (s.time.F + 1 - s.time.anchorF)
  { f := (s.time.anchorF + k) % 2 ^ 36, start := s.time.anchorT + k * step, p := s.time.gridP, anchorF := s.time.anchorF,
    anchorT := s.time.anchorT, first := none }

/-- The first tide of a hub that knows no grid: MUSTER_PERIOD from now. -/
def State.loneTide (s : State) : NextTide :=
  { f := s.time.highest % 2 ^ 36, start := s.now, p := s.cfg 0x08012, anchorF := s.time.highest % 2 ^ 36, anchorT := s.now,
    first := none }

/-- The tide that begins now: the first of a grid that a SET or a TIDE brought, unless the old grid still has tides to run
before it. -/
def State.nextTide (s : State) : NextTide :=
  match s.time.first with
  | some (f, st) =>
    if s.tideRuns ∧ s.time.base + 2 * (s.time.gridP * tickPerWc) ≤ st then s.followingTide
    else { f := f % 2 ^ 36, start := st, p := s.muster.setP, anchorF := s.time.anchorF, anchorT := s.time.anchorT, first := none }
  | none => if s.time.gridP = 0 then s.loneTide else if s.tideRuns then s.followingTide else s.resumedTide

/-- The index of a tide in the spring cycle of the table in force (R42, R396). -/
def State.indexOf (s : State) (f : Nat) : Nat := (s.tide.index + (f + 2 ^ 36 - s.time.F) % 2 ^ 36) % max 1 s.tide.spring

/-- The grid and fabric time at the start of a tide. -/
def State.gridTo (s : State) (n : NextTide) : State :=
  { s with
    time.F := n.f, time.base := n.start, time.gridP := n.p, time.anchorF := n.anchorF, time.anchorT := n.anchorT,
    time.first := n.first, time.highest := max s.time.highest (n.f + 1) }

/-- The tide counter, the offset and the index at the start of a tide (R42, R99). -/
def State.tideTo (s : State) (n : NextTide) : State :=
  let ran := s.tideRuns
  { s with
    tide.abs0 := s.tide.abs0 + (if ran then s.tideP else (n.start - s.now) / tickPerWc),
    tide.t := if s.tide.begun then s.tide.t + 1 else 0,
    tide.begun := true, tide.runs := true, tide.off := 0, tide.first := false,
    tide.index := s.indexOf n.f }

/-! ### The table at a turn (R103, R111 to R116, R240) -/

/-- A RETIRING half is EMPTY at the end of the first tide of the new table. -/
def State.retireTurn (s : State) : State := if s.table.stage = .retiring ∧ s.tide.first = true then s.emptyStaging else s

/-- The halves change places, and the new table's period and spring cycle are in force from its first tide. -/
def State.swapHalves (s : State) (start : Nat) : State :=
  let h := s.stagingHalf
  let old := if s.table.valid then s.activeHalf.imageId else 0
  let bitNew := s.table.valid && !s.table.active
  { s with
    table := { s.table with valid := true, active := bitNew, stage := .retiring, stagingId := old, fromProfile := none },
    tide.period := h.period, tide.spring := h.spring, tide.first := true, tide.count := 0, tide.index := 0,
    image.stale := [],
    time.gridP := h.period,
    time.anchorF := if h.period = s.time.gridP then s.time.anchorF else s.time.F,
    time.anchorT := if h.period = s.time.gridP then s.time.anchorT else start }

/-- The profile that SELECT brought is selected with its table (R441, R570). -/
def State.selectTurn (s : State) : State :=
  match s.upd.selecting with
  | some n => ({ s with upd.selected := n, upd.selecting := none }.profileForce n).confirmJoin
  | none => s

/-- TABLE_SWAP (R116); a pin of SAFE HOLD whose safe state begins with the new table keeps what it does (R252). -/
def State.swapTable (s : State) : State :=
  let before := s
  let h := s.stagingHalf
  let slots := s.sect 7
  let progs := s.sect 5
  let s := (s.swapHalves s.time.base).bumpFld 0x02028 0 17 0
  (((s.rxSwap slots (s.sect 7)).droveSwap progs (s.sect 5)).selectTurn.applySettings h .rwt).keepSafe before

/-- Drovers restart at the first tide after a warm restart, but those that Bell holds, and those of a drove without a clock
(R209). -/
def State.restartDrovers (s : State) : State :=
  (List.range 256).foldl (fun (s : State) k =>
    if (s.drover k).enabled && (s.drove (k / 8)).n != 0 && !s.droverHeld k then
      (s.keepAwake (k / 16)).setDrover k (s.drover k).restart
    else s) s

/-- Marks of generation g empty at the turn that begins g + 2 (R103). -/
def State.staleTurn (s : State) : State :=
  { s with image.stale := s.image.stale.filter fun p => (p.2 + 2) % 4 != s.tide.t % 4 }

/-- An ARMED half is COMMITTED from the start of the last tide before the swap tide. -/
def State.commitTurn (s : State) : State :=
  if s.table.stage = .armed ∧ s.swapsNext = true then { s with table.stage := .committed } else s

/-- The staging half becomes active in the tide that begins: a COMMITTED half in any case (R113). -/
def State.swaps (s : State) (n : NextTide) : Bool :=
  s.table.stage == .committed || s.table.stage == .armed && s.swapsAt (if s.tide.begun then s.tide.t + 1 else 0) n.start (s.indexOf n.f)

/-! ### Rules that act at a turn -/

/-- WRITE_VERIFY answers once its write has taken effect (R461). -/
def State.verifyTurn (s : State) : State :=
  let done (s : State) (q : OpenReq) : Bool := q.op == 3 && q.relay == 0 && !s.isPending q.msg.entry q.msg.sub
  let l := s.dict.waiting.filter (done s)
  let s := { s with dict.waiting := s.dict.waiting.filter fun q => !done s q }
  l.foldl (fun (s : State) q =>
    match findRow q.msg.entry with
    | some (r, _) => s.answerReq q.msg 3 (s.verified q.msg r)
    | none => s) s

/-- Tides since each subscription's last NOTIFY (R462). -/
def State.subsTurn (s : State) : State :=
  { s with dict.subs := s.dict.subs.map fun p => (p.1, { p.2 with since := p.2.since + 1 }) }

/-- What fires or counts once in a tide may do so again. -/
def State.onceTurn (s : State) : State := { s with ring.wrapSeen := false, image.foundTide := [] }

/-- Settings take effect: groups reset, mirrored writes, RWT writes (R438, R449, R467, R468), with no force left on a point
that the map of the same turn unmaps, and the forces that changed against those before (R185). -/
def State.settingsTurn (s : State) (forces : List (Nat × Nat)) : State :=
  let s := s.resetTurn.pairWritesTurn.pendingTurn.clearForces
  s.forcesChanged forces s.forces

/-- Every rule that acts at a turn, or at a period of R450, but those of the grid and the tide. -/
def State.turnRules (s : State) (forces : List (Nat × Nat)) : State :=
  let s := s.linksTurn
  let s := (List.range 4).foldl (fun (s : State) l => s.phaseTurn l) s
  let s := s.degradeTurn.onceTurn
  let s := (s.settingsTurn forces).portTurn
  let s := (List.range 32).foldl (fun (s : State) d => s.exchangeTurn d) s
  s.busTurn.gateTurn.pairTurn.reportTurns.subsTurn.verifyTurn

/-- What every tide start of the grid brings: membership, TIDE and TIME cells (R363, R364, R400). -/
def State.gridRules (s : State) : State := s.joinTurn.tideCell.timeTurn

/-! ### Leaving FULL, and activation, at a turn (R563 to R565, R604) -/

/-- An EBB_AT has come: the ebb goes before POWER_CMD LIGHT (R613). -/
def State.ebbDue (s : State) : Bool :=
  s.muster.state == .ebbPending && decide (s.muster.ebbAt ≤ s.timeAt s.tideP)

/-- A POWER_CMD that acts at the end of the tide, or at a spring-cycle boundary. -/
def State.powerTurn (s : State) (boundary : Bool) : Option State :=
  match s.power.request with
  | 1 => if boundary && !s.ebbDue then some s.lightEntry else none
  | 3 => some s.keepEntry
  | 4 => some s.deepEntry
  | _ => none

/-- The activation at a boundary: a unit that does not defer makes a warm restart. -/
def State.activate (s : State) : Option State :=
  if s.defers then none else some ({ s with upd.state := .activating, upd.deferred := false }.beginWarm 6)

/-- A unit that defers at its activation tide is marked so. -/
def State.deferTurn (s : State) (due : Bool) : State := if due then { s with upd.deferred := true } else s

/-- An activation is due in the tide that begins. -/
def State.dueNow (s : State) (boundary swap : Bool) (start : Nat) : Bool := boundary && !swap && s.activationDue start

/-! ### TURN -/

/-- A tide begins, with or without a table in force. -/
def State.tideBegins (s : State) (n : NextTide) (swap : Bool) : State :=
  let forces := s.forces
  let restarts := !s.tide.begun && s.table.valid && !swap
  let s := (s.retireTurn.tideTo n).gridTo n
  let s := if swap then s.swapTable else s
  let s := if restarts then { s.restartDrovers with tide.first := true } else s
  ((s.holdExit.staleTurn.commitTurn).gridRules).turnRules forces

/-- The tide that begins is the first of a spring cycle. -/
def State.atBoundary (s : State) (n : NextTide) : Bool := !s.tideRuns || s.indexOf n.f == 0

/-- The turn of a hub whose field side is clocked. -/
def State.turnNow (s : State) : State :=
  let s := { s.tideEnds with upd.actWait := s.upd.actWait - 1 }
  let n := s.nextTide
  let swap := s.swaps n
  let due := s.table.valid && s.dueNow (s.atBoundary n) swap n.start
  match s.powerTurn (s.atBoundary n), (if due then s.activate else none) with
  | some t, _ => t
  | none, some t => t
  | none, none =>
    (s.deferTurn due).tideBegins n swap

/-- TURN (R99). -/
def execTurn (s : State) : Host.Outcome State Fault Refusal := .next (if s.clocked then s.turnNow else s)

/-- A period of R450 while no tide runs; an activation whose moment comes waits for the next start (R563). -/
def State.periodNow (s : State) : State :=
  match (if s.power.state = .full then s.powerTurn true else none) with
  | some t => t
  | none =>
    let s := { s with upd.actWait := 0 }
    (if s.activationDue s.now then { s with upd.actNow := true } else s).turnRules s.forces

/-- A period of R450 while tides run without a table: an activation that is due (R563). -/
def State.periodActivates (s : State) : State :=
  let due := s.dueNow true false s.now
  match (if due then s.activate else none) with
  | some t => t
  | none => s.deferTurn due

/-- NO_TIDE_PERIOD (R450). -/
def execNoTidePeriod (s : State) : Host.Outcome State Fault Refusal :=
  .next (if !s.workRuns then s else if !s.tideRuns then s.periodNow else if !s.table.valid then s.periodActivates else s)

end Sys2Proof.Machine
end

