-- ==== Sys2Proof/Machine/Dispatch.lean ====
section
/-! DEFINITION. One arm per command: each a direct call of the command's meaning. -/

namespace Sys2Proof.Machine
open Sys2Proof

/-- The effect of a command on everything but the queue. -/
def exec (i : Instr) (s : State) : Host.Outcome State Fault Refusal :=
  match i with
  | .turn => Sys2Proof.Machine.execTurn s
  | .noTidePeriod => Sys2Proof.Machine.execNoTidePeriod s
  | .tileWake tile off => Sys2Proof.Machine.execTileWake tile off s
  | .tileDark tile off => Sys2Proof.Machine.execTileDark tile off s
  | .tileRedark tile off => Sys2Proof.Machine.execTileRedark tile off s
  | .wait sl idx => Sys2Proof.Machine.execWait sl idx s
  | .move sl idx => Sys2Proof.Machine.execMove sl idx s
  | .carry sl idx => Sys2Proof.Machine.execCarry sl idx s
  | .push sl idx => Sys2Proof.Machine.execPush sl idx s
  | .fetch sl idx => Sys2Proof.Machine.execFetch sl idx s
  | .store sl idx => Sys2Proof.Machine.execStore sl idx s
  | .drvWr sl idx => Sys2Proof.Machine.execDrvWr sl idx s
  | .drvRd sl idx => Sys2Proof.Machine.execDrvRd sl idx s
  | .pinIn sl idx => Sys2Proof.Machine.execPinIn sl idx s
  | .pinOut sl idx => Sys2Proof.Machine.execPinOut sl idx s
  | .cellTx sl idx => Sys2Proof.Machine.execCellTx sl idx s
  | .pairTx sl idx => Sys2Proof.Machine.execPairTx sl idx s
  | .cellRx sl idx => Sys2Proof.Machine.execCellRx sl idx s
  | .pairRx sl idx => Sys2Proof.Machine.execPairRx sl idx s
  | .penRd sl idx => Sys2Proof.Machine.execPenRd sl idx s
  | .penWr sl idx => Sys2Proof.Machine.execPenWr sl idx s
  | .busLoad sl idx => Sys2Proof.Machine.execBusLoad sl idx s
  | .frameTx sl idx => Sys2Proof.Machine.execFrameTx sl idx s
  | .digest sl idx => Sys2Proof.Machine.execDigest sl idx s
  | .reservedOpcodeStroke sl idx => Sys2Proof.Machine.execReservedOpcodeStroke sl idx s
  | .uplandRefresh ch off completed => Sys2Proof.Machine.execUplandRefresh ch off completed s
  | .uplandCommandRetry ch off ok => Sys2Proof.Machine.execUplandCommandRetry ch off ok s
  | .ledgerBlockStart => Sys2Proof.Machine.execLedgerBlockStart s
  | .ledgerStageGrant rcls inst off => Sys2Proof.Machine.execLedgerStageGrant rcls inst off s
  | .ledgerOverdue cls => Sys2Proof.Machine.execLedgerOverdue cls s
  | .scrubRead unit off => Sys2Proof.Machine.execScrubRead unit off s
  | .scrubWriteBack off => Sys2Proof.Machine.execScrubWriteBack off s
  | .poisonMarkWrite off => Sys2Proof.Machine.execPoisonMarkWrite off s
  | .tableOpen => Sys2Proof.Machine.execTableOpen s
  | .tableCheck => Sys2Proof.Machine.execTableCheck s
  | .tableArm => Sys2Proof.Machine.execTableArm s
  | .tableDisarm => Sys2Proof.Machine.execTableDisarm s
  | .tableDiscard => Sys2Proof.Machine.execTableDiscard s
  | .tableCheckDone elapsed => Sys2Proof.Machine.execTableCheckDone elapsed s
  | .shepherdWatchdog core => Sys2Proof.Machine.execShepherdWatchdog core s
  | .shepherdRestartDone => Sys2Proof.Machine.execShepherdRestartDone s
  | .clearLine upland addr => Sys2Proof.Machine.execClearLine upland addr s
  | .penAccessRead pen => Sys2Proof.Machine.execPenAccessRead pen s
  | .penAccessWrite pen words ends posted => Sys2Proof.Machine.execPenAccessWrite pen words ends posted s
  | .flush pen => Sys2Proof.Machine.execFlush pen s
  | .penHalt pen => Sys2Proof.Machine.execPenHalt pen s
  | .markBad pen => Sys2Proof.Machine.execMarkBad pen s
  | .penDrainDone pen => Sys2Proof.Machine.execPenDrainDone pen s
  | .br d off sense test => Sys2Proof.Machine.execBr d off sense test s
  | .hold d off sense test => Sys2Proof.Machine.execHold d off sense test s
  | .shin d off sense test => Sys2Proof.Machine.execShin d off sense test s
  | .shout d off sense test => Sys2Proof.Machine.execShout d off sense test s
  | .latch d off sense test => Sys2Proof.Machine.execLatch d off sense test s
  | .take d off sense test => Sys2Proof.Machine.execTake d off sense test s
  | .copy d off sense test => Sys2Proof.Machine.execCopy d off sense test s
  | .put_ d off sense test => Sys2Proof.Machine.execPut d off sense test s
  | .step_ d off sense test => Sys2Proof.Machine.execStep d off sense test s
  | .edge d off sense test => Sys2Proof.Machine.execEdge d off sense test s
  | .flag d off sense test => Sys2Proof.Machine.execFlag d off sense test s
  | .halt d off sense test => Sys2Proof.Machine.execHalt d off sense test s
  | .undefinedDroverOpcode d off sense test => Sys2Proof.Machine.execUndefinedDroverOpcode d off sense test s
  | .droveStoreUncorrectable d off sense test => Sys2Proof.Machine.execDroveStoreUncorrectable d off sense test s
  | .droverClockEdge d off sense test => Sys2Proof.Machine.execDroverClockEdge d off sense test s
  | .drvRun d => Sys2Proof.Machine.execDrvRun d s
  | .drvStop d => Sys2Proof.Machine.execDrvStop d s
  | .drvRestart d => Sys2Proof.Machine.execDrvRestart d s
  | .droveCopy drove => Sys2Proof.Machine.execDroveCopy drove s
  | .droveCopyDone drove => Sys2Proof.Machine.execDroveCopyDone drove s
  | .exchange drove mask carry => Sys2Proof.Machine.execExchange drove mask carry s
  | .exchangeCancel drove => Sys2Proof.Machine.execExchangeCancel drove s
  | .droveRegisterWrite drove w value => Sys2Proof.Machine.execDroveRegisterWrite drove w value s
  | .droveStoreWrite drove a value => Sys2Proof.Machine.execDroveStoreWrite drove a value s
  | .vioStateChange bank vio => Sys2Proof.Machine.execVioStateChange bank vio s
  | .bankReturnToService bank => Sys2Proof.Machine.execBankReturnToService bank s
  | .pinCapture pin rise off => Sys2Proof.Machine.execPinCapture pin rise off s
  | .filterOutputChange pin level => Sys2Proof.Machine.execFilterOutputChange pin level s
  | .beaconArm b => Sys2Proof.Machine.execBeaconArm b s
  | .beaconStop b => Sys2Proof.Machine.execBeaconStop b s
  | .beaconEdge b off => Sys2Proof.Machine.execBeaconEdge b off s
  | .busIntegrated ch => Sys2Proof.Machine.execBusIntegrated ch s
  | .busFrameStart ch off => Sys2Proof.Machine.execBusFrameStart ch off s
  | .busFrameTxEnd ch outcome => Sys2Proof.Machine.execBusFrameTxEnd ch outcome s
  | .busFrameReceived ch own esi frame back => Sys2Proof.Machine.execBusFrameReceived ch own esi frame back s
  | .busProtocolViolation ch format rise => Sys2Proof.Machine.execBusProtocolViolation ch format rise s
  | .busRxRecordWrite ch => Sys2Proof.Machine.execBusRxRecordWrite ch s
  | .busTbPenFetch ch tb => Sys2Proof.Machine.execBusTbPenFetch ch tb s
  | .busRecoverDelayExpiry ch => Sys2Proof.Machine.execBusRecoverDelayExpiry ch s
  | .busRecoveryDone ch => Sys2Proof.Machine.execBusRecoveryDone ch s
  | .busDrainDone ch => Sys2Proof.Machine.execBusDrainDone ch s
  | .busRecover ch => Sys2Proof.Machine.execBusRecover ch s
  | .busHalt ch => Sys2Proof.Machine.execBusHalt ch s
  | .busAbortTb ch tb => Sys2Proof.Machine.execBusAbortTb ch tb s
  | .ethFrameReceived port bytes bad back => Sys2Proof.Machine.execEthFrameReceived port bytes bad back s
  | .bestEffortFrameStart port off => Sys2Proof.Machine.execBestEffortFrameStart port off s
  | .portTxPenFetch port => Sys2Proof.Machine.execPortTxPenFetch port s
  | .portSettleDone port => Sys2Proof.Machine.execPortSettleDone port s
  | .portLinkUp port ampl => Sys2Proof.Machine.execPortLinkUp port ampl s
  | .portLinkLost port => Sys2Proof.Machine.execPortLinkLost port s
  | .portLanePllLoss port => Sys2Proof.Machine.execPortLanePllLoss port s
  | .portLocalFault port => Sys2Proof.Machine.execPortLocalFault port s
  | .localFaultEnd port => Sys2Proof.Machine.execLocalFaultEnd port s
  | .remoteFaultReceived port lasts => Sys2Proof.Machine.execRemoteFaultReceived port lasts s
  | .portDrainDone port => Sys2Proof.Machine.execPortDrainDone port s
  | .portHalt port => Sys2Proof.Machine.execPortHalt port s
  | .portCalibrate port => Sys2Proof.Machine.execPortCalibrate port s
  | .portRestart port => Sys2Proof.Machine.execPortRestart port s
  | .fdbAgeExpiry vid mac => Sys2Proof.Machine.execFdbAgeExpiry vid mac s
  | .tunnelRepathHoldExpiry node => Sys2Proof.Machine.execTunnelRepathHoldExpiry node s
  | .ringScheduledCell link beat slot cell check => Sys2Proof.Machine.execRingScheduledCell link beat slot cell check s
  | .unscheduledCellTransit link cell check beat slot => Sys2Proof.Machine.execUnscheduledCellTransit link cell check beat slot s
  | .transitCellSend link beat slot => Sys2Proof.Machine.execTransitCellSend link beat slot s
  | .linkFault link => Sys2Proof.Machine.execLinkFault link s
  | .trainOk link protect => Sys2Proof.Machine.execTrainOk link protect s
  | .delayProbe link ta => Sys2Proof.Machine.execDelayProbe link ta s
  | .delayEcho link ta rt => Sys2Proof.Machine.execDelayEcho link ta rt s
  | .ringLinkSettleDone link => Sys2Proof.Machine.execRingLinkSettleDone link s
  | .ringLinkTrained link polarity swapped => Sys2Proof.Machine.execRingLinkTrained link polarity swapped s
  | .ringTrainingTimeout link => Sys2Proof.Machine.execRingTrainingTimeout link s
  | .ringBlockLockLost link => Sys2Proof.Machine.execRingBlockLockLost link s
  | .ringBlockLockAcquired link => Sys2Proof.Machine.execRingBlockLockAcquired link s
  | .ringLanePllLoss link => Sys2Proof.Machine.execRingLanePllLoss link s
  | .retrainHoldExpiry link => Sys2Proof.Machine.execRetrainHoldExpiry link s
  | .ringHalt link => Sys2Proof.Machine.execRingHalt link s
  | .ringCalibrate link => Sys2Proof.Machine.execRingCalibrate link s
  | .retrain link => Sys2Proof.Machine.execRetrain link s
  | .topology station link up counter => Sys2Proof.Machine.execTopology station link up counter s
  | .tunnel dir cell check => Sys2Proof.Machine.execTunnel dir cell check s
  | .seal_ link tag tide => Sys2Proof.Machine.execSeal link tag tide s
  | .sealLimitExpiry link => Sys2Proof.Machine.execSealLimitExpiry link s
  | .malformedSlot link data => Sys2Proof.Machine.execMalformedSlot link data s
  | .reservedCell link cell check => Sys2Proof.Machine.execReservedCell link cell check s
  | .musterHello link src epoch => Sys2Proof.Machine.execMusterHello link src epoch s
  | .claim dir src claimw part nonce hops wrapped => Sys2Proof.Machine.execClaim dir src claimw part nonce hops wrapped s
  | .standin dir src claimw part nonce epoch hops wrapped => Sys2Proof.Machine.execStandin dir src claimw part nonce epoch hops wrapped s
  | .roster src claimw west d epoch => Sys2Proof.Machine.execRoster src claimw west d epoch s
  | .set link src epoch resume p first start stations => Sys2Proof.Machine.execSet link src epoch resume p first start stations s
  | .join src epoch => Sys2Proof.Machine.execJoin src epoch s
  | .reject link src reason => Sys2Proof.Machine.execReject link src reason s
  | .remuster src epoch => Sys2Proof.Machine.execRemuster src epoch s
  | .remusterCmd => Sys2Proof.Machine.execRemusterCmd s
  | .tide src epoch claimw acting f p => Sys2Proof.Machine.execTide src epoch claimw acting f p s
  | .round src n => Sys2Proof.Machine.execRound src n s
  | .consent src n => Sys2Proof.Machine.execConsent src n s
  | .veto src n need => Sys2Proof.Machine.execVeto src n need s
  | .commit link src n ebbAt => Sys2Proof.Machine.execCommit link src n ebbAt s
  | .cancel link src n reason vetoer => Sys2Proof.Machine.execCancel link src n reason vetoer s
  | .flood src beacons => Sys2Proof.Machine.execFlood src beacons s
  | .startRound => Sys2Proof.Machine.execStartRound s
  | .cancelRound => Sys2Proof.Machine.execCancelRound s
  | .claimListenExpiry => Sys2Proof.Machine.execClaimListenExpiry s
  | .electLimitExpiry => Sys2Proof.Machine.execElectLimitExpiry s
  | .claimRepeatExpiry => Sys2Proof.Machine.execClaimRepeatExpiry s
  | .joinRepeatExpiry => Sys2Proof.Machine.execJoinRepeatExpiry s
  | .tideMasterLoss => Sys2Proof.Machine.execTideMasterLoss s
  | .roundLimitExpiry => Sys2Proof.Machine.execRoundLimitExpiry s
  | .roundIntervalExpiry => Sys2Proof.Machine.execRoundIntervalExpiry s
  | .ebbAtReached => Sys2Proof.Machine.execEbbAtReached s
  | .floodQuietExpiry => Sys2Proof.Machine.execFloodQuietExpiry s
  | .floodBeaconExpiry => Sys2Proof.Machine.execFloodBeaconExpiry s
  | .wakePatternRepeatExpiry link => Sys2Proof.Machine.execWakePatternRepeatExpiry link s
  | .beaconLimitExpiry station => Sys2Proof.Machine.execBeaconLimitExpiry station s
  | .resumeWaitExpiry => Sys2Proof.Machine.execResumeWaitExpiry s
  | .resumeLimitExpiry => Sys2Proof.Machine.execResumeLimitExpiry s
  | .wakeInput active => Sys2Proof.Machine.execWakeInput active s
  | .wakePatternDetected link => Sys2Proof.Machine.execWakePatternDetected link s
  | .sync link src wrapped hops m at16 residence => Sys2Proof.Machine.execSync link src wrapped hops m at16 residence s
  | .report src d dstate offset rate gm cls steps => Sys2Proof.Machine.execReport src d dstate offset rate gm cls steps s
  | .announce src d valid port m => Sys2Proof.Machine.execAnnounce src d valid port m s
  | .syncPreTideExpiry => Sys2Proof.Machine.execSyncPreTideExpiry s
  | .syncLossTides => Sys2Proof.Machine.execSyncLossTides s
  | .holdoverLimitExpiry => Sys2Proof.Machine.execHoldoverLimitExpiry s
  | .revertHoldExpiry => Sys2Proof.Machine.execRevertHoldExpiry s
  | .domainSyncLoss d => Sys2Proof.Machine.execDomainSyncLoss d s
  | .domainReportLoss d => Sys2Proof.Machine.execDomainReportLoss d s
  | .ptpSyncIntervalExpiry d port off => Sys2Proof.Machine.execPtpSyncIntervalExpiry d port off s
  | .announceIntervalExpiry d => Sys2Proof.Machine.execAnnounceIntervalExpiry d s
  | .ptpSync m twoStep => Sys2Proof.Machine.execPtpSync m twoStep s
  | .ptpFollowUp m => Sys2Proof.Machine.execPtpFollowUp m s
  | .ptpDelayReq m => Sys2Proof.Machine.execPtpDelayReq m s
  | .ptpDelayResp m => Sys2Proof.Machine.execPtpDelayResp m s
  | .ptpPdelayReq m => Sys2Proof.Machine.execPtpPdelayReq m s
  | .ptpPdelayResp m twoStep => Sys2Proof.Machine.execPtpPdelayResp m twoStep s
  | .ptpPdelayRespFollowUp m => Sys2Proof.Machine.execPtpPdelayRespFollowUp m s
  | .ptpAnnounce m a utc path => Sys2Proof.Machine.execPtpAnnounce m a utc path s
  | .ptpManagement m => Sys2Proof.Machine.execPtpManagement m s
  | .ptpMalformed port => Sys2Proof.Machine.execPtpMalformed port s
  | .timeSet at_ => Sys2Proof.Machine.execTimeSet at_ s
  | .switch => Sys2Proof.Machine.execSwitch s
  | .claimFrameStart => Sys2Proof.Machine.execClaimFrameStart s
  | .claimFrameReceived claim next crc good turned => Sys2Proof.Machine.execClaimFrameReceived claim next crc good turned s
  | .claimInSilence => Sys2Proof.Machine.execClaimInSilence s
  | .pairHello node unit st claim image f fw => Sys2Proof.Machine.execPairHello node unit st claim image f fw s
  | .aloneWaitExpiry => Sys2Proof.Machine.execAloneWaitExpiry s
  | .pairDigest f entries => Sys2Proof.Machine.execPairDigest f entries s
  | .pairDigestSend => Sys2Proof.Machine.execPairDigestSend s
  | .selfcheckDone signature => Sys2Proof.Machine.execSelfcheckDone signature s
  | .selfcheck pass f signature => Sys2Proof.Machine.execSelfcheck pass f signature s
  | .mirror seq words => Sys2Proof.Machine.execMirror seq words s
  | .pairCommit seq count crc fk => Sys2Proof.Machine.execPairCommit seq count crc fk s
  | .pairAck seq => Sys2Proof.Machine.execPairAck seq s
  | .nak seq => Sys2Proof.Machine.execNak seq s
  | .partnerSilence => Sys2Proof.Machine.execPartnerSilence s
  | .swap => Sys2Proof.Machine.execSwap s
  | .rejoin => Sys2Proof.Machine.execRejoin s
  | .confirm => Sys2Proof.Machine.execConfirm s
  | .resync => Sys2Proof.Machine.execResync s
  | .read m => Sys2Proof.Machine.execRead m s
  | .write m => Sys2Proof.Machine.execWrite m s
  | .writeVerify m => Sys2Proof.Machine.execWriteVerify m s
  | .readBulk m => Sys2Proof.Machine.execReadBulk m s
  | .writeBulk m => Sys2Proof.Machine.execWriteBulk m s
  | .subscribe m => Sys2Proof.Machine.execSubscribe m s
  | .unsubscribe m => Sys2Proof.Machine.execUnsubscribe m s
  | .notify n leaves => Sys2Proof.Machine.execNotify n leaves s
  | .describe m => Sys2Proof.Machine.execDescribe m s
  | .pointRead m => Sys2Proof.Machine.execPointRead m s
  | .pointWrite m => Sys2Proof.Machine.execPointWrite m s
  | .challenge m => Sys2Proof.Machine.execChallenge m s
  | .open_ m => Sys2Proof.Machine.execOpen m s
  | .close m => Sys2Proof.Machine.execClose m s
  | .blobRead m => Sys2Proof.Machine.execBlobRead m s
  | .blobWrite m => Sys2Proof.Machine.execBlobWrite m s
  | .dictMalformedRequest path source words packing => Sys2Proof.Machine.execDictMalformedRequest path source words packing s
  | .relayedResponse relay abort pend dflt body => Sys2Proof.Machine.execRelayedResponse relay abort pend dflt body s
  | .relayTimeout relay => Sys2Proof.Machine.execRelayTimeout relay s
  | .blobGapExpiry entry => Sys2Proof.Machine.execBlobGapExpiry entry s
  | .sessionIdleExpiry n => Sys2Proof.Machine.execSessionIdleExpiry n s
  | .nonceExpiry path source => Sys2Proof.Machine.execNonceExpiry path source s
  | .arpRequest address asker => Sys2Proof.Machine.execArpRequest address asker s
  | .icmpEchoRequest address asker payload => Sys2Proof.Machine.execIcmpEchoRequest address asker payload s
  | .resetGroup group => Sys2Proof.Machine.execResetGroup group s
  | .clearDefaulted group => Sys2Proof.Machine.execClearDefaulted group s
  | .closeAll => Sys2Proof.Machine.execCloseAll s
  | .bar2Read addr n full => Sys2Proof.Machine.execBar2Read addr n full s
  | .bar2Write addr words full ep => Sys2Proof.Machine.execBar2Write addr words full ep s
  | .reqData w => Sys2Proof.Machine.execReqData w s
  | .reqEnd => Sys2Proof.Machine.execReqEnd s
  | .reqAbort => Sys2Proof.Machine.execReqAbort s
  | .rspData => Sys2Proof.Machine.execRspData s
  | .rspFlush => Sys2Proof.Machine.execRspFlush s
  | .intStatusClear mask enable => Sys2Proof.Machine.execIntStatusClear mask enable s
  | .qlock on => Sys2Proof.Machine.execQlock on s
  | .bar0UnmappedAccess offset write => Sys2Proof.Machine.execBar0UnmappedAccess offset write s
  | .msiXTableWrite vector dword value => Sys2Proof.Machine.execMsiXTableWrite vector dword value s
  | .tideInterrupt => Sys2Proof.Machine.execTideInterrupt s
  | .pcieReset linkDown => Sys2Proof.Machine.execPcieReset linkDown s
  | .pcieLinkUp speed width => Sys2Proof.Machine.execPcieLinkUp speed width s
  | .quayRead offset n beats => Sys2Proof.Machine.execQuayRead offset n beats s
  | .quayPostedWrite offset words => Sys2Proof.Machine.execQuayPostedWrite offset words s
  | .quayWriteBurst beats => Sys2Proof.Machine.execQuayWriteBurst beats s
  | .quayLockTimeout => Sys2Proof.Machine.execQuayLockTimeout s
  | .quayDrainDone => Sys2Proof.Machine.execQuayDrainDone s
  | .quayHalt => Sys2Proof.Machine.execQuayHalt s
  | .msgWrite words e => Sys2Proof.Machine.execMsgWrite words e s
  | .msgRead len e => Sys2Proof.Machine.execMsgRead len e s
  | .imageWrite words e => Sys2Proof.Machine.execImageWrite words e s
  | .reservedServiceCommand => Sys2Proof.Machine.execReservedServiceCommand s
  | .bellFiring src inst detail => Sys2Proof.Machine.execBellFiring src inst detail s
  | .bellWindowTick => Sys2Proof.Machine.execBellWindowTick s
  | .bellCompareMismatch => Sys2Proof.Machine.execBellCompareMismatch s
  | .bellAck src session path => Sys2Proof.Machine.execBellAck src session path s
  | .bellForce src inst => Sys2Proof.Machine.execBellForce src inst s
  | .ackAll session path => Sys2Proof.Machine.execAckAll session path s
  | .tallyRecordWrite => Sys2Proof.Machine.execTallyRecordWrite s
  | .tallyRepeatWrite => Sys2Proof.Machine.execTallyRepeatWrite s
  | .tallyOverrunQueue => Sys2Proof.Machine.execTallyOverrunQueue s
  | .ophoursStore => Sys2Proof.Machine.execOphoursStore s
  | .tallyFlush => Sys2Proof.Machine.execTallyFlush s
  | .tallyClear => Sys2Proof.Machine.execTallyClear s
  | .traceRecordWrite => Sys2Proof.Machine.execTraceRecordWrite s
  | .foldTamper cause vbat => Sys2Proof.Machine.execFoldTamper cause vbat s
  | .foldRootDraw => Sys2Proof.Machine.execFoldRootDraw s
  | .vbatLowExpiry vbat => Sys2Proof.Machine.execVbatLowExpiry vbat s
  | .installClear a target fill payload => Sys2Proof.Machine.execInstallClear a target fill payload s
  | .installSigned a target fill payload => Sys2Proof.Machine.execInstallSigned a target fill payload s
  | .installWrapped a slot target fill payload => Sys2Proof.Machine.execInstallWrapped a slot target fill payload s
  | .derive a slot target fill payload => Sys2Proof.Machine.execDerive a slot target fill payload s
  | .deriveRoot a target fill payload => Sys2Proof.Machine.execDeriveRoot a target fill payload s
  | .erase a target => Sys2Proof.Machine.execErase a target s
  | .sign a slot payload => Sys2Proof.Machine.execSign a slot payload s
  | .verify a slot payload => Sys2Proof.Machine.execVerify a slot payload s
  | .lifecycle a payload => Sys2Proof.Machine.execLifecycle a payload s
  | .otpWrite a target payload => Sys2Proof.Machine.execOtpWrite a target payload s
  | .revoke a target => Sys2Proof.Machine.execRevoke a target s
  | .foldOpDone => Sys2Proof.Machine.execFoldOpDone s
  | .trngHealthFail => Sys2Proof.Machine.execTrngHealthFail s
  | .trngHealthRecover => Sys2Proof.Machine.execTrngHealthRecover s
  | .lifecycleBurnDone straps bad => Sys2Proof.Machine.execLifecycleBurnDone straps bad s
  | .updateBlock frame => Sys2Proof.Machine.execUpdateBlock frame s
  | .updateDiscard => Sys2Proof.Machine.execUpdateDiscard s
  | .updateCheck => Sys2Proof.Machine.execUpdateCheck s
  | .updateCheckDone => Sys2Proof.Machine.execUpdateCheckDone s
  | .schedule => Sys2Proof.Machine.execSchedule s
  | .unschedule id => Sys2Proof.Machine.execUnschedule id s
  | .profileSelect n => Sys2Proof.Machine.execProfileSelect n s
  | .profileStore n => Sys2Proof.Machine.execProfileStore n s
  | .storeStaging n => Sys2Proof.Machine.execStoreStaging n s
  | .profileErase n => Sys2Proof.Machine.execProfileErase n s
  | .profileCommandDone => Sys2Proof.Machine.execProfileCommandDone s
  | .gateSeated g m => Sys2Proof.Machine.execGateSeated g m s
  | .gateUnseated g a b => Sys2Proof.Machine.execGateUnseated g a b s
  | .seatDebounceExpiry g => Sys2Proof.Machine.execSeatDebounceExpiry g s
  | .gateStart g m => Sys2Proof.Machine.execGateStart g m s
  | .prechargeDone g m => Sys2Proof.Machine.execPrechargeDone g m s
  | .turnOnDone g m => Sys2Proof.Machine.execTurnOnDone g m s
  | .pgoodDelayExpiry g => Sys2Proof.Machine.execPgoodDelayExpiry g s
  | .preTimeExpiry g => Sys2Proof.Machine.execPreTimeExpiry g s
  | .mainTimeExpiry g => Sys2Proof.Machine.execMainTimeExpiry g s
  | .slowCurrentTrip g m => Sys2Proof.Machine.execSlowCurrentTrip g m s
  | .fastCurrentTrip g => Sys2Proof.Machine.execFastCurrentTrip g s
  | .fetHotTrip g m => Sys2Proof.Machine.execFetHotTrip g m s
  | .railWindowExit g m => Sys2Proof.Machine.execRailWindowExit g m s
  | .cooldownExpiry g m => Sys2Proof.Machine.execCooldownExpiry g m s
  | .fetCooled g m => Sys2Proof.Machine.execFetCooled g m s
  | .retryResetExpiry g => Sys2Proof.Machine.execRetryResetExpiry g s
  | .gateDamageDetected g m => Sys2Proof.Machine.execGateDamageDetected g m s
  | .gateOn g => Sys2Proof.Machine.execGateOn g s
  | .gateOff g => Sys2Proof.Machine.execGateOff g s
  | .gateReset g => Sys2Proof.Machine.execGateReset g s
  | .clearDamaged g clear => Sys2Proof.Machine.execClearDamaged g clear s
  | .supplyStateChange supply st mv => Sys2Proof.Machine.execSupplyStateChange supply st mv s
  | .powerOrderBreach kind supply => Sys2Proof.Machine.execPowerOrderBreach kind supply s
  | .shoreXtalFail => Sys2Proof.Machine.execShoreXtalFail s
  | .workPllLoss ref => Sys2Proof.Machine.execWorkPllLoss ref s
  | .vddShoreUp => Sys2Proof.Machine.execVddShoreUp s
  | .resetNAsserted => Sys2Proof.Machine.execResetNAsserted s
  | .resetNRelease straps bad => Sys2Proof.Machine.execResetNRelease straps bad s
  | .warmNRelease straps bad => Sys2Proof.Machine.execWarmNRelease straps bad s
  | .deepAfterExpiry => Sys2Proof.Machine.execDeepAfterExpiry s
  | .junctionHotThreshold tj => Sys2Proof.Machine.execJunctionHotThreshold tj s
  | .junctionLimitThreshold tj => Sys2Proof.Machine.execJunctionLimitThreshold tj s
  | .thermalTrip tj => Sys2Proof.Machine.execThermalTrip tj s
  | .junctionThresholdClear k tj => Sys2Proof.Machine.execJunctionThresholdClear k tj s
  | .coldStart straps bad => Sys2Proof.Machine.execColdStart straps bad s
  | .warmRestart straps bad => Sys2Proof.Machine.execWarmRestart straps bad s
  | .deepKeepExit straps bad => Sys2Proof.Machine.execDeepKeepExit straps bad s
  | .floodFromKeep bad => Sys2Proof.Machine.execFloodFromKeep bad s
  | .powerLight => Sys2Proof.Machine.execPowerLight s
  | .powerFull => Sys2Proof.Machine.execPowerFull s
  | .powerKeep => Sys2Proof.Machine.execPowerKeep s
  | .powerDeepKeep => Sys2Proof.Machine.execPowerDeepKeep s
  | .powerWarm => Sys2Proof.Machine.execPowerWarm s
  | .powerCold => Sys2Proof.Machine.execPowerCold s

end Sys2Proof.Machine
end

