-- ==== Sys2Proof/Safety.lean ====
section
/-! DEFINITION. The terms in which claims are made: what every state of a run keeps, and when a stroke, a drover instruction
or a dictionary request runs to its end. -/

namespace Sys2Proof.Machine

/-- The image's two tiers, the pen pool and the Tally's MRAM are in canonical form: numbers rising, no listed entry equal
to what an unlisted number holds. -/
abbrev State.storesWf (s : State) : Prop :=
  Tab.wf Line.fresh s.image.pasture = true ∧ Tab.wf Line.fresh s.image.upland = true ∧ Tab.wf 0 s.pen.pool = true
    ∧ Tab.wf 0 s.tally.mram = true

/-- A run that stops: never, as every command completes. -/
abbrev stops (s : State) : Prop := ¬ ∃ t, step s = .next t

/-- The changes of life cycle that R548 lists, by the codes of LIFECYCLE: BLANK 0, PROVISIONED 1, FIELD 2, RETURNED 3,
SCRAPPED 4. -/
def lcChange (old new : Nat) : Bool :=
  match old, new with
  | 0, 1 | 1, 2 | 1, 3 | 2, 3 | 0, 4 | 1, 4 | 2, 4 | 3, 4 => true
  | _, _ => false

/-- A change whose fuses burn is one of R548's. -/
def State.burnOk (s : State) : Prop := ∀ v, s.fold.burning = some v → lcChange s.fold.lifecycle v = true

/-- The command that starts a stroke of an opcode (R93). -/
def strokeCmd (op : Nat) (sl : Fin 16) (idx : Nat) : Option Instr :=
  match op with
  | 0x00 => some (.wait sl idx) | 0x01 => some (.move sl idx) | 0x02 => some (.carry sl idx)
  | 0x03 => some (.push sl idx) | 0x04 => some (.fetch sl idx) | 0x05 => some (.store sl idx)
  | 0x06 => some (.drvWr sl idx) | 0x07 => some (.drvRd sl idx) | 0x08 => some (.pinIn sl idx)
  | 0x09 => some (.pinOut sl idx) | 0x0A => some (.cellTx sl idx) | 0x0B => some (.pairTx sl idx)
  | 0x0C => some (.cellRx sl idx) | 0x0D => some (.pairRx sl idx) | 0x0E => some (.penRd sl idx)
  | 0x0F => some (.penWr sl idx) | 0x10 => some (.busLoad sl idx) | 0x11 => some (.frameTx sl idx)
  | 0x12 => some (.digest sl idx)
  | _ => none

/-- A flight joins those under way. -/
def State.joined (s : State) (f : Flight) : State := { s with tide.flights := s.tide.flights ++ [f] }

/-- Entry idx of sluice sl's segment holds the stroke st of opcode op with descriptor d, this tide runs it, and nothing
makes it null from its start (R43, R136). -/
def State.mayRun (s : State) (sl idx op : Nat) (st : Stroke) (d : Desc) : Prop :=
  ∃ ecc, s.selects sl idx (· == op) = some (st, d, ecc) ∧ ecc.all (· == .good) = true
    ∧ (s.advance st.start).startCause sl st d ecc = 0

/-- Line P of a tier is one that a stroke in flight stores to. -/
def Flight.storesTo (f : Flight) (up : Bool) (P : Nat) : Prop := ∃ p ∈ f.dst, p.up = up ∧ p.line = P

/-- The act of flight f comes at its cycle, and nothing has made it null: no cause yet, and its channel is not lost (R149). -/
def State.flies (s : State) (f : Flight) : Prop := f.cause = 0 ∧ s.strokeLost f.st f.d = false

/-- A cycle comes to an access of class SCRUB in one stage at an offset (R140, R176): its tile is awake, and the cycle is
slack, or urgent, and free of other accesses. -/
def State.scrubComes (s : State) (st : LStage) (line : Option (Bool × Nat)) (off : Nat) : Prop :=
  s.workRuns = true ∧ s.scrubFree st line off = true ∧ ∀ t, resTile st.cls st.inst = some t → Tab.get 0 s.tide.darkAt t = 0

/-- Such an access runs: a cycle comes to it within its class's quota (R144). -/
def State.scrubRuns (s : State) (st : LStage) (line : Option (Bool × Nat)) (off : Nat) : Prop :=
  s.scrubComes st line off ∧ s.belowQuota 8 st.cls st.inst = true

/-- Such an access is refused by quota (R144, R150). -/
def State.scrubStopped (s : State) (st : LStage) (line : Option (Bool × Nat)) (off : Nat) : Prop :=
  s.scrubComes st line off ∧ s.belowQuota 8 st.cls st.inst = false

/-- No cycle comes to such an access at an offset, though its tile is awake. -/
def State.scrubMisses (s : State) (st : LStage) (line : Option (Bool × Nat)) (off : Nat) : Prop :=
  s.workRuns = true ∧ s.scrubFree st line off = false ∧ ∀ t, resTile st.cls st.inst = some t → Tab.get 0 s.tide.darkAt t = 0

/-- The tile of such an access is dark (R78). -/
def State.scrubWakes (s : State) (st : LStage) : Prop :=
  s.workRuns = true ∧ ∃ t, resTile st.cls st.inst = some t ∧ Tab.get 0 s.tide.darkAt t ≠ 0

/-- What the ledger notes of such an access: its use, its cycle, and a wait of 0 (R144, R151). -/
def State.scrubTakes (s : State) (st : LStage) (line : Option (Bool × Nat)) (off : Nat) : State :=
  ((s.useStage 8 st line off).noteWait 8 0).traceGrant 8 st.cls st.inst 0

/-- At the edge at an offset, drover k executes a word of opcode op (R210, R216): its drove has that edge, at which the drover
has yet to act, it is RUN with no dwell clock left, and its word is readable. -/
def State.executes (s : State) (k off sense op : Nat) : Prop :=
  s.edgeHere k off = true ∧ ((s.edgeBegin k off sense).drover k).state = .run ∧ ((s.edgeBegin k off sense).drover k).dwell = 0
    ∧ (s.edgeBegin k off sense).instrEcc k ≠ .multi ∧ fld ((s.edgeBegin k off sense).instrAt k) 17 14 = op

/-- The state in which the edge's instruction acts: what waited for the edge taken, the pins sampled, a single-bit error of
the word corrected (R210, R227). -/
def State.fetched (s : State) (k off sense : Nat) : State := (s.edgeBegin k off sense).storeCorrect k

/-- Drover k in FAULT with a cause, T stepped by its rule, its pins' levels kept for SAFE HOLD (R221, R227). -/
def State.faulted (s : State) (k cause : Nat) : State :=
  let v := s.setDrover k { s.drover k with t := (s.drover k).tick (s.drover k).t }
  (v.snapHold (v.drover k).windowPins).setDrover k { v.drover k with state := .fault, cause := cause }

/-- T as the instruction at the edge sees it (R221). -/
def State.edgeT (s : State) (k off sense : Nat) : Nat := ((s.edgeBegin k off sense).drover k).t

end Sys2Proof.Machine
end

