-- ==== Sys2Proof/Certificates/Slice0/Obligations.lean ====
section
/-! DEFINITION. The statements for the provers. A statement about a command says which next state it answers, under
hypotheses on the state and the operands alone. -/

open Sys2Proof Sys2Proof.Machine

/-- A step takes the front command and runs it with the queue's rest; on an empty queue time passes to the next cycle in
which a stroke in flight acts, which is the model's choice. -/
def Obligations.StepRunsFrontCommand : Prop :=
  (∀ (c : Instr) (s : State) (rest : List Instr),
    step { s with pending := c :: rest } = exec c { s with pending := rest })
  ∧ (∀ s : State, s.pending = [] → step s = .next s.tick)
  ∧ ∀ s : State, s.pending = [] → s.tide.flights = [] → s.ring.toReport = [] → step s = .next s

/-- No command stops, and none touches the queue. -/
def Obligations.EveryCommandCompletes : Prop :=
  ∀ (c : Instr) (s : State), ∃ t, exec c s = .next t ∧ t.pending = s.pending

/-- The canonical form of the stores is an invariant of step. -/
def Obligations.StoresStayCanonical : Prop :=
  ∀ s t : State, s.storesWf → step s = .next t → t.storesWf

/-- Reset meets the invariants of StoresStayCanonical and LifecycleChanges. -/
def Obligations.ResetStoresCanonical : Prop :=
  State.reset.storesWf ∧ State.reset.burnOk ∧ State.reset.pending = []

/-- R548: no step changes the life cycle but as the table lists. -/
def Obligations.LifecycleChanges : Prop :=
  ∀ s t : State, s.burnOk → step s = .next t →
    (t.fold.lifecycle = s.fold.lifecycle ∨ lcChange s.fold.lifecycle t.fold.lifecycle = true) ∧ t.burnOk

/-- The fuses alone carry a change. -/
def Obligations.LifecycleOnlyByBurn : Prop :=
  (∀ (c : Instr) (s t : State), (∀ straps bad, c ≠ .lifecycleBurnDone straps bad) → exec c s = .next t →
    t.fold.lifecycle = s.fold.lifecycle) ∧
  (∀ straps bad (s : State) lc, s.fold.burning = some lc →
    ∃ t, exec (.lifecycleBurnDone straps bad) s = .next t ∧ t.fold.lifecycle = lc
      ∧ ∀ v, t.fold.burning = some v → lcChange lc v = true) ∧
  (∀ straps bad (s : State), s.fold.burning = none → exec (.lifecycleBurnDone straps bad) s = .next s)

/-- Fuses never unburn. -/
def Obligations.OwnerHashesPersist : Prop :=
  ∀ (c : Instr) (s t : State) (k : Nat), exec c s = .next t → (s.otp k).hash ≠ none →
    (t.otp k).hash = (s.otp k).hash ∧ ((s.otp k).revoked = true → (t.otp k).revoked = true)

/-- What a station counts once is never taken back. -/
def Obligations.NumbersNeverFall : Prop :=
  ∀ (c : Instr) (s t : State), exec c s = .next t →
    s.fold.installSeq ≤ t.fold.installSeq ∧ s.tally.seq ≤ t.tally.seq ∧ ∀ b ∈ s.tally.retired, b ∈ t.tally.retired

/-- Strokes that move lines: how they take off, in which cycles they act, and what they do there. -/
def Obligations.LineStrokesRun : Prop :=
  (∀ (op : Nat) (sl : Fin 16) (idx : Nat) (c : Instr) (s : State) (st : Stroke) (d : Desc), op ≤ 0x05 → strokeCmd op sl idx = some c →
    s.mayRun sl idx op st d →
      exec c s = .next ((s.advance st.start).joined ((s.advance st.start).flightOf sl idx st d)))
  ∧ (∀ (sl idx : Nat) (s : State) (st : Stroke) (d : Desc),
      let f := s.flightOf sl idx st d
      let at_ (k : Nat) := s.tide.abs0 + (st.start + k)
      let burst (i : Nat) := (uplandLine d + i) / 8 - uplandLine d / 8
      f.acts.Pairwise (fun a b => actKey a ≤ actKey b)
      ∧ (st.op = 0x00 → f.acts = [(at_ 1, .done)])
      ∧ (st.op = 0x01 ∨ st.op = 0x02 → (at_ (st.n + 5), .done) ∈ f.acts
          ∧ ∀ i < st.n, (at_ (1 + i), .read i) ∈ f.acts ∧ (at_ (5 + i), .write i) ∈ f.acts)
      ∧ (st.op = 0x01 → ∀ i < st.n, d.mask st.n i ≠ 15 → (at_ (1 + i), .merge i) ∈ f.acts)
      ∧ (st.op = 0x03 → (at_ (st.n + 9), .done) ∈ f.acts ∧ (at_ 8, .meet) ∈ f.acts
          ∧ ∀ i < st.n, (at_ (1 + i), .read i) ∈ f.acts ∧ (at_ (9 + i), .write i) ∈ f.acts
            ∧ (d.mask st.n i ≠ 15 → (at_ (5 + i), .merge i) ∈ f.acts))
      ∧ (st.op = 0x04 → ∀ i < st.n, (at_ (5 + 8 * burst i), .read i) ∈ f.acts
          ∧ (at_ (58 + 8 * burst i + (uplandLine d + i) % 8), .write i) ∈ f.acts)
      ∧ (st.op = 0x05 → ∀ i < st.n, (at_ (1 + i), .read i) ∈ f.acts
          ∧ (at_ (9 + min (st.n - 1) (8 * (uplandLine d / 8 + burst i) + 7 - uplandLine d)), .write i) ∈ f.acts))
  ∧ (∀ (s : State) (limit k : Nat), s.nextFlight limit = some k →
      ∃ f a rest, s.tide.flights[k]? = some f ∧ f.acts = a :: rest ∧ a.1 < limit
        ∧ ∀ g ∈ s.tide.flights, ∀ b l, g.acts = b :: l → actKey a ≤ actKey b)
  ∧ (∀ (s : State) (limit : Nat), s.nextFlight limit = none → ∀ g ∈ s.tide.flights, ∀ b l, g.acts = b :: l → limit ≤ b.1)
  ∧ (∀ (s : State) (f : Flight) (i : Nat), s.flies f →
      let p := f.src.getD i Place.none
      let old := (f.old.find? (·.1 == i)).map Prod.snd
      (s.reaches p = false → s.flightCycle f (.read i) = s.failed f cSched)
      ∧ (s.reaches p = true → (s.schedRead p f.free (f.mask i)).2 = none →
          s.flightCycle f (.read i) = (s.schedRead p f.free (f.mask i)).1.failed f cSched)
      ∧ (∀ w, s.reaches p = true → (s.schedRead p f.free (f.mask i)).2 = some w →
          s.flightCycle f (.read i) = ((s.schedRead p f.free (f.mask i)).1, { f with got := f.got ++ [w] }))
      ∧ (∀ q, f.dst[i]? = some q → s.reaches q = false →
          s.flightCycle f (.write i) = s.failed f cSched ∧ s.flightCycle f (.merge i) = s.failed f cSched)
      ∧ (∀ q, f.dst[i]? = some q → s.reaches q = true →
          s.flightCycle f (.write i) = (s.schedWrite q (f.mask i) (f.got.getD i []) old, f)
          ∧ ∃ b : Bool, s.flightCycle f (.merge i) = ((s.checkLine q.up q.line).1,
              { f with old := f.old ++ [(i, b, ((s.checkLine q.up q.line).1.line q.up q.line).words)] }))
      ∧ (f.st.op = 0x03 → (s.tileAwake (fld f.d.b 21 18) = true → s.flightCycle f .meet = (s, f))
          ∧ (s.tileAwake (fld f.d.b 21 18) = false → s.flightCycle f .meet = s.failed f cSched))
      ∧ (f.st.op = 0x02 → f.tideF = s.time.F → s.flightCycle f .done = ((State.landHeld { s with
          ledger.carried := (List.range f.st.n).map (f.d.aFirst f.sl + ·) ++ s.ledger.carried }).traceStroke f.sl f.idx 0, f))
      ∧ (f.st.op ≠ 0x02 → f.st.op ≠ 0x10 → f.st.op ≠ 0x12 → s.flightCycle f .done = (s.traceStroke f.sl f.idx 0, f)))

/-- Strokes of pens, pins and drovers. -/
def Obligations.PenPinDroveStrokesRun : Prop :=
  (∀ (op : Nat) (sl : Fin 16) (idx : Nat) (c : Instr) (s : State) (st : Stroke) (d : Desc),
    (0x06 ≤ op ∧ op ≤ 0x09) ∨ op = 0x0E ∨ op = 0x0F → strokeCmd op sl idx = some c → s.mayRun sl idx op st d →
      exec c s = .next ((s.advance st.start).joined ((s.advance st.start).flightOf sl idx st d)))
  ∧ (∀ (sl idx : Nat) (s : State) (st : Stroke) (d : Desc),
      let f := s.flightOf sl idx st d
      let at_ (k : Nat) := s.tide.abs0 + (st.start + k)
      let used (q : Nat) : Bool := (d.mask st.n (q / 2)).testBit (2 * (q % 2)) || (d.mask st.n (q / 2)).testBit (2 * (q % 2) + 1)
      (st.op = 0x06 → (∀ i < st.n, (at_ (1 + 2 * i), .read i) ∈ f.acts) ∧ ∀ q < 2 * st.n, used q = true → (at_ (5 + q), .put q) ∈ f.acts)
      ∧ (st.op = 0x07 → (at_ (2 * st.n + 3), .done) ∈ f.acts ∧ (∀ i < st.n, (at_ (4 + 2 * i), .write i) ∈ f.acts)
          ∧ ∀ q < 2 * st.n, used q = true → (at_ (1 + q), .take q) ∈ f.acts)
      ∧ (st.op = 0x08 → (at_ 4, .take 0) ∈ f.acts ∧ (at_ 10, .done) ∈ f.acts ∧ ∀ i < st.n, (at_ (9 + i), .write i) ∈ f.acts)
      ∧ (st.op = 0x09 → (at_ 9, .put 0) ∈ f.acts ∧ (at_ 10, .done) ∈ f.acts ∧ ∀ i < st.n, (at_ (1 + i), .read i) ∈ f.acts)
      ∧ (st.op = 0x0E → (at_ (st.n + 9), .done) ∈ f.acts
          ∧ ∀ i < st.n, (at_ (4 + i), .take i) ∈ f.acts ∧ (at_ (9 + i), .write i) ∈ f.acts)
      ∧ (st.op = 0x0F → (at_ (st.n + 9), .done) ∈ f.acts ∧ (at_ (st.n + 8), .commit) ∈ f.acts
          ∧ ∀ i < st.n, (at_ (1 + i), .read i) ∈ f.acts ∧ (at_ (8 + i), .put i) ∈ f.acts))
  ∧ (∀ (s : State) (f : Flight) (q : Nat), s.flies f →
      let line := f.got.getD (q / 2) [0, 0, 0, 0]
      let pos := (maskBits (f.mask (q / 2))).filter fun j => j / 2 == q % 2
      let drove := 2 * f.sl + fld f.d.b 6 6
      let reg (j : Nat) := fld f.d.b 5 0 + 4 * (q / 2) + j
      let now := s.abs s.tide.off
      let pen := fld f.d.b 11 0
      let bank := fld f.d.b 4 0
      (f.st.op = 0x06 → s.flightCycle f (.put q) = (pos.foldl (fun u j =>
          u.drvRegWrite drove (reg j) ((f.got.getD (q / 2) []).getD j 0) now) s, f))
      ∧ (f.st.op = 0x07 →
          (s.flightCycle f (.take q)).1 = pos.foldl (fun u j => u.drvRegTaken drove (reg j) now) s
          ∧ (q / 2 < f.st.n → (s.flightCycle f (.take q)).2.got.getD (q / 2) []
              = pos.foldl (fun l j => l.set j (s.drvRegWord drove (reg j) now)) line))
      ∧ (f.st.op = 0x08 →
          let good := s.bankOk bank && !s.pin.hold && !s.gateBlocks bank && !s.safe 112 bank
          s.flightCycle f (.take 0) = (s, { f with got := [layLine (f.mask 0)
            [mkW (if good then qGood else qBad) (s.bankWord bank 0), mkW (if good then qGood else qBad) (s.bankWord bank 1)]] }))
      ∧ (f.st.op = 0x09 → s.flightCycle f (.put 0) = ((s.loadDout bank 0 ((pickOut f.lines).getD 0 0)).loadDout bank 1
          ((pickOut f.lines).getD 1 0), f))
      ∧ (f.st.op = 0x0E →
          let r := s.penReadN pen (maskBits (f.mask q)).length
          s.flightCycle f (.take q) = (r.1, { f with got := f.got ++ [layLine (f.mask q) r.2] }))
      ∧ (f.st.op = 0x0F → s.flightCycle f (.put q) = (s.penPush pen (pickOut ((f.lines.drop q).take 1)), f)
          ∧ s.flightCycle f .commit = (s.penCommit pen, f)))

/-- Strokes of links, buses, ports and digests. -/
def Obligations.LinkBusStrokesRun : Prop :=
  (∀ (op : Nat) (sl : Fin 16) (idx : Nat) (c : Instr) (s : State) (st : Stroke) (d : Desc),
    (0x0A ≤ op ∧ op ≤ 0x0D) ∨ (0x10 ≤ op ∧ op ≤ 0x12) → strokeCmd op sl idx = some c → s.mayRun sl idx op st d →
      exec c s = .next ((s.advance st.start).joined ((s.advance st.start).flightOf sl idx st d)))
  ∧ (∀ (sl idx : Nat) (s : State) (st : Stroke) (d : Desc),
      let f := s.flightOf sl idx st d
      let at_ (k : Nat) := s.tide.abs0 + (st.start + k)
      let tx := st.start + fld d.b 32 6
      (st.op = 0x0A ∨ st.op = 0x0B → (∀ i < st.n, (at_ (1 + i), .read i) ∈ f.acts)
          ∧ ∀ l ∈ st.links d, (s.tide.abs0 + (36 * fld d.b 40 19 + (if l = 4 then 0 else (s.link l).phase) + 36 * fld d.b 18 16 / 5),
              .depart l) ∈ f.acts)
      ∧ (st.op = 0x0C ∨ st.op = 0x0D → (at_ 4, .take 0) ∈ f.acts ∧ (at_ 17, .done) ∈ f.acts
          ∧ ∀ i < st.n, (at_ (9 + i), .write i) ∈ f.acts)
      ∧ (st.op = 0x10 → (at_ (st.n + 8), .done) ∈ f.acts
          ∧ ∀ i < st.n, (at_ (1 + i), .read i) ∈ f.acts ∧ (at_ (8 + i), .put i) ∈ f.acts)
      ∧ (st.op = 0x11 → (at_ 8, .meet) ∈ f.acts ∧ (at_ (st.n + 7), .put 0) ∈ f.acts ∧ (s.tide.abs0 + tx, .begin_) ∈ f.acts
          ∧ (∀ i < st.n, (at_ (1 + i), .read i) ∈ f.acts)
          ∧ (s.tide.abs0 + (tx + wireBits (fld d.b 5 0) (portMode (s.portCfg (fld d.b 5 0))) (st.frameB d)), .sent) ∈ f.acts)
      ∧ (st.op = 0x12 → (at_ (st.n + 4), .done) ∈ f.acts ∧ ∀ i < st.n, (at_ (1 + i), .read i) ∈ f.acts))
  ∧ (∀ (s : State) (f : Flight), s.flies f →
      let p := fld f.d.b 5 0
      let due := f.at_ + fld f.d.b 32 6
      let ws := pickOut f.lines
      let bad := ws.any fun w => wq w == qBad
      let c := fld f.d.b 6 0
      let b := fld f.d.b 8 7
      (∀ l, f.st.op = 0x0A ∨ f.st.op = 0x0B → (s.link l).state ≠ .settling →
          (s.flightCycle f (.depart l)).1 = s.depart l (fld f.d.b 11 0) f.got.flatten f.d.place)
      ∧ (f.st.op = 0x0C ∨ f.st.op = 0x0D →
          let r := s.rxDeliver (fld f.d.b 11 0) f.tideF
          s.flightCycle f (.take 0) = (r.1, { f with got := (List.range f.st.n).map fun i => (r.2.drop (4 * i)).take 4 }))
      ∧ (f.st.op = 0x10 → f.flag = false → ((s.chan c).tb b).state ≠ .active →
          (∀ q, 0 < q → s.flightCycle f (.put q) = (s.setChan c ((s.chan c).setTb b (((s.chan c).tb b).load (fld f.d.b 18 10 + q)
            ((f.lines.drop q).take 1))), f))
          ∧ (bit f.d.b 9 = true → bad = false → s.flightCycle f .done = ((s.busRelease f.sl c b false).traceStroke f.sl f.idx 0, f))
          ∧ (bit f.d.b 9 = false → bad = false → s.flightCycle f .done = (s.traceStroke f.sl f.idx 0, f)))
      ∧ (f.st.op = 0x11 →
          ((s.port p).state = .settling → s.flightCycle f .meet = (s.fire 145 p).failed f cSettle)
          ∧ ((s.port p).state ≠ .settling → s.flightCycle f .meet = (s.schedEnter p due (due + s.txTime f.st f.d), f))
          ∧ (∀ q g, s.schedAt p due = some g → bad = false → s.flightCycle f (.put q) = (s.schedPut p { g with bytes := txBytes ws }, f))
          ∧ (∀ q g, s.schedAt p due = some g → bad = true →
              (s.flightCycle f (.put q)).1 = ((s.schedDrop p due).bump 0x03025).fire 51 f.sl (badAddr (f.d.aFirst f.sl) f.lines))
          ∧ s.flightCycle f .begin_ = (s.schedBegin p due, f) ∧ s.flightCycle f .sent = (s.schedSent p due, f))
      ∧ (f.st.op = 0x12 → s.flightCycle f .done = ((s.addPart ⟨f.tideF, fld f.d.b 9 0, f.st.start * 16 + f.sl, ws.map BitVec.toNat,
          false⟩).traceStroke f.sl f.idx 0, f)))

/-- Null strokes (R133, R136). -/
def Obligations.NullStrokes : Prop :=
  (∀ (op : Nat) (sl : Fin 16) (idx : Nat) (c : Instr) (s : State), strokeCmd op sl idx = some c →
    (s.selects sl idx (· == op) = none → exec c s = .next s)
    ∧ (∀ st d ecc, s.selects sl idx (· == op) = some (st, d, ecc) →
        let a := (s.advance st.start).tableEcc sl ecc
        let f := a.flightOf sl idx st d
        let k := a.startCause sl st d ecc
        (k ≠ 0 → k ≠ cSettle → exec c s = .next ((a.failed f k).1.joined { f with cause := k }))
        ∧ (k = cSettle → exec c s = .next (((a.fireSettle st d).failed f k).1.joined { f with cause := k }))))
  ∧ (∀ (sl : Fin 16) (idx : Nat) (s : State),
    (s.selects sl idx (fun op => decide (0x13 ≤ op)) = none → exec (.reservedOpcodeStroke sl idx) s = .next s)
    ∧ (∀ st d ecc, s.selects sl idx (fun op => decide (0x13 ≤ op)) = some (st, d, ecc) →
        let a := ((s.advance st.start).bumpFld 0x02027 0 17 0).fire 19 sl
        exec (.reservedOpcodeStroke sl idx) s
          = .next ((a.failed (a.flightOf sl idx st d) cStorage).1.joined { a.flightOf sl idx st d with cause := cStorage })))
  ∧ (∀ (s : State) (f : Flight) (k : Nat),
      let u := (s.markHeld f.dst f.mask).countNull f.sl k
      let c := fld f.d.b 6 0
      let b := fld f.d.b 8 7
      (f.st.op = 0x02 → (s.failed f k).1 = u.landHeld)
      ∧ (f.st.op = 0x0F → (s.failed f k).1 = if f.cause = 0 ∧ f.begun = true then u.penCutShort (fld f.d.b 11 0) else u)
      ∧ (f.st.op = 0x10 → (s.failed f k).1 = u.setChan c ((u.chan c).setTb b { (u.chan c).tb b with void := true }))
      ∧ (f.st.op = 0x11 → (s.failed f k).1 = u.schedDrop (fld f.d.b 5 0) (f.at_ + fld f.d.b 32 6))
      ∧ (f.st.op ≠ 0x02 → f.st.op ≠ 0x0F → f.st.op ≠ 0x10 → f.st.op ≠ 0x11 → (s.failed f k).1 = u)
      ∧ (s.failed f k).2 = { f with cause := k })
  ∧ (∀ (s : State) (f : Flight) (a : Act), a ≠ .done →
      (f.cause ≠ 0 → s.flightCycle f a = (s, f))
      ∧ (f.cause = 0 → s.strokeLost f.st f.d = true → s.flightCycle f a = s.failed f cUpland))
  ∧ (∀ (s : State) (f : Flight), f.cause ≠ 0 →
      (f.st.op ≠ 0x12 → s.flightCycle f .done = (s.traceStroke f.sl f.idx f.cause, f))
      ∧ (f.st.op = 0x12 → s.flightCycle f .done
          = ((s.addPart ⟨f.tideF, fld f.d.b 9 0, f.st.start * 16 + f.sl, [], true⟩).traceStroke f.sl f.idx f.cause, f)))

/-- The frame of the strokes over the image. -/
def Obligations.StrokeStoresFrame : Prop :=
  (∀ (s : State) (f : Flight) (a : Act) (up : Bool) (P : Nat), s.storesWf → f.st.op ≠ 0x02 → ¬ f.storesTo up P →
    (s.flightCycle f a).1.line up P = s.line up P ∧ (s.flightCycle f a).1.storesWf)
  ∧ (∀ (s : State) (sl idx : Nat) (st : Stroke) (d : Desc) (up : Bool) (P : Nat), st.op < 0x13 →
    ((s.flightOf sl idx st d).storesTo up P ↔ ∃ u L i, strokeDest sl st d = some (u, L) ∧ i < st.n
      ∧ (s.placeOf u (if st.op = 0x02 then 0 else st.wgen) (L + i)).up = up
      ∧ (s.placeOf u (if st.op = 0x02 then 0 else st.wgen) (L + i)).line = P))
  ∧ (∀ (s : State) (off : Nat) (up : Bool) (P : Nat), s.storesWf →
    (∀ f ∈ s.tide.flights, f.st.op ≠ 0x02 ∧ ¬ f.storesTo up P) → (s.advance off).line up P = s.line up P)
  ∧ (∀ (op : Nat) (sl : Fin 16) (idx : Nat) (c : Instr) (s t : State) (up : Bool) (P : Nat), s.storesWf →
    (∀ f ∈ s.tide.flights, f.st.op ≠ 0x02 ∧ ¬ f.storesTo up P) → strokeCmd op sl idx = some c → op ≠ 0x02 → exec c s = .next t →
    t.line up P = s.line up P)
  ∧ (∀ (sl : Fin 16) (idx : Nat) (s t : State) (up : Bool) (P : Nat), s.storesWf →
    (∀ f ∈ s.tide.flights, f.st.op ≠ 0x02 ∧ ¬ f.storesTo up P) → exec (.reservedOpcodeStroke sl idx) s = .next t →
    t.line up P = s.line up P)

/-- TURN (R99). -/
def Obligations.TurnBeginsTide : Prop :=
  (∀ s : State, s.clocked = true →
    let e := { s.tideEnds with upd.actWait := s.upd.actWait - 1 }
    let n := e.nextTide
    e.power.request = 0 → (e.table.valid && e.dueNow (e.atBoundary n) (e.swaps n) n.start) = false →
    ∃ t, exec .turn s = .next t ∧ t.tide.runs = true ∧ t.tide.begun = true ∧ t.tide.off = 0
      ∧ t.tide.t = (if s.tide.begun then s.tide.t + 1 else 0) ∧ t.time.F = n.f ∧ t.time.base = n.start)
  ∧ (∀ s : State, s.clocked = false → exec .turn s = .next s)

/-- Commands that pace the tide. -/
def Obligations.TidePaceCommands : Prop :=
  (∀ s : State, s.workRuns = true → s.tideRuns = false → s.power.state = .full →
      (s.power.request = 3 → exec .noTidePeriod s = .next s.keepEntry)
      ∧ (s.power.request = 4 → exec .noTidePeriod s = .next s.deepEntry)
      ∧ (s.power.request = 1 → s.ebbDue = false → exec .noTidePeriod s = .next s.lightEntry))
  ∧ (∀ s : State, s.workRuns = true → s.tideRuns = false →
      (s.power.state ≠ .full ∨ s.power.request = 0 ∨ (s.power.request = 1 ∧ s.ebbDue = true)) →
      let u : State := { s with upd.actWait := 0 }
      exec .noTidePeriod s = .next ((if u.activationDue s.now then { u with upd.actNow := true } else u).turnRules s.forces))
  ∧ (∀ s : State, s.workRuns = true → s.tideRuns = true → s.table.valid = false →
      (s.activationDue s.now = false → exec .noTidePeriod s = .next s)
      ∧ (s.activationDue s.now = true → s.defers = true → exec .noTidePeriod s = .next { s with upd.deferred := true })
      ∧ (s.activationDue s.now = true → s.defers = false → exec .noTidePeriod s = .next
          ({ s with upd.state := .activating, upd.deferred := false }.beginWarm 6)))
  ∧ (∀ s : State, (s.workRuns = false ∨ (s.tideRuns = true ∧ s.table.valid = true)) → exec .noTidePeriod s = .next s)
  ∧ (∀ s : State, bit (s.cfg 0x0B002) 35 = true → s.tideRuns = true →
      exec .tideInterrupt s = .next ((s.advance (fld (s.cfg 0x0B002) 26 0)).interrupt 4))
  ∧ (∀ s : State, (bit (s.cfg 0x0B002) 35 = false ∨ s.tideRuns = false) → exec .tideInterrupt s = .next s)
  ∧ (∀ (tile : Fin 16) (off : Nat) (s : State),
      let a := s.advance off
      (s.wakeDue tile off = true → tile.val ∈ s.tide.slackAwake →
        exec (.tileWake tile off) s = .next { s with tide.slackAwake := s.tide.slackAwake.filter (· ≠ tile.val) })
      ∧ (s.wakeDue tile off = true → tile.val ∉ s.tide.slackAwake → Tab.get 0 s.tide.darkAt tile ≠ 0 →
        exec (.tileWake tile off) s = .next { a with
          tide.darkAt := Tab.set 0 a.tide.darkAt tile 0
          tide.darkNow := Tab.set 0 a.tide.darkNow tile
            (Tab.get 0 a.tide.darkNow tile + (off + 1 - Tab.get 0 a.tide.darkAt tile))
          tide.wakeAt := Tab.set 0 a.tide.wakeAt tile (off + 64) })
      ∧ ((s.wakeDue tile off = false ∨ (tile.val ∉ s.tide.slackAwake ∧ Tab.get 0 s.tide.darkAt tile = 0)) →
        exec (.tileWake tile off) s = .next s)
      ∧ (s.darkBegins tile off = true → s.tileRuns tile = false → Tab.get 0 s.tide.darkAt tile = 0 →
        tile.val ∉ s.tide.slackAwake → ({ a with tide.darkAt := Tab.set 0 a.tide.darkAt tile (off + 1) }).tileWanted tile = false →
        exec (.tileDark tile off) s = .next { a with tide.darkAt := Tab.set 0 a.tide.darkAt tile (off + 1) })
      ∧ (let d : State := { a with tide.darkAt := Tab.set 0 a.tide.darkAt tile (off + 1) }
         s.darkBegins tile off = true → s.tileRuns tile = false → Tab.get 0 s.tide.darkAt tile = 0 →
         tile.val ∉ s.tide.slackAwake → d.tileWanted tile = true →
         exec (.tileDark tile off) s = .next { d.wakeTile tile off with
           tide.slackAwake := tile.val :: (d.wakeTile tile off).tide.slackAwake })
      ∧ ((s.darkBegins tile off = false ∨ s.tileRuns tile = true ∨ Tab.get 0 s.tide.darkAt tile ≠ 0
            ∨ tile.val ∈ s.tide.slackAwake) → exec (.tileDark tile off) s = .next s)
      ∧ (tile.val ∈ s.tide.slackAwake → s.plannedDark tile off = true → s.tileWanted tile = false → s.tileRuns tile = false →
          Tab.get 0 s.ledger.lastUse tile + 8 ≤ s.abs off →
        exec (.tileRedark tile off) s = .next { a with
          tide.slackAwake := a.tide.slackAwake.filter (· ≠ tile.val)
          tide.darkAt := Tab.set 0 a.tide.darkAt tile (off + 1) })
      ∧ ((tile.val ∉ s.tide.slackAwake ∨ s.plannedDark tile off = false ∨ s.tileWanted tile = true ∨ s.tileRuns tile = true
            ∨ s.abs off < Tab.get 0 s.ledger.lastUse tile + 8) →
        exec (.tileRedark tile off) s = .next s))

/-- Commands of the ledger. -/
def Obligations.LedgerCommands : Prop :=
  (∀ s : State, ∃ t, exec .ledgerBlockStart s = .next t
      ∧ t = { s with ledger.queue := t.ledger.queue }
      ∧ t.ledger.queue.map Prod.fst = s.ledger.queue.map Prod.fst
      ∧ t.ledger.queue.map (fun q => q.2.map Access.age) = s.ledger.queue.map (fun q => q.2.map fun a => min 255 (a.age + 1))
      ∧ t.ledger.queue.map (fun q => q.2.map Access.stages) = s.ledger.queue.map (fun q => q.2.map Access.stages))
  ∧ (∀ (rcls : Fin 16) (inst off : Nat) (s : State),
      let slot := s.slotAt rcls inst off
      let l := s.candsAt rcls inst off
      let q := s.noteQuota l
      let r := exec (.ledgerStageGrant rcls inst off) s
      (slot = .taken ∨ s.idleAt rcls inst off = false → r = .next s)
      ∧ (slot ≠ .taken → s.idleAt rcls inst off = true →
          (∀ x, slot = .slack → s.pickSlack l = some x → r = .next (q.grant x off))
          ∧ (∀ x, slot = .urgent → s.pickUrgent l = some x → r = .next (q.grant x off))
          ∧ (∀ x, slot = .urgent → s.pickUrgent l = none → s.pickSlack l = some x → r = .next (q.grant x off))
          ∧ (slot = .slack ∨ s.pickUrgent l = none → s.pickSlack l = none → r = .next q)))
  ∧ (∀ (c : Fin 9) (s : State) (a : Access) (l : List Access), s.queueOf c = a :: l →
      (a.overdue = false → exec (.ledgerOverdue c) s = .next
        (({ s with ledger.overdue := satAdd 18 s.ledger.overdue 1 }.setQueue c ({ a with overdue := true } :: l)).fire 32 c))
      ∧ (a.overdue = true → exec (.ledgerOverdue c) s = .next s))
  ∧ (∀ (c : Fin 9) (s : State), s.queueOf c = [] → exec (.ledgerOverdue c) s = .next s)

/-- The pick of R140. -/
def Obligations.SlackPickIsBest : Prop :=
  (∀ (s : State) (l : List Cand) (x : Cand), s.pickSlack l = some x →
    (x ∈ l ∧ s.withinQuota x.cls x.acc = true)
    ∧ ∀ y ∈ l, s.withinQuota y.cls y.acc = true →
        fld (s.cfg 0x02040 y.cls) 23 21 < fld (s.cfg 0x02040 x.cls) 23 21
        ∨ (fld (s.cfg 0x02040 y.cls) 23 21 = fld (s.cfg 0x02040 x.cls) 23 21 ∧ y.acc.age ≤ x.acc.age))
  ∧ (∀ (s : State) (l : List Cand) (x : Cand), s.pickUrgent l = some x →
    (x ∈ l ∧ s.isUrgent x.cls x.acc = true ∧ s.withinQuota x.cls x.acc = true
      ∧ ∀ a ∈ (s.queueOf x.cls).take x.pos, s.isUrgent x.cls a = false)
    ∧ ∀ y ∈ l, s.isUrgent y.cls y.acc = true → s.withinQuota y.cls y.acc = true →
        (∀ a ∈ (s.queueOf y.cls).take y.pos, s.isUrgent y.cls a = false) → y.acc.age ≤ x.acc.age)

/-- Writes that keep the image sound. -/
def Obligations.MemoryUpkeep : Prop :=
  (∀ (up : Bool) (addr : Nat) (s : State), s.workRuns = true →
      let outside := addr % 4 ≠ 0 ∨ tierLines up ≤ addr / 4 ∨ (up = true ∧ s.chanLost (lineChan (addr / 4)) = true)
      (s.storesWf → ¬ outside → s.classSafe 2 2 = false → ∃ t, exec (.clearLine up addr) s = .next t
        ∧ t.line up (addr / 4) = { w0 := 0x30000, w1 := 0x30000, w2 := 0x30000, w3 := 0x30000, poison := false, code := .good,
                                   sideBad := false, tagVoid := (s.line up (addr / 4)).tagVoid || (s.line up (addr / 4)).sideBad,
                                   tag := (s.line up (addr / 4)).tag }
        ∧ ∀ u P, ¬ (u = up ∧ P = addr / 4) → t.line u P = s.line u P)
      ∧ (outside → exec (.clearLine up addr) s = .next { s with outbox := ⟨.abort, 0x03024, [6]⟩ :: s.outbox })
      ∧ (¬ outside → s.classSafe 2 2 = true →
          exec (.clearLine up addr) s = .next { s with outbox := ⟨.abort, 0x03024, [0x011]⟩ :: s.outbox }))
  ∧ (∀ (up : Bool) (addr : Nat) (s : State), s.workRuns = false → exec (.clearLine up addr) s = .next s)
  ∧ (∀ (up : Bool) (L off : Nat) (rest : List (Bool × Nat)) (s : State), s.storesWf →
      (up = true → s.chanLost (lineChan L) = false) → s.scrubRuns (scrubOf up L) (some (up, L)) off →
      let a := s.advance off
      (s.image.marking = (up, L) :: rest →
        ∃ t, exec (.poisonMarkWrite off) s = .next t ∧ t.image.marking = a.image.marking.erase (up, L)
          ∧ ((up, L) ∈ a.image.marking → t.line up L = { a.line up L with
              poison := true, code := .good, sideBad := false, tagVoid := (a.line up L).tagVoid || (a.line up L).sideBad })
          ∧ ((up, L) ∉ a.image.marking → t.line up L = a.line up L)
          ∧ ∀ u P, ¬ (u = up ∧ P = L) → t.line u P = a.line u P)
      ∧ (s.image.writeBack = (up, L) :: rest →
        ∃ t, exec (.scrubWriteBack off) s = .next t ∧ t.image.writeBack = a.image.writeBack.erase (up, L)
          ∧ t.line up L = (if (up, L) ∈ a.image.writeBack ∧ (a.line up L).code = .single
              then { a.line up L with code := .good } else a.line up L)
          ∧ ∀ u P, ¬ (u = up ∧ P = L) → t.line u P = a.line u P))
  ∧ (∀ (up : Bool) (L off : Nat) (rest : List (Bool × Nat)) (s : State), (up = true → s.chanLost (lineChan L) = false) →
      (s.workRuns = false ∨ s.scrubMisses (scrubOf up L) (some (up, L)) off →
        (s.image.marking = (up, L) :: rest → exec (.poisonMarkWrite off) s = .next s)
        ∧ (s.image.writeBack = (up, L) :: rest → exec (.scrubWriteBack off) s = .next s))
      ∧ (s.scrubStopped (scrubOf up L) (some (up, L)) off →
        (s.image.marking = (up, L) :: rest → exec (.poisonMarkWrite off) s = .next (s.quotaStop 8))
        ∧ (s.image.writeBack = (up, L) :: rest → exec (.scrubWriteBack off) s = .next (s.quotaStop 8)))
      ∧ (s.scrubWakes (scrubOf up L) →
        (s.image.marking = (up, L) :: rest → exec (.poisonMarkWrite off) s = .next (s.reachTile [scrubOf up L] off))
        ∧ (s.image.writeBack = (up, L) :: rest → exec (.scrubWriteBack off) s = .next (s.reachTile [scrubOf up L] off))))
  ∧ (∀ (L off : Nat) (rest : List (Bool × Nat)) (s : State), s.chanLost (lineChan L) = true →
      (s.image.marking = (true, L) :: rest → exec (.poisonMarkWrite off) s = .next { s with image.marking := rest })
      ∧ (s.image.writeBack = (true, L) :: rest → exec (.scrubWriteBack off) s = .next { s with image.writeBack := rest }))
  ∧ (∀ (off : Nat) (s : State),
      (s.image.marking = [] → exec (.poisonMarkWrite off) s = .next s)
      ∧ (s.image.writeBack = [] → exec (.scrubWriteBack off) s = .next s))

/-- Scrub reads and upland commands. -/
def Obligations.ScrubAndUplandCommands : Prop :=
  (∀ (u : Fin 68) (off : Nat) (s : State), u.val < 64 →
      let L := u * 65536 + Tab.get 0 s.image.scrubAt u
      s.scrubRuns (scrubOf false L) none off →
      exec (.scrubRead u off) s = .next ((((s.scrubTakes (scrubOf false L) none off).checkLine false L).1).scrubAdvance u 65536))
  ∧ (∀ (u : Fin 68) (off : Nat) (s : State), 64 ≤ u.val → s.chanLost (u - 64) = false →
      let L := (u - 64) * 2 ^ 25 + 8 * Tab.get 0 s.image.scrubAt u
      s.scrubRuns (scrubOf true L) (some (true, L)) off →
      exec (.scrubRead u off) s = .next (((List.range 8).foldl (fun v i => (v.checkLine true (L + i)).1)
        (s.scrubTakes (scrubOf true L) (some (true, L)) off)).scrubAdvance u 4194304))
  ∧ (∀ (u : Fin 68) (off : Nat) (s : State),
      let L := if u.val < 64 then u * 65536 + Tab.get 0 s.image.scrubAt u else (u - 64) * 2 ^ 25 + 8 * Tab.get 0 s.image.scrubAt u
      let up := decide (64 ≤ u.val)
      u.val < 64 ∨ s.chanLost (u - 64) = false →
      (s.scrubMisses (scrubOf up L) (if up then some (true, L) else none) off → exec (.scrubRead u off) s = .next s)
      ∧ (s.scrubStopped (scrubOf up L) (if up then some (true, L) else none) off → exec (.scrubRead u off) s = .next (s.quotaStop 8))
      ∧ (s.scrubWakes (scrubOf up L) → exec (.scrubRead u off) s = .next (s.reachTile [scrubOf up L] off)))
  ∧ (∀ (u : Fin 68) (off : Nat) (s : State), s.workRuns = false ∨ (64 ≤ u.val ∧ s.chanLost (u - 64) = true) →
      exec (.scrubRead u off) s = .next s)
  ∧ (∀ (ch : Fin 4) (off : Nat) (done : Bool) (s : State),
      let a := s.advance off
      let window := s.workRuns = true ∧ s.tideRuns = true ∧ refreshMeets s.tideP ch off 1 = true
        ∧ (off = 0 ∨ refreshMeets s.tideP ch (off - 1) 1 = false)
      (window → ((done = true ∧ s.supplyUp 5 = true ∧ s.supplyUp 6 = true) ∨ s.chanLost ch = true) →
        exec (.uplandRefresh ch off done) s = .next a)
      ∧ (window → (done = false ∨ s.supplyUp 5 = false ∨ s.supplyUp 6 = false) → s.chanLost ch = false →
        exec (.uplandRefresh ch off done) s = .next (a.loseChannel ch 4))
      ∧ (¬ window → exec (.uplandRefresh ch off done) s = .next s))
  ∧ (∀ (ch : Fin 4) (off : Nat) (s : State), s.chanLost ch = false → s.scrubRuns ⟨7, ch, 2, 7, 0, 0⟩ none off →
      let u := (s.scrubTakes ⟨7, ch, 2, 7, 0, 0⟩ none off).fire 65 ch
      exec (.uplandCommandRetry ch off true) s = .next u
      ∧ exec (.uplandCommandRetry ch off false) s = .next (u.loseChannel ch 3))
  ∧ (∀ (ch : Fin 4) (off : Nat) (ok : Bool) (s : State), s.workRuns = false ∨ s.chanLost ch = true →
      exec (.uplandCommandRetry ch off ok) s = .next s)
  ∧ (∀ (ch : Fin 4) (off : Nat) (ok : Bool) (s : State),
      (s.scrubMisses ⟨7, ch, 2, 7, 0, 0⟩ none off → exec (.uplandCommandRetry ch off ok) s = .next s)
      ∧ (s.chanLost ch = false → s.scrubStopped ⟨7, ch, 2, 7, 0, 0⟩ none off →
        exec (.uplandCommandRetry ch off ok) s = .next (s.quotaStop 8)))

/-- TABLE_CMD (R111). -/
def Obligations.TableStageMachine : Prop :=
  (∀ s : State, (s.table.stage = .empty ∨ s.table.stage = .refused) →
      ∃ t, exec .tableOpen s = .next t ∧ t.table.stage = .loading ∧ t.stagingHalf = Half.blank
        ∧ t.table.report = List.replicate 8 0 ∧ t.table.valid = s.table.valid ∧ t.table.active = s.table.active
        ∧ (s.table.valid = true → t.activeHalf = s.activeHalf))
  ∧ (∀ s : State, s.table.stage ≠ .empty → s.table.stage ≠ .refused → exec .tableOpen s = .next (s.abort 0x02021 aBadState))
  ∧ (∀ s : State, s.dict.shepherds = true → (s.table.stage = .loading ∨ (s.table.stage = .refused ∧ s.reportCode = cAborted)) →
      ∃ t, exec .tableCheck s = .next t ∧ t.table.stage = .checking ∧ t.stagingHalf = s.stagingHalf ∧ t.activeHalf = s.activeHalf)
  ∧ (∀ s : State, s.dict.shepherds = true → s.table.stage ≠ .loading → (s.table.stage ≠ .refused ∨ s.reportCode ≠ cAborted) →
      exec .tableCheck s = .next (s.abort 0x02021 aBadState))
  ∧ (∀ s : State, s.dict.shepherds = false → exec .tableCheck s = .next s)
  ∧ (∀ s : State, s.table.stage = .admitted →
      ∃ t, exec .tableArm s = .next t ∧ t.table.stage = (if t.swapsNext then .committed else .armed)
        ∧ (s.tideRuns = false → t.table.stage = .armed) ∧ t.table.active = s.table.active
        ∧ t.stagingHalf = s.stagingHalf ∧ t.activeHalf = s.activeHalf)
  ∧ (∀ s : State, s.table.stage ≠ .admitted → exec .tableArm s = .next (s.abort 0x02021 aBadState))
  ∧ (∀ s : State, s.table.stage = .armed → exec .tableDisarm s = .next { s with table.stage := .admitted })
  ∧ (∀ s : State, s.table.stage ≠ .armed → exec .tableDisarm s = .next (s.abort 0x02021 aBadState))
  ∧ (∀ s : State, (s.table.stage = .loading ∨ s.table.stage = .refused ∨ s.table.stage = .admitted) →
      ∃ t, exec .tableDiscard s = .next t ∧ t.table.stage = .empty ∧ t.stagingHalf = Half.blank
        ∧ t.table.valid = s.table.valid ∧ t.table.active = s.table.active ∧ (s.table.valid = true → t.activeHalf = s.activeHalf))
  ∧ (∀ s : State, s.table.stage ≠ .loading → s.table.stage ≠ .refused → s.table.stage ≠ .admitted →
      exec .tableDiscard s = .next (s.abort 0x02021 aBadState))

/-- The end of a check (R122 to R129), and the shepherd cores' restart (R31). -/
def Obligations.TableChecksEnd : Prop :=
  (∀ (elapsed : Nat) (s : State) (f : PFail), s.dict.shepherds = true → s.table.stage = .checking → s.checkTable s.stagingHalf = some f →
      ∃ u : State, exec (.tableCheckDone elapsed) s = .next (u.fire 16 0) ∧ (u.fire 16 0).table = u.table
        ∧ u.table.stage = .refused ∧ u.table.report = f.report elapsed ∧ u.upd.selecting = none
        ∧ u.tide = s.tide ∧ u.image = s.image ∧ (s.table.valid = true → u.activeHalf = s.activeHalf))
  ∧ (∀ (elapsed : Nat) (s : State), s.dict.shepherds = true → s.table.stage = .checking → s.checkTable s.stagingHalf = none →
      ∃ u : State, exec (.tableCheckDone elapsed) s = .next (if s.upd.selecting.isSome then u.armProfile else u)
        ∧ u.table.stage = .admitted ∧ u.table.report = admittedReport elapsed ∧ u.tide = s.tide ∧ u.image = s.image
        ∧ (s.table.valid = true → u.activeHalf = s.activeHalf)
        ∧ (u.armProfile.table.stage = .armed ∨ u.armProfile.table.stage = .committed))
  ∧ (∀ (elapsed : Nat) (s : State), s.dict.shepherds = false ∨ s.table.stage ≠ .checking →
      exec (.tableCheckDone elapsed) s = .next s)
  ∧ (∀ (core : Fin 4) (s : State), ∃ t, exec (.shepherdWatchdog core) s = .next t ∧ t.dict.shepherds = false
      ∧ (s.table.stage = .checking → t.table.stage = .refused ∧ fld (t.table.report.getD 0 0) 35 27 = cAborted)
      ∧ (s.table.stage ≠ .checking → t.table = s.table)
      ∧ t.dict.sessions = [] ∧ t.dict.subs = [] ∧ t.dict.waiting = [] ∧ t.svc.req = []
      ∧ (s.upd.state = .checking → t.upd.state = .receiving)
      ∧ t.fold.engine = s.fold.engine.take 1
      ∧ t.tide = s.tide ∧ t.time = s.time ∧ t.pen = s.pen ∧ t.image = s.image)
  ∧ (∀ s : State, s.dict.shepherds = false → exec .shepherdRestartDone s = .next { s with dict.shepherds := true }.mirrorResume)
  ∧ (∀ s : State, s.dict.shepherds = true → exec .shepherdRestartDone s = .next s)

/-- Commands that act on a pen's pointers (R194 to R202). -/
def Obligations.PenCommands : Prop :=
  (∀ (p : Fin 4096) (s : State), (s.penAt p).state ≠ .off → (s.penAt p).agrees = true →
      let x := s.penAt p
      let y := { (x.setRd x.cm).setWr x.cm with discard := x.opened || (!s.penPacket p && x.words != 0) }
      let f := ((s.setPen p y).bumpFld 0x03105 p 17 9).penFall p
      exec (.flush p) s = .next f ∧ exec (.penHalt p) s = .next (f.setPen p { f.penAt p with state := .off }))
  ∧ (∀ (p : Fin 4096) (s : State), (s.penAt p).state = .off → exec (.flush p) s = .next s ∧ exec (.penHalt p) s = .next s)
  ∧ (∀ (p : Fin 4096) (s : State), (s.penAt p).agrees = true → (s.penAt p).state ≠ .off → (s.penAt p).discard = false →
      (if s.penPacket p then (s.penAt p).opened = true else (s.penAt p).words ≠ 0) →
      exec (.markBad p) s = .next ((s.setPen p { (s.penAt p).setWr (s.penAt p).cm with opened := false, words := 0 }).bumpFld
        0x03105 p 26 18))
  ∧ (∀ (p : Fin 4096) (s : State), (s.penAt p).agrees = true →
      ((s.penAt p).state = .off ∨ (s.penAt p).discard = true
        ∨ (if s.penPacket p then (s.penAt p).opened = false else (s.penAt p).words = 0)) →
      exec (.markBad p) s = .next s)
  ∧ (∀ (p : Fin 4096) (s : State), (s.penAt p).agrees = false →
      let r := (((s.setPen p (s.penAt p).clear).penFall p).bumpFld 0x03105 p 8 0).fire 80 p
      ((s.penAt p).state ≠ .off → exec (.flush p) s = .next r ∧ exec (.penHalt p) s = .next r) ∧ exec (.markBad p) s = .next r)
  ∧ (∀ (p : Fin 4096) (s : State), (s.penAt p).state = .drain → (s.penAt p).fill (s.penSize p) = 0 →
      (s.penAt p).opened = false ∨ (s.penAt p).discard = true → exec (.penDrainDone p) s = .next (s.setPen p { s.penAt p with state := .off }))
  ∧ (∀ (p : Fin 4096) (s : State),
      (s.penAt p).state ≠ .drain ∨ (s.penAt p).fill (s.penSize p) ≠ 0
        ∨ ((s.penAt p).opened = true ∧ (s.penAt p).discard = false) →
      exec (.penDrainDone p) s = .next s)

/-- The access line of a pen (R200): a read takes four positions (R199), a write up to four words (R196). -/
def Obligations.PenAccess : Prop :=
  (∀ (p : Fin 4096) (s : State), (s.penAt p).state ≠ .off → (s.penAt p).agrees = true → s.classSafe 5 p = false →
      let m := min 4 ((s.penAt p).fill (s.penSize p))
      let idle := BitVec.ofNat 18 (s.cfg 0x03101 p)
      let u := s.enter 0 [penOut p]
      let t := if m = 0 then u else u.setPen p ((u.penAt p).setRd (((s.penAt p).rd + m) % (2 * s.penSize p)))
      let v := (List.range (4 - m)).foldl (fun (s : State) _ => s.bump 0x03106 p) t
      exec (.penAccessRead p) s = .next ((v.penFall p).emit .hostCompletion p
        ((List.range m).map (fun i => (Tab.get 0 s.pen.pool (s.penBase p + ((s.penAt p).rd + i) % s.penSize p)).toNat)
          ++ List.replicate (4 - m) (if s.penFedSafe p then mkW qBad (wp idle) else idle).toNat)))
  ∧ (∀ (p : Fin 4096) (s : State), (s.penAt p).agrees = true → s.classSafe 5 p = true →
      exec (.penAccessRead p) s = .next (((s.enter 0 [penOut p]).penFall p).emit .hostCompletion p
        (List.replicate 4 (mkW qBad (wp (BitVec.ofNat 18 (s.cfg 0x03101 p)))).toNat)))
  ∧ (∀ (p : Fin 4096) (s : State), (s.penAt p).agrees = false → (s.penAt p).state ≠ .off →
      ∃ t, exec (.penAccessRead p) s = .next t ∧ t.penAt p = ((s.setPen p (s.penAt p).clear).penFall p).penAt p
        ∧ t.pen.pool = s.pen.pool)
  ∧ (∀ (p : Fin 4096) (ws : List Word) (ends posted : Bool) (s : State),
      let r := (s.enter 0 [penIn p 0]).penPushLost p (ws.take 4)
      let u := if r.2 && !posted then r.1.emit .abort p [2] else r.1
      exec (.penAccessWrite p ws ends posted) s = .next (if ends then u.penCommit p else u))
  ∧ (∀ (p : Nat) (w : Word) (s : State), (s.penAt p).agrees = true → s.classSafe 5 p = false → (s.penAt p).state = .run →
      s.penPacket p = false → (s.penAt p).discard = false →
      let x := s.penAt p
      let y := { x.setWr ((x.wr + 1) % (2 * s.penSize p)) with words := x.words + 1 }
      let t := (s.penPoke p x.wr w).setPen p y
      let z := { x.setWr x.cm with words := if x.words + 1 = s.penItem p then 0 else x.words + 1,
                                   discard := decide (x.words + 1 ≠ s.penItem p) }
      (0 < x.free (s.penSize p) → x.words + 1 ≠ s.penItem p → s.penPushLost p [w] = (t, false))
      ∧ (0 < x.free (s.penSize p) → x.words + 1 = s.penItem p →
          s.penPushLost p [w] = ((t.setPen p { y.setCm y.wr with words := 0 }).penRise p, false))
      ∧ (x.free (s.penSize p) = 0 → s.penPushLost p [w] = ((s.setPen p z).penOverflow p, true)))
  ∧ (∀ (p : Nat) (w w' : Word) (ws : List Word) (s : State), (s.penAt p).agrees = true → s.classSafe 5 p = false →
      (s.penAt p).state ≠ .off →
      let a := s.penPushLost p [w]
      let b := a.1.penWordsIn p (w' :: ws)
      s.penPushLost p (w :: w' :: ws) = (b.1, a.2 || b.2))
  ∧ (∀ (p : Nat) (s : State), (s.penAt p).agrees = true → s.classSafe 5 p = true → ∀ ws, s.penPushLost p ws = (s, false))

/-- The instructions that steer a program (R216 to R225). -/
def Obligations.DroverProgramFlow : Prop :=
  ∀ (k : Fin 256) (off sense : Nat) (test : Bool) (s : State),
    let e := s.fetched k off sense
    let x := e.drover k
    let w := e.instrAt k
    let te := s.edgeT k off sense
    (s.executes k off sense 0 → exec (.br k off sense test) s = .next ((e.setDrover k (x.cond (fld w 10 7) test).2).finish k w te
        false (if (x.cond (fld w 10 7) test).1 then fld w 6 0 else x.nextPc)))
    ∧ (s.executes k off sense 1 → e.holdState k w sense test ≠ bit w 7 → exec (.hold k off sense test) s = .next (e.again k w te))
    ∧ (s.executes k off sense 1 → e.holdState k w sense test = bit w 7 →
        (bit w 7 = true → fld w 10 8 = 2 → exec (.hold k off sense test) s = .next
          ((e.setDrover k { x with eFlag := setFld x.eFlag (fld w 4 0) (fld w 4 0) 0 }).finish k w te false x.nextPc))
        ∧ (bit w 7 = true → fld w 10 8 = 4 → exec (.hold k off sense test) s = .next
          ((e.flagAct (k / 8) (e.abs e.tide.off) 1 (fld w 4 0)).finish k w te false x.nextPc))
        ∧ (bit w 7 = false ∨ (fld w 10 8 ≠ 2 ∧ fld w 10 8 ≠ 4) → exec (.hold k off sense test) s = .next
          (e.finish k w te false x.nextPc)))
    ∧ (s.executes k off sense 10 → exec (.flag k off sense test) s = .next
        ((e.flagAct (k / 8) (e.abs e.tide.off) (fld w 10 9) (fld w 2 0)).finish k w te false x.nextPc))
    ∧ (s.executes k off sense 11 → ∃ t, exec (.halt k off sense test) s = .next t
        ∧ (((e.finish k w te false x.nextPc).drover k).state = .run → t = (e.finish k w te false x.nextPc).setDrover k
            { (e.finish k w te false x.nextPc).drover k with state := .stopped, cause := 1 })
        ∧ (((e.finish k w te false x.nextPc).drover k).state ≠ .run → t = e.finish k w te false x.nextPc))

/-- The instructions that move data (R218 to R223). -/
def Obligations.DroverDataMoves : Prop :=
  ∀ (k : Fin 256) (off sense : Nat) (test : Bool) (s : State),
    let e := s.fetched k off sense
    let x := e.drover k
    let w := e.instrAt k
    let te := s.edgeT k off sense
    let n := fld w 5 0
    let v := (x.shoutBits n).1
    let y := { x with sout := (x.shoutBits n).2, soutLeft := x.soutLeft - n }
    let sound := s.faultEdge k off sense (fun u => u.shoutsPast k) = none
    (s.executes k off sense 2 → exec (.shin k off sense test) s = .next ((e.setDrover k { x with
        sin := x.shinBits n (x.shinSrc (fld w 10 8) sense), sinFill := min (x.sinFill + n) 36 }).finish k w te false x.nextPc))
    ∧ (sound → s.executes k off sense 3 → fld w 10 8 = 0 → exec (.shout k off sense test) s = .next
        (((e.setDrover k y).setLvls x.driveBase (min n x.driveCount) v).finish k w te false x.nextPc))
    ∧ (sound → s.executes k off sense 3 → fld w 10 8 = 1 → exec (.shout k off sense test) s = .next
        ((e.setDrover k { y with x := v % 2 ^ 18 }).finish k w te false x.nextPc))
    ∧ (sound → s.executes k off sense 3 → fld w 10 8 = 2 → exec (.shout k off sense test) s = .next
        ((e.setDrover k { y with y := v % 2 ^ 18 }).finish k w te false x.nextPc))
    ∧ (sound → s.executes k off sense 3 → fld w 10 8 = 4 → exec (.shout k off sense test) s = .next
        (((e.setDrover k y).setDirs x.driveBase (min n x.driveCount) v).finish k w te false x.nextPc))
    ∧ (sound → s.executes k off sense 3 → fld w 10 8 = 5 → exec (.shout k off sense test) s = .next
        ((e.setDrover k { y with t := v % 2 ^ 18 }).finish k w te true x.nextPc))
    ∧ (sound → s.executes k off sense 3 → fld w 10 8 = 6 → exec (.shout k off sense test) s = .next
        ((e.setDrover k y).finish k w te false (v % 128)))
    ∧ (∀ u, s.faultEdge k off sense (fun u => u.shoutsPast k) = some u →
        exec (.shout k off sense test) s = .next (((u.storeCorrect k).faulted k 4).fire 96 k))
    ∧ (s.edgeHere k off = true → (s.edgeBegin k off sense true).instrDue k = true →
        (s.edgeBegin k off sense true).shoutsPast k = true →
        exec (.shout k off sense test) s = .next ((((s.edgeBegin k off sense true).storeCorrect k).faulted k 4).fire 96 k))
    ∧ (sound → s.executes k off sense 3 → fld w 10 8 = 7 → exec (.shout k off sense test) s = .next
        ((e.setDrover k { y with cnt := v % 2 ^ 18 }).finish k w te false x.nextPc))
    ∧ (sound → s.executes k off sense 3 → fld w 10 8 = 3 → exec (.shout k off sense test) s = .next
        ((e.setDrover k y).finish k w te false x.nextPc))
    ∧ (s.executes k off sense 4 → exec (.latch k off sense test) s = .next
        ((e.doLatch k (fld w 10 9) (bit w 8) (bit w 7)).finish k w te false x.nextPc))
    ∧ (s.executes k off sense 5 → exec (.take k off sense test) s = .next
        ((e.takeDrover k (x.doTake (bit w 10))).finish k w te false x.nextPc))
    ∧ (s.executes k off sense 6 →
        let c (m : Nat) := copyFn (fld w 7 6) m (x.copySrc (fld w 5 3) sense)
        (fld w 10 8 = 0 → exec (.copy k off sense test) s = .next
          (((e.setDrover k x).setLvls x.driveBase x.driveCount (c x.driveCount)).finish k w te false x.nextPc))
        ∧ (fld w 10 8 = 1 → exec (.copy k off sense test) s = .next
          ((e.setDrover k { x with x := c 18 }).finish k w te false x.nextPc))
        ∧ (fld w 10 8 = 2 → exec (.copy k off sense test) s = .next
          ((e.setDrover k { x with y := c 18 }).finish k w te false x.nextPc))
        ∧ (fld w 10 8 = 3 → exec (.copy k off sense test) s = .next
          ((e.setDrover k { x with sin := c 36, sinFill := 36 }).finish k w te false x.nextPc))
        ∧ (fld w 10 8 = 4 → exec (.copy k off sense test) s = .next
          ((e.setDrover k { x with sout := c 36, soutLeft := x.outFrame }).finish k w te false x.nextPc))
        ∧ (fld w 10 8 = 5 → exec (.copy k off sense test) s = .next
          ((e.setDrover k { x with t := c 18 }).finish k w te true x.nextPc))
        ∧ (fld w 10 8 = 6 → exec (.copy k off sense test) s = .next
          (((e.setDrover k x).setDirs x.driveBase x.driveCount (c x.driveCount)).finish k w te false x.nextPc))
        ∧ (fld w 10 8 = 7 → exec (.copy k off sense test) s = .next
          ((e.setDrover k { x with cnt := c 18 }).finish k w te false x.nextPc)))
    ∧ (s.executes k off sense 7 →
        (fld w 10 8 = 0 → exec (.put_ k off sense test) s = .next
          (((e.setDrover k x).setLvls x.fixBase x.fixCount (fld w 7 0)).finish k w te false x.nextPc))
        ∧ (fld w 10 8 = 1 → exec (.put_ k off sense test) s = .next
          ((e.setDrover k { x with x := fld w 7 0 }).finish k w te false x.nextPc))
        ∧ (fld w 10 8 = 2 → exec (.put_ k off sense test) s = .next
          ((e.setDrover k { x with y := fld w 7 0 }).finish k w te false x.nextPc))
        ∧ (fld w 10 8 = 3 → exec (.put_ k off sense test) s = .next
          (((e.setDrover k x).setDirs x.fixBase x.fixCount (fld w 7 0)).finish k w te false x.nextPc))
        ∧ (fld w 10 8 = 4 → exec (.put_ k off sense test) s = .next
          ((e.setDrover k { x with t := fld w 7 0 }).finish k w te true x.nextPc))
        ∧ (fld w 10 8 = 5 → exec (.put_ k off sense test) s = .next
          ((e.setDrover k { x with cnt := fld w 7 0 }).finish k w te false x.nextPc)))
    ∧ (s.executes k off sense 8 →
        let a (m : Nat) := unsgn 18 ((m : Int) + sgn 9 (fld w 8 0))
        (fld w 10 9 = 0 → exec (.step_ k off sense test) s = .next
          ((e.setDrover k { x with x := a x.x }).finish k w te false x.nextPc))
        ∧ (fld w 10 9 = 1 → exec (.step_ k off sense test) s = .next
          ((e.setDrover k { x with y := a x.y }).finish k w te false x.nextPc))
        ∧ (fld w 10 9 = 2 → exec (.step_ k off sense test) s = .next
          ((e.setDrover k { x with t := a x.t }).finish k w te true x.nextPc))
        ∧ (fld w 10 9 = 3 → exec (.step_ k off sense test) s = .next
          ((e.setDrover k { x with cnt := a x.cnt }).finish k w te false x.nextPc)))
    ∧ (s.executes k off sense 9 → exec (.edge k off sense test) s = .next ((e.setDrover k ((List.range 8).foldl
        (fun x i => if (fld w 7 0).testBit i then x.edgeAct (fld w 10 8) i else x) x)).finish k w te false x.nextPc))

/-- The end of an instruction (R216, R220, R221). -/
def Obligations.DroverCompletion : Prop :=
  ∀ (s : State) (k : Nat) (w te : Nat) (wroteT : Bool) (pc : Nat),
    let x := s.drover k
    let y := { x with
      pc := pc, dwell := if bit w 11 then x.dwellN else 0,
      t := if wroteT then x.t else if te ≠ 0 then te - 1 else if x.tper ≠ 0 then x.tper - 1 else 0 }
    let a := s.setDrover k y
    let cue (u : State) := if fld w 13 12 = 0 then u else u.setCue (u.drover k) ((u.drover k).cuePat (fld w 13 12))
    let pushes := bit x.shift 15 = true ∧ x.inFrame ≤ x.sinFill ∧ fld w 17 14 ≠ 4
    let pulls (z : Drover) := bit z.shift 14 = true ∧ z.soutLeft = 0 ∧ fld w 17 14 ≠ 5
    y ≠ Drover.blank →
      (¬ pushes → ¬ pulls y → s.finish k w te wroteT pc = cue a)
      ∧ (¬ pushes → pulls y → s.finish k w te wroteT pc = cue (a.takeDrover k (y.doTake true)))
      ∧ (pushes → ¬ pulls ((a.doLatch k 0 false false).drover k) → s.finish k w te wroteT pc = cue (a.doLatch k 0 false false))
      ∧ (pushes → pulls ((a.doLatch k 0 false false).drover k) → s.finish k w te wroteT pc =
          let b := a.doLatch k 0 false false
          cue (b.takeDrover k ((b.drover k).doTake true)))
      ∧ s.again k w te = (if fld w 13 12 = 0 then (s.setDrover k { x with t := x.tick te }).autos k w
          else ((s.setDrover k { x with t := x.tick te }).autos k w).setCue x (x.cuePat (fld w 13 12)))

/-- Faults at an edge, idle edges and control commands (R216, R227 to R229). A fault is met before a command due at the same
edge, which then has no effect. -/
def Obligations.DroverFaultsAndControl : Prop :=
  (∀ (k : Fin 256) (off sense : Nat) (test : Bool) (s : State), s.edgeHere k off = true →
      let before := s.edgeBegin k off sense true
      let after := s.edgeBegin k off sense
      let meets (u : State) := u.instrDue k = true ∧ u.instrEcc k ≠ .multi ∧ 12 ≤ fld (u.instrAt k) 17 14
      let met (u : State) := ((u.storeCorrect k).faulted k (fld (u.instrAt k) 17 14 - 4)).fire 96 k
      (meets before → exec (.undefinedDroverOpcode k off sense test) s = .next (met before))
      ∧ (¬ meets before → meets after → exec (.undefinedDroverOpcode k off sense test) s = .next (met after))
      ∧ (before.instrDue k = true → exec (.droveStoreUncorrectable k off sense test) s = .next
          (((before.storeBad k).faulted k 5).fire 96 k))
      ∧ (before.instrDue k = false → after.instrDue k = true → exec (.droveStoreUncorrectable k off sense test) s = .next
          (((after.storeBad k).faulted k 5).fire 96 k)))
  ∧ (∀ (k : Fin 256) (off sense : Nat) (test : Bool) (s : State), s.edgeHere k off = true →
      let e := s.edgeBegin k off sense
      ((e.drover k).state = .run → (e.drover k).dwell ≠ 0 → exec (.droverClockEdge k off sense test) s = .next
          (e.setDrover k { e.drover k with dwell := (e.drover k).dwell - 1, t := (e.drover k).tick (e.drover k).t }))
      ∧ ((e.drover k).state = .stopped ∨ (e.drover k).state = .fault → exec (.droverClockEdge k off sense test) s = .next
          (e.setDrover k { e.drover k with t := (e.drover k).tick (e.drover k).t }))
      ∧ ((e.drover k).state = .off → exec (.droverClockEdge k off sense test) s = .next (s.edgeWrites k off false)))
  ∧ (∀ (k : Fin 256) (off sense : Nat) (test : Bool) (s : State), s.edgeHere k off = false →
      exec (.droverClockEdge k off sense test) s = .next s ∧ exec (.undefinedDroverOpcode k off sense test) s = .next s
      ∧ exec (.droveStoreUncorrectable k off sense test) s = .next s)
  ∧ (∀ (k : Fin 256) (s : State),
      let queued (u : State) (cmd : Word) :=
        u.setDrover k { u.drover k with waits := (u.drover k).waits ++ [⟨8, cmd, u.abs u.tide.off, 0⟩] }
      let kept := s.keepAwake (k.val / 16)
      ((s.drover k).state = .stopped → exec (.drvRun k) s = .next (queued kept 1))
      ∧ ((s.drover k).state = .run → exec (.drvStop k) s = .next (queued s 2))
      ∧ ((s.drover k).state = .run ∨ (s.drover k).state = .stopped → exec (.drvRestart k) s = .next (queued kept 3))
      ∧ ((s.drover k).state = .fault → s.droverHeld k = false → ((s.drover k).cause = 6 ∨ (s.src 96).unack = 0) →
          exec (.drvRestart k) s = .next (queued kept 3)))
  ∧ (∀ (k : Fin 256) (s : State),
      let refused := s.abort (0x04009 + 16 * k) 7
      ((s.drover k).state ≠ .stopped → exec (.drvRun k) s = .next refused)
      ∧ ((s.drover k).state ≠ .run → exec (.drvStop k) s = .next refused)
      ∧ ((s.drover k).state = .off → exec (.drvRestart k) s = .next refused)
      ∧ ((s.drover k).state = .fault → s.drvFree k = false → exec (.drvRestart k) s = .next refused))
  ∧ (∀ (x : Drover) (cmd : Word) (at_ abs : Nat) (free : Bool), at_ + 1 ≤ abs →
      let y (l : List DWait) := { x with waits := l }
      (x.waits = [⟨8, cmd, at_, 0⟩] → x.visible abs free false = y [⟨8, cmd, at_, 1⟩])
      ∧ (x.waits = [⟨8, 1, at_, 1⟩] → x.state = .stopped → x.visible abs free false = { y [] with state := .run, cause := 0 })
      ∧ (x.waits = [⟨8, 2, at_, 1⟩] → x.state = .run → x.visible abs free false = { y [] with state := .stopped, cause := 2 })
      ∧ (x.waits = [⟨8, 3, at_, 1⟩] → (x.state = .run ∨ x.state = .stopped ∨ (x.state = .fault ∧ free = true)) →
          x.visible abs free false = { y [] with
            state := .run, cause := 0, pc := 0, x := x.xpre, y := x.ypre, sin := 0, sout := 0, sinFill := 0, soutLeft := 0,
            t := x.tper - 1, eMode := fld x.init 31 16, eFlag := 0, dwell := 0 })
      ∧ (x.waits = [⟨8, cmd, at_, 1⟩] → x.visible abs free true = y []))

/-- Commands on a drove (R235, R237, R242). -/
def Obligations.DroveCommands : Prop :=
  (∀ (d : Fin 32) (s : State),
      let v := s.drove d
      let bad := s.abort (0x0400D + 128 * d) 7
      (v.xstate = .idle → exec (.droveCopy d) s = .next (s.setDrove d { v with xstate := .copying }))
      ∧ (v.xstate ≠ .idle → exec (.droveCopy d) s = .next bad)
      ∧ (v.xstate = .copying → exec (.droveCopyDone d) s = .next (s.setDrove d
          { v with xstate := .idle, load := v.store, loadEcc := v.ecc.filter fun p => p.2 == .multi }))
      ∧ (v.xstate ≠ .copying → exec (.droveCopyDone d) s = .next s)
      ∧ (v.xstate = .pending → exec (.exchangeCancel d) s = .next ((s.setDrove d { v with xstate := .idle }).fire 99 d))
      ∧ (v.xstate ≠ .pending → exec (.exchangeCancel d) s = .next bad))
  ∧ (∀ (d : Fin 32) (mask : Fin 256) (carry : Fin 16) (s : State),
      let v := s.drove d
      (v.xstate = .idle → s.exchangeOk d mask = true → exec (.exchange d mask carry) s = .next
          (s.setDrove d { v with xstate := .pending, mask := mask, carry := carry, pendingAt := s.abs s.tide.off }))
      ∧ (v.xstate = .idle → s.exchangeOk d mask = false → exec (.exchange d mask carry) s = .next (s.abort (0x0400D + 128 * d) 6))
      ∧ (v.xstate ≠ .idle → exec (.exchange d mask carry) s = .next (s.abort (0x0400D + 128 * d) 7)))
  ∧ (∀ (d : Fin 32) (a : Fin 512) (w : Word) (s : State),
      let v := s.drove d
      (v.xstate = .idle → exec (.droveStoreWrite d a w) s = .next (s.setDrove d
          { v with load := Tab.set 0 v.load a w, loadEcc := Tab.set .good v.loadEcc a .good }))
      ∧ (v.xstate ≠ .idle → exec (.droveStoreWrite d a w) s = .next (s.emit .abort (0x0400E + 128 * d) [3])))
  ∧ (∀ (d : Fin 32) (r : Fin 64) (w : Word) (s : State),
      let e := s.enter 2 [⟨9, 0, 1, 1, 0, 0⟩, ⟨3, d / 2, 0, 1, 4, 0⟩, ⟨4, d, 2, 1, 1, 0⟩]
      let k := 8 * d.val + r.val / 8
      exec (.droveRegisterWrite d r w) s = .next
        (e.setDrover k { e.drover k with waits := (e.drover k).waits ++ [⟨r.val % 8, w, s.abs s.tide.off, 0⟩] }))

/-- Banks, filters and captures (R245, R255, R257). -/
def Obligations.PinCommands : Prop :=
  (∀ (b : Fin 32) (s : State), exec (.vioStateChange b 0) s = .next { s with pin.vio := Tab.set 0 s.pin.vio b 0 })
  ∧ (∀ (b : Fin 32) (v : Fin 4) (s : State), v ≠ 0 →
      let u : State := { s with
        pin.vio := Tab.set 0 s.pin.vio b v.val,
        pin.out := if s.pin.out.contains b.val then s.pin.out else b.val :: s.pin.out }
      exec (.vioStateChange b v) s = .next (if Tab.get 0 s.pin.vio b = 0 ∧ s.workRuns = true then u.fire 112 b else u))
  ∧ (∀ (b : Fin 32) (s : State), Tab.get 0 s.pin.vio b = 0 →
      exec (.bankReturnToService b) s = .next { s with pin.out := s.pin.out.filter (· != b.val) })
  ∧ (∀ (b : Fin 32) (s : State), Tab.get 0 s.pin.vio b ≠ 0 → exec (.bankReturnToService b) s = .next s)
  ∧ (∀ (p : Fin 1024) (level : Bool) (s : State),
      exec (.filterOutputChange p level) s = .next { s with pin.filt := Tab.set false s.pin.filt p level })
  ∧ (∀ (p : Fin 1024) (off : Nat) (s : State), s.bankOk (p.val / 32) = true →
      let u := s.advance off
      let at_ := u.edgeTime p off
      (bit (s.pinCfg p) 7 = true → Tab.get false s.pin.filt p = true → exec (.pinCapture p true off) s = .next
          { u with pin.captures := Tab.set 0 u.pin.captures p (u.captureCount p true), pin.rise := Tab.set 0 u.pin.rise p at_ })
      ∧ (bit (s.pinCfg p) 8 = true → Tab.get false s.pin.filt p = false → exec (.pinCapture p false off) s = .next
          { u with pin.captures := Tab.set 0 u.pin.captures p (u.captureCount p false), pin.fall := Tab.set 0 u.pin.fall p at_ }))
  ∧ (∀ (p : Fin 1024) (rise : Bool) (off : Nat) (s : State),
      (bit (s.pinCfg p) (if rise then 7 else 8) = false ∨ s.bankOk (p.val / 32) = false ∨ Tab.get false s.pin.filt p ≠ rise) →
      exec (.pinCapture p rise off) s = .next s)

/-- Beacons (R261 to R263). -/
def Obligations.BeaconCommands : Prop :=
  (∀ (b : Fin 64) (s : State), (s.beacon b).state = .idle → s.time.state ≠ .unset →
      let start := timeUnits (s.cfg 0x05010 b)
      let period := fld (s.cfg 0x05011 b) 33 4 * tickPerNs
      let width := beaconWidth (s.cfg 0x05012 b)
      let least := s.now + 1024 * tickPerWc
      width ≠ 0 → (period = 0 ∨ width < period) →
        (period = 0 → start < least → ∃ x, x.state = .missed ∧ exec (.beaconArm b) s = .next ((s.setBeacon b x).fire 114 b))
        ∧ (period = 0 → least ≤ start → ∃ x, x.state = .armed ∧ x.due = start ∧ x.width = width ∧ x.period = 0 ∧ x.active = false
            ∧ exec (.beaconArm b) s = .next (s.setBeacon b x))
        ∧ (period ≠ 0 → ∃ x k, x.state = .armed ∧ x.due = start + k * period ∧ least ≤ x.due ∧ (k = 0 ∨ x.due < least + period)
            ∧ x.width = width ∧ x.period = period ∧ x.active = false ∧ exec (.beaconArm b) s = .next (s.setBeacon b x)))
  ∧ (∀ (b : Fin 64) (s : State), (s.beacon b).state = .idle → s.time.state = .unset →
      let period := fld (s.cfg 0x05011 b) 33 4 * tickPerNs
      let width := beaconWidth (s.cfg 0x05012 b)
      width ≠ 0 → (period = 0 ∨ width < period) →
        ∃ x, x.state = .stopped ∧ x.active = false ∧ exec (.beaconArm b) s = .next ((s.setBeacon b x).fire 114 b))
  ∧ (∀ (b : Fin 64) (s : State), (s.beacon b).state = .idle →
      let period := fld (s.cfg 0x05011 b) 33 4 * tickPerNs
      let width := beaconWidth (s.cfg 0x05012 b)
      (width = 0 ∨ (period ≠ 0 ∧ period ≤ width)) → exec (.beaconArm b) s = .next (s.abort 0x05013 6))
  ∧ (∀ (b : Fin 64) (s : State), (s.beacon b).state ≠ .idle → exec (.beaconArm b) s = .next (s.abort 0x05013 7))
  ∧ (∀ (b : Fin 64) (s : State), (s.beacon b).state ≠ .idle →
      exec (.beaconStop b) s = .next (s.setBeacon b { s.beacon b with state := .idle, active := false }))
  ∧ (∀ (b : Fin 64) (s : State), (s.beacon b).state = .idle → exec (.beaconStop b) s = .next (s.abort 0x05013 7))
  ∧ (∀ (b : Fin 64) (off : Nat) (s : State),
      let u := s.advance off
      let x := u.beacon b
      (((x.state ≠ .armed ∧ x.state ≠ .running) ∨ 5 * u.now + 2 * tickPerNs < 5 * x.due ∨ x.due + 2 * tickPerNs < u.now) →
          exec (.beaconEdge b off) s = .next s)
      ∧ ((x.state = .armed ∨ x.state = .running) → 5 * x.due ≤ 5 * u.now + 2 * tickPerNs → u.now ≤ x.due + 2 * tickPerNs →
        (x.active = false → exec (.beaconEdge b off) s = .next (u.setBeacon b { x with
            active := true, due := x.due + x.width, state := if x.period = 0 then x.state else .running }))
        ∧ (x.active = true → exec (.beaconEdge b off) s = .next (u.setBeacon b { x with
            active := false, pulses := satAdd 15 x.pulses 1, due := x.due - x.width + x.period,
            state := if x.period = 0 then .done else x.state }))))

/-- The channel's states (R275). -/
def Obligations.BusChannelStates : Prop :=
  ∀ (c : Fin 128) (tb : Fin 3) (s : State),
    let x := s.chan c
    let bad := s.abort (busEntry c 12) 7
    (x.state = .integrating → exec (.busIntegrated c) s = .next (s.setChan c { x with state := .active, waits := false }))
    ∧ (x.state ≠ .integrating → exec (.busIntegrated c) s = .next (s.setChan c { x with waits := false }))
    ∧ (x.state = .busOff → bit (s.busMode c) 22 = false → fld (s.busMode c) 21 14 ≤ x.offTurns →
        exec (.busRecoverDelayExpiry c) s = .next (s.setChan c { x with state := .recovering }))
    ∧ (x.state ≠ .busOff ∨ bit (s.busMode c) 22 = true ∨ x.offTurns < fld (s.busMode c) 21 14 →
        exec (.busRecoverDelayExpiry c) s = .next s)
    ∧ (x.state = .recovering → exec (.busRecoveryDone c) s = .next (s.setChan c { x with state := .active, tec := 0, rec_ := 0 }))
    ∧ (x.state ≠ .recovering → exec (.busRecoveryDone c) s = .next s)
    ∧ (x.state = .drain → x.held = none → x.tb0.state = .empty → x.tb1.state = .empty → x.tb2.state = .empty →
        exec (.busDrainDone c) s = .next (s.setChan c { x with state := .off }))
    ∧ (x.state ≠ .drain ∨ x.held ≠ none ∨ x.tb0.state ≠ .empty ∨ x.tb1.state ≠ .empty ∨ x.tb2.state ≠ .empty →
        exec (.busDrainDone c) s = .next s)
    ∧ (x.state = .busOff → bit (s.busMode c) 22 = true → exec (.busRecover c) s = .next (s.setChan c { x with state := .recovering }))
    ∧ (x.state ≠ .busOff ∨ bit (s.busMode c) 22 = false → exec (.busRecover c) s = .next bad)
    ∧ (x.state ≠ .off → exec (.busHalt c) s = .next ((s.dropFrames c).setChan c
        { (s.dropFrames c).chan c with state := .off, held := none, waits := false }))
    ∧ (x.state = .off → exec (.busHalt c) s = .next bad)
    ∧ ((x.tb tb).state = .pending → exec (.busAbortTb c tb) s = .next
        ((s.setChan c (x.setTb tb { x.tb tb with
          state := .empty, void := (x.tb tb).void || (x.tb tb).voidAfter, voidAfter := false })).busCount c 1))
    ∧ ((x.tb tb).state ≠ .pending → exec (.busAbortTb c tb) s = .next bad)

/-- Frames (R280 to R286). -/
def Obligations.BusFrames : Prop :=
  (∀ (c : Fin 128) (off b : Nat) (s : State),
      let u := s.advance off
      let x := u.chan c
      let isR := b == 0 && fld (u.busMode c) 13 12 == 1 && isRef (u.cfg (busEntry c 10)) (hdrw (x.tb b).image)
      u.maySend c = true → u.busChoose c = some b →
      exec (.busFrameStart c off) s = .next (u.setChan c { x.setTb b { x.tb b with state := .active } with
        sof := timeVal u.now,
        refBody := if isR then refPayload (hdrw (x.tb b).image) x.refs u.now (u.time.state != .unset) else [] }))
  ∧ (∀ (c : Fin 128) (off : Nat) (s : State), ((s.advance off).maySend c = false ∨ (s.advance off).busChoose c = none) →
      exec (.busFrameStart c off) s = .next s)
  ∧ (∀ (c : Fin 128) (b : Nat) (s : State), (s.chan c).activeTb = some b →
      let e := s.bumpFld (busEntry c 13) 7 35 18
      exec (.busFrameTxEnd c 0) s = .next (s.txDone c b)
      ∧ (bit (s.busMode c) 25 = false → exec (.busFrameTxEnd c 1) s = .next
          (s.setChan c { (s.chan c).setTb b { (s.chan c).tb b with state := .pending } with refBody := [] }))
      ∧ (bit (s.busMode c) 25 = true → exec (.busFrameTxEnd c 1) s = .next
          ((s.setChan c { (s.chan c).setTb b ((s.chan c).tb b).ended with refBody := [] }).busCount c 1))
      ∧ exec (.busFrameTxEnd c 2) s = .next ((e.moveTec c (· + 8)).txAgain c b)
      ∧ exec (.busFrameTxEnd c 3) s = .next (e.txAgain c b))
  ∧ (∀ (c : Fin 128) (o : Fin 4) (s : State), (s.chan c).activeTb = none → exec (.busFrameTxEnd c o) s = .next s)
  ∧ (∀ (c : Fin 128) (own esi : Bool) (frame : List Word) (back : Nat) (s : State),
      let t := timeVal (s.now - back * tickPerWc)
      hdrShape (frw frame) = true → frame.length = 8 + hWords (frw frame) → s.mayReceive c own = true →
      let u := (s.refSeen c own frame t).busDeliver c esi frame t
      (s.busBarred c (frw frame) = false → exec (.busFrameReceived c own esi frame back) s = .next (if own then u else u.recDown c))
      ∧ (s.busBarred c (frw frame) = true → exec (.busFrameReceived c own esi frame back) s = .next (s.busViolation c true 1)))
  ∧ (∀ (c : Fin 128) (own esi : Bool) (frame : List Word) (back : Nat) (s : State),
      (hdrShape (frw frame) = false ∨ frame.length ≠ 8 + hWords (frw frame) ∨ s.mayReceive c own = false) →
      exec (.busFrameReceived c own esi frame back) s = .next s)
  ∧ (∀ (c : Fin 128) (format : Bool) (rise : Fin 9) (s : State),
      ((s.chan c).state = .active ∨ (s.chan c).state = .passive ∨ (s.chan c).state = .drain) →
      let v := (s.busCount c 6).fire 130 c
      let e := v.bumpFld (busEntry c 13) 7 35 18
      (format = true → bit (v.busMode c) 23 = false → exec (.busProtocolViolation c format rise) s = .next
          (v.setChan c { v.chan c with waits := true }))
      ∧ (format = false ∨ bit (v.busMode c) 23 = true → exec (.busProtocolViolation c format rise) s = .next
          ((if e.busModeNo c = 0 ∨ e.busModeNo c = 4 then e.emit .busSignal c [1] else e).recUp c rise)))
  ∧ (∀ (c : Fin 128) (p : Nat) (ws : List Word) (s : State), (s.chan c).held = some (p, ws) →
      ((s.chan c).state = .active ∨ (s.chan c).state = .passive ∨ (s.chan c).state = .drain) →
      let u := ((s.enterPen 5 p ws.length true).setChan c { s.chan c with held := none }).penPacketIn p ws
      (s.classSafe 2 5 = false → s.ledgerRoom 5 = true →
        (u.2 = false → exec (.busRxRecordWrite c) s = .next u.1)
        ∧ (u.2 = true → exec (.busRxRecordWrite c) s = .next ((u.1.busCount c 5).fire 133 c)))
      ∧ (s.classSafe 2 5 = true → exec (.busRxRecordWrite c) s = .next
          (((s.setChan c { s.chan c with held := none }).busCount c 5).fire 133 c)))
  ∧ (∀ (c : Fin 128) (s : State), ((s.chan c).held = none
        ∨ ((s.chan c).state ≠ .active ∧ (s.chan c).state ≠ .passive ∧ (s.chan c).state ≠ .drain)
        ∨ (s.classSafe 2 5 = false ∧ s.ledgerRoom 5 = false)) →
      exec (.busRxRecordWrite c) s = .next s)
  ∧ (∀ (c : Fin 128) (tb : Fin 3) (s : State),
      let p := fld (s.cfg (busEntry c 8)) (35 - 12 * tb.val) (24 - 12 * tb.val)
      ((s.chan c).state = .active ∨ (s.chan c).state = .passive) → bit (s.busMode c) (26 + tb.val) = true →
      ((s.chan c).tb tb).state = .empty → s.ledgerRoom 5 = true → s.classSafe 2 5 = false →
      ((s.penPacketOut p).2 = none → exec (.busTbPenFetch c tb) s = .next s)
      ∧ (∀ ws, (s.penPacketOut p).2 = some ws →
          let e := (s.penPacketOut p).1.enterPen 5 p ws.length false
          (e.hdrOk c tb (frw ws) = true → ws.length = 8 + (hLen (frw ws) + 1) / 2 → exec (.busTbPenFetch c tb) s = .next
              (e.setChan c ((e.chan c).setTb tb { TxBuf.blank with state := .pending, image := Tab.setList 0 [] 0 ws })))
          ∧ (e.hdrOk c tb (frw ws) = false ∨ ws.length ≠ 8 + (hLen (frw ws) + 1) / 2 → exec (.busTbPenFetch c tb) s = .next
              ((e.busCount c 2).fire 131 c))))
  ∧ (∀ (c : Fin 128) (tb : Fin 3) (s : State),
      ((s.chan c).state ≠ .active ∧ (s.chan c).state ≠ .passive) ∨ bit (s.busMode c) (26 + tb.val) = false
        ∨ ((s.chan c).tb tb).state ≠ .empty ∨ s.ledgerRoom 5 = false ∨ s.classSafe 2 5 = true →
      exec (.busTbPenFetch c tb) s = .next s)

/-- Port states (R301, R302, R320). -/
def Obligations.PortStates : Prop :=
  ∀ (p : Fin 49) (s : State),
    let x := s.port p
    let bad := s.abort 0x07002 7
    (x.state = .settling → s.supplyUp 3 = true → s.supplyUp 4 = true →
        exec (.portSettleDone p) s = .next (s.setPort p { x with state := .down }))
    ∧ (x.state ≠ .settling → exec (.portSettleDone p) s = .next s)
    ∧ (∀ a : Fin 3, x.state = .down →
        let m := portMode (s.portCfg p)
        exec (.portLinkUp p a) s = .next ((s.setPort p { x with
          state := .up, ampl := if p.val < 16 then 0 else if m = 0 then a.val else if p.val < 48 then m else 0 }).fire 144 p))
    ∧ (∀ a : Fin 3, x.state ≠ .down → exec (.portLinkUp p a) s = .next s)
    ∧ (x.state = .up → let u := s.dropQueues p
        exec (.portLinkLost p) s = .next ((u.setPort p { u.port p with state := .down, ampl := 0 }).fire 144 p))
    ∧ (x.state ≠ .up → exec (.portLinkLost p) s = .next s)
    ∧ (x.state = .up ∨ x.state = .down →
        let u := s.schedSettle p
        let t := (u.setPort p { u.port p with state := .settling }).fire 145 p
        (p.val < 16 → exec (.portLanePllLoss p) s = .next t ∧ exec (.portCalibrate p) s = .next t ∧ exec (.portRestart p) s = .next t)
        ∧ (16 ≤ p.val → exec (.portLanePllLoss p) s = .next s ∧ exec (.portCalibrate p) s = .next bad))
    ∧ (x.state = .up → 16 ≤ p.val → let u := s.dropQueues p
        exec (.portRestart p) s = .next ((u.setPort p { u.port p with state := .down, ampl := 0 }).fire 144 p))
    ∧ (x.state = .down → 16 ≤ p.val → exec (.portRestart p) s = .next s)
    ∧ (x.state ≠ .up → x.state ≠ .down → exec (.portLanePllLoss p) s = .next s ∧ exec (.portCalibrate p) s = .next bad
        ∧ exec (.portRestart p) s = .next bad)
    ∧ (x.state = .drain → s.schedQ p = [] → (∀ tc < 8, s.bq p tc = []) →
        exec (.portDrainDone p) s = .next (s.setPort p { Port.blank with busy := x.busy }))
    ∧ ((x.state ≠ .drain ∨ s.schedQ p ≠ [] ∨ ∃ tc < 8, s.bq p tc ≠ []) → exec (.portDrainDone p) s = .next s)
    ∧ (x.state ≠ .off → let u := ((s.schedLose p).cutWire p).dropQueues p
        let v := (u.schedQ p).foldl (fun s _ => s.portCount p 12) u
        exec (.portHalt p) s = .next ((v.setSchedQ p []).setPort p Port.blank))
    ∧ (x.state = .off → exec (.portHalt p) s = .next bad)
    ∧ (s.faultPort p = true → x.state ≠ .off →
        exec (.portLocalFault p) s = .next ((s.setPort p { x with faultSent := true }).emit .marker (100 + p) [1])
        ∧ (∀ lasts : Bool, exec (.remoteFaultReceived p lasts) s = .next (s.setPort p { x with faultSeen := lasts })))
    ∧ (s.faultPort p = false ∨ x.state = .off →
        exec (.portLocalFault p) s = .next s ∧ (∀ lasts : Bool, exec (.remoteFaultReceived p lasts) s = .next s))
    ∧ (x.faultSent = true →
        exec (.localFaultEnd p) s = .next ((s.setPort p { x with faultSent := false }).emit .marker (100 + p) [0]))
    ∧ (x.faultSent = false → exec (.localFaultEnd p) s = .next s)

/-- Frames of the switch core (R300 to R318). -/
def Obligations.SwitchFrames : Prop :=
  (∀ (p : Fin 49) (bytes : List Nat) (bad : Bool) (back : Nat) (s : State),
      ((s.port p).state = .up ∨ (s.port p).state = .drain) →
      let n := bytes.length + 4
      let sized := 64 ≤ n ∧ n ≤ portMax (s.portCfg p)
      let reserved := tagged bytes = true ∧ rawVid bytes = 0xFFF
      let r := exec (.ethFrameReceived p bytes bad back) s
      (bad = true → r = .next (s.portCount p 1))
      ∧ (bad = false → ¬ sized → r = .next (s.portCount p 2))
      ∧ (bad = false → sized → reserved → r = .next ((s.portCount p 3).fire 146 p))
      ∧ (bad = false → sized → ¬ reserved → etype bytes = 0x8808 → r = .next (s.portCount p 4))
      ∧ (bad = false → sized → ¬ reserved → etype bytes ≠ 0x8808 → r = .next (s.rxGood p bytes (s.stampAt (s.now - back * tickPerWc)))))
  ∧ (∀ (p : Fin 49) (bytes : List Nat) (bad : Bool) (back : Nat) (s : State),
      (s.port p).state ≠ .up → (s.port p).state ≠ .drain → exec (.ethFrameReceived p bytes bad back) s = .next s)
  ∧ (∀ (p : Fin 49) (off tc : Nat) (f : QFrame) (s : State),
      let u := s.advance off
      let now := u.abs u.tide.off
      let b := tagOut (u.portCfg p) f
      let till := now + wireTime p (u.portRate p) (b.length + 4)
      u.nextFrame p = some (tc, f) → ((u.port p).state = .up ∨ (u.port p).state = .drain) → (u.port p).sends = true →
      u.portSafe p = false → (u.port p).busy ≤ now → (∀ t, u.nextTx p now = some t → till ≤ t) →
      let v := (u.setBq p tc ((u.bq p tc).drop 1)).setPort p { u.port p with busy := till }
      exec (.bestEffortFrameStart p off) s = .next
        (((v.emit .ethFrame p (withFcs b)).portCount p 5).sessions { f with bytes := b } p 1
          (v.stampAt (v.now + wireAddr p (u.portRate p) * tickPerWc)) none))
  ∧ (∀ (p : Fin 49) (off : Nat) (s : State),
      let u := s.advance off
      (u.nextFrame p = none ∨ ((u.port p).state ≠ .up ∧ (u.port p).state ≠ .drain) ∨ (u.port p).sends = false
        ∨ u.portSafe p = true ∨ u.abs u.tide.off < (u.port p).busy) → exec (.bestEffortFrameStart p off) s = .next u)
  ∧ (∀ (p : Fin 49) (off tc t : Nat) (f : QFrame) (s : State),
      let u := s.advance off
      let now := u.abs u.tide.off
      u.nextFrame p = some (tc, f) → u.nextTx p now = some t →
      t < now + wireTime p (u.portRate p) ((tagOut (u.portCfg p) f).length + 4) →
      exec (.bestEffortFrameStart p off) s = .next u)
  ∧ (∀ (p : Fin 50) (s : State),
      let host := p.val = 49
      let pen := if host then fld (s.cfg 0x07014) 11 0 else fld (s.cfg 0x07004 p) 11 0
      (s.ledgerRoom 5 = false ∨ s.classSafe 2 5 = true ∨ (s.penPacketOut pen).2 = none
        ∨ (if host then bit (s.cfg 0x07014) 34 = false else bit (s.cfg 0x07004 p) 12 = false ∨ (s.port p).state ≠ .up)) →
      exec (.portTxPenFetch p) s = .next s)
  ∧ (∀ (p : Fin 50) (ws : List Word) (s : State),
      let host := p.val = 49
      let pen := if host then fld (s.cfg 0x07014) 11 0 else fld (s.cfg 0x07004 p) 11 0
      (if host then bit (s.cfg 0x07014) 34 = true else bit (s.cfg 0x07004 p) 12 = true ∧ (s.port p).state = .up) →
      s.ledgerRoom 5 = true → s.classSafe 2 5 = false → (s.penPacketOut pen).2 = some ws →
      let e := (s.penPacketOut pen).1.enterPen 5 pen ws.length false
      let rec_ := penFrame p (if host then 9216 else portMax (e.portCfg p)) (if host then 1 else portPvid (e.portCfg p)) ws
      (rec_ = none → exec (.portTxPenFetch p) s = .next (e.portCount p 12))
      ∧ (∀ f, rec_ = some f →
          (host → exec (.portTxPenFetch p) s = .next (e.classify f (e.stampAt e.now)))
          ∧ (¬ host → e.freeCells < frameCells f.bytes → exec (.portTxPenFetch p) s = .next (e.noteFull p))
          ∧ (¬ host → frameCells f.bytes ≤ e.freeCells → exec (.portTxPenFetch p) s = .next
              (((e.newCopy f).1.enqueue p (e.newCopy f).2).1))))
  ∧ (∀ (vid mac : Nat) (s : State),
      (fld (s.cfg 0x07010) 31 16 ≠ 0 → exec (.fdbAgeExpiry vid mac) s = .next
          { s with sw.fdb := Tab.set 0 s.sw.fdb (vid * 2 ^ 48 + mac) 0 })
      ∧ (fld (s.cfg 0x07010) 31 16 = 0 → exec (.fdbAgeExpiry vid mac) s = .next s))
  ∧ (∀ (node : Fin 1024) (s : State),
      exec (.tunnelRepathHoldExpiry node) s = .next ((s.sw.held.filter (·.1 == node.val)).foldl (fun s p => s.tunnelNow node p.2)
        { s with sw.held := s.sw.held.filter (·.1 != node.val), ring.repath := s.ring.repath.filter (· != node.val) }))
  ∧ (∀ (dir : Fin 4) (cell : List Word) (check : Fin 256) (s : State),
      let l := dirOut (dirWrap dir)
      let plain := (s.opened l cell check).1
      let sum := (s.opened l cell check).2
      let w k := (plain.getD k 0).toNat
      let mine := plain.length = 32 ∧ s.linkUp l = true ∧ fld (w 0) 17 14 = 1 ∧ bit (w 0) 12 = false
        ∧ 2 * fld (w 0) 10 1 + fld (w 0) 11 11 = s.station
      (mine → cellCheck 0 plain = sum → headerReserved l w = true → exec (.tunnel dir cell check) s = .next
          (((s.cellIn l plain sum true).linkCount l 3).dropReserved l))
      ∧ (mine → cellCheck 0 plain = sum → headerReserved l w = false → exec (.tunnel dir cell check) s = .next
          (((s.cellIn l plain sum true).linkCount l 3).assemble l (4 * (2 * fld (w 1) 17 8 + fld (w 1) 7 7) + dir) plain))
      ∧ (mine → cellCheck 0 plain ≠ sum → exec (.tunnel dir cell check) s = .next ((s.cellIn l plain sum false).checkFail l))
      ∧ (¬ mine → exec (.tunnel dir cell check) s = .next s))

/-- Link states (R348 to R355). -/
def Obligations.RingLinkStates : Prop :=
  ∀ (l : Fin 5) (s : State),
    let x := s.link l
    let bad := s.abort 0x08002 7
    let settled := ((s.setLink l (x.leave .settling)).fire 161 l).repath.syntonise.pairLinkLost
    let retrained := (s.setLink l (x.leave .settling)).repath.syntonise.pairLinkLost
    (x.state = .settling → s.power.state = .full → s.supplyUp 3 = true → s.supplyUp 4 = true →
        exec (.ringLinkSettleDone l) s = .next
          ((s.linkTrain l).setLink l { (s.linkTrain l).link l with locked := false }))
    ∧ (∀ (polarity : Fin 16) (swapped : Bool), x.state = .training → x.delayHeld = false → 16 ≤ x.trainRun → x.trainProtect = s.protect l →
        (s.protect l = true → x.key.isSome = true) → exec (.ringLinkTrained l polarity swapped) s = .next
          (s.setLink l { x with trained := true, polarity := polarity, swapped := swapped, locked := true }))
    ∧ (∀ (polarity : Fin 16) (swapped : Bool), (x.state ≠ .training ∨ x.delayHeld = true ∨ x.trainRun < 16 ∨ x.trainProtect ≠ s.protect l
          ∨ (s.protect l = true ∧ x.key = none)) → exec (.ringLinkTrained l polarity swapped) s = .next s)
    ∧ (x.state ≠ .settling ∨ s.power.state ≠ .full ∨ s.supplyUp 3 = false ∨ s.supplyUp 4 = false →
        exec (.ringLinkSettleDone l) s = .next s)
    ∧ (x.state = .training → exec (.ringTrainingTimeout l) s = .next
        (s.linkFall l (if (x.trainRun ≠ 0 ∧ x.trainProtect ≠ s.protect l) ∨ (s.protect l = true ∧ x.key = none) then 4 else 5)))
    ∧ (x.state ≠ .training → exec (.ringTrainingTimeout l) s = .next s)
    ∧ (x.state = .up → exec (.ringBlockLockLost l) s = .next ((s.setLink l { x with locked := false, trained := false }).linkFall l 1))
    ∧ (x.state ≠ .up → exec (.ringBlockLockLost l) s = .next (s.setLink l { x with locked := false, trained := false }))
    ∧ (let u := s.setLink l { x with locked := true }
       let trains := (u.link l).state = .down ∧ (u.link l).locked = true ∧ (u.link l).holdDone = true
         ∧ (u.link l).delayHeld = false ∧ u.linkHeld l = false
       (trains → exec (.ringBlockLockAcquired l) s = .next (u.linkTrain l))
       ∧ (¬ trains → exec (.ringBlockLockAcquired l) s = .next u))
    ∧ (x.state = .down → s.linkHeld l = false →
        let u := s.setLink l { x with holdDone := true }
        let trains := (u.link l).state = .down ∧ (u.link l).locked = true ∧ (u.link l).holdDone = true
          ∧ (u.link l).delayHeld = false ∧ u.linkHeld l = false
        (trains → exec (.retrainHoldExpiry l) s = .next (u.linkTrain l))
        ∧ (¬ trains → exec (.retrainHoldExpiry l) s = .next u))
    ∧ (x.state ≠ .down ∨ s.linkHeld l = true → exec (.retrainHoldExpiry l) s = .next s)
    ∧ (x.state = .up ∨ x.state = .training ∨ (x.state = .down ∧ s.linkHeld l = false) →
        exec (.ringLanePllLoss l) s = .next settled ∧ exec (.ringCalibrate l) s = .next settled)
    ∧ (x.state = .up ∨ (x.state = .down ∧ s.linkHeld l = false) → exec (.retrain l) s = .next retrained)
    ∧ (x.state = .down → s.linkHeld l = true →
        exec (.ringLanePllLoss l) s = .next s ∧ exec (.ringCalibrate l) s = .next s ∧ exec (.retrain l) s = .next s)
    ∧ (x.state = .off ∨ x.state = .settling →
        exec (.ringLanePllLoss l) s = .next s ∧ exec (.ringCalibrate l) s = .next bad ∧ exec (.retrain l) s = .next bad)
    ∧ (x.state = .training → exec (.retrain l) s = .next bad)
    ∧ (x.state ≠ .off → exec (.ringHalt l) s = .next ((s.setLink l (x.leave .off)).wrapWaiting l).repath.syntonise.pairLinkLost)
    ∧ (x.state = .off → exec (.ringHalt l) s = .next bad)

/-- Cells and markers of the links (R331 to R357). -/
def Obligations.RingLinkCells : Prop :=
  (∀ (l : Fin 5) (s : State), (s.link l).state ≠ .off → (s.link l).state ≠ .settling →
      let x := s.link l
      let u := s.setLink l { x with faultRx := true, faultRun := min 4 (x.faultRun + 1), trainRun := 0 }
      (x.state = .up → 4 ≤ x.faultRun + 1 → exec (.linkFault l) s = .next (u.linkFall l 3))
      ∧ (x.state ≠ .up ∨ x.faultRun + 1 < 4 → exec (.linkFault l) s = .next u)
      ∧ (∀ protect : Bool, exec (.trainOk l protect) s = .next (s.setLink l { x with
          trainRun := if x.trainProtect = protect then min 16 (x.trainRun + 1) else 1,
          trainProtect := protect, faultRx := false, faultRun := 0 }))
      ∧ (∀ ta : Nat, exec (.delayProbe l ta) s = .next ((s.setLink l
          { x with faultRx := false, faultRun := 0, trainRun := 0 }).marker l 4 (ta % 65536)))
      ∧ (∀ ta rt : Nat,
          let d := (rt - ta + 31) / 32
          let y := { x with faultRx := false, faultRun := 0, trainRun := 0, raw := rt - ta }
          (x.dValid = false → s.muster.epoch ≠ 0 → exec (.delayEcho l ta rt) s = .next
            (s.setLink l { y with dValid := true, d := d }).wantRoster)
          ∧ (x.dValid = false → s.muster.epoch = 0 → exec (.delayEcho l ta rt) s = .next (s.setLink l y))
          ∧ (x.dValid = true → x.d = d → exec (.delayEcho l ta rt) s = .next (s.setLink l y))
          ∧ (x.dValid = true → x.d ≠ d → x.state = .down → exec (.delayEcho l ta rt) s = .next (s.setLink l { y with cause := 6 }))
          ∧ (x.dValid = true → x.d ≠ d → x.state ≠ .down → exec (.delayEcho l ta rt) s = .next ((s.setLink l y).linkFall l 6))))
  ∧ (∀ (l : Fin 5) (s : State), (s.link l).state = .off ∨ (s.link l).state = .settling →
      exec (.linkFault l) s = .next s ∧ (∀ p, exec (.trainOk l p) s = .next s) ∧ (∀ ta, exec (.delayProbe l ta) s = .next s)
      ∧ ∀ ta rt, exec (.delayEcho l ta rt) s = .next s)
  ∧ (∀ (l : Fin 5) (beat : Nat) (slot : Fin 5) (cell : List Word) (check : Fin 256) (s : State),
      let u := if s.tideRuns then s.advance (36 * beat + s.farPhase l + 36 * slot.val / 5 + (120 + (s.link l).d)) else s
      let plain := (u.opened l cell check).1
      let sum := (u.opened l cell check).2
      let b := u.hereBeat l beat
      let arrives := cell.length = 32 ∧ u.linkUp l = true
      let onw := onward l
      let r := exec (.ringScheduledCell l beat slot cell check) s
      exec (.unscheduledCellTransit l cell check beat slot) s = r
      ∧ (¬ arrives → r = .next u)
      ∧ (∀ x, arrives → u.slotRec l b slot = some x →
          let ctx := cellCtx x.src x.stream (u.time.F % 2 ^ 18)
          let f := (u.cellIn l plain sum false).checkFail l
          let v := (u.cellIn l plain sum true).linkCount l 1
          let w := match v.rxOf x.src x.stream with | some n => v.keepCell l n (u.time.F % 2 ^ 18) plain | none => v
          let out (t : State) := if t.linkSched onw then (t.cellOut onw plain ctx [b, slot.val]).linkCount onw 0 else t.linkCount onw 6
          (cellCheck ctx plain ≠ sum → r = .next (if x.action = 3 ∨ x.action = 4 then f.bump 0x08008 3 else f))
          ∧ (cellCheck ctx plain = sum →
            (x.action = 2 → r = .next (out v)) ∧ (x.action = 3 → r = .next (out w)) ∧ (x.action = 4 → r = .next w)
            ∧ (x.action = 5 → r = .next v)))
      ∧ (arrives → u.slotRec l b slot = none →
          let w k := (plain.getD k 0).toNat
          let v := (u.cellIn l plain sum true).linkCount l 3
          let own := if bit (w 0) 12 then 2 * fld (w 1) 17 8 + fld (w 1) 7 7 = v.station ∧ bit (w 0) 13 = false
            else 2 * fld (w 0) 10 1 + fld (w 0) 11 11 = v.station
          let reserved := headerReserved l w = true
          let here := l.val = 4 ∨ own
          (cellCheck 0 plain ≠ sum → r = .next ((u.cellIn l plain sum false).checkFail l))
          ∧ (cellCheck 0 plain = sum → reserved → r = .next ((v.linkCount l 10).fire 179 l))
          ∧ (cellCheck 0 plain = sum → ¬ reserved → here → r = .next v)
          ∧ (cellCheck 0 plain = sum → ¬ reserved → ¬ here → fld (w 3) 17 6 ≤ 1 → r = .next (v.linkCount l 8))
          ∧ (cellCheck 0 plain = sum → ¬ reserved → ¬ here → 1 < fld (w 3) 17 6 →
              (v.linkTakes onw = true → r = .next (v.passOn onw (lessHop plain) (v.slotFree onw b slot)))
              ∧ (v.linkTakes onw = false → bit (w 0) 13 = true → r = .next (v.linkCount onw 9))
              ∧ (v.linkTakes onw = false → bit (w 0) 13 = false →
                  r = .next ((v.countWrap onw).passOn l (setWrapped (lessHop plain)) ((v.countWrap onw).slotFree l b slot))))))
  ∧ (∀ (l : Fin 4) (beat : Nat) (slot : Fin 5) (s : State),
      let u := if s.tideRuns then s.advance (36 * beat + (s.link l).phase + 36 * slot.val / 5) else s
      let x := u.link l
      let free := u.linkUp l = true ∧ u.slotFree l beat slot = true
      let r := exec (.transitCellSend l beat slot) s
      (∀ code arg rest, free → x.marks = (code, arg) :: rest →
        r = .next ((u.setLink l { x with marks := rest }).emit .marker l [code, arg]))
      ∧ (∀ w rest, free → x.marks = [] → x.transit = w :: rest →
        r = .next ((u.setLink l { x with transit := rest }).unschedOut l w))
      ∧ (¬ free ∨ (x.marks = [] ∧ x.transit = []) → r = .next u))
  ∧ (∀ (l : Nat) (w : List Word) (free : Bool) (s : State),
      let x := s.link l
      (free = true → s.linkUp l = true → x.transit = [] → s.passOn l w free = s.unschedOut l w)
      ∧ (free = false ∨ s.linkUp l = false ∨ x.transit ≠ [] →
          (x.transit.length < 64 → s.passOn l w free = s.setLink l
            { x with transit := x.transit ++ [w], peak := max x.peak (x.transit.length + 1) })
          ∧ (64 ≤ x.transit.length → s.passOn l w free = (s.linkCount l 7).fire 177 l)))
  ∧ (∀ (st : Fin 2048) (l : Fin 5) (up : Bool) (n : Nat) (s : State), st.val ≠ s.station →
      let k := 8 * st.val + l.val
      ((∀ v, Tab.get none s.ring.topo k = some v → newer16 (n % 65536) (v / 2) = true) → exec (.topology st l up n) s = .next
        (({ s with ring.topo := Tab.set none s.ring.topo k (some (2 * (n % 65536) + if up then 1 else 0)) } : State).repath).syntonise)
      ∧ (∀ v, Tab.get none s.ring.topo k = some v → newer16 (n % 65536) (v / 2) = false → exec (.topology st l up n) s = .next s))
  ∧ (∀ (l : Fin 5) (tag tide : Nat) (s : State), s.protect l = true → s.linkUp l = true →
      let x := s.link l
      let m := (x.seals.find? fun m => m.tide == tide).getD ⟨tide, [], false⟩
      let u := s.setLink l { x with seals := x.seals.filter fun m => decide (tide < m.tide) }
      let iv := gcmIv (s.farEnd l).1 (s.farEnd l).2 tide
      (x.key = none → exec (.seal_ l tag tide) s = .next (u.authEvent l tide))
      ∧ (∀ k, x.key = some k → m.tagOk k iv tag = true → exec (.seal_ l tag tide) s = .next u)
      ∧ (∀ k, x.key = some k → m.tagOk k iv tag = false → m.failed = true → exec (.seal_ l tag tide) s = .next (u.linkCount l 11))
      ∧ (∀ k, x.key = some k → m.tagOk k iv tag = false → m.failed = false → exec (.seal_ l tag tide) s = .next (u.authEvent l tide))
      ∧ (x.sealLate (fld (s.cfg 0x08005 l) 25 23) s.time.F = true →
          exec (.sealLimitExpiry l) s = .next (s.authEvent l ((x.seals.head?.map SealMsg.tide).getD 0)))
      ∧ (x.sealLate (fld (s.cfg 0x08005 l) 25 23) s.time.F = false → exec (.sealLimitExpiry l) s = .next s))
  ∧ (∀ (l : Fin 5) (tag tide : Nat) (s : State), s.protect l = false ∨ s.linkUp l = false →
      exec (.seal_ l tag tide) s = .next s ∧ exec (.sealLimitExpiry l) s = .next s)
  ∧ (∀ (l : Fin 5) (s : State), s.linkUp l = false → exec (.malformedSlot l true) s = .next s)
  ∧ (∀ (l : Fin 5) (s : State), (s.link l).state = .off ∨ (s.link l).state = .settling → exec (.malformedSlot l false) s = .next s)
  ∧ (∀ (l : Fin 5) (s : State), (s.link l).state = .training ∨ (s.link l).state = .down →
      exec (.malformedSlot l false) s = .next ((((s.setLink l (s.link l).breakRuns)).linkCount l 10).fire 179 l))
  ∧ (∀ (l : Fin 5) (s : State), s.linkUp l = true →
      exec (.malformedSlot l true) s = .next ((s.badCellIn l).linkCount l 4)
      ∧ (s.protect l = false → exec (.malformedSlot l true) s = .next (s.linkCount l 4))
      ∧ exec (.malformedSlot l false) s = .next ((((s.setLink l (s.link l).breakRuns)).linkCount l 10).fire 179 l))
  ∧ (∀ (l : Fin 5) (cell : List Word) (check : Fin 256) (s : State), cell.length = 32 → s.linkUp l = true →
      let plain := (s.opened l cell check).1
      let sum := (s.opened l cell check).2
      let w k := (plain.getD k 0).toNat
      let v := (s.cellIn l plain sum true).linkCount l 3
      let named := headerReserved l w = false
      let r := exec (.reservedCell l cell check) s
      (cellCheck 0 plain ≠ sum → r = .next ((s.cellIn l plain sum false).checkFail l))
      ∧ (cellCheck 0 plain = sum →
          (named → (fld (w 0) 17 14 = 3 ∨ fld (w 0) 17 14 = 4) → r = .next ((v.bump 0x08017 7).fire 179 l))
          ∧ (named → fld (w 0) 17 14 = 5 → r = .next ((v.bump 0x09016 7).fire 179 l))
          ∧ (named → fld (w 0) 17 14 = 8 → r = .next ((v.bump 0x0A008 8).fire 179 l))
          ∧ (¬ named → r = .next ((v.linkCount l 10).fire 179 l))
          ∧ (named → fld (w 0) 17 14 ≠ 3 → fld (w 0) 17 14 ≠ 4 → fld (w 0) 17 14 ≠ 5 → fld (w 0) 17 14 ≠ 8 →
              r = .next ((v.linkCount l 10).fire 179 l))))
  ∧ (∀ (l : Fin 5) (cell : List Word) (check : Fin 256) (s : State), s.linkUp l = false ∨ cell.length ≠ 32 →
      exec (.reservedCell l cell check) s = .next s)

/-- The muster's messages and timers (R363 to R376). -/
def Obligations.MusterElection : Prop :=
  (∀ s : State, s.dict.shepherds = false → exec .remusterCmd s = .next s)
  ∧ ∀ s : State, s.dict.shepherds = true →
    (∀ (dir : Fin 4) (src : Fin 2048) (claimw part nonce hops : Nat) (wrapped : Bool), s.linkUp (dirOut (dirWrap dir)) = true →
      let pay := [put 14 4 2, claimw, part, nonce]
      let u := s.heard (dirOut (dirWrap dir)) 3 src hops wrapped pay
      let copy (v : State) := v.claimCopy dir src claimw part nonce hops wrapped pay
      let r := exec (.claim dir src claimw part nonce hops wrapped) s
      (u.muster.state = .listen → part ≠ 0x400 → r = .next (copy u))
      ∧ (u.muster.state = .listen → part = 0x400 → u.muster.flooded = true → r = .next (copy u.ownBest))
      ∧ (u.muster.state = .listen → part = 0x400 → u.muster.flooded = false →
          r = .next (copy ((u.toMuster .claiming).claimNow false)))
      ∧ (u.muster.state = .claiming ∨ u.muster.state = .yielded → r = .next (copy u))
      ∧ (u.muster.state ≠ .listen → u.muster.state ≠ .claiming → u.muster.state ≠ .yielded → r = .next u)
      ∧ (part ≠ 0x400 → copy u = u.sendReject src 1 part))
    ∧ (∀ (dir : Fin 4) (src : Fin 2048) (claimw part nonce epoch hops : Nat) (wrapped : Bool),
      s.linkUp (dirOut (dirWrap dir)) = true →
      let pay := [put 14 4 3, claimw, part, nonce, epoch]
      let u := (s.heard (dirOut (dirWrap dir)) 3 src hops wrapped pay).seeEpoch epoch
      let copy (v : State) := v.claimCopy dir src claimw part nonce hops wrapped pay
      let r := exec (.standin dir src claimw part nonce epoch hops wrapped) s
      (u.muster.state = .member → part ≠ 0x400 → r = .next (copy u))
      ∧ (u.muster.state = .member → part = 0x400 → epoch = s.muster.epoch → u.muster.role = 0 →
          r = .next (copy (if u.muster.standin then u else { u with muster.best := u.ownClaim })))
      ∧ (u.muster.state = .member → part = 0x400 → epoch ≠ s.muster.epoch ∨ u.muster.role ≠ 0 → r = .next u)
      ∧ (u.muster.state = .listen → part = 0x400 → epoch = s.muster.epoch → u.muster.flooded = true →
          r = .next (copy ((u.toMuster .claiming).standinNow)))
      ∧ (u.muster.state = .listen → part ≠ 0x400 ∨ epoch ≠ s.muster.epoch ∨ u.muster.flooded = false →
          r = .next (copy u.ownBest))
      ∧ (u.muster.state = .claiming ∨ u.muster.state = .yielded → r = .next (copy u))
      ∧ (u.muster.state ≠ .member → u.muster.state ≠ .listen → u.muster.state ≠ .claiming → u.muster.state ≠ .yielded → r = .next u))
    ∧ (∀ (dir : Fin 4) (src : Fin 2048) (claimw part nonce epoch hops : Nat) (wrapped : Bool),
      s.linkUp (dirOut (dirWrap dir)) = false →
        exec (.claim dir src claimw part nonce hops wrapped) s = .next s
        ∧ exec (.standin dir src claimw part nonce epoch hops wrapped) s = .next s)
    ∧ (s.muster.state = .listen → s.muster.flooded = false → exec .claimListenExpiry s = .next ((s.toMuster .claiming).claimNow false))
    ∧ (s.muster.state ≠ .listen ∨ s.muster.flooded = true → exec .claimListenExpiry s = .next s)
    ∧ (s.muster.state = .yielded → exec .electLimitExpiry s = .next ((s.toMuster .claiming).claimNow s.muster.standin))
    ∧ (s.muster.state ≠ .yielded → exec .electLimitExpiry s = .next s)
    ∧ (s.muster.state = .claiming → exec .claimRepeatExpiry s = .next s.sendClaim)
    ∧ (s.muster.state = .member → s.muster.standin = true → s.muster.best = s.ownClaim →
        exec .claimRepeatExpiry s = .next s.sendClaim)
    ∧ (s.muster.state ≠ .claiming → (s.muster.state ≠ .member ∨ s.muster.standin = false ∨ s.muster.best ≠ s.ownClaim) →
        exec .claimRepeatExpiry s = .next s)
    ∧ (∀ (l : Fin 4) (src : Fin 2048) (epoch : Nat),
        let u := s.heard l 3 src 1 false [put 14 4 1, epoch]
        let v : State := { u with muster.highest := max u.muster.highest (epoch % 2 ^ 18) }
        (s.linkUp l = true → l.val = 1 → exec (.musterHello l src epoch) s = .next { v with muster.west := some src.val })
        ∧ (s.linkUp l = true → l.val ≠ 1 → exec (.musterHello l src epoch) s = .next v)
        ∧ (s.linkUp l = false → exec (.musterHello l src epoch) s = .next s))
    ∧ (∀ (src : Fin 2048) (claimw : Nat) (west : Option (Fin 2048)) (d : List (Option Nat)),
        let u := s.seeEpoch s.muster.epoch
        src.val ≠ s.station → exec (.roster src claimw west d s.muster.epoch) s = .next
          (({ u with muster.roster := Tab.set none u.muster.roster src (some ⟨claimw, west.map Fin.val, cells d none 4⟩) } : State).repath).syntonise)
    ∧ (∀ (src : Fin 2048) (claimw : Nat) (west : Option (Fin 2048)) (d : List (Option Nat)) (epoch : Nat),
        epoch ≠ s.muster.epoch ∨ src.val = s.station → exec (.roster src claimw west d epoch) s = .next (s.seeEpoch epoch))
    ∧ (∀ (l : Fin 4) (src : Fin 2048) (epoch p first start stations : Nat) (resume : Bool),
        let id := (epoch * 2 + if resume then 1 else 0) * 2 ^ 36 + first
        let r := exec (.set l src epoch resume p first start stations) s
        (src.val = s.station → r = .next s)
        ∧ (src.val ≠ s.station → timeOk start = false → r = .next ((s.musterCount 7).fire 179 l))
        ∧ (src.val ≠ s.station → timeOk start = true → s.firstCopy src 3 5 id = none → r = .next s)
        ∧ (∀ u, src.val ≠ s.station → timeOk start = true → s.firstCopy src 3 5 id = some u →
            (resume = true → r = .next ((u.seeEpoch epoch).takeResume src epoch p first (timeUnits start)))
            ∧ (resume = false → r = .next ((u.seeEpoch epoch).takeSet src epoch p first (timeUnits start)))))
    ∧ (∀ (src : Fin 2048) (epoch : Nat),
        (src.val = s.station ∨ (s.seeEpoch epoch).firstJoin src = none → exec (.join src epoch) s = .next s)
        ∧ (∀ u, src.val ≠ s.station → (s.seeEpoch epoch).firstJoin src = some u →
          (u.muster.state ≠ .solo → u.muster.state ≠ .ebbed → exec (.join src epoch) s = .next u.wantRoster)
          ∧ (u.muster.state = .solo ∨ u.muster.state = .ebbed → exec (.join src epoch) s = .next u)))
    ∧ (s.muster.state ≠ .joining → exec .joinRepeatExpiry s = .next s)
    ∧ (s.muster.state = .joining → exec .joinRepeatExpiry s = .next (s.broadcast 3 [put 14 4 6, s.muster.epoch]))
    ∧ (∀ (l : Fin 4) (src : Fin 2048) (reason : Fin 8), reason.val = 1 ∨ reason.val = 2 →
        exec (.reject l src reason) s = .next (s.fire 195 src reason))
    ∧ (∀ (l : Fin 4) (src : Fin 2048) (reason : Fin 8), reason.val ≠ 1 → reason.val ≠ 2 →
        exec (.reject l src reason) s = .next ((s.musterCount 7).fire 179 l))
    ∧ (∀ (src : Fin 2048) (epoch : Nat) (u : State), s.muster.state ≠ .solo → s.muster.state ≠ .ebbed → s.firstCopy src 3 8 epoch = some u →
        ∃ t, exec (.remuster src epoch) s = .next t ∧ t.muster.state = .listen ∧ t.muster.role = 0
          ∧ t.muster.highest = max u.muster.highest (epoch % 2 ^ 18))
    ∧ (∀ (src : Fin 2048) (epoch : Nat), s.firstCopy src 3 8 epoch = none → exec (.remuster src epoch) s = .next s)
    ∧ (∀ (src : Fin 2048) (epoch : Nat), s.muster.state = .solo ∨ s.muster.state = .ebbed → exec (.remuster src epoch) s = .next s)
    ∧ (s.muster.state ≠ .solo → s.muster.state ≠ .ebbed → ∃ t, exec .remusterCmd s = .next t ∧ t.muster.state = .listen ∧ t.muster.role = 0)
    ∧ (s.muster.state = .solo ∨ s.muster.state = .ebbed → exec .remusterCmd s = .next (s.abort 0x08016 7))

/-- TIDE cells and their loss (R373 to R375). -/
def Obligations.MusterTides : Prop :=
  ∀ s : State, s.dict.shepherds = true →
    (∀ (src : Fin 2048) (epoch claimw : Nat) (acting : Bool) (f p : Nat) (w : State), src.val ≠ s.station →
      s.firstCopy src 4 1 (epoch * 2 ^ 36 + f) = some w →
      let u := State.seeEpoch { w with time.highest := max w.time.highest (f + 1) } epoch
      let r := exec (.tide src epoch claimw acting f p) s
      (s.muster.state = .listen → r = .next (u.enterJoining.joinTide src epoch claimw f p acting))
      ∧ (s.muster.state = .joining → r = .next (u.joinTide src epoch claimw f p acting))
      ∧ (s.muster.state = .member ∨ s.muster.state = .ebbPending →
          (s.muster.role ≠ 0 → r = .next (u.masterTide src epoch claimw f p acting))
          ∧ (s.muster.role = 0 → epoch ≠ s.muster.epoch → r = .next u)
          ∧ (s.muster.role = 0 → epoch = s.muster.epoch → acting = true → r = .next
              (({ u with muster.acting := true, muster.actStation := src.val, muster.standin := false } : State).syntonise))
          ∧ (s.muster.role = 0 → epoch = s.muster.epoch → acting = false → r = .next
              (({ u with muster.masterKnown := true, muster.masterClaimw := claimw, muster.acting := false, muster.lost := false,
                         muster.standin := false,
                         muster.ebb := if s.muster.ebb = EbbPhase.beacon then .awake else s.muster.ebb } : State).syntonise)))
      ∧ (s.muster.state = .solo ∨ s.muster.state = .claiming ∨ s.muster.state = .yielded ∨ s.muster.state = .ebbed
          ∨ s.muster.state = .out → r = .next u))
    ∧ (∀ (src : Fin 2048) (epoch claimw : Nat) (acting : Bool) (f p : Nat),
      src.val = s.station ∨ s.firstCopy src 4 1 (epoch * 2 ^ 36 + f) = none →
      exec (.tide src epoch claimw acting f p) s = .next s)
    ∧ (s.muster.state = .member ∨ s.muster.state = .ebbPending → s.muster.role = 0 → s.muster.lost = false →
        exec .tideMasterLoss s = .next ({ s with
          muster.state := .member, muster.lost := true, muster.ebb := .beacon,
          muster.reason := if s.muster.ebb = .roundOpen ∨ s.muster.ebb = .pending then 5 else s.muster.reason } : State).standinNow.syntonise)
    ∧ (s.muster.role ≠ 0 ∨ s.muster.lost = true ∨ (s.muster.state ≠ .member ∧ s.muster.state ≠ .ebbPending) →
        exec .tideMasterLoss s = .next s)

/-- The ebb round (R377 to R381, R388, R390). -/
def Obligations.EbbRounds : Prop :=
  ∀ s : State,
    (s.dict.shepherds = false → exec .startRound s = .next s ∧ exec .cancelRound s = .next s)
    ∧ (s.dict.shepherds = true →
      (s.muster.role = 1 → s.muster.state = .member → s.muster.ebb = .awake → exec .startRound s = .next s.roundNow)
      ∧ (s.muster.role ≠ 1 ∨ s.muster.state ≠ .member ∨ s.muster.ebb ≠ .awake → exec .startRound s = .next (s.abort 0x01103 7))
      ∧ (s.muster.role = 1 → s.muster.ebb = .roundOpen ∨ s.muster.ebb = .pending →
          exec .cancelRound s = .next (s.cancelNow 6 s.station))
      ∧ (s.muster.role ≠ 1 ∨ (s.muster.ebb ≠ .roundOpen ∧ s.muster.ebb ≠ .pending) → exec .cancelRound s = .next (s.abort 0x01103 7))
      ∧ (bit (s.cfg 0x01100) 33 = true → s.mayRound = true → exec .roundIntervalExpiry s = .next s.roundNow)
      ∧ (bit (s.cfg 0x01100) 33 = false ∨ s.mayRound = false → exec .roundIntervalExpiry s = .next s)
      ∧ (s.muster.role = 1 → s.muster.ebb = .roundOpen → exec .roundLimitExpiry s = .next (s.cancelNow 3 s.station))
      ∧ (s.muster.role ≠ 1 ∨ s.muster.ebb ≠ .roundOpen → exec .roundLimitExpiry s = .next s)
      ∧ (∀ (src : Fin 2048) (n : Nat) (u : State), src.val ≠ s.station → s.firstCopy src 4 2 n = some u →
          let open_ : State := { u with muster.round := n, muster.ebb := .roundOpen, muster.reason := 0 }
          let coming := u.muster.state = .listen ∨ u.muster.state = .claiming ∨ u.muster.state = .yielded ∨ u.muster.state = .joining
          (u.muster.state = .member → exec (.round src n) s = .next open_.answer)
          ∧ (coming → exec (.round src n) s = .next open_)
          ∧ (u.muster.state ≠ .member → ¬ coming → exec (.round src n) s = .next u))
      ∧ (∀ (src : Fin 2048) (n : Nat), s.firstCopy src 4 2 n = none ∨ src.val = s.station → exec (.round src n) s = .next s)
      ∧ (∀ (src : Fin 2048), s.muster.role = 1 → s.muster.ebb = .roundOpen →
          exec (.consent src s.muster.round) s = .next (s.consentOf src))
      ∧ (∀ (src : Fin 2048) (n : Nat), n ≠ s.muster.round → ∀ need, exec (.consent src n) s = .next s ∧ exec (.veto src n need) s = .next s)
      ∧ (∀ (src : Fin 2048) (need : Nat), s.muster.role = 1 →
          exec (.veto src s.muster.round need) s = .next (s.vetoOf src (need % 256)))
      ∧ (∀ (src : Fin 2048) (n need : Nat), s.muster.role ≠ 1 →
          exec (.consent src n) s = .next s ∧ exec (.veto src n need) s = .next s)
      ∧ (∀ (l : Fin 4) (src : Fin 2048) (n at_ : Nat), timeOk at_ = true →
          (s.muster.state ≠ .member ∨ s.muster.lost = true ∨ s.muster.role ≠ 0 ∨ s.muster.void = some n
            ∨ (s.muster.round = n ∧ 2 ≤ s.muster.reason) ∨ s.firstCopy src 4 5 n = none) → exec (.commit l src n at_) s = .next s)
      ∧ (∀ (l : Fin 4) (src : Fin 2048) (n : Nat) (reason : Fin 8) (vetoer : Fin 2048), reason.val ≠ 7 →
          s.muster.role ≠ 0 ∨ s.firstCopy src 4 6 n = none → exec (.cancel l src n reason vetoer) s = .next s)
      ∧ (∀ (l : Fin 4) (src : Fin 2048) (n : Nat) (reason : Fin 8) (vetoer : Fin 2048), reason.val = 7 →
          exec (.cancel l src n reason vetoer) s = .next ((s.musterCount 7).fire 179 l))
      ∧ (∀ (l : Fin 4) (src : Fin 2048) (n at_ : Nat) (u : State), timeOk at_ = true → s.muster.state = .member →
          s.muster.lost = false → s.muster.role = 0 → s.muster.void ≠ some n → (s.muster.round ≠ n ∨ s.muster.reason < 2) →
          s.firstCopy src 4 5 n = some u →
          exec (.commit l src n at_) s = .next { u with
            muster.state := .ebbPending, muster.round := n, muster.ebb := .pending, muster.reason := 1, muster.ebbAt := timeUnits at_ })
      ∧ (∀ (l : Fin 4) (src : Fin 2048) (n at_ : Nat), timeOk at_ = false →
          exec (.commit l src n at_) s = .next ((s.musterCount 7).fire 179 l))
      ∧ (∀ (l : Fin 4) (src : Fin 2048) (n : Nat) (reason : Fin 8) (vetoer : Fin 2048) (u : State), reason.val ≠ 7 → s.muster.role = 0 →
          s.firstCopy src 4 6 n = some u → exec (.cancel l src n reason vetoer) s = .next (({ u with
            muster.state := if u.muster.state = MState.ebbPending then .member else u.muster.state, muster.round := n,
            muster.ebb := if u.muster.ebb = EbbPhase.beacon then .beacon else .awake, muster.reason := reason.val } : State).fire 208 vetoer)))

/-- Flood and wake (R382 to R387). -/
def Obligations.FloodAndWake : Prop :=
  ∀ s : State,
    (∀ active : Bool, s.muster.state ≠ .ebbed ∨ active = false →
        exec (.wakeInput active) s = .next { s with muster.wakeActive := active })
    ∧ (s.muster.state = .ebbed → bit s.power.thresholds 2 = false →
        exec (.wakeInput true) s = .next (({ s with muster.wakeActive := true } : State).wakeNow 1 0)
        ∧ ∀ l : Fin 4, exec (.wakePatternDetected l) s = .next (s.wakeNow 2 l))
    ∧ (bit s.power.thresholds 2 = true → exec (.wakeInput true) s = .next { s with muster.wakeActive := true })
    ∧ (∀ l : Fin 4, s.muster.state ≠ .ebbed ∨ bit s.power.thresholds 2 = true → exec (.wakePatternDetected l) s = .next s)
    ∧ (∀ l : Fin 4, (s.link l).state = .down → s.ebbTest = false → exec (.wakePatternRepeatExpiry l) s = .next (s.emit .wakePattern l []))
    ∧ (∀ l : Fin 4, (s.link l).state ≠ .down ∨ s.ebbTest = true → exec (.wakePatternRepeatExpiry l) s = .next s)
    ∧ (s.dict.shepherds = true →
      (∀ (src : Fin 2048) (n : Nat) (u : State), src.val ≠ s.station → s.firstCopy src 4 7 n = some u →
          let v : State := { u with
            muster.floods := Tab.set none u.muster.floods src (some (match Tab.get none u.muster.floods src with
              | some (a, b) => if u.bell.tick ≤ b + 200 then (a, u.bell.tick) else (u.bell.tick, u.bell.tick)
              | none => (u.bell.tick, u.bell.tick))) }
          (u.muster.state ≠ .ebbPending ∨ u.muster.lost = false ∨ v.beforeGuard = false → exec (.flood src n) s = .next v)
          ∧ (u.muster.state = .ebbPending → u.muster.lost = true → v.beforeGuard = true →
              exec (.flood src n) s = .next { v with muster.state := .member, muster.ebb := .beacon }))
      ∧ (∀ (src : Fin 2048) (n : Nat), src.val = s.station ∨ s.firstCopy src 4 7 n = none → exec (.flood src n) s = .next s)
      ∧ (s.muster.state ≠ .member ∨ s.muster.lost = false →
          exec .floodBeaconExpiry s = .next s ∧ exec .floodQuietExpiry s = .next s)
      ∧ (s.muster.state = .member → s.muster.lost = true → s.ebbTest = false →
          let n := (s.muster.beacons + 1) % 2 ^ 18
          exec .floodBeaconExpiry s = .next (({ s with muster.beacons := n } : State).broadcast 4 [put 14 4 7, n])
          ∧ exec .floodQuietExpiry s = .next s)
      ∧ (s.muster.state = .member → s.muster.lost = true → s.ebbTest = true →
          exec .floodBeaconExpiry s = .next s
          ∧ exec .floodQuietExpiry s = .next { s with muster.state := .ebbPending, muster.ebb := .pending, muster.ebbAt := s.ebbTime })
      ∧ (∀ (st : Fin 2048) (a b : Nat), Tab.get none s.muster.floods st = some (a, b) → exec (.beaconLimitExpiry st) s = .next
          (({ s with muster.floods := Tab.set none s.muster.floods st (some (s.bell.tick, b)) } : State).holdoutNow 1 st
            ((s.bell.tick - a) / 1000) 0))
      ∧ (∀ st : Fin 2048, Tab.get none s.muster.floods st = none → exec (.beaconLimitExpiry st) s = .next s)
      ∧ (s.muster.state = .listen → s.muster.flooded = true → s.muster.role = 1 →
          exec .resumeWaitExpiry s = .next s.resume ∧ exec .resumeLimitExpiry s = .next s)
      ∧ (s.muster.state ≠ .listen ∨ s.muster.flooded = false →
          exec .resumeWaitExpiry s = .next s ∧ exec .resumeLimitExpiry s = .next s)
      ∧ (s.muster.state = .listen → s.muster.flooded = true → s.muster.role ≠ 1 →
          exec .resumeWaitExpiry s = .next s ∧ exec .resumeLimitExpiry s = .next ((s.toMuster .claiming).standinNow)))

/-- Fabric time of a station (R397 to R402, R409, R410). -/
def Obligations.FabricTime : Prop :=
  ∀ s : State,
    (∀ (l : Fin 4) (src : Fin 2048) (w : Bool) (hops : Nat) (m : SyncMsg) (at16 res : Nat),
      (s.linkUp l = false → exec (.sync l src w hops m at16 res) s = .next s)
      ∧ (s.linkUp l = true →
          let u := (s.advance (at16 / 16)).heard l 5 src hops w (syncPay m m.corr)
          let sound := timeOk m.origin = true ∧ m.follow.val ≠ 3
          let f := if src.val = s.station ∧ w = false then u
            else u.forward l 5 src hops w (syncPay m (m.corr + u.incoming l + sixteenths res))
          let follows := f.dict.shepherds = true ∧ (f.muster.state = .joining ∨ f.muster.state = .member ∨ f.muster.state = .ebbPending)
            ∧ w = false ∧ f.isMaster = false ∧ src.val ≠ f.station ∧ m.epoch = f.muster.epoch ∧ f.syncPath.map Prod.fst = some (rxDir l)
          let met (a : State) : State := if a.muster.state = .joining then a.gridKnown else a
          (¬ sound → exec (.sync l src w hops m at16 res) s = .next ((u.bump 0x09016 7).fire 179 l))
          ∧ (sound → ¬ follows → exec (.sync l src w hops m at16 res) s = .next f)
          ∧ (sound → follows →
              let o : Int := ((f.time.base + at16 * 16384) / 5 : Nat) - (time16 m.origin + m.corr + f.incoming l)
              let c := f.bump 0x09016 0
              (f.time.synced = false → f.tideRuns = false →
                exec (.sync l src w hops m at16 res) s = .next (met ((c.stepTime o).takeSync m).memberTime))
              ∧ (f.time.synced = true ∨ f.tideRuns = true →
                exec (.sync l src w hops m at16 res) s = .next (met ((c.filterOffset o).takeSync m).memberTime)))))
    ∧ (s.dict.shepherds = true →
        (s.isMaster = true → s.time.first ≠ none → exec .syncPreTideExpiry s = .next s.sendSync)
        ∧ (s.isMaster = false ∨ s.time.first = none → exec .syncPreTideExpiry s = .next s))
    ∧ (s.isMaster = false → s.time.state = .free ∨ s.time.state = .locked → exec .syncLossTides s = .next (s.toTime .holdover))
    ∧ (s.isMaster = true ∨ s.time.state = .unset ∨ s.time.state = .holdover → exec .syncLossTides s = .next s)
    ∧ (s.isMaster = false → s.time.state = .holdover → exec .holdoverLimitExpiry s = .next (s.toTime .unset))
    ∧ (s.isMaster = true ∨ s.time.state ≠ .holdover → exec .holdoverLimitExpiry s = .next s)
    ∧ (∀ v : Nat,
        (timeOk v = false → exec (.timeSet v) s = .next (s.abort 0x09003 6))
        ∧ (timeOk v = true → s.time.follow < 2 → exec (.timeSet v) s = .next (s.abort 0x09003 7))
        ∧ (timeOk v = true → 2 ≤ s.time.follow →
            let kept : State := { s with time.setTo := some (timeUnits v) }
            (s.tideRuns = false → s.muster.state = .solo ∨ s.muster.state = .listen ∨ s.muster.state = .claiming →
              exec (.timeSet v) s = .next { kept with time.base := timeUnits v - s.tide.off * tickPerWc })
            ∧ (s.tideRuns = true ∨ (s.muster.state ≠ .solo ∧ s.muster.state ≠ .listen ∧ s.muster.state ≠ .claiming) →
              exec (.timeSet v) s = .next kept)))
    ∧ (∀ o : Nat, o < 2 → o = (if s.time.follow = 0 then 1 else if s.time.follow = 1 then 0 else 1 - fld (s.cfg 0x09002) 3 3) →
        (s.muster.role = 1 → s.dstate o = 3 → exec .switch s = .next { s with time.switchTo := some o })
        ∧ (s.muster.role ≠ 1 ∨ s.dstate o ≠ 3 → exec .switch s = .next (s.abort 0x09017 7)))
    ∧ (let pref := fld (s.cfg 0x09002) 3 3
       let returns := s.isMaster = true ∧ bit (s.cfg 0x09002) 15 = true ∧ s.time.follow < 2 ∧ s.time.follow ≠ pref ∧ s.dstate pref = 3
       (returns → exec .revertHoldExpiry s = .next { s with time.switchTo := some pref })
       ∧ (¬ returns → exec .revertHoldExpiry s = .next s))

/-- Domains of fabric time (R400, R405, R407). -/
def Obligations.TimeDomains : Prop :=
  ∀ (s : State) (d : Fin 2),
    (s.dict.shepherds = true →
      (∀ (src : Fin 2048) (valid : Bool) (port : Fin 49) (m : AnnounceMsg),
        (s.domOn d = true → src.val ≠ s.station → exec (.announce src d valid port m) s = .next
          (State.choose { s with
            time.announced := Tab.set none s.time.announced (annKey d src port) (if valid then some (announceData m) else none) } d))
        ∧ (s.domOn d = false ∨ src.val = s.station → exec (.announce src d valid port m) s = .next s))
      ∧ (s.domOn d = true → exec (.announceIntervalExpiry d) s = .next
          ((s.timePorts d).foldl (fun s p => s.ptpAnnounce d p) ((s.foreignPorts d).foldl (fun s p => s.sendAnnounce d p) s)))
      ∧ (s.domOn d = false → exec (.announceIntervalExpiry d) s = .next s)
      ∧ (∀ (src : Fin 2048) (ds : Fin 4) (o rate : Int) (gm cls steps : Nat),
          let taken := (s.setDomain d { s.domain d with dstate := ds, rate := rate, gm := gm, cls := cls, steps := steps }).noteOffset d o
          let heard := s.isMaster = true ∧ s.domOn d = true ∧ ∀ i, (s.domain d).ingress = some i → i / 64 = src.val
          let large := 1000000 * 65536 < o.natAbs ∧ taken.table.valid = true
          (¬ heard → exec (.report src d ds o rate gm cls steps) s = .next s)
          ∧ (heard → taken.time.follow ≠ d.val → exec (.report src d ds o rate gm cls steps) s = .next taken)
          ∧ (heard → taken.time.follow = d.val → ¬ large →
              exec (.report src d ds o rate gm cls steps) s = .next { taken with time.large := false })
          ∧ (heard → taken.time.follow = d.val → large → taken.time.large = true →
              exec (.report src d ds o rate gm cls steps) s = .next taken)
          ∧ (heard → taken.time.follow = d.val → large → taken.time.large = false →
              exec (.report src d ds o rate gm cls steps) s = .next (State.fire { taken with time.large := true } 229 d))))
    ∧ (let x := s.domain d
       let listening := s.setDomain d { x with dstate := 1, run := 0, twoStep := none }
       let here := ∃ i, x.ingress = some i ∧ i / 64 = s.station
       (here → x.dstate = 3 → exec (.domainSyncLoss d) s = .next (listening.fire 228 d))
       ∧ (here → x.dstate = 2 → exec (.domainSyncLoss d) s = .next listening)
       ∧ (¬ here ∨ x.dstate < 2 → exec (.domainSyncLoss d) s = .next s)
       ∧ (s.isMaster = true → x.dstate = 3 → exec (.domainReportLoss d) s = .next (listening.fire 228 d))
       ∧ (s.isMaster = true → x.dstate = 2 → exec (.domainReportLoss d) s = .next listening)
       ∧ (s.isMaster = false ∨ x.dstate < 2 → exec (.domainReportLoss d) s = .next s))

/-- Messages of IEEE 1588 on the ports (R404 to R408). -/
def Obligations.PtpMessages : Prop :=
  (∀ (m : PtpMsg) (s : State),
    let r := (s.advance m.off).bump 0x09016 2
    let sent (u : State) (type : Nat) (rest : List Nat) : State :=
      (u.emit .ptp m.port ([type, m.number, m.seq] ++ words64 r.clockId ++ [m.port.val + 1] ++ rest)).bump 0x09016 3
    let drop := (r.bump 0x09016 4).fire 230 m.port
    let held (d : Nat) := r.domOf m.number = some d ∧ r.inPorts d m.port = true ∧ (r.port m.port).state = .up
    (∀ (two : Bool) (a : AnnounceMsg) (utc : Nat) (path : List Nat),
      (r.domOf m.number = none ∨ ∃ d, r.domOf m.number = some d ∧ (r.inPorts d m.port = false ∨ (r.port m.port).state ≠ .up)) →
        exec (.ptpSync m two) s = .next drop ∧ exec (.ptpFollowUp m) s = .next drop ∧ exec (.ptpDelayReq m) s = .next drop
        ∧ exec (.ptpDelayResp m) s = .next drop ∧ exec (.ptpPdelayReq m) s = .next drop ∧ exec (.ptpPdelayResp m two) s = .next drop
        ∧ exec (.ptpPdelayRespFollowUp m) s = .next drop ∧ exec (.ptpAnnounce m a utc path) s = .next drop
        ∧ exec (.ptpManagement m) s = .next drop)
    ∧ (∀ d, held d →
        let x := r.domain d
        (r.isIngress d m.port = false → exec (.ptpSync m true) s = .next r ∧ exec (.ptpSync m false) s = .next r)
        ∧ (r.isIngress d m.port = true →
            exec (.ptpSync m true) s = .next (r.setDomain d { x with twoStep := some (m.seq, m.corr, r.now), dstate := max 2 x.dstate })
            ∧ exec (.ptpSync m false) s = .next ((r.setDomain d (x.measure m.seq ((m.t : Int) * 65536 + m.corr) r.now16)).askDelay d m.port))
        ∧ (∀ n c t2, x.twoStep = some (n, c, t2) → r.isIngress d m.port = true → n = m.seq → exec (.ptpFollowUp m) s = .next
            ((r.setDomain d (Domain.measure { x with twoStep := none } m.seq ((m.t : Int) * 65536 + c + m.corr) ((t2 / 5 : Nat) : Int))).askDelay d m.port))
        ∧ ((∀ n c t2, x.twoStep = some (n, c, t2) → r.isIngress d m.port = false ∨ n ≠ m.seq) → exec (.ptpFollowUp m) s = .next r)
        ∧ (r.domProfile d ≠ 0 → exec (.ptpDelayReq m) s = .next drop ∧ exec (.ptpDelayResp m) s = .next drop)
        ∧ (r.domProfile d = 0 → (∀ two, exec (.ptpPdelayResp m two) s = .next drop) ∧ exec (.ptpPdelayReq m) s = .next drop)
        ∧ (r.domProfile d = 0 → r.transmits d m.port = true → exec (.ptpDelayReq m) s = .next
            (sent r 9 (ptpTime (r.domTime d r.now) ++ [unsgn 64 m.corr])))
        ∧ (r.domProfile d = 0 → r.transmits d m.port = false → exec (.ptpDelayReq m) s = .next r)
        ∧ (r.domProfile d ≠ 0 → exec (.ptpPdelayReq m) s = .next
            (sent r.draw.1 3 [0, 0, unsgn 64 (m.corr + r.draw.2)]))
        ∧ (r.domProfile d = 0 → r.isIngress d m.port = true → x.reqSeq = m.seq → exec (.ptpDelayResp m) s = .next
            (r.setDomain d { x with delay := ((((x.t2 / 5 : Nat) : Int) - ((x.t1 / 5 : Nat) : Int))
              + ((m.t : Int) * 65536 - m.corr - ((x.reqAt / 5 : Nat) : Int))) / 2 }))
        ∧ (r.domProfile d = 0 → r.isIngress d m.port = false ∨ x.reqSeq ≠ m.seq → exec (.ptpDelayResp m) s = .next r)
        ∧ (r.domProfile d ≠ 0 → r.isIngress d m.port = true → x.reqSeq = m.seq →
            exec (.ptpPdelayResp m true) s = .next (r.setDomain d { x with pdelay := some (m.seq, m.t * tickPerNs, r.now, m.corr) })
            ∧ exec (.ptpPdelayResp m false) s = .next
                (r.setDomain d { x with delay := (r.now16 - ((x.reqAt / 5 : Nat) : Int) - (0 - 0) - m.corr) / 2 }))
        ∧ (r.domProfile d ≠ 0 → r.isIngress d m.port = false ∨ x.reqSeq ≠ m.seq → ∀ two, exec (.ptpPdelayResp m two) s = .next r)
        ∧ (∀ n t2 t4 c, x.pdelay = some (n, t2, t4, c) → r.isIngress d m.port = true → n = m.seq →
            exec (.ptpPdelayRespFollowUp m) s = .next (r.setDomain d { x with
              pdelay := none
              delay := ((((t4 / 5 : Nat) : Int) - ((x.reqAt / 5 : Nat) : Int)) - (((m.t * 65536 : Nat) : Int) - ((t2 / 5 : Nat) : Int)) - (c + m.corr)) / 2 }))
        ∧ ((∀ n t2 t4 c, x.pdelay = some (n, t2, t4, c) → r.isIngress d m.port = false ∨ n ≠ m.seq) → exec (.ptpPdelayRespFollowUp m) s = .next r)
        ∧ (∀ (a : AnnounceMsg) (utc : Nat) (path : List Nat), r.domProfile d = 2 → r.clockId ∈ path →
            exec (.ptpAnnounce m a utc path) s = .next r)
        ∧ (∀ (a : AnnounceMsg) (utc : Nat) (path : List Nat), r.domProfile d ≠ 2 ∨ r.clockId ∉ path →
            let t : State := { r with time.traces := Tab.set [] r.time.traces (annKey d r.station m.port) path }
            let e := t.announceEntry d r.station m.port (some (announceData a))
            let e' := if Tab.get none r.time.announced (annKey d r.station m.port) = some (announceData a) ∨ e.dict.shepherds = false
              then e else e.sendAnnounce d m.port
            (e'.isIngress d m.port = true → e'.time.follow = d → exec (.ptpAnnounce m a utc path) s = .next (e'.setCfg 0x09005 0 (utc % 2 ^ 19)))
            ∧ (e'.isIngress d m.port = false ∨ e'.time.follow ≠ d → exec (.ptpAnnounce m a utc path) s = .next e'))
        ∧ exec (.ptpManagement m) s = .next (sent r 13 [6])))
  ∧ (∀ (port : Fin 49) (s : State), exec (.ptpMalformed port) s = .next (((s.bump 0x09016 2).bump 0x09016 4).fire 230 port))
  ∧ (∀ (d : Fin 2) (port : Fin 49) (off : Nat) (s : State),
      let u := if s.tideRuns then s.advance off else s
      let number := fld (u.domCfg d) 32 25
      let n := u.time.ptpSeq
      let at_ := u.domTime d u.now
      let next : State := { u with time.ptpSeq := (n + 1) % 65536 }
      let asks := u.isIngress d port = true ∧ u.domProfile d ≠ 0
      let on := u.domOn d = true ∧ (u.port port).state = .up
      let r := exec (.ptpSyncIntervalExpiry d port off) s
      (¬ on → r = .next u)
      ∧ (on → u.transmits d port = true → r = .next { u.ptpOut port 0 number n
          ([fld (at_ / tickPerS) 47 0, at_ % tickPerS / tickPerNs, at_ % tickPerNs / 5 + (Config.egressLatency port).toNat]
            ++ (if u.domProfile d = 2 then [unsgn 36 (u.domain d).rate] else [])) with time.ptpSeq := (n + 1) % 65536 })
      ∧ (on → u.transmits d port = false → asks →
          r = .next ((next.setDomain d { next.domain d with reqSeq := n, reqAt := next.now }).ptpOut port 2 number n []))
      ∧ (on → u.transmits d port = false → ¬ asks → r = .next u))

/-- Claims and the forming of a pair (R416 to R426, R433). -/
def Obligations.PairClaims : Prop :=
  ∀ s : State,
    (s.paired = false →
      exec .claimFrameStart s = .next s ∧ exec .claimInSilence s = .next s ∧ exec .partnerSilence s = .next s
      ∧ (∀ c n crc good turned, exec (.claimFrameReceived c n crc good turned) s = .next s)
      ∧ ∀ node unit st c image f fw, exec (.pairHello node unit st c image f fw) s = .next s)
    ∧ (s.paired = true →
      (s.pin.hold = true → exec .claimFrameStart s = .next s)
      ∧ (s.pin.hold = false → s.pair.plan = none → exec .claimFrameStart s = .next
          ({ s with pair.frame := (s.pair.claim, s.pair.claim) }.emit .claimFrame 0
            [s.pair.claim, s.pair.claim, claimCrc s.pair.claim s.pair.claim]))
      ∧ (∀ p, s.pin.hold = false → s.pair.plan = some p → exec .claimFrameStart s = .next
          ({ s with pair.frame := (s.pair.claim, p.claim) }.emit .claimFrame 0
            [s.pair.claim, p.claim, claimCrc s.pair.claim p.claim]))
      ∧ (∀ (c n : Fin 65536) (crc : Fin 256) (good turned : Bool),
          (good = false ∨ crc.val ≠ claimCrc c n ∨ Machine.claimOk c = false ∨ Machine.claimOk n = false →
            exec (.claimFrameReceived c n crc good turned) s = .next ((s.pairCount 8).fire 242 0))
          ∧ (good = true → crc.val = claimCrc c n → Machine.claimOk c = true → Machine.claimOk n = true →
              let u : State := { s with pair.claimSilent := false, pair.claimInFault := false, pair.last := some (c.val, n.val) }
              exec (.claimFrameReceived c n crc good turned) s = .next ((u.setRecord (if turned then n else c) 1).seeSwap c n)))
      ∧ (let u : State := { s with pair.claimSilent := true, pair.last := none }
         (s.linkUp 4 = false → exec .claimInSilence s = .next (u.setRecord 0 0))
         ∧ (s.linkUp 4 = true → s.pair.claimInFault = true → exec .claimInSilence s = .next u)
         ∧ (s.linkUp 4 = true → s.pair.claimInFault = false →
             exec .claimInSilence s = .next (State.fire { u with pair.claimInFault := true } 241 0)))
      ∧ (∀ (node : Fin 1024) (unit : Fin 2) (st : Fin 8) (c : Fin 65536) (image f fw : Nat),
          (s.linkUp 4 = false → exec (.pairHello node unit st c image f fw) s = .next s)
          ∧ (s.linkUp 4 = true → Machine.claimOk c = false ∨ 5 < st.val → exec (.pairHello node unit st c image f fw) s = .next ((s.pairCount 8).fire 179 4))
          ∧ (s.linkUp 4 = true → Machine.claimOk c = true → st.val ≤ 5 → ∀ k, s.helloDiffers node unit image = some k →
              (s.pair.mismatched.contains k = true → exec (.pairHello node unit st c image f fw) s = .next (s.pairCount 9))
              ∧ (s.pair.mismatched.contains k = false → exec (.pairHello node unit st c image f fw) s = .next
                  (State.fire { s.pairCount 9 with pair.mismatched := k :: s.pair.mismatched } 243 0 k)))
          ∧ (s.linkUp 4 = true → Machine.claimOk c = true → st.val ≤ 5 → s.helloDiffers node unit image = none →
              exec (.pairHello node unit st c image f fw) s = .next (s.goodHello st c (fw % 2 ^ 18)))
          ∧ (s.linkUp 4 = true → Machine.claimOk c = true → st.val = 4 → s.helloDiffers node unit image = none → s.pair.silence = false →
              s.pair.linkLost = false → s.pair.claimSilent = false → s.pair.state = .waiting →
              exec (.pairHello node unit st c image f fw) s = .next { s with
                pair.formed := true, pair.partnerFw := fw % 2 ^ 18, pair.state := .joining, pair.firstDone := false }))
      ∧ (s.pair.silence = true → exec .partnerSilence s = .next s)
      ∧ (s.pair.silence = false →
          let b := if s.pair.claimSilent = true ∧ s.pair.record ≠ 0 then s.setRecord 0 0 else s
          let u : State := State.fire { b with
            pair.silence := true, pair.formed := false, pair.resolving := false, pair.checkNext := false, pair.rx := [],
            pair.linkLost := b.pair.linkLost || b.pair.record != 0 } 244 0
          (u.pair.state = .joining → exec .partnerSilence s = .next { u with pair.state := .waiting })
          ∧ (u.pair.state = .standby → u.pair.record = 0 → u.pair.plan = none → exec .partnerSilence s = .next
              { u with pair.plan := some ⟨.takeover, u.nextActive, u.abs u.tide.off + 8800⟩ })
          ∧ (u.pair.state = .standby → u.pair.record ≠ 0 ∨ u.pair.plan ≠ none → exec .partnerSilence s = .next u)
          ∧ (u.pair.state ≠ .joining → u.pair.state ≠ .standby → exec .partnerSilence s = .next u)))
    ∧ (s.pair.state = .waiting → s.pair.record = 0 → s.pair.formed = false → exec .aloneWaitExpiry s = .next (s.goActive s.nextActive))
    ∧ (s.pair.state ≠ .waiting ∨ s.pair.record ≠ 0 ∨ s.pair.formed = true → exec .aloneWaitExpiry s = .next s)
    ∧ (∀ src, s.pair.state = .standby → s.pair.record ≠ 0 →
        s.setRecord 0 src = State.pairBell
          (let v : State := State.seenEpoch { s with pair.record := 0, pair.source := src, pair.zeroSince := s.bell.tick } 0
           { v with pair.plan := some ⟨.takeover, v.nextActive, s.abs s.tide.off + 8800⟩ }))
    ∧ (s.pair.state = .active → s.partnerReady = true → exec .swap s = .next
        { s with pair.plan := some ⟨.swapOut, standbyClaim (claimEpoch s.pair.claim + 1), s.abs s.tide.off + 17600⟩ })
    ∧ (s.pair.state ≠ .active ∨ s.partnerReady = false → exec .swap s = .next (s.abort 0x0A003 7))
    ∧ (s.pair.state = .out → s.severeCount = 0 → s.bell.fatal = false → exec .rejoin s = .next { s with pair.state := .waiting })
    ∧ (s.pair.state ≠ .out ∨ s.severeCount ≠ 0 ∨ s.bell.fatal = true → exec .rejoin s = .next (s.abort 0x0A003 7))
    ∧ (s.pair.state = .joining → s.pair.firstDone = true →
        exec .confirm s = .next (State.tryStandby { s with pair.confirmWait := false }))
    ∧ (s.pair.state ≠ .joining ∨ s.pair.firstDone = false → exec .confirm s = .next (s.abort 0x0A003 7))
    ∧ (s.pair.state = .standby → exec .resync s = .next (State.pairCell { s with pair.resync := true } [put 14 4 7, s.expected]))
    ∧ (s.pair.state ≠ .standby → exec .resync s = .next (s.abort 0x0A003 7))

/-- Mirroring and divergence (R428 to R439). -/
def Obligations.PairMirroring : Prop :=
  ∀ s : State,
    (∀ (seq : Nat) (words : List Word),
      (words.length = 0 ∨ 26 < words.length ∨ s.takesEpochs = false → exec (.mirror seq words) s = .next s)
      ∧ (0 < words.length → words.length ≤ 26 → s.takesEpochs = true →
          (s.pair.rxSeq = seq → exec (.mirror seq words) s = .next { s with pair.rx := s.pair.rx ++ words.map BitVec.toNat })
          ∧ (s.pair.rxSeq ≠ seq → exec (.mirror seq words) s = .next { s with pair.rxSeq := seq, pair.rx := words.map BitVec.toNat })))
    ∧ (∀ seq count crc fk : Nat,
        let ws := s.pair.rx.take count
        let whole := seq = (s.pair.committed + 1) % 2 ^ 18 ∧ s.pair.rxSeq = seq ∧ ws.length = count ∧ crcWords ws = crc
        (s.takesEpochs = false → exec (.pairCommit seq count crc fk) s = .next s)
        ∧ (s.takesEpochs = true → whole → exec (.pairCommit seq count crc fk) s = .next
            ((State.pairCell (State.pairCount { s with
              pair.committed := seq, pair.rx := [], pair.apply := s.pair.apply ++ [⟨seq, fk, splitItems (ws.length + 1) ws⟩]
              pair.resync := s.pair.resync && !decide (count < 4096)
              pair.firstDone := s.pair.firstDone || decide (count < 4096) } 4) [put 14 4 6, seq]).tryStandby))
        ∧ (s.takesEpochs = true → ¬ whole → exec (.pairCommit seq count crc fk) s = .next
            (State.pairCell (State.pairCount { s with pair.rx := [], pair.rxSeq := s.expected } 5) [put 14 4 7, s.expected])))
    ∧ (∀ seq : Nat,
        (s.dict.shepherds = false ∨ s.takesPair = false → exec (.pairAck seq) s = .next s ∧ exec (.nak seq) s = .next s)
        ∧ (s.dict.shepherds = true → s.takesPair = true → s.pair.unacked.any (fun e => e.seq == seq) = true → exec (.pairAck seq) s = .next
          (State.closeEpoch { s with pair.unacked := s.pair.unacked.filter (fun e => e.seq != seq), pair.acked := seq }))
        ∧ (s.pair.unacked.any (fun e => e.seq == seq) = false → exec (.pairAck seq) s = .next s)
        ∧ (s.mirrors = false → exec (.nak seq) s = .next s)
        ∧ (s.dict.shepherds = true → s.takesPair = true → s.mirrors = true → s.pair.unacked.any (fun e => e.seq == seq) = true → exec (.nak seq) s = .next
            ((s.pair.unacked.dropWhile fun e => e.seq != seq).foldl (fun s e => s.sendEpoch e) (s.pairCount 5)))
        ∧ (s.dict.shepherds = true → s.takesPair = true → s.mirrors = true → s.pair.unacked.any (fun e => e.seq == seq) = false →
            exec (.nak seq) s = .next ((s.pairCount 5).startResync (seq % 2 ^ 18))))
    ∧ (s.paired = false → exec .pairDigestSend s = .next s)
    ∧ (s.paired = true → s.pair.digests.filter (fun d => d.F == s.time.F - 1) = [] →
        exec .pairDigestSend s = .next (s.pairCell ([put 14 4 2, 0] ++ words36 (s.time.F - 1) ++ [])))
    ∧ (∀ d, s.paired = true → s.pair.digests.filter (fun d => d.F == s.time.F - 1) = [d] →
        exec .pairDigestSend s = .next (s.pairCell ([put 14 4 2, 1] ++ words36 (s.time.F - 1)
          ++ [putB 17 d.valid + put 0 10 d.region, fld d.value 31 16, fld d.value 15 0])))
    ∧ (∀ (f : Nat) (l : List (Nat × Bool × Nat)),
        (8 < l.length ∨ s.paired = false ∨ s.pair.silence = true ∨ s.linkUp 4 = false → exec (.pairDigest f l) s = .next s)
        ∧ (s.paired = true → s.pair.silence = false → s.linkUp 4 = true →
            (l.length ≤ 8 → exec (.pairDigest f l) s = .next (l.foldl (fun s e => s.compare f e.1 e.2.1 e.2.2) s))
            ∧ ∀ r v value,
              (s.pair.digests.find? (fun d => d.F == f && d.region == r) = none → exec (.pairDigest f [(r, v, value)]) s = .next (s.pairCount 2))
              ∧ (∀ d, s.pair.digests.find? (fun d => d.F == f && d.region == r) = some d →
                  (d.valid = false ∨ v = false → exec (.pairDigest f [(r, v, value)]) s = .next (s.pairCount 2))
                  ∧ (d.valid = true → v = true → d.value = value → exec (.pairDigest f [(r, v, value)]) s = .next (s.pairCount 0))
                  ∧ (d.valid = true → v = true → d.value ≠ value → s.pair.resolving = true →
                      exec (.pairDigest f [(r, v, value)]) s = .next (s.pairCount 1))
                  ∧ (d.valid = true → v = true → d.value ≠ value → s.pair.resolving = false →
                      exec (.pairDigest f [(r, v, value)]) s = .next { s.pairCount 1 with
                        pair.resolving := true, pair.checkNext := true, pair.ownNow := 0, pair.partnerNow := 0,
                        pair.mismatchRegion := r, pair.mismatchF := f }))))
    ∧ (∀ (pass : Bool) (sig : Nat),
        (s.pair.checking = false → exec (.selfcheckDone sig) s = .next s)
        ∧ (s.pair.checking = true →
            let noted (r : Nat) : State := State.pairCell { s with
              pair.checking := false, pair.own := r, pair.ownNow := r, pair.signature := sig % 2 ^ 32 }
              ([put 14 4 3, r] ++ words36 s.pair.mismatchF ++ [fld (sig % 2 ^ 32) 31 16, fld (sig % 2 ^ 32) 15 0])
            let ends (u : State) : State := if u.pair.resolving then u.resolve else u
            (sig % 2 ^ 32 = Config.selfcheckRef.toNat → exec (.selfcheckDone sig) s = .next (ends (noted 1)))
            ∧ (sig % 2 ^ 32 ≠ Config.selfcheckRef.toNat → (noted 2).pair.state = .standby ∨ (noted 2).pair.state = .active →
                exec (.selfcheckDone sig) s = .next (ends (((noted 2).pairOut).fire 257 0)))
            ∧ (sig % 2 ^ 32 ≠ Config.selfcheckRef.toNat → (noted 2).pair.state ≠ .standby → (noted 2).pair.state ≠ .active →
                exec (.selfcheckDone sig) s = .next (ends ((noted 2).fire 257 0))))
        ∧ (∀ f, (s.paired = false ∨ s.linkUp 4 = false ∨ s.pair.silence = true → exec (.selfcheck pass f sig) s = .next s)
          ∧ (s.paired = true → s.linkUp 4 = true → s.pair.silence = false →
              let u : State := { s with pair.partner := if pass then 1 else 2, pair.partnerNow := if pass then 1 else 2 }
              (s.pair.resolving = true → exec (.selfcheck pass f sig) s = .next u.resolve)
              ∧ (s.pair.resolving = false → exec (.selfcheck pass f sig) s = .next u))))

/-- Requests on the four paths (R454 to R464). -/
def Obligations.DictRequests : Prop :=
  ∀ (m : Msg) (s : State),
    let served (c : Instr) (op shape : Nat) (run : State → State × Reply) : Prop :=
      let u := s.takeReq m.path
      let w := (u.bump 0x00104 0).touch m.session
      let fits := s.takes m = true ∧ m.body.length + 7 ≤ pathLimit m.path
      let ready := fits ∧ shapeOk shape m = true ∧ u.tooManyOpen m = false
      (s.takes m = false → exec c s = .next s)
      ∧ (s.takes m = true → pathLimit m.path < m.body.length + 7 → exec c s = .next (u.abortReq m op aBadLength))
      ∧ (fits → shapeOk shape m = false → exec c s = .next (((u.bump 0x00104 2).fire 272 m.path).abortReq m op aBadRequest))
      ∧ (fits → shapeOk shape m = true → u.tooManyOpen m = true → exec c s = .next (u.abortReq m op aBusy))
      ∧ (ready → 2 * m.target + m.unit ≠ u.station →
          (u.usable m.target = 0 → exec c s = .next (u.abortReq m op aUnreachable))
          ∧ (u.usable m.target ≠ 0 → exec c s = .next (u.relay m op)))
      ∧ (ready → 2 * m.target + m.unit = u.station →
          (u.sessionOk m = false → exec c s = .next (u.abortReq m op aNoSession))
          ∧ (u.sessionOk m = true → exec c s = .next ((run w).1.answerReq m op (run w).2)))
    served (.read m) 1 1 (State.readOp · m) ∧ served (.write m) 2 1 (State.writeOp · m) ∧ served (.writeVerify m) 3 1 (State.verifyOp · m)
    ∧ served (.readBulk m) 4 3 (State.readBulkOp · m) ∧ served (.writeBulk m) 5 3 (State.writeBulkOp · m)
    ∧ served (.subscribe m) 6 3 (State.subscribeOp · m) ∧ served (.unsubscribe m) 7 0 (State.unsubscribeOp · m)
    ∧ served (.describe m) 9 2 (State.describeOp · m)
    ∧ served (.pointRead m) 10 4 (State.pointReadOp · m) ∧ served (.pointWrite m) 11 4 (State.pointWriteOp · m)
    ∧ served (.challenge m) 12 0 (State.challengeOp · m) ∧ served (.open_ m) 13 0 (State.openOp · m) ∧ served (.close m) 14 0 (State.closeOp · m)
    ∧ served (.blobRead m) 15 1 (State.blobReadOp · m) ∧ served (.blobWrite m) 16 1 (State.blobWriteOp · m)

/-- What the operations do with values (R449 to R463). -/
def Obligations.DictValues : Prop :=
  ∀ (m : Msg) (s : State),
    (∀ r, lookEntry m.entry m.sub = .ok r →
      (r.acc = .wo → s.readOp m = (s, .fail aWriteOnly m.sub []) ∧ s.verifyOp m = (s, .fail aWriteOnly m.sub []))
      ∧ (r.acc ≠ .wo → r.ty ≠ .blob → m.body = [] → s.readOp m = (s, .body (s.isPending m.entry m.sub) (s.readWords r m.entry m.sub)))
      ∧ (r.acc = .ro → s.writeOp m = (s, .fail aReadOnly m.sub []))
      ∧ (r.acc ≠ .ro → r.ty = .blob ∨ m.body.length ≠ r.words → s.writeOp m = (s, .fail aBadLength m.sub []))
      ∧ (r.acc ≠ .ro → r.ty ≠ .blob → m.body.length = r.words → s.roleFor m < writeRole r m.entry (valueOf r.ty m.body) →
          s.writeOp m = (s, .fail aNoRight m.sub []))
      ∧ (r.acc ≠ .ro → r.ty ≠ .blob → m.body.length = r.words → writeRole r m.entry (valueOf r.ty m.body) ≤ s.roleFor m →
          (r.per ≠ .prof ∨ s.noProfile = false) → s.barred r m.entry m.sub (valueOf r.ty m.body) = false →
          (wordsFit r.ty m.body = false ∨ s.valueOk r m.entry m.sub (valueOf r.ty m.body) = false →
            s.writeOp m = (s, .fail aBadValue m.sub []))
          ∧ (wordsFit r.ty m.body = true → s.valueOk r m.entry m.sub (valueOf r.ty m.body) = true → r.acc ≠ .wo → m.entry ≠ 0x0F003 →
              s.writeOp m = ((s.recordWrite m r m.entry m.sub).accept r m.entry m.sub (valueOf r.ty m.body), .body false []))))
    ∧ (∀ c k ws, (s.writeBulkOp m).2 = .fail c k ws → (s.writeBulkOp m).1 = s)
    ∧ (∀ n : Nat, m.body.map BitVec.toNat = [n] →
        ((s.dict.subs.any fun p => p.1 == n && p.2.path == m.path.val && p.2.source == m.source) = true →
          s.unsubscribeOp m = ({ s with dict.subs := s.dict.subs.filter fun p => p.1 != n }, .body false []))
        ∧ ((s.dict.subs.any fun p => p.1 == n && p.2.path == m.path.val && p.2.source == m.source) = false →
          s.unsubscribeOp m = (s, .fail aBadValue 0 [])))
    ∧ (m.body = [] → m.session.val ≠ 0 → s.closeOp m = ({ s.setSession m.session Session.none with
        dict.subs := s.dict.subs.filter fun p => p.2.session != m.session.val
        fold.results := s.fold.results.filter fun p => p.1 / 4 != m.session.val }, .body false []))
    ∧ (m.body = [] → s.fold.trngOk = false → s.challengeOp m = (s, .fail aBusy 0 []))
    ∧ (let f := s.fire 274 m.path
       (∀ n, freeNumber f.dict.sessions 1 16 = some n → ∀ x, f.dict.nonces.find? (fun x => x.path == m.path.val && x.source == m.source) = some x →
         (f.dropNonce m.path m.source).proofOk m x.value = false →
         s.openOp m = ((f.dropNonce m.path m.source).foldRefuse, .fail aRefused 0 []))
       ∧ (∀ n, freeNumber f.dict.sessions 1 16 = some n → f.dict.nonces.find? (fun x => x.path == m.path.val && x.source == m.source) = none →
         s.openOp m = ((f.dropNonce m.path m.source).foldRefuse, .fail aRefused 0 []))
       ∧ (freeNumber f.dict.sessions 1 16 = none → s.openOp m = (f, .fail aBusy 0 [])))
    ∧ (m.body.length = 2 → s.pointRuns m = none → s.pointReadOp m = (s, .fail aNoObject 0 []) ∧ s.pointWriteOp m = (s, .fail aNoObject 0 []))
    ∧ (∀ rs, s.pointRuns m = some rs → m.body.length = 2 + (rs.map fun p => p.2.words).sum → s.roleFor m = 0 →
        s.pointWriteOp m = (s, .fail aNoRight 0 []))
    ∧ (∀ rs t, s.pointRuns m = some rs → m.body.length = 2 + (rs.map fun p => p.2.words).sum → 1 ≤ s.roleFor m →
        (s.writePoints m rs (m.body.drop 2) = (t, .ok ()) →
          ((∃ x ∈ t.ledger.waiting, x.req = some m) →
            s.pointWriteOp m = ({ t with dict.waiting := t.dict.waiting ++ [{ op := 11, path := m.path, source := m.source, msg := m, relay := 0 }] }, .later))
          ∧ ((∀ x ∈ t.ledger.waiting, x.req ≠ some m) → s.pointWriteOp m = (t, .body false [])))
        ∧ (∀ d, s.writePoints m rs (m.body.drop 2) = (t, .error d) → s.pointWriteOp m = (t, .fail d.code 0 [])))

/-- Events and commands of the dictionary (R454 to R467). -/
def Obligations.DictEvents : Prop :=
  ∀ s : State,
    (∀ (n : Fin 64) (leaves : Bool),
      (s.dict.subs.find? (fun p => p.1 == n.val) = none → exec (.notify n leaves) s = .next s)
      ∧ (∀ k x, s.dict.subs.find? (fun p => p.1 == n.val) = some (k, x) →
          (s.workRuns = false ∨ s.dict.shepherds = false ∨ s.notifyDue x = false → exec (.notify n leaves) s = .next s)
          ∧ (s.workRuns = true → s.dict.shepherds = true → s.notifyDue x = true →
              let ws := s.sampled x
              let sent (l : List Word) : State :=
                { s with dict.subs := putAt s.dict.subs n { x with since := 0, sent := true, nseq := (x.nseq + 1) % 2 ^ 18, last := l } }
              exec (.notify n true) s = .next
                  (((sent (ws.map (BitVec.ofNat 18))).bump 0x00104 6).reply x.path x.source (((sent (ws.map (BitVec.ofNat 18))).notifyHead x).words (x.nseq :: ws)))
              ∧ exec (.notify n false) s = .next ((sent x.last).bump 0x00104 7))))
    ∧ (∀ (path : Fin 4) (source : Nat) (words : List Word) (packing : Bool),
        let up := s.workRuns = true ∧ s.dict.shepherds = true ∧ s.pathOpen path = true
        let t := ((s.takeReq path).bump 0x00104 2).fire 272 path
        (¬ up → exec (.dictMalformedRequest path source words packing) s = .next s)
        ∧ (malformedAs words packing = none → exec (.dictMalformedRequest path source words packing) s = .next s)
        ∧ (up → malformedAs words packing = some none → exec (.dictMalformedRequest path source words packing) s = .next t)
        ∧ (∀ h c, up → malformedAs words packing = some (some (h, c)) →
            exec (.dictMalformedRequest path source words packing) s = .next (t.respond path source { h with abort := c } [])))
    ∧ (∀ (relay abort : Nat) (pend dflt : Bool) (body : List Word),
        (s.workRuns = false ∨ s.dict.shepherds = false → exec (.relayedResponse relay abort pend dflt body) s = .next s)
        ∧ (s.workRuns = true → s.dict.shepherds = true →
            (s.relayed relay = none → exec (.relayedResponse relay abort pend dflt body) s = .next ((s.bump 0x00104 2).fire 272 0))
            ∧ ∀ q, s.relayed relay = some q → exec (.relayedResponse relay abort pend dflt body) s = .next
                ((s.endRelay relay).reply q.path q.source
                  ({ msgHead q.msg q.op with abort := abort, pend := pend, dflt := dflt }.words (body.map BitVec.toNat))))
        ∧ (s.relayed relay = none → exec (.relayTimeout relay) s = .next s)
        ∧ (∀ q, s.relayed relay = some q →
            exec (.relayTimeout relay) s = .next ((((s.endRelay relay).bump 0x00104 5).fire 275 q.path).abortReq q.msg q.op aTimeout)))
    ∧ (∀ e, exec (.blobGapExpiry e) s = .next { s with dict.openBlobs := s.dict.openBlobs.filter fun b => b.entry != e })
    ∧ exec (.sessionIdleExpiry 0) s = .next s
    ∧ (∀ n : Fin 16, n.val ≠ 0 → exec (.sessionIdleExpiry n) s = .next { s.setSession n Session.none with
        dict.subs := s.dict.subs.filter fun p => p.2.session != n.val
        fold.results := s.fold.results.filter fun p => p.1 / 4 != n.val })
    ∧ (∀ (path : Fin 4) (source : Nat), exec (.nonceExpiry path source) s = .next
        { s with dict.nonces := s.dict.nonces.filter fun x => !(x.path == path && x.source == source) })
    ∧ (∀ (address asker : Nat) (payload : List Nat),
        (s.ownsAddress address = true → exec (.arpRequest address asker) s = .next (s.emit .arp 48 [asker, address, s.hubMac])
          ∧ exec (.icmpEchoRequest address asker payload) s = .next (s.emit .icmp 48 (asker :: address :: payload)))
        ∧ (s.ownsAddress address = false → exec (.arpRequest address asker) s = .next s ∧ exec (.icmpEchoRequest address asker payload) s = .next s))
    ∧ (∀ g : Nat,
        (g = 0 ∨ g = 0x0E ∨ 0x10 < g → exec (.resetGroup g) s = .next (s.abort 0x00105 aBadValue))
        ∧ (g ≠ 0 → g ≠ 0x0E → g ≤ 0x10 → exec (.resetGroup g) s = .next
            (State.settingRecord { s with dict.resetAt := s.dict.resetAt.filter (· ≠ g) ++ [g] } 0x00105 g 0 3 3))
        ∧ (0x10 < g → exec (.clearDefaulted g) s = .next (s.abort 0x00105 aBadValue))
        ∧ (g ≤ 0x10 → exec (.clearDefaulted g) s = .next { s with dict.defaulted := s.dict.defaulted.filter (· ≠ g) }))
    ∧ exec .closeAll s = .next (s.endSessions fun _ => true)

/-- The PCI Express endpoint (R472 to R478). -/
def Obligations.HostPort : Prop :=
  ∀ s : State,
    (∀ (addr : Fin 1073741824) (n : Nat),
      let en := (s.aperture addr).1
      let space := (s.aperture addr).2.1
      let o := (s.aperture addr).2.2
      let r := s.bump 0x0B004 0
      let may := (r.full = true ∨ space = 5) ∧ r.classSafe 2 (if space = 7 then 1 else 0) = false
      exec (.bar2Read addr n false) s = .next ((r.bump 0x0B004 4).hostUr addr false)
      ∧ (en = false → exec (.bar2Read addr n true) s = .next (r.hostUr addr false))
      ∧ (en = true → ¬ may → exec (.bar2Read addr n true) s = .next (r.hostCa addr))
      ∧ (en = true → may → space = 7 → r.quayMapped o = true → exec (.bar2Read addr n true) s = .next r)
      ∧ (en = true → may → space = 7 → r.quayMapped o = false → exec (.bar2Read addr n true) s = .next (r.hostUr addr false))
      ∧ (en = true → may → space ≠ 7 →
          (∀ ws, (r.spansRead space (lineSpans o n)).2 = .ok ws →
            exec (.bar2Read addr n true) s = .next ((r.spansRead space (lineSpans o n)).1.hostWords (ws.map BitVec.toNat)))
          ∧ ((r.spansRead space (lineSpans o n)).2 = .error .error →
            exec (.bar2Read addr n true) s = .next ((r.spansRead space (lineSpans o n)).1.hostCa addr))
          ∧ (∀ d, d ≠ .error → (r.spansRead space (lineSpans o n)).2 = .error d →
            exec (.bar2Read addr n true) s = .next ((r.spansRead space (lineSpans o n)).1.hostUr addr false))))
    ∧ (∀ (addr : Fin 1073741824) (ws : List Word),
      let en := (s.aperture addr).1
      let space := (s.aperture addr).2.1
      let o := (s.aperture addr).2.2
      let r := s.bump 0x0B004 1
      let may := (r.full = true ∨ space = 5) ∧ r.classSafe 2 (if space = 7 then 1 else 0) = false
      (∀ full, exec (.bar2Write addr ws full true) s = .next (r.hostDrop addr))
      ∧ exec (.bar2Write addr ws false false) s = .next (r.hostUr addr true)
      ∧ (en = false → exec (.bar2Write addr ws true false) s = .next (r.hostUr addr true))
      ∧ (en = true → ¬ may → exec (.bar2Write addr ws true false) s = .next (r.hostDrop addr))
      ∧ (en = true → may → space = 7 → r.quayMapped o = true → exec (.bar2Write addr ws true false) s = .next r)
      ∧ (en = true → may → space = 7 → r.quayMapped o = false → exec (.bar2Write addr ws true false) s = .next (r.hostUr addr true))
      ∧ (en = true → may → space ≠ 7 → exec (.bar2Write addr ws true false) s = .next (r.spansWrite addr space ws (lineSpans o ws.length))))
    ∧ (∀ w : Word,
        let q := s.host.req
        let tooMuch := q.open_.length = 4608 ∨ q.free < (if q.opened then 1 else 2)
        (q.discard = true → exec (.reqData w) s = .next { s with host.req.opened := true })
        ∧ (q.discard = false → tooMuch → exec (.reqData w) s = .next
            { s.bump 0x0B004 4 with host.req := { q with open_ := [], opened := true, discard := true } })
        ∧ (q.discard = false → ¬ tooMuch → exec (.reqData w) s = .next { s with host.req := { q with open_ := q.open_ ++ [w], opened := true } }))
    ∧ (let q := s.host.req
       let whole := q.opened = true ∧ q.discard = false ∧ q.open_ ≠ []
       (whole → exec .reqEnd s = .next { s.bump 0x0B004 7 with
          host.req := { q with open_ := [], opened := false, discard := false, ready := q.ready ++ [q.open_] } })
       ∧ (¬ whole → exec .reqEnd s = .next { s with host.req := { q with open_ := [], opened := false, discard := false } })
       ∧ (q.discard = true → exec .reqAbort s = .next s)
       ∧ (q.discard = false → exec .reqAbort s = .next { s with host.req := { q with open_ := [], opened := false } }))
    ∧ (let q := s.host.rsp
       (∀ w l, q.reading = w :: l → exec .rspData s = .next (({ s with host.rsp.reading := l } : State).emit .hostCompletion 0 [w.toNat]))
       ∧ (∀ m l, q.reading = [] → q.ready = m :: l →
            exec .rspData s = .next (({ s with host.rsp := { q with reading := m, ready := l } } : State).emit .hostCompletion 0 [m.length]))
       ∧ (q.reading = [] → q.ready = [] → exec .rspData s = .next (s.emit .hostCompletion 0 [0x1FFFF]))
       ∧ exec .rspFlush s = .next { s with host.rsp := { q with ready := [], reading := [], open_ := [], discard := q.opened } })
    ∧ (∀ (mask : Fin 32) (enable : Option (Fin 32)),
        let t : State := { s with
          host.intStatus := (List.range 5).foldl (fun a k => if s.host.intStatus.testBit k && !mask.val.testBit k then a + 2 ^ k else a) 0
          host.intEnable := (enable.map Fin.val).getD s.host.intEnable }
        (mask.val.testBit 0 = true → 0 < s.host.rsp.fill → exec (.intStatusClear mask enable) s = .next (t.interrupt 0))
        ∧ (mask.val.testBit 0 = false ∨ s.host.rsp.fill = 0 → exec (.intStatusClear mask enable) s = .next t))
    ∧ (∀ (o : Fin 65536) (w : Bool), exec (.bar0UnmappedAccess o w) s = .next (s.hostUr o w))
    ∧ (∀ (v : Fin 64) (value : BitVec 32),
        (∀ dword : Fin 4, dword.val < 3 → exec (.msiXTableWrite v dword value) s = .next
          { s with host.msix := Tab.set 0 s.host.msix (4 * v + dword) value.toNat })
        ∧ (value.getLsbD 0 = true → exec (.msiXTableWrite v 3 value) s = .next { s with host.msixOn := s.host.msixOn.filter (· != v.val) })
        ∧ (value.getLsbD 0 = false → s.host.msixOn.contains v.val = true → exec (.msiXTableWrite v 3 value) s = .next s)
        ∧ (value.getLsbD 0 = false → s.host.msixOn.contains v.val = false →
            let t : State := { s with host.msixOn := v.val :: s.host.msixOn, host.pba := s.host.pba.filter (· != v.val) }
            (s.host.pba.contains v.val = false → exec (.msiXTableWrite v 3 value) s = .next t)
            ∧ (s.host.pba.contains v.val = true → exec (.msiXTableWrite v 3 value) s = .next (t.msiSend v))))
    ∧ (let e := s.endSessions fun x => x.path == 2
        let t : State := State.qlockOff { e with host := { s.host with
          req := s.host.req.flush, rsp := s.host.rsp.flush, intStatus := 0, intEnable := 0, msix := [], msixOn := [], pba := [] } }
        exec (.pcieReset false) s = .next t
        ∧ (s.host.linkUp = false → exec (.pcieReset true) s = .next t)
        ∧ (s.host.linkUp = true → exec (.pcieReset true) s = .next
            ((State.bump { t with host.linkUp := false, host.speed := 0, host.width := 0 } 0x0B004 5).fire 289 0)))
    ∧ (∀ speed width : Fin 5,
        (speed.val = 0 ∨ width.val = 0 ∨ width.val = 3 → exec (.pcieLinkUp speed width) s = .next s)
        ∧ (speed.val ≠ 0 → width.val ≠ 0 → width.val ≠ 3 →
            exec (.pcieLinkUp speed width) s = .next { s with host.linkUp := true, host.speed := speed, host.width := width }))

/-- The Quay bridge and the service port (R479 to R490). -/
def Obligations.QuayAndService : Prop :=
  ∀ s : State,
    (∀ (o : Fin 134217728) (n : Nat) (beats : List QBeat),
      let cs := fld o 26 24
      let wide := s.quayWide cs
      let u := (s.enterWords 1 n true).quayLockStart
      let run := u.quayRun (u.quayLimit cs) true (quayBeats wide o (List.replicate n 0)) beats
      let t := run.1.emit .quay cs [0, fld o 23 0, run.2.1.length]
      let goes := s.full = true ∧ s.quayMapped o = true ∧ (s.quay.posts = [] ∨ (beats.headD QBeat.plain).halt = true)
      (s.full = false → exec (.quayRead o n beats) s = .next (s.hostCa o))
      ∧ (s.full = true → s.quayMapped o = false → exec (.quayRead o n beats) s = .next (s.hostUr o false))
      ∧ (s.full = true → s.quayMapped o = true → s.quay.posts ≠ [] → (beats.headD QBeat.plain).halt = false → exec (.quayRead o n beats) s = .next s)
      ∧ (goes → run.2.2 = none → exec (.quayRead o n beats) s = .next (t.hostWords (quayWords wide n run.2.1)))
      ∧ (∀ c far, goes → run.2.2 = some (c, far) →
          let f := t.quayFail c 0 cs far
          (bit (f.cfg 0x0B010) 34 = true → exec (.quayRead o n beats) s = .next (f.hostCa o))
          ∧ (bit (f.cfg 0x0B010) 34 = false → exec (.quayRead o n beats) s = .next (f.hostWords (quayWords wide n run.2.1)))))
    ∧ (∀ (o : Fin 134217728) (ws : List Word),
      let queued := (s.quay.posts.map fun p => p.2.length).sum
      (s.full = false → exec (.quayPostedWrite o ws) s = .next (s.hostDrop o))
      ∧ (s.full = true → s.quayMapped o = false → exec (.quayPostedWrite o ws) s = .next (s.hostUr o true))
      ∧ (s.full = true → s.quayMapped o = true → 1024 < queued + ws.length → exec (.quayPostedWrite o ws) s = .next s)
      ∧ (s.full = true → s.quayMapped o = true → queued + ws.length ≤ 1024 →
          exec (.quayPostedWrite o ws) s = .next
            { s.enterWords 1 ws.length false with quay.posts := s.quay.posts ++ [(o.val, ws)] }))
    ∧ (∀ beats,
      (s.quay.posts = [] → exec (.quayWriteBurst beats) s = .next s)
      ∧ (∀ o ws rest, s.quay.posts = (o, ws) :: rest →
          let cs := fld o 26 24
          let bs := quayBeats (s.quayWide cs) o ws
          let u : State := State.quayLockStart { s with quay.posts := rest }
          let run := u.quayRun (u.quayLimit cs) true bs beats
          let t := run.1.emit .quay cs ([1, fld o 23 0] ++ (bs.take run.2.1.length).map Prod.snd)
          (run.2.2 = none → exec (.quayWriteBurst beats) s = .next t.quayLockEnd)
          ∧ (∀ c far, run.2.2 = some (c, far) → exec (.quayWriteBurst beats) s = .next (t.quayFail c 1 cs far).quayLockEnd)))
    ∧ exec (.qlock true) s = .next { s with host.qlock := true, quay.lockLeft := none }
    ∧ exec (.qlock false) s = .next s.qlockOff
    ∧ (s.host.qlock = false → s.qlockOff = s)
    ∧ (s.host.qlock = true → s.quay.posts = [] → s.qlockOff = { s with host.qlock := false, quay.locked := false, quay.lockLeft := none })
    ∧ (s.host.qlock = true → s.quay.posts ≠ [] → s.qlockOff = { s with host.qlock := false, quay.lockLeft := some s.quay.posts.length })
    ∧ (s.quay.locked = false → exec .quayLockTimeout s = .next s)
    ∧ (s.quay.locked = true → ∃ dir cs far, exec .quayLockTimeout s = .next
            ((State.bump { s.draw.1 with quay.locked := false, quay.lockLeft := none, host.qlock := false } 0x0B015 3).quayLog 3 dir cs far))
    ∧ (s.quay.state = .drain → s.quay.posts = [] → exec .quayDrainDone s = .next { s with quay.state := .off, quay.locked := false, quay.lockLeft := none })
    ∧ (s.quay.state ≠ .drain ∨ s.quay.posts ≠ [] → exec .quayDrainDone s = .next s)
    ∧ (s.quay.state = .off → exec .quayHalt s = .next (s.abort 0x0B013 aBadState))
    ∧ (s.quay.state ≠ .off → exec .quayHalt s = .next
        { s.bump 0x0B015 4 (s.quay.posts.map fun p => p.2.length).sum with quay := { s.quay with state := .off, locked := false, lockLeft := none, posts := [] } })
    ∧ (let status := 131072 * (if s.svc.rsp = [] then 0 else 1) + 65536 * (if 8192 ≤ (s.svc.req.map List.length).sum then 1 else 0)
         + (s.svc.rsp.headD []).length % 8192
       let shows (l : List Nat) : State := s.emit .service 0 (status :: l)
       let idle (n : Nat) : State := shows (List.replicate n 0x1FFFF)
       let drop := ((shows []).bump 0x0B020 3).fire 291 0
       let open_ := s.workRuns = true ∧ s.fold.lifecycle ≠ 4
       (¬ open_ → (∀ ws e, exec (.msgWrite ws e) s = .next s ∧ exec (.imageWrite ws e) s = .next s)
          ∧ (∀ n e, exec (.msgRead n e) s = .next s) ∧ exec .reservedServiceCommand s = .next s)
       ∧ (open_ →
          exec .reservedServiceCommand s = .next drop
          ∧ (∀ (ws : List Word) (e : SvcEnd),
              (ws.length < 7 ∨ 4608 < ws.length → exec (.msgWrite ws e) s = .next drop)
              ∧ (7 ≤ ws.length → ws.length ≤ 4608 →
                  let r := (idle ws.length).svcEnd e
                  let size := (r.svc.req.map List.length).sum + ws.length
                  (e.whole = false → exec (.msgWrite ws e) s = .next r)
                  ∧ (e.whole = true → size ≤ 8192 →
                      exec (.msgWrite ws e) s = .next { r.bump 0x0B020 0 with svc.req := r.svc.req ++ [ws] })
                  ∧ (e.whole = true → 8192 < size → exec (.msgWrite ws e) s = .next
                      ((r.bump 0x0B020 2).reply 3 0 ({ tagHead (ws.getD 1 0).toNat with abort := aBusy }.words []))))
              ∧ (ws.length = 0 ∨ 4608 < ws.length → exec (.imageWrite ws e) s = .next drop)
              ∧ (0 < ws.length → ws.length ≤ 4608 → e.whole = false → exec (.imageWrite ws e) s = .next ((idle ws.length).svcEnd e))
              ∧ (0 < ws.length → ws.length ≤ 4608 → e.whole = true →
                  let blocks := ws.length % 515 = 0
                  (¬ blocks → exec (.imageWrite ws e) s = .next (((idle ws.length).svcEnd e).bump 0x0F009 1))
                  ∧ (blocks → exec (.imageWrite ws e) s = .next ((((idle ws.length).svcEnd e).bump 0x0B020 0).imageFrames (ws.map BitVec.toNat) (ws.length / 515)))))
          ∧ (∀ (n : Nat) (e : SvcEnd),
              let r := (idle n).svcEnd e
              let none_ := if e.whole then r.bump 0x0B020 0 else r
              (4608 < n → exec (.msgRead n e) s = .next drop)
              ∧ (n ≤ 4608 → s.svc.rsp = [] → exec (.msgRead n e) s = .next none_)
              ∧ (∀ m l, n ≤ 4608 → s.svc.rsp = m :: l → n ≠ m.length → exec (.msgRead n e) s = .next none_)
              ∧ (∀ m l, n ≤ 4608 → s.svc.rsp = m :: l → n = m.length →
                  let out := (shows (m.map BitVec.toNat)).svcEnd e
                  (e.whole = false → exec (.msgRead n e) s = .next out)
                  ∧ (e.whole = true → exec (.msgRead n e) s = .next { out.bump 0x0B020 0 with svc.rsp := l })))))

/-- Bell (R495 to R503). -/
def Obligations.BellCommands : Prop :=
  ∀ s : State,
    (∀ n : Nat,
      let b := ((srcRow? n).map SrcRow.level).getD 0
      s.firingLevel n = if 2 ≤ b ∧ s.classFault (n / 16) = true then min (b + 1) 5 else b)
    ∧ (∀ n inst detail : Nat, (srcRow? n).isSome = true →
        let u := s.firePlain n inst detail
        u.src n = s.fired n inst (s.firingLevel n) false
        ∧ (∀ k, k ≠ n → u.src k = s.src k)
        ∧ (u.bell.fatal = true ↔ s.bell.fatal = true ∨ s.firingLevel n = 5)
        ∧ (2 ≤ s.firingLevel n → u.bell.lastSource = n)
        ∧ (s.workRuns = true → (s.fireCore n inst detail).level n < 3 → (s.fireCore n inst detail).bell.fatal = false →
            exec (.bellFiring n inst detail) s = .next (s.fireCore n inst detail).pairBell)
        ∧ ∃ t, exec (.bellFiring n inst detail) s = .next t
          ∧ t.tide = s.tide ∧ t.table = s.table ∧ t.image = s.image ∧ t.pen = s.pen ∧ t.sw = s.sw ∧ t.muster = s.muster ∧ t.time = s.time
          ∧ t.upd = s.upd ∧ t.power = s.power ∧ t.fold = s.fold ∧ t.svc = s.svc ∧ t.dict.settings = s.dict.settings
          ∧ t.dict.sessions = s.dict.sessions)
    ∧ (s.workRuns = false → (∀ n inst detail : Nat, exec (.bellFiring n inst detail) s = .next s ∧ exec (.bellForce n inst) s = .next s)
        ∧ ∀ (n : Nat) (session : Fin 16) (path : Fin 4), exec (.bellAck n session path) s = .next s ∧ exec (.ackAll session path) s = .next s)
    ∧ (∀ n inst : Nat, s.workRuns = true → (srcRow? n).isSome = true → ∃ t, exec (.bellForce n inst) s = .next t ∧ t = s.fire n inst 0 true
          ∧ t.tide = s.tide ∧ t.table = s.table ∧ t.image = s.image ∧ t.pen = s.pen ∧ t.time = s.time ∧ t.fold = s.fold
          ∧ t.dict.settings = s.dict.settings)
    ∧ (∀ n inst detail : Nat, s.workRuns = true → srcRow? n = none → ∀ (session : Fin 16) (path : Fin 4),
        (s.src n = Source.quiet → s.bell.fatal = false → exec (.bellFiring n inst detail) s = .next s.pairBell)
        ∧ exec (.bellForce n inst) s = .next (s.abort (0x0C004 + 8 * n) aNoObject)
        ∧ exec (.bellAck n session path) s = .next (s.abort (0x0C004 + 8 * n) aNoObject))
    ∧ (∀ (n : Nat) (session : Fin 16) (path : Fin 4), s.workRuns = true → (srcRow? n).isSome = true →
        ((s.src n).unack = 0 → exec (.bellAck n session path) s = .next s)
        ∧ ((s.src n).unack ≠ 0 → exec (.bellAck n session path) s = .next
            ((s.setSrc n (s.src n).acked).tally_ 2 [put 9 9 n, put 2 4 session + put 0 2 path])))
    ∧ (∀ x : Source, x.acked.unack = 0 ∧ x.acked.raised = x.raised ∧ x.acked.latch = x.latch)
    ∧ (∀ (session : Fin 16) (path : Fin 4), s.workRuns = true → exec (.ackAll session path) s = .next
        (State.tally_ { s with bell.srcs := s.bell.srcs.foldl (fun m p => Tab.set Source.quiet m p.1 p.2.acked) s.bell.srcs } 2
          [put 8 1 1, put 2 4 session + put 0 2 path]))
    ∧ (let hours := if (s.power.supplies.getD 2 (0, 0)).1 = 0 then satAdd 36 s.tally.ophours (hoursAt (s.bell.tick + 1) - hoursAt s.bell.tick)
         else s.tally.ophours
       let k := s.bellTick
       (s.workRuns = true → s.tide.runs = true → exec .bellWindowTick s = .next (State.musterTick { k with tally.ophours := hours }))
       ∧ (s.workRuns = true → s.tide.runs = false → exec .bellWindowTick s = .next (State.musterTick { k with
            tally.ophours := hours, time.base := s.time.base + 3125 * tickPerSc, tide.abs0 := s.tide.abs0 + 3125 * 400 }))
       ∧ (s.workRuns = false → s.tide.runs = true → exec .bellWindowTick s = .next
            (State.musterTick { s with bell.tick := s.bell.tick + 1, tally.ophours := hours }))
       ∧ (s.workRuns = false → s.tide.runs = false → exec .bellWindowTick s = .next
            (State.musterTick { s with bell.tick := s.bell.tick + 1, tally.ophours := hours, time.base := s.time.base + 3125 * tickPerSc })))
    ∧ exec .bellCompareMismatch s = .next (State.fire { s with bell.compareFail := true, bell.stopped := true } 0 0)

/-- The Tally and trace (R506 to R519). -/
def Obligations.TallyAndTrace : Prop :=
  ∀ s : State,
    (s.tally.backlog = [] ∨ s.workRuns = false ∨ s.ledgerRoom 4 = false → exec .tallyRecordWrite s = .next s)
    ∧ (∀ r l, s.workRuns = true → s.ledgerRoom 4 = true → s.tally.backlog = r :: l →
        let t := ((State.repeatWrite { s with tally.backlog := l }).enterWords 4 r.len false).writeRec r
        (r.partner = true → exec .tallyRecordWrite s = .next t)
        ∧ (r.partner = false → exec .tallyRecordWrite s = .next (t.addItem ((put 14 4 4 + put 0 14 r.len) :: r.toWords))))
    ∧ (∀ r : Rec, s.tally.bad = [] → s.tally.word + r.toWords.length ≤ 2048 →
        let ended := if s.tally.word + r.toWords.length < 2048 then r.toWords ++ [0] else r.toWords
        s.writeRec r = { s.bump 0x0D002 0 with
          tally.mram := Tab.setList 0 s.tally.mram (s.tally.block * 2048 + s.tally.word) (ended.map (BitVec.ofNat 18))
          tally.word := s.tally.word + r.toWords.length
          tally.lastAt := s.tally.block * 2048 + s.tally.word })
    ∧ (∀ c, c = Instr.tallyRepeatWrite ∨ c = Instr.tallyFlush →
        (s.workRuns = false ∨ s.tally.repDirty = false → exec c s = .next s)
        ∧ (∀ q, s.workRuns = true → s.tally.repDirty = true → s.tally.last = some q →
            exec c s = .next { (s.enterWords 4 4 true).enterWords 4 4 false with
            tally.repDirty := false
            tally.mram := Tab.setList 0 s.tally.mram s.tally.lastAt (q.toWords.map (BitVec.ofNat 18)) }))
    ∧ (s.workRuns = true → exec .tallyRepeatWrite s = .next s.repeatWrite ∧ exec .tallyFlush s = .next s.repeatWrite)
    ∧ (s.workRuns = false ∨ 4096 < s.backlogFill → exec .tallyOverrunQueue s = .next s)
    ∧ (s.workRuns = true → s.backlogFill ≤ 4096 → exec .tallyOverrunQueue s = .next (s.tally.lost.foldl (fun s p =>
        (State.tally_ { s with tally.lost := Tab.set 0 s.tally.lost p.1 0 } 3 ([p.1] ++ words36 p.2)).fire 1 p.1) s))
    ∧ exec .ophoursStore s = .next { s with tally.storedHours := s.tally.ophours }
    ∧ (let clear : State := { s with
         tally.mram := (List.range 256).foldl (fun m b => Tab.set 0 m (b * 2048 + 4) 0) s.tally.mram, tally.repDirty := false }
       let next := clear.beginBlock (nextBlock s.tally.retired s.tally.block)
       let c := s.tally.startCause
       (s.workRuns = false → exec .tallyClear s = .next s)
       ∧ (s.workRuns = true → exec .tallyClear s = .next (next.startRecord (fld c 38 36) (fld c 35 18) (fld c 17 0))))
    ∧ (∀ cause order reset, s.startRecord cause order reset =
        { s.tally_ 4 [cause, order, reset] with tally.startCause := put 36 3 cause + put 18 18 order + put 0 18 reset })
    ∧ (s.trace.buffer = [] ∨ s.traceOn = false → exec .traceRecordWrite s = .next s)
    ∧ (∀ r l, s.trace.buffer = r :: l → s.ledgerRoom (recClass r) = false → exec .traceRecordWrite s = .next s)
    ∧ (∀ r l, s.trace.buffer = r :: l → s.traceOn = true → s.ledgerRoom (recClass r) = true →
        let cls := recClass r
        let u : State := { s with trace.buffer := l }
        let p := fld (s.cfg 0x0D010) 11 0
        let w := (u.enterPen cls p r.length true).penPacketIn p r
        let drop (x : State) : State :=
          if x.trace.lostRun = 0 then State.fire { x.bump 0x0D012 1 with trace.lostRun := x.trace.lostRun + 1 } 3 0
          else { x.bump 0x0D012 1 with trace.lostRun := x.trace.lostRun + 1 }
        (s.classSafe 2 cls = true → exec .traceRecordWrite s = .next (drop u))
        ∧ (s.classSafe 2 cls = false → w.2 = false → exec .traceRecordWrite s = .next (w.1.bump 0x0D012 0))
        ∧ (s.classSafe 2 cls = false → w.2 = true → exec .traceRecordWrite s = .next (drop w.1)))

/-- The Fold (R527 to R547). -/
def Obligations.FoldOperations : Prop :=
  ∀ s : State,
    (∀ (a : Asker) (slot target : Fin 64) (fill : Fill) (payload : List Word),
      let asks (c : Instr) (op sl tg w1 w2 : Nat) (body : List Word) : Prop :=
        (5 ≤ s.fold.engine.length → exec c s = .next (s.foldReply a aBusy))
        ∧ (s.fold.engine.length < 5 → exec c s = .next { s with
            fold.engine := s.fold.engine ++ [⟨[put 12 6 op + put 6 6 sl + put 0 6 tg, w1, w2] ++ body.map BitVec.toNat, a⟩] })
      let w1 := fill.info.toNat
      let w2 := fill.count.toNat
      asks (.installClear a target fill payload) 1 0 target w1 w2 payload ∧ asks (.installSigned a target fill payload) 2 0 target w1 w2 payload
      ∧ asks (.installWrapped a slot target fill payload) 3 slot target w1 w2 payload ∧ asks (.derive a slot target fill payload) 4 slot target w1 w2 payload
      ∧ asks (.deriveRoot a target fill payload) 5 0 target w1 w2 payload ∧ asks (.erase a target) 6 0 target 0 0 []
      ∧ asks (.sign a slot payload) 7 slot 0 0 0 payload ∧ asks (.verify a slot payload) 8 slot 0 0 0 payload
      ∧ asks (.lifecycle a payload) 9 0 0 0 0 payload ∧ asks (.otpWrite a target payload) 10 0 target 0 0 payload
      ∧ asks (.revoke a target) 11 0 target 0 0 [])
    ∧ (s.fold.engine = [] → exec .foldOpDone s = .next s)
    ∧ (∀ r rest, s.fold.engine = r :: rest →
        let u : State := { s with fold.engine := rest, fold.spoiled := false }
        let op := fld (r.words.getD 0 0) 17 12
        let result (t : State) (ws : List Nat) : State := { t with
          fold.results := Tab.set none t.fold.results (4 * r.asker.session.val + r.asker.path.val) (some (r.asker.source, ws)) }
        let refused := State.foldReply ((State.bump (result u [put 12 6 op + put 10 2 2]) 0x0E00A 1).fire 306 0 0) r.asker aRefused
        (s.fold.spoiled = true ∨ s.fold.standing ≠ 0 ∨ s.fold.trngOk = false → exec .foldOpDone s = .next refused)
        ∧ (u.foldRun r = none → exec .foldOpDone s = .next refused)
        ∧ (∀ t out, s.fold.spoiled = false → s.fold.standing = 0 → s.fold.trngOk = true → u.foldRun r = some (t, out) →
            exec .foldOpDone s = .next (State.foldReply (State.bump (result t ((put 12 6 op + put 10 2 1) :: out)) 0x0E00A 0) r.asker 0))
        ∧ (fld (r.words.getD 0 0) 17 12 = 0 ∨ 11 < fld (r.words.getD 0 0) 17 12 → u.foldRun r = none))
    ∧ (∀ (a : Asker) (target w1 w2 : Nat) (m : List Nat),
        let w := [foldWord 1 0 target, w1, w2] ++ m
        s.fold.lifecycle = 1 → a.path.val = 3 → fillOk w1 w2 = true → (s.slot target).kind = 0 → m.length = matWords (fld w1 17 15) →
        plain16 m = true → s.opInstallClear a w target
          = some (s.setSlot target { info := w1 * 2 ^ 18, count := fld w2 16 0, material := big16 m }, []))
    ∧ (∀ a w target, s.fold.lifecycle ≠ 1 → s.opInstallClear a w target = none)
    ∧ (∀ k : Nat, Tab.wf Slot.none s.fold.slots = true → (s.eraseSlot k).slot k = Slot.none)
    ∧ (∀ a w slot target, s.ownerHashes.length < 2 → s.opRevoke a w slot target = none)
    ∧ (∀ a w slot target, (s.otp target).hash ≠ none → s.opOtpWrite a w slot target = none)
    ∧ (∀ (cause : Fin 9) (v : Fin 4096),
        let z := s.foldZero
        let t : State := { z with
          fold.vbat := v, fold.standing := z.fold.standing ||| 2 ^ cause.val, fold.latched := z.fold.latched ||| 2 ^ cause.val
          fold.events := z.fold.events + 1, dict.nonces := [], fold.spoiled := !z.fold.engine.isEmpty }
        (s.tamperArmed (cause.val + 1) = false → exec (.foldTamper cause v) s = .next s)
        ∧ (s.tamperArmed (cause.val + 1) = true → t.workRuns = true →
            exec (.foldTamper cause v) s = .next (((t.bump 0x0E00A 2).fire 304 (cause.val + 1)).endSessions fun _ => true))
        ∧ (s.tamperArmed (cause.val + 1) = true → t.workRuns = false →
            exec (.foldTamper cause v) s = .next { t with fold.unfired := t.fold.unfired + 1 }))
    ∧ (let c : State := { s with fold.standing := 0 }
       (s.lcKeys = true → s.fold.root = none →
          exec .foldRootDraw s = .next { (c.drawBits 256).1 with fold.root := some (c.drawBits 256).2 })
       ∧ (s.lcKeys = false ∨ s.fold.root ≠ none → exec .foldRootDraw s = .next c))
    ∧ (∀ v : Fin 4096,
        (2000 ≤ v.val → v.val ≤ 2200 → exec (.vbatLowExpiry v) s = .next (State.fireLive { s with fold.vbat := v } 305 0))
        ∧ (v.val < 2000 ∨ 2200 < v.val → exec (.vbatLowExpiry v) s = .next { s with fold.vbat := v }))
    ∧ exec .trngHealthFail s = .next
        ((State.bump { s with fold.trngOk := false, fold.spoiled := s.fold.spoiled || !s.fold.engine.isEmpty } 0x0E00A 3).fireLive 307 0)
    ∧ (∀ (u : State) (n k : Nat), (u.workRuns = true → u.fireLive n k = u.fire n k) ∧ (u.workRuns = false → u.fireLive n k = u))
    ∧ exec .trngHealthRecover s = .next { s with fold.trngOk := true }

/-- Update and profiles (R556 to R571). -/
def Obligations.UpdateCommands : Prop :=
  ∀ s : State,
    (∀ frame : List Word,
      let w := frame.map BitVec.toNat
      let d := (w.drop 1).take 512
      let i := fld (w.getD 0 0) 9 0
      let open_ := s.upd.state = .empty ∨ s.upd.state = .receiving
      let store : State := { s.bump 0x0F009 0 with upd.blocks := Tab.set [] s.upd.blocks i d }
      let refused : State := { s.bump 0x0F009 1 with upd.cause := s.frameCause w }
      (frame.length ≠ 515 → exec (.updateBlock frame) s = .next (s.abort 0x0F001 aBadLength))
      ∧ (frame.length = 515 → ¬ open_ → exec (.updateBlock frame) s = .next (s.abort 0x0F001 aBadState))
      ∧ (frame.length = 515 → open_ → s.frameCause w ≠ 0 → i = 0 →
          exec (.updateBlock frame) s = .next (((refused.bump 0x0F009 3).fire 320 0).abort 0x0F001 aBadValue))
      ∧ (frame.length = 515 → open_ → s.frameCause w ≠ 0 → i ≠ 0 → exec (.updateBlock frame) s = .next (refused.abort 0x0F001 aBadValue))
      ∧ (frame.length = 515 → s.frameCause w = 0 →
          (s.upd.state = .empty → i = 0 → exec (.updateBlock frame) s = .next { store with upd.state := .receiving })
          ∧ (s.upd.state = .empty → i ≠ 0 → exec (.updateBlock frame) s = .next (s.abort 0x0F001 aBadState))
          ∧ (s.upd.state = .receiving → i ≠ 0 → exec (.updateBlock frame) s = .next store)
          ∧ (s.upd.state = .receiving → i = 0 → d = s.stagedHeader → exec (.updateBlock frame) s = .next (s.bump 0x0F009 2))
          ∧ (s.upd.state = .receiving → i = 0 → d ≠ s.stagedHeader → exec (.updateBlock frame) s = .next (s.abort 0x0F001 aBadState))))
    ∧ (let staged := s.upd.state = .receiving ∨ s.upd.state = .verified ∨ s.upd.state = .refused
       (staged → exec .updateDiscard s = .next { s with upd.state := .empty, upd.blocks := [], upd.deferred := false })
       ∧ (¬ staged → exec .updateDiscard s = .next (s.abort 0x0F003 aBadState)))
    ∧ (let whole := s.upd.state = .receiving ∧ s.upd.blocks.length = s.stagedBlocks
       (s.dict.shepherds = true → whole → exec .updateCheck s = .next { s with upd.state := .checking })
       ∧ (s.dict.shepherds = true → ¬ whole → exec .updateCheck s = .next (s.abort 0x0F003 aBadState))
       ∧ (s.dict.shepherds = false → exec .updateCheck s = .next s))
    ∧ (let good := s.fold.standing = 0 ∧ s.fold.trngOk = true ∧ imageSigned s.upd.blocks = true
       (s.upd.state ≠ .checking → exec .updateCheckDone s = .next s)
       ∧ (s.upd.state = .checking → good →
          exec .updateCheckDone s = .next (State.checkAnswer { s.bump 0x0E00A 0 with upd.state := .verified } 0))
       ∧ (s.upd.state = .checking → ¬ good → exec .updateCheckDone s = .next
          ((State.fire { ((s.bump 0x0E00A 1).fire 306 0 0).bump 0x0F009 4 with upd.state := .refused, upd.cause := 63 } 320 0).checkAnswer aRefused)))
    ∧ (let at_ := timeUnits (s.cfg 0x0F004)
       (s.upd.state = .verified → exec .schedule s = .next { s with
          upd.state := .scheduled, upd.deferred := false, upd.actAt := at_, upd.actId := s.cfg 0x0F005
          upd.actNow := at_ == 0 || decide (at_ ≤ s.now)
          upd.actWait := if s.tableRuns then (if s.tide.off = 0 then 2 else 3) else 0 })
       ∧ (s.upd.state ≠ .verified → exec .schedule s = .next (s.abort 0x0F003 aBadState)))
    ∧ (∀ id,
        (s.upd.state = .scheduled → id = s.upd.actId →
          exec (.unschedule id) s = .next { s with upd.state := .verified, upd.deferred := false })
        ∧ (s.upd.state = .scheduled → id ≠ s.upd.actId → exec (.unschedule id) s = .next (s.abort 0x0F003 aBadValue))
        ∧ (s.upd.state ≠ .scheduled → exec (.unschedule id) s = .next (s.abort 0x0F003 aBadState)))
    ∧ (∀ n : Fin 4,
        let loads := s.upd.busy = none ∧ (s.profile n).state = 1 ∧ s.table.stage = .empty ∧ (s.power.state ≠ .full ∨ s.sameRws n = true)
        let stores (h : Half) := s.upd.busy = none ∧ h.cLength ≤ 393216
        let kept (h : Half) : State :=
          { s with upd.busy := some (n.val, { state := 1, pformat := s.upd.pformat, container := h.container, imageId := h.imageId }) }
        let bad := s.abort 0x0F012 aBadState
        (loads → exec (.profileSelect n) s = .next { s.loadProfile n with upd.selecting := some n.val })
        ∧ (¬ loads → exec (.profileSelect n) s = .next bad)
        ∧ (stores s.activeHalf → s.table.valid = true → exec (.profileStore n) s = .next (kept s.activeHalf))
        ∧ (¬ stores s.activeHalf ∨ s.table.valid = false → exec (.profileStore n) s = .next bad)
        ∧ (stores s.stagingHalf → s.table.stage = .admitted → exec (.storeStaging n) s = .next (kept s.stagingHalf))
        ∧ (¬ stores s.stagingHalf ∨ s.table.stage ≠ .admitted → exec (.storeStaging n) s = .next bad)
        ∧ (s.upd.busy = none → n.val ≠ s.upd.selected → exec (.profileErase n) s = .next { s with upd.busy := some (n.val, Profile.none) })
        ∧ (s.upd.busy ≠ none ∨ n.val = s.upd.selected → exec (.profileErase n) s = .next bad))
    ∧ (s.upd.busy = none → exec .profileCommandDone s = .next s)
    ∧ (∀ n x, s.upd.busy = some (n, x) →
        let t : State := { s.setProfile n x with upd.busy := none }
        (x.state = 1 → exec .profileCommandDone s = .next (t.copyForce n .prof))
        ∧ (x.state ≠ 1 → exec .profileCommandDone s = .next (t.clearCopy n)))

/-- The gates (R577 to R591). -/
def Obligations.GateStates : Prop :=
  ∀ (s : State) (g : Fin 16),
    let x := s.gateAt g
    let set (y : Gate) : State := s.setGate g y
    let with_ (m : GateSample) : Gate := { x with vin := m.vin, vout := m.vout, i := m.i, t := m.t }
    let bad := s.abort 0x10009 aBadState
    (∀ m : GateSample,
      (x.state = .empty → exec (.gateSeated g m) s = .next
          (((set { with_ m with state := .seating, seatA := true, seatB := true }).bump 0x1000A (4 * g + 0)).fireLive 336 g))
      ∧ (x.state = .disabled → exec (.gateSeated g m) s = .next s)
      ∧ (x.state ≠ .empty → x.state ≠ .disabled → exec (.gateSeated g m) s = .next (set { x with seatA := true, seatB := true })))
    ∧ exec (.gateUnseated g true true) s = .next s
    ∧ (∀ a b : Bool, ¬ (a = true ∧ b = true) →
        let y : Gate := { x with seatA := a, seatB := b }
        (x.running = true → exec (.gateUnseated g a b) s = .next
            ((set { y with state := .empty, cause := 2, banksOn := false, tries := 0 }).fireLive 336 g))
        ∧ (x.state = .seating → exec (.gateUnseated g a b) s = .next (set { y with state := .empty }))
        ∧ (x.state = .ready ∨ x.state = .cooldown ∨ x.state = .lockout → exec (.gateUnseated g a b) s = .next (set { y with state := .empty, tries := 0 }))
        ∧ (x.state = .empty ∨ x.state = .damaged → exec (.gateUnseated g a b) s = .next (set y))
        ∧ (x.state = .disabled → exec (.gateUnseated g a b) s = .next s))
    ∧ (x.state = .seating → exec (.seatDebounceExpiry g) s = .next (set { x with state := .ready, req := bit (s.cfg 0x10000 g) 32 }))
    ∧ (x.state ≠ .seating → exec (.seatDebounceExpiry g) s = .next s)
    ∧ (∀ m : GateSample,
        let starts := x.state = .ready ∧ x.seatA = true ∧ x.seatB = true ∧ x.req = true ∧ s.inWindow g m.vin = true
          ∧ m.t.val + 20 < fld (s.cfg 0x10004 g) 17 9 + 64 ∧ s.classSafe 21 g = false ∧ s.workRuns = true
        (starts → exec (.gateStart g m) s = .next (set { with_ m with state := .precharge }))
        ∧ (¬ starts → exec (.gateStart g m) s = .next s)
        ∧ (let charged := x.state = .precharge ∧ fld (s.cfg 0x10002 g) 27 21 * m.vin.val ≤ 100 * m.vout.val
           (charged → exec (.prechargeDone g m) s = .next (set { with_ m with state := .turnOn }))
           ∧ (¬ charged → exec (.prechargeDone g m) s = .next s))
        ∧ (let on := x.state = .turnOn ∧ m.vin.val ≤ m.vout.val + fld (s.cfg 0x10002 g) 12 8
           (on → exec (.turnOnDone g m) s = .next (set { with_ m with state := .settle }))
           ∧ (¬ on → exec (.turnOnDone g m) s = .next s))
        ∧ (let out := x.running = true ∧ s.inWindow g m.vin = false
           (out → exec (.railWindowExit g m) s = .next (set { with_ m with state := .ready, cause := 8, banksOn := false }))
           ∧ (¬ out → exec (.railWindowExit g m) s = .next s))
        ∧ (let cool := m.t.val + 20 < fld (s.cfg 0x10004 g) 17 9 + 64
           (x.state = .cooldown → cool → exec (.cooldownExpiry g m) s = .next (set { with_ m with offDone := true, state := .ready }))
           ∧ (x.state = .cooldown → ¬ cool → exec (.cooldownExpiry g m) s = .next (set { with_ m with offDone := true }))
           ∧ (x.state ≠ .cooldown → exec (.cooldownExpiry g m) s = .next s)
           ∧ (x.state = .cooldown → x.offDone = true → cool → exec (.fetCooled g m) s = .next (set { with_ m with state := .ready }))
           ∧ (x.state ≠ .cooldown ∨ x.offDone = false ∨ ¬ cool → exec (.fetCooled g m) s = .next s))
        ∧ (let slow := x.running = true ∧ fld (s.cfg 0x10001 g) 35 22 ≤ m.i.val
           (slow → exec (.slowCurrentTrip g m) s = .next ((set (with_ m)).gateTrip g 3))
           ∧ (¬ slow → exec (.slowCurrentTrip g m) s = .next s))
        ∧ (let hot := x.running = true ∧ fld (s.cfg 0x10004 g) 17 9 + 64 ≤ m.t.val
           (hot → exec (.fetHotTrip g m) s = .next ((set (with_ m)).gateTrip g 7))
           ∧ (¬ hot → exec (.fetHotTrip g m) s = .next s))
        ∧ (let damage := x.state ≠ .disabled ∧ x.state ≠ .damaged ∧ x.running = false
             ∧ fld (s.cfg 0x10006 g) 9 3 * m.vin.val ≤ 100 * m.vout.val
           (damage → exec (.gateDamageDetected g m) s = .next (State.fireLive
              { set { with_ m with state := .damaged, cause := 11, banksOn := false } with gate.latch := s.gate.latch ||| 2 ^ g.val } 340 g))
           ∧ (¬ damage → exec (.gateDamageDetected g m) s = .next s)))
    ∧ (x.state = .settle → exec (.pgoodDelayExpiry g) s = .next (set { x with state := .on }))
    ∧ (x.state ≠ .settle → exec (.pgoodDelayExpiry g) s = .next s)
    ∧ (x.state = .precharge → exec (.preTimeExpiry g) s = .next (s.gateTrip g 5))
    ∧ (x.state ≠ .precharge → exec (.preTimeExpiry g) s = .next s)
    ∧ (x.state = .turnOn → exec (.mainTimeExpiry g) s = .next (s.gateTrip g 6))
    ∧ (x.state ≠ .turnOn → exec (.mainTimeExpiry g) s = .next s)
    ∧ (x.running = true → exec (.fastCurrentTrip g) s = .next (s.gateTrip g 4))
    ∧ (x.running = false → exec (.fastCurrentTrip g) s = .next s)
    ∧ (x.state = .on → exec (.retryResetExpiry g) s = .next (set { x with tries := 0 }))
    ∧ (x.state ≠ .on → exec (.retryResetExpiry g) s = .next s)
    ∧ (∀ cause : Nat,
        let tries := min (x.tries + 1) 255
        let trip (st : GState) : State := (set { x with state := st, cause := cause, banksOn := false, tries := tries, offDone := false }).bump 0x1000A (4 * g + 1)
        let fast (u : State) : State := if cause = 4 then u.bump 0x1000A (4 * g + 3) else u
        let source := if cause = 7 then 338 else 337
        (tries ≤ fld (s.cfg 0x10005 g) 25 18 → s.gateTrip g cause = (fast (trip .cooldown)).fireLive source g)
        ∧ (fld (s.cfg 0x10005 g) 25 18 < tries →
            s.gateTrip g cause = (((fast (trip .lockout)).fireLive source g).bump 0x1000A (4 * g + 2)).fireLive 339 g))
    ∧ (x.state = .ready → exec (.gateOn g) s = .next (set { x with req := true }))
    ∧ (x.state ≠ .ready → exec (.gateOn g) s = .next bad)
    ∧ (x.running = true → exec (.gateOff g) s = .next (set { x with state := .ready, cause := 1, banksOn := false, req := false }))
    ∧ (x.state = .ready ∨ x.state = .cooldown → exec (.gateOff g) s = .next (set { x with state := .ready, req := false }))
    ∧ (x.running = false → x.state ≠ .ready → x.state ≠ .cooldown → exec (.gateOff g) s = .next bad)
    ∧ (x.state = .lockout → exec (.gateReset g) s = .next (set { x with state := .ready, tries := 0, req := bit (s.cfg 0x10000 g) 32 }))
    ∧ (x.state ≠ .lockout → exec (.gateReset g) s = .next bad)
    ∧ (x.state = .damaged → ∃ latch, exec (.clearDamaged g true) s = .next { set { x with state := .empty } with gate.latch := latch }
        ∧ ∀ k < 16, latch.testBit k = (s.gate.latch.testBit k && k != g.val))
    ∧ (x.state ≠ .damaged → exec (.clearDamaged g true) s = .next bad)
    ∧ exec (.clearDamaged g false) s = .next bad
    ∧ (∀ (y : Gate) (k : Fin 16), y ≠ Gate.blank → k ≠ g → (set y).gateAt k = s.gateAt k)

/-- POWER_CMD and the supplies (R592 to R604). That a supply leaving UP is a breach of R594 or R595 is a command of its own, and the reading of a request that waits is the turn's. -/
def Obligations.PowerCommandsAndSupplies : Prop :=
  ∀ s : State,
    let bad := s.abort 0x01002 aBadState
    let st := s.power.state
    let safe : Prop := 3 ≤ s.level 369
    let reset (u : State) (source : Nat) : State :=
      { u with tide.runs := false, tide.flights := [], power.inReset := true, power.source := source, power.request := 0,
               power.previous := if u.power.inReset then u.power.previous else u.power.state, power.state := .light }
    let warm (u : State) (source : Nat) : State := reset u.holdEntry.abortCheck source
    let free (u : State) : State := { u with pin.hold := false, pin.held := [] }
    (s.workRuns = false → exec .powerLight s = .next s ∧ exec .powerFull s = .next s ∧ exec .powerKeep s = .next s
        ∧ exec .powerDeepKeep s = .next s ∧ exec .powerWarm s = .next s ∧ exec .powerCold s = .next s)
    ∧ (s.workRuns = true → st = .full → exec .powerLight s = .next { s with power.request := 1 })
    ∧ (s.workRuns = true → st ≠ .full → exec .powerLight s = .next bad)
    ∧ (s.workRuns = true → st = .light → s.upd.good = true → s.fold.lifecycle ≠ 4 → exec .powerFull s = .next
        ((List.range 5).foldl (fun u l => if bit (u.cfg 0x08000 l) 35 then u.linkEnable l (u.cfg 0x08000 l) else u)
          { s with power.previous := .light, power.state := .full, sw.configured := (List.range 49).filter fun p => bit (s.cfg 0x07000 p) 35 }))
    ∧ (s.workRuns = true → st ≠ .light ∨ s.upd.good = false ∨ s.fold.lifecycle = 4 → exec .powerFull s = .next bad)
    ∧ (s.workRuns = true → st = .full → ¬ safe → exec .powerKeep s = .next { s with power.request := 3 } ∧ exec .powerDeepKeep s = .next { s with power.request := 4 })
    ∧ (s.workRuns = true → st ≠ .full ∨ safe → exec .powerKeep s = .next bad ∧ exec .powerDeepKeep s = .next bad)
    ∧ (s.workRuns = true → exec .powerWarm s = .next (warm s 5) ∧ exec .powerCold s = .next (free (reset s.abortCheck 4)))
    ∧ (s.table.stage ≠ .checking → s.abortCheck = s)
    ∧ (∀ (n : Fin 9) (now : Fin 4) (mv : Fin 4096),
        let read : State := { s with power.supplies := s.power.supplies.set n (now.val, mv.val) }
        let runs := st = .keep ∨ st = .light ∨ st = .full
        let leaves := (s.power.supplies.getD n (0, 0)).1 = 0 ∧ now.val ≠ 0
        (n.val = 0 → now.val = 0 ∨ st = .dark → exec (.supplyStateChange n now mv) s = .next read)
        ∧ (n.val = 0 → now.val ≠ 0 → st ≠ .dark → ∃ t, exec (.supplyStateChange n now mv) s = .next t
            ∧ t.power = { read.abortCheck.power with previous := st, state := .dark, inReset := false, request := 0, source := 0, breach := false, order := 0 }
            ∧ t.pin = { read.abortCheck.pin with hold := false, held := [] } ∧ t.tide = { read.abortCheck.tide with runs := false, flights := [] })
        ∧ (n.val ≠ 0 → leaves → ¬ runs → exec (.supplyStateChange n now mv) s = .next read)
        ∧ (n.val ≠ 0 → n.val ≠ 8 → ¬ leaves → exec (.supplyStateChange n now mv) s = .next read)
        ∧ (n.val = 8 → ¬ leaves → exec (.supplyStateChange n now mv) s = .next
            (if now.val = 0 ∧ (s.power.supplies.getD 8 (0, 0)).1 ≠ 0 ∧ st = .full
              then { read with sw.configured := s.sw.configured ++ (((List.range 32).map (· + 16)).filter fun p => bit (s.cfg 0x07000 p) 35) } else read))
        ∧ (leaves → runs →
            (n.val = 1 → exec (.supplyStateChange n now mv) s = .next (warm (read.fire 352 1) 10))
            ∧ (n.val = 2 → exec (.supplyStateChange n now mv) s = .next (warm (read.fire 352 2) 9))
            ∧ (n.val = 3 ∨ n.val = 4 → exec (.supplyStateChange n now mv) s = .next (read.fire 352 n).serLost)
            ∧ (n.val = 5 ∨ n.val = 6 → exec (.supplyStateChange n now mv) s = .next (read.fire 352 n))
            ∧ (n.val = 7 → exec (.supplyStateChange n now mv) s = .next
                (let u := read.fire 352 7
                 warm { u with power.workLock := false, power.losses := min (u.power.losses + 1) 32767 } 11))
            ∧ (n.val = 8 → exec (.supplyStateChange n now mv) s = .next (read.fire 352 8).t1lLost)))
    ∧ (∀ (kind : Fin 4) (n : Fin 64),
        let exists_ := kind.val ≠ 0 ∧ (n.val < 9 ∨ 16 ≤ n.val ∧ n.val < 48) ∧ (st ≠ .dark ∨ kind.val = 3)
        (¬ exists_ → exec (.powerOrderBreach kind n) s = .next s)
        ∧ (exists_ → ∃ t, exec (.powerOrderBreach kind n) s = .next t
            ∧ (let u := State.abortCheck { s with power.order := if s.power.breach then s.power.order else 65536 * kind.val + 1024 * n.val }
               t.power = { u.power with breach := true, inReset := true, source := 8, request := 0,
                                        previous := if u.power.inReset then u.power.previous else u.power.state, state := .light }
               ∧ t.pin = { u.pin with hold := false, held := [] } ∧ t.tide = { u.tide with runs := false, flights := [] }
               ∧ t.gate = u.gatesPower.gate)))
    ∧ (∀ (u : State) (g : Nat), (u.gateAt g).running = false → u.gateDown g 10 = u)
    ∧ (∀ (u : State) (g : Nat), (u.gateAt g).running = true →
        u.gateDown g 10 = u.setGate g { u.gateAt g with state := .ready, cause := 10, banksOn := false })
    ∧ s.gatesPower = (List.range 16).foldl (fun u g => u.gateDown g 10) s
    ∧ (s.workRuns = true → exec .shoreXtalFail s = .next (State.fire { s with power.xtalOk := false } 369 0))
    ∧ (s.workRuns = false → exec .shoreXtalFail s = .next { s with power.xtalOk := false })
    ∧ (∀ ref : Bool,
        (s.workRuns = true → exec (.workPllLoss ref) s = .next
          (warm { s with power.workLock := false, power.refOk := s.power.refOk && !ref, power.losses := min (s.power.losses + 1) 32767 } 11))
        ∧ (s.workRuns = false → exec (.workPllLoss ref) s = .next s))
    ∧ (st = .dark → exec .vddShoreUp s = .next
        { s with power.previous := .dark, power.state := .deepKeep, power.source := 1,
                 power.supplies := s.power.supplies.set 0 (0, (s.power.supplies.getD 0 (0, 0)).2) })
    ∧ (st ≠ .dark → exec .vddShoreUp s = .next s)

/-- Starts, sleep and heat (R600 to R613). A source that waits has the number of R610, 0 where none does. -/
def Obligations.PowerStarts : Prop :=
  ∀ (s : State) (straps : Fin 64) (bad : Fin 16),
    let st := s.power.state
    let may := (∀ n < 9, (s.power.supplies.getD n (0, 0)).1 = 0) ∧ bit s.power.thresholds 2 = false ∧ st ≠ .dark
    let mayWarm := may ∧ s.power.breach = false ∧ (st = .light ∨ st = .full ∨ st = .keep)
    let cold (v : Nat) : Prop := v = 1 ∨ v = 2 ∨ v = 4 ∨ v = 7 ∨ v = 8 ∨ v = 10
    let warm (v : Nat) : Prop := v = 3 ∨ v = 5 ∨ v = 6 ∨ v = 9 ∨ v = 11
    let w := s.power.source
    let log (cause source order : Nat) : Nat := cause % 8 * 2 ^ 33 + source % 64 * 2 ^ 27 + order % 2 ^ 18 * 2 ^ 9
    let max_ := if Config.isX then 125 + 64 else 115 + 64
    let reads (tj : Fin 512) : State := { s with power.junction := tj, power.peak := max s.power.peak tj }
    let sleeps (u : State) (p : PState) : State := { u with power.previous := u.power.state, power.state := p, power.request := 0, tide.runs := false, tide.flights := [] }
    let e := s.tideEnds
    let wakes := (e.muster.wakeActive = true ∨ e.muster.vetoed = true ∧ e.ebbTest = false) ∧ bit e.power.thresholds 2 = false
    (st = .dark → exec .resetNAsserted s = .next s)
    ∧ (st ≠ .dark → exec .resetNAsserted s = .next { s with power.resetLow := true })
    ∧ (st = .dark → exec (.resetNRelease straps bad) s = .next s)
    ∧ (may → s.power.breach = false → exec (.resetNRelease straps bad) s = .next ((s.coldStartAs straps 2).untrained bad))
    ∧ (st = .deepKeep → ¬ may → s.power.breach = false → exec (.resetNRelease straps bad) s = .next { s with power.resetLow := false, power.source := 2 })
    ∧ (st ≠ .dark → st ≠ .deepKeep → ¬ may → s.power.breach = false →
        let u := s.abortCheck
        exec (.resetNRelease straps bad) s = .next { u with
          tide.runs := false, tide.flights := [], pin.hold := false, pin.held := [], power.inReset := true, power.source := 2, power.request := 0,
          power.previous := if u.power.inReset then u.power.previous else u.power.state, power.state := .light, power.resetLow := false })
    ∧ (st ≠ .dark → s.power.breach = true → exec (.resetNRelease straps bad) s = .next { s with power.resetLow := false })
    ∧ (mayWarm → s.power.resetLow = false → s.power.inReset = false → exec (.warmNRelease straps bad) s = .next ((s.warmStartAs straps 3).untrained bad))
    ∧ (¬ mayWarm ∨ s.power.resetLow = true ∨ s.power.inReset = true → exec (.warmNRelease straps bad) s = .next s)
    ∧ (may → w = 0 → exec (.coldStart straps bad) s = .next ((s.coldStartAs straps 1).untrained bad))
    ∧ (may → cold w → exec (.coldStart straps bad) s = .next ((s.coldStartAs straps w).untrained bad))
    ∧ (¬ may ∨ w ≠ 0 ∧ ¬ cold w → exec (.coldStart straps bad) s = .next s)
    ∧ (mayWarm → w = 0 → exec (.warmRestart straps bad) s = .next ((s.warmStartAs straps 5).untrained bad))
    ∧ (mayWarm → warm w → exec (.warmRestart straps bad) s = .next ((s.warmStartAs straps w).untrained bad))
    ∧ (¬ mayWarm ∨ w ≠ 0 ∧ ¬ warm w → exec (.warmRestart straps bad) s = .next s)
    ∧ (st = .deepKeep → may → cold w → exec (.deepKeepExit straps bad) s = .next ((s.coldStartAs straps w).untrained bad))
    ∧ (st = .deepKeep → may → ¬ cold w → exec (.deepKeepExit straps bad) s = .next ((s.deepExit straps (if w = 12 then 12 else 14)).untrained bad))
    ∧ (st ≠ .deepKeep ∨ ¬ may → exec (.deepKeepExit straps bad) s = .next s)
    ∧ (∀ source, s.coldStartAs straps source = (s.coldBase straps).coldFrom s straps 1 source
        ∧ s.deepExit straps source = (({ (s.wakeMarker.coldBase straps).keepRecord s.wakeMarker with
            trace.tail := s.wakeMarker.trace.tail, muster.state := .solo, time.afterFlood := true } : State).coldFrom s.wakeMarker straps 4 source).timeFlooded
        ∧ s.warmStartAs straps source = ((s.holdEntry.abortCheck.errWarm.warmBase straps).warmFrom s.holdEntry.abortCheck.errWarm straps source).timeFlooded)
    ∧ (let grown := s.time.errBase + (s.time.errPpb * (s.bell.tick - s.time.errTick) + 99) / 100
       let u := (State.fire (State.bump { s with time.state := .holdover, time.errBase := s.errNow, time.errPpb := s.holdPpb, time.errTick := s.bell.tick }
         0x09016 6) 224 0).fire 225 0
       (s.time.state = .unset ∨ s.time.state = .holdover →
         s.timeFlooded = { s with time.errBase := grown, time.errPpb := s.holdPpb, time.errTick := s.bell.tick })
       ∧ (s.time.state = .free ∨ s.time.state = .locked →
         s.timeFlooded = { u with time.errBase := grown, time.errPpb := u.holdPpb, time.errTick := u.bell.tick })
       ∧ (st = .keep → s.errKept = s ∧ s.errWarm = s)
       ∧ (st ≠ .keep → s.errKept = { s with time.errBase := s.errNow, time.errPpb := 50000, time.errTick := s.bell.tick })
       ∧ (st ≠ .keep → s.errWarm = { s with time.errBase := s.errNow, time.errPpb := s.holdPpb, time.errTick := s.bell.tick }))
    ∧ (let b := s.coldBase straps
       b.fold = s.fold ∧ b.gate = s.gate ∧ b.tally.mram = s.tally.mram ∧ b.dict.kept = s.dict.kept ∧ b.dict.keptBlobs = s.dict.keptBlobs
       ∧ b.dict.straps = straps ∧ b.dict.sessions = [] ∧ b.table = TableSt.reset ∧ b.image = ImageSt.reset ∧ b.drv = State.reset.drv
       ∧ b.muster = MusterSt.reset ∧ b.time = TimeSt.reset ∧ b.trace = State.reset.trace ∧ b.forces = [] ∧ b.bell.fatal = false
       ∧ b.power.state = .light ∧ b.power.inReset = false ∧ b.power.source = 0 ∧ b.pin.hold = false)
    ∧ (let b := s.warmBase straps
       b.fold = s.fold ∧ b.gate = s.gate ∧ b.tally.mram = s.tally.mram ∧ b.dict.kept = s.dict.kept ∧ b.dict.straps = straps ∧ b.dict.sessions = []
       ∧ b.image.pasture = s.image.pasture ∧ b.image.upland = s.image.upland ∧ b.drv = s.drv.warm
       ∧ b.table = { s.table with stage := if s.table.stage = .committed then .armed else s.table.stage, armedAt := 0, armUnits := 0 }
       ∧ b.muster.record = s.muster.record ∧ b.muster.roster = s.muster.roster ∧ b.time.gridP = s.time.gridP ∧ b.time.anchorF = s.time.anchorF
       ∧ b.trace.tail = s.trace.tail ∧ b.forces = [] ∧ b.bell.fatal = false ∧ (∀ p ∈ b.bell.srcs, p.2.latch = false)
       ∧ b.power.state = .light ∧ b.power.inReset = false ∧ b.power.source = 0 ∧ b.pin.hold = s.pin.hold ∧ b.pin.held = s.pin.held)
    ∧ (let b := (s.coldBase straps).keepRecord s
       b.muster.record = s.muster.record ∧ b.muster.epoch = s.muster.epoch ∧ b.muster.roster = s.muster.roster
       ∧ b.time.gridP = s.time.gridP ∧ b.time.anchorF = s.time.anchorF ∧ b.time.anchorT = s.time.anchorT ∧ b.time.state = s.time.state ∧ b.table = TableSt.reset ∧ b.image = ImageSt.reset)
    ∧ (∀ (u : State) (c : Nat), u.untrained 0 = u ∧ (c < 4 → u.untrained (2 ^ c) = u.loseChannel c 1))
    ∧ (∀ cause source, (s.startLogs cause source).power = { s.power with startLog := log cause source s.power.order })
    ∧ (s.upd.good = true → s.fold.lifecycle ≠ 4 → bit (s.cfg 0x01001) 35 = true → s.endStart = s.enterFull)
    ∧ (s.upd.good = false ∨ s.fold.lifecycle = 4 ∨ bit (s.cfg 0x01001) 35 = false → s.endStart = s)
    ∧ (st = .keep → s.muster.state = .listen → may → exec (.floodFromKeep bad) s = .next
        ((((s.wakeMarker.floodBase.startLogs 3 13).foldLatched).startUnits).enterFull.timeFlooded.untrained bad))
    ∧ (st ≠ .keep ∨ s.muster.state ≠ .listen ∨ ¬ may → exec (.floodFromKeep bad) s = .next s)
    ∧ (s.muster.state = .ebbPending → 3 ≤ e.level 369 → exec .ebbAtReached s = .next
        (e.ebbedNow.errKept.wakeNow e.muster.wakeCause e.muster.wakeLink).timeFlooded)
    ∧ (s.muster.state = .ebbPending → e.level 369 < 3 →
        let asleep := if bit (e.cfg 0x01100) 34 then e.deepEntry
          else sleeps ((e.flushRepeat.sleepMarker 0).holdEntry.abortCheck.ebbedNow.linksDark.errKept) .keep
        (¬ wakes → exec .ebbAtReached s = .next asleep) ∧ (wakes → exec .ebbAtReached s = .next (asleep.wakeNow 1 0)))
    ∧ (s.muster.state ≠ .ebbPending → exec .ebbAtReached s = .next s)
    ∧ s.deepEntry = { sleeps ((s.flushRepeat.sleepMarker 1).abortCheck.ebbedNow.linksDark.gatesPower.errKept) .deepKeep with
        power.inReset := false, power.source := 0, pin.hold := false, pin.held := [] }
    ∧ (st = .keep → s.muster.state = .ebbed → exec .deepAfterExpiry s = .next
        { s.gatesPower with power.previous := .keep, power.state := .deepKeep, pin.hold := false, pin.held := [] })
    ∧ (st ≠ .keep ∨ s.muster.state ≠ .ebbed → exec .deepAfterExpiry s = .next s)
    ∧ (∀ tj : Fin 512,
        (∀ (k src limit : Nat) (i : Instr), (k = 0 ∧ src = 370 ∧ limit = max_ - 10 ∧ i = .junctionHotThreshold tj) ∨ (k = 1 ∧ src = 371 ∧ limit = max_ ∧ i = .junctionLimitThreshold tj) →
            let noted : State := { reads tj with power.thresholds := s.power.thresholds ||| 2 ^ k }
            (st = .dark ∨ tj.val < limit → exec i s = .next s)
            ∧ (st ≠ .dark → limit ≤ tj.val → bit s.power.thresholds k = true → exec i s = .next (reads tj))
            ∧ (st ≠ .dark → limit ≤ tj.val → bit s.power.thresholds k = false → s.workRuns = true → exec i s = .next (noted.fire src 0))
            ∧ (st ≠ .dark → limit ≤ tj.val → bit s.power.thresholds k = false → s.workRuns = false → exec i s = .next noted))
        ∧ (let tripped : State := { reads tj with power.thresholds := s.power.thresholds ||| 4 }
           (st = .dark ∨ tj.val < max_ + 10 → exec (.thermalTrip tj) s = .next s)
           ∧ (st = .deepKeep → max_ + 10 ≤ tj.val → exec (.thermalTrip tj) s = .next { tripped with power.source := 12 })
           ∧ (st ≠ .dark → st ≠ .deepKeep → max_ + 10 ≤ tj.val → exec (.thermalTrip tj) s = .next { tripped.deepEntry with power.source := 12 }))
        ∧ (∀ k : Fin 3,
            let below := (k.val = 0 → tj.val < max_ - 10) ∧ (k.val = 1 → tj.val < max_) ∧ (k.val = 2 → tj.val ≤ max_ - 20)
            (st = .dark ∨ ¬ below → exec (.junctionThresholdClear k tj) s = .next s)
            ∧ (st ≠ .dark → below → exec (.junctionThresholdClear k tj) s = .next
                { reads tj with power.thresholds := if bit s.power.thresholds k then s.power.thresholds - 2 ^ k.val else s.power.thresholds })))

/-- The values a cold start leaves. That State.reset is the moment right after one, in FULL, is the model's choice (log entry 8). -/
def Obligations.ResetValues : Prop :=
  (∀ (up : Bool) (L : Nat), State.reset.line up L = { w0 := 0x30000, w1 := 0x30000, w2 := 0x30000, w3 := 0x30000, poison := false, code := .good, tag := 0, tagVoid := false, sideBad := false })
    ∧ (∀ e sub : Nat, State.reset.cfg e sub = defaultOf e sub) ∧ State.reset.cfg 0x01001 = 0x800000000
    ∧ State.reset.forces = [] ∧ (∀ n, State.reset.session n = Session.none)
    ∧ (∀ n, State.reset.level n = 0) ∧ (∀ g, (State.reset.gateAt g).state = .disabled)
    ∧ State.reset.table.active = false ∧ State.reset.table.stage = .empty
    ∧ State.reset.muster.state = .solo ∧ State.reset.muster.record = false ∧ State.reset.time.state = .unset ∧ State.reset.pair.state = .off
    ∧ (∀ l < 5, (State.reset.link l).state = .settling) ∧ (∀ p, (State.reset.port p).state = .off)
    ∧ State.reset.power.startLog = 1 * 2 ^ 33 + 1 * 2 ^ 27 + 0 * 2 ^ 9 ∧ (∀ n < 9, State.reset.supplyUp n = true)
    ∧ State.reset.power.state = .full ∧ State.reset.tide.runs = false

/-- R602: "The loss of VDDA acts as R601, with source PLL_LOSS." -/
def Obligations.VddaLossActsAsPllLoss : Prop :=
  (∀ (s : State) (now : Fin 4) (mv : Fin 4096),
    (s.power.state = .keep ∨ s.power.state = .light ∨ s.power.state = .full) → (s.power.supplies.getD 7 (0, 0)).1 = 0 → now.val ≠ 0 →
    let fired := State.fire { s with power.supplies := s.power.supplies.set 7 (now.val, mv.val) } 352 7
    (s.workRuns = true → exec (.supplyStateChange 7 now mv) s = exec (.workPllLoss false) fired)
    ∧ ∃ t, exec (.supplyStateChange 7 now mv) s = .next t ∧ t.power.inReset = true ∧ t.power.source = 11 ∧ t.tide.runs = false)
  ∧ (∀ (s : State) (straps : Fin 64) (bad : Fin 16), s.power.source = 11 → s.mayWarm = true →
      exec (.warmRestart straps bad) s = .next ((s.warmStartAs straps 11).untrained bad))

/-- R203: a pen in OFF. Reads of every kind take their words from penReadN, writes of every kind go to penPush. -/
def Obligations.PenOffReadsAndWrites : Prop :=
  ∀ (p : Fin 4096) (s : State), (s.penAt p).state = .off → (s.penAt p).agrees = true → s.classSafe 5 p = false →
    let idle := s.cfg 0x03101 p
    let held : Word := BitVec.ofNat 18 ((if idle / 65536 % 4 = 3 then 3 else 1) * 65536 + idle % 65536)
    let cut := s.penPacket p = false ∧ (s.penAt p).discard = true
    let counts (u : State) : State := (u.bumpFld 0x03105 p 35 27).fire 81 p
    (∀ n : Nat, (s.penReadN p n).2 = List.replicate n held)
    ∧ (∃ t, exec (.penAccessRead p) s = .next t ∧ t.pen.pool = s.pen.pool
        ∧ t.outbox = { kind := .hostCompletion, unit := p, words := List.replicate 4 held.toNat } :: s.outbox)
    ∧ (∀ ws : List Word, ws ≠ [] →
        (¬ cut → s.penPushLost p ws = (counts s, true) ∧ (counts s).pen = s.pen)
        ∧ (cut → ∃ x : Pen, s.penPushLost p ws = (counts (s.setPen p x), true) ∧ x.rd = (s.penAt p).rd ∧ x.cm = (s.penAt p).cm
            ∧ x.wr = (s.penAt p).wr ∧ x.state = .off ∧ (counts (s.setPen p x)).pen.pool = s.pen.pool))
    ∧ (∀ (w : Word) (ws : List Word) (ends posted : Bool), ¬ cut →
        let u := counts (s.enter 0 [penIn p 0])
        let v := if posted then u else u.emit .abort p [2]
        exec (.penAccessWrite p (w :: ws) ends posted) s = .next (if ends then v.penCommit p else v))
    ∧ fld ((s.bumpFld 0x03105 p 35 27).count 0x03105 p) 35 27 = min (fld (s.count 0x03105 p) 35 27 + 1) 511
end

