-- ==== Sys2Proof/Laws/Fires.lean ====
section
/-! SUPPORT. What a firing leaves as it is, for each operation that a firing is made of. -/

open Sys2Proof Sys2Proof.Machine

namespace Sys2Proof.Laws

/-- What a firing and its safe states leave as they are: everything but Bell, the Tally, trace, counters, what leaves the hub, the interrupt registers, the ledger's note of a SEVERE source, and the units that a safe state stops. -/
structure Fires (s₀ s : State) : Prop where
  pending : s.pending = s₀.pending
  freeAt : s.freeAt = s₀.freeAt
  tide : s.tide = s₀.tide
  table : s.table = s₀.table
  image : s.image = s₀.image
  pen : s.pen = s₀.pen
  sw : s.sw = s₀.sw
  muster : s.muster = s₀.muster
  time : s.time = s₀.time
  upd : s.upd = s₀.upd
  power : s.power = s₀.power
  fold : s.fold = s₀.fold
  svc : s.svc = s₀.svc
  dict_settings : s.dict.settings = s₀.dict.settings
  dict_sessions : s.dict.sessions = s₀.dict.sessions
  dict_blobs : s.dict.blobs = s₀.dict.blobs

theorem Fires.refl (s : State) : Fires s s := ⟨rfl, rfl, rfl, rfl, rfl, rfl, rfl, rfl, rfl, rfl, rfl, rfl, rfl, rfl, rfl, rfl⟩

theorem Fires.trans {a b c : State} (h : Fires a b) (g : Fires b c) : Fires a c :=
  ⟨g.1.trans h.1, g.2.trans h.2, g.3.trans h.3, g.4.trans h.4, g.5.trans h.5, g.6.trans h.6, g.7.trans h.7, g.8.trans h.8, g.9.trans h.9, g.10.trans h.10, g.11.trans h.11, g.12.trans h.12, g.13.trans h.13, g.14.trans h.14, g.15.trans h.15, g.16.trans h.16⟩

/-- A record update that leaves what is kept. -/
theorem Fires.of_eq {s₀ s : State} {a0 a1 a2 a3 a4 a5 a6 a7 a8 a9 a10 a11 a12 a13 a14 a15 a16 a17 a18 a19 a20 a21 a22 a23 a24 a25 a26}
    (h0 : a0 = s.pending) (h1 : a2 = s.freeAt) (h2 : a3 = s.tide) (h3 : a4 = s.table) (h4 : a6 = s.image) (h5 : a7 = s.pen) (h6 : a11 = s.sw) (h7 : a13 = s.muster) (h8 : a14 = s.time) (h9 : a16 = s.upd) (h10 : a18 = s.power) (h11 : a19 = s.fold) (h12 : a23 = s.svc) (h13 : a20.settings = s.dict.settings) (h14 : a20.sessions = s.dict.sessions) (h15 : a20.blobs = s.dict.blobs)
    (H : Fires s₀ s) : Fires s₀ (State.mk a0 a1 a2 a3 a4 a5 a6 a7 a8 a9 a10 a11 a12 a13 a14 a15 a16 a17 a18 a19 a20 a21 a22 a23 a24 a25 a26) :=
  H.trans ⟨h0, h1, h2, h3, h4, h5, h6, h7, h8, h9, h10, h11, h12, h13, h14, h15⟩

theorem Fires.ite {s₀ : State} {c : Prop} [Decidable c] {a b : State} (ha : Fires s₀ a) (hb : Fires s₀ b) :
    Fires s₀ (if c then a else b) := by split <;> assumption

theorem Fires.over {s₀ : State} {α : Type} {f : State → α → State} {s : State} {l : List α}
    (hf : ∀ s x, Fires s₀ s → Fires s₀ (f s x)) (h : Fires s₀ s) : Fires s₀ (l.foldl f s) := by
  induction l generalizing s with
  | nil => exact h
  | cons a l ih => exact ih (hf _ _ h)

theorem Fires.cut {s₀ : State} {a b : State} (h : Fires s₀ a) (H : Fires s₀ a → Fires s₀ b) : Fires s₀ b := H h

theorem Fires.pairs {s₀ : State} {α β : Type} {f : State × β → α → State × β} {p : State × β} {l : List α}
    (hf : ∀ p x, Fires s₀ p.1 → Fires s₀ (f p x).1) (h : Fires s₀ p.1) : Fires s₀ (l.foldl f p).1 := by
  induction l generalizing p with
  | nil => exact h
  | cons a l ih => exact ih (hf _ _ h)

theorem Fires.ofEq {s₀ : State} {β : Type} {p : State × β} {a : State} {b : β} (e : p = (a, b)) (h : Fires s₀ p.1) : Fires s₀ a := by
  subst e; exact h

theorem Fires.have_ {P Q : Prop} (h : P) (H : P → Q) : Q := H h

/-- What an answer that may be absent keeps. -/
def FiresO (s₀ : State) (o : Option State) : Prop := ∀ t, o = some t → Fires s₀ t

def FiresQ {β : Type} (s₀ : State) (o : Option (State × β)) : Prop := ∀ p, o = some p → Fires s₀ p.1

theorem FiresO.none {s₀ : State} : FiresO s₀ none := fun _ h => nomatch h

theorem FiresO.some {s₀ : State} {s : State} (h : Fires s₀ s) : FiresO s₀ (some s) := fun _ e => Option.some.inj e ▸ h

theorem FiresO.ite {s₀ : State} {c : Prop} [Decidable c] {a b : Option State} (ha : FiresO s₀ a) (hb : FiresO s₀ b) :
    FiresO s₀ (if c then a else b) := by split <;> assumption

theorem FiresO.elim {s₀ : State} {o : Option State} {t : State} (e : o = Option.some t) (h : FiresO s₀ o) : Fires s₀ t := h t e

theorem FiresQ.none {s₀ : State} {β : Type} : FiresQ (β := β) s₀ none := fun _ h => nomatch h

theorem FiresQ.some {s₀ : State} {β : Type} {p : State × β} (h : Fires s₀ p.1) : FiresQ s₀ (some p) :=
  fun _ e => Option.some.inj e ▸ h

theorem FiresQ.ite {s₀ : State} {β : Type} {c : Prop} [Decidable c] {a b : Option (State × β)} (ha : FiresQ s₀ a)
    (hb : FiresQ s₀ b) : FiresQ s₀ (if c then a else b) := by split <;> assumption

theorem FiresQ.elim {s₀ : State} {β : Type} {o : Option (State × β)} {t : State} {b : β} (e : o = Option.some (t, b))
    (h : FiresQ s₀ o) : Fires s₀ t := h (t, b) e

theorem FiresQ.map {s₀ : State} {α β : Type} {o : Option α} {f : α → State × β} (h : ∀ a, Fires s₀ (f a).1) :
    FiresQ s₀ (o.map f) := by
  cases o with
  | none => exact FiresQ.none
  | some a => exact FiresQ.some (h a)

theorem FiresQ.map₂ {s₀ : State} {α β : Type} {o : Option (State × α)} {f : State × α → State × β} (h : FiresQ s₀ o)
    (hf : ∀ a, Fires s₀ a.1 → Fires s₀ (f a).1) : FiresQ s₀ (o.map f) := by
  cases o with
  | none => exact FiresQ.none
  | some a => exact FiresQ.some (hf a (h a rfl))

theorem fires_setCount {s₀ : State} (s : State) (e : ℕ) (sub : ℕ) (v : ℕ) (h0 : Fires s₀ s) :
    Fires s₀ (State.setCount s e sub v) := by
  unfold State.setCount
  refine Fires.of_eq rfl rfl rfl rfl rfl rfl rfl rfl rfl rfl rfl rfl rfl rfl rfl rfl ?_
  assumption

theorem fires_bump {s₀ : State} (s : State) (e : ℕ) (sub : ℕ) (k : ℕ) (h0 : Fires s₀ s) :
    Fires s₀ (State.bump s e sub k) := by
  unfold State.bump
  apply fires_setCount
  assumption

theorem fires_bumpFld {s₀ : State} (s : State) (e : ℕ) (sub : ℕ) (hi : ℕ) (lo : ℕ) (h0 : Fires s₀ s) :
    Fires s₀ (State.bumpFld s e sub hi lo) := by
  unfold State.bumpFld
  apply fires_setCount
  assumption

theorem fires_emit {s₀ : State} (s : State) (k : OutKind) (unit : ℕ) (words : List ℕ) (h0 : Fires s₀ s) :
    Fires s₀ (State.emit s k unit words) := by
  unfold State.emit
  refine Fires.of_eq rfl rfl rfl rfl rfl rfl rfl rfl rfl rfl rfl rfl rfl rfl rfl rfl ?_
  assumption

theorem fires_abort {s₀ : State} (s : State) (entry : ℕ) (code : ℕ) (h0 : Fires s₀ s) :
    Fires s₀ (State.abort s entry code) := by
  unfold State.abort
  apply fires_emit
  assumption

theorem fires_msiSend {s₀ : State} (s : State) (v : ℕ) (h0 : Fires s₀ s) :
    Fires s₀ (State.msiSend s v) := by
  unfold State.msiSend
  refine Fires.ite ?_ ?_
  · apply fires_emit
    apply fires_bump
    assumption
  · refine Fires.ite ?_ ?_
    · assumption
    · refine Fires.of_eq rfl rfl rfl rfl rfl rfl rfl rfl rfl rfl rfl rfl rfl rfl rfl rfl ?_
      assumption

theorem fires_interrupt {s₀ : State} (s : State) (k : ℕ) (h0 : Fires s₀ s) :
    Fires s₀ (State.interrupt s k) := by
  unfold State.interrupt
  refine Fires.ite ?_ ?_
  · assumption
  · extract_lets +onlyGivenNames t1
    clear_value t1
    extract_lets +onlyGivenNames t2
    refine Fires.cut (a := t2) ?_ fun _ => ?_
    · unfold t2; clear t2
      refine Fires.of_eq rfl rfl rfl rfl rfl rfl rfl rfl rfl rfl rfl rfl rfl rfl rfl rfl ?_
      assumption
    clear_value t2
    refine Fires.ite ?_ ?_
    · apply fires_msiSend
      assumption
    · assumption

theorem fires_setSrc {s₀ : State} (s : State) (n : ℕ) (x : Source) (h0 : Fires s₀ s) :
    Fires s₀ (State.setSrc s n x) := by
  unfold State.setSrc
  refine Fires.of_eq rfl rfl rfl rfl rfl rfl rfl rfl rfl rfl rfl rfl rfl rfl rfl rfl ?_
  assumption

theorem fires_tallyEvent {s₀ : State} (s : State) (c : ℕ) (payload : List ℕ) (h0 : Fires s₀ s) :
    Fires s₀ (State.tallyEvent s c payload) := by
  unfold State.tallyEvent
  extract_lets +onlyGivenNames t1
  clear_value t1
  split
  · refine Fires.ite ?_ ?_
    · extract_lets +onlyGivenNames t2
      clear_value t2
      extract_lets +onlyGivenNames t3
      refine Fires.cut (a := t3) ?_ fun _ => ?_
      · unfold t3; clear t3
        apply fires_bump
        assumption
      clear_value t3
      split
      · refine Fires.ite ?_ ?_
        · refine Fires.of_eq rfl rfl rfl rfl rfl rfl rfl rfl rfl rfl rfl rfl rfl rfl rfl rfl ?_
          assumption
        · refine Fires.of_eq rfl rfl rfl rfl rfl rfl rfl rfl rfl rfl rfl rfl rfl rfl rfl rfl ?_
          assumption
      · refine Fires.of_eq rfl rfl rfl rfl rfl rfl rfl rfl rfl rfl rfl rfl rfl rfl rfl rfl ?_
        assumption
    · refine Fires.ite ?_ ?_
      · refine Fires.of_eq rfl rfl rfl rfl rfl rfl rfl rfl rfl rfl rfl rfl rfl rfl rfl rfl ?_
        assumption
      · extract_lets +onlyGivenNames t4
        refine Fires.cut (a := t4) ?_ fun _ => ?_
        · unfold t4; clear t4
          apply fires_bump
          assumption
        clear_value t4
        refine Fires.of_eq rfl rfl rfl rfl rfl rfl rfl rfl rfl rfl rfl rfl rfl rfl rfl rfl ?_
        assumption
  · refine Fires.ite ?_ ?_
    · refine Fires.of_eq rfl rfl rfl rfl rfl rfl rfl rfl rfl rfl rfl rfl rfl rfl rfl rfl ?_
      assumption
    · extract_lets +onlyGivenNames t5
      refine Fires.cut (a := t5) ?_ fun _ => ?_
      · unfold t5; clear t5
        apply fires_bump
        assumption
      clear_value t5
      refine Fires.of_eq rfl rfl rfl rfl rfl rfl rfl rfl rfl rfl rfl rfl rfl rfl rfl rfl ?_
      assumption

theorem fires_firePlain {s₀ : State} (s : State) (n : ℕ) (inst : ℕ) (detail : ℕ) (forced : Bool) (h0 : Fires s₀ s) :
    Fires s₀ (State.firePlain s n inst detail forced) := by
  unfold State.firePlain
  split
  · assumption
  · extract_lets +onlyGivenNames t1
    clear_value t1
    extract_lets +onlyGivenNames t2
    clear_value t2
    extract_lets +onlyGivenNames t3
    refine Fires.cut (a := t3) ?_ fun _ => ?_
    · unfold t3; clear t3
      apply fires_setSrc
      assumption
    clear_value t3
    extract_lets +onlyGivenNames t4
    clear_value t4
    extract_lets +onlyGivenNames t5
    refine Fires.cut (a := t5) ?_ fun _ => ?_
    · unfold t5; clear t5
      refine Fires.ite ?_ ?_
      · refine Fires.of_eq rfl rfl rfl rfl rfl rfl rfl rfl rfl rfl rfl rfl rfl rfl rfl rfl ?_
        assumption
      · assumption
    clear_value t5
    extract_lets +onlyGivenNames t6
    clear_value t6
    extract_lets +onlyGivenNames t7
    refine Fires.cut (a := t7) ?_ fun _ => ?_
    · unfold t7; clear t7
      refine Fires.ite ?_ ?_
      · refine Fires.of_eq rfl rfl rfl rfl rfl rfl rfl rfl rfl rfl rfl rfl rfl rfl rfl rfl ?_
        assumption
      · assumption
    clear_value t7
    extract_lets +onlyGivenNames t8
    refine Fires.cut (a := t8) ?_ fun _ => ?_
    · unfold t8; clear t8
      apply fires_tallyEvent
      assumption
    clear_value t8
    refine Fires.ite ?_ ?_
    · apply fires_interrupt
      assumption
    · assumption

theorem fires_traceTail {s₀ : State} (s : State) (words : List Word) (h0 : Fires s₀ s) :
    Fires s₀ (State.traceTail s words) := by
  unfold State.traceTail
  refine Fires.of_eq rfl rfl rfl rfl rfl rfl rfl rfl rfl rfl rfl rfl rfl rfl rfl rfl ?_
  assumption

theorem fires_traceWords {s₀ : State} (s : Sys2Proof.Machine.State) (words : List Sys2Proof.Word) (h0 : Fires s₀ s) :
    Fires s₀ (State.traceWords s words) := by
  unfold State.traceWords
  extract_lets +onlyGivenNames t1
  clear_value t1
  extract_lets +onlyGivenNames t2
  clear_value t2
  refine Fires.ite ?_ ?_
  · extract_lets +onlyGivenNames t3
    refine Fires.cut (a := t3) ?_ fun _ => ?_
    · unfold t3; clear t3
      apply fires_traceTail
      refine Fires.over ?_ ?_
      · intro a4 a5 a6
        apply fires_traceTail
        assumption
      · assumption
    clear_value t3
    refine Fires.of_eq rfl rfl rfl rfl rfl rfl rfl rfl rfl rfl rfl rfl rfl rfl rfl rfl ?_
    assumption
  · extract_lets +onlyGivenNames t7
    refine Fires.cut (a := t7) ?_ fun _ => ?_
    · unfold t7; clear t7
      apply fires_traceTail
      assumption
    clear_value t7
    extract_lets +onlyGivenNames t8
    refine Fires.cut (a := t8) ?_ fun _ => ?_
    · unfold t8; clear t8
      apply fires_bump
      assumption
    clear_value t8
    extract_lets +onlyGivenNames t9
    extract_lets +onlyGivenNames t10
    extract_lets +onlyGivenNames t11
    refine Fires.cut (a := t11) ?_ fun _ => ?_
    · unfold t11; clear t11
      refine Fires.of_eq rfl rfl rfl rfl rfl rfl rfl rfl rfl rfl rfl rfl rfl rfl rfl rfl ?_
      assumption
    clear_value t11
    refine Fires.ite ?_ ?_
    · apply fires_firePlain
      assumption
    · assumption

theorem fires_traceRec {s₀ : State} (s : State) (type : ℕ) (w0 : ℕ) (rest : List ℕ) (h0 : Fires s₀ s) :
    Fires s₀ (State.traceRec s type w0 rest) := by
  unfold State.traceRec
  apply fires_traceWords
  assumption

theorem fires_fireCore {s₀ : State} (s : State) (n : ℕ) (inst : ℕ) (detail : ℕ) (forced : Bool) (h0 : Fires s₀ s) :
    Fires s₀ (State.fireCore s n inst detail forced) := by
  unfold State.fireCore
  split
  · assumption
  · extract_lets +onlyGivenNames t1
    clear_value t1
    extract_lets +onlyGivenNames t2
    refine Fires.cut (a := t2) ?_ fun _ => ?_
    · unfold t2; clear t2
      apply fires_firePlain
      assumption
    clear_value t2
    refine Fires.ite ?_ ?_
    · apply fires_traceRec
      assumption
    · assumption

theorem fires_traceStroke {s₀ : State} (s : State) (sl : ℕ) (idx : ℕ) (cause : ℕ) (h0 : Fires s₀ s) :
    Fires s₀ (State.traceStroke s sl idx cause) := by
  unfold State.traceStroke
  refine Fires.ite ?_ ?_
  · apply fires_traceRec
    assumption
  · assumption

theorem fires_setDrover {s₀ : State} (s : State) (k : ℕ) (x : Drover) (h0 : Fires s₀ s) :
    Fires s₀ (State.setDrover s k x) := by
  unfold State.setDrover
  refine Fires.of_eq rfl rfl rfl rfl rfl rfl rfl rfl rfl rfl rfl rfl rfl rfl rfl rfl ?_
  assumption

theorem fires_setBeacon {s₀ : State} (s : State) (b : ℕ) (x : Beacon) (h0 : Fires s₀ s) :
    Fires s₀ (State.setBeacon s b x) := by
  unfold State.setBeacon
  refine Fires.of_eq rfl rfl rfl rfl rfl rfl rfl rfl rfl rfl rfl rfl rfl rfl rfl rfl ?_
  assumption

theorem fires_setChan {s₀ : State} (s : State) (c : ℕ) (x : BusChan) (h0 : Fires s₀ s) :
    Fires s₀ (State.setChan s c x) := by
  unfold State.setChan
  refine Fires.of_eq rfl rfl rfl rfl rfl rfl rfl rfl rfl rfl rfl rfl rfl rfl rfl rfl ?_
  assumption

theorem fires_busCount {s₀ : State} (s : State) (c : ℕ) (k : ℕ) (h0 : Fires s₀ s) :
    Fires s₀ (State.busCount s c k) := by
  unfold State.busCount
  apply fires_bump
  assumption

theorem fires_withdraw {s₀ : State} (s : State) (c : ℕ) (b : ℕ) (h0 : Fires s₀ s) :
    Fires s₀ (State.withdraw s c b) := by
  unfold State.withdraw
  extract_lets +onlyGivenNames t1
  clear_value t1
  refine Fires.ite ?_ ?_
  · apply fires_busCount
    apply fires_setChan
    assumption
  · assumption

theorem fires_dropFrames {s₀ : State} (s : State) (c : ℕ) (h0 : Fires s₀ s) :
    Fires s₀ (State.dropFrames s c) := by
  unfold State.dropFrames
  extract_lets +onlyGivenNames t1
  refine Fires.cut (a := t1) ?_ fun _ => ?_
  · unfold t1; clear t1
    apply fires_withdraw
    apply fires_withdraw
    apply fires_withdraw
    assumption
  clear_value t1
  extract_lets +onlyGivenNames t2
  clear_value t2
  apply fires_setChan
  assumption

theorem fires_busHaltOp {s₀ : State} (s : State) (c : ℕ) (h0 : Fires s₀ s) :
    Fires s₀ (State.busHaltOp s c) := by
  unfold State.busHaltOp
  extract_lets +onlyGivenNames t1
  refine Fires.cut (a := t1) ?_ fun _ => ?_
  · unfold t1; clear t1
    apply fires_dropFrames
    assumption
  clear_value t1
  apply fires_setChan
  assumption

theorem fires_setLink {s₀ : State} (s : State) (l : ℕ) (x : RLink) (h0 : Fires s₀ s) :
    Fires s₀ (State.setLink s l x) := by
  unfold State.setLink
  refine Fires.of_eq rfl rfl rfl rfl rfl rfl rfl rfl rfl rfl rfl rfl rfl rfl rfl rfl ?_
  assumption

theorem fires_linkCount {s₀ : State} (s : State) (l : ℕ) (k : ℕ) (h0 : Fires s₀ s) :
    Fires s₀ (State.linkCount s l k) := by
  unfold State.linkCount
  apply fires_bump
  assumption

theorem fires_quayOff {s₀ : State} (s : State) (h0 : Fires s₀ s) :
    Fires s₀ (State.quayOff s) := by
  unfold State.quayOff
  refine Fires.of_eq rfl rfl rfl rfl rfl rfl rfl rfl rfl rfl rfl rfl rfl rfl rfl rfl ?_
  assumption

theorem fires_quayHaltOp {s₀ : State} (s : State) (h0 : Fires s₀ s) :
    Fires s₀ (State.quayHaltOp s) := by
  unfold State.quayHaltOp
  extract_lets +onlyGivenNames t1
  clear_value t1
  extract_lets +onlyGivenNames t2
  refine Fires.cut (a := t2) ?_ fun _ => ?_
  · unfold t2; clear t2
    apply fires_quayOff
    apply fires_bump
    assumption
  clear_value t2
  refine Fires.of_eq rfl rfl rfl rfl rfl rfl rfl rfl rfl rfl rfl rfl rfl rfl rfl rfl ?_
  assumption

theorem fires_pairOut {s₀ : State} (s : State) (h0 : Fires s₀ s) :
    Fires s₀ (State.pairOut s) := by
  unfold State.pairOut
  refine Fires.of_eq rfl rfl rfl rfl rfl rfl rfl rfl rfl rfl rfl rfl rfl rfl rfl rfl ?_
  assumption

theorem fires_pairBell {s₀ : State} (s : State) (h0 : Fires s₀ s) :
    Fires s₀ (State.pairBell s) := by
  unfold State.pairBell
  extract_lets +onlyGivenNames t1
  refine Fires.ite ?_ ?_
  · apply fires_pairOut
    assumption
  · assumption

theorem fires_setGate {s₀ : State} (s : State) (g : ℕ) (x : Gate) (h0 : Fires s₀ s) :
    Fires s₀ (State.setGate s g x) := by
  unfold State.setGate
  refine Fires.of_eq rfl rfl rfl rfl rfl rfl rfl rfl rfl rfl rfl rfl rfl rfl rfl rfl ?_
  assumption

theorem fires_gateDown {s₀ : State} (s : State) (g : ℕ) (cause : ℕ) (h0 : Fires s₀ s) :
    Fires s₀ (State.gateDown s g cause) := by
  unfold State.gateDown
  refine Fires.ite ?_ ?_
  · apply fires_setGate
    assumption
  · assumption

theorem fires_keepSafe {s₀ : State} (after : Sys2Proof.Machine.State) (before : Sys2Proof.Machine.State) (h0 : Fires s₀ after) :
    Fires s₀ (State.keepSafe after before) := by
  unfold State.keepSafe
  refine Fires.ite ?_ ?_
  · assumption
  · refine Fires.over ?_ ?_
    · intro a1 a2 a3
      refine Fires.ite ?_ ?_
      · refine Fires.of_eq rfl rfl rfl rfl rfl rfl rfl rfl rfl rfl rfl rfl rfl rfl rfl rfl ?_
        assumption
      · assumption
    · assumption

theorem fires_droverSafe {s₀ : State} (s : State) (k : ℕ) (h0 : Fires s₀ s) :
    Fires s₀ (State.droverSafe s k) := by
  unfold State.droverSafe
  extract_lets +onlyGivenNames t1
  clear_value t1
  refine Fires.ite ?_ ?_
  · apply fires_setDrover
    assumption
  · assumption

theorem fires_linkSafe {s₀ : State} (s : State) (l : ℕ) (h0 : Fires s₀ s) :
    Fires s₀ (State.linkSafe s l) := by
  unfold State.linkSafe
  extract_lets +onlyGivenNames t1
  clear_value t1
  refine Fires.ite ?_ ?_
  · assumption
  · extract_lets +onlyGivenNames t2
    clear_value t2
    extract_lets +onlyGivenNames t3
    refine Fires.cut (a := t3) ?_ fun _ => ?_
    · unfold t3; clear t3
      apply fires_emit
      apply fires_linkCount
      apply fires_setLink
      assumption
    clear_value t3
    extract_lets +onlyGivenNames t4
    refine Fires.cut (a := t4) ?_ fun _ => ?_
    · unfold t4; clear t4
      refine Fires.ite ?_ ?_
      · apply fires_fireCore
        assumption
      · assumption
    clear_value t4
    refine Fires.of_eq rfl rfl rfl rfl rfl rfl rfl rfl rfl rfl rfl rfl rfl rfl rfl rfl ?_
    assumption

theorem fires_beaconSafe {s₀ : State} (s : State) (b : ℕ) (h0 : Fires s₀ s) :
    Fires s₀ (State.beaconSafe s b) := by
  unfold State.beaconSafe
  extract_lets +onlyGivenNames t1
  clear_value t1
  refine Fires.ite ?_ ?_
  · apply fires_fireCore
    apply fires_setBeacon
    assumption
  · assumption

theorem fires_beaconsSafe {s₀ : State} (s : State) (h0 : Fires s₀ s) :
    Fires s₀ (State.beaconsSafe s) := by
  unfold State.beaconsSafe
  refine Fires.over ?_ ?_
  · intro a1 a2 a3
    apply fires_beaconSafe
    assumption
  · assumption

theorem fires_busesSafe {s₀ : State} (s : State) (test : ℕ → Bool) (h0 : Fires s₀ s) :
    Fires s₀ (State.busesSafe s test) := by
  unfold State.busesSafe
  refine Fires.over ?_ ?_
  · intro a1 a2 a3
    apply fires_busHaltOp
    assumption
  · assumption

theorem fires_tileSafe {s₀ : State} (s : State) (t : ℕ) (h0 : Fires s₀ s) :
    Fires s₀ (State.tileSafe s t) := by
  unfold State.tileSafe
  extract_lets +onlyGivenNames t1
  refine Fires.cut (a := t1) ?_ fun _ => ?_
  · unfold t1; clear t1
    refine Fires.over ?_ ?_
    · intro a1 a2 a3
      apply fires_droverSafe
      assumption
    · assumption
  clear_value t1
  extract_lets +onlyGivenNames t2
  clear_value t2
  apply fires_busesSafe
  assumption

theorem fires_enterSafe {s₀ : State} (s : State) (n : ℕ) (inst : ℕ) (h0 : Fires s₀ s) :
    Fires s₀ (State.enterSafe s n inst) := by
  unfold State.enterSafe
  split
  · refine Fires.ite ?_ ?_
    · apply fires_tileSafe
      assumption
    · assumption
  · refine Fires.ite ?_ ?_
    · refine Fires.over ?_ ?_
      · intro a1 a2 a3
        apply fires_droverSafe
        assumption
      · assumption
    · apply fires_droverSafe
      assumption
  · apply fires_busHaltOp
    assumption
  · apply fires_linkSafe
    assumption
  · apply fires_beaconsSafe
    assumption
  · apply fires_quayHaltOp
    assumption
  · refine Fires.over ?_ ?_
    · intro a4 a5 a6
      refine Fires.ite ?_ ?_
      · apply fires_linkSafe
        assumption
      · assumption
    · assumption
  · apply fires_gateDown
    assumption
  · assumption

theorem fires_enterFatal {s₀ : State} (s : State) (h0 : Fires s₀ s) :
    Fires s₀ (State.enterFatal s) := by
  unfold State.enterFatal
  extract_lets +onlyGivenNames t1
  refine Fires.cut (a := t1) ?_ fun _ => ?_
  · unfold t1; clear t1
    refine Fires.over ?_ ?_
    · intro a1 a2 a3
      apply fires_droverSafe
      assumption
    · assumption
  clear_value t1
  extract_lets +onlyGivenNames t2
  refine Fires.cut (a := t2) ?_ fun _ => ?_
  · unfold t2; clear t2
    apply fires_busesSafe
    assumption
  clear_value t2
  extract_lets +onlyGivenNames t3
  refine Fires.cut (a := t3) ?_ fun _ => ?_
  · unfold t3; clear t3
    refine Fires.over ?_ ?_
    · intro a4 a5 a6
      apply fires_linkSafe
      assumption
    · assumption
  clear_value t3
  refine Fires.over ?_ ?_
  · intro a7 a8 a9
    apply fires_gateDown
    assumption
  · apply fires_quayHaltOp
    apply fires_beaconsSafe
    assumption

theorem fires_fire {s₀ : State} (s : Sys2Proof.Machine.State) (n : ℕ) (inst : ℕ) (detail : optParam ℕ 0) (forced : optParam Bool false) (h0 : Fires s₀ s) :
    Fires s₀ (State.fire s n inst detail forced) := by
  unfold State.fire
  extract_lets +onlyGivenNames t1
  refine Fires.cut (a := t1) ?_ fun _ => ?_
  · unfold t1; clear t1
    assumption
  clear_value t1
  extract_lets +onlyGivenNames t2
  refine Fires.cut (a := t2) ?_ fun _ => ?_
  · unfold t2; clear t2
    apply fires_fireCore
    assumption
  clear_value t2
  extract_lets +onlyGivenNames t3
  extract_lets +onlyGivenNames t4
  refine Fires.cut (a := t4) ?_ fun _ => ?_
  · unfold t4; clear t4
    refine Fires.ite ?_ ?_
    · refine Fires.of_eq rfl rfl rfl rfl rfl rfl rfl rfl rfl rfl rfl rfl rfl rfl rfl rfl ?_
      assumption
    · assumption
  clear_value t4
  extract_lets +onlyGivenNames t5
  refine Fires.cut (a := t5) ?_ fun _ => ?_
  · unfold t5; clear t5
    refine Fires.over ?_ ?_
    · intro a6 a7 a8
      apply fires_enterSafe
      apply fires_keepSafe
      assumption
    · assumption
  clear_value t5
  extract_lets +onlyGivenNames t9
  refine Fires.cut (a := t9) ?_ fun _ => ?_
  · unfold t9; clear t9
    refine Fires.ite ?_ ?_
    · apply fires_enterFatal
      apply fires_keepSafe
      assumption
    · assumption
  clear_value t9
  apply fires_pairBell
  assumption

theorem fires_countNull {s₀ : State} (s : State) (sl : ℕ) (cause : ℕ) (h0 : Fires s₀ s) :
    Fires s₀ (State.countNull s sl cause) := by
  unfold State.countNull
  extract_lets +onlyGivenNames t1
  refine Fires.cut (a := t1) ?_ fun _ => ?_
  · unfold t1; clear t1
    apply fires_bump
    assumption
  clear_value t1
  refine Fires.ite ?_ ?_
  · apply fires_fire
    assumption
  · assumption

theorem fires_tableEcc {s₀ : State} (s : State) (sl : ℕ) (l : List Ecc) (h0 : Fires s₀ s) :
    Fires s₀ (State.tableEcc s sl l) := by
  unfold State.tableEcc
  extract_lets +onlyGivenNames t1
  refine Fires.cut (a := t1) ?_ fun _ => ?_
  · unfold t1; clear t1
    refine Fires.over ?_ ?_
    · intro a1 a2 a3
      refine Fires.ite ?_ ?_
      · apply fires_bumpFld
        assumption
      · assumption
    · assumption
  clear_value t1
  refine Fires.ite ?_ ?_
  · apply fires_fire
    apply fires_bumpFld
    assumption
  · assumption

end Sys2Proof.Laws
end

