-- ==== Sys2Proof/Laws/Tab.lean ====
section
/-! SUPPORT. Laws of the sparse stores: reading after writing, and that writing keeps the canonical form. -/

namespace Sys2Proof.Laws
open Sys2Proof.Machine

variable {α : Type} [DecidableEq α] {d : α}

theorem above_cons {b : Option Nat} {k : Nat} {v : α} {m : Tab α} :
    Tab.above d b ((k, v) :: m) = true ↔ (∀ x, b = some x → x < k) ∧ v ≠ d ∧ Tab.above d (some k) m = true := by
  cases b with
  | none => simp [Tab.above]
  | some x => simp [Tab.above, and_assoc]

/-- Writing above a bound keeps the numbers rising above it. -/
theorem above_set {b : Option Nat} {m : Tab α} {k : Nat} {v : α} (h : Tab.above d b m = true)
    (hb : ∀ x, b = some x → x < k) : Tab.above d b (Tab.set d m k v) = true := by
  induction m generalizing b with
  | nil =>
    simp only [Tab.set]
    split
    · rfl
    · rename_i hv
      exact above_cons.mpr ⟨hb, hv, rfl⟩
  | cons p m ih =>
    obtain ⟨j, w⟩ := p
    have g := above_cons.mp h
    simp only [Tab.set]
    split
    · rename_i hlt
      split
      · exact h
      · rename_i hv
        exact above_cons.mpr ⟨hb, hv, above_cons.mpr ⟨fun x hx => Option.some.inj hx ▸ hlt, g.2⟩⟩
    · split
      · rename_i heq
        subst heq
        split
        · cases m with
          | nil => rfl
          | cons r m =>
            have g2 := above_cons.mp g.2.2
            exact above_cons.mpr ⟨fun x hx => Nat.lt_trans (hb x hx) (g2.1 k rfl), g2.2⟩
        · rename_i hv
          exact above_cons.mpr ⟨hb, hv, g.2.2⟩
      · rename_i hnlt hne
        refine above_cons.mpr ⟨g.1, g.2.1, ih g.2.2 ?_⟩
        intro x hx
        cases hx
        omega

/-- Writing keeps the canonical form. -/
theorem wf_set {m : Tab α} {k : Nat} {v : α} (h : Tab.wf d m = true) : Tab.wf d (Tab.set d m k v) = true :=
  above_set h (fun _ hx => nomatch hx)

theorem wf_setList {m : Tab α} {k : Nat} {l : List α} (h : Tab.wf d m = true) : Tab.wf d (Tab.setList d m k l) = true := by
  induction l generalizing m k with
  | nil => exact h
  | cons v l ih => exact ih (wf_set h)

/-- A number below the bound of a canonical store reads as the default. -/
theorem get_below {b : Nat} {m : Tab α} {n : Nat} (h : Tab.above d (some b) m = true) (hn : n ≤ b) : Tab.get d m n = d := by
  cases m with
  | nil => rfl
  | cons p m =>
    obtain ⟨k, v⟩ := p
    simp only [Tab.above, Bool.and_eq_true] at h
    have := of_decide_eq_true h.1.1
    simp only [Tab.get]
    rw [if_neg (by omega), if_pos (by omega)]

theorem get_set_above {b : Option Nat} {m : Tab α} {k n : Nat} {v : α} (h : Tab.above d b m = true) :
    Tab.get d (Tab.set d m k v) n = if n = k then v else Tab.get d m n := by
  induction m generalizing b with
  | nil => by_cases hv : v = d <;> by_cases hn : n = k <;> simp [Tab.set, Tab.get, hv, hn]
  | cons p m ih =>
    obtain ⟨j, w⟩ := p
    simp only [Tab.above, Bool.and_eq_true] at h
    simp only [Tab.set]
    split
    · rename_i hlt
      by_cases hv : v = d
      · by_cases hn : n = k
        · subst hn
          subst hv
          simp only [if_pos, Tab.get]
          rw [if_neg (by omega), if_pos hlt]
        · simp [hv, hn]
      · by_cases hn : n = k
        · simp [hv, hn, Tab.get]
        · simp only [if_neg hv, if_neg hn, Tab.get]
          by_cases h2 : n < k
          · rw [if_pos h2, if_neg (by omega), if_pos (by omega)]
          · rw [if_neg h2]
    · split
      · rename_i heq
        subst heq
        by_cases hv : v = d
        · subst hv
          by_cases hn : n = k
          · subst hn
            simp only [if_pos]
            exact get_below h.2 (Nat.le_refl _)
          · simp only [if_pos, if_neg hn, Tab.get]
            by_cases h2 : n < k
            · rw [if_pos h2]
              exact get_below h.2 (by omega)
            · rw [if_neg h2]
        · by_cases hn : n = k
          · simp [hv, hn, Tab.get]
          · simp [hv, hn, Tab.get]
      · rename_i hnlt hne
        simp only [Tab.get]
        rw [ih h.2]
        by_cases hn : n = k
        · subst hn
          rw [if_pos rfl, if_pos rfl, if_neg hne, if_neg (by omega)]
        · simp [hn]

/-- Reading after writing a canonical store. -/
theorem get_set {m : Tab α} {k n : Nat} {v : α} (h : Tab.wf d m = true) :
    Tab.get d (Tab.set d m k v) n = if n = k then v else Tab.get d m n := get_set_above h

/-- Reading after writing any store, for a value that is listed. -/
theorem get_set_of_ne {m : Tab α} {k n : Nat} {v : α} (hv : v ≠ d) :
    Tab.get d (Tab.set d m k v) n = if n = k then v else Tab.get d m n := by
  induction m with
  | nil => by_cases hn : n = k <;> simp [Tab.set, Tab.get, hv, hn]
  | cons p m ih =>
    obtain ⟨j, w⟩ := p
    simp only [Tab.set, if_neg hv]
    split
    · rename_i hlt
      by_cases hn : n = k
      · simp [hn, Tab.get]
      · simp only [if_neg hn, Tab.get]
        by_cases h2 : n < k
        · rw [if_pos h2, if_neg (by omega), if_pos (by omega)]
        · rw [if_neg h2]
    · split
      · rename_i heq
        subst heq
        by_cases hn : n = k <;> simp [hn, Tab.get]
      · rename_i hnlt hne
        simp only [Tab.get]
        rw [ih]
        by_cases hn : n = k
        · subst hn
          rw [if_pos rfl, if_pos rfl, if_neg hne, if_neg (by omega)]
        · simp [hn]

/-- The second of two writes to one number stands alone, after a value that is listed. -/
theorem set_set_of_ne {m : Tab α} {k : Nat} {v w : α} (hv : v ≠ d) :
    Tab.set d (Tab.set d m k v) k w = Tab.set d m k w := by
  induction m with
  | nil => simp [Tab.set, hv]
  | cons p m ih =>
    obtain ⟨a, b⟩ := p
    by_cases h1 : k < a
    · simp [Tab.set, h1, hv]
    · by_cases h2 : k = a
      · simp [Tab.set, h2, hv]
      · simp [Tab.set, h1, h2, ih]

end Sys2Proof.Laws
end

