-- ==== Sys2Proof/Laws/Kept.lean ====
section
/-! SUPPORT. What every operation of the fabric keeps of the state before it, and how the proofs of it are put together. -/

open Sys2Proof Sys2Proof.Machine

namespace Sys2Proof.Laws

/-! ### What every command keeps -/

/-- A store that is canonical where another is. -/
def WfTo {α : Type} [DecidableEq α] (d : α) (m n : Tab α) : Prop := Tab.wf d m = true → Tab.wf d n = true

theorem WfTo.same {α : Type} [DecidableEq α] {d : α} {m : Tab α} : WfTo d m m := id

theorem WfTo.set {α : Type} [DecidableEq α] {d : α} {m : Tab α} {k : Nat} {v : α} : WfTo d m (Tab.set d m k v) := wf_set

theorem WfTo.setList {α : Type} [DecidableEq α] {d : α} {m : Tab α} {k : Nat} {l : List α} : WfTo d m (Tab.setList d m k l) := wf_setList

/-- Owner hashes written stay as they are, and a revoked one stays revoked. -/
def OtpTo (a b : Tab OtpKey) : Prop :=
  ∀ k, (Tab.get OtpKey.none a k).hash ≠ none → (Tab.get OtpKey.none b k).hash = (Tab.get OtpKey.none a k).hash
    ∧ ((Tab.get OtpKey.none a k).revoked = true → (Tab.get OtpKey.none b k).revoked = true)

/-- The change that burns is the one before, or one of R548's. -/
def BurnTo (a b : FoldSt) : Prop := b.burning = a.burning ∨ ∃ v, b.burning = some v ∧ lcChange a.lifecycle v = true

/-- What a state s still has of a state s₀ before: the queue, stores that stay canonical, the life cycle, owner hashes, and
numbers that only rise. -/
structure Kept (s₀ s : State) : Prop where
  pending : s.pending = s₀.pending
  pasture : WfTo Line.fresh s₀.image.pasture s.image.pasture
  upland : WfTo Line.fresh s₀.image.upland s.image.upland
  pool : WfTo 0 s₀.pen.pool s.pen.pool
  mram : WfTo 0 s₀.tally.mram s.tally.mram
  lifecycle : s.fold.lifecycle = s₀.fold.lifecycle
  installSeq : s₀.fold.installSeq ≤ s.fold.installSeq
  otp : OtpTo s₀.fold.otp s.fold.otp
  seq : s₀.tally.seq ≤ s.tally.seq
  retired : s₀.tally.retired ⊆ s.tally.retired
  freeAt : s₀.freeAt ≤ s.freeAt
  burning : BurnTo s₀.fold s.fold

theorem Kept.refl (s : State) : Kept s s :=
  ⟨rfl, id, id, id, id, rfl, Nat.le_refl _, fun _ _ => ⟨rfl, id⟩, Nat.le_refl _, List.Subset.refl _, Nat.le_refl _, .inl rfl⟩

theorem Kept.trans {a b c : State} (h : Kept a b) (g : Kept b c) : Kept a c :=
  ⟨g.1.trans h.1, g.2 ∘ h.2, g.3 ∘ h.3, g.4 ∘ h.4, g.5 ∘ h.5, g.6.trans h.6, Nat.le_trans h.7 g.7,
    fun k e => have x := h.8 k e; have y := g.8 k (x.1 ▸ e); ⟨y.1.trans x.1, fun r => y.2 (x.2 r)⟩,
    Nat.le_trans h.9 g.9, fun _ e => g.10 (h.10 e), Nat.le_trans h.11 g.11,
    g.12.elim (fun e => h.12.imp e.trans fun ⟨v, x, y⟩ => ⟨v, e.trans x, y⟩) fun ⟨v, e, c⟩ => .inr ⟨v, e, h.6 ▸ c⟩⟩

/-- A record update that leaves what is kept. -/
theorem Kept.of_eq {s₀ s : State} {a0 a1 a2 a3 a4 a5 a6 a7 a8 a9 a10 a11 a12 a13 a14 a15 a16 a17 a18 a19 a20 a21 a22 a23 a24 a25 a26}
    (h1 : a0 = s.pending) (h2 : a6.pasture = s.image.pasture) (h3 : a6.upland = s.image.upland)
    (h4 : a7.pool = s.pen.pool) (h5 : a25.mram = s.tally.mram) (h6 : a19.lifecycle = s.fold.lifecycle)
    (h7 : a19.installSeq = s.fold.installSeq) (h8 : a19.otp = s.fold.otp) (h9 : a25.seq = s.tally.seq)
    (h10 : a25.retired = s.tally.retired) (h11 : a2 = s.freeAt) (h12 : a19.burning = s.fold.burning) (H : Kept s₀ s) : Kept s₀ (State.mk a0 a1 a2 a3 a4 a5 a6 a7 a8 a9 a10 a11 a12 a13 a14 a15 a16 a17 a18 a19 a20 a21 a22 a23 a24 a25 a26) := by
  refine H.trans ⟨h1, ?_, ?_, ?_, ?_, h6, h7.ge, ?_, h9.ge, ?_, h11.ge, .inl h12⟩
  · exact fun h => h2 ▸ h
  · exact fun h => h3 ▸ h
  · exact fun h => h4 ▸ h
  · exact fun h => h5 ▸ h
  · exact fun k _ => h8 ▸ ⟨rfl, id⟩
  · exact h10 ▸ List.Subset.refl _

/-- A record update that writes a store. -/
theorem Kept.of_wf {s₀ s : State} {a0 a1 a2 a3 a4 a5 a6 a7 a8 a9 a10 a11 a12 a13 a14 a15 a16 a17 a18 a19 a20 a21 a22 a23 a24 a25 a26}
    (h1 : a0 = s.pending) (h2 : WfTo Line.fresh s.image.pasture a6.pasture)
    (h3 : WfTo Line.fresh s.image.upland a6.upland) (h4 : WfTo 0 s.pen.pool a7.pool)
    (h5 : WfTo 0 s.tally.mram a25.mram) (h6 : a19.lifecycle = s.fold.lifecycle)
    (h7 : a19.installSeq = s.fold.installSeq) (h8 : a19.otp = s.fold.otp) (h9 : a25.seq = s.tally.seq)
    (h10 : a25.retired = s.tally.retired) (h11 : a2 = s.freeAt) (h12 : a19.burning = s.fold.burning) (H : Kept s₀ s) : Kept s₀ (State.mk a0 a1 a2 a3 a4 a5 a6 a7 a8 a9 a10 a11 a12 a13 a14 a15 a16 a17 a18 a19 a20 a21 a22 a23 a24 a25 a26) := by
  refine H.trans ⟨h1, h2, h3, h4, h5, h6, h7.ge, ?_, h9.ge, ?_, h11.ge, .inl h12⟩
  · exact fun k _ => h8 ▸ ⟨rfl, id⟩
  · exact h10 ▸ List.Subset.refl _

theorem Kept.ite {s₀ : State} {c : Prop} [Decidable c] {a b : State} (ha : Kept s₀ a) (hb : Kept s₀ b) :
    Kept s₀ (if c then a else b) := by split <;> assumption

theorem Kept.fold {s₀ : State} {α : Type} {f : State → α → State} {s : State} {l : List α}
    (hf : ∀ s x, Kept s₀ s → Kept s₀ (f s x)) (h : Kept s₀ s) : Kept s₀ (l.foldl f s) := by
  induction l generalizing s with
  | nil => exact h
  | cons a l ih => exact ih (hf _ _ h)

theorem Kept.cut {s₀ : State} {a b : State} (h : Kept s₀ a) (H : Kept s₀ a → Kept s₀ b) : Kept s₀ b := H h

theorem Kept.fold1 {s₀ : State} {α β : Type} {f : State × β → α → State × β} {p : State × β} {l : List α}
    (hf : ∀ p x, Kept s₀ p.1 → Kept s₀ (f p x).1) (h : Kept s₀ p.1) : Kept s₀ (l.foldl f p).1 := by
  induction l generalizing p with
  | nil => exact h
  | cons a l ih => exact ih (hf _ _ h)

theorem Kept.ofEq {s₀ : State} {β : Type} {p : State × β} {a : State} {b : β} (e : p = (a, b)) (h : Kept s₀ p.1) : Kept s₀ a := by
  subst e; exact h

theorem Kept.have_ {P Q : Prop} (h : P) (H : P → Q) : Q := H h

/-- What an answer that may be absent keeps. -/
def KeptO (s₀ : State) (o : Option State) : Prop := ∀ t, o = some t → Kept s₀ t

def KeptQ {β : Type} (s₀ : State) (o : Option (State × β)) : Prop := ∀ p, o = some p → Kept s₀ p.1

theorem KeptO.none {s₀ : State} : KeptO s₀ none := fun _ h => nomatch h

theorem KeptO.some {s₀ : State} {s : State} (h : Kept s₀ s) : KeptO s₀ (some s) := fun _ e => Option.some.inj e ▸ h

theorem KeptO.ite {s₀ : State} {c : Prop} [Decidable c] {a b : Option State} (ha : KeptO s₀ a) (hb : KeptO s₀ b) :
    KeptO s₀ (if c then a else b) := by split <;> assumption

theorem KeptO.elim {s₀ : State} {o : Option State} {t : State} (e : o = Option.some t) (h : KeptO s₀ o) : Kept s₀ t := h t e

theorem KeptQ.none {s₀ : State} {β : Type} : KeptQ (β := β) s₀ none := fun _ h => nomatch h

theorem KeptQ.some {s₀ : State} {β : Type} {p : State × β} (h : Kept s₀ p.1) : KeptQ s₀ (some p) :=
  fun _ e => Option.some.inj e ▸ h

theorem KeptQ.ite {s₀ : State} {β : Type} {c : Prop} [Decidable c] {a b : Option (State × β)} (ha : KeptQ s₀ a)
    (hb : KeptQ s₀ b) : KeptQ s₀ (if c then a else b) := by split <;> assumption

theorem KeptQ.elim {s₀ : State} {β : Type} {o : Option (State × β)} {t : State} {b : β} (e : o = Option.some (t, b))
    (h : KeptQ s₀ o) : Kept s₀ t := h (t, b) e

theorem KeptQ.map {s₀ : State} {α β : Type} {o : Option α} {f : α → State × β} (h : ∀ a, Kept s₀ (f a).1) :
    KeptQ s₀ (o.map f) := by
  cases o with
  | none => exact KeptQ.none
  | some a => exact KeptQ.some (h a)

theorem KeptQ.map₂ {s₀ : State} {α β : Type} {o : Option (State × α)} {f : State × α → State × β} (h : KeptQ s₀ o)
    (hf : ∀ a, Kept s₀ a.1 → Kept s₀ (f a).1) : KeptQ s₀ (o.map f) := by
  cases o with
  | none => exact KeptQ.none
  | some a => exact KeptQ.some (hf a (h a rfl))

theorem signedOk_seq {s : State} {w : List Nat} {n : Nat} (h : s.signedOk w n = true) :
    s.fold.installSeq ≤ u36 (w.drop n) := by
  have e : u36 ((w.drop n).take 2) = u36 (w.drop n) := by
    rcases w.drop n with _ | ⟨a, _ | ⟨b, l⟩⟩ <;> rfl
  simp only [State.signedOk, Bool.and_eq_true, decide_eq_true_eq, e] at h
  omega

theorem lcOk_change {s : State} {a : Asker} {dest : Nat} {g : Bool} (h : s.lcOk a dest g = true) :
    lcChange s.fold.lifecycle dest = true := by
  unfold State.lcOk at h
  unfold lcChange
  split at h <;> first | rfl | simp_all

end Sys2Proof.Laws
end

