-- ==== Sys2Proof/Laws/KeepOps.lean ====
section
/-! SUPPORT. What each operation of Machine/Ops.lean keeps (Laws/Kept.lean). -/

open Sys2Proof Sys2Proof.Machine

namespace Sys2Proof.Laws

theorem keeps_setCfg {s₀ : State} (s : State) (e : ℕ) (sub : ℕ) (v : ℕ) (h0 : Kept s₀ s) :
    Kept s₀ (State.setCfg s e sub v) := by
  unfold State.setCfg
  refine Kept.of_eq rfl rfl rfl rfl rfl rfl rfl rfl rfl rfl rfl rfl ?_
  assumption

theorem keeps_setCount {s₀ : State} (s : State) (e : ℕ) (sub : ℕ) (v : ℕ) (h0 : Kept s₀ s) :
    Kept s₀ (State.setCount s e sub v) := by
  unfold State.setCount
  refine Kept.of_eq rfl rfl rfl rfl rfl rfl rfl rfl rfl rfl rfl rfl ?_
  assumption

theorem keeps_bump {s₀ : State} (s : State) (e : ℕ) (sub : ℕ) (k : ℕ) (h0 : Kept s₀ s) :
    Kept s₀ (State.bump s e sub k) := by
  unfold State.bump
  apply keeps_setCount
  assumption

theorem keeps_bumpFld {s₀ : State} (s : State) (e : ℕ) (sub : ℕ) (hi : ℕ) (lo : ℕ) (h0 : Kept s₀ s) :
    Kept s₀ (State.bumpFld s e sub hi lo) := by
  unfold State.bumpFld
  apply keeps_setCount
  assumption

theorem keeps_emit {s₀ : State} (s : State) (k : OutKind) (unit : ℕ) (words : List ℕ) (h0 : Kept s₀ s) :
    Kept s₀ (State.emit s k unit words) := by
  unfold State.emit
  refine Kept.of_eq rfl rfl rfl rfl rfl rfl rfl rfl rfl rfl rfl rfl ?_
  assumption

theorem keeps_abort {s₀ : State} (s : State) (entry : ℕ) (code : ℕ) (h0 : Kept s₀ s) :
    Kept s₀ (State.abort s entry code) := by
  unfold State.abort
  apply keeps_emit
  assumption

theorem keeps_draw {s₀ : State} (s : State) (h0 : Kept s₀ s) :
    Kept s₀ (State.draw s).1 := by
  unfold State.draw
  exact h0.trans ⟨rfl, id, id, id, id, rfl, Nat.le_refl _, fun _ _ => ⟨rfl, id⟩, Nat.le_refl _, List.Subset.refl _,
    Nat.le_succ _, .inl rfl⟩

theorem keeps_byShepherd {s₀ : State} (s : State) (f : State → State) (h0 : Kept s₀ s) (hff : ∀ y0, Kept s₀ y0 → Kept s₀ (f y0)) :
    Kept s₀ (State.byShepherd s f) := by
  unfold State.byShepherd
  refine Kept.ite ?_ ?_
  · apply hff
    assumption
  · assumption

end Sys2Proof.Laws
end

