-- ==== Sys2Proof/Laws/KeepBell.lean ====
section
/-! SUPPORT. What each operation of Machine/Bell.lean keeps (Laws/Kept.lean). -/

open Sys2Proof Sys2Proof.Machine

namespace Sys2Proof.Laws

theorem keeps_msiSend {s₀ : State} (s : State) (v : ℕ) (h0 : Kept s₀ s) :
    Kept s₀ (State.msiSend s v) := by
  unfold State.msiSend
  refine Kept.ite ?_ ?_
  · apply keeps_emit
    apply keeps_bump
    assumption
  · refine Kept.ite ?_ ?_
    · assumption
    · refine Kept.of_eq rfl rfl rfl rfl rfl rfl rfl rfl rfl rfl rfl rfl ?_
      assumption

theorem keeps_interrupt {s₀ : State} (s : State) (k : ℕ) (h0 : Kept s₀ s) :
    Kept s₀ (State.interrupt s k) := by
  unfold State.interrupt
  refine Kept.ite ?_ ?_
  · assumption
  · extract_lets +onlyGivenNames t1
    clear_value t1
    extract_lets +onlyGivenNames t2
    refine Kept.cut (a := t2) ?_ fun _ => ?_
    · unfold t2; clear t2
      refine Kept.of_eq rfl rfl rfl rfl rfl rfl rfl rfl rfl rfl rfl rfl ?_
      assumption
    clear_value t2
    refine Kept.ite ?_ ?_
    · apply keeps_msiSend
      assumption
    · assumption

theorem keeps_setSrc {s₀ : State} (s : State) (n : ℕ) (x : Source) (h0 : Kept s₀ s) :
    Kept s₀ (State.setSrc s n x) := by
  unfold State.setSrc
  refine Kept.of_eq rfl rfl rfl rfl rfl rfl rfl rfl rfl rfl rfl rfl ?_
  assumption

theorem keeps_tally_ {s₀ : State} (s : State) (type : ℕ) (payload : List ℕ) (h0 : Kept s₀ s) :
    Kept s₀ (State.tally_ s type payload) := by
  unfold State.tally_
  extract_lets +onlyGivenNames t1
  clear_value t1
  refine Kept.of_eq rfl rfl rfl rfl rfl rfl rfl rfl rfl rfl rfl rfl ?_
  assumption

theorem keeps_tallyEvent {s₀ : State} (s : State) (c : ℕ) (payload : List ℕ) (h0 : Kept s₀ s) :
    Kept s₀ (State.tallyEvent s c payload) := by
  unfold State.tallyEvent
  extract_lets +onlyGivenNames t1
  clear_value t1
  split
  · refine Kept.ite ?_ ?_
    · extract_lets +onlyGivenNames t2
      clear_value t2
      extract_lets +onlyGivenNames t3
      refine Kept.cut (a := t3) ?_ fun _ => ?_
      · unfold t3; clear t3
        apply keeps_bump
        assumption
      clear_value t3
      split
      · refine Kept.ite ?_ ?_
        · refine Kept.of_eq rfl rfl rfl rfl rfl rfl rfl rfl rfl rfl rfl rfl ?_
          assumption
        · refine Kept.of_eq rfl rfl rfl rfl rfl rfl rfl rfl rfl rfl rfl rfl ?_
          assumption
      · refine Kept.of_eq rfl rfl rfl rfl rfl rfl rfl rfl rfl rfl rfl rfl ?_
        assumption
    · refine Kept.ite ?_ ?_
      · refine Kept.of_eq rfl rfl rfl rfl rfl rfl rfl rfl rfl rfl rfl rfl ?_
        assumption
      · extract_lets +onlyGivenNames t4
        refine Kept.cut (a := t4) ?_ fun _ => ?_
        · unfold t4; clear t4
          apply keeps_bump
          assumption
        clear_value t4
        refine Kept.of_eq rfl rfl rfl rfl rfl rfl rfl rfl rfl rfl rfl rfl ?_
        assumption
  · refine Kept.ite ?_ ?_
    · refine Kept.of_eq rfl rfl rfl rfl rfl rfl rfl rfl rfl rfl rfl rfl ?_
      assumption
    · extract_lets +onlyGivenNames t5
      refine Kept.cut (a := t5) ?_ fun _ => ?_
      · unfold t5; clear t5
        apply keeps_bump
        assumption
      clear_value t5
      refine Kept.of_eq rfl rfl rfl rfl rfl rfl rfl rfl rfl rfl rfl rfl ?_
      assumption

theorem keeps_firePlain {s₀ : State} (s : State) (n : ℕ) (inst : ℕ) (detail : ℕ) (forced : Bool) (h0 : Kept s₀ s) :
    Kept s₀ (State.firePlain s n inst detail forced) := by
  unfold State.firePlain
  split
  · assumption
  · extract_lets +onlyGivenNames t1
    clear_value t1
    extract_lets +onlyGivenNames t2
    clear_value t2
    extract_lets +onlyGivenNames t3
    refine Kept.cut (a := t3) ?_ fun _ => ?_
    · unfold t3; clear t3
      apply keeps_setSrc
      assumption
    clear_value t3
    extract_lets +onlyGivenNames t4
    clear_value t4
    extract_lets +onlyGivenNames t5
    refine Kept.cut (a := t5) ?_ fun _ => ?_
    · unfold t5; clear t5
      refine Kept.ite ?_ ?_
      · refine Kept.of_eq rfl rfl rfl rfl rfl rfl rfl rfl rfl rfl rfl rfl ?_
        assumption
      · assumption
    clear_value t5
    extract_lets +onlyGivenNames t6
    clear_value t6
    extract_lets +onlyGivenNames t7
    refine Kept.cut (a := t7) ?_ fun _ => ?_
    · unfold t7; clear t7
      refine Kept.ite ?_ ?_
      · refine Kept.of_eq rfl rfl rfl rfl rfl rfl rfl rfl rfl rfl rfl rfl ?_
        assumption
      · assumption
    clear_value t7
    extract_lets +onlyGivenNames t8
    refine Kept.cut (a := t8) ?_ fun _ => ?_
    · unfold t8; clear t8
      apply keeps_tallyEvent
      assumption
    clear_value t8
    refine Kept.ite ?_ ?_
    · apply keeps_interrupt
      assumption
    · assumption

theorem keeps_traceTail {s₀ : State} (s : State) (words : List Word) (h0 : Kept s₀ s) :
    Kept s₀ (State.traceTail s words) := by
  unfold State.traceTail
  refine Kept.of_eq rfl rfl rfl rfl rfl rfl rfl rfl rfl rfl rfl rfl ?_
  assumption

theorem keeps_traceWords {s₀ : State} (s : State) (words : List Word) (h0 : Kept s₀ s) :
    Kept s₀ (State.traceWords s words) := by
  unfold State.traceWords
  extract_lets +onlyGivenNames t1
  clear_value t1
  extract_lets +onlyGivenNames t2
  clear_value t2
  refine Kept.ite ?_ ?_
  · extract_lets +onlyGivenNames t3
    refine Kept.cut (a := t3) ?_ fun _ => ?_
    · unfold t3; clear t3
      apply keeps_traceTail
      refine Kept.fold ?_ ?_
      · intro a4 a5 a6
        apply keeps_traceTail
        assumption
      · assumption
    clear_value t3
    refine Kept.of_eq rfl rfl rfl rfl rfl rfl rfl rfl rfl rfl rfl rfl ?_
    assumption
  · extract_lets +onlyGivenNames t7
    refine Kept.cut (a := t7) ?_ fun _ => ?_
    · unfold t7; clear t7
      apply keeps_traceTail
      assumption
    clear_value t7
    extract_lets +onlyGivenNames t8
    refine Kept.cut (a := t8) ?_ fun _ => ?_
    · unfold t8; clear t8
      apply keeps_bump
      assumption
    clear_value t8
    extract_lets +onlyGivenNames t9
    extract_lets +onlyGivenNames t10
    extract_lets +onlyGivenNames t11
    refine Kept.cut (a := t11) ?_ fun _ => ?_
    · unfold t11; clear t11
      refine Kept.of_eq rfl rfl rfl rfl rfl rfl rfl rfl rfl rfl rfl rfl ?_
      assumption
    clear_value t11
    refine Kept.ite ?_ ?_
    · apply keeps_firePlain
      assumption
    · assumption

theorem keeps_traceRec {s₀ : State} (s : State) (type : ℕ) (w0 : ℕ) (rest : List ℕ) (h0 : Kept s₀ s) :
    Kept s₀ (State.traceRec s type w0 rest) := by
  unfold State.traceRec
  apply keeps_traceWords
  assumption

theorem keeps_fireCore {s₀ : State} (s : State) (n : ℕ) (inst : ℕ) (detail : ℕ) (forced : Bool) (h0 : Kept s₀ s) :
    Kept s₀ (State.fireCore s n inst detail forced) := by
  unfold State.fireCore
  split
  · assumption
  · extract_lets +onlyGivenNames t1
    clear_value t1
    extract_lets +onlyGivenNames t2
    refine Kept.cut (a := t2) ?_ fun _ => ?_
    · unfold t2; clear t2
      apply keeps_firePlain
      assumption
    clear_value t2
    refine Kept.ite ?_ ?_
    · apply keeps_traceRec
      assumption
    · assumption

theorem keeps_traceStroke {s₀ : State} (s : State) (sl : ℕ) (idx : ℕ) (cause : ℕ) (h0 : Kept s₀ s) :
    Kept s₀ (State.traceStroke s sl idx cause) := by
  unfold State.traceStroke
  refine Kept.ite ?_ ?_
  · apply keeps_traceRec
    assumption
  · assumption

theorem keeps_traceGrant {s₀ : State} (s : State) (cls : ℕ) (rcls : ℕ) (inst : ℕ) (wait : ℕ) (h0 : Kept s₀ s) :
    Kept s₀ (State.traceGrant s cls rcls inst wait) := by
  unfold State.traceGrant
  refine Kept.ite ?_ ?_
  · apply keeps_traceRec
    assumption
  · assumption

theorem keeps_ackSource {s₀ : State} (s : State) (n : ℕ) (session : ℕ) (path : ℕ) (h0 : Kept s₀ s) :
    Kept s₀ (State.ackSource s n session path) := by
  unfold State.ackSource
  refine Kept.ite ?_ ?_
  · assumption
  · apply keeps_tally_
    apply keeps_setSrc
    assumption

theorem keeps_bellTick {s₀ : State} (s : State) (h0 : Kept s₀ s) :
    Kept s₀ (State.bellTick s) := by
  unfold State.bellTick
  extract_lets +onlyGivenNames t1
  clear_value t1
  extract_lets +onlyGivenNames t2
  clear_value t2
  refine Kept.of_eq rfl rfl rfl rfl rfl rfl rfl rfl rfl rfl rfl rfl ?_
  assumption

theorem keeps_beginBlock {s₀ : State} (s : State) (b : ℕ) (h0 : Kept s₀ s) :
    Kept s₀ (State.beginBlock s b) := by
  unfold State.beginBlock
  exact h0.trans ⟨rfl, id, id, id, WfTo.setList, rfl, Nat.le_refl _, fun _ _ => ⟨rfl, id⟩, Nat.le_succ _,
    List.Subset.refl _, Nat.le_refl _, .inl rfl⟩

theorem keeps_writeRec {s₀ : State} (s : State) (r : Rec) (fuel : ℕ) (h0 : Kept s₀ s) :
    Kept s₀ (State.writeRec s r fuel) := by
  induction fuel generalizing s with
  | zero =>
    unfold State.writeRec
    assumption
  | succ n ih =>
    unfold State.writeRec
    refine Kept.ite (ih _ (keeps_beginBlock _ _ h0)) ?_
    refine Kept.ite ?_ ?_
    · refine ih _ (keeps_beginBlock _ _ (keeps_fireCore _ _ _ _ _ ?_))
      exact h0.trans ⟨rfl, id, id, id, id, rfl, Nat.le_refl _, fun _ _ => ⟨rfl, id⟩, Nat.le_refl _,
        List.subset_cons_self _ _, Nat.le_refl _, .inl rfl⟩
    · refine (keeps_bump s 0x0D002 0 1 h0).trans ?_
      exact ⟨rfl, id, id, id, WfTo.setList, rfl, Nat.le_refl _, fun _ _ => ⟨rfl, id⟩, Nat.le_refl _, List.Subset.refl _,
        Nat.le_refl _, .inl rfl⟩

theorem keeps_flushRepeat {s₀ : State} (s : State) (h0 : Kept s₀ s) :
    Kept s₀ (State.flushRepeat s) := by
  unfold State.flushRepeat
  refine Kept.ite ?_ ?_
  · split
    · refine Kept.of_wf rfl ?_ ?_ ?_ ?_ rfl rfl rfl rfl rfl rfl rfl ?_
      · exact WfTo.same
      · exact WfTo.same
      · exact WfTo.same
      · exact WfTo.setList
      · assumption
    · refine Kept.of_eq rfl rfl rfl rfl rfl rfl rfl rfl rfl rfl rfl rfl ?_
      assumption
  · assumption

theorem keeps_startRecord {s₀ : State} (s : State) (cause : ℕ) (order : ℕ) (reset : ℕ) (h0 : Kept s₀ s) :
    Kept s₀ (State.startRecord s cause order reset) := by
  unfold State.startRecord
  extract_lets +onlyGivenNames t1
  refine Kept.cut (a := t1) ?_ fun _ => ?_
  · unfold t1; clear t1
    apply keeps_tally_
    assumption
  clear_value t1
  refine Kept.of_eq rfl rfl rfl rfl rfl rfl rfl rfl rfl rfl rfl rfl ?_
  assumption

theorem keeps_settingRecord {s₀ : State} (s : State) (entry : ℕ) (sub : ℕ) (session : ℕ) (path : ℕ) (role : ℕ) (h0 : Kept s₀ s) :
    Kept s₀ (State.settingRecord s entry sub session path role) := by
  unfold State.settingRecord
  apply keeps_tally_
  assumption

theorem keeps_listRecord {s₀ : State} (s : State) (kind : ℕ) (items : List (List ℕ)) (fuel : ℕ) (h0 : Kept s₀ s) :
    Kept s₀ (State.listRecord s kind items fuel) := by
  induction fuel generalizing s items with
  | zero =>
    unfold State.listRecord
    assumption
  | succ n ih =>
    unfold State.listRecord
    extract_lets +onlyGivenNames t1
    clear_value t1
    refine Kept.ite ?_ ?_
    · apply keeps_tally_
      assumption
    · apply ih
      apply keeps_tally_
      assumption

end Sys2Proof.Laws
end

