-- ==== Sys2Proof/Laws/KeepOperands.lean ====
section
/-! SUPPORT. What each operation of Machine/Operands.lean keeps (Laws/Kept.lean). -/

open Sys2Proof Sys2Proof.Machine

namespace Sys2Proof.Laws

theorem keeps_setStaging {s₀ : State} (s : State) (x1 : Half) (h0 : Kept s₀ s) :
    Kept s₀ (State.setStaging s x1) := by
  unfold State.setStaging
  refine Kept.ite ?_ ?_
  · refine Kept.of_eq rfl rfl rfl rfl rfl rfl rfl rfl rfl rfl rfl rfl ?_
    assumption
  · refine Kept.of_eq rfl rfl rfl rfl rfl rfl rfl rfl rfl rfl rfl rfl ?_
    assumption

end Sys2Proof.Laws
end

