-- ==== Sys2Proof/Laws/KeepUnits.lean ====
section
/-! SUPPORT. What each operation of Machine/Units.lean keeps (Laws/Kept.lean). -/

open Sys2Proof Sys2Proof.Machine

namespace Sys2Proof.Laws

theorem keeps_setDrover {s₀ : State} (s : State) (k : ℕ) (x : Drover) (h0 : Kept s₀ s) :
    Kept s₀ (State.setDrover s k x) := by
  unfold State.setDrover
  refine Kept.of_eq rfl rfl rfl rfl rfl rfl rfl rfl rfl rfl rfl rfl ?_
  assumption

theorem keeps_setDrove {s₀ : State} (s : State) (d : ℕ) (x : Drove) (h0 : Kept s₀ s) :
    Kept s₀ (State.setDrove s d x) := by
  unfold State.setDrove
  refine Kept.of_eq rfl rfl rfl rfl rfl rfl rfl rfl rfl rfl rfl rfl ?_
  assumption

theorem keeps_setBeacon {s₀ : State} (s : State) (b : ℕ) (x : Beacon) (h0 : Kept s₀ s) :
    Kept s₀ (State.setBeacon s b x) := by
  unfold State.setBeacon
  refine Kept.of_eq rfl rfl rfl rfl rfl rfl rfl rfl rfl rfl rfl rfl ?_
  assumption

theorem keeps_setChan {s₀ : State} (s : State) (c : ℕ) (x : BusChan) (h0 : Kept s₀ s) :
    Kept s₀ (State.setChan s c x) := by
  unfold State.setChan
  refine Kept.of_eq rfl rfl rfl rfl rfl rfl rfl rfl rfl rfl rfl rfl ?_
  assumption

theorem keeps_busCount {s₀ : State} (s : State) (c : ℕ) (k : ℕ) (h0 : Kept s₀ s) :
    Kept s₀ (State.busCount s c k) := by
  unfold State.busCount
  apply keeps_bump
  assumption

theorem keeps_withdraw {s₀ : State} (s : State) (c : ℕ) (b : ℕ) (h0 : Kept s₀ s) :
    Kept s₀ (State.withdraw s c b) := by
  unfold State.withdraw
  extract_lets +onlyGivenNames t1
  clear_value t1
  refine Kept.ite ?_ ?_
  · apply keeps_busCount
    apply keeps_setChan
    assumption
  · assumption

theorem keeps_dropFrames {s₀ : State} (s : State) (c : ℕ) (h0 : Kept s₀ s) :
    Kept s₀ (State.dropFrames s c) := by
  unfold State.dropFrames
  extract_lets +onlyGivenNames t1
  refine Kept.cut (a := t1) ?_ fun _ => ?_
  · unfold t1; clear t1
    apply keeps_withdraw
    apply keeps_withdraw
    apply keeps_withdraw
    assumption
  clear_value t1
  extract_lets +onlyGivenNames t2
  clear_value t2
  apply keeps_setChan
  assumption

theorem keeps_busHaltOp {s₀ : State} (s : State) (c : ℕ) (h0 : Kept s₀ s) :
    Kept s₀ (State.busHaltOp s c) := by
  unfold State.busHaltOp
  extract_lets +onlyGivenNames t1
  refine Kept.cut (a := t1) ?_ fun _ => ?_
  · unfold t1; clear t1
    apply keeps_dropFrames
    assumption
  clear_value t1
  apply keeps_setChan
  assumption

theorem keeps_setLink {s₀ : State} (s : State) (l : ℕ) (x : RLink) (h0 : Kept s₀ s) :
    Kept s₀ (State.setLink s l x) := by
  unfold State.setLink
  refine Kept.of_eq rfl rfl rfl rfl rfl rfl rfl rfl rfl rfl rfl rfl ?_
  assumption

theorem keeps_linkCount {s₀ : State} (s : State) (l : ℕ) (k : ℕ) (h0 : Kept s₀ s) :
    Kept s₀ (State.linkCount s l k) := by
  unfold State.linkCount
  apply keeps_bump
  assumption

theorem keeps_quayOff {s₀ : State} (s : State) (h0 : Kept s₀ s) :
    Kept s₀ (State.quayOff s) := by
  unfold State.quayOff
  refine Kept.of_eq rfl rfl rfl rfl rfl rfl rfl rfl rfl rfl rfl rfl ?_
  assumption

theorem keeps_quayHaltOp {s₀ : State} (s : State) (h0 : Kept s₀ s) :
    Kept s₀ (State.quayHaltOp s) := by
  unfold State.quayHaltOp
  extract_lets +onlyGivenNames t1
  clear_value t1
  extract_lets +onlyGivenNames t2
  refine Kept.cut (a := t2) ?_ fun _ => ?_
  · unfold t2; clear t2
    apply keeps_quayOff
    apply keeps_bump
    assumption
  clear_value t2
  refine Kept.of_eq rfl rfl rfl rfl rfl rfl rfl rfl rfl rfl rfl rfl ?_
  assumption

theorem keeps_pairOut {s₀ : State} (s : State) (h0 : Kept s₀ s) :
    Kept s₀ (State.pairOut s) := by
  unfold State.pairOut
  refine Kept.of_eq rfl rfl rfl rfl rfl rfl rfl rfl rfl rfl rfl rfl ?_
  assumption

theorem keeps_pairBell {s₀ : State} (s : State) (h0 : Kept s₀ s) :
    Kept s₀ (State.pairBell s) := by
  unfold State.pairBell
  extract_lets +onlyGivenNames t1
  refine Kept.ite ?_ ?_
  · apply keeps_pairOut
    assumption
  · assumption

end Sys2Proof.Laws
end

