-- ==== Sys2Proof/Laws/KeepGovern.lean ====
section
/-! SUPPORT. What each operation of Machine/Govern.lean keeps (Laws/Kept.lean). -/

open Sys2Proof Sys2Proof.Machine

namespace Sys2Proof.Laws

theorem keeps_setGate {s₀ : State} (s : State) (g : ℕ) (x : Gate) (h0 : Kept s₀ s) :
    Kept s₀ (State.setGate s g x) := by
  unfold State.setGate
  refine Kept.of_eq rfl rfl rfl rfl rfl rfl rfl rfl rfl rfl rfl rfl ?_
  assumption

theorem keeps_gateDown {s₀ : State} (s : State) (g : ℕ) (cause : ℕ) (h0 : Kept s₀ s) :
    Kept s₀ (State.gateDown s g cause) := by
  unfold State.gateDown
  refine Kept.ite ?_ ?_
  · apply keeps_setGate
    assumption
  · assumption

theorem keeps_holdEntry {s₀ : State} (s : State) (h0 : Kept s₀ s) :
    Kept s₀ (State.holdEntry s) := by
  unfold State.holdEntry
  refine Kept.ite ?_ ?_
  · assumption
  · extract_lets +onlyGivenNames t1
    clear_value t1
    refine Kept.of_eq rfl rfl rfl rfl rfl rfl rfl rfl rfl rfl rfl rfl ?_
    assumption

theorem keeps_holdExit {s₀ : State} (s : State) (h0 : Kept s₀ s) :
    Kept s₀ (State.holdExit s) := by
  unfold State.holdExit
  refine Kept.ite ?_ ?_
  · assumption
  · extract_lets +onlyGivenNames t1
    refine Kept.cut (a := t1) ?_ fun _ => ?_
    · unfold t1; clear t1
      refine Kept.fold ?_ ?_
      · intro a1 a2 a3
        dsimp only
        split
        · refine Kept.of_eq rfl rfl rfl rfl rfl rfl rfl rfl rfl rfl rfl rfl ?_
          assumption
        · refine Kept.of_eq rfl rfl rfl rfl rfl rfl rfl rfl rfl rfl rfl rfl ?_
          assumption
        · assumption
      · assumption
    clear_value t1
    refine Kept.of_eq rfl rfl rfl rfl rfl rfl rfl rfl rfl rfl rfl rfl ?_
    assumption

theorem keeps_keepSafe {s₀ : State} (after : State) (before : State) (h0 : Kept s₀ after) (h1 : Kept s₀ before) :
    Kept s₀ (State.keepSafe after before) := by
  unfold State.keepSafe
  refine Kept.ite ?_ ?_
  · assumption
  · refine Kept.fold ?_ ?_
    · intro a1 a2 a3
      refine Kept.ite ?_ ?_
      · refine Kept.of_eq rfl rfl rfl rfl rfl rfl rfl rfl rfl rfl rfl rfl ?_
        assumption
      · assumption
    · assumption

theorem keeps_snapHold {s₀ : State} (s : State) (ps : List ℕ) (h0 : Kept s₀ s) :
    Kept s₀ (State.snapHold s ps) := by
  unfold State.snapHold
  refine Kept.fold ?_ ?_
  · intro a1 a2 a3
    refine Kept.ite ?_ ?_
    · refine Kept.of_eq rfl rfl rfl rfl rfl rfl rfl rfl rfl rfl rfl rfl ?_
      assumption
    · assumption
  · assumption

end Sys2Proof.Laws
end

