-- ==== Sys2Proof/Laws/KeepSafe.lean ====
section
/-! SUPPORT. What each operation of Machine/Safe.lean keeps (Laws/Kept.lean). -/

open Sys2Proof Sys2Proof.Machine

namespace Sys2Proof.Laws

theorem keeps_droverSafe {s₀ : State} (s : State) (k : ℕ) (h0 : Kept s₀ s) :
    Kept s₀ (State.droverSafe s k) := by
  unfold State.droverSafe
  extract_lets +onlyGivenNames t1
  clear_value t1
  refine Kept.ite ?_ ?_
  · apply keeps_setDrover
    assumption
  · assumption

theorem keeps_linkSafe {s₀ : State} (s : State) (l : ℕ) (h0 : Kept s₀ s) :
    Kept s₀ (State.linkSafe s l) := by
  unfold State.linkSafe
  extract_lets +onlyGivenNames t1
  clear_value t1
  refine Kept.ite ?_ ?_
  · assumption
  · extract_lets +onlyGivenNames t2
    clear_value t2
    extract_lets +onlyGivenNames t3
    refine Kept.cut (a := t3) ?_ fun _ => ?_
    · unfold t3; clear t3
      apply keeps_emit
      apply keeps_linkCount
      apply keeps_setLink
      assumption
    clear_value t3
    extract_lets +onlyGivenNames t4
    refine Kept.cut (a := t4) ?_ fun _ => ?_
    · unfold t4; clear t4
      refine Kept.ite ?_ ?_
      · apply keeps_fireCore
        assumption
      · assumption
    clear_value t4
    refine Kept.of_eq rfl rfl rfl rfl rfl rfl rfl rfl rfl rfl rfl rfl ?_
    assumption

theorem keeps_beaconSafe {s₀ : State} (s : State) (b : ℕ) (h0 : Kept s₀ s) :
    Kept s₀ (State.beaconSafe s b) := by
  unfold State.beaconSafe
  extract_lets +onlyGivenNames t1
  clear_value t1
  refine Kept.ite ?_ ?_
  · apply keeps_fireCore
    apply keeps_setBeacon
    assumption
  · assumption

theorem keeps_beaconsSafe {s₀ : State} (s : State) (h0 : Kept s₀ s) :
    Kept s₀ (State.beaconsSafe s) := by
  unfold State.beaconsSafe
  refine Kept.fold ?_ ?_
  · intro a1 a2 a3
    apply keeps_beaconSafe
    assumption
  · assumption

theorem keeps_busesSafe {s₀ : State} (s : State) (test : ℕ → Bool) (h0 : Kept s₀ s) :
    Kept s₀ (State.busesSafe s test) := by
  unfold State.busesSafe
  refine Kept.fold ?_ ?_
  · intro a1 a2 a3
    apply keeps_busHaltOp
    assumption
  · assumption

theorem keeps_tileSafe {s₀ : State} (s : State) (t : ℕ) (h0 : Kept s₀ s) :
    Kept s₀ (State.tileSafe s t) := by
  unfold State.tileSafe
  extract_lets +onlyGivenNames t1
  refine Kept.cut (a := t1) ?_ fun _ => ?_
  · unfold t1; clear t1
    refine Kept.fold ?_ ?_
    · intro a1 a2 a3
      apply keeps_droverSafe
      assumption
    · assumption
  clear_value t1
  extract_lets +onlyGivenNames t2
  clear_value t2
  apply keeps_busesSafe
  assumption

theorem keeps_enterSafe {s₀ : State} (s : State) (n : ℕ) (inst : ℕ) (h0 : Kept s₀ s) :
    Kept s₀ (State.enterSafe s n inst) := by
  unfold State.enterSafe
  split
  · refine Kept.ite ?_ ?_
    · apply keeps_tileSafe
      assumption
    · assumption
  · refine Kept.ite ?_ ?_
    · refine Kept.fold ?_ ?_
      · intro a1 a2 a3
        apply keeps_droverSafe
        assumption
      · assumption
    · apply keeps_droverSafe
      assumption
  · apply keeps_busHaltOp
    assumption
  · apply keeps_linkSafe
    assumption
  · apply keeps_beaconsSafe
    assumption
  · apply keeps_quayHaltOp
    assumption
  · refine Kept.fold ?_ ?_
    · intro a4 a5 a6
      refine Kept.ite ?_ ?_
      · apply keeps_linkSafe
        assumption
      · assumption
    · assumption
  · apply keeps_gateDown
    assumption
  · assumption

theorem keeps_enterFatal {s₀ : State} (s : State) (h0 : Kept s₀ s) :
    Kept s₀ (State.enterFatal s) := by
  unfold State.enterFatal
  extract_lets +onlyGivenNames t1
  refine Kept.cut (a := t1) ?_ fun _ => ?_
  · unfold t1; clear t1
    refine Kept.fold ?_ ?_
    · intro a1 a2 a3
      apply keeps_droverSafe
      assumption
    · assumption
  clear_value t1
  extract_lets +onlyGivenNames t2
  refine Kept.cut (a := t2) ?_ fun _ => ?_
  · unfold t2; clear t2
    apply keeps_busesSafe
    assumption
  clear_value t2
  extract_lets +onlyGivenNames t3
  refine Kept.cut (a := t3) ?_ fun _ => ?_
  · unfold t3; clear t3
    refine Kept.fold ?_ ?_
    · intro a4 a5 a6
      apply keeps_linkSafe
      assumption
    · assumption
  clear_value t3
  refine Kept.fold ?_ ?_
  · intro a7 a8 a9
    apply keeps_gateDown
    assumption
  · apply keeps_quayHaltOp
    apply keeps_beaconsSafe
    assumption

theorem keeps_fire {s₀ : State} (s : State) (n : ℕ) (inst : ℕ) (detail : ℕ) (forced : Bool) (h0 : Kept s₀ s) :
    Kept s₀ (State.fire s n inst detail forced) := by
  unfold State.fire
  extract_lets +onlyGivenNames t1
  refine Kept.cut (a := t1) ?_ fun _ => ?_
  · unfold t1; clear t1
    assumption
  clear_value t1
  extract_lets +onlyGivenNames t2
  refine Kept.cut (a := t2) ?_ fun _ => ?_
  · unfold t2; clear t2
    apply keeps_fireCore
    assumption
  clear_value t2
  extract_lets +onlyGivenNames t1
  extract_lets +onlyGivenNames t2
  refine Kept.cut (a := t2) ?_ fun _ => ?_
  · unfold t2; clear t2
    refine Kept.ite ?_ ?_
    · refine Kept.of_eq rfl rfl rfl rfl rfl rfl rfl rfl rfl rfl rfl rfl ?_
      assumption
    · assumption
  clear_value t2
  extract_lets +onlyGivenNames t3
  refine Kept.cut (a := t3) ?_ fun _ => ?_
  · unfold t3; clear t3
    refine Kept.fold ?_ ?_
    · intro a4 a5 a6
      apply keeps_enterSafe
      apply keeps_keepSafe
      · assumption
      · assumption
    · assumption
  clear_value t3
  extract_lets +onlyGivenNames t7
  refine Kept.cut (a := t7) ?_ fun _ => ?_
  · unfold t7; clear t7
    refine Kept.ite ?_ ?_
    · apply keeps_enterFatal
      apply keeps_keepSafe
      · assumption
      · assumption
    · assumption
  clear_value t7
  apply keeps_pairBell
  assumption

theorem keeps_fireLive {s₀ : State} (s : State) (n : ℕ) (inst : ℕ) (detail : optParam ℕ 0) (h0 : Kept s₀ s) :
    Kept s₀ (State.fireLive s n inst detail) := by
  unfold State.fireLive
  refine Kept.ite ?_ ?_
  · apply keeps_fire
    assumption
  · assumption

end Sys2Proof.Laws
end

