-- ==== Sys2Proof/Laws/KeepKeys.lean ====
section
/-! SUPPORT. What each operation of Machine/Keys.lean keeps (Laws/Kept.lean). -/

open Sys2Proof Sys2Proof.Machine

namespace Sys2Proof.Laws

theorem keeps_setSession {s₀ : State} (s : State) (n : ℕ) (x : Session) (h0 : Kept s₀ s) :
    Kept s₀ (State.setSession s n x) := by
  unfold State.setSession
  refine Kept.of_eq rfl rfl rfl rfl rfl rfl rfl rfl rfl rfl rfl rfl ?_
  assumption

theorem keeps_endSession {s₀ : State} (s : State) (n : ℕ) (h0 : Kept s₀ s) :
    Kept s₀ (State.endSession s n) := by
  unfold State.endSession
  extract_lets +onlyGivenNames t1
  refine Kept.cut (a := t1) ?_ fun _ => ?_
  · unfold t1; clear t1
    apply keeps_setSession
    assumption
  clear_value t1
  refine Kept.of_eq rfl rfl rfl rfl rfl rfl rfl rfl rfl rfl rfl rfl ?_
  assumption

theorem keeps_endSessions {s₀ : State} (s : State) (test : Session → Bool) (h0 : Kept s₀ s) :
    Kept s₀ (State.endSessions s test) := by
  unfold State.endSessions
  refine Kept.fold ?_ ?_
  · intro a1 a2 a3
    apply keeps_endSession
    assumption
  · assumption

theorem keeps_setSlot {s₀ : State} (s : State) (k : ℕ) (x : Slot) (h0 : Kept s₀ s) :
    Kept s₀ (State.setSlot s k x) := by
  unfold State.setSlot
  refine Kept.of_eq rfl rfl rfl rfl rfl rfl rfl rfl rfl rfl rfl rfl ?_
  assumption

theorem keeps_eraseSlot {s₀ : State} (s : State) (k : ℕ) (h0 : Kept s₀ s) :
    Kept s₀ (State.eraseSlot s k) := by
  unfold State.eraseSlot
  extract_lets +onlyGivenNames t1
  clear_value t1
  apply keeps_endSessions
  extract_lets +onlyGivenNames t2
  refine Kept.cut (a := t2) ?_ fun _ => ?_
  · unfold t2; clear t2
    apply keeps_setSlot
    assumption
  clear_value t2
  refine Kept.of_eq rfl rfl rfl rfl rfl rfl rfl rfl rfl rfl rfl rfl ?_
  assumption

theorem keeps_useSlot {s₀ : State} (s : State) (k : ℕ) (h0 : Kept s₀ s) :
    Kept s₀ (State.useSlot s k) := by
  unfold State.useSlot
  extract_lets +onlyGivenNames t1
  clear_value t1
  refine Kept.ite ?_ ?_
  · assumption
  · refine Kept.ite ?_ ?_
    · apply keeps_eraseSlot
      assumption
    · apply keeps_setSlot
      assumption

theorem keeps_foldGrant {s₀ : State} (s : State) (h0 : Kept s₀ s) :
    Kept s₀ (State.foldGrant s) := by
  unfold State.foldGrant
  apply keeps_bump
  assumption

theorem keeps_foldRefuse {s₀ : State} (s : State) (h0 : Kept s₀ s) :
    Kept s₀ (State.foldRefuse s) := by
  unfold State.foldRefuse
  apply keeps_fire
  apply keeps_bump
  assumption

theorem keeps_drawBits {s₀ : State} (s : State) (n : ℕ) (h0 : Kept s₀ s) :
    Kept s₀ (State.drawBits s n).1 := by
  unfold State.drawBits
  dsimp only
  refine Kept.fold1 ?_ ?_
  · intro a1 a2 a3
    apply keeps_draw
    assumption
  · assumption

theorem keeps_loadKey {s₀ : State} (s : State) (k : ℕ) (h0 : Kept s₀ s) :
    Kept s₀ (State.loadKey s k).1 := by
  unfold State.loadKey
  extract_lets +onlyGivenNames t1
  clear_value t1
  split
  · dsimp only
    apply keeps_foldGrant
    apply keeps_useSlot
    assumption
  · dsimp only
    apply keeps_foldRefuse
    assumption

end Sys2Proof.Laws
end

