-- ==== Sys2Proof/Laws/KeepImage.lean ====
section
/-! SUPPORT. What each operation of Machine/Image.lean keeps (Laws/Kept.lean). -/

open Sys2Proof Sys2Proof.Machine

namespace Sys2Proof.Laws

theorem keeps_setLine {s₀ : State} (s : State) (up : Bool) (L : ℕ) (l : Line) (h0 : Kept s₀ s) :
    Kept s₀ (State.setLine s up L l) := by
  unfold State.setLine
  refine Kept.ite ?_ ?_
  · refine Kept.of_wf rfl ?_ ?_ ?_ ?_ rfl rfl rfl rfl rfl rfl rfl ?_
    · exact WfTo.same
    · exact WfTo.set
    · exact WfTo.same
    · exact WfTo.same
    · assumption
  · refine Kept.of_wf rfl ?_ ?_ ?_ ?_ rfl rfl rfl rfl rfl rfl rfl ?_
    · exact WfTo.set
    · exact WfTo.same
    · exact WfTo.same
    · exact WfTo.same
    · assumption

theorem keeps_loseChannel {s₀ : State} (s : State) (c : ℕ) (cause : ℕ) (h0 : Kept s₀ s) :
    Kept s₀ (State.loseChannel s c cause) := by
  unfold State.loseChannel
  refine Kept.ite ?_ ?_
  · assumption
  · apply keeps_fire
    refine Kept.of_eq rfl rfl rfl rfl rfl rfl rfl rfl rfl rfl rfl rfl ?_
    assumption

theorem keeps_queueBack {s₀ : State} (s : State) (up : Bool) (L : ℕ) (h0 : Kept s₀ s) :
    Kept s₀ (State.queueBack s up L) := by
  unfold State.queueBack
  refine Kept.ite ?_ ?_
  · assumption
  · refine Kept.ite ?_ ?_
    · assumption
    · refine Kept.of_eq rfl rfl rfl rfl rfl rfl rfl rfl rfl rfl rfl rfl ?_
      assumption

theorem keeps_logPoison {s₀ : State} (s : State) (up : Bool) (L : ℕ) (h0 : Kept s₀ s) :
    Kept s₀ (State.logPoison s up L) := by
  unfold State.logPoison
  extract_lets +onlyGivenNames t1
  clear_value t1
  refine Kept.of_eq rfl rfl rfl rfl rfl rfl rfl rfl rfl rfl rfl rfl ?_
  assumption

theorem keeps_countFound {s₀ : State} (s : State) (c : ℕ) (h0 : Kept s₀ s) :
    Kept s₀ (State.countFound s c) := by
  unfold State.countFound
  extract_lets +onlyGivenNames t1
  clear_value t1
  extract_lets +onlyGivenNames t2
  extract_lets +onlyGivenNames t3
  refine Kept.cut (a := t3) ?_ fun _ => ?_
  · unfold t3; clear t3
    refine Kept.of_eq rfl rfl rfl rfl rfl rfl rfl rfl rfl rfl rfl rfl ?_
    assumption
  clear_value t3
  refine Kept.ite ?_ ?_
  · apply keeps_loseChannel
    assumption
  · assumption

theorem keeps_foundBad {s₀ : State} (s : State) (up : Bool) (L : ℕ) (h0 : Kept s₀ s) :
    Kept s₀ (State.foundBad s up L) := by
  unfold State.foundBad
  refine Kept.ite ?_ ?_
  · assumption
  · extract_lets +onlyGivenNames t1
    refine Kept.cut (a := t1) ?_ fun _ => ?_
    · unfold t1; clear t1
      apply keeps_logPoison
      apply keeps_bumpFld
      apply keeps_bumpFld
      assumption
    clear_value t1
    extract_lets +onlyGivenNames t2
    refine Kept.cut (a := t2) ?_ fun _ => ?_
    · unfold t2; clear t2
      apply keeps_fire
      assumption
    clear_value t2
    refine Kept.ite ?_ ?_
    · apply keeps_countFound
      assumption
    · assumption

theorem keeps_foundSingle {s₀ : State} (s : State) (up : Bool) (L : ℕ) (h0 : Kept s₀ s) :
    Kept s₀ (State.foundSingle s up L) := by
  unfold State.foundSingle
  apply keeps_fire
  apply keeps_queueBack
  apply keeps_bumpFld
  assumption

theorem keeps_checkLine {s₀ : State} (s : State) (up : Bool) (L : ℕ) (h0 : Kept s₀ s) :
    Kept s₀ (State.checkLine s up L).1 := by
  unfold State.checkLine
  extract_lets +onlyGivenNames t1
  clear_value t1
  extract_lets +onlyGivenNames t2
  refine Kept.cut (a := t2) ?_ fun _ => ?_
  · unfold t2; clear t2
    refine Kept.ite ?_ ?_
    · apply keeps_foundSingle
      assumption
    · assumption
  clear_value t2
  split
  · dsimp only
    apply keeps_foundBad
    assumption
  · dsimp only
    assumption

theorem keeps_heldFull {s₀ : State} (s : State) (up : Bool) (L : ℕ) (h0 : Kept s₀ s) :
    Kept s₀ (State.heldFull s up L) := by
  unfold State.heldFull
  apply keeps_fire
  apply keeps_bump
  assumption

theorem keeps_heldAdd {s₀ : State} (s : State) (up : Bool) (x2 : Held) (h0 : Kept s₀ s) :
    Kept s₀ (State.heldAdd s up x2) := by
  unfold State.heldAdd
  extract_lets +onlyGivenNames t1
  clear_value t1
  refine Kept.ite ?_ ?_
  · apply keeps_heldFull
    assumption
  · refine Kept.of_eq rfl rfl rfl rfl rfl rfl rfl rfl rfl rfl rfl rfl ?_
    assumption

theorem keeps_heldClear {s₀ : State} (s : State) (up : Bool) (L : ℕ) (mask : ℕ) (h0 : Kept s₀ s) :
    Kept s₀ (State.heldClear s up L mask) := by
  unfold State.heldClear
  extract_lets +onlyGivenNames t1
  clear_value t1
  extract_lets +onlyGivenNames t2
  clear_value t2
  extract_lets +onlyGivenNames t3
  extract_lets +onlyGivenNames t4
  refine Kept.cut (a := t4) ?_ fun _ => ?_
  · unfold t4; clear t4
    refine Kept.of_eq rfl rfl rfl rfl rfl rfl rfl rfl rfl rfl rfl rfl ?_
    assumption
  clear_value t4
  refine Kept.ite ?_ ?_
  · apply keeps_heldFull
    assumption
  · assumption

theorem keeps_countHeld {s₀ : State} (s : State) (up : Bool) (L : ℕ) (mask : ℕ) (h0 : Kept s₀ s) :
    Kept s₀ (State.countHeld s up L mask) := by
  unfold State.countHeld
  refine Kept.ite ?_ ?_
  · assumption
  · apply keeps_bump
    assumption

theorem keeps_schedRead {s₀ : State} (s : State) (p : Place) (free : Bool) (mask : ℕ) (h0 : Kept s₀ s) :
    Kept s₀ (State.schedRead s p free mask).1 := by
  unfold State.schedRead
  split
  extract_lets +onlyGivenNames t1
  refine Kept.cut (a := t1) ?_ fun _ => ?_
  · unfold t1; clear t1
    apply keeps_countHeld
    refine Kept.ofEq (by assumption) ?_
    apply keeps_checkLine
    assumption
  clear_value t1
  split
  · dsimp only
    assumption
  · split
    · dsimp only
      assumption
    · split
      · dsimp only
        apply keeps_bump
        assumption
      · split
        · dsimp only
          assumption
        · dsimp only
          assumption

theorem keeps_refusePoison {s₀ : State} (s : State) (up : Bool) (P : ℕ) (h0 : Kept s₀ s) :
    Kept s₀ (State.refusePoison s up P) := by
  unfold State.refusePoison
  apply keeps_fire
  apply keeps_bumpFld
  assumption

theorem keeps_writeWhole {s₀ : State} (s : State) (up : Bool) (P : ℕ) (w : List Word) (tag : Option ℕ) (h0 : Kept s₀ s) :
    Kept s₀ (State.writeWhole s up P w tag) := by
  unfold State.writeWhole
  extract_lets +onlyGivenNames t1
  clear_value t1
  extract_lets +onlyGivenNames t2
  clear_value t2
  extract_lets +onlyGivenNames t3
  refine Kept.cut (a := t3) ?_ fun _ => ?_
  · unfold t3; clear t3
    apply keeps_setLine
    assumption
  clear_value t3
  apply keeps_heldClear
  refine Kept.of_eq rfl rfl rfl rfl rfl rfl rfl rfl rfl rfl rfl rfl ?_
  assumption

theorem keeps_writeOver {s₀ : State} (s : State) (up : Bool) (P : ℕ) (mask : ℕ) (w : List Word) (tag : Option ℕ) (bad : Bool) (old : List Word) (h0 : Kept s₀ s) :
    Kept s₀ (State.writeOver s up P mask w tag bad old).1 := by
  unfold State.writeOver
  split
  · extract_lets +onlyGivenNames t1
    refine Kept.cut (a := t1) ?_ fun _ => ?_
    · unfold t1; clear t1
      apply keeps_refusePoison
      assumption
    clear_value t1
    dsimp only
    apply keeps_setLine
    assumption
  · extract_lets +onlyGivenNames t2
    clear_value t2
    extract_lets +onlyGivenNames t3
    refine Kept.cut (a := t3) ?_ fun _ => ?_
    · unfold t3; clear t3
      apply keeps_setLine
      assumption
    clear_value t3
    extract_lets +onlyGivenNames t4
    extract_lets +onlyGivenNames t5
    refine Kept.cut (a := t5) ?_ fun _ => ?_
    · unfold t5; clear t5
      refine Kept.of_eq rfl rfl rfl rfl rfl rfl rfl rfl rfl rfl rfl rfl ?_
      assumption
    clear_value t5
    dsimp only
    apply keeps_heldClear
    assumption

theorem keeps_writeLine {s₀ : State} (s : State) (up : Bool) (P : ℕ) (mask : ℕ) (w : List Word) (tag : Option ℕ) (h0 : Kept s₀ s) :
    Kept s₀ (State.writeLine s up P mask w tag).1 := by
  unfold State.writeLine
  split
  · dsimp only
    apply keeps_writeWhole
    assumption
  · split
    · dsimp only
      assumption
    · split
      apply keeps_writeOver
      refine Kept.ofEq (by assumption) ?_
      apply keeps_checkLine
      assumption

theorem keeps_schedWrite {s₀ : State} (s : State) (p : Place) (mask : ℕ) (w : List Word) (old : Option (Bool × List Word)) (h0 : Kept s₀ s) :
    Kept s₀ (State.schedWrite s p mask w old) := by
  unfold State.schedWrite
  extract_lets +onlyGivenNames t1
  clear_value t1
  split
  · apply keeps_writeOver
    assumption
  · apply keeps_writeLine
    assumption

theorem keeps_markHeld {s₀ : State} (s : State) (dst : List Place) (mask : ℕ → ℕ) (h0 : Kept s₀ s) :
    Kept s₀ (State.markHeld s dst mask) := by
  unfold State.markHeld
  extract_lets +onlyGivenNames t1
  clear_value t1
  extract_lets +onlyGivenNames t2
  clear_value t2
  extract_lets +onlyGivenNames t3
  refine Kept.cut (a := t3) ?_ fun _ => ?_
  · unfold t3; clear t3
    refine Kept.fold ?_ ?_
    · intro a4 a5 a6
      refine Kept.of_eq rfl rfl rfl rfl rfl rfl rfl rfl rfl rfl rfl rfl ?_
      assumption
    · assumption
  clear_value t3
  refine Kept.fold ?_ ?_
  · intro a7 a8 a9
    apply keeps_heldAdd
    assumption
  · assumption

theorem keeps_unschedRead {s₀ : State} (s : State) (up : Bool) (L : ℕ) (mask : ℕ) (h0 : Kept s₀ s) :
    Kept s₀ (State.unschedRead s up L mask).1 := by
  unfold State.unschedRead
  split
  · split
    · dsimp only
      assumption
    · split
      dsimp only
      apply keeps_countHeld
      refine Kept.ofEq (by assumption) ?_
      apply keeps_checkLine
      assumption
  · split
    · dsimp only
      assumption
    · split
      · split
        dsimp only
        apply keeps_countHeld
        refine Kept.ofEq (by assumption) ?_
        apply keeps_checkLine
        assumption
      · extract_lets +onlyGivenNames t4
        clear_value t4
        extract_lets +onlyGivenNames t5
        clear_value t5
        split
        extract_lets +onlyGivenNames t6
        refine Kept.cut (a := t6) ?_ fun _ => ?_
        · unfold t6; clear t6
          apply keeps_countHeld
          refine Kept.ofEq (by assumption) ?_
          apply keeps_checkLine
          assumption
        clear_value t6
        split
        · dsimp only
          apply keeps_bump
          assumption
        · dsimp only
          assumption

theorem keeps_unschedWrite {s₀ : State} (s : State) (up : Bool) (L : ℕ) (mask : ℕ) (w : List Word) (b : Option ℕ) (h0 : Kept s₀ s) :
    Kept s₀ (State.unschedWrite s up L mask w b).1 := by
  unfold State.unschedWrite
  split
  · split
    · dsimp only
      assumption
    · split
      dsimp only
      refine Kept.ofEq (by assumption) ?_
      apply keeps_writeLine
      assumption
  · split
    · dsimp only
      assumption
    · split
      · split
        dsimp only
        refine Kept.ofEq (by assumption) ?_
        apply keeps_writeLine
        assumption
      · split
        · dsimp only
          assumption
        · split
          · dsimp only
            assumption
          · split
            · dsimp only
              assumption
            · extract_lets +onlyGivenNames t7
              clear_value t7
              split
              dsimp only
              refine Kept.ofEq (by assumption) ?_
              apply keeps_writeLine
              assumption

end Sys2Proof.Laws
end

