-- ==== Sys2Proof/Laws/KeepPens.lean ====
section
/-! SUPPORT. What each operation of Machine/Pens.lean keeps (Laws/Kept.lean). -/

open Sys2Proof Sys2Proof.Machine

namespace Sys2Proof.Laws

theorem keeps_setPen {s₀ : State} (s : State) (p : ℕ) (x : Pen) (h0 : Kept s₀ s) :
    Kept s₀ (State.setPen s p x) := by
  unfold State.setPen
  refine Kept.of_eq rfl rfl rfl rfl rfl rfl rfl rfl rfl rfl rfl rfl ?_
  assumption

theorem keeps_penRise {s₀ : State} (s : State) (p : ℕ) (h0 : Kept s₀ s) :
    Kept s₀ (State.penRise s p) := by
  unfold State.penRise
  extract_lets +onlyGivenNames t1
  clear_value t1
  extract_lets +onlyGivenNames t2
  clear_value t2
  refine Kept.ite ?_ ?_
  · extract_lets +onlyGivenNames t3
    refine Kept.cut (a := t3) ?_ fun _ => ?_
    · unfold t3; clear t3
      apply keeps_fire
      apply keeps_setPen
      assumption
    clear_value t3
    extract_lets +onlyGivenNames t4
    clear_value t4
    refine Kept.ite ?_ ?_
    · apply keeps_msiSend
      assumption
    · assumption
  · assumption

theorem keeps_penFall {s₀ : State} (s : State) (p : ℕ) (h0 : Kept s₀ s) :
    Kept s₀ (State.penFall s p) := by
  unfold State.penFall
  extract_lets +onlyGivenNames t1
  clear_value t1
  refine Kept.ite ?_ ?_
  · apply keeps_setPen
    assumption
  · assumption

theorem keeps_penCheck {s₀ : State} (s : State) (p : ℕ) (h0 : Kept s₀ s) :
    Kept s₀ (State.penCheck s p).1 := by
  unfold State.penCheck
  split
  · dsimp only
    assumption
  · dsimp only
    apply keeps_fire
    apply keeps_bumpFld
    apply keeps_penFall
    apply keeps_setPen
    assumption

theorem keeps_penOverflow {s₀ : State} (s : State) (p : ℕ) (h0 : Kept s₀ s) :
    Kept s₀ (State.penOverflow s p) := by
  unfold State.penOverflow
  apply keeps_fire
  apply keeps_bumpFld
  assumption

theorem keeps_penPoke {s₀ : State} (s : State) (p : ℕ) (at_ : ℕ) (w : Word) (h0 : Kept s₀ s) :
    Kept s₀ (State.penPoke s p at_ w) := by
  unfold State.penPoke
  refine Kept.of_wf rfl ?_ ?_ ?_ ?_ rfl rfl rfl rfl rfl rfl rfl ?_
  · exact WfTo.same
  · exact WfTo.same
  · exact WfTo.set
  · exact WfTo.same
  · assumption

theorem keeps_penWord {s₀ : State} (s : State) (p : ℕ) (w : Word) (h0 : Kept s₀ s) :
    Kept s₀ (State.penWord s p w) := by
  unfold State.penWord
  extract_lets +onlyGivenNames t1
  clear_value t1
  extract_lets +onlyGivenNames t2
  clear_value t2
  apply keeps_setPen
  apply keeps_penPoke
  assumption

theorem keeps_penStream {s₀ : State} (s : State) (p : ℕ) (w : Word) (h0 : Kept s₀ s) :
    Kept s₀ (State.penStream s p w).1 := by
  unfold State.penStream
  extract_lets +onlyGivenNames t1
  clear_value t1
  extract_lets +onlyGivenNames t2
  clear_value t2
  split
  · dsimp only
    apply keeps_setPen
    assumption
  · split
    · dsimp only
      apply keeps_penOverflow
      apply keeps_setPen
      assumption
    · extract_lets +onlyGivenNames t3
      refine Kept.cut (a := t3) ?_ fun _ => ?_
      · unfold t3; clear t3
        apply keeps_penWord
        assumption
      clear_value t3
      extract_lets +onlyGivenNames t4
      clear_value t4
      dsimp only
      refine Kept.ite ?_ ?_
      · apply keeps_penRise
        apply keeps_setPen
        assumption
      · assumption

theorem keeps_penPacketWord {s₀ : State} (s : State) (p : ℕ) (w : Word) (h0 : Kept s₀ s) :
    Kept s₀ (State.penPacketWord s p w).1 := by
  unfold State.penPacketWord
  extract_lets +onlyGivenNames t1
  clear_value t1
  extract_lets +onlyGivenNames t2
  clear_value t2
  split
  · dsimp only
    assumption
  · extract_lets +onlyGivenNames t3
    clear_value t3
    split
    · dsimp only
      apply keeps_penOverflow
      apply keeps_setPen
      assumption
    · dsimp only
      apply keeps_penWord
      apply keeps_setPen
      assumption

theorem keeps_penWordIn {s₀ : State} (s : State) (p : ℕ) (w : Word) (h0 : Kept s₀ s) :
    Kept s₀ (State.penWordIn s p w).1 := by
  unfold State.penWordIn
  extract_lets +onlyGivenNames t1
  clear_value t1
  split
  · dsimp only
    apply keeps_penOverflow
    apply keeps_setPen
    assumption
  · split
    · apply keeps_penPacketWord
      assumption
    · apply keeps_penStream
      assumption

theorem keeps_penWordsIn {s₀ : State} (s : State) (p : ℕ) (x2 : List Word) (h0 : Kept s₀ s) :
    Kept s₀ (State.penWordsIn s p x2).1 := by
  induction x2 generalizing s with
  | nil =>
    unfold State.penWordsIn
    dsimp only
    assumption
  | cons a l ih =>
    unfold State.penWordsIn
    split
    split
    dsimp only
    refine Kept.ofEq (by assumption) ?_
    apply ih
    refine Kept.ofEq (by assumption) ?_
    apply keeps_penWordIn
    assumption

theorem keeps_penPushLost {s₀ : State} (s : State) (p : ℕ) (ws : List Word) (h0 : Kept s₀ s) :
    Kept s₀ (State.penPushLost s p ws).1 := by
  unfold State.penPushLost
  split
  · dsimp only
    refine Kept.ofEq (by assumption) ?_
    apply keeps_penCheck
    assumption
  · split
    · dsimp only
      refine Kept.ofEq (by assumption) ?_
      apply keeps_penCheck
      assumption
    · split
      · split
        · dsimp only
          refine Kept.ofEq (by assumption) ?_
          apply keeps_penCheck
          assumption
        · extract_lets +onlyGivenNames t1
          refine Kept.cut (a := t1) ?_ fun _ => ?_
          · unfold t1; clear t1
            refine Kept.ite ?_ ?_
            · refine Kept.ofEq (by assumption) ?_
              apply keeps_penCheck
              assumption
            · apply keeps_setPen
              refine Kept.ofEq (by assumption) ?_
              apply keeps_penCheck
              assumption
          clear_value t1
          dsimp only
          apply keeps_penOverflow
          assumption
      · apply keeps_penWordsIn
        refine Kept.ofEq (by assumption) ?_
        apply keeps_penCheck
        assumption

theorem keeps_penPush {s₀ : State} (s : State) (p : ℕ) (ws : List Word) (h0 : Kept s₀ s) :
    Kept s₀ (State.penPush s p ws) := by
  unfold State.penPush
  apply keeps_penPushLost
  assumption

theorem keeps_penSeal {s₀ : State} (s : State) (p : ℕ) (k : ℕ) (h0 : Kept s₀ s) :
    Kept s₀ (State.penSeal s p k) := by
  unfold State.penSeal
  extract_lets +onlyGivenNames t1
  clear_value t1
  extract_lets +onlyGivenNames t2
  clear_value t2
  extract_lets +onlyGivenNames t3
  clear_value t3
  extract_lets +onlyGivenNames t4
  refine Kept.cut (a := t4) ?_ fun _ => ?_
  · unfold t4; clear t4
    refine Kept.fold ?_ ?_
    · intro a1 a2 a3
      apply keeps_penPoke
      assumption
    · assumption
  clear_value t4
  extract_lets +onlyGivenNames t5
  clear_value t5
  apply keeps_penRise
  apply keeps_setPen
  assumption

theorem keeps_penCommit {s₀ : State} (s : State) (p : ℕ) (h0 : Kept s₀ s) :
    Kept s₀ (State.penCommit s p) := by
  unfold State.penCommit
  split
  extract_lets +onlyGivenNames t1
  clear_value t1
  refine Kept.ite ?_ ?_
  · refine Kept.ofEq (by assumption) ?_
    apply keeps_penCheck
    assumption
  · refine Kept.ite ?_ ?_
    · apply keeps_setPen
      refine Kept.ofEq (by assumption) ?_
      apply keeps_penCheck
      assumption
    · extract_lets +onlyGivenNames t2
      clear_value t2
      refine Kept.ite ?_ ?_
      · apply keeps_setPen
        refine Kept.ofEq (by assumption) ?_
        apply keeps_penCheck
        assumption
      · apply keeps_penSeal
        refine Kept.ofEq (by assumption) ?_
        apply keeps_penCheck
        assumption

theorem keeps_penBad {s₀ : State} (s : State) (p : ℕ) (h0 : Kept s₀ s) :
    Kept s₀ (State.penBad s p) := by
  unfold State.penBad
  dsimp only
  refine Kept.ite ?_ ?_
  · apply keeps_penCheck
    assumption
  · refine Kept.ite ?_ ?_
    · apply keeps_bumpFld
      apply keeps_setPen
      apply keeps_penCheck
      assumption
    · apply keeps_penCheck
      assumption

theorem keeps_penCutShort {s₀ : State} (s : State) (p : ℕ) (h0 : Kept s₀ s) :
    Kept s₀ (State.penCutShort s p) := by
  unfold State.penCutShort
  extract_lets +onlyGivenNames t1
  clear_value t1
  refine Kept.ite ?_ ?_
  · apply keeps_setPen
    assumption
  · apply keeps_penBad
    assumption

theorem keeps_penTake {s₀ : State} (s : State) (p : ℕ) (h0 : Kept s₀ s) :
    Kept s₀ (State.penTake s p).1 := by
  unfold State.penTake
  extract_lets +onlyGivenNames t1
  clear_value t1
  extract_lets +onlyGivenNames t2
  clear_value t2
  split
  · assumption
  · extract_lets +onlyGivenNames t3
    clear_value t3
    apply keeps_setPen
    assumption

theorem keeps_penPositions {s₀ : State} (s : State) (p : ℕ) (x2 : ℕ) (h0 : Kept s₀ s) :
    Kept s₀ (State.penPositions s p x2).1 := by
  induction x2 generalizing s with
  | zero =>
    unfold State.penPositions
    assumption
  | succ n ih =>
    unfold State.penPositions
    extract_lets +onlyGivenNames t1
    clear_value t1
    dsimp only
    apply ih
    split
    · assumption
    · split
      · apply keeps_bump
        assumption
      · split
        · refine Kept.ofEq (by assumption) ?_
          apply keeps_penTake
          assumption
        · apply keeps_bump
          refine Kept.ofEq (by assumption) ?_
          apply keeps_penTake
          assumption

theorem keeps_penReadN {s₀ : State} (s : State) (p : ℕ) (n : ℕ) (h0 : Kept s₀ s) :
    Kept s₀ (State.penReadN s p n).1 := by
  unfold State.penReadN
  dsimp only
  apply keeps_penFall
  apply keeps_penPositions
  apply keeps_penCheck
  assumption

theorem keeps_penFlush {s₀ : State} (s : State) (p : ℕ) (h0 : Kept s₀ s) :
    Kept s₀ (State.penFlush s p) := by
  unfold State.penFlush
  dsimp only
  refine Kept.ite ?_ ?_
  · apply keeps_penCheck
    assumption
  · apply keeps_penFall
    apply keeps_bumpFld
    apply keeps_setPen
    apply keeps_penCheck
    assumption

theorem keeps_penHaltOp {s₀ : State} (s : State) (p : ℕ) (h0 : Kept s₀ s) :
    Kept s₀ (State.penHaltOp s p) := by
  unfold State.penHaltOp
  refine Kept.ite ?_ ?_
  · extract_lets +onlyGivenNames t1
    refine Kept.cut (a := t1) ?_ fun _ => ?_
    · unfold t1; clear t1
      apply keeps_penFlush
      assumption
    clear_value t1
    apply keeps_setPen
    assumption
  · apply keeps_penCheck
    assumption

theorem keeps_penEnable {s₀ : State} (s : State) (p : ℕ) (v : ℕ) (h0 : Kept s₀ s) :
    Kept s₀ (State.penEnable s p v) := by
  unfold State.penEnable
  extract_lets +onlyGivenNames t1
  clear_value t1
  split
  · apply keeps_setPen
    assumption
  · apply keeps_setPen
    assumption
  · apply keeps_setPen
    assumption
  · assumption

theorem keeps_penPacketIn {s₀ : State} (s : State) (p : ℕ) (ws : List Word) (h0 : Kept s₀ s) :
    Kept s₀ (State.penPacketIn s p ws).1 := by
  unfold State.penPacketIn
  split
  dsimp only
  apply keeps_penCommit
  refine Kept.ofEq (by assumption) ?_
  apply keeps_penPushLost
  assumption

theorem keeps_penPacketOut {s₀ : State} (s : State) (p : ℕ) (h0 : Kept s₀ s) :
    Kept s₀ (State.penPacketOut s p).1 := by
  unfold State.penPacketOut
  split
  · assumption
  · dsimp only
    apply keeps_penReadN
    apply keeps_penReadN
    assumption

theorem keeps_execFlush {s₀ : State} (p : Fin 4096) (s : State) (h0 : Kept s₀ s) :
    ∃ out, execFlush p s = .next out ∧ Kept s₀ out := by
  unfold execFlush
  refine ⟨_, rfl, ?_⟩
  refine Kept.ite ?_ ?_
  · assumption
  · apply keeps_penFlush
    assumption

theorem keeps_execPenHalt {s₀ : State} (p : Fin 4096) (s : State) (h0 : Kept s₀ s) :
    ∃ out, execPenHalt p s = .next out ∧ Kept s₀ out := by
  unfold execPenHalt
  refine ⟨_, rfl, ?_⟩
  refine Kept.ite ?_ ?_
  · assumption
  · apply keeps_penHaltOp
    assumption

theorem keeps_execMarkBad {s₀ : State} (p : Fin 4096) (s : State) (h0 : Kept s₀ s) :
    ∃ out, execMarkBad p s = .next out ∧ Kept s₀ out := by
  unfold execMarkBad
  refine ⟨_, rfl, ?_⟩
  apply keeps_penBad
  assumption

theorem keeps_execPenDrainDone {s₀ : State} (p : Fin 4096) (s : State) (h0 : Kept s₀ s) :
    ∃ out, execPenDrainDone p s = .next out ∧ Kept s₀ out := by
  unfold execPenDrainDone
  refine ⟨_, rfl, ?_⟩
  refine Kept.ite ?_ ?_
  · apply keeps_setPen
    assumption
  · assumption

end Sys2Proof.Laws
end

