-- ==== Sys2Proof/Laws/KeepSession.lean ====
section
/-! SUPPORT. What each operation of Machine/Session.lean keeps (Laws/Kept.lean). -/

open Sys2Proof Sys2Proof.Machine

namespace Sys2Proof.Laws

theorem keeps_hostRsp {s₀ : State} (s : State) (ws : List ℕ) (h0 : Kept s₀ s) :
    Kept s₀ (State.hostRsp s ws) := by
  unfold State.hostRsp
  refine Kept.ite ?_ ?_
  · assumption
  · extract_lets +onlyGivenNames t1
    clear_value t1
    extract_lets +onlyGivenNames t2
    clear_value t2
    extract_lets +onlyGivenNames t3
    clear_value t3
    extract_lets +onlyGivenNames t4
    refine Kept.cut (a := t4) ?_ fun _ => ?_
    · unfold t4; clear t4
      refine Kept.of_eq rfl rfl rfl rfl rfl rfl rfl rfl rfl rfl rfl rfl ?_
      assumption
    clear_value t4
    refine Kept.ite ?_ ?_
    · apply keeps_interrupt
      assumption
    · assumption

theorem keeps_reply {s₀ : State} (s : State) (path : ℕ) (source : ℕ) (ws : List ℕ) (h0 : Kept s₀ s) :
    Kept s₀ (State.reply s path source ws) := by
  unfold State.reply
  split
  · apply keeps_hostRsp
    assumption
  · refine Kept.of_eq rfl rfl rfl rfl rfl rfl rfl rfl rfl rfl rfl rfl ?_
    assumption
  · apply keeps_emit
    assumption

theorem keeps_respond {s₀ : State} (s : State) (path : ℕ) (source : ℕ) (x3 : Head) (body : List ℕ) (h0 : Kept s₀ s) :
    Kept s₀ (State.respond s path source x3 body) := by
  unfold State.respond
  extract_lets +onlyGivenNames t1
  clear_value t1
  extract_lets +onlyGivenNames t2
  refine Kept.cut (a := t2) ?_ fun _ => ?_
  · unfold t2; clear t2
    refine Kept.ite ?_ ?_
    · assumption
    · apply keeps_bump
      assumption
  clear_value t2
  extract_lets +onlyGivenNames t3
  refine Kept.cut (a := t3) ?_ fun _ => ?_
  · unfold t3; clear t3
    refine Kept.ite ?_ ?_
    · apply keeps_bump
      assumption
    · assumption
  clear_value t3
  apply keeps_reply
  assumption

theorem keeps_takeReq {s₀ : State} (s : State) (path : ℕ) (h0 : Kept s₀ s) :
    Kept s₀ (State.takeReq s path) := by
  unfold State.takeReq
  split
  · refine Kept.of_eq rfl rfl rfl rfl rfl rfl rfl rfl rfl rfl rfl rfl ?_
    assumption
  · refine Kept.of_eq rfl rfl rfl rfl rfl rfl rfl rfl rfl rfl rfl rfl ?_
    assumption
  · assumption

end Sys2Proof.Laws
end

