-- ==== Sys2Proof/Laws/KeepMirror.lean ====
section
/-! SUPPORT. What each operation of Machine/Mirror.lean keeps (Laws/Kept.lean). -/

open Sys2Proof Sys2Proof.Machine

namespace Sys2Proof.Laws

theorem keeps_addItem {s₀ : State} (s : State) (it : List ℕ) (h0 : Kept s₀ s) :
    Kept s₀ (State.addItem s it) := by
  unfold State.addItem
  refine Kept.ite ?_ ?_
  · assumption
  · extract_lets +onlyGivenNames t1
    clear_value t1
    extract_lets +onlyGivenNames t2
    clear_value t2
    refine Kept.ite ?_ ?_
    · refine Kept.of_eq rfl rfl rfl rfl rfl rfl rfl rfl rfl rfl rfl rfl ?_
      assumption
    · refine Kept.of_eq rfl rfl rfl rfl rfl rfl rfl rfl rfl rfl rfl rfl ?_
      assumption

theorem keeps_mirrorLine {s₀ : State} (s : State) (up : Bool) (L : ℕ) (h0 : Kept s₀ s) :
    Kept s₀ (State.mirrorLine s up L) := by
  unfold State.mirrorLine
  apply keeps_addItem
  assumption

theorem keeps_clientWrite {s₀ : State} (s : State) (c : ℕ) (up : Bool) (L : ℕ) (mask : ℕ) (w : List Word) (b : optParam (Option ℕ) none) (req : optParam (Option Msg) none) (h0 : Kept s₀ s) :
    Kept s₀ (State.clientWrite s c up L mask w b req).1 := by
  unfold State.clientWrite
  extract_lets +onlyGivenNames t1
  clear_value t1
  split
  · dsimp only
    assumption
  · split
    · dsimp only
      refine Kept.ite ?_ ?_
      · apply keeps_mirrorLine
        refine Kept.ofEq (by assumption) ?_
        apply keeps_unschedWrite
        assumption
      · refine Kept.ofEq (by assumption) ?_
        apply keeps_unschedWrite
        assumption
    · dsimp only
      refine Kept.of_eq rfl rfl rfl rfl rfl rfl rfl rfl rfl rfl rfl rfl ?_
      refine Kept.ofEq (by assumption) ?_
      apply keeps_unschedWrite
      assumption
    · dsimp only
      refine Kept.ofEq (by assumption) ?_
      apply keeps_unschedWrite
      assumption

theorem keeps_pointEnds {s₀ : State} (s : State) (req : Option Msg) (code : ℕ) (h0 : Kept s₀ s) :
    Kept s₀ (State.pointEnds s req code) := by
  unfold State.pointEnds
  split
  · assumption
  · refine Kept.ite ?_ ?_
    · apply keeps_respond
      refine Kept.of_eq rfl rfl rfl rfl rfl rfl rfl rfl rfl rfl rfl rfl ?_
      assumption
    · assumption

theorem keeps_skipLine {s₀ : State} (s : State) (up : Bool) (L : ℕ) (h0 : Kept s₀ s) :
    Kept s₀ (State.skipLine s up L) := by
  unfold State.skipLine
  apply keeps_tallyEvent
  apply keeps_bump
  assumption

theorem keeps_landWrite {s₀ : State} (s : State) (x : WaitWrite) (h0 : Kept s₀ s) :
    Kept s₀ (State.landWrite s x) := by
  unfold State.landWrite
  split
  · apply keeps_pointEnds
    refine Kept.ite ?_ ?_
    · apply keeps_mirrorLine
      refine Kept.ofEq (by assumption) ?_
      apply keeps_unschedWrite
      assumption
    · refine Kept.ofEq (by assumption) ?_
      apply keeps_unschedWrite
      assumption
  · extract_lets +onlyGivenNames t1
    refine Kept.cut (a := t1) ?_ fun _ => ?_
    · unfold t1; clear t1
      split
      · refine Kept.ite ?_ ?_
        · apply keeps_fire
          apply keeps_bump
          refine Kept.ofEq (by assumption) ?_
          apply keeps_unschedWrite
          assumption
        · apply keeps_bump
          refine Kept.ofEq (by assumption) ?_
          apply keeps_unschedWrite
          assumption
      · apply keeps_skipLine
        refine Kept.ofEq (by assumption) ?_
        apply keeps_unschedWrite
        assumption
      · refine Kept.ofEq (by assumption) ?_
        apply keeps_unschedWrite
        assumption
    clear_value t1
    apply keeps_pointEnds
    assumption

theorem keeps_landHeld {s₀ : State} (s : State) (h0 : Kept s₀ s) :
    Kept s₀ (State.landHeld s) := by
  unfold State.landHeld
  split
  refine Kept.fold ?_ ?_
  · intro a1 a2 a3
    apply keeps_landWrite
    refine Kept.of_eq rfl rfl rfl rfl rfl rfl rfl rfl rfl rfl rfl rfl ?_
    assumption
  · refine Kept.of_eq rfl rfl rfl rfl rfl rfl rfl rfl rfl rfl rfl rfl ?_
    assumption

end Sys2Proof.Laws
end

