-- ==== Sys2Proof/Laws/KeepLedger.lean ====
section
/-! SUPPORT. What each operation of Machine/Ledger.lean keeps (Laws/Kept.lean). -/

open Sys2Proof Sys2Proof.Machine

namespace Sys2Proof.Laws

theorem keeps_setQueue {s₀ : State} (s : State) (c : ℕ) (l : List Access) (h0 : Kept s₀ s) :
    Kept s₀ (State.setQueue s c l) := by
  unfold State.setQueue
  refine Kept.of_eq rfl rfl rfl rfl rfl rfl rfl rfl rfl rfl rfl rfl ?_
  assumption

theorem keeps_wakeTile {s₀ : State} (s : State) (t : ℕ) (off : ℕ) (h0 : Kept s₀ s) :
    Kept s₀ (State.wakeTile s t off) := by
  unfold State.wakeTile
  extract_lets +onlyGivenNames t1
  clear_value t1
  refine Kept.of_eq rfl rfl rfl rfl rfl rfl rfl rfl rfl rfl rfl rfl ?_
  assumption

theorem keeps_reachTile {s₀ : State} (s : State) (l : List LStage) (off : ℕ) (h0 : Kept s₀ s) :
    Kept s₀ (State.reachTile s l off) := by
  unfold State.reachTile
  split
  · assumption
  · split
    · assumption
    · refine Kept.ite ?_ ?_
      · assumption
      · extract_lets +onlyGivenNames t1
        refine Kept.cut (a := t1) ?_ fun _ => ?_
        · unfold t1; clear t1
          apply keeps_wakeTile
          assumption
        clear_value t1
        refine Kept.of_eq rfl rfl rfl rfl rfl rfl rfl rfl rfl rfl rfl rfl ?_
        assumption

theorem keeps_admit {s₀ : State} (s : State) (c : ℕ) (a : Access) (h0 : Kept s₀ s) :
    Kept s₀ (State.takeAccess s c a) := by
  unfold State.takeAccess
  refine Kept.ite ?_ ?_
  · apply keeps_reachTile
    apply keeps_setQueue
    assumption
  · refine Kept.of_eq rfl rfl rfl rfl rfl rfl rfl rfl rfl rfl rfl rfl ?_
    assumption

theorem keeps_takeAccess {s₀ : State} (s : State) (c : ℕ) (a : Access) (h0 : Kept s₀ s) :
    Kept s₀ (State.takeAccess s c a) := by
  unfold State.takeAccess
  refine Kept.ite ?_ ?_
  · apply keeps_reachTile
    apply keeps_setQueue
    assumption
  · refine Kept.of_eq rfl rfl rfl rfl rfl rfl rfl rfl rfl rfl rfl rfl ?_
    assumption

theorem keeps_admitNext {s₀ : State} (s : State) (c : ℕ) (h0 : Kept s₀ s) :
    Kept s₀ (State.admitNext s c) := by
  unfold State.admitNext
  split
  · assumption
  · extract_lets +onlyGivenNames t1
    clear_value t1
    apply keeps_admit
    refine Kept.of_eq rfl rfl rfl rfl rfl rfl rfl rfl rfl rfl rfl rfl ?_
    assumption

theorem keeps_enter {s₀ : State} (s : State) (c : ℕ) (stages : List LStage) (line : optParam (Option (Bool × ℕ)) none) (carried : optParam Bool false) (cell : optParam (Option (ℕ × List Word)) none) (h0 : Kept s₀ s) :
    Kept s₀ (State.enter s c stages line carried cell) := by
  unfold State.enter
  apply keeps_takeAccess
  assumption

theorem keeps_enterPen {s₀ : State} (s : State) (c : ℕ) (p : ℕ) (n : ℕ) (into : Bool) (h0 : Kept s₀ s) :
    Kept s₀ (State.enterPen s c p n into) := by
  unfold State.enterPen
  refine Kept.fold ?_ ?_
  · intro a1 a2 a3
    apply keeps_enter
    assumption
  · assumption

theorem keeps_enterWords {s₀ : State} (s : State) (c : ℕ) (n : ℕ) (into : Bool) (h0 : Kept s₀ s) :
    Kept s₀ (State.enterWords s c n into) := by
  unfold State.enterWords
  refine Kept.fold ?_ ?_
  · intro a1 a2 a3
    apply keeps_enter
    assumption
  · assumption

theorem keeps_clientEnter {s₀ : State} (s : State) (c : ℕ) (up : Bool) (L : ℕ) (write : Bool) (mask : ℕ) (h0 : Kept s₀ s) :
    Kept s₀ (State.clientEnter s c up L write mask) := by
  unfold State.clientEnter
  refine Kept.ite ?_ ?_
  · refine Kept.ite ?_ ?_
    · assumption
    · apply keeps_enter
      assumption
  · extract_lets +onlyGivenNames t1
    clear_value t1
    apply keeps_enter
    assumption

theorem keeps_execPenAccessRead {s₀ : State} (p : Fin 4096) (s : State) (h0 : Kept s₀ s) :
    ∃ out, execPenAccessRead p s = .next out ∧ Kept s₀ out := by
  unfold execPenAccessRead
  split
  refine ⟨_, rfl, ?_⟩
  apply keeps_emit
  refine Kept.ofEq (by assumption) ?_
  apply keeps_penReadN
  apply keeps_enter
  assumption

theorem keeps_execPenAccessWrite {s₀ : State} (p : Fin 4096) (words : List Word) (ends : Bool) (posted : Bool) (s : State) (h0 : Kept s₀ s) :
    ∃ out, execPenAccessWrite p words ends posted s = .next out ∧ Kept s₀ out := by
  unfold execPenAccessWrite
  split
  extract_lets +onlyGivenNames t1
  refine Kept.have_ (P := Kept s₀ t1) ?_ fun hs2 => ?_
  · unfold t1; clear t1
    refine Kept.ite ?_ ?_
    · apply keeps_emit
      refine Kept.ofEq (by assumption) ?_
      apply keeps_penPushLost
      apply keeps_enter
      assumption
    · refine Kept.ofEq (by assumption) ?_
      apply keeps_penPushLost
      apply keeps_enter
      assumption
  clear_value t1
  refine ⟨_, rfl, ?_⟩
  refine Kept.ite ?_ ?_
  · apply keeps_penCommit
    assumption
  · assumption

theorem keeps_addUse {s₀ : State} (s : State) (c : ℕ) (rcls : ℕ) (inst : ℕ) (n : ℕ) (h0 : Kept s₀ s) :
    Kept s₀ (State.addUse s c rcls inst n) := by
  unfold State.addUse
  refine Kept.of_eq rfl rfl rfl rfl rfl rfl rfl rfl rfl rfl rfl rfl ?_
  assumption

theorem keeps_quotaStop {s₀ : State} (s : State) (c : ℕ) (h0 : Kept s₀ s) :
    Kept s₀ (State.quotaStop s c) := by
  unfold State.quotaStop
  refine Kept.ite ?_ ?_
  · assumption
  · apply keeps_fire
    refine Kept.of_eq rfl rfl rfl rfl rfl rfl rfl rfl rfl rfl rfl rfl ?_
    assumption

theorem keeps_noteQuota {s₀ : State} (s : State) (l : List Cand) (h0 : Kept s₀ s) :
    Kept s₀ (State.noteQuota s l) := by
  unfold State.noteQuota
  refine Kept.fold ?_ ?_
  · intro a1 a2 a3
    refine Kept.ite ?_ ?_
    · assumption
    · apply keeps_quotaStop
      assumption
  · assumption

theorem keeps_noteWait {s₀ : State} (s : State) (c : ℕ) (w : ℕ) (h0 : Kept s₀ s) :
    Kept s₀ (State.noteWait s c w) := by
  unfold State.noteWait
  refine Kept.of_eq rfl rfl rfl rfl rfl rfl rfl rfl rfl rfl rfl rfl ?_
  assumption

theorem keeps_execLedgerBlockStart {s₀ : State} (s : State) (h0 : Kept s₀ s) :
    ∃ out, execLedgerBlockStart s = .next out ∧ Kept s₀ out := by
  unfold execLedgerBlockStart
  refine ⟨_, rfl, ?_⟩
  refine Kept.of_eq rfl rfl rfl rfl rfl rfl rfl rfl rfl rfl rfl rfl ?_
  assumption

theorem keeps_execLedgerOverdue {s₀ : State} (c : Fin 9) (s : State) (h0 : Kept s₀ s) :
    ∃ out, execLedgerOverdue c s = .next out ∧ Kept s₀ out := by
  unfold execLedgerOverdue
  refine ⟨_, rfl, ?_⟩
  split
  · refine Kept.ite ?_ ?_
    · assumption
    · apply keeps_fire
      apply keeps_setQueue
      refine Kept.of_eq rfl rfl rfl rfl rfl rfl rfl rfl rfl rfl rfl rfl ?_
      assumption
  · assumption

theorem keeps_ledgerTurn {s₀ : State} (s : State) (h0 : Kept s₀ s) :
    Kept s₀ (State.ledgerTurn s) := by
  unfold State.ledgerTurn
  extract_lets +onlyGivenNames t1
  clear_value t1
  extract_lets +onlyGivenNames t2
  clear_value t2
  refine Kept.of_eq rfl rfl rfl rfl rfl rfl rfl rfl rfl rfl rfl rfl ?_
  assumption

theorem keeps_degradeTurn {s₀ : State} (s : State) (h0 : Kept s₀ s) :
    Kept s₀ (State.degradeTurn s) := by
  unfold State.degradeTurn
  extract_lets +onlyGivenNames t1
  clear_value t1
  extract_lets +onlyGivenNames t2
  clear_value t2
  extract_lets +onlyGivenNames t3
  clear_value t3
  extract_lets +onlyGivenNames t4
  extract_lets +onlyGivenNames t5
  extract_lets +onlyGivenNames t6
  refine Kept.cut (a := t6) ?_ fun _ => ?_
  · unfold t6; clear t6
    refine Kept.of_eq rfl rfl rfl rfl rfl rfl rfl rfl rfl rfl rfl rfl ?_
    assumption
  clear_value t6
  refine Kept.ite ?_ ?_
  · apply keeps_fire
    assumption
  · assumption

end Sys2Proof.Laws
end

