-- ==== Sys2Proof/Laws/KeepStroke.lean ====
section
/-! SUPPORT. What each operation of Machine/Stroke.lean keeps (Laws/Kept.lean). -/

open Sys2Proof Sys2Proof.Machine

namespace Sys2Proof.Laws

theorem keeps_countNull {s₀ : State} (s : State) (sl : ℕ) (cause : ℕ) (h0 : Kept s₀ s) :
    Kept s₀ (State.countNull s sl cause) := by
  unfold State.countNull
  extract_lets +onlyGivenNames t1
  refine Kept.cut (a := t1) ?_ fun _ => ?_
  · unfold t1; clear t1
    apply keeps_bump
    assumption
  clear_value t1
  refine Kept.ite ?_ ?_
  · apply keeps_fire
    assumption
  · assumption

theorem keeps_tableEcc {s₀ : State} (s : State) (sl : ℕ) (l : List Ecc) (h0 : Kept s₀ s) :
    Kept s₀ (State.tableEcc s sl l) := by
  unfold State.tableEcc
  extract_lets +onlyGivenNames t1
  refine Kept.cut (a := t1) ?_ fun _ => ?_
  · unfold t1; clear t1
    refine Kept.fold ?_ ?_
    · intro a1 a2 a3
      refine Kept.ite ?_ ?_
      · apply keeps_bumpFld
        assumption
      · assumption
    · assumption
  clear_value t1
  refine Kept.ite ?_ ?_
  · apply keeps_fire
    apply keeps_bumpFld
    assumption
  · assumption

end Sys2Proof.Laws
end

