-- ==== Sys2Proof/Laws/KeepPorts.lean ====
section
/-! SUPPORT. What each operation of Machine/Ports.lean keeps (Laws/Kept.lean). -/

open Sys2Proof Sys2Proof.Machine

namespace Sys2Proof.Laws

theorem keeps_drvRegWrite {s₀ : State} (s : State) (d : ℕ) (w : ℕ) (v : Word) (at_ : ℕ) (h0 : Kept s₀ s) :
    Kept s₀ (State.drvRegWrite s d w v at_) := by
  unfold State.drvRegWrite
  extract_lets +onlyGivenNames t1
  clear_value t1
  extract_lets +onlyGivenNames t2
  clear_value t2
  apply keeps_setDrover
  assumption

theorem keeps_drvRegTaken {s₀ : State} (s : State) (d : ℕ) (w : ℕ) (r : ℕ) (h0 : Kept s₀ s) :
    Kept s₀ (State.drvRegTaken s d w r) := by
  unfold State.drvRegTaken
  extract_lets +onlyGivenNames t1
  clear_value t1
  extract_lets +onlyGivenNames t2
  clear_value t2
  refine Kept.ite ?_ ?_
  · apply keeps_setDrover
    assumption
  · assumption

theorem keeps_loadDout {s₀ : State} (s : State) (b : ℕ) (h : ℕ) (w : Word) (h0 : Kept s₀ s) :
    Kept s₀ (State.loadDout s b h w) := by
  unfold State.loadDout
  extract_lets +onlyGivenNames t1
  clear_value t1
  refine Kept.ite ?_ ?_
  · assumption
  · refine Kept.ite ?_ ?_
    · refine Kept.ite ?_ ?_
      · assumption
      · extract_lets +onlyGivenNames t2
        refine Kept.cut (a := t2) ?_ fun _ => ?_
        · unfold t2; clear t2
          apply keeps_snapHold
          assumption
        clear_value t2
        refine Kept.of_eq rfl rfl rfl rfl rfl rfl rfl rfl rfl rfl rfl rfl ?_
        assumption
    · extract_lets +onlyGivenNames t3
      clear_value t3
      refine Kept.of_eq rfl rfl rfl rfl rfl rfl rfl rfl rfl rfl rfl rfl ?_
      assumption

theorem keeps_digestClose {s₀ : State} (s : State) (h0 : Kept s₀ s) :
    Kept s₀ (State.digestClose s) := by
  unfold State.digestClose
  extract_lets +onlyGivenNames t1
  clear_value t1
  extract_lets +onlyGivenNames t2
  clear_value t2
  refine Kept.of_eq rfl rfl rfl rfl rfl rfl rfl rfl rfl rfl rfl rfl ?_
  assumption

theorem keeps_addPart {s₀ : State} (s : State) (p : DigestPart) (h0 : Kept s₀ s) :
    Kept s₀ (State.addPart s p) := by
  unfold State.addPart
  extract_lets +onlyGivenNames t1
  extract_lets +onlyGivenNames t2
  refine Kept.cut (a := t2) ?_ fun _ => ?_
  · unfold t2; clear t2
    refine Kept.of_eq rfl rfl rfl rfl rfl rfl rfl rfl rfl rfl rfl rfl ?_
    assumption
  clear_value t2
  refine Kept.ite ?_ ?_
  · assumption
  · extract_lets +onlyGivenNames t3
    clear_value t3
    refine Kept.of_eq rfl rfl rfl rfl rfl rfl rfl rfl rfl rfl rfl rfl ?_
    assumption

end Sys2Proof.Laws
end

