-- ==== Sys2Proof/Laws/KeepBus.lean ====
section
/-! SUPPORT. What each operation of Machine/Bus.lean keeps (Laws/Kept.lean). -/

open Sys2Proof Sys2Proof.Machine

namespace Sys2Proof.Laws

theorem keeps_busOffEnter {s₀ : State} (s : State) (c : ℕ) (h0 : Kept s₀ s) :
    Kept s₀ (State.busOffEnter s c) := by
  unfold State.busOffEnter
  extract_lets +onlyGivenNames t1
  refine Kept.cut (a := t1) ?_ fun _ => ?_
  · unfold t1; clear t1
    apply keeps_dropFrames
    assumption
  clear_value t1
  extract_lets +onlyGivenNames t2
  clear_value t2
  extract_lets +onlyGivenNames t3
  refine Kept.cut (a := t3) ?_ fun _ => ?_
  · unfold t3; clear t3
    apply keeps_bumpFld
    apply keeps_setChan
    assumption
  clear_value t3
  apply keeps_fire
  assumption

theorem keeps_busLevel {s₀ : State} (s : State) (c : ℕ) (h0 : Kept s₀ s) :
    Kept s₀ (State.busLevel s c) := by
  unfold State.busLevel
  extract_lets +onlyGivenNames t1
  clear_value t1
  split
  · refine Kept.ite ?_ ?_
    · apply keeps_busOffEnter
      assumption
    · refine Kept.ite ?_ ?_
      · apply keeps_fire
        apply keeps_setChan
        assumption
      · assumption
  · refine Kept.ite ?_ ?_
    · apply keeps_busOffEnter
      assumption
    · refine Kept.ite ?_ ?_
      · apply keeps_setChan
        assumption
      · assumption
  · assumption

theorem keeps_moveTec {s₀ : State} (s : State) (c : ℕ) (f : ℕ → ℕ) (h0 : Kept s₀ s) :
    Kept s₀ (State.moveTec s c f) := by
  unfold State.moveTec
  refine Kept.ite ?_ ?_
  · assumption
  · apply keeps_busLevel
    apply keeps_setChan
    assumption

theorem keeps_recDown {s₀ : State} (s : State) (c : ℕ) (h0 : Kept s₀ s) :
    Kept s₀ (State.recDown s c) := by
  unfold State.recDown
  extract_lets +onlyGivenNames t1
  clear_value t1
  refine Kept.ite ?_ ?_
  · dsimp only
    apply keeps_busLevel
    apply keeps_setChan
    apply keeps_draw
    assumption
  · apply keeps_busLevel
    apply keeps_setChan
    assumption

theorem keeps_recUp {s₀ : State} (s : State) (c : ℕ) (n : ℕ) (h0 : Kept s₀ s) :
    Kept s₀ (State.recUp s c n) := by
  unfold State.recUp
  apply keeps_busLevel
  apply keeps_setChan
  assumption

theorem keeps_busEnable {s₀ : State} (s : State) (c : ℕ) (v : ℕ) (h0 : Kept s₀ s) :
    Kept s₀ (State.busEnable s c v) := by
  unfold State.busEnable
  extract_lets +onlyGivenNames t1
  clear_value t1
  refine Kept.ite ?_ ?_
  · split
    · refine Kept.ite ?_ ?_
      · assumption
      · apply keeps_setChan
        assumption
    · assumption
  · split
    · apply keeps_setChan
      assumption
    · apply keeps_setChan
      assumption
    · apply keeps_setChan
      assumption
    · apply keeps_setChan
      assumption
    · apply keeps_setChan
      assumption
    · assumption

theorem keeps_busTurn {s₀ : State} (s : State) (h0 : Kept s₀ s) :
    Kept s₀ (State.busTurn s) := by
  unfold State.busTurn
  refine Kept.fold ?_ ?_
  · intro a1 a2 a3
    dsimp only
    refine Kept.ite ?_ ?_
    · apply keeps_setChan
      assumption
    · assumption
  · assumption

theorem keeps_busRelease {s₀ : State} (s : State) (tile : ℕ) (c : ℕ) (b : ℕ) (marked : Bool) (h0 : Kept s₀ s) :
    Kept s₀ (State.busRelease s tile c b marked) := by
  unfold State.busRelease
  extract_lets +onlyGivenNames t1
  clear_value t1
  refine Kept.ite ?_ ?_
  · apply keeps_busCount
    assumption
  · refine Kept.ite ?_ ?_
    · extract_lets +onlyGivenNames t2
      refine Kept.cut (a := t2) ?_ fun _ => ?_
      · unfold t2; clear t2
        refine Kept.ite ?_ ?_
        · apply keeps_fire
          apply keeps_bump
          assumption
        · assumption
      clear_value t2
      apply keeps_fire
      apply keeps_busCount
      assumption
    · apply keeps_setChan
      assumption

theorem keeps_busMeet {s₀ : State} (s : State) (c : ℕ) (b : ℕ) (h0 : Kept s₀ s) :
    Kept s₀ (State.busMeet s c b) := by
  unfold State.busMeet
  extract_lets +onlyGivenNames t1
  clear_value t1
  split
  · apply keeps_fire
    apply keeps_busCount
    apply keeps_setChan
    assumption
  · apply keeps_fire
    apply keeps_withdraw
    assumption
  · assumption

theorem keeps_txDone {s₀ : State} (s : State) (c : ℕ) (b : ℕ) (h0 : Kept s₀ s) :
    Kept s₀ (State.txDone s c b) := by
  unfold State.txDone
  extract_lets +onlyGivenNames t1
  refine Kept.cut (a := t1) ?_ fun _ => ?_
  · unfold t1; clear t1
    refine Kept.ite ?_ ?_
    · assumption
    · apply keeps_emit
      assumption
  clear_value t1
  extract_lets +onlyGivenNames t2
  clear_value t2
  extract_lets +onlyGivenNames t3
  refine Kept.cut (a := t3) ?_ fun _ => ?_
  · unfold t3; clear t3
    apply keeps_busCount
    apply keeps_setChan
    assumption
  clear_value t3
  apply keeps_moveTec
  assumption

theorem keeps_txAgain {s₀ : State} (s : State) (c : ℕ) (b : ℕ) (h0 : Kept s₀ s) :
    Kept s₀ (State.txAgain s c b) := by
  unfold State.txAgain
  extract_lets +onlyGivenNames t1
  clear_value t1
  refine Kept.ite ?_ ?_
  · assumption
  · refine Kept.ite ?_ ?_
    · apply keeps_busCount
      apply keeps_setChan
      assumption
    · apply keeps_setChan
      assumption

theorem keeps_execBusFrameTxEnd {s₀ : State} (ch : Fin 128) (outcome : Fin 4) (s : State) (h0 : Kept s₀ s) :
    ∃ out, execBusFrameTxEnd ch outcome s = .next out ∧ Kept s₀ out := by
  unfold execBusFrameTxEnd
  refine ⟨_, rfl, ?_⟩
  split
  · assumption
  · split
    · apply keeps_txDone
      assumption
    · apply keeps_txAgain
      assumption
    · apply keeps_txAgain
      apply keeps_moveTec
      apply keeps_bumpFld
      assumption
    · apply keeps_txAgain
      apply keeps_bumpFld
      assumption

theorem keeps_refSeen {s₀ : State} (s : State) (c : ℕ) (own : Bool) (frame : List Word) (t : ℕ) (h0 : Kept s₀ s) :
    Kept s₀ (State.refSeen s c own frame t) := by
  unfold State.refSeen
  refine Kept.ite ?_ ?_
  · split
    · apply keeps_setChan
      assumption
    · refine Kept.ite ?_ ?_
      · assumption
      · apply keeps_fire
        apply keeps_fire
        apply keeps_busCount
        assumption
    · assumption
  · assumption

theorem keeps_busDeliver {s₀ : State} (s : State) (c : ℕ) (esi : Bool) (frame : List Word) (t : ℕ) (h0 : Kept s₀ s) :
    Kept s₀ (State.busDeliver s c esi frame t) := by
  unfold State.busDeliver
  split
  · apply keeps_busCount
    assumption
  · extract_lets +onlyGivenNames t1
    clear_value t1
    refine Kept.ite ?_ ?_
    · apply keeps_fire
      apply keeps_busCount
      assumption
    · apply keeps_busCount
      apply keeps_setChan
      assumption

theorem keeps_busViolation {s₀ : State} (s : State) (c : ℕ) (format : Bool) (rise : ℕ) (h0 : Kept s₀ s) :
    Kept s₀ (State.busViolation s c format rise) := by
  unfold State.busViolation
  split
  · extract_lets +onlyGivenNames t1
    refine Kept.cut (a := t1) ?_ fun _ => ?_
    · unfold t1; clear t1
      apply keeps_fire
      apply keeps_busCount
      assumption
    clear_value t1
    refine Kept.ite ?_ ?_
    · apply keeps_setChan
      assumption
    · extract_lets +onlyGivenNames t2
      refine Kept.cut (a := t2) ?_ fun _ => ?_
      · unfold t2; clear t2
        apply keeps_bumpFld
        assumption
      clear_value t2
      extract_lets +onlyGivenNames t3
      refine Kept.cut (a := t3) ?_ fun _ => ?_
      · unfold t3; clear t3
        refine Kept.ite ?_ ?_
        · apply keeps_emit
          assumption
        · assumption
      clear_value t3
      apply keeps_recUp
      assumption
  · extract_lets +onlyGivenNames t4
    refine Kept.cut (a := t4) ?_ fun _ => ?_
    · unfold t4; clear t4
      apply keeps_fire
      apply keeps_busCount
      assumption
    clear_value t4
    refine Kept.ite ?_ ?_
    · apply keeps_setChan
      assumption
    · extract_lets +onlyGivenNames t5
      refine Kept.cut (a := t5) ?_ fun _ => ?_
      · unfold t5; clear t5
        apply keeps_bumpFld
        assumption
      clear_value t5
      extract_lets +onlyGivenNames t6
      refine Kept.cut (a := t6) ?_ fun _ => ?_
      · unfold t6; clear t6
        refine Kept.ite ?_ ?_
        · apply keeps_emit
          assumption
        · assumption
      clear_value t6
      apply keeps_recUp
      assumption
  · extract_lets +onlyGivenNames t7
    refine Kept.cut (a := t7) ?_ fun _ => ?_
    · unfold t7; clear t7
      apply keeps_fire
      apply keeps_busCount
      assumption
    clear_value t7
    refine Kept.ite ?_ ?_
    · apply keeps_setChan
      assumption
    · extract_lets +onlyGivenNames t8
      refine Kept.cut (a := t8) ?_ fun _ => ?_
      · unfold t8; clear t8
        apply keeps_bumpFld
        assumption
      clear_value t8
      extract_lets +onlyGivenNames t9
      refine Kept.cut (a := t9) ?_ fun _ => ?_
      · unfold t9; clear t9
        refine Kept.ite ?_ ?_
        · apply keeps_emit
          assumption
        · assumption
      clear_value t9
      apply keeps_recUp
      assumption
  · assumption

theorem keeps_execBusFrameReceived {s₀ : State} (ch : Fin 128) (own : Bool) (esi : Bool) (frame : List Word) (back : ℕ) (s : State) (h0 : Kept s₀ s) :
    ∃ out, execBusFrameReceived ch own esi frame back s = .next out ∧ Kept s₀ out := by
  unfold execBusFrameReceived
  extract_lets +onlyGivenNames t1
  clear_value t1
  extract_lets +onlyGivenNames t2
  clear_value t2
  refine ⟨_, rfl, ?_⟩
  refine Kept.ite ?_ ?_
  · refine Kept.ite ?_ ?_
    · apply keeps_busViolation
      assumption
    · extract_lets +onlyGivenNames t3
      refine Kept.cut (a := t3) ?_ fun _ => ?_
      · unfold t3; clear t3
        apply keeps_busDeliver
        apply keeps_refSeen
        assumption
      clear_value t3
      refine Kept.ite ?_ ?_
      · assumption
      · apply keeps_recDown
        assumption
  · assumption

theorem keeps_execBusProtocolViolation {s₀ : State} (ch : Fin 128) (format : Bool) (rise : Fin 9) (s : State) (h0 : Kept s₀ s) :
    ∃ out, execBusProtocolViolation ch format rise s = .next out ∧ Kept s₀ out := by
  unfold execBusProtocolViolation
  refine ⟨_, rfl, ?_⟩
  apply keeps_busViolation
  assumption

theorem keeps_execBusRxRecordWrite {s₀ : State} (ch : Fin 128) (s : State) (h0 : Kept s₀ s) :
    ∃ out, execBusRxRecordWrite ch s = .next out ∧ Kept s₀ out := by
  unfold execBusRxRecordWrite
  extract_lets +onlyGivenNames t1
  clear_value t1
  refine ⟨_, rfl, ?_⟩
  split
  · assumption
  · refine Kept.ite ?_ ?_
    · assumption
    · refine Kept.ite ?_ ?_
      · apply keeps_fire
        apply keeps_busCount
        apply keeps_setChan
        assumption
      · refine Kept.ite ?_ ?_
        · split
          · refine Kept.ofEq (by assumption) ?_
            apply keeps_penPacketIn
            apply keeps_setChan
            apply keeps_enterPen
            assumption
          · apply keeps_fire
            apply keeps_busCount
            refine Kept.ofEq (by assumption) ?_
            apply keeps_penPacketIn
            apply keeps_setChan
            apply keeps_enterPen
            assumption
        · assumption

theorem keeps_execBusTbPenFetch {s₀ : State} (ch : Fin 128) (tb : Fin 3) (s : State) (h0 : Kept s₀ s) :
    ∃ out, execBusTbPenFetch ch tb s = .next out ∧ Kept s₀ out := by
  unfold execBusTbPenFetch
  extract_lets +onlyGivenNames t1
  clear_value t1
  extract_lets +onlyGivenNames t2
  clear_value t2
  extract_lets +onlyGivenNames t3
  clear_value t3
  extract_lets +onlyGivenNames t4
  refine ⟨_, rfl, ?_⟩
  refine Kept.ite ?_ ?_
  · split
    · assumption
    · extract_lets +onlyGivenNames t5
      refine Kept.cut (a := t5) ?_ fun _ => ?_
      · unfold t5; clear t5
        apply keeps_enterPen
        refine Kept.ofEq (by assumption) ?_
        apply keeps_penPacketOut
        assumption
      clear_value t5
      refine Kept.ite ?_ ?_
      · apply keeps_setChan
        assumption
      · apply keeps_fire
        apply keeps_busCount
        assumption
  · assumption

theorem keeps_execBusIntegrated {s₀ : State} (ch : Fin 128) (s : State) (h0 : Kept s₀ s) :
    ∃ out, execBusIntegrated ch s = .next out ∧ Kept s₀ out := by
  unfold execBusIntegrated
  refine ⟨_, rfl, ?_⟩
  refine Kept.ite ?_ ?_
  · apply keeps_setChan
    assumption
  · apply keeps_setChan
    assumption

theorem keeps_execBusRecoverDelayExpiry {s₀ : State} (ch : Fin 128) (s : State) (h0 : Kept s₀ s) :
    ∃ out, execBusRecoverDelayExpiry ch s = .next out ∧ Kept s₀ out := by
  unfold execBusRecoverDelayExpiry
  refine ⟨_, rfl, ?_⟩
  refine Kept.ite ?_ ?_
  · apply keeps_setChan
    assumption
  · assumption

theorem keeps_execBusRecoveryDone {s₀ : State} (ch : Fin 128) (s : State) (h0 : Kept s₀ s) :
    ∃ out, execBusRecoveryDone ch s = .next out ∧ Kept s₀ out := by
  unfold execBusRecoveryDone
  refine ⟨_, rfl, ?_⟩
  refine Kept.ite ?_ ?_
  · apply keeps_setChan
    assumption
  · assumption

theorem keeps_execBusDrainDone {s₀ : State} (ch : Fin 128) (s : State) (h0 : Kept s₀ s) :
    ∃ out, execBusDrainDone ch s = .next out ∧ Kept s₀ out := by
  unfold execBusDrainDone
  refine ⟨_, rfl, ?_⟩
  refine Kept.ite ?_ ?_
  · apply keeps_setChan
    assumption
  · assumption

theorem keeps_execBusRecover {s₀ : State} (ch : Fin 128) (s : State) (h0 : Kept s₀ s) :
    ∃ out, execBusRecover ch s = .next out ∧ Kept s₀ out := by
  unfold execBusRecover
  refine ⟨_, rfl, ?_⟩
  refine Kept.ite ?_ ?_
  · apply keeps_setChan
    assumption
  · apply keeps_abort
    assumption

theorem keeps_execBusHalt {s₀ : State} (ch : Fin 128) (s : State) (h0 : Kept s₀ s) :
    ∃ out, execBusHalt ch s = .next out ∧ Kept s₀ out := by
  unfold execBusHalt
  refine ⟨_, rfl, ?_⟩
  refine Kept.ite ?_ ?_
  · apply keeps_abort
    assumption
  · apply keeps_busHaltOp
    assumption

theorem keeps_execBusAbortTb {s₀ : State} (ch : Fin 128) (tb : Fin 3) (s : State) (h0 : Kept s₀ s) :
    ∃ out, execBusAbortTb ch tb s = .next out ∧ Kept s₀ out := by
  unfold execBusAbortTb
  refine ⟨_, rfl, ?_⟩
  refine Kept.ite ?_ ?_
  · apply keeps_withdraw
    assumption
  · apply keeps_abort
    assumption

end Sys2Proof.Laws
end

