-- ==== Sys2Proof/Laws/KeepRing.lean ====
section
/-! SUPPORT. What each operation of Machine/Ring.lean keeps (Laws/Kept.lean). -/

open Sys2Proof Sys2Proof.Machine

namespace Sys2Proof.Laws

theorem keeps_cellOut {s₀ : State} (s : State) (l : ℕ) (w : List Word) (ctx : ℕ) (place : List ℕ) (h0 : Kept s₀ s) :
    Kept s₀ (State.cellOut s l w ctx place) := by
  unfold State.cellOut
  extract_lets +onlyGivenNames t1
  clear_value t1
  extract_lets +onlyGivenNames t2
  clear_value t2
  split
  extract_lets +onlyGivenNames t3
  refine Kept.cut (a := t3) ?_ fun _ => ?_
  · unfold t3; clear t3
    apply keeps_emit
    assumption
  clear_value t3
  refine Kept.ite ?_ ?_
  · apply keeps_setLink
    assumption
  · assumption

theorem keeps_cellIn {s₀ : State} (s : State) (l : ℕ) (w : List Word) (check : ℕ) (ok : Bool) (h0 : Kept s₀ s) :
    Kept s₀ (State.cellIn s l w check ok) := by
  unfold State.cellIn
  refine Kept.ite ?_ ?_
  · extract_lets +onlyGivenNames t1
    clear_value t1
    extract_lets +onlyGivenNames t2
    clear_value t2
    split
    · refine Kept.ite ?_ ?_
      · apply keeps_setLink
        assumption
      · apply keeps_setLink
        assumption
    · apply keeps_setLink
      assumption
  · assumption

theorem keeps_heard {s₀ : State} (s : State) (l : ℕ) (kind : ℕ) (src : ℕ) (hops : ℕ) (wrapped : Bool) (pay : List ℕ) (h0 : Kept s₀ s) :
    Kept s₀ (State.heard s l kind src hops wrapped pay) := by
  unfold State.heard
  extract_lets +onlyGivenNames t1
  refine Kept.cut (a := t1) ?_ fun _ => ?_
  · unfold t1; clear t1
    apply keeps_linkCount
    assumption
  clear_value t1
  refine Kept.ite ?_ ?_
  · split
    extract_lets +onlyGivenNames t2
    clear_value t2
    apply keeps_cellIn
    refine Kept.ofEq (by assumption) ?_
    apply keeps_draw
    assumption
  · assumption

theorem keeps_countWrap {s₀ : State} (s : State) (l : ℕ) (h0 : Kept s₀ s) :
    Kept s₀ (State.countWrap s l) := by
  unfold State.countWrap
  extract_lets +onlyGivenNames t1
  refine Kept.cut (a := t1) ?_ fun _ => ?_
  · unfold t1; clear t1
    apply keeps_linkCount
    assumption
  clear_value t1
  refine Kept.ite ?_ ?_
  · assumption
  · apply keeps_fire
    refine Kept.of_eq rfl rfl rfl rfl rfl rfl rfl rfl rfl rfl rfl rfl ?_
    assumption

theorem keeps_unschedOut {s₀ : State} (s : State) (l : ℕ) (w : List Word) (h0 : Kept s₀ s) :
    Kept s₀ (State.unschedOut s l w) := by
  unfold State.unschedOut
  apply keeps_linkCount
  apply keeps_cellOut
  assumption

theorem keeps_ownOut {s₀ : State} (s : State) (c : ℕ) (l : ℕ) (w : List Word) (h0 : Kept s₀ s) :
    Kept s₀ (State.ownOut s c l w) := by
  unfold State.ownOut
  apply keeps_enter
  assumption

theorem keeps_transitPut {s₀ : State} (s : State) (l : ℕ) (w : List Word) (h0 : Kept s₀ s) :
    Kept s₀ (State.transitPut s l w) := by
  unfold State.transitPut
  extract_lets +onlyGivenNames t1
  clear_value t1
  refine Kept.ite ?_ ?_
  · apply keeps_fire
    apply keeps_linkCount
    assumption
  · apply keeps_setLink
    assumption

theorem keeps_sendDir {s₀ : State} (s : State) (dir : ℕ) (w : List Word) (h0 : Kept s₀ s) :
    Kept s₀ (State.sendDir s dir w) := by
  unfold State.sendDir
  extract_lets +onlyGivenNames t1
  clear_value t1
  extract_lets +onlyGivenNames t2
  clear_value t2
  refine Kept.ite ?_ ?_
  · apply keeps_ownOut
    assumption
  · refine Kept.ite ?_ ?_
    · apply keeps_ownOut
      apply keeps_countWrap
      assumption
    · apply keeps_linkCount
      assumption

theorem keeps_wrapCell {s₀ : State} (s : State) (l : ℕ) (w : List Word) (put : State → List Word → State)
    (hp : ∀ u v, Kept s₀ u → Kept s₀ (put u v)) (h0 : Kept s₀ s) : Kept s₀ (State.wrapCell s l w put) := by
  unfold State.wrapCell
  refine Kept.ite ?_ ?_
  · apply keeps_linkCount
    assumption
  · apply hp
    apply keeps_countWrap
    assumption

theorem keeps_loseTunnel {s₀ : State} (s : State) (l : ℕ) (node : ℕ → Bool) (h0 : Kept s₀ s) :
    Kept s₀ (State.loseTunnel s l node) := by
  unfold State.loseTunnel
  extract_lets +onlyGivenNames t1
  clear_value t1
  extract_lets +onlyGivenNames t2
  clear_value t2
  extract_lets +onlyGivenNames t3
  clear_value t3
  extract_lets +onlyGivenNames t4
  refine Kept.cut (a := t4) ?_ fun _ => ?_
  · unfold t4; clear t4
    apply keeps_setQueue
    assumption
  clear_value t4
  extract_lets +onlyGivenNames t5
  extract_lets +onlyGivenNames t6
  refine Kept.cut (a := t6) ?_ fun _ => ?_
  · unfold t6; clear t6
    refine Kept.of_eq rfl rfl rfl rfl rfl rfl rfl rfl rfl rfl rfl rfl ?_
    assumption
  clear_value t6
  refine Kept.fold ?_ ?_
  · intro a7 a8 a9
    apply keeps_bumpFld
    assumption
  · assumption

theorem keeps_wrapWaiting {s₀ : State} (s : State) (l : ℕ) (h0 : Kept s₀ s) :
    Kept s₀ (State.wrapWaiting s l) := by
  unfold State.wrapWaiting
  refine Kept.ite ?_ ?_
  · assumption
  · extract_lets +onlyGivenNames t1
    refine Kept.cut (a := t1) ?_ fun _ => ?_
    · unfold t1; clear t1
      apply keeps_loseTunnel
      assumption
    clear_value t1
    extract_lets +onlyGivenNames t2
    clear_value t2
    extract_lets +onlyGivenNames t3
    clear_value t3
    extract_lets +onlyGivenNames t4
    clear_value t4
    extract_lets +onlyGivenNames t5
    clear_value t5
    extract_lets +onlyGivenNames t6
    refine Kept.cut (a := t6) ?_ fun _ => ?_
    · unfold t6; clear t6
      apply keeps_setLink
      assumption
    clear_value t6
    extract_lets +onlyGivenNames t7
    refine Kept.cut (a := t7) ?_ fun _ => ?_
    · unfold t7; clear t7
      apply keeps_setQueue
      assumption
    clear_value t7
    extract_lets +onlyGivenNames t8
    extract_lets +onlyGivenNames t9
    refine Kept.cut (a := t9) ?_ fun _ => ?_
    · unfold t9; clear t9
      refine Kept.of_eq rfl rfl rfl rfl rfl rfl rfl rfl rfl rfl rfl rfl ?_
      assumption
    clear_value t9
    extract_lets +onlyGivenNames t10
    refine Kept.cut (a := t10) ?_ fun _ => ?_
    · unfold t10; clear t10
      refine Kept.fold ?_ ?_
      · intro a11 a12 a13
        apply keeps_wrapCell
        · intro a14 a15 a16
          apply keeps_transitPut
          assumption
        · assumption
      · assumption
    clear_value t10
    refine Kept.fold ?_ ?_
    · intro a17 a18 a19
      split
      · apply keeps_wrapCell
        · intro a20 a21 a22
          apply keeps_ownOut
          assumption
        · assumption
      · assumption
    · assumption

theorem keeps_nextSeq {s₀ : State} (s : State) (kind : ℕ) (dir : ℕ) (h0 : Kept s₀ s) :
    Kept s₀ (State.nextSeq s kind dir).1 := by
  unfold State.nextSeq
  extract_lets +onlyGivenNames t1
  clear_value t1
  extract_lets +onlyGivenNames t2
  clear_value t2
  refine Kept.of_eq rfl rfl rfl rfl rfl rfl rfl rfl rfl rfl rfl rfl ?_
  assumption

theorem keeps_sendCell {s₀ : State} (s : State) (dir : ℕ) (kind : ℕ) (dest : Option ℕ) (pay : List ℕ) (h0 : Kept s₀ s) :
    Kept s₀ (State.sendCell s dir kind dest pay) := by
  unfold State.sendCell
  dsimp only
  apply keeps_sendDir
  apply keeps_nextSeq
  assumption

theorem keeps_broadcast {s₀ : State} (s : State) (kind : ℕ) (pay : List ℕ) (h0 : Kept s₀ s) :
    Kept s₀ (State.broadcast s kind pay) := by
  unfold State.broadcast
  apply keeps_sendCell
  apply keeps_sendCell
  assumption

theorem keeps_unicastBoth {s₀ : State} (s : State) (kind : ℕ) (dest : ℕ) (pay : List ℕ) (h0 : Kept s₀ s) :
    Kept s₀ (State.unicastBoth s kind dest pay) := by
  unfold State.unicastBoth
  apply keeps_sendCell
  apply keeps_sendCell
  assumption

theorem keeps_marker {s₀ : State} (s : State) (l : ℕ) (code : ℕ) (arg : ℕ) (h0 : Kept s₀ s) :
    Kept s₀ (State.marker s l code arg) := by
  unfold State.marker
  extract_lets +onlyGivenNames t1
  clear_value t1
  refine Kept.ite ?_ ?_
  · apply keeps_setLink
    assumption
  · apply keeps_emit
    assumption

theorem keeps_sendMessage {s₀ : State} (s : State) (dir : ℕ) (kind : ℕ) (dest : ℕ) (words : List ℕ) (h0 : Kept s₀ s) :
    Kept s₀ (State.sendMessage s dir kind dest words) := by
  unfold State.sendMessage
  extract_lets +onlyGivenNames t1
  clear_value t1
  refine Kept.fold ?_ ?_
  · intro a1 a2 a3
    dsimp only
    apply keeps_sendDir
    apply keeps_nextSeq
    assumption
  · assumption

theorem keeps_tunnelNow {s₀ : State} (s : State) (node : ℕ) (f : QFrame) (h0 : Kept s₀ s) :
    Kept s₀ (State.tunnelNow s node f) := by
  unfold State.tunnelNow
  split
  · apply keeps_bumpFld
    assumption
  · apply keeps_sendMessage
    assumption
  · apply keeps_sendMessage
    assumption
  · apply keeps_sendMessage
    assumption

theorem keeps_tunnelSend {s₀ : State} (s : State) (node : ℕ) (f : QFrame) (h0 : Kept s₀ s) :
    Kept s₀ (State.tunnelSend s node f) := by
  unfold State.tunnelSend
  refine Kept.ite ?_ ?_
  · refine Kept.of_eq rfl rfl rfl rfl rfl rfl rfl rfl rfl rfl rfl rfl ?_
    assumption
  · apply keeps_tunnelNow
    assumption

theorem keeps_repath {s₀ : State} (s : State) (h0 : Kept s₀ s) :
    Kept s₀ (State.repath s) := by
  unfold State.repath
  extract_lets +onlyGivenNames t1
  clear_value t1
  refine Kept.fold ?_ ?_
  · intro a2 a3 a4
    extract_lets +onlyGivenNames t5
    clear_value t5
    extract_lets +onlyGivenNames t6
    clear_value t6
    extract_lets +onlyGivenNames t7
    extract_lets +onlyGivenNames t8
    refine Kept.cut (a := t8) ?_ fun _ => ?_
    · unfold t8; clear t8
      refine Kept.of_eq rfl rfl rfl rfl rfl rfl rfl rfl rfl rfl rfl rfl ?_
      assumption
    clear_value t8
    refine Kept.ite ?_ ?_
    · assumption
    · extract_lets +onlyGivenNames t9
      clear_value t9
      extract_lets +onlyGivenNames t10
      refine Kept.cut (a := t10) ?_ fun _ => ?_
      · unfold t10; clear t10
        refine Kept.ite ?_ ?_
        · apply keeps_loseTunnel
          assumption
        · assumption
      clear_value t10
      extract_lets +onlyGivenNames t11
      refine Kept.cut (a := t11) ?_ fun _ => ?_
      · unfold t11; clear t11
        refine Kept.ite ?_ ?_
        · apply keeps_loseTunnel
          assumption
        · assumption
      clear_value t11
      extract_lets +onlyGivenNames t12
      refine Kept.cut (a := t12) ?_ fun _ => ?_
      · unfold t12; clear t12
        refine Kept.ite ?_ ?_
        · apply keeps_endSessions
          assumption
        · assumption
      clear_value t12
      apply keeps_fire
      apply keeps_bumpFld
      refine Kept.of_eq rfl rfl rfl rfl rfl rfl rfl rfl rfl rfl rfl rfl ?_
      assumption
  · assumption

theorem keeps_syntonise {s₀ : State} (s : State) (h0 : Kept s₀ s) :
    Kept s₀ (State.syntonise s) := by
  unfold State.syntonise
  extract_lets +onlyGivenNames t1
  clear_value t1
  refine Kept.ite ?_ ?_
  · assumption
  · apply keeps_fire
    refine Kept.of_eq rfl rfl rfl rfl rfl rfl rfl rfl rfl rfl rfl rfl ?_
    assumption

theorem keeps_seenEpoch {s₀ : State} (s : State) (c : ℕ) (h0 : Kept s₀ s) :
    Kept s₀ (State.seenEpoch s c) := by
  unfold State.seenEpoch
  refine Kept.of_eq rfl rfl rfl rfl rfl rfl rfl rfl rfl rfl rfl rfl ?_
  assumption

theorem keeps_setClaim {s₀ : State} (s : State) (c : ℕ) (h0 : Kept s₀ s) :
    Kept s₀ (State.setClaim s c) := by
  unfold State.setClaim
  apply keeps_seenEpoch
  refine Kept.of_eq rfl rfl rfl rfl rfl rfl rfl rfl rfl rfl rfl rfl ?_
  assumption

theorem keeps_setRecord {s₀ : State} (s : State) (v : ℕ) (src : ℕ) (h0 : Kept s₀ s) :
    Kept s₀ (State.setRecord s v src) := by
  unfold State.setRecord
  extract_lets +onlyGivenNames t1
  clear_value t1
  extract_lets +onlyGivenNames t2
  clear_value t2
  extract_lets +onlyGivenNames t3
  clear_value t3
  extract_lets +onlyGivenNames t4
  extract_lets +onlyGivenNames t5
  refine Kept.cut (a := t5) ?_ fun _ => ?_
  · unfold t5; clear t5
    apply keeps_seenEpoch
    refine Kept.of_eq rfl rfl rfl rfl rfl rfl rfl rfl rfl rfl rfl rfl ?_
    assumption
  clear_value t5
  extract_lets +onlyGivenNames t6
  clear_value t6
  extract_lets +onlyGivenNames t7
  extract_lets +onlyGivenNames t8
  refine Kept.cut (a := t8) ?_ fun _ => ?_
  · unfold t8; clear t8
    apply keeps_setClaim
    assumption
  clear_value t8
  extract_lets +onlyGivenNames t9
  extract_lets +onlyGivenNames t10
  refine Kept.cut (a := t10) ?_ fun _ => ?_
  · unfold t10; clear t10
    split
    · refine Kept.ite ?_ ?_
      · refine Kept.ite ?_ ?_
        · assumption
        · refine Kept.of_eq rfl rfl rfl rfl rfl rfl rfl rfl rfl rfl rfl rfl ?_
          assumption
      · refine Kept.ite ?_ ?_
        · apply keeps_setClaim
          assumption
        · assumption
    · refine Kept.ite ?_ ?_
      · split
        · refine Kept.ite ?_ ?_
          · refine Kept.of_eq rfl rfl rfl rfl rfl rfl rfl rfl rfl rfl rfl rfl ?_
            assumption
          · assumption
        · assumption
      · refine Kept.ite ?_ ?_
        · refine Kept.of_eq rfl rfl rfl rfl rfl rfl rfl rfl rfl rfl rfl rfl ?_
          assumption
        · assumption
    · assumption
  clear_value t10
  apply keeps_pairBell
  assumption

theorem keeps_pairLinkLost {s₀ : State} (s : State) (h0 : Kept s₀ s) :
    Kept s₀ (State.pairLinkLost s) := by
  unfold State.pairLinkLost
  refine Kept.ite ?_ ?_
  · apply keeps_setRecord
    assumption
  · assumption

theorem keeps_reportLink {s₀ : State} (s : State) (l : ℕ) (up : Bool) (h0 : Kept s₀ s) :
    Kept s₀ (State.reportLink s l up) := by
  unfold State.reportLink
  extract_lets +onlyGivenNames t1
  clear_value t1
  extract_lets +onlyGivenNames t2
  extract_lets +onlyGivenNames t3
  refine Kept.cut (a := t3) ?_ fun _ => ?_
  · unfold t3; clear t3
    refine Kept.of_eq rfl rfl rfl rfl rfl rfl rfl rfl rfl rfl rfl rfl ?_
    assumption
  clear_value t3
  extract_lets +onlyGivenNames t4
  refine Kept.cut (a := t4) ?_ fun _ => ?_
  · unfold t4; clear t4
    refine Kept.ite ?_ ?_
    · assumption
    · apply keeps_wrapWaiting
      assumption
  clear_value t4
  extract_lets +onlyGivenNames t5
  refine Kept.cut (a := t5) ?_ fun _ => ?_
  · unfold t5; clear t5
    apply keeps_syntonise
    apply keeps_repath
    apply keeps_broadcast
    assumption
  clear_value t5
  refine Kept.ite ?_ ?_
  · apply keeps_pairLinkLost
    assumption
  · assumption

theorem keeps_reportTurns {s₀ : State} (s : State) (h0 : Kept s₀ s) :
    Kept s₀ (State.reportTurns s) := by
  unfold State.reportTurns
  refine Kept.fold ?_ ?_
  · intro a1 a2 a3
    apply keeps_reportLink
    assumption
  · refine Kept.of_eq rfl rfl rfl rfl rfl rfl rfl rfl rfl rfl rfl rfl ?_
    assumption

theorem keeps_linkFall {s₀ : State} (s : State) (l : ℕ) (cause : ℕ) (h0 : Kept s₀ s) :
    Kept s₀ (State.linkFall s l cause) := by
  unfold State.linkFall
  extract_lets +onlyGivenNames t1
  clear_value t1
  extract_lets +onlyGivenNames t2
  clear_value t2
  extract_lets +onlyGivenNames t3
  refine Kept.cut (a := t3) ?_ fun _ => ?_
  · unfold t3; clear t3
    apply keeps_marker
    apply keeps_linkCount
    apply keeps_setLink
    assumption
  clear_value t3
  apply keeps_reportLink
  refine Kept.ite ?_ ?_
  · apply keeps_fire
    assumption
  · assumption

theorem keeps_linkSettle {s₀ : State} (s : State) (l : ℕ) (h0 : Kept s₀ s) :
    Kept s₀ (State.linkSettle s l) := by
  unfold State.linkSettle
  apply keeps_pairLinkLost
  apply keeps_syntonise
  apply keeps_repath
  apply keeps_fire
  apply keeps_setLink
  assumption

theorem keeps_linkOff {s₀ : State} (s : State) (l : ℕ) (h0 : Kept s₀ s) :
    Kept s₀ (State.linkOff s l) := by
  unfold State.linkOff
  apply keeps_pairLinkLost
  apply keeps_syntonise
  apply keeps_repath
  apply keeps_wrapWaiting
  apply keeps_setLink
  assumption

theorem keeps_linkEnable {s₀ : State} (s : State) (l : ℕ) (v : ℕ) (h0 : Kept s₀ s) :
    Kept s₀ (State.linkEnable s l v) := by
  unfold State.linkEnable
  extract_lets +onlyGivenNames t1
  clear_value t1
  refine Kept.ite ?_ ?_
  · refine Kept.ite ?_ ?_
    · extract_lets +onlyGivenNames t2
      refine Kept.cut (a := t2) ?_ fun _ => ?_
      · unfold t2; clear t2
        apply keeps_setLink
        assumption
      clear_value t2
      refine Kept.ite ?_ ?_
      · apply keeps_linkFall
        assumption
      · assumption
    · assumption
  · refine Kept.ite ?_ ?_
    · assumption
    · apply keeps_linkOff
      assumption

theorem keeps_linkTrain {s₀ : State} (s : State) (l : ℕ) (h0 : Kept s₀ s) :
    Kept s₀ (State.linkTrain s l) := by
  unfold State.linkTrain
  extract_lets +onlyGivenNames t1
  refine Kept.cut (a := t1) ?_ fun _ => ?_
  · unfold t1; clear t1
    apply keeps_marker
    apply keeps_marker
    apply keeps_setLink
    assumption
  clear_value t1
  refine Kept.ite ?_ ?_
  · split
    apply keeps_setLink
    refine Kept.ofEq (by assumption) ?_
    apply keeps_loadKey
    assumption
  · assumption

theorem keeps_linkTryTrain {s₀ : State} (s : State) (l : ℕ) (h0 : Kept s₀ s) :
    Kept s₀ (State.linkTryTrain s l) := by
  unfold State.linkTryTrain
  extract_lets +onlyGivenNames t1
  clear_value t1
  refine Kept.ite ?_ ?_
  · apply keeps_linkTrain
    assumption
  · assumption

theorem keeps_checkFail {s₀ : State} (s : State) (l : ℕ) (h0 : Kept s₀ s) :
    Kept s₀ (State.checkFail s l) := by
  unfold State.checkFail
  extract_lets +onlyGivenNames t1
  refine Kept.cut (a := t1) ?_ fun _ => ?_
  · unfold t1; clear t1
    apply keeps_fire
    apply keeps_linkCount
    assumption
  clear_value t1
  extract_lets +onlyGivenNames t2
  clear_value t2
  extract_lets +onlyGivenNames t3
  clear_value t3
  extract_lets +onlyGivenNames t4
  clear_value t4
  extract_lets +onlyGivenNames t5
  refine Kept.cut (a := t5) ?_ fun _ => ?_
  · unfold t5; clear t5
    apply keeps_setLink
    assumption
  clear_value t5
  refine Kept.ite ?_ ?_
  · apply keeps_linkFall
    assumption
  · assumption

theorem keeps_depart {s₀ : State} (s : State) (l : ℕ) (stream : ℕ) (w : List Word) (place : List ℕ) (h0 : Kept s₀ s) :
    Kept s₀ (State.depart s l stream w place) := by
  unfold State.depart
  refine Kept.ite ?_ ?_
  · apply keeps_linkCount
    apply keeps_cellOut
    assumption
  · apply keeps_linkCount
    assumption

theorem keeps_keepCell {s₀ : State} (s : State) (l : ℕ) (n : ℕ) (seq : ℕ) (w : List Word) (h0 : Kept s₀ s) :
    Kept s₀ (State.keepCell s l n seq w) := by
  unfold State.keepCell
  extract_lets +onlyGivenNames t1
  extract_lets +onlyGivenNames t2
  extract_lets +onlyGivenNames t3
  refine Kept.have_ (P := ∀ b0 b1, Kept s₀ b0 → Kept s₀ (t3 b0 b1)) ?_ fun hg4 => ?_
  · unfold t3; clear t3
    intro a5 a6 a7
    refine Kept.of_eq rfl rfl rfl rfl rfl rfl rfl rfl rfl rfl rfl rfl ?_
    assumption
  clear_value t3
  extract_lets +onlyGivenNames t8
  refine Kept.ite ?_ ?_
  · apply keeps_bump
    apply hg4
    assumption
  · extract_lets +onlyGivenNames t9
    refine Kept.cut (a := t9) ?_ fun _ => ?_
    · unfold t9; clear t9
      refine Kept.ite ?_ ?_
      · apply hg4
        assumption
      · assumption
    clear_value t9
    apply keeps_bump
    assumption

theorem keeps_rxDeliver {s₀ : State} (s : State) (n : ℕ) (f : ℕ) (h0 : Kept s₀ s) :
    Kept s₀ (State.rxDeliver s n f).1 := by
  unfold State.rxDeliver
  extract_lets +onlyGivenNames t1
  clear_value t1
  split
  split
  · dsimp only
    assumption
  · dsimp only
    apply keeps_bump
    assumption

theorem keeps_rxSwap {s₀ : State} (s : State) (old : List Word) (new : List Word) (h0 : Kept s₀ s) :
    Kept s₀ (State.rxSwap s old new) := by
  unfold State.rxSwap
  extract_lets +onlyGivenNames t1
  clear_value t1
  extract_lets +onlyGivenNames t2
  clear_value t2
  extract_lets +onlyGivenNames t3
  clear_value t3
  refine Kept.fold ?_ ?_
  · intro a1 a2 a3
    refine Kept.ite ?_ ?_
    · assumption
    · refine Kept.of_eq rfl rfl rfl rfl rfl rfl rfl rfl rfl rfl rfl rfl ?_
      assumption
  · assumption

theorem keeps_passOn {s₀ : State} (s : State) (l : ℕ) (w : List Word) (free : Bool) (h0 : Kept s₀ s) :
    Kept s₀ (State.passOn s l w free) := by
  unfold State.passOn
  refine Kept.ite ?_ ?_
  · apply keeps_unschedOut
    assumption
  · apply keeps_transitPut
    assumption

theorem keeps_dropReserved {s₀ : State} (s : State) (l : ℕ) (h0 : Kept s₀ s) :
    Kept s₀ (State.dropReserved s l) := by
  unfold State.dropReserved
  apply keeps_fire
  apply keeps_linkCount
  assumption

theorem keeps_unplannedIn {s₀ : State} (s : State) (l : ℕ) (cell : List Word) (check : ℕ) (beat : ℕ) (slot : ℕ) (h0 : Kept s₀ s) :
    Kept s₀ (State.unplannedIn s l cell check beat slot) := by
  unfold State.unplannedIn
  extract_lets +onlyGivenNames t1
  clear_value t1
  extract_lets +onlyGivenNames t2
  refine Kept.cut (a := t2) ?_ fun _ => ?_
  · unfold t2; clear t2
    apply keeps_cellIn
    assumption
  clear_value t2
  extract_lets +onlyGivenNames t3
  clear_value t3
  extract_lets +onlyGivenNames t4
  clear_value t4
  extract_lets +onlyGivenNames t5
  clear_value t5
  extract_lets +onlyGivenNames t6
  clear_value t6
  refine Kept.ite ?_ ?_
  · apply keeps_checkFail
    assumption
  · extract_lets +onlyGivenNames t7
    refine Kept.cut (a := t7) ?_ fun _ => ?_
    · unfold t7; clear t7
      apply keeps_linkCount
      assumption
    clear_value t7
    refine Kept.ite ?_ ?_
    · apply keeps_dropReserved
      assumption
    · refine Kept.ite ?_ ?_
      · assumption
      · refine Kept.ite ?_ ?_
        · assumption
        · refine Kept.ite ?_ ?_
          · assumption
          · refine Kept.ite ?_ ?_
            · apply keeps_linkCount
              assumption
            · extract_lets +onlyGivenNames t8
              clear_value t8
              extract_lets +onlyGivenNames t9
              clear_value t9
              refine Kept.ite ?_ ?_
              · apply keeps_passOn
                assumption
              · refine Kept.ite ?_ ?_
                · apply keeps_linkCount
                  assumption
                · apply keeps_passOn
                  apply keeps_countWrap
                  assumption

theorem keeps_plannedIn {s₀ : State} (s : State) (l : ℕ) (cell : List Word) (check : ℕ) (beat : ℕ) (slot : ℕ) (r : SlotRec) (h0 : Kept s₀ s) :
    Kept s₀ (State.plannedIn s l cell check beat slot r) := by
  unfold State.plannedIn
  extract_lets +onlyGivenNames t1
  clear_value t1
  extract_lets +onlyGivenNames t2
  clear_value t2
  extract_lets +onlyGivenNames t3
  clear_value t3
  extract_lets +onlyGivenNames t4
  refine Kept.cut (a := t4) ?_ fun _ => ?_
  · unfold t4; clear t4
    apply keeps_cellIn
    assumption
  clear_value t4
  extract_lets +onlyGivenNames t5
  refine Kept.ite ?_ ?_
  · extract_lets +onlyGivenNames t6
    refine Kept.cut (a := t6) ?_ fun _ => ?_
    · unfold t6; clear t6
      apply keeps_checkFail
      assumption
    clear_value t6
    refine Kept.ite ?_ ?_
    · apply keeps_bump
      assumption
    · assumption
  · extract_lets +onlyGivenNames t7
    refine Kept.cut (a := t7) ?_ fun _ => ?_
    · unfold t7; clear t7
      apply keeps_linkCount
      assumption
    clear_value t7
    extract_lets +onlyGivenNames t8
    refine Kept.cut (a := t8) ?_ fun _ => ?_
    · unfold t8; clear t8
      refine Kept.ite ?_ ?_
      · split
        · apply keeps_keepCell
          assumption
        · assumption
      · assumption
    clear_value t8
    refine Kept.ite ?_ ?_
    · refine Kept.ite ?_ ?_
      · apply keeps_linkCount
        apply keeps_cellOut
        assumption
      · apply keeps_linkCount
        assumption
    · assumption

theorem keeps_cellArrives {s₀ : State} (s : State) (l : ℕ) (cell : List Word) (check : ℕ) (beat : ℕ) (slot : ℕ) (h0 : Kept s₀ s) :
    Kept s₀ (State.cellArrives s l cell check beat slot) := by
  unfold State.cellArrives
  refine Kept.ite ?_ ?_
  · assumption
  · split
    extract_lets +onlyGivenNames t1
    clear_value t1
    split
    · apply keeps_plannedIn
      assumption
    · apply keeps_unplannedIn
      assumption

theorem keeps_slotServes {s₀ : State} (s : State) (l : ℕ) (beat : ℕ) (slot : ℕ) (h0 : Kept s₀ s) :
    Kept s₀ (State.slotServes s l beat slot) := by
  unfold State.slotServes
  extract_lets +onlyGivenNames t1
  clear_value t1
  refine Kept.ite ?_ ?_
  · assumption
  · split
    · apply keeps_emit
      apply keeps_setLink
      assumption
    · split
      · apply keeps_unschedOut
        apply keeps_setLink
        assumption
      · assumption

theorem keeps_sendRoster {s₀ : State} (s : State) (h0 : Kept s₀ s) :
    Kept s₀ (State.sendRoster s) := by
  unfold State.sendRoster
  extract_lets +onlyGivenNames t1
  clear_value t1
  extract_lets +onlyGivenNames t2
  clear_value t2
  extract_lets +onlyGivenNames t3
  extract_lets +onlyGivenNames t4
  refine Kept.cut (a := t4) ?_ fun _ => ?_
  · unfold t4; clear t4
    refine Kept.of_eq rfl rfl rfl rfl rfl rfl rfl rfl rfl rfl rfl rfl ?_
    assumption
  clear_value t4
  apply keeps_broadcast
  assumption

theorem keeps_wantRoster {s₀ : State} (s : State) (h0 : Kept s₀ s) :
    Kept s₀ (State.wantRoster s) := by
  unfold State.wantRoster
  refine Kept.ite ?_ ?_
  · apply keeps_sendRoster
    assumption
  · refine Kept.of_eq rfl rfl rfl rfl rfl rfl rfl rfl rfl rfl rfl rfl ?_
    assumption

theorem keeps_execLinkFault {s₀ : State} (l : Fin 5) (s : State) (h0 : Kept s₀ s) :
    ∃ out, execLinkFault l s = .next out ∧ Kept s₀ out := by
  unfold execLinkFault
  refine ⟨_, rfl, ?_⟩
  split
  · assumption
  · assumption
  · extract_lets +onlyGivenNames t1
    refine Kept.cut (a := t1) ?_ fun _ => ?_
    · unfold t1; clear t1
      apply keeps_setLink
      assumption
    clear_value t1
    refine Kept.ite ?_ ?_
    · apply keeps_linkFall
      assumption
    · assumption

theorem keeps_execTrainOk {s₀ : State} (l : Fin 5) (protect : Bool) (s : State) (h0 : Kept s₀ s) :
    ∃ out, execTrainOk l protect s = .next out ∧ Kept s₀ out := by
  unfold execTrainOk
  refine ⟨_, rfl, ?_⟩
  split
  · assumption
  · assumption
  · extract_lets +onlyGivenNames t1
    clear_value t1
    apply keeps_setLink
    assumption

theorem keeps_execDelayProbe {s₀ : State} (l : Fin 5) (ta : ℕ) (s : State) (h0 : Kept s₀ s) :
    ∃ out, execDelayProbe l ta s = .next out ∧ Kept s₀ out := by
  unfold execDelayProbe
  refine ⟨_, rfl, ?_⟩
  split
  · assumption
  · assumption
  · apply keeps_marker
    apply keeps_setLink
    assumption

theorem keeps_execDelayEcho {s₀ : State} (l : Fin 5) (ta : ℕ) (rt : ℕ) (s : State) (h0 : Kept s₀ s) :
    ∃ out, execDelayEcho l ta rt s = .next out ∧ Kept s₀ out := by
  unfold execDelayEcho
  extract_lets +onlyGivenNames t1
  clear_value t1
  extract_lets +onlyGivenNames t2
  refine Kept.have_ (P := Kept s₀ t2) ?_ fun hs3 => ?_
  · unfold t2; clear t2
    split
    · assumption
    · assumption
    · apply keeps_setLink
      assumption
  clear_value t2
  extract_lets +onlyGivenNames t4
  clear_value t4
  extract_lets +onlyGivenNames t5
  clear_value t5
  refine ⟨_, rfl, ?_⟩
  split
  · assumption
  · assumption
  · refine Kept.ite ?_ ?_
    · refine Kept.ite ?_ ?_
      · assumption
      · apply keeps_wantRoster
        apply keeps_setLink
        assumption
    · refine Kept.ite ?_ ?_
      · assumption
      · refine Kept.ite ?_ ?_
        · apply keeps_setLink
          assumption
        · apply keeps_linkFall
          assumption

theorem keeps_execRingLinkSettleDone {s₀ : State} (l : Fin 5) (s : State) (h0 : Kept s₀ s) :
    ∃ out, execRingLinkSettleDone l s = .next out ∧ Kept s₀ out := by
  unfold execRingLinkSettleDone
  extract_lets +onlyGivenNames t1
  clear_value t1
  refine ⟨_, rfl, ?_⟩
  refine Kept.ite ?_ ?_
  · extract_lets +onlyGivenNames t2
    refine Kept.cut (a := t2) ?_ fun _ => ?_
    · unfold t2; clear t2
      apply keeps_linkTrain
      assumption
    clear_value t2
    apply keeps_setLink
    assumption
  · assumption

theorem keeps_execRingLinkTrained {s₀ : State} (l : Fin 5) (polarity : Fin 16) (swapped : Bool) (s : State) (h0 : Kept s₀ s) :
    ∃ out, execRingLinkTrained l polarity swapped s = .next out ∧ Kept s₀ out := by
  unfold execRingLinkTrained
  refine ⟨_, rfl, ?_⟩
  refine Kept.ite ?_ ?_
  · apply keeps_setLink
    assumption
  · assumption

theorem keeps_execRingTrainingTimeout {s₀ : State} (l : Fin 5) (s : State) (h0 : Kept s₀ s) :
    ∃ out, execRingTrainingTimeout l s = .next out ∧ Kept s₀ out := by
  unfold execRingTrainingTimeout
  refine ⟨_, rfl, ?_⟩
  refine Kept.ite ?_ ?_
  · apply keeps_linkFall
    assumption
  · assumption

theorem keeps_execRingBlockLockLost {s₀ : State} (l : Fin 5) (s : State) (h0 : Kept s₀ s) :
    ∃ out, execRingBlockLockLost l s = .next out ∧ Kept s₀ out := by
  unfold execRingBlockLockLost
  refine ⟨_, rfl, ?_⟩
  refine Kept.ite ?_ ?_
  · apply keeps_linkFall
    apply keeps_setLink
    assumption
  · apply keeps_setLink
    assumption

theorem keeps_execRingBlockLockAcquired {s₀ : State} (l : Fin 5) (s : State) (h0 : Kept s₀ s) :
    ∃ out, execRingBlockLockAcquired l s = .next out ∧ Kept s₀ out := by
  unfold execRingBlockLockAcquired
  refine ⟨_, rfl, ?_⟩
  apply keeps_linkTryTrain
  apply keeps_setLink
  assumption

theorem keeps_laneLost {s₀ : State} (s : State) (l : ℕ) (h0 : Kept s₀ s) :
    Kept s₀ (State.laneLost s l) := by
  unfold State.laneLost
  split
  · apply keeps_linkSettle
    assumption
  · apply keeps_linkSettle
    assumption
  · refine Kept.ite ?_ ?_
    · assumption
    · apply keeps_linkSettle
      assumption
  · assumption

theorem keeps_execRingLanePllLoss {s₀ : State} (l : Fin 5) (s : State) (h0 : Kept s₀ s) :
    ∃ out, execRingLanePllLoss l s = .next out ∧ Kept s₀ out := by
  unfold execRingLanePllLoss
  refine ⟨_, rfl, ?_⟩
  apply keeps_laneLost
  assumption

theorem keeps_execRetrainHoldExpiry {s₀ : State} (l : Fin 5) (s : State) (h0 : Kept s₀ s) :
    ∃ out, execRetrainHoldExpiry l s = .next out ∧ Kept s₀ out := by
  unfold execRetrainHoldExpiry
  refine ⟨_, rfl, ?_⟩
  refine Kept.ite ?_ ?_
  · apply keeps_linkTryTrain
    apply keeps_setLink
    assumption
  · assumption

theorem keeps_execRingHalt {s₀ : State} (l : Fin 5) (s : State) (h0 : Kept s₀ s) :
    ∃ out, execRingHalt l s = .next out ∧ Kept s₀ out := by
  unfold execRingHalt
  refine ⟨_, rfl, ?_⟩
  refine Kept.ite ?_ ?_
  · apply keeps_abort
    assumption
  · apply keeps_linkOff
    assumption

theorem keeps_execRingCalibrate {s₀ : State} (l : Fin 5) (s : State) (h0 : Kept s₀ s) :
    ∃ out, execRingCalibrate l s = .next out ∧ Kept s₀ out := by
  unfold execRingCalibrate
  refine ⟨_, rfl, ?_⟩
  split
  · apply keeps_linkSettle
    assumption
  · apply keeps_linkSettle
    assumption
  · refine Kept.ite ?_ ?_
    · assumption
    · apply keeps_linkSettle
      assumption
  · apply keeps_abort
    assumption

theorem keeps_retrainOp {s₀ : State} (s : State) (l : ℕ) (h0 : Kept s₀ s) :
    Kept s₀ (State.retrainOp s l) := by
  unfold State.retrainOp
  apply keeps_pairLinkLost
  apply keeps_syntonise
  apply keeps_repath
  apply keeps_setLink
  assumption

theorem keeps_execRetrain {s₀ : State} (l : Fin 5) (s : State) (h0 : Kept s₀ s) :
    ∃ out, execRetrain l s = .next out ∧ Kept s₀ out := by
  unfold execRetrain
  refine ⟨_, rfl, ?_⟩
  split
  · apply keeps_retrainOp
    assumption
  · refine Kept.ite ?_ ?_
    · assumption
    · apply keeps_retrainOp
      assumption
  · apply keeps_abort
    assumption

theorem keeps_execTopology {s₀ : State} (st : Fin 2048) (l : Fin 5) (up : Bool) (counter : ℕ) (s : State) (h0 : Kept s₀ s) :
    ∃ out, execTopology st l up counter s = .next out ∧ Kept s₀ out := by
  unfold execTopology
  extract_lets +onlyGivenNames t1
  clear_value t1
  extract_lets +onlyGivenNames t2
  clear_value t2
  refine ⟨_, rfl, ?_⟩
  refine Kept.ite ?_ ?_
  · apply keeps_syntonise
    apply keeps_repath
    refine Kept.of_eq rfl rfl rfl rfl rfl rfl rfl rfl rfl rfl rfl rfl ?_
    assumption
  · assumption

theorem keeps_authEvent {s₀ : State} (s : State) (l : ℕ) (tide : ℕ) (h0 : Kept s₀ s) :
    Kept s₀ (State.authEvent s l tide) := by
  unfold State.authEvent
  apply keeps_fire
  apply keeps_linkFall
  assumption

theorem keeps_execSeal {s₀ : State} (l : Fin 5) (tag : ℕ) (tide : ℕ) (s : State) (h0 : Kept s₀ s) :
    ∃ out, execSeal l tag tide s = .next out ∧ Kept s₀ out := by
  unfold execSeal
  refine ⟨_, rfl, ?_⟩
  refine Kept.ite ?_ ?_
  · assumption
  · extract_lets +onlyGivenNames t1
    clear_value t1
    extract_lets +onlyGivenNames t2
    clear_value t2
    extract_lets +onlyGivenNames t3
    refine Kept.cut (a := t3) ?_ fun _ => ?_
    · unfold t3; clear t3
      apply keeps_setLink
      assumption
    clear_value t3
    split
    · apply keeps_authEvent
      assumption
    · refine Kept.ite ?_ ?_
      · assumption
      · refine Kept.ite ?_ ?_
        · apply keeps_linkCount
          assumption
        · apply keeps_authEvent
          assumption

theorem keeps_execSealLimitExpiry {s₀ : State} (l : Fin 5) (s : State) (h0 : Kept s₀ s) :
    ∃ out, execSealLimitExpiry l s = .next out ∧ Kept s₀ out := by
  unfold execSealLimitExpiry
  refine ⟨_, rfl, ?_⟩
  refine Kept.ite ?_ ?_
  · apply keeps_authEvent
    assumption
  · assumption

theorem keeps_badCellIn {s₀ : State} (s : State) (l : ℕ) (h0 : Kept s₀ s) :
    Kept s₀ (State.badCellIn s l) := by
  unfold State.badCellIn
  refine Kept.ite ?_ ?_
  · split
    apply keeps_cellIn
    refine Kept.ofEq (by assumption) ?_
    apply keeps_draw
    assumption
  · assumption

theorem keeps_execMalformedSlot {s₀ : State} (l : Fin 5) (data : Bool) (s : State) (h0 : Kept s₀ s) :
    ∃ out, execMalformedSlot l data s = .next out ∧ Kept s₀ out := by
  unfold execMalformedSlot
  refine ⟨_, rfl, ?_⟩
  split
  · assumption
  · assumption
  · refine Kept.ite ?_ ?_
    · apply keeps_linkCount
      apply keeps_badCellIn
      assumption
    · apply keeps_dropReserved
      apply keeps_setLink
      assumption
  · refine Kept.ite ?_ ?_
    · assumption
    · apply keeps_dropReserved
      apply keeps_setLink
      assumption

theorem keeps_countReserved {s₀ : State} (s : State) (l : ℕ) (w : ℕ → ℕ) (h0 : Kept s₀ s) :
    Kept s₀ (State.countReserved s l w) := by
  unfold State.countReserved
  refine Kept.ite ?_ ?_
  · apply keeps_linkCount
    assumption
  · split
    · apply keeps_bump
      assumption
    · apply keeps_bump
      assumption
    · apply keeps_bump
      assumption
    · apply keeps_bump
      assumption
    · apply keeps_linkCount
      assumption

theorem keeps_execReservedCell {s₀ : State} (l : Fin 5) (cell : List Word) (check : Fin 256) (s : State) (h0 : Kept s₀ s) :
    ∃ out, execReservedCell l cell check s = .next out ∧ Kept s₀ out := by
  unfold execReservedCell
  refine ⟨_, rfl, ?_⟩
  refine Kept.ite ?_ ?_
  · assumption
  · refine Kept.ite ?_ ?_
    · assumption
    · split
      extract_lets +onlyGivenNames t1
      clear_value t1
      extract_lets +onlyGivenNames t2
      refine Kept.cut (a := t2) ?_ fun _ => ?_
      · unfold t2; clear t2
        apply keeps_cellIn
        assumption
      clear_value t2
      refine Kept.ite ?_ ?_
      · apply keeps_fire
        apply keeps_countReserved
        apply keeps_linkCount
        assumption
      · apply keeps_checkFail
        assumption

theorem keeps_sealTurn {s₀ : State} (s : State) (l : ℕ) (h0 : Kept s₀ s) :
    Kept s₀ (State.sealTurn s l) := by
  unfold State.sealTurn
  extract_lets +onlyGivenNames t1
  clear_value t1
  refine Kept.ite ?_ ?_
  · assumption
  · split
    · apply keeps_linkFall
      assumption
    · extract_lets +onlyGivenNames t2
      clear_value t2
      extract_lets +onlyGivenNames t3
      clear_value t3
      extract_lets +onlyGivenNames t4
      refine Kept.cut (a := t4) ?_ fun _ => ?_
      · unfold t4; clear t4
        apply keeps_setLink
        assumption
      clear_value t4
      split
      apply keeps_ownOut
      refine Kept.ofEq (by assumption) ?_
      apply keeps_nextSeq
      assumption

theorem keeps_phaseTurn {s₀ : State} (s : State) (l : ℕ) (h0 : Kept s₀ s) :
    Kept s₀ (State.phaseTurn s l) := by
  unfold State.phaseTurn
  extract_lets +onlyGivenNames t1
  clear_value t1
  split
  · apply keeps_setLink
    assumption
  · assumption

end Sys2Proof.Laws
end

