-- ==== Sys2Proof/Laws/KeepSwitch.lean ====
section
/-! SUPPORT. What each operation of Machine/Switch.lean keeps (Laws/Kept.lean). -/

open Sys2Proof Sys2Proof.Machine

namespace Sys2Proof.Laws

theorem keeps_setPort {s₀ : State} (s : State) (p : ℕ) (x : Port) (h0 : Kept s₀ s) :
    Kept s₀ (State.setPort s p x) := by
  unfold State.setPort
  refine Kept.of_eq rfl rfl rfl rfl rfl rfl rfl rfl rfl rfl rfl rfl ?_
  assumption

theorem keeps_portCount {s₀ : State} (s : State) (p : ℕ) (k : ℕ) (h0 : Kept s₀ s) :
    Kept s₀ (State.portCount s p k) := by
  unfold State.portCount
  refine Kept.ite ?_ ?_
  · apply keeps_bump
    assumption
  · assumption

theorem keeps_setBq {s₀ : State} (s : State) (p : ℕ) (tc : ℕ) (l : List QFrame) (h0 : Kept s₀ s) :
    Kept s₀ (State.setBq s p tc l) := by
  unfold State.setBq
  refine Kept.of_eq rfl rfl rfl rfl rfl rfl rfl rfl rfl rfl rfl rfl ?_
  assumption

theorem keeps_noteFree {s₀ : State} (s : State) (h0 : Kept s₀ s) :
    Kept s₀ (State.noteFree s) := by
  unfold State.noteFree
  refine Kept.of_eq rfl rfl rfl rfl rfl rfl rfl rfl rfl rfl rfl rfl ?_
  assumption

theorem keeps_setSchedQ {s₀ : State} (s : State) (p : ℕ) (l : List SchedFrame) (h0 : Kept s₀ s) :
    Kept s₀ (State.setSchedQ s p l) := by
  unfold State.setSchedQ
  refine Kept.of_eq rfl rfl rfl rfl rfl rfl rfl rfl rfl rfl rfl rfl ?_
  assumption

theorem keeps_recToPen {s₀ : State} (s : State) (p : ℕ) (ws : List Word) (h0 : Kept s₀ s) :
    Kept s₀ (State.recToPen s p ws).1 := by
  unfold State.recToPen
  split
  · dsimp only
    assumption
  · apply keeps_penPacketIn
    apply keeps_enterPen
    assumption

theorem keeps_redAdmit {s₀ : State} (s : State) (p : ℕ) (tc : ℕ) (colour : ℕ) (h0 : Kept s₀ s) :
    Kept s₀ (State.redAdmit s p tc colour).1 := by
  unfold State.redAdmit
  extract_lets +onlyGivenNames t1
  clear_value t1
  extract_lets +onlyGivenNames t2
  clear_value t2
  extract_lets +onlyGivenNames t3
  clear_value t3
  extract_lets +onlyGivenNames t4
  clear_value t4
  extract_lets +onlyGivenNames t5
  clear_value t5
  extract_lets +onlyGivenNames t6
  clear_value t6
  extract_lets +onlyGivenNames t7
  refine Kept.cut (a := t7) ?_ fun _ => ?_
  · unfold t7; clear t7
    refine Kept.of_eq rfl rfl rfl rfl rfl rfl rfl rfl rfl rfl rfl rfl ?_
    assumption
  clear_value t7
  split
  · assumption
  · split
    · assumption
    · split
      · assumption
      · dsimp only
        apply keeps_draw
        assumption

theorem keeps_noteFull {s₀ : State} (s : State) (ingress : ℕ) (h0 : Kept s₀ s) :
    Kept s₀ (State.noteFull s ingress) := by
  unfold State.noteFull
  extract_lets +onlyGivenNames t1
  refine Kept.cut (a := t1) ?_ fun _ => ?_
  · unfold t1; clear t1
    apply keeps_portCount
    assumption
  clear_value t1
  refine Kept.ite ?_ ?_
  · assumption
  · apply keeps_fire
    refine Kept.of_eq rfl rfl rfl rfl rfl rfl rfl rfl rfl rfl rfl rfl ?_
    assumption

theorem keeps_enqueue {s₀ : State} (s : State) (p : ℕ) (f : QFrame) (h0 : Kept s₀ s) :
    Kept s₀ (State.enqueue s p f).1 := by
  unfold State.enqueue
  split
  · dsimp only
    apply keeps_portCount
    assumption
  · split
    split
    · dsimp only
      apply keeps_noteFree
      apply keeps_setBq
      refine Kept.ofEq (by assumption) ?_
      apply keeps_redAdmit
      assumption
    · dsimp only
      apply keeps_portCount
      refine Kept.ofEq (by assumption) ?_
      apply keeps_redAdmit
      assumption

theorem keeps_newCopy {s₀ : State} (s : State) (f : QFrame) (h0 : Kept s₀ s) :
    Kept s₀ (State.newCopy s f).1 := by
  unfold State.newCopy
  refine Kept.of_eq rfl rfl rfl rfl rfl rfl rfl rfl rfl rfl rfl rfl ?_
  assumption

theorem keeps_mirror {s₀ : State} (s : State) (k : ℕ) (f : QFrame) (h0 : Kept s₀ s) :
    Kept s₀ (State.mirror s k f) := by
  unfold State.mirror
  extract_lets +onlyGivenNames t1
  clear_value t1
  refine Kept.ite ?_ ?_
  · apply keeps_portCount
    assumption
  · split
    split
    · apply keeps_bump
      refine Kept.ofEq (by assumption) ?_
      apply keeps_enqueue
      refine Kept.ofEq (by assumption) ?_
      apply keeps_newCopy
      assumption
    · refine Kept.ite ?_ ?_
      · apply keeps_portCount
        refine Kept.ofEq (by assumption) ?_
        apply keeps_enqueue
        refine Kept.ofEq (by assumption) ?_
        apply keeps_newCopy
        assumption
      · refine Kept.ofEq (by assumption) ?_
        apply keeps_enqueue
        refine Kept.ofEq (by assumption) ?_
        apply keeps_newCopy
        assumption

theorem keeps_sample {s₀ : State} (s : State) (k : ℕ) (f : QFrame) (port : ℕ) (dir : ℕ) (t : ℕ) (h0 : Kept s₀ s) :
    Kept s₀ (State.sample s k f port dir t) := by
  unfold State.sample
  extract_lets +onlyGivenNames t1
  clear_value t1
  refine Kept.ite ?_ ?_
  · extract_lets +onlyGivenNames t2
    extract_lets +onlyGivenNames t3
    refine Kept.cut (a := t3) ?_ fun _ => ?_
    · unfold t3; clear t3
      refine Kept.of_eq rfl rfl rfl rfl rfl rfl rfl rfl rfl rfl rfl rfl ?_
      assumption
    clear_value t3
    split
    · refine Kept.ofEq (by assumption) ?_
      apply keeps_recToPen
      assumption
    · apply keeps_bump
      refine Kept.ofEq (by assumption) ?_
      apply keeps_recToPen
      assumption
  · refine Kept.of_eq rfl rfl rfl rfl rfl rfl rfl rfl rfl rfl rfl rfl ?_
    assumption

theorem keeps_sessions {s₀ : State} (s : State) (f : QFrame) (port : ℕ) (dir : ℕ) (t : ℕ) (rule : Option ℕ) (h0 : Kept s₀ s) :
    Kept s₀ (State.sessions s f port dir t rule) := by
  unfold State.sessions
  refine Kept.fold ?_ ?_
  · intro a1 a2 a3
    extract_lets +onlyGivenNames t1
    clear_value t1
    extract_lets +onlyGivenNames t2
    clear_value t2
    extract_lets +onlyGivenNames t3
    clear_value t3
    refine Kept.ite ?_ ?_
    · assumption
    · split
      · refine Kept.ite ?_ ?_
        · assumption
        · apply keeps_mirror
          assumption
      · apply keeps_sample
        assumption
      · assumption
  · assumption

theorem keeps_meter {s₀ : State} (s : State) (k : ℕ) (b : ℕ) (colour : ℕ) (h0 : Kept s₀ s) :
    Kept s₀ (State.meter s k b colour).1 := by
  unfold State.meter
  extract_lets +onlyGivenNames t1
  clear_value t1
  extract_lets +onlyGivenNames t2
  clear_value t2
  extract_lets +onlyGivenNames t3
  clear_value t3
  extract_lets +onlyGivenNames t4
  clear_value t4
  extract_lets +onlyGivenNames t5
  clear_value t5
  dsimp only
  refine Kept.of_eq rfl rfl rfl rfl rfl rfl rfl rfl rfl rfl rfl rfl ?_
  assumption

theorem keeps_fdbTrim {s₀ : State} (s : State) (h0 : Kept s₀ s) :
    Kept s₀ (State.fdbTrim s) := by
  unfold State.fdbTrim
  refine Kept.of_eq rfl rfl rfl rfl rfl rfl rfl rfl rfl rfl rfl rfl ?_
  assumption

theorem keeps_learn {s₀ : State} (s : State) (vid : ℕ) (mac : ℕ) (dest : ℕ) (h0 : Kept s₀ s) :
    Kept s₀ (State.learn s vid mac dest) := by
  unfold State.learn
  extract_lets +onlyGivenNames t1
  clear_value t1
  refine Kept.ite ?_ ?_
  · assumption
  · refine Kept.ite ?_ ?_
    · apply keeps_bumpFld
      assumption
    · refine Kept.of_eq rfl rfl rfl rfl rfl rfl rfl rfl rfl rfl rfl rfl ?_
      assumption

theorem keeps_toCore {s₀ : State} (s : State) (f : QFrame) (t : ℕ) (h0 : Kept s₀ s) :
    Kept s₀ (State.toCore s f t) := by
  unfold State.toCore
  split
  · apply keeps_bump
    assumption
  · assumption
  · extract_lets +onlyGivenNames t1
    clear_value t1
    refine Kept.ite ?_ ?_
    · apply keeps_recToPen
      assumption
    · assumption

theorem keeps_egress {s₀ : State} (s : State) (f : QFrame) (t : ℕ) (dest : ℕ) (h0 : Kept s₀ s) :
    Kept s₀ (State.egress s f t dest) := by
  unfold State.egress
  refine Kept.ite ?_ ?_
  · refine Kept.ite ?_ ?_
    · assumption
    · apply keeps_tunnelSend
      assumption
  · refine Kept.ite ?_ ?_
    · apply keeps_toCore
      assumption
    · apply keeps_enqueue
      assumption

theorem keeps_switchFrame {s₀ : State} (s : State) (f : QFrame) (t : ℕ) (h0 : Kept s₀ s) :
    Kept s₀ (State.switchFrame s f t) := by
  unfold State.switchFrame
  refine Kept.ite ?_ ?_
  · apply keeps_noteFull
    assumption
  · dsimp only
    refine Kept.fold ?_ ?_
    · intro a1 a2 a3
      apply keeps_egress
      assumption
    · apply keeps_newCopy
      assumption

theorem keeps_classify {s₀ : State} (s : State) (f : QFrame) (t : ℕ) (h0 : Kept s₀ s) :
    Kept s₀ (State.classify s f t) := by
  unfold State.classify
  refine Kept.ite ?_ ?_
  · apply keeps_portCount
    assumption
  · extract_lets +onlyGivenNames t1
    clear_value t1
    split
    apply keeps_switchFrame
    refine Kept.ofEq (by assumption) ?_
    split
    · dsimp only
      assumption
    · extract_lets +onlyGivenNames t2
      clear_value t2
      extract_lets +onlyGivenNames t3
      clear_value t3
      split
      dsimp only
      apply keeps_sessions
      refine Kept.ofEq (by assumption) ?_
      split
      · split
        dsimp only
        refine Kept.ofEq (by assumption) ?_
        apply keeps_meter
        assumption
      · dsimp only
        assumption

theorem keeps_rxGood {s₀ : State} (s : State) (p : ℕ) (b : List ℕ) (t : ℕ) (h0 : Kept s₀ s) :
    Kept s₀ (State.rxGood s p b t) := by
  unfold State.rxGood
  extract_lets +onlyGivenNames t1
  refine Kept.cut (a := t1) ?_ fun _ => ?_
  · unfold t1; clear t1
    apply keeps_portCount
    assumption
  clear_value t1
  extract_lets +onlyGivenNames t2
  clear_value t2
  extract_lets +onlyGivenNames t3
  refine Kept.cut (a := t3) ?_ fun _ => ?_
  · unfold t3; clear t3
    assumption
  clear_value t3
  extract_lets +onlyGivenNames t4
  refine Kept.cut (a := t4) ?_ fun _ => ?_
  · unfold t4; clear t4
    apply keeps_sessions
    assumption
  clear_value t4
  extract_lets +onlyGivenNames t5
  refine Kept.cut (a := t5) ?_ fun _ => ?_
  · unfold t5; clear t5
    split
    · split
      · apply keeps_portCount
        refine Kept.ofEq (by assumption) ?_
        apply keeps_recToPen
        assumption
      · refine Kept.ofEq (by assumption) ?_
        apply keeps_recToPen
        assumption
    · apply keeps_classify
      assumption
  clear_value t5
  refine Kept.ite ?_ ?_
  · apply keeps_learn
    assumption
  · assumption

theorem keeps_execEthFrameReceived {s₀ : State} (p : Fin 49) (bytes : List ℕ) (bad : Bool) (back : ℕ) (s : State) (h0 : Kept s₀ s) :
    ∃ out, execEthFrameReceived p bytes bad back s = .next out ∧ Kept s₀ out := by
  unfold execEthFrameReceived
  refine ⟨_, rfl, ?_⟩
  split
  · split
    · extract_lets +onlyGivenNames t1
      refine Kept.cut (a := t1) ?_ fun _ => ?_
      · unfold t1; clear t1
        apply keeps_portCount
        assumption
      clear_value t1
      refine Kept.ite ?_ ?_
      · apply keeps_fire
        assumption
      · assumption
    · apply keeps_rxGood
      assumption
  · split
    · extract_lets +onlyGivenNames t2
      refine Kept.cut (a := t2) ?_ fun _ => ?_
      · unfold t2; clear t2
        apply keeps_portCount
        assumption
      clear_value t2
      refine Kept.ite ?_ ?_
      · apply keeps_fire
        assumption
      · assumption
    · apply keeps_rxGood
      assumption
  · assumption

theorem keeps_cutWire {s₀ : State} (s : State) (p : ℕ) (h0 : Kept s₀ s) :
    Kept s₀ (State.cutWire s p) := by
  unfold State.cutWire
  extract_lets +onlyGivenNames t1
  clear_value t1
  refine Kept.ite ?_ ?_
  · apply keeps_emit
    apply keeps_setPort
    assumption
  · assumption

theorem keeps_schedDrop {s₀ : State} (s : State) (p : ℕ) (at_ : ℕ) (h0 : Kept s₀ s) :
    Kept s₀ (State.schedDrop s p at_) := by
  unfold State.schedDrop
  apply keeps_setSchedQ
  assumption

theorem keeps_schedPut {s₀ : State} (s : State) (p : ℕ) (f : SchedFrame) (h0 : Kept s₀ s) :
    Kept s₀ (State.schedPut s p f) := by
  unfold State.schedPut
  apply keeps_setSchedQ
  assumption

theorem keeps_schedEnter {s₀ : State} (s : State) (p : ℕ) (at_ : ℕ) (till : ℕ) (h0 : Kept s₀ s) :
    Kept s₀ (State.schedEnter s p at_ till) := by
  unfold State.schedEnter
  apply keeps_setSchedQ
  assumption

theorem keeps_schedBegin {s₀ : State} (s : State) (p : ℕ) (at_ : ℕ) (h0 : Kept s₀ s) :
    Kept s₀ (State.schedBegin s p at_) := by
  unfold State.schedBegin
  split
  · assumption
  · extract_lets +onlyGivenNames t1
    clear_value t1
    refine Kept.ite ?_ ?_
    · apply keeps_setPort
      apply keeps_schedPut
      assumption
    · apply keeps_portCount
      apply keeps_schedDrop
      assumption

theorem keeps_schedStamp {s₀ : State} (s : State) (p : ℕ) (at_ : ℕ) (h0 : Kept s₀ s) :
    Kept s₀ (State.schedStamp s p at_) := by
  unfold State.schedStamp
  split
  · refine Kept.ite ?_ ?_
    · apply keeps_schedPut
      assumption
    · assumption
  · assumption

theorem keeps_schedSent {s₀ : State} (s : State) (p : ℕ) (at_ : ℕ) (h0 : Kept s₀ s) :
    Kept s₀ (State.schedSent s p at_) := by
  unfold State.schedSent
  split
  · assumption
  · refine Kept.ite ?_ ?_
    · assumption
    · extract_lets +onlyGivenNames t1
      refine Kept.cut (a := t1) ?_ fun _ => ?_
      · unfold t1; clear t1
        apply keeps_portCount
        apply keeps_emit
        apply keeps_schedDrop
        assumption
      clear_value t1
      apply keeps_sessions
      assumption

theorem keeps_schedSettle {s₀ : State} (s : State) (p : ℕ) (h0 : Kept s₀ s) :
    Kept s₀ (State.schedSettle s p) := by
  unfold State.schedSettle
  extract_lets +onlyGivenNames t1
  clear_value t1
  extract_lets +onlyGivenNames t2
  extract_lets +onlyGivenNames t3
  refine Kept.cut (a := t3) ?_ fun _ => ?_
  · unfold t3; clear t3
    refine Kept.of_eq rfl rfl rfl rfl rfl rfl rfl rfl rfl rfl rfl rfl ?_
    assumption
  clear_value t3
  refine Kept.fold ?_ ?_
  · intro a4 a5 a6
    apply keeps_fire
    apply keeps_bump
    assumption
  · apply keeps_cutWire
    apply keeps_setSchedQ
    assumption

theorem keeps_execPortTxPenFetch {s₀ : State} (p : Fin 50) (s : State) (h0 : Kept s₀ s) :
    ∃ out, execPortTxPenFetch p s = .next out ∧ Kept s₀ out := by
  unfold execPortTxPenFetch
  extract_lets +onlyGivenNames t1
  extract_lets +onlyGivenNames t2
  clear_value t2
  extract_lets +onlyGivenNames t3
  clear_value t3
  extract_lets +onlyGivenNames t4
  clear_value t4
  extract_lets +onlyGivenNames t5
  clear_value t5
  refine ⟨_, rfl, ?_⟩
  refine Kept.ite ?_ ?_
  · split
    · assumption
    · extract_lets +onlyGivenNames t6
      refine Kept.cut (a := t6) ?_ fun _ => ?_
      · unfold t6; clear t6
        apply keeps_enterPen
        refine Kept.ofEq (by assumption) ?_
        apply keeps_penPacketOut
        assumption
      clear_value t6
      split
      · apply keeps_portCount
        assumption
      · refine Kept.ite ?_ ?_
        · apply keeps_classify
          assumption
        · refine Kept.ite ?_ ?_
          · apply keeps_noteFull
            assumption
          · split
            apply keeps_enqueue
            refine Kept.ofEq (by assumption) ?_
            apply keeps_newCopy
            assumption
  · assumption

theorem keeps_dropQueues {s₀ : State} (s : State) (p : ℕ) (h0 : Kept s₀ s) :
    Kept s₀ (State.dropQueues s p) := by
  unfold State.dropQueues
  refine Kept.fold ?_ ?_
  · intro a1 a2 a3
    apply keeps_setBq
    refine Kept.fold ?_ ?_
    · intro a4 a5 a6
      apply keeps_portCount
      assumption
    · assumption
  · assumption

theorem keeps_portEnable {s₀ : State} (s : State) (p : ℕ) (h0 : Kept s₀ s) :
    Kept s₀ (State.portEnable s p) := by
  unfold State.portEnable
  extract_lets +onlyGivenNames t1
  clear_value t1
  refine Kept.ite ?_ ?_
  · refine Kept.ite ?_ ?_
    · refine Kept.ite ?_ ?_
      · assumption
      · apply keeps_setPort
        assumption
    · assumption
  · split
    · apply keeps_setPort
      assumption
    · apply keeps_setPort
      assumption
    · apply keeps_setPort
      assumption
    · assumption

theorem keeps_portTurn {s₀ : State} (s : State) (h0 : Kept s₀ s) :
    Kept s₀ (State.portTurn s) := by
  unfold State.portTurn
  extract_lets +onlyGivenNames t1
  clear_value t1
  refine Kept.fold ?_ ?_
  · intro a1 a2 a3
    apply keeps_portEnable
    assumption
  · refine Kept.of_eq rfl rfl rfl rfl rfl rfl rfl rfl rfl rfl rfl rfl ?_
    assumption

theorem keeps_portSettle {s₀ : State} (s : State) (p : ℕ) (h0 : Kept s₀ s) :
    Kept s₀ (State.portSettle s p) := by
  unfold State.portSettle
  extract_lets +onlyGivenNames t1
  refine Kept.cut (a := t1) ?_ fun _ => ?_
  · unfold t1; clear t1
    apply keeps_schedSettle
    assumption
  clear_value t1
  apply keeps_fire
  apply keeps_setPort
  assumption

theorem keeps_portLost {s₀ : State} (s : State) (p : ℕ) (h0 : Kept s₀ s) :
    Kept s₀ (State.portLost s p) := by
  unfold State.portLost
  extract_lets +onlyGivenNames t1
  refine Kept.cut (a := t1) ?_ fun _ => ?_
  · unfold t1; clear t1
    apply keeps_dropQueues
    assumption
  clear_value t1
  apply keeps_fire
  apply keeps_setPort
  assumption

theorem keeps_execPortSettleDone {s₀ : State} (p : Fin 49) (s : State) (h0 : Kept s₀ s) :
    ∃ out, execPortSettleDone p s = .next out ∧ Kept s₀ out := by
  unfold execPortSettleDone
  refine ⟨_, rfl, ?_⟩
  refine Kept.ite ?_ ?_
  · apply keeps_setPort
    assumption
  · assumption

theorem keeps_execPortLinkUp {s₀ : State} (p : Fin 49) (ampl : Fin 3) (s : State) (h0 : Kept s₀ s) :
    ∃ out, execPortLinkUp p ampl s = .next out ∧ Kept s₀ out := by
  unfold execPortLinkUp
  refine ⟨_, rfl, ?_⟩
  refine Kept.ite ?_ ?_
  · apply keeps_fire
    apply keeps_setPort
    assumption
  · assumption

theorem keeps_execPortLinkLost {s₀ : State} (p : Fin 49) (s : State) (h0 : Kept s₀ s) :
    ∃ out, execPortLinkLost p s = .next out ∧ Kept s₀ out := by
  unfold execPortLinkLost
  refine ⟨_, rfl, ?_⟩
  refine Kept.ite ?_ ?_
  · apply keeps_portLost
    assumption
  · assumption

theorem keeps_execPortLanePllLoss {s₀ : State} (p : Fin 49) (s : State) (h0 : Kept s₀ s) :
    ∃ out, execPortLanePllLoss p s = .next out ∧ Kept s₀ out := by
  unfold execPortLanePllLoss
  refine ⟨_, rfl, ?_⟩
  refine Kept.ite ?_ ?_
  · apply keeps_portSettle
    assumption
  · assumption

theorem keeps_execPortLocalFault {s₀ : State} (p : Fin 49) (s : State) (h0 : Kept s₀ s) :
    ∃ out, execPortLocalFault p s = .next out ∧ Kept s₀ out := by
  unfold execPortLocalFault
  refine ⟨_, rfl, ?_⟩
  refine Kept.ite ?_ ?_
  · apply keeps_emit
    apply keeps_setPort
    assumption
  · assumption

theorem keeps_execLocalFaultEnd {s₀ : State} (p : Fin 49) (s : State) (h0 : Kept s₀ s) :
    ∃ out, execLocalFaultEnd p s = .next out ∧ Kept s₀ out := by
  unfold execLocalFaultEnd
  refine ⟨_, rfl, ?_⟩
  refine Kept.ite ?_ ?_
  · apply keeps_emit
    apply keeps_setPort
    assumption
  · assumption

theorem keeps_execRemoteFaultReceived {s₀ : State} (p : Fin 49) (lasts : Bool) (s : State) (h0 : Kept s₀ s) :
    ∃ out, execRemoteFaultReceived p lasts s = .next out ∧ Kept s₀ out := by
  unfold execRemoteFaultReceived
  refine ⟨_, rfl, ?_⟩
  refine Kept.ite ?_ ?_
  · apply keeps_setPort
    assumption
  · assumption

theorem keeps_execPortDrainDone {s₀ : State} (p : Fin 49) (s : State) (h0 : Kept s₀ s) :
    ∃ out, execPortDrainDone p s = .next out ∧ Kept s₀ out := by
  unfold execPortDrainDone
  refine ⟨_, rfl, ?_⟩
  refine Kept.ite ?_ ?_
  · apply keeps_setPort
    assumption
  · assumption

theorem keeps_schedLose {s₀ : State} (s : State) (p : ℕ) (h0 : Kept s₀ s) :
    Kept s₀ (State.schedLose s p) := by
  unfold State.schedLose
  extract_lets +onlyGivenNames t1
  clear_value t1
  extract_lets +onlyGivenNames t2
  clear_value t2
  refine Kept.fold ?_ ?_
  · intro a3 a4 a5
    apply keeps_portCount
    assumption
  · apply keeps_setSchedQ
    assumption

theorem keeps_portHaltOp {s₀ : State} (s : State) (p : ℕ) (h0 : Kept s₀ s) :
    Kept s₀ (State.portHaltOp s p) := by
  unfold State.portHaltOp
  extract_lets +onlyGivenNames t1
  refine Kept.cut (a := t1) ?_ fun _ => ?_
  · unfold t1; clear t1
    apply keeps_dropQueues
    apply keeps_cutWire
    apply keeps_schedLose
    assumption
  clear_value t1
  extract_lets +onlyGivenNames t2
  refine Kept.cut (a := t2) ?_ fun _ => ?_
  · unfold t2; clear t2
    refine Kept.fold ?_ ?_
    · intro a3 a4 a5
      apply keeps_portCount
      assumption
    · assumption
  clear_value t2
  apply keeps_setPort
  apply keeps_setSchedQ
  assumption

theorem keeps_execPortHalt {s₀ : State} (p : Fin 49) (s : State) (h0 : Kept s₀ s) :
    ∃ out, execPortHalt p s = .next out ∧ Kept s₀ out := by
  unfold execPortHalt
  refine ⟨_, rfl, ?_⟩
  refine Kept.ite ?_ ?_
  · apply keeps_abort
    assumption
  · apply keeps_portHaltOp
    assumption

theorem keeps_execPortCalibrate {s₀ : State} (p : Fin 49) (s : State) (h0 : Kept s₀ s) :
    ∃ out, execPortCalibrate p s = .next out ∧ Kept s₀ out := by
  unfold execPortCalibrate
  refine ⟨_, rfl, ?_⟩
  refine Kept.ite ?_ ?_
  · apply keeps_portSettle
    assumption
  · apply keeps_abort
    assumption

theorem keeps_execPortRestart {s₀ : State} (p : Fin 49) (s : State) (h0 : Kept s₀ s) :
    ∃ out, execPortRestart p s = .next out ∧ Kept s₀ out := by
  unfold execPortRestart
  refine ⟨_, rfl, ?_⟩
  split
  · refine Kept.ite ?_ ?_
    · apply keeps_portSettle
      assumption
    · apply keeps_portLost
      assumption
  · refine Kept.ite ?_ ?_
    · apply keeps_portSettle
      assumption
    · assumption
  · apply keeps_abort
    assumption

theorem keeps_execFdbAgeExpiry {s₀ : State} (vid : ℕ) (mac : ℕ) (s : State) (h0 : Kept s₀ s) :
    ∃ out, execFdbAgeExpiry vid mac s = .next out ∧ Kept s₀ out := by
  unfold execFdbAgeExpiry
  refine ⟨_, rfl, ?_⟩
  refine Kept.ite ?_ ?_
  · assumption
  · refine Kept.of_eq rfl rfl rfl rfl rfl rfl rfl rfl rfl rfl rfl rfl ?_
    assumption

theorem keeps_execTunnelRepathHoldExpiry {s₀ : State} (node : Fin 1024) (s : State) (h0 : Kept s₀ s) :
    ∃ out, execTunnelRepathHoldExpiry node s = .next out ∧ Kept s₀ out := by
  unfold execTunnelRepathHoldExpiry
  refine ⟨_, rfl, ?_⟩
  refine Kept.fold ?_ ?_
  · intro a1 a2 a3
    apply keeps_tunnelNow
    assumption
  · refine Kept.of_eq rfl rfl rfl rfl rfl rfl rfl rfl rfl rfl rfl rfl ?_
    assumption

theorem keeps_tunnelIn {s₀ : State} (s : State) (src : ℕ) (words : List Word) (h0 : Kept s₀ s) :
    Kept s₀ (State.tunnelIn s src words) := by
  unfold State.tunnelIn
  extract_lets +onlyGivenNames t1
  clear_value t1
  extract_lets +onlyGivenNames t2
  clear_value t2
  extract_lets +onlyGivenNames t3
  clear_value t3
  extract_lets +onlyGivenNames t4
  clear_value t4
  apply keeps_learn
  apply keeps_classify
  assumption

theorem keeps_assemble {s₀ : State} (s : State) (l : ℕ) (k : ℕ) (cell : List Word) (h0 : Kept s₀ s) :
    Kept s₀ (State.assemble s l k cell) := by
  unfold State.assemble
  extract_lets +onlyGivenNames t1
  clear_value t1
  extract_lets +onlyGivenNames t2
  clear_value t2
  extract_lets +onlyGivenNames t3
  clear_value t3
  extract_lets +onlyGivenNames t4
  clear_value t4
  extract_lets +onlyGivenNames t5
  clear_value t5
  extract_lets +onlyGivenNames t6
  refine Kept.have_ (P := ∀ b0 b1, Kept s₀ b0 → Kept s₀ (t6 b0 b1)) ?_ fun hg7 => ?_
  · unfold t6; clear t6
    intro a8 a9 a10
    refine Kept.of_eq rfl rfl rfl rfl rfl rfl rfl rfl rfl rfl rfl rfl ?_
    assumption
  clear_value t6
  extract_lets +onlyGivenNames t11
  refine Kept.have_ (P := ∀ b0, Kept s₀ b0 → Kept s₀ (t11 b0)) ?_ fun hg12 => ?_
  · unfold t11; clear t11
    intro a13 a14
    apply hg7
    assumption
  clear_value t11
  extract_lets +onlyGivenNames t15
  refine Kept.have_ (P := ∀ b0 b1, Kept s₀ b0 → Kept s₀ (t15 b0 b1)) ?_ fun hg16 => ?_
  · unfold t15; clear t15
    intro a17 a18 a19
    refine Kept.ite ?_ ?_
    · apply hg12
      apply keeps_linkCount
      assumption
    · refine Kept.ite ?_ ?_
      · apply keeps_tunnelIn
        apply hg7
        assumption
      · apply hg7
        assumption
  clear_value t15
  extract_lets +onlyGivenNames t20
  refine Kept.have_ (P := ∀ b0, Kept s₀ b0 → Kept s₀ (t20 b0)) ?_ fun hg21 => ?_
  · unfold t20; clear t20
    intro a22 a23
    refine Kept.ite ?_ ?_
    · apply hg16
      assumption
    · apply hg12
      apply keeps_dropReserved
      assumption
  clear_value t20
  split
  · refine Kept.ite ?_ ?_
    · apply hg21
      assumption
    · apply hg12
      apply keeps_linkCount
      assumption
  · refine Kept.ite ?_ ?_
    · apply hg21
      refine Kept.ite ?_ ?_
      · assumption
      · apply keeps_linkCount
        assumption
    · refine Kept.ite ?_ ?_
      · apply hg12
        assumption
      · refine Kept.ite ?_ ?_
        · apply hg12
          apply keeps_linkCount
          assumption
        · apply hg16
          assumption

theorem keeps_execTunnel {s₀ : State} (dir : Fin 4) (cell : List Word) (check : Fin 256) (s : State) (h0 : Kept s₀ s) :
    ∃ out, execTunnel dir cell check s = .next out ∧ Kept s₀ out := by
  unfold execTunnel
  extract_lets +onlyGivenNames t1
  clear_value t1
  split
  extract_lets +onlyGivenNames t2
  clear_value t2
  refine ⟨_, rfl, ?_⟩
  refine Kept.ite ?_ ?_
  · assumption
  · extract_lets +onlyGivenNames t3
    clear_value t3
    extract_lets +onlyGivenNames t4
    refine Kept.cut (a := t4) ?_ fun _ => ?_
    · unfold t4; clear t4
      apply keeps_cellIn
      assumption
    clear_value t4
    refine Kept.ite ?_ ?_
    · apply keeps_checkFail
      assumption
    · refine Kept.ite ?_ ?_
      · apply keeps_dropReserved
        apply keeps_linkCount
        assumption
      · apply keeps_assemble
        apply keeps_linkCount
        assumption

end Sys2Proof.Laws
end

