-- ==== Sys2Proof/Laws/KeepFlight.lean ====
section
/-! SUPPORT. What each operation of Machine/Flight.lean keeps (Laws/Kept.lean). -/

open Sys2Proof Sys2Proof.Machine

namespace Sys2Proof.Laws

theorem keeps_nullClass {s₀ : State} (s : State) (f : Flight) (h0 : Kept s₀ s) :
    Kept s₀ (State.nullClass s f) := by
  unfold State.nullClass
  split
  · apply keeps_landHeld
    assumption
  · refine Kept.ite ?_ ?_
    · apply keeps_penCutShort
      assumption
    · assumption
  · extract_lets +onlyGivenNames t1
    clear_value t1
    extract_lets +onlyGivenNames t2
    clear_value t2
    apply keeps_setChan
    assumption
  · apply keeps_schedDrop
    assumption
  · assumption

theorem keeps_failed {s₀ : State} (s : State) (f : Flight) (cause : ℕ) (h0 : Kept s₀ s) :
    Kept s₀ (State.failed s f cause).1 := by
  unfold State.failed
  dsimp only
  apply keeps_nullClass
  apply keeps_countNull
  apply keeps_markHeld
  assumption

theorem keeps_flightTake {s₀ : State} (s : State) (f : Flight) (q : ℕ) (h0 : Kept s₀ s) :
    Kept s₀ (State.flightTake s f q).1 := by
  unfold State.flightTake
  split
  · extract_lets +onlyGivenNames t1
    clear_value t1
    extract_lets +onlyGivenNames t2
    clear_value t2
    extract_lets +onlyGivenNames t3
    clear_value t3
    extract_lets +onlyGivenNames t4
    clear_value t4
    extract_lets +onlyGivenNames t5
    clear_value t5
    extract_lets +onlyGivenNames t6
    clear_value t6
    extract_lets +onlyGivenNames t7
    clear_value t7
    extract_lets +onlyGivenNames t8
    refine Kept.cut (a := t8) ?_ fun _ => ?_
    · unfold t8; clear t8
      refine Kept.fold ?_ ?_
      · intro a9 a10 a11
        apply keeps_drvRegTaken
        assumption
      · assumption
    clear_value t8
    dsimp only
    assumption
  · extract_lets +onlyGivenNames t12
    clear_value t12
    extract_lets +onlyGivenNames t13
    clear_value t13
    dsimp only
    assumption
  · split
    dsimp only
    refine Kept.ofEq (by assumption) ?_
    apply keeps_penReadN
    assumption
  · split
    dsimp only
    refine Kept.ofEq (by assumption) ?_
    apply keeps_rxDeliver
    assumption

theorem keeps_flightPut {s₀ : State} (s : State) (f : Flight) (q : ℕ) (h0 : Kept s₀ s) :
    Kept s₀ (State.flightPut s f q).1 := by
  unfold State.flightPut
  split
  · extract_lets +onlyGivenNames t1
    clear_value t1
    extract_lets +onlyGivenNames t2
    clear_value t2
    extract_lets +onlyGivenNames t3
    clear_value t3
    dsimp only
    refine Kept.fold ?_ ?_
    · intro a4 a5 a6
      apply keeps_drvRegWrite
      assumption
    · assumption
  · extract_lets +onlyGivenNames t7
    clear_value t7
    dsimp only
    apply keeps_loadDout
    apply keeps_loadDout
    assumption
  · dsimp only
    apply keeps_penPush
    assumption
  · extract_lets +onlyGivenNames t8
    clear_value t8
    extract_lets +onlyGivenNames t9
    clear_value t9
    extract_lets +onlyGivenNames t10
    clear_value t10
    extract_lets +onlyGivenNames t11
    refine Kept.cut (a := t11) ?_ fun _ => ?_
    · unfold t11; clear t11
      refine Kept.ite ?_ ?_
      · apply keeps_busMeet
        assumption
      · assumption
    clear_value t11
    dsimp only
    refine Kept.ite ?_ ?_
    · assumption
    · apply keeps_setChan
      assumption
  · extract_lets +onlyGivenNames t12
    clear_value t12
    extract_lets +onlyGivenNames t13
    clear_value t13
    extract_lets +onlyGivenNames t14
    clear_value t14
    split
    · dsimp only
      assumption
    · split
      · dsimp only
        apply keeps_fire
        apply keeps_bump
        apply keeps_schedDrop
        assumption
      · dsimp only
        apply keeps_schedPut
        assumption

theorem keeps_flightMeet {s₀ : State} (s : State) (f : Flight) (h0 : Kept s₀ s) :
    Kept s₀ (State.flightMeet s f).1 := by
  unfold State.flightMeet
  split
  · split
    · dsimp only
      assumption
    · apply keeps_failed
      assumption
  · extract_lets +onlyGivenNames t1
    clear_value t1
    split
    · apply keeps_failed
      apply keeps_fire
      assumption
    · extract_lets +onlyGivenNames t2
      clear_value t2
      dsimp only
      apply keeps_schedEnter
      assumption

theorem keeps_flightDepart {s₀ : State} (s : State) (f : Flight) (l : ℕ) (h0 : Kept s₀ s) :
    Kept s₀ (State.flightDepart s f l).1 := by
  unfold State.flightDepart
  extract_lets +onlyGivenNames t1
  clear_value t1
  extract_lets +onlyGivenNames t2
  refine Kept.cut (a := t2) ?_ fun _ => ?_
  · unfold t2; clear t2
    refine Kept.ite ?_ ?_
    · apply keeps_fire
      assumption
    · assumption
  clear_value t2
  dsimp only
  apply keeps_depart
  assumption

theorem keeps_flightDone {s₀ : State} (s : State) (f : Flight) (h0 : Kept s₀ s) :
    Kept s₀ (State.flightDone s f) := by
  unfold State.flightDone
  split
  · refine Kept.ite ?_ ?_
    · apply keeps_landHeld
      refine Kept.of_eq rfl rfl rfl rfl rfl rfl rfl rfl rfl rfl rfl rfl ?_
      assumption
    · assumption
  · refine Kept.ite ?_ ?_
    · assumption
    · extract_lets +onlyGivenNames t1
      clear_value t1
      extract_lets +onlyGivenNames t2
      refine Kept.cut (a := t2) ?_ fun _ => ?_
      · unfold t2; clear t2
        refine Kept.ite ?_ ?_
        · apply keeps_fire
          apply keeps_bump
          assumption
        · assumption
      clear_value t2
      refine Kept.ite ?_ ?_
      · apply keeps_busRelease
        assumption
      · assumption
  · assumption

theorem keeps_digestPart {s₀ : State} (s : State) (f : Flight) (h0 : Kept s₀ s) :
    Kept s₀ (State.digestPart s f) := by
  unfold State.digestPart
  refine Kept.ite ?_ ?_
  · apply keeps_addPart
    assumption
  · assumption

theorem keeps_flightAct {s₀ : State} (s : State) (f : Flight) (a : Act) (h0 : Kept s₀ s) :
    Kept s₀ (State.flightAct s f a).1 := by
  unfold State.flightAct
  split
  · extract_lets +onlyGivenNames t1
    clear_value t1
    split
    · apply keeps_failed
      assumption
    · split
      · apply keeps_failed
        refine Kept.ofEq (by assumption) ?_
        apply keeps_schedRead
        assumption
      · dsimp only
        refine Kept.ofEq (by assumption) ?_
        apply keeps_schedRead
        assumption
  · extract_lets +onlyGivenNames t2
    clear_value t2
    split
    · apply keeps_failed
      assumption
    · split
      dsimp only
      refine Kept.ofEq (by assumption) ?_
      apply keeps_checkLine
      assumption
  · split
    · dsimp only
      assumption
    · split
      · apply keeps_failed
        assumption
      · dsimp only
        apply keeps_schedWrite
        assumption
  · apply keeps_flightTake
    assumption
  · apply keeps_flightPut
    assumption
  · apply keeps_flightMeet
    assumption
  · dsimp only
    apply keeps_penCommit
    assumption
  · apply keeps_flightDepart
    assumption
  · dsimp only
    apply keeps_schedBegin
    assumption
  · dsimp only
    apply keeps_schedStamp
    assumption
  · dsimp only
    apply keeps_schedSent
    assumption
  · dsimp only
    apply keeps_flightDone
    assumption

theorem keeps_flightCycle {s₀ : State} (s : State) (f : Flight) (a : Act) (h0 : Kept s₀ s) :
    Kept s₀ (State.flightCycle s f a).1 := by
  unfold State.flightCycle
  split
  split
  split
  · dsimp only
    apply keeps_traceStroke
    apply keeps_digestPart
    refine Kept.ofEq (by assumption) ?_
    split
    · apply keeps_flightAct
      refine Kept.ofEq (by assumption) ?_
      split
      · apply keeps_failed
        assumption
      · dsimp only
        assumption
    · dsimp only
      refine Kept.ofEq (by assumption) ?_
      split
      · apply keeps_failed
        assumption
      · dsimp only
        assumption
  · dsimp only
    refine Kept.ofEq (by assumption) ?_
    split
    · apply keeps_flightAct
      refine Kept.ofEq (by assumption) ?_
      split
      · apply keeps_failed
        assumption
      · dsimp only
        assumption
    · dsimp only
      refine Kept.ofEq (by assumption) ?_
      split
      · apply keeps_failed
        assumption
      · dsimp only
        assumption

theorem keeps_runAct {s₀ : State} (s : State) (k : ℕ) (h0 : Kept s₀ s) :
    Kept s₀ (State.runAct s k) := by
  unfold State.runAct
  split
  · assumption
  · split
    · refine Kept.of_eq rfl rfl rfl rfl rfl rfl rfl rfl rfl rfl rfl rfl ?_
      assumption
    · extract_lets +onlyGivenNames t1
      extract_lets +onlyGivenNames t2
      refine Kept.cut (a := t2) ?_ fun _ => ?_
      · unfold t2; clear t2
        refine Kept.of_eq rfl rfl rfl rfl rfl rfl rfl rfl rfl rfl rfl rfl ?_
        assumption
      clear_value t2
      split
      refine Kept.of_eq rfl rfl rfl rfl rfl rfl rfl rfl rfl rfl rfl rfl ?_
      refine Kept.ofEq (by assumption) ?_
      apply keeps_flightCycle
      assumption

theorem keeps_runActs {s₀ : State} (s : State) (limit : ℕ) (x2 : ℕ) (h0 : Kept s₀ s) :
    Kept s₀ (State.runActs s limit x2) := by
  induction x2 generalizing s with
  | zero =>
    unfold State.runActs
    assumption
  | succ n ih =>
    unfold State.runActs
    split
    · assumption
    · apply ih
      apply keeps_runAct
      assumption

theorem keeps_advance {s₀ : State} (s : State) (off : ℕ) (h0 : Kept s₀ s) :
    Kept s₀ (State.advance s off) := by
  unfold State.advance
  extract_lets +onlyGivenNames t1
  refine Kept.cut (a := t1) ?_ fun _ => ?_
  · unfold t1; clear t1
    apply keeps_reportTurns
    assumption
  clear_value t1
  extract_lets +onlyGivenNames t2
  refine Kept.cut (a := t2) ?_ fun _ => ?_
  · unfold t2; clear t2
    apply keeps_runActs
    assumption
  clear_value t2
  refine Kept.of_eq rfl rfl rfl rfl rfl rfl rfl rfl rfl rfl rfl rfl ?_
  assumption

theorem keeps_tick {s₀ : State} (s : State) (h0 : Kept s₀ s) :
    Kept s₀ (State.tick s) := by
  unfold State.tick
  extract_lets +onlyGivenNames t1
  refine Kept.cut (a := t1) ?_ fun _ => ?_
  · unfold t1; clear t1
    apply keeps_reportTurns
    assumption
  clear_value t1
  split
  · assumption
  · refine Kept.ite ?_ ?_
    · apply keeps_runActs
      assumption
    · assumption

theorem keeps_fireSettle {s₀ : State} (s : State) (st : Stroke) (d : Desc) (h0 : Kept s₀ s) :
    Kept s₀ (State.fireSettle s st d) := by
  unfold State.fireSettle
  refine Kept.ite ?_ ?_
  · apply keeps_fire
    assumption
  · split
    · apply keeps_fire
      assumption
    · assumption

theorem keeps_launch {s₀ : State} (s : State) (sl : ℕ) (idx : ℕ) (ops : ℕ → Bool) (h0 : Kept s₀ s) :
    Kept s₀ (State.launch s sl idx ops) := by
  unfold State.launch
  split
  · assumption
  · extract_lets +onlyGivenNames t1
    refine Kept.cut (a := t1) ?_ fun _ => ?_
    · unfold t1; clear t1
      apply keeps_tableEcc
      apply keeps_advance
      assumption
    clear_value t1
    extract_lets +onlyGivenNames t2
    clear_value t2
    extract_lets +onlyGivenNames t3
    clear_value t3
    extract_lets +onlyGivenNames t4
    refine Kept.cut (a := t4) ?_ fun _ => ?_
    · unfold t4; clear t4
      refine Kept.ite ?_ ?_
      · apply keeps_fireSettle
        assumption
      · assumption
    clear_value t4
    split
    refine Kept.of_eq rfl rfl rfl rfl rfl rfl rfl rfl rfl rfl rfl rfl ?_
    refine Kept.ofEq (by assumption) ?_
    split
    · dsimp only
      assumption
    · apply keeps_failed
      assumption

end Sys2Proof.Laws
end

