-- ==== Sys2Proof/Laws/KeepSluices.lean ====
section
/-! SUPPORT. What each operation of Machine/Sluices.lean keeps (Laws/Kept.lean). -/

open Sys2Proof Sys2Proof.Machine

namespace Sys2Proof.Laws

theorem keeps_execWait {s₀ : State} (sl : Fin 16) (idx : ℕ) (s : State) (h0 : Kept s₀ s) :
    ∃ out, execWait sl idx s = .next out ∧ Kept s₀ out := by
  unfold execWait
  refine ⟨_, rfl, ?_⟩
  apply keeps_launch
  assumption

theorem keeps_execMove {s₀ : State} (sl : Fin 16) (idx : ℕ) (s : State) (h0 : Kept s₀ s) :
    ∃ out, execMove sl idx s = .next out ∧ Kept s₀ out := by
  unfold execMove
  refine ⟨_, rfl, ?_⟩
  apply keeps_launch
  assumption

theorem keeps_execCarry {s₀ : State} (sl : Fin 16) (idx : ℕ) (s : State) (h0 : Kept s₀ s) :
    ∃ out, execCarry sl idx s = .next out ∧ Kept s₀ out := by
  unfold execCarry
  refine ⟨_, rfl, ?_⟩
  apply keeps_launch
  assumption

theorem keeps_execPush {s₀ : State} (sl : Fin 16) (idx : ℕ) (s : State) (h0 : Kept s₀ s) :
    ∃ out, execPush sl idx s = .next out ∧ Kept s₀ out := by
  unfold execPush
  refine ⟨_, rfl, ?_⟩
  apply keeps_launch
  assumption

theorem keeps_execFetch {s₀ : State} (sl : Fin 16) (idx : ℕ) (s : State) (h0 : Kept s₀ s) :
    ∃ out, execFetch sl idx s = .next out ∧ Kept s₀ out := by
  unfold execFetch
  refine ⟨_, rfl, ?_⟩
  apply keeps_launch
  assumption

theorem keeps_execStore {s₀ : State} (sl : Fin 16) (idx : ℕ) (s : State) (h0 : Kept s₀ s) :
    ∃ out, execStore sl idx s = .next out ∧ Kept s₀ out := by
  unfold execStore
  refine ⟨_, rfl, ?_⟩
  apply keeps_launch
  assumption

theorem keeps_execDrvWr {s₀ : State} (sl : Fin 16) (idx : ℕ) (s : State) (h0 : Kept s₀ s) :
    ∃ out, execDrvWr sl idx s = .next out ∧ Kept s₀ out := by
  unfold execDrvWr
  refine ⟨_, rfl, ?_⟩
  apply keeps_launch
  assumption

theorem keeps_execDrvRd {s₀ : State} (sl : Fin 16) (idx : ℕ) (s : State) (h0 : Kept s₀ s) :
    ∃ out, execDrvRd sl idx s = .next out ∧ Kept s₀ out := by
  unfold execDrvRd
  refine ⟨_, rfl, ?_⟩
  apply keeps_launch
  assumption

theorem keeps_execPinIn {s₀ : State} (sl : Fin 16) (idx : ℕ) (s : State) (h0 : Kept s₀ s) :
    ∃ out, execPinIn sl idx s = .next out ∧ Kept s₀ out := by
  unfold execPinIn
  refine ⟨_, rfl, ?_⟩
  apply keeps_launch
  assumption

theorem keeps_execPinOut {s₀ : State} (sl : Fin 16) (idx : ℕ) (s : State) (h0 : Kept s₀ s) :
    ∃ out, execPinOut sl idx s = .next out ∧ Kept s₀ out := by
  unfold execPinOut
  refine ⟨_, rfl, ?_⟩
  apply keeps_launch
  assumption

theorem keeps_execCellTx {s₀ : State} (sl : Fin 16) (idx : ℕ) (s : State) (h0 : Kept s₀ s) :
    ∃ out, execCellTx sl idx s = .next out ∧ Kept s₀ out := by
  unfold execCellTx
  refine ⟨_, rfl, ?_⟩
  apply keeps_launch
  assumption

theorem keeps_execPairTx {s₀ : State} (sl : Fin 16) (idx : ℕ) (s : State) (h0 : Kept s₀ s) :
    ∃ out, execPairTx sl idx s = .next out ∧ Kept s₀ out := by
  unfold execPairTx
  refine ⟨_, rfl, ?_⟩
  apply keeps_launch
  assumption

theorem keeps_execCellRx {s₀ : State} (sl : Fin 16) (idx : ℕ) (s : State) (h0 : Kept s₀ s) :
    ∃ out, execCellRx sl idx s = .next out ∧ Kept s₀ out := by
  unfold execCellRx
  refine ⟨_, rfl, ?_⟩
  apply keeps_launch
  assumption

theorem keeps_execPairRx {s₀ : State} (sl : Fin 16) (idx : ℕ) (s : State) (h0 : Kept s₀ s) :
    ∃ out, execPairRx sl idx s = .next out ∧ Kept s₀ out := by
  unfold execPairRx
  refine ⟨_, rfl, ?_⟩
  apply keeps_launch
  assumption

theorem keeps_execPenRd {s₀ : State} (sl : Fin 16) (idx : ℕ) (s : State) (h0 : Kept s₀ s) :
    ∃ out, execPenRd sl idx s = .next out ∧ Kept s₀ out := by
  unfold execPenRd
  refine ⟨_, rfl, ?_⟩
  apply keeps_launch
  assumption

theorem keeps_execPenWr {s₀ : State} (sl : Fin 16) (idx : ℕ) (s : State) (h0 : Kept s₀ s) :
    ∃ out, execPenWr sl idx s = .next out ∧ Kept s₀ out := by
  unfold execPenWr
  refine ⟨_, rfl, ?_⟩
  apply keeps_launch
  assumption

theorem keeps_execBusLoad {s₀ : State} (sl : Fin 16) (idx : ℕ) (s : State) (h0 : Kept s₀ s) :
    ∃ out, execBusLoad sl idx s = .next out ∧ Kept s₀ out := by
  unfold execBusLoad
  refine ⟨_, rfl, ?_⟩
  apply keeps_launch
  assumption

theorem keeps_execFrameTx {s₀ : State} (sl : Fin 16) (idx : ℕ) (s : State) (h0 : Kept s₀ s) :
    ∃ out, execFrameTx sl idx s = .next out ∧ Kept s₀ out := by
  unfold execFrameTx
  refine ⟨_, rfl, ?_⟩
  apply keeps_launch
  assumption

theorem keeps_execDigest {s₀ : State} (sl : Fin 16) (idx : ℕ) (s : State) (h0 : Kept s₀ s) :
    ∃ out, execDigest sl idx s = .next out ∧ Kept s₀ out := by
  unfold execDigest
  refine ⟨_, rfl, ?_⟩
  apply keeps_launch
  assumption

theorem keeps_execReservedOpcodeStroke {s₀ : State} (sl : Fin 16) (idx : ℕ) (s : State) (h0 : Kept s₀ s) :
    ∃ out, execReservedOpcodeStroke sl idx s = .next out ∧ Kept s₀ out := by
  unfold execReservedOpcodeStroke
  refine ⟨_, rfl, ?_⟩
  apply keeps_launch
  assumption

end Sys2Proof.Laws
end

