-- ==== Sys2Proof/Laws/KeepDrover.lean ====
section
/-! SUPPORT. What each operation of Machine/Drover.lean keeps (Laws/Kept.lean). -/

open Sys2Proof Sys2Proof.Machine

namespace Sys2Proof.Laws

theorem keeps_setLvls {s₀ : State} (s : State) (base : ℕ) (k : ℕ) (v : ℕ) (h0 : Kept s₀ s) :
    Kept s₀ (State.setLvls s base k v) := by
  unfold State.setLvls
  refine Kept.of_eq rfl rfl rfl rfl rfl rfl rfl rfl rfl rfl rfl rfl ?_
  assumption

theorem keeps_setDirs {s₀ : State} (s : State) (base : ℕ) (k : ℕ) (v : ℕ) (h0 : Kept s₀ s) :
    Kept s₀ (State.setDirs s base k v) := by
  unfold State.setDirs
  refine Kept.of_eq rfl rfl rfl rfl rfl rfl rfl rfl rfl rfl rfl rfl ?_
  assumption

theorem keeps_setCue {s₀ : State} (s : State) (x : Drover) (pat : ℕ) (h0 : Kept s₀ s) :
    Kept s₀ (State.setCue s x pat) := by
  unfold State.setCue
  apply keeps_setDirs
  apply keeps_setLvls
  assumption

theorem keeps_startPins {s₀ : State} (s : State) (x : Drover) (h0 : Kept s₀ s) :
    Kept s₀ (State.startPins s x) := by
  unfold State.startPins
  extract_lets +onlyGivenNames t1
  refine Kept.have_ (P := ∀ a0 a1 a2, Kept s₀ a0 → Kept s₀ (t1 a0 a1 a2)) ?_ fun hg1 => ?_
  · unfold t1; clear t1
    intro a3 a4 a5 a6
    apply keeps_setDirs
    apply keeps_setLvls
    assumption
  clear_value t1
  apply keeps_setCue
  apply hg1
  apply hg1
  assumption

theorem keeps_droverFault {s₀ : State} (s : State) (k : ℕ) (cause : ℕ) (h0 : Kept s₀ s) :
    Kept s₀ (State.droverFault s k cause) := by
  unfold State.droverFault
  extract_lets +onlyGivenNames t1
  clear_value t1
  extract_lets +onlyGivenNames t2
  refine Kept.cut (a := t2) ?_ fun _ => ?_
  · unfold t2; clear t2
    apply keeps_setDrover
    apply keeps_snapHold
    assumption
  clear_value t2
  refine Kept.ite ?_ ?_
  · assumption
  · apply keeps_fire
    assumption

theorem keeps_edgeWrites {s₀ : State} (s : State) (k : ℕ) (off : ℕ) (fault : Bool) (h0 : Kept s₀ s) :
    Kept s₀ (State.edgeWrites s k off fault) := by
  unfold State.edgeWrites
  extract_lets +onlyGivenNames t1
  refine Kept.cut (a := t1) ?_ fun _ => ?_
  · unfold t1; clear t1
    apply keeps_advance
    assumption
  clear_value t1
  extract_lets +onlyGivenNames t2
  clear_value t2
  apply keeps_setDrover
  assumption

theorem keeps_edgeBegin {s₀ : State} (s : State) (k : ℕ) (off : ℕ) (sense : ℕ) (fault : optParam Bool false) (h0 : Kept s₀ s) :
    Kept s₀ (State.edgeBegin s k off sense fault) := by
  unfold State.edgeBegin
  extract_lets +onlyGivenNames t1
  refine Kept.cut (a := t1) ?_ fun _ => ?_
  · unfold t1; clear t1
    apply keeps_edgeWrites
    assumption
  clear_value t1
  extract_lets +onlyGivenNames t2
  clear_value t2
  apply keeps_setDrover
  assumption

theorem keeps_storeCorrect {s₀ : State} (s : State) (k : ℕ) (h0 : Kept s₀ s) :
    Kept s₀ (State.storeCorrect s k) := by
  unfold State.storeCorrect
  refine Kept.ite ?_ ?_
  · extract_lets +onlyGivenNames t1
    clear_value t1
    extract_lets +onlyGivenNames t2
    clear_value t2
    apply keeps_fire
    apply keeps_setDrove
    assumption
  · assumption

theorem keeps_flagAct {s₀ : State} (s : State) (d : ℕ) (at_ : ℕ) (act : ℕ) (f : ℕ) (h0 : Kept s₀ s) :
    Kept s₀ (State.flagAct s d at_ act f) := by
  unfold State.flagAct
  extract_lets +onlyGivenNames t1
  clear_value t1
  extract_lets +onlyGivenNames t2
  clear_value t2
  extract_lets +onlyGivenNames t3
  clear_value t3
  apply keeps_setDrove
  assumption

theorem keeps_doLatch {s₀ : State} (s : State) (k : ℕ) (qual : ℕ) (drop : Bool) (keep : Bool) (h0 : Kept s₀ s) :
    Kept s₀ (State.doLatch s k qual drop keep) := by
  unfold State.doLatch
  extract_lets +onlyGivenNames t1
  clear_value t1
  extract_lets +onlyGivenNames t2
  clear_value t2
  extract_lets +onlyGivenNames t3
  clear_value t3
  extract_lets +onlyGivenNames t4
  clear_value t4
  extract_lets +onlyGivenNames t5
  clear_value t5
  extract_lets +onlyGivenNames t6
  refine Kept.cut (a := t6) ?_ fun _ => ?_
  · unfold t6; clear t6
    apply keeps_setDrover
    assumption
  clear_value t6
  refine Kept.ite ?_ ?_
  · apply keeps_fire
    assumption
  · assumption

theorem keeps_takeDrover {s₀ : State} (s : State) (k : ℕ) (x : Drover) (h0 : Kept s₀ s) :
    Kept s₀ (State.takeDrover s k x) := by
  unfold State.takeDrover
  apply keeps_setDrover
  refine Kept.ite ?_ ?_
  · apply keeps_snapHold
    assumption
  · assumption

theorem keeps_autos {s₀ : State} (s : State) (k : ℕ) (w : ℕ) (h0 : Kept s₀ s) :
    Kept s₀ (State.autos s k w) := by
  unfold State.autos
  extract_lets +onlyGivenNames t1
  clear_value t1
  extract_lets +onlyGivenNames t2
  refine Kept.cut (a := t2) ?_ fun _ => ?_
  · unfold t2; clear t2
    refine Kept.ite ?_ ?_
    · apply keeps_doLatch
      assumption
    · assumption
  clear_value t2
  extract_lets +onlyGivenNames t3
  clear_value t3
  refine Kept.ite ?_ ?_
  · apply keeps_takeDrover
    assumption
  · assumption

theorem keeps_finish {s₀ : State} (s : State) (k : ℕ) (w : ℕ) (te : ℕ) (wroteT : Bool) (pc : ℕ) (h0 : Kept s₀ s) :
    Kept s₀ (State.finish s k w te wroteT pc) := by
  unfold State.finish
  extract_lets +onlyGivenNames t1
  clear_value t1
  extract_lets +onlyGivenNames t2
  clear_value t2
  extract_lets +onlyGivenNames t3
  refine Kept.cut (a := t3) ?_ fun _ => ?_
  · unfold t3; clear t3
    apply keeps_autos
    apply keeps_setDrover
    assumption
  clear_value t3
  refine Kept.ite ?_ ?_
  · assumption
  · apply keeps_setCue
    assumption

theorem keeps_again {s₀ : State} (s : State) (k : ℕ) (w : ℕ) (te : ℕ) (h0 : Kept s₀ s) :
    Kept s₀ (State.again s k w te) := by
  unfold State.again
  extract_lets +onlyGivenNames t1
  clear_value t1
  extract_lets +onlyGivenNames t2
  refine Kept.cut (a := t2) ?_ fun _ => ?_
  · unfold t2; clear t2
    apply keeps_autos
    apply keeps_setDrover
    assumption
  clear_value t2
  refine Kept.ite ?_ ?_
  · assumption
  · apply keeps_setCue
    assumption

theorem keeps_instr {s₀ : State} (s : State) (k : ℕ) (off : ℕ) (sense : ℕ) (op : ℕ → Bool) (body : State → ℕ → ℕ → State) (h0 : Kept s₀ s) (hfbody : ∀ y0 y1 y2, Kept s₀ y0 → Kept s₀ (body y0 y1 y2)) :
    Kept s₀ (State.instr s k off sense op body) := by
  unfold State.instr
  extract_lets +onlyGivenNames t1
  refine Kept.cut (a := t1) ?_ fun _ => ?_
  · unfold t1; clear t1
    apply keeps_edgeBegin
    assumption
  clear_value t1
  extract_lets +onlyGivenNames t2
  clear_value t2
  refine Kept.ite ?_ ?_
  · extract_lets +onlyGivenNames t3
    refine Kept.cut (a := t3) ?_ fun _ => ?_
    · unfold t3; clear t3
      apply keeps_storeCorrect
      assumption
    clear_value t3
    apply hfbody
    assumption
  · assumption

theorem keeps_faultEdge {s₀ : State} (s : State) (k : ℕ) (off : ℕ) (sense : ℕ) (test : State → Bool) (h0 : Kept s₀ s) :
    KeptO s₀ (State.faultEdge s k off sense test) := by
  unfold State.faultEdge
  extract_lets +onlyGivenNames t1
  refine Kept.have_ (P := Kept s₀ t1) ?_ fun hs2 => ?_
  · unfold t1; clear t1
    apply keeps_edgeBegin
    assumption
  clear_value t1
  extract_lets +onlyGivenNames t3
  refine Kept.have_ (P := Kept s₀ t3) ?_ fun hs4 => ?_
  · unfold t3; clear t3
    apply keeps_edgeBegin
    assumption
  clear_value t3
  refine KeptO.ite ?_ ?_
  · exact KeptO.none
  · refine KeptO.ite ?_ ?_
    · refine KeptO.some ?_
      assumption
    · refine KeptO.ite ?_ ?_
      · refine KeptO.some ?_
        assumption
      · exact KeptO.none

theorem keeps_faultNow {s₀ : State} (s : State) (k : ℕ) (cause : ℕ) (h0 : Kept s₀ s) :
    Kept s₀ (State.faultNow s k cause) := by
  unfold State.faultNow
  extract_lets +onlyGivenNames t1
  clear_value t1
  apply keeps_droverFault
  apply keeps_setDrover
  assumption

theorem keeps_execBr {s₀ : State} (k : Fin 256) (off : ℕ) (sense : ℕ) (test : Bool) (s : State) (h0 : Kept s₀ s) :
    ∃ out, execBr k off sense test s = .next out ∧ Kept s₀ out := by
  unfold execBr
  refine ⟨_, rfl, ?_⟩
  apply keeps_instr
  · assumption
  · intro a1 a2 a3 a4
    extract_lets +onlyGivenNames t1
    clear_value t1
    dsimp only
    apply keeps_finish
    apply keeps_setDrover
    assumption

theorem keeps_execHold {s₀ : State} (k : Fin 256) (off : ℕ) (sense : ℕ) (test : Bool) (s : State) (h0 : Kept s₀ s) :
    ∃ out, execHold k off sense test s = .next out ∧ Kept s₀ out := by
  unfold execHold
  refine ⟨_, rfl, ?_⟩
  apply keeps_instr
  · assumption
  · intro a1 a2 a3 a4
    extract_lets +onlyGivenNames t1
    clear_value t1
    extract_lets +onlyGivenNames t2
    clear_value t2
    extract_lets +onlyGivenNames t3
    clear_value t3
    refine Kept.ite ?_ ?_
    · extract_lets +onlyGivenNames t4
      refine Kept.cut (a := t4) ?_ fun _ => ?_
      · unfold t4; clear t4
        refine Kept.ite ?_ ?_
        · apply keeps_setDrover
          assumption
        · refine Kept.ite ?_ ?_
          · apply keeps_flagAct
            assumption
          · assumption
      clear_value t4
      apply keeps_finish
      assumption
    · apply keeps_again
      assumption

theorem keeps_execShin {s₀ : State} (k : Fin 256) (off : ℕ) (sense : ℕ) (_test : Bool) (s : State) (h0 : Kept s₀ s) :
    ∃ out, execShin k off sense _test s = .next out ∧ Kept s₀ out := by
  unfold execShin
  refine ⟨_, rfl, ?_⟩
  apply keeps_instr
  · assumption
  · intro a1 a2 a3 a4
    extract_lets +onlyGivenNames t1
    clear_value t1
    extract_lets +onlyGivenNames t2
    clear_value t2
    extract_lets +onlyGivenNames t3
    clear_value t3
    apply keeps_finish
    apply keeps_setDrover
    assumption

theorem keeps_execShout {s₀ : State} (k : Fin 256) (off : ℕ) (sense : ℕ) (_test : Bool) (s : State) (h0 : Kept s₀ s) :
    ∃ out, execShout k off sense _test s = .next out ∧ Kept s₀ out := by
  unfold execShout
  refine ⟨_, rfl, ?_⟩
  split
  · apply keeps_faultNow
    apply keeps_storeCorrect
    refine KeptO.elim (by assumption) ?_
    apply keeps_faultEdge
    assumption
  · apply keeps_instr
    · assumption
    · intro a1 a2 a3 a4
      extract_lets +onlyGivenNames t5
      clear_value t5
      extract_lets +onlyGivenNames t6
      clear_value t6
      split
      extract_lets +onlyGivenNames t7
      clear_value t7
      extract_lets +onlyGivenNames t8
      clear_value t8
      extract_lets +onlyGivenNames t9
      refine Kept.cut (a := t9) ?_ fun _ => ?_
      · unfold t9; clear t9
        apply keeps_setDrover
        assumption
      clear_value t9
      extract_lets +onlyGivenNames t10
      refine Kept.cut (a := t10) ?_ fun _ => ?_
      · unfold t10; clear t10
        split
        · apply keeps_setLvls
          assumption
        · apply keeps_setDirs
          assumption
        · assumption
      clear_value t10
      apply keeps_finish
      assumption

theorem keeps_execLatch {s₀ : State} (k : Fin 256) (off : ℕ) (sense : ℕ) (_test : Bool) (s : State) (h0 : Kept s₀ s) :
    ∃ out, execLatch k off sense _test s = .next out ∧ Kept s₀ out := by
  unfold execLatch
  refine ⟨_, rfl, ?_⟩
  apply keeps_instr
  · assumption
  · intro a1 a2 a3 a4
    extract_lets +onlyGivenNames t1
    clear_value t1
    apply keeps_finish
    apply keeps_doLatch
    assumption

theorem keeps_execTake {s₀ : State} (k : Fin 256) (off : ℕ) (sense : ℕ) (_test : Bool) (s : State) (h0 : Kept s₀ s) :
    ∃ out, execTake k off sense _test s = .next out ∧ Kept s₀ out := by
  unfold execTake
  refine ⟨_, rfl, ?_⟩
  apply keeps_instr
  · assumption
  · intro a1 a2 a3 a4
    extract_lets +onlyGivenNames t1
    clear_value t1
    apply keeps_finish
    apply keeps_takeDrover
    assumption

theorem keeps_execCopy {s₀ : State} (k : Fin 256) (off : ℕ) (sense : ℕ) (_test : Bool) (s : State) (h0 : Kept s₀ s) :
    ∃ out, execCopy k off sense _test s = .next out ∧ Kept s₀ out := by
  unfold execCopy
  refine ⟨_, rfl, ?_⟩
  apply keeps_instr
  · assumption
  · intro a1 a2 a3 a4
    extract_lets +onlyGivenNames t1
    clear_value t1
    extract_lets +onlyGivenNames t2
    clear_value t2
    extract_lets +onlyGivenNames t3
    clear_value t3
    extract_lets +onlyGivenNames t4
    clear_value t4
    extract_lets +onlyGivenNames t5
    refine Kept.cut (a := t5) ?_ fun _ => ?_
    · unfold t5; clear t5
      apply keeps_setDrover
      assumption
    clear_value t5
    extract_lets +onlyGivenNames t6
    refine Kept.cut (a := t6) ?_ fun _ => ?_
    · unfold t6; clear t6
      split
      · apply keeps_setLvls
        assumption
      · apply keeps_setDirs
        assumption
      · assumption
    clear_value t6
    apply keeps_finish
    assumption

theorem keeps_execPut {s₀ : State} (k : Fin 256) (off : ℕ) (sense : ℕ) (_test : Bool) (s : State) (h0 : Kept s₀ s) :
    ∃ out, execPut k off sense _test s = .next out ∧ Kept s₀ out := by
  unfold execPut
  refine ⟨_, rfl, ?_⟩
  apply keeps_instr
  · assumption
  · intro a1 a2 a3 a4
    extract_lets +onlyGivenNames t1
    clear_value t1
    extract_lets +onlyGivenNames t2
    clear_value t2
    extract_lets +onlyGivenNames t3
    clear_value t3
    extract_lets +onlyGivenNames t4
    refine Kept.cut (a := t4) ?_ fun _ => ?_
    · unfold t4; clear t4
      apply keeps_setDrover
      assumption
    clear_value t4
    extract_lets +onlyGivenNames t5
    refine Kept.cut (a := t5) ?_ fun _ => ?_
    · unfold t5; clear t5
      split
      · apply keeps_setLvls
        assumption
      · apply keeps_setDirs
        assumption
      · assumption
    clear_value t5
    apply keeps_finish
    assumption

theorem keeps_execStep {s₀ : State} (k : Fin 256) (off : ℕ) (sense : ℕ) (_test : Bool) (s : State) (h0 : Kept s₀ s) :
    ∃ out, execStep k off sense _test s = .next out ∧ Kept s₀ out := by
  unfold execStep
  refine ⟨_, rfl, ?_⟩
  apply keeps_instr
  · assumption
  · intro a1 a2 a3 a4
    extract_lets +onlyGivenNames t1
    clear_value t1
    extract_lets +onlyGivenNames t2
    clear_value t2
    extract_lets +onlyGivenNames t3
    clear_value t3
    extract_lets +onlyGivenNames t4
    clear_value t4
    apply keeps_finish
    apply keeps_setDrover
    assumption

theorem keeps_execEdge {s₀ : State} (k : Fin 256) (off : ℕ) (sense : ℕ) (_test : Bool) (s : State) (h0 : Kept s₀ s) :
    ∃ out, execEdge k off sense _test s = .next out ∧ Kept s₀ out := by
  unfold execEdge
  refine ⟨_, rfl, ?_⟩
  apply keeps_instr
  · assumption
  · intro a1 a2 a3 a4
    extract_lets +onlyGivenNames t1
    clear_value t1
    extract_lets +onlyGivenNames t2
    clear_value t2
    apply keeps_finish
    apply keeps_setDrover
    assumption

theorem keeps_execFlag {s₀ : State} (k : Fin 256) (off : ℕ) (sense : ℕ) (_test : Bool) (s : State) (h0 : Kept s₀ s) :
    ∃ out, execFlag k off sense _test s = .next out ∧ Kept s₀ out := by
  unfold execFlag
  refine ⟨_, rfl, ?_⟩
  apply keeps_instr
  · assumption
  · intro a1 a2 a3 a4
    apply keeps_finish
    apply keeps_flagAct
    assumption

theorem keeps_execHalt {s₀ : State} (k : Fin 256) (off : ℕ) (sense : ℕ) (_test : Bool) (s : State) (h0 : Kept s₀ s) :
    ∃ out, execHalt k off sense _test s = .next out ∧ Kept s₀ out := by
  unfold execHalt
  refine ⟨_, rfl, ?_⟩
  apply keeps_instr
  · assumption
  · intro a1 a2 a3 a4
    extract_lets +onlyGivenNames t5
    refine Kept.cut (a := t5) ?_ fun _ => ?_
    · unfold t5; clear t5
      apply keeps_finish
      assumption
    clear_value t5
    refine Kept.ite ?_ ?_
    · apply keeps_setDrover
      assumption
    · assumption

theorem keeps_execUndefinedDroverOpcode {s₀ : State} (k : Fin 256) (off : ℕ) (sense : ℕ) (_test : Bool) (s : State) (h0 : Kept s₀ s) :
    ∃ out, execUndefinedDroverOpcode k off sense _test s = .next out ∧ Kept s₀ out := by
  unfold execUndefinedDroverOpcode
  refine ⟨_, rfl, ?_⟩
  split
  · apply keeps_faultNow
    apply keeps_storeCorrect
    refine KeptO.elim (by assumption) ?_
    apply keeps_faultEdge
    assumption
  · assumption

theorem keeps_storeBad {s₀ : State} (s : State) (k : ℕ) (h0 : Kept s₀ s) :
    Kept s₀ (State.storeBad s k) := by
  unfold State.storeBad
  extract_lets +onlyGivenNames t1
  clear_value t1
  extract_lets +onlyGivenNames t2
  clear_value t2
  apply keeps_setDrove
  assumption

theorem keeps_execDroveStoreUncorrectable {s₀ : State} (k : Fin 256) (off : ℕ) (sense : ℕ) (_test : Bool) (s : State) (h0 : Kept s₀ s) :
    ∃ out, execDroveStoreUncorrectable k off sense _test s = .next out ∧ Kept s₀ out := by
  unfold execDroveStoreUncorrectable
  refine ⟨_, rfl, ?_⟩
  split
  · apply keeps_faultNow
    apply keeps_storeBad
    refine KeptO.elim (by assumption) ?_
    apply keeps_faultEdge
    assumption
  · assumption

theorem keeps_execDroverClockEdge {s₀ : State} (k : Fin 256) (off : ℕ) (sense : ℕ) (_test : Bool) (s : State) (h0 : Kept s₀ s) :
    ∃ out, execDroverClockEdge k off sense _test s = .next out ∧ Kept s₀ out := by
  unfold execDroverClockEdge
  extract_lets +onlyGivenNames t1
  refine Kept.have_ (P := Kept s₀ t1) ?_ fun hs2 => ?_
  · unfold t1; clear t1
    apply keeps_edgeBegin
    assumption
  clear_value t1
  extract_lets +onlyGivenNames t3
  clear_value t3
  refine ⟨_, rfl, ?_⟩
  refine Kept.ite ?_ ?_
  · assumption
  · refine Kept.ite ?_ ?_
    · apply keeps_edgeWrites
      assumption
    · refine Kept.ite ?_ ?_
      · refine Kept.ite ?_ ?_
        · assumption
        · apply keeps_setDrover
          assumption
      · apply keeps_setDrover
        assumption

theorem keeps_keepAwake {s₀ : State} (s : State) (t : ℕ) (h0 : Kept s₀ s) :
    Kept s₀ (State.keepAwake s t) := by
  unfold State.keepAwake
  extract_lets +onlyGivenNames t1
  refine Kept.cut (a := t1) ?_ fun _ => ?_
  · unfold t1; clear t1
    refine Kept.ite ?_ ?_
    · assumption
    · apply keeps_wakeTile
      assumption
  clear_value t1
  refine Kept.of_eq rfl rfl rfl rfl rfl rfl rfl rfl rfl rfl rfl rfl ?_
  assumption

theorem keeps_drvQueue {s₀ : State} (s : State) (k : ℕ) (cmd : ℕ) (h0 : Kept s₀ s) :
    Kept s₀ (State.drvQueue s k cmd) := by
  unfold State.drvQueue
  extract_lets +onlyGivenNames t1
  refine Kept.cut (a := t1) ?_ fun _ => ?_
  · unfold t1; clear t1
    refine Kept.ite ?_ ?_
    · assumption
    · apply keeps_keepAwake
      assumption
  clear_value t1
  extract_lets +onlyGivenNames t2
  clear_value t2
  apply keeps_setDrover
  assumption

theorem keeps_drvCtrl {s₀ : State} (s : State) (k : ℕ) (cmd : ℕ) (h0 : Kept s₀ s) :
    Kept s₀ (State.drvCtrl s k cmd) := by
  unfold State.drvCtrl
  refine Kept.ite ?_ ?_
  · apply keeps_drvQueue
    assumption
  · apply keeps_abort
    assumption

theorem keeps_execDrvRun {s₀ : State} (k : Fin 256) (s : State) (h0 : Kept s₀ s) :
    ∃ out, execDrvRun k s = .next out ∧ Kept s₀ out := by
  unfold execDrvRun
  refine ⟨_, rfl, ?_⟩
  apply keeps_drvCtrl
  assumption

theorem keeps_execDrvStop {s₀ : State} (k : Fin 256) (s : State) (h0 : Kept s₀ s) :
    ∃ out, execDrvStop k s = .next out ∧ Kept s₀ out := by
  unfold execDrvStop
  refine ⟨_, rfl, ?_⟩
  apply keeps_drvCtrl
  assumption

theorem keeps_execDrvRestart {s₀ : State} (k : Fin 256) (s : State) (h0 : Kept s₀ s) :
    ∃ out, execDrvRestart k s = .next out ∧ Kept s₀ out := by
  unfold execDrvRestart
  refine ⟨_, rfl, ?_⟩
  apply keeps_drvCtrl
  assumption

theorem keeps_execDroveRegisterWrite {s₀ : State} (d : Fin 32) (w : Fin 64) (v : Word) (s : State) (h0 : Kept s₀ s) :
    ∃ out, execDroveRegisterWrite d w v s = .next out ∧ Kept s₀ out := by
  unfold execDroveRegisterWrite
  refine ⟨_, rfl, ?_⟩
  apply keeps_drvRegWrite
  apply keeps_enter
  assumption

theorem keeps_execDroveStoreWrite {s₀ : State} (d : Fin 32) (a : Fin 512) (v : Word) (s : State) (h0 : Kept s₀ s) :
    ∃ out, execDroveStoreWrite d a v s = .next out ∧ Kept s₀ out := by
  unfold execDroveStoreWrite
  refine ⟨_, rfl, ?_⟩
  refine Kept.ite ?_ ?_
  · apply keeps_setDrove
    assumption
  · apply keeps_emit
    assumption

theorem keeps_startDrover {s₀ : State} (s : State) (k : ℕ) (new : Drover) (carry : ℕ) (h0 : Kept s₀ s) :
    Kept s₀ (State.startDrover s k new carry) := by
  unfold State.startDrover
  refine Kept.ite ?_ ?_
  · apply keeps_setDrover
    assumption
  · extract_lets +onlyGivenNames t1
    clear_value t1
    extract_lets +onlyGivenNames t2
    clear_value t2
    extract_lets +onlyGivenNames t3
    clear_value t3
    extract_lets +onlyGivenNames t4
    refine Kept.cut (a := t4) ?_ fun _ => ?_
    · unfold t4; clear t4
      apply keeps_takeDrover
      refine Kept.ite ?_ ?_
      · apply keeps_keepAwake
        assumption
      · assumption
    clear_value t4
    refine Kept.ite ?_ ?_
    · apply keeps_startPins
      assumption
    · assumption

theorem keeps_exchangeTurn {s₀ : State} (s : State) (d : ℕ) (h0 : Kept s₀ s) :
    Kept s₀ (State.exchangeTurn s d) := by
  unfold State.exchangeTurn
  extract_lets +onlyGivenNames t1
  clear_value t1
  refine Kept.ite ?_ ?_
  · extract_lets +onlyGivenNames t2
    refine Kept.cut (a := t2) ?_ fun _ => ?_
    · unfold t2; clear t2
      apply keeps_setDrove
      assumption
    clear_value t2
    extract_lets +onlyGivenNames t3
    refine Kept.cut (a := t3) ?_ fun _ => ?_
    · unfold t3; clear t3
      refine Kept.fold ?_ ?_
      · intro a1 a2 a3
        refine Kept.ite ?_ ?_
        · apply keeps_startDrover
          assumption
        · assumption
      · assumption
    clear_value t3
    apply keeps_fire
    assumption
  · assumption

theorem keeps_execDroveCopy {s₀ : State} (d : Fin 32) (s : State) (h0 : Kept s₀ s) :
    ∃ out, execDroveCopy d s = .next out ∧ Kept s₀ out := by
  unfold execDroveCopy
  refine ⟨_, rfl, ?_⟩
  refine Kept.ite ?_ ?_
  · apply keeps_setDrove
    assumption
  · apply keeps_abort
    assumption

theorem keeps_execDroveCopyDone {s₀ : State} (d : Fin 32) (s : State) (h0 : Kept s₀ s) :
    ∃ out, execDroveCopyDone d s = .next out ∧ Kept s₀ out := by
  unfold execDroveCopyDone
  refine ⟨_, rfl, ?_⟩
  refine Kept.ite ?_ ?_
  · apply keeps_setDrove
    assumption
  · assumption

theorem keeps_execExchange {s₀ : State} (d : Fin 32) (mask : Fin 256) (carry : Fin 16) (s : State) (h0 : Kept s₀ s) :
    ∃ out, execExchange d mask carry s = .next out ∧ Kept s₀ out := by
  unfold execExchange
  refine ⟨_, rfl, ?_⟩
  refine Kept.ite ?_ ?_
  · apply keeps_abort
    assumption
  · refine Kept.ite ?_ ?_
    · apply keeps_setDrove
      assumption
    · apply keeps_abort
      assumption

theorem keeps_execExchangeCancel {s₀ : State} (d : Fin 32) (s : State) (h0 : Kept s₀ s) :
    ∃ out, execExchangeCancel d s = .next out ∧ Kept s₀ out := by
  unfold execExchangeCancel
  refine ⟨_, rfl, ?_⟩
  refine Kept.ite ?_ ?_
  · apply keeps_fire
    apply keeps_setDrove
    assumption
  · apply keeps_abort
    assumption

theorem keeps_swapDrover {s₀ : State} (s : State) (r : List Word) (old : List Word) (k : ℕ) (oldN : ℕ) (oldStore : Tab Word) (h0 : Kept s₀ s) :
    Kept s₀ (State.swapDrover s r old k oldN oldStore) := by
  unfold State.swapDrover
  extract_lets +onlyGivenNames t1
  clear_value t1
  extract_lets +onlyGivenNames t2
  clear_value t2
  extract_lets +onlyGivenNames t3
  clear_value t3
  extract_lets +onlyGivenNames t4
  clear_value t4
  refine Kept.ite ?_ ?_
  · assumption
  · refine Kept.ite ?_ ?_
    · apply keeps_startDrover
      assumption
    · apply keeps_startDrover
      assumption

theorem keeps_droveSwap {s₀ : State} (s : State) (old : List Word) (sec : List Word) (h0 : Kept s₀ s) :
    Kept s₀ (State.droveSwap s old sec) := by
  unfold State.droveSwap
  refine Kept.fold ?_ ?_
  · intro a1 a2 a3
    extract_lets +onlyGivenNames t4
    clear_value t4
    extract_lets +onlyGivenNames t5
    clear_value t5
    extract_lets +onlyGivenNames t6
    clear_value t6
    extract_lets +onlyGivenNames t7
    clear_value t7
    extract_lets +onlyGivenNames t8
    clear_value t8
    extract_lets +onlyGivenNames t9
    refine Kept.cut (a := t9) ?_ fun _ => ?_
    · unfold t9; clear t9
      apply keeps_setDrove
      assumption
    clear_value t9
    extract_lets +onlyGivenNames t10
    refine Kept.cut (a := t10) ?_ fun _ => ?_
    · unfold t10; clear t10
      refine Kept.ite ?_ ?_
      · apply keeps_fire
        assumption
      · assumption
    clear_value t10
    refine Kept.fold ?_ ?_
    · intro a11 a12 a13
      apply keeps_swapDrover
      assumption
    · assumption
  · assumption

theorem keeps_droveStage {s₀ : State} (s : State) (sec : List Word) (h0 : Kept s₀ s) :
    Kept s₀ (State.droveStage s sec) := by
  unfold State.droveStage
  refine Kept.fold ?_ ?_
  · intro a1 a2 a3
    extract_lets +onlyGivenNames t1
    clear_value t1
    extract_lets +onlyGivenNames t2
    refine Kept.cut (a := t2) ?_ fun _ => ?_
    · unfold t2; clear t2
      apply keeps_setDrove
      assumption
    clear_value t2
    refine Kept.ite ?_ ?_
    · apply keeps_fire
      assumption
    · assumption
  · assumption

theorem keeps_droveUnstage {s₀ : State} (s : State) (h0 : Kept s₀ s) :
    Kept s₀ (State.droveUnstage s) := by
  unfold State.droveUnstage
  refine Kept.fold ?_ ?_
  · intro a1 a2 a3
    extract_lets +onlyGivenNames t1
    clear_value t1
    refine Kept.ite ?_ ?_
    · apply keeps_setDrove
      assumption
    · assumption
  · assumption

end Sys2Proof.Laws
end

