-- ==== Sys2Proof/Laws/KeepPins.lean ====
section
/-! SUPPORT. What each operation of Machine/Pins.lean keeps (Laws/Kept.lean). -/

open Sys2Proof Sys2Proof.Machine

namespace Sys2Proof.Laws

theorem keeps_execVioStateChange {s₀ : State} (b : Fin 32) (vio : Fin 4) (s : State) (h0 : Kept s₀ s) :
    ∃ out, execVioStateChange b vio s = .next out ∧ Kept s₀ out := by
  unfold execVioStateChange
  extract_lets +onlyGivenNames t1
  clear_value t1
  extract_lets +onlyGivenNames t2
  clear_value t2
  extract_lets +onlyGivenNames t3
  refine Kept.have_ (P := Kept s₀ t3) ?_ fun hs4 => ?_
  · unfold t3; clear t3
    refine Kept.of_eq rfl rfl rfl rfl rfl rfl rfl rfl rfl rfl rfl rfl ?_
    assumption
  clear_value t3
  refine ⟨_, rfl, ?_⟩
  refine Kept.ite ?_ ?_
  · assumption
  · extract_lets +onlyGivenNames t5
    extract_lets +onlyGivenNames t6
    refine Kept.cut (a := t6) ?_ fun _ => ?_
    · unfold t6; clear t6
      refine Kept.ite ?_ ?_
      · assumption
      · refine Kept.of_eq rfl rfl rfl rfl rfl rfl rfl rfl rfl rfl rfl rfl ?_
        assumption
    clear_value t6
    refine Kept.ite ?_ ?_
    · apply keeps_fireLive
      assumption
    · assumption

theorem keeps_execBankReturnToService {s₀ : State} (b : Fin 32) (s : State) (h0 : Kept s₀ s) :
    ∃ out, execBankReturnToService b s = .next out ∧ Kept s₀ out := by
  unfold execBankReturnToService
  refine ⟨_, rfl, ?_⟩
  refine Kept.ite ?_ ?_
  · refine Kept.of_eq rfl rfl rfl rfl rfl rfl rfl rfl rfl rfl rfl rfl ?_
    assumption
  · assumption

theorem keeps_execFilterOutputChange {s₀ : State} (p : Fin 1024) (level : Bool) (s : State) (h0 : Kept s₀ s) :
    ∃ out, execFilterOutputChange p level s = .next out ∧ Kept s₀ out := by
  unfold execFilterOutputChange
  refine ⟨_, rfl, ?_⟩
  refine Kept.of_eq rfl rfl rfl rfl rfl rfl rfl rfl rfl rfl rfl rfl ?_
  assumption

theorem keeps_execPinCapture {s₀ : State} (p : Fin 1024) (rise : Bool) (off : ℕ) (s : State) (h0 : Kept s₀ s) :
    ∃ out, execPinCapture p rise off s = .next out ∧ Kept s₀ out := by
  unfold execPinCapture
  extract_lets +onlyGivenNames t1
  refine Kept.have_ (P := Kept s₀ t1) ?_ fun hs2 => ?_
  · unfold t1; clear t1
    apply keeps_advance
    assumption
  clear_value t1
  extract_lets +onlyGivenNames t3
  clear_value t3
  refine ⟨_, rfl, ?_⟩
  refine Kept.ite ?_ ?_
  · extract_lets +onlyGivenNames t4
    extract_lets +onlyGivenNames t5
    refine Kept.cut (a := t5) ?_ fun _ => ?_
    · unfold t5; clear t5
      refine Kept.of_eq rfl rfl rfl rfl rfl rfl rfl rfl rfl rfl rfl rfl ?_
      assumption
    clear_value t5
    refine Kept.ite ?_ ?_
    · refine Kept.of_eq rfl rfl rfl rfl rfl rfl rfl rfl rfl rfl rfl rfl ?_
      assumption
    · refine Kept.of_eq rfl rfl rfl rfl rfl rfl rfl rfl rfl rfl rfl rfl ?_
      assumption
  · assumption

theorem keeps_beaconLost {s₀ : State} (s : State) (b : ℕ) (h0 : Kept s₀ s) :
    Kept s₀ (State.beaconLost s b) := by
  unfold State.beaconLost
  extract_lets +onlyGivenNames t1
  clear_value t1
  refine Kept.ite ?_ ?_
  · apply keeps_fire
    apply keeps_setBeacon
    assumption
  · assumption

theorem keeps_execBeaconArm {s₀ : State} (b : Fin 64) (s : State) (h0 : Kept s₀ s) :
    ∃ out, execBeaconArm b s = .next out ∧ Kept s₀ out := by
  unfold execBeaconArm
  refine ⟨_, rfl, ?_⟩
  refine Kept.ite ?_ ?_
  · apply keeps_abort
    assumption
  · refine Kept.ite ?_ ?_
    · apply keeps_abort
      assumption
    · refine Kept.ite ?_ ?_
      · apply keeps_beaconLost
        apply keeps_setBeacon
        assumption
      · refine Kept.ite ?_ ?_
        · apply keeps_fire
          apply keeps_setBeacon
          assumption
        · apply keeps_setBeacon
          assumption

theorem keeps_execBeaconStop {s₀ : State} (b : Fin 64) (s : State) (h0 : Kept s₀ s) :
    ∃ out, execBeaconStop b s = .next out ∧ Kept s₀ out := by
  unfold execBeaconStop
  refine ⟨_, rfl, ?_⟩
  refine Kept.ite ?_ ?_
  · apply keeps_abort
    assumption
  · apply keeps_setBeacon
    assumption

theorem keeps_execBeaconEdge {s₀ : State} (b : Fin 64) (off : ℕ) (s : State) (h0 : Kept s₀ s) :
    ∃ out, execBeaconEdge b off s = .next out ∧ Kept s₀ out := by
  unfold execBeaconEdge
  extract_lets +onlyGivenNames t1
  refine Kept.have_ (P := Kept s₀ t1) ?_ fun hs2 => ?_
  · unfold t1; clear t1
    apply keeps_advance
    assumption
  clear_value t1
  extract_lets +onlyGivenNames t3
  clear_value t3
  refine ⟨_, rfl, ?_⟩
  refine Kept.ite ?_ ?_
  · apply keeps_setBeacon
    assumption
  · assumption

end Sys2Proof.Laws
end

