-- ==== Sys2Proof/Laws/KeepEvents.lean ====
section
/-! SUPPORT. What each operation of Machine/Events.lean keeps (Laws/Kept.lean). -/

open Sys2Proof Sys2Proof.Machine

namespace Sys2Proof.Laws

theorem keeps_execBusFrameStart {s₀ : State} (ch : Fin 128) (off : ℕ) (s : State) (h0 : Kept s₀ s) :
    ∃ out, execBusFrameStart ch off s = .next out ∧ Kept s₀ out := by
  unfold execBusFrameStart
  extract_lets +onlyGivenNames t1
  clear_value t1
  extract_lets +onlyGivenNames t2
  refine Kept.have_ (P := Kept s₀ t2) ?_ fun hs3 => ?_
  · unfold t2; clear t2
    apply keeps_advance
    assumption
  clear_value t2
  refine ⟨_, rfl, ?_⟩
  refine Kept.ite ?_ ?_
  · split
    · assumption
    · extract_lets +onlyGivenNames t4
      clear_value t4
      extract_lets +onlyGivenNames t5
      clear_value t5
      extract_lets +onlyGivenNames t6
      clear_value t6
      extract_lets +onlyGivenNames t7
      clear_value t7
      apply keeps_setChan
      assumption
  · assumption

theorem keeps_atPass {s₀ : State} (s : State) (l : ℕ) (beat : ℕ) (slot : ℕ) (h0 : Kept s₀ s) :
    Kept s₀ (State.atPass s l beat slot) := by
  unfold State.atPass
  refine Kept.ite ?_ ?_
  · apply keeps_advance
    assumption
  · assumption

theorem keeps_execRingScheduledCell {s₀ : State} (l : Fin 5) (beat : ℕ) (slot : Fin 5) (cell : List Word) (check : Fin 256) (s : State) (h0 : Kept s₀ s) :
    ∃ out, execRingScheduledCell l beat slot cell check s = .next out ∧ Kept s₀ out := by
  unfold execRingScheduledCell
  refine ⟨_, rfl, ?_⟩
  apply keeps_cellArrives
  apply keeps_atPass
  assumption

theorem keeps_execUnscheduledCellTransit {s₀ : State} (l : Fin 5) (cell : List Word) (check : Fin 256) (beat : ℕ) (slot : Fin 5) (s : State) (h0 : Kept s₀ s) :
    ∃ out, execUnscheduledCellTransit l cell check beat slot s = .next out ∧ Kept s₀ out := by
  unfold execUnscheduledCellTransit
  refine ⟨_, rfl, ?_⟩
  apply keeps_cellArrives
  apply keeps_atPass
  assumption

theorem keeps_execTransitCellSend {s₀ : State} (l : Fin 4) (beat : ℕ) (slot : Fin 5) (s : State) (h0 : Kept s₀ s) :
    ∃ out, execTransitCellSend l beat slot s = .next out ∧ Kept s₀ out := by
  unfold execTransitCellSend
  refine ⟨_, rfl, ?_⟩
  apply keeps_slotServes
  refine Kept.ite ?_ ?_
  · apply keeps_advance
    assumption
  · assumption

theorem keeps_execBestEffortFrameStart {s₀ : State} (p : Fin 49) (off : ℕ) (s : State) (h0 : Kept s₀ s) :
    ∃ out, execBestEffortFrameStart p off s = .next out ∧ Kept s₀ out := by
  unfold execBestEffortFrameStart
  extract_lets +onlyGivenNames t1
  refine Kept.have_ (P := Kept s₀ t1) ?_ fun hs2 => ?_
  · unfold t1; clear t1
    apply keeps_advance
    assumption
  clear_value t1
  extract_lets +onlyGivenNames t3
  clear_value t3
  extract_lets +onlyGivenNames t4
  clear_value t4
  refine ⟨_, rfl, ?_⟩
  split
  · assumption
  · extract_lets +onlyGivenNames t5
    clear_value t5
    extract_lets +onlyGivenNames t6
    clear_value t6
    extract_lets +onlyGivenNames t7
    clear_value t7
    refine Kept.ite ?_ ?_
    · extract_lets +onlyGivenNames t8
      refine Kept.cut (a := t8) ?_ fun _ => ?_
      · unfold t8; clear t8
        apply keeps_setPort
        apply keeps_setBq
        assumption
      clear_value t8
      apply keeps_sessions
      apply keeps_portCount
      apply keeps_emit
      assumption
    · assumption

end Sys2Proof.Laws
end

