-- ==== Sys2Proof/Laws/KeepTime.lean ====
section
/-! SUPPORT. What each operation of Machine/Time.lean keeps (Laws/Kept.lean). -/

open Sys2Proof Sys2Proof.Machine

namespace Sys2Proof.Laws

theorem keeps_setDomain {s₀ : State} (s : State) (d : ℕ) (x : Domain) (h0 : Kept s₀ s) :
    Kept s₀ (State.setDomain s d x) := by
  unfold State.setDomain
  refine Kept.of_eq rfl rfl rfl rfl rfl rfl rfl rfl rfl rfl rfl rfl ?_
  assumption

theorem keeps_beaconsLost {s₀ : State} (s : State) (h0 : Kept s₀ s) :
    Kept s₀ (State.beaconsLost s) := by
  unfold State.beaconsLost
  refine Kept.fold ?_ ?_
  · intro a1 a2 a3
    apply keeps_beaconLost
    assumption
  · assumption

theorem keeps_toTime {s₀ : State} (s : State) (st : TimeState) (h0 : Kept s₀ s) :
    Kept s₀ (State.toTime s st) := by
  unfold State.toTime
  refine Kept.ite ?_ ?_
  · assumption
  · extract_lets +onlyGivenNames t1
    clear_value t1
    extract_lets +onlyGivenNames t2
    extract_lets +onlyGivenNames t3
    refine Kept.cut (a := t3) ?_ fun _ => ?_
    · unfold t3; clear t3
      refine Kept.of_eq rfl rfl rfl rfl rfl rfl rfl rfl rfl rfl rfl rfl ?_
      assumption
    clear_value t3
    extract_lets +onlyGivenNames t4
    refine Kept.cut (a := t4) ?_ fun _ => ?_
    · unfold t4; clear t4
      apply keeps_fire
      apply keeps_bump
      assumption
    clear_value t4
    split
    · apply keeps_fire
      assumption
    · apply keeps_beaconsLost
      apply keeps_fire
      assumption
    · assumption

theorem keeps_errFrom {s₀ : State} (s : State) (ppb : ℕ) (h0 : Kept s₀ s) :
    Kept s₀ (State.errFrom s ppb) := by
  unfold State.errFrom
  refine Kept.of_eq rfl rfl rfl rfl rfl rfl rfl rfl rfl rfl rfl rfl ?_
  assumption

theorem keeps_errKept {s₀ : State} (s : State) (h0 : Kept s₀ s) :
    Kept s₀ (State.errKept s) := by
  unfold State.errKept
  refine Kept.ite ?_ ?_
  · assumption
  · apply keeps_errFrom
    assumption

theorem keeps_timeFlooded {s₀ : State} (s : State) (h0 : Kept s₀ s) :
    Kept s₀ (State.timeFlooded s) := by
  unfold State.timeFlooded
  extract_lets +onlyGivenNames t1
  clear_value t1
  extract_lets +onlyGivenNames t2
  refine Kept.cut (a := t2) ?_ fun _ => ?_
  · unfold t2; clear t2
    refine Kept.ite ?_ ?_
    · assumption
    · apply keeps_toTime
      assumption
  clear_value t2
  refine Kept.of_eq rfl rfl rfl rfl rfl rfl rfl rfl rfl rfl rfl rfl ?_
  assumption

theorem keeps_masterTime {s₀ : State} (s : State) (h0 : Kept s₀ s) :
    Kept s₀ (State.masterTime s) := by
  unfold State.masterTime
  refine Kept.ite ?_ ?_
  · apply keeps_toTime
    refine Kept.of_eq rfl rfl rfl rfl rfl rfl rfl rfl rfl rfl rfl rfl ?_
    assumption
  · refine Kept.ite ?_ ?_
    · apply keeps_toTime
      assumption
    · apply keeps_toTime
      assumption

theorem keeps_memberTime {s₀ : State} (s : State) (h0 : Kept s₀ s) :
    Kept s₀ (State.memberTime s) := by
  unfold State.memberTime
  refine Kept.ite ?_ ?_
  · apply keeps_toTime
    assumption
  · split
    · apply keeps_toTime
      assumption
    · apply keeps_toTime
      assumption
    · apply keeps_toTime
      assumption
    · assumption

theorem keeps_sendSync {s₀ : State} (s : State) (h0 : Kept s₀ s) :
    Kept s₀ (State.sendSync s) := by
  unfold State.sendSync
  apply keeps_byShepherd
  · assumption
  · intro a1 a2
    extract_lets +onlyGivenNames t1
    clear_value t1
    extract_lets +onlyGivenNames t2
    refine Kept.cut (a := t2) ?_ fun _ => ?_
    · unfold t2; clear t2
      refine Kept.ite ?_ ?_
      · apply keeps_sendCell
        assumption
      · assumption
    clear_value t2
    refine Kept.ite ?_ ?_
    · apply keeps_sendCell
      assumption
    · assumption

theorem keeps_forward {s₀ : State} (s : State) (l : ℕ) (kind : ℕ) (src : ℕ) (hops : ℕ) (wrapped : Bool) (pay : List ℕ) (h0 : Kept s₀ s) :
    Kept s₀ (State.forward s l kind src hops wrapped pay) := by
  unfold State.forward
  extract_lets +onlyGivenNames t1
  refine Kept.have_ (P := ∀ b0 b1 b2, Kept s₀ b0 → Kept s₀ (t1 b0 b1 b2)) ?_ fun hg2 => ?_
  · unfold t1; clear t1
    intro a3 a4 a5 a6
    split
    apply keeps_transitPut
    refine Kept.ofEq (by assumption) ?_
    apply keeps_draw
    assumption
  clear_value t1
  refine Kept.ite ?_ ?_
  · apply keeps_linkCount
    assumption
  · refine Kept.ite ?_ ?_
    · apply hg2
      assumption
    · refine Kept.ite ?_ ?_
      · apply keeps_linkCount
        assumption
      · apply hg2
        apply keeps_countWrap
        assumption

theorem keeps_filterOffset {s₀ : State} (s : State) (o : ℤ) (h0 : Kept s₀ s) :
    Kept s₀ (State.filterOffset s o) := by
  unfold State.filterOffset
  extract_lets +onlyGivenNames t1
  clear_value t1
  extract_lets +onlyGivenNames t2
  clear_value t2
  refine Kept.ite ?_ ?_
  · refine Kept.of_eq rfl rfl rfl rfl rfl rfl rfl rfl rfl rfl rfl rfl ?_
    assumption
  · refine Kept.of_eq rfl rfl rfl rfl rfl rfl rfl rfl rfl rfl rfl rfl ?_
    assumption

theorem keeps_stepTime {s₀ : State} (s : State) (o : ℤ) (h0 : Kept s₀ s) :
    Kept s₀ (State.stepTime s o) := by
  unfold State.stepTime
  refine Kept.of_eq rfl rfl rfl rfl rfl rfl rfl rfl rfl rfl rfl rfl ?_
  assumption

theorem keeps_noteOffset {s₀ : State} (s : State) (d : ℕ) (o : ℤ) (h0 : Kept s₀ s) :
    Kept s₀ (State.noteOffset s d o) := by
  unfold State.noteOffset
  extract_lets +onlyGivenNames t1
  clear_value t1
  extract_lets +onlyGivenNames t2
  clear_value t2
  refine Kept.ite ?_ ?_
  · apply keeps_setDomain
    assumption
  · apply keeps_setDomain
    assumption

theorem keeps_takeSync {s₀ : State} (s : State) (m : SyncMsg) (h0 : Kept s₀ s) :
    Kept s₀ (State.takeSync s m) := by
  unfold State.takeSync
  extract_lets +onlyGivenNames t1
  extract_lets +onlyGivenNames t2
  extract_lets +onlyGivenNames t3
  refine Kept.cut (a := t3) ?_ fun _ => ?_
  · unfold t3; clear t3
    refine Kept.of_eq rfl rfl rfl rfl rfl rfl rfl rfl rfl rfl rfl rfl ?_
    assumption
  clear_value t3
  extract_lets +onlyGivenNames t4
  refine Kept.cut (a := t4) ?_ fun _ => ?_
  · unfold t4; clear t4
    apply keeps_setCfg
    assumption
  clear_value t4
  apply keeps_noteOffset
  apply keeps_noteOffset
  assumption

theorem keeps_learnGrid {s₀ : State} (s : State) (f : ℕ) (p : ℕ) (h0 : Kept s₀ s) :
    Kept s₀ (State.learnGrid s f p) := by
  unfold State.learnGrid
  split
  extract_lets +onlyGivenNames t1
  clear_value t1
  extract_lets +onlyGivenNames t2
  clear_value t2
  refine Kept.of_eq rfl rfl rfl rfl rfl rfl rfl rfl rfl rfl rfl rfl ?_
  refine Kept.ofEq (by assumption) ?_
  apply keeps_draw
  assumption

theorem keeps_gridKnown {s₀ : State} (s : State) (h0 : Kept s₀ s) :
    Kept s₀ (State.gridKnown s) := by
  unfold State.gridKnown
  split
  · assumption
  · refine Kept.ite ?_ ?_
    · assumption
    · refine Kept.ite ?_ ?_
      · refine Kept.of_eq rfl rfl rfl rfl rfl rfl rfl rfl rfl rfl rfl rfl ?_
        assumption
      · apply keeps_learnGrid
        assumption

theorem keeps_acceptSync {s₀ : State} (s : State) (l : ℕ) (m : SyncMsg) (at16 : ℕ) (h0 : Kept s₀ s) :
    Kept s₀ (State.acceptSync s l m at16) := by
  unfold State.acceptSync
  extract_lets +onlyGivenNames t1
  clear_value t1
  extract_lets +onlyGivenNames t2
  clear_value t2
  extract_lets +onlyGivenNames t3
  refine Kept.cut (a := t3) ?_ fun _ => ?_
  · unfold t3; clear t3
    apply keeps_bump
    assumption
  clear_value t3
  extract_lets +onlyGivenNames t4
  refine Kept.cut (a := t4) ?_ fun _ => ?_
  · unfold t4; clear t4
    refine Kept.ite ?_ ?_
    · apply keeps_stepTime
      assumption
    · apply keeps_filterOffset
      assumption
  clear_value t4
  extract_lets +onlyGivenNames t5
  refine Kept.cut (a := t5) ?_ fun _ => ?_
  · unfold t5; clear t5
    apply keeps_memberTime
    apply keeps_takeSync
    assumption
  clear_value t5
  refine Kept.ite ?_ ?_
  · apply keeps_gridKnown
    assumption
  · assumption

theorem keeps_execSync {s₀ : State} (l : Fin 4) (src : Fin 2048) (wrapped : Bool) (hops : ℕ) (m : SyncMsg) (at16 : ℕ) (residence : ℕ) (s : State) (h0 : Kept s₀ s) :
    ∃ out, execSync l src wrapped hops m at16 residence s = .next out ∧ Kept s₀ out := by
  unfold execSync
  refine ⟨_, rfl, ?_⟩
  refine Kept.ite ?_ ?_
  · assumption
  · extract_lets +onlyGivenNames t1
    refine Kept.cut (a := t1) ?_ fun _ => ?_
    · unfold t1; clear t1
      apply keeps_heard
      apply keeps_advance
      assumption
    clear_value t1
    refine Kept.ite ?_ ?_
    · apply keeps_fire
      apply keeps_bump
      assumption
    · extract_lets +onlyGivenNames t2
      refine Kept.cut (a := t2) ?_ fun _ => ?_
      · unfold t2; clear t2
        refine Kept.ite ?_ ?_
        · assumption
        · apply keeps_forward
          assumption
      clear_value t2
      extract_lets +onlyGivenNames t3
      clear_value t3
      refine Kept.ite ?_ ?_
      · apply keeps_acceptSync
        assumption
      · assumption

theorem keeps_execSyncPreTideExpiry {s₀ : State} (s : State) (h0 : Kept s₀ s) :
    ∃ out, execSyncPreTideExpiry s = .next out ∧ Kept s₀ out := by
  unfold execSyncPreTideExpiry
  refine ⟨_, rfl, ?_⟩
  apply keeps_byShepherd
  · assumption
  · intro a1 a2
    refine Kept.ite ?_ ?_
    · apply keeps_sendSync
      assumption
    · assumption

theorem keeps_execSyncLossTides {s₀ : State} (s : State) (h0 : Kept s₀ s) :
    ∃ out, execSyncLossTides s = .next out ∧ Kept s₀ out := by
  unfold execSyncLossTides
  refine ⟨_, rfl, ?_⟩
  refine Kept.ite ?_ ?_
  · apply keeps_toTime
    assumption
  · assumption

theorem keeps_execHoldoverLimitExpiry {s₀ : State} (s : State) (h0 : Kept s₀ s) :
    ∃ out, execHoldoverLimitExpiry s = .next out ∧ Kept s₀ out := by
  unfold execHoldoverLimitExpiry
  refine ⟨_, rfl, ?_⟩
  refine Kept.ite ?_ ?_
  · apply keeps_toTime
    assumption
  · assumption

theorem keeps_domainLost {s₀ : State} (s : State) (d : ℕ) (h0 : Kept s₀ s) :
    Kept s₀ (State.domainLost s d) := by
  unfold State.domainLost
  extract_lets +onlyGivenNames t1
  clear_value t1
  extract_lets +onlyGivenNames t2
  clear_value t2
  refine Kept.ite ?_ ?_
  · apply keeps_fire
    apply keeps_setDomain
    assumption
  · apply keeps_setDomain
    assumption

theorem keeps_choose {s₀ : State} (s : State) (d : ℕ) (h0 : Kept s₀ s) :
    Kept s₀ (State.choose s d) := by
  unfold State.choose
  extract_lets +onlyGivenNames t1
  clear_value t1
  extract_lets +onlyGivenNames t2
  clear_value t2
  split
  · refine Kept.ite ?_ ?_
    · extract_lets +onlyGivenNames t3
      refine Kept.cut (a := t3) ?_ fun _ => ?_
      · unfold t3; clear t3
        refine Kept.ite ?_ ?_
        · assumption
        · apply keeps_domainLost
          assumption
      clear_value t3
      extract_lets +onlyGivenNames t4
      clear_value t4
      extract_lets +onlyGivenNames t5
      refine Kept.cut (a := t5) ?_ fun _ => ?_
      · unfold t5; clear t5
        refine Kept.ite ?_ ?_
        · assumption
        · apply keeps_setDomain
          assumption
      clear_value t5
      apply keeps_setDomain
      assumption
    · extract_lets +onlyGivenNames t6
      refine Kept.cut (a := t6) ?_ fun _ => ?_
      · unfold t6; clear t6
        apply keeps_domainLost
        assumption
      clear_value t6
      apply keeps_setDomain
      assumption
  · extract_lets +onlyGivenNames t7
    refine Kept.cut (a := t7) ?_ fun _ => ?_
    · unfold t7; clear t7
      apply keeps_domainLost
      assumption
    clear_value t7
    apply keeps_setDomain
    assumption

theorem keeps_announceEntry {s₀ : State} (s : State) (d : ℕ) (st : ℕ) (port : ℕ) (a : Option Dataset) (h0 : Kept s₀ s) :
    Kept s₀ (State.announceEntry s d st port a) := by
  unfold State.announceEntry
  apply keeps_choose
  refine Kept.of_eq rfl rfl rfl rfl rfl rfl rfl rfl rfl rfl rfl rfl ?_
  assumption

theorem keeps_execAnnounce {s₀ : State} (src : Fin 2048) (d : Fin 2) (valid : Bool) (port : Fin 49) (m : AnnounceMsg) (s : State) (h0 : Kept s₀ s) :
    ∃ out, execAnnounce src d valid port m s = .next out ∧ Kept s₀ out := by
  unfold execAnnounce
  refine ⟨_, rfl, ?_⟩
  apply keeps_byShepherd
  · assumption
  · intro a1 a2
    refine Kept.ite ?_ ?_
    · apply keeps_announceEntry
      assumption
    · assumption

theorem keeps_sendAnnounce {s₀ : State} (s : State) (d : ℕ) (port : ℕ) (h0 : Kept s₀ s) :
    Kept s₀ (State.sendAnnounce s d port) := by
  unfold State.sendAnnounce
  extract_lets +onlyGivenNames t1
  clear_value t1
  extract_lets +onlyGivenNames t2
  clear_value t2
  apply keeps_broadcast
  assumption

theorem keeps_takeReport {s₀ : State} (s : State) (d : ℕ) (dstate : ℕ) (offset : ℤ) (rate : ℤ) (gm : ℕ) (cls : ℕ) (steps : ℕ) (h0 : Kept s₀ s) :
    Kept s₀ (State.takeReport s d dstate offset rate gm cls steps) := by
  unfold State.takeReport
  extract_lets +onlyGivenNames t1
  clear_value t1
  extract_lets +onlyGivenNames t2
  refine Kept.cut (a := t2) ?_ fun _ => ?_
  · unfold t2; clear t2
    apply keeps_noteOffset
    apply keeps_setDomain
    assumption
  clear_value t2
  extract_lets +onlyGivenNames t3
  refine Kept.ite ?_ ?_
  · refine Kept.ite ?_ ?_
    · assumption
    · apply keeps_fire
      refine Kept.of_eq rfl rfl rfl rfl rfl rfl rfl rfl rfl rfl rfl rfl ?_
      assumption
  · refine Kept.ite ?_ ?_
    · refine Kept.of_eq rfl rfl rfl rfl rfl rfl rfl rfl rfl rfl rfl rfl ?_
      assumption
    · assumption

theorem keeps_execReport {s₀ : State} (src : Fin 2048) (d : Fin 2) (dstate : Fin 4) (offset : ℤ) (rate : ℤ) (gm : ℕ) (cls : ℕ) (steps : ℕ) (s : State) (h0 : Kept s₀ s) :
    ∃ out, execReport src d dstate offset rate gm cls steps s = .next out ∧ Kept s₀ out := by
  unfold execReport
  refine ⟨_, rfl, ?_⟩
  apply keeps_byShepherd
  · assumption
  · intro a1 a2
    refine Kept.ite ?_ ?_
    · apply keeps_takeReport
      assumption
    · assumption

theorem keeps_execDomainSyncLoss {s₀ : State} (d : Fin 2) (s : State) (h0 : Kept s₀ s) :
    ∃ out, execDomainSyncLoss d s = .next out ∧ Kept s₀ out := by
  unfold execDomainSyncLoss
  refine ⟨_, rfl, ?_⟩
  refine Kept.ite ?_ ?_
  · apply keeps_domainLost
    assumption
  · assumption

theorem keeps_execDomainReportLoss {s₀ : State} (d : Fin 2) (s : State) (h0 : Kept s₀ s) :
    ∃ out, execDomainReportLoss d s = .next out ∧ Kept s₀ out := by
  unfold execDomainReportLoss
  refine ⟨_, rfl, ?_⟩
  refine Kept.ite ?_ ?_
  · apply keeps_domainLost
    assumption
  · assumption

theorem keeps_domainTurn {s₀ : State} (s : State) (d : ℕ) (h0 : Kept s₀ s) :
    Kept s₀ (State.domainTurn s d) := by
  unfold State.domainTurn
  refine Kept.ite ?_ ?_
  · extract_lets +onlyGivenNames t1
    clear_value t1
    apply keeps_choose
    refine Kept.fold ?_ ?_
    · intro a2 a3 a4
      apply keeps_sendAnnounce
      apply keeps_announceEntry
      assumption
    · assumption
  · apply keeps_setDomain
    refine Kept.of_eq rfl rfl rfl rfl rfl rfl rfl rfl rfl rfl rfl rfl ?_
    assumption

theorem keeps_ptpDrop {s₀ : State} (s : State) (port : ℕ) (h0 : Kept s₀ s) :
    Kept s₀ (State.ptpDrop s port) := by
  unfold State.ptpDrop
  apply keeps_fire
  apply keeps_bump
  assumption

theorem keeps_ptpIn {s₀ : State} (s : State) (m : PtpMsg) (body : ℕ → State → State) (h0 : Kept s₀ s) (hfbody : ∀ y0 y1, Kept s₀ y1 → Kept s₀ (body y0 y1)) :
    Kept s₀ (State.ptpIn s m body) := by
  unfold State.ptpIn
  extract_lets +onlyGivenNames t1
  refine Kept.cut (a := t1) ?_ fun _ => ?_
  · unfold t1; clear t1
    apply keeps_bump
    apply keeps_advance
    assumption
  clear_value t1
  split
  · apply keeps_ptpDrop
    assumption
  · refine Kept.ite ?_ ?_
    · apply hfbody
      assumption
    · apply keeps_ptpDrop
      assumption

theorem keeps_ptpOut {s₀ : State} (s : State) (port : ℕ) (type : ℕ) (number : ℕ) (seq : ℕ) (rest : List ℕ) (h0 : Kept s₀ s) :
    Kept s₀ (State.ptpOut s port type number seq rest) := by
  unfold State.ptpOut
  apply keeps_bump
  apply keeps_emit
  assumption

theorem keeps_ptpAnnounce {s₀ : State} (s : State) (d : ℕ) (port : ℕ) (h0 : Kept s₀ s) :
    Kept s₀ (State.ptpAnnounce s d port) := by
  unfold State.ptpAnnounce
  extract_lets +onlyGivenNames t1
  clear_value t1
  extract_lets +onlyGivenNames t2
  clear_value t2
  apply keeps_ptpOut
  refine Kept.of_eq rfl rfl rfl rfl rfl rfl rfl rfl rfl rfl rfl rfl ?_
  assumption

theorem keeps_execAnnounceIntervalExpiry {s₀ : State} (d : Fin 2) (s : State) (h0 : Kept s₀ s) :
    ∃ out, execAnnounceIntervalExpiry d s = .next out ∧ Kept s₀ out := by
  unfold execAnnounceIntervalExpiry
  refine ⟨_, rfl, ?_⟩
  apply keeps_byShepherd
  · assumption
  · intro a1 a2
    refine Kept.ite ?_ ?_
    · refine Kept.fold ?_ ?_
      · intro a3 a4 a5
        apply keeps_ptpAnnounce
        assumption
      · refine Kept.fold ?_ ?_
        · intro a6 a7 a8
          apply keeps_sendAnnounce
          assumption
        · assumption
    · assumption

theorem keeps_askDelay {s₀ : State} (s : State) (d : ℕ) (port : ℕ) (h0 : Kept s₀ s) :
    Kept s₀ (State.askDelay s d port) := by
  unfold State.askDelay
  refine Kept.ite ?_ ?_
  · extract_lets +onlyGivenNames t1
    clear_value t1
    extract_lets +onlyGivenNames t2
    clear_value t2
    extract_lets +onlyGivenNames t3
    refine Kept.cut (a := t3) ?_ fun _ => ?_
    · unfold t3; clear t3
      apply keeps_setDomain
      assumption
    clear_value t3
    extract_lets +onlyGivenNames t4
    clear_value t4
    extract_lets +onlyGivenNames t5
    refine Kept.cut (a := t5) ?_ fun _ => ?_
    · unfold t5; clear t5
      refine Kept.of_eq rfl rfl rfl rfl rfl rfl rfl rfl rfl rfl rfl rfl ?_
      assumption
    clear_value t5
    apply keeps_ptpOut
    assumption
  · assumption

theorem keeps_execPtpSync {s₀ : State} (m : PtpMsg) (twoStep : Bool) (s : State) (h0 : Kept s₀ s) :
    ∃ out, execPtpSync m twoStep s = .next out ∧ Kept s₀ out := by
  unfold execPtpSync
  refine ⟨_, rfl, ?_⟩
  apply keeps_ptpIn
  · assumption
  · intro a1 a2 a3
    refine Kept.ite ?_ ?_
    · assumption
    · extract_lets +onlyGivenNames t1
      clear_value t1
      refine Kept.ite ?_ ?_
      · apply keeps_setDomain
        assumption
      · apply keeps_askDelay
        apply keeps_setDomain
        assumption

theorem keeps_execPtpFollowUp {s₀ : State} (m : PtpMsg) (s : State) (h0 : Kept s₀ s) :
    ∃ out, execPtpFollowUp m s = .next out ∧ Kept s₀ out := by
  unfold execPtpFollowUp
  refine ⟨_, rfl, ?_⟩
  apply keeps_ptpIn
  · assumption
  · intro a1 a2 a3
    extract_lets +onlyGivenNames t1
    clear_value t1
    split
    · refine Kept.ite ?_ ?_
      · apply keeps_askDelay
        apply keeps_setDomain
        assumption
      · assumption
    · assumption

theorem keeps_execPtpDelayReq {s₀ : State} (m : PtpMsg) (s : State) (h0 : Kept s₀ s) :
    ∃ out, execPtpDelayReq m s = .next out ∧ Kept s₀ out := by
  unfold execPtpDelayReq
  refine ⟨_, rfl, ?_⟩
  apply keeps_ptpIn
  · assumption
  · intro a1 a2 a3
    refine Kept.ite ?_ ?_
    · apply keeps_ptpDrop
      assumption
    · refine Kept.ite ?_ ?_
      · apply keeps_ptpOut
        assumption
      · assumption

theorem keeps_execPtpDelayResp {s₀ : State} (m : PtpMsg) (s : State) (h0 : Kept s₀ s) :
    ∃ out, execPtpDelayResp m s = .next out ∧ Kept s₀ out := by
  unfold execPtpDelayResp
  refine ⟨_, rfl, ?_⟩
  apply keeps_ptpIn
  · assumption
  · intro a1 a2 a3
    extract_lets +onlyGivenNames t1
    clear_value t1
    refine Kept.ite ?_ ?_
    · apply keeps_ptpDrop
      assumption
    · refine Kept.ite ?_ ?_
      · extract_lets +onlyGivenNames t2
        clear_value t2
        extract_lets +onlyGivenNames t3
        clear_value t3
        apply keeps_setDomain
        assumption
      · assumption

theorem keeps_execPtpPdelayReq {s₀ : State} (m : PtpMsg) (s : State) (h0 : Kept s₀ s) :
    ∃ out, execPtpPdelayReq m s = .next out ∧ Kept s₀ out := by
  unfold execPtpPdelayReq
  refine ⟨_, rfl, ?_⟩
  apply keeps_ptpIn
  · assumption
  · intro a1 a2 a3
    refine Kept.ite ?_ ?_
    · apply keeps_ptpDrop
      assumption
    · split
      apply keeps_ptpOut
      refine Kept.ofEq (by assumption) ?_
      apply keeps_draw
      assumption

theorem keeps_execPtpPdelayResp {s₀ : State} (m : PtpMsg) (twoStep : Bool) (s : State) (h0 : Kept s₀ s) :
    ∃ out, execPtpPdelayResp m twoStep s = .next out ∧ Kept s₀ out := by
  unfold execPtpPdelayResp
  refine ⟨_, rfl, ?_⟩
  apply keeps_ptpIn
  · assumption
  · intro a1 a2 a3
    extract_lets +onlyGivenNames t1
    clear_value t1
    refine Kept.ite ?_ ?_
    · apply keeps_ptpDrop
      assumption
    · refine Kept.ite ?_ ?_
      · assumption
      · refine Kept.ite ?_ ?_
        · apply keeps_setDomain
          assumption
        · apply keeps_setDomain
          assumption

theorem keeps_execPtpPdelayRespFollowUp {s₀ : State} (m : PtpMsg) (s : State) (h0 : Kept s₀ s) :
    ∃ out, execPtpPdelayRespFollowUp m s = .next out ∧ Kept s₀ out := by
  unfold execPtpPdelayRespFollowUp
  refine ⟨_, rfl, ?_⟩
  apply keeps_ptpIn
  · assumption
  · intro a1 a2 a3
    extract_lets +onlyGivenNames t1
    clear_value t1
    split
    · refine Kept.ite ?_ ?_
      · apply keeps_setDomain
        assumption
      · assumption
    · assumption

theorem keeps_execPtpAnnounce {s₀ : State} (m : PtpMsg) (a : AnnounceMsg) (utc : ℕ) (path : List ℕ) (s : State) (h0 : Kept s₀ s) :
    ∃ out, execPtpAnnounce m a utc path s = .next out ∧ Kept s₀ out := by
  unfold execPtpAnnounce
  refine ⟨_, rfl, ?_⟩
  apply keeps_ptpIn
  · assumption
  · intro a1 a2 a3
    refine Kept.ite ?_ ?_
    · assumption
    · extract_lets +onlyGivenNames t4
      extract_lets +onlyGivenNames t5
      refine Kept.cut (a := t5) ?_ fun _ => ?_
      · unfold t5; clear t5
        refine Kept.of_eq rfl rfl rfl rfl rfl rfl rfl rfl rfl rfl rfl rfl ?_
        assumption
      extract_lets +onlyGivenNames t6
      extract_lets +onlyGivenNames t7
      refine Kept.cut (a := t7) ?_ fun _ => ?_
      · unfold t7; clear t7
        apply keeps_announceEntry
        assumption
      extract_lets +onlyGivenNames t8
      refine Kept.cut (a := t8) ?_ fun _ => ?_
      · unfold t8; clear t8
        refine Kept.ite ?_ ?_
        · assumption
        · apply keeps_byShepherd
          · assumption
          · intro a9 a10
            apply keeps_sendAnnounce
            assumption
      refine Kept.ite ?_ ?_
      · apply keeps_setCfg
        assumption
      · assumption

theorem keeps_execPtpManagement {s₀ : State} (m : PtpMsg) (s : State) (h0 : Kept s₀ s) :
    ∃ out, execPtpManagement m s = .next out ∧ Kept s₀ out := by
  unfold execPtpManagement
  refine ⟨_, rfl, ?_⟩
  apply keeps_ptpIn
  · assumption
  · intro a1 a2 a3
    apply keeps_ptpOut
    assumption

theorem keeps_execPtpMalformed {s₀ : State} (port : Fin 49) (s : State) (h0 : Kept s₀ s) :
    ∃ out, execPtpMalformed port s = .next out ∧ Kept s₀ out := by
  unfold execPtpMalformed
  refine ⟨_, rfl, ?_⟩
  apply keeps_ptpDrop
  apply keeps_bump
  assumption

theorem keeps_execPtpSyncIntervalExpiry {s₀ : State} (d : Fin 2) (port : Fin 49) (off : ℕ) (s : State) (h0 : Kept s₀ s) :
    ∃ out, execPtpSyncIntervalExpiry d port off s = .next out ∧ Kept s₀ out := by
  unfold execPtpSyncIntervalExpiry
  extract_lets +onlyGivenNames t1
  clear_value t1
  extract_lets +onlyGivenNames t2
  refine Kept.have_ (P := Kept s₀ t2) ?_ fun hs3 => ?_
  · unfold t2; clear t2
    refine Kept.ite ?_ ?_
    · apply keeps_advance
      assumption
    · assumption
  clear_value t2
  refine ⟨_, rfl, ?_⟩
  refine Kept.ite ?_ ?_
  · assumption
  · refine Kept.ite ?_ ?_
    · extract_lets +onlyGivenNames t4
      clear_value t4
      extract_lets +onlyGivenNames t5
      refine Kept.cut (a := t5) ?_ fun _ => ?_
      · unfold t5; clear t5
        apply keeps_ptpOut
        assumption
      clear_value t5
      refine Kept.of_eq rfl rfl rfl rfl rfl rfl rfl rfl rfl rfl rfl rfl ?_
      assumption
    · refine Kept.ite ?_ ?_
      · extract_lets +onlyGivenNames t6
        clear_value t6
        extract_lets +onlyGivenNames t7
        extract_lets +onlyGivenNames t8
        refine Kept.cut (a := t8) ?_ fun _ => ?_
        · unfold t8; clear t8
          refine Kept.of_eq rfl rfl rfl rfl rfl rfl rfl rfl rfl rfl rfl rfl ?_
          assumption
        clear_value t8
        apply keeps_ptpOut
        apply keeps_setDomain
        assumption
      · assumption

theorem keeps_timeSetOp {s₀ : State} (s : State) (v : ℕ) (h0 : Kept s₀ s) :
    Kept s₀ (State.timeSetOp s v) := by
  unfold State.timeSetOp
  refine Kept.ite ?_ ?_
  · apply keeps_abort
    assumption
  · refine Kept.ite ?_ ?_
    · apply keeps_abort
      assumption
    · extract_lets +onlyGivenNames t1
      clear_value t1
      extract_lets +onlyGivenNames t2
      refine Kept.cut (a := t2) ?_ fun _ => ?_
      · unfold t2; clear t2
        refine Kept.of_eq rfl rfl rfl rfl rfl rfl rfl rfl rfl rfl rfl rfl ?_
        assumption
      clear_value t2
      split
      · refine Kept.ite ?_ ?_
        · assumption
        · refine Kept.of_eq rfl rfl rfl rfl rfl rfl rfl rfl rfl rfl rfl rfl ?_
          assumption
      · refine Kept.ite ?_ ?_
        · assumption
        · refine Kept.of_eq rfl rfl rfl rfl rfl rfl rfl rfl rfl rfl rfl rfl ?_
          assumption
      · refine Kept.ite ?_ ?_
        · assumption
        · refine Kept.of_eq rfl rfl rfl rfl rfl rfl rfl rfl rfl rfl rfl rfl ?_
          assumption
      · assumption

theorem keeps_execTimeSet {s₀ : State} (v : ℕ) (s : State) (h0 : Kept s₀ s) :
    ∃ out, execTimeSet v s = .next out ∧ Kept s₀ out := by
  unfold execTimeSet
  refine ⟨_, rfl, ?_⟩
  apply keeps_timeSetOp
  assumption

theorem keeps_switchOp {s₀ : State} (s : State) (h0 : Kept s₀ s) :
    Kept s₀ (State.switchOp s) := by
  unfold State.switchOp
  extract_lets +onlyGivenNames t1
  clear_value t1
  refine Kept.ite ?_ ?_
  · refine Kept.of_eq rfl rfl rfl rfl rfl rfl rfl rfl rfl rfl rfl rfl ?_
    assumption
  · apply keeps_abort
    assumption

theorem keeps_execSwitch {s₀ : State} (s : State) (h0 : Kept s₀ s) :
    ∃ out, execSwitch s = .next out ∧ Kept s₀ out := by
  unfold execSwitch
  refine ⟨_, rfl, ?_⟩
  apply keeps_switchOp
  assumption

theorem keeps_execRevertHoldExpiry {s₀ : State} (s : State) (h0 : Kept s₀ s) :
    ∃ out, execRevertHoldExpiry s = .next out ∧ Kept s₀ out := by
  unfold execRevertHoldExpiry
  refine ⟨_, rfl, ?_⟩
  refine Kept.ite ?_ ?_
  · refine Kept.of_eq rfl rfl rfl rfl rfl rfl rfl rfl rfl rfl rfl rfl ?_
    assumption
  · assumption

theorem keeps_switchDomain {s₀ : State} (s : State) (d : ℕ) (h0 : Kept s₀ s) :
    Kept s₀ (State.switchDomain s d) := by
  unfold State.switchDomain
  apply keeps_fire
  apply keeps_bump
  refine Kept.of_eq rfl rfl rfl rfl rfl rfl rfl rfl rfl rfl rfl rfl ?_
  assumption

theorem keeps_followTurn {s₀ : State} (s : State) (h0 : Kept s₀ s) :
    Kept s₀ (State.followTurn s) := by
  unfold State.followTurn
  refine Kept.ite h0 ?_
  extract_lets +onlyGivenNames pref x s1
  have h1 : Kept s₀ s1 := by
    unfold s1
    split
    · refine Kept.ite (keeps_switchDomain _ _ h0) ?_
      refine Kept.of_eq rfl rfl rfl rfl rfl rfl rfl rfl rfl rfl rfl rfl h0
    · exact h0
  extract_lets +onlyGivenNames y s2
  have h2 : Kept s₀ s2 := by
    unfold s2
    refine Kept.ite (Kept.ite ?_ (Kept.ite ?_ h1)) (Kept.ite h1 (Kept.ite (keeps_switchDomain _ _ h1) ?_))
    all_goals refine Kept.of_eq rfl rfl rfl rfl rfl rfl rfl rfl rfl rfl rfl rfl h1
  exact keeps_masterTime _ h2

theorem keeps_reportTurn {s₀ : State} (s : State) (h0 : Kept s₀ s) :
    Kept s₀ (State.reportTurn s) := by
  unfold State.reportTurn
  refine Kept.fold ?_ ?_
  · intro a1 a2 a3
    refine Kept.ite ?_ ?_
    · extract_lets +onlyGivenNames t4
      clear_value t4
      refine Kept.ite ?_ ?_
      · apply keeps_takeReport
        assumption
      · apply keeps_byShepherd
        · assumption
        · intro a5 a6
          split
          · apply keeps_unicastBoth
            assumption
          · assumption
    · assumption
  · assumption

theorem keeps_steerTurn {s₀ : State} (s : State) (h0 : Kept s₀ s) :
    Kept s₀ (State.steerTurn s) := by
  unfold State.steerTurn
  refine Kept.ite ?_ ?_
  · assumption
  · refine Kept.ite ?_ ?_
    · refine Kept.ite ?_ ?_
      · assumption
      · extract_lets +onlyGivenNames t1
        clear_value t1
        extract_lets +onlyGivenNames t2
        clear_value t2
        extract_lets +onlyGivenNames t3
        refine Kept.have_ (P := ∀ b0 b1, Kept s₀ b0 → Kept s₀ (t3 b0 b1)) ?_ fun hg4 => ?_
        · unfold t3; clear t3
          intro a5 a6 a7
          apply keeps_setDomain
          assumption
        clear_value t3
        extract_lets +onlyGivenNames t8
        refine Kept.cut (a := t8) ?_ fun _ => ?_
        · unfold t8; clear t8
          apply hg4
          apply hg4
          assumption
        clear_value t8
        refine Kept.of_eq rfl rfl rfl rfl rfl rfl rfl rfl rfl rfl rfl rfl ?_
        assumption
    · refine Kept.ite ?_ ?_
      · assumption
      · extract_lets +onlyGivenNames t9
        clear_value t9
        refine Kept.of_eq rfl rfl rfl rfl rfl rfl rfl rfl rfl rfl rfl rfl ?_
        assumption

theorem keeps_timeTurn {s₀ : State} (s : State) (h0 : Kept s₀ s) :
    Kept s₀ (State.timeTurn s) := by
  unfold State.timeTurn
  extract_lets +onlyGivenNames t1
  refine Kept.cut (a := t1) ?_ fun _ => ?_
  · unfold t1; clear t1
    refine Kept.ite ?_ ?_
    · assumption
    · refine Kept.ite ?_ ?_
      · assumption
      · apply keeps_bump
        assumption
  clear_value t1
  extract_lets +onlyGivenNames t2
  extract_lets +onlyGivenNames t3
  refine Kept.cut (a := t3) ?_ fun _ => ?_
  · unfold t3; clear t3
    apply keeps_byShepherd
    · refine Kept.of_eq rfl rfl rfl rfl rfl rfl rfl rfl rfl rfl rfl rfl ?_
      assumption
    · intro a4 a5
      apply keeps_domainTurn
      apply keeps_domainTurn
      assumption
  clear_value t3
  extract_lets +onlyGivenNames t6
  refine Kept.cut (a := t6) ?_ fun _ => ?_
  · unfold t6; clear t6
    apply keeps_reportTurn
    apply keeps_followTurn
    apply keeps_steerTurn
    assumption
  clear_value t6
  refine Kept.ite ?_ ?_
  · apply keeps_sendSync
    assumption
  · assumption

end Sys2Proof.Laws
end

