-- ==== Sys2Proof/Laws/KeepMuster.lean ====
section
/-! SUPPORT. What each operation of Machine/Muster.lean keeps (Laws/Kept.lean). -/

open Sys2Proof Sys2Proof.Machine

namespace Sys2Proof.Laws

theorem keeps_toMuster {s₀ : State} (s : State) (m : MState) (h0 : Kept s₀ s) :
    Kept s₀ (State.toMuster s m) := by
  unfold State.toMuster
  refine Kept.of_eq rfl rfl rfl rfl rfl rfl rfl rfl rfl rfl rfl rfl ?_
  assumption

theorem keeps_musterCount {s₀ : State} (s : State) (k : ℕ) (h0 : Kept s₀ s) :
    Kept s₀ (State.musterCount s k) := by
  unfold State.musterCount
  apply keeps_bump
  assumption

theorem keeps_sendClaim {s₀ : State} (s : State) (h0 : Kept s₀ s) :
    Kept s₀ (State.sendClaim s) := by
  unfold State.sendClaim
  extract_lets +onlyGivenNames t1
  clear_value t1
  extract_lets +onlyGivenNames t2
  clear_value t2
  extract_lets +onlyGivenNames t3
  clear_value t3
  extract_lets +onlyGivenNames t4
  clear_value t4
  extract_lets +onlyGivenNames t5
  refine Kept.cut (a := t5) ?_ fun _ => ?_
  · unfold t5; clear t5
    refine Kept.ite ?_ ?_
    · apply keeps_sendCell
      assumption
    · assumption
  clear_value t5
  extract_lets +onlyGivenNames t6
  refine Kept.cut (a := t6) ?_ fun _ => ?_
  · unfold t6; clear t6
    refine Kept.ite ?_ ?_
    · apply keeps_sendCell
      assumption
    · assumption
  clear_value t6
  extract_lets +onlyGivenNames t7
  refine Kept.cut (a := t7) ?_ fun _ => ?_
  · unfold t7; clear t7
    refine Kept.ite ?_ ?_
    · apply keeps_musterCount
      assumption
    · assumption
  clear_value t7
  refine Kept.of_eq rfl rfl rfl rfl rfl rfl rfl rfl rfl rfl rfl rfl ?_
  assumption

theorem keeps_claimNow {s₀ : State} (s : State) (standin : Bool) (h0 : Kept s₀ s) :
    Kept s₀ (State.claimNow s standin) := by
  unfold State.claimNow
  dsimp only
  apply keeps_sendClaim
  refine Kept.of_eq rfl rfl rfl rfl rfl rfl rfl rfl rfl rfl rfl rfl ?_
  apply keeps_draw
  assumption

theorem keeps_standinNow {s₀ : State} (s : State) (h0 : Kept s₀ s) :
    Kept s₀ (State.standinNow s) := by
  unfold State.standinNow
  apply keeps_fire
  apply keeps_musterCount
  apply keeps_claimNow
  assumption

theorem keeps_sendReject {s₀ : State} (s : State) (src : ℕ) (reason : ℕ) (detail : ℕ) (h0 : Kept s₀ s) :
    Kept s₀ (State.sendReject s src reason detail) := by
  unfold State.sendReject
  apply keeps_fire
  apply keeps_musterCount
  apply keeps_sendCell
  assumption

theorem keeps_memberClock {s₀ : State} (s : State) (h0 : Kept s₀ s) :
    Kept s₀ (State.memberClock s) := by
  unfold State.memberClock
  apply keeps_syntonise
  refine Kept.ite ?_ ?_
  · assumption
  · apply keeps_toTime
    assumption

theorem keeps_duplicate {s₀ : State} (s : State) (h0 : Kept s₀ s) :
    Kept s₀ (State.duplicate s) := by
  unfold State.duplicate
  apply keeps_syntonise
  apply keeps_fire
  apply keeps_musterCount
  refine Kept.of_eq rfl rfl rfl rfl rfl rfl rfl rfl rfl rfl rfl rfl ?_
  assumption

theorem keeps_musterTick {s₀ : State} (s : State) (h0 : Kept s₀ s) :
    Kept s₀ (State.musterTick s) := by
  unfold State.musterTick
  refine Kept.ite ?_ ?_
  · apply keeps_sendRoster
    assumption
  · assumption

theorem keeps_phaseLink {s₀ : State} (s : State) (l : ℕ) (h0 : Kept s₀ s) :
    Kept s₀ (State.phaseLink s l) := by
  unfold State.phaseLink
  extract_lets +onlyGivenNames t1
  clear_value t1
  split
  · apply keeps_setLink
    assumption
  · refine Kept.ite ?_ ?_
    · assumption
    · apply keeps_fire
      apply keeps_setLink
      assumption

theorem keeps_seeEpoch {s₀ : State} (s : State) (e : ℕ) (h0 : Kept s₀ s) :
    Kept s₀ (State.seeEpoch s e) := by
  unfold State.seeEpoch
  refine Kept.of_eq rfl rfl rfl rfl rfl rfl rfl rfl rfl rfl rfl rfl ?_
  assumption

theorem keeps_takeEpoch {s₀ : State} (s : State) (e : ℕ) (h0 : Kept s₀ s) :
    Kept s₀ (State.takeEpoch s e) := by
  unfold State.takeEpoch
  extract_lets +onlyGivenNames t1
  clear_value t1
  extract_lets +onlyGivenNames t2
  refine Kept.cut (a := t2) ?_ fun _ => ?_
  · unfold t2; clear t2
    apply keeps_seeEpoch
    assumption
  clear_value t2
  extract_lets +onlyGivenNames t3
  extract_lets +onlyGivenNames t4
  extract_lets +onlyGivenNames t5
  refine Kept.cut (a := t5) ?_ fun _ => ?_
  · unfold t5; clear t5
    refine Kept.of_eq rfl rfl rfl rfl rfl rfl rfl rfl rfl rfl rfl rfl ?_
    assumption
  clear_value t5
  extract_lets +onlyGivenNames t6
  refine Kept.cut (a := t6) ?_ fun _ => ?_
  · unfold t6; clear t6
    refine Kept.fold ?_ ?_
    · intro a7 a8 a9
      apply keeps_setLink
      assumption
    · assumption
  clear_value t6
  extract_lets +onlyGivenNames t10
  refine Kept.cut (a := t10) ?_ fun _ => ?_
  · unfold t10; clear t10
    apply keeps_wantRoster
    assumption
  clear_value t10
  refine Kept.fold ?_ ?_
  · intro a11 a12 a13
    refine Kept.ite ?_ ?_
    · apply keeps_retrainOp
      assumption
    · apply keeps_linkTryTrain
      assumption
  · assumption

theorem keeps_sendSet {s₀ : State} (s : State) (resume : Bool) (f : ℕ) (start : ℕ) (h0 : Kept s₀ s) :
    Kept s₀ (State.sendSet s resume f start) := by
  unfold State.sendSet
  apply keeps_broadcast
  assumption

theorem keeps_electTime {s₀ : State} (s : State) (h0 : Kept s₀ s) :
    Kept s₀ (State.electTime s) := by
  unfold State.electTime
  refine Kept.ite ?_ ?_
  · assumption
  · extract_lets +onlyGivenNames t1
    clear_value t1
    extract_lets +onlyGivenNames t2
    clear_value t2
    refine Kept.of_eq rfl rfl rfl rfl rfl rfl rfl rfl rfl rfl rfl rfl ?_
    assumption

theorem keeps_masterClock {s₀ : State} (s : State) (acting : Bool) (h0 : Kept s₀ s) :
    Kept s₀ (State.masterClock s acting) := by
  unfold State.masterClock
  apply keeps_masterTime
  refine Kept.of_eq rfl rfl rfl rfl rfl rfl rfl rfl rfl rfl rfl rfl ?_
  assumption

theorem keeps_newGrid {s₀ : State} (s : State) (p : ℕ) (f : ℕ) (start : ℕ) (h0 : Kept s₀ s) :
    Kept s₀ (State.newGrid s p f start) := by
  unfold State.newGrid
  refine Kept.of_eq rfl rfl rfl rfl rfl rfl rfl rfl rfl rfl rfl rfl ?_
  assumption

theorem keeps_elected {s₀ : State} (s : State) (h0 : Kept s₀ s) :
    Kept s₀ (State.elected s) := by
  unfold State.elected
  extract_lets +onlyGivenNames t1
  clear_value t1
  extract_lets +onlyGivenNames t2
  extract_lets +onlyGivenNames t3
  refine Kept.cut (a := t3) ?_ fun _ => ?_
  · unfold t3; clear t3
    refine Kept.of_eq rfl rfl rfl rfl rfl rfl rfl rfl rfl rfl rfl rfl ?_
    assumption
  clear_value t3
  extract_lets +onlyGivenNames t4
  refine Kept.cut (a := t4) ?_ fun _ => ?_
  · unfold t4; clear t4
    apply keeps_electTime
    assumption
  clear_value t4
  extract_lets +onlyGivenNames t5
  clear_value t5
  extract_lets +onlyGivenNames t6
  clear_value t6
  extract_lets +onlyGivenNames t7
  refine Kept.cut (a := t7) ?_ fun _ => ?_
  · unfold t7; clear t7
    apply keeps_masterClock
    apply keeps_newGrid
    assumption
  clear_value t7
  apply keeps_syntonise
  apply keeps_fire
  apply keeps_musterCount
  apply keeps_takeEpoch
  apply keeps_sendSet
  assumption

theorem keeps_resume {s₀ : State} (s : State) (h0 : Kept s₀ s) :
    Kept s₀ (State.resume s) := by
  unfold State.resume
  dsimp only
  apply keeps_sendSet
  refine Kept.of_eq rfl rfl rfl rfl rfl rfl rfl rfl rfl rfl rfl rfl ?_
  assumption

theorem keeps_electedActing {s₀ : State} (s : State) (h0 : Kept s₀ s) :
    Kept s₀ (State.electedActing s) := by
  unfold State.electedActing
  extract_lets +onlyGivenNames t1
  clear_value t1
  extract_lets +onlyGivenNames t2
  extract_lets +onlyGivenNames t3
  refine Kept.cut (a := t3) ?_ fun _ => ?_
  · unfold t3; clear t3
    refine Kept.of_eq rfl rfl rfl rfl rfl rfl rfl rfl rfl rfl rfl rfl ?_
    assumption
  clear_value t3
  extract_lets +onlyGivenNames t4
  refine Kept.cut (a := t4) ?_ fun _ => ?_
  · unfold t4; clear t4
    apply keeps_syntonise
    apply keeps_fire
    apply keeps_musterCount
    apply keeps_masterClock
    assumption
  clear_value t4
  refine Kept.ite ?_ ?_
  · apply keeps_resume
    assumption
  · assumption

theorem keeps_claimReturned {s₀ : State} (s : State) (dir : ℕ) (h0 : Kept s₀ s) :
    Kept s₀ (State.claimReturned s dir) := by
  unfold State.claimReturned
  extract_lets +onlyGivenNames t1
  extract_lets +onlyGivenNames t2
  refine Kept.cut (a := t2) ?_ fun _ => ?_
  · unfold t2; clear t2
    refine Kept.of_eq rfl rfl rfl rfl rfl rfl rfl rfl rfl rfl rfl rfl ?_
    assumption
  extract_lets +onlyGivenNames t3
  refine Kept.ite ?_ ?_
  · refine Kept.ite ?_ ?_
    · refine Kept.ite ?_ ?_
      · apply keeps_electedActing
        assumption
      · apply keeps_elected
        assumption
    · refine Kept.ite ?_ ?_
      · apply keeps_electedActing
        assumption
      · assumption
  · assumption

theorem keeps_claimCopy {s₀ : State} (s : State) (dir : ℕ) (src : ℕ) (claimw : ℕ) (part : ℕ) (nonce : ℕ) (hops : ℕ) (wrapped : Bool) (pay : List ℕ) (h0 : Kept s₀ s) :
    Kept s₀ (State.claimCopy s dir src claimw part nonce hops wrapped pay) := by
  unfold State.claimCopy
  extract_lets +onlyGivenNames t1
  clear_value t1
  extract_lets +onlyGivenNames t2
  refine Kept.have_ (P := ∀ a0, Kept s₀ a0 → Kept s₀ (t2 a0)) ?_ fun hg1 => ?_
  · unfold t2; clear t2
    intro a1 a2
    apply keeps_musterCount
    apply keeps_forward
    assumption
  clear_value t2
  extract_lets +onlyGivenNames t3
  clear_value t3
  refine Kept.ite ?_ ?_
  · apply keeps_sendReject
    assumption
  · refine Kept.ite ?_ ?_
    · apply keeps_duplicate
      apply keeps_sendReject
      assumption
    · refine Kept.ite ?_ ?_
      · extract_lets +onlyGivenNames t4
        refine Kept.cut (a := t4) ?_ fun _ => ?_
        · unfold t4; clear t4
          refine Kept.ite ?_ ?_
          · apply hg1
            assumption
          · assumption
        clear_value t4
        apply keeps_claimReturned
        assumption
      · refine Kept.ite ?_ ?_
        · extract_lets +onlyGivenNames t5
          clear_value t5
          extract_lets +onlyGivenNames t6
          refine Kept.cut (a := t6) ?_ fun _ => ?_
          · unfold t6; clear t6
            apply hg1
            refine Kept.of_eq rfl rfl rfl rfl rfl rfl rfl rfl rfl rfl rfl rfl ?_
            assumption
          clear_value t6
          refine Kept.ite ?_ ?_
          · apply keeps_toMuster
            assumption
          · assumption
        · refine Kept.ite ?_ ?_
          · apply hg1
            assumption
          · assumption

theorem keeps_ownBest {s₀ : State} (s : State) (h0 : Kept s₀ s) :
    Kept s₀ (State.ownBest s) := by
  unfold State.ownBest
  refine Kept.of_eq rfl rfl rfl rfl rfl rfl rfl rfl rfl rfl rfl rfl ?_
  assumption

theorem keeps_execClaim {s₀ : State} (dir : Fin 4) (src : Fin 2048) (claimw : ℕ) (part : ℕ) (nonce : ℕ) (hops : ℕ) (wrapped : Bool) (s : State) (h0 : Kept s₀ s) :
    ∃ out, execClaim dir src claimw part nonce hops wrapped s = .next out ∧ Kept s₀ out := by
  unfold execClaim
  extract_lets +onlyGivenNames t1
  clear_value t1
  refine ⟨_, rfl, ?_⟩
  apply keeps_byShepherd
  · assumption
  · intro a2 a3
    refine Kept.ite ?_ ?_
    · assumption
    · extract_lets +onlyGivenNames t4
      clear_value t4
      extract_lets +onlyGivenNames t5
      refine Kept.cut (a := t5) ?_ fun _ => ?_
      · unfold t5; clear t5
        apply keeps_heard
        assumption
      clear_value t5
      extract_lets +onlyGivenNames t6
      refine Kept.have_ (P := ∀ b0, Kept s₀ b0 → Kept s₀ (t6 b0)) ?_ fun hg7 => ?_
      · unfold t6; clear t6
        intro a8 a9
        apply keeps_claimCopy
        assumption
      clear_value t6
      split
      · refine Kept.ite ?_ ?_
        · apply hg7
          assumption
        · refine Kept.ite ?_ ?_
          · apply hg7
            apply keeps_ownBest
            assumption
          · apply hg7
            apply keeps_claimNow
            apply keeps_toMuster
            assumption
      · apply hg7
        assumption
      · apply hg7
        assumption
      · assumption

theorem keeps_execStandin {s₀ : State} (dir : Fin 4) (src : Fin 2048) (claimw : ℕ) (part : ℕ) (nonce : ℕ) (epoch : ℕ) (hops : ℕ) (wrapped : Bool) (s : State) (h0 : Kept s₀ s) :
    ∃ out, execStandin dir src claimw part nonce epoch hops wrapped s = .next out ∧ Kept s₀ out := by
  unfold execStandin
  extract_lets +onlyGivenNames t1
  clear_value t1
  refine ⟨_, rfl, ?_⟩
  apply keeps_byShepherd
  · assumption
  · intro a2 a3
    refine Kept.ite ?_ ?_
    · assumption
    · extract_lets +onlyGivenNames t4
      clear_value t4
      extract_lets +onlyGivenNames t5
      clear_value t5
      extract_lets +onlyGivenNames t6
      refine Kept.cut (a := t6) ?_ fun _ => ?_
      · unfold t6; clear t6
        apply keeps_seeEpoch
        apply keeps_heard
        assumption
      clear_value t6
      extract_lets +onlyGivenNames t7
      refine Kept.have_ (P := ∀ b0, Kept s₀ b0 → Kept s₀ (t7 b0)) ?_ fun hg8 => ?_
      · unfold t7; clear t7
        intro a9 a10
        apply keeps_claimCopy
        assumption
      clear_value t7
      split
      · refine Kept.ite ?_ ?_
        · apply hg8
          assumption
        · refine Kept.ite ?_ ?_
          · apply hg8
            refine Kept.ite ?_ ?_
            · assumption
            · refine Kept.of_eq rfl rfl rfl rfl rfl rfl rfl rfl rfl rfl rfl rfl ?_
              assumption
          · assumption
      · refine Kept.ite ?_ ?_
        · apply hg8
          apply keeps_standinNow
          apply keeps_toMuster
          assumption
        · apply hg8
          apply keeps_ownBest
          assumption
      · apply hg8
        assumption
      · apply hg8
        assumption
      · assumption

theorem keeps_execClaimListenExpiry {s₀ : State} (s : State) (h0 : Kept s₀ s) :
    ∃ out, execClaimListenExpiry s = .next out ∧ Kept s₀ out := by
  unfold execClaimListenExpiry
  refine ⟨_, rfl, ?_⟩
  apply keeps_byShepherd
  · assumption
  · intro a1 a2
    refine Kept.ite ?_ ?_
    · apply keeps_claimNow
      apply keeps_toMuster
      assumption
    · assumption

theorem keeps_execElectLimitExpiry {s₀ : State} (s : State) (h0 : Kept s₀ s) :
    ∃ out, execElectLimitExpiry s = .next out ∧ Kept s₀ out := by
  unfold execElectLimitExpiry
  refine ⟨_, rfl, ?_⟩
  apply keeps_byShepherd
  · assumption
  · intro a1 a2
    refine Kept.ite ?_ ?_
    · apply keeps_claimNow
      apply keeps_toMuster
      assumption
    · assumption

theorem keeps_execClaimRepeatExpiry {s₀ : State} (s : State) (h0 : Kept s₀ s) :
    ∃ out, execClaimRepeatExpiry s = .next out ∧ Kept s₀ out := by
  unfold execClaimRepeatExpiry
  refine ⟨_, rfl, ?_⟩
  apply keeps_byShepherd
  · assumption
  · intro a1 a2
    refine Kept.ite ?_ ?_
    · apply keeps_sendClaim
      assumption
    · assumption

theorem keeps_firstCopy {s₀ : State} (s : State) (src : ℕ) (kind : ℕ) (type : ℕ) (w5 : ℕ) (h0 : Kept s₀ s) :
    KeptO s₀ (State.firstCopy s src kind type w5) := by
  unfold State.firstCopy
  extract_lets +onlyGivenNames t1
  refine KeptO.ite ?_ ?_
  · exact KeptO.none
  · refine KeptO.some ?_
    refine Kept.of_eq rfl rfl rfl rfl rfl rfl rfl rfl rfl rfl rfl rfl ?_
    assumption

theorem keeps_firstJoin {s₀ : State} (s : State) (src : ℕ) (h0 : Kept s₀ s) :
    KeptO s₀ (State.firstJoin s src) := by
  unfold State.firstJoin
  extract_lets +onlyGivenNames t1
  clear_value t1
  extract_lets +onlyGivenNames t2
  clear_value t2
  refine KeptO.ite ?_ ?_
  · exact KeptO.none
  · refine KeptO.some ?_
    refine Kept.of_eq rfl rfl rfl rfl rfl rfl rfl rfl rfl rfl rfl rfl ?_
    assumption

theorem keeps_enterJoining {s₀ : State} (s : State) (h0 : Kept s₀ s) :
    Kept s₀ (State.enterJoining s) := by
  unfold State.enterJoining
  apply keeps_broadcast
  apply keeps_memberClock
  refine Kept.of_eq rfl rfl rfl rfl rfl rfl rfl rfl rfl rfl rfl rfl ?_
  assumption

theorem keeps_answer {s₀ : State} (s : State) (h0 : Kept s₀ s) :
    Kept s₀ (State.answer s) := by
  unfold State.answer
  split
  · refine Kept.ite ?_ ?_
    · apply keeps_unicastBoth
      refine Kept.of_eq rfl rfl rfl rfl rfl rfl rfl rfl rfl rfl rfl rfl ?_
      assumption
    · apply keeps_unicastBoth
      refine Kept.of_eq rfl rfl rfl rfl rfl rfl rfl rfl rfl rfl rfl rfl ?_
      assumption
  · assumption

theorem keeps_answerOpen {s₀ : State} (s : State) (h0 : Kept s₀ s) :
    Kept s₀ (State.answerOpen s) := by
  unfold State.answerOpen
  refine Kept.ite ?_ ?_
  · apply keeps_answer
    assumption
  · assumption

theorem keeps_execMusterHello {s₀ : State} (l : Fin 4) (src : Fin 2048) (epoch : ℕ) (s : State) (h0 : Kept s₀ s) :
    ∃ out, execMusterHello l src epoch s = .next out ∧ Kept s₀ out := by
  unfold execMusterHello
  refine ⟨_, rfl, ?_⟩
  apply keeps_byShepherd
  · assumption
  · intro a1 a2
    refine Kept.ite ?_ ?_
    · assumption
    · extract_lets +onlyGivenNames t3
      refine Kept.cut (a := t3) ?_ fun _ => ?_
      · unfold t3; clear t3
        apply keeps_seeEpoch
        apply keeps_heard
        assumption
      clear_value t3
      refine Kept.ite ?_ ?_
      · refine Kept.of_eq rfl rfl rfl rfl rfl rfl rfl rfl rfl rfl rfl rfl ?_
        assumption
      · assumption

theorem keeps_execRoster {s₀ : State} (src : Fin 2048) (claimw : ℕ) (west : Option (Fin 2048)) (d : List (Option ℕ)) (epoch : ℕ) (s : State) (h0 : Kept s₀ s) :
    ∃ out, execRoster src claimw west d epoch s = .next out ∧ Kept s₀ out := by
  unfold execRoster
  refine ⟨_, rfl, ?_⟩
  apply keeps_byShepherd
  · assumption
  · intro a1 a2
    extract_lets +onlyGivenNames t3
    refine Kept.cut (a := t3) ?_ fun _ => ?_
    · unfold t3; clear t3
      apply keeps_seeEpoch
      assumption
    clear_value t3
    refine Kept.ite ?_ ?_
    · apply keeps_syntonise
      apply keeps_repath
      refine Kept.of_eq rfl rfl rfl rfl rfl rfl rfl rfl rfl rfl rfl rfl ?_
      assumption
    · assumption

theorem keeps_setMaster {s₀ : State} (s : State) (src : ℕ) (h0 : Kept s₀ s) :
    Kept s₀ (State.setMaster s src) := by
  unfold State.setMaster
  extract_lets +onlyGivenNames t1
  clear_value t1
  apply keeps_memberClock
  refine Kept.of_eq rfl rfl rfl rfl rfl rfl rfl rfl rfl rfl rfl rfl ?_
  assumption

theorem keeps_takeSet {s₀ : State} (s : State) (src : ℕ) (epoch : ℕ) (p : ℕ) (f : ℕ) (start : ℕ) (h0 : Kept s₀ s) :
    Kept s₀ (State.takeSet s src epoch p f start) := by
  unfold State.takeSet
  extract_lets +onlyGivenNames t1
  refine Kept.have_ (P := ∀ b0, Kept s₀ b0 → Kept s₀ (t1 b0)) ?_ fun hg2 => ?_
  · unfold t1; clear t1
    intro a3 a4
    apply keeps_takeEpoch
    apply keeps_newGrid
    apply keeps_setMaster
    assumption
  clear_value t1
  split
  · apply hg2
    apply keeps_enterJoining
    assumption
  · apply hg2
    refine Kept.of_eq rfl rfl rfl rfl rfl rfl rfl rfl rfl rfl rfl rfl ?_
    assumption
  · refine Kept.ite ?_ ?_
    · assumption
    · apply hg2
      refine Kept.of_eq rfl rfl rfl rfl rfl rfl rfl rfl rfl rfl rfl rfl ?_
      assumption
  · refine Kept.ite ?_ ?_
    · assumption
    · apply hg2
      refine Kept.of_eq rfl rfl rfl rfl rfl rfl rfl rfl rfl rfl rfl rfl ?_
      assumption
  · refine Kept.ite ?_ ?_
    · assumption
    · apply hg2
      refine Kept.of_eq rfl rfl rfl rfl rfl rfl rfl rfl rfl rfl rfl rfl ?_
      assumption
  · refine Kept.ite ?_ ?_
    · assumption
    · apply keeps_takeEpoch
      assumption
  · refine Kept.ite ?_ ?_
    · assumption
    · apply keeps_takeEpoch
      assumption
  · assumption

theorem keeps_takeResume {s₀ : State} (s : State) (src : ℕ) (epoch : ℕ) (p : ℕ) (f : ℕ) (start : ℕ) (h0 : Kept s₀ s) :
    Kept s₀ (State.takeResume s src epoch p f start) := by
  unfold State.takeResume
  refine Kept.ite ?_ ?_
  · apply keeps_takeSet
    assumption
  · extract_lets +onlyGivenNames t1
    clear_value t1
    refine Kept.ite ?_ ?_
    · extract_lets +onlyGivenNames t2
      clear_value t2
      apply keeps_answerOpen
      apply keeps_memberClock
      refine Kept.of_eq rfl rfl rfl rfl rfl rfl rfl rfl rfl rfl rfl rfl ?_
      assumption
    · split
      · apply keeps_enterJoining
        assumption
      · assumption

theorem keeps_execSet {s₀ : State} (l : Fin 4) (src : Fin 2048) (epoch : ℕ) (resume : Bool) (p : ℕ) (first : ℕ) (start : ℕ) (stations : ℕ) (s : State) (h0 : Kept s₀ s) :
    ∃ out, execSet l src epoch resume p first start stations s = .next out ∧ Kept s₀ out := by
  unfold execSet
  extract_lets +onlyGivenNames t1
  clear_value t1
  refine ⟨_, rfl, ?_⟩
  apply keeps_byShepherd
  · assumption
  · intro a2 a3
    refine Kept.ite ?_ ?_
    · assumption
    · refine Kept.ite ?_ ?_
      · apply keeps_fire
        apply keeps_musterCount
        assumption
      · split
        · assumption
        · extract_lets +onlyGivenNames t4
          refine Kept.cut (a := t4) ?_ fun _ => ?_
          · unfold t4; clear t4
            apply keeps_seeEpoch
            refine KeptO.elim (by assumption) ?_
            apply keeps_firstCopy
            assumption
          clear_value t4
          refine Kept.ite ?_ ?_
          · apply keeps_takeResume
            assumption
          · apply keeps_takeSet
            assumption

theorem keeps_execJoin {s₀ : State} (src : Fin 2048) (epoch : ℕ) (s : State) (h0 : Kept s₀ s) :
    ∃ out, execJoin src epoch s = .next out ∧ Kept s₀ out := by
  unfold execJoin
  refine ⟨_, rfl, ?_⟩
  apply keeps_byShepherd
  · assumption
  · intro a1 a2
    refine Kept.ite ?_ ?_
    · assumption
    · split
      · assumption
      · split
        · refine KeptO.elim (by assumption) ?_
          apply keeps_firstJoin
          apply keeps_seeEpoch
          assumption
        · refine KeptO.elim (by assumption) ?_
          apply keeps_firstJoin
          apply keeps_seeEpoch
          assumption
        · apply keeps_wantRoster
          refine KeptO.elim (by assumption) ?_
          apply keeps_firstJoin
          apply keeps_seeEpoch
          assumption

theorem keeps_execJoinRepeatExpiry {s₀ : State} (s : State) (h0 : Kept s₀ s) :
    ∃ out, execJoinRepeatExpiry s = .next out ∧ Kept s₀ out := by
  unfold execJoinRepeatExpiry
  refine ⟨_, rfl, ?_⟩
  apply keeps_byShepherd
  · assumption
  · intro a1 a2
    refine Kept.ite ?_ ?_
    · apply keeps_broadcast
      assumption
    · assumption

theorem keeps_execReject {s₀ : State} (l : Fin 4) (src : Fin 2048) (reason : Fin 8) (s : State) (h0 : Kept s₀ s) :
    ∃ out, execReject l src reason s = .next out ∧ Kept s₀ out := by
  unfold execReject
  refine ⟨_, rfl, ?_⟩
  apply keeps_byShepherd
  · assumption
  · intro a1 a2
    refine Kept.ite ?_ ?_
    · apply keeps_fire
      assumption
    · apply keeps_fire
      apply keeps_musterCount
      assumption

theorem keeps_remusterNow {s₀ : State} (s : State) (h0 : Kept s₀ s) :
    Kept s₀ (State.remusterNow s) := by
  unfold State.remusterNow
  apply keeps_syntonise
  apply keeps_musterCount
  refine Kept.of_eq rfl rfl rfl rfl rfl rfl rfl rfl rfl rfl rfl rfl ?_
  assumption

theorem keeps_execRemuster {s₀ : State} (src : Fin 2048) (epoch : ℕ) (s : State) (h0 : Kept s₀ s) :
    ∃ out, execRemuster src epoch s = .next out ∧ Kept s₀ out := by
  unfold execRemuster
  refine ⟨_, rfl, ?_⟩
  apply keeps_byShepherd
  · assumption
  · intro a1 a2
    split
    · assumption
    · assumption
    · split
      · assumption
      · apply keeps_remusterNow
        refine Kept.of_eq rfl rfl rfl rfl rfl rfl rfl rfl rfl rfl rfl rfl ?_
        refine KeptO.elim (by assumption) ?_
        apply keeps_firstCopy
        assumption

theorem keeps_sendRemuster {s₀ : State} (s : State) (h0 : Kept s₀ s) :
    Kept s₀ (State.sendRemuster s) := by
  unfold State.sendRemuster
  apply keeps_remusterNow
  apply keeps_broadcast
  assumption

theorem keeps_remusterOp {s₀ : State} (s : State) (h0 : Kept s₀ s) :
    Kept s₀ (State.remusterOp s) := by
  unfold State.remusterOp
  split
  · apply keeps_abort
    assumption
  · apply keeps_abort
    assumption
  · apply keeps_sendRemuster
    assumption

theorem keeps_execRemusterCmd {s₀ : State} (s : State) (h0 : Kept s₀ s) :
    ∃ out, execRemusterCmd s = .next out ∧ Kept s₀ out := by
  unfold execRemusterCmd
  refine ⟨_, rfl, ?_⟩
  apply keeps_byShepherd
  · assumption
  · intro a1 a2
    apply keeps_remusterOp
    assumption

theorem keeps_joinTide {s₀ : State} (s : State) (src : ℕ) (epoch : ℕ) (claimw : ℕ) (f : ℕ) (p : ℕ) (acting : Bool) (h0 : Kept s₀ s) :
    Kept s₀ (State.joinTide s src epoch claimw f p acting) := by
  unfold State.joinTide
  extract_lets +onlyGivenNames t1
  clear_value t1
  extract_lets +onlyGivenNames t2
  clear_value t2
  extract_lets +onlyGivenNames t3
  refine Kept.cut (a := t3) ?_ fun _ => ?_
  · unfold t3; clear t3
    refine Kept.ite ?_ ?_
    · assumption
    · apply keeps_takeEpoch
      assumption
  clear_value t3
  extract_lets +onlyGivenNames t4
  extract_lets +onlyGivenNames t5
  refine Kept.cut (a := t5) ?_ fun _ => ?_
  · unfold t5; clear t5
    refine Kept.of_eq rfl rfl rfl rfl rfl rfl rfl rfl rfl rfl rfl rfl ?_
    assumption
  clear_value t5
  refine Kept.ite ?_ ?_
  · assumption
  · apply keeps_gridKnown
    refine Kept.of_eq rfl rfl rfl rfl rfl rfl rfl rfl rfl rfl rfl rfl ?_
    assumption

theorem keeps_masterTide {s₀ : State} (s : State) (src : ℕ) (epoch : ℕ) (claimw : ℕ) (f : ℕ) (p : ℕ) (acting : Bool) (h0 : Kept s₀ s) :
    Kept s₀ (State.masterTide s src epoch claimw f p acting) := by
  unfold State.masterTide
  extract_lets +onlyGivenNames t1
  refine Kept.ite ?_ ?_
  · refine Kept.ite ?_ ?_
    · apply keeps_sendRemuster
      apply keeps_fire
      assumption
    · assumption
  · refine Kept.ite ?_ ?_
    · refine Kept.ite ?_ ?_
      · refine Kept.of_eq rfl rfl rfl rfl rfl rfl rfl rfl rfl rfl rfl rfl ?_
        assumption
      · assumption
    · refine Kept.ite ?_ ?_
      · apply keeps_joinTide
        apply keeps_enterJoining
        assumption
      · assumption

theorem keeps_execTide {s₀ : State} (src : Fin 2048) (epoch : ℕ) (claimw : ℕ) (acting : Bool) (f : ℕ) (p : ℕ) (s : State) (h0 : Kept s₀ s) :
    ∃ out, execTide src epoch claimw acting f p s = .next out ∧ Kept s₀ out := by
  unfold execTide
  refine ⟨_, rfl, ?_⟩
  apply keeps_byShepherd
  · assumption
  · intro a1 a2
    refine Kept.ite ?_ ?_
    · assumption
    · split
      · assumption
      · extract_lets +onlyGivenNames t3
        extract_lets +onlyGivenNames t4
        refine Kept.cut (a := t4) ?_ fun _ => ?_
        · unfold t4; clear t4
          apply keeps_seeEpoch
          refine Kept.of_eq rfl rfl rfl rfl rfl rfl rfl rfl rfl rfl rfl rfl ?_
          refine KeptO.elim (by assumption) ?_
          apply keeps_firstCopy
          assumption
        clear_value t4
        split
        · apply keeps_joinTide
          apply keeps_enterJoining
          assumption
        · apply keeps_joinTide
          assumption
        · refine Kept.ite ?_ ?_
          · apply keeps_masterTide
            assumption
          · refine Kept.ite ?_ ?_
            · assumption
            · refine Kept.ite ?_ ?_
              · apply keeps_syntonise
                refine Kept.of_eq rfl rfl rfl rfl rfl rfl rfl rfl rfl rfl rfl rfl ?_
                assumption
              · apply keeps_syntonise
                refine Kept.of_eq rfl rfl rfl rfl rfl rfl rfl rfl rfl rfl rfl rfl ?_
                assumption
        · refine Kept.ite ?_ ?_
          · apply keeps_masterTide
            assumption
          · refine Kept.ite ?_ ?_
            · assumption
            · refine Kept.ite ?_ ?_
              · apply keeps_syntonise
                refine Kept.of_eq rfl rfl rfl rfl rfl rfl rfl rfl rfl rfl rfl rfl ?_
                assumption
              · apply keeps_syntonise
                refine Kept.of_eq rfl rfl rfl rfl rfl rfl rfl rfl rfl rfl rfl rfl ?_
                assumption
        · assumption

theorem keeps_execTideMasterLoss {s₀ : State} (s : State) (h0 : Kept s₀ s) :
    ∃ out, execTideMasterLoss s = .next out ∧ Kept s₀ out := by
  unfold execTideMasterLoss
  refine ⟨_, rfl, ?_⟩
  apply keeps_byShepherd
  · assumption
  · intro a1 a2
    refine Kept.ite ?_ ?_
    · extract_lets +onlyGivenNames t3
      extract_lets +onlyGivenNames t4
      extract_lets +onlyGivenNames t5
      refine Kept.cut (a := t5) ?_ fun _ => ?_
      · unfold t5; clear t5
        refine Kept.of_eq rfl rfl rfl rfl rfl rfl rfl rfl rfl rfl rfl rfl ?_
        assumption
      clear_value t5
      apply keeps_syntonise
      apply keeps_standinNow
      assumption
    · assumption

theorem keeps_cancelNow {s₀ : State} (s : State) (reason : ℕ) (vetoer : ℕ) (h0 : Kept s₀ s) :
    Kept s₀ (State.cancelNow s reason vetoer) := by
  unfold State.cancelNow
  extract_lets +onlyGivenNames t1
  refine Kept.cut (a := t1) ?_ fun _ => ?_
  · unfold t1; clear t1
    apply keeps_broadcast
    assumption
  clear_value t1
  apply keeps_fire
  refine Kept.of_eq rfl rfl rfl rfl rfl rfl rfl rfl rfl rfl rfl rfl ?_
  assumption

theorem keeps_holdoutNow {s₀ : State} (s : State) (kind : ℕ) (st : ℕ) (count : ℕ) (need : ℕ) (h0 : Kept s₀ s) :
    Kept s₀ (State.holdoutNow s kind st count need) := by
  unfold State.holdoutNow
  extract_lets +onlyGivenNames t1
  clear_value t1
  apply keeps_fire
  refine Kept.of_eq rfl rfl rfl rfl rfl rfl rfl rfl rfl rfl rfl rfl ?_
  assumption

theorem keeps_countVeto {s₀ : State} (s : State) (st : ℕ) (need : ℕ) (h0 : Kept s₀ s) :
    Kept s₀ (State.countVeto s st need) := by
  unfold State.countVeto
  extract_lets +onlyGivenNames t1
  clear_value t1
  refine Kept.ite ?_ ?_
  · apply keeps_holdoutNow
    refine Kept.of_eq rfl rfl rfl rfl rfl rfl rfl rfl rfl rfl rfl rfl ?_
    assumption
  · refine Kept.of_eq rfl rfl rfl rfl rfl rfl rfl rfl rfl rfl rfl rfl ?_
    assumption

theorem keeps_tryCommit {s₀ : State} (s : State) (h0 : Kept s₀ s) :
    Kept s₀ (State.tryCommit s) := by
  unfold State.tryCommit
  refine Kept.ite ?_ ?_
  · extract_lets +onlyGivenNames t1
    clear_value t1
    extract_lets +onlyGivenNames t2
    refine Kept.cut (a := t2) ?_ fun _ => ?_
    · unfold t2; clear t2
      apply keeps_broadcast
      assumption
    clear_value t2
    refine Kept.of_eq rfl rfl rfl rfl rfl rfl rfl rfl rfl rfl rfl rfl ?_
    assumption
  · assumption

theorem keeps_consentOf {s₀ : State} (s : State) (st : ℕ) (h0 : Kept s₀ s) :
    Kept s₀ (State.consentOf s st) := by
  unfold State.consentOf
  apply keeps_tryCommit
  refine Kept.of_eq rfl rfl rfl rfl rfl rfl rfl rfl rfl rfl rfl rfl ?_
  assumption

theorem keeps_vetoOf {s₀ : State} (s : State) (st : ℕ) (need : ℕ) (h0 : Kept s₀ s) :
    Kept s₀ (State.vetoOf s st need) := by
  unfold State.vetoOf
  split
  · apply keeps_cancelNow
    apply keeps_countVeto
    assumption
  · refine Kept.ite ?_ ?_
    · apply keeps_cancelNow
      apply keeps_countVeto
      assumption
    · apply keeps_countVeto
      assumption
  · assumption

theorem keeps_roundNow {s₀ : State} (s : State) (h0 : Kept s₀ s) :
    Kept s₀ (State.roundNow s) := by
  unfold State.roundNow
  extract_lets +onlyGivenNames t1
  clear_value t1
  extract_lets +onlyGivenNames t2
  extract_lets +onlyGivenNames t3
  refine Kept.cut (a := t3) ?_ fun _ => ?_
  · unfold t3; clear t3
    refine Kept.of_eq rfl rfl rfl rfl rfl rfl rfl rfl rfl rfl rfl rfl ?_
    assumption
  clear_value t3
  extract_lets +onlyGivenNames t4
  refine Kept.cut (a := t4) ?_ fun _ => ?_
  · unfold t4; clear t4
    apply keeps_broadcast
    assumption
  clear_value t4
  extract_lets +onlyGivenNames t5
  extract_lets +onlyGivenNames t6
  refine Kept.cut (a := t6) ?_ fun _ => ?_
  · unfold t6; clear t6
    refine Kept.of_eq rfl rfl rfl rfl rfl rfl rfl rfl rfl rfl rfl rfl ?_
    assumption
  clear_value t6
  refine Kept.ite ?_ ?_
  · apply keeps_consentOf
    assumption
  · apply keeps_vetoOf
    refine Kept.of_eq rfl rfl rfl rfl rfl rfl rfl rfl rfl rfl rfl rfl ?_
    assumption

theorem keeps_startRoundOp {s₀ : State} (s : State) (h0 : Kept s₀ s) :
    Kept s₀ (State.startRoundOp s) := by
  unfold State.startRoundOp
  refine Kept.ite ?_ ?_
  · apply keeps_roundNow
    assumption
  · apply keeps_abort
    assumption

theorem keeps_execStartRound {s₀ : State} (s : State) (h0 : Kept s₀ s) :
    ∃ out, execStartRound s = .next out ∧ Kept s₀ out := by
  unfold execStartRound
  refine ⟨_, rfl, ?_⟩
  apply keeps_byShepherd
  · assumption
  · intro a1 a2
    apply keeps_startRoundOp
    assumption

theorem keeps_cancelRoundOp {s₀ : State} (s : State) (h0 : Kept s₀ s) :
    Kept s₀ (State.cancelRoundOp s) := by
  unfold State.cancelRoundOp
  refine Kept.ite ?_ ?_
  · apply keeps_cancelNow
    assumption
  · apply keeps_abort
    assumption

theorem keeps_execCancelRound {s₀ : State} (s : State) (h0 : Kept s₀ s) :
    ∃ out, execCancelRound s = .next out ∧ Kept s₀ out := by
  unfold execCancelRound
  refine ⟨_, rfl, ?_⟩
  apply keeps_byShepherd
  · assumption
  · intro a1 a2
    apply keeps_cancelRoundOp
    assumption

theorem keeps_execRoundIntervalExpiry {s₀ : State} (s : State) (h0 : Kept s₀ s) :
    ∃ out, execRoundIntervalExpiry s = .next out ∧ Kept s₀ out := by
  unfold execRoundIntervalExpiry
  refine ⟨_, rfl, ?_⟩
  apply keeps_byShepherd
  · assumption
  · intro a1 a2
    refine Kept.ite ?_ ?_
    · apply keeps_roundNow
      assumption
    · assumption

theorem keeps_execRoundLimitExpiry {s₀ : State} (s : State) (h0 : Kept s₀ s) :
    ∃ out, execRoundLimitExpiry s = .next out ∧ Kept s₀ out := by
  unfold execRoundLimitExpiry
  refine ⟨_, rfl, ?_⟩
  apply keeps_byShepherd
  · assumption
  · intro a1 a2
    refine Kept.ite ?_ ?_
    · apply keeps_cancelNow
      assumption
    · assumption

theorem keeps_execRound {s₀ : State} (src : Fin 2048) (n : ℕ) (s : State) (h0 : Kept s₀ s) :
    ∃ out, execRound src n s = .next out ∧ Kept s₀ out := by
  unfold execRound
  refine ⟨_, rfl, ?_⟩
  apply keeps_byShepherd
  · assumption
  · intro a1 a2
    refine Kept.ite ?_ ?_
    · assumption
    · split
      · assumption
      · extract_lets +onlyGivenNames t3
        extract_lets +onlyGivenNames t4
        refine Kept.cut (a := t4) ?_ fun _ => ?_
        · unfold t4; clear t4
          refine Kept.of_eq rfl rfl rfl rfl rfl rfl rfl rfl rfl rfl rfl rfl ?_
          refine KeptO.elim (by assumption) ?_
          apply keeps_firstCopy
          assumption
        clear_value t4
        split
        · apply keeps_answer
          assumption
        · assumption
        · assumption
        · assumption
        · assumption
        · refine KeptO.elim (by assumption) ?_
          apply keeps_firstCopy
          assumption

theorem keeps_execConsent {s₀ : State} (src : Fin 2048) (n : ℕ) (s : State) (h0 : Kept s₀ s) :
    ∃ out, execConsent src n s = .next out ∧ Kept s₀ out := by
  unfold execConsent
  refine ⟨_, rfl, ?_⟩
  apply keeps_byShepherd
  · assumption
  · intro a1 a2
    refine Kept.ite ?_ ?_
    · apply keeps_consentOf
      assumption
    · assumption

theorem keeps_execVeto {s₀ : State} (src : Fin 2048) (n : ℕ) (need : ℕ) (s : State) (h0 : Kept s₀ s) :
    ∃ out, execVeto src n need s = .next out ∧ Kept s₀ out := by
  unfold execVeto
  refine ⟨_, rfl, ?_⟩
  apply keeps_byShepherd
  · assumption
  · intro a1 a2
    refine Kept.ite ?_ ?_
    · apply keeps_vetoOf
      assumption
    · assumption

theorem keeps_execCommit {s₀ : State} (l : Fin 4) (src : Fin 2048) (n : ℕ) (ebbAt : ℕ) (s : State) (h0 : Kept s₀ s) :
    ∃ out, execCommit l src n ebbAt s = .next out ∧ Kept s₀ out := by
  unfold execCommit
  refine ⟨_, rfl, ?_⟩
  apply keeps_byShepherd
  · assumption
  · intro a1 a2
    refine Kept.ite ?_ ?_
    · apply keeps_fire
      apply keeps_musterCount
      assumption
    · refine Kept.ite ?_ ?_
      · split
        · assumption
        · refine Kept.of_eq rfl rfl rfl rfl rfl rfl rfl rfl rfl rfl rfl rfl ?_
          refine KeptO.elim (by assumption) ?_
          apply keeps_firstCopy
          assumption
      · assumption

theorem keeps_execCancel {s₀ : State} (l : Fin 4) (src : Fin 2048) (n : ℕ) (reason : Fin 8) (vetoer : Fin 2048) (s : State) (h0 : Kept s₀ s) :
    ∃ out, execCancel l src n reason vetoer s = .next out ∧ Kept s₀ out := by
  unfold execCancel
  refine ⟨_, rfl, ?_⟩
  apply keeps_byShepherd
  · assumption
  · intro a1 a2
    refine Kept.ite ?_ ?_
    · apply keeps_fire
      apply keeps_musterCount
      assumption
    · refine Kept.ite ?_ ?_
      · assumption
      · split
        · assumption
        · apply keeps_fire
          refine Kept.of_eq rfl rfl rfl rfl rfl rfl rfl rfl rfl rfl rfl rfl ?_
          refine KeptO.elim (by assumption) ?_
          apply keeps_firstCopy
          assumption

theorem keeps_execFlood {s₀ : State} (src : Fin 2048) (beacons : ℕ) (s : State) (h0 : Kept s₀ s) :
    ∃ out, execFlood src beacons s = .next out ∧ Kept s₀ out := by
  unfold execFlood
  refine ⟨_, rfl, ?_⟩
  apply keeps_byShepherd
  · assumption
  · intro a1 a2
    refine Kept.ite ?_ ?_
    · assumption
    · split
      · assumption
      · extract_lets +onlyGivenNames t1
        clear_value t1
        extract_lets +onlyGivenNames t2
        clear_value t2
        extract_lets +onlyGivenNames t3
        extract_lets +onlyGivenNames t4
        refine Kept.cut (a := t4) ?_ fun _ => ?_
        · unfold t4; clear t4
          refine Kept.of_eq rfl rfl rfl rfl rfl rfl rfl rfl rfl rfl rfl rfl ?_
          refine KeptO.elim (by assumption) ?_
          apply keeps_firstCopy
          assumption
        refine Kept.ite ?_ ?_
        · refine Kept.of_eq rfl rfl rfl rfl rfl rfl rfl rfl rfl rfl rfl rfl ?_
          assumption
        · assumption

theorem keeps_execFloodBeaconExpiry {s₀ : State} (s : State) (h0 : Kept s₀ s) :
    ∃ out, execFloodBeaconExpiry s = .next out ∧ Kept s₀ out := by
  unfold execFloodBeaconExpiry
  refine ⟨_, rfl, ?_⟩
  apply keeps_byShepherd
  · assumption
  · intro a1 a2
    refine Kept.ite ?_ ?_
    · extract_lets +onlyGivenNames t1
      clear_value t1
      apply keeps_broadcast
      refine Kept.of_eq rfl rfl rfl rfl rfl rfl rfl rfl rfl rfl rfl rfl ?_
      assumption
    · assumption

theorem keeps_execFloodQuietExpiry {s₀ : State} (s : State) (h0 : Kept s₀ s) :
    ∃ out, execFloodQuietExpiry s = .next out ∧ Kept s₀ out := by
  unfold execFloodQuietExpiry
  refine ⟨_, rfl, ?_⟩
  apply keeps_byShepherd
  · assumption
  · intro a1 a2
    refine Kept.ite ?_ ?_
    · refine Kept.of_eq rfl rfl rfl rfl rfl rfl rfl rfl rfl rfl rfl rfl ?_
      assumption
    · assumption

theorem keeps_execWakePatternRepeatExpiry {s₀ : State} (l : Fin 4) (s : State) (h0 : Kept s₀ s) :
    ∃ out, execWakePatternRepeatExpiry l s = .next out ∧ Kept s₀ out := by
  unfold execWakePatternRepeatExpiry
  refine ⟨_, rfl, ?_⟩
  refine Kept.ite ?_ ?_
  · apply keeps_emit
    assumption
  · assumption

theorem keeps_execBeaconLimitExpiry {s₀ : State} (st : Fin 2048) (s : State) (h0 : Kept s₀ s) :
    ∃ out, execBeaconLimitExpiry st s = .next out ∧ Kept s₀ out := by
  unfold execBeaconLimitExpiry
  refine ⟨_, rfl, ?_⟩
  apply keeps_byShepherd
  · assumption
  · intro a1 a2
    split
    · apply keeps_holdoutNow
      refine Kept.of_eq rfl rfl rfl rfl rfl rfl rfl rfl rfl rfl rfl rfl ?_
      assumption
    · assumption

theorem keeps_noteWake {s₀ : State} (s : State) (cause : ℕ) (l : ℕ) (h0 : Kept s₀ s) :
    Kept s₀ (State.noteWake s cause l) := by
  unfold State.noteWake
  apply keeps_fire
  refine Kept.of_eq rfl rfl rfl rfl rfl rfl rfl rfl rfl rfl rfl rfl ?_
  assumption

theorem keeps_wakeNow {s₀ : State} (s : State) (cause : ℕ) (l : ℕ) (h0 : Kept s₀ s) :
    Kept s₀ (State.wakeNow s cause l) := by
  unfold State.wakeNow
  extract_lets +onlyGivenNames t1
  refine Kept.cut (a := t1) ?_ fun _ => ?_
  · unfold t1; clear t1
    apply keeps_noteWake
    assumption
  clear_value t1
  extract_lets +onlyGivenNames t2
  extract_lets +onlyGivenNames t3
  extract_lets +onlyGivenNames t4
  refine Kept.cut (a := t4) ?_ fun _ => ?_
  · unfold t4; clear t4
    refine Kept.of_eq rfl rfl rfl rfl rfl rfl rfl rfl rfl rfl rfl rfl ?_
    assumption
  clear_value t4
  refine Kept.fold ?_ ?_
  · intro a5 a6 a7
    refine Kept.ite ?_ ?_
    · assumption
    · apply keeps_emit
      assumption
  · assumption

theorem keeps_execWakeInput {s₀ : State} (active : Bool) (s : State) (h0 : Kept s₀ s) :
    ∃ out, execWakeInput active s = .next out ∧ Kept s₀ out := by
  unfold execWakeInput
  refine ⟨_, rfl, ?_⟩
  refine Kept.ite ?_ ?_
  · apply keeps_wakeNow
    refine Kept.of_eq rfl rfl rfl rfl rfl rfl rfl rfl rfl rfl rfl rfl ?_
    assumption
  · refine Kept.of_eq rfl rfl rfl rfl rfl rfl rfl rfl rfl rfl rfl rfl ?_
    assumption

theorem keeps_execWakePatternDetected {s₀ : State} (l : Fin 4) (s : State) (h0 : Kept s₀ s) :
    ∃ out, execWakePatternDetected l s = .next out ∧ Kept s₀ out := by
  unfold execWakePatternDetected
  refine ⟨_, rfl, ?_⟩
  refine Kept.ite ?_ ?_
  · apply keeps_wakeNow
    assumption
  · assumption

theorem keeps_execResumeWaitExpiry {s₀ : State} (s : State) (h0 : Kept s₀ s) :
    ∃ out, execResumeWaitExpiry s = .next out ∧ Kept s₀ out := by
  unfold execResumeWaitExpiry
  refine ⟨_, rfl, ?_⟩
  apply keeps_byShepherd
  · assumption
  · intro a1 a2
    refine Kept.ite ?_ ?_
    · apply keeps_resume
      assumption
    · assumption

theorem keeps_execResumeLimitExpiry {s₀ : State} (s : State) (h0 : Kept s₀ s) :
    ∃ out, execResumeLimitExpiry s = .next out ∧ Kept s₀ out := by
  unfold execResumeLimitExpiry
  refine ⟨_, rfl, ?_⟩
  apply keeps_byShepherd
  · assumption
  · intro a1 a2
    refine Kept.ite ?_ ?_
    · apply keeps_standinNow
      apply keeps_toMuster
      assumption
    · assumption

theorem keeps_ebbedNow {s₀ : State} (s : State) (h0 : Kept s₀ s) :
    Kept s₀ (State.ebbedNow s) := by
  unfold State.ebbedNow
  refine Kept.of_eq rfl rfl rfl rfl rfl rfl rfl rfl rfl rfl rfl rfl ?_
  assumption

theorem keeps_linkRise {s₀ : State} (s : State) (l : ℕ) (h0 : Kept s₀ s) :
    Kept s₀ (State.linkRise s l) := by
  unfold State.linkRise
  extract_lets +onlyGivenNames t1
  clear_value t1
  refine Kept.ite ?_ ?_
  · extract_lets +onlyGivenNames t2
    clear_value t2
    extract_lets +onlyGivenNames t3
    refine Kept.cut (a := t3) ?_ fun _ => ?_
    · unfold t3; clear t3
      apply keeps_setLink
      assumption
    clear_value t3
    refine Kept.ite ?_ ?_
    · apply keeps_reportLink
      assumption
    · extract_lets +onlyGivenNames t4
      refine Kept.cut (a := t4) ?_ fun _ => ?_
      · unfold t4; clear t4
        apply keeps_byShepherd
        · assumption
        · intro a5 a6
          refine Kept.ite ?_ ?_
          · assumption
          · split
            apply keeps_ownOut
            refine Kept.ofEq (by assumption) ?_
            apply keeps_nextSeq
            assumption
      clear_value t4
      extract_lets +onlyGivenNames t7
      refine Kept.cut (a := t7) ?_ fun _ => ?_
      · unfold t7; clear t7
        apply keeps_reportLink
        assumption
      clear_value t7
      refine Kept.ite ?_ ?_
      · apply keeps_toMuster
        assumption
      · assumption
  · assumption

theorem keeps_joinTurn {s₀ : State} (s : State) (h0 : Kept s₀ s) :
    Kept s₀ (State.joinTurn s) := by
  unfold State.joinTurn
  refine Kept.ite ?_ ?_
  · extract_lets +onlyGivenNames t1
    extract_lets +onlyGivenNames t2
    refine Kept.cut (a := t2) ?_ fun _ => ?_
    · unfold t2; clear t2
      refine Kept.of_eq rfl rfl rfl rfl rfl rfl rfl rfl rfl rfl rfl rfl ?_
      assumption
    refine Kept.ite ?_ ?_
    · apply keeps_answer
      assumption
    · assumption
  · assumption

theorem keeps_tideCell {s₀ : State} (s : State) (h0 : Kept s₀ s) :
    Kept s₀ (State.tideCell s) := by
  unfold State.tideCell
  refine Kept.ite ?_ ?_
  · apply keeps_memberClock
    refine Kept.of_eq rfl rfl rfl rfl rfl rfl rfl rfl rfl rfl rfl rfl ?_
    assumption
  · refine Kept.ite ?_ ?_
    · apply keeps_broadcast
      assumption
    · assumption

theorem keeps_linksTurn {s₀ : State} (s : State) (h0 : Kept s₀ s) :
    Kept s₀ (State.linksTurn s) := by
  unfold State.linksTurn
  extract_lets +onlyGivenNames t1
  refine Kept.cut (a := t1) ?_ fun _ => ?_
  · unfold t1; clear t1
    refine Kept.fold ?_ ?_
    · intro a1 a2 a3
      apply keeps_linkRise
      assumption
    · assumption
  clear_value t1
  refine Kept.fold ?_ ?_
  · intro a4 a5 a6
    apply keeps_phaseLink
    assumption
  · assumption

end Sys2Proof.Laws
end

