-- ==== Sys2Proof/Laws/KeepPair.lean ====
section
/-! SUPPORT. What each operation of Machine/Pair.lean keeps (Laws/Kept.lean). -/

open Sys2Proof Sys2Proof.Machine

namespace Sys2Proof.Laws

theorem keeps_pairCount {s₀ : State} (s : State) (k : ℕ) (h0 : Kept s₀ s) :
    Kept s₀ (State.pairCount s k) := by
  unfold State.pairCount
  apply keeps_bump
  assumption

theorem keeps_toPair {s₀ : State} (s : State) (p : PairState) (h0 : Kept s₀ s) :
    Kept s₀ (State.toPair s p) := by
  unfold State.toPair
  refine Kept.of_eq rfl rfl rfl rfl rfl rfl rfl rfl rfl rfl rfl rfl ?_
  assumption

theorem keeps_goActive {s₀ : State} (s : State) (claim : ℕ) (h0 : Kept s₀ s) :
    Kept s₀ (State.goActive s claim) := by
  unfold State.goActive
  apply keeps_fire
  apply keeps_pairCount
  extract_lets +onlyGivenNames t1
  refine Kept.cut (a := t1) ?_ fun _ => ?_
  · unfold t1; clear t1
    apply keeps_setClaim
    assumption
  clear_value t1
  refine Kept.of_eq rfl rfl rfl rfl rfl rfl rfl rfl rfl rfl rfl rfl ?_
  assumption

theorem keeps_execClaimFrameStart {s₀ : State} (s : State) (h0 : Kept s₀ s) :
    ∃ out, execClaimFrameStart s = .next out ∧ Kept s₀ out := by
  unfold execClaimFrameStart
  refine ⟨_, rfl, ?_⟩
  refine Kept.ite ?_ ?_
  · assumption
  · extract_lets +onlyGivenNames t1
    clear_value t1
    apply keeps_emit
    refine Kept.of_eq rfl rfl rfl rfl rfl rfl rfl rfl rfl rfl rfl rfl ?_
    assumption

theorem keeps_seeSwap {s₀ : State} (s : State) (claim : ℕ) (next : ℕ) (h0 : Kept s₀ s) :
    Kept s₀ (State.seeSwap s claim next) := by
  unfold State.seeSwap
  refine Kept.ite ?_ ?_
  · refine Kept.of_eq rfl rfl rfl rfl rfl rfl rfl rfl rfl rfl rfl rfl ?_
    assumption
  · assumption

theorem keeps_execClaimFrameReceived {s₀ : State} (claim : Fin 65536) (next : Fin 65536) (crc : Fin 256) (good : Bool) (turned : Bool) (s : State) (h0 : Kept s₀ s) :
    ∃ out, execClaimFrameReceived claim next crc good turned s = .next out ∧ Kept s₀ out := by
  unfold execClaimFrameReceived
  refine ⟨_, rfl, ?_⟩
  refine Kept.ite ?_ ?_
  · assumption
  · refine Kept.ite ?_ ?_
    · apply keeps_fire
      apply keeps_pairCount
      assumption
    · extract_lets +onlyGivenNames t1
      extract_lets +onlyGivenNames t2
      refine Kept.cut (a := t2) ?_ fun _ => ?_
      · unfold t2; clear t2
        refine Kept.of_eq rfl rfl rfl rfl rfl rfl rfl rfl rfl rfl rfl rfl ?_
        assumption
      clear_value t2
      apply keeps_seeSwap
      apply keeps_setRecord
      assumption

theorem keeps_execClaimInSilence {s₀ : State} (s : State) (h0 : Kept s₀ s) :
    ∃ out, execClaimInSilence s = .next out ∧ Kept s₀ out := by
  unfold execClaimInSilence
  refine ⟨_, rfl, ?_⟩
  refine Kept.ite ?_ ?_
  · assumption
  · extract_lets +onlyGivenNames t1
    clear_value t1
    extract_lets +onlyGivenNames t2
    refine Kept.cut (a := t2) ?_ fun _ => ?_
    · unfold t2; clear t2
      refine Kept.of_eq rfl rfl rfl rfl rfl rfl rfl rfl rfl rfl rfl rfl ?_
      assumption
    clear_value t2
    refine Kept.ite ?_ ?_
    · refine Kept.ite ?_ ?_
      · assumption
      · apply keeps_fire
        refine Kept.of_eq rfl rfl rfl rfl rfl rfl rfl rfl rfl rfl rfl rfl ?_
        assumption
    · apply keeps_setRecord
      assumption

theorem keeps_planTurn {s₀ : State} (s : State) (h0 : Kept s₀ s) :
    Kept s₀ (State.planTurn s) := by
  unfold State.planTurn
  split
  · assumption
  · refine Kept.ite ?_ ?_
    · assumption
    · split
      · refine Kept.ite ?_ ?_
        · apply keeps_goActive
          assumption
        · refine Kept.of_eq rfl rfl rfl rfl rfl rfl rfl rfl rfl rfl rfl rfl ?_
          assumption
      · refine Kept.ite ?_ ?_
        · extract_lets +onlyGivenNames t1
          refine Kept.cut (a := t1) ?_ fun _ => ?_
          · unfold t1; clear t1
            apply keeps_setClaim
            assumption
          clear_value t1
          refine Kept.of_eq rfl rfl rfl rfl rfl rfl rfl rfl rfl rfl rfl rfl ?_
          assumption
        · refine Kept.of_eq rfl rfl rfl rfl rfl rfl rfl rfl rfl rfl rfl rfl ?_
          assumption
      · refine Kept.ite ?_ ?_
        · extract_lets +onlyGivenNames t2
          refine Kept.cut (a := t2) ?_ fun _ => ?_
          · unfold t2; clear t2
            apply keeps_setClaim
            assumption
          clear_value t2
          refine Kept.of_eq rfl rfl rfl rfl rfl rfl rfl rfl rfl rfl rfl rfl ?_
          assumption
        · apply keeps_setRecord
          refine Kept.of_eq rfl rfl rfl rfl rfl rfl rfl rfl rfl rfl rfl rfl ?_
          assumption
      · refine Kept.ite ?_ ?_
        · apply keeps_goActive
          assumption
        · refine Kept.of_eq rfl rfl rfl rfl rfl rfl rfl rfl rfl rfl rfl rfl ?_
          assumption

theorem keeps_rebaseTurn {s₀ : State} (s : State) (h0 : Kept s₀ s) :
    Kept s₀ (State.rebaseTurn s) := by
  unfold State.rebaseTurn
  refine Kept.ite ?_ ?_
  · refine Kept.of_eq rfl rfl rfl rfl rfl rfl rfl rfl rfl rfl rfl rfl ?_
    assumption
  · assumption

theorem keeps_claimTurn {s₀ : State} (s : State) (h0 : Kept s₀ s) :
    Kept s₀ (State.claimTurn s) := by
  unfold State.claimTurn
  extract_lets +onlyGivenNames t1
  refine Kept.cut (a := t1) ?_ fun _ => ?_
  · unfold t1; clear t1
    split
    · refine Kept.ite ?_ ?_
      · assumption
      · extract_lets +onlyGivenNames t2
        refine Kept.cut (a := t2) ?_ fun _ => ?_
        · unfold t2; clear t2
          apply keeps_setRecord
          assumption
        clear_value t2
        refine Kept.of_eq rfl rfl rfl rfl rfl rfl rfl rfl rfl rfl rfl rfl ?_
        assumption
    · assumption
  clear_value t1
  apply keeps_rebaseTurn
  apply keeps_planTurn
  assumption

theorem keeps_pairEnable {s₀ : State} (s : State) (h0 : Kept s₀ s) :
    Kept s₀ (State.pairEnable s) := by
  unfold State.pairEnable
  refine Kept.ite ?_ ?_
  · refine Kept.ite ?_ ?_
    · apply keeps_toPair
      assumption
    · assumption
  · refine Kept.of_eq rfl rfl rfl rfl rfl rfl rfl rfl rfl rfl rfl rfl ?_
    assumption

theorem keeps_pairCell {s₀ : State} (s : State) (pay : List ℕ) (h0 : Kept s₀ s) :
    Kept s₀ (State.pairCell s pay) := by
  unfold State.pairCell
  refine Kept.ite ?_ ?_
  · split
    apply keeps_ownOut
    refine Kept.ofEq (by assumption) ?_
    apply keeps_nextSeq
    assumption
  · assumption

theorem keeps_sendHello {s₀ : State} (s : State) (h0 : Kept s₀ s) :
    Kept s₀ (State.sendHello s) := by
  unfold State.sendHello
  apply keeps_pairCell
  assumption

theorem keeps_formWith {s₀ : State} (s : State) (partner : ℕ) (h0 : Kept s₀ s) :
    Kept s₀ (State.formWith s partner) := by
  unfold State.formWith
  refine Kept.ite ?_ ?_
  · assumption
  · refine Kept.ite ?_ ?_
    · refine Kept.of_eq rfl rfl rfl rfl rfl rfl rfl rfl rfl rfl rfl rfl ?_
      assumption
    · refine Kept.ite ?_ ?_
      · refine Kept.ite ?_ ?_
        · apply keeps_goActive
          assumption
        · refine Kept.of_eq rfl rfl rfl rfl rfl rfl rfl rfl rfl rfl rfl rfl ?_
          assumption
      · assumption

theorem keeps_readItem {s₀ : State} (s : State) (up : Bool) (L : ℕ) (h0 : Kept s₀ s) :
    Kept s₀ (State.readItem s up L).1 := by
  unfold State.readItem
  split
  · dsimp only
    refine Kept.ofEq (by assumption) ?_
    apply keeps_unschedRead
    apply keeps_clientEnter
    assumption
  · dsimp only
    apply keeps_skipLine
    refine Kept.ofEq (by assumption) ?_
    apply keeps_unschedRead
    apply keeps_clientEnter
    assumption

theorem keeps_readItems {s₀ : State} (s : State) (x1 : List (Bool × ℕ)) (h0 : Kept s₀ s) :
    Kept s₀ (State.readItems s x1).1 := by
  induction x1 generalizing s with
  | nil =>
    unfold State.readItems
    dsimp only
    assumption
  | cons a l ih =>
    unfold State.readItems
    split
    split
    dsimp only
    refine Kept.ofEq (by assumption) ?_
    apply ih
    refine Kept.ofEq (by assumption) ?_
    apply keeps_readItem
    assumption

theorem keeps_resyncItems {s₀ : State} (s : State) (h0 : Kept s₀ s) :
    Kept s₀ (State.resyncItems s).1 := by
  unfold State.resyncItems
  extract_lets +onlyGivenNames t1
  clear_value t1
  split
  dsimp only
  refine Kept.ofEq (by assumption) ?_
  apply keeps_readItems
  assumption

theorem keeps_sendEpoch {s₀ : State} (s : State) (e : Epoch) (h0 : Kept s₀ s) :
    Kept s₀ (State.sendEpoch s e) := by
  unfold State.sendEpoch
  extract_lets +onlyGivenNames t1
  clear_value t1
  extract_lets +onlyGivenNames t2
  refine Kept.cut (a := t2) ?_ fun _ => ?_
  · unfold t2; clear t2
    refine Kept.fold ?_ ?_
    · intro a1 a2 a3
      apply keeps_pairCell
      assumption
    · assumption
  clear_value t2
  extract_lets +onlyGivenNames t3
  clear_value t3
  apply keeps_pairCell
  assumption

theorem keeps_closeEpoch {s₀ : State} (s : State) (h0 : Kept s₀ s) :
    Kept s₀ (State.closeEpoch s) := by
  unfold State.closeEpoch
  refine Kept.ite ?_ ?_
  · assumption
  · dsimp only
    apply keeps_sendEpoch
    refine Kept.of_eq rfl rfl rfl rfl rfl rfl rfl rfl rfl rfl rfl rfl ?_
    assumption

theorem keeps_startResync {s₀ : State} (s : State) (seq : ℕ) (h0 : Kept s₀ s) :
    Kept s₀ (State.startResync s seq) := by
  unfold State.startResync
  split
  apply keeps_closeEpoch
  refine Kept.of_eq rfl rfl rfl rfl rfl rfl rfl rfl rfl rfl rfl rfl ?_
  refine Kept.ofEq (by assumption) ?_
  apply keeps_resyncItems
  assumption

theorem keeps_mirrorTurn {s₀ : State} (s : State) (h0 : Kept s₀ s) :
    Kept s₀ (State.mirrorTurn s) := by
  unfold State.mirrorTurn
  refine Kept.ite ?_ ?_
  · assumption
  · refine Kept.ite ?_ ?_
    · apply keeps_startResync
      assumption
    · extract_lets +onlyGivenNames t1
      refine Kept.cut (a := t1) ?_ fun _ => ?_
      · unfold t1; clear t1
        apply keeps_closeEpoch
        apply keeps_closeEpoch
        assumption
      clear_value t1
      refine Kept.ite ?_ ?_
      · refine Kept.of_eq rfl rfl rfl rfl rfl rfl rfl rfl rfl rfl rfl rfl ?_
        assumption
      · assumption

theorem keeps_mirrorResume {s₀ : State} (s : State) (h0 : Kept s₀ s) :
    Kept s₀ (State.mirrorResume s) := by
  unfold State.mirrorResume
  refine Kept.ite ?_ ?_
  · refine Kept.fold ?_ ?_
    · intro a1 a2 a3
      apply keeps_sendEpoch
      assumption
    · assumption
  · assumption

theorem keeps_execPairAck {s₀ : State} (seq : ℕ) (s : State) (h0 : Kept s₀ s) :
    ∃ out, execPairAck seq s = .next out ∧ Kept s₀ out := by
  unfold execPairAck
  refine ⟨_, rfl, ?_⟩
  apply keeps_byShepherd
  · assumption
  · intro a1 a2
    refine Kept.ite ?_ ?_
    · apply keeps_closeEpoch
      refine Kept.of_eq rfl rfl rfl rfl rfl rfl rfl rfl rfl rfl rfl rfl ?_
      assumption
    · assumption

theorem keeps_execNak {s₀ : State} (seq : ℕ) (s : State) (h0 : Kept s₀ s) :
    ∃ out, execNak seq s = .next out ∧ Kept s₀ out := by
  unfold execNak
  refine ⟨_, rfl, ?_⟩
  apply keeps_byShepherd
  · assumption
  · intro a1 a2
    refine Kept.ite ?_ ?_
    · assumption
    · extract_lets +onlyGivenNames t3
      refine Kept.cut (a := t3) ?_ fun _ => ?_
      · unfold t3; clear t3
        apply keeps_pairCount
        assumption
      clear_value t3
      refine Kept.ite ?_ ?_
      · refine Kept.fold ?_ ?_
        · intro a4 a5 a6
          apply keeps_sendEpoch
          assumption
        · assumption
      · apply keeps_startResync
        assumption

theorem keeps_askResync {s₀ : State} (s : State) (h0 : Kept s₀ s) :
    Kept s₀ (State.askResync s) := by
  unfold State.askResync
  apply keeps_pairCell
  refine Kept.of_eq rfl rfl rfl rfl rfl rfl rfl rfl rfl rfl rfl rfl ?_
  assumption

theorem keeps_execMirror {s₀ : State} (seq : ℕ) (words : List Word) (s : State) (h0 : Kept s₀ s) :
    ∃ out, execMirror seq words s = .next out ∧ Kept s₀ out := by
  unfold execMirror
  refine ⟨_, rfl, ?_⟩
  refine Kept.ite ?_ ?_
  · assumption
  · refine Kept.ite ?_ ?_
    · assumption
    · refine Kept.ite ?_ ?_
      · refine Kept.of_eq rfl rfl rfl rfl rfl rfl rfl rfl rfl rfl rfl rfl ?_
        assumption
      · refine Kept.of_eq rfl rfl rfl rfl rfl rfl rfl rfl rfl rfl rfl rfl ?_
        assumption

theorem keeps_tryStandby {s₀ : State} (s : State) (h0 : Kept s₀ s) :
    Kept s₀ (State.tryStandby s) := by
  unfold State.tryStandby
  refine Kept.ite ?_ ?_
  · extract_lets +onlyGivenNames t1
    refine Kept.cut (a := t1) ?_ fun _ => ?_
    · unfold t1; clear t1
      apply keeps_setClaim
      assumption
    clear_value t1
    refine Kept.of_eq rfl rfl rfl rfl rfl rfl rfl rfl rfl rfl rfl rfl ?_
    assumption
  · assumption

theorem keeps_execPairCommit {s₀ : State} (seq : ℕ) (count : ℕ) (crc : ℕ) (fk : ℕ) (s : State) (h0 : Kept s₀ s) :
    ∃ out, execPairCommit seq count crc fk s = .next out ∧ Kept s₀ out := by
  unfold execPairCommit
  refine ⟨_, rfl, ?_⟩
  refine Kept.ite ?_ ?_
  · assumption
  · extract_lets +onlyGivenNames t1
    clear_value t1
    refine Kept.ite ?_ ?_
    · extract_lets +onlyGivenNames t2
      clear_value t2
      extract_lets +onlyGivenNames t3
      clear_value t3
      extract_lets +onlyGivenNames t4
      clear_value t4
      extract_lets +onlyGivenNames t5
      refine Kept.cut (a := t5) ?_ fun _ => ?_
      · unfold t5; clear t5
        refine Kept.of_eq rfl rfl rfl rfl rfl rfl rfl rfl rfl rfl rfl rfl ?_
        assumption
      clear_value t5
      apply keeps_tryStandby
      apply keeps_pairCell
      apply keeps_pairCount
      assumption
    · apply keeps_pairCell
      apply keeps_pairCount
      refine Kept.of_eq rfl rfl rfl rfl rfl rfl rfl rfl rfl rfl rfl rfl ?_
      assumption

theorem keeps_latchTurn {s₀ : State} (s : State) (h0 : Kept s₀ s) :
    Kept s₀ (State.latchTurn s) := by
  unfold State.latchTurn
  split
  · extract_lets +onlyGivenNames t1
    clear_value t1
    refine Kept.of_eq rfl rfl rfl rfl rfl rfl rfl rfl rfl rfl rfl rfl ?_
    assumption
  · extract_lets +onlyGivenNames t2
    clear_value t2
    refine Kept.of_eq rfl rfl rfl rfl rfl rfl rfl rfl rfl rfl rfl rfl ?_
    assumption
  · assumption

theorem keeps_applyDrover {s₀ : State} (s : State) (k : ℕ) (fk : ℕ) (xa : ℕ) (ya : ℕ) (ca : ℕ) (h0 : Kept s₀ s) :
    Kept s₀ (State.applyDrover s k fk xa ya ca) := by
  unfold State.applyDrover
  split
  · apply keeps_askResync
    assumption
  · split
    · assumption
    · extract_lets +onlyGivenNames t1
      clear_value t1
      extract_lets +onlyGivenNames t2
      clear_value t2
      apply keeps_setDrover
      assumption

theorem keeps_mirrorWrite {s₀ : State} (s : State) (up : Bool) (L : ℕ) (w : List Word) (h0 : Kept s₀ s) :
    Kept s₀ (State.mirrorWrite s up L w) := by
  unfold State.mirrorWrite
  split
  · refine Kept.of_eq rfl rfl rfl rfl rfl rfl rfl rfl rfl rfl rfl rfl ?_
    refine Kept.ofEq (by assumption) ?_
    apply keeps_unschedWrite
    apply keeps_clientEnter
    assumption
  · apply keeps_skipLine
    refine Kept.ofEq (by assumption) ?_
    apply keeps_unschedWrite
    apply keeps_clientEnter
    assumption
  · refine Kept.ofEq (by assumption) ?_
    apply keeps_unschedWrite
    apply keeps_clientEnter
    assumption

theorem keeps_applyItem {s₀ : State} (s : State) (it : List ℕ) (h0 : Kept s₀ s) :
    Kept s₀ (State.applyItem s it) := by
  unfold State.applyItem
  extract_lets +onlyGivenNames t1
  clear_value t1
  split
  · extract_lets +onlyGivenNames t2
    clear_value t2
    extract_lets +onlyGivenNames t3
    clear_value t3
    extract_lets +onlyGivenNames t4
    refine Kept.cut (a := t4) ?_ fun _ => ?_
    · unfold t4; clear t4
      refine Kept.ite ?_ ?_
      · apply keeps_pairCount
        assumption
      · assumption
    clear_value t4
    extract_lets +onlyGivenNames t5
    clear_value t5
    split
    refine Kept.ite ?_ ?_
    · refine Kept.of_eq rfl rfl rfl rfl rfl rfl rfl rfl rfl rfl rfl rfl ?_
      refine Kept.ofEq (by assumption) ?_
      split
      · dsimp only
        assumption
      · apply keeps_draw
        assumption
    · extract_lets +onlyGivenNames t6
      refine Kept.cut (a := t6) ?_ fun _ => ?_
      · unfold t6; clear t6
        apply keeps_pairCount
        refine Kept.ofEq (by assumption) ?_
        split
        · dsimp only
          assumption
        · apply keeps_draw
          assumption
      clear_value t6
      refine Kept.of_eq rfl rfl rfl rfl rfl rfl rfl rfl rfl rfl rfl rfl ?_
      assumption
  · apply keeps_mirrorWrite
    assumption
  · apply keeps_applyDrover
    assumption
  · extract_lets +onlyGivenNames t7
    clear_value t7
    extract_lets +onlyGivenNames t8
    clear_value t8
    extract_lets +onlyGivenNames t9
    clear_value t9
    refine Kept.of_eq rfl rfl rfl rfl rfl rfl rfl rfl rfl rfl rfl rfl ?_
    assumption
  · apply keeps_fire
    apply keeps_pairCount
    assumption

theorem keeps_applyTurn {s₀ : State} (s : State) (h0 : Kept s₀ s) :
    Kept s₀ (State.applyTurn s) := by
  unfold State.applyTurn
  extract_lets +onlyGivenNames t1
  clear_value t1
  refine Kept.fold ?_ ?_
  · intro a1 a2 a3
    refine Kept.fold ?_ ?_
    · intro a4 a5 a6
      apply keeps_applyItem
      assumption
    · assumption
  · refine Kept.of_eq rfl rfl rfl rfl rfl rfl rfl rfl rfl rfl rfl rfl ?_
    assumption

theorem keeps_execPairDigestSend {s₀ : State} (s : State) (h0 : Kept s₀ s) :
    ∃ out, execPairDigestSend s = .next out ∧ Kept s₀ out := by
  unfold execPairDigestSend
  refine ⟨_, rfl, ?_⟩
  refine Kept.ite ?_ ?_
  · assumption
  · extract_lets +onlyGivenNames t1
    clear_value t1
    extract_lets +onlyGivenNames t2
    clear_value t2
    refine Kept.fold ?_ ?_
    · intro a1 a2 a3
      apply keeps_pairCell
      assumption
    · assumption

theorem keeps_compare {s₀ : State} (s : State) (f : ℕ) (region : ℕ) (valid : Bool) (value : ℕ) (h0 : Kept s₀ s) :
    Kept s₀ (State.compare s f region valid value) := by
  unfold State.compare
  split
  · refine Kept.ite ?_ ?_
    · refine Kept.ite ?_ ?_
      · apply keeps_pairCount
        assumption
      · extract_lets +onlyGivenNames t1
        refine Kept.cut (a := t1) ?_ fun _ => ?_
        · unfold t1; clear t1
          apply keeps_pairCount
          assumption
        clear_value t1
        refine Kept.ite ?_ ?_
        · assumption
        · refine Kept.of_eq rfl rfl rfl rfl rfl rfl rfl rfl rfl rfl rfl rfl ?_
          assumption
    · apply keeps_pairCount
      assumption
  · apply keeps_pairCount
    assumption

theorem keeps_execPairDigest {s₀ : State} (f : ℕ) (entries : List (ℕ × Bool × ℕ)) (s : State) (h0 : Kept s₀ s) :
    ∃ out, execPairDigest f entries s = .next out ∧ Kept s₀ out := by
  unfold execPairDigest
  refine ⟨_, rfl, ?_⟩
  refine Kept.ite ?_ ?_
  · assumption
  · refine Kept.ite ?_ ?_
    · assumption
    · refine Kept.fold ?_ ?_
      · intro a1 a2 a3
        apply keeps_compare
        assumption
      · assumption

theorem keeps_checkTurn {s₀ : State} (s : State) (h0 : Kept s₀ s) :
    Kept s₀ (State.checkTurn s) := by
  unfold State.checkTurn
  refine Kept.ite ?_ ?_
  · refine Kept.of_eq rfl rfl rfl rfl rfl rfl rfl rfl rfl rfl rfl rfl ?_
    assumption
  · assumption

theorem keeps_resolved {s₀ : State} (s : State) (h0 : Kept s₀ s) :
    Kept s₀ (State.resolved s) := by
  unfold State.resolved
  refine Kept.of_eq rfl rfl rfl rfl rfl rfl rfl rfl rfl rfl rfl rfl ?_
  assumption

theorem keeps_diverged {s₀ : State} (s : State) (h0 : Kept s₀ s) :
    Kept s₀ (State.diverged s) := by
  unfold State.diverged
  extract_lets +onlyGivenNames t1
  refine Kept.cut (a := t1) ?_ fun _ => ?_
  · unfold t1; clear t1
    apply keeps_fire
    apply keeps_pairCount
    assumption
  clear_value t1
  refine Kept.ite ?_ ?_
  · apply keeps_askResync
    assumption
  · assumption

theorem keeps_resolve {s₀ : State} (s : State) (h0 : Kept s₀ s) :
    Kept s₀ (State.resolve s) := by
  unfold State.resolve
  split
  · apply keeps_diverged
    apply keeps_resolved
    assumption
  · apply keeps_setRecord
    apply keeps_resolved
    assumption
  · apply keeps_resolved
    assumption
  · apply keeps_resolved
    assumption
  · assumption

theorem keeps_execSelfcheckDone {s₀ : State} (signature : ℕ) (s : State) (h0 : Kept s₀ s) :
    ∃ out, execSelfcheckDone signature s = .next out ∧ Kept s₀ out := by
  unfold execSelfcheckDone
  refine ⟨_, rfl, ?_⟩
  refine Kept.ite ?_ ?_
  · assumption
  · extract_lets +onlyGivenNames t1
    clear_value t1
    extract_lets +onlyGivenNames t2
    clear_value t2
    extract_lets +onlyGivenNames t3
    clear_value t3
    extract_lets +onlyGivenNames t4
    extract_lets +onlyGivenNames t5
    refine Kept.cut (a := t5) ?_ fun _ => ?_
    · unfold t5; clear t5
      refine Kept.of_eq rfl rfl rfl rfl rfl rfl rfl rfl rfl rfl rfl rfl ?_
      assumption
    clear_value t5
    extract_lets +onlyGivenNames t6
    refine Kept.cut (a := t6) ?_ fun _ => ?_
    · unfold t6; clear t6
      apply keeps_pairCell
      assumption
    clear_value t6
    extract_lets +onlyGivenNames t7
    refine Kept.cut (a := t7) ?_ fun _ => ?_
    · unfold t7; clear t7
      refine Kept.ite ?_ ?_
      · assumption
      · apply keeps_fire
        refine Kept.ite ?_ ?_
        · apply keeps_pairOut
          assumption
        · assumption
    clear_value t7
    refine Kept.ite ?_ ?_
    · apply keeps_resolve
      assumption
    · assumption

theorem keeps_execSelfcheck {s₀ : State} (pass : Bool) (f : ℕ) (signature : ℕ) (s : State) (h0 : Kept s₀ s) :
    ∃ out, execSelfcheck pass f signature s = .next out ∧ Kept s₀ out := by
  unfold execSelfcheck
  refine ⟨_, rfl, ?_⟩
  refine Kept.ite ?_ ?_
  · assumption
  · extract_lets +onlyGivenNames t1
    clear_value t1
    extract_lets +onlyGivenNames t2
    clear_value t2
    extract_lets +onlyGivenNames t3
    refine Kept.cut (a := t3) ?_ fun _ => ?_
    · unfold t3; clear t3
      refine Kept.of_eq rfl rfl rfl rfl rfl rfl rfl rfl rfl rfl rfl rfl ?_
      assumption
    clear_value t3
    refine Kept.ite ?_ ?_
    · apply keeps_resolve
      assumption
    · assumption

theorem keeps_goodHello {s₀ : State} (s : State) (st : ℕ) (claim : ℕ) (fw : ℕ) (h0 : Kept s₀ s) :
    Kept s₀ (State.goodHello s st claim fw) := by
  unfold State.goodHello
  extract_lets +onlyGivenNames back x1 s1
  have h1 : Kept s₀ s1 := by
    unfold s1
    refine Kept.of_eq rfl rfl rfl rfl rfl rfl rfl rfl rfl rfl rfl rfl h0
  extract_lets +onlyGivenNames x2 s2
  have h2 : Kept s₀ s2 := by
    unfold s2
    refine Kept.ite (keeps_askResync _ ?_) h1
    refine Kept.of_eq rfl rfl rfl rfl rfl rfl rfl rfl rfl rfl rfl rfl h1
  extract_lets +onlyGivenNames x3 s3
  have h3 : Kept s₀ s3 := by
    unfold s3
    refine Kept.of_eq rfl rfl rfl rfl rfl rfl rfl rfl rfl rfl rfl rfl h2
  extract_lets +onlyGivenNames x4 s4
  have h4 : Kept s₀ s4 := by
    unfold s4
    refine Kept.ite h3 (keeps_fire _ _ _ _ _ ?_)
    refine Kept.of_eq rfl rfl rfl rfl rfl rfl rfl rfl rfl rfl rfl rfl h3
  extract_lets +onlyGivenNames s5
  have h5 : Kept s₀ s5 := Kept.ite (keeps_setRecord _ _ _ h4) h3
  extract_lets +onlyGivenNames s6
  have h6 : Kept s₀ s6 := keeps_formWith _ _ h5
  refine Kept.ite (Kept.ite (Kept.ite h6 (keeps_startResync _ _ ?_)) ?_) h6
  all_goals refine Kept.of_eq rfl rfl rfl rfl rfl rfl rfl rfl rfl rfl rfl rfl h6

theorem keeps_execPairHello {s₀ : State} (node : Fin 1024) (unit : Fin 2) (st : Fin 8) (claim : Fin 65536) (image : ℕ) (f : ℕ) (fw : ℕ) (s : State) (h0 : Kept s₀ s) :
    ∃ out, execPairHello node unit st claim image f fw s = .next out ∧ Kept s₀ out := by
  unfold execPairHello
  refine ⟨_, rfl, ?_⟩
  refine Kept.ite ?_ ?_
  · assumption
  · refine Kept.ite ?_ ?_
    · apply keeps_fire
      apply keeps_pairCount
      assumption
    · split
      · extract_lets +onlyGivenNames t1
        refine Kept.cut (a := t1) ?_ fun _ => ?_
        · unfold t1; clear t1
          apply keeps_pairCount
          assumption
        clear_value t1
        refine Kept.ite ?_ ?_
        · assumption
        · apply keeps_fire
          refine Kept.of_eq rfl rfl rfl rfl rfl rfl rfl rfl rfl rfl rfl rfl ?_
          assumption
      · apply keeps_goodHello
        assumption

theorem keeps_execAloneWaitExpiry {s₀ : State} (s : State) (h0 : Kept s₀ s) :
    ∃ out, execAloneWaitExpiry s = .next out ∧ Kept s₀ out := by
  unfold execAloneWaitExpiry
  refine ⟨_, rfl, ?_⟩
  refine Kept.ite ?_ ?_
  · apply keeps_goActive
    assumption
  · assumption

theorem keeps_execPartnerSilence {s₀ : State} (s : State) (h0 : Kept s₀ s) :
    ∃ out, execPartnerSilence s = .next out ∧ Kept s₀ out := by
  unfold execPartnerSilence
  refine ⟨_, rfl, ?_⟩
  refine Kept.ite ?_ ?_
  · assumption
  · extract_lets +onlyGivenNames t1
    refine Kept.cut (a := t1) ?_ fun _ => ?_
    · unfold t1; clear t1
      refine Kept.ite ?_ ?_
      · apply keeps_setRecord
        assumption
      · assumption
    clear_value t1
    extract_lets +onlyGivenNames t2
    extract_lets +onlyGivenNames t3
    refine Kept.cut (a := t3) ?_ fun _ => ?_
    · unfold t3; clear t3
      apply keeps_fire
      refine Kept.of_eq rfl rfl rfl rfl rfl rfl rfl rfl rfl rfl rfl rfl ?_
      assumption
    clear_value t3
    split
    · apply keeps_toPair
      assumption
    · refine Kept.ite ?_ ?_
      · refine Kept.of_eq rfl rfl rfl rfl rfl rfl rfl rfl rfl rfl rfl rfl ?_
        assumption
      · assumption
    · assumption

theorem keeps_pairCmd {s₀ : State} (s : State) (cmd : ℕ) (h0 : Kept s₀ s) :
    Kept s₀ (State.pairCmd s cmd) := by
  unfold State.pairCmd
  split
  · refine Kept.ite ?_ ?_
    · refine Kept.of_eq rfl rfl rfl rfl rfl rfl rfl rfl rfl rfl rfl rfl ?_
      assumption
    · apply keeps_abort
      assumption
  · refine Kept.ite ?_ ?_
    · apply keeps_toPair
      assumption
    · apply keeps_abort
      assumption
  · refine Kept.ite ?_ ?_
    · apply keeps_tryStandby
      refine Kept.of_eq rfl rfl rfl rfl rfl rfl rfl rfl rfl rfl rfl rfl ?_
      assumption
    · apply keeps_abort
      assumption
  · refine Kept.ite ?_ ?_
    · apply keeps_askResync
      assumption
    · apply keeps_abort
      assumption

theorem keeps_execSwap {s₀ : State} (s : State) (h0 : Kept s₀ s) :
    ∃ out, execSwap s = .next out ∧ Kept s₀ out := by
  unfold execSwap
  refine ⟨_, rfl, ?_⟩
  apply keeps_pairCmd
  assumption

theorem keeps_execRejoin {s₀ : State} (s : State) (h0 : Kept s₀ s) :
    ∃ out, execRejoin s = .next out ∧ Kept s₀ out := by
  unfold execRejoin
  refine ⟨_, rfl, ?_⟩
  apply keeps_pairCmd
  assumption

theorem keeps_execConfirm {s₀ : State} (s : State) (h0 : Kept s₀ s) :
    ∃ out, execConfirm s = .next out ∧ Kept s₀ out := by
  unfold execConfirm
  refine ⟨_, rfl, ?_⟩
  apply keeps_pairCmd
  assumption

theorem keeps_execResync {s₀ : State} (s : State) (h0 : Kept s₀ s) :
    ∃ out, execResync s = .next out ∧ Kept s₀ out := by
  unfold execResync
  refine ⟨_, rfl, ?_⟩
  apply keeps_pairCmd
  assumption

theorem keeps_pairTurn {s₀ : State} (s : State) (h0 : Kept s₀ s) :
    Kept s₀ (State.pairTurn s) := by
  unfold State.pairTurn
  refine Kept.ite ?_ ?_
  · assumption
  · apply keeps_sendHello
    apply keeps_mirrorTurn
    apply keeps_latchTurn
    apply keeps_applyTurn
    apply keeps_checkTurn
    apply keeps_claimTurn
    assumption

end Sys2Proof.Laws
end

