-- ==== Sys2Proof/Laws/KeepHost.lean ====
section
/-! SUPPORT. What each operation of Machine/Host.lean keeps (Laws/Kept.lean). -/

open Sys2Proof Sys2Proof.Machine

namespace Sys2Proof.Laws

theorem keeps_hostWords {s₀ : State} (s : State) (l : List ℕ) (h0 : Kept s₀ s) :
    Kept s₀ (State.hostWords s l) := by
  unfold State.hostWords
  apply keeps_emit
  assumption

theorem keeps_hostErr {s₀ : State} (s : State) (addr : ℕ) (h0 : Kept s₀ s) :
    Kept s₀ (State.hostErr s addr) := by
  unfold State.hostErr
  apply keeps_interrupt
  apply keeps_fire
  assumption

theorem keeps_hostUr {s₀ : State} (s : State) (addr : ℕ) (write : Bool) (h0 : Kept s₀ s) :
    Kept s₀ (State.hostUr s addr write) := by
  unfold State.hostUr
  extract_lets +onlyGivenNames t1
  refine Kept.cut (a := t1) ?_ fun _ => ?_
  · unfold t1; clear t1
    apply keeps_bump
    assumption
  clear_value t1
  extract_lets +onlyGivenNames t2
  refine Kept.cut (a := t2) ?_ fun _ => ?_
  · unfold t2; clear t2
    refine Kept.ite ?_ ?_
    · apply keeps_bump
      assumption
    · assumption
  clear_value t2
  apply keeps_hostErr
  apply keeps_emit
  assumption

theorem keeps_hostCa {s₀ : State} (s : State) (addr : ℕ) (h0 : Kept s₀ s) :
    Kept s₀ (State.hostCa s addr) := by
  unfold State.hostCa
  apply keeps_hostErr
  apply keeps_emit
  apply keeps_bump
  assumption

theorem keeps_hostDrop {s₀ : State} (s : State) (addr : ℕ) (h0 : Kept s₀ s) :
    Kept s₀ (State.hostDrop s addr) := by
  unfold State.hostDrop
  apply keeps_hostErr
  apply keeps_bump
  assumption

theorem keeps_hostRefused {s₀ : State} (s : State) (addr : ℕ) (h0 : Kept s₀ s) :
    Kept s₀ (State.hostRefused s addr) := by
  unfold State.hostRefused
  apply keeps_hostErr
  apply keeps_bump
  assumption

theorem keeps_space2Read {s₀ : State} (s : State) (l : ℕ) (a : ℕ) (k : ℕ) (h0 : Kept s₀ s) :
    Kept s₀ (State.space2Read s l a k).1 := by
  unfold State.space2Read
  split
  · dsimp only
    assumption
  · split
    · extract_lets +onlyGivenNames t1
      clear_value t1
      split
      dsimp only
      refine Kept.ofEq (by assumption) ?_
      apply keeps_penReadN
      apply keeps_enter
      assumption
    · dsimp only
      assumption

theorem keeps_space3Read {s₀ : State} (s : State) (l : ℕ) (a : ℕ) (k : ℕ) (h0 : Kept s₀ s) :
    Kept s₀ (State.space3Read s l a k).1 := by
  unfold State.space3Read
  split
  · dsimp only
    apply keeps_enterWords
    assumption
  · dsimp only
    assumption

theorem keeps_space4Enter {s₀ : State} (s : State) (o : ℕ) (h0 : Kept s₀ s) :
    Kept s₀ (State.space4Enter s o) := by
  unfold State.space4Enter
  refine Kept.ite ?_ ?_
  · apply keeps_enter
    assumption
  · assumption

theorem keeps_spaceRead {s₀ : State} (s : State) (space : ℕ) (l : ℕ) (a : ℕ) (k : ℕ) (h0 : Kept s₀ s) :
    Kept s₀ (State.spaceRead s space l a k).1 := by
  unfold State.spaceRead
  split
  · split
    extract_lets +onlyGivenNames t1
    refine Kept.cut (a := t1) ?_ fun _ => ?_
    · unfold t1; clear t1
      apply keeps_clientEnter
      assumption
    clear_value t1
    split
    · dsimp only
      refine Kept.ofEq (by assumption) ?_
      apply keeps_unschedRead
      assumption
    · dsimp only
      refine Kept.ofEq (by assumption) ?_
      apply keeps_unschedRead
      assumption
  · apply keeps_space2Read
    assumption
  · apply keeps_space3Read
    assumption
  · dsimp only
    refine Kept.fold ?_ ?_
    · intro a2 a3 a4
      apply keeps_space4Enter
      assumption
    · assumption
  · dsimp only
    assumption
  · dsimp only
    assumption

theorem keeps_spansRead {s₀ : State} (s : State) (space : ℕ) (x2 : List (ℕ × ℕ × ℕ)) (h0 : Kept s₀ s) :
    Kept s₀ (State.spansRead s space x2).1 := by
  induction x2 generalizing s with
  | nil =>
    unfold State.spansRead
    assumption
  | cons p l ih =>
    unfold State.spansRead
    split
    · refine Kept.ofEq (by assumption) ?_
      apply keeps_spaceRead
      assumption
    · split
      · refine Kept.ofEq (by assumption) ?_
        apply ih
        refine Kept.ofEq (by assumption) ?_
        apply keeps_spaceRead
        assumption
      · refine Kept.ofEq (by assumption) ?_
        apply ih
        refine Kept.ofEq (by assumption) ?_
        apply keeps_spaceRead
        assumption

theorem keeps_space4Write {s₀ : State} (s : State) (o : ℕ) (w : Word) (h0 : Kept s₀ s) :
    Kept s₀ (State.space4Write s o w).1 := by
  unfold State.space4Write
  split
  · extract_lets +onlyGivenNames t1
    clear_value t1
    extract_lets +onlyGivenNames t2
    clear_value t2
    split
    · dsimp only
      apply keeps_setDrove
      assumption
    · dsimp only
      assumption
  · split
    · extract_lets +onlyGivenNames t3
      clear_value t3
      extract_lets +onlyGivenNames t4
      clear_value t4
      extract_lets +onlyGivenNames t5
      refine Kept.cut (a := t5) ?_ fun _ => ?_
      · unfold t5; clear t5
        apply keeps_enter
        assumption
      clear_value t5
      dsimp only
      apply keeps_drvRegWrite
      assumption
    · dsimp only
      assumption

theorem keeps_space5Write {s₀ : State} (s : State) (o : ℕ) (w : Word) (h0 : Kept s₀ s) :
    Kept s₀ (State.space5Write s o w).1 := by
  unfold State.space5Write
  extract_lets +onlyGivenNames t1
  clear_value t1
  extract_lets +onlyGivenNames t2
  clear_value t2
  split
  · assumption
  · split
    · extract_lets +onlyGivenNames t3
      clear_value t3
      apply keeps_setStaging
      assumption
    · assumption

theorem keeps_writeEach {s₀ : State} (f : State → ℕ → Word → State × Except Deny Unit) (s : State) (o : ℕ) (x3 : List Word) (h0 : Kept s₀ s) (hff : ∀ y0 y1 y2, Kept s₀ y0 → Kept s₀ (f y0 y1 y2).1) :
    Kept s₀ (writeEach f s o x3).1 := by
  induction x3 generalizing s o with
  | nil =>
    unfold writeEach
    assumption
  | cons p l ih =>
    unfold writeEach
    split
    · apply ih
      refine Kept.ofEq (by assumption) ?_
      apply hff
      assumption
    · apply hff
      assumption

theorem keeps_spaceWrite {s₀ : State} (s : State) (space : ℕ) (l : ℕ) (a : ℕ) (ws : List Word) (h0 : Kept s₀ s) :
    Kept s₀ (State.spaceWrite s space l a ws).1 := by
  unfold State.spaceWrite
  split
  · split
    extract_lets +onlyGivenNames t1
    clear_value t1
    extract_lets +onlyGivenNames t2
    refine Kept.cut (a := t2) ?_ fun _ => ?_
    · unfold t2; clear t2
      apply keeps_clientEnter
      assumption
    clear_value t2
    apply keeps_clientWrite
    assumption
  · split
    · dsimp only
      assumption
    · split
      · extract_lets +onlyGivenNames t3
        clear_value t3
        dsimp only
        apply keeps_penPush
        apply keeps_enter
        assumption
      · dsimp only
        assumption
  · dsimp only
    assumption
  · apply keeps_writeEach
    · assumption
    · intro a4 a5 a6 a7
      apply keeps_space4Write
      assumption
  · apply keeps_writeEach
    · assumption
    · intro a8 a9 a10 a11
      apply keeps_space5Write
      assumption
  · dsimp only
    assumption

theorem keeps_execBar2Read {s₀ : State} (addr : Fin 1073741824) (n : ℕ) (full : Bool) (s : State) (h0 : Kept s₀ s) :
    ∃ out, execBar2Read addr n full s = .next out ∧ Kept s₀ out := by
  unfold execBar2Read
  refine ⟨_, rfl, ?_⟩
  refine Kept.ite ?_ ?_
  · apply keeps_hostUr
    apply keeps_bump
    apply keeps_bump
    assumption
  · refine Kept.ite ?_ ?_
    · apply keeps_hostUr
      apply keeps_bump
      assumption
    · refine Kept.ite ?_ ?_
      · apply keeps_hostCa
        apply keeps_bump
        assumption
      · refine Kept.ite ?_ ?_
        · refine Kept.ite ?_ ?_
          · apply keeps_bump
            assumption
          · apply keeps_hostUr
            apply keeps_bump
            assumption
        · split
          · apply keeps_hostWords
            refine Kept.ofEq (by assumption) ?_
            apply keeps_spansRead
            apply keeps_bump
            assumption
          · apply keeps_hostCa
            refine Kept.ofEq (by assumption) ?_
            apply keeps_spansRead
            apply keeps_bump
            assumption
          · apply keeps_hostUr
            refine Kept.ofEq (by assumption) ?_
            apply keeps_spansRead
            apply keeps_bump
            assumption

theorem keeps_spansWrite {s₀ : State} (s : State) (addr : ℕ) (space : ℕ) (ws : List Word) (x4 : List (ℕ × ℕ × ℕ)) (h0 : Kept s₀ s) :
    Kept s₀ (State.spansWrite s addr space ws x4) := by
  induction x4 generalizing s ws addr with
  | nil =>
    unfold State.spansWrite
    assumption
  | cons p l ih =>
    unfold State.spansWrite
    extract_lets +onlyGivenNames t1
    refine Kept.cut (a := t1) ?_ fun _ => ?_
    · unfold t1; clear t1
      split
      · refine Kept.ofEq (by assumption) ?_
        apply keeps_spaceWrite
        assumption
      · apply keeps_hostUr
        refine Kept.ofEq (by assumption) ?_
        apply keeps_spaceWrite
        assumption
      · apply keeps_hostUr
        refine Kept.ofEq (by assumption) ?_
        apply keeps_spaceWrite
        assumption
      · apply keeps_hostRefused
        refine Kept.ofEq (by assumption) ?_
        apply keeps_spaceWrite
        assumption
      · apply keeps_bump
        refine Kept.ofEq (by assumption) ?_
        apply keeps_spaceWrite
        assumption
      · refine Kept.ite ?_ ?_
        · apply keeps_hostDrop
          refine Kept.ofEq (by assumption) ?_
          apply keeps_spaceWrite
          assumption
        · apply keeps_hostRefused
          refine Kept.ofEq (by assumption) ?_
          apply keeps_spaceWrite
          assumption
    clear_value t1
    apply ih
    assumption

theorem keeps_execBar2Write {s₀ : State} (addr : Fin 1073741824) (words : List Word) (full : Bool) (ep : Bool) (s : State) (h0 : Kept s₀ s) :
    ∃ out, execBar2Write addr words full ep s = .next out ∧ Kept s₀ out := by
  unfold execBar2Write
  refine ⟨_, rfl, ?_⟩
  refine Kept.ite ?_ ?_
  · apply keeps_hostDrop
    apply keeps_bump
    assumption
  · refine Kept.ite ?_ ?_
    · apply keeps_hostUr
      apply keeps_bump
      assumption
    · refine Kept.ite ?_ ?_
      · apply keeps_hostUr
        apply keeps_bump
        assumption
      · refine Kept.ite ?_ ?_
        · apply keeps_hostDrop
          apply keeps_bump
          assumption
        · refine Kept.ite ?_ ?_
          · refine Kept.ite ?_ ?_
            · apply keeps_bump
              assumption
            · apply keeps_hostUr
              apply keeps_bump
              assumption
          · apply keeps_spansWrite
            apply keeps_bump
            assumption

theorem keeps_execReqData {s₀ : State} (w : Word) (s : State) (h0 : Kept s₀ s) :
    ∃ out, execReqData w s = .next out ∧ Kept s₀ out := by
  unfold execReqData
  refine ⟨_, rfl, ?_⟩
  refine Kept.ite ?_ ?_
  · refine Kept.of_eq rfl rfl rfl rfl rfl rfl rfl rfl rfl rfl rfl rfl ?_
    assumption
  · refine Kept.ite ?_ ?_
    · extract_lets +onlyGivenNames t1
      refine Kept.cut (a := t1) ?_ fun _ => ?_
      · unfold t1; clear t1
        apply keeps_bump
        assumption
      clear_value t1
      refine Kept.of_eq rfl rfl rfl rfl rfl rfl rfl rfl rfl rfl rfl rfl ?_
      assumption
    · refine Kept.of_eq rfl rfl rfl rfl rfl rfl rfl rfl rfl rfl rfl rfl ?_
      assumption

theorem keeps_execReqEnd {s₀ : State} (s : State) (h0 : Kept s₀ s) :
    ∃ out, execReqEnd s = .next out ∧ Kept s₀ out := by
  unfold execReqEnd
  refine ⟨_, rfl, ?_⟩
  refine Kept.ite ?_ ?_
  · extract_lets +onlyGivenNames t1
    refine Kept.cut (a := t1) ?_ fun _ => ?_
    · unfold t1; clear t1
      apply keeps_bump
      assumption
    clear_value t1
    refine Kept.of_eq rfl rfl rfl rfl rfl rfl rfl rfl rfl rfl rfl rfl ?_
    assumption
  · refine Kept.of_eq rfl rfl rfl rfl rfl rfl rfl rfl rfl rfl rfl rfl ?_
    assumption

theorem keeps_execReqAbort {s₀ : State} (s : State) (h0 : Kept s₀ s) :
    ∃ out, execReqAbort s = .next out ∧ Kept s₀ out := by
  unfold execReqAbort
  refine ⟨_, rfl, ?_⟩
  refine Kept.ite ?_ ?_
  · assumption
  · refine Kept.of_eq rfl rfl rfl rfl rfl rfl rfl rfl rfl rfl rfl rfl ?_
    assumption

theorem keeps_execRspData {s₀ : State} (s : State) (h0 : Kept s₀ s) :
    ∃ out, execRspData s = .next out ∧ Kept s₀ out := by
  unfold execRspData
  refine ⟨_, rfl, ?_⟩
  split
  · apply keeps_hostWords
    refine Kept.of_eq rfl rfl rfl rfl rfl rfl rfl rfl rfl rfl rfl rfl ?_
    assumption
  · apply keeps_hostWords
    refine Kept.of_eq rfl rfl rfl rfl rfl rfl rfl rfl rfl rfl rfl rfl ?_
    assumption
  · apply keeps_hostWords
    assumption

theorem keeps_execRspFlush {s₀ : State} (s : State) (h0 : Kept s₀ s) :
    ∃ out, execRspFlush s = .next out ∧ Kept s₀ out := by
  unfold execRspFlush
  refine ⟨_, rfl, ?_⟩
  refine Kept.of_eq rfl rfl rfl rfl rfl rfl rfl rfl rfl rfl rfl rfl ?_
  assumption

theorem keeps_execIntStatusClear {s₀ : State} (mask : Fin 32) (enable : Option (Fin 32)) (s : State) (h0 : Kept s₀ s) :
    ∃ out, execIntStatusClear mask enable s = .next out ∧ Kept s₀ out := by
  unfold execIntStatusClear
  refine ⟨_, rfl, ?_⟩
  refine Kept.ite ?_ ?_
  · apply keeps_interrupt
    refine Kept.of_eq rfl rfl rfl rfl rfl rfl rfl rfl rfl rfl rfl rfl ?_
    assumption
  · refine Kept.of_eq rfl rfl rfl rfl rfl rfl rfl rfl rfl rfl rfl rfl ?_
    assumption

theorem keeps_execBar0UnmappedAccess {s₀ : State} (offset : Fin 65536) (write : Bool) (s : State) (h0 : Kept s₀ s) :
    ∃ out, execBar0UnmappedAccess offset write s = .next out ∧ Kept s₀ out := by
  unfold execBar0UnmappedAccess
  refine ⟨_, rfl, ?_⟩
  apply keeps_hostUr
  assumption

theorem keeps_execMsiXTableWrite {s₀ : State} (v : Fin 64) (dword : Fin 4) (value : BitVec 32) (s : State) (h0 : Kept s₀ s) :
    ∃ out, execMsiXTableWrite v dword value s = .next out ∧ Kept s₀ out := by
  unfold execMsiXTableWrite
  refine ⟨_, rfl, ?_⟩
  refine Kept.ite ?_ ?_
  · refine Kept.of_eq rfl rfl rfl rfl rfl rfl rfl rfl rfl rfl rfl rfl ?_
    assumption
  · refine Kept.ite ?_ ?_
    · refine Kept.of_eq rfl rfl rfl rfl rfl rfl rfl rfl rfl rfl rfl rfl ?_
      assumption
    · refine Kept.ite ?_ ?_
      · assumption
      · extract_lets +onlyGivenNames t1
        clear_value t1
        extract_lets +onlyGivenNames t2
        clear_value t2
        extract_lets +onlyGivenNames t3
        refine Kept.cut (a := t3) ?_ fun _ => ?_
        · unfold t3; clear t3
          refine Kept.of_eq rfl rfl rfl rfl rfl rfl rfl rfl rfl rfl rfl rfl ?_
          assumption
        clear_value t3
        refine Kept.ite ?_ ?_
        · apply keeps_msiSend
          assumption
        · assumption

theorem keeps_execTideInterrupt {s₀ : State} (s : State) (h0 : Kept s₀ s) :
    ∃ out, execTideInterrupt s = .next out ∧ Kept s₀ out := by
  unfold execTideInterrupt
  extract_lets +onlyGivenNames t1
  clear_value t1
  refine ⟨_, rfl, ?_⟩
  refine Kept.ite ?_ ?_
  · apply keeps_interrupt
    apply keeps_advance
    assumption
  · assumption

theorem keeps_qlockOff {s₀ : State} (s : State) (h0 : Kept s₀ s) :
    Kept s₀ (State.qlockOff s) := by
  unfold State.qlockOff
  refine Kept.ite ?_ ?_
  · assumption
  · refine Kept.ite ?_ ?_
    · refine Kept.of_eq rfl rfl rfl rfl rfl rfl rfl rfl rfl rfl rfl rfl ?_
      assumption
    · refine Kept.of_eq rfl rfl rfl rfl rfl rfl rfl rfl rfl rfl rfl rfl ?_
      assumption

theorem keeps_execPcieReset {s₀ : State} (linkDown : Bool) (s : State) (h0 : Kept s₀ s) :
    ∃ out, execPcieReset linkDown s = .next out ∧ Kept s₀ out := by
  unfold execPcieReset
  extract_lets +onlyGivenNames t1
  refine Kept.have_ (P := Kept s₀ t1) ?_ fun hs2 => ?_
  · unfold t1; clear t1
    apply keeps_endSessions
    assumption
  clear_value t1
  extract_lets +onlyGivenNames t3
  clear_value t3
  extract_lets +onlyGivenNames t4
  clear_value t4
  extract_lets +onlyGivenNames t5
  refine Kept.have_ (P := Kept s₀ t5) ?_ fun hs6 => ?_
  · unfold t5; clear t5
    apply keeps_qlockOff
    refine Kept.of_eq rfl rfl rfl rfl rfl rfl rfl rfl rfl rfl rfl rfl ?_
    assumption
  clear_value t5
  refine ⟨_, rfl, ?_⟩
  refine Kept.ite ?_ ?_
  · apply keeps_fire
    apply keeps_bump
    refine Kept.of_eq rfl rfl rfl rfl rfl rfl rfl rfl rfl rfl rfl rfl ?_
    assumption
  · assumption

theorem keeps_execPcieLinkUp {s₀ : State} (speed : Fin 5) (width : Fin 5) (s : State) (h0 : Kept s₀ s) :
    ∃ out, execPcieLinkUp speed width s = .next out ∧ Kept s₀ out := by
  unfold execPcieLinkUp
  refine ⟨_, rfl, ?_⟩
  refine Kept.ite ?_ ?_
  · assumption
  · refine Kept.of_eq rfl rfl rfl rfl rfl rfl rfl rfl rfl rfl rfl rfl ?_
    assumption

theorem keeps_quayLog {s₀ : State} (s : State) (cause : ℕ) (dir : ℕ) (cs : ℕ) (far : ℕ) (h0 : Kept s₀ s) :
    Kept s₀ (State.quayLog s cause dir cs far) := by
  unfold State.quayLog
  extract_lets +onlyGivenNames t1
  clear_value t1
  apply keeps_interrupt
  refine Kept.of_eq rfl rfl rfl rfl rfl rfl rfl rfl rfl rfl rfl rfl ?_
  assumption

theorem keeps_quayFail {s₀ : State} (s : State) (cause : ℕ) (dir : ℕ) (cs : ℕ) (far : ℕ) (h0 : Kept s₀ s) :
    Kept s₀ (State.quayFail s cause dir cs far) := by
  unfold State.quayFail
  apply keeps_fire
  apply keeps_bump
  apply keeps_quayLog
  assumption

theorem keeps_quayRun {s₀ : State} (s : State) (limit : ℕ) (x2 : Bool) (x3 : List (ℕ × ℕ)) (x4 : List QBeat) (h0 : Kept s₀ s) :
    Kept s₀ (State.quayRun s limit x2 x3 x4).1 := by
  induction x3 generalizing s x2 x4 with
  | nil =>
    unfold State.quayRun
    assumption
  | cons p l ih =>
    unfold State.quayRun
    extract_lets +onlyGivenNames t1
    clear_value t1
    extract_lets +onlyGivenNames t2
    refine Kept.cut (a := t2) ?_ fun _ => ?_
    · unfold t2; clear t2
      refine Kept.ite ?_ ?_
      · apply keeps_bump
        assumption
      · assumption
    clear_value t2
    extract_lets +onlyGivenNames t3
    refine Kept.cut (a := t3) ?_ fun _ => ?_
    · unfold t3; clear t3
      apply keeps_bump
      assumption
    clear_value t3
    split
    · assumption
    · dsimp only
      apply ih
      apply keeps_bump
      assumption

theorem keeps_quayLockStart {s₀ : State} (s : State) (h0 : Kept s₀ s) :
    Kept s₀ (State.quayLockStart s) := by
  unfold State.quayLockStart
  refine Kept.ite ?_ ?_
  · refine Kept.of_eq rfl rfl rfl rfl rfl rfl rfl rfl rfl rfl rfl rfl ?_
    assumption
  · assumption

theorem keeps_quayLockEnd {s₀ : State} (s : State) (h0 : Kept s₀ s) :
    Kept s₀ (State.quayLockEnd s) := by
  unfold State.quayLockEnd
  split
  · refine Kept.ite ?_ ?_
    · refine Kept.of_eq rfl rfl rfl rfl rfl rfl rfl rfl rfl rfl rfl rfl ?_
      assumption
    · refine Kept.of_eq rfl rfl rfl rfl rfl rfl rfl rfl rfl rfl rfl rfl ?_
      assumption
  · assumption

theorem keeps_execQuayRead {s₀ : State} (o : Fin 134217728) (n : ℕ) (beats : List QBeat) (s : State) (h0 : Kept s₀ s) :
    ∃ out, execQuayRead o n beats s = .next out ∧ Kept s₀ out := by
  unfold execQuayRead
  extract_lets +onlyGivenNames t1
  clear_value t1
  extract_lets +onlyGivenNames t2
  clear_value t2
  refine ⟨_, rfl, ?_⟩
  refine Kept.ite ?_ ?_
  · apply keeps_hostCa
    assumption
  · refine Kept.ite ?_ ?_
    · apply keeps_hostUr
      assumption
    · refine Kept.ite ?_ ?_
      · assumption
      · extract_lets +onlyGivenNames t3
        refine Kept.cut (a := t3) ?_ fun _ => ?_
        · unfold t3; clear t3
          apply keeps_quayLockStart
          apply keeps_enterWords
          assumption
        clear_value t3
        split
        extract_lets +onlyGivenNames t4
        refine Kept.cut (a := t4) ?_ fun _ => ?_
        · unfold t4; clear t4
          apply keeps_emit
          refine Kept.ofEq (by assumption) ?_
          apply keeps_quayRun
          assumption
        clear_value t4
        split
        · apply keeps_hostWords
          assumption
        · extract_lets +onlyGivenNames t5
          refine Kept.cut (a := t5) ?_ fun _ => ?_
          · unfold t5; clear t5
            apply keeps_quayFail
            assumption
          clear_value t5
          refine Kept.ite ?_ ?_
          · apply keeps_hostCa
            assumption
          · apply keeps_hostWords
            assumption

theorem keeps_execQuayPostedWrite {s₀ : State} (o : Fin 134217728) (words : List Word) (s : State) (h0 : Kept s₀ s) :
    ∃ out, execQuayPostedWrite o words s = .next out ∧ Kept s₀ out := by
  unfold execQuayPostedWrite
  refine ⟨_, rfl, ?_⟩
  refine Kept.ite ?_ ?_
  · apply keeps_hostDrop
    assumption
  · refine Kept.ite ?_ ?_
    · apply keeps_hostUr
      assumption
    · refine Kept.ite ?_ ?_
      · assumption
      · extract_lets +onlyGivenNames t1
        refine Kept.cut (a := t1) ?_ fun _ => ?_
        · unfold t1; clear t1
          apply keeps_enterWords
          assumption
        clear_value t1
        refine Kept.of_eq rfl rfl rfl rfl rfl rfl rfl rfl rfl rfl rfl rfl ?_
        assumption

theorem keeps_execQuayWriteBurst {s₀ : State} (beats : List QBeat) (s : State) (h0 : Kept s₀ s) :
    ∃ out, execQuayWriteBurst beats s = .next out ∧ Kept s₀ out := by
  unfold execQuayWriteBurst
  refine ⟨_, rfl, ?_⟩
  split
  · assumption
  · extract_lets +onlyGivenNames t1
    clear_value t1
    extract_lets +onlyGivenNames t2
    clear_value t2
    extract_lets +onlyGivenNames t3
    clear_value t3
    extract_lets +onlyGivenNames t4
    refine Kept.cut (a := t4) ?_ fun _ => ?_
    · unfold t4; clear t4
      apply keeps_quayLockStart
      refine Kept.of_eq rfl rfl rfl rfl rfl rfl rfl rfl rfl rfl rfl rfl ?_
      assumption
    clear_value t4
    dsimp only
    apply keeps_quayLockEnd
    split
    · apply keeps_quayFail
      apply keeps_emit
      apply keeps_quayRun
      assumption
    · apply keeps_emit
      apply keeps_quayRun
      assumption

theorem keeps_execQlock {s₀ : State} (on : Bool) (s : State) (h0 : Kept s₀ s) :
    ∃ out, execQlock on s = .next out ∧ Kept s₀ out := by
  unfold execQlock
  refine ⟨_, rfl, ?_⟩
  refine Kept.ite ?_ ?_
  · refine Kept.of_eq rfl rfl rfl rfl rfl rfl rfl rfl rfl rfl rfl rfl ?_
    assumption
  · refine Kept.ite ?_ ?_
    · refine Kept.of_eq rfl rfl rfl rfl rfl rfl rfl rfl rfl rfl rfl rfl ?_
      assumption
    · refine Kept.ite ?_ ?_
      · refine Kept.of_eq rfl rfl rfl rfl rfl rfl rfl rfl rfl rfl rfl rfl ?_
        assumption
      · refine Kept.of_eq rfl rfl rfl rfl rfl rfl rfl rfl rfl rfl rfl rfl ?_
        assumption

theorem keeps_execQuayLockTimeout {s₀ : State} (s : State) (h0 : Kept s₀ s) :
    ∃ out, execQuayLockTimeout s = .next out ∧ Kept s₀ out := by
  unfold execQuayLockTimeout
  refine ⟨_, rfl, ?_⟩
  refine Kept.ite ?_ ?_
  · dsimp only
    apply keeps_quayLog
    apply keeps_bump
    refine Kept.of_eq rfl rfl rfl rfl rfl rfl rfl rfl rfl rfl rfl rfl ?_
    apply keeps_draw
    assumption
  · assumption

theorem keeps_quayEnable {s₀ : State} (s : State) (v : ℕ) (h0 : Kept s₀ s) :
    Kept s₀ (State.quayEnable s v) := by
  unfold State.quayEnable
  split
  · refine Kept.of_eq rfl rfl rfl rfl rfl rfl rfl rfl rfl rfl rfl rfl ?_
    assumption
  · refine Kept.of_eq rfl rfl rfl rfl rfl rfl rfl rfl rfl rfl rfl rfl ?_
    assumption
  · refine Kept.of_eq rfl rfl rfl rfl rfl rfl rfl rfl rfl rfl rfl rfl ?_
    assumption
  · assumption

theorem keeps_execQuayDrainDone {s₀ : State} (s : State) (h0 : Kept s₀ s) :
    ∃ out, execQuayDrainDone s = .next out ∧ Kept s₀ out := by
  unfold execQuayDrainDone
  refine ⟨_, rfl, ?_⟩
  refine Kept.ite ?_ ?_
  · apply keeps_quayOff
    assumption
  · assumption

theorem keeps_execQuayHalt {s₀ : State} (s : State) (h0 : Kept s₀ s) :
    ∃ out, execQuayHalt s = .next out ∧ Kept s₀ out := by
  unfold execQuayHalt
  refine ⟨_, rfl, ?_⟩
  refine Kept.ite ?_ ?_
  · apply keeps_abort
    assumption
  · apply keeps_quayHaltOp
    assumption

theorem keeps_svcEnd {s₀ : State} (s : State) (e : SvcEnd) (h0 : Kept s₀ s) :
    Kept s₀ (State.svcEnd s e) := by
  unfold State.svcEnd
  extract_lets +onlyGivenNames t1
  refine Kept.cut (a := t1) ?_ fun _ => ?_
  · unfold t1; clear t1
    refine Kept.ite ?_ ?_
    · assumption
    · apply keeps_fire
      apply keeps_bump
      assumption
  clear_value t1
  refine Kept.ite ?_ ?_
  · assumption
  · apply keeps_fire
    apply keeps_bump
    assumption

theorem keeps_svcMiso {s₀ : State} (s : State) (l : List ℕ) (h0 : Kept s₀ s) :
    Kept s₀ (State.svcMiso s l) := by
  unfold State.svcMiso
  apply keeps_emit
  assumption

theorem keeps_svcDrop {s₀ : State} (s : State) (h0 : Kept s₀ s) :
    Kept s₀ (State.svcDrop s) := by
  unfold State.svcDrop
  apply keeps_fire
  apply keeps_bump
  assumption

theorem keeps_execMsgWrite {s₀ : State} (words : List Word) (e : SvcEnd) (s : State) (h0 : Kept s₀ s) :
    ∃ out, execMsgWrite words e s = .next out ∧ Kept s₀ out := by
  unfold execMsgWrite
  refine ⟨_, rfl, ?_⟩
  refine Kept.ite ?_ ?_
  · assumption
  · refine Kept.ite ?_ ?_
    · apply keeps_svcDrop
      apply keeps_svcMiso
      assumption
    · extract_lets +onlyGivenNames t1
      refine Kept.cut (a := t1) ?_ fun _ => ?_
      · unfold t1; clear t1
        apply keeps_svcEnd
        apply keeps_svcMiso
        assumption
      clear_value t1
      refine Kept.ite ?_ ?_
      · assumption
      · refine Kept.ite ?_ ?_
        · extract_lets +onlyGivenNames t2
          clear_value t2
          apply keeps_reply
          apply keeps_bump
          assumption
        · extract_lets +onlyGivenNames t3
          refine Kept.cut (a := t3) ?_ fun _ => ?_
          · unfold t3; clear t3
            apply keeps_bump
            assumption
          clear_value t3
          refine Kept.of_eq rfl rfl rfl rfl rfl rfl rfl rfl rfl rfl rfl rfl ?_
          assumption

theorem keeps_execMsgRead {s₀ : State} (len : ℕ) (e : SvcEnd) (s : State) (h0 : Kept s₀ s) :
    ∃ out, execMsgRead len e s = .next out ∧ Kept s₀ out := by
  unfold execMsgRead
  refine ⟨_, rfl, ?_⟩
  refine Kept.ite ?_ ?_
  · assumption
  · refine Kept.ite ?_ ?_
    · apply keeps_svcDrop
      apply keeps_svcMiso
      assumption
    · split
      · refine Kept.ite ?_ ?_
        · extract_lets +onlyGivenNames t1
          refine Kept.cut (a := t1) ?_ fun _ => ?_
          · unfold t1; clear t1
            apply keeps_svcEnd
            apply keeps_svcMiso
            assumption
          clear_value t1
          refine Kept.ite ?_ ?_
          · extract_lets +onlyGivenNames t2
            refine Kept.cut (a := t2) ?_ fun _ => ?_
            · unfold t2; clear t2
              apply keeps_bump
              assumption
            clear_value t2
            refine Kept.of_eq rfl rfl rfl rfl rfl rfl rfl rfl rfl rfl rfl rfl ?_
            assumption
          · assumption
        · extract_lets +onlyGivenNames t3
          refine Kept.cut (a := t3) ?_ fun _ => ?_
          · unfold t3; clear t3
            apply keeps_svcEnd
            apply keeps_svcMiso
            assumption
          clear_value t3
          refine Kept.ite ?_ ?_
          · apply keeps_bump
            assumption
          · assumption
      · extract_lets +onlyGivenNames t4
        refine Kept.cut (a := t4) ?_ fun _ => ?_
        · unfold t4; clear t4
          apply keeps_svcEnd
          apply keeps_svcMiso
          assumption
        clear_value t4
        refine Kept.ite ?_ ?_
        · apply keeps_bump
          assumption
        · assumption

theorem keeps_execReservedServiceCommand {s₀ : State} (s : State) (h0 : Kept s₀ s) :
    ∃ out, execReservedServiceCommand s = .next out ∧ Kept s₀ out := by
  unfold execReservedServiceCommand
  refine ⟨_, rfl, ?_⟩
  refine Kept.ite ?_ ?_
  · apply keeps_svcDrop
    apply keeps_svcMiso
    assumption
  · assumption

end Sys2Proof.Laws
end

