-- ==== Sys2Proof/Laws/KeepRecords.lean ====
section
/-! SUPPORT. What each operation of Machine/Records.lean keeps (Laws/Kept.lean). -/

open Sys2Proof Sys2Proof.Machine

namespace Sys2Proof.Laws

theorem keeps_execBellFiring {s₀ : State} (src : ℕ) (inst : ℕ) (detail : ℕ) (s : State) (h0 : Kept s₀ s) :
    ∃ out, execBellFiring src inst detail s = .next out ∧ Kept s₀ out := by
  unfold execBellFiring
  refine ⟨_, rfl, ?_⟩
  refine Kept.ite ?_ ?_
  · apply keeps_fire
    assumption
  · assumption

theorem keeps_execBellWindowTick {s₀ : State} (s : State) (h0 : Kept s₀ s) :
    ∃ out, execBellWindowTick s = .next out ∧ Kept s₀ out := by
  unfold execBellWindowTick
  refine ⟨_, rfl, ?_⟩
  apply keeps_musterTick
  refine Kept.ite ?_ ?_
  · refine Kept.of_eq rfl rfl rfl rfl rfl rfl rfl rfl rfl rfl rfl rfl ?_
    refine Kept.ite ?_ ?_
    · apply keeps_bellTick
      assumption
    · refine Kept.of_eq rfl rfl rfl rfl rfl rfl rfl rfl rfl rfl rfl rfl ?_
      assumption
  · refine Kept.of_eq rfl rfl rfl rfl rfl rfl rfl rfl rfl rfl rfl rfl ?_
    refine Kept.of_eq rfl rfl rfl rfl rfl rfl rfl rfl rfl rfl rfl rfl ?_
    refine Kept.ite ?_ ?_
    · apply keeps_bellTick
      assumption
    · refine Kept.of_eq rfl rfl rfl rfl rfl rfl rfl rfl rfl rfl rfl rfl ?_
      assumption

theorem keeps_execBellCompareMismatch {s₀ : State} (s : State) (h0 : Kept s₀ s) :
    ∃ out, execBellCompareMismatch s = .next out ∧ Kept s₀ out := by
  unfold execBellCompareMismatch
  refine ⟨_, rfl, ?_⟩
  apply keeps_fire
  refine Kept.of_eq rfl rfl rfl rfl rfl rfl rfl rfl rfl rfl rfl rfl ?_
  assumption

theorem keeps_execBellAck {s₀ : State} (src : ℕ) (session : Fin 16) (path : Fin 4) (s : State) (h0 : Kept s₀ s) :
    ∃ out, execBellAck src session path s = .next out ∧ Kept s₀ out := by
  unfold execBellAck
  refine ⟨_, rfl, ?_⟩
  refine Kept.ite ?_ ?_
  · assumption
  · refine Kept.ite ?_ ?_
    · apply keeps_ackSource
      assumption
    · apply keeps_abort
      assumption

theorem keeps_execBellForce {s₀ : State} (src : ℕ) (inst : ℕ) (s : State) (h0 : Kept s₀ s) :
    ∃ out, execBellForce src inst s = .next out ∧ Kept s₀ out := by
  unfold execBellForce
  refine ⟨_, rfl, ?_⟩
  refine Kept.ite ?_ ?_
  · assumption
  · refine Kept.ite ?_ ?_
    · apply keeps_fire
      assumption
    · apply keeps_abort
      assumption

theorem keeps_ackAll {s₀ : State} (s : State) (session : ℕ) (path : ℕ) (h0 : Kept s₀ s) :
    Kept s₀ (State.ackAll s session path) := by
  unfold State.ackAll
  extract_lets +onlyGivenNames t1
  clear_value t1
  apply keeps_tally_
  refine Kept.of_eq rfl rfl rfl rfl rfl rfl rfl rfl rfl rfl rfl rfl ?_
  assumption

theorem keeps_execAckAll {s₀ : State} (session : Fin 16) (path : Fin 4) (s : State) (h0 : Kept s₀ s) :
    ∃ out, execAckAll session path s = .next out ∧ Kept s₀ out := by
  unfold execAckAll
  refine ⟨_, rfl, ?_⟩
  refine Kept.ite ?_ ?_
  · apply keeps_ackAll
    assumption
  · assumption

theorem keeps_repeatWrite {s₀ : State} (s : State) (h0 : Kept s₀ s) :
    Kept s₀ (State.repeatWrite s) := by
  unfold State.repeatWrite
  refine Kept.ite ?_ ?_
  · apply keeps_flushRepeat
    apply keeps_enterWords
    apply keeps_enterWords
    assumption
  · assumption

theorem keeps_execTallyRecordWrite {s₀ : State} (s : State) (h0 : Kept s₀ s) :
    ∃ out, execTallyRecordWrite s = .next out ∧ Kept s₀ out := by
  unfold execTallyRecordWrite
  refine ⟨_, rfl, ?_⟩
  split
  · assumption
  · assumption
  · refine Kept.ite ?_ ?_
    · assumption
    · extract_lets +onlyGivenNames t1
      extract_lets +onlyGivenNames t2
      refine Kept.cut (a := t2) ?_ fun _ => ?_
      · unfold t2; clear t2
        apply keeps_writeRec
        apply keeps_enterWords
        apply keeps_repeatWrite
        refine Kept.of_eq rfl rfl rfl rfl rfl rfl rfl rfl rfl rfl rfl rfl ?_
        assumption
      clear_value t2
      refine Kept.ite ?_ ?_
      · assumption
      · apply keeps_addItem
        assumption

theorem keeps_execTallyRepeatWrite {s₀ : State} (s : State) (h0 : Kept s₀ s) :
    ∃ out, execTallyRepeatWrite s = .next out ∧ Kept s₀ out := by
  unfold execTallyRepeatWrite
  refine ⟨_, rfl, ?_⟩
  refine Kept.ite ?_ ?_
  · apply keeps_repeatWrite
    assumption
  · assumption

theorem keeps_execTallyOverrunQueue {s₀ : State} (s : State) (h0 : Kept s₀ s) :
    ∃ out, execTallyOverrunQueue s = .next out ∧ Kept s₀ out := by
  unfold execTallyOverrunQueue
  refine ⟨_, rfl, ?_⟩
  refine Kept.ite ?_ ?_
  · assumption
  · refine Kept.fold ?_ ?_
    · intro a1 a2 a3
      dsimp only
      apply keeps_fire
      apply keeps_tally_
      refine Kept.of_eq rfl rfl rfl rfl rfl rfl rfl rfl rfl rfl rfl rfl ?_
      assumption
    · assumption

theorem keeps_execOphoursStore {s₀ : State} (s : State) (h0 : Kept s₀ s) :
    ∃ out, execOphoursStore s = .next out ∧ Kept s₀ out := by
  unfold execOphoursStore
  refine ⟨_, rfl, ?_⟩
  refine Kept.of_eq rfl rfl rfl rfl rfl rfl rfl rfl rfl rfl rfl rfl ?_
  assumption

theorem keeps_execTallyFlush {s₀ : State} (s : State) (h0 : Kept s₀ s) :
    ∃ out, execTallyFlush s = .next out ∧ Kept s₀ out := by
  unfold execTallyFlush
  refine ⟨_, rfl, ?_⟩
  refine Kept.ite ?_ ?_
  · apply keeps_repeatWrite
    assumption
  · assumption

theorem keeps_tallyClear {s₀ : State} (s : State) (h0 : Kept s₀ s) :
    Kept s₀ (State.tallyClear s) := by
  unfold State.tallyClear
  extract_lets +onlyGivenNames mram
  have hm : WfTo 0 s.tally.mram mram := by
    unfold mram
    generalize s.tally.mram = m
    generalize List.range 256 = l
    induction l generalizing m with
    | nil => exact fun h => h
    | cons b l ih => exact fun h => ih _ (WfTo.set h)
  clear_value mram
  extract_lets +onlyGivenNames x s1
  have h1 : Kept s₀ s1 := by
    unfold s1
    exact h0.trans ⟨rfl, id, id, id, hm, rfl, Nat.le_refl _, fun _ _ => ⟨rfl, id⟩, Nat.le_refl _, List.Subset.refl _,
      Nat.le_refl _, .inl rfl⟩
  clear_value s1
  exact keeps_startRecord _ _ _ _ (keeps_beginBlock _ _ h1)

theorem keeps_execTallyClear {s₀ : State} (s : State) (h0 : Kept s₀ s) :
    ∃ out, execTallyClear s = .next out ∧ Kept s₀ out := by
  unfold execTallyClear
  refine ⟨_, rfl, ?_⟩
  refine Kept.ite ?_ ?_
  · apply keeps_tallyClear
    assumption
  · assumption

theorem keeps_traceDrop {s₀ : State} (s : State) (h0 : Kept s₀ s) :
    Kept s₀ (State.traceDrop s) := by
  unfold State.traceDrop
  extract_lets +onlyGivenNames t1
  clear_value t1
  extract_lets +onlyGivenNames t2
  refine Kept.cut (a := t2) ?_ fun _ => ?_
  · unfold t2; clear t2
    apply keeps_bump
    assumption
  clear_value t2
  extract_lets +onlyGivenNames t3
  clear_value t3
  extract_lets +onlyGivenNames t4
  refine Kept.cut (a := t4) ?_ fun _ => ?_
  · unfold t4; clear t4
    refine Kept.of_eq rfl rfl rfl rfl rfl rfl rfl rfl rfl rfl rfl rfl ?_
    assumption
  clear_value t4
  refine Kept.ite ?_ ?_
  · apply keeps_fire
    assumption
  · assumption

theorem keeps_execTraceRecordWrite {s₀ : State} (s : State) (h0 : Kept s₀ s) :
    ∃ out, execTraceRecordWrite s = .next out ∧ Kept s₀ out := by
  unfold execTraceRecordWrite
  refine ⟨_, rfl, ?_⟩
  split
  · assumption
  · refine Kept.ite ?_ ?_
    · assumption
    · refine Kept.ite ?_ ?_
      · apply keeps_traceDrop
        refine Kept.of_eq rfl rfl rfl rfl rfl rfl rfl rfl rfl rfl rfl rfl ?_
        assumption
      · extract_lets +onlyGivenNames t1
        clear_value t1
        split
        · apply keeps_bump
          refine Kept.ofEq (by assumption) ?_
          apply keeps_penPacketIn
          apply keeps_enterPen
          refine Kept.of_eq rfl rfl rfl rfl rfl rfl rfl rfl rfl rfl rfl rfl ?_
          assumption
        · apply keeps_traceDrop
          refine Kept.ofEq (by assumption) ?_
          apply keeps_penPacketIn
          apply keeps_enterPen
          refine Kept.of_eq rfl rfl rfl rfl rfl rfl rfl rfl rfl rfl rfl rfl ?_
          assumption

end Sys2Proof.Laws
end

