-- ==== Sys2Proof/Laws/KeepFold.lean ====
section
/-! SUPPORT. What each operation of Machine/Fold.lean keeps (Laws/Kept.lean). -/

open Sys2Proof Sys2Proof.Machine

namespace Sys2Proof.Laws

theorem keeps_setOtp {s₀ : State} (s : State) (k : ℕ) (x : OtpKey)
    (hk : OtpTo s.fold.otp (Tab.set OtpKey.none s.fold.otp k x)) (h0 : Kept s₀ s) : Kept s₀ (State.setOtp s k x) := by
  unfold State.setOtp
  exact h0.trans ⟨rfl, id, id, id, id, rfl, Nat.le_refl _, hk, Nat.le_refl _, List.Subset.refl _, Nat.le_refl _, .inl rfl⟩

theorem keeps_fillSlot {s₀ : State} (s : State) (k : ℕ) (w1 : ℕ) (w2 : ℕ) (m : ℕ) (h0 : Kept s₀ s) :
    Kept s₀ (State.fillSlot s k w1 w2 m) := by
  unfold State.fillSlot
  apply keeps_setSlot
  assumption

theorem keeps_opInstallClear {s₀ : State} (s : State) (a : Asker) (w : List ℕ) (target : ℕ) (h0 : Kept s₀ s) :
    KeptQ s₀ (State.opInstallClear s a w target) := by
  unfold State.opInstallClear
  extract_lets +onlyGivenNames t1
  extract_lets +onlyGivenNames t2
  refine KeptQ.ite ?_ ?_
  · refine KeptQ.some ?_
    apply keeps_fillSlot
    assumption
  · exact KeptQ.none

theorem keeps_opInstallSigned {s₀ : State} (s : State) (a : Asker) (w : List ℕ) (target : ℕ) (h0 : Kept s₀ s) :
    KeptQ s₀ (State.opInstallSigned s a w target) := by
  unfold State.opInstallSigned
  extract_lets w1 n m
  split
  · rename_i hc
    refine KeptQ.some ((keeps_fillSlot s target w1 (w.getD 2 0) (big16 m) h0).trans ?_)
    have hs := signedOk_seq hc.2.2.2.2.2.2
    exact ⟨rfl, id, id, id, id, rfl, hs, fun _ _ => ⟨rfl, id⟩, Nat.le_refl _, List.Subset.refl _, Nat.le_refl _, .inl rfl⟩
  · exact KeptQ.none

theorem keeps_opInstallWrapped {s₀ : State} (s : State) (a : Asker) (w : List ℕ) (slot : ℕ) (target : ℕ) (h0 : Kept s₀ s) :
    KeptQ s₀ (State.opInstallWrapped s a w slot target) := by
  unfold State.opInstallWrapped
  extract_lets +onlyGivenNames t1
  extract_lets +onlyGivenNames t2
  extract_lets +onlyGivenNames t3
  refine KeptQ.ite ?_ ?_
  · refine KeptQ.map ?_
    intro a1
    apply keeps_useSlot
    apply keeps_fillSlot
    assumption
  · exact KeptQ.none

theorem keeps_opDerive {s₀ : State} (s : State) (a : Asker) (w : List ℕ) (target : ℕ) (key : Option ℕ) (h0 : Kept s₀ s) :
    KeptQ s₀ (State.opDerive s a w target key) := by
  unfold State.opDerive
  extract_lets +onlyGivenNames t1
  split
  · exact KeptQ.none
  · refine KeptQ.ite ?_ ?_
    · refine KeptQ.map ?_
      intro a1
      apply keeps_fillSlot
      assumption
    · exact KeptQ.none

theorem keeps_opSign {s₀ : State} (s : State) (a : Asker) (w : List ℕ) (slot : ℕ) (target : ℕ) (h0 : Kept s₀ s) :
    KeptQ s₀ (State.opSign s a w slot target) := by
  unfold State.opSign
  extract_lets +onlyGivenNames t1
  refine KeptQ.ite ?_ ?_
  · split
    refine KeptQ.some ?_
    apply keeps_useSlot
    refine Kept.ofEq (by assumption) ?_
    apply keeps_drawBits
    assumption
  · exact KeptQ.none

theorem keeps_opVerify {s₀ : State} (s : State) (a : Asker) (w : List ℕ) (slot : ℕ) (target : ℕ) (h0 : Kept s₀ s) :
    KeptQ s₀ (State.opVerify s a w slot target) := by
  unfold State.opVerify
  extract_lets +onlyGivenNames t1
  refine KeptQ.ite ?_ ?_
  · refine KeptQ.some ?_
    apply keeps_useSlot
    assumption
  · exact KeptQ.none

theorem keeps_foldZero {s₀ : State} (s : State) (h0 : Kept s₀ s) :
    Kept s₀ (State.foldZero s) := by
  unfold State.foldZero
  extract_lets +onlyGivenNames t1
  clear_value t1
  extract_lets +onlyGivenNames t2
  clear_value t2
  extract_lets +onlyGivenNames t3
  extract_lets +onlyGivenNames t4
  refine Kept.cut (a := t4) ?_ fun _ => ?_
  · unfold t4; clear t4
    refine Kept.of_eq rfl rfl rfl rfl rfl rfl rfl rfl rfl rfl rfl rfl ?_
    assumption
  clear_value t4
  refine Kept.fold ?_ ?_
  · intro a1 a2 a3
    apply keeps_eraseSlot
    assumption
  · assumption

theorem keeps_opLifecycle {s₀ : State} (s : State) (a : Asker) (w : List ℕ) (slot : ℕ) (target : ℕ) (h0 : Kept s₀ s) :
    KeptQ s₀ (State.opLifecycle s a w slot target) := by
  unfold State.opLifecycle
  extract_lets +onlyGivenNames dest signed
  have h1 : Kept s₀ (if signed = true then { s with fold.installSeq := u36 (w.drop 4) } else s) := by
    split
    · rename_i hs
      have hq := signedOk_seq (Bool.and_eq_true_iff.mp hs).2
      exact h0.trans ⟨rfl, id, id, id, id, rfl, hq, fun _ _ => ⟨rfl, id⟩, Nat.le_refl _, List.Subset.refl _, Nat.le_refl _, .inl rfl⟩
    · exact h0
  split
  · rename_i hc
    have hl := lcOk_change hc.2.2.2.2
    have h2 := keeps_foldZero _ h1
    refine KeptQ.some ?_
    dsimp only
    generalize State.foldZero (if signed = true then { s with fold.installSeq := u36 (w.drop 4) } else s) = z at h2 ⊢
    apply keeps_fire
    refine ⟨h2.1, h2.2, h2.3, h2.4, h2.5, h2.6, h2.7, h2.8, h2.9, h2.10, h2.11, .inr ⟨dest, rfl, ?_⟩⟩
    rw [← h0.6]
    exact hl
  · exact KeptQ.none

theorem keeps_opOtpWrite {s₀ : State} (s : State) (a : Asker) (w : List ℕ) (slot : ℕ) (target : ℕ) (h0 : Kept s₀ s) :
    KeptQ s₀ (State.opOtpWrite s a w slot target) := by
  unfold State.opOtpWrite
  extract_lets h point
  split
  · rename_i hc
    refine KeptQ.some (keeps_setOtp _ _ _ ?_ h0)
    intro k hk
    rw [get_set_of_ne (by simp [OtpKey.none])]
    by_cases e : k = target
    · subst e
      exact absurd hc.2.2.2.2.2.2.1 hk
    · rw [if_neg e]
      exact ⟨rfl, id⟩
  · exact KeptQ.none

theorem keeps_opRevoke {s₀ : State} (s : State) (a : Asker) (w : List ℕ) (slot : ℕ) (target : ℕ) (h0 : Kept s₀ s) :
    KeptQ s₀ (State.opRevoke s a w slot target) := by
  unfold State.opRevoke
  split
  · rename_i hc
    refine KeptQ.some (keeps_setOtp _ _ _ ?_ h0)
    have hs : (s.otp target).hash.isSome = true := by
      have := hc.2.2.2.2.2.1
      simp only [State.ownerHashes, List.contains_eq_mem, decide_eq_true_eq, List.mem_filter, Bool.and_eq_true] at this
      exact this.2.1
    intro k hk
    have hne : ({ s.otp target with revoked := true } : OtpKey) ≠ OtpKey.none := by
      intro e
      have : (s.otp target).hash = none := congrArg OtpKey.hash e
      rw [this] at hs
      exact absurd hs (by decide)
    rw [get_set_of_ne hne]
    by_cases e : k = target
    · subst e
      rw [if_pos rfl]
      exact ⟨rfl, fun _ => rfl⟩
    · rw [if_neg e]
      exact ⟨rfl, id⟩
  · exact KeptQ.none

theorem keeps_foldRun {s₀ : State} (s : State) (r : FoldReq) (h0 : Kept s₀ s) :
    KeptQ s₀ (State.foldRun s r) := by
  unfold State.foldRun
  extract_lets +onlyGivenNames t1
  clear_value t1
  extract_lets +onlyGivenNames t2
  clear_value t2
  extract_lets +onlyGivenNames t3
  clear_value t3
  extract_lets +onlyGivenNames t4
  clear_value t4
  split
  · refine KeptQ.ite ?_ ?_
    · apply keeps_opInstallClear
      assumption
    · exact KeptQ.none
  · refine KeptQ.ite ?_ ?_
    · apply keeps_opInstallSigned
      assumption
    · exact KeptQ.none
  · apply keeps_opInstallWrapped
    assumption
  · refine KeptQ.map₂ ?_ ?_
    · apply keeps_opDerive
      assumption
    · intro a5 a6
      dsimp only
      apply keeps_useSlot
      assumption
  · refine KeptQ.ite ?_ ?_
    · apply keeps_opDerive
      assumption
    · exact KeptQ.none
  · refine KeptQ.ite ?_ ?_
    · refine KeptQ.some ?_
      dsimp only
      apply keeps_eraseSlot
      assumption
    · exact KeptQ.none
  · apply keeps_opSign
    assumption
  · apply keeps_opVerify
    assumption
  · apply keeps_opLifecycle
    assumption
  · apply keeps_opOtpWrite
    assumption
  · apply keeps_opRevoke
    assumption
  · exact KeptQ.none

theorem keeps_foldReply {s₀ : State} (s : State) (a : Asker) (abort : ℕ) (h0 : Kept s₀ s) :
    Kept s₀ (State.foldReply s a abort) := by
  unfold State.foldReply
  extract_lets +onlyGivenNames t1
  clear_value t1
  apply keeps_respond
  assumption

theorem keeps_foldRequest {s₀ : State} (s : State) (a : Asker) (words : List ℕ) (h0 : Kept s₀ s) :
    Kept s₀ (State.foldRequest s a words) := by
  unfold State.foldRequest
  refine Kept.ite ?_ ?_
  · apply keeps_foldReply
    assumption
  · refine Kept.of_eq rfl rfl rfl rfl rfl rfl rfl rfl rfl rfl rfl rfl ?_
    assumption

theorem keeps_execFoldOpDone {s₀ : State} (s : State) (h0 : Kept s₀ s) :
    ∃ out, execFoldOpDone s = .next out ∧ Kept s₀ out := by
  unfold execFoldOpDone
  refine ⟨_, rfl, ?_⟩
  split
  · assumption
  · extract_lets +onlyGivenNames t1
    clear_value t1
    extract_lets +onlyGivenNames t2
    extract_lets +onlyGivenNames t3
    refine Kept.cut (a := t3) ?_ fun _ => ?_
    · unfold t3; clear t3
      refine Kept.of_eq rfl rfl rfl rfl rfl rfl rfl rfl rfl rfl rfl rfl ?_
      assumption
    clear_value t3
    extract_lets +onlyGivenNames t4
    clear_value t4
    extract_lets +onlyGivenNames t5
    clear_value t5
    split
    · extract_lets +onlyGivenNames t6
      extract_lets +onlyGivenNames t7
      refine Kept.cut (a := t7) ?_ fun _ => ?_
      · unfold t7; clear t7
        refine Kept.of_eq rfl rfl rfl rfl rfl rfl rfl rfl rfl rfl rfl rfl ?_
        refine KeptQ.elim (by assumption) ?_
        refine KeptQ.ite ?_ ?_
        · exact KeptQ.none
        · apply keeps_foldRun
          assumption
      clear_value t7
      apply keeps_foldReply
      apply keeps_foldGrant
      assumption
    · extract_lets +onlyGivenNames t8
      extract_lets +onlyGivenNames t9
      refine Kept.cut (a := t9) ?_ fun _ => ?_
      · unfold t9; clear t9
        refine Kept.of_eq rfl rfl rfl rfl rfl rfl rfl rfl rfl rfl rfl rfl ?_
        assumption
      clear_value t9
      apply keeps_foldReply
      apply keeps_foldRefuse
      assumption

theorem keeps_foldAsk {s₀ : State} (s : State) (a : Asker) (op : ℕ) (slot : ℕ) (target : ℕ) (fill : Fill) (payload : List Word) (h0 : Kept s₀ s) :
    Kept s₀ (State.foldAsk s a op slot target fill payload) := by
  unfold State.foldAsk
  apply keeps_foldRequest
  assumption

theorem keeps_execInstallClear {s₀ : State} (a : Asker) (target : Fin 64) (fill : Fill) (payload : List Word) (s : State) (h0 : Kept s₀ s) :
    ∃ out, execInstallClear a target fill payload s = .next out ∧ Kept s₀ out := by
  unfold execInstallClear
  refine ⟨_, rfl, ?_⟩
  apply keeps_foldAsk
  assumption

theorem keeps_execInstallSigned {s₀ : State} (a : Asker) (target : Fin 64) (fill : Fill) (payload : List Word) (s : State) (h0 : Kept s₀ s) :
    ∃ out, execInstallSigned a target fill payload s = .next out ∧ Kept s₀ out := by
  unfold execInstallSigned
  refine ⟨_, rfl, ?_⟩
  apply keeps_foldAsk
  assumption

theorem keeps_execInstallWrapped {s₀ : State} (a : Asker) (slot : Fin 64) (target : Fin 64) (fill : Fill) (payload : List Word) (s : State) (h0 : Kept s₀ s) :
    ∃ out, execInstallWrapped a slot target fill payload s = .next out ∧ Kept s₀ out := by
  unfold execInstallWrapped
  refine ⟨_, rfl, ?_⟩
  apply keeps_foldAsk
  assumption

theorem keeps_execDerive {s₀ : State} (a : Asker) (slot : Fin 64) (target : Fin 64) (fill : Fill) (payload : List Word) (s : State) (h0 : Kept s₀ s) :
    ∃ out, execDerive a slot target fill payload s = .next out ∧ Kept s₀ out := by
  unfold execDerive
  refine ⟨_, rfl, ?_⟩
  apply keeps_foldAsk
  assumption

theorem keeps_execDeriveRoot {s₀ : State} (a : Asker) (target : Fin 64) (fill : Fill) (payload : List Word) (s : State) (h0 : Kept s₀ s) :
    ∃ out, execDeriveRoot a target fill payload s = .next out ∧ Kept s₀ out := by
  unfold execDeriveRoot
  refine ⟨_, rfl, ?_⟩
  apply keeps_foldAsk
  assumption

theorem keeps_execErase {s₀ : State} (a : Asker) (target : Fin 64) (s : State) (h0 : Kept s₀ s) :
    ∃ out, execErase a target s = .next out ∧ Kept s₀ out := by
  unfold execErase
  refine ⟨_, rfl, ?_⟩
  apply keeps_foldAsk
  assumption

theorem keeps_execSign {s₀ : State} (a : Asker) (slot : Fin 64) (payload : List Word) (s : State) (h0 : Kept s₀ s) :
    ∃ out, execSign a slot payload s = .next out ∧ Kept s₀ out := by
  unfold execSign
  refine ⟨_, rfl, ?_⟩
  apply keeps_foldAsk
  assumption

theorem keeps_execVerify {s₀ : State} (a : Asker) (slot : Fin 64) (payload : List Word) (s : State) (h0 : Kept s₀ s) :
    ∃ out, execVerify a slot payload s = .next out ∧ Kept s₀ out := by
  unfold execVerify
  refine ⟨_, rfl, ?_⟩
  apply keeps_foldAsk
  assumption

theorem keeps_execLifecycle {s₀ : State} (a : Asker) (payload : List Word) (s : State) (h0 : Kept s₀ s) :
    ∃ out, execLifecycle a payload s = .next out ∧ Kept s₀ out := by
  unfold execLifecycle
  refine ⟨_, rfl, ?_⟩
  apply keeps_foldAsk
  assumption

theorem keeps_execOtpWrite {s₀ : State} (a : Asker) (target : Fin 64) (payload : List Word) (s : State) (h0 : Kept s₀ s) :
    ∃ out, execOtpWrite a target payload s = .next out ∧ Kept s₀ out := by
  unfold execOtpWrite
  refine ⟨_, rfl, ?_⟩
  apply keeps_foldAsk
  assumption

theorem keeps_execRevoke {s₀ : State} (a : Asker) (target : Fin 64) (s : State) (h0 : Kept s₀ s) :
    ∃ out, execRevoke a target s = .next out ∧ Kept s₀ out := by
  unfold execRevoke
  refine ⟨_, rfl, ?_⟩
  apply keeps_foldAsk
  assumption

theorem keeps_execFoldTamper {s₀ : State} (cause : Fin 9) (vbat : Fin 4096) (s : State) (h0 : Kept s₀ s) :
    ∃ out, execFoldTamper cause vbat s = .next out ∧ Kept s₀ out := by
  unfold execFoldTamper
  refine ⟨_, rfl, ?_⟩
  refine Kept.ite ?_ ?_
  · assumption
  · extract_lets +onlyGivenNames t1
    refine Kept.cut (a := t1) ?_ fun _ => ?_
    · unfold t1; clear t1
      apply keeps_foldZero
      assumption
    clear_value t1
    extract_lets +onlyGivenNames t2
    extract_lets +onlyGivenNames t3
    clear_value t3
    extract_lets +onlyGivenNames t4
    refine Kept.cut (a := t4) ?_ fun _ => ?_
    · unfold t4; clear t4
      refine Kept.of_eq rfl rfl rfl rfl rfl rfl rfl rfl rfl rfl rfl rfl ?_
      assumption
    clear_value t4
    refine Kept.ite ?_ ?_
    · apply keeps_endSessions
      apply keeps_fire
      apply keeps_bump
      assumption
    · refine Kept.of_eq rfl rfl rfl rfl rfl rfl rfl rfl rfl rfl rfl rfl ?_
      assumption

theorem keeps_drawRoot {s₀ : State} (s : State) (h0 : Kept s₀ s) :
    Kept s₀ (State.drawRoot s) := by
  unfold State.drawRoot
  dsimp only
  refine Kept.of_eq rfl rfl rfl rfl rfl rfl rfl rfl rfl rfl rfl rfl ?_
  apply keeps_drawBits
  assumption

theorem keeps_execFoldRootDraw {s₀ : State} (s : State) (h0 : Kept s₀ s) :
    ∃ out, execFoldRootDraw s = .next out ∧ Kept s₀ out := by
  unfold execFoldRootDraw
  refine ⟨_, rfl, ?_⟩
  refine Kept.ite ?_ ?_
  · apply keeps_drawRoot
    refine Kept.of_eq rfl rfl rfl rfl rfl rfl rfl rfl rfl rfl rfl rfl ?_
    assumption
  · refine Kept.of_eq rfl rfl rfl rfl rfl rfl rfl rfl rfl rfl rfl rfl ?_
    assumption

theorem keeps_execVbatLowExpiry {s₀ : State} (vbat : Fin 4096) (s : State) (h0 : Kept s₀ s) :
    ∃ out, execVbatLowExpiry vbat s = .next out ∧ Kept s₀ out := by
  unfold execVbatLowExpiry
  extract_lets +onlyGivenNames t1
  extract_lets +onlyGivenNames t2
  refine Kept.have_ (P := Kept s₀ t2) ?_ fun hs3 => ?_
  · unfold t2; clear t2
    refine Kept.of_eq rfl rfl rfl rfl rfl rfl rfl rfl rfl rfl rfl rfl ?_
    assumption
  clear_value t2
  refine ⟨_, rfl, ?_⟩
  refine Kept.ite ?_ ?_
  · apply keeps_fireLive
    assumption
  · assumption

theorem keeps_execTrngHealthFail {s₀ : State} (s : State) (h0 : Kept s₀ s) :
    ∃ out, execTrngHealthFail s = .next out ∧ Kept s₀ out := by
  unfold execTrngHealthFail
  extract_lets +onlyGivenNames t1
  extract_lets +onlyGivenNames t2
  refine Kept.have_ (P := Kept s₀ t2) ?_ fun hs3 => ?_
  · unfold t2; clear t2
    refine Kept.of_eq rfl rfl rfl rfl rfl rfl rfl rfl rfl rfl rfl rfl ?_
    assumption
  clear_value t2
  refine ⟨_, rfl, ?_⟩
  apply keeps_fireLive
  apply keeps_bump
  assumption

theorem keeps_execTrngHealthRecover {s₀ : State} (s : State) (h0 : Kept s₀ s) :
    ∃ out, execTrngHealthRecover s = .next out ∧ Kept s₀ out := by
  unfold execTrngHealthRecover
  refine ⟨_, rfl, ?_⟩
  refine Kept.of_eq rfl rfl rfl rfl rfl rfl rfl rfl rfl rfl rfl rfl ?_
  assumption

theorem keeps_foldLatched {s₀ : State} (s : State) (h0 : Kept s₀ s) :
    Kept s₀ (State.foldLatched s) := by
  unfold State.foldLatched
  extract_lets +onlyGivenNames t1
  clear_value t1
  extract_lets +onlyGivenNames t2
  clear_value t2
  extract_lets +onlyGivenNames t3
  clear_value t3
  extract_lets +onlyGivenNames t4
  clear_value t4
  extract_lets +onlyGivenNames t5
  extract_lets +onlyGivenNames t6
  refine Kept.cut (a := t6) ?_ fun _ => ?_
  · unfold t6; clear t6
    refine Kept.of_eq rfl rfl rfl rfl rfl rfl rfl rfl rfl rfl rfl rfl ?_
    assumption
  clear_value t6
  extract_lets +onlyGivenNames t7
  refine Kept.cut (a := t7) ?_ fun _ => ?_
  · unfold t7; clear t7
    refine Kept.ite ?_ ?_
    · assumption
    · refine Kept.ite ?_ ?_
      · assumption
      · apply keeps_fire
        apply keeps_bump
        assumption
  clear_value t7
  refine Kept.ite ?_ ?_
  · apply keeps_drawRoot
    assumption
  · assumption

theorem keeps_foldStart {s₀ : State} (s : State) (h0 : Kept s₀ s) :
    Kept s₀ (State.foldStart s) := by
  unfold State.foldStart
  extract_lets +onlyGivenNames t1
  extract_lets +onlyGivenNames t2
  refine Kept.cut (a := t2) ?_ fun _ => ?_
  · unfold t2; clear t2
    refine Kept.of_eq rfl rfl rfl rfl rfl rfl rfl rfl rfl rfl rfl rfl ?_
    assumption
  clear_value t2
  extract_lets +onlyGivenNames t3
  refine Kept.cut (a := t3) ?_ fun _ => ?_
  · unfold t3; clear t3
    refine Kept.fold ?_ ?_
    · intro a4 a5 a6
      refine Kept.ite ?_ ?_
      · apply keeps_eraseSlot
        assumption
      · assumption
    · assumption
  clear_value t3
  apply keeps_foldLatched
  assumption

end Sys2Proof.Laws
end

