-- ==== Sys2Proof/Laws/KeepGates.lean ====
section
/-! SUPPORT. What each operation of Machine/Gates.lean keeps (Laws/Kept.lean). -/

open Sys2Proof Sys2Proof.Machine

namespace Sys2Proof.Laws

theorem keeps_gCount {s₀ : State} (s : State) (g : ℕ) (k : ℕ) (h0 : Kept s₀ s) :
    Kept s₀ (State.gCount s g k) := by
  unfold State.gCount
  apply keeps_bump
  assumption

theorem keeps_gateEnable {s₀ : State} (s : State) (g : ℕ) (v : ℕ) (h0 : Kept s₀ s) :
    Kept s₀ (State.gateEnable s g v) := by
  unfold State.gateEnable
  extract_lets +onlyGivenNames t1
  clear_value t1
  split
  · apply keeps_setGate
    assumption
  · assumption
  · assumption
  · assumption
  · apply keeps_setGate
    assumption

theorem keeps_gateTrip {s₀ : State} (s : State) (g : ℕ) (cause : ℕ) (h0 : Kept s₀ s) :
    Kept s₀ (State.gateTrip s g cause) := by
  unfold State.gateTrip
  extract_lets +onlyGivenNames t1
  clear_value t1
  extract_lets +onlyGivenNames t2
  clear_value t2
  extract_lets +onlyGivenNames t3
  extract_lets +onlyGivenNames t4
  clear_value t4
  extract_lets +onlyGivenNames t5
  refine Kept.cut (a := t5) ?_ fun _ => ?_
  · unfold t5; clear t5
    apply keeps_setGate
    assumption
  clear_value t5
  extract_lets +onlyGivenNames t6
  refine Kept.cut (a := t6) ?_ fun _ => ?_
  · unfold t6; clear t6
    apply keeps_gCount
    assumption
  clear_value t6
  extract_lets +onlyGivenNames t7
  refine Kept.cut (a := t7) ?_ fun _ => ?_
  · unfold t7; clear t7
    refine Kept.ite ?_ ?_
    · apply keeps_gCount
      assumption
    · assumption
  clear_value t7
  extract_lets +onlyGivenNames t8
  refine Kept.cut (a := t8) ?_ fun _ => ?_
  · unfold t8; clear t8
    apply keeps_fireLive
    assumption
  clear_value t8
  refine Kept.ite ?_ ?_
  · apply keeps_fireLive
    apply keeps_gCount
    assumption
  · assumption

theorem keeps_execGateSeated {s₀ : State} (g : Fin 16) (m : GateSample) (s : State) (h0 : Kept s₀ s) :
    ∃ out, execGateSeated g m s = .next out ∧ Kept s₀ out := by
  unfold execGateSeated
  extract_lets +onlyGivenNames t1
  clear_value t1
  refine ⟨_, rfl, ?_⟩
  refine Kept.ite ?_ ?_
  · assumption
  · refine Kept.ite ?_ ?_
    · apply keeps_fireLive
      apply keeps_gCount
      apply keeps_setGate
      assumption
    · apply keeps_setGate
      assumption

theorem keeps_execGateUnseated {s₀ : State} (g : Fin 16) (a : Bool) (b : Bool) (s : State) (h0 : Kept s₀ s) :
    ∃ out, execGateUnseated g a b s = .next out ∧ Kept s₀ out := by
  unfold execGateUnseated
  extract_lets +onlyGivenNames t1
  clear_value t1
  extract_lets +onlyGivenNames t2
  clear_value t2
  refine ⟨_, rfl, ?_⟩
  refine Kept.ite ?_ ?_
  · assumption
  · refine Kept.ite ?_ ?_
    · apply keeps_fireLive
      apply keeps_setGate
      assumption
    · split
      · apply keeps_setGate
        assumption
      · apply keeps_setGate
        assumption
      · apply keeps_setGate
        assumption
      · apply keeps_setGate
        assumption
      · apply keeps_setGate
        assumption

theorem keeps_execSeatDebounceExpiry {s₀ : State} (g : Fin 16) (s : State) (h0 : Kept s₀ s) :
    ∃ out, execSeatDebounceExpiry g s = .next out ∧ Kept s₀ out := by
  unfold execSeatDebounceExpiry
  refine ⟨_, rfl, ?_⟩
  refine Kept.ite ?_ ?_
  · apply keeps_setGate
    assumption
  · assumption

theorem keeps_execGateStart {s₀ : State} (g : Fin 16) (m : GateSample) (s : State) (h0 : Kept s₀ s) :
    ∃ out, execGateStart g m s = .next out ∧ Kept s₀ out := by
  unfold execGateStart
  refine ⟨_, rfl, ?_⟩
  refine Kept.ite ?_ ?_
  · apply keeps_setGate
    assumption
  · assumption

theorem keeps_execPrechargeDone {s₀ : State} (g : Fin 16) (m : GateSample) (s : State) (h0 : Kept s₀ s) :
    ∃ out, execPrechargeDone g m s = .next out ∧ Kept s₀ out := by
  unfold execPrechargeDone
  refine ⟨_, rfl, ?_⟩
  refine Kept.ite ?_ ?_
  · apply keeps_setGate
    assumption
  · assumption

theorem keeps_execTurnOnDone {s₀ : State} (g : Fin 16) (m : GateSample) (s : State) (h0 : Kept s₀ s) :
    ∃ out, execTurnOnDone g m s = .next out ∧ Kept s₀ out := by
  unfold execTurnOnDone
  refine ⟨_, rfl, ?_⟩
  refine Kept.ite ?_ ?_
  · apply keeps_setGate
    assumption
  · assumption

theorem keeps_execPgoodDelayExpiry {s₀ : State} (g : Fin 16) (s : State) (h0 : Kept s₀ s) :
    ∃ out, execPgoodDelayExpiry g s = .next out ∧ Kept s₀ out := by
  unfold execPgoodDelayExpiry
  refine ⟨_, rfl, ?_⟩
  refine Kept.ite ?_ ?_
  · apply keeps_setGate
    assumption
  · assumption

theorem keeps_execPreTimeExpiry {s₀ : State} (g : Fin 16) (s : State) (h0 : Kept s₀ s) :
    ∃ out, execPreTimeExpiry g s = .next out ∧ Kept s₀ out := by
  unfold execPreTimeExpiry
  refine ⟨_, rfl, ?_⟩
  refine Kept.ite ?_ ?_
  · apply keeps_gateTrip
    assumption
  · assumption

theorem keeps_execMainTimeExpiry {s₀ : State} (g : Fin 16) (s : State) (h0 : Kept s₀ s) :
    ∃ out, execMainTimeExpiry g s = .next out ∧ Kept s₀ out := by
  unfold execMainTimeExpiry
  refine ⟨_, rfl, ?_⟩
  refine Kept.ite ?_ ?_
  · apply keeps_gateTrip
    assumption
  · assumption

theorem keeps_execSlowCurrentTrip {s₀ : State} (g : Fin 16) (m : GateSample) (s : State) (h0 : Kept s₀ s) :
    ∃ out, execSlowCurrentTrip g m s = .next out ∧ Kept s₀ out := by
  unfold execSlowCurrentTrip
  refine ⟨_, rfl, ?_⟩
  refine Kept.ite ?_ ?_
  · apply keeps_gateTrip
    apply keeps_setGate
    assumption
  · assumption

theorem keeps_execFastCurrentTrip {s₀ : State} (g : Fin 16) (s : State) (h0 : Kept s₀ s) :
    ∃ out, execFastCurrentTrip g s = .next out ∧ Kept s₀ out := by
  unfold execFastCurrentTrip
  refine ⟨_, rfl, ?_⟩
  refine Kept.ite ?_ ?_
  · apply keeps_gateTrip
    assumption
  · assumption

theorem keeps_execFetHotTrip {s₀ : State} (g : Fin 16) (m : GateSample) (s : State) (h0 : Kept s₀ s) :
    ∃ out, execFetHotTrip g m s = .next out ∧ Kept s₀ out := by
  unfold execFetHotTrip
  refine ⟨_, rfl, ?_⟩
  refine Kept.ite ?_ ?_
  · apply keeps_gateTrip
    apply keeps_setGate
    assumption
  · assumption

theorem keeps_execRailWindowExit {s₀ : State} (g : Fin 16) (m : GateSample) (s : State) (h0 : Kept s₀ s) :
    ∃ out, execRailWindowExit g m s = .next out ∧ Kept s₀ out := by
  unfold execRailWindowExit
  refine ⟨_, rfl, ?_⟩
  refine Kept.ite ?_ ?_
  · apply keeps_setGate
    assumption
  · assumption

theorem keeps_execCooldownExpiry {s₀ : State} (g : Fin 16) (m : GateSample) (s : State) (h0 : Kept s₀ s) :
    ∃ out, execCooldownExpiry g m s = .next out ∧ Kept s₀ out := by
  unfold execCooldownExpiry
  refine ⟨_, rfl, ?_⟩
  refine Kept.ite ?_ ?_
  · apply keeps_setGate
    assumption
  · assumption

theorem keeps_execFetCooled {s₀ : State} (g : Fin 16) (m : GateSample) (s : State) (h0 : Kept s₀ s) :
    ∃ out, execFetCooled g m s = .next out ∧ Kept s₀ out := by
  unfold execFetCooled
  refine ⟨_, rfl, ?_⟩
  refine Kept.ite ?_ ?_
  · apply keeps_setGate
    assumption
  · assumption

theorem keeps_execRetryResetExpiry {s₀ : State} (g : Fin 16) (s : State) (h0 : Kept s₀ s) :
    ∃ out, execRetryResetExpiry g s = .next out ∧ Kept s₀ out := by
  unfold execRetryResetExpiry
  refine ⟨_, rfl, ?_⟩
  refine Kept.ite ?_ ?_
  · apply keeps_setGate
    assumption
  · assumption

theorem keeps_execGateDamageDetected {s₀ : State} (g : Fin 16) (m : GateSample) (s : State) (h0 : Kept s₀ s) :
    ∃ out, execGateDamageDetected g m s = .next out ∧ Kept s₀ out := by
  unfold execGateDamageDetected
  extract_lets +onlyGivenNames t1
  clear_value t1
  refine ⟨_, rfl, ?_⟩
  refine Kept.ite ?_ ?_
  · apply keeps_fireLive
    extract_lets +onlyGivenNames t2
    refine Kept.cut (a := t2) ?_ fun _ => ?_
    · unfold t2; clear t2
      apply keeps_setGate
      assumption
    clear_value t2
    refine Kept.of_eq rfl rfl rfl rfl rfl rfl rfl rfl rfl rfl rfl rfl ?_
    assumption
  · assumption

theorem keeps_gateBad {s₀ : State} (s : State) (h0 : Kept s₀ s) :
    Kept s₀ (State.gateBad s) := by
  unfold State.gateBad
  apply keeps_abort
  assumption

theorem keeps_gateOnOp {s₀ : State} (s : State) (g : ℕ) (h0 : Kept s₀ s) :
    Kept s₀ (State.gateOnOp s g) := by
  unfold State.gateOnOp
  extract_lets +onlyGivenNames t1
  clear_value t1
  refine Kept.ite ?_ ?_
  · apply keeps_setGate
    assumption
  · apply keeps_gateBad
    assumption

theorem keeps_gateOffOp {s₀ : State} (s : State) (g : ℕ) (h0 : Kept s₀ s) :
    Kept s₀ (State.gateOffOp s g) := by
  unfold State.gateOffOp
  extract_lets +onlyGivenNames t1
  clear_value t1
  refine Kept.ite ?_ ?_
  · apply keeps_setGate
    assumption
  · split
    · apply keeps_setGate
      assumption
    · apply keeps_setGate
      assumption
    · apply keeps_gateBad
      assumption

theorem keeps_gateResetOp {s₀ : State} (s : State) (g : ℕ) (h0 : Kept s₀ s) :
    Kept s₀ (State.gateResetOp s g) := by
  unfold State.gateResetOp
  extract_lets +onlyGivenNames t1
  clear_value t1
  refine Kept.ite ?_ ?_
  · apply keeps_setGate
    assumption
  · apply keeps_gateBad
    assumption

theorem keeps_gateClearOp {s₀ : State} (s : State) (g : ℕ) (clear : Bool) (h0 : Kept s₀ s) :
    Kept s₀ (State.gateClearOp s g clear) := by
  unfold State.gateClearOp
  extract_lets +onlyGivenNames t1
  clear_value t1
  refine Kept.ite ?_ ?_
  · extract_lets +onlyGivenNames t2
    refine Kept.cut (a := t2) ?_ fun _ => ?_
    · unfold t2; clear t2
      apply keeps_setGate
      assumption
    clear_value t2
    refine Kept.of_eq rfl rfl rfl rfl rfl rfl rfl rfl rfl rfl rfl rfl ?_
    assumption
  · apply keeps_gateBad
    assumption

theorem keeps_execGateOn {s₀ : State} (g : Fin 16) (s : State) (h0 : Kept s₀ s) :
    ∃ out, execGateOn g s = .next out ∧ Kept s₀ out := by
  unfold execGateOn
  refine ⟨_, rfl, ?_⟩
  apply keeps_gateOnOp
  assumption

theorem keeps_execGateOff {s₀ : State} (g : Fin 16) (s : State) (h0 : Kept s₀ s) :
    ∃ out, execGateOff g s = .next out ∧ Kept s₀ out := by
  unfold execGateOff
  refine ⟨_, rfl, ?_⟩
  apply keeps_gateOffOp
  assumption

theorem keeps_execGateReset {s₀ : State} (g : Fin 16) (s : State) (h0 : Kept s₀ s) :
    ∃ out, execGateReset g s = .next out ∧ Kept s₀ out := by
  unfold execGateReset
  refine ⟨_, rfl, ?_⟩
  apply keeps_gateResetOp
  assumption

theorem keeps_execClearDamaged {s₀ : State} (g : Fin 16) (clear : Bool) (s : State) (h0 : Kept s₀ s) :
    ∃ out, execClearDamaged g clear s = .next out ∧ Kept s₀ out := by
  unfold execClearDamaged
  refine ⟨_, rfl, ?_⟩
  apply keeps_gateClearOp
  assumption

theorem keeps_gateTurn {s₀ : State} (s : State) (h0 : Kept s₀ s) :
    Kept s₀ (State.gateTurn s) := by
  unfold State.gateTurn
  refine Kept.of_eq rfl rfl rfl rfl rfl rfl rfl rfl rfl rfl rfl rfl ?_
  assumption

theorem keeps_gatesPower {s₀ : State} (s : State) (h0 : Kept s₀ s) :
    Kept s₀ (State.gatesPower s) := by
  unfold State.gatesPower
  refine Kept.fold ?_ ?_
  · intro a1 a2 a3
    apply keeps_gateDown
    assumption
  · assumption

theorem keeps_gatesCold {s₀ : State} (s : State) (h0 : Kept s₀ s) :
    Kept s₀ (State.gatesCold s) := by
  unfold State.gatesCold
  refine Kept.fold ?_ ?_
  · intro a1 a2 a3
    refine Kept.ite ?_ ?_
    · apply keeps_setGate
      assumption
    · apply keeps_gateEnable
      apply keeps_setGate
      assumption
  · assumption

end Sys2Proof.Laws
end

