-- ==== Sys2Proof/Laws/KeepContainer.lean ====
section
/-! SUPPORT. What each operation of Machine/Container.lean keeps (Laws/Kept.lean). -/

open Sys2Proof Sys2Proof.Machine

namespace Sys2Proof.Laws

theorem keeps_signCount {s₀ : State} (s : State) (x1 : Half) (h0 : Kept s₀ s) :
    Kept s₀ (State.signCount s x1) := by
  unfold State.signCount
  refine Kept.ite ?_ ?_
  · assumption
  · refine Kept.ite ?_ ?_
    · apply keeps_foldGrant
      assumption
    · apply keeps_foldRefuse
      assumption

end Sys2Proof.Laws
end

