-- ==== Sys2Proof/Laws/KeepStructure.lean ====
section
/-! SUPPORT. What each operation of Machine/Structure.lean keeps (Laws/Kept.lean). -/

open Sys2Proof Sys2Proof.Machine

namespace Sys2Proof.Laws

theorem keeps_judged {s₀ : State} (s : State) (h : Half) (rs : List SetRec) (h0 : Kept s₀ s) :
    Kept s₀ (State.judged s h rs) := by
  unfold State.judged
  extract_lets +onlyGivenNames t1
  refine Kept.cut (a := t1) ?_ fun _ => ?_
  · unfold t1; clear t1
    refine Kept.fold ?_ ?_
    · intro a2 a3 a4
      apply keeps_setCfg
      assumption
    · assumption
  clear_value t1
  extract_lets +onlyGivenNames t5
  refine Kept.cut (a := t5) ?_ fun _ => ?_
  · unfold t5; clear t5
    refine Kept.fold ?_ ?_
    · intro a6 a7 a8
      apply keeps_setCfg
      assumption
    · assumption
  clear_value t5
  extract_lets +onlyGivenNames t9
  extract_lets +onlyGivenNames t10
  extract_lets +onlyGivenNames t11
  extract_lets +onlyGivenNames t12
  extract_lets +onlyGivenNames t13
  refine Kept.cut (a := t13) ?_ fun _ => ?_
  · unfold t13; clear t13
    refine Kept.of_eq rfl rfl rfl rfl rfl rfl rfl rfl rfl rfl rfl rfl ?_
    assumption
  clear_value t13
  refine Kept.fold ?_ ?_
  · intro a14 a15 a16
    split
    · refine Kept.ite ?_ ?_
      · extract_lets +onlyGivenNames t17
        extract_lets +onlyGivenNames t18
        refine Kept.cut (a := t18) ?_ fun _ => ?_
        · unfold t18; clear t18
          refine Kept.of_eq rfl rfl rfl rfl rfl rfl rfl rfl rfl rfl rfl rfl ?_
          assumption
        clear_value t18
        refine Kept.ite ?_ ?_
        · refine Kept.of_eq rfl rfl rfl rfl rfl rfl rfl rfl rfl rfl rfl rfl ?_
          assumption
        · assumption
      · apply keeps_setCfg
        assumption
    · assumption
  · assumption

theorem keeps_judgedBy {s₀ : State} (s : State) (x1 : Half) (h0 : Kept s₀ s) :
    Kept s₀ (State.judgedBy s x1) := by
  unfold State.judgedBy
  apply keeps_judged
  assumption

end Sys2Proof.Laws
end

