-- ==== Sys2Proof/Laws/KeepSlack.lean ====
section
/-! SUPPORT. What each operation of Machine/Slack.lean keeps (Laws/Kept.lean). -/

open Sys2Proof Sys2Proof.Machine

namespace Sys2Proof.Laws

theorem keeps_useStage {s₀ : State} (s : State) (c : ℕ) (st : LStage) (line : Option (Bool × ℕ)) (off : ℕ) (h0 : Kept s₀ s) :
    Kept s₀ (State.useStage s c st line off) := by
  unfold State.useStage
  extract_lets +onlyGivenNames t1
  clear_value t1
  extract_lets +onlyGivenNames t2
  refine Kept.cut (a := t2) ?_ fun _ => ?_
  · unfold t2; clear t2
    apply keeps_addUse
    apply keeps_advance
    assumption
  clear_value t2
  extract_lets +onlyGivenNames t3
  clear_value t3
  extract_lets +onlyGivenNames t4
  clear_value t4
  extract_lets +onlyGivenNames t5
  clear_value t5
  extract_lets +onlyGivenNames t6
  clear_value t6
  extract_lets +onlyGivenNames t7
  clear_value t7
  refine Kept.of_eq rfl rfl rfl rfl rfl rfl rfl rfl rfl rfl rfl rfl ?_
  assumption

theorem keeps_noteWrite {s₀ : State} (s : State) (st : LStage) (line : Option (Bool × ℕ)) (off : ℕ) (h0 : Kept s₀ s) :
    Kept s₀ (State.noteWrite s st line off) := by
  unfold State.noteWrite
  split
  · refine Kept.ite ?_ ?_
    · refine Kept.of_eq rfl rfl rfl rfl rfl rfl rfl rfl rfl rfl rfl rfl ?_
      assumption
    · assumption
  · assumption

theorem keeps_grant {s₀ : State} (s : State) (x : Cand) (off : ℕ) (h0 : Kept s₀ s) :
    Kept s₀ (State.grant s x off) := by
  unfold State.grant
  split
  · assumption
  · extract_lets +onlyGivenNames t1
    refine Kept.cut (a := t1) ?_ fun _ => ?_
    · unfold t1; clear t1
      apply keeps_useStage
      assumption
    clear_value t1
    extract_lets +onlyGivenNames t2
    clear_value t2
    split
    · extract_lets +onlyGivenNames t3
      clear_value t3
      extract_lets +onlyGivenNames t4
      refine Kept.cut (a := t4) ?_ fun _ => ?_
      · unfold t4; clear t4
        apply keeps_traceGrant
        apply keeps_noteWait
        apply keeps_setQueue
        apply keeps_noteWrite
        assumption
      clear_value t4
      apply keeps_admitNext
      split
      · apply keeps_unschedOut
        assumption
      · assumption
    · apply keeps_reachTile
      apply keeps_setQueue
      assumption

theorem keeps_execLedgerStageGrant {s₀ : State} (rcls : Fin 16) (inst : ℕ) (off : ℕ) (s : State) (h0 : Kept s₀ s) :
    ∃ out, execLedgerStageGrant rcls inst off s = .next out ∧ Kept s₀ out := by
  unfold execLedgerStageGrant
  extract_lets +onlyGivenNames t1
  clear_value t1
  refine ⟨_, rfl, ?_⟩
  refine Kept.ite ?_ ?_
  · assumption
  · extract_lets +onlyGivenNames t2
    clear_value t2
    extract_lets +onlyGivenNames t3
    clear_value t3
    extract_lets +onlyGivenNames t4
    refine Kept.cut (a := t4) ?_ fun _ => ?_
    · unfold t4; clear t4
      apply keeps_noteQuota
      assumption
    clear_value t4
    split
    · apply keeps_grant
      assumption
    · assumption

theorem keeps_scrubStage {s₀ : State} (s : State) (st : LStage) (line : Option (Bool × ℕ)) (off : ℕ) (work : State → State)
    (hw : ∀ s, Kept s₀ s → Kept s₀ (work s)) (h0 : Kept s₀ s) : Kept s₀ (State.scrubStage s st line off work) := by
  unfold State.scrubStage
  refine Kept.ite h0 ?_
  extract_lets dark
  refine Kept.ite ?_ (Kept.ite h0 (Kept.ite ?_ ?_))
  · apply keeps_reachTile
    assumption
  · apply keeps_quotaStop
    assumption
  · apply hw
    apply keeps_traceGrant
    apply keeps_noteWait
    apply keeps_useStage
    assumption

theorem keeps_scrubAdvance {s₀ : State} (s : State) (u : ℕ) (n : ℕ) (h0 : Kept s₀ s) :
    Kept s₀ (State.scrubAdvance s u n) := by
  unfold State.scrubAdvance
  extract_lets +onlyGivenNames t1
  clear_value t1
  refine Kept.ite ?_ ?_
  · refine Kept.of_eq rfl rfl rfl rfl rfl rfl rfl rfl rfl rfl rfl rfl ?_
    assumption
  · refine Kept.of_eq rfl rfl rfl rfl rfl rfl rfl rfl rfl rfl rfl rfl ?_
    assumption

theorem keeps_execScrubRead {s₀ : State} (unit : Fin 68) (off : ℕ) (s : State) (h0 : Kept s₀ s) :
    ∃ out, execScrubRead unit off s = .next out ∧ Kept s₀ out := by
  unfold execScrubRead
  extract_lets +onlyGivenNames t1
  clear_value t1
  extract_lets +onlyGivenNames t2
  clear_value t2
  refine ⟨_, rfl, ?_⟩
  refine Kept.ite ?_ ?_
  · extract_lets +onlyGivenNames t3
    clear_value t3
    apply keeps_scrubStage
    · intro a4 a5
      apply keeps_scrubAdvance
      apply keeps_checkLine
      assumption
    · assumption
  · refine Kept.ite ?_ ?_
    · assumption
    · extract_lets +onlyGivenNames t6
      clear_value t6
      apply keeps_scrubStage
      · intro a7 a8
        apply keeps_scrubAdvance
        refine Kept.fold ?_ ?_
        · intro a9 a10 a11
          apply keeps_checkLine
          assumption
        · assumption
      · assumption

theorem keeps_execScrubWriteBack {s₀ : State} (off : ℕ) (s : State) (h0 : Kept s₀ s) :
    ∃ out, execScrubWriteBack off s = .next out ∧ Kept s₀ out := by
  unfold execScrubWriteBack
  refine ⟨_, rfl, ?_⟩
  split
  · assumption
  · refine Kept.ite ?_ ?_
    · refine Kept.of_eq rfl rfl rfl rfl rfl rfl rfl rfl rfl rfl rfl rfl ?_
      assumption
    · apply keeps_scrubStage
      · intro a1 a2
        refine Kept.ite ?_ ?_
        · extract_lets +onlyGivenNames t3
          clear_value t3
          extract_lets +onlyGivenNames t4
          extract_lets +onlyGivenNames t5
          refine Kept.cut (a := t5) ?_ fun _ => ?_
          · unfold t5; clear t5
            apply keeps_noteWrite
            refine Kept.of_eq rfl rfl rfl rfl rfl rfl rfl rfl rfl rfl rfl rfl ?_
            assumption
          clear_value t5
          refine Kept.ite ?_ ?_
          · apply keeps_setLine
            assumption
          · assumption
        · assumption
      · assumption

theorem keeps_execPoisonMarkWrite {s₀ : State} (off : ℕ) (s : State) (h0 : Kept s₀ s) :
    ∃ out, execPoisonMarkWrite off s = .next out ∧ Kept s₀ out := by
  unfold execPoisonMarkWrite
  refine ⟨_, rfl, ?_⟩
  split
  · assumption
  · refine Kept.ite ?_ ?_
    · refine Kept.of_eq rfl rfl rfl rfl rfl rfl rfl rfl rfl rfl rfl rfl ?_
      assumption
    · apply keeps_scrubStage
      · intro a1 a2
        refine Kept.ite ?_ ?_
        · extract_lets +onlyGivenNames t3
          clear_value t3
          apply keeps_setLine
          apply keeps_noteWrite
          refine Kept.of_eq rfl rfl rfl rfl rfl rfl rfl rfl rfl rfl rfl rfl ?_
          assumption
        · assumption
      · assumption

theorem keeps_execUplandRefresh {s₀ : State} (ch : Fin 4) (off : ℕ) (completed : Bool) (s : State) (h0 : Kept s₀ s) :
    ∃ out, execUplandRefresh ch off completed s = .next out ∧ Kept s₀ out := by
  unfold execUplandRefresh
  refine ⟨_, rfl, ?_⟩
  refine Kept.ite ?_ ?_
  · assumption
  · extract_lets +onlyGivenNames t1
    refine Kept.cut (a := t1) ?_ fun _ => ?_
    · unfold t1; clear t1
      apply keeps_advance
      assumption
    clear_value t1
    refine Kept.ite ?_ ?_
    · assumption
    · apply keeps_loseChannel
      assumption

theorem keeps_execUplandCommandRetry {s₀ : State} (ch : Fin 4) (off : ℕ) (ok : Bool) (s : State) (h0 : Kept s₀ s) :
    ∃ out, execUplandCommandRetry ch off ok s = .next out ∧ Kept s₀ out := by
  unfold execUplandCommandRetry
  refine ⟨_, rfl, ?_⟩
  refine Kept.ite ?_ ?_
  · assumption
  · apply keeps_scrubStage
    · intro a1 a2
      extract_lets +onlyGivenNames t3
      refine Kept.cut (a := t3) ?_ fun _ => ?_
      · unfold t3; clear t3
        apply keeps_fire
        assumption
      clear_value t3
      refine Kept.ite ?_ ?_
      · assumption
      · apply keeps_loseChannel
        assumption
    · assumption

theorem keeps_execClearLine {s₀ : State} (up : Bool) (addr : ℕ) (s : State) (h0 : Kept s₀ s) :
    ∃ out, execClearLine up addr s = .next out ∧ Kept s₀ out := by
  unfold execClearLine
  extract_lets +onlyGivenNames t1
  clear_value t1
  refine ⟨_, rfl, ?_⟩
  refine Kept.ite ?_ ?_
  · assumption
  · refine Kept.ite ?_ ?_
    · apply keeps_abort
      assumption
    · refine Kept.ite ?_ ?_
      · apply keeps_abort
        assumption
      · apply keeps_writeLine
        apply keeps_clientEnter
        assumption

end Sys2Proof.Laws
end

