-- ==== Sys2Proof/Laws/KeepTide.lean ====
section
/-! SUPPORT. What each operation of Machine/Tide.lean keeps (Laws/Kept.lean). -/

open Sys2Proof Sys2Proof.Machine

namespace Sys2Proof.Laws

theorem keeps_execTileWake {s₀ : State} (t : Fin 16) (off : ℕ) (s : State) (h0 : Kept s₀ s) :
    ∃ out, execTileWake t off s = .next out ∧ Kept s₀ out := by
  unfold execTileWake
  refine ⟨_, rfl, ?_⟩
  refine Kept.ite ?_ ?_
  · assumption
  · refine Kept.ite ?_ ?_
    · refine Kept.of_eq rfl rfl rfl rfl rfl rfl rfl rfl rfl rfl rfl rfl ?_
      assumption
    · refine Kept.ite ?_ ?_
      · assumption
      · apply keeps_wakeTile
        apply keeps_advance
        assumption

theorem keeps_execTileDark {s₀ : State} (t : Fin 16) (off : ℕ) (s : State) (h0 : Kept s₀ s) :
    ∃ out, execTileDark t off s = .next out ∧ Kept s₀ out := by
  unfold execTileDark
  refine ⟨_, rfl, ?_⟩
  refine Kept.ite ?_ ?_
  · assumption
  · extract_lets +onlyGivenNames t1
    refine Kept.cut (a := t1) ?_ fun _ => ?_
    · unfold t1; clear t1
      apply keeps_advance
      assumption
    clear_value t1
    extract_lets +onlyGivenNames t2
    extract_lets +onlyGivenNames t3
    refine Kept.cut (a := t3) ?_ fun _ => ?_
    · unfold t3; clear t3
      refine Kept.of_eq rfl rfl rfl rfl rfl rfl rfl rfl rfl rfl rfl rfl ?_
      assumption
    clear_value t3
    refine Kept.ite ?_ ?_
    · extract_lets +onlyGivenNames t4
      refine Kept.cut (a := t4) ?_ fun _ => ?_
      · unfold t4; clear t4
        apply keeps_wakeTile
        assumption
      clear_value t4
      refine Kept.of_eq rfl rfl rfl rfl rfl rfl rfl rfl rfl rfl rfl rfl ?_
      assumption
    · assumption

theorem keeps_execTileRedark {s₀ : State} (t : Fin 16) (off : ℕ) (s : State) (h0 : Kept s₀ s) :
    ∃ out, execTileRedark t off s = .next out ∧ Kept s₀ out := by
  unfold execTileRedark
  refine ⟨_, rfl, ?_⟩
  refine Kept.ite ?_ ?_
  · extract_lets +onlyGivenNames t1
    refine Kept.cut (a := t1) ?_ fun _ => ?_
    · unfold t1; clear t1
      apply keeps_advance
      assumption
    clear_value t1
    refine Kept.of_eq rfl rfl rfl rfl rfl rfl rfl rfl rfl rfl rfl rfl ?_
    assumption
  · assumption

theorem keeps_tileTurn {s₀ : State} (s : State) (p : ℕ) (h0 : Kept s₀ s) :
    Kept s₀ (State.tileTurn s p) := by
  unfold State.tileTurn
  extract_lets +onlyGivenNames t1
  clear_value t1
  extract_lets +onlyGivenNames t2
  clear_value t2
  refine Kept.of_eq rfl rfl rfl rfl rfl rfl rfl rfl rfl rfl rfl rfl ?_
  assumption

theorem keeps_countTide {s₀ : State} (s : State) (h0 : Kept s₀ s) :
    Kept s₀ (State.countTide s) := by
  unfold State.countTide
  refine Kept.ite ?_ ?_
  · refine Kept.of_eq rfl rfl rfl rfl rfl rfl rfl rfl rfl rfl rfl rfl ?_
    assumption
  · assumption

theorem keeps_tideEnds {s₀ : State} (s : State) (h0 : Kept s₀ s) :
    Kept s₀ (State.tideEnds s) := by
  unfold State.tideEnds
  refine Kept.ite ?_ ?_
  · apply keeps_countTide
    apply keeps_ledgerTurn
    apply keeps_tileTurn
    apply keeps_digestClose
    refine Kept.fold ?_ ?_
    · intro a1 a2 a3
      apply keeps_sealTurn
      assumption
    · apply keeps_advance
      assumption
  · assumption

end Sys2Proof.Laws
end

