-- ==== Sys2Proof/Laws/KeepSettings.lean ====
section
/-! SUPPORT. What each operation of Machine/Settings.lean keeps (Laws/Kept.lean). -/

open Sys2Proof Sys2Proof.Machine

namespace Sys2Proof.Laws

theorem keeps_storeKept {s₀ : State} (s : State) (r : Row) (e : ℕ) (sub : ℕ) (v : ℕ) (h0 : Kept s₀ s) :
    Kept s₀ (State.storeKept s r e sub v) := by
  unfold State.storeKept
  split
  · assumption
  · refine Kept.of_eq rfl rfl rfl rfl rfl rfl rfl rfl rfl rfl rfl rfl ?_
    assumption

theorem keeps_storeBlob {s₀ : State} (s : State) (r : Row) (e : ℕ) (sub : ℕ) (l : List Word) (h0 : Kept s₀ s) :
    Kept s₀ (State.storeBlob s r e sub l) := by
  unfold State.storeBlob
  split
  · assumption
  · refine Kept.of_eq rfl rfl rfl rfl rfl rfl rfl rfl rfl rfl rfl rfl ?_
    assumption

theorem keeps_copyForce {s₀ : State} (s : State) (c : ℕ) (per : Per) (h0 : Kept s₀ s) :
    Kept s₀ (State.copyForce s c per) := by
  unfold State.copyForce
  extract_lets +onlyGivenNames t1
  clear_value t1
  extract_lets +onlyGivenNames t2
  clear_value t2
  extract_lets +onlyGivenNames t3
  clear_value t3
  extract_lets +onlyGivenNames t4
  clear_value t4
  refine Kept.of_eq rfl rfl rfl rfl rfl rfl rfl rfl rfl rfl rfl rfl ?_
  assumption

theorem keeps_takeForce {s₀ : State} (s : State) (e : ℕ) (sub : ℕ) (v : ℕ) (h0 : Kept s₀ s) :
    Kept s₀ (State.takeForce s e sub v) := by
  unfold State.takeForce
  extract_lets +onlyGivenNames t1
  clear_value t1
  extract_lets +onlyGivenNames t2
  refine Kept.cut (a := t2) ?_ fun _ => ?_
  · unfold t2; clear t2
    apply keeps_setCfg
    assumption
  clear_value t2
  refine Kept.ite ?_ ?_
  · refine Kept.ite ?_ ?_
    · apply keeps_busEnable
      assumption
    · assumption
  · split
    · refine Kept.ite ?_ ?_
      · apply keeps_endSessions
        assumption
      · assumption
    · apply keeps_penEnable
      assumption
    · refine Kept.ite ?_ ?_
      · assumption
      · apply keeps_fire
        assumption
    · refine Kept.of_eq rfl rfl rfl rfl rfl rfl rfl rfl rfl rfl rfl rfl ?_
      assumption
    · refine Kept.of_eq rfl rfl rfl rfl rfl rfl rfl rfl rfl rfl rfl rfl ?_
      assumption
    · refine Kept.of_eq rfl rfl rfl rfl rfl rfl rfl rfl rfl rfl rfl rfl ?_
      assumption
    · apply keeps_linkEnable
      assumption
    · apply keeps_pairEnable
      assumption
    · apply keeps_quayEnable
      assumption
    · apply keeps_gateEnable
      assumption
    · assumption

theorem keeps_forcesChanged {s₀ : State} (s : State) (a : List (ℕ × ℕ)) (b : List (ℕ × ℕ)) (h0 : Kept s₀ s) :
    Kept s₀ (State.forcesChanged s a b) := by
  unfold State.forcesChanged
  extract_lets +onlyGivenNames t1
  clear_value t1
  refine Kept.fold ?_ ?_
  · intro a1 a2 a3
    apply keeps_fire
    assumption
  · assumption

theorem keeps_clearForces {s₀ : State} (s : State) (h0 : Kept s₀ s) :
    Kept s₀ (State.clearForces s) := by
  unfold State.clearForces
  extract_lets +onlyGivenNames t1
  clear_value t1
  refine Kept.fold ?_ ?_
  · intro a2 a3 a4
    apply keeps_setCfg
    assumption
  · assumption

theorem keeps_mapForce {s₀ : State} (s : State) (l : List Word) (h0 : Kept s₀ s) :
    Kept s₀ (State.mapForce s l) := by
  unfold State.mapForce
  apply keeps_clearForces
  refine Kept.of_eq rfl rfl rfl rfl rfl rfl rfl rfl rfl rfl rfl rfl ?_
  assumption

theorem keeps_takeBlob {s₀ : State} (s : State) (e : ℕ) (sub : ℕ) (l : List Word) (h0 : Kept s₀ s) :
    Kept s₀ (State.takeBlob s e sub l) := by
  unfold State.takeBlob
  extract_lets +onlyGivenNames t1
  extract_lets +onlyGivenNames t2
  refine Kept.cut (a := t2) ?_ fun _ => ?_
  · unfold t2; clear t2
    refine Kept.of_eq rfl rfl rfl rfl rfl rfl rfl rfl rfl rfl rfl rfl ?_
    assumption
  clear_value t2
  refine Kept.ite ?_ ?_
  · apply keeps_mapForce
    assumption
  · refine Kept.ite ?_ ?_
    · apply keeps_fdbTrim
      assumption
    · assumption

theorem keeps_accept {s₀ : State} (s : State) (r : Row) (e : ℕ) (sub : ℕ) (v : ℕ) (h0 : Kept s₀ s) :
    Kept s₀ (State.accept s r e sub v) := by
  unfold State.accept
  extract_lets +onlyGivenNames t1
  refine Kept.cut (a := t1) ?_ fun _ => ?_
  · unfold t1; clear t1
    apply keeps_storeKept
    assumption
  clear_value t1
  extract_lets +onlyGivenNames t2
  clear_value t2
  extract_lets +onlyGivenNames t3
  refine Kept.cut (a := t3) ?_ fun _ => ?_
  · unfold t3; clear t3
    refine Kept.ite ?_ ?_
    · apply keeps_addItem
      assumption
    · assumption
  clear_value t3
  refine Kept.ite ?_ ?_
  · refine Kept.ite ?_ ?_
    · refine Kept.of_eq rfl rfl rfl rfl rfl rfl rfl rfl rfl rfl rfl rfl ?_
      assumption
    · refine Kept.of_eq rfl rfl rfl rfl rfl rfl rfl rfl rfl rfl rfl rfl ?_
      assumption
  · apply keeps_takeForce
    assumption

theorem keeps_acceptBlob {s₀ : State} (s : State) (r : Row) (e : ℕ) (sub : ℕ) (l : List Word) (h0 : Kept s₀ s) :
    Kept s₀ (State.acceptBlob s r e sub l) := by
  unfold State.acceptBlob
  extract_lets +onlyGivenNames t1
  refine Kept.cut (a := t1) ?_ fun _ => ?_
  · unfold t1; clear t1
    apply keeps_storeBlob
    assumption
  clear_value t1
  extract_lets +onlyGivenNames t2
  clear_value t2
  extract_lets +onlyGivenNames t3
  refine Kept.cut (a := t3) ?_ fun _ => ?_
  · unfold t3; clear t3
    refine Kept.ite ?_ ?_
    · apply keeps_addItem
      assumption
    · assumption
  clear_value t3
  refine Kept.ite ?_ ?_
  · refine Kept.ite ?_ ?_
    · refine Kept.of_eq rfl rfl rfl rfl rfl rfl rfl rfl rfl rfl rfl rfl ?_
      assumption
    · refine Kept.of_eq rfl rfl rfl rfl rfl rfl rfl rfl rfl rfl rfl rfl ?_
      assumption
  · apply keeps_takeBlob
    assumption

theorem keeps_applyWords {s₀ : State} (s : State) (n : ℕ) (l : List ℕ) (h0 : Kept s₀ s) :
    Kept s₀ (State.applyWords s n l) := by
  unfold State.applyWords
  extract_lets +onlyGivenNames t1
  clear_value t1
  extract_lets +onlyGivenNames t2
  clear_value t2
  split
  · assumption
  · refine Kept.ite ?_ ?_
    · apply keeps_takeBlob
      apply keeps_storeBlob
      assumption
    · extract_lets +onlyGivenNames t3
      clear_value t3
      apply keeps_takeForce
      apply keeps_storeKept
      assumption

theorem keeps_pairWritesTurn {s₀ : State} (s : State) (h0 : Kept s₀ s) :
    Kept s₀ (State.pairWritesTurn s) := by
  unfold State.pairWritesTurn
  extract_lets +onlyGivenNames t1
  clear_value t1
  refine Kept.fold ?_ ?_
  · intro a1 a2 a3
    apply keeps_applyWords
    assumption
  · refine Kept.of_eq rfl rfl rfl rfl rfl rfl rfl rfl rfl rfl rfl rfl ?_
    assumption

theorem keeps_pendingTurn {s₀ : State} (s : State) (h0 : Kept s₀ s) :
    Kept s₀ (State.pendingTurn s) := by
  unfold State.pendingTurn
  extract_lets +onlyGivenNames t1
  clear_value t1
  extract_lets +onlyGivenNames t2
  clear_value t2
  extract_lets +onlyGivenNames t3
  clear_value t3
  extract_lets +onlyGivenNames t4
  refine Kept.cut (a := t4) ?_ fun _ => ?_
  · unfold t4; clear t4
    refine Kept.of_eq rfl rfl rfl rfl rfl rfl rfl rfl rfl rfl rfl rfl ?_
    assumption
  clear_value t4
  extract_lets +onlyGivenNames t5
  refine Kept.cut (a := t5) ?_ fun _ => ?_
  · unfold t5; clear t5
    refine Kept.fold ?_ ?_
    · intro a1 a2 a3
      apply keeps_takeBlob
      assumption
    · assumption
  clear_value t5
  refine Kept.fold ?_ ?_
  · intro a4 a5 a6
    apply keeps_takeForce
    assumption
  · assumption

theorem keeps_resetGroup {s₀ : State} (s : State) (g : ℕ) (h0 : Kept s₀ s) :
    Kept s₀ (State.resetGroup s g) := by
  unfold State.resetGroup
  extract_lets +onlyGivenNames t1
  clear_value t1
  extract_lets +onlyGivenNames t2
  clear_value t2
  extract_lets +onlyGivenNames t3
  clear_value t3
  extract_lets +onlyGivenNames t4
  clear_value t4
  extract_lets +onlyGivenNames t5
  clear_value t5
  extract_lets +onlyGivenNames t6
  clear_value t6
  extract_lets +onlyGivenNames t7
  clear_value t7
  extract_lets +onlyGivenNames t8
  refine Kept.cut (a := t8) ?_ fun _ => ?_
  · unfold t8; clear t8
    refine Kept.of_eq rfl rfl rfl rfl rfl rfl rfl rfl rfl rfl rfl rfl ?_
    assumption
  clear_value t8
  extract_lets +onlyGivenNames t9
  refine Kept.cut (a := t9) ?_ fun _ => ?_
  · unfold t9; clear t9
    refine Kept.fold ?_ ?_
    · intro a1 a2 a3
      apply keeps_takeBlob
      assumption
    · assumption
  clear_value t9
  refine Kept.fold ?_ ?_
  · intro a4 a5 a6
    apply keeps_takeForce
    assumption
  · assumption

theorem keeps_resetTurn {s₀ : State} (s : State) (h0 : Kept s₀ s) :
    Kept s₀ (State.resetTurn s) := by
  unfold State.resetTurn
  refine Kept.fold ?_ ?_
  · intro a1 a2 a3
    apply keeps_resetGroup
    assumption
  · refine Kept.of_eq rfl rfl rfl rfl rfl rfl rfl rfl rfl rfl rfl rfl ?_
    assumption

theorem keeps_profileForce {s₀ : State} (s : State) (c : ℕ) (h0 : Kept s₀ s) :
    Kept s₀ (State.profileForce s c) := by
  unfold State.profileForce
  extract_lets +onlyGivenNames t1
  clear_value t1
  extract_lets +onlyGivenNames t2
  clear_value t2
  extract_lets +onlyGivenNames t3
  clear_value t3
  extract_lets +onlyGivenNames t4
  refine Kept.cut (a := t4) ?_ fun _ => ?_
  · unfold t4; clear t4
    refine Kept.fold ?_ ?_
    · intro a1 a2 a3
      apply keeps_takeBlob
      assumption
    · assumption
  clear_value t4
  refine Kept.fold ?_ ?_
  · intro a4 a5 a6
    extract_lets +onlyGivenNames t5
    clear_value t5
    refine Kept.ite ?_ ?_
    · assumption
    · apply keeps_takeForce
      assumption
  · assumption

end Sys2Proof.Laws
end

