-- ==== Sys2Proof/Laws/KeepTables.lean ====
section
/-! SUPPORT. What each operation of Machine/Tables.lean keeps (Laws/Kept.lean). -/

open Sys2Proof Sys2Proof.Machine

namespace Sys2Proof.Laws

theorem keeps_writeReport {s₀ : State} (s : State) (l : List ℕ) (h0 : Kept s₀ s) :
    Kept s₀ (State.writeReport s l) := by
  unfold State.writeReport
  extract_lets +onlyGivenNames t1
  refine Kept.cut (a := t1) ?_ fun _ => ?_
  · unfold t1; clear t1
    apply keeps_enterWords
    assumption
  clear_value t1
  refine Kept.of_eq rfl rfl rfl rfl rfl rfl rfl rfl rfl rfl rfl rfl ?_
  assumption

theorem keeps_reportRuns {s₀ : State} (s : State) (h0 : Kept s₀ s) :
    Kept s₀ (State.reportRuns s) := by
  unfold State.reportRuns
  apply keeps_writeReport
  assumption

theorem keeps_emptyStaging {s₀ : State} (s : State) (h0 : Kept s₀ s) :
    Kept s₀ (State.emptyStaging s) := by
  unfold State.emptyStaging
  extract_lets +onlyGivenNames t1
  refine Kept.cut (a := t1) ?_ fun _ => ?_
  · unfold t1; clear t1
    apply keeps_setStaging
    assumption
  clear_value t1
  apply keeps_droveUnstage
  refine Kept.of_eq rfl rfl rfl rfl rfl rfl rfl rfl rfl rfl rfl rfl ?_
  assumption

theorem keeps_arm {s₀ : State} (s : State) (h0 : Kept s₀ s) :
    Kept s₀ (State.arm s) := by
  unfold State.arm
  extract_lets +onlyGivenNames t1
  extract_lets +onlyGivenNames t2
  refine Kept.cut (a := t2) ?_ fun _ => ?_
  · unfold t2; clear t2
    refine Kept.of_eq rfl rfl rfl rfl rfl rfl rfl rfl rfl rfl rfl rfl ?_
    assumption
  clear_value t2
  refine Kept.ite ?_ ?_
  · refine Kept.of_eq rfl rfl rfl rfl rfl rfl rfl rfl rfl rfl rfl rfl ?_
    assumption
  · assumption

theorem keeps_openTable {s₀ : State} (s : State) (h0 : Kept s₀ s) :
    Kept s₀ (State.openTable s) := by
  unfold State.openTable
  extract_lets +onlyGivenNames t1
  refine Kept.cut (a := t1) ?_ fun _ => ?_
  · unfold t1; clear t1
    apply keeps_setStaging
    assumption
  clear_value t1
  refine Kept.of_eq rfl rfl rfl rfl rfl rfl rfl rfl rfl rfl rfl rfl ?_
  assumption

theorem keeps_tableOpenOp {s₀ : State} (s : State) (h0 : Kept s₀ s) :
    Kept s₀ (State.tableOpenOp s) := by
  unfold State.tableOpenOp
  split
  · apply keeps_openTable
    assumption
  · apply keeps_openTable
    assumption
  · apply keeps_abort
    assumption

theorem keeps_tableCheckOp {s₀ : State} (s : State) (h0 : Kept s₀ s) :
    Kept s₀ (State.tableCheckOp s) := by
  unfold State.tableCheckOp
  refine Kept.ite ?_ ?_
  · apply keeps_reportRuns
    refine Kept.of_eq rfl rfl rfl rfl rfl rfl rfl rfl rfl rfl rfl rfl ?_
    assumption
  · apply keeps_abort
    assumption

theorem keeps_tableArmOp {s₀ : State} (s : State) (h0 : Kept s₀ s) :
    Kept s₀ (State.tableArmOp s) := by
  unfold State.tableArmOp
  refine Kept.ite ?_ ?_
  · apply keeps_arm
    assumption
  · apply keeps_abort
    assumption

theorem keeps_tableDisarmOp {s₀ : State} (s : State) (h0 : Kept s₀ s) :
    Kept s₀ (State.tableDisarmOp s) := by
  unfold State.tableDisarmOp
  refine Kept.ite ?_ ?_
  · refine Kept.of_eq rfl rfl rfl rfl rfl rfl rfl rfl rfl rfl rfl rfl ?_
    assumption
  · apply keeps_abort
    assumption

theorem keeps_tableDiscardOp {s₀ : State} (s : State) (h0 : Kept s₀ s) :
    Kept s₀ (State.tableDiscardOp s) := by
  unfold State.tableDiscardOp
  split
  · apply keeps_emptyStaging
    assumption
  · apply keeps_emptyStaging
    assumption
  · apply keeps_emptyStaging
    assumption
  · apply keeps_abort
    assumption

theorem keeps_execTableOpen {s₀ : State} (s : State) (h0 : Kept s₀ s) :
    ∃ out, execTableOpen s = .next out ∧ Kept s₀ out := by
  unfold execTableOpen
  refine ⟨_, rfl, ?_⟩
  apply keeps_tableOpenOp
  assumption

theorem keeps_execTableCheck {s₀ : State} (s : State) (h0 : Kept s₀ s) :
    ∃ out, execTableCheck s = .next out ∧ Kept s₀ out := by
  unfold execTableCheck
  refine ⟨_, rfl, ?_⟩
  apply keeps_byShepherd
  · assumption
  · intro a1 a2
    apply keeps_tableCheckOp
    assumption

theorem keeps_execTableArm {s₀ : State} (s : State) (h0 : Kept s₀ s) :
    ∃ out, execTableArm s = .next out ∧ Kept s₀ out := by
  unfold execTableArm
  refine ⟨_, rfl, ?_⟩
  apply keeps_tableArmOp
  assumption

theorem keeps_execTableDisarm {s₀ : State} (s : State) (h0 : Kept s₀ s) :
    ∃ out, execTableDisarm s = .next out ∧ Kept s₀ out := by
  unfold execTableDisarm
  refine ⟨_, rfl, ?_⟩
  apply keeps_tableDisarmOp
  assumption

theorem keeps_execTableDiscard {s₀ : State} (s : State) (h0 : Kept s₀ s) :
    ∃ out, execTableDiscard s = .next out ∧ Kept s₀ out := by
  unfold execTableDiscard
  refine ⟨_, rfl, ?_⟩
  apply keeps_tableDiscardOp
  assumption

theorem keeps_unpackHalf {s₀ : State} (s : State) (x1 : Half) (h0 : Kept s₀ s) :
    Kept s₀ (State.unpackHalf s x1) := by
  unfold State.unpackHalf
  extract_lets +onlyGivenNames t1
  clear_value t1
  extract_lets +onlyGivenNames t2
  refine Kept.cut (a := t2) ?_ fun _ => ?_
  · unfold t2; clear t2
    apply keeps_setStaging
    assumption
  clear_value t2
  split
  · apply keeps_droveStage
    assumption
  · assumption

theorem keeps_refuseHalf {s₀ : State} (s : State) (f : PFail) (id : ℕ) (elapsed : ℕ) (h0 : Kept s₀ s) :
    Kept s₀ (State.refuseHalf s f id elapsed) := by
  unfold State.refuseHalf
  apply keeps_fire
  extract_lets +onlyGivenNames t1
  refine Kept.cut (a := t1) ?_ fun _ => ?_
  · unfold t1; clear t1
    apply keeps_writeReport
    assumption
  clear_value t1
  refine Kept.of_eq rfl rfl rfl rfl rfl rfl rfl rfl rfl rfl rfl rfl ?_
  assumption

theorem keeps_applySettings {s₀ : State} (s : State) (x1 : Half) (acc : Acc) (h0 : Kept s₀ s) :
    Kept s₀ (State.applySettings s x1 acc) := by
  unfold State.applySettings
  refine Kept.fold ?_ ?_
  · intro a1 a2 a3
    split
    · refine Kept.ite ?_ ?_
      · apply keeps_applyWords
        assumption
      · assumption
    · assumption
  · assumption

theorem keeps_armProfile {s₀ : State} (s : State) (h0 : Kept s₀ s) :
    Kept s₀ (State.armProfile s) := by
  unfold State.armProfile
  extract_lets +onlyGivenNames t1
  refine Kept.cut (a := t1) ?_ fun _ => ?_
  · unfold t1; clear t1
    refine Kept.ite ?_ ?_
    · assumption
    · apply keeps_applySettings
      assumption
  clear_value t1
  apply keeps_arm
  apply keeps_setCfg
  assumption

theorem keeps_admitHalf {s₀ : State} (s : State) (id : ℕ) (elapsed : ℕ) (h0 : Kept s₀ s) :
    Kept s₀ (State.admitHalf s id elapsed) := by
  unfold State.admitHalf
  extract_lets +onlyGivenNames t1
  refine Kept.cut (a := t1) ?_ fun _ => ?_
  · unfold t1; clear t1
    apply keeps_writeReport
    assumption
  clear_value t1
  extract_lets +onlyGivenNames t2
  extract_lets +onlyGivenNames t3
  refine Kept.cut (a := t3) ?_ fun _ => ?_
  · unfold t3; clear t3
    refine Kept.of_eq rfl rfl rfl rfl rfl rfl rfl rfl rfl rfl rfl rfl ?_
    assumption
  clear_value t3
  refine Kept.ite ?_ ?_
  · apply keeps_armProfile
    assumption
  · assumption

theorem keeps_checkEnds {s₀ : State} (s : State) (elapsed : ℕ) (h0 : Kept s₀ s) :
    Kept s₀ (State.checkEnds s elapsed) := by
  unfold State.checkEnds
  extract_lets +onlyGivenNames t1
  clear_value t1
  extract_lets +onlyGivenNames t2
  clear_value t2
  extract_lets +onlyGivenNames t3
  refine Kept.cut (a := t3) ?_ fun _ => ?_
  · unfold t3; clear t3
    apply keeps_signCount
    assumption
  clear_value t3
  extract_lets +onlyGivenNames t4
  refine Kept.cut (a := t4) ?_ fun _ => ?_
  · unfold t4; clear t4
    split
    · refine Kept.ite ?_ ?_
      · assumption
      · apply keeps_unpackHalf
        assumption
    · apply keeps_unpackHalf
      assumption
  clear_value t4
  split
  · apply keeps_refuseHalf
    assumption
  · apply keeps_admitHalf
    assumption

theorem keeps_execTableCheckDone {s₀ : State} (elapsed : ℕ) (s : State) (h0 : Kept s₀ s) :
    ∃ out, execTableCheckDone elapsed s = .next out ∧ Kept s₀ out := by
  unfold execTableCheckDone
  refine ⟨_, rfl, ?_⟩
  apply keeps_byShepherd
  · assumption
  · intro a1 a2
    refine Kept.ite ?_ ?_
    · apply keeps_checkEnds
      assumption
    · assumption

theorem keeps_abortCheck {s₀ : State} (s : State) (h0 : Kept s₀ s) :
    Kept s₀ (State.abortCheck s) := by
  unfold State.abortCheck
  refine Kept.ite ?_ ?_
  · extract_lets +onlyGivenNames t1
    clear_value t1
    dsimp only
    apply keeps_refuseHalf
    refine Kept.ite ?_ ?_
    · apply keeps_draw
      apply keeps_draw
      assumption
    · apply keeps_unpackHalf
      apply keeps_draw
      apply keeps_draw
      assumption
  · assumption

theorem keeps_dropClients {s₀ : State} (s : State) (h0 : Kept s₀ s) :
    Kept s₀ (State.dropClients s) := by
  unfold State.dropClients
  extract_lets +onlyGivenNames t1
  refine Kept.cut (a := t1) ?_ fun _ => ?_
  · unfold t1; clear t1
    apply keeps_endSessions
    assumption
  clear_value t1
  refine Kept.of_eq rfl rfl rfl rfl rfl rfl rfl rfl rfl rfl rfl rfl ?_
  assumption

theorem keeps_dropWaiting {s₀ : State} (s : State) (h0 : Kept s₀ s) :
    Kept s₀ (State.dropWaiting s) := by
  unfold State.dropWaiting
  refine Kept.of_eq rfl rfl rfl rfl rfl rfl rfl rfl rfl rfl rfl rfl ?_
  assumption

theorem keeps_updateRestart {s₀ : State} (s : State) (h0 : Kept s₀ s) :
    Kept s₀ (State.updateRestart s) := by
  unfold State.updateRestart
  refine Kept.ite ?_ ?_
  · refine Kept.of_eq rfl rfl rfl rfl rfl rfl rfl rfl rfl rfl rfl rfl ?_
    assumption
  · assumption

theorem keeps_mirrorPause {s₀ : State} (s : State) (h0 : Kept s₀ s) :
    Kept s₀ (State.mirrorPause s) := by
  unfold State.mirrorPause
  refine Kept.of_eq rfl rfl rfl rfl rfl rfl rfl rfl rfl rfl rfl rfl ?_
  assumption

theorem keeps_execShepherdWatchdog {s₀ : State} (core : Fin 4) (s : State) (h0 : Kept s₀ s) :
    ∃ out, execShepherdWatchdog core s = .next out ∧ Kept s₀ out := by
  unfold execShepherdWatchdog
  refine ⟨_, rfl, ?_⟩
  refine Kept.of_eq rfl rfl rfl rfl rfl rfl rfl rfl rfl rfl rfl rfl ?_
  apply keeps_mirrorPause
  apply keeps_dropWaiting
  apply keeps_updateRestart
  apply keeps_abortCheck
  apply keeps_dropClients
  apply keeps_fire
  assumption

theorem keeps_execShepherdRestartDone {s₀ : State} (s : State) (h0 : Kept s₀ s) :
    ∃ out, execShepherdRestartDone s = .next out ∧ Kept s₀ out := by
  unfold execShepherdRestartDone
  refine ⟨_, rfl, ?_⟩
  refine Kept.ite ?_ ?_
  · assumption
  · apply keeps_mirrorResume
    refine Kept.of_eq rfl rfl rfl rfl rfl rfl rfl rfl rfl rfl rfl rfl ?_
    assumption

end Sys2Proof.Laws
end

