-- ==== Sys2Proof/Laws/KeepUpdate.lean ====
section
/-! SUPPORT. What each operation of Machine/Update.lean keeps (Laws/Kept.lean). -/

open Sys2Proof Sys2Proof.Machine

namespace Sys2Proof.Laws

theorem keeps_refuseFrame {s₀ : State} (s : State) (cause : ℕ) (header : Bool) (h0 : Kept s₀ s) :
    Kept s₀ (State.refuseFrame s cause header) := by
  unfold State.refuseFrame
  extract_lets +onlyGivenNames t1
  refine Kept.cut (a := t1) ?_ fun _ => ?_
  · unfold t1; clear t1
    apply keeps_bump
    assumption
  clear_value t1
  extract_lets +onlyGivenNames t2
  clear_value t2
  extract_lets +onlyGivenNames t3
  refine Kept.cut (a := t3) ?_ fun _ => ?_
  · unfold t3; clear t3
    refine Kept.of_eq rfl rfl rfl rfl rfl rfl rfl rfl rfl rfl rfl rfl ?_
    assumption
  clear_value t3
  refine Kept.ite ?_ ?_
  · apply keeps_fire
    apply keeps_bump
    assumption
  · assumption

theorem keeps_storeBlock {s₀ : State} (s : State) (i : ℕ) (d : List ℕ) (h0 : Kept s₀ s) :
    Kept s₀ (State.storeBlock s i d) := by
  unfold State.storeBlock
  extract_lets +onlyGivenNames t1
  refine Kept.cut (a := t1) ?_ fun _ => ?_
  · unfold t1; clear t1
    apply keeps_bump
    assumption
  clear_value t1
  refine Kept.of_eq rfl rfl rfl rfl rfl rfl rfl rfl rfl rfl rfl rfl ?_
  assumption

theorem keeps_takeBlock {s₀ : State} (s : State) (w : List ℕ) (h0 : Kept s₀ s) :
    Kept s₀ (State.takeBlock s w).1 := by
  unfold State.takeBlock
  extract_lets +onlyGivenNames t1
  clear_value t1
  extract_lets +onlyGivenNames t2
  clear_value t2
  split
  · split
    · extract_lets +onlyGivenNames t3
      refine Kept.cut (a := t3) ?_ fun _ => ?_
      · unfold t3; clear t3
        apply keeps_storeBlock
        assumption
      clear_value t3
      refine Kept.of_eq rfl rfl rfl rfl rfl rfl rfl rfl rfl rfl rfl rfl ?_
      assumption
    · assumption
  · split
    · apply keeps_storeBlock
      assumption
    · split
      · apply keeps_bump
        assumption
      · assumption
  · assumption

theorem keeps_frameIn {s₀ : State} (s : State) (w : List ℕ) (h0 : Kept s₀ s) :
    Kept s₀ (State.frameIn s w).1 := by
  unfold State.frameIn
  split
  · extract_lets +onlyGivenNames t1
    clear_value t1
    split
    · apply keeps_takeBlock
      assumption
    · apply keeps_refuseFrame
      assumption
  · extract_lets +onlyGivenNames t2
    clear_value t2
    split
    · apply keeps_takeBlock
      assumption
    · apply keeps_refuseFrame
      assumption
  · assumption

theorem keeps_blockOp {s₀ : State} (s : State) (w : List ℕ) (h0 : Kept s₀ s) :
    Kept s₀ (State.blockOp s w).1 := by
  unfold State.blockOp
  split
  · apply keeps_frameIn
    assumption
  · assumption

theorem keeps_execUpdateBlock {s₀ : State} (frame : List Word) (s : State) (h0 : Kept s₀ s) :
    ∃ out, execUpdateBlock frame s = .next out ∧ Kept s₀ out := by
  have h := keeps_blockOp s (frame.map BitVec.toNat) h0
  unfold execUpdateBlock
  generalize s.blockOp (frame.map BitVec.toNat) = r at h
  obtain ⟨t, c⟩ := r
  exact ⟨_, rfl, Kept.ite h (keeps_abort _ _ _ h)⟩

theorem keeps_imageFrames {s₀ : State} (s : State) (words : List ℕ) (x2 : ℕ) (h0 : Kept s₀ s) :
    Kept s₀ (State.imageFrames s words x2) := by
  induction x2 generalizing s words with
  | zero =>
    unfold State.imageFrames
    assumption
  | succ n ih =>
    unfold State.imageFrames
    dsimp only
    apply ih
    refine Kept.ite ?_ ?_
    · apply keeps_bump
      apply keeps_frameIn
      assumption
    · apply keeps_frameIn
      assumption

theorem keeps_execImageWrite {s₀ : State} (words : List Word) (e : SvcEnd) (s : State) (h0 : Kept s₀ s) :
    ∃ out, execImageWrite words e s = .next out ∧ Kept s₀ out := by
  unfold execImageWrite
  refine ⟨_, rfl, ?_⟩
  refine Kept.ite ?_ ?_
  · assumption
  · refine Kept.ite ?_ ?_
    · apply keeps_svcDrop
      apply keeps_svcMiso
      assumption
    · extract_lets +onlyGivenNames t1
      clear_value t1
      extract_lets +onlyGivenNames t2
      refine Kept.cut (a := t2) ?_ fun _ => ?_
      · unfold t2; clear t2
        apply keeps_svcEnd
        apply keeps_svcMiso
        assumption
      clear_value t2
      refine Kept.ite ?_ ?_
      · assumption
      · refine Kept.ite ?_ ?_
        · apply keeps_bump
          assumption
        · apply keeps_imageFrames
          apply keeps_bump
          assumption

theorem keeps_updateDiscardOp {s₀ : State} (s : State) (h0 : Kept s₀ s) :
    Kept s₀ (State.updateDiscardOp s).1 := by
  unfold State.updateDiscardOp
  split
  · refine Kept.of_eq rfl rfl rfl rfl rfl rfl rfl rfl rfl rfl rfl rfl ?_
    assumption
  · refine Kept.of_eq rfl rfl rfl rfl rfl rfl rfl rfl rfl rfl rfl rfl ?_
    assumption
  · refine Kept.of_eq rfl rfl rfl rfl rfl rfl rfl rfl rfl rfl rfl rfl ?_
    assumption
  · assumption

theorem keeps_updateCheckOp {s₀ : State} (s : State) (h0 : Kept s₀ s) :
    Kept s₀ (State.updateCheckOp s).1 := by
  unfold State.updateCheckOp
  split
  · refine Kept.of_eq rfl rfl rfl rfl rfl rfl rfl rfl rfl rfl rfl rfl ?_
    assumption
  · assumption

theorem keeps_scheduleOp {s₀ : State} (s : State) (h0 : Kept s₀ s) :
    Kept s₀ (State.scheduleOp s).1 := by
  unfold State.scheduleOp
  split
  · extract_lets +onlyGivenNames t1
    clear_value t1
    refine Kept.of_eq rfl rfl rfl rfl rfl rfl rfl rfl rfl rfl rfl rfl ?_
    assumption
  · assumption

theorem keeps_unscheduleOp {s₀ : State} (s : State) (id : ℕ) (h0 : Kept s₀ s) :
    Kept s₀ (State.unscheduleOp s id).1 := by
  unfold State.unscheduleOp
  split
  · assumption
  · split
    · assumption
    · refine Kept.of_eq rfl rfl rfl rfl rfl rfl rfl rfl rfl rfl rfl rfl ?_
      assumption

theorem keeps_cmdEnd {s₀ : State} (p : State × ℕ) (entry : ℕ) (h0 : Kept s₀ p.1) :
    Kept s₀ (State.cmdEnd p entry) := by
  unfold State.cmdEnd
  refine Kept.ite ?_ ?_
  · assumption
  · apply keeps_abort
    assumption

theorem keeps_execUpdateDiscard {s₀ : State} (s : State) (h0 : Kept s₀ s) :
    ∃ out, execUpdateDiscard s = .next out ∧ Kept s₀ out := by
  unfold execUpdateDiscard
  refine ⟨_, rfl, ?_⟩
  apply keeps_cmdEnd
  apply keeps_updateDiscardOp
  assumption

theorem keeps_execUpdateCheck {s₀ : State} (s : State) (h0 : Kept s₀ s) :
    ∃ out, execUpdateCheck s = .next out ∧ Kept s₀ out := by
  unfold execUpdateCheck
  refine ⟨_, rfl, ?_⟩
  apply keeps_byShepherd
  · assumption
  · intro a1 a2
    apply keeps_cmdEnd
    apply keeps_updateCheckOp
    assumption

theorem keeps_execSchedule {s₀ : State} (s : State) (h0 : Kept s₀ s) :
    ∃ out, execSchedule s = .next out ∧ Kept s₀ out := by
  unfold execSchedule
  refine ⟨_, rfl, ?_⟩
  apply keeps_cmdEnd
  apply keeps_scheduleOp
  assumption

theorem keeps_execUnschedule {s₀ : State} (id : ℕ) (s : State) (h0 : Kept s₀ s) :
    ∃ out, execUnschedule id s = .next out ∧ Kept s₀ out := by
  unfold execUnschedule
  refine ⟨_, rfl, ?_⟩
  apply keeps_cmdEnd
  apply keeps_unscheduleOp
  assumption

theorem keeps_checkAnswer {s₀ : State} (s : State) (abort : ℕ) (h0 : Kept s₀ s) :
    Kept s₀ (State.checkAnswer s abort) := by
  unfold State.checkAnswer
  extract_lets +onlyGivenNames t1
  clear_value t1
  extract_lets +onlyGivenNames t2
  clear_value t2
  extract_lets +onlyGivenNames t3
  clear_value t3
  extract_lets +onlyGivenNames t4
  refine Kept.cut (a := t4) ?_ fun _ => ?_
  · unfold t4; clear t4
    refine Kept.of_eq rfl rfl rfl rfl rfl rfl rfl rfl rfl rfl rfl rfl ?_
    assumption
  clear_value t4
  refine Kept.ite ?_ ?_
  · refine Kept.ite ?_ ?_
    · assumption
    · apply keeps_abort
      assumption
  · refine Kept.fold ?_ ?_
    · intro a1 a2 a3
      extract_lets +onlyGivenNames t5
      clear_value t5
      apply keeps_respond
      assumption
    · assumption

theorem keeps_execUpdateCheckDone {s₀ : State} (s : State) (h0 : Kept s₀ s) :
    ∃ out, execUpdateCheckDone s = .next out ∧ Kept s₀ out := by
  unfold execUpdateCheckDone
  refine ⟨_, rfl, ?_⟩
  refine Kept.ite ?_ ?_
  · assumption
  · refine Kept.ite ?_ ?_
    · apply keeps_checkAnswer
      extract_lets +onlyGivenNames t1
      refine Kept.cut (a := t1) ?_ fun _ => ?_
      · unfold t1; clear t1
        apply keeps_foldGrant
        assumption
      clear_value t1
      refine Kept.of_eq rfl rfl rfl rfl rfl rfl rfl rfl rfl rfl rfl rfl ?_
      assumption
    · extract_lets +onlyGivenNames t2
      refine Kept.cut (a := t2) ?_ fun _ => ?_
      · unfold t2; clear t2
        apply keeps_bump
        apply keeps_foldRefuse
        assumption
      clear_value t2
      apply keeps_checkAnswer
      apply keeps_fire
      refine Kept.of_eq rfl rfl rfl rfl rfl rfl rfl rfl rfl rfl rfl rfl ?_
      assumption

theorem keeps_setProfile {s₀ : State} (s : State) (n : ℕ) (x : Profile) (h0 : Kept s₀ s) :
    Kept s₀ (State.setProfile s n x) := by
  unfold State.setProfile
  refine Kept.of_eq rfl rfl rfl rfl rfl rfl rfl rfl rfl rfl rfl rfl ?_
  assumption

theorem keeps_loadProfile {s₀ : State} (s : State) (n : ℕ) (h0 : Kept s₀ s) :
    Kept s₀ (State.loadProfile s n) := by
  unfold State.loadProfile
  extract_lets +onlyGivenNames t1
  refine Kept.cut (a := t1) ?_ fun _ => ?_
  · unfold t1; clear t1
    apply keeps_openTable
    assumption
  clear_value t1
  extract_lets +onlyGivenNames t2
  clear_value t2
  extract_lets +onlyGivenNames t3
  refine Kept.cut (a := t3) ?_ fun _ => ?_
  · unfold t3; clear t3
    apply keeps_setStaging
    assumption
  clear_value t3
  apply keeps_reportRuns
  refine Kept.of_eq rfl rfl rfl rfl rfl rfl rfl rfl rfl rfl rfl rfl ?_
  assumption

theorem keeps_selectOp {s₀ : State} (s : State) (n : ℕ) (h0 : Kept s₀ s) :
    Kept s₀ (State.selectOp s n).1 := by
  unfold State.selectOp
  split
  · extract_lets +onlyGivenNames t1
    refine Kept.cut (a := t1) ?_ fun _ => ?_
    · unfold t1; clear t1
      apply keeps_loadProfile
      assumption
    clear_value t1
    refine Kept.of_eq rfl rfl rfl rfl rfl rfl rfl rfl rfl rfl rfl rfl ?_
    assumption
  · assumption

theorem keeps_storeHalf {s₀ : State} (s : State) (n : ℕ) (x2 : Half) (h0 : Kept s₀ s) :
    Kept s₀ (State.storeHalf s n x2).1 := by
  unfold State.storeHalf
  split
  · refine Kept.of_eq rfl rfl rfl rfl rfl rfl rfl rfl rfl rfl rfl rfl ?_
    assumption
  · assumption

theorem keeps_storeOp {s₀ : State} (s : State) (n : ℕ) (h0 : Kept s₀ s) :
    Kept s₀ (State.storeOp s n).1 := by
  unfold State.storeOp
  split
  · apply keeps_storeHalf
    assumption
  · assumption

theorem keeps_storeStagingOp {s₀ : State} (s : State) (n : ℕ) (h0 : Kept s₀ s) :
    Kept s₀ (State.storeStagingOp s n).1 := by
  unfold State.storeStagingOp
  split
  · apply keeps_storeHalf
    assumption
  · assumption

theorem keeps_eraseOp {s₀ : State} (s : State) (n : ℕ) (h0 : Kept s₀ s) :
    Kept s₀ (State.eraseOp s n).1 := by
  unfold State.eraseOp
  split
  · refine Kept.of_eq rfl rfl rfl rfl rfl rfl rfl rfl rfl rfl rfl rfl ?_
    assumption
  · assumption

theorem keeps_execProfileSelect {s₀ : State} (n : Fin 4) (s : State) (h0 : Kept s₀ s) :
    ∃ out, execProfileSelect n s = .next out ∧ Kept s₀ out := by
  unfold execProfileSelect
  refine ⟨_, rfl, ?_⟩
  apply keeps_cmdEnd
  apply keeps_selectOp
  assumption

theorem keeps_execProfileStore {s₀ : State} (n : Fin 4) (s : State) (h0 : Kept s₀ s) :
    ∃ out, execProfileStore n s = .next out ∧ Kept s₀ out := by
  unfold execProfileStore
  refine ⟨_, rfl, ?_⟩
  apply keeps_cmdEnd
  apply keeps_storeOp
  assumption

theorem keeps_execStoreStaging {s₀ : State} (n : Fin 4) (s : State) (h0 : Kept s₀ s) :
    ∃ out, execStoreStaging n s = .next out ∧ Kept s₀ out := by
  unfold execStoreStaging
  refine ⟨_, rfl, ?_⟩
  apply keeps_cmdEnd
  apply keeps_storeStagingOp
  assumption

theorem keeps_execProfileErase {s₀ : State} (n : Fin 4) (s : State) (h0 : Kept s₀ s) :
    ∃ out, execProfileErase n s = .next out ∧ Kept s₀ out := by
  unfold execProfileErase
  refine ⟨_, rfl, ?_⟩
  apply keeps_cmdEnd
  apply keeps_eraseOp
  assumption

theorem keeps_clearCopy {s₀ : State} (s : State) (n : ℕ) (h0 : Kept s₀ s) :
    Kept s₀ (State.clearCopy s n) := by
  unfold State.clearCopy
  refine Kept.of_eq rfl rfl rfl rfl rfl rfl rfl rfl rfl rfl rfl rfl ?_
  assumption

theorem keeps_execProfileCommandDone {s₀ : State} (s : State) (h0 : Kept s₀ s) :
    ∃ out, execProfileCommandDone s = .next out ∧ Kept s₀ out := by
  unfold execProfileCommandDone
  refine ⟨_, rfl, ?_⟩
  split
  · assumption
  · extract_lets +onlyGivenNames t1
    refine Kept.cut (a := t1) ?_ fun _ => ?_
    · unfold t1; clear t1
      apply keeps_setProfile
      assumption
    clear_value t1
    extract_lets +onlyGivenNames t2
    clear_value t2
    extract_lets +onlyGivenNames t3
    refine Kept.cut (a := t3) ?_ fun _ => ?_
    · unfold t3; clear t3
      refine Kept.of_eq rfl rfl rfl rfl rfl rfl rfl rfl rfl rfl rfl rfl ?_
      assumption
    clear_value t3
    refine Kept.ite ?_ ?_
    · apply keeps_copyForce
      assumption
    · apply keeps_clearCopy
      assumption

end Sys2Proof.Laws
end

