-- ==== Sys2Proof/Laws/KeepPower.lean ====
section
/-! SUPPORT. What each operation of Machine/Power.lean keeps (Laws/Kept.lean). -/

open Sys2Proof Sys2Proof.Machine

namespace Sys2Proof.Laws

theorem keeps_wakeMarker {s₀ : State} (s : State) (h0 : Kept s₀ s) :
    Kept s₀ (State.wakeMarker s) := by
  unfold State.wakeMarker
  apply keeps_traceTail
  assumption

theorem keeps_startValues {s₀ : State} (s : State) (n : ℕ) (h0 : Kept s₀ s) :
    Kept s₀ (State.startValues s n) := by
  unfold State.startValues
  extract_lets +onlyGivenNames t1
  clear_value t1
  extract_lets +onlyGivenNames t2
  clear_value t2
  refine Kept.of_eq rfl rfl rfl rfl rfl rfl rfl rfl rfl rfl rfl rfl ?_
  assumption

theorem keeps_formatGroup {s₀ : State} (s : State) (g : ℕ) (h0 : Kept s₀ s) :
    Kept s₀ (State.formatGroup s g) := by
  unfold State.formatGroup
  extract_lets +onlyGivenNames t1
  clear_value t1
  extract_lets +onlyGivenNames t2
  clear_value t2
  refine Kept.ite ?_ ?_
  · assumption
  · extract_lets +onlyGivenNames t3
    clear_value t3
    apply keeps_fire
    refine Kept.of_eq rfl rfl rfl rfl rfl rfl rfl rfl rfl rfl rfl rfl ?_
    assumption

theorem keeps_formats {s₀ : State} (s : State) (h0 : Kept s₀ s) :
    Kept s₀ (State.formats s) := by
  unfold State.formats
  refine Kept.fold ?_ ?_
  · intro a1 a2 a3
    apply keeps_formatGroup
    assumption
  · assumption

theorem keeps_staleProfile {s₀ : State} (s : State) (n : ℕ) (h0 : Kept s₀ s) :
    Kept s₀ (State.staleProfile s n) := by
  unfold State.staleProfile
  extract_lets +onlyGivenNames t1
  clear_value t1
  refine Kept.ite ?_ ?_
  · apply keeps_fire
    apply keeps_setProfile
    assumption
  · assumption

theorem keeps_staleProfiles {s₀ : State} (s : State) (h0 : Kept s₀ s) :
    Kept s₀ (State.staleProfiles s) := by
  unfold State.staleProfiles
  refine Kept.fold ?_ ?_
  · intro a1 a2 a3
    apply keeps_staleProfile
    assumption
  · assumption

theorem keeps_takeFirmware {s₀ : State} (s : State) (h0 : Kept s₀ s) :
    Kept s₀ (State.takeFirmware s) := by
  unfold State.takeFirmware
  extract_lets +onlyGivenNames t1
  clear_value t1
  refine Kept.of_eq rfl rfl rfl rfl rfl rfl rfl rfl rfl rfl rfl rfl ?_
  assumption

theorem keeps_copyFires {s₀ : State} (s : State) (old : ℕ) (copied : Bool) (passed : Bool) (h0 : Kept s₀ s) :
    Kept s₀ (State.copyFires s old copied passed) := by
  unfold State.copyFires
  refine Kept.ite ?_ ?_
  · assumption
  · refine Kept.ite ?_ ?_
    · apply keeps_fire
      apply keeps_bump
      assumption
    · apply keeps_fire
      apply keeps_bump
      refine Kept.of_eq rfl rfl rfl rfl rfl rfl rfl rfl rfl rfl rfl rfl ?_
      assumption

theorem keeps_startUnits {s₀ : State} (s : State) (h0 : Kept s₀ s) :
    Kept s₀ (State.startUnits s) := by
  unfold State.startUnits
  extract_lets +onlyGivenNames t1
  refine Kept.cut (a := t1) ?_ fun _ => ?_
  · unfold t1; clear t1
    refine Kept.fold ?_ ?_
    · intro a1 a2 a3
      extract_lets +onlyGivenNames t2
      clear_value t2
      refine Kept.ite ?_ ?_
      · apply keeps_penEnable
        assumption
      · refine Kept.ite ?_ ?_
        · apply keeps_busEnable
          assumption
        · assumption
    · assumption
  clear_value t1
  apply keeps_pairEnable
  apply keeps_quayEnable
  assumption

theorem keeps_confirmJoin {s₀ : State} (s : State) (h0 : Kept s₀ s) :
    Kept s₀ (State.confirmJoin s) := by
  unfold State.confirmJoin
  refine Kept.ite ?_ ?_
  · extract_lets +onlyGivenNames t1
    refine Kept.cut (a := t1) ?_ fun _ => ?_
    · unfold t1; clear t1
      apply keeps_setClaim
      assumption
    clear_value t1
    refine Kept.of_eq rfl rfl rfl rfl rfl rfl rfl rfl rfl rfl rfl rfl ?_
    assumption
  · assumption

theorem keeps_enterFull {s₀ : State} (s : State) (h0 : Kept s₀ s) :
    Kept s₀ (State.enterFull s) := by
  unfold State.enterFull
  extract_lets +onlyGivenNames t1
  clear_value t1
  extract_lets +onlyGivenNames t2
  clear_value t2
  extract_lets +onlyGivenNames t3
  refine Kept.cut (a := t3) ?_ fun _ => ?_
  · unfold t3; clear t3
    refine Kept.of_eq rfl rfl rfl rfl rfl rfl rfl rfl rfl rfl rfl rfl ?_
    assumption
  clear_value t3
  refine Kept.fold ?_ ?_
  · intro a1 a2 a3
    refine Kept.ite ?_ ?_
    · apply keeps_linkEnable
      assumption
    · assumption
  · assumption

theorem keeps_endStart {s₀ : State} (s : State) (h0 : Kept s₀ s) :
    Kept s₀ (State.endStart s) := by
  unfold State.endStart
  refine Kept.ite ?_ ?_
  · apply keeps_enterFull
    assumption
  · assumption

theorem keeps_startTable {s₀ : State} (s : State) (h0 : Kept s₀ s) :
    Kept s₀ (State.startTable s) := by
  unfold State.startTable
  extract_lets +onlyGivenNames t1
  clear_value t1
  refine Kept.ite ?_ ?_
  · assumption
  · dsimp only
    refine Kept.ite ?_ ?_
    · apply keeps_armProfile
      apply keeps_checkEnds
      apply keeps_draw
      apply keeps_loadProfile
      assumption
    · apply keeps_checkEnds
      apply keeps_draw
      apply keeps_loadProfile
      assumption

theorem keeps_startLogs {s₀ : State} (s : State) (cause : ℕ) (source : ℕ) (h0 : Kept s₀ s) :
    Kept s₀ (State.startLogs s cause source) := by
  unfold State.startLogs
  extract_lets +onlyGivenNames t1
  refine Kept.cut (a := t1) ?_ fun _ => ?_
  · unfold t1; clear t1
    apply keeps_beginBlock
    assumption
  clear_value t1
  extract_lets +onlyGivenNames t2
  refine Kept.cut (a := t2) ?_ fun _ => ?_
  · unfold t2; clear t2
    apply keeps_startRecord
    assumption
  clear_value t2
  refine Kept.of_eq rfl rfl rfl rfl rfl rfl rfl rfl rfl rfl rfl rfl ?_
  assumption

theorem keeps_forcedLists {s₀ : State} (s : State) (before : State) (h0 : Kept s₀ s) :
    Kept s₀ (State.forcedLists s before) := by
  unfold State.forcedLists
  extract_lets +onlyGivenNames t1
  clear_value t1
  extract_lets +onlyGivenNames t2
  clear_value t2
  extract_lets +onlyGivenNames t3
  refine Kept.cut (a := t3) ?_ fun _ => ?_
  · unfold t3; clear t3
    refine Kept.ite ?_ ?_
    · assumption
    · apply keeps_listRecord
      assumption
  clear_value t3
  extract_lets +onlyGivenNames t4
  refine Kept.cut (a := t4) ?_ fun _ => ?_
  · unfold t4; clear t4
    refine Kept.ite ?_ ?_
    · assumption
    · apply keeps_listRecord
      assumption
  clear_value t4
  extract_lets +onlyGivenNames t5
  refine Kept.cut (a := t5) ?_ fun _ => ?_
  · unfold t5; clear t5
    refine Kept.fold ?_ ?_
    · intro a6 a7 a8
      apply keeps_fire
      assumption
    · assumption
  clear_value t5
  refine Kept.fold ?_ ?_
  · intro a9 a10 a11
    apply keeps_fire
    assumption
  · assumption

theorem keeps_startFirings {s₀ : State} (s : State) (source : ℕ) (h0 : Kept s₀ s) :
    Kept s₀ (State.startFirings s source) := by
  unfold State.startFirings
  extract_lets +onlyGivenNames t1
  refine Kept.cut (a := t1) ?_ fun _ => ?_
  · unfold t1; clear t1
    refine Kept.ite ?_ ?_
    · apply keeps_fire
      assumption
    · assumption
  clear_value t1
  extract_lets +onlyGivenNames t2
  clear_value t2
  extract_lets +onlyGivenNames t3
  refine Kept.cut (a := t3) ?_ fun _ => ?_
  · unfold t3; clear t3
    refine Kept.of_eq rfl rfl rfl rfl rfl rfl rfl rfl rfl rfl rfl rfl ?_
    assumption
  clear_value t3
  refine Kept.ite ?_ ?_
  · apply keeps_fire
    assumption
  · assumption

theorem keeps_coldBase {s₀ : State} (s : State) (straps : ℕ) (h0 : Kept s₀ s) :
    Kept s₀ (State.coldBase s straps) := by
  refine h0.trans ⟨rfl, fun _ => rfl, fun _ => rfl, fun _ => rfl, id, rfl, Nat.le_refl _, fun _ _ => ⟨rfl, id⟩, Nat.le_refl _,
    List.Subset.refl _, Nat.le_refl _, .inl rfl⟩

theorem keeps_keepRecord {s₀ : State} (s : State) (before : State) (h0 : Kept s₀ s) (h1 : Kept s₀ before) :
    Kept s₀ (State.keepRecord s before) := by
  unfold State.keepRecord
  refine Kept.of_eq rfl rfl rfl rfl rfl rfl rfl rfl rfl rfl rfl rfl ?_
  assumption

theorem keeps_xtalStart {s₀ : State} (s : State) (h0 : Kept s₀ s) :
    Kept s₀ (State.xtalStart s) := by
  unfold State.xtalStart
  refine Kept.ite ?_ ?_
  · assumption
  · split
    refine Kept.of_eq rfl rfl rfl rfl rfl rfl rfl rfl rfl rfl rfl rfl ?_
    refine Kept.ofEq (by assumption) ?_
    apply keeps_draw
    assumption

theorem keeps_coldFrom {s₀ : State} (b : State) (before : State) (straps : ℕ) (cause : ℕ) (source : ℕ) (h0 : Kept s₀ b) :
    Kept s₀ (State.coldFrom b before straps cause source) := by
  unfold State.coldFrom
  extract_lets +onlyGivenNames t1
  refine Kept.cut (a := t1) ?_ fun _ => ?_
  · unfold t1; clear t1
    apply keeps_xtalStart
    assumption
  clear_value t1
  extract_lets +onlyGivenNames t2
  clear_value t2
  extract_lets +onlyGivenNames t3
  clear_value t3
  extract_lets +onlyGivenNames t4
  clear_value t4
  extract_lets +onlyGivenNames t5
  refine Kept.cut (a := t5) ?_ fun _ => ?_
  · unfold t5; clear t5
    refine Kept.ite ?_ ?_
    · apply keeps_takeFirmware
      assumption
    · assumption
  clear_value t5
  extract_lets +onlyGivenNames t6
  refine Kept.cut (a := t6) ?_ fun _ => ?_
  · unfold t6; clear t6
    apply keeps_startFirings
    apply keeps_startLogs
    assumption
  clear_value t6
  extract_lets +onlyGivenNames t7
  refine Kept.cut (a := t7) ?_ fun _ => ?_
  · unfold t7; clear t7
    apply keeps_foldStart
    assumption
  clear_value t7
  extract_lets +onlyGivenNames t8
  refine Kept.cut (a := t8) ?_ fun _ => ?_
  · unfold t8; clear t8
    refine Kept.ite ?_ ?_
    · assumption
    · apply keeps_forcedLists
      assumption
  clear_value t8
  extract_lets +onlyGivenNames t9
  refine Kept.cut (a := t9) ?_ fun _ => ?_
  · unfold t9; clear t9
    apply keeps_staleProfiles
    apply keeps_formats
    apply keeps_copyFires
    assumption
  clear_value t9
  extract_lets +onlyGivenNames t10
  refine Kept.cut (a := t10) ?_ fun _ => ?_
  · unfold t10; clear t10
    apply keeps_startUnits
    apply keeps_gatesCold
    apply keeps_startValues
    assumption
  clear_value t10
  extract_lets +onlyGivenNames t11
  refine Kept.cut (a := t11) ?_ fun _ => ?_
  · unfold t11; clear t11
    refine Kept.ite ?_ ?_
    · apply keeps_confirmJoin
      assumption
    · assumption
  clear_value t11
  apply keeps_endStart
  apply keeps_startTable
  assumption

theorem keeps_coldStartAs {s₀ : State} (s : State) (straps : ℕ) (source : ℕ) (h0 : Kept s₀ s) :
    Kept s₀ (State.coldStartAs s straps source) := by
  unfold State.coldStartAs
  apply keeps_coldFrom
  apply keeps_coldBase
  assumption

theorem keeps_deepExit {s₀ : State} (s : State) (straps : ℕ) (source : ℕ) (h0 : Kept s₀ s) :
    Kept s₀ (State.deepExit s straps source) := by
  unfold State.deepExit
  extract_lets +onlyGivenNames t1
  refine Kept.cut (a := t1) ?_ fun _ => ?_
  · unfold t1; clear t1
    apply keeps_wakeMarker
    assumption
  clear_value t1
  apply keeps_timeFlooded
  apply keeps_coldFrom
  extract_lets +onlyGivenNames t2
  refine Kept.cut (a := t2) ?_ fun _ => ?_
  · unfold t2; clear t2
    apply keeps_keepRecord
    · apply keeps_coldBase
      assumption
    · assumption
  clear_value t2
  refine Kept.of_eq rfl rfl rfl rfl rfl rfl rfl rfl rfl rfl rfl rfl ?_
  assumption

theorem keeps_untrained {s₀ : State} (s : State) (m : ℕ) (h0 : Kept s₀ s) :
    Kept s₀ (State.untrained s m) := by
  unfold State.untrained
  refine Kept.fold ?_ ?_
  · intro a1 a2 a3
    refine Kept.ite ?_ ?_
    · apply keeps_loseChannel
      assumption
    · assumption
  · assumption

theorem keeps_execColdStart {s₀ : State} (straps : Fin 64) (bad : Fin 16) (s : State) (h0 : Kept s₀ s) :
    ∃ out, execColdStart straps bad s = .next out ∧ Kept s₀ out := by
  unfold execColdStart
  refine ⟨_, rfl, ?_⟩
  split
  · refine Kept.ite ?_ ?_
    · apply keeps_untrained
      apply keeps_coldStartAs
      assumption
    · assumption
  · assumption

theorem keeps_execDeepKeepExit {s₀ : State} (straps : Fin 64) (bad : Fin 16) (s : State) (h0 : Kept s₀ s) :
    ∃ out, execDeepKeepExit straps bad s = .next out ∧ Kept s₀ out := by
  unfold execDeepKeepExit
  refine ⟨_, rfl, ?_⟩
  refine Kept.ite ?_ ?_
  · apply keeps_untrained
    split
    · refine Kept.ite ?_ ?_
      · apply keeps_deepExit
        assumption
      · apply keeps_coldStartAs
        assumption
    · apply keeps_deepExit
      assumption
  · assumption

theorem keeps_warmBase {s₀ : State} (s : State) (straps : ℕ) (h0 : Kept s₀ s) :
    Kept s₀ (State.warmBase s straps) := by
  exact h0.trans ⟨rfl, id, id, fun _ => rfl, id, rfl, Nat.le_refl _, fun _ _ => ⟨rfl, id⟩, Nat.le_refl _,
    List.Subset.refl _, Nat.le_refl _, .inl rfl⟩

theorem keeps_warmStage {s₀ : State} (s : State) (h0 : Kept s₀ s) :
    Kept s₀ (State.warmStage s) := by
  unfold State.warmStage
  refine Kept.ite ?_ ?_
  · apply keeps_emptyStaging
    assumption
  · assumption

theorem keeps_warmFrom {s₀ : State} (b : State) (before : State) (straps : ℕ) (source : ℕ) (h0 : Kept s₀ b) (h1 : Kept s₀ before) :
    Kept s₀ (State.warmFrom b before straps source) := by
  unfold State.warmFrom
  extract_lets +onlyGivenNames t1
  clear_value t1
  extract_lets +onlyGivenNames t2
  clear_value t2
  extract_lets +onlyGivenNames t3
  clear_value t3
  extract_lets +onlyGivenNames t4
  refine Kept.cut (a := t4) ?_ fun _ => ?_
  · unfold t4; clear t4
    refine Kept.ite ?_ ?_
    · apply keeps_takeFirmware
      assumption
    · assumption
  clear_value t4
  extract_lets +onlyGivenNames t5
  refine Kept.cut (a := t5) ?_ fun _ => ?_
  · unfold t5; clear t5
    apply keeps_startFirings
    apply keeps_startLogs
    assumption
  clear_value t5
  extract_lets +onlyGivenNames t6
  refine Kept.cut (a := t6) ?_ fun _ => ?_
  · unfold t6; clear t6
    apply keeps_copyFires
    apply keeps_forcedLists
    apply keeps_foldStart
    assumption
  clear_value t6
  extract_lets +onlyGivenNames t7
  refine Kept.cut (a := t7) ?_ fun _ => ?_
  · unfold t7; clear t7
    apply keeps_staleProfiles
    apply keeps_formats
    assumption
  clear_value t7
  extract_lets +onlyGivenNames t8
  refine Kept.cut (a := t8) ?_ fun _ => ?_
  · unfold t8; clear t8
    apply keeps_startUnits
    apply keeps_startValues
    assumption
  clear_value t8
  extract_lets +onlyGivenNames t9
  refine Kept.cut (a := t9) ?_ fun _ => ?_
  · unfold t9; clear t9
    refine Kept.ite ?_ ?_
    · apply keeps_confirmJoin
      assumption
    · assumption
  clear_value t9
  apply keeps_endStart
  apply keeps_startTable
  apply keeps_warmStage
  assumption

theorem keeps_errWarm {s₀ : State} (s : State) (h0 : Kept s₀ s) :
    Kept s₀ (State.errWarm s) := by
  unfold State.errWarm
  refine Kept.ite ?_ ?_
  · assumption
  · apply keeps_errFrom
    assumption

theorem keeps_warmStartAs {s₀ : State} (s : State) (straps : ℕ) (source : ℕ) (h0 : Kept s₀ s) :
    Kept s₀ (State.warmStartAs s straps source) := by
  unfold State.warmStartAs
  extract_lets +onlyGivenNames t1
  refine Kept.cut (a := t1) ?_ fun _ => ?_
  · unfold t1; clear t1
    apply keeps_errWarm
    apply keeps_abortCheck
    apply keeps_holdEntry
    assumption
  clear_value t1
  apply keeps_timeFlooded
  apply keeps_warmFrom
  · apply keeps_warmBase
    assumption
  · assumption

theorem keeps_execWarmRestart {s₀ : State} (straps : Fin 64) (bad : Fin 16) (s : State) (h0 : Kept s₀ s) :
    ∃ out, execWarmRestart straps bad s = .next out ∧ Kept s₀ out := by
  unfold execWarmRestart
  refine ⟨_, rfl, ?_⟩
  split
  · refine Kept.ite ?_ ?_
    · apply keeps_untrained
      apply keeps_warmStartAs
      assumption
    · assumption
  · assumption

theorem keeps_intoReset {s₀ : State} (s : State) (source : ℕ) (h0 : Kept s₀ s) :
    Kept s₀ (State.intoReset s source) := by
  unfold State.intoReset
  refine Kept.of_eq rfl rfl rfl rfl rfl rfl rfl rfl rfl rfl rfl rfl ?_
  assumption

theorem keeps_beginWarm {s₀ : State} (s : State) (source : ℕ) (h0 : Kept s₀ s) :
    Kept s₀ (State.beginWarm s source) := by
  unfold State.beginWarm
  apply keeps_intoReset
  apply keeps_abortCheck
  apply keeps_holdEntry
  assumption

theorem keeps_beginCold {s₀ : State} (s : State) (source : ℕ) (h0 : Kept s₀ s) :
    Kept s₀ (State.beginCold s source) := by
  unfold State.beginCold
  extract_lets +onlyGivenNames t1
  refine Kept.cut (a := t1) ?_ fun _ => ?_
  · unfold t1; clear t1
    apply keeps_intoReset
    apply keeps_abortCheck
    assumption
  clear_value t1
  refine Kept.of_eq rfl rfl rfl rfl rfl rfl rfl rfl rfl rfl rfl rfl ?_
  assumption

theorem keeps_sleepMarker {s₀ : State} (s : State) (target : ℕ) (h0 : Kept s₀ s) :
    Kept s₀ (State.sleepMarker s target) := by
  unfold State.sleepMarker
  extract_lets +onlyGivenNames t1
  clear_value t1
  refine Kept.ite ?_ ?_
  · apply keeps_traceWords
    assumption
  · apply keeps_traceTail
    assumption

theorem keeps_linksDark {s₀ : State} (s : State) (h0 : Kept s₀ s) :
    Kept s₀ (State.linksDark s) := by
  unfold State.linksDark
  apply keeps_endSessions
  refine Kept.of_eq rfl rfl rfl rfl rfl rfl rfl rfl rfl rfl rfl rfl ?_
  assumption

theorem keeps_keepEntry {s₀ : State} (s : State) (h0 : Kept s₀ s) :
    Kept s₀ (State.keepEntry s) := by
  unfold State.keepEntry
  extract_lets +onlyGivenNames t1
  refine Kept.cut (a := t1) ?_ fun _ => ?_
  · unfold t1; clear t1
    apply keeps_errKept
    apply keeps_linksDark
    apply keeps_ebbedNow
    apply keeps_abortCheck
    apply keeps_holdEntry
    apply keeps_sleepMarker
    apply keeps_flushRepeat
    assumption
  clear_value t1
  refine Kept.of_eq rfl rfl rfl rfl rfl rfl rfl rfl rfl rfl rfl rfl ?_
  assumption

theorem keeps_deepEntry {s₀ : State} (s : State) (h0 : Kept s₀ s) :
    Kept s₀ (State.deepEntry s) := by
  unfold State.deepEntry
  extract_lets +onlyGivenNames t1
  refine Kept.cut (a := t1) ?_ fun _ => ?_
  · unfold t1; clear t1
    apply keeps_errKept
    apply keeps_gatesPower
    apply keeps_linksDark
    apply keeps_ebbedNow
    apply keeps_abortCheck
    apply keeps_sleepMarker
    apply keeps_flushRepeat
    assumption
  clear_value t1
  refine Kept.of_eq rfl rfl rfl rfl rfl rfl rfl rfl rfl rfl rfl rfl ?_
  assumption

theorem keeps_lightEntry {s₀ : State} (s : State) (h0 : Kept s₀ s) :
    Kept s₀ (State.lightEntry s) := by
  unfold State.lightEntry
  extract_lets +onlyGivenNames t1
  refine Kept.cut (a := t1) ?_ fun _ => ?_
  · unfold t1; clear t1
    apply keeps_linksDark
    apply keeps_abortCheck
    apply keeps_holdEntry
    assumption
  clear_value t1
  refine Kept.of_eq rfl rfl rfl rfl rfl rfl rfl rfl rfl rfl rfl rfl ?_
  assumption

theorem keeps_ebbNow {s₀ : State} (s : State) (h0 : Kept s₀ s) :
    Kept s₀ (State.ebbNow s) := by
  unfold State.ebbNow
  refine Kept.ite ?_ ?_
  · apply keeps_timeFlooded
    apply keeps_wakeNow
    apply keeps_errKept
    apply keeps_ebbedNow
    assumption
  · extract_lets +onlyGivenNames t1
    clear_value t1
    extract_lets +onlyGivenNames t2
    refine Kept.cut (a := t2) ?_ fun _ => ?_
    · unfold t2; clear t2
      refine Kept.ite ?_ ?_
      · apply keeps_deepEntry
        assumption
      · apply keeps_keepEntry
        assumption
    clear_value t2
    refine Kept.ite ?_ ?_
    · apply keeps_wakeNow
      assumption
    · assumption

theorem keeps_execEbbAtReached {s₀ : State} (s : State) (h0 : Kept s₀ s) :
    ∃ out, execEbbAtReached s = .next out ∧ Kept s₀ out := by
  unfold execEbbAtReached
  refine ⟨_, rfl, ?_⟩
  refine Kept.ite ?_ ?_
  · apply keeps_ebbNow
    apply keeps_tideEnds
    assumption
  · assumption

theorem keeps_execDeepAfterExpiry {s₀ : State} (s : State) (h0 : Kept s₀ s) :
    ∃ out, execDeepAfterExpiry s = .next out ∧ Kept s₀ out := by
  unfold execDeepAfterExpiry
  refine ⟨_, rfl, ?_⟩
  refine Kept.ite ?_ ?_
  · extract_lets +onlyGivenNames t1
    refine Kept.cut (a := t1) ?_ fun _ => ?_
    · unfold t1; clear t1
      apply keeps_gatesPower
      assumption
    clear_value t1
    refine Kept.of_eq rfl rfl rfl rfl rfl rfl rfl rfl rfl rfl rfl rfl ?_
    assumption
  · assumption

theorem keeps_floodBase {s₀ : State} (s : State) (h0 : Kept s₀ s) :
    Kept s₀ (State.floodBase s) := by
  unfold State.floodBase
  refine Kept.of_wf rfl ?_ ?_ ?_ ?_ rfl rfl rfl rfl rfl rfl rfl ?_
  · exact WfTo.same
  · exact WfTo.same
  · exact fun _ => rfl
  · exact WfTo.same
  · assumption

theorem keeps_execFloodFromKeep {s₀ : State} (bad : Fin 16) (s : State) (h0 : Kept s₀ s) :
    ∃ out, execFloodFromKeep bad s = .next out ∧ Kept s₀ out := by
  unfold execFloodFromKeep
  refine ⟨_, rfl, ?_⟩
  refine Kept.ite ?_ ?_
  · extract_lets +onlyGivenNames t1
    refine Kept.cut (a := t1) ?_ fun _ => ?_
    · unfold t1; clear t1
      apply keeps_floodBase
      apply keeps_wakeMarker
      assumption
    clear_value t1
    apply keeps_untrained
    apply keeps_timeFlooded
    apply keeps_enterFull
    apply keeps_startUnits
    apply keeps_foldLatched
    apply keeps_startLogs
    assumption
  · assumption

theorem keeps_powerOp {s₀ : State} (s : State) (cmd : ℕ) (h0 : Kept s₀ s) :
    Kept s₀ (State.powerOp s cmd) := by
  unfold State.powerOp
  refine Kept.ite ?_ ?_
  · assumption
  · split
    · refine Kept.of_eq rfl rfl rfl rfl rfl rfl rfl rfl rfl rfl rfl rfl ?_
      assumption
    · refine Kept.ite ?_ ?_
      · apply keeps_abort
        assumption
      · refine Kept.of_eq rfl rfl rfl rfl rfl rfl rfl rfl rfl rfl rfl rfl ?_
        assumption
    · refine Kept.ite ?_ ?_
      · apply keeps_abort
        assumption
      · refine Kept.of_eq rfl rfl rfl rfl rfl rfl rfl rfl rfl rfl rfl rfl ?_
        assumption
    · apply keeps_beginWarm
      assumption
    · apply keeps_beginWarm
      assumption
    · apply keeps_beginCold
      assumption
    · apply keeps_beginCold
      assumption
    · refine Kept.ite ?_ ?_
      · apply keeps_enterFull
        assumption
      · apply keeps_abort
        assumption
    · apply keeps_abort
      assumption

theorem keeps_execPowerLight {s₀ : State} (s : State) (h0 : Kept s₀ s) :
    ∃ out, execPowerLight s = .next out ∧ Kept s₀ out := by
  unfold execPowerLight
  refine ⟨_, rfl, ?_⟩
  apply keeps_powerOp
  assumption

theorem keeps_execPowerFull {s₀ : State} (s : State) (h0 : Kept s₀ s) :
    ∃ out, execPowerFull s = .next out ∧ Kept s₀ out := by
  unfold execPowerFull
  refine ⟨_, rfl, ?_⟩
  apply keeps_powerOp
  assumption

theorem keeps_execPowerKeep {s₀ : State} (s : State) (h0 : Kept s₀ s) :
    ∃ out, execPowerKeep s = .next out ∧ Kept s₀ out := by
  unfold execPowerKeep
  refine ⟨_, rfl, ?_⟩
  apply keeps_powerOp
  assumption

theorem keeps_execPowerDeepKeep {s₀ : State} (s : State) (h0 : Kept s₀ s) :
    ∃ out, execPowerDeepKeep s = .next out ∧ Kept s₀ out := by
  unfold execPowerDeepKeep
  refine ⟨_, rfl, ?_⟩
  apply keeps_powerOp
  assumption

theorem keeps_execPowerWarm {s₀ : State} (s : State) (h0 : Kept s₀ s) :
    ∃ out, execPowerWarm s = .next out ∧ Kept s₀ out := by
  unfold execPowerWarm
  refine ⟨_, rfl, ?_⟩
  apply keeps_powerOp
  assumption

theorem keeps_execPowerCold {s₀ : State} (s : State) (h0 : Kept s₀ s) :
    ∃ out, execPowerCold s = .next out ∧ Kept s₀ out := by
  unfold execPowerCold
  refine ⟨_, rfl, ?_⟩
  apply keeps_powerOp
  assumption

theorem keeps_goDark {s₀ : State} (s : State) (h0 : Kept s₀ s) :
    Kept s₀ (State.goDark s) := by
  unfold State.goDark
  apply keeps_gatesPower
  extract_lets +onlyGivenNames t1
  refine Kept.cut (a := t1) ?_ fun _ => ?_
  · unfold t1; clear t1
    apply keeps_abortCheck
    assumption
  clear_value t1
  refine Kept.of_eq rfl rfl rfl rfl rfl rfl rfl rfl rfl rfl rfl rfl ?_
  assumption

theorem keeps_serLost {s₀ : State} (s : State) (h0 : Kept s₀ s) :
    Kept s₀ (State.serLost s) := by
  unfold State.serLost
  extract_lets +onlyGivenNames t1
  refine Kept.cut (a := t1) ?_ fun _ => ?_
  · unfold t1; clear t1
    refine Kept.fold ?_ ?_
    · intro a2 a3 a4
      apply keeps_laneLost
      assumption
    · assumption
  clear_value t1
  refine Kept.fold ?_ ?_
  · intro a5 a6 a7
    split
    · apply keeps_portSettle
      assumption
    · apply keeps_portSettle
      assumption
    · assumption
  · assumption

theorem keeps_t1lLost {s₀ : State} (s : State) (h0 : Kept s₀ s) :
    Kept s₀ (State.t1lLost s) := by
  unfold State.t1lLost
  refine Kept.fold ?_ ?_
  · intro a1 a2 a3
    refine Kept.ite ?_ ?_
    · assumption
    · apply keeps_setPort
      apply keeps_dropQueues
      assumption
  · assumption

theorem keeps_pllLost {s₀ : State} (s : State) (ref : Bool) (h0 : Kept s₀ s) :
    Kept s₀ (State.pllLost s ref) := by
  unfold State.pllLost
  extract_lets +onlyGivenNames t1
  clear_value t1
  extract_lets +onlyGivenNames t2
  refine Kept.cut (a := t2) ?_ fun _ => ?_
  · unfold t2; clear t2
    refine Kept.of_eq rfl rfl rfl rfl rfl rfl rfl rfl rfl rfl rfl rfl ?_
    assumption
  clear_value t2
  apply keeps_beginWarm
  assumption

theorem keeps_supplyLost {s₀ : State} (s : State) (n : ℕ) (h0 : Kept s₀ s) :
    Kept s₀ (State.supplyLost s n) := by
  unfold State.supplyLost
  split
  · apply keeps_beginWarm
    apply keeps_fire
    assumption
  · apply keeps_beginWarm
    apply keeps_fire
    assumption
  · apply keeps_serLost
    apply keeps_fire
    assumption
  · apply keeps_serLost
    apply keeps_fire
    assumption
  · apply keeps_fire
    assumption
  · apply keeps_fire
    assumption
  · apply keeps_pllLost
    apply keeps_fire
    assumption
  · apply keeps_t1lLost
    apply keeps_fire
    assumption

theorem keeps_t1lBack {s₀ : State} (s : State) (h0 : Kept s₀ s) :
    Kept s₀ (State.t1lBack s) := by
  unfold State.t1lBack
  refine Kept.of_eq rfl rfl rfl rfl rfl rfl rfl rfl rfl rfl rfl rfl ?_
  assumption

theorem keeps_execSupplyStateChange {s₀ : State} (supply : Fin 9) (st : Fin 4) (mv : Fin 4096) (s : State) (h0 : Kept s₀ s) :
    ∃ out, execSupplyStateChange supply st mv s = .next out ∧ Kept s₀ out := by
  unfold execSupplyStateChange
  refine ⟨_, rfl, ?_⟩
  refine Kept.ite ?_ ?_
  · refine Kept.ite ?_ ?_
    · refine Kept.of_eq rfl rfl rfl rfl rfl rfl rfl rfl rfl rfl rfl rfl ?_
      assumption
    · apply keeps_goDark
      refine Kept.of_eq rfl rfl rfl rfl rfl rfl rfl rfl rfl rfl rfl rfl ?_
      assumption
  · refine Kept.ite ?_ ?_
    · refine Kept.ite ?_ ?_
      · apply keeps_supplyLost
        refine Kept.of_eq rfl rfl rfl rfl rfl rfl rfl rfl rfl rfl rfl rfl ?_
        assumption
      · refine Kept.of_eq rfl rfl rfl rfl rfl rfl rfl rfl rfl rfl rfl rfl ?_
        assumption
    · refine Kept.ite ?_ ?_
      · apply keeps_t1lBack
        refine Kept.of_eq rfl rfl rfl rfl rfl rfl rfl rfl rfl rfl rfl rfl ?_
        assumption
      · refine Kept.of_eq rfl rfl rfl rfl rfl rfl rfl rfl rfl rfl rfl rfl ?_
        assumption

theorem keeps_execPowerOrderBreach {s₀ : State} (kind : Fin 4) (supply : Fin 64) (s : State) (h0 : Kept s₀ s) :
    ∃ out, execPowerOrderBreach kind supply s = .next out ∧ Kept s₀ out := by
  unfold execPowerOrderBreach
  refine ⟨_, rfl, ?_⟩
  refine Kept.ite ?_ ?_
  · assumption
  · extract_lets +onlyGivenNames t1
    extract_lets +onlyGivenNames t2
    refine Kept.cut (a := t2) ?_ fun _ => ?_
    · unfold t2; clear t2
      refine Kept.ite ?_ ?_
      · assumption
      · refine Kept.of_eq rfl rfl rfl rfl rfl rfl rfl rfl rfl rfl rfl rfl ?_
        assumption
    clear_value t2
    extract_lets +onlyGivenNames t3
    refine Kept.cut (a := t3) ?_ fun _ => ?_
    · unfold t3; clear t3
      apply keeps_intoReset
      apply keeps_gatesPower
      apply keeps_abortCheck
      assumption
    clear_value t3
    refine Kept.of_eq rfl rfl rfl rfl rfl rfl rfl rfl rfl rfl rfl rfl ?_
    assumption

theorem keeps_execVddShoreUp {s₀ : State} (s : State) (h0 : Kept s₀ s) :
    ∃ out, execVddShoreUp s = .next out ∧ Kept s₀ out := by
  unfold execVddShoreUp
  refine ⟨_, rfl, ?_⟩
  refine Kept.ite ?_ ?_
  · refine Kept.of_eq rfl rfl rfl rfl rfl rfl rfl rfl rfl rfl rfl rfl ?_
    assumption
  · assumption

theorem keeps_execShoreXtalFail {s₀ : State} (s : State) (h0 : Kept s₀ s) :
    ∃ out, execShoreXtalFail s = .next out ∧ Kept s₀ out := by
  unfold execShoreXtalFail
  refine ⟨_, rfl, ?_⟩
  refine Kept.ite ?_ ?_
  · apply keeps_fire
    refine Kept.of_eq rfl rfl rfl rfl rfl rfl rfl rfl rfl rfl rfl rfl ?_
    assumption
  · refine Kept.of_eq rfl rfl rfl rfl rfl rfl rfl rfl rfl rfl rfl rfl ?_
    assumption

theorem keeps_execWorkPllLoss {s₀ : State} (ref : Bool) (s : State) (h0 : Kept s₀ s) :
    ∃ out, execWorkPllLoss ref s = .next out ∧ Kept s₀ out := by
  unfold execWorkPllLoss
  refine ⟨_, rfl, ?_⟩
  refine Kept.ite ?_ ?_
  · apply keeps_pllLost
    assumption
  · assumption

theorem keeps_execResetNAsserted {s₀ : State} (s : State) (h0 : Kept s₀ s) :
    ∃ out, execResetNAsserted s = .next out ∧ Kept s₀ out := by
  unfold execResetNAsserted
  refine ⟨_, rfl, ?_⟩
  refine Kept.ite ?_ ?_
  · assumption
  · refine Kept.of_eq rfl rfl rfl rfl rfl rfl rfl rfl rfl rfl rfl rfl ?_
    assumption

theorem keeps_execResetNRelease {s₀ : State} (straps : Fin 64) (bad : Fin 16) (s : State) (h0 : Kept s₀ s) :
    ∃ out, execResetNRelease straps bad s = .next out ∧ Kept s₀ out := by
  unfold execResetNRelease
  refine ⟨_, rfl, ?_⟩
  refine Kept.ite ?_ ?_
  · assumption
  · refine Kept.ite ?_ ?_
    · apply keeps_untrained
      apply keeps_coldStartAs
      assumption
    · refine Kept.ite ?_ ?_
      · refine Kept.of_eq rfl rfl rfl rfl rfl rfl rfl rfl rfl rfl rfl rfl ?_
        assumption
      · refine Kept.ite ?_ ?_
        · refine Kept.of_eq rfl rfl rfl rfl rfl rfl rfl rfl rfl rfl rfl rfl ?_
          assumption
        · extract_lets +onlyGivenNames t1
          refine Kept.cut (a := t1) ?_ fun _ => ?_
          · unfold t1; clear t1
            apply keeps_beginCold
            assumption
          clear_value t1
          refine Kept.of_eq rfl rfl rfl rfl rfl rfl rfl rfl rfl rfl rfl rfl ?_
          assumption

theorem keeps_execWarmNRelease {s₀ : State} (straps : Fin 64) (bad : Fin 16) (s : State) (h0 : Kept s₀ s) :
    ∃ out, execWarmNRelease straps bad s = .next out ∧ Kept s₀ out := by
  unfold execWarmNRelease
  refine ⟨_, rfl, ?_⟩
  refine Kept.ite ?_ ?_
  · assumption
  · apply keeps_untrained
    apply keeps_warmStartAs
    assumption

theorem keeps_policyFixed {s₀ : State} (s : State) (h0 : Kept s₀ s) :
    Kept s₀ (State.policyFixed s) := by
  unfold State.policyFixed
  refine Kept.ite ?_ ?_
  · refine Kept.of_eq rfl rfl rfl rfl rfl rfl rfl rfl rfl rfl rfl rfl ?_
    assumption
  · assumption

theorem keeps_execLifecycleBurnDone {s₀ : State} (straps : Fin 64) (bad : Fin 16) (s : State) (h0 : Kept s₀ s) :
    (∃ out, execLifecycleBurnDone straps bad s = .next out ∧ Kept s₀ out) ∨
      ∃ lc out, s.fold.burning = some lc ∧ execLifecycleBurnDone straps bad s = .next out
        ∧ Kept { s₀ with fold.lifecycle := lc, fold.burning := none } out := by
  unfold execLifecycleBurnDone
  split
  · rename_i lc e
    refine .inr ⟨lc, _, e, rfl, ?_⟩
    apply keeps_untrained
    apply keeps_coldStartAs
    apply keeps_policyFixed
    exact ⟨h0.1, h0.2, h0.3, h0.4, h0.5, rfl, h0.7, h0.8, h0.9, h0.10, h0.11, .inl rfl⟩
  · exact .inl ⟨s, rfl, h0⟩

theorem keeps_readJunction {s₀ : State} (s : State) (tj : ℕ) (h0 : Kept s₀ s) :
    Kept s₀ (State.readJunction s tj) := by
  unfold State.readJunction
  refine Kept.of_eq rfl rfl rfl rfl rfl rfl rfl rfl rfl rfl rfl rfl ?_
  assumption

theorem keeps_hotAt {s₀ : State} (s : State) (k : ℕ) (src : ℕ) (tj : ℕ) (limit : ℕ) (h0 : Kept s₀ s) :
    Kept s₀ (State.hotAt s k src tj limit) := by
  unfold State.hotAt
  refine Kept.ite ?_ ?_
  · assumption
  · extract_lets +onlyGivenNames t1
    refine Kept.cut (a := t1) ?_ fun _ => ?_
    · unfold t1; clear t1
      apply keeps_readJunction
      assumption
    clear_value t1
    refine Kept.ite ?_ ?_
    · assumption
    · extract_lets +onlyGivenNames t2
      clear_value t2
      extract_lets +onlyGivenNames t3
      refine Kept.cut (a := t3) ?_ fun _ => ?_
      · unfold t3; clear t3
        refine Kept.of_eq rfl rfl rfl rfl rfl rfl rfl rfl rfl rfl rfl rfl ?_
        assumption
      clear_value t3
      refine Kept.ite ?_ ?_
      · apply keeps_fire
        assumption
      · assumption

theorem keeps_execJunctionHotThreshold {s₀ : State} (tj : Fin 512) (s : State) (h0 : Kept s₀ s) :
    ∃ out, execJunctionHotThreshold tj s = .next out ∧ Kept s₀ out := by
  unfold execJunctionHotThreshold
  refine ⟨_, rfl, ?_⟩
  apply keeps_hotAt
  assumption

theorem keeps_execJunctionLimitThreshold {s₀ : State} (tj : Fin 512) (s : State) (h0 : Kept s₀ s) :
    ∃ out, execJunctionLimitThreshold tj s = .next out ∧ Kept s₀ out := by
  unfold execJunctionLimitThreshold
  refine ⟨_, rfl, ?_⟩
  apply keeps_hotAt
  assumption

theorem keeps_execThermalTrip {s₀ : State} (tj : Fin 512) (s : State) (h0 : Kept s₀ s) :
    ∃ out, execThermalTrip tj s = .next out ∧ Kept s₀ out := by
  unfold execThermalTrip
  refine ⟨_, rfl, ?_⟩
  refine Kept.ite ?_ ?_
  · assumption
  · extract_lets +onlyGivenNames t1
    refine Kept.cut (a := t1) ?_ fun _ => ?_
    · unfold t1; clear t1
      apply keeps_readJunction
      assumption
    extract_lets +onlyGivenNames t2
    extract_lets +onlyGivenNames t3
    refine Kept.cut (a := t3) ?_ fun _ => ?_
    · unfold t3; clear t3
      refine Kept.of_eq rfl rfl rfl rfl rfl rfl rfl rfl rfl rfl rfl rfl ?_
      assumption
    extract_lets +onlyGivenNames t4
    refine Kept.cut (a := t4) ?_ fun _ => ?_
    · unfold t4; clear t4
      refine Kept.ite ?_ ?_
      · assumption
      · apply keeps_deepEntry
        assumption
    clear_value t4
    refine Kept.of_eq rfl rfl rfl rfl rfl rfl rfl rfl rfl rfl rfl rfl ?_
    assumption

theorem keeps_execJunctionThresholdClear {s₀ : State} (k : Fin 3) (tj : Fin 512) (s : State) (h0 : Kept s₀ s) :
    ∃ out, execJunctionThresholdClear k tj s = .next out ∧ Kept s₀ out := by
  unfold execJunctionThresholdClear
  refine ⟨_, rfl, ?_⟩
  refine Kept.ite ?_ ?_
  · assumption
  · extract_lets +onlyGivenNames t1
    refine Kept.cut (a := t1) ?_ fun _ => ?_
    · unfold t1; clear t1
      apply keeps_readJunction
      assumption
    clear_value t1
    refine Kept.of_eq rfl rfl rfl rfl rfl rfl rfl rfl rfl rfl rfl rfl ?_
    assumption

end Sys2Proof.Laws
end

