-- ==== Sys2Proof/Laws/KeepRequests.lean ====
section
/-! SUPPORT. What each operation of Machine/Requests.lean keeps (Laws/Kept.lean). -/

open Sys2Proof Sys2Proof.Machine

namespace Sys2Proof.Laws

theorem keeps_answerReq {s₀ : State} (s : State) (m : Msg) (op : ℕ) (x3 : Reply) (h0 : Kept s₀ s) :
    Kept s₀ (State.answerReq s m op x3) := by
  unfold State.answerReq
  split
  · apply keeps_respond
    assumption
  · apply keeps_respond
    assumption
  · assumption

theorem keeps_abortReq {s₀ : State} (s : State) (m : Msg) (op : ℕ) (code : ℕ) (h0 : Kept s₀ s) :
    Kept s₀ (State.abortReq s m op code) := by
  unfold State.abortReq
  apply keeps_answerReq
  assumption

theorem keeps_malformed {s₀ : State} (s : State) (path : ℕ) (h0 : Kept s₀ s) :
    Kept s₀ (State.malformed s path) := by
  unfold State.malformed
  apply keeps_fire
  apply keeps_bump
  assumption

theorem keeps_touch {s₀ : State} (s : State) (n : ℕ) (h0 : Kept s₀ s) :
    Kept s₀ (State.touch s n) := by
  unfold State.touch
  refine Kept.ite ?_ ?_
  · assumption
  · apply keeps_setSession
    assumption

theorem keeps_relay {s₀ : State} (s : State) (m : Msg) (op : ℕ) (h0 : Kept s₀ s) :
    Kept s₀ (State.relay s m op) := by
  unfold State.relay
  extract_lets +onlyGivenNames t1
  clear_value t1
  extract_lets +onlyGivenNames t2
  clear_value t2
  extract_lets +onlyGivenNames t3
  refine Kept.cut (a := t3) ?_ fun _ => ?_
  · unfold t3; clear t3
    apply keeps_sendMessage
    assumption
  clear_value t3
  extract_lets +onlyGivenNames t4
  clear_value t4
  extract_lets +onlyGivenNames t5
  refine Kept.cut (a := t5) ?_ fun _ => ?_
  · unfold t5; clear t5
    apply keeps_bump
    assumption
  clear_value t5
  refine Kept.of_eq rfl rfl rfl rfl rfl rfl rfl rfl rfl rfl rfl rfl ?_
  assumption

theorem keeps_relayReq {s₀ : State} (s : State) (m : Msg) (op : ℕ) (h0 : Kept s₀ s) :
    Kept s₀ (State.relayReq s m op) := by
  unfold State.relayReq
  refine Kept.ite ?_ ?_
  · apply keeps_abortReq
    assumption
  · refine Kept.ite ?_ ?_
    · apply keeps_abortReq
      assumption
    · apply keeps_relay
      assumption

theorem keeps_serveHere {s₀ : State} (s : State) (m : Msg) (op : ℕ) (run : State → State × Reply) (h0 : Kept s₀ s) (hfrun : ∀ y0, Kept s₀ y0 → Kept s₀ (run y0).1) :
    Kept s₀ (State.serveHere s m op run) := by
  unfold State.serveHere
  refine Kept.ite ?_ ?_
  · apply keeps_abortReq
    assumption
  · dsimp only
    apply keeps_answerReq
    apply hfrun
    apply keeps_touch
    apply keeps_bump
    assumption

theorem keeps_admitReq {s₀ : State} (s : State) (m : Msg) (op : ℕ) (shape : ℕ) (run : State → State × Reply) (h0 : Kept s₀ s) (hfrun : ∀ y0, Kept s₀ y0 → Kept s₀ (run y0).1) :
    Kept s₀ (State.admitReq s m op shape run) := by
  unfold State.admitReq
  refine Kept.ite ?_ ?_
  · apply keeps_abortReq
    assumption
  · refine Kept.ite ?_ ?_
    · apply keeps_abortReq
      apply keeps_malformed
      assumption
    · refine Kept.ite ?_ ?_
      · apply keeps_abortReq
        assumption
      · refine Kept.ite ?_ ?_
        · apply keeps_relayReq
          assumption
        · apply keeps_serveHere
          · assumption
          · intro a1 a2
            apply hfrun
            assumption

theorem keeps_serve {s₀ : State} (s : State) (m : Msg) (op : ℕ) (shape : ℕ) (run : State → State × Reply) (h0 : Kept s₀ s) (hfrun : ∀ y0, Kept s₀ y0 → Kept s₀ (run y0).1) :
    Kept s₀ (State.serve s m op shape run) := by
  unfold State.serve
  refine Kept.ite ?_ ?_
  · assumption
  · apply keeps_admitReq
    · apply keeps_takeReq
      assumption
    · intro a1 a2
      apply hfrun
      assumption

end Sys2Proof.Laws
end

