-- ==== Sys2Proof/Laws/KeepCommands.lean ====
section
/-! SUPPORT. What each operation of Machine/Commands.lean keeps (Laws/Kept.lean). -/

open Sys2Proof Sys2Proof.Machine

namespace Sys2Proof.Laws

theorem keeps_resetGroupOp {s₀ : State} (s : State) (g : ℕ) (session : ℕ) (path : ℕ) (h0 : Kept s₀ s) :
    Kept s₀ (State.resetGroupOp s g session path) := by
  unfold State.resetGroupOp
  refine Kept.ite ?_ ?_
  · apply keeps_abort
    assumption
  · apply keeps_settingRecord
    refine Kept.of_eq rfl rfl rfl rfl rfl rfl rfl rfl rfl rfl rfl rfl ?_
    assumption

theorem keeps_clearDefaultedOp {s₀ : State} (s : State) (g : ℕ) (h0 : Kept s₀ s) :
    Kept s₀ (State.clearDefaultedOp s g) := by
  unfold State.clearDefaultedOp
  refine Kept.ite ?_ ?_
  · apply keeps_abort
    assumption
  · refine Kept.of_eq rfl rfl rfl rfl rfl rfl rfl rfl rfl rfl rfl rfl ?_
    assumption

theorem keeps_closeAllOp {s₀ : State} (s : State) (h0 : Kept s₀ s) :
    Kept s₀ (State.closeAllOp s) := by
  unfold State.closeAllOp
  apply keeps_endSessions
  assumption

theorem keeps_execResetGroup {s₀ : State} (group : ℕ) (s : State) (h0 : Kept s₀ s) :
    ∃ out, execResetGroup group s = .next out ∧ Kept s₀ out := by
  unfold execResetGroup
  refine ⟨_, rfl, ?_⟩
  apply keeps_resetGroupOp
  assumption

theorem keeps_execClearDefaulted {s₀ : State} (group : ℕ) (s : State) (h0 : Kept s₀ s) :
    ∃ out, execClearDefaulted group s = .next out ∧ Kept s₀ out := by
  unfold execClearDefaulted
  refine ⟨_, rfl, ?_⟩
  apply keeps_clearDefaultedOp
  assumption

theorem keeps_execCloseAll {s₀ : State} (s : State) (h0 : Kept s₀ s) :
    ∃ out, execCloseAll s = .next out ∧ Kept s₀ out := by
  unfold execCloseAll
  refine ⟨_, rfl, ?_⟩
  apply keeps_closeAllOp
  assumption

theorem keeps_dictCmd {s₀ : State} (s : State) (v : ℕ) (session : ℕ) (path : ℕ) (h0 : Kept s₀ s) :
    Kept s₀ (State.dictCmd s v session path) := by
  unfold State.dictCmd
  split
  · apply keeps_resetGroupOp
    assumption
  · apply keeps_clearDefaultedOp
    assumption
  · apply keeps_closeAllOp
    assumption

theorem keeps_nextOf {s₀ : State} (s : State) (o : Host.Outcome State Fault Refusal)
    (h : ∃ out, o = .next out ∧ Kept s₀ out) : Kept s₀ (nextOf s o) := by
  obtain ⟨t, rfl, h1⟩ := h
  exact h1

theorem keeps_tableCmd {s₀ : State} (s : State) (v : ℕ) (h0 : Kept s₀ s) :
    Kept s₀ (State.tableCmd s v) := by
  unfold State.tableCmd
  split
  · apply keeps_tableOpenOp
    assumption
  · apply keeps_tableCheckOp
    assumption
  · apply keeps_tableArmOp
    assumption
  · apply keeps_tableDisarmOp
    assumption
  · apply keeps_tableDiscardOp
    assumption

theorem keeps_penCmd {s₀ : State} (s : State) (p : ℕ) (v : ℕ) (h0 : Kept s₀ s) :
    Kept s₀ (State.penCmd s p v) := by
  unfold State.penCmd
  split
  · apply keeps_nextOf
    apply keeps_execFlush
    assumption
  · apply keeps_penBad
    assumption
  · apply keeps_nextOf
    apply keeps_execPenHalt
    assumption
  · apply keeps_abort
    assumption

theorem keeps_droveCmd {s₀ : State} (s : State) (d : ℕ) (v : ℕ) (h0 : Kept s₀ s) :
    Kept s₀ (State.droveCmd s d v) := by
  unfold State.droveCmd
  apply keeps_nextOf
  split
  · apply keeps_execDroveCopy
    assumption
  · apply keeps_execExchange
    assumption
  · apply keeps_execExchangeCancel
    assumption

theorem keeps_drvEntry {s₀ : State} (s : State) (e : ℕ) (v : ℕ) (h0 : Kept s₀ s) :
    Kept s₀ (State.drvEntry s e v) := by
  unfold State.drvEntry
  extract_lets +onlyGivenNames t1
  clear_value t1
  refine Kept.ite ?_ ?_
  · apply keeps_drvCtrl
    assumption
  · apply keeps_droveCmd
    assumption

theorem keeps_beaconCmd {s₀ : State} (s : State) (b : ℕ) (v : ℕ) (h0 : Kept s₀ s) :
    Kept s₀ (State.beaconCmd s b v) := by
  unfold State.beaconCmd
  apply keeps_nextOf
  split
  · apply keeps_execBeaconArm
    assumption
  · apply keeps_execBeaconStop
    assumption

theorem keeps_busCmd {s₀ : State} (s : State) (c : ℕ) (v : ℕ) (h0 : Kept s₀ s) :
    Kept s₀ (State.busCmd s c v) := by
  unfold State.busCmd
  extract_lets +onlyGivenNames t1
  clear_value t1
  apply keeps_nextOf
  split
  · apply keeps_execBusRecover
    assumption
  · apply keeps_execBusHalt
    assumption
  · apply keeps_execBusAbortTb
    assumption

theorem keeps_portCmd {s₀ : State} (s : State) (p : ℕ) (v : ℕ) (h0 : Kept s₀ s) :
    Kept s₀ (State.portCmd s p v) := by
  unfold State.portCmd
  extract_lets +onlyGivenNames t1
  clear_value t1
  apply keeps_nextOf
  split
  · apply keeps_execPortHalt
    assumption
  · apply keeps_execPortCalibrate
    assumption
  · apply keeps_execPortRestart
    assumption

theorem keeps_linkCmd {s₀ : State} (s : State) (l : ℕ) (v : ℕ) (h0 : Kept s₀ s) :
    Kept s₀ (State.linkCmd s l v) := by
  unfold State.linkCmd
  extract_lets +onlyGivenNames t1
  clear_value t1
  apply keeps_nextOf
  split
  · apply keeps_execRingHalt
    assumption
  · apply keeps_execRingCalibrate
    assumption
  · apply keeps_execRetrain
    assumption

theorem keeps_bellCmd {s₀ : State} (s : State) (n : ℕ) (v : ℕ) (session : ℕ) (path : ℕ) (h0 : Kept s₀ s) :
    Kept s₀ (State.bellCmd s n v session path) := by
  unfold State.bellCmd
  refine Kept.ite ?_ ?_
  · refine Kept.ite ?_ ?_
    · apply keeps_ackSource
      assumption
    · apply keeps_abort
      assumption
  · apply keeps_fire
    assumption

theorem keeps_updateCmd {s₀ : State} (s : State) (v : ℕ) (h0 : Kept s₀ s) :
    Kept s₀ (State.updateCmd s v) := by
  unfold State.updateCmd
  refine Kept.ite ?_ ?_
  · apply keeps_abort
    assumption
  · apply keeps_cmdEnd
    split
    · apply keeps_updateDiscardOp
      assumption
    · apply keeps_updateCheckOp
      assumption
    · apply keeps_scheduleOp
      assumption
    · apply keeps_unscheduleOp
      assumption

theorem keeps_profileCmd {s₀ : State} (s : State) (v : ℕ) (h0 : Kept s₀ s) :
    Kept s₀ (State.profileCmd s v) := by
  unfold State.profileCmd
  apply keeps_cmdEnd
  split
  · apply keeps_selectOp
    assumption
  · apply keeps_storeOp
    assumption
  · apply keeps_storeStagingOp
    assumption
  · apply keeps_eraseOp
    assumption

theorem keeps_gateCmd {s₀ : State} (s : State) (g : ℕ) (v : ℕ) (h0 : Kept s₀ s) :
    Kept s₀ (State.gateCmd s g v) := by
  unfold State.gateCmd
  split
  · apply keeps_gateOnOp
    assumption
  · apply keeps_gateOffOp
    assumption
  · apply keeps_gateResetOp
    assumption
  · extract_lets +onlyGivenNames t1
    clear_value t1
    apply keeps_gateClearOp
    assumption

theorem keeps_commandOp {s₀ : State} (s : State) (e : ℕ) (k : ℕ) (v : ℕ) (session : ℕ) (path : ℕ) (h0 : Kept s₀ s) :
    Kept s₀ (State.commandOp s e k v session path) := by
  unfold State.commandOp
  refine Kept.ite ?_ ?_
  · apply keeps_drvEntry
    assumption
  · refine Kept.ite ?_ ?_
    · apply keeps_busCmd
      assumption
    · refine Kept.ite ?_ ?_
      · apply keeps_bellCmd
        assumption
      · split
        · apply keeps_dictCmd
          assumption
        · apply keeps_powerOp
          assumption
        · refine Kept.ite ?_ ?_
          · apply keeps_startRoundOp
            assumption
          · apply keeps_cancelRoundOp
            assumption
        · apply keeps_tableCmd
          assumption
        · apply keeps_nextOf
          apply keeps_execClearLine
          assumption
        · apply keeps_penCmd
          assumption
        · apply keeps_beaconCmd
          assumption
        · apply keeps_portCmd
          assumption
        · apply keeps_linkCmd
          assumption
        · apply keeps_remusterOp
          assumption
        · apply keeps_timeSetOp
          assumption
        · apply keeps_switchOp
          assumption
        · apply keeps_pairCmd
          assumption
        · apply keeps_nextOf
          apply keeps_execQuayHalt
          assumption
        · apply keeps_ackAll
          assumption
        · refine Kept.ite ?_ ?_
          · apply keeps_flushRepeat
            assumption
          · apply keeps_tallyClear
            assumption
        · apply keeps_updateCmd
          assumption
        · apply keeps_profileCmd
          assumption
        · apply keeps_gateCmd
          assumption
        · assumption

theorem keeps_runCommand {s₀ : State} (s : State) (f : State → State) (h0 : Kept s₀ s) (hff : ∀ y0, Kept s₀ y0 → Kept s₀ (f y0)) :
    Kept s₀ (State.runCommand s f).1 := by
  unfold State.runCommand
  extract_lets +onlyGivenNames t1
  refine Kept.cut (a := t1) ?_ fun _ => ?_
  · unfold t1; clear t1
    apply hff
    refine Kept.of_eq rfl rfl rfl rfl rfl rfl rfl rfl rfl rfl rfl rfl ?_
    assumption
  clear_value t1
  refine Kept.of_eq rfl rfl rfl rfl rfl rfl rfl rfl rfl rfl rfl rfl ?_
  assumption

end Sys2Proof.Laws
end

