-- ==== Sys2Proof/Laws/KeepDict.lean ====
section
/-! SUPPORT. What each operation of Machine/Dict.lean keeps (Laws/Kept.lean). -/

open Sys2Proof Sys2Proof.Machine

namespace Sys2Proof.Laws

theorem keeps_recordWrite {s₀ : State} (s : State) (m : Msg) (r : Row) (e : ℕ) (k : ℕ) (h0 : Kept s₀ s) :
    Kept s₀ (State.recordWrite s m r e k) := by
  unfold State.recordWrite
  refine Kept.ite ?_ ?_
  · apply keeps_settingRecord
    assumption
  · assumption

theorem keeps_doWrite {s₀ : State} (s : State) (m : Msg) (r : Row) (e : ℕ) (k : ℕ) (ws : List Word) (h0 : Kept s₀ s) :
    Kept s₀ (State.doWrite s m r e k ws).1 := by
  unfold State.doWrite
  extract_lets +onlyGivenNames t1
  clear_value t1
  split
  · apply keeps_runCommand
    · assumption
    · intro a1 a2
      apply keeps_commandOp
      assumption
  · apply keeps_accept
    apply keeps_recordWrite
    assumption

theorem keeps_readOp {s₀ : State} (s : State) (m : Msg) (h0 : Kept s₀ s) :
    Kept s₀ (State.readOp s m).1 := by
  unfold State.readOp
  split
  · assumption
  · split
    · assumption
    · split
      · assumption
      · assumption

theorem keeps_waitCheck {s₀ : State} (s : State) (m : Msg) (h0 : Kept s₀ s) :
    Kept s₀ (State.waitCheck s m) := by
  unfold State.waitCheck
  extract_lets +onlyGivenNames t1
  clear_value t1
  refine Kept.of_eq rfl rfl rfl rfl rfl rfl rfl rfl rfl rfl rfl rfl ?_
  assumption

theorem keeps_writeOp {s₀ : State} (s : State) (m : Msg) (h0 : Kept s₀ s) :
    Kept s₀ (State.writeOp s m).1 := by
  unfold State.writeOp
  split
  · assumption
  · extract_lets +onlyGivenNames t1
    clear_value t1
    split
    · assumption
    · dsimp only
      split
      · apply keeps_doWrite
        assumption
      · split
        · apply keeps_waitCheck
          apply keeps_doWrite
          assumption
        · apply keeps_doWrite
          assumption

theorem keeps_verifyOp {s₀ : State} (s : State) (m : Msg) (h0 : Kept s₀ s) :
    Kept s₀ (State.verifyOp s m).1 := by
  unfold State.verifyOp
  split
  · assumption
  · split
    · assumption
    · extract_lets +onlyGivenNames t1
      clear_value t1
      split
      · assumption
      · dsimp only
        split
        · refine Kept.of_eq rfl rfl rfl rfl rfl rfl rfl rfl rfl rfl rfl rfl ?_
          apply keeps_doWrite
          assumption
        · apply keeps_doWrite
          assumption

theorem keeps_execRead {s₀ : State} (m : Msg) (s : State) (h0 : Kept s₀ s) :
    ∃ out, execRead m s = .next out ∧ Kept s₀ out := by
  unfold execRead
  refine ⟨_, rfl, ?_⟩
  apply keeps_serve
  · assumption
  · intro a1 a2
    apply keeps_readOp
    assumption

theorem keeps_execWrite {s₀ : State} (m : Msg) (s : State) (h0 : Kept s₀ s) :
    ∃ out, execWrite m s = .next out ∧ Kept s₀ out := by
  unfold execWrite
  refine ⟨_, rfl, ?_⟩
  apply keeps_serve
  · assumption
  · intro a1 a2
    apply keeps_writeOp
    assumption

theorem keeps_execWriteVerify {s₀ : State} (m : Msg) (s : State) (h0 : Kept s₀ s) :
    ∃ out, execWriteVerify m s = .next out ∧ Kept s₀ out := by
  unfold execWriteVerify
  refine ⟨_, rfl, ?_⟩
  apply keeps_serve
  · assumption
  · intro a1 a2
    apply keeps_verifyOp
    assumption

theorem keeps_readBulkOp {s₀ : State} (s : State) (m : Msg) (h0 : Kept s₀ s) :
    Kept s₀ (State.readBulkOp s m).1 := by
  unfold State.readBulkOp
  split
  · assumption
  · split
    · assumption
    · split
      · assumption
      · split
        · assumption
        · split
          · assumption
          · assumption

theorem keeps_bulkWrite {s₀ : State} (s : State) (m : Msg) (r : Row) (x3 : List (ℕ × List Word)) (h0 : Kept s₀ s) :
    Kept s₀ (State.bulkWrite s m r x3).1 := by
  induction x3 generalizing s with
  | nil =>
    unfold State.bulkWrite
    assumption
  | cons p l ih =>
    unfold State.bulkWrite
    split
    · apply ih
      refine Kept.ofEq (by assumption) ?_
      apply keeps_doWrite
      assumption
    · refine Kept.ofEq (by assumption) ?_
      apply keeps_doWrite
      assumption

theorem keeps_writeBulkOp {s₀ : State} (s : State) (m : Msg) (h0 : Kept s₀ s) :
    Kept s₀ (State.writeBulkOp s m).1 := by
  unfold State.writeBulkOp
  split
  · assumption
  · split
    · assumption
    · split
      · assumption
      · split
        · assumption
        · split
          · assumption
          · split
            · assumption
            · refine Kept.ofEq (by assumption) ?_
              apply keeps_bulkWrite
              assumption

theorem keeps_execReadBulk {s₀ : State} (m : Msg) (s : State) (h0 : Kept s₀ s) :
    ∃ out, execReadBulk m s = .next out ∧ Kept s₀ out := by
  unfold execReadBulk
  refine ⟨_, rfl, ?_⟩
  apply keeps_serve
  · assumption
  · intro a1 a2
    apply keeps_readBulkOp
    assumption

theorem keeps_execWriteBulk {s₀ : State} (m : Msg) (s : State) (h0 : Kept s₀ s) :
    ∃ out, execWriteBulk m s = .next out ∧ Kept s₀ out := by
  unfold execWriteBulk
  refine ⟨_, rfl, ?_⟩
  apply keeps_serve
  · assumption
  · intro a1 a2
    apply keeps_writeBulkOp
    assumption

theorem keeps_describeOp {s₀ : State} (s : State) (m : Msg) (h0 : Kept s₀ s) :
    Kept s₀ (State.describeOp s m).1 := by
  unfold State.describeOp
  split
  · assumption
  · split
    · assumption
    · assumption

theorem keeps_execDescribe {s₀ : State} (m : Msg) (s : State) (h0 : Kept s₀ s) :
    ∃ out, execDescribe m s = .next out ∧ Kept s₀ out := by
  unfold execDescribe
  refine ⟨_, rfl, ?_⟩
  apply keeps_serve
  · assumption
  · intro a1 a2
    apply keeps_describeOp
    assumption

theorem keeps_blobReadOp {s₀ : State} (s : State) (m : Msg) (h0 : Kept s₀ s) :
    Kept s₀ (State.blobReadOp s m).1 := by
  unfold State.blobReadOp
  split
  · assumption
  · extract_lets +onlyGivenNames t1
    clear_value t1
    split
    · assumption
    · split
      · assumption
      · extract_lets +onlyGivenNames t2
        clear_value t2
        split
        · assumption
        · assumption

theorem keeps_dropBlob {s₀ : State} (s : State) (m : Msg) (h0 : Kept s₀ s) :
    Kept s₀ (State.dropBlob s m) := by
  unfold State.dropBlob
  refine Kept.of_eq rfl rfl rfl rfl rfl rfl rfl rfl rfl rfl rfl rfl ?_
  assumption

theorem keeps_blobFinal {s₀ : State} (s : State) (m : Msg) (r : Row) (l : List Word) (h0 : Kept s₀ s) :
    Kept s₀ (State.blobFinal s m r l).1 := by
  unfold State.blobFinal
  extract_lets +onlyGivenNames t1
  clear_value t1
  split
  · assumption
  · split
    · apply keeps_foldRequest
      assumption
    · split
      · split
        · refine Kept.ofEq (by assumption) ?_
          apply keeps_blockOp
          assumption
        · refine Kept.ofEq (by assumption) ?_
          apply keeps_blockOp
          assumption
      · apply keeps_acceptBlob
        apply keeps_recordWrite
        assumption

theorem keeps_blobSegment {s₀ : State} (s : State) (m : Msg) (r : Row) (staged : List Word) (h0 : Kept s₀ s) :
    Kept s₀ (State.blobSegment s m r staged).1 := by
  unfold State.blobSegment
  extract_lets +onlyGivenNames t1
  clear_value t1
  extract_lets +onlyGivenNames t2
  refine Kept.cut (a := t2) ?_ fun _ => ?_
  · unfold t2; clear t2
    apply keeps_dropBlob
    assumption
  clear_value t2
  split
  · apply keeps_blobFinal
    assumption
  · extract_lets +onlyGivenNames t3
    clear_value t3
    refine Kept.of_eq rfl rfl rfl rfl rfl rfl rfl rfl rfl rfl rfl rfl ?_
    assumption

theorem keeps_blobStage {s₀ : State} (s : State) (m : Msg) (r : Row) (h0 : Kept s₀ s) :
    Kept s₀ (State.blobStage s m r).1 := by
  unfold State.blobStage
  split
  · split
    · assumption
    · split
      · apply keeps_dropBlob
        assumption
      · apply keeps_blobSegment
        assumption
  · split
    · assumption
    · split
      · assumption
      · apply keeps_blobSegment
        assumption

theorem keeps_blobWriteOp {s₀ : State} (s : State) (m : Msg) (h0 : Kept s₀ s) :
    Kept s₀ (State.blobWriteOp s m).1 := by
  unfold State.blobWriteOp
  split
  · assumption
  · split
    · assumption
    · split
      · assumption
      · split
        · assumption
        · split
          · assumption
          · apply keeps_blobStage
            assumption

theorem keeps_execBlobRead {s₀ : State} (m : Msg) (s : State) (h0 : Kept s₀ s) :
    ∃ out, execBlobRead m s = .next out ∧ Kept s₀ out := by
  unfold execBlobRead
  refine ⟨_, rfl, ?_⟩
  apply keeps_serve
  · assumption
  · intro a1 a2
    apply keeps_blobReadOp
    assumption

theorem keeps_execBlobWrite {s₀ : State} (m : Msg) (s : State) (h0 : Kept s₀ s) :
    ∃ out, execBlobWrite m s = .next out ∧ Kept s₀ out := by
  unfold execBlobWrite
  refine ⟨_, rfl, ?_⟩
  apply keeps_serve
  · assumption
  · intro a1 a2
    apply keeps_blobWriteOp
    assumption

theorem keeps_execBlobGapExpiry {s₀ : State} (entry : ℕ) (s : State) (h0 : Kept s₀ s) :
    ∃ out, execBlobGapExpiry entry s = .next out ∧ Kept s₀ out := by
  unfold execBlobGapExpiry
  refine ⟨_, rfl, ?_⟩
  refine Kept.of_eq rfl rfl rfl rfl rfl rfl rfl rfl rfl rfl rfl rfl ?_
  assumption

end Sys2Proof.Laws
end

