-- ==== Sys2Proof/Laws/KeepPoints.lean ====
section
/-! SUPPORT. What each operation of Machine/Points.lean keeps (Laws/Kept.lean). -/

open Sys2Proof Sys2Proof.Machine

namespace Sys2Proof.Laws

theorem keeps_dictLine {s₀ : State} (s : State) (up : Bool) (L : ℕ) (mask : ℕ) (h0 : Kept s₀ s) :
    Kept s₀ (State.dictLine s up L mask).1 := by
  unfold State.dictLine
  split
  · assumption
  · apply keeps_unschedRead
    apply keeps_clientEnter
    assumption

theorem keeps_readSpans {s₀ : State} (s : State) (up : Bool) (x2 : List (ℕ × ℕ × ℕ)) (h0 : Kept s₀ s) :
    Kept s₀ (State.readSpans s up x2).1 := by
  induction x2 generalizing s with
  | nil =>
    unfold State.readSpans
    assumption
  | cons p l ih =>
    unfold State.readSpans
    split
    · refine Kept.ofEq (by assumption) ?_
      apply keeps_dictLine
      assumption
    · split
      · refine Kept.ofEq (by assumption) ?_
        apply ih
        refine Kept.ofEq (by assumption) ?_
        apply keeps_dictLine
        assumption
      · refine Kept.ofEq (by assumption) ?_
        apply ih
        refine Kept.ofEq (by assumption) ?_
        apply keeps_dictLine
        assumption

theorem keeps_readPoint {s₀ : State} (s : State) (x : ℕ) (r : Run) (h0 : Kept s₀ s) :
    Kept s₀ (State.readPoint s x r).1 := by
  unfold State.readPoint
  split
  · refine Kept.ofEq (by assumption) ?_
    apply keeps_readSpans
    assumption
  · refine Kept.ofEq (by assumption) ?_
    apply keeps_readSpans
    assumption

theorem keeps_readPoints {s₀ : State} (s : State) (x1 : List (ℕ × Run)) (h0 : Kept s₀ s) :
    Kept s₀ (State.readPoints s x1).1 := by
  induction x1 generalizing s with
  | nil =>
    unfold State.readPoints
    assumption
  | cons p l ih =>
    unfold State.readPoints
    split
    · refine Kept.ofEq (by assumption) ?_
      apply keeps_readPoint
      assumption
    · split
      · refine Kept.ofEq (by assumption) ?_
        apply ih
        refine Kept.ofEq (by assumption) ?_
        apply keeps_readPoint
        assumption
      · refine Kept.ofEq (by assumption) ?_
        apply ih
        refine Kept.ofEq (by assumption) ?_
        apply keeps_readPoint
        assumption

theorem keeps_pointReadOp {s₀ : State} (s : State) (m : Msg) (h0 : Kept s₀ s) :
    Kept s₀ (State.pointReadOp s m).1 := by
  unfold State.pointReadOp
  split
  · assumption
  · split
    · assumption
    · split
      · assumption
      · split
        · refine Kept.ofEq (by assumption) ?_
          apply keeps_readPoints
          assumption
        · refine Kept.ofEq (by assumption) ?_
          apply keeps_readPoints
          assumption

theorem keeps_writeSpans {s₀ : State} (s : State) (m : Msg) (up : Bool) (b : Option ℕ) (x2 : List (ℕ × ℕ × ℕ)) (x3 : List Word) (h0 : Kept s₀ s) :
    Kept s₀ (State.writeSpans s m up b x2 x3).1 := by
  induction x2 generalizing s x3 with
  | nil =>
    unfold State.writeSpans
    assumption
  | cons p l ih =>
    unfold State.writeSpans
    split
    · assumption
    · split
      · apply ih
        refine Kept.ofEq (by assumption) ?_
        apply keeps_clientWrite
        apply keeps_clientEnter
        assumption
      · refine Kept.ofEq (by assumption) ?_
        apply keeps_clientWrite
        apply keeps_clientEnter
        assumption

theorem keeps_writePoints {s₀ : State} (s : State) (m : Msg) (x1 : List (ℕ × Run)) (x2 : List Word) (h0 : Kept s₀ s) :
    Kept s₀ (State.writePoints s m x1 x2).1 := by
  induction x1 generalizing s x2 with
  | nil =>
    unfold State.writePoints
    assumption
  | cons p l ih =>
    unfold State.writePoints
    split
    split
    · apply ih
      refine Kept.ofEq (by assumption) ?_
      apply keeps_writeSpans
      assumption
    · refine Kept.ofEq (by assumption) ?_
      apply keeps_writeSpans
      assumption

theorem keeps_pointWriteOp {s₀ : State} (s : State) (m : Msg) (h0 : Kept s₀ s) :
    Kept s₀ (State.pointWriteOp s m).1 := by
  unfold State.pointWriteOp
  split
  · dsimp only
    assumption
  · split
    · dsimp only
      assumption
    · split
      · dsimp only
        assumption
      · split
        · dsimp only
          assumption
        · split
          · split
            · dsimp only
              refine Kept.of_eq rfl rfl rfl rfl rfl rfl rfl rfl rfl rfl rfl rfl ?_
              refine Kept.ofEq (by assumption) ?_
              apply keeps_writePoints
              assumption
            · dsimp only
              refine Kept.ofEq (by assumption) ?_
              apply keeps_writePoints
              assumption
          · dsimp only
            refine Kept.ofEq (by assumption) ?_
            apply keeps_writePoints
            assumption

theorem keeps_execPointRead {s₀ : State} (m : Msg) (s : State) (h0 : Kept s₀ s) :
    ∃ out, execPointRead m s = .next out ∧ Kept s₀ out := by
  unfold execPointRead
  refine ⟨_, rfl, ?_⟩
  apply keeps_serve
  · assumption
  · intro a1 a2
    apply keeps_pointReadOp
    assumption

theorem keeps_execPointWrite {s₀ : State} (m : Msg) (s : State) (h0 : Kept s₀ s) :
    ∃ out, execPointWrite m s = .next out ∧ Kept s₀ out := by
  unfold execPointWrite
  refine ⟨_, rfl, ?_⟩
  apply keeps_serve
  · assumption
  · intro a1 a2
    apply keeps_pointWriteOp
    assumption

end Sys2Proof.Laws
end

