-- ==== Sys2Proof/Laws/KeepDialog.lean ====
section
/-! SUPPORT. What each operation of Machine/Dialog.lean keeps (Laws/Kept.lean). -/

open Sys2Proof Sys2Proof.Machine

namespace Sys2Proof.Laws

theorem keeps_subscribeOk {s₀ : State} (s : State) (m : Msg) (h0 : Kept s₀ s) :
    Kept s₀ (State.subscribeOk s m).1 := by
  unfold State.subscribeOk
  extract_lets +onlyGivenNames t1
  clear_value t1
  split
  · assumption
  · split
    · assumption
    · split
      · assumption
      · refine Kept.of_eq rfl rfl rfl rfl rfl rfl rfl rfl rfl rfl rfl rfl ?_
        assumption

theorem keeps_subscribeOp {s₀ : State} (s : State) (m : Msg) (h0 : Kept s₀ s) :
    Kept s₀ (State.subscribeOp s m).1 := by
  unfold State.subscribeOp
  split
  · assumption
  · split
    · assumption
    · split
      · assumption
      · split
        · assumption
        · split
          · assumption
          · apply keeps_subscribeOk
            assumption

theorem keeps_unsubscribeOp {s₀ : State} (s : State) (m : Msg) (h0 : Kept s₀ s) :
    Kept s₀ (State.unsubscribeOp s m).1 := by
  unfold State.unsubscribeOp
  extract_lets +onlyGivenNames t1
  clear_value t1
  split
  · assumption
  · split
    · refine Kept.of_eq rfl rfl rfl rfl rfl rfl rfl rfl rfl rfl rfl rfl ?_
      assumption
    · assumption

theorem keeps_notifyOp {s₀ : State} (s : State) (n : ℕ) (x : Sub) (leaves : Bool) (h0 : Kept s₀ s) :
    Kept s₀ (State.notifyOp s n x leaves) := by
  unfold State.notifyOp
  extract_lets +onlyGivenNames t1
  clear_value t1
  extract_lets +onlyGivenNames t2
  clear_value t2
  extract_lets +onlyGivenNames t3
  clear_value t3
  extract_lets +onlyGivenNames t4
  refine Kept.cut (a := t4) ?_ fun _ => ?_
  · unfold t4; clear t4
    refine Kept.of_eq rfl rfl rfl rfl rfl rfl rfl rfl rfl rfl rfl rfl ?_
    assumption
  clear_value t4
  refine Kept.ite ?_ ?_
  · apply keeps_reply
    apply keeps_bump
    assumption
  · apply keeps_bump
    assumption

theorem keeps_execNotify {s₀ : State} (n : Fin 64) (leaves : Bool) (s : State) (h0 : Kept s₀ s) :
    ∃ out, execNotify n leaves s = .next out ∧ Kept s₀ out := by
  unfold execNotify
  refine ⟨_, rfl, ?_⟩
  split
  · refine Kept.ite ?_ ?_
    · apply keeps_notifyOp
      assumption
    · assumption
  · assumption

theorem keeps_execSubscribe {s₀ : State} (m : Msg) (s : State) (h0 : Kept s₀ s) :
    ∃ out, execSubscribe m s = .next out ∧ Kept s₀ out := by
  unfold execSubscribe
  refine ⟨_, rfl, ?_⟩
  apply keeps_serve
  · assumption
  · intro a1 a2
    apply keeps_subscribeOp
    assumption

theorem keeps_execUnsubscribe {s₀ : State} (m : Msg) (s : State) (h0 : Kept s₀ s) :
    ∃ out, execUnsubscribe m s = .next out ∧ Kept s₀ out := by
  unfold execUnsubscribe
  refine ⟨_, rfl, ?_⟩
  apply keeps_serve
  · assumption
  · intro a1 a2
    apply keeps_unsubscribeOp
    assumption

theorem keeps_dropNonce {s₀ : State} (s : State) (path : ℕ) (source : ℕ) (h0 : Kept s₀ s) :
    Kept s₀ (State.dropNonce s path source) := by
  unfold State.dropNonce
  refine Kept.of_eq rfl rfl rfl rfl rfl rfl rfl rfl rfl rfl rfl rfl ?_
  assumption

theorem keeps_challengeOp {s₀ : State} (s : State) (m : Msg) (h0 : Kept s₀ s) :
    Kept s₀ (State.challengeOp s m).1 := by
  unfold State.challengeOp
  split
  · assumption
  · split
    · assumption
    · dsimp only
      refine Kept.of_eq rfl rfl rfl rfl rfl rfl rfl rfl rfl rfl rfl rfl ?_
      apply keeps_drawBits
      apply keeps_dropNonce
      assumption

theorem keeps_openOp {s₀ : State} (s : State) (m : Msg) (h0 : Kept s₀ s) :
    Kept s₀ (State.openOp s m).1 := by
  unfold State.openOp
  extract_lets +onlyGivenNames t1
  refine Kept.cut (a := t1) ?_ fun _ => ?_
  · unfold t1; clear t1
    apply keeps_fire
    assumption
  clear_value t1
  split
  · dsimp only
    assumption
  · extract_lets +onlyGivenNames t2
    clear_value t2
    extract_lets +onlyGivenNames t3
    refine Kept.cut (a := t3) ?_ fun _ => ?_
    · unfold t3; clear t3
      apply keeps_dropNonce
      assumption
    clear_value t3
    split
    · extract_lets +onlyGivenNames t4
      clear_value t4
      extract_lets +onlyGivenNames t5
      clear_value t5
      dsimp only
      apply keeps_foldGrant
      apply keeps_useSlot
      apply keeps_setSession
      assumption
    · dsimp only
      apply keeps_foldRefuse
      assumption

theorem keeps_closeOp {s₀ : State} (s : State) (m : Msg) (h0 : Kept s₀ s) :
    Kept s₀ (State.closeOp s m).1 := by
  unfold State.closeOp
  split
  · assumption
  · split
    · assumption
    · apply keeps_endSession
      assumption

theorem keeps_execChallenge {s₀ : State} (m : Msg) (s : State) (h0 : Kept s₀ s) :
    ∃ out, execChallenge m s = .next out ∧ Kept s₀ out := by
  unfold execChallenge
  refine ⟨_, rfl, ?_⟩
  apply keeps_serve
  · assumption
  · intro a1 a2
    apply keeps_challengeOp
    assumption

theorem keeps_execOpen {s₀ : State} (m : Msg) (s : State) (h0 : Kept s₀ s) :
    ∃ out, execOpen m s = .next out ∧ Kept s₀ out := by
  unfold execOpen
  refine ⟨_, rfl, ?_⟩
  apply keeps_serve
  · assumption
  · intro a1 a2
    apply keeps_openOp
    assumption

theorem keeps_execClose {s₀ : State} (m : Msg) (s : State) (h0 : Kept s₀ s) :
    ∃ out, execClose m s = .next out ∧ Kept s₀ out := by
  unfold execClose
  refine ⟨_, rfl, ?_⟩
  apply keeps_serve
  · assumption
  · intro a1 a2
    apply keeps_closeOp
    assumption

theorem keeps_execSessionIdleExpiry {s₀ : State} (n : Fin 16) (s : State) (h0 : Kept s₀ s) :
    ∃ out, execSessionIdleExpiry n s = .next out ∧ Kept s₀ out := by
  unfold execSessionIdleExpiry
  refine ⟨_, rfl, ?_⟩
  refine Kept.ite ?_ ?_
  · assumption
  · apply keeps_endSession
    assumption

theorem keeps_execNonceExpiry {s₀ : State} (path : Fin 4) (source : ℕ) (s : State) (h0 : Kept s₀ s) :
    ∃ out, execNonceExpiry path source s = .next out ∧ Kept s₀ out := by
  unfold execNonceExpiry
  refine ⟨_, rfl, ?_⟩
  apply keeps_dropNonce
  assumption

theorem keeps_execDictMalformedRequest {s₀ : State} (path : Fin 4) (source : ℕ) (words : List Word) (packing : Bool) (s : State) (h0 : Kept s₀ s) :
    ∃ out, execDictMalformedRequest path source words packing s = .next out ∧ Kept s₀ out := by
  unfold execDictMalformedRequest
  refine ⟨_, rfl, ?_⟩
  refine Kept.ite ?_ ?_
  · assumption
  · split
    · assumption
    · extract_lets +onlyGivenNames t1
      refine Kept.cut (a := t1) ?_ fun _ => ?_
      · unfold t1; clear t1
        apply keeps_malformed
        apply keeps_takeReq
        assumption
      clear_value t1
      split
      · assumption
      · apply keeps_respond
        assumption

theorem keeps_endRelay {s₀ : State} (s : State) (relay : ℕ) (h0 : Kept s₀ s) :
    Kept s₀ (State.endRelay s relay) := by
  unfold State.endRelay
  refine Kept.of_eq rfl rfl rfl rfl rfl rfl rfl rfl rfl rfl rfl rfl ?_
  assumption

theorem keeps_execRelayedResponse {s₀ : State} (relay : ℕ) (abort : ℕ) (pend : Bool) (dflt : Bool) (body : List Word) (s : State) (h0 : Kept s₀ s) :
    ∃ out, execRelayedResponse relay abort pend dflt body s = .next out ∧ Kept s₀ out := by
  unfold execRelayedResponse
  refine ⟨_, rfl, ?_⟩
  refine Kept.ite ?_ ?_
  · assumption
  · split
    · apply keeps_malformed
      assumption
    · apply keeps_reply
      apply keeps_endRelay
      assumption

theorem keeps_execRelayTimeout {s₀ : State} (relay : ℕ) (s : State) (h0 : Kept s₀ s) :
    ∃ out, execRelayTimeout relay s = .next out ∧ Kept s₀ out := by
  unfold execRelayTimeout
  refine ⟨_, rfl, ?_⟩
  split
  · assumption
  · apply keeps_abortReq
    apply keeps_fire
    apply keeps_bump
    apply keeps_endRelay
    assumption

theorem keeps_execArpRequest {s₀ : State} (address : ℕ) (asker : ℕ) (s : State) (h0 : Kept s₀ s) :
    ∃ out, execArpRequest address asker s = .next out ∧ Kept s₀ out := by
  unfold execArpRequest
  refine ⟨_, rfl, ?_⟩
  refine Kept.ite ?_ ?_
  · apply keeps_emit
    assumption
  · assumption

theorem keeps_execIcmpEchoRequest {s₀ : State} (address : ℕ) (asker : ℕ) (payload : List ℕ) (s : State) (h0 : Kept s₀ s) :
    ∃ out, execIcmpEchoRequest address asker payload s = .next out ∧ Kept s₀ out := by
  unfold execIcmpEchoRequest
  refine ⟨_, rfl, ?_⟩
  refine Kept.ite ?_ ?_
  · apply keeps_emit
    assumption
  · assumption

end Sys2Proof.Laws
end

