-- ==== Sys2Proof/Laws/KeepTurn.lean ====
section
/-! SUPPORT. What each operation of Machine/Turn.lean keeps (Laws/Kept.lean). -/

open Sys2Proof Sys2Proof.Machine

namespace Sys2Proof.Laws

theorem keeps_gridTo {s₀ : State} (s : State) (n : NextTide) (h0 : Kept s₀ s) :
    Kept s₀ (State.gridTo s n) := by
  unfold State.gridTo
  refine Kept.of_eq rfl rfl rfl rfl rfl rfl rfl rfl rfl rfl rfl rfl ?_
  assumption

theorem keeps_tideTo {s₀ : State} (s : State) (n : NextTide) (h0 : Kept s₀ s) :
    Kept s₀ (State.tideTo s n) := by
  unfold State.tideTo
  extract_lets +onlyGivenNames t1
  clear_value t1
  refine Kept.of_eq rfl rfl rfl rfl rfl rfl rfl rfl rfl rfl rfl rfl ?_
  assumption

theorem keeps_retireTurn {s₀ : State} (s : State) (h0 : Kept s₀ s) :
    Kept s₀ (State.retireTurn s) := by
  unfold State.retireTurn
  refine Kept.ite ?_ ?_
  · apply keeps_emptyStaging
    assumption
  · assumption

theorem keeps_swapHalves {s₀ : State} (s : State) (start : ℕ) (h0 : Kept s₀ s) :
    Kept s₀ (State.swapHalves s start) := by
  unfold State.swapHalves
  extract_lets +onlyGivenNames t1
  clear_value t1
  extract_lets +onlyGivenNames t2
  clear_value t2
  extract_lets +onlyGivenNames t3
  clear_value t3
  refine Kept.of_eq rfl rfl rfl rfl rfl rfl rfl rfl rfl rfl rfl rfl ?_
  assumption

theorem keeps_selectTurn {s₀ : State} (s : State) (h0 : Kept s₀ s) :
    Kept s₀ (State.selectTurn s) := by
  unfold State.selectTurn
  split
  · apply keeps_confirmJoin
    apply keeps_profileForce
    refine Kept.of_eq rfl rfl rfl rfl rfl rfl rfl rfl rfl rfl rfl rfl ?_
    assumption
  · assumption

theorem keeps_swapTable {s₀ : State} (s : State) (h0 : Kept s₀ s) :
    Kept s₀ (State.swapTable s) := by
  unfold State.swapTable
  extract_lets +onlyGivenNames t1
  refine Kept.cut (a := t1) ?_ fun _ => ?_
  · unfold t1; clear t1
    assumption
  clear_value t1
  extract_lets +onlyGivenNames t2
  clear_value t2
  extract_lets +onlyGivenNames t3
  clear_value t3
  extract_lets +onlyGivenNames t4
  clear_value t4
  extract_lets +onlyGivenNames t5
  refine Kept.cut (a := t5) ?_ fun _ => ?_
  · unfold t5; clear t5
    apply keeps_bumpFld
    apply keeps_swapHalves
    assumption
  clear_value t5
  apply keeps_keepSafe
  · apply keeps_applySettings
    apply keeps_selectTurn
    apply keeps_droveSwap
    apply keeps_rxSwap
    assumption
  · assumption

theorem keeps_restartDrovers {s₀ : State} (s : State) (h0 : Kept s₀ s) :
    Kept s₀ (State.restartDrovers s) := by
  unfold State.restartDrovers
  refine Kept.fold ?_ ?_
  · intro a1 a2 a3
    refine Kept.ite ?_ ?_
    · apply keeps_setDrover
      apply keeps_keepAwake
      assumption
    · assumption
  · assumption

theorem keeps_staleTurn {s₀ : State} (s : State) (h0 : Kept s₀ s) :
    Kept s₀ (State.staleTurn s) := by
  unfold State.staleTurn
  refine Kept.of_eq rfl rfl rfl rfl rfl rfl rfl rfl rfl rfl rfl rfl ?_
  assumption

theorem keeps_commitTurn {s₀ : State} (s : State) (h0 : Kept s₀ s) :
    Kept s₀ (State.commitTurn s) := by
  unfold State.commitTurn
  refine Kept.ite ?_ ?_
  · refine Kept.of_eq rfl rfl rfl rfl rfl rfl rfl rfl rfl rfl rfl rfl ?_
    assumption
  · assumption

theorem keeps_verifyTurn {s₀ : State} (s : State) (h0 : Kept s₀ s) :
    Kept s₀ (State.verifyTurn s) := by
  unfold State.verifyTurn
  extract_lets +onlyGivenNames t1
  clear_value t1
  extract_lets +onlyGivenNames t2
  clear_value t2
  extract_lets +onlyGivenNames t3
  clear_value t3
  extract_lets +onlyGivenNames t4
  refine Kept.cut (a := t4) ?_ fun _ => ?_
  · unfold t4; clear t4
    refine Kept.of_eq rfl rfl rfl rfl rfl rfl rfl rfl rfl rfl rfl rfl ?_
    assumption
  clear_value t4
  refine Kept.fold ?_ ?_
  · intro a1 a2 a3
    split
    · apply keeps_answerReq
      assumption
    · assumption
  · assumption

theorem keeps_subsTurn {s₀ : State} (s : State) (h0 : Kept s₀ s) :
    Kept s₀ (State.subsTurn s) := by
  unfold State.subsTurn
  refine Kept.of_eq rfl rfl rfl rfl rfl rfl rfl rfl rfl rfl rfl rfl ?_
  assumption

theorem keeps_onceTurn {s₀ : State} (s : State) (h0 : Kept s₀ s) :
    Kept s₀ (State.onceTurn s) := by
  unfold State.onceTurn
  refine Kept.of_eq rfl rfl rfl rfl rfl rfl rfl rfl rfl rfl rfl rfl ?_
  assumption

theorem keeps_settingsTurn {s₀ : State} (s : State) (forces : List (ℕ × ℕ)) (h0 : Kept s₀ s) :
    Kept s₀ (State.settingsTurn s forces) := by
  unfold State.settingsTurn
  extract_lets +onlyGivenNames t1
  refine Kept.cut (a := t1) ?_ fun _ => ?_
  · unfold t1; clear t1
    apply keeps_clearForces
    apply keeps_pendingTurn
    apply keeps_pairWritesTurn
    apply keeps_resetTurn
    assumption
  clear_value t1
  apply keeps_forcesChanged
  assumption

theorem keeps_turnRules {s₀ : State} (s : State) (forces : List (ℕ × ℕ)) (h0 : Kept s₀ s) :
    Kept s₀ (State.turnRules s forces) := by
  unfold State.turnRules
  extract_lets +onlyGivenNames t1
  refine Kept.cut (a := t1) ?_ fun _ => ?_
  · unfold t1; clear t1
    apply keeps_linksTurn
    assumption
  clear_value t1
  extract_lets +onlyGivenNames t2
  refine Kept.cut (a := t2) ?_ fun _ => ?_
  · unfold t2; clear t2
    refine Kept.fold ?_ ?_
    · intro a3 a4 a5
      apply keeps_phaseTurn
      assumption
    · assumption
  clear_value t2
  extract_lets +onlyGivenNames t6
  refine Kept.cut (a := t6) ?_ fun _ => ?_
  · unfold t6; clear t6
    apply keeps_onceTurn
    apply keeps_degradeTurn
    assumption
  clear_value t6
  extract_lets +onlyGivenNames t7
  refine Kept.cut (a := t7) ?_ fun _ => ?_
  · unfold t7; clear t7
    apply keeps_portTurn
    apply keeps_settingsTurn
    assumption
  clear_value t7
  extract_lets +onlyGivenNames t8
  refine Kept.cut (a := t8) ?_ fun _ => ?_
  · unfold t8; clear t8
    refine Kept.fold ?_ ?_
    · intro a9 a10 a11
      apply keeps_exchangeTurn
      assumption
    · assumption
  clear_value t8
  apply keeps_verifyTurn
  apply keeps_subsTurn
  apply keeps_reportTurns
  apply keeps_pairTurn
  apply keeps_gateTurn
  apply keeps_busTurn
  assumption

theorem keeps_gridRules {s₀ : State} (s : State) (h0 : Kept s₀ s) :
    Kept s₀ (State.gridRules s) := by
  unfold State.gridRules
  apply keeps_timeTurn
  apply keeps_tideCell
  apply keeps_joinTurn
  assumption

theorem keeps_powerTurn {s₀ : State} (s : State) (boundary : Bool) (h0 : Kept s₀ s) :
    KeptO s₀ (State.powerTurn s boundary) := by
  unfold State.powerTurn
  split
  · refine KeptO.ite ?_ ?_
    · refine KeptO.some ?_
      apply keeps_lightEntry
      assumption
    · exact KeptO.none
  · refine KeptO.some ?_
    apply keeps_keepEntry
    assumption
  · refine KeptO.some ?_
    apply keeps_deepEntry
    assumption
  · exact KeptO.none

theorem keeps_activate {s₀ : State} (s : State) (h0 : Kept s₀ s) :
    KeptO s₀ (State.activate s) := by
  unfold State.activate
  refine KeptO.ite ?_ ?_
  · exact KeptO.none
  · refine KeptO.some ?_
    apply keeps_beginWarm
    refine Kept.of_eq rfl rfl rfl rfl rfl rfl rfl rfl rfl rfl rfl rfl ?_
    assumption

theorem keeps_deferTurn {s₀ : State} (s : State) (due : Bool) (h0 : Kept s₀ s) :
    Kept s₀ (State.deferTurn s due) := by
  unfold State.deferTurn
  refine Kept.ite ?_ ?_
  · refine Kept.of_eq rfl rfl rfl rfl rfl rfl rfl rfl rfl rfl rfl rfl ?_
    assumption
  · assumption

theorem keeps_tideBegins {s₀ : State} (s : State) (n : NextTide) (swap : Bool) (h0 : Kept s₀ s) :
    Kept s₀ (State.tideBegins s n swap) := by
  unfold State.tideBegins
  extract_lets +onlyGivenNames t1
  clear_value t1
  extract_lets +onlyGivenNames t2
  clear_value t2
  extract_lets +onlyGivenNames t3
  refine Kept.cut (a := t3) ?_ fun _ => ?_
  · unfold t3; clear t3
    apply keeps_gridTo
    apply keeps_tideTo
    apply keeps_retireTurn
    assumption
  clear_value t3
  extract_lets +onlyGivenNames t4
  refine Kept.cut (a := t4) ?_ fun _ => ?_
  · unfold t4; clear t4
    refine Kept.ite ?_ ?_
    · apply keeps_swapTable
      assumption
    · assumption
  clear_value t4
  extract_lets +onlyGivenNames t5
  refine Kept.cut (a := t5) ?_ fun _ => ?_
  · unfold t5; clear t5
    apply keeps_restartDrovers
    assumption
  clear_value t5
  extract_lets +onlyGivenNames t6
  clear_value t6
  extract_lets +onlyGivenNames t7
  refine Kept.cut (a := t7) ?_ fun _ => ?_
  · unfold t7; clear t7
    refine Kept.ite ?_ ?_
    · refine Kept.of_eq rfl rfl rfl rfl rfl rfl rfl rfl rfl rfl rfl rfl ?_
      assumption
    · assumption
  clear_value t7
  apply keeps_turnRules
  apply keeps_gridRules
  apply keeps_commitTurn
  apply keeps_staleTurn
  apply keeps_holdExit
  assumption

theorem keeps_turnNow {s₀ : State} (s : State) (h0 : Kept s₀ s) :
    Kept s₀ (State.turnNow s) := by
  unfold State.turnNow
  extract_lets +onlyGivenNames t1
  refine Kept.cut (a := t1) ?_ fun _ => ?_
  · unfold t1; clear t1
    apply keeps_tideEnds
    assumption
  clear_value t1
  extract_lets +onlyGivenNames t2
  clear_value t2
  extract_lets +onlyGivenNames t3
  refine Kept.cut (a := t3) ?_ fun _ => ?_
  · unfold t3; clear t3
    refine Kept.of_eq rfl rfl rfl rfl rfl rfl rfl rfl rfl rfl rfl rfl ?_
    assumption
  clear_value t3
  extract_lets +onlyGivenNames t4
  clear_value t4
  extract_lets +onlyGivenNames t5
  clear_value t5
  extract_lets +onlyGivenNames t6
  clear_value t6
  split
  · refine KeptO.elim (by assumption) ?_
    apply keeps_powerTurn
    assumption
  · refine KeptO.elim (by assumption) ?_
    refine KeptO.ite ?_ ?_
    · apply keeps_activate
      assumption
    · exact KeptO.none
  · apply keeps_tideBegins
    apply keeps_deferTurn
    assumption

theorem keeps_execTurn {s₀ : State} (s : State) (h0 : Kept s₀ s) :
    ∃ out, execTurn s = .next out ∧ Kept s₀ out := by
  unfold execTurn
  refine ⟨_, rfl, ?_⟩
  refine Kept.ite ?_ ?_
  · apply keeps_turnNow
    assumption
  · assumption

theorem keeps_periodNow {s₀ : State} (s : State) (h0 : Kept s₀ s) :
    Kept s₀ (State.periodNow s) := by
  unfold State.periodNow
  split
  · refine KeptO.elim (by assumption) ?_
    refine KeptO.ite ?_ ?_
    · apply keeps_powerTurn
      assumption
    · exact KeptO.none
  · extract_lets +onlyGivenNames t1
    clear_value t1
    extract_lets +onlyGivenNames t2
    refine Kept.cut (a := t2) ?_ fun _ => ?_
    · unfold t2; clear t2
      refine Kept.of_eq rfl rfl rfl rfl rfl rfl rfl rfl rfl rfl rfl rfl ?_
      assumption
    clear_value t2
    apply keeps_turnRules
    refine Kept.ite ?_ ?_
    · refine Kept.of_eq rfl rfl rfl rfl rfl rfl rfl rfl rfl rfl rfl rfl ?_
      assumption
    · assumption

theorem keeps_periodActivates {s₀ : State} (s : State) (h0 : Kept s₀ s) :
    Kept s₀ (State.periodActivates s) := by
  unfold State.periodActivates
  extract_lets +onlyGivenNames t1
  clear_value t1
  split
  · refine KeptO.elim (by assumption) ?_
    refine KeptO.ite ?_ ?_
    · apply keeps_activate
      assumption
    · exact KeptO.none
  · apply keeps_deferTurn
    assumption

theorem keeps_execNoTidePeriod {s₀ : State} (s : State) (h0 : Kept s₀ s) :
    ∃ out, execNoTidePeriod s = .next out ∧ Kept s₀ out := by
  unfold execNoTidePeriod
  refine ⟨_, rfl, ?_⟩
  refine Kept.ite ?_ ?_
  · assumption
  · refine Kept.ite ?_ ?_
    · apply keeps_periodNow
      assumption
    · refine Kept.ite ?_ ?_
      · apply keeps_periodActivates
        assumption
      · assumption

end Sys2Proof.Laws
end

