-- ==== Sys2Proof/Laws/Lines.lean ====
section
/-! SUPPORT. That an operation which is no store leaves every line, the tables and the tide's number as they are. -/

open Sys2Proof Sys2Proof.Machine

namespace Sys2Proof.Laws

/-- What an operation that stores to no line leaves as it is. -/
structure Lines (s₀ s : State) : Prop where
  tide_t : s.tide.t = s₀.tide.t
  table : s.table = s₀.table
  image_pasture : s.image.pasture = s₀.image.pasture
  image_upland : s.image.upland = s₀.image.upland

theorem Lines.refl (s : State) : Lines s s := ⟨rfl, rfl, rfl, rfl⟩

theorem Lines.trans {a b c : State} (h : Lines a b) (g : Lines b c) : Lines a c :=
  ⟨g.1.trans h.1, g.2.trans h.2, g.3.trans h.3, g.4.trans h.4⟩

/-- A record update that leaves what is kept. -/
theorem Lines.of_eq {s₀ s : State} {a0 a1 a2 a3 a4 a5 a6 a7 a8 a9 a10 a11 a12 a13 a14 a15 a16 a17 a18 a19 a20 a21 a22 a23 a24 a25 a26}
    (h0 : a3.t = s.tide.t) (h1 : a4 = s.table) (h2 : a6.pasture = s.image.pasture) (h3 : a6.upland = s.image.upland)
    (H : Lines s₀ s) : Lines s₀ (State.mk a0 a1 a2 a3 a4 a5 a6 a7 a8 a9 a10 a11 a12 a13 a14 a15 a16 a17 a18 a19 a20 a21 a22 a23 a24 a25 a26) :=
  H.trans ⟨h0, h1, h2, h3⟩

theorem Lines.ite {s₀ : State} {c : Prop} [Decidable c] {a b : State} (ha : Lines s₀ a) (hb : Lines s₀ b) :
    Lines s₀ (if c then a else b) := by split <;> assumption

theorem Lines.over {s₀ : State} {α : Type} {f : State → α → State} {s : State} {l : List α}
    (hf : ∀ s x, Lines s₀ s → Lines s₀ (f s x)) (h : Lines s₀ s) : Lines s₀ (l.foldl f s) := by
  induction l generalizing s with
  | nil => exact h
  | cons a l ih => exact ih (hf _ _ h)

theorem Lines.cut {s₀ : State} {a b : State} (h : Lines s₀ a) (H : Lines s₀ a → Lines s₀ b) : Lines s₀ b := H h

theorem Lines.pairs {s₀ : State} {α β : Type} {f : State × β → α → State × β} {p : State × β} {l : List α}
    (hf : ∀ p x, Lines s₀ p.1 → Lines s₀ (f p x).1) (h : Lines s₀ p.1) : Lines s₀ (l.foldl f p).1 := by
  induction l generalizing p with
  | nil => exact h
  | cons a l ih => exact ih (hf _ _ h)

theorem Lines.ofEq {s₀ : State} {β : Type} {p : State × β} {a : State} {b : β} (e : p = (a, b)) (h : Lines s₀ p.1) : Lines s₀ a := by
  subst e; exact h

theorem Lines.have_ {P Q : Prop} (h : P) (H : P → Q) : Q := H h

/-- What an answer that may be absent keeps. -/
def LinesO (s₀ : State) (o : Option State) : Prop := ∀ t, o = some t → Lines s₀ t

def LinesQ {β : Type} (s₀ : State) (o : Option (State × β)) : Prop := ∀ p, o = some p → Lines s₀ p.1

theorem LinesO.none {s₀ : State} : LinesO s₀ none := fun _ h => nomatch h

theorem LinesO.some {s₀ : State} {s : State} (h : Lines s₀ s) : LinesO s₀ (some s) := fun _ e => Option.some.inj e ▸ h

theorem LinesO.ite {s₀ : State} {c : Prop} [Decidable c] {a b : Option State} (ha : LinesO s₀ a) (hb : LinesO s₀ b) :
    LinesO s₀ (if c then a else b) := by split <;> assumption

theorem LinesO.elim {s₀ : State} {o : Option State} {t : State} (e : o = Option.some t) (h : LinesO s₀ o) : Lines s₀ t := h t e

theorem LinesQ.none {s₀ : State} {β : Type} : LinesQ (β := β) s₀ none := fun _ h => nomatch h

theorem LinesQ.some {s₀ : State} {β : Type} {p : State × β} (h : Lines s₀ p.1) : LinesQ s₀ (some p) :=
  fun _ e => Option.some.inj e ▸ h

theorem LinesQ.ite {s₀ : State} {β : Type} {c : Prop} [Decidable c] {a b : Option (State × β)} (ha : LinesQ s₀ a)
    (hb : LinesQ s₀ b) : LinesQ s₀ (if c then a else b) := by split <;> assumption

theorem LinesQ.elim {s₀ : State} {β : Type} {o : Option (State × β)} {t : State} {b : β} (e : o = Option.some (t, b))
    (h : LinesQ s₀ o) : Lines s₀ t := h (t, b) e

theorem LinesQ.map {s₀ : State} {α β : Type} {o : Option α} {f : α → State × β} (h : ∀ a, Lines s₀ (f a).1) :
    LinesQ s₀ (o.map f) := by
  cases o with
  | none => exact LinesQ.none
  | some a => exact LinesQ.some (h a)

theorem LinesQ.map₂ {s₀ : State} {α β : Type} {o : Option (State × α)} {f : State × α → State × β} (h : LinesQ s₀ o)
    (hf : ∀ a, Lines s₀ a.1 → Lines s₀ (f a).1) : LinesQ s₀ (o.map f) := by
  cases o with
  | none => exact LinesQ.none
  | some a => exact LinesQ.some (hf a (h a rfl))

theorem lines_setCount {s₀ : State} (s : State) (e : ℕ) (sub : ℕ) (v : ℕ) (h0 : Lines s₀ s) :
    Lines s₀ (State.setCount s e sub v) := by
  unfold State.setCount
  refine Lines.of_eq rfl rfl rfl rfl ?_
  assumption

theorem lines_bump {s₀ : State} (s : State) (e : ℕ) (sub : ℕ) (k : ℕ) (h0 : Lines s₀ s) :
    Lines s₀ (State.bump s e sub k) := by
  unfold State.bump
  apply lines_setCount
  assumption

theorem lines_bumpFld {s₀ : State} (s : State) (e : ℕ) (sub : ℕ) (hi : ℕ) (lo : ℕ) (h0 : Lines s₀ s) :
    Lines s₀ (State.bumpFld s e sub hi lo) := by
  unfold State.bumpFld
  apply lines_setCount
  assumption

theorem lines_emit {s₀ : State} (s : State) (k : OutKind) (unit : ℕ) (words : List ℕ) (h0 : Lines s₀ s) :
    Lines s₀ (State.emit s k unit words) := by
  unfold State.emit
  refine Lines.of_eq rfl rfl rfl rfl ?_
  assumption

theorem lines_draw {s₀ : State} (s : State) (h0 : Lines s₀ s) :
    Lines s₀ (State.draw s).1 := by
  unfold State.draw
  refine Lines.of_eq rfl rfl rfl rfl ?_
  assumption

theorem lines_msiSend {s₀ : State} (s : State) (v : ℕ) (h0 : Lines s₀ s) :
    Lines s₀ (State.msiSend s v) := by
  unfold State.msiSend
  refine Lines.ite ?_ ?_
  · apply lines_emit
    apply lines_bump
    assumption
  · refine Lines.ite ?_ ?_
    · assumption
    · refine Lines.of_eq rfl rfl rfl rfl ?_
      assumption

theorem lines_interrupt {s₀ : State} (s : State) (k : ℕ) (h0 : Lines s₀ s) :
    Lines s₀ (State.interrupt s k) := by
  unfold State.interrupt
  refine Lines.ite ?_ ?_
  · assumption
  · extract_lets +onlyGivenNames t1
    clear_value t1
    extract_lets +onlyGivenNames t2
    refine Lines.cut (a := t2) ?_ fun _ => ?_
    · unfold t2; clear t2
      refine Lines.of_eq rfl rfl rfl rfl ?_
      assumption
    clear_value t2
    refine Lines.ite ?_ ?_
    · apply lines_msiSend
      assumption
    · assumption

theorem lines_setSrc {s₀ : State} (s : State) (n : ℕ) (x : Source) (h0 : Lines s₀ s) :
    Lines s₀ (State.setSrc s n x) := by
  unfold State.setSrc
  refine Lines.of_eq rfl rfl rfl rfl ?_
  assumption

theorem lines_tallyEvent {s₀ : State} (s : State) (c : ℕ) (payload : List ℕ) (h0 : Lines s₀ s) :
    Lines s₀ (State.tallyEvent s c payload) := by
  unfold State.tallyEvent
  extract_lets +onlyGivenNames t1
  clear_value t1
  split
  · refine Lines.ite ?_ ?_
    · extract_lets +onlyGivenNames t2
      clear_value t2
      extract_lets +onlyGivenNames t3
      refine Lines.cut (a := t3) ?_ fun _ => ?_
      · unfold t3; clear t3
        apply lines_bump
        assumption
      clear_value t3
      split
      · refine Lines.ite ?_ ?_
        · refine Lines.of_eq rfl rfl rfl rfl ?_
          assumption
        · refine Lines.of_eq rfl rfl rfl rfl ?_
          assumption
      · refine Lines.of_eq rfl rfl rfl rfl ?_
        assumption
    · refine Lines.ite ?_ ?_
      · refine Lines.of_eq rfl rfl rfl rfl ?_
        assumption
      · extract_lets +onlyGivenNames t4
        refine Lines.cut (a := t4) ?_ fun _ => ?_
        · unfold t4; clear t4
          apply lines_bump
          assumption
        clear_value t4
        refine Lines.of_eq rfl rfl rfl rfl ?_
        assumption
  · refine Lines.ite ?_ ?_
    · refine Lines.of_eq rfl rfl rfl rfl ?_
      assumption
    · extract_lets +onlyGivenNames t5
      refine Lines.cut (a := t5) ?_ fun _ => ?_
      · unfold t5; clear t5
        apply lines_bump
        assumption
      clear_value t5
      refine Lines.of_eq rfl rfl rfl rfl ?_
      assumption

theorem lines_firePlain {s₀ : State} (s : State) (n : ℕ) (inst : ℕ) (detail : ℕ) (forced : Bool) (h0 : Lines s₀ s) :
    Lines s₀ (State.firePlain s n inst detail forced) := by
  unfold State.firePlain
  split
  · assumption
  · extract_lets +onlyGivenNames t1
    clear_value t1
    extract_lets +onlyGivenNames t2
    clear_value t2
    extract_lets +onlyGivenNames t3
    refine Lines.cut (a := t3) ?_ fun _ => ?_
    · unfold t3; clear t3
      apply lines_setSrc
      assumption
    clear_value t3
    extract_lets +onlyGivenNames t4
    clear_value t4
    extract_lets +onlyGivenNames t5
    refine Lines.cut (a := t5) ?_ fun _ => ?_
    · unfold t5; clear t5
      refine Lines.ite ?_ ?_
      · refine Lines.of_eq rfl rfl rfl rfl ?_
        assumption
      · assumption
    clear_value t5
    extract_lets +onlyGivenNames t6
    clear_value t6
    extract_lets +onlyGivenNames t7
    refine Lines.cut (a := t7) ?_ fun _ => ?_
    · unfold t7; clear t7
      refine Lines.ite ?_ ?_
      · refine Lines.of_eq rfl rfl rfl rfl ?_
        assumption
      · assumption
    clear_value t7
    extract_lets +onlyGivenNames t8
    refine Lines.cut (a := t8) ?_ fun _ => ?_
    · unfold t8; clear t8
      apply lines_tallyEvent
      assumption
    clear_value t8
    refine Lines.ite ?_ ?_
    · apply lines_interrupt
      assumption
    · assumption

theorem lines_traceTail {s₀ : State} (s : State) (words : List Word) (h0 : Lines s₀ s) :
    Lines s₀ (State.traceTail s words) := by
  unfold State.traceTail
  refine Lines.of_eq rfl rfl rfl rfl ?_
  assumption

theorem lines_traceWords {s₀ : State} (s : State) (words : List Word) (h0 : Lines s₀ s) :
    Lines s₀ (State.traceWords s words) := by
  unfold State.traceWords
  extract_lets +onlyGivenNames t1
  clear_value t1
  extract_lets +onlyGivenNames t2
  clear_value t2
  refine Lines.ite ?_ ?_
  · extract_lets +onlyGivenNames t3
    refine Lines.cut (a := t3) ?_ fun _ => ?_
    · unfold t3; clear t3
      apply lines_traceTail
      refine Lines.over ?_ ?_
      · intro a4 a5 a6
        apply lines_traceTail
        assumption
      · assumption
    clear_value t3
    refine Lines.of_eq rfl rfl rfl rfl ?_
    assumption
  · extract_lets +onlyGivenNames t7
    refine Lines.cut (a := t7) ?_ fun _ => ?_
    · unfold t7; clear t7
      apply lines_traceTail
      assumption
    clear_value t7
    extract_lets +onlyGivenNames t8
    refine Lines.cut (a := t8) ?_ fun _ => ?_
    · unfold t8; clear t8
      apply lines_bump
      assumption
    clear_value t8
    extract_lets +onlyGivenNames t9
    extract_lets +onlyGivenNames t10
    extract_lets +onlyGivenNames t11
    refine Lines.cut (a := t11) ?_ fun _ => ?_
    · unfold t11; clear t11
      refine Lines.of_eq rfl rfl rfl rfl ?_
      assumption
    clear_value t11
    refine Lines.ite ?_ ?_
    · apply lines_firePlain
      assumption
    · assumption

theorem lines_traceRec {s₀ : State} (s : State) (type : ℕ) (w0 : ℕ) (rest : List ℕ) (h0 : Lines s₀ s) :
    Lines s₀ (State.traceRec s type w0 rest) := by
  unfold State.traceRec
  apply lines_traceWords
  assumption

theorem lines_fireCore {s₀ : State} (s : State) (n : ℕ) (inst : ℕ) (detail : ℕ) (forced : Bool) (h0 : Lines s₀ s) :
    Lines s₀ (State.fireCore s n inst detail forced) := by
  unfold State.fireCore
  split
  · assumption
  · extract_lets +onlyGivenNames t1
    clear_value t1
    extract_lets +onlyGivenNames t2
    refine Lines.cut (a := t2) ?_ fun _ => ?_
    · unfold t2; clear t2
      apply lines_firePlain
      assumption
    clear_value t2
    refine Lines.ite ?_ ?_
    · apply lines_traceRec
      assumption
    · assumption

theorem lines_traceStroke {s₀ : State} (s : State) (sl : ℕ) (idx : ℕ) (cause : ℕ) (h0 : Lines s₀ s) :
    Lines s₀ (State.traceStroke s sl idx cause) := by
  unfold State.traceStroke
  refine Lines.ite ?_ ?_
  · apply lines_traceRec
    assumption
  · assumption

theorem lines_setDrover {s₀ : State} (s : State) (k : ℕ) (x : Drover) (h0 : Lines s₀ s) :
    Lines s₀ (State.setDrover s k x) := by
  unfold State.setDrover
  refine Lines.of_eq rfl rfl rfl rfl ?_
  assumption

theorem lines_setBeacon {s₀ : State} (s : State) (b : ℕ) (x : Beacon) (h0 : Lines s₀ s) :
    Lines s₀ (State.setBeacon s b x) := by
  unfold State.setBeacon
  refine Lines.of_eq rfl rfl rfl rfl ?_
  assumption

theorem lines_setChan {s₀ : State} (s : State) (c : ℕ) (x : BusChan) (h0 : Lines s₀ s) :
    Lines s₀ (State.setChan s c x) := by
  unfold State.setChan
  refine Lines.of_eq rfl rfl rfl rfl ?_
  assumption

theorem lines_busCount {s₀ : State} (s : State) (c : ℕ) (k : ℕ) (h0 : Lines s₀ s) :
    Lines s₀ (State.busCount s c k) := by
  unfold State.busCount
  apply lines_bump
  assumption

theorem lines_withdraw {s₀ : State} (s : State) (c : ℕ) (b : ℕ) (h0 : Lines s₀ s) :
    Lines s₀ (State.withdraw s c b) := by
  unfold State.withdraw
  extract_lets +onlyGivenNames t1
  clear_value t1
  refine Lines.ite ?_ ?_
  · apply lines_busCount
    apply lines_setChan
    assumption
  · assumption

theorem lines_dropFrames {s₀ : State} (s : State) (c : ℕ) (h0 : Lines s₀ s) :
    Lines s₀ (State.dropFrames s c) := by
  unfold State.dropFrames
  extract_lets +onlyGivenNames t1
  refine Lines.cut (a := t1) ?_ fun _ => ?_
  · unfold t1; clear t1
    apply lines_withdraw
    apply lines_withdraw
    apply lines_withdraw
    assumption
  clear_value t1
  extract_lets +onlyGivenNames t2
  clear_value t2
  apply lines_setChan
  assumption

theorem lines_busHaltOp {s₀ : State} (s : State) (c : ℕ) (h0 : Lines s₀ s) :
    Lines s₀ (State.busHaltOp s c) := by
  unfold State.busHaltOp
  extract_lets +onlyGivenNames t1
  refine Lines.cut (a := t1) ?_ fun _ => ?_
  · unfold t1; clear t1
    apply lines_dropFrames
    assumption
  clear_value t1
  apply lines_setChan
  assumption

theorem lines_setLink {s₀ : State} (s : State) (l : ℕ) (x : RLink) (h0 : Lines s₀ s) :
    Lines s₀ (State.setLink s l x) := by
  unfold State.setLink
  refine Lines.of_eq rfl rfl rfl rfl ?_
  assumption

theorem lines_linkCount {s₀ : State} (s : State) (l : ℕ) (k : ℕ) (h0 : Lines s₀ s) :
    Lines s₀ (State.linkCount s l k) := by
  unfold State.linkCount
  apply lines_bump
  assumption

theorem lines_quayOff {s₀ : State} (s : State) (h0 : Lines s₀ s) :
    Lines s₀ (State.quayOff s) := by
  unfold State.quayOff
  refine Lines.of_eq rfl rfl rfl rfl ?_
  assumption

theorem lines_quayHaltOp {s₀ : State} (s : State) (h0 : Lines s₀ s) :
    Lines s₀ (State.quayHaltOp s) := by
  unfold State.quayHaltOp
  extract_lets +onlyGivenNames t1
  clear_value t1
  extract_lets +onlyGivenNames t2
  refine Lines.cut (a := t2) ?_ fun _ => ?_
  · unfold t2; clear t2
    apply lines_quayOff
    apply lines_bump
    assumption
  clear_value t2
  refine Lines.of_eq rfl rfl rfl rfl ?_
  assumption

theorem lines_pairOut {s₀ : State} (s : State) (h0 : Lines s₀ s) :
    Lines s₀ (State.pairOut s) := by
  unfold State.pairOut
  refine Lines.of_eq rfl rfl rfl rfl ?_
  assumption

theorem lines_pairBell {s₀ : State} (s : State) (h0 : Lines s₀ s) :
    Lines s₀ (State.pairBell s) := by
  unfold State.pairBell
  extract_lets +onlyGivenNames t1
  refine Lines.ite ?_ ?_
  · apply lines_pairOut
    assumption
  · assumption

theorem lines_setGate {s₀ : State} (s : State) (g : ℕ) (x : Gate) (h0 : Lines s₀ s) :
    Lines s₀ (State.setGate s g x) := by
  unfold State.setGate
  refine Lines.of_eq rfl rfl rfl rfl ?_
  assumption

theorem lines_gateDown {s₀ : State} (s : State) (g : ℕ) (cause : ℕ) (h0 : Lines s₀ s) :
    Lines s₀ (State.gateDown s g cause) := by
  unfold State.gateDown
  refine Lines.ite ?_ ?_
  · apply lines_setGate
    assumption
  · assumption

theorem lines_keepSafe {s₀ : State} (after : State) (before : State) (h0 : Lines s₀ after) :
    Lines s₀ (State.keepSafe after before) := by
  unfold State.keepSafe
  refine Lines.ite ?_ ?_
  · assumption
  · refine Lines.over ?_ ?_
    · intro a1 a2 a3
      refine Lines.ite ?_ ?_
      · refine Lines.of_eq rfl rfl rfl rfl ?_
        assumption
      · assumption
    · assumption

theorem lines_snapHold {s₀ : State} (s : State) (ps : List ℕ) (h0 : Lines s₀ s) :
    Lines s₀ (State.snapHold s ps) := by
  unfold State.snapHold
  refine Lines.over ?_ ?_
  · intro a1 a2 a3
    refine Lines.ite ?_ ?_
    · refine Lines.of_eq rfl rfl rfl rfl ?_
      assumption
    · assumption
  · assumption

theorem lines_droverSafe {s₀ : State} (s : State) (k : ℕ) (h0 : Lines s₀ s) :
    Lines s₀ (State.droverSafe s k) := by
  unfold State.droverSafe
  extract_lets +onlyGivenNames t1
  clear_value t1
  refine Lines.ite ?_ ?_
  · apply lines_setDrover
    assumption
  · assumption

theorem lines_linkSafe {s₀ : State} (s : State) (l : ℕ) (h0 : Lines s₀ s) :
    Lines s₀ (State.linkSafe s l) := by
  unfold State.linkSafe
  extract_lets +onlyGivenNames t1
  clear_value t1
  refine Lines.ite ?_ ?_
  · assumption
  · extract_lets +onlyGivenNames t2
    clear_value t2
    extract_lets +onlyGivenNames t3
    refine Lines.cut (a := t3) ?_ fun _ => ?_
    · unfold t3; clear t3
      apply lines_emit
      apply lines_linkCount
      apply lines_setLink
      assumption
    clear_value t3
    extract_lets +onlyGivenNames t4
    refine Lines.cut (a := t4) ?_ fun _ => ?_
    · unfold t4; clear t4
      refine Lines.ite ?_ ?_
      · apply lines_fireCore
        assumption
      · assumption
    clear_value t4
    refine Lines.of_eq rfl rfl rfl rfl ?_
    assumption

theorem lines_beaconSafe {s₀ : State} (s : State) (b : ℕ) (h0 : Lines s₀ s) :
    Lines s₀ (State.beaconSafe s b) := by
  unfold State.beaconSafe
  extract_lets +onlyGivenNames t1
  clear_value t1
  refine Lines.ite ?_ ?_
  · apply lines_fireCore
    apply lines_setBeacon
    assumption
  · assumption

theorem lines_beaconsSafe {s₀ : State} (s : State) (h0 : Lines s₀ s) :
    Lines s₀ (State.beaconsSafe s) := by
  unfold State.beaconsSafe
  refine Lines.over ?_ ?_
  · intro a1 a2 a3
    apply lines_beaconSafe
    assumption
  · assumption

theorem lines_busesSafe {s₀ : State} (s : State) (test : ℕ → Bool) (h0 : Lines s₀ s) :
    Lines s₀ (State.busesSafe s test) := by
  unfold State.busesSafe
  refine Lines.over ?_ ?_
  · intro a1 a2 a3
    apply lines_busHaltOp
    assumption
  · assumption

theorem lines_tileSafe {s₀ : State} (s : State) (t : ℕ) (h0 : Lines s₀ s) :
    Lines s₀ (State.tileSafe s t) := by
  unfold State.tileSafe
  extract_lets +onlyGivenNames t1
  refine Lines.cut (a := t1) ?_ fun _ => ?_
  · unfold t1; clear t1
    refine Lines.over ?_ ?_
    · intro a1 a2 a3
      apply lines_droverSafe
      assumption
    · assumption
  clear_value t1
  extract_lets +onlyGivenNames t2
  clear_value t2
  apply lines_busesSafe
  assumption

theorem lines_enterSafe {s₀ : State} (s : State) (n : ℕ) (inst : ℕ) (h0 : Lines s₀ s) :
    Lines s₀ (State.enterSafe s n inst) := by
  unfold State.enterSafe
  split
  · refine Lines.ite ?_ ?_
    · apply lines_tileSafe
      assumption
    · assumption
  · refine Lines.ite ?_ ?_
    · refine Lines.over ?_ ?_
      · intro a1 a2 a3
        apply lines_droverSafe
        assumption
      · assumption
    · apply lines_droverSafe
      assumption
  · apply lines_busHaltOp
    assumption
  · apply lines_linkSafe
    assumption
  · apply lines_beaconsSafe
    assumption
  · apply lines_quayHaltOp
    assumption
  · refine Lines.over ?_ ?_
    · intro a4 a5 a6
      refine Lines.ite ?_ ?_
      · apply lines_linkSafe
        assumption
      · assumption
    · assumption
  · apply lines_gateDown
    assumption
  · assumption

theorem lines_enterFatal {s₀ : State} (s : State) (h0 : Lines s₀ s) :
    Lines s₀ (State.enterFatal s) := by
  unfold State.enterFatal
  extract_lets +onlyGivenNames t1
  refine Lines.cut (a := t1) ?_ fun _ => ?_
  · unfold t1; clear t1
    refine Lines.over ?_ ?_
    · intro a1 a2 a3
      apply lines_droverSafe
      assumption
    · assumption
  clear_value t1
  extract_lets +onlyGivenNames t2
  refine Lines.cut (a := t2) ?_ fun _ => ?_
  · unfold t2; clear t2
    apply lines_busesSafe
    assumption
  clear_value t2
  extract_lets +onlyGivenNames t3
  refine Lines.cut (a := t3) ?_ fun _ => ?_
  · unfold t3; clear t3
    refine Lines.over ?_ ?_
    · intro a4 a5 a6
      apply lines_linkSafe
      assumption
    · assumption
  clear_value t3
  refine Lines.over ?_ ?_
  · intro a7 a8 a9
    apply lines_gateDown
    assumption
  · apply lines_quayHaltOp
    apply lines_beaconsSafe
    assumption

theorem lines_fire {s₀ : State} (s : State) (n : ℕ) (inst : ℕ) (detail : optParam ℕ 0) (forced : optParam Bool false) (h0 : Lines s₀ s) :
    Lines s₀ (State.fire s n inst detail forced) := by
  unfold State.fire
  extract_lets +onlyGivenNames t1
  refine Lines.cut (a := t1) ?_ fun _ => ?_
  · unfold t1; clear t1
    assumption
  clear_value t1
  extract_lets +onlyGivenNames t2
  refine Lines.cut (a := t2) ?_ fun _ => ?_
  · unfold t2; clear t2
    apply lines_fireCore
    assumption
  clear_value t2
  extract_lets +onlyGivenNames t3
  extract_lets +onlyGivenNames t4
  refine Lines.cut (a := t4) ?_ fun _ => ?_
  · unfold t4; clear t4
    refine Lines.ite ?_ ?_
    · refine Lines.of_eq rfl rfl rfl rfl ?_
      assumption
    · assumption
  clear_value t4
  extract_lets +onlyGivenNames t5
  refine Lines.cut (a := t5) ?_ fun _ => ?_
  · unfold t5; clear t5
    refine Lines.over ?_ ?_
    · intro a6 a7 a8
      apply lines_enterSafe
      apply lines_keepSafe
      assumption
    · assumption
  clear_value t5
  extract_lets +onlyGivenNames t9
  refine Lines.cut (a := t9) ?_ fun _ => ?_
  · unfold t9; clear t9
    refine Lines.ite ?_ ?_
    · apply lines_enterFatal
      apply lines_keepSafe
      assumption
    · assumption
  clear_value t9
  apply lines_pairBell
  assumption

theorem lines_setSession {s₀ : State} (s : State) (n : ℕ) (x : Session) (h0 : Lines s₀ s) :
    Lines s₀ (State.setSession s n x) := by
  unfold State.setSession
  refine Lines.of_eq rfl rfl rfl rfl ?_
  assumption

theorem lines_endSession {s₀ : State} (s : State) (n : ℕ) (h0 : Lines s₀ s) :
    Lines s₀ (State.endSession s n) := by
  unfold State.endSession
  extract_lets +onlyGivenNames t1
  refine Lines.cut (a := t1) ?_ fun _ => ?_
  · unfold t1; clear t1
    apply lines_setSession
    assumption
  clear_value t1
  refine Lines.of_eq rfl rfl rfl rfl ?_
  assumption

theorem lines_endSessions {s₀ : State} (s : State) (test : Session → Bool) (h0 : Lines s₀ s) :
    Lines s₀ (State.endSessions s test) := by
  unfold State.endSessions
  refine Lines.over ?_ ?_
  · intro a1 a2 a3
    apply lines_endSession
    assumption
  · assumption

theorem lines_loseChannel {s₀ : State} (s : State) (c : ℕ) (cause : ℕ) (h0 : Lines s₀ s) :
    Lines s₀ (State.loseChannel s c cause) := by
  unfold State.loseChannel
  refine Lines.ite ?_ ?_
  · assumption
  · apply lines_fire
    refine Lines.of_eq rfl rfl rfl rfl ?_
    assumption

theorem lines_queueBack {s₀ : State} (s : State) (up : Bool) (L : ℕ) (h0 : Lines s₀ s) :
    Lines s₀ (State.queueBack s up L) := by
  unfold State.queueBack
  refine Lines.ite ?_ ?_
  · assumption
  · refine Lines.ite ?_ ?_
    · assumption
    · refine Lines.of_eq rfl rfl rfl rfl ?_
      assumption

theorem lines_logPoison {s₀ : State} (s : State) (up : Bool) (L : ℕ) (h0 : Lines s₀ s) :
    Lines s₀ (State.logPoison s up L) := by
  unfold State.logPoison
  extract_lets +onlyGivenNames t1
  clear_value t1
  refine Lines.of_eq rfl rfl rfl rfl ?_
  assumption

theorem lines_countFound {s₀ : State} (s : State) (c : ℕ) (h0 : Lines s₀ s) :
    Lines s₀ (State.countFound s c) := by
  unfold State.countFound
  extract_lets +onlyGivenNames t1
  clear_value t1
  extract_lets +onlyGivenNames t2
  extract_lets +onlyGivenNames t3
  refine Lines.cut (a := t3) ?_ fun _ => ?_
  · unfold t3; clear t3
    refine Lines.of_eq rfl rfl rfl rfl ?_
    assumption
  clear_value t3
  refine Lines.ite ?_ ?_
  · apply lines_loseChannel
    assumption
  · assumption

theorem lines_foundBad {s₀ : State} (s : State) (up : Bool) (L : ℕ) (h0 : Lines s₀ s) :
    Lines s₀ (State.foundBad s up L) := by
  unfold State.foundBad
  refine Lines.ite ?_ ?_
  · assumption
  · extract_lets +onlyGivenNames t1
    refine Lines.cut (a := t1) ?_ fun _ => ?_
    · unfold t1; clear t1
      apply lines_logPoison
      apply lines_bumpFld
      apply lines_bumpFld
      assumption
    clear_value t1
    extract_lets +onlyGivenNames t2
    refine Lines.cut (a := t2) ?_ fun _ => ?_
    · unfold t2; clear t2
      apply lines_fire
      assumption
    clear_value t2
    refine Lines.ite ?_ ?_
    · apply lines_countFound
      assumption
    · assumption

theorem lines_foundSingle {s₀ : State} (s : State) (up : Bool) (L : ℕ) (h0 : Lines s₀ s) :
    Lines s₀ (State.foundSingle s up L) := by
  unfold State.foundSingle
  apply lines_fire
  apply lines_queueBack
  apply lines_bumpFld
  assumption

theorem lines_checkLine {s₀ : State} (s : State) (up : Bool) (L : ℕ) (h0 : Lines s₀ s) :
    Lines s₀ (State.checkLine s up L).1 := by
  unfold State.checkLine
  extract_lets +onlyGivenNames t1
  clear_value t1
  extract_lets +onlyGivenNames t2
  refine Lines.cut (a := t2) ?_ fun _ => ?_
  · unfold t2; clear t2
    refine Lines.ite ?_ ?_
    · apply lines_foundSingle
      assumption
    · assumption
  clear_value t2
  split
  · dsimp only
    apply lines_foundBad
    assumption
  · dsimp only
    assumption

theorem lines_heldFull {s₀ : State} (s : State) (up : Bool) (L : ℕ) (h0 : Lines s₀ s) :
    Lines s₀ (State.heldFull s up L) := by
  unfold State.heldFull
  apply lines_fire
  apply lines_bump
  assumption

theorem lines_heldAdd {s₀ : State} (s : State) (up : Bool) (x2 : Held) (h0 : Lines s₀ s) :
    Lines s₀ (State.heldAdd s up x2) := by
  unfold State.heldAdd
  extract_lets +onlyGivenNames t1
  clear_value t1
  refine Lines.ite ?_ ?_
  · apply lines_heldFull
    assumption
  · refine Lines.of_eq rfl rfl rfl rfl ?_
    assumption

theorem lines_countHeld {s₀ : State} (s : State) (up : Bool) (L : ℕ) (mask : ℕ) (h0 : Lines s₀ s) :
    Lines s₀ (State.countHeld s up L mask) := by
  unfold State.countHeld
  refine Lines.ite ?_ ?_
  · assumption
  · apply lines_bump
    assumption

theorem lines_schedRead {s₀ : State} (s : State) (p : Place) (free : Bool) (mask : ℕ) (h0 : Lines s₀ s) :
    Lines s₀ (State.schedRead s p free mask).1 := by
  unfold State.schedRead
  split
  extract_lets +onlyGivenNames t1
  refine Lines.cut (a := t1) ?_ fun _ => ?_
  · unfold t1; clear t1
    apply lines_countHeld
    refine Lines.ofEq (by assumption) ?_
    apply lines_checkLine
    assumption
  clear_value t1
  split
  · dsimp only
    assumption
  · split
    · dsimp only
      assumption
    · split
      · dsimp only
        apply lines_bump
        assumption
      · split
        · dsimp only
          assumption
        · dsimp only
          assumption

theorem lines_refusePoison {s₀ : State} (s : State) (up : Bool) (P : ℕ) (h0 : Lines s₀ s) :
    Lines s₀ (State.refusePoison s up P) := by
  unfold State.refusePoison
  apply lines_fire
  apply lines_bumpFld
  assumption

theorem lines_markHeld {s₀ : State} (s : State) (dst : List Place) (mask : ℕ → ℕ) (h0 : Lines s₀ s) :
    Lines s₀ (State.markHeld s dst mask) := by
  unfold State.markHeld
  extract_lets +onlyGivenNames t1
  clear_value t1
  extract_lets +onlyGivenNames t2
  clear_value t2
  extract_lets +onlyGivenNames t3
  refine Lines.cut (a := t3) ?_ fun _ => ?_
  · unfold t3; clear t3
    refine Lines.over ?_ ?_
    · intro a4 a5 a6
      refine Lines.of_eq rfl rfl rfl rfl ?_
      assumption
    · assumption
  clear_value t3
  refine Lines.over ?_ ?_
  · intro a7 a8 a9
    apply lines_heldAdd
    assumption
  · assumption

theorem lines_setPen {s₀ : State} (s : State) (p : ℕ) (x : Pen) (h0 : Lines s₀ s) :
    Lines s₀ (State.setPen s p x) := by
  unfold State.setPen
  refine Lines.of_eq rfl rfl rfl rfl ?_
  assumption

theorem lines_penRise {s₀ : State} (s : State) (p : ℕ) (h0 : Lines s₀ s) :
    Lines s₀ (State.penRise s p) := by
  unfold State.penRise
  extract_lets +onlyGivenNames t1
  clear_value t1
  extract_lets +onlyGivenNames t2
  clear_value t2
  refine Lines.ite ?_ ?_
  · extract_lets +onlyGivenNames t3
    refine Lines.cut (a := t3) ?_ fun _ => ?_
    · unfold t3; clear t3
      apply lines_fire
      apply lines_setPen
      assumption
    clear_value t3
    extract_lets +onlyGivenNames t4
    clear_value t4
    refine Lines.ite ?_ ?_
    · apply lines_msiSend
      assumption
    · assumption
  · assumption

theorem lines_penFall {s₀ : State} (s : State) (p : ℕ) (h0 : Lines s₀ s) :
    Lines s₀ (State.penFall s p) := by
  unfold State.penFall
  extract_lets +onlyGivenNames t1
  clear_value t1
  refine Lines.ite ?_ ?_
  · apply lines_setPen
    assumption
  · assumption

theorem lines_penCheck {s₀ : State} (s : State) (p : ℕ) (h0 : Lines s₀ s) :
    Lines s₀ (State.penCheck s p).1 := by
  unfold State.penCheck
  split
  · dsimp only
    assumption
  · dsimp only
    apply lines_fire
    apply lines_bumpFld
    apply lines_penFall
    apply lines_setPen
    assumption

theorem lines_penOverflow {s₀ : State} (s : State) (p : ℕ) (h0 : Lines s₀ s) :
    Lines s₀ (State.penOverflow s p) := by
  unfold State.penOverflow
  apply lines_fire
  apply lines_bumpFld
  assumption

theorem lines_penPoke {s₀ : State} (s : State) (p : ℕ) (at_ : ℕ) (w : Word) (h0 : Lines s₀ s) :
    Lines s₀ (State.penPoke s p at_ w) := by
  unfold State.penPoke
  refine Lines.of_eq rfl rfl rfl rfl ?_
  assumption

theorem lines_penWord {s₀ : State} (s : State) (p : ℕ) (w : Word) (h0 : Lines s₀ s) :
    Lines s₀ (State.penWord s p w) := by
  unfold State.penWord
  extract_lets +onlyGivenNames t1
  clear_value t1
  extract_lets +onlyGivenNames t2
  clear_value t2
  apply lines_setPen
  apply lines_penPoke
  assumption

theorem lines_penStream {s₀ : State} (s : State) (p : ℕ) (w : Word) (h0 : Lines s₀ s) :
    Lines s₀ (State.penStream s p w).1 := by
  unfold State.penStream
  extract_lets +onlyGivenNames t1
  clear_value t1
  extract_lets +onlyGivenNames t2
  clear_value t2
  split
  · dsimp only
    apply lines_setPen
    assumption
  · split
    · dsimp only
      apply lines_penOverflow
      apply lines_setPen
      assumption
    · extract_lets +onlyGivenNames t3
      refine Lines.cut (a := t3) ?_ fun _ => ?_
      · unfold t3; clear t3
        apply lines_penWord
        assumption
      clear_value t3
      extract_lets +onlyGivenNames t4
      clear_value t4
      dsimp only
      refine Lines.ite ?_ ?_
      · apply lines_penRise
        apply lines_setPen
        assumption
      · assumption

theorem lines_penPacketWord {s₀ : State} (s : State) (p : ℕ) (w : Word) (h0 : Lines s₀ s) :
    Lines s₀ (State.penPacketWord s p w).1 := by
  unfold State.penPacketWord
  extract_lets +onlyGivenNames t1
  clear_value t1
  extract_lets +onlyGivenNames t2
  clear_value t2
  split
  · dsimp only
    assumption
  · extract_lets +onlyGivenNames t3
    clear_value t3
    split
    · dsimp only
      apply lines_penOverflow
      apply lines_setPen
      assumption
    · dsimp only
      apply lines_penWord
      apply lines_setPen
      assumption

theorem lines_penWordIn {s₀ : State} (s : State) (p : ℕ) (w : Word) (h0 : Lines s₀ s) :
    Lines s₀ (State.penWordIn s p w).1 := by
  unfold State.penWordIn
  extract_lets +onlyGivenNames t1
  clear_value t1
  split
  · dsimp only
    apply lines_penOverflow
    apply lines_setPen
    assumption
  · split
    · apply lines_penPacketWord
      assumption
    · apply lines_penStream
      assumption

theorem lines_penWordsIn {s₀ : State} (s : State) (p : ℕ) (x2 : List Word) (h0 : Lines s₀ s) :
    Lines s₀ (State.penWordsIn s p x2).1 := by
  induction x2 generalizing s with
  | nil =>
    unfold State.penWordsIn
    dsimp only
    assumption
  | cons a l ih =>
    unfold State.penWordsIn
    split
    split
    dsimp only
    refine Lines.ofEq (by assumption) ?_
    apply ih
    refine Lines.ofEq (by assumption) ?_
    apply lines_penWordIn
    assumption

theorem lines_penPushLost {s₀ : State} (s : State) (p : ℕ) (ws : List Word) (h0 : Lines s₀ s) :
    Lines s₀ (State.penPushLost s p ws).1 := by
  unfold State.penPushLost
  split
  · dsimp only
    refine Lines.ofEq (by assumption) ?_
    apply lines_penCheck
    assumption
  · split
    · dsimp only
      refine Lines.ofEq (by assumption) ?_
      apply lines_penCheck
      assumption
    · split
      · split
        · dsimp only
          refine Lines.ofEq (by assumption) ?_
          apply lines_penCheck
          assumption
        · extract_lets +onlyGivenNames t1
          refine Lines.cut (a := t1) ?_ fun _ => ?_
          · unfold t1; clear t1
            refine Lines.ite ?_ ?_
            · refine Lines.ofEq (by assumption) ?_
              apply lines_penCheck
              assumption
            · apply lines_setPen
              refine Lines.ofEq (by assumption) ?_
              apply lines_penCheck
              assumption
          clear_value t1
          dsimp only
          apply lines_penOverflow
          assumption
      · apply lines_penWordsIn
        refine Lines.ofEq (by assumption) ?_
        apply lines_penCheck
        assumption

theorem lines_penPush {s₀ : State} (s : State) (p : ℕ) (ws : List Word) (h0 : Lines s₀ s) :
    Lines s₀ (State.penPush s p ws) := by
  unfold State.penPush
  apply lines_penPushLost
  assumption

theorem lines_penSeal {s₀ : State} (s : State) (p : ℕ) (k : ℕ) (h0 : Lines s₀ s) :
    Lines s₀ (State.penSeal s p k) := by
  unfold State.penSeal
  extract_lets +onlyGivenNames t1
  clear_value t1
  extract_lets +onlyGivenNames t2
  clear_value t2
  extract_lets +onlyGivenNames t3
  clear_value t3
  extract_lets +onlyGivenNames t4
  refine Lines.cut (a := t4) ?_ fun _ => ?_
  · unfold t4; clear t4
    refine Lines.over ?_ ?_
    · intro a1 a2 a3
      apply lines_penPoke
      assumption
    · assumption
  clear_value t4
  extract_lets +onlyGivenNames t5
  clear_value t5
  apply lines_penRise
  apply lines_setPen
  assumption

theorem lines_penCommit {s₀ : State} (s : State) (p : ℕ) (h0 : Lines s₀ s) :
    Lines s₀ (State.penCommit s p) := by
  unfold State.penCommit
  split
  extract_lets +onlyGivenNames t1
  clear_value t1
  refine Lines.ite ?_ ?_
  · refine Lines.ofEq (by assumption) ?_
    apply lines_penCheck
    assumption
  · refine Lines.ite ?_ ?_
    · apply lines_setPen
      refine Lines.ofEq (by assumption) ?_
      apply lines_penCheck
      assumption
    · extract_lets +onlyGivenNames t2
      clear_value t2
      refine Lines.ite ?_ ?_
      · apply lines_setPen
        refine Lines.ofEq (by assumption) ?_
        apply lines_penCheck
        assumption
      · apply lines_penSeal
        refine Lines.ofEq (by assumption) ?_
        apply lines_penCheck
        assumption

theorem lines_penBad {s₀ : State} (s : State) (p : ℕ) (h0 : Lines s₀ s) :
    Lines s₀ (State.penBad s p) := by
  unfold State.penBad
  dsimp only
  refine Lines.ite ?_ ?_
  · apply lines_penCheck
    assumption
  · refine Lines.ite ?_ ?_
    · apply lines_bumpFld
      apply lines_setPen
      apply lines_penCheck
      assumption
    · apply lines_penCheck
      assumption

theorem lines_penCutShort {s₀ : State} (s : State) (p : ℕ) (h0 : Lines s₀ s) :
    Lines s₀ (State.penCutShort s p) := by
  unfold State.penCutShort
  extract_lets +onlyGivenNames t1
  clear_value t1
  refine Lines.ite ?_ ?_
  · apply lines_setPen
    assumption
  · apply lines_penBad
    assumption

theorem lines_penTake {s₀ : State} (s : State) (p : ℕ) (h0 : Lines s₀ s) :
    Lines s₀ (State.penTake s p).1 := by
  unfold State.penTake
  extract_lets +onlyGivenNames t1
  clear_value t1
  extract_lets +onlyGivenNames t2
  clear_value t2
  split
  · assumption
  · extract_lets +onlyGivenNames t3
    clear_value t3
    apply lines_setPen
    assumption

theorem lines_penPositions {s₀ : State} (s : State) (p : ℕ) (x2 : ℕ) (h0 : Lines s₀ s) :
    Lines s₀ (State.penPositions s p x2).1 := by
  induction x2 generalizing s with
  | zero =>
    unfold State.penPositions
    assumption
  | succ n ih =>
    unfold State.penPositions
    extract_lets +onlyGivenNames t1
    clear_value t1
    dsimp only
    apply ih
    split
    · assumption
    · split
      · apply lines_bump
        assumption
      · split
        · refine Lines.ofEq (by assumption) ?_
          apply lines_penTake
          assumption
        · apply lines_bump
          refine Lines.ofEq (by assumption) ?_
          apply lines_penTake
          assumption

theorem lines_penReadN {s₀ : State} (s : State) (p : ℕ) (n : ℕ) (h0 : Lines s₀ s) :
    Lines s₀ (State.penReadN s p n).1 := by
  unfold State.penReadN
  dsimp only
  apply lines_penFall
  apply lines_penPositions
  apply lines_penCheck
  assumption

theorem lines_penPacketIn {s₀ : State} (s : State) (p : ℕ) (ws : List Word) (h0 : Lines s₀ s) :
    Lines s₀ (State.penPacketIn s p ws).1 := by
  unfold State.penPacketIn
  split
  dsimp only
  apply lines_penCommit
  refine Lines.ofEq (by assumption) ?_
  apply lines_penPushLost
  assumption

theorem lines_setQueue {s₀ : State} (s : State) (c : ℕ) (l : List Access) (h0 : Lines s₀ s) :
    Lines s₀ (State.setQueue s c l) := by
  unfold State.setQueue
  refine Lines.of_eq rfl rfl rfl rfl ?_
  assumption

theorem lines_wakeTile {s₀ : State} (s : State) (t : ℕ) (off : ℕ) (h0 : Lines s₀ s) :
    Lines s₀ (State.wakeTile s t off) := by
  unfold State.wakeTile
  extract_lets +onlyGivenNames t1
  clear_value t1
  refine Lines.of_eq rfl rfl rfl rfl ?_
  assumption

theorem lines_reachTile {s₀ : State} (s : State) (l : List LStage) (off : ℕ) (h0 : Lines s₀ s) :
    Lines s₀ (State.reachTile s l off) := by
  unfold State.reachTile
  split
  · assumption
  · split
    · assumption
    · refine Lines.ite ?_ ?_
      · assumption
      · extract_lets +onlyGivenNames t1
        refine Lines.cut (a := t1) ?_ fun _ => ?_
        · unfold t1; clear t1
          apply lines_wakeTile
          assumption
        clear_value t1
        refine Lines.of_eq rfl rfl rfl rfl ?_
        assumption

theorem lines_admit {s₀ : State} (s : State) (c : ℕ) (a : Access) (h0 : Lines s₀ s) :
    Lines s₀ (State.takeAccess s c a) := by
  unfold State.takeAccess
  refine Lines.ite ?_ ?_
  · apply lines_reachTile
    apply lines_setQueue
    assumption
  · refine Lines.of_eq rfl rfl rfl rfl ?_
    assumption

theorem lines_takeAccess {s₀ : State} (s : State) (c : ℕ) (a : Access) (h0 : Lines s₀ s) :
    Lines s₀ (State.takeAccess s c a) := by
  unfold State.takeAccess
  refine Lines.ite ?_ ?_
  · apply lines_reachTile
    apply lines_setQueue
    assumption
  · refine Lines.of_eq rfl rfl rfl rfl ?_
    assumption

theorem lines_enter {s₀ : State} (s : State) (c : ℕ) (stages : List LStage) (line : optParam (Option (Bool × ℕ)) none) (carried : optParam Bool false) (cell : optParam (Option (ℕ × List Word)) none) (h0 : Lines s₀ s) :
    Lines s₀ (State.enter s c stages line carried cell) := by
  unfold State.enter
  apply lines_takeAccess
  assumption

theorem lines_enterPen {s₀ : State} (s : State) (c : ℕ) (p : ℕ) (n : ℕ) (into : Bool) (h0 : Lines s₀ s) :
    Lines s₀ (State.enterPen s c p n into) := by
  unfold State.enterPen
  refine Lines.over ?_ ?_
  · intro a1 a2 a3
    apply lines_enter
    assumption
  · assumption

theorem lines_countNull {s₀ : State} (s : State) (sl : ℕ) (cause : ℕ) (h0 : Lines s₀ s) :
    Lines s₀ (State.countNull s sl cause) := by
  unfold State.countNull
  extract_lets +onlyGivenNames t1
  refine Lines.cut (a := t1) ?_ fun _ => ?_
  · unfold t1; clear t1
    apply lines_bump
    assumption
  clear_value t1
  refine Lines.ite ?_ ?_
  · apply lines_fire
    assumption
  · assumption

theorem lines_tableEcc {s₀ : State} (s : State) (sl : ℕ) (l : List Ecc) (h0 : Lines s₀ s) :
    Lines s₀ (State.tableEcc s sl l) := by
  unfold State.tableEcc
  extract_lets +onlyGivenNames t1
  refine Lines.cut (a := t1) ?_ fun _ => ?_
  · unfold t1; clear t1
    refine Lines.over ?_ ?_
    · intro a1 a2 a3
      refine Lines.ite ?_ ?_
      · apply lines_bumpFld
        assumption
      · assumption
    · assumption
  clear_value t1
  refine Lines.ite ?_ ?_
  · apply lines_fire
    apply lines_bumpFld
    assumption
  · assumption

theorem lines_drvRegWrite {s₀ : State} (s : State) (d : ℕ) (w : ℕ) (v : Word) (at_ : ℕ) (h0 : Lines s₀ s) :
    Lines s₀ (State.drvRegWrite s d w v at_) := by
  unfold State.drvRegWrite
  extract_lets +onlyGivenNames t1
  clear_value t1
  extract_lets +onlyGivenNames t2
  clear_value t2
  apply lines_setDrover
  assumption

theorem lines_drvRegTaken {s₀ : State} (s : State) (d : ℕ) (w : ℕ) (r : ℕ) (h0 : Lines s₀ s) :
    Lines s₀ (State.drvRegTaken s d w r) := by
  unfold State.drvRegTaken
  extract_lets +onlyGivenNames t1
  clear_value t1
  extract_lets +onlyGivenNames t2
  clear_value t2
  refine Lines.ite ?_ ?_
  · apply lines_setDrover
    assumption
  · assumption

theorem lines_loadDout {s₀ : State} (s : State) (b : ℕ) (x2 : ℕ) (w : Word) (h0 : Lines s₀ s) :
    Lines s₀ (State.loadDout s b x2 w) := by
  unfold State.loadDout
  extract_lets +onlyGivenNames t1
  clear_value t1
  refine Lines.ite ?_ ?_
  · assumption
  · refine Lines.ite ?_ ?_
    · refine Lines.ite ?_ ?_
      · assumption
      · extract_lets +onlyGivenNames t2
        refine Lines.cut (a := t2) ?_ fun _ => ?_
        · unfold t2; clear t2
          apply lines_snapHold
          assumption
        clear_value t2
        refine Lines.of_eq rfl rfl rfl rfl ?_
        assumption
    · extract_lets +onlyGivenNames t3
      clear_value t3
      refine Lines.of_eq rfl rfl rfl rfl ?_
      assumption

theorem lines_addPart {s₀ : State} (s : State) (p : DigestPart) (h0 : Lines s₀ s) :
    Lines s₀ (State.addPart s p) := by
  unfold State.addPart
  extract_lets +onlyGivenNames t1
  extract_lets +onlyGivenNames t2
  refine Lines.cut (a := t2) ?_ fun _ => ?_
  · unfold t2; clear t2
    refine Lines.of_eq rfl rfl rfl rfl ?_
    assumption
  clear_value t2
  refine Lines.ite ?_ ?_
  · assumption
  · extract_lets +onlyGivenNames t3
    clear_value t3
    refine Lines.of_eq rfl rfl rfl rfl ?_
    assumption

theorem lines_busRelease {s₀ : State} (s : State) (tile : ℕ) (c : ℕ) (b : ℕ) (marked : Bool) (h0 : Lines s₀ s) :
    Lines s₀ (State.busRelease s tile c b marked) := by
  unfold State.busRelease
  extract_lets +onlyGivenNames t1
  clear_value t1
  refine Lines.ite ?_ ?_
  · apply lines_busCount
    assumption
  · refine Lines.ite ?_ ?_
    · extract_lets +onlyGivenNames t2
      refine Lines.cut (a := t2) ?_ fun _ => ?_
      · unfold t2; clear t2
        refine Lines.ite ?_ ?_
        · apply lines_fire
          apply lines_bump
          assumption
        · assumption
      clear_value t2
      apply lines_fire
      apply lines_busCount
      assumption
    · apply lines_setChan
      assumption

theorem lines_busMeet {s₀ : State} (s : State) (c : ℕ) (b : ℕ) (h0 : Lines s₀ s) :
    Lines s₀ (State.busMeet s c b) := by
  unfold State.busMeet
  extract_lets +onlyGivenNames t1
  clear_value t1
  split
  · apply lines_fire
    apply lines_busCount
    apply lines_setChan
    assumption
  · apply lines_fire
    apply lines_withdraw
    assumption
  · assumption

theorem lines_cellOut {s₀ : State} (s : State) (l : ℕ) (w : List Word) (ctx : ℕ) (place : List ℕ) (h0 : Lines s₀ s) :
    Lines s₀ (State.cellOut s l w ctx place) := by
  unfold State.cellOut
  extract_lets +onlyGivenNames t1
  clear_value t1
  extract_lets +onlyGivenNames t2
  clear_value t2
  split
  extract_lets +onlyGivenNames t3
  refine Lines.cut (a := t3) ?_ fun _ => ?_
  · unfold t3; clear t3
    apply lines_emit
    assumption
  clear_value t3
  refine Lines.ite ?_ ?_
  · apply lines_setLink
    assumption
  · assumption

theorem lines_countWrap {s₀ : State} (s : State) (l : ℕ) (h0 : Lines s₀ s) :
    Lines s₀ (State.countWrap s l) := by
  unfold State.countWrap
  extract_lets +onlyGivenNames t1
  refine Lines.cut (a := t1) ?_ fun _ => ?_
  · unfold t1; clear t1
    apply lines_linkCount
    assumption
  clear_value t1
  refine Lines.ite ?_ ?_
  · assumption
  · apply lines_fire
    refine Lines.of_eq rfl rfl rfl rfl ?_
    assumption

theorem lines_ownOut {s₀ : State} (s : State) (c : ℕ) (l : ℕ) (w : List Word) (h0 : Lines s₀ s) :
    Lines s₀ (State.ownOut s c l w) := by
  unfold State.ownOut
  apply lines_enter
  assumption

theorem lines_transitPut {s₀ : State} (s : State) (l : ℕ) (w : List Word) (h0 : Lines s₀ s) :
    Lines s₀ (State.transitPut s l w) := by
  unfold State.transitPut
  extract_lets +onlyGivenNames t1
  clear_value t1
  refine Lines.ite ?_ ?_
  · apply lines_fire
    apply lines_linkCount
    assumption
  · apply lines_setLink
    assumption

theorem lines_sendDir {s₀ : State} (s : State) (dir : ℕ) (w : List Word) (h0 : Lines s₀ s) :
    Lines s₀ (State.sendDir s dir w) := by
  unfold State.sendDir
  extract_lets +onlyGivenNames t1
  clear_value t1
  extract_lets +onlyGivenNames t2
  clear_value t2
  refine Lines.ite ?_ ?_
  · apply lines_ownOut
    assumption
  · refine Lines.ite ?_ ?_
    · apply lines_ownOut
      apply lines_countWrap
      assumption
    · apply lines_linkCount
      assumption

theorem lines_wrapCell {s₀ : State} (s : State) (l : ℕ) (w : List Word) (put : State → List Word → State)
    (hp : ∀ u v, Lines s₀ u → Lines s₀ (put u v)) (h0 : Lines s₀ s) : Lines s₀ (State.wrapCell s l w put) := by
  unfold State.wrapCell
  refine Lines.ite ?_ ?_
  · apply lines_linkCount
    assumption
  · apply hp
    apply lines_countWrap
    assumption

theorem lines_loseTunnel {s₀ : State} (s : State) (l : ℕ) (node : ℕ → Bool) (h0 : Lines s₀ s) :
    Lines s₀ (State.loseTunnel s l node) := by
  unfold State.loseTunnel
  extract_lets +onlyGivenNames t1
  clear_value t1
  extract_lets +onlyGivenNames t2
  clear_value t2
  extract_lets +onlyGivenNames t3
  clear_value t3
  extract_lets +onlyGivenNames t4
  refine Lines.cut (a := t4) ?_ fun _ => ?_
  · unfold t4; clear t4
    apply lines_setQueue
    assumption
  clear_value t4
  extract_lets +onlyGivenNames t5
  extract_lets +onlyGivenNames t6
  refine Lines.cut (a := t6) ?_ fun _ => ?_
  · unfold t6; clear t6
    refine Lines.of_eq rfl rfl rfl rfl ?_
    assumption
  clear_value t6
  refine Lines.over ?_ ?_
  · intro a7 a8 a9
    apply lines_bumpFld
    assumption
  · assumption

theorem lines_wrapWaiting {s₀ : State} (s : State) (l : ℕ) (h0 : Lines s₀ s) :
    Lines s₀ (State.wrapWaiting s l) := by
  unfold State.wrapWaiting
  refine Lines.ite ?_ ?_
  · assumption
  · extract_lets +onlyGivenNames t1
    refine Lines.cut (a := t1) ?_ fun _ => ?_
    · unfold t1; clear t1
      apply lines_loseTunnel
      assumption
    clear_value t1
    extract_lets +onlyGivenNames t2
    clear_value t2
    extract_lets +onlyGivenNames t3
    clear_value t3
    extract_lets +onlyGivenNames t4
    clear_value t4
    extract_lets +onlyGivenNames t5
    clear_value t5
    extract_lets +onlyGivenNames t6
    refine Lines.cut (a := t6) ?_ fun _ => ?_
    · unfold t6; clear t6
      apply lines_setLink
      assumption
    clear_value t6
    extract_lets +onlyGivenNames t7
    refine Lines.cut (a := t7) ?_ fun _ => ?_
    · unfold t7; clear t7
      apply lines_setQueue
      assumption
    clear_value t7
    extract_lets +onlyGivenNames t8
    extract_lets +onlyGivenNames t9
    refine Lines.cut (a := t9) ?_ fun _ => ?_
    · unfold t9; clear t9
      refine Lines.of_eq rfl rfl rfl rfl ?_
      assumption
    clear_value t9
    extract_lets +onlyGivenNames t10
    refine Lines.cut (a := t10) ?_ fun _ => ?_
    · unfold t10; clear t10
      refine Lines.over ?_ ?_
      · intro a11 a12 a13
        apply lines_wrapCell
        · intro a14 a15 a16
          apply lines_transitPut
          assumption
        · assumption
      · assumption
    clear_value t10
    refine Lines.over ?_ ?_
    · intro a17 a18 a19
      split
      · apply lines_wrapCell
        · intro a20 a21 a22
          apply lines_ownOut
          assumption
        · assumption
      · assumption
    · assumption

theorem lines_nextSeq {s₀ : State} (s : State) (kind : ℕ) (dir : ℕ) (h0 : Lines s₀ s) :
    Lines s₀ (State.nextSeq s kind dir).1 := by
  unfold State.nextSeq
  extract_lets +onlyGivenNames t1
  clear_value t1
  extract_lets +onlyGivenNames t2
  clear_value t2
  dsimp only
  refine Lines.of_eq rfl rfl rfl rfl ?_
  assumption

theorem lines_sendCell {s₀ : State} (s : State) (dir : ℕ) (kind : ℕ) (dest : Option ℕ) (pay : List ℕ) (h0 : Lines s₀ s) :
    Lines s₀ (State.sendCell s dir kind dest pay) := by
  unfold State.sendCell
  split
  apply lines_sendDir
  refine Lines.ofEq (by assumption) ?_
  apply lines_nextSeq
  assumption

theorem lines_broadcast {s₀ : State} (s : State) (kind : ℕ) (pay : List ℕ) (h0 : Lines s₀ s) :
    Lines s₀ (State.broadcast s kind pay) := by
  unfold State.broadcast
  apply lines_sendCell
  apply lines_sendCell
  assumption

theorem lines_repath {s₀ : State} (s : State) (h0 : Lines s₀ s) :
    Lines s₀ (State.repath s) := by
  unfold State.repath
  extract_lets +onlyGivenNames t1
  clear_value t1
  refine Lines.over ?_ ?_
  · intro a2 a3 a4
    extract_lets +onlyGivenNames t5
    clear_value t5
    extract_lets +onlyGivenNames t6
    clear_value t6
    extract_lets +onlyGivenNames t7
    extract_lets +onlyGivenNames t8
    refine Lines.cut (a := t8) ?_ fun _ => ?_
    · unfold t8; clear t8
      refine Lines.of_eq rfl rfl rfl rfl ?_
      assumption
    clear_value t8
    refine Lines.ite ?_ ?_
    · assumption
    · extract_lets +onlyGivenNames t9
      clear_value t9
      extract_lets +onlyGivenNames t10
      refine Lines.cut (a := t10) ?_ fun _ => ?_
      · unfold t10; clear t10
        refine Lines.ite ?_ ?_
        · apply lines_loseTunnel
          assumption
        · assumption
      clear_value t10
      extract_lets +onlyGivenNames t11
      refine Lines.cut (a := t11) ?_ fun _ => ?_
      · unfold t11; clear t11
        refine Lines.ite ?_ ?_
        · apply lines_loseTunnel
          assumption
        · assumption
      clear_value t11
      extract_lets +onlyGivenNames t12
      refine Lines.cut (a := t12) ?_ fun _ => ?_
      · unfold t12; clear t12
        refine Lines.ite ?_ ?_
        · apply lines_endSessions
          assumption
        · assumption
      clear_value t12
      apply lines_fire
      apply lines_bumpFld
      refine Lines.of_eq rfl rfl rfl rfl ?_
      assumption
  · assumption

theorem lines_syntonise {s₀ : State} (s : State) (h0 : Lines s₀ s) :
    Lines s₀ (State.syntonise s) := by
  unfold State.syntonise
  extract_lets +onlyGivenNames t1
  clear_value t1
  refine Lines.ite ?_ ?_
  · assumption
  · apply lines_fire
    refine Lines.of_eq rfl rfl rfl rfl ?_
    assumption

theorem lines_seenEpoch {s₀ : State} (s : State) (c : ℕ) (h0 : Lines s₀ s) :
    Lines s₀ (State.seenEpoch s c) := by
  unfold State.seenEpoch
  refine Lines.of_eq rfl rfl rfl rfl ?_
  assumption

theorem lines_setClaim {s₀ : State} (s : State) (c : ℕ) (h0 : Lines s₀ s) :
    Lines s₀ (State.setClaim s c) := by
  unfold State.setClaim
  apply lines_seenEpoch
  refine Lines.of_eq rfl rfl rfl rfl ?_
  assumption

theorem lines_setRecord {s₀ : State} (s : State) (v : ℕ) (src : ℕ) (h0 : Lines s₀ s) :
    Lines s₀ (State.setRecord s v src) := by
  unfold State.setRecord
  extract_lets +onlyGivenNames t1
  clear_value t1
  extract_lets +onlyGivenNames t2
  clear_value t2
  extract_lets +onlyGivenNames t3
  clear_value t3
  extract_lets +onlyGivenNames t4
  extract_lets +onlyGivenNames t5
  refine Lines.cut (a := t5) ?_ fun _ => ?_
  · unfold t5; clear t5
    apply lines_seenEpoch
    refine Lines.of_eq rfl rfl rfl rfl ?_
    assumption
  clear_value t5
  extract_lets +onlyGivenNames t6
  clear_value t6
  extract_lets +onlyGivenNames t7
  extract_lets +onlyGivenNames t8
  refine Lines.cut (a := t8) ?_ fun _ => ?_
  · unfold t8; clear t8
    apply lines_setClaim
    assumption
  clear_value t8
  extract_lets +onlyGivenNames t9
  extract_lets +onlyGivenNames t10
  refine Lines.cut (a := t10) ?_ fun _ => ?_
  · unfold t10; clear t10
    split
    · refine Lines.ite ?_ ?_
      · refine Lines.ite ?_ ?_
        · assumption
        · refine Lines.of_eq rfl rfl rfl rfl ?_
          assumption
      · refine Lines.ite ?_ ?_
        · apply lines_setClaim
          assumption
        · assumption
    · refine Lines.ite ?_ ?_
      · split
        · refine Lines.ite ?_ ?_
          · refine Lines.of_eq rfl rfl rfl rfl ?_
            assumption
          · assumption
        · assumption
      · refine Lines.ite ?_ ?_
        · refine Lines.of_eq rfl rfl rfl rfl ?_
          assumption
        · assumption
    · assumption
  clear_value t10
  apply lines_pairBell
  assumption

theorem lines_pairLinkLost {s₀ : State} (s : State) (h0 : Lines s₀ s) :
    Lines s₀ (State.pairLinkLost s) := by
  unfold State.pairLinkLost
  refine Lines.ite ?_ ?_
  · apply lines_setRecord
    assumption
  · assumption

theorem lines_reportLink {s₀ : State} (s : State) (l : ℕ) (up : Bool) (h0 : Lines s₀ s) :
    Lines s₀ (State.reportLink s l up) := by
  unfold State.reportLink
  extract_lets +onlyGivenNames t1
  clear_value t1
  extract_lets +onlyGivenNames t2
  extract_lets +onlyGivenNames t3
  refine Lines.cut (a := t3) ?_ fun _ => ?_
  · unfold t3; clear t3
    refine Lines.of_eq rfl rfl rfl rfl ?_
    assumption
  clear_value t3
  extract_lets +onlyGivenNames t4
  refine Lines.cut (a := t4) ?_ fun _ => ?_
  · unfold t4; clear t4
    refine Lines.ite ?_ ?_
    · assumption
    · apply lines_wrapWaiting
      assumption
  clear_value t4
  extract_lets +onlyGivenNames t5
  refine Lines.cut (a := t5) ?_ fun _ => ?_
  · unfold t5; clear t5
    apply lines_syntonise
    apply lines_repath
    apply lines_broadcast
    assumption
  clear_value t5
  refine Lines.ite ?_ ?_
  · apply lines_pairLinkLost
    assumption
  · assumption

theorem lines_reportTurns {s₀ : State} (s : State) (h0 : Lines s₀ s) :
    Lines s₀ (State.reportTurns s) := by
  unfold State.reportTurns
  refine Lines.over ?_ ?_
  · intro a1 a2 a3
    apply lines_reportLink
    assumption
  · refine Lines.of_eq rfl rfl rfl rfl ?_
    assumption

theorem lines_depart {s₀ : State} (s : State) (l : ℕ) (stream : ℕ) (w : List Word) (place : List ℕ) (h0 : Lines s₀ s) :
    Lines s₀ (State.depart s l stream w place) := by
  unfold State.depart
  refine Lines.ite ?_ ?_
  · apply lines_linkCount
    apply lines_cellOut
    assumption
  · apply lines_linkCount
    assumption

theorem lines_rxDeliver {s₀ : State} (s : State) (n : ℕ) (f : ℕ) (h0 : Lines s₀ s) :
    Lines s₀ (State.rxDeliver s n f).1 := by
  unfold State.rxDeliver
  extract_lets +onlyGivenNames t1
  clear_value t1
  split
  split
  · dsimp only
    assumption
  · dsimp only
    apply lines_bump
    assumption

theorem lines_setPort {s₀ : State} (s : State) (p : ℕ) (x : Port) (h0 : Lines s₀ s) :
    Lines s₀ (State.setPort s p x) := by
  unfold State.setPort
  refine Lines.of_eq rfl rfl rfl rfl ?_
  assumption

theorem lines_portCount {s₀ : State} (s : State) (p : ℕ) (k : ℕ) (h0 : Lines s₀ s) :
    Lines s₀ (State.portCount s p k) := by
  unfold State.portCount
  refine Lines.ite ?_ ?_
  · apply lines_bump
    assumption
  · assumption

theorem lines_setBq {s₀ : State} (s : State) (p : ℕ) (tc : ℕ) (l : List QFrame) (h0 : Lines s₀ s) :
    Lines s₀ (State.setBq s p tc l) := by
  unfold State.setBq
  refine Lines.of_eq rfl rfl rfl rfl ?_
  assumption

theorem lines_noteFree {s₀ : State} (s : State) (h0 : Lines s₀ s) :
    Lines s₀ (State.noteFree s) := by
  unfold State.noteFree
  refine Lines.of_eq rfl rfl rfl rfl ?_
  assumption

theorem lines_setSchedQ {s₀ : State} (s : State) (p : ℕ) (l : List SchedFrame) (h0 : Lines s₀ s) :
    Lines s₀ (State.setSchedQ s p l) := by
  unfold State.setSchedQ
  refine Lines.of_eq rfl rfl rfl rfl ?_
  assumption

theorem lines_recToPen {s₀ : State} (s : State) (p : ℕ) (ws : List Word) (h0 : Lines s₀ s) :
    Lines s₀ (State.recToPen s p ws).1 := by
  unfold State.recToPen
  split
  · dsimp only
    assumption
  · apply lines_penPacketIn
    apply lines_enterPen
    assumption

theorem lines_redAdmit {s₀ : State} (s : State) (p : ℕ) (tc : ℕ) (colour : ℕ) (h0 : Lines s₀ s) :
    Lines s₀ (State.redAdmit s p tc colour).1 := by
  unfold State.redAdmit
  extract_lets +onlyGivenNames t1
  clear_value t1
  extract_lets +onlyGivenNames t2
  clear_value t2
  extract_lets +onlyGivenNames t3
  clear_value t3
  extract_lets +onlyGivenNames t4
  clear_value t4
  extract_lets +onlyGivenNames t5
  clear_value t5
  extract_lets +onlyGivenNames t6
  clear_value t6
  extract_lets +onlyGivenNames t7
  refine Lines.cut (a := t7) ?_ fun _ => ?_
  · unfold t7; clear t7
    refine Lines.of_eq rfl rfl rfl rfl ?_
    assumption
  clear_value t7
  split
  · assumption
  · split
    · assumption
    · split
      · assumption
      · dsimp only
        apply lines_draw
        assumption

theorem lines_enqueue {s₀ : State} (s : State) (p : ℕ) (f : QFrame) (h0 : Lines s₀ s) :
    Lines s₀ (State.enqueue s p f).1 := by
  unfold State.enqueue
  split
  · dsimp only
    apply lines_portCount
    assumption
  · split
    split
    · dsimp only
      apply lines_noteFree
      apply lines_setBq
      refine Lines.ofEq (by assumption) ?_
      apply lines_redAdmit
      assumption
    · dsimp only
      apply lines_portCount
      refine Lines.ofEq (by assumption) ?_
      apply lines_redAdmit
      assumption

theorem lines_newCopy {s₀ : State} (s : State) (f : QFrame) (h0 : Lines s₀ s) :
    Lines s₀ (State.newCopy s f).1 := by
  unfold State.newCopy
  refine Lines.of_eq rfl rfl rfl rfl ?_
  assumption

theorem lines_mirror {s₀ : State} (s : State) (k : ℕ) (f : QFrame) (h0 : Lines s₀ s) :
    Lines s₀ (State.mirror s k f) := by
  unfold State.mirror
  extract_lets +onlyGivenNames t1
  clear_value t1
  refine Lines.ite ?_ ?_
  · apply lines_portCount
    assumption
  · split
    split
    · apply lines_bump
      refine Lines.ofEq (by assumption) ?_
      apply lines_enqueue
      refine Lines.ofEq (by assumption) ?_
      apply lines_newCopy
      assumption
    · refine Lines.ite ?_ ?_
      · apply lines_portCount
        refine Lines.ofEq (by assumption) ?_
        apply lines_enqueue
        refine Lines.ofEq (by assumption) ?_
        apply lines_newCopy
        assumption
      · refine Lines.ofEq (by assumption) ?_
        apply lines_enqueue
        refine Lines.ofEq (by assumption) ?_
        apply lines_newCopy
        assumption

theorem lines_sample {s₀ : State} (s : State) (k : ℕ) (f : QFrame) (port : ℕ) (dir : ℕ) (t : ℕ) (h0 : Lines s₀ s) :
    Lines s₀ (State.sample s k f port dir t) := by
  unfold State.sample
  extract_lets +onlyGivenNames t1
  clear_value t1
  refine Lines.ite ?_ ?_
  · extract_lets +onlyGivenNames t2
    extract_lets +onlyGivenNames t3
    refine Lines.cut (a := t3) ?_ fun _ => ?_
    · unfold t3; clear t3
      refine Lines.of_eq rfl rfl rfl rfl ?_
      assumption
    clear_value t3
    split
    · refine Lines.ofEq (by assumption) ?_
      apply lines_recToPen
      assumption
    · apply lines_bump
      refine Lines.ofEq (by assumption) ?_
      apply lines_recToPen
      assumption
  · refine Lines.of_eq rfl rfl rfl rfl ?_
    assumption

theorem lines_sessions {s₀ : State} (s : State) (f : QFrame) (port : ℕ) (dir : ℕ) (t : ℕ) (rule : Option ℕ) (h0 : Lines s₀ s) :
    Lines s₀ (State.sessions s f port dir t rule) := by
  unfold State.sessions
  refine Lines.over ?_ ?_
  · intro a1 a2 a3
    extract_lets +onlyGivenNames t1
    clear_value t1
    extract_lets +onlyGivenNames t2
    clear_value t2
    extract_lets +onlyGivenNames t3
    clear_value t3
    refine Lines.ite ?_ ?_
    · assumption
    · split
      · refine Lines.ite ?_ ?_
        · assumption
        · apply lines_mirror
          assumption
      · apply lines_sample
        assumption
      · assumption
  · assumption

theorem lines_schedDrop {s₀ : State} (s : State) (p : ℕ) (at_ : ℕ) (h0 : Lines s₀ s) :
    Lines s₀ (State.schedDrop s p at_) := by
  unfold State.schedDrop
  apply lines_setSchedQ
  assumption

theorem lines_schedPut {s₀ : State} (s : State) (p : ℕ) (f : SchedFrame) (h0 : Lines s₀ s) :
    Lines s₀ (State.schedPut s p f) := by
  unfold State.schedPut
  apply lines_setSchedQ
  assumption

theorem lines_schedEnter {s₀ : State} (s : State) (p : ℕ) (at_ : ℕ) (till : ℕ) (h0 : Lines s₀ s) :
    Lines s₀ (State.schedEnter s p at_ till) := by
  unfold State.schedEnter
  apply lines_setSchedQ
  assumption

theorem lines_schedBegin {s₀ : State} (s : State) (p : ℕ) (at_ : ℕ) (h0 : Lines s₀ s) :
    Lines s₀ (State.schedBegin s p at_) := by
  unfold State.schedBegin
  split
  · assumption
  · extract_lets +onlyGivenNames t1
    clear_value t1
    refine Lines.ite ?_ ?_
    · apply lines_setPort
      apply lines_schedPut
      assumption
    · apply lines_portCount
      apply lines_schedDrop
      assumption

theorem lines_schedStamp {s₀ : State} (s : State) (p : ℕ) (at_ : ℕ) (h0 : Lines s₀ s) :
    Lines s₀ (State.schedStamp s p at_) := by
  unfold State.schedStamp
  split
  · refine Lines.ite ?_ ?_
    · apply lines_schedPut
      assumption
    · assumption
  · assumption

theorem lines_schedSent {s₀ : State} (s : State) (p : ℕ) (at_ : ℕ) (h0 : Lines s₀ s) :
    Lines s₀ (State.schedSent s p at_) := by
  unfold State.schedSent
  split
  · assumption
  · refine Lines.ite ?_ ?_
    · assumption
    · extract_lets +onlyGivenNames t1
      refine Lines.cut (a := t1) ?_ fun _ => ?_
      · unfold t1; clear t1
        apply lines_portCount
        apply lines_emit
        apply lines_schedDrop
        assumption
      clear_value t1
      apply lines_sessions
      assumption

theorem lines_nullClass {s₀ : State} (s : State) (f : Flight) (h : f.st.op ≠ 0x02) (h0 : Lines s₀ s) :
    Lines s₀ (State.nullClass s f) := by
  unfold State.nullClass
  split
  · rename_i e; exact absurd e h
  · refine Lines.ite ?_ h0
    apply lines_penCutShort
    assumption
  · exact lines_setChan _ _ _ h0
  · exact lines_schedDrop _ _ _ h0
  · assumption

theorem lines_failed {s₀ : State} (s : State) (f : Flight) (cause : ℕ) (h : f.st.op ≠ 0x02) (h0 : Lines s₀ s) :
    Lines s₀ (State.failed s f cause).1 :=
  lines_nullClass _ _ h (lines_countNull _ _ _ (lines_markHeld _ _ _ h0))

theorem lines_flightTake {s₀ : State} (s : State) (f : Flight) (q : ℕ) (h0 : Lines s₀ s) :
    Lines s₀ (State.flightTake s f q).1 := by
  unfold State.flightTake
  split
  · extract_lets +onlyGivenNames t1
    clear_value t1
    extract_lets +onlyGivenNames t2
    clear_value t2
    extract_lets +onlyGivenNames t3
    clear_value t3
    extract_lets +onlyGivenNames t4
    clear_value t4
    extract_lets +onlyGivenNames t5
    clear_value t5
    extract_lets +onlyGivenNames t6
    clear_value t6
    extract_lets +onlyGivenNames t7
    clear_value t7
    extract_lets +onlyGivenNames t8
    refine Lines.cut (a := t8) ?_ fun _ => ?_
    · unfold t8; clear t8
      refine Lines.over ?_ ?_
      · intro a9 a10 a11
        apply lines_drvRegTaken
        assumption
      · assumption
    clear_value t8
    dsimp only
    assumption
  · extract_lets +onlyGivenNames t12
    clear_value t12
    extract_lets +onlyGivenNames t13
    clear_value t13
    dsimp only
    assumption
  · split
    dsimp only
    refine Lines.ofEq (by assumption) ?_
    apply lines_penReadN
    assumption
  · split
    dsimp only
    refine Lines.ofEq (by assumption) ?_
    apply lines_rxDeliver
    assumption

theorem lines_flightPut {s₀ : State} (s : State) (f : Flight) (q : ℕ) (h0 : Lines s₀ s) :
    Lines s₀ (State.flightPut s f q).1 := by
  unfold State.flightPut
  split
  · extract_lets +onlyGivenNames t1
    clear_value t1
    extract_lets +onlyGivenNames t2
    clear_value t2
    extract_lets +onlyGivenNames t3
    clear_value t3
    dsimp only
    refine Lines.over ?_ ?_
    · intro a4 a5 a6
      apply lines_drvRegWrite
      assumption
    · assumption
  · extract_lets +onlyGivenNames t7
    clear_value t7
    dsimp only
    apply lines_loadDout
    apply lines_loadDout
    assumption
  · dsimp only
    apply lines_penPush
    assumption
  · extract_lets +onlyGivenNames t8
    clear_value t8
    extract_lets +onlyGivenNames t9
    clear_value t9
    extract_lets +onlyGivenNames t10
    clear_value t10
    extract_lets +onlyGivenNames t11
    refine Lines.cut (a := t11) ?_ fun _ => ?_
    · unfold t11; clear t11
      refine Lines.ite ?_ ?_
      · apply lines_busMeet
        assumption
      · assumption
    clear_value t11
    dsimp only
    refine Lines.ite ?_ ?_
    · assumption
    · apply lines_setChan
      assumption
  · extract_lets +onlyGivenNames t12
    clear_value t12
    extract_lets +onlyGivenNames t13
    clear_value t13
    extract_lets +onlyGivenNames t14
    clear_value t14
    split
    · dsimp only
      assumption
    · split
      · dsimp only
        apply lines_fire
        apply lines_bump
        apply lines_schedDrop
        assumption
      · dsimp only
        apply lines_schedPut
        assumption

theorem lines_flightDepart {s₀ : State} (s : State) (f : Flight) (l : ℕ) (h0 : Lines s₀ s) :
    Lines s₀ (State.flightDepart s f l).1 := by
  unfold State.flightDepart
  extract_lets +onlyGivenNames t1
  clear_value t1
  extract_lets +onlyGivenNames t2
  refine Lines.cut (a := t2) ?_ fun _ => ?_
  · unfold t2; clear t2
    refine Lines.ite ?_ ?_
    · apply lines_fire
      assumption
    · assumption
  clear_value t2
  dsimp only
  apply lines_depart
  assumption

theorem lines_digestPart {s₀ : State} (s : State) (f : Flight) (h0 : Lines s₀ s) :
    Lines s₀ (State.digestPart s f) := by
  unfold State.digestPart
  refine Lines.ite ?_ ?_
  · apply lines_addPart
    assumption
  · assumption

theorem lines_fireSettle {s₀ : State} (s : State) (st : Stroke) (d : Desc) (h0 : Lines s₀ s) :
    Lines s₀ (State.fireSettle s st d) := by
  unfold State.fireSettle
  refine Lines.ite ?_ ?_
  · apply lines_fire
    assumption
  · split
    · apply lines_fire
      assumption
    · assumption

end Sys2Proof.Laws
end

