-- ==== Sys2Proof/Laws/PerInstr.lean ====
section
/-! SUPPORT. What holds of every command as a term, one lemma per constructor. -/

namespace Sys2Proof.Laws.CommandShape

/-- No word spells the command: the opcode table gives no row bits, so nothing is decoded into it. -/
def Statement (i : Instr) : Prop := ∀ nbits w : Nat, decodeTableWord nbits w ≠ some i

theorem turn : Statement (.turn) := fun _ _ h => nomatch h
theorem noTidePeriod : Statement (.noTidePeriod) := fun _ _ h => nomatch h
theorem tileWake (tile : Fin 16) (off : Nat) : Statement (.tileWake tile off) := fun _ _ h => nomatch h
theorem tileDark (tile : Fin 16) (off : Nat) : Statement (.tileDark tile off) := fun _ _ h => nomatch h
theorem tileRedark (tile : Fin 16) (off : Nat) : Statement (.tileRedark tile off) := fun _ _ h => nomatch h
theorem wait (sl : Fin 16) (idx : Nat) : Statement (.wait sl idx) := fun _ _ h => nomatch h
theorem move (sl : Fin 16) (idx : Nat) : Statement (.move sl idx) := fun _ _ h => nomatch h
theorem carry (sl : Fin 16) (idx : Nat) : Statement (.carry sl idx) := fun _ _ h => nomatch h
theorem push (sl : Fin 16) (idx : Nat) : Statement (.push sl idx) := fun _ _ h => nomatch h
theorem fetch (sl : Fin 16) (idx : Nat) : Statement (.fetch sl idx) := fun _ _ h => nomatch h
theorem store (sl : Fin 16) (idx : Nat) : Statement (.store sl idx) := fun _ _ h => nomatch h
theorem drvWr (sl : Fin 16) (idx : Nat) : Statement (.drvWr sl idx) := fun _ _ h => nomatch h
theorem drvRd (sl : Fin 16) (idx : Nat) : Statement (.drvRd sl idx) := fun _ _ h => nomatch h
theorem pinIn (sl : Fin 16) (idx : Nat) : Statement (.pinIn sl idx) := fun _ _ h => nomatch h
theorem pinOut (sl : Fin 16) (idx : Nat) : Statement (.pinOut sl idx) := fun _ _ h => nomatch h
theorem cellTx (sl : Fin 16) (idx : Nat) : Statement (.cellTx sl idx) := fun _ _ h => nomatch h
theorem pairTx (sl : Fin 16) (idx : Nat) : Statement (.pairTx sl idx) := fun _ _ h => nomatch h
theorem cellRx (sl : Fin 16) (idx : Nat) : Statement (.cellRx sl idx) := fun _ _ h => nomatch h
theorem pairRx (sl : Fin 16) (idx : Nat) : Statement (.pairRx sl idx) := fun _ _ h => nomatch h
theorem penRd (sl : Fin 16) (idx : Nat) : Statement (.penRd sl idx) := fun _ _ h => nomatch h
theorem penWr (sl : Fin 16) (idx : Nat) : Statement (.penWr sl idx) := fun _ _ h => nomatch h
theorem busLoad (sl : Fin 16) (idx : Nat) : Statement (.busLoad sl idx) := fun _ _ h => nomatch h
theorem frameTx (sl : Fin 16) (idx : Nat) : Statement (.frameTx sl idx) := fun _ _ h => nomatch h
theorem digest (sl : Fin 16) (idx : Nat) : Statement (.digest sl idx) := fun _ _ h => nomatch h
theorem reservedOpcodeStroke (sl : Fin 16) (idx : Nat) : Statement (.reservedOpcodeStroke sl idx) := fun _ _ h => nomatch h
theorem uplandRefresh (ch : Fin 4) (off : Nat) (completed : Bool) : Statement (.uplandRefresh ch off completed) := fun _ _ h => nomatch h
theorem uplandCommandRetry (ch : Fin 4) (off : Nat) (ok : Bool) : Statement (.uplandCommandRetry ch off ok) := fun _ _ h => nomatch h
theorem ledgerBlockStart : Statement (.ledgerBlockStart) := fun _ _ h => nomatch h
theorem ledgerStageGrant (rcls : Fin 16) (inst : Nat) (off : Nat) : Statement (.ledgerStageGrant rcls inst off) := fun _ _ h => nomatch h
theorem ledgerOverdue (cls : Fin 9) : Statement (.ledgerOverdue cls) := fun _ _ h => nomatch h
theorem scrubRead (unit : Fin 68) (off : Nat) : Statement (.scrubRead unit off) := fun _ _ h => nomatch h
theorem scrubWriteBack (off : Nat) : Statement (.scrubWriteBack off) := fun _ _ h => nomatch h
theorem poisonMarkWrite (off : Nat) : Statement (.poisonMarkWrite off) := fun _ _ h => nomatch h
theorem tableOpen : Statement (.tableOpen) := fun _ _ h => nomatch h
theorem tableCheck : Statement (.tableCheck) := fun _ _ h => nomatch h
theorem tableArm : Statement (.tableArm) := fun _ _ h => nomatch h
theorem tableDisarm : Statement (.tableDisarm) := fun _ _ h => nomatch h
theorem tableDiscard : Statement (.tableDiscard) := fun _ _ h => nomatch h
theorem tableCheckDone (elapsed : Nat) : Statement (.tableCheckDone elapsed) := fun _ _ h => nomatch h
theorem shepherdWatchdog (core : Fin 4) : Statement (.shepherdWatchdog core) := fun _ _ h => nomatch h
theorem shepherdRestartDone : Statement (.shepherdRestartDone) := fun _ _ h => nomatch h
theorem clearLine (upland : Bool) (addr : Nat) : Statement (.clearLine upland addr) := fun _ _ h => nomatch h
theorem penAccessRead (pen : Fin 4096) : Statement (.penAccessRead pen) := fun _ _ h => nomatch h
theorem penAccessWrite (pen : Fin 4096) (words : List Word) (ends : Bool) (posted : Bool) : Statement (.penAccessWrite pen words ends posted) := fun _ _ h => nomatch h
theorem flush (pen : Fin 4096) : Statement (.flush pen) := fun _ _ h => nomatch h
theorem penHalt (pen : Fin 4096) : Statement (.penHalt pen) := fun _ _ h => nomatch h
theorem markBad (pen : Fin 4096) : Statement (.markBad pen) := fun _ _ h => nomatch h
theorem penDrainDone (pen : Fin 4096) : Statement (.penDrainDone pen) := fun _ _ h => nomatch h
theorem br (d : Fin 256) (off : Nat) (sense : Nat) (test : Bool) : Statement (.br d off sense test) := fun _ _ h => nomatch h
theorem hold (d : Fin 256) (off : Nat) (sense : Nat) (test : Bool) : Statement (.hold d off sense test) := fun _ _ h => nomatch h
theorem shin (d : Fin 256) (off : Nat) (sense : Nat) (test : Bool) : Statement (.shin d off sense test) := fun _ _ h => nomatch h
theorem shout (d : Fin 256) (off : Nat) (sense : Nat) (test : Bool) : Statement (.shout d off sense test) := fun _ _ h => nomatch h
theorem latch (d : Fin 256) (off : Nat) (sense : Nat) (test : Bool) : Statement (.latch d off sense test) := fun _ _ h => nomatch h
theorem take (d : Fin 256) (off : Nat) (sense : Nat) (test : Bool) : Statement (.take d off sense test) := fun _ _ h => nomatch h
theorem copy (d : Fin 256) (off : Nat) (sense : Nat) (test : Bool) : Statement (.copy d off sense test) := fun _ _ h => nomatch h
theorem put_ (d : Fin 256) (off : Nat) (sense : Nat) (test : Bool) : Statement (.put_ d off sense test) := fun _ _ h => nomatch h
theorem step_ (d : Fin 256) (off : Nat) (sense : Nat) (test : Bool) : Statement (.step_ d off sense test) := fun _ _ h => nomatch h
theorem edge (d : Fin 256) (off : Nat) (sense : Nat) (test : Bool) : Statement (.edge d off sense test) := fun _ _ h => nomatch h
theorem flag (d : Fin 256) (off : Nat) (sense : Nat) (test : Bool) : Statement (.flag d off sense test) := fun _ _ h => nomatch h
theorem halt (d : Fin 256) (off : Nat) (sense : Nat) (test : Bool) : Statement (.halt d off sense test) := fun _ _ h => nomatch h
theorem undefinedDroverOpcode (d : Fin 256) (off : Nat) (sense : Nat) (test : Bool) : Statement (.undefinedDroverOpcode d off sense test) := fun _ _ h => nomatch h
theorem droveStoreUncorrectable (d : Fin 256) (off : Nat) (sense : Nat) (test : Bool) : Statement (.droveStoreUncorrectable d off sense test) := fun _ _ h => nomatch h
theorem droverClockEdge (d : Fin 256) (off : Nat) (sense : Nat) (test : Bool) : Statement (.droverClockEdge d off sense test) := fun _ _ h => nomatch h
theorem drvRun (d : Fin 256) : Statement (.drvRun d) := fun _ _ h => nomatch h
theorem drvStop (d : Fin 256) : Statement (.drvStop d) := fun _ _ h => nomatch h
theorem drvRestart (d : Fin 256) : Statement (.drvRestart d) := fun _ _ h => nomatch h
theorem droveCopy (drove : Fin 32) : Statement (.droveCopy drove) := fun _ _ h => nomatch h
theorem droveCopyDone (drove : Fin 32) : Statement (.droveCopyDone drove) := fun _ _ h => nomatch h
theorem exchange (drove : Fin 32) (mask : Fin 256) (carry : Fin 16) : Statement (.exchange drove mask carry) := fun _ _ h => nomatch h
theorem exchangeCancel (drove : Fin 32) : Statement (.exchangeCancel drove) := fun _ _ h => nomatch h
theorem droveRegisterWrite (drove : Fin 32) (w : Fin 64) (value : Word) : Statement (.droveRegisterWrite drove w value) := fun _ _ h => nomatch h
theorem droveStoreWrite (drove : Fin 32) (a : Fin 512) (value : Word) : Statement (.droveStoreWrite drove a value) := fun _ _ h => nomatch h
theorem vioStateChange (bank : Fin 32) (vio : Fin 4) : Statement (.vioStateChange bank vio) := fun _ _ h => nomatch h
theorem bankReturnToService (bank : Fin 32) : Statement (.bankReturnToService bank) := fun _ _ h => nomatch h
theorem pinCapture (pin : Fin 1024) (rise : Bool) (off : Nat) : Statement (.pinCapture pin rise off) := fun _ _ h => nomatch h
theorem filterOutputChange (pin : Fin 1024) (level : Bool) : Statement (.filterOutputChange pin level) := fun _ _ h => nomatch h
theorem beaconArm (b : Fin 64) : Statement (.beaconArm b) := fun _ _ h => nomatch h
theorem beaconStop (b : Fin 64) : Statement (.beaconStop b) := fun _ _ h => nomatch h
theorem beaconEdge (b : Fin 64) (off : Nat) : Statement (.beaconEdge b off) := fun _ _ h => nomatch h
theorem busIntegrated (ch : Fin 128) : Statement (.busIntegrated ch) := fun _ _ h => nomatch h
theorem busFrameStart (ch : Fin 128) (off : Nat) : Statement (.busFrameStart ch off) := fun _ _ h => nomatch h
theorem busFrameTxEnd (ch : Fin 128) (outcome : Fin 4) : Statement (.busFrameTxEnd ch outcome) := fun _ _ h => nomatch h
theorem busFrameReceived (ch : Fin 128) (own : Bool) (esi : Bool) (frame : List Word) (back : Nat) : Statement (.busFrameReceived ch own esi frame back) := fun _ _ h => nomatch h
theorem busProtocolViolation (ch : Fin 128) (format : Bool) (rise : Fin 9) : Statement (.busProtocolViolation ch format rise) := fun _ _ h => nomatch h
theorem busRxRecordWrite (ch : Fin 128) : Statement (.busRxRecordWrite ch) := fun _ _ h => nomatch h
theorem busTbPenFetch (ch : Fin 128) (tb : Fin 3) : Statement (.busTbPenFetch ch tb) := fun _ _ h => nomatch h
theorem busRecoverDelayExpiry (ch : Fin 128) : Statement (.busRecoverDelayExpiry ch) := fun _ _ h => nomatch h
theorem busRecoveryDone (ch : Fin 128) : Statement (.busRecoveryDone ch) := fun _ _ h => nomatch h
theorem busDrainDone (ch : Fin 128) : Statement (.busDrainDone ch) := fun _ _ h => nomatch h
theorem busRecover (ch : Fin 128) : Statement (.busRecover ch) := fun _ _ h => nomatch h
theorem busHalt (ch : Fin 128) : Statement (.busHalt ch) := fun _ _ h => nomatch h
theorem busAbortTb (ch : Fin 128) (tb : Fin 3) : Statement (.busAbortTb ch tb) := fun _ _ h => nomatch h
theorem ethFrameReceived (port : Fin 49) (bytes : List Nat) (bad : Bool) (back : Nat) : Statement (.ethFrameReceived port bytes bad back) := fun _ _ h => nomatch h
theorem bestEffortFrameStart (port : Fin 49) (off : Nat) : Statement (.bestEffortFrameStart port off) := fun _ _ h => nomatch h
theorem portTxPenFetch (port : Fin 50) : Statement (.portTxPenFetch port) := fun _ _ h => nomatch h
theorem portSettleDone (port : Fin 49) : Statement (.portSettleDone port) := fun _ _ h => nomatch h
theorem portLinkUp (port : Fin 49) (ampl : Fin 3) : Statement (.portLinkUp port ampl) := fun _ _ h => nomatch h
theorem portLinkLost (port : Fin 49) : Statement (.portLinkLost port) := fun _ _ h => nomatch h
theorem portLanePllLoss (port : Fin 49) : Statement (.portLanePllLoss port) := fun _ _ h => nomatch h
theorem portLocalFault (port : Fin 49) : Statement (.portLocalFault port) := fun _ _ h => nomatch h
theorem localFaultEnd (port : Fin 49) : Statement (.localFaultEnd port) := fun _ _ h => nomatch h
theorem remoteFaultReceived (port : Fin 49) (lasts : Bool) : Statement (.remoteFaultReceived port lasts) := fun _ _ h => nomatch h
theorem portDrainDone (port : Fin 49) : Statement (.portDrainDone port) := fun _ _ h => nomatch h
theorem portHalt (port : Fin 49) : Statement (.portHalt port) := fun _ _ h => nomatch h
theorem portCalibrate (port : Fin 49) : Statement (.portCalibrate port) := fun _ _ h => nomatch h
theorem portRestart (port : Fin 49) : Statement (.portRestart port) := fun _ _ h => nomatch h
theorem fdbAgeExpiry (vid : Nat) (mac : Nat) : Statement (.fdbAgeExpiry vid mac) := fun _ _ h => nomatch h
theorem tunnelRepathHoldExpiry (node : Fin 1024) : Statement (.tunnelRepathHoldExpiry node) := fun _ _ h => nomatch h
theorem ringScheduledCell (link : Fin 5) (beat : Nat) (slot : Fin 5) (cell : List Word) (check : Fin 256) : Statement (.ringScheduledCell link beat slot cell check) := fun _ _ h => nomatch h
theorem unscheduledCellTransit (link : Fin 5) (cell : List Word) (check : Fin 256) (beat : Nat) (slot : Fin 5) : Statement (.unscheduledCellTransit link cell check beat slot) := fun _ _ h => nomatch h
theorem transitCellSend (link : Fin 4) (beat : Nat) (slot : Fin 5) : Statement (.transitCellSend link beat slot) := fun _ _ h => nomatch h
theorem linkFault (link : Fin 5) : Statement (.linkFault link) := fun _ _ h => nomatch h
theorem trainOk (link : Fin 5) (protect : Bool) : Statement (.trainOk link protect) := fun _ _ h => nomatch h
theorem delayProbe (link : Fin 5) (ta : Nat) : Statement (.delayProbe link ta) := fun _ _ h => nomatch h
theorem delayEcho (link : Fin 5) (ta : Nat) (rt : Nat) : Statement (.delayEcho link ta rt) := fun _ _ h => nomatch h
theorem ringLinkSettleDone (link : Fin 5) : Statement (.ringLinkSettleDone link) := fun _ _ h => nomatch h
theorem ringLinkTrained (link : Fin 5) (polarity : Fin 16) (swapped : Bool) : Statement (.ringLinkTrained link polarity swapped) := fun _ _ h => nomatch h
theorem ringTrainingTimeout (link : Fin 5) : Statement (.ringTrainingTimeout link) := fun _ _ h => nomatch h
theorem ringBlockLockLost (link : Fin 5) : Statement (.ringBlockLockLost link) := fun _ _ h => nomatch h
theorem ringBlockLockAcquired (link : Fin 5) : Statement (.ringBlockLockAcquired link) := fun _ _ h => nomatch h
theorem ringLanePllLoss (link : Fin 5) : Statement (.ringLanePllLoss link) := fun _ _ h => nomatch h
theorem retrainHoldExpiry (link : Fin 5) : Statement (.retrainHoldExpiry link) := fun _ _ h => nomatch h
theorem ringHalt (link : Fin 5) : Statement (.ringHalt link) := fun _ _ h => nomatch h
theorem ringCalibrate (link : Fin 5) : Statement (.ringCalibrate link) := fun _ _ h => nomatch h
theorem retrain (link : Fin 5) : Statement (.retrain link) := fun _ _ h => nomatch h
theorem topology (station : Fin 2048) (link : Fin 5) (up : Bool) (counter : Nat) : Statement (.topology station link up counter) := fun _ _ h => nomatch h
theorem tunnel (dir : Fin 4) (cell : List Word) (check : Fin 256) : Statement (.tunnel dir cell check) := fun _ _ h => nomatch h
theorem seal_ (link : Fin 5) (tag : Nat) (tide : Nat) : Statement (.seal_ link tag tide) := fun _ _ h => nomatch h
theorem sealLimitExpiry (link : Fin 5) : Statement (.sealLimitExpiry link) := fun _ _ h => nomatch h
theorem malformedSlot (link : Fin 5) (data : Bool) : Statement (.malformedSlot link data) := fun _ _ h => nomatch h
theorem reservedCell (link : Fin 5) (cell : List Word) (check : Fin 256) : Statement (.reservedCell link cell check) := fun _ _ h => nomatch h
theorem musterHello (link : Fin 4) (src : Fin 2048) (epoch : Nat) : Statement (.musterHello link src epoch) := fun _ _ h => nomatch h
theorem claim (dir : Fin 4) (src : Fin 2048) (claimw : Nat) (part : Nat) (nonce : Nat) (hops : Nat) (wrapped : Bool) : Statement (.claim dir src claimw part nonce hops wrapped) := fun _ _ h => nomatch h
theorem standin (dir : Fin 4) (src : Fin 2048) (claimw : Nat) (part : Nat) (nonce : Nat) (epoch : Nat) (hops : Nat) (wrapped : Bool) : Statement (.standin dir src claimw part nonce epoch hops wrapped) := fun _ _ h => nomatch h
theorem roster (src : Fin 2048) (claimw : Nat) (west : Option (Fin 2048)) (d : List (Option Nat)) (epoch : Nat) : Statement (.roster src claimw west d epoch) := fun _ _ h => nomatch h
theorem set (link : Fin 4) (src : Fin 2048) (epoch : Nat) (resume : Bool) (p : Nat) (first : Nat) (start : Nat) (stations : Nat) : Statement (.set link src epoch resume p first start stations) := fun _ _ h => nomatch h
theorem join (src : Fin 2048) (epoch : Nat) : Statement (.join src epoch) := fun _ _ h => nomatch h
theorem reject (link : Fin 4) (src : Fin 2048) (reason : Fin 8) : Statement (.reject link src reason) := fun _ _ h => nomatch h
theorem remuster (src : Fin 2048) (epoch : Nat) : Statement (.remuster src epoch) := fun _ _ h => nomatch h
theorem remusterCmd : Statement (.remusterCmd) := fun _ _ h => nomatch h
theorem tide (src : Fin 2048) (epoch : Nat) (claimw : Nat) (acting : Bool) (f : Nat) (p : Nat) : Statement (.tide src epoch claimw acting f p) := fun _ _ h => nomatch h
theorem round (src : Fin 2048) (n : Nat) : Statement (.round src n) := fun _ _ h => nomatch h
theorem consent (src : Fin 2048) (n : Nat) : Statement (.consent src n) := fun _ _ h => nomatch h
theorem veto (src : Fin 2048) (n : Nat) (need : Nat) : Statement (.veto src n need) := fun _ _ h => nomatch h
theorem commit (link : Fin 4) (src : Fin 2048) (n : Nat) (ebbAt : Nat) : Statement (.commit link src n ebbAt) := fun _ _ h => nomatch h
theorem cancel (link : Fin 4) (src : Fin 2048) (n : Nat) (reason : Fin 8) (vetoer : Fin 2048) : Statement (.cancel link src n reason vetoer) := fun _ _ h => nomatch h
theorem flood (src : Fin 2048) (beacons : Nat) : Statement (.flood src beacons) := fun _ _ h => nomatch h
theorem startRound : Statement (.startRound) := fun _ _ h => nomatch h
theorem cancelRound : Statement (.cancelRound) := fun _ _ h => nomatch h
theorem claimListenExpiry : Statement (.claimListenExpiry) := fun _ _ h => nomatch h
theorem electLimitExpiry : Statement (.electLimitExpiry) := fun _ _ h => nomatch h
theorem claimRepeatExpiry : Statement (.claimRepeatExpiry) := fun _ _ h => nomatch h
theorem joinRepeatExpiry : Statement (.joinRepeatExpiry) := fun _ _ h => nomatch h
theorem tideMasterLoss : Statement (.tideMasterLoss) := fun _ _ h => nomatch h
theorem roundLimitExpiry : Statement (.roundLimitExpiry) := fun _ _ h => nomatch h
theorem roundIntervalExpiry : Statement (.roundIntervalExpiry) := fun _ _ h => nomatch h
theorem ebbAtReached : Statement (.ebbAtReached) := fun _ _ h => nomatch h
theorem floodQuietExpiry : Statement (.floodQuietExpiry) := fun _ _ h => nomatch h
theorem floodBeaconExpiry : Statement (.floodBeaconExpiry) := fun _ _ h => nomatch h
theorem wakePatternRepeatExpiry (link : Fin 4) : Statement (.wakePatternRepeatExpiry link) := fun _ _ h => nomatch h
theorem beaconLimitExpiry (station : Fin 2048) : Statement (.beaconLimitExpiry station) := fun _ _ h => nomatch h
theorem resumeWaitExpiry : Statement (.resumeWaitExpiry) := fun _ _ h => nomatch h
theorem resumeLimitExpiry : Statement (.resumeLimitExpiry) := fun _ _ h => nomatch h
theorem wakeInput (active : Bool) : Statement (.wakeInput active) := fun _ _ h => nomatch h
theorem wakePatternDetected (link : Fin 4) : Statement (.wakePatternDetected link) := fun _ _ h => nomatch h
theorem sync (link : Fin 4) (src : Fin 2048) (wrapped : Bool) (hops : Nat) (m : SyncMsg) (at16 : Nat) (residence : Nat) : Statement (.sync link src wrapped hops m at16 residence) := fun _ _ h => nomatch h
theorem report (src : Fin 2048) (d : Fin 2) (dstate : Fin 4) (offset : Int) (rate : Int) (gm : Nat) (cls : Nat) (steps : Nat) : Statement (.report src d dstate offset rate gm cls steps) := fun _ _ h => nomatch h
theorem announce (src : Fin 2048) (d : Fin 2) (valid : Bool) (port : Fin 49) (m : AnnounceMsg) : Statement (.announce src d valid port m) := fun _ _ h => nomatch h
theorem syncPreTideExpiry : Statement (.syncPreTideExpiry) := fun _ _ h => nomatch h
theorem syncLossTides : Statement (.syncLossTides) := fun _ _ h => nomatch h
theorem holdoverLimitExpiry : Statement (.holdoverLimitExpiry) := fun _ _ h => nomatch h
theorem revertHoldExpiry : Statement (.revertHoldExpiry) := fun _ _ h => nomatch h
theorem domainSyncLoss (d : Fin 2) : Statement (.domainSyncLoss d) := fun _ _ h => nomatch h
theorem domainReportLoss (d : Fin 2) : Statement (.domainReportLoss d) := fun _ _ h => nomatch h
theorem ptpSyncIntervalExpiry (d : Fin 2) (port : Fin 49) (off : Nat) : Statement (.ptpSyncIntervalExpiry d port off) := fun _ _ h => nomatch h
theorem announceIntervalExpiry (d : Fin 2) : Statement (.announceIntervalExpiry d) := fun _ _ h => nomatch h
theorem ptpSync (m : PtpMsg) (twoStep : Bool) : Statement (.ptpSync m twoStep) := fun _ _ h => nomatch h
theorem ptpFollowUp (m : PtpMsg) : Statement (.ptpFollowUp m) := fun _ _ h => nomatch h
theorem ptpDelayReq (m : PtpMsg) : Statement (.ptpDelayReq m) := fun _ _ h => nomatch h
theorem ptpDelayResp (m : PtpMsg) : Statement (.ptpDelayResp m) := fun _ _ h => nomatch h
theorem ptpPdelayReq (m : PtpMsg) : Statement (.ptpPdelayReq m) := fun _ _ h => nomatch h
theorem ptpPdelayResp (m : PtpMsg) (twoStep : Bool) : Statement (.ptpPdelayResp m twoStep) := fun _ _ h => nomatch h
theorem ptpPdelayRespFollowUp (m : PtpMsg) : Statement (.ptpPdelayRespFollowUp m) := fun _ _ h => nomatch h
theorem ptpAnnounce (m : PtpMsg) (a : AnnounceMsg) (utc : Nat) (path : List Nat) : Statement (.ptpAnnounce m a utc path) := fun _ _ h => nomatch h
theorem ptpManagement (m : PtpMsg) : Statement (.ptpManagement m) := fun _ _ h => nomatch h
theorem ptpMalformed (port : Fin 49) : Statement (.ptpMalformed port) := fun _ _ h => nomatch h
theorem timeSet (at_ : Nat) : Statement (.timeSet at_) := fun _ _ h => nomatch h
theorem switch : Statement (.switch) := fun _ _ h => nomatch h
theorem claimFrameStart : Statement (.claimFrameStart) := fun _ _ h => nomatch h
theorem claimFrameReceived (claim : Fin 65536) (next : Fin 65536) (crc : Fin 256) (good : Bool) (turned : Bool) : Statement (.claimFrameReceived claim next crc good turned) := fun _ _ h => nomatch h
theorem claimInSilence : Statement (.claimInSilence) := fun _ _ h => nomatch h
theorem pairHello (node : Fin 1024) (unit : Fin 2) (st : Fin 8) (claim : Fin 65536) (image : Nat) (f : Nat) (fw : Nat) : Statement (.pairHello node unit st claim image f fw) := fun _ _ h => nomatch h
theorem aloneWaitExpiry : Statement (.aloneWaitExpiry) := fun _ _ h => nomatch h
theorem pairDigest (f : Nat) (entries : List (Nat × Bool × Nat)) : Statement (.pairDigest f entries) := fun _ _ h => nomatch h
theorem pairDigestSend : Statement (.pairDigestSend) := fun _ _ h => nomatch h
theorem selfcheckDone (signature : Nat) : Statement (.selfcheckDone signature) := fun _ _ h => nomatch h
theorem selfcheck (pass : Bool) (f : Nat) (signature : Nat) : Statement (.selfcheck pass f signature) := fun _ _ h => nomatch h
theorem mirror (seq : Nat) (words : List Word) : Statement (.mirror seq words) := fun _ _ h => nomatch h
theorem pairCommit (seq : Nat) (count : Nat) (crc : Nat) (fk : Nat) : Statement (.pairCommit seq count crc fk) := fun _ _ h => nomatch h
theorem pairAck (seq : Nat) : Statement (.pairAck seq) := fun _ _ h => nomatch h
theorem nak (seq : Nat) : Statement (.nak seq) := fun _ _ h => nomatch h
theorem partnerSilence : Statement (.partnerSilence) := fun _ _ h => nomatch h
theorem swap : Statement (.swap) := fun _ _ h => nomatch h
theorem rejoin : Statement (.rejoin) := fun _ _ h => nomatch h
theorem confirm : Statement (.confirm) := fun _ _ h => nomatch h
theorem resync : Statement (.resync) := fun _ _ h => nomatch h
theorem read (m : Msg) : Statement (.read m) := fun _ _ h => nomatch h
theorem write (m : Msg) : Statement (.write m) := fun _ _ h => nomatch h
theorem writeVerify (m : Msg) : Statement (.writeVerify m) := fun _ _ h => nomatch h
theorem readBulk (m : Msg) : Statement (.readBulk m) := fun _ _ h => nomatch h
theorem writeBulk (m : Msg) : Statement (.writeBulk m) := fun _ _ h => nomatch h
theorem subscribe (m : Msg) : Statement (.subscribe m) := fun _ _ h => nomatch h
theorem unsubscribe (m : Msg) : Statement (.unsubscribe m) := fun _ _ h => nomatch h
theorem notify (n : Fin 64) (leaves : Bool) : Statement (.notify n leaves) := fun _ _ h => nomatch h
theorem describe (m : Msg) : Statement (.describe m) := fun _ _ h => nomatch h
theorem pointRead (m : Msg) : Statement (.pointRead m) := fun _ _ h => nomatch h
theorem pointWrite (m : Msg) : Statement (.pointWrite m) := fun _ _ h => nomatch h
theorem challenge (m : Msg) : Statement (.challenge m) := fun _ _ h => nomatch h
theorem open_ (m : Msg) : Statement (.open_ m) := fun _ _ h => nomatch h
theorem close (m : Msg) : Statement (.close m) := fun _ _ h => nomatch h
theorem blobRead (m : Msg) : Statement (.blobRead m) := fun _ _ h => nomatch h
theorem blobWrite (m : Msg) : Statement (.blobWrite m) := fun _ _ h => nomatch h
theorem dictMalformedRequest (path : Fin 4) (source : Nat) (words : List Word) (packing : Bool) : Statement (.dictMalformedRequest path source words packing) := fun _ _ h => nomatch h
theorem relayedResponse (relay : Nat) (abort : Nat) (pend : Bool) (dflt : Bool) (body : List Word) : Statement (.relayedResponse relay abort pend dflt body) := fun _ _ h => nomatch h
theorem relayTimeout (relay : Nat) : Statement (.relayTimeout relay) := fun _ _ h => nomatch h
theorem blobGapExpiry (entry : Nat) : Statement (.blobGapExpiry entry) := fun _ _ h => nomatch h
theorem sessionIdleExpiry (n : Fin 16) : Statement (.sessionIdleExpiry n) := fun _ _ h => nomatch h
theorem nonceExpiry (path : Fin 4) (source : Nat) : Statement (.nonceExpiry path source) := fun _ _ h => nomatch h
theorem arpRequest (address : Nat) (asker : Nat) : Statement (.arpRequest address asker) := fun _ _ h => nomatch h
theorem icmpEchoRequest (address : Nat) (asker : Nat) (payload : List Nat) : Statement (.icmpEchoRequest address asker payload) := fun _ _ h => nomatch h
theorem resetGroup (group : Nat) : Statement (.resetGroup group) := fun _ _ h => nomatch h
theorem clearDefaulted (group : Nat) : Statement (.clearDefaulted group) := fun _ _ h => nomatch h
theorem closeAll : Statement (.closeAll) := fun _ _ h => nomatch h
theorem bar2Read (addr : Fin 1073741824) (n : Nat) (full : Bool) : Statement (.bar2Read addr n full) := fun _ _ h => nomatch h
theorem bar2Write (addr : Fin 1073741824) (words : List Word) (full : Bool) (ep : Bool) : Statement (.bar2Write addr words full ep) := fun _ _ h => nomatch h
theorem reqData (w : Word) : Statement (.reqData w) := fun _ _ h => nomatch h
theorem reqEnd : Statement (.reqEnd) := fun _ _ h => nomatch h
theorem reqAbort : Statement (.reqAbort) := fun _ _ h => nomatch h
theorem rspData : Statement (.rspData) := fun _ _ h => nomatch h
theorem rspFlush : Statement (.rspFlush) := fun _ _ h => nomatch h
theorem intStatusClear (mask : Fin 32) (enable : Option (Fin 32)) : Statement (.intStatusClear mask enable) := fun _ _ h => nomatch h
theorem qlock (on : Bool) : Statement (.qlock on) := fun _ _ h => nomatch h
theorem bar0UnmappedAccess (offset : Fin 65536) (write : Bool) : Statement (.bar0UnmappedAccess offset write) := fun _ _ h => nomatch h
theorem msiXTableWrite (vector : Fin 64) (dword : Fin 4) (value : BitVec 32) : Statement (.msiXTableWrite vector dword value) := fun _ _ h => nomatch h
theorem tideInterrupt : Statement (.tideInterrupt) := fun _ _ h => nomatch h
theorem pcieReset (linkDown : Bool) : Statement (.pcieReset linkDown) := fun _ _ h => nomatch h
theorem pcieLinkUp (speed : Fin 5) (width : Fin 5) : Statement (.pcieLinkUp speed width) := fun _ _ h => nomatch h
theorem quayRead (offset : Fin 134217728) (n : Nat) (beats : List QBeat) : Statement (.quayRead offset n beats) := fun _ _ h => nomatch h
theorem quayPostedWrite (offset : Fin 134217728) (words : List Word) : Statement (.quayPostedWrite offset words) := fun _ _ h => nomatch h
theorem quayWriteBurst (beats : List QBeat) : Statement (.quayWriteBurst beats) := fun _ _ h => nomatch h
theorem quayLockTimeout : Statement (.quayLockTimeout) := fun _ _ h => nomatch h
theorem quayDrainDone : Statement (.quayDrainDone) := fun _ _ h => nomatch h
theorem quayHalt : Statement (.quayHalt) := fun _ _ h => nomatch h
theorem msgWrite (words : List Word) (e : SvcEnd) : Statement (.msgWrite words e) := fun _ _ h => nomatch h
theorem msgRead (len : Nat) (e : SvcEnd) : Statement (.msgRead len e) := fun _ _ h => nomatch h
theorem imageWrite (words : List Word) (e : SvcEnd) : Statement (.imageWrite words e) := fun _ _ h => nomatch h
theorem reservedServiceCommand : Statement (.reservedServiceCommand) := fun _ _ h => nomatch h
theorem bellFiring (src : Nat) (inst : Nat) (detail : Nat) : Statement (.bellFiring src inst detail) := fun _ _ h => nomatch h
theorem bellWindowTick : Statement (.bellWindowTick) := fun _ _ h => nomatch h
theorem bellCompareMismatch : Statement (.bellCompareMismatch) := fun _ _ h => nomatch h
theorem bellAck (src : Nat) (session : Fin 16) (path : Fin 4) : Statement (.bellAck src session path) := fun _ _ h => nomatch h
theorem bellForce (src : Nat) (inst : Nat) : Statement (.bellForce src inst) := fun _ _ h => nomatch h
theorem ackAll (session : Fin 16) (path : Fin 4) : Statement (.ackAll session path) := fun _ _ h => nomatch h
theorem tallyRecordWrite : Statement (.tallyRecordWrite) := fun _ _ h => nomatch h
theorem tallyRepeatWrite : Statement (.tallyRepeatWrite) := fun _ _ h => nomatch h
theorem tallyOverrunQueue : Statement (.tallyOverrunQueue) := fun _ _ h => nomatch h
theorem ophoursStore : Statement (.ophoursStore) := fun _ _ h => nomatch h
theorem tallyFlush : Statement (.tallyFlush) := fun _ _ h => nomatch h
theorem tallyClear : Statement (.tallyClear) := fun _ _ h => nomatch h
theorem traceRecordWrite : Statement (.traceRecordWrite) := fun _ _ h => nomatch h
theorem foldTamper (cause : Fin 9) (vbat : Fin 4096) : Statement (.foldTamper cause vbat) := fun _ _ h => nomatch h
theorem foldRootDraw : Statement (.foldRootDraw) := fun _ _ h => nomatch h
theorem vbatLowExpiry (vbat : Fin 4096) : Statement (.vbatLowExpiry vbat) := fun _ _ h => nomatch h
theorem installClear (a : Asker) (target : Fin 64) (fill : Fill) (payload : List Word) : Statement (.installClear a target fill payload) := fun _ _ h => nomatch h
theorem installSigned (a : Asker) (target : Fin 64) (fill : Fill) (payload : List Word) : Statement (.installSigned a target fill payload) := fun _ _ h => nomatch h
theorem installWrapped (a : Asker) (slot : Fin 64) (target : Fin 64) (fill : Fill) (payload : List Word) : Statement (.installWrapped a slot target fill payload) := fun _ _ h => nomatch h
theorem derive (a : Asker) (slot : Fin 64) (target : Fin 64) (fill : Fill) (payload : List Word) : Statement (.derive a slot target fill payload) := fun _ _ h => nomatch h
theorem deriveRoot (a : Asker) (target : Fin 64) (fill : Fill) (payload : List Word) : Statement (.deriveRoot a target fill payload) := fun _ _ h => nomatch h
theorem erase (a : Asker) (target : Fin 64) : Statement (.erase a target) := fun _ _ h => nomatch h
theorem sign (a : Asker) (slot : Fin 64) (payload : List Word) : Statement (.sign a slot payload) := fun _ _ h => nomatch h
theorem verify (a : Asker) (slot : Fin 64) (payload : List Word) : Statement (.verify a slot payload) := fun _ _ h => nomatch h
theorem lifecycle (a : Asker) (payload : List Word) : Statement (.lifecycle a payload) := fun _ _ h => nomatch h
theorem otpWrite (a : Asker) (target : Fin 64) (payload : List Word) : Statement (.otpWrite a target payload) := fun _ _ h => nomatch h
theorem revoke (a : Asker) (target : Fin 64) : Statement (.revoke a target) := fun _ _ h => nomatch h
theorem foldOpDone : Statement (.foldOpDone) := fun _ _ h => nomatch h
theorem trngHealthFail : Statement (.trngHealthFail) := fun _ _ h => nomatch h
theorem trngHealthRecover : Statement (.trngHealthRecover) := fun _ _ h => nomatch h
theorem lifecycleBurnDone (straps : Fin 64) (bad : Fin 16) : Statement (.lifecycleBurnDone straps bad) := fun _ _ h => nomatch h
theorem updateBlock (frame : List Word) : Statement (.updateBlock frame) := fun _ _ h => nomatch h
theorem updateDiscard : Statement (.updateDiscard) := fun _ _ h => nomatch h
theorem updateCheck : Statement (.updateCheck) := fun _ _ h => nomatch h
theorem updateCheckDone : Statement (.updateCheckDone) := fun _ _ h => nomatch h
theorem schedule : Statement (.schedule) := fun _ _ h => nomatch h
theorem unschedule (id : Nat) : Statement (.unschedule id) := fun _ _ h => nomatch h
theorem profileSelect (n : Fin 4) : Statement (.profileSelect n) := fun _ _ h => nomatch h
theorem profileStore (n : Fin 4) : Statement (.profileStore n) := fun _ _ h => nomatch h
theorem storeStaging (n : Fin 4) : Statement (.storeStaging n) := fun _ _ h => nomatch h
theorem profileErase (n : Fin 4) : Statement (.profileErase n) := fun _ _ h => nomatch h
theorem profileCommandDone : Statement (.profileCommandDone) := fun _ _ h => nomatch h
theorem gateSeated (g : Fin 16) (m : GateSample) : Statement (.gateSeated g m) := fun _ _ h => nomatch h
theorem gateUnseated (g : Fin 16) (a : Bool) (b : Bool) : Statement (.gateUnseated g a b) := fun _ _ h => nomatch h
theorem seatDebounceExpiry (g : Fin 16) : Statement (.seatDebounceExpiry g) := fun _ _ h => nomatch h
theorem gateStart (g : Fin 16) (m : GateSample) : Statement (.gateStart g m) := fun _ _ h => nomatch h
theorem prechargeDone (g : Fin 16) (m : GateSample) : Statement (.prechargeDone g m) := fun _ _ h => nomatch h
theorem turnOnDone (g : Fin 16) (m : GateSample) : Statement (.turnOnDone g m) := fun _ _ h => nomatch h
theorem pgoodDelayExpiry (g : Fin 16) : Statement (.pgoodDelayExpiry g) := fun _ _ h => nomatch h
theorem preTimeExpiry (g : Fin 16) : Statement (.preTimeExpiry g) := fun _ _ h => nomatch h
theorem mainTimeExpiry (g : Fin 16) : Statement (.mainTimeExpiry g) := fun _ _ h => nomatch h
theorem slowCurrentTrip (g : Fin 16) (m : GateSample) : Statement (.slowCurrentTrip g m) := fun _ _ h => nomatch h
theorem fastCurrentTrip (g : Fin 16) : Statement (.fastCurrentTrip g) := fun _ _ h => nomatch h
theorem fetHotTrip (g : Fin 16) (m : GateSample) : Statement (.fetHotTrip g m) := fun _ _ h => nomatch h
theorem railWindowExit (g : Fin 16) (m : GateSample) : Statement (.railWindowExit g m) := fun _ _ h => nomatch h
theorem cooldownExpiry (g : Fin 16) (m : GateSample) : Statement (.cooldownExpiry g m) := fun _ _ h => nomatch h
theorem fetCooled (g : Fin 16) (m : GateSample) : Statement (.fetCooled g m) := fun _ _ h => nomatch h
theorem retryResetExpiry (g : Fin 16) : Statement (.retryResetExpiry g) := fun _ _ h => nomatch h
theorem gateDamageDetected (g : Fin 16) (m : GateSample) : Statement (.gateDamageDetected g m) := fun _ _ h => nomatch h
theorem gateOn (g : Fin 16) : Statement (.gateOn g) := fun _ _ h => nomatch h
theorem gateOff (g : Fin 16) : Statement (.gateOff g) := fun _ _ h => nomatch h
theorem gateReset (g : Fin 16) : Statement (.gateReset g) := fun _ _ h => nomatch h
theorem clearDamaged (g : Fin 16) (clear : Bool) : Statement (.clearDamaged g clear) := fun _ _ h => nomatch h
theorem supplyStateChange (supply : Fin 9) (st : Fin 4) (mv : Fin 4096) : Statement (.supplyStateChange supply st mv) := fun _ _ h => nomatch h
theorem powerOrderBreach (kind : Fin 4) (supply : Fin 64) : Statement (.powerOrderBreach kind supply) := fun _ _ h => nomatch h
theorem shoreXtalFail : Statement (.shoreXtalFail) := fun _ _ h => nomatch h
theorem workPllLoss (ref : Bool) : Statement (.workPllLoss ref) := fun _ _ h => nomatch h
theorem vddShoreUp : Statement (.vddShoreUp) := fun _ _ h => nomatch h
theorem resetNAsserted : Statement (.resetNAsserted) := fun _ _ h => nomatch h
theorem resetNRelease (straps : Fin 64) (bad : Fin 16) : Statement (.resetNRelease straps bad) := fun _ _ h => nomatch h
theorem warmNRelease (straps : Fin 64) (bad : Fin 16) : Statement (.warmNRelease straps bad) := fun _ _ h => nomatch h
theorem deepAfterExpiry : Statement (.deepAfterExpiry) := fun _ _ h => nomatch h
theorem junctionHotThreshold (tj : Fin 512) : Statement (.junctionHotThreshold tj) := fun _ _ h => nomatch h
theorem junctionLimitThreshold (tj : Fin 512) : Statement (.junctionLimitThreshold tj) := fun _ _ h => nomatch h
theorem thermalTrip (tj : Fin 512) : Statement (.thermalTrip tj) := fun _ _ h => nomatch h
theorem junctionThresholdClear (k : Fin 3) (tj : Fin 512) : Statement (.junctionThresholdClear k tj) := fun _ _ h => nomatch h
theorem coldStart (straps : Fin 64) (bad : Fin 16) : Statement (.coldStart straps bad) := fun _ _ h => nomatch h
theorem warmRestart (straps : Fin 64) (bad : Fin 16) : Statement (.warmRestart straps bad) := fun _ _ h => nomatch h
theorem deepKeepExit (straps : Fin 64) (bad : Fin 16) : Statement (.deepKeepExit straps bad) := fun _ _ h => nomatch h
theorem floodFromKeep (bad : Fin 16) : Statement (.floodFromKeep bad) := fun _ _ h => nomatch h
theorem powerLight : Statement (.powerLight) := fun _ _ h => nomatch h
theorem powerFull : Statement (.powerFull) := fun _ _ h => nomatch h
theorem powerKeep : Statement (.powerKeep) := fun _ _ h => nomatch h
theorem powerDeepKeep : Statement (.powerDeepKeep) := fun _ _ h => nomatch h
theorem powerWarm : Statement (.powerWarm) := fun _ _ h => nomatch h
theorem powerCold : Statement (.powerCold) := fun _ _ h => nomatch h

end Sys2Proof.Laws.CommandShape
end

