-- ==== Sys2Proof/Laws/State.lean ====
section
/-! SUPPORT. Each named update of one store, one lemma per field of State, and what its reader reads back after it. -/

namespace Sys2Proof.Machine
open Sys2Proof.Laws

/-! setCfg -/

section
variable (s : State) (e sub v : Nat)
@[simp] theorem State.setCfg_pending : (s.setCfg e sub v).pending = s.pending := rfl
@[simp] theorem State.setCfg_outbox : (s.setCfg e sub v).outbox = s.outbox := rfl
@[simp] theorem State.setCfg_freeAt : (s.setCfg e sub v).freeAt = s.freeAt := rfl
@[simp] theorem State.setCfg_tide : (s.setCfg e sub v).tide = s.tide := rfl
@[simp] theorem State.setCfg_table : (s.setCfg e sub v).table = s.table := rfl
@[simp] theorem State.setCfg_ledger : (s.setCfg e sub v).ledger = s.ledger := rfl
@[simp] theorem State.setCfg_image : (s.setCfg e sub v).image = s.image := rfl
@[simp] theorem State.setCfg_pen : (s.setCfg e sub v).pen = s.pen := rfl
@[simp] theorem State.setCfg_drv : (s.setCfg e sub v).drv = s.drv := rfl
@[simp] theorem State.setCfg_pin : (s.setCfg e sub v).pin = s.pin := rfl
@[simp] theorem State.setCfg_bus : (s.setCfg e sub v).bus = s.bus := rfl
@[simp] theorem State.setCfg_sw : (s.setCfg e sub v).sw = s.sw := rfl
@[simp] theorem State.setCfg_ring : (s.setCfg e sub v).ring = s.ring := rfl
@[simp] theorem State.setCfg_muster : (s.setCfg e sub v).muster = s.muster := rfl
@[simp] theorem State.setCfg_time : (s.setCfg e sub v).time = s.time := rfl
@[simp] theorem State.setCfg_pair : (s.setCfg e sub v).pair = s.pair := rfl
@[simp] theorem State.setCfg_upd : (s.setCfg e sub v).upd = s.upd := rfl
@[simp] theorem State.setCfg_gate : (s.setCfg e sub v).gate = s.gate := rfl
@[simp] theorem State.setCfg_power : (s.setCfg e sub v).power = s.power := rfl
@[simp] theorem State.setCfg_fold : (s.setCfg e sub v).fold = s.fold := rfl
@[simp] theorem State.setCfg_dict : (s.setCfg e sub v).dict = { s.dict with settings := Tab.set (defaultOf e sub) s.dict.settings (key e sub) v } := rfl
@[simp] theorem State.setCfg_host : (s.setCfg e sub v).host = s.host := rfl
@[simp] theorem State.setCfg_quay : (s.setCfg e sub v).quay = s.quay := rfl
@[simp] theorem State.setCfg_svc : (s.setCfg e sub v).svc = s.svc := rfl
@[simp] theorem State.setCfg_bell : (s.setCfg e sub v).bell = s.bell := rfl
@[simp] theorem State.setCfg_tally : (s.setCfg e sub v).tally = s.tally := rfl
@[simp] theorem State.setCfg_trace : (s.setCfg e sub v).trace = s.trace := rfl
end

/-! setCount -/

section
variable (s : State) (e sub v : Nat)
@[simp] theorem State.setCount_pending : (s.setCount e sub v).pending = s.pending := rfl
@[simp] theorem State.setCount_outbox : (s.setCount e sub v).outbox = s.outbox := rfl
@[simp] theorem State.setCount_freeAt : (s.setCount e sub v).freeAt = s.freeAt := rfl
@[simp] theorem State.setCount_tide : (s.setCount e sub v).tide = s.tide := rfl
@[simp] theorem State.setCount_table : (s.setCount e sub v).table = s.table := rfl
@[simp] theorem State.setCount_ledger : (s.setCount e sub v).ledger = s.ledger := rfl
@[simp] theorem State.setCount_image : (s.setCount e sub v).image = s.image := rfl
@[simp] theorem State.setCount_pen : (s.setCount e sub v).pen = s.pen := rfl
@[simp] theorem State.setCount_drv : (s.setCount e sub v).drv = s.drv := rfl
@[simp] theorem State.setCount_pin : (s.setCount e sub v).pin = s.pin := rfl
@[simp] theorem State.setCount_bus : (s.setCount e sub v).bus = s.bus := rfl
@[simp] theorem State.setCount_sw : (s.setCount e sub v).sw = s.sw := rfl
@[simp] theorem State.setCount_ring : (s.setCount e sub v).ring = s.ring := rfl
@[simp] theorem State.setCount_muster : (s.setCount e sub v).muster = s.muster := rfl
@[simp] theorem State.setCount_time : (s.setCount e sub v).time = s.time := rfl
@[simp] theorem State.setCount_pair : (s.setCount e sub v).pair = s.pair := rfl
@[simp] theorem State.setCount_upd : (s.setCount e sub v).upd = s.upd := rfl
@[simp] theorem State.setCount_gate : (s.setCount e sub v).gate = s.gate := rfl
@[simp] theorem State.setCount_power : (s.setCount e sub v).power = s.power := rfl
@[simp] theorem State.setCount_fold : (s.setCount e sub v).fold = s.fold := rfl
@[simp] theorem State.setCount_dict : (s.setCount e sub v).dict = { s.dict with counts := Tab.set 0 s.dict.counts (key e sub) v } := rfl
@[simp] theorem State.setCount_host : (s.setCount e sub v).host = s.host := rfl
@[simp] theorem State.setCount_quay : (s.setCount e sub v).quay = s.quay := rfl
@[simp] theorem State.setCount_svc : (s.setCount e sub v).svc = s.svc := rfl
@[simp] theorem State.setCount_bell : (s.setCount e sub v).bell = s.bell := rfl
@[simp] theorem State.setCount_tally : (s.setCount e sub v).tally = s.tally := rfl
@[simp] theorem State.setCount_trace : (s.setCount e sub v).trace = s.trace := rfl
end

/-! emit -/

section
variable (s : State) (k : OutKind) (unit : Nat) (words : List Nat)
@[simp] theorem State.emit_pending : (s.emit k unit words).pending = s.pending := rfl
@[simp] theorem State.emit_outbox : (s.emit k unit words).outbox = ⟨k, unit, words⟩ :: s.outbox := rfl
@[simp] theorem State.emit_freeAt : (s.emit k unit words).freeAt = s.freeAt := rfl
@[simp] theorem State.emit_tide : (s.emit k unit words).tide = s.tide := rfl
@[simp] theorem State.emit_table : (s.emit k unit words).table = s.table := rfl
@[simp] theorem State.emit_ledger : (s.emit k unit words).ledger = s.ledger := rfl
@[simp] theorem State.emit_image : (s.emit k unit words).image = s.image := rfl
@[simp] theorem State.emit_pen : (s.emit k unit words).pen = s.pen := rfl
@[simp] theorem State.emit_drv : (s.emit k unit words).drv = s.drv := rfl
@[simp] theorem State.emit_pin : (s.emit k unit words).pin = s.pin := rfl
@[simp] theorem State.emit_bus : (s.emit k unit words).bus = s.bus := rfl
@[simp] theorem State.emit_sw : (s.emit k unit words).sw = s.sw := rfl
@[simp] theorem State.emit_ring : (s.emit k unit words).ring = s.ring := rfl
@[simp] theorem State.emit_muster : (s.emit k unit words).muster = s.muster := rfl
@[simp] theorem State.emit_time : (s.emit k unit words).time = s.time := rfl
@[simp] theorem State.emit_pair : (s.emit k unit words).pair = s.pair := rfl
@[simp] theorem State.emit_upd : (s.emit k unit words).upd = s.upd := rfl
@[simp] theorem State.emit_gate : (s.emit k unit words).gate = s.gate := rfl
@[simp] theorem State.emit_power : (s.emit k unit words).power = s.power := rfl
@[simp] theorem State.emit_fold : (s.emit k unit words).fold = s.fold := rfl
@[simp] theorem State.emit_dict : (s.emit k unit words).dict = s.dict := rfl
@[simp] theorem State.emit_host : (s.emit k unit words).host = s.host := rfl
@[simp] theorem State.emit_quay : (s.emit k unit words).quay = s.quay := rfl
@[simp] theorem State.emit_svc : (s.emit k unit words).svc = s.svc := rfl
@[simp] theorem State.emit_bell : (s.emit k unit words).bell = s.bell := rfl
@[simp] theorem State.emit_tally : (s.emit k unit words).tally = s.tally := rfl
@[simp] theorem State.emit_trace : (s.emit k unit words).trace = s.trace := rfl
end

/-! setSrc -/

section
variable (s : State) (n : Nat) (x : Source)
@[simp] theorem State.setSrc_pending : (s.setSrc n x).pending = s.pending := rfl
@[simp] theorem State.setSrc_outbox : (s.setSrc n x).outbox = s.outbox := rfl
@[simp] theorem State.setSrc_freeAt : (s.setSrc n x).freeAt = s.freeAt := rfl
@[simp] theorem State.setSrc_tide : (s.setSrc n x).tide = s.tide := rfl
@[simp] theorem State.setSrc_table : (s.setSrc n x).table = s.table := rfl
@[simp] theorem State.setSrc_ledger : (s.setSrc n x).ledger = s.ledger := rfl
@[simp] theorem State.setSrc_image : (s.setSrc n x).image = s.image := rfl
@[simp] theorem State.setSrc_pen : (s.setSrc n x).pen = s.pen := rfl
@[simp] theorem State.setSrc_drv : (s.setSrc n x).drv = s.drv := rfl
@[simp] theorem State.setSrc_pin : (s.setSrc n x).pin = s.pin := rfl
@[simp] theorem State.setSrc_bus : (s.setSrc n x).bus = s.bus := rfl
@[simp] theorem State.setSrc_sw : (s.setSrc n x).sw = s.sw := rfl
@[simp] theorem State.setSrc_ring : (s.setSrc n x).ring = s.ring := rfl
@[simp] theorem State.setSrc_muster : (s.setSrc n x).muster = s.muster := rfl
@[simp] theorem State.setSrc_time : (s.setSrc n x).time = s.time := rfl
@[simp] theorem State.setSrc_pair : (s.setSrc n x).pair = s.pair := rfl
@[simp] theorem State.setSrc_upd : (s.setSrc n x).upd = s.upd := rfl
@[simp] theorem State.setSrc_gate : (s.setSrc n x).gate = s.gate := rfl
@[simp] theorem State.setSrc_power : (s.setSrc n x).power = s.power := rfl
@[simp] theorem State.setSrc_fold : (s.setSrc n x).fold = s.fold := rfl
@[simp] theorem State.setSrc_dict : (s.setSrc n x).dict = s.dict := rfl
@[simp] theorem State.setSrc_host : (s.setSrc n x).host = s.host := rfl
@[simp] theorem State.setSrc_quay : (s.setSrc n x).quay = s.quay := rfl
@[simp] theorem State.setSrc_svc : (s.setSrc n x).svc = s.svc := rfl
@[simp] theorem State.setSrc_bell : (s.setSrc n x).bell = { s.bell with srcs := Tab.set Source.quiet s.bell.srcs n x } := rfl
@[simp] theorem State.setSrc_tally : (s.setSrc n x).tally = s.tally := rfl
@[simp] theorem State.setSrc_trace : (s.setSrc n x).trace = s.trace := rfl
end

/-! setGate -/

section
variable (s : State) (g : Nat) (x : Gate)
@[simp] theorem State.setGate_pending : (s.setGate g x).pending = s.pending := rfl
@[simp] theorem State.setGate_outbox : (s.setGate g x).outbox = s.outbox := rfl
@[simp] theorem State.setGate_freeAt : (s.setGate g x).freeAt = s.freeAt := rfl
@[simp] theorem State.setGate_tide : (s.setGate g x).tide = s.tide := rfl
@[simp] theorem State.setGate_table : (s.setGate g x).table = s.table := rfl
@[simp] theorem State.setGate_ledger : (s.setGate g x).ledger = s.ledger := rfl
@[simp] theorem State.setGate_image : (s.setGate g x).image = s.image := rfl
@[simp] theorem State.setGate_pen : (s.setGate g x).pen = s.pen := rfl
@[simp] theorem State.setGate_drv : (s.setGate g x).drv = s.drv := rfl
@[simp] theorem State.setGate_pin : (s.setGate g x).pin = s.pin := rfl
@[simp] theorem State.setGate_bus : (s.setGate g x).bus = s.bus := rfl
@[simp] theorem State.setGate_sw : (s.setGate g x).sw = s.sw := rfl
@[simp] theorem State.setGate_ring : (s.setGate g x).ring = s.ring := rfl
@[simp] theorem State.setGate_muster : (s.setGate g x).muster = s.muster := rfl
@[simp] theorem State.setGate_time : (s.setGate g x).time = s.time := rfl
@[simp] theorem State.setGate_pair : (s.setGate g x).pair = s.pair := rfl
@[simp] theorem State.setGate_upd : (s.setGate g x).upd = s.upd := rfl
@[simp] theorem State.setGate_gate : (s.setGate g x).gate = { s.gate with gates := Tab.set Gate.blank s.gate.gates g x } := rfl
@[simp] theorem State.setGate_power : (s.setGate g x).power = s.power := rfl
@[simp] theorem State.setGate_fold : (s.setGate g x).fold = s.fold := rfl
@[simp] theorem State.setGate_dict : (s.setGate g x).dict = s.dict := rfl
@[simp] theorem State.setGate_host : (s.setGate g x).host = s.host := rfl
@[simp] theorem State.setGate_quay : (s.setGate g x).quay = s.quay := rfl
@[simp] theorem State.setGate_svc : (s.setGate g x).svc = s.svc := rfl
@[simp] theorem State.setGate_bell : (s.setGate g x).bell = s.bell := rfl
@[simp] theorem State.setGate_tally : (s.setGate g x).tally = s.tally := rfl
@[simp] theorem State.setGate_trace : (s.setGate g x).trace = s.trace := rfl
end

/-! setSession -/

section
variable (s : State) (n : Nat) (x : Session)
@[simp] theorem State.setSession_pending : (s.setSession n x).pending = s.pending := rfl
@[simp] theorem State.setSession_outbox : (s.setSession n x).outbox = s.outbox := rfl
@[simp] theorem State.setSession_freeAt : (s.setSession n x).freeAt = s.freeAt := rfl
@[simp] theorem State.setSession_tide : (s.setSession n x).tide = s.tide := rfl
@[simp] theorem State.setSession_table : (s.setSession n x).table = s.table := rfl
@[simp] theorem State.setSession_ledger : (s.setSession n x).ledger = s.ledger := rfl
@[simp] theorem State.setSession_image : (s.setSession n x).image = s.image := rfl
@[simp] theorem State.setSession_pen : (s.setSession n x).pen = s.pen := rfl
@[simp] theorem State.setSession_drv : (s.setSession n x).drv = s.drv := rfl
@[simp] theorem State.setSession_pin : (s.setSession n x).pin = s.pin := rfl
@[simp] theorem State.setSession_bus : (s.setSession n x).bus = s.bus := rfl
@[simp] theorem State.setSession_sw : (s.setSession n x).sw = s.sw := rfl
@[simp] theorem State.setSession_ring : (s.setSession n x).ring = s.ring := rfl
@[simp] theorem State.setSession_muster : (s.setSession n x).muster = s.muster := rfl
@[simp] theorem State.setSession_time : (s.setSession n x).time = s.time := rfl
@[simp] theorem State.setSession_pair : (s.setSession n x).pair = s.pair := rfl
@[simp] theorem State.setSession_upd : (s.setSession n x).upd = s.upd := rfl
@[simp] theorem State.setSession_gate : (s.setSession n x).gate = s.gate := rfl
@[simp] theorem State.setSession_power : (s.setSession n x).power = s.power := rfl
@[simp] theorem State.setSession_fold : (s.setSession n x).fold = s.fold := rfl
@[simp] theorem State.setSession_dict : (s.setSession n x).dict = { s.dict with sessions := Tab.set Session.none s.dict.sessions n x } := rfl
@[simp] theorem State.setSession_host : (s.setSession n x).host = s.host := rfl
@[simp] theorem State.setSession_quay : (s.setSession n x).quay = s.quay := rfl
@[simp] theorem State.setSession_svc : (s.setSession n x).svc = s.svc := rfl
@[simp] theorem State.setSession_bell : (s.setSession n x).bell = s.bell := rfl
@[simp] theorem State.setSession_tally : (s.setSession n x).tally = s.tally := rfl
@[simp] theorem State.setSession_trace : (s.setSession n x).trace = s.trace := rfl
end

/-! setSlot -/

section
variable (s : State) (k : Nat) (x : Slot)
@[simp] theorem State.setSlot_pending : (s.setSlot k x).pending = s.pending := rfl
@[simp] theorem State.setSlot_outbox : (s.setSlot k x).outbox = s.outbox := rfl
@[simp] theorem State.setSlot_freeAt : (s.setSlot k x).freeAt = s.freeAt := rfl
@[simp] theorem State.setSlot_tide : (s.setSlot k x).tide = s.tide := rfl
@[simp] theorem State.setSlot_table : (s.setSlot k x).table = s.table := rfl
@[simp] theorem State.setSlot_ledger : (s.setSlot k x).ledger = s.ledger := rfl
@[simp] theorem State.setSlot_image : (s.setSlot k x).image = s.image := rfl
@[simp] theorem State.setSlot_pen : (s.setSlot k x).pen = s.pen := rfl
@[simp] theorem State.setSlot_drv : (s.setSlot k x).drv = s.drv := rfl
@[simp] theorem State.setSlot_pin : (s.setSlot k x).pin = s.pin := rfl
@[simp] theorem State.setSlot_bus : (s.setSlot k x).bus = s.bus := rfl
@[simp] theorem State.setSlot_sw : (s.setSlot k x).sw = s.sw := rfl
@[simp] theorem State.setSlot_ring : (s.setSlot k x).ring = s.ring := rfl
@[simp] theorem State.setSlot_muster : (s.setSlot k x).muster = s.muster := rfl
@[simp] theorem State.setSlot_time : (s.setSlot k x).time = s.time := rfl
@[simp] theorem State.setSlot_pair : (s.setSlot k x).pair = s.pair := rfl
@[simp] theorem State.setSlot_upd : (s.setSlot k x).upd = s.upd := rfl
@[simp] theorem State.setSlot_gate : (s.setSlot k x).gate = s.gate := rfl
@[simp] theorem State.setSlot_power : (s.setSlot k x).power = s.power := rfl
@[simp] theorem State.setSlot_fold : (s.setSlot k x).fold = { s.fold with slots := Tab.set Slot.none s.fold.slots k x } := rfl
@[simp] theorem State.setSlot_dict : (s.setSlot k x).dict = s.dict := rfl
@[simp] theorem State.setSlot_host : (s.setSlot k x).host = s.host := rfl
@[simp] theorem State.setSlot_quay : (s.setSlot k x).quay = s.quay := rfl
@[simp] theorem State.setSlot_svc : (s.setSlot k x).svc = s.svc := rfl
@[simp] theorem State.setSlot_bell : (s.setSlot k x).bell = s.bell := rfl
@[simp] theorem State.setSlot_tally : (s.setSlot k x).tally = s.tally := rfl
@[simp] theorem State.setSlot_trace : (s.setSlot k x).trace = s.trace := rfl
end

/-! setOtp -/

section
variable (s : State) (k : Nat) (x : OtpKey)
@[simp] theorem State.setOtp_pending : (s.setOtp k x).pending = s.pending := rfl
@[simp] theorem State.setOtp_outbox : (s.setOtp k x).outbox = s.outbox := rfl
@[simp] theorem State.setOtp_freeAt : (s.setOtp k x).freeAt = s.freeAt := rfl
@[simp] theorem State.setOtp_tide : (s.setOtp k x).tide = s.tide := rfl
@[simp] theorem State.setOtp_table : (s.setOtp k x).table = s.table := rfl
@[simp] theorem State.setOtp_ledger : (s.setOtp k x).ledger = s.ledger := rfl
@[simp] theorem State.setOtp_image : (s.setOtp k x).image = s.image := rfl
@[simp] theorem State.setOtp_pen : (s.setOtp k x).pen = s.pen := rfl
@[simp] theorem State.setOtp_drv : (s.setOtp k x).drv = s.drv := rfl
@[simp] theorem State.setOtp_pin : (s.setOtp k x).pin = s.pin := rfl
@[simp] theorem State.setOtp_bus : (s.setOtp k x).bus = s.bus := rfl
@[simp] theorem State.setOtp_sw : (s.setOtp k x).sw = s.sw := rfl
@[simp] theorem State.setOtp_ring : (s.setOtp k x).ring = s.ring := rfl
@[simp] theorem State.setOtp_muster : (s.setOtp k x).muster = s.muster := rfl
@[simp] theorem State.setOtp_time : (s.setOtp k x).time = s.time := rfl
@[simp] theorem State.setOtp_pair : (s.setOtp k x).pair = s.pair := rfl
@[simp] theorem State.setOtp_upd : (s.setOtp k x).upd = s.upd := rfl
@[simp] theorem State.setOtp_gate : (s.setOtp k x).gate = s.gate := rfl
@[simp] theorem State.setOtp_power : (s.setOtp k x).power = s.power := rfl
@[simp] theorem State.setOtp_fold : (s.setOtp k x).fold = { s.fold with otp := Tab.set OtpKey.none s.fold.otp k x } := rfl
@[simp] theorem State.setOtp_dict : (s.setOtp k x).dict = s.dict := rfl
@[simp] theorem State.setOtp_host : (s.setOtp k x).host = s.host := rfl
@[simp] theorem State.setOtp_quay : (s.setOtp k x).quay = s.quay := rfl
@[simp] theorem State.setOtp_svc : (s.setOtp k x).svc = s.svc := rfl
@[simp] theorem State.setOtp_bell : (s.setOtp k x).bell = s.bell := rfl
@[simp] theorem State.setOtp_tally : (s.setOtp k x).tally = s.tally := rfl
@[simp] theorem State.setOtp_trace : (s.setOtp k x).trace = s.trace := rfl
end

/-! setQueue -/

section
variable (s : State) (c : Nat) (l : List Access)
@[simp] theorem State.setQueue_pending : (s.setQueue c l).pending = s.pending := rfl
@[simp] theorem State.setQueue_outbox : (s.setQueue c l).outbox = s.outbox := rfl
@[simp] theorem State.setQueue_freeAt : (s.setQueue c l).freeAt = s.freeAt := rfl
@[simp] theorem State.setQueue_tide : (s.setQueue c l).tide = s.tide := rfl
@[simp] theorem State.setQueue_table : (s.setQueue c l).table = s.table := rfl
@[simp] theorem State.setQueue_ledger : (s.setQueue c l).ledger = { s.ledger with queue := Tab.set [] s.ledger.queue c l } := rfl
@[simp] theorem State.setQueue_image : (s.setQueue c l).image = s.image := rfl
@[simp] theorem State.setQueue_pen : (s.setQueue c l).pen = s.pen := rfl
@[simp] theorem State.setQueue_drv : (s.setQueue c l).drv = s.drv := rfl
@[simp] theorem State.setQueue_pin : (s.setQueue c l).pin = s.pin := rfl
@[simp] theorem State.setQueue_bus : (s.setQueue c l).bus = s.bus := rfl
@[simp] theorem State.setQueue_sw : (s.setQueue c l).sw = s.sw := rfl
@[simp] theorem State.setQueue_ring : (s.setQueue c l).ring = s.ring := rfl
@[simp] theorem State.setQueue_muster : (s.setQueue c l).muster = s.muster := rfl
@[simp] theorem State.setQueue_time : (s.setQueue c l).time = s.time := rfl
@[simp] theorem State.setQueue_pair : (s.setQueue c l).pair = s.pair := rfl
@[simp] theorem State.setQueue_upd : (s.setQueue c l).upd = s.upd := rfl
@[simp] theorem State.setQueue_gate : (s.setQueue c l).gate = s.gate := rfl
@[simp] theorem State.setQueue_power : (s.setQueue c l).power = s.power := rfl
@[simp] theorem State.setQueue_fold : (s.setQueue c l).fold = s.fold := rfl
@[simp] theorem State.setQueue_dict : (s.setQueue c l).dict = s.dict := rfl
@[simp] theorem State.setQueue_host : (s.setQueue c l).host = s.host := rfl
@[simp] theorem State.setQueue_quay : (s.setQueue c l).quay = s.quay := rfl
@[simp] theorem State.setQueue_svc : (s.setQueue c l).svc = s.svc := rfl
@[simp] theorem State.setQueue_bell : (s.setQueue c l).bell = s.bell := rfl
@[simp] theorem State.setQueue_tally : (s.setQueue c l).tally = s.tally := rfl
@[simp] theorem State.setQueue_trace : (s.setQueue c l).trace = s.trace := rfl
end

/-! setPen -/

section
variable (s : State) (p : Nat) (x : Pen)
@[simp] theorem State.setPen_pending : (s.setPen p x).pending = s.pending := rfl
@[simp] theorem State.setPen_outbox : (s.setPen p x).outbox = s.outbox := rfl
@[simp] theorem State.setPen_freeAt : (s.setPen p x).freeAt = s.freeAt := rfl
@[simp] theorem State.setPen_tide : (s.setPen p x).tide = s.tide := rfl
@[simp] theorem State.setPen_table : (s.setPen p x).table = s.table := rfl
@[simp] theorem State.setPen_ledger : (s.setPen p x).ledger = s.ledger := rfl
@[simp] theorem State.setPen_image : (s.setPen p x).image = s.image := rfl
@[simp] theorem State.setPen_pen : (s.setPen p x).pen = { s.pen with pens := Tab.set Pen.fresh s.pen.pens p x } := rfl
@[simp] theorem State.setPen_drv : (s.setPen p x).drv = s.drv := rfl
@[simp] theorem State.setPen_pin : (s.setPen p x).pin = s.pin := rfl
@[simp] theorem State.setPen_bus : (s.setPen p x).bus = s.bus := rfl
@[simp] theorem State.setPen_sw : (s.setPen p x).sw = s.sw := rfl
@[simp] theorem State.setPen_ring : (s.setPen p x).ring = s.ring := rfl
@[simp] theorem State.setPen_muster : (s.setPen p x).muster = s.muster := rfl
@[simp] theorem State.setPen_time : (s.setPen p x).time = s.time := rfl
@[simp] theorem State.setPen_pair : (s.setPen p x).pair = s.pair := rfl
@[simp] theorem State.setPen_upd : (s.setPen p x).upd = s.upd := rfl
@[simp] theorem State.setPen_gate : (s.setPen p x).gate = s.gate := rfl
@[simp] theorem State.setPen_power : (s.setPen p x).power = s.power := rfl
@[simp] theorem State.setPen_fold : (s.setPen p x).fold = s.fold := rfl
@[simp] theorem State.setPen_dict : (s.setPen p x).dict = s.dict := rfl
@[simp] theorem State.setPen_host : (s.setPen p x).host = s.host := rfl
@[simp] theorem State.setPen_quay : (s.setPen p x).quay = s.quay := rfl
@[simp] theorem State.setPen_svc : (s.setPen p x).svc = s.svc := rfl
@[simp] theorem State.setPen_bell : (s.setPen p x).bell = s.bell := rfl
@[simp] theorem State.setPen_tally : (s.setPen p x).tally = s.tally := rfl
@[simp] theorem State.setPen_trace : (s.setPen p x).trace = s.trace := rfl
end

/-! setPort -/

section
variable (s : State) (p : Nat) (x : Port)
@[simp] theorem State.setPort_pending : (s.setPort p x).pending = s.pending := rfl
@[simp] theorem State.setPort_outbox : (s.setPort p x).outbox = s.outbox := rfl
@[simp] theorem State.setPort_freeAt : (s.setPort p x).freeAt = s.freeAt := rfl
@[simp] theorem State.setPort_tide : (s.setPort p x).tide = s.tide := rfl
@[simp] theorem State.setPort_table : (s.setPort p x).table = s.table := rfl
@[simp] theorem State.setPort_ledger : (s.setPort p x).ledger = s.ledger := rfl
@[simp] theorem State.setPort_image : (s.setPort p x).image = s.image := rfl
@[simp] theorem State.setPort_pen : (s.setPort p x).pen = s.pen := rfl
@[simp] theorem State.setPort_drv : (s.setPort p x).drv = s.drv := rfl
@[simp] theorem State.setPort_pin : (s.setPort p x).pin = s.pin := rfl
@[simp] theorem State.setPort_bus : (s.setPort p x).bus = s.bus := rfl
@[simp] theorem State.setPort_sw : (s.setPort p x).sw = { s.sw with ports := Tab.set Port.blank s.sw.ports p x } := rfl
@[simp] theorem State.setPort_ring : (s.setPort p x).ring = s.ring := rfl
@[simp] theorem State.setPort_muster : (s.setPort p x).muster = s.muster := rfl
@[simp] theorem State.setPort_time : (s.setPort p x).time = s.time := rfl
@[simp] theorem State.setPort_pair : (s.setPort p x).pair = s.pair := rfl
@[simp] theorem State.setPort_upd : (s.setPort p x).upd = s.upd := rfl
@[simp] theorem State.setPort_gate : (s.setPort p x).gate = s.gate := rfl
@[simp] theorem State.setPort_power : (s.setPort p x).power = s.power := rfl
@[simp] theorem State.setPort_fold : (s.setPort p x).fold = s.fold := rfl
@[simp] theorem State.setPort_dict : (s.setPort p x).dict = s.dict := rfl
@[simp] theorem State.setPort_host : (s.setPort p x).host = s.host := rfl
@[simp] theorem State.setPort_quay : (s.setPort p x).quay = s.quay := rfl
@[simp] theorem State.setPort_svc : (s.setPort p x).svc = s.svc := rfl
@[simp] theorem State.setPort_bell : (s.setPort p x).bell = s.bell := rfl
@[simp] theorem State.setPort_tally : (s.setPort p x).tally = s.tally := rfl
@[simp] theorem State.setPort_trace : (s.setPort p x).trace = s.trace := rfl
end

/-! setBq -/

section
variable (s : State) (p tc : Nat) (l : List QFrame)
@[simp] theorem State.setBq_pending : (s.setBq p tc l).pending = s.pending := rfl
@[simp] theorem State.setBq_outbox : (s.setBq p tc l).outbox = s.outbox := rfl
@[simp] theorem State.setBq_freeAt : (s.setBq p tc l).freeAt = s.freeAt := rfl
@[simp] theorem State.setBq_tide : (s.setBq p tc l).tide = s.tide := rfl
@[simp] theorem State.setBq_table : (s.setBq p tc l).table = s.table := rfl
@[simp] theorem State.setBq_ledger : (s.setBq p tc l).ledger = s.ledger := rfl
@[simp] theorem State.setBq_image : (s.setBq p tc l).image = s.image := rfl
@[simp] theorem State.setBq_pen : (s.setBq p tc l).pen = s.pen := rfl
@[simp] theorem State.setBq_drv : (s.setBq p tc l).drv = s.drv := rfl
@[simp] theorem State.setBq_pin : (s.setBq p tc l).pin = s.pin := rfl
@[simp] theorem State.setBq_bus : (s.setBq p tc l).bus = s.bus := rfl
@[simp] theorem State.setBq_sw : (s.setBq p tc l).sw = { s.sw with queues := Tab.set [] s.sw.queues (8 * p + tc) l } := rfl
@[simp] theorem State.setBq_ring : (s.setBq p tc l).ring = s.ring := rfl
@[simp] theorem State.setBq_muster : (s.setBq p tc l).muster = s.muster := rfl
@[simp] theorem State.setBq_time : (s.setBq p tc l).time = s.time := rfl
@[simp] theorem State.setBq_pair : (s.setBq p tc l).pair = s.pair := rfl
@[simp] theorem State.setBq_upd : (s.setBq p tc l).upd = s.upd := rfl
@[simp] theorem State.setBq_gate : (s.setBq p tc l).gate = s.gate := rfl
@[simp] theorem State.setBq_power : (s.setBq p tc l).power = s.power := rfl
@[simp] theorem State.setBq_fold : (s.setBq p tc l).fold = s.fold := rfl
@[simp] theorem State.setBq_dict : (s.setBq p tc l).dict = s.dict := rfl
@[simp] theorem State.setBq_host : (s.setBq p tc l).host = s.host := rfl
@[simp] theorem State.setBq_quay : (s.setBq p tc l).quay = s.quay := rfl
@[simp] theorem State.setBq_svc : (s.setBq p tc l).svc = s.svc := rfl
@[simp] theorem State.setBq_bell : (s.setBq p tc l).bell = s.bell := rfl
@[simp] theorem State.setBq_tally : (s.setBq p tc l).tally = s.tally := rfl
@[simp] theorem State.setBq_trace : (s.setBq p tc l).trace = s.trace := rfl
end

/-! setSchedQ -/

section
variable (s : State) (p : Nat) (l : List SchedFrame)
@[simp] theorem State.setSchedQ_pending : (s.setSchedQ p l).pending = s.pending := rfl
@[simp] theorem State.setSchedQ_outbox : (s.setSchedQ p l).outbox = s.outbox := rfl
@[simp] theorem State.setSchedQ_freeAt : (s.setSchedQ p l).freeAt = s.freeAt := rfl
@[simp] theorem State.setSchedQ_tide : (s.setSchedQ p l).tide = s.tide := rfl
@[simp] theorem State.setSchedQ_table : (s.setSchedQ p l).table = s.table := rfl
@[simp] theorem State.setSchedQ_ledger : (s.setSchedQ p l).ledger = s.ledger := rfl
@[simp] theorem State.setSchedQ_image : (s.setSchedQ p l).image = s.image := rfl
@[simp] theorem State.setSchedQ_pen : (s.setSchedQ p l).pen = s.pen := rfl
@[simp] theorem State.setSchedQ_drv : (s.setSchedQ p l).drv = s.drv := rfl
@[simp] theorem State.setSchedQ_pin : (s.setSchedQ p l).pin = s.pin := rfl
@[simp] theorem State.setSchedQ_bus : (s.setSchedQ p l).bus = s.bus := rfl
@[simp] theorem State.setSchedQ_sw : (s.setSchedQ p l).sw = { s.sw with sched := Tab.set [] s.sw.sched p l } := rfl
@[simp] theorem State.setSchedQ_ring : (s.setSchedQ p l).ring = s.ring := rfl
@[simp] theorem State.setSchedQ_muster : (s.setSchedQ p l).muster = s.muster := rfl
@[simp] theorem State.setSchedQ_time : (s.setSchedQ p l).time = s.time := rfl
@[simp] theorem State.setSchedQ_pair : (s.setSchedQ p l).pair = s.pair := rfl
@[simp] theorem State.setSchedQ_upd : (s.setSchedQ p l).upd = s.upd := rfl
@[simp] theorem State.setSchedQ_gate : (s.setSchedQ p l).gate = s.gate := rfl
@[simp] theorem State.setSchedQ_power : (s.setSchedQ p l).power = s.power := rfl
@[simp] theorem State.setSchedQ_fold : (s.setSchedQ p l).fold = s.fold := rfl
@[simp] theorem State.setSchedQ_dict : (s.setSchedQ p l).dict = s.dict := rfl
@[simp] theorem State.setSchedQ_host : (s.setSchedQ p l).host = s.host := rfl
@[simp] theorem State.setSchedQ_quay : (s.setSchedQ p l).quay = s.quay := rfl
@[simp] theorem State.setSchedQ_svc : (s.setSchedQ p l).svc = s.svc := rfl
@[simp] theorem State.setSchedQ_bell : (s.setSchedQ p l).bell = s.bell := rfl
@[simp] theorem State.setSchedQ_tally : (s.setSchedQ p l).tally = s.tally := rfl
@[simp] theorem State.setSchedQ_trace : (s.setSchedQ p l).trace = s.trace := rfl
end

/-! setDomain -/

section
variable (s : State) (d : Nat) (x : Domain)
@[simp] theorem State.setDomain_pending : (s.setDomain d x).pending = s.pending := rfl
@[simp] theorem State.setDomain_outbox : (s.setDomain d x).outbox = s.outbox := rfl
@[simp] theorem State.setDomain_freeAt : (s.setDomain d x).freeAt = s.freeAt := rfl
@[simp] theorem State.setDomain_tide : (s.setDomain d x).tide = s.tide := rfl
@[simp] theorem State.setDomain_table : (s.setDomain d x).table = s.table := rfl
@[simp] theorem State.setDomain_ledger : (s.setDomain d x).ledger = s.ledger := rfl
@[simp] theorem State.setDomain_image : (s.setDomain d x).image = s.image := rfl
@[simp] theorem State.setDomain_pen : (s.setDomain d x).pen = s.pen := rfl
@[simp] theorem State.setDomain_drv : (s.setDomain d x).drv = s.drv := rfl
@[simp] theorem State.setDomain_pin : (s.setDomain d x).pin = s.pin := rfl
@[simp] theorem State.setDomain_bus : (s.setDomain d x).bus = s.bus := rfl
@[simp] theorem State.setDomain_sw : (s.setDomain d x).sw = s.sw := rfl
@[simp] theorem State.setDomain_ring : (s.setDomain d x).ring = s.ring := rfl
@[simp] theorem State.setDomain_muster : (s.setDomain d x).muster = s.muster := rfl
@[simp] theorem State.setDomain_time : (s.setDomain d x).time = { s.time with domains := Tab.set Domain.blank s.time.domains d x } := rfl
@[simp] theorem State.setDomain_pair : (s.setDomain d x).pair = s.pair := rfl
@[simp] theorem State.setDomain_upd : (s.setDomain d x).upd = s.upd := rfl
@[simp] theorem State.setDomain_gate : (s.setDomain d x).gate = s.gate := rfl
@[simp] theorem State.setDomain_power : (s.setDomain d x).power = s.power := rfl
@[simp] theorem State.setDomain_fold : (s.setDomain d x).fold = s.fold := rfl
@[simp] theorem State.setDomain_dict : (s.setDomain d x).dict = s.dict := rfl
@[simp] theorem State.setDomain_host : (s.setDomain d x).host = s.host := rfl
@[simp] theorem State.setDomain_quay : (s.setDomain d x).quay = s.quay := rfl
@[simp] theorem State.setDomain_svc : (s.setDomain d x).svc = s.svc := rfl
@[simp] theorem State.setDomain_bell : (s.setDomain d x).bell = s.bell := rfl
@[simp] theorem State.setDomain_tally : (s.setDomain d x).tally = s.tally := rfl
@[simp] theorem State.setDomain_trace : (s.setDomain d x).trace = s.trace := rfl
end

/-! setDrover -/

section
variable (s : State) (k : Nat) (x : Drover)
@[simp] theorem State.setDrover_pending : (s.setDrover k x).pending = s.pending := rfl
@[simp] theorem State.setDrover_outbox : (s.setDrover k x).outbox = s.outbox := rfl
@[simp] theorem State.setDrover_freeAt : (s.setDrover k x).freeAt = s.freeAt := rfl
@[simp] theorem State.setDrover_tide : (s.setDrover k x).tide = s.tide := rfl
@[simp] theorem State.setDrover_table : (s.setDrover k x).table = s.table := rfl
@[simp] theorem State.setDrover_ledger : (s.setDrover k x).ledger = s.ledger := rfl
@[simp] theorem State.setDrover_image : (s.setDrover k x).image = s.image := rfl
@[simp] theorem State.setDrover_pen : (s.setDrover k x).pen = s.pen := rfl
@[simp] theorem State.setDrover_drv : (s.setDrover k x).drv = { s.drv with drovers := Tab.set Drover.blank s.drv.drovers k x } := rfl
@[simp] theorem State.setDrover_pin : (s.setDrover k x).pin = s.pin := rfl
@[simp] theorem State.setDrover_bus : (s.setDrover k x).bus = s.bus := rfl
@[simp] theorem State.setDrover_sw : (s.setDrover k x).sw = s.sw := rfl
@[simp] theorem State.setDrover_ring : (s.setDrover k x).ring = s.ring := rfl
@[simp] theorem State.setDrover_muster : (s.setDrover k x).muster = s.muster := rfl
@[simp] theorem State.setDrover_time : (s.setDrover k x).time = s.time := rfl
@[simp] theorem State.setDrover_pair : (s.setDrover k x).pair = s.pair := rfl
@[simp] theorem State.setDrover_upd : (s.setDrover k x).upd = s.upd := rfl
@[simp] theorem State.setDrover_gate : (s.setDrover k x).gate = s.gate := rfl
@[simp] theorem State.setDrover_power : (s.setDrover k x).power = s.power := rfl
@[simp] theorem State.setDrover_fold : (s.setDrover k x).fold = s.fold := rfl
@[simp] theorem State.setDrover_dict : (s.setDrover k x).dict = s.dict := rfl
@[simp] theorem State.setDrover_host : (s.setDrover k x).host = s.host := rfl
@[simp] theorem State.setDrover_quay : (s.setDrover k x).quay = s.quay := rfl
@[simp] theorem State.setDrover_svc : (s.setDrover k x).svc = s.svc := rfl
@[simp] theorem State.setDrover_bell : (s.setDrover k x).bell = s.bell := rfl
@[simp] theorem State.setDrover_tally : (s.setDrover k x).tally = s.tally := rfl
@[simp] theorem State.setDrover_trace : (s.setDrover k x).trace = s.trace := rfl
end

/-! setDrove -/

section
variable (s : State) (d : Nat) (x : Drove)
@[simp] theorem State.setDrove_pending : (s.setDrove d x).pending = s.pending := rfl
@[simp] theorem State.setDrove_outbox : (s.setDrove d x).outbox = s.outbox := rfl
@[simp] theorem State.setDrove_freeAt : (s.setDrove d x).freeAt = s.freeAt := rfl
@[simp] theorem State.setDrove_tide : (s.setDrove d x).tide = s.tide := rfl
@[simp] theorem State.setDrove_table : (s.setDrove d x).table = s.table := rfl
@[simp] theorem State.setDrove_ledger : (s.setDrove d x).ledger = s.ledger := rfl
@[simp] theorem State.setDrove_image : (s.setDrove d x).image = s.image := rfl
@[simp] theorem State.setDrove_pen : (s.setDrove d x).pen = s.pen := rfl
@[simp] theorem State.setDrove_drv : (s.setDrove d x).drv = { s.drv with droves := Tab.set Drove.blank s.drv.droves d x } := rfl
@[simp] theorem State.setDrove_pin : (s.setDrove d x).pin = s.pin := rfl
@[simp] theorem State.setDrove_bus : (s.setDrove d x).bus = s.bus := rfl
@[simp] theorem State.setDrove_sw : (s.setDrove d x).sw = s.sw := rfl
@[simp] theorem State.setDrove_ring : (s.setDrove d x).ring = s.ring := rfl
@[simp] theorem State.setDrove_muster : (s.setDrove d x).muster = s.muster := rfl
@[simp] theorem State.setDrove_time : (s.setDrove d x).time = s.time := rfl
@[simp] theorem State.setDrove_pair : (s.setDrove d x).pair = s.pair := rfl
@[simp] theorem State.setDrove_upd : (s.setDrove d x).upd = s.upd := rfl
@[simp] theorem State.setDrove_gate : (s.setDrove d x).gate = s.gate := rfl
@[simp] theorem State.setDrove_power : (s.setDrove d x).power = s.power := rfl
@[simp] theorem State.setDrove_fold : (s.setDrove d x).fold = s.fold := rfl
@[simp] theorem State.setDrove_dict : (s.setDrove d x).dict = s.dict := rfl
@[simp] theorem State.setDrove_host : (s.setDrove d x).host = s.host := rfl
@[simp] theorem State.setDrove_quay : (s.setDrove d x).quay = s.quay := rfl
@[simp] theorem State.setDrove_svc : (s.setDrove d x).svc = s.svc := rfl
@[simp] theorem State.setDrove_bell : (s.setDrove d x).bell = s.bell := rfl
@[simp] theorem State.setDrove_tally : (s.setDrove d x).tally = s.tally := rfl
@[simp] theorem State.setDrove_trace : (s.setDrove d x).trace = s.trace := rfl
end

/-! setBeacon -/

section
variable (s : State) (b : Nat) (x : Beacon)
@[simp] theorem State.setBeacon_pending : (s.setBeacon b x).pending = s.pending := rfl
@[simp] theorem State.setBeacon_outbox : (s.setBeacon b x).outbox = s.outbox := rfl
@[simp] theorem State.setBeacon_freeAt : (s.setBeacon b x).freeAt = s.freeAt := rfl
@[simp] theorem State.setBeacon_tide : (s.setBeacon b x).tide = s.tide := rfl
@[simp] theorem State.setBeacon_table : (s.setBeacon b x).table = s.table := rfl
@[simp] theorem State.setBeacon_ledger : (s.setBeacon b x).ledger = s.ledger := rfl
@[simp] theorem State.setBeacon_image : (s.setBeacon b x).image = s.image := rfl
@[simp] theorem State.setBeacon_pen : (s.setBeacon b x).pen = s.pen := rfl
@[simp] theorem State.setBeacon_drv : (s.setBeacon b x).drv = s.drv := rfl
@[simp] theorem State.setBeacon_pin : (s.setBeacon b x).pin = { s.pin with beacons := Tab.set Beacon.blank s.pin.beacons b x } := rfl
@[simp] theorem State.setBeacon_bus : (s.setBeacon b x).bus = s.bus := rfl
@[simp] theorem State.setBeacon_sw : (s.setBeacon b x).sw = s.sw := rfl
@[simp] theorem State.setBeacon_ring : (s.setBeacon b x).ring = s.ring := rfl
@[simp] theorem State.setBeacon_muster : (s.setBeacon b x).muster = s.muster := rfl
@[simp] theorem State.setBeacon_time : (s.setBeacon b x).time = s.time := rfl
@[simp] theorem State.setBeacon_pair : (s.setBeacon b x).pair = s.pair := rfl
@[simp] theorem State.setBeacon_upd : (s.setBeacon b x).upd = s.upd := rfl
@[simp] theorem State.setBeacon_gate : (s.setBeacon b x).gate = s.gate := rfl
@[simp] theorem State.setBeacon_power : (s.setBeacon b x).power = s.power := rfl
@[simp] theorem State.setBeacon_fold : (s.setBeacon b x).fold = s.fold := rfl
@[simp] theorem State.setBeacon_dict : (s.setBeacon b x).dict = s.dict := rfl
@[simp] theorem State.setBeacon_host : (s.setBeacon b x).host = s.host := rfl
@[simp] theorem State.setBeacon_quay : (s.setBeacon b x).quay = s.quay := rfl
@[simp] theorem State.setBeacon_svc : (s.setBeacon b x).svc = s.svc := rfl
@[simp] theorem State.setBeacon_bell : (s.setBeacon b x).bell = s.bell := rfl
@[simp] theorem State.setBeacon_tally : (s.setBeacon b x).tally = s.tally := rfl
@[simp] theorem State.setBeacon_trace : (s.setBeacon b x).trace = s.trace := rfl
end

/-! setChan -/

section
variable (s : State) (c : Nat) (x : BusChan)
@[simp] theorem State.setChan_pending : (s.setChan c x).pending = s.pending := rfl
@[simp] theorem State.setChan_outbox : (s.setChan c x).outbox = s.outbox := rfl
@[simp] theorem State.setChan_freeAt : (s.setChan c x).freeAt = s.freeAt := rfl
@[simp] theorem State.setChan_tide : (s.setChan c x).tide = s.tide := rfl
@[simp] theorem State.setChan_table : (s.setChan c x).table = s.table := rfl
@[simp] theorem State.setChan_ledger : (s.setChan c x).ledger = s.ledger := rfl
@[simp] theorem State.setChan_image : (s.setChan c x).image = s.image := rfl
@[simp] theorem State.setChan_pen : (s.setChan c x).pen = s.pen := rfl
@[simp] theorem State.setChan_drv : (s.setChan c x).drv = s.drv := rfl
@[simp] theorem State.setChan_pin : (s.setChan c x).pin = s.pin := rfl
@[simp] theorem State.setChan_bus : (s.setChan c x).bus = { s.bus with chans := Tab.set BusChan.blank s.bus.chans c x } := rfl
@[simp] theorem State.setChan_sw : (s.setChan c x).sw = s.sw := rfl
@[simp] theorem State.setChan_ring : (s.setChan c x).ring = s.ring := rfl
@[simp] theorem State.setChan_muster : (s.setChan c x).muster = s.muster := rfl
@[simp] theorem State.setChan_time : (s.setChan c x).time = s.time := rfl
@[simp] theorem State.setChan_pair : (s.setChan c x).pair = s.pair := rfl
@[simp] theorem State.setChan_upd : (s.setChan c x).upd = s.upd := rfl
@[simp] theorem State.setChan_gate : (s.setChan c x).gate = s.gate := rfl
@[simp] theorem State.setChan_power : (s.setChan c x).power = s.power := rfl
@[simp] theorem State.setChan_fold : (s.setChan c x).fold = s.fold := rfl
@[simp] theorem State.setChan_dict : (s.setChan c x).dict = s.dict := rfl
@[simp] theorem State.setChan_host : (s.setChan c x).host = s.host := rfl
@[simp] theorem State.setChan_quay : (s.setChan c x).quay = s.quay := rfl
@[simp] theorem State.setChan_svc : (s.setChan c x).svc = s.svc := rfl
@[simp] theorem State.setChan_bell : (s.setChan c x).bell = s.bell := rfl
@[simp] theorem State.setChan_tally : (s.setChan c x).tally = s.tally := rfl
@[simp] theorem State.setChan_trace : (s.setChan c x).trace = s.trace := rfl
end

/-! setLink -/

section
variable (s : State) (l : Nat) (x : RLink)
@[simp] theorem State.setLink_pending : (s.setLink l x).pending = s.pending := rfl
@[simp] theorem State.setLink_outbox : (s.setLink l x).outbox = s.outbox := rfl
@[simp] theorem State.setLink_freeAt : (s.setLink l x).freeAt = s.freeAt := rfl
@[simp] theorem State.setLink_tide : (s.setLink l x).tide = s.tide := rfl
@[simp] theorem State.setLink_table : (s.setLink l x).table = s.table := rfl
@[simp] theorem State.setLink_ledger : (s.setLink l x).ledger = s.ledger := rfl
@[simp] theorem State.setLink_image : (s.setLink l x).image = s.image := rfl
@[simp] theorem State.setLink_pen : (s.setLink l x).pen = s.pen := rfl
@[simp] theorem State.setLink_drv : (s.setLink l x).drv = s.drv := rfl
@[simp] theorem State.setLink_pin : (s.setLink l x).pin = s.pin := rfl
@[simp] theorem State.setLink_bus : (s.setLink l x).bus = s.bus := rfl
@[simp] theorem State.setLink_sw : (s.setLink l x).sw = s.sw := rfl
@[simp] theorem State.setLink_ring : (s.setLink l x).ring = { s.ring with links := Tab.set RLink.blank s.ring.links l x } := rfl
@[simp] theorem State.setLink_muster : (s.setLink l x).muster = s.muster := rfl
@[simp] theorem State.setLink_time : (s.setLink l x).time = s.time := rfl
@[simp] theorem State.setLink_pair : (s.setLink l x).pair = s.pair := rfl
@[simp] theorem State.setLink_upd : (s.setLink l x).upd = s.upd := rfl
@[simp] theorem State.setLink_gate : (s.setLink l x).gate = s.gate := rfl
@[simp] theorem State.setLink_power : (s.setLink l x).power = s.power := rfl
@[simp] theorem State.setLink_fold : (s.setLink l x).fold = s.fold := rfl
@[simp] theorem State.setLink_dict : (s.setLink l x).dict = s.dict := rfl
@[simp] theorem State.setLink_host : (s.setLink l x).host = s.host := rfl
@[simp] theorem State.setLink_quay : (s.setLink l x).quay = s.quay := rfl
@[simp] theorem State.setLink_svc : (s.setLink l x).svc = s.svc := rfl
@[simp] theorem State.setLink_bell : (s.setLink l x).bell = s.bell := rfl
@[simp] theorem State.setLink_tally : (s.setLink l x).tally = s.tally := rfl
@[simp] theorem State.setLink_trace : (s.setLink l x).trace = s.trace := rfl
end

/-! setProfile -/

section
variable (s : State) (n : Nat) (x : Profile)
@[simp] theorem State.setProfile_pending : (s.setProfile n x).pending = s.pending := rfl
@[simp] theorem State.setProfile_outbox : (s.setProfile n x).outbox = s.outbox := rfl
@[simp] theorem State.setProfile_freeAt : (s.setProfile n x).freeAt = s.freeAt := rfl
@[simp] theorem State.setProfile_tide : (s.setProfile n x).tide = s.tide := rfl
@[simp] theorem State.setProfile_table : (s.setProfile n x).table = s.table := rfl
@[simp] theorem State.setProfile_ledger : (s.setProfile n x).ledger = s.ledger := rfl
@[simp] theorem State.setProfile_image : (s.setProfile n x).image = s.image := rfl
@[simp] theorem State.setProfile_pen : (s.setProfile n x).pen = s.pen := rfl
@[simp] theorem State.setProfile_drv : (s.setProfile n x).drv = s.drv := rfl
@[simp] theorem State.setProfile_pin : (s.setProfile n x).pin = s.pin := rfl
@[simp] theorem State.setProfile_bus : (s.setProfile n x).bus = s.bus := rfl
@[simp] theorem State.setProfile_sw : (s.setProfile n x).sw = s.sw := rfl
@[simp] theorem State.setProfile_ring : (s.setProfile n x).ring = s.ring := rfl
@[simp] theorem State.setProfile_muster : (s.setProfile n x).muster = s.muster := rfl
@[simp] theorem State.setProfile_time : (s.setProfile n x).time = s.time := rfl
@[simp] theorem State.setProfile_pair : (s.setProfile n x).pair = s.pair := rfl
@[simp] theorem State.setProfile_upd : (s.setProfile n x).upd = { s.upd with profiles := Tab.set Profile.none s.upd.profiles n x } := rfl
@[simp] theorem State.setProfile_gate : (s.setProfile n x).gate = s.gate := rfl
@[simp] theorem State.setProfile_power : (s.setProfile n x).power = s.power := rfl
@[simp] theorem State.setProfile_fold : (s.setProfile n x).fold = s.fold := rfl
@[simp] theorem State.setProfile_dict : (s.setProfile n x).dict = s.dict := rfl
@[simp] theorem State.setProfile_host : (s.setProfile n x).host = s.host := rfl
@[simp] theorem State.setProfile_quay : (s.setProfile n x).quay = s.quay := rfl
@[simp] theorem State.setProfile_svc : (s.setProfile n x).svc = s.svc := rfl
@[simp] theorem State.setProfile_bell : (s.setProfile n x).bell = s.bell := rfl
@[simp] theorem State.setProfile_tally : (s.setProfile n x).tally = s.tally := rfl
@[simp] theorem State.setProfile_trace : (s.setProfile n x).trace = s.trace := rfl
end

/-! What a reader reads after an update that stores no blank -/

theorem State.gateAt_setGate (s : State) (n k : Nat) {x : Gate} (h : x ≠ Gate.blank) : (s.setGate n x).gateAt k = if k = n then x else s.gateAt k :=
  get_set_of_ne h

theorem State.src_setSrc (s : State) (n k : Nat) {x : Source} (h : x ≠ Source.quiet) : (s.setSrc n x).src k = if k = n then x else s.src k :=
  get_set_of_ne h

theorem State.session_setSession (s : State) (n k : Nat) {x : Session} (h : x ≠ Session.none) : (s.setSession n x).session k = if k = n then x else s.session k :=
  get_set_of_ne h

theorem State.slot_setSlot (s : State) (n k : Nat) {x : Slot} (h : x ≠ Slot.none) : (s.setSlot n x).slot k = if k = n then x else s.slot k :=
  get_set_of_ne h

theorem State.penAt_setPen (s : State) (n k : Nat) {x : Pen} (h : x ≠ Pen.fresh) : (s.setPen n x).penAt k = if k = n then x else s.penAt k :=
  get_set_of_ne h

theorem State.port_setPort (s : State) (n k : Nat) {x : Port} (h : x ≠ Port.blank) : (s.setPort n x).port k = if k = n then x else s.port k :=
  get_set_of_ne h

theorem State.domain_setDomain (s : State) (n k : Nat) {x : Domain} (h : x ≠ Domain.blank) : (s.setDomain n x).domain k = if k = n then x else s.domain k :=
  get_set_of_ne h

theorem State.drover_setDrover (s : State) (n k : Nat) {x : Drover} (h : x ≠ Drover.blank) : (s.setDrover n x).drover k = if k = n then x else s.drover k :=
  get_set_of_ne h

theorem State.drove_setDrove (s : State) (n k : Nat) {x : Drove} (h : x ≠ Drove.blank) : (s.setDrove n x).drove k = if k = n then x else s.drove k :=
  get_set_of_ne h

theorem State.beacon_setBeacon (s : State) (n k : Nat) {x : Beacon} (h : x ≠ Beacon.blank) : (s.setBeacon n x).beacon k = if k = n then x else s.beacon k :=
  get_set_of_ne h

theorem State.chan_setChan (s : State) (n k : Nat) {x : BusChan} (h : x ≠ BusChan.blank) : (s.setChan n x).chan k = if k = n then x else s.chan k :=
  get_set_of_ne h

theorem State.link_setLink (s : State) (n k : Nat) {x : RLink} (h : x ≠ RLink.blank) : (s.setLink n x).link k = if k = n then x else s.link k :=
  get_set_of_ne h

theorem State.profile_setProfile (s : State) (n k : Nat) {x : Profile} (h : x ≠ Profile.none) : (s.setProfile n x).profile k = if k = n then x else s.profile k :=
  get_set_of_ne h

end Sys2Proof.Machine
end

