-- ==== Sys2Proof/Laws/Store.lean ====
section
/-! SUPPORT. Stores to lines: what a write leaves as it is, and what each act of a stroke in flight does to the image. -/

open Sys2Proof Sys2Proof.Machine

namespace Sys2Proof.Laws

theorem line_of_lines {a b : State} (h : Lines a b) (up : Bool) (P : Nat) : b.line up P = a.line up P := by
  unfold State.line; rw [h.image_pasture, h.image_upland]

/-- The image's tiers in canonical form. -/
def Tiers (s : State) : Prop := Tab.wf Line.fresh s.image.pasture = true ∧ Tab.wf Line.fresh s.image.upland = true

/-- b is a but for line P of a tier. -/
structure Else (up : Bool) (P : Nat) (a b : State) : Prop where
  t : b.tide.t = a.tide.t
  table : b.table = a.table
  wf : Tiers a → Tiers b
  line : Tiers a → ∀ u Q, ¬ (u = up ∧ Q = P) → b.line u Q = a.line u Q

theorem Else.of {up : Bool} {P : Nat} {a b : State} (h : Lines a b) : Else up P a b :=
  ⟨h.tide_t, h.table, fun w => ⟨h.image_pasture ▸ w.1, h.image_upland ▸ w.2⟩, fun _ u Q _ => line_of_lines h u Q⟩

theorem Else.trans {up : Bool} {P : Nat} {a b c : State} (h : Else up P a b) (g : Else up P b c) : Else up P a c :=
  ⟨g.1.trans h.1, g.2.trans h.2, fun w => g.3 (h.3 w), fun w u Q n => (g.4 (h.3 w) u Q n).trans (h.4 w u Q n)⟩

theorem Else.setLine {up : Bool} {P : Nat} {a : State} {l : Line} : Else up P a (a.setLine up P l) := by
  unfold State.setLine
  cases up
  · refine ⟨rfl, rfl, fun w => ⟨wf_set w.1, w.2⟩, fun w u Q n => ?_⟩
    cases u
    · show Tab.get _ (Tab.set _ _ _ _) _ = _
      rw [get_set w.1, if_neg fun e => n ⟨rfl, e⟩]; rfl
    · rfl
  · refine ⟨rfl, rfl, fun w => ⟨w.1, wf_set w.2⟩, fun w u Q n => ?_⟩
    cases u
    · rfl
    · show Tab.get _ (Tab.set _ _ _ _) _ = _
      rw [get_set w.2, if_neg fun e => n ⟨rfl, e⟩]; rfl

theorem lines_heldClear (s : State) (up : Bool) (L m : Nat) : Lines s (s.heldClear up L m) := by
  unfold State.heldClear
  dsimp only
  split
  · exact lines_heldFull _ _ _ ⟨rfl, rfl, rfl, rfl⟩
  · exact ⟨rfl, rfl, rfl, rfl⟩

theorem Else.after {up : Bool} {P : Nat} {a b c : State} (h : Else up P a b) (g : Lines b c) : Else up P a c :=
  h.trans (Else.of g)

theorem Else.writeOver (s : State) (up : Bool) (P m : Nat) (w : List Word) (tag : Option Nat) (bad : Bool) (o : List Word) :
    Else up P s (s.writeOver up P m w tag bad o).1 := by
  unfold State.writeOver
  split
  · exact (Else.of (lines_refusePoison _ _ _ (Lines.refl s))).trans Else.setLine
  · refine Else.after (b := _) ?_ (lines_heldClear _ _ _ _)
    exact Else.setLine.after ⟨rfl, rfl, rfl, rfl⟩

theorem Else.writeLine (s : State) (up : Bool) (P m : Nat) (w : List Word) (tag : Option Nat) :
    Else up P s (s.writeLine up P m w tag).1 := by
  unfold State.writeLine
  split
  · unfold State.writeWhole
    dsimp only
    refine Else.after (b := _) ?_ (lines_heldClear _ _ _ _)
    exact Else.setLine.after ⟨rfl, rfl, rfl, rfl⟩
  · split
    · exact Else.of (Lines.refl s)
    · exact (Else.of (lines_checkLine s up P (Lines.refl s))).trans (Else.writeOver _ _ _ _ _ _ _ _)

/-- A scheduled write changes the line of its place and no other. -/
theorem schedWrite_else (s : State) (p : Place) (m : Nat) (w : List Word) (old : Option (Bool × List Word)) :
    Else p.up p.line s (s.schedWrite p m w old) := by
  unfold State.schedWrite
  split
  · exact Else.writeOver _ _ _ _ _ _ _ _
  · exact Else.writeLine _ _ _ _ _ _

theorem tableEcc_good {s : State} {sl : Nat} {l : List Ecc} (h : l.all (· == .good) = true) : s.tableEcc sl l = s := by
  unfold State.tableEcc
  have hm : l.contains .multi = false := by
    rw [Bool.eq_false_iff]; intro c
    rw [List.contains_iff_mem] at c
    have := List.all_eq_true.mp h _ c
    simp at this
  have hf : ∀ (l : List Ecc) (s : State), l.all (· == .good) = true →
      l.foldl (fun s e => if e = .single then s.bumpFld 0x02027 0 35 18 else s) s = s := by
    intro l
    induction l with
    | nil => intro s _; rfl
    | cons e l ih =>
      intro s h
      simp only [List.all_cons, Bool.and_eq_true] at h
      have : e = .good := by simpa using h.1
      subst this
      simp only [List.foldl_cons, reduceCtorEq, if_false]
      exact ih s h.2
  rw [hf l s h, hm]
  rfl

/-! ### What a stroke in flight does to the image -/

/-- A cycle leaves the image's lines as they are, or writes one line of the flight's destination; the flight keeps its
stroke and its places. -/
structure Acted (s : State) (f : Flight) (r : State × Flight) : Prop where
  image : Lines s r.1 ∨ ∃ p ∈ f.dst, Else p.up p.line s r.1
  st : r.2.st = f.st
  dst : r.2.dst = f.dst

theorem Acted.of {s : State} {f g : Flight} {t : State} (h : Lines s t) (h1 : g.st = f.st := by rfl) (h2 : g.dst = f.dst := by rfl) :
    Acted s f (t, g) := ⟨.inl h, h1, h2⟩

theorem Acted.failed {s t : State} {f : Flight} (k : Nat) (hop : f.st.op ≠ 0x02) (h : Lines s t) : Acted s f (t.failed f k) :=
  Acted.of (lines_failed _ _ _ hop h)

/-- A line that the flight does not store to is as before. -/
theorem Acted.line {s : State} {f : Flight} {r : State × Flight} {up : Bool} {P : Nat} (h : Acted s f r) (ht : Tiers s)
    (hp : ¬ f.storesTo up P) : r.1.line up P = s.line up P := by
  rcases h.image with h | ⟨p, m, h⟩
  · exact line_of_lines h up P
  · exact h.line ht _ _ fun e => hp ⟨p, m, e.1.symm, e.2.symm⟩

theorem Acted.tiers {s : State} {f : Flight} {r : State × Flight} (h : Acted s f r) (ht : Tiers s) : Tiers r.1 := by
  rcases h.image with h | ⟨_, _, h⟩
  · exact ⟨h.image_pasture ▸ ht.1, h.image_upland ▸ ht.2⟩
  · exact h.wf ht

theorem flightTake_keeps (s : State) (f : Flight) (q : Nat) :
    (s.flightTake f q).2.st = f.st ∧ (s.flightTake f q).2.dst = f.dst := by
  unfold State.flightTake; split <;> exact ⟨rfl, rfl⟩

theorem flightPut_keeps (s : State) (f : Flight) (q : Nat) :
    (s.flightPut f q).2.st = f.st ∧ (s.flightPut f q).2.dst = f.dst := by
  unfold State.flightPut
  split
  · exact ⟨rfl, rfl⟩
  · exact ⟨rfl, rfl⟩
  · exact ⟨rfl, rfl⟩
  · exact ⟨rfl, rfl⟩
  · dsimp only
    split
    · exact ⟨rfl, rfl⟩
    · split <;> exact ⟨rfl, rfl⟩

theorem lines_flightDone (s : State) (f : Flight) (h : f.st.op ≠ 0x02) : Lines s (s.flightDone f) := by
  unfold State.flightDone
  split
  · rename_i e; exact absurd e h
  · refine Lines.ite (Lines.refl s) ?_
    dsimp only
    have h1 : Lines s (if ((pickOut f.lines).any fun w => wq w == qBad) = true then
        (s.bump 0x03025).fire 51 f.sl (badAddr (f.d.aFirst f.sl) f.lines) else s) :=
      Lines.ite (lines_fire _ _ _ _ _ (lines_bump _ _ _ _ (Lines.refl s))) (Lines.refl s)
    exact Lines.ite (lines_busRelease _ _ _ _ _ h1) h1
  · exact Lines.refl s

theorem acted_flightMeet (s : State) (f : Flight) (hop : f.st.op ≠ 0x02) : Acted s f (s.flightMeet f) := by
  unfold State.flightMeet
  split
  · split
    · exact Acted.of (Lines.refl s)
    · exact Acted.failed _ hop (Lines.refl s)
  · dsimp only
    split
    · exact Acted.failed _ hop (lines_fire _ _ _ _ _ (Lines.refl s))
    · exact Acted.of (lines_schedEnter _ _ _ _ (Lines.refl s))

theorem acted_flightAct (s : State) (f : Flight) (a : Act) (hop : f.st.op ≠ 0x02) : Acted s f (s.flightAct f a) := by
  unfold State.flightAct
  split
  · dsimp only
    split
    · exact Acted.failed _ hop (Lines.refl s)
    · have h := lines_schedRead s (f.src.getD ‹Nat› Place.none) f.free (f.mask ‹Nat›) (Lines.refl s)
      split
      · rename_i e; rw [e] at h; exact Acted.failed _ hop h
      · rename_i e; rw [e] at h; exact Acted.of h
  · dsimp only
    split
    · exact Acted.failed _ hop (Lines.refl s)
    · exact Acted.of (lines_checkLine _ _ _ (Lines.refl s))
  · split
    · exact Acted.of (Lines.refl s)
    · rename_i p e
      split
      · exact Acted.failed _ hop (Lines.refl s)
      · exact ⟨.inr ⟨p, List.mem_of_getElem? e, schedWrite_else _ _ _ _ _⟩, rfl, rfl⟩
  · exact ⟨.inl (lines_flightTake _ _ _ (Lines.refl s)), (flightTake_keeps s f _).1, (flightTake_keeps s f _).2⟩
  · exact ⟨.inl (lines_flightPut _ _ _ (Lines.refl s)), (flightPut_keeps s f _).1, (flightPut_keeps s f _).2⟩
  · exact acted_flightMeet s f hop
  · exact Acted.of (lines_penCommit _ _ (Lines.refl s))
  · exact ⟨.inl (lines_flightDepart _ _ _ (Lines.refl s)), rfl, rfl⟩
  · exact Acted.of (lines_schedBegin _ _ _ (Lines.refl s))
  · exact Acted.of (lines_schedStamp _ _ _ (Lines.refl s))
  · exact Acted.of (lines_schedSent _ _ _ (Lines.refl s))
  · exact Acted.of (lines_flightDone _ _ hop)

/-- Time passes to no effect on the image but through the cycles of the flights: what holds of a state and its flights, and
survives each of their acts, holds after them. -/
theorem runActs_keeps {I : State → Prop} (limit : Nat) (h : ∀ (s : State) (k : Nat), I s → I (s.runAct k)) :
    ∀ (n : Nat) (s : State), I s → I (s.runActs limit n)
  | 0, _, i => i
  | n + 1, s, i => by
    unfold State.runActs
    split
    · exact i
    · exact runActs_keeps limit h n _ (h _ _ i)

end Sys2Proof.Laws
end

