-- ==== Sys2Proof/Laws/Turned.lean ====
section
/-! SUPPORT. The rules that act at a turn leave the tide's counter, its offset and its start on the grid as the turn set them. -/

open Sys2Proof Sys2Proof.Machine

namespace Sys2Proof.Laws

/-- What the rules that act at a turn leave as the turn set it: the tide's counter, its offset and its start on the grid. -/
structure Turned (s₀ s : State) : Prop where
  tide_t : s.tide.t = s₀.tide.t
  tide_off : s.tide.off = s₀.tide.off
  tide_runs : s.tide.runs = s₀.tide.runs
  tide_begun : s.tide.begun = s₀.tide.begun
  time_F : s.time.F = s₀.time.F
  time_base : s.time.base = s₀.time.base

theorem Turned.refl (s : State) : Turned s s := ⟨rfl, rfl, rfl, rfl, rfl, rfl⟩

theorem Turned.trans {a b c : State} (h : Turned a b) (g : Turned b c) : Turned a c :=
  ⟨g.1.trans h.1, g.2.trans h.2, g.3.trans h.3, g.4.trans h.4, g.5.trans h.5, g.6.trans h.6⟩

/-- A record update that leaves what is kept. -/
theorem Turned.of_eq {s₀ s : State} {a0 a1 a2 a3 a4 a5 a6 a7 a8 a9 a10 a11 a12 a13 a14 a15 a16 a17 a18 a19 a20 a21 a22 a23 a24 a25 a26}
    (h0 : a3.t = s.tide.t) (h1 : a3.off = s.tide.off) (h2 : a3.runs = s.tide.runs) (h3 : a3.begun = s.tide.begun) (h4 : a14.F = s.time.F) (h5 : a14.base = s.time.base)
    (H : Turned s₀ s) : Turned s₀ (State.mk a0 a1 a2 a3 a4 a5 a6 a7 a8 a9 a10 a11 a12 a13 a14 a15 a16 a17 a18 a19 a20 a21 a22 a23 a24 a25 a26) :=
  H.trans ⟨h0, h1, h2, h3, h4, h5⟩

theorem Turned.ite {s₀ : State} {c : Prop} [Decidable c] {a b : State} (ha : Turned s₀ a) (hb : Turned s₀ b) :
    Turned s₀ (if c then a else b) := by split <;> assumption

theorem Turned.over {s₀ : State} {α : Type} {f : State → α → State} {s : State} {l : List α}
    (hf : ∀ s x, Turned s₀ s → Turned s₀ (f s x)) (h : Turned s₀ s) : Turned s₀ (l.foldl f s) := by
  induction l generalizing s with
  | nil => exact h
  | cons a l ih => exact ih (hf _ _ h)

theorem Turned.cut {s₀ : State} {a b : State} (h : Turned s₀ a) (H : Turned s₀ a → Turned s₀ b) : Turned s₀ b := H h

theorem Turned.pairs {s₀ : State} {α β : Type} {f : State × β → α → State × β} {p : State × β} {l : List α}
    (hf : ∀ p x, Turned s₀ p.1 → Turned s₀ (f p x).1) (h : Turned s₀ p.1) : Turned s₀ (l.foldl f p).1 := by
  induction l generalizing p with
  | nil => exact h
  | cons a l ih => exact ih (hf _ _ h)

theorem Turned.ofEq {s₀ : State} {β : Type} {p : State × β} {a : State} {b : β} (e : p = (a, b)) (h : Turned s₀ p.1) : Turned s₀ a := by
  subst e; exact h

theorem Turned.have_ {P Q : Prop} (h : P) (H : P → Q) : Q := H h

/-- What an answer that may be absent keeps. -/
def TurnedO (s₀ : State) (o : Option State) : Prop := ∀ t, o = some t → Turned s₀ t

def TurnedQ {β : Type} (s₀ : State) (o : Option (State × β)) : Prop := ∀ p, o = some p → Turned s₀ p.1

theorem TurnedO.none {s₀ : State} : TurnedO s₀ none := fun _ h => nomatch h

theorem TurnedO.some {s₀ : State} {s : State} (h : Turned s₀ s) : TurnedO s₀ (some s) := fun _ e => Option.some.inj e ▸ h

theorem TurnedO.ite {s₀ : State} {c : Prop} [Decidable c] {a b : Option State} (ha : TurnedO s₀ a) (hb : TurnedO s₀ b) :
    TurnedO s₀ (if c then a else b) := by split <;> assumption

theorem TurnedO.elim {s₀ : State} {o : Option State} {t : State} (e : o = Option.some t) (h : TurnedO s₀ o) : Turned s₀ t := h t e

theorem TurnedQ.none {s₀ : State} {β : Type} : TurnedQ (β := β) s₀ none := fun _ h => nomatch h

theorem TurnedQ.some {s₀ : State} {β : Type} {p : State × β} (h : Turned s₀ p.1) : TurnedQ s₀ (some p) :=
  fun _ e => Option.some.inj e ▸ h

theorem TurnedQ.ite {s₀ : State} {β : Type} {c : Prop} [Decidable c] {a b : Option (State × β)} (ha : TurnedQ s₀ a)
    (hb : TurnedQ s₀ b) : TurnedQ s₀ (if c then a else b) := by split <;> assumption

theorem TurnedQ.elim {s₀ : State} {β : Type} {o : Option (State × β)} {t : State} {b : β} (e : o = Option.some (t, b))
    (h : TurnedQ s₀ o) : Turned s₀ t := h (t, b) e

theorem TurnedQ.map {s₀ : State} {α β : Type} {o : Option α} {f : α → State × β} (h : ∀ a, Turned s₀ (f a).1) :
    TurnedQ s₀ (o.map f) := by
  cases o with
  | none => exact TurnedQ.none
  | some a => exact TurnedQ.some (h a)

theorem TurnedQ.map₂ {s₀ : State} {α β : Type} {o : Option (State × α)} {f : State × α → State × β} (h : TurnedQ s₀ o)
    (hf : ∀ a, Turned s₀ a.1 → Turned s₀ (f a).1) : TurnedQ s₀ (o.map f) := by
  cases o with
  | none => exact TurnedQ.none
  | some a => exact TurnedQ.some (hf a (h a rfl))

theorem turned_setCfg {s₀ : State} (s : State) (e : ℕ) (sub : ℕ) (v : ℕ) (h0 : Turned s₀ s) :
    Turned s₀ (State.setCfg s e sub v) := by
  unfold State.setCfg
  refine Turned.of_eq rfl rfl rfl rfl rfl rfl ?_
  assumption

theorem turned_setCount {s₀ : State} (s : State) (e : ℕ) (sub : ℕ) (v : ℕ) (h0 : Turned s₀ s) :
    Turned s₀ (State.setCount s e sub v) := by
  unfold State.setCount
  refine Turned.of_eq rfl rfl rfl rfl rfl rfl ?_
  assumption

theorem turned_bump {s₀ : State} (s : State) (e : ℕ) (sub : ℕ) (k : ℕ) (h0 : Turned s₀ s) :
    Turned s₀ (State.bump s e sub k) := by
  unfold State.bump
  apply turned_setCount
  assumption

theorem turned_bumpFld {s₀ : State} (s : State) (e : ℕ) (sub : ℕ) (hi : ℕ) (lo : ℕ) (h0 : Turned s₀ s) :
    Turned s₀ (State.bumpFld s e sub hi lo) := by
  unfold State.bumpFld
  apply turned_setCount
  assumption

theorem turned_emit {s₀ : State} (s : State) (k : OutKind) (unit : ℕ) (words : List ℕ) (h0 : Turned s₀ s) :
    Turned s₀ (State.emit s k unit words) := by
  unfold State.emit
  refine Turned.of_eq rfl rfl rfl rfl rfl rfl ?_
  assumption

theorem turned_draw {s₀ : State} (s : State) (h0 : Turned s₀ s) :
    Turned s₀ (State.draw s).1 := by
  unfold State.draw
  refine Turned.of_eq rfl rfl rfl rfl rfl rfl ?_
  assumption

theorem turned_byShepherd {s₀ : State} (s : State) (f : State → State) (h0 : Turned s₀ s) (hff : ∀ y0, Turned s₀ y0 → Turned s₀ (f y0)) :
    Turned s₀ (State.byShepherd s f) := by
  unfold State.byShepherd
  refine Turned.ite ?_ ?_
  · apply hff
    assumption
  · assumption

theorem turned_msiSend {s₀ : State} (s : State) (v : ℕ) (h0 : Turned s₀ s) :
    Turned s₀ (State.msiSend s v) := by
  unfold State.msiSend
  refine Turned.ite ?_ ?_
  · apply turned_emit
    apply turned_bump
    assumption
  · refine Turned.ite ?_ ?_
    · assumption
    · refine Turned.of_eq rfl rfl rfl rfl rfl rfl ?_
      assumption

theorem turned_interrupt {s₀ : State} (s : State) (k : ℕ) (h0 : Turned s₀ s) :
    Turned s₀ (State.interrupt s k) := by
  unfold State.interrupt
  refine Turned.ite ?_ ?_
  · assumption
  · extract_lets +onlyGivenNames t1
    extract_lets +onlyGivenNames t2
    refine Turned.cut (a := t2) ?_ fun _ => ?_
    · unfold t2; clear t2
      refine Turned.of_eq rfl rfl rfl rfl rfl rfl ?_
      assumption
    clear_value t2
    refine Turned.ite ?_ ?_
    · apply turned_msiSend
      assumption
    · assumption

theorem turned_setSrc {s₀ : State} (s : State) (n : ℕ) (x : Source) (h0 : Turned s₀ s) :
    Turned s₀ (State.setSrc s n x) := by
  unfold State.setSrc
  refine Turned.of_eq rfl rfl rfl rfl rfl rfl ?_
  assumption

theorem turned_tallyEvent {s₀ : State} (s : State) (c : ℕ) (payload : List ℕ) (h0 : Turned s₀ s) :
    Turned s₀ (State.tallyEvent s c payload) := by
  unfold State.tallyEvent
  extract_lets +onlyGivenNames t1
  clear_value t1
  split
  · refine Turned.ite ?_ ?_
    · extract_lets +onlyGivenNames t2
      clear_value t2
      extract_lets +onlyGivenNames t3
      refine Turned.cut (a := t3) ?_ fun _ => ?_
      · unfold t3; clear t3
        apply turned_bump
        assumption
      clear_value t3
      split
      · refine Turned.ite ?_ ?_
        · refine Turned.of_eq rfl rfl rfl rfl rfl rfl ?_
          assumption
        · refine Turned.of_eq rfl rfl rfl rfl rfl rfl ?_
          assumption
      · refine Turned.of_eq rfl rfl rfl rfl rfl rfl ?_
        assumption
    · refine Turned.ite ?_ ?_
      · refine Turned.of_eq rfl rfl rfl rfl rfl rfl ?_
        assumption
      · extract_lets +onlyGivenNames t4
        refine Turned.cut (a := t4) ?_ fun _ => ?_
        · unfold t4; clear t4
          apply turned_bump
          assumption
        clear_value t4
        refine Turned.of_eq rfl rfl rfl rfl rfl rfl ?_
        assumption
  · refine Turned.ite ?_ ?_
    · refine Turned.of_eq rfl rfl rfl rfl rfl rfl ?_
      assumption
    · extract_lets +onlyGivenNames t5
      refine Turned.cut (a := t5) ?_ fun _ => ?_
      · unfold t5; clear t5
        apply turned_bump
        assumption
      clear_value t5
      refine Turned.of_eq rfl rfl rfl rfl rfl rfl ?_
      assumption

theorem turned_firePlain {s₀ : State} (s : State) (n : ℕ) (inst : ℕ) (detail : ℕ) (forced : Bool) (h0 : Turned s₀ s) :
    Turned s₀ (State.firePlain s n inst detail forced) := by
  unfold State.firePlain
  split
  · assumption
  · extract_lets +onlyGivenNames t1
    clear_value t1
    extract_lets +onlyGivenNames t2
    clear_value t2
    extract_lets +onlyGivenNames t3
    refine Turned.cut (a := t3) ?_ fun _ => ?_
    · unfold t3; clear t3
      apply turned_setSrc
      assumption
    clear_value t3
    extract_lets +onlyGivenNames t4
    extract_lets +onlyGivenNames t5
    refine Turned.cut (a := t5) ?_ fun _ => ?_
    · unfold t5; clear t5
      refine Turned.ite ?_ ?_
      · refine Turned.of_eq rfl rfl rfl rfl rfl rfl ?_
        assumption
      · assumption
    clear_value t5
    extract_lets +onlyGivenNames t6
    extract_lets +onlyGivenNames t7
    refine Turned.cut (a := t7) ?_ fun _ => ?_
    · unfold t7; clear t7
      refine Turned.ite ?_ ?_
      · refine Turned.of_eq rfl rfl rfl rfl rfl rfl ?_
        assumption
      · assumption
    clear_value t7
    extract_lets +onlyGivenNames t8
    refine Turned.cut (a := t8) ?_ fun _ => ?_
    · unfold t8; clear t8
      apply turned_tallyEvent
      assumption
    clear_value t8
    refine Turned.ite ?_ ?_
    · apply turned_interrupt
      assumption
    · assumption

theorem turned_traceTail {s₀ : State} (s : State) (words : List Word) (h0 : Turned s₀ s) :
    Turned s₀ (State.traceTail s words) := by
  unfold State.traceTail
  refine Turned.of_eq rfl rfl rfl rfl rfl rfl ?_
  assumption

theorem turned_traceWords {s₀ : State} (s : State) (words : List Word) (h0 : Turned s₀ s) :
    Turned s₀ (State.traceWords s words) := by
  unfold State.traceWords
  extract_lets +onlyGivenNames t1
  clear_value t1
  extract_lets +onlyGivenNames t2
  clear_value t2
  refine Turned.ite ?_ ?_
  · extract_lets +onlyGivenNames t3
    refine Turned.cut (a := t3) ?_ fun _ => ?_
    · unfold t3; clear t3
      apply turned_traceTail
      refine Turned.over ?_ ?_
      · intro a4 a5 a6
        apply turned_traceTail
        assumption
      · assumption
    clear_value t3
    refine Turned.of_eq rfl rfl rfl rfl rfl rfl ?_
    assumption
  · extract_lets +onlyGivenNames t7
    refine Turned.cut (a := t7) ?_ fun _ => ?_
    · unfold t7; clear t7
      apply turned_traceTail
      assumption
    clear_value t7
    extract_lets +onlyGivenNames t8
    refine Turned.cut (a := t8) ?_ fun _ => ?_
    · unfold t8; clear t8
      apply turned_bump
      assumption
    clear_value t8
    extract_lets +onlyGivenNames t9
    extract_lets +onlyGivenNames t10
    extract_lets +onlyGivenNames t11
    refine Turned.cut (a := t11) ?_ fun _ => ?_
    · unfold t11; clear t11
      refine Turned.of_eq rfl rfl rfl rfl rfl rfl ?_
      assumption
    clear_value t11
    refine Turned.ite ?_ ?_
    · apply turned_firePlain
      assumption
    · assumption

theorem turned_traceRec {s₀ : State} (s : State) (type : ℕ) (w0 : ℕ) (rest : List ℕ) (h0 : Turned s₀ s) :
    Turned s₀ (State.traceRec s type w0 rest) := by
  unfold State.traceRec
  apply turned_traceWords
  assumption

theorem turned_fireCore {s₀ : State} (s : State) (n : ℕ) (inst : ℕ) (detail : ℕ) (forced : Bool) (h0 : Turned s₀ s) :
    Turned s₀ (State.fireCore s n inst detail forced) := by
  unfold State.fireCore
  split
  · assumption
  · extract_lets +onlyGivenNames t1
    clear_value t1
    extract_lets +onlyGivenNames t2
    refine Turned.cut (a := t2) ?_ fun _ => ?_
    · unfold t2; clear t2
      apply turned_firePlain
      assumption
    clear_value t2
    refine Turned.ite ?_ ?_
    · apply turned_traceRec
      assumption
    · assumption

theorem turned_setStaging {s₀ : State} (s : State) (x1 : Half) (h0 : Turned s₀ s) :
    Turned s₀ (State.setStaging s x1) := by
  unfold State.setStaging
  refine Turned.ite ?_ ?_
  · refine Turned.of_eq rfl rfl rfl rfl rfl rfl ?_
    assumption
  · refine Turned.of_eq rfl rfl rfl rfl rfl rfl ?_
    assumption

theorem turned_setDrover {s₀ : State} (s : State) (k : ℕ) (x : Drover) (h0 : Turned s₀ s) :
    Turned s₀ (State.setDrover s k x) := by
  unfold State.setDrover
  refine Turned.of_eq rfl rfl rfl rfl rfl rfl ?_
  assumption

theorem turned_setDrove {s₀ : State} (s : State) (d : ℕ) (x : Drove) (h0 : Turned s₀ s) :
    Turned s₀ (State.setDrove s d x) := by
  unfold State.setDrove
  refine Turned.of_eq rfl rfl rfl rfl rfl rfl ?_
  assumption

theorem turned_setBeacon {s₀ : State} (s : State) (b : ℕ) (x : Beacon) (h0 : Turned s₀ s) :
    Turned s₀ (State.setBeacon s b x) := by
  unfold State.setBeacon
  refine Turned.of_eq rfl rfl rfl rfl rfl rfl ?_
  assumption

theorem turned_setChan {s₀ : State} (s : State) (c : ℕ) (x : BusChan) (h0 : Turned s₀ s) :
    Turned s₀ (State.setChan s c x) := by
  unfold State.setChan
  refine Turned.of_eq rfl rfl rfl rfl rfl rfl ?_
  assumption

theorem turned_busCount {s₀ : State} (s : State) (c : ℕ) (k : ℕ) (h0 : Turned s₀ s) :
    Turned s₀ (State.busCount s c k) := by
  unfold State.busCount
  apply turned_bump
  assumption

theorem turned_withdraw {s₀ : State} (s : State) (c : ℕ) (b : ℕ) (h0 : Turned s₀ s) :
    Turned s₀ (State.withdraw s c b) := by
  unfold State.withdraw
  extract_lets +onlyGivenNames t1
  clear_value t1
  refine Turned.ite ?_ ?_
  · apply turned_busCount
    apply turned_setChan
    assumption
  · assumption

theorem turned_dropFrames {s₀ : State} (s : State) (c : ℕ) (h0 : Turned s₀ s) :
    Turned s₀ (State.dropFrames s c) := by
  unfold State.dropFrames
  extract_lets +onlyGivenNames t1
  refine Turned.cut (a := t1) ?_ fun _ => ?_
  · unfold t1; clear t1
    apply turned_withdraw
    apply turned_withdraw
    apply turned_withdraw
    assumption
  clear_value t1
  extract_lets +onlyGivenNames t2
  clear_value t2
  apply turned_setChan
  assumption

theorem turned_busHaltOp {s₀ : State} (s : State) (c : ℕ) (h0 : Turned s₀ s) :
    Turned s₀ (State.busHaltOp s c) := by
  unfold State.busHaltOp
  extract_lets +onlyGivenNames t1
  refine Turned.cut (a := t1) ?_ fun _ => ?_
  · unfold t1; clear t1
    apply turned_dropFrames
    assumption
  clear_value t1
  apply turned_setChan
  assumption

theorem turned_setLink {s₀ : State} (s : State) (l : ℕ) (x : RLink) (h0 : Turned s₀ s) :
    Turned s₀ (State.setLink s l x) := by
  unfold State.setLink
  refine Turned.of_eq rfl rfl rfl rfl rfl rfl ?_
  assumption

theorem turned_linkCount {s₀ : State} (s : State) (l : ℕ) (k : ℕ) (h0 : Turned s₀ s) :
    Turned s₀ (State.linkCount s l k) := by
  unfold State.linkCount
  apply turned_bump
  assumption

theorem turned_quayOff {s₀ : State} (s : State) (h0 : Turned s₀ s) :
    Turned s₀ (State.quayOff s) := by
  unfold State.quayOff
  refine Turned.of_eq rfl rfl rfl rfl rfl rfl ?_
  assumption

theorem turned_quayHaltOp {s₀ : State} (s : State) (h0 : Turned s₀ s) :
    Turned s₀ (State.quayHaltOp s) := by
  unfold State.quayHaltOp
  extract_lets +onlyGivenNames t1
  clear_value t1
  extract_lets +onlyGivenNames t2
  refine Turned.cut (a := t2) ?_ fun _ => ?_
  · unfold t2; clear t2
    apply turned_quayOff
    apply turned_bump
    assumption
  clear_value t2
  refine Turned.of_eq rfl rfl rfl rfl rfl rfl ?_
  assumption

theorem turned_pairOut {s₀ : State} (s : State) (h0 : Turned s₀ s) :
    Turned s₀ (State.pairOut s) := by
  unfold State.pairOut
  refine Turned.of_eq rfl rfl rfl rfl rfl rfl ?_
  assumption

theorem turned_pairBell {s₀ : State} (s : State) (h0 : Turned s₀ s) :
    Turned s₀ (State.pairBell s) := by
  unfold State.pairBell
  extract_lets +onlyGivenNames t1
  refine Turned.ite ?_ ?_
  · apply turned_pairOut
    assumption
  · assumption

theorem turned_setGate {s₀ : State} (s : State) (g : ℕ) (x : Gate) (h0 : Turned s₀ s) :
    Turned s₀ (State.setGate s g x) := by
  unfold State.setGate
  refine Turned.of_eq rfl rfl rfl rfl rfl rfl ?_
  assumption

theorem turned_gateDown {s₀ : State} (s : State) (g : ℕ) (cause : ℕ) (h0 : Turned s₀ s) :
    Turned s₀ (State.gateDown s g cause) := by
  unfold State.gateDown
  refine Turned.ite ?_ ?_
  · apply turned_setGate
    assumption
  · assumption

theorem turned_holdExit {s₀ : State} (s : State) (h0 : Turned s₀ s) :
    Turned s₀ (State.holdExit s) := by
  unfold State.holdExit
  refine Turned.ite ?_ ?_
  · assumption
  · extract_lets +onlyGivenNames t1
    refine Turned.cut (a := t1) ?_ fun _ => ?_
    · unfold t1; clear t1
      refine Turned.over ?_ ?_
      · intro a1 a2 a3
        dsimp only
        split
        · refine Turned.of_eq rfl rfl rfl rfl rfl rfl ?_
          assumption
        · refine Turned.of_eq rfl rfl rfl rfl rfl rfl ?_
          assumption
        · assumption
      · assumption
    clear_value t1
    refine Turned.of_eq rfl rfl rfl rfl rfl rfl ?_
    assumption

theorem turned_keepSafe {s₀ : State} (after : State) (before : State) (h0 : Turned s₀ after) :
    Turned s₀ (State.keepSafe after before) := by
  unfold State.keepSafe
  refine Turned.ite ?_ ?_
  · assumption
  · refine Turned.over ?_ ?_
    · intro a1 a2 a3
      refine Turned.ite ?_ ?_
      · refine Turned.of_eq rfl rfl rfl rfl rfl rfl ?_
        assumption
      · assumption
    · assumption

theorem turned_snapHold {s₀ : State} (s : State) (ps : List ℕ) (h0 : Turned s₀ s) :
    Turned s₀ (State.snapHold s ps) := by
  unfold State.snapHold
  refine Turned.over ?_ ?_
  · intro a1 a2 a3
    refine Turned.ite ?_ ?_
    · refine Turned.of_eq rfl rfl rfl rfl rfl rfl ?_
      assumption
    · assumption
  · assumption

theorem turned_droverSafe {s₀ : State} (s : State) (k : ℕ) (h0 : Turned s₀ s) :
    Turned s₀ (State.droverSafe s k) := by
  unfold State.droverSafe
  extract_lets +onlyGivenNames t1
  clear_value t1
  refine Turned.ite ?_ ?_
  · apply turned_setDrover
    assumption
  · assumption

theorem turned_linkSafe {s₀ : State} (s : State) (l : ℕ) (h0 : Turned s₀ s) :
    Turned s₀ (State.linkSafe s l) := by
  unfold State.linkSafe
  extract_lets +onlyGivenNames t1
  clear_value t1
  refine Turned.ite ?_ ?_
  · assumption
  · extract_lets +onlyGivenNames t2
    clear_value t2
    extract_lets +onlyGivenNames t3
    refine Turned.cut (a := t3) ?_ fun _ => ?_
    · unfold t3; clear t3
      apply turned_emit
      apply turned_linkCount
      apply turned_setLink
      assumption
    clear_value t3
    extract_lets +onlyGivenNames t4
    refine Turned.cut (a := t4) ?_ fun _ => ?_
    · unfold t4; clear t4
      refine Turned.ite ?_ ?_
      · apply turned_fireCore
        assumption
      · assumption
    clear_value t4
    refine Turned.of_eq rfl rfl rfl rfl rfl rfl ?_
    assumption

theorem turned_beaconSafe {s₀ : State} (s : State) (b : ℕ) (h0 : Turned s₀ s) :
    Turned s₀ (State.beaconSafe s b) := by
  unfold State.beaconSafe
  extract_lets +onlyGivenNames t1
  clear_value t1
  refine Turned.ite ?_ ?_
  · apply turned_fireCore
    apply turned_setBeacon
    assumption
  · assumption

theorem turned_beaconsSafe {s₀ : State} (s : State) (h0 : Turned s₀ s) :
    Turned s₀ (State.beaconsSafe s) := by
  unfold State.beaconsSafe
  refine Turned.over ?_ ?_
  · intro a1 a2 a3
    apply turned_beaconSafe
    assumption
  · assumption

theorem turned_busesSafe {s₀ : State} (s : State) (test : ℕ → Bool) (h0 : Turned s₀ s) :
    Turned s₀ (State.busesSafe s test) := by
  unfold State.busesSafe
  refine Turned.over ?_ ?_
  · intro a1 a2 a3
    apply turned_busHaltOp
    assumption
  · assumption

theorem turned_tileSafe {s₀ : State} (s : State) (t : ℕ) (h0 : Turned s₀ s) :
    Turned s₀ (State.tileSafe s t) := by
  unfold State.tileSafe
  extract_lets +onlyGivenNames t1
  refine Turned.cut (a := t1) ?_ fun _ => ?_
  · unfold t1; clear t1
    refine Turned.over ?_ ?_
    · intro a1 a2 a3
      apply turned_droverSafe
      assumption
    · assumption
  clear_value t1
  extract_lets +onlyGivenNames t2
  clear_value t2
  apply turned_busesSafe
  assumption

theorem turned_enterSafe {s₀ : State} (s : State) (n : ℕ) (inst : ℕ) (h0 : Turned s₀ s) :
    Turned s₀ (State.enterSafe s n inst) := by
  unfold State.enterSafe
  split
  · refine Turned.ite ?_ ?_
    · apply turned_tileSafe
      assumption
    · assumption
  · refine Turned.ite ?_ ?_
    · refine Turned.over ?_ ?_
      · intro a1 a2 a3
        apply turned_droverSafe
        assumption
      · assumption
    · apply turned_droverSafe
      assumption
  · apply turned_busHaltOp
    assumption
  · apply turned_linkSafe
    assumption
  · apply turned_beaconsSafe
    assumption
  · apply turned_quayHaltOp
    assumption
  · refine Turned.over ?_ ?_
    · intro a4 a5 a6
      refine Turned.ite ?_ ?_
      · apply turned_linkSafe
        assumption
      · assumption
    · assumption
  · apply turned_gateDown
    assumption
  · assumption

theorem turned_enterFatal {s₀ : State} (s : State) (h0 : Turned s₀ s) :
    Turned s₀ (State.enterFatal s) := by
  unfold State.enterFatal
  extract_lets +onlyGivenNames t1
  refine Turned.cut (a := t1) ?_ fun _ => ?_
  · unfold t1; clear t1
    refine Turned.over ?_ ?_
    · intro a1 a2 a3
      apply turned_droverSafe
      assumption
    · assumption
  clear_value t1
  extract_lets +onlyGivenNames t2
  refine Turned.cut (a := t2) ?_ fun _ => ?_
  · unfold t2; clear t2
    apply turned_busesSafe
    assumption
  clear_value t2
  extract_lets +onlyGivenNames t3
  refine Turned.cut (a := t3) ?_ fun _ => ?_
  · unfold t3; clear t3
    refine Turned.over ?_ ?_
    · intro a4 a5 a6
      apply turned_linkSafe
      assumption
    · assumption
  clear_value t3
  refine Turned.over ?_ ?_
  · intro a7 a8 a9
    apply turned_gateDown
    assumption
  · apply turned_quayHaltOp
    apply turned_beaconsSafe
    assumption

theorem turned_fire {s₀ : State} (s : State) (n : ℕ) (inst : ℕ) (detail : optParam ℕ 0) (forced : optParam Bool false) (h0 : Turned s₀ s) :
    Turned s₀ (State.fire s n inst detail forced) := by
  unfold State.fire
  extract_lets +onlyGivenNames t1
  refine Turned.cut (a := t1) ?_ fun _ => ?_
  · unfold t1; clear t1
    assumption
  clear_value t1
  extract_lets +onlyGivenNames t2
  refine Turned.cut (a := t2) ?_ fun _ => ?_
  · unfold t2; clear t2
    apply turned_fireCore
    assumption
  clear_value t2
  extract_lets +onlyGivenNames t3
  extract_lets +onlyGivenNames t4
  refine Turned.cut (a := t4) ?_ fun _ => ?_
  · unfold t4; clear t4
    refine Turned.ite ?_ ?_
    · refine Turned.of_eq rfl rfl rfl rfl rfl rfl ?_
      assumption
    · assumption
  clear_value t4
  extract_lets +onlyGivenNames t5
  refine Turned.cut (a := t5) ?_ fun _ => ?_
  · unfold t5; clear t5
    refine Turned.over ?_ ?_
    · intro a6 a7 a8
      apply turned_enterSafe
      apply turned_keepSafe
      assumption
    · assumption
  clear_value t5
  extract_lets +onlyGivenNames t9
  refine Turned.cut (a := t9) ?_ fun _ => ?_
  · unfold t9; clear t9
    refine Turned.ite ?_ ?_
    · apply turned_enterFatal
      apply turned_keepSafe
      assumption
    · assumption
  clear_value t9
  apply turned_pairBell
  assumption

theorem turned_setSession {s₀ : State} (s : State) (n : ℕ) (x : Session) (h0 : Turned s₀ s) :
    Turned s₀ (State.setSession s n x) := by
  unfold State.setSession
  refine Turned.of_eq rfl rfl rfl rfl rfl rfl ?_
  assumption

theorem turned_endSession {s₀ : State} (s : State) (n : ℕ) (h0 : Turned s₀ s) :
    Turned s₀ (State.endSession s n) := by
  unfold State.endSession
  extract_lets +onlyGivenNames t1
  refine Turned.cut (a := t1) ?_ fun _ => ?_
  · unfold t1; clear t1
    apply turned_setSession
    assumption
  clear_value t1
  refine Turned.of_eq rfl rfl rfl rfl rfl rfl ?_
  assumption

theorem turned_endSessions {s₀ : State} (s : State) (test : Session → Bool) (h0 : Turned s₀ s) :
    Turned s₀ (State.endSessions s test) := by
  unfold State.endSessions
  refine Turned.over ?_ ?_
  · intro a1 a2 a3
    apply turned_endSession
    assumption
  · assumption

theorem turned_setLine {s₀ : State} (s : State) (up : Bool) (L : ℕ) (l : Line) (h0 : Turned s₀ s) :
    Turned s₀ (State.setLine s up L l) := by
  unfold State.setLine
  refine Turned.ite ?_ ?_
  · refine Turned.of_eq rfl rfl rfl rfl rfl rfl ?_
    assumption
  · refine Turned.of_eq rfl rfl rfl rfl rfl rfl ?_
    assumption

theorem turned_loseChannel {s₀ : State} (s : State) (c : ℕ) (cause : ℕ) (h0 : Turned s₀ s) :
    Turned s₀ (State.loseChannel s c cause) := by
  unfold State.loseChannel
  refine Turned.ite ?_ ?_
  · assumption
  · apply turned_fire
    refine Turned.of_eq rfl rfl rfl rfl rfl rfl ?_
    assumption

theorem turned_queueBack {s₀ : State} (s : State) (up : Bool) (L : ℕ) (h0 : Turned s₀ s) :
    Turned s₀ (State.queueBack s up L) := by
  unfold State.queueBack
  refine Turned.ite ?_ ?_
  · assumption
  · refine Turned.ite ?_ ?_
    · assumption
    · refine Turned.of_eq rfl rfl rfl rfl rfl rfl ?_
      assumption

theorem turned_logPoison {s₀ : State} (s : State) (up : Bool) (L : ℕ) (h0 : Turned s₀ s) :
    Turned s₀ (State.logPoison s up L) := by
  unfold State.logPoison
  extract_lets +onlyGivenNames t1
  clear_value t1
  refine Turned.of_eq rfl rfl rfl rfl rfl rfl ?_
  assumption

theorem turned_countFound {s₀ : State} (s : State) (c : ℕ) (h0 : Turned s₀ s) :
    Turned s₀ (State.countFound s c) := by
  unfold State.countFound
  extract_lets +onlyGivenNames t1
  clear_value t1
  extract_lets +onlyGivenNames t2
  extract_lets +onlyGivenNames t3
  refine Turned.cut (a := t3) ?_ fun _ => ?_
  · unfold t3; clear t3
    refine Turned.of_eq rfl rfl rfl rfl rfl rfl ?_
    assumption
  clear_value t3
  refine Turned.ite ?_ ?_
  · apply turned_loseChannel
    assumption
  · assumption

theorem turned_foundBad {s₀ : State} (s : State) (up : Bool) (L : ℕ) (h0 : Turned s₀ s) :
    Turned s₀ (State.foundBad s up L) := by
  unfold State.foundBad
  refine Turned.ite ?_ ?_
  · assumption
  · extract_lets +onlyGivenNames t1
    refine Turned.cut (a := t1) ?_ fun _ => ?_
    · unfold t1; clear t1
      apply turned_logPoison
      apply turned_bumpFld
      apply turned_bumpFld
      assumption
    clear_value t1
    extract_lets +onlyGivenNames t2
    refine Turned.cut (a := t2) ?_ fun _ => ?_
    · unfold t2; clear t2
      apply turned_fire
      assumption
    clear_value t2
    refine Turned.ite ?_ ?_
    · apply turned_countFound
      assumption
    · assumption

theorem turned_foundSingle {s₀ : State} (s : State) (up : Bool) (L : ℕ) (h0 : Turned s₀ s) :
    Turned s₀ (State.foundSingle s up L) := by
  unfold State.foundSingle
  apply turned_fire
  apply turned_queueBack
  apply turned_bumpFld
  assumption

theorem turned_checkLine {s₀ : State} (s : State) (up : Bool) (L : ℕ) (h0 : Turned s₀ s) :
    Turned s₀ (State.checkLine s up L).1 := by
  unfold State.checkLine
  extract_lets +onlyGivenNames t1
  clear_value t1
  extract_lets +onlyGivenNames t2
  refine Turned.cut (a := t2) ?_ fun _ => ?_
  · unfold t2; clear t2
    refine Turned.ite ?_ ?_
    · apply turned_foundSingle
      assumption
    · assumption
  clear_value t2
  split
  · dsimp only
    apply turned_foundBad
    assumption
  · dsimp only
    assumption

theorem turned_heldFull {s₀ : State} (s : State) (up : Bool) (L : ℕ) (h0 : Turned s₀ s) :
    Turned s₀ (State.heldFull s up L) := by
  unfold State.heldFull
  apply turned_fire
  apply turned_bump
  assumption

theorem turned_heldClear {s₀ : State} (s : State) (up : Bool) (L : ℕ) (mask : ℕ) (h0 : Turned s₀ s) :
    Turned s₀ (State.heldClear s up L mask) := by
  unfold State.heldClear
  extract_lets +onlyGivenNames t1
  clear_value t1
  extract_lets +onlyGivenNames t2
  clear_value t2
  extract_lets +onlyGivenNames t3
  extract_lets +onlyGivenNames t4
  refine Turned.cut (a := t4) ?_ fun _ => ?_
  · unfold t4; clear t4
    refine Turned.of_eq rfl rfl rfl rfl rfl rfl ?_
    assumption
  clear_value t4
  refine Turned.ite ?_ ?_
  · apply turned_heldFull
    assumption
  · assumption

theorem turned_countHeld {s₀ : State} (s : State) (up : Bool) (L : ℕ) (mask : ℕ) (h0 : Turned s₀ s) :
    Turned s₀ (State.countHeld s up L mask) := by
  unfold State.countHeld
  refine Turned.ite ?_ ?_
  · assumption
  · apply turned_bump
    assumption

theorem turned_refusePoison {s₀ : State} (s : State) (up : Bool) (P : ℕ) (h0 : Turned s₀ s) :
    Turned s₀ (State.refusePoison s up P) := by
  unfold State.refusePoison
  apply turned_fire
  apply turned_bumpFld
  assumption

theorem turned_writeWhole {s₀ : State} (s : State) (up : Bool) (P : ℕ) (w : List Word) (tag : Option ℕ) (h0 : Turned s₀ s) :
    Turned s₀ (State.writeWhole s up P w tag) := by
  unfold State.writeWhole
  extract_lets +onlyGivenNames t1
  clear_value t1
  extract_lets +onlyGivenNames t2
  clear_value t2
  extract_lets +onlyGivenNames t3
  refine Turned.cut (a := t3) ?_ fun _ => ?_
  · unfold t3; clear t3
    apply turned_setLine
    assumption
  clear_value t3
  apply turned_heldClear
  refine Turned.of_eq rfl rfl rfl rfl rfl rfl ?_
  assumption

theorem turned_writeOver {s₀ : State} (s : State) (up : Bool) (P : ℕ) (mask : ℕ) (w : List Word) (tag : Option ℕ) (bad : Bool) (old : List Word) (h0 : Turned s₀ s) :
    Turned s₀ (State.writeOver s up P mask w tag bad old).1 := by
  unfold State.writeOver
  split
  · extract_lets +onlyGivenNames t1
    refine Turned.cut (a := t1) ?_ fun _ => ?_
    · unfold t1; clear t1
      apply turned_refusePoison
      assumption
    clear_value t1
    dsimp only
    apply turned_setLine
    assumption
  · extract_lets +onlyGivenNames t2
    clear_value t2
    extract_lets +onlyGivenNames t3
    refine Turned.cut (a := t3) ?_ fun _ => ?_
    · unfold t3; clear t3
      apply turned_setLine
      assumption
    clear_value t3
    extract_lets +onlyGivenNames t4
    extract_lets +onlyGivenNames t5
    refine Turned.cut (a := t5) ?_ fun _ => ?_
    · unfold t5; clear t5
      refine Turned.of_eq rfl rfl rfl rfl rfl rfl ?_
      assumption
    clear_value t5
    dsimp only
    apply turned_heldClear
    assumption

theorem turned_writeLine {s₀ : State} (s : State) (up : Bool) (P : ℕ) (mask : ℕ) (w : List Word) (tag : Option ℕ) (h0 : Turned s₀ s) :
    Turned s₀ (State.writeLine s up P mask w tag).1 := by
  unfold State.writeLine
  split
  · dsimp only
    apply turned_writeWhole
    assumption
  · split
    · dsimp only
      assumption
    · split
      apply turned_writeOver
      refine Turned.ofEq (by assumption) ?_
      apply turned_checkLine
      assumption

theorem turned_unschedRead {s₀ : State} (s : State) (up : Bool) (L : ℕ) (mask : ℕ) (h0 : Turned s₀ s) :
    Turned s₀ (State.unschedRead s up L mask).1 := by
  unfold State.unschedRead
  split
  · split
    · dsimp only
      assumption
    · split
      dsimp only
      apply turned_countHeld
      refine Turned.ofEq (by assumption) ?_
      apply turned_checkLine
      assumption
  · split
    · dsimp only
      assumption
    · split
      · split
        dsimp only
        apply turned_countHeld
        refine Turned.ofEq (by assumption) ?_
        apply turned_checkLine
        assumption
      · extract_lets +onlyGivenNames t1
        clear_value t1
        extract_lets +onlyGivenNames t2
        clear_value t2
        split
        extract_lets +onlyGivenNames t3
        refine Turned.cut (a := t3) ?_ fun _ => ?_
        · unfold t3; clear t3
          apply turned_countHeld
          refine Turned.ofEq (by assumption) ?_
          apply turned_checkLine
          assumption
        clear_value t3
        split
        · dsimp only
          apply turned_bump
          assumption
        · dsimp only
          assumption

theorem turned_unschedWrite {s₀ : State} (s : State) (up : Bool) (L : ℕ) (mask : ℕ) (w : List Word) (b : Option ℕ) (h0 : Turned s₀ s) :
    Turned s₀ (State.unschedWrite s up L mask w b).1 := by
  unfold State.unschedWrite
  split
  · split
    · dsimp only
      assumption
    · split
      dsimp only
      refine Turned.ofEq (by assumption) ?_
      apply turned_writeLine
      assumption
  · split
    · dsimp only
      assumption
    · split
      · split
        dsimp only
        refine Turned.ofEq (by assumption) ?_
        apply turned_writeLine
        assumption
      · split
        · dsimp only
          assumption
        · split
          · dsimp only
            assumption
          · split
            · dsimp only
              assumption
            · extract_lets +onlyGivenNames t1
              clear_value t1
              split
              dsimp only
              refine Turned.ofEq (by assumption) ?_
              apply turned_writeLine
              assumption

theorem turned_setPen {s₀ : State} (s : State) (p : ℕ) (x : Pen) (h0 : Turned s₀ s) :
    Turned s₀ (State.setPen s p x) := by
  unfold State.setPen
  refine Turned.of_eq rfl rfl rfl rfl rfl rfl ?_
  assumption

theorem turned_penRise {s₀ : State} (s : State) (p : ℕ) (h0 : Turned s₀ s) :
    Turned s₀ (State.penRise s p) := by
  unfold State.penRise
  extract_lets +onlyGivenNames t1
  clear_value t1
  extract_lets +onlyGivenNames t2
  clear_value t2
  refine Turned.ite ?_ ?_
  · extract_lets +onlyGivenNames t3
    refine Turned.cut (a := t3) ?_ fun _ => ?_
    · unfold t3; clear t3
      apply turned_fire
      apply turned_setPen
      assumption
    clear_value t3
    extract_lets +onlyGivenNames t4
    clear_value t4
    refine Turned.ite ?_ ?_
    · apply turned_msiSend
      assumption
    · assumption
  · assumption

theorem turned_penFall {s₀ : State} (s : State) (p : ℕ) (h0 : Turned s₀ s) :
    Turned s₀ (State.penFall s p) := by
  unfold State.penFall
  extract_lets +onlyGivenNames t1
  clear_value t1
  refine Turned.ite ?_ ?_
  · apply turned_setPen
    assumption
  · assumption

theorem turned_penCheck {s₀ : State} (s : State) (p : ℕ) (h0 : Turned s₀ s) :
    Turned s₀ (State.penCheck s p).1 := by
  unfold State.penCheck
  split
  · dsimp only
    assumption
  · dsimp only
    apply turned_fire
    apply turned_bumpFld
    apply turned_penFall
    apply turned_setPen
    assumption

theorem turned_penOverflow {s₀ : State} (s : State) (p : ℕ) (h0 : Turned s₀ s) :
    Turned s₀ (State.penOverflow s p) := by
  unfold State.penOverflow
  apply turned_fire
  apply turned_bumpFld
  assumption

theorem turned_penPoke {s₀ : State} (s : State) (p : ℕ) (at_ : ℕ) (w : Word) (h0 : Turned s₀ s) :
    Turned s₀ (State.penPoke s p at_ w) := by
  unfold State.penPoke
  refine Turned.of_eq rfl rfl rfl rfl rfl rfl ?_
  assumption

theorem turned_penWord {s₀ : State} (s : State) (p : ℕ) (w : Word) (h0 : Turned s₀ s) :
    Turned s₀ (State.penWord s p w) := by
  unfold State.penWord
  extract_lets +onlyGivenNames t1
  clear_value t1
  extract_lets +onlyGivenNames t2
  clear_value t2
  apply turned_setPen
  apply turned_penPoke
  assumption

theorem turned_penStream {s₀ : State} (s : State) (p : ℕ) (w : Word) (h0 : Turned s₀ s) :
    Turned s₀ (State.penStream s p w).1 := by
  unfold State.penStream
  extract_lets +onlyGivenNames t1
  clear_value t1
  extract_lets +onlyGivenNames t2
  clear_value t2
  split
  · dsimp only
    apply turned_setPen
    assumption
  · split
    · dsimp only
      apply turned_penOverflow
      apply turned_setPen
      assumption
    · extract_lets +onlyGivenNames t3
      refine Turned.cut (a := t3) ?_ fun _ => ?_
      · unfold t3; clear t3
        apply turned_penWord
        assumption
      clear_value t3
      extract_lets +onlyGivenNames t4
      clear_value t4
      dsimp only
      refine Turned.ite ?_ ?_
      · apply turned_penRise
        apply turned_setPen
        assumption
      · assumption

theorem turned_penPacketWord {s₀ : State} (s : State) (p : ℕ) (w : Word) (h0 : Turned s₀ s) :
    Turned s₀ (State.penPacketWord s p w).1 := by
  unfold State.penPacketWord
  extract_lets +onlyGivenNames t1
  clear_value t1
  extract_lets +onlyGivenNames t2
  clear_value t2
  split
  · dsimp only
    assumption
  · extract_lets +onlyGivenNames t3
    clear_value t3
    split
    · dsimp only
      apply turned_penOverflow
      apply turned_setPen
      assumption
    · dsimp only
      apply turned_penWord
      apply turned_setPen
      assumption

theorem turned_penWordIn {s₀ : State} (s : State) (p : ℕ) (w : Word) (h0 : Turned s₀ s) :
    Turned s₀ (State.penWordIn s p w).1 := by
  unfold State.penWordIn
  extract_lets +onlyGivenNames t1
  clear_value t1
  split
  · dsimp only
    apply turned_penOverflow
    apply turned_setPen
    assumption
  · split
    · apply turned_penPacketWord
      assumption
    · apply turned_penStream
      assumption

theorem turned_penWordsIn {s₀ : State} (s : State) (p : ℕ) (x2 : List Word) (h0 : Turned s₀ s) :
    Turned s₀ (State.penWordsIn s p x2).1 := by
  induction x2 generalizing s with
  | nil =>
    unfold State.penWordsIn
    dsimp only
    assumption
  | cons a l ih =>
    unfold State.penWordsIn
    split
    split
    dsimp only
    refine Turned.ofEq (by assumption) ?_
    apply ih
    refine Turned.ofEq (by assumption) ?_
    apply turned_penWordIn
    assumption

theorem turned_penPushLost {s₀ : State} (s : State) (p : ℕ) (ws : List Word) (h0 : Turned s₀ s) :
    Turned s₀ (State.penPushLost s p ws).1 := by
  unfold State.penPushLost
  split
  · dsimp only
    refine Turned.ofEq (by assumption) ?_
    apply turned_penCheck
    assumption
  · split
    · dsimp only
      refine Turned.ofEq (by assumption) ?_
      apply turned_penCheck
      assumption
    · split
      · split
        · dsimp only
          refine Turned.ofEq (by assumption) ?_
          apply turned_penCheck
          assumption
        · extract_lets +onlyGivenNames t1
          refine Turned.cut (a := t1) ?_ fun _ => ?_
          · unfold t1; clear t1
            refine Turned.ite ?_ ?_
            · refine Turned.ofEq (by assumption) ?_
              apply turned_penCheck
              assumption
            · apply turned_setPen
              refine Turned.ofEq (by assumption) ?_
              apply turned_penCheck
              assumption
          clear_value t1
          dsimp only
          apply turned_penOverflow
          assumption
      · apply turned_penWordsIn
        refine Turned.ofEq (by assumption) ?_
        apply turned_penCheck
        assumption

theorem turned_penPush {s₀ : State} (s : State) (p : ℕ) (ws : List Word) (h0 : Turned s₀ s) :
    Turned s₀ (State.penPush s p ws) := by
  unfold State.penPush
  apply turned_penPushLost
  assumption

theorem turned_penSeal {s₀ : State} (s : State) (p : ℕ) (k : ℕ) (h0 : Turned s₀ s) :
    Turned s₀ (State.penSeal s p k) := by
  unfold State.penSeal
  extract_lets +onlyGivenNames t1
  clear_value t1
  extract_lets +onlyGivenNames t2
  clear_value t2
  extract_lets +onlyGivenNames t3
  clear_value t3
  extract_lets +onlyGivenNames t4
  refine Turned.cut (a := t4) ?_ fun _ => ?_
  · unfold t4; clear t4
    refine Turned.over ?_ ?_
    · intro a1 a2 a3
      apply turned_penPoke
      assumption
    · assumption
  clear_value t4
  extract_lets +onlyGivenNames t5
  clear_value t5
  apply turned_penRise
  apply turned_setPen
  assumption

theorem turned_penCommit {s₀ : State} (s : State) (p : ℕ) (h0 : Turned s₀ s) :
    Turned s₀ (State.penCommit s p) := by
  unfold State.penCommit
  split
  extract_lets +onlyGivenNames t1
  clear_value t1
  refine Turned.ite ?_ ?_
  · refine Turned.ofEq (by assumption) ?_
    apply turned_penCheck
    assumption
  · refine Turned.ite ?_ ?_
    · apply turned_setPen
      refine Turned.ofEq (by assumption) ?_
      apply turned_penCheck
      assumption
    · extract_lets +onlyGivenNames t2
      clear_value t2
      refine Turned.ite ?_ ?_
      · apply turned_setPen
        refine Turned.ofEq (by assumption) ?_
        apply turned_penCheck
        assumption
      · apply turned_penSeal
        refine Turned.ofEq (by assumption) ?_
        apply turned_penCheck
        assumption

theorem turned_penEnable {s₀ : State} (s : State) (p : ℕ) (v : ℕ) (h0 : Turned s₀ s) :
    Turned s₀ (State.penEnable s p v) := by
  unfold State.penEnable
  extract_lets +onlyGivenNames t1
  clear_value t1
  split
  · apply turned_setPen
    assumption
  · apply turned_setPen
    assumption
  · apply turned_setPen
    assumption
  · assumption

theorem turned_penPacketIn {s₀ : State} (s : State) (p : ℕ) (ws : List Word) (h0 : Turned s₀ s) :
    Turned s₀ (State.penPacketIn s p ws).1 := by
  unfold State.penPacketIn
  split
  dsimp only
  apply turned_penCommit
  refine Turned.ofEq (by assumption) ?_
  apply turned_penPushLost
  assumption

theorem turned_hostRsp {s₀ : State} (s : State) (ws : List ℕ) (h0 : Turned s₀ s) :
    Turned s₀ (State.hostRsp s ws) := by
  unfold State.hostRsp
  refine Turned.ite ?_ ?_
  · assumption
  · extract_lets +onlyGivenNames t1
    clear_value t1
    extract_lets +onlyGivenNames t2
    extract_lets +onlyGivenNames t3
    clear_value t3
    extract_lets +onlyGivenNames t4
    refine Turned.cut (a := t4) ?_ fun _ => ?_
    · unfold t4; clear t4
      refine Turned.of_eq rfl rfl rfl rfl rfl rfl ?_
      assumption
    clear_value t4
    refine Turned.ite ?_ ?_
    · apply turned_interrupt
      assumption
    · assumption

theorem turned_reply {s₀ : State} (s : State) (path : ℕ) (source : ℕ) (ws : List ℕ) (h0 : Turned s₀ s) :
    Turned s₀ (State.reply s path source ws) := by
  unfold State.reply
  split
  · apply turned_hostRsp
    assumption
  · refine Turned.of_eq rfl rfl rfl rfl rfl rfl ?_
    assumption
  · apply turned_emit
    assumption

theorem turned_respond {s₀ : State} (s : State) (path : ℕ) (source : ℕ) (x3 : Head) (body : List ℕ) (h0 : Turned s₀ s) :
    Turned s₀ (State.respond s path source x3 body) := by
  unfold State.respond
  extract_lets +onlyGivenNames t1
  clear_value t1
  extract_lets +onlyGivenNames t2
  refine Turned.cut (a := t2) ?_ fun _ => ?_
  · unfold t2; clear t2
    refine Turned.ite ?_ ?_
    · assumption
    · apply turned_bump
      assumption
  clear_value t2
  extract_lets +onlyGivenNames t3
  refine Turned.cut (a := t3) ?_ fun _ => ?_
  · unfold t3; clear t3
    refine Turned.ite ?_ ?_
    · apply turned_bump
      assumption
    · assumption
  clear_value t3
  apply turned_reply
  assumption

theorem turned_skipLine {s₀ : State} (s : State) (up : Bool) (L : ℕ) (h0 : Turned s₀ s) :
    Turned s₀ (State.skipLine s up L) := by
  unfold State.skipLine
  apply turned_tallyEvent
  apply turned_bump
  assumption

theorem turned_setQueue {s₀ : State} (s : State) (c : ℕ) (l : List Access) (h0 : Turned s₀ s) :
    Turned s₀ (State.setQueue s c l) := by
  unfold State.setQueue
  refine Turned.of_eq rfl rfl rfl rfl rfl rfl ?_
  assumption

theorem turned_wakeTile {s₀ : State} (s : State) (t : ℕ) (off : ℕ) (h0 : Turned s₀ s) :
    Turned s₀ (State.wakeTile s t off) := by
  unfold State.wakeTile
  extract_lets +onlyGivenNames t1
  clear_value t1
  refine Turned.of_eq rfl rfl rfl rfl rfl rfl ?_
  assumption

theorem turned_reachTile {s₀ : State} (s : State) (l : List LStage) (off : ℕ) (h0 : Turned s₀ s) :
    Turned s₀ (State.reachTile s l off) := by
  unfold State.reachTile
  split
  · assumption
  · split
    · assumption
    · refine Turned.ite ?_ ?_
      · assumption
      · extract_lets +onlyGivenNames t1
        refine Turned.cut (a := t1) ?_ fun _ => ?_
        · unfold t1; clear t1
          apply turned_wakeTile
          assumption
        clear_value t1
        refine Turned.of_eq rfl rfl rfl rfl rfl rfl ?_
        assumption

theorem turned_admit {s₀ : State} (s : State) (c : ℕ) (a : Access) (h0 : Turned s₀ s) :
    Turned s₀ (State.takeAccess s c a) := by
  unfold State.takeAccess
  refine Turned.ite ?_ ?_
  · apply turned_reachTile
    apply turned_setQueue
    assumption
  · refine Turned.of_eq rfl rfl rfl rfl rfl rfl ?_
    assumption

theorem turned_takeAccess {s₀ : State} (s : State) (c : ℕ) (a : Access) (h0 : Turned s₀ s) :
    Turned s₀ (State.takeAccess s c a) := by
  unfold State.takeAccess
  refine Turned.ite ?_ ?_
  · apply turned_reachTile
    apply turned_setQueue
    assumption
  · refine Turned.of_eq rfl rfl rfl rfl rfl rfl ?_
    assumption

theorem turned_enter {s₀ : State} (s : State) (c : ℕ) (stages : List LStage) (line : optParam (Option (Bool × ℕ)) none) (carried : optParam Bool false) (cell : optParam (Option (ℕ × List Word)) none) (h0 : Turned s₀ s) :
    Turned s₀ (State.enter s c stages line carried cell) := by
  unfold State.enter
  apply turned_takeAccess
  assumption

theorem turned_enterPen {s₀ : State} (s : State) (c : ℕ) (p : ℕ) (n : ℕ) (into : Bool) (h0 : Turned s₀ s) :
    Turned s₀ (State.enterPen s c p n into) := by
  unfold State.enterPen
  refine Turned.over ?_ ?_
  · intro a1 a2 a3
    apply turned_enter
    assumption
  · assumption

theorem turned_clientEnter {s₀ : State} (s : State) (c : ℕ) (up : Bool) (L : ℕ) (write : Bool) (mask : ℕ) (h0 : Turned s₀ s) :
    Turned s₀ (State.clientEnter s c up L write mask) := by
  unfold State.clientEnter
  refine Turned.ite ?_ ?_
  · refine Turned.ite ?_ ?_
    · assumption
    · apply turned_enter
      assumption
  · extract_lets +onlyGivenNames t1
    clear_value t1
    apply turned_enter
    assumption

theorem turned_ledgerTurn {s₀ : State} (s : State) (h0 : Turned s₀ s) :
    Turned s₀ (State.ledgerTurn s) := by
  unfold State.ledgerTurn
  extract_lets +onlyGivenNames t1
  clear_value t1
  extract_lets +onlyGivenNames t2
  clear_value t2
  refine Turned.of_eq rfl rfl rfl rfl rfl rfl ?_
  assumption

theorem turned_degradeTurn {s₀ : State} (s : State) (h0 : Turned s₀ s) :
    Turned s₀ (State.degradeTurn s) := by
  unfold State.degradeTurn
  extract_lets +onlyGivenNames t1
  clear_value t1
  extract_lets +onlyGivenNames t2
  clear_value t2
  extract_lets +onlyGivenNames t3
  clear_value t3
  extract_lets +onlyGivenNames t4
  extract_lets +onlyGivenNames t5
  extract_lets +onlyGivenNames t6
  refine Turned.cut (a := t6) ?_ fun _ => ?_
  · unfold t6; clear t6
    refine Turned.of_eq rfl rfl rfl rfl rfl rfl ?_
    assumption
  clear_value t6
  refine Turned.ite ?_ ?_
  · apply turned_fire
    assumption
  · assumption

theorem turned_digestClose {s₀ : State} (s : State) (h0 : Turned s₀ s) :
    Turned s₀ (State.digestClose s) := by
  unfold State.digestClose
  extract_lets +onlyGivenNames t1
  clear_value t1
  extract_lets +onlyGivenNames t2
  clear_value t2
  extract_lets +onlyGivenNames t3
  clear_value t3
  refine Turned.of_eq rfl rfl rfl rfl rfl rfl ?_
  assumption

theorem turned_busEnable {s₀ : State} (s : State) (c : ℕ) (v : ℕ) (h0 : Turned s₀ s) :
    Turned s₀ (State.busEnable s c v) := by
  unfold State.busEnable
  extract_lets +onlyGivenNames t1
  clear_value t1
  refine Turned.ite ?_ ?_
  · split
    · refine Turned.ite ?_ ?_
      · assumption
      · apply turned_setChan
        assumption
    · assumption
  · split
    · apply turned_setChan
      assumption
    · apply turned_setChan
      assumption
    · apply turned_setChan
      assumption
    · apply turned_setChan
      assumption
    · apply turned_setChan
      assumption
    · assumption

theorem turned_busTurn {s₀ : State} (s : State) (h0 : Turned s₀ s) :
    Turned s₀ (State.busTurn s) := by
  unfold State.busTurn
  refine Turned.over ?_ ?_
  · intro a1 a2 a3
    dsimp only
    refine Turned.ite ?_ ?_
    · apply turned_setChan
      assumption
    · assumption
  · assumption

theorem turned_cellOut {s₀ : State} (s : State) (l : ℕ) (w : List Word) (ctx : ℕ) (place : List ℕ) (h0 : Turned s₀ s) :
    Turned s₀ (State.cellOut s l w ctx place) := by
  unfold State.cellOut
  extract_lets +onlyGivenNames t1
  clear_value t1
  extract_lets +onlyGivenNames t2
  clear_value t2
  split
  extract_lets +onlyGivenNames t3
  refine Turned.cut (a := t3) ?_ fun _ => ?_
  · unfold t3; clear t3
    apply turned_emit
    assumption
  clear_value t3
  refine Turned.ite ?_ ?_
  · apply turned_setLink
    assumption
  · assumption

theorem turned_countWrap {s₀ : State} (s : State) (l : ℕ) (h0 : Turned s₀ s) :
    Turned s₀ (State.countWrap s l) := by
  unfold State.countWrap
  extract_lets +onlyGivenNames t1
  refine Turned.cut (a := t1) ?_ fun _ => ?_
  · unfold t1; clear t1
    apply turned_linkCount
    assumption
  clear_value t1
  refine Turned.ite ?_ ?_
  · assumption
  · apply turned_fire
    refine Turned.of_eq rfl rfl rfl rfl rfl rfl ?_
    assumption

theorem turned_unschedOut {s₀ : State} (s : State) (l : ℕ) (w : List Word) (h0 : Turned s₀ s) :
    Turned s₀ (State.unschedOut s l w) := by
  unfold State.unschedOut
  apply turned_linkCount
  apply turned_cellOut
  assumption

theorem turned_ownOut {s₀ : State} (s : State) (c : ℕ) (l : ℕ) (w : List Word) (h0 : Turned s₀ s) :
    Turned s₀ (State.ownOut s c l w) := by
  unfold State.ownOut
  apply turned_enter
  assumption

theorem turned_transitPut {s₀ : State} (s : State) (l : ℕ) (w : List Word) (h0 : Turned s₀ s) :
    Turned s₀ (State.transitPut s l w) := by
  unfold State.transitPut
  extract_lets +onlyGivenNames t1
  clear_value t1
  refine Turned.ite ?_ ?_
  · apply turned_fire
    apply turned_linkCount
    assumption
  · apply turned_setLink
    assumption

theorem turned_sendDir {s₀ : State} (s : State) (dir : ℕ) (w : List Word) (h0 : Turned s₀ s) :
    Turned s₀ (State.sendDir s dir w) := by
  unfold State.sendDir
  extract_lets +onlyGivenNames t1
  clear_value t1
  extract_lets +onlyGivenNames t2
  clear_value t2
  refine Turned.ite ?_ ?_
  · apply turned_ownOut
    assumption
  · refine Turned.ite ?_ ?_
    · apply turned_ownOut
      apply turned_countWrap
      assumption
    · apply turned_linkCount
      assumption

theorem turned_wrapCell {s₀ : State} (s : State) (l : ℕ) (w : List Word) (put : State → List Word → State)
    (hp : ∀ u v, Turned s₀ u → Turned s₀ (put u v)) (h0 : Turned s₀ s) : Turned s₀ (State.wrapCell s l w put) := by
  unfold State.wrapCell
  refine Turned.ite ?_ ?_
  · apply turned_linkCount
    assumption
  · apply hp
    apply turned_countWrap
    assumption

theorem turned_loseTunnel {s₀ : State} (s : State) (l : ℕ) (node : ℕ → Bool) (h0 : Turned s₀ s) :
    Turned s₀ (State.loseTunnel s l node) := by
  unfold State.loseTunnel
  extract_lets +onlyGivenNames t1
  clear_value t1
  extract_lets +onlyGivenNames t2
  clear_value t2
  extract_lets +onlyGivenNames t3
  clear_value t3
  extract_lets +onlyGivenNames t4
  refine Turned.cut (a := t4) ?_ fun _ => ?_
  · unfold t4; clear t4
    apply turned_setQueue
    assumption
  clear_value t4
  extract_lets +onlyGivenNames t5
  extract_lets +onlyGivenNames t6
  refine Turned.cut (a := t6) ?_ fun _ => ?_
  · unfold t6; clear t6
    refine Turned.of_eq rfl rfl rfl rfl rfl rfl ?_
    assumption
  clear_value t6
  refine Turned.over ?_ ?_
  · intro a7 a8 a9
    apply turned_bumpFld
    assumption
  · assumption

theorem turned_wrapWaiting {s₀ : State} (s : State) (l : ℕ) (h0 : Turned s₀ s) :
    Turned s₀ (State.wrapWaiting s l) := by
  unfold State.wrapWaiting
  refine Turned.ite ?_ ?_
  · assumption
  · extract_lets +onlyGivenNames t1
    refine Turned.cut (a := t1) ?_ fun _ => ?_
    · unfold t1; clear t1
      apply turned_loseTunnel
      assumption
    clear_value t1
    extract_lets +onlyGivenNames t2
    clear_value t2
    extract_lets +onlyGivenNames t3
    clear_value t3
    extract_lets +onlyGivenNames t4
    clear_value t4
    extract_lets +onlyGivenNames t5
    clear_value t5
    extract_lets +onlyGivenNames t6
    refine Turned.cut (a := t6) ?_ fun _ => ?_
    · unfold t6; clear t6
      apply turned_setLink
      assumption
    clear_value t6
    extract_lets +onlyGivenNames t7
    refine Turned.cut (a := t7) ?_ fun _ => ?_
    · unfold t7; clear t7
      apply turned_setQueue
      assumption
    clear_value t7
    extract_lets +onlyGivenNames t8
    extract_lets +onlyGivenNames t9
    refine Turned.cut (a := t9) ?_ fun _ => ?_
    · unfold t9; clear t9
      refine Turned.of_eq rfl rfl rfl rfl rfl rfl ?_
      assumption
    clear_value t9
    extract_lets +onlyGivenNames t10
    refine Turned.cut (a := t10) ?_ fun _ => ?_
    · unfold t10; clear t10
      refine Turned.over ?_ ?_
      · intro a11 a12 a13
        apply turned_wrapCell
        · intro a14 a15 a16
          apply turned_transitPut
          assumption
        · assumption
      · assumption
    clear_value t10
    refine Turned.over ?_ ?_
    · intro a17 a18 a19
      split
      · apply turned_wrapCell
        · intro a20 a21 a22
          apply turned_ownOut
          assumption
        · assumption
      · assumption
    · assumption

theorem turned_nextSeq {s₀ : State} (s : State) (kind : ℕ) (dir : ℕ) (h0 : Turned s₀ s) :
    Turned s₀ (State.nextSeq s kind dir).1 := by
  unfold State.nextSeq
  extract_lets +onlyGivenNames t1
  clear_value t1
  extract_lets +onlyGivenNames t2
  clear_value t2
  refine Turned.of_eq rfl rfl rfl rfl rfl rfl ?_
  assumption

theorem turned_sendCell {s₀ : State} (s : State) (dir : ℕ) (kind : ℕ) (dest : Option ℕ) (pay : List ℕ) (h0 : Turned s₀ s) :
    Turned s₀ (State.sendCell s dir kind dest pay) := by
  unfold State.sendCell
  dsimp only
  apply turned_sendDir
  apply turned_nextSeq
  assumption

theorem turned_broadcast {s₀ : State} (s : State) (kind : ℕ) (pay : List ℕ) (h0 : Turned s₀ s) :
    Turned s₀ (State.broadcast s kind pay) := by
  unfold State.broadcast
  apply turned_sendCell
  apply turned_sendCell
  assumption

theorem turned_unicastBoth {s₀ : State} (s : State) (kind : ℕ) (dest : ℕ) (pay : List ℕ) (h0 : Turned s₀ s) :
    Turned s₀ (State.unicastBoth s kind dest pay) := by
  unfold State.unicastBoth
  apply turned_sendCell
  apply turned_sendCell
  assumption

theorem turned_marker {s₀ : State} (s : State) (l : ℕ) (code : ℕ) (arg : ℕ) (h0 : Turned s₀ s) :
    Turned s₀ (State.marker s l code arg) := by
  unfold State.marker
  extract_lets +onlyGivenNames t1
  clear_value t1
  refine Turned.ite ?_ ?_
  · apply turned_setLink
    assumption
  · apply turned_emit
    assumption

theorem turned_repath {s₀ : State} (s : State) (h0 : Turned s₀ s) :
    Turned s₀ (State.repath s) := by
  unfold State.repath
  extract_lets +onlyGivenNames t1
  clear_value t1
  refine Turned.over ?_ ?_
  · intro a2 a3 a4
    extract_lets +onlyGivenNames t5
    clear_value t5
    extract_lets +onlyGivenNames t6
    clear_value t6
    extract_lets +onlyGivenNames t7
    extract_lets +onlyGivenNames t8
    refine Turned.cut (a := t8) ?_ fun _ => ?_
    · unfold t8; clear t8
      refine Turned.of_eq rfl rfl rfl rfl rfl rfl ?_
      assumption
    clear_value t8
    refine Turned.ite ?_ ?_
    · assumption
    · extract_lets +onlyGivenNames t9
      clear_value t9
      extract_lets +onlyGivenNames t10
      refine Turned.cut (a := t10) ?_ fun _ => ?_
      · unfold t10; clear t10
        refine Turned.ite ?_ ?_
        · apply turned_loseTunnel
          assumption
        · assumption
      clear_value t10
      extract_lets +onlyGivenNames t11
      refine Turned.cut (a := t11) ?_ fun _ => ?_
      · unfold t11; clear t11
        refine Turned.ite ?_ ?_
        · apply turned_loseTunnel
          assumption
        · assumption
      clear_value t11
      extract_lets +onlyGivenNames t12
      refine Turned.cut (a := t12) ?_ fun _ => ?_
      · unfold t12; clear t12
        refine Turned.ite ?_ ?_
        · apply turned_endSessions
          assumption
        · assumption
      clear_value t12
      apply turned_fire
      apply turned_bumpFld
      refine Turned.of_eq rfl rfl rfl rfl rfl rfl ?_
      assumption
  · assumption

theorem turned_syntonise {s₀ : State} (s : State) (h0 : Turned s₀ s) :
    Turned s₀ (State.syntonise s) := by
  unfold State.syntonise
  extract_lets +onlyGivenNames t1
  clear_value t1
  refine Turned.ite ?_ ?_
  · assumption
  · apply turned_fire
    refine Turned.of_eq rfl rfl rfl rfl rfl rfl ?_
    assumption

theorem turned_seenEpoch {s₀ : State} (s : State) (c : ℕ) (h0 : Turned s₀ s) :
    Turned s₀ (State.seenEpoch s c) := by
  unfold State.seenEpoch
  refine Turned.of_eq rfl rfl rfl rfl rfl rfl ?_
  assumption

theorem turned_setClaim {s₀ : State} (s : State) (c : ℕ) (h0 : Turned s₀ s) :
    Turned s₀ (State.setClaim s c) := by
  unfold State.setClaim
  apply turned_seenEpoch
  refine Turned.of_eq rfl rfl rfl rfl rfl rfl ?_
  assumption

theorem turned_setRecord {s₀ : State} (s : State) (v : ℕ) (src : ℕ) (h0 : Turned s₀ s) :
    Turned s₀ (State.setRecord s v src) := by
  unfold State.setRecord
  extract_lets +onlyGivenNames t1
  clear_value t1
  extract_lets +onlyGivenNames t2
  clear_value t2
  extract_lets +onlyGivenNames t3
  clear_value t3
  extract_lets +onlyGivenNames t4
  extract_lets +onlyGivenNames t5
  refine Turned.cut (a := t5) ?_ fun _ => ?_
  · unfold t5; clear t5
    apply turned_seenEpoch
    refine Turned.of_eq rfl rfl rfl rfl rfl rfl ?_
    assumption
  clear_value t5
  extract_lets +onlyGivenNames t6
  clear_value t6
  extract_lets +onlyGivenNames t7
  extract_lets +onlyGivenNames t8
  refine Turned.cut (a := t8) ?_ fun _ => ?_
  · unfold t8; clear t8
    apply turned_setClaim
    assumption
  clear_value t8
  extract_lets +onlyGivenNames t9
  extract_lets +onlyGivenNames t10
  refine Turned.cut (a := t10) ?_ fun _ => ?_
  · unfold t10; clear t10
    split
    · refine Turned.ite ?_ ?_
      · refine Turned.ite ?_ ?_
        · assumption
        · refine Turned.of_eq rfl rfl rfl rfl rfl rfl ?_
          assumption
      · refine Turned.ite ?_ ?_
        · apply turned_setClaim
          assumption
        · assumption
    · refine Turned.ite ?_ ?_
      · split
        · refine Turned.ite ?_ ?_
          · refine Turned.of_eq rfl rfl rfl rfl rfl rfl ?_
            assumption
          · assumption
        · assumption
      · refine Turned.ite ?_ ?_
        · refine Turned.of_eq rfl rfl rfl rfl rfl rfl ?_
          assumption
        · assumption
    · assumption
  clear_value t10
  apply turned_pairBell
  assumption

theorem turned_pairLinkLost {s₀ : State} (s : State) (h0 : Turned s₀ s) :
    Turned s₀ (State.pairLinkLost s) := by
  unfold State.pairLinkLost
  refine Turned.ite ?_ ?_
  · apply turned_setRecord
    assumption
  · assumption

theorem turned_reportLink {s₀ : State} (s : State) (l : ℕ) (up : Bool) (h0 : Turned s₀ s) :
    Turned s₀ (State.reportLink s l up) := by
  unfold State.reportLink
  extract_lets +onlyGivenNames t1
  clear_value t1
  extract_lets +onlyGivenNames t2
  extract_lets +onlyGivenNames t3
  refine Turned.cut (a := t3) ?_ fun _ => ?_
  · unfold t3; clear t3
    refine Turned.of_eq rfl rfl rfl rfl rfl rfl ?_
    assumption
  clear_value t3
  extract_lets +onlyGivenNames t4
  refine Turned.cut (a := t4) ?_ fun _ => ?_
  · unfold t4; clear t4
    refine Turned.ite ?_ ?_
    · assumption
    · apply turned_wrapWaiting
      assumption
  clear_value t4
  extract_lets +onlyGivenNames t5
  refine Turned.cut (a := t5) ?_ fun _ => ?_
  · unfold t5; clear t5
    apply turned_syntonise
    apply turned_repath
    apply turned_broadcast
    assumption
  clear_value t5
  refine Turned.ite ?_ ?_
  · apply turned_pairLinkLost
    assumption
  · assumption

theorem turned_reportTurns {s₀ : State} (s : State) (h0 : Turned s₀ s) :
    Turned s₀ (State.reportTurns s) := by
  unfold State.reportTurns
  refine Turned.over ?_ ?_
  · intro a1 a2 a3
    apply turned_reportLink
    assumption
  · refine Turned.of_eq rfl rfl rfl rfl rfl rfl ?_
    assumption

theorem turned_linkFall {s₀ : State} (s : State) (l : ℕ) (cause : ℕ) (h0 : Turned s₀ s) :
    Turned s₀ (State.linkFall s l cause) := by
  unfold State.linkFall
  extract_lets +onlyGivenNames t1
  clear_value t1
  extract_lets +onlyGivenNames t2
  clear_value t2
  extract_lets +onlyGivenNames t3
  refine Turned.cut (a := t3) ?_ fun _ => ?_
  · unfold t3; clear t3
    apply turned_marker
    apply turned_linkCount
    apply turned_setLink
    assumption
  clear_value t3
  apply turned_reportLink
  refine Turned.ite ?_ ?_
  · apply turned_fire
    assumption
  · assumption

theorem turned_linkOff {s₀ : State} (s : State) (l : ℕ) (h0 : Turned s₀ s) :
    Turned s₀ (State.linkOff s l) := by
  unfold State.linkOff
  apply turned_pairLinkLost
  apply turned_syntonise
  apply turned_repath
  apply turned_wrapWaiting
  apply turned_setLink
  assumption

theorem turned_linkEnable {s₀ : State} (s : State) (l : ℕ) (v : ℕ) (h0 : Turned s₀ s) :
    Turned s₀ (State.linkEnable s l v) := by
  unfold State.linkEnable
  extract_lets +onlyGivenNames t1
  clear_value t1
  refine Turned.ite ?_ ?_
  · refine Turned.ite ?_ ?_
    · extract_lets +onlyGivenNames t2
      refine Turned.cut (a := t2) ?_ fun _ => ?_
      · unfold t2; clear t2
        apply turned_setLink
        assumption
      clear_value t2
      refine Turned.ite ?_ ?_
      · apply turned_linkFall
        assumption
      · assumption
    · assumption
  · refine Turned.ite ?_ ?_
    · assumption
    · apply turned_linkOff
      assumption

theorem turned_rxSwap {s₀ : State} (s : State) (old : List Word) (new : List Word) (h0 : Turned s₀ s) :
    Turned s₀ (State.rxSwap s old new) := by
  unfold State.rxSwap
  extract_lets +onlyGivenNames t1
  clear_value t1
  extract_lets +onlyGivenNames t2
  clear_value t2
  extract_lets +onlyGivenNames t3
  clear_value t3
  refine Turned.over ?_ ?_
  · intro a1 a2 a3
    refine Turned.ite ?_ ?_
    · assumption
    · refine Turned.of_eq rfl rfl rfl rfl rfl rfl ?_
      assumption
  · assumption

theorem turned_sealTurn {s₀ : State} (s : State) (l : ℕ) (h0 : Turned s₀ s) :
    Turned s₀ (State.sealTurn s l) := by
  unfold State.sealTurn
  extract_lets +onlyGivenNames t1
  clear_value t1
  refine Turned.ite ?_ ?_
  · assumption
  · split
    · apply turned_linkFall
      assumption
    · extract_lets +onlyGivenNames t2
      clear_value t2
      extract_lets +onlyGivenNames t3
      clear_value t3
      extract_lets +onlyGivenNames t4
      refine Turned.cut (a := t4) ?_ fun _ => ?_
      · unfold t4; clear t4
        apply turned_setLink
        assumption
      clear_value t4
      split
      apply turned_ownOut
      refine Turned.ofEq (by assumption) ?_
      apply turned_nextSeq
      assumption

theorem turned_phaseTurn {s₀ : State} (s : State) (l : ℕ) (h0 : Turned s₀ s) :
    Turned s₀ (State.phaseTurn s l) := by
  unfold State.phaseTurn
  extract_lets +onlyGivenNames t1
  clear_value t1
  split
  · apply turned_setLink
    assumption
  · assumption

theorem turned_setPort {s₀ : State} (s : State) (p : ℕ) (x : Port) (h0 : Turned s₀ s) :
    Turned s₀ (State.setPort s p x) := by
  unfold State.setPort
  refine Turned.of_eq rfl rfl rfl rfl rfl rfl ?_
  assumption

theorem turned_portCount {s₀ : State} (s : State) (p : ℕ) (k : ℕ) (h0 : Turned s₀ s) :
    Turned s₀ (State.portCount s p k) := by
  unfold State.portCount
  refine Turned.ite ?_ ?_
  · apply turned_bump
    assumption
  · assumption

theorem turned_setBq {s₀ : State} (s : State) (p : ℕ) (tc : ℕ) (l : List QFrame) (h0 : Turned s₀ s) :
    Turned s₀ (State.setBq s p tc l) := by
  unfold State.setBq
  refine Turned.of_eq rfl rfl rfl rfl rfl rfl ?_
  assumption

theorem turned_noteFree {s₀ : State} (s : State) (h0 : Turned s₀ s) :
    Turned s₀ (State.noteFree s) := by
  unfold State.noteFree
  refine Turned.of_eq rfl rfl rfl rfl rfl rfl ?_
  assumption

theorem turned_setSchedQ {s₀ : State} (s : State) (p : ℕ) (l : List SchedFrame) (h0 : Turned s₀ s) :
    Turned s₀ (State.setSchedQ s p l) := by
  unfold State.setSchedQ
  refine Turned.of_eq rfl rfl rfl rfl rfl rfl ?_
  assumption

theorem turned_recToPen {s₀ : State} (s : State) (p : ℕ) (ws : List Word) (h0 : Turned s₀ s) :
    Turned s₀ (State.recToPen s p ws).1 := by
  unfold State.recToPen
  split
  · dsimp only
    assumption
  · apply turned_penPacketIn
    apply turned_enterPen
    assumption

theorem turned_redAdmit {s₀ : State} (s : State) (p : ℕ) (tc : ℕ) (colour : ℕ) (h0 : Turned s₀ s) :
    Turned s₀ (State.redAdmit s p tc colour).1 := by
  unfold State.redAdmit
  extract_lets +onlyGivenNames t1
  clear_value t1
  extract_lets +onlyGivenNames t2
  clear_value t2
  extract_lets +onlyGivenNames t3
  clear_value t3
  extract_lets +onlyGivenNames t4
  clear_value t4
  extract_lets +onlyGivenNames t5
  clear_value t5
  extract_lets +onlyGivenNames t6
  extract_lets +onlyGivenNames t7
  refine Turned.cut (a := t7) ?_ fun _ => ?_
  · unfold t7; clear t7
    refine Turned.of_eq rfl rfl rfl rfl rfl rfl ?_
    assumption
  clear_value t7
  split
  · assumption
  · split
    · assumption
    · split
      · assumption
      · dsimp only
        apply turned_draw
        assumption

theorem turned_enqueue {s₀ : State} (s : State) (p : ℕ) (f : QFrame) (h0 : Turned s₀ s) :
    Turned s₀ (State.enqueue s p f).1 := by
  unfold State.enqueue
  split
  · dsimp only
    apply turned_portCount
    assumption
  · split
    split
    · dsimp only
      apply turned_noteFree
      apply turned_setBq
      refine Turned.ofEq (by assumption) ?_
      apply turned_redAdmit
      assumption
    · dsimp only
      apply turned_portCount
      refine Turned.ofEq (by assumption) ?_
      apply turned_redAdmit
      assumption

theorem turned_newCopy {s₀ : State} (s : State) (f : QFrame) (h0 : Turned s₀ s) :
    Turned s₀ (State.newCopy s f).1 := by
  unfold State.newCopy
  refine Turned.of_eq rfl rfl rfl rfl rfl rfl ?_
  assumption

theorem turned_mirror {s₀ : State} (s : State) (k : ℕ) (f : QFrame) (h0 : Turned s₀ s) :
    Turned s₀ (State.mirror s k f) := by
  unfold State.mirror
  extract_lets +onlyGivenNames t1
  clear_value t1
  refine Turned.ite ?_ ?_
  · apply turned_portCount
    assumption
  · split
    split
    · apply turned_bump
      refine Turned.ofEq (by assumption) ?_
      apply turned_enqueue
      refine Turned.ofEq (by assumption) ?_
      apply turned_newCopy
      assumption
    · refine Turned.ite ?_ ?_
      · apply turned_portCount
        refine Turned.ofEq (by assumption) ?_
        apply turned_enqueue
        refine Turned.ofEq (by assumption) ?_
        apply turned_newCopy
        assumption
      · refine Turned.ofEq (by assumption) ?_
        apply turned_enqueue
        refine Turned.ofEq (by assumption) ?_
        apply turned_newCopy
        assumption

theorem turned_sample {s₀ : State} (s : State) (k : ℕ) (f : QFrame) (port : ℕ) (dir : ℕ) (t : ℕ) (h0 : Turned s₀ s) :
    Turned s₀ (State.sample s k f port dir t) := by
  unfold State.sample
  extract_lets +onlyGivenNames t1
  clear_value t1
  refine Turned.ite ?_ ?_
  · extract_lets +onlyGivenNames t2
    extract_lets +onlyGivenNames t3
    refine Turned.cut (a := t3) ?_ fun _ => ?_
    · unfold t3; clear t3
      refine Turned.of_eq rfl rfl rfl rfl rfl rfl ?_
      assumption
    clear_value t3
    split
    · refine Turned.ofEq (by assumption) ?_
      apply turned_recToPen
      assumption
    · apply turned_bump
      refine Turned.ofEq (by assumption) ?_
      apply turned_recToPen
      assumption
  · refine Turned.of_eq rfl rfl rfl rfl rfl rfl ?_
    assumption

theorem turned_sessions {s₀ : State} (s : State) (f : QFrame) (port : ℕ) (dir : ℕ) (t : ℕ) (rule : Option ℕ) (h0 : Turned s₀ s) :
    Turned s₀ (State.sessions s f port dir t rule) := by
  unfold State.sessions
  refine Turned.over ?_ ?_
  · intro a1 a2 a3
    extract_lets +onlyGivenNames t1
    clear_value t1
    extract_lets +onlyGivenNames t2
    clear_value t2
    extract_lets +onlyGivenNames t3
    clear_value t3
    refine Turned.ite ?_ ?_
    · assumption
    · split
      · refine Turned.ite ?_ ?_
        · assumption
        · apply turned_mirror
          assumption
      · apply turned_sample
        assumption
      · assumption
  · assumption

theorem turned_fdbTrim {s₀ : State} (s : State) (h0 : Turned s₀ s) :
    Turned s₀ (State.fdbTrim s) := by
  unfold State.fdbTrim
  refine Turned.of_eq rfl rfl rfl rfl rfl rfl ?_
  assumption

theorem turned_schedDrop {s₀ : State} (s : State) (p : ℕ) (at_ : ℕ) (h0 : Turned s₀ s) :
    Turned s₀ (State.schedDrop s p at_) := by
  unfold State.schedDrop
  apply turned_setSchedQ
  assumption

theorem turned_schedSent {s₀ : State} (s : State) (p : ℕ) (at_ : ℕ) (h0 : Turned s₀ s) :
    Turned s₀ (State.schedSent s p at_) := by
  unfold State.schedSent
  split
  · assumption
  · refine Turned.ite ?_ ?_
    · assumption
    · extract_lets +onlyGivenNames t1
      refine Turned.cut (a := t1) ?_ fun _ => ?_
      · unfold t1; clear t1
        apply turned_portCount
        apply turned_emit
        apply turned_schedDrop
        assumption
      clear_value t1
      apply turned_sessions
      assumption

theorem turned_portEnable {s₀ : State} (s : State) (p : ℕ) (h0 : Turned s₀ s) :
    Turned s₀ (State.portEnable s p) := by
  unfold State.portEnable
  extract_lets +onlyGivenNames t1
  clear_value t1
  refine Turned.ite ?_ ?_
  · refine Turned.ite ?_ ?_
    · refine Turned.ite ?_ ?_
      · assumption
      · apply turned_setPort
        assumption
    · assumption
  · split
    · apply turned_setPort
      assumption
    · apply turned_setPort
      assumption
    · apply turned_setPort
      assumption
    · assumption

theorem turned_portTurn {s₀ : State} (s : State) (h0 : Turned s₀ s) :
    Turned s₀ (State.portTurn s) := by
  unfold State.portTurn
  extract_lets +onlyGivenNames t1
  clear_value t1
  refine Turned.over ?_ ?_
  · intro a1 a2 a3
    apply turned_portEnable
    assumption
  · refine Turned.of_eq rfl rfl rfl rfl rfl rfl ?_
    assumption

theorem turned_setLvls {s₀ : State} (s : State) (base : ℕ) (k : ℕ) (v : ℕ) (h0 : Turned s₀ s) :
    Turned s₀ (State.setLvls s base k v) := by
  unfold State.setLvls
  refine Turned.of_eq rfl rfl rfl rfl rfl rfl ?_
  assumption

theorem turned_setDirs {s₀ : State} (s : State) (base : ℕ) (k : ℕ) (v : ℕ) (h0 : Turned s₀ s) :
    Turned s₀ (State.setDirs s base k v) := by
  unfold State.setDirs
  refine Turned.of_eq rfl rfl rfl rfl rfl rfl ?_
  assumption

theorem turned_setCue {s₀ : State} (s : State) (x : Drover) (pat : ℕ) (h0 : Turned s₀ s) :
    Turned s₀ (State.setCue s x pat) := by
  unfold State.setCue
  apply turned_setDirs
  apply turned_setLvls
  assumption

theorem turned_startPins {s₀ : State} (s : State) (x : Drover) (h0 : Turned s₀ s) :
    Turned s₀ (State.startPins s x) := by
  unfold State.startPins
  extract_lets +onlyGivenNames t1
  refine Turned.have_ (P := ∀ a0 a1 a2, Turned s₀ a0 → Turned s₀ (t1 a0 a1 a2)) ?_ fun hg1 => ?_
  · unfold t1; clear t1
    intro a3 a4 a5 a6
    apply turned_setDirs
    apply turned_setLvls
    assumption
  clear_value t1
  apply turned_setCue
  apply hg1
  apply hg1
  assumption

theorem turned_takeDrover {s₀ : State} (s : State) (k : ℕ) (x : Drover) (h0 : Turned s₀ s) :
    Turned s₀ (State.takeDrover s k x) := by
  unfold State.takeDrover
  apply turned_setDrover
  refine Turned.ite ?_ ?_
  · apply turned_snapHold
    assumption
  · assumption

theorem turned_keepAwake {s₀ : State} (s : State) (t : ℕ) (h0 : Turned s₀ s) :
    Turned s₀ (State.keepAwake s t) := by
  unfold State.keepAwake
  extract_lets +onlyGivenNames t1
  refine Turned.cut (a := t1) ?_ fun _ => ?_
  · unfold t1; clear t1
    refine Turned.ite ?_ ?_
    · assumption
    · apply turned_wakeTile
      assumption
  clear_value t1
  refine Turned.of_eq rfl rfl rfl rfl rfl rfl ?_
  assumption

theorem turned_startDrover {s₀ : State} (s : State) (k : ℕ) (new : Drover) (carry : ℕ) (h0 : Turned s₀ s) :
    Turned s₀ (State.startDrover s k new carry) := by
  unfold State.startDrover
  refine Turned.ite ?_ ?_
  · apply turned_setDrover
    assumption
  · extract_lets +onlyGivenNames t1
    clear_value t1
    extract_lets +onlyGivenNames t2
    clear_value t2
    extract_lets +onlyGivenNames t3
    clear_value t3
    extract_lets +onlyGivenNames t4
    refine Turned.cut (a := t4) ?_ fun _ => ?_
    · unfold t4; clear t4
      apply turned_takeDrover
      refine Turned.ite ?_ ?_
      · apply turned_keepAwake
        assumption
      · assumption
    clear_value t4
    refine Turned.ite ?_ ?_
    · apply turned_startPins
      assumption
    · assumption

theorem turned_exchangeTurn {s₀ : State} (s : State) (d : ℕ) (h0 : Turned s₀ s) :
    Turned s₀ (State.exchangeTurn s d) := by
  unfold State.exchangeTurn
  extract_lets +onlyGivenNames t1
  clear_value t1
  refine Turned.ite ?_ ?_
  · extract_lets +onlyGivenNames t2
    refine Turned.cut (a := t2) ?_ fun _ => ?_
    · unfold t2; clear t2
      apply turned_setDrove
      assumption
    clear_value t2
    extract_lets +onlyGivenNames t3
    refine Turned.cut (a := t3) ?_ fun _ => ?_
    · unfold t3; clear t3
      refine Turned.over ?_ ?_
      · intro a1 a2 a3
        refine Turned.ite ?_ ?_
        · apply turned_startDrover
          assumption
        · assumption
      · assumption
    clear_value t3
    apply turned_fire
    assumption
  · assumption

theorem turned_swapDrover {s₀ : State} (s : State) (r : List Word) (old : List Word) (k : ℕ) (oldN : ℕ) (oldStore : Tab Word) (h0 : Turned s₀ s) :
    Turned s₀ (State.swapDrover s r old k oldN oldStore) := by
  unfold State.swapDrover
  extract_lets +onlyGivenNames t1
  clear_value t1
  extract_lets +onlyGivenNames t2
  clear_value t2
  extract_lets +onlyGivenNames t3
  clear_value t3
  extract_lets +onlyGivenNames t4
  clear_value t4
  refine Turned.ite ?_ ?_
  · assumption
  · refine Turned.ite ?_ ?_
    · apply turned_startDrover
      assumption
    · apply turned_startDrover
      assumption

theorem turned_droveSwap {s₀ : State} (s : State) (old : List Word) (sec : List Word) (h0 : Turned s₀ s) :
    Turned s₀ (State.droveSwap s old sec) := by
  unfold State.droveSwap
  refine Turned.over ?_ ?_
  · intro a1 a2 a3
    extract_lets +onlyGivenNames t4
    clear_value t4
    extract_lets +onlyGivenNames t5
    clear_value t5
    extract_lets +onlyGivenNames t6
    clear_value t6
    extract_lets +onlyGivenNames t7
    clear_value t7
    extract_lets +onlyGivenNames t8
    clear_value t8
    extract_lets +onlyGivenNames t9
    refine Turned.cut (a := t9) ?_ fun _ => ?_
    · unfold t9; clear t9
      apply turned_setDrove
      assumption
    clear_value t9
    extract_lets +onlyGivenNames t10
    refine Turned.cut (a := t10) ?_ fun _ => ?_
    · unfold t10; clear t10
      refine Turned.ite ?_ ?_
      · apply turned_fire
        assumption
      · assumption
    clear_value t10
    refine Turned.over ?_ ?_
    · intro a11 a12 a13
      apply turned_swapDrover
      assumption
    · assumption
  · assumption

theorem turned_droveUnstage {s₀ : State} (s : State) (h0 : Turned s₀ s) :
    Turned s₀ (State.droveUnstage s) := by
  unfold State.droveUnstage
  refine Turned.over ?_ ?_
  · intro a1 a2 a3
    extract_lets +onlyGivenNames t1
    clear_value t1
    refine Turned.ite ?_ ?_
    · apply turned_setDrove
      assumption
    · assumption
  · assumption

theorem turned_beaconLost {s₀ : State} (s : State) (b : ℕ) (h0 : Turned s₀ s) :
    Turned s₀ (State.beaconLost s b) := by
  unfold State.beaconLost
  extract_lets +onlyGivenNames t1
  clear_value t1
  refine Turned.ite ?_ ?_
  · apply turned_fire
    apply turned_setBeacon
    assumption
  · assumption

theorem turned_setDomain {s₀ : State} (s : State) (d : ℕ) (x : Domain) (h0 : Turned s₀ s) :
    Turned s₀ (State.setDomain s d x) := by
  unfold State.setDomain
  refine Turned.of_eq rfl rfl rfl rfl rfl rfl ?_
  assumption

theorem turned_beaconsLost {s₀ : State} (s : State) (h0 : Turned s₀ s) :
    Turned s₀ (State.beaconsLost s) := by
  unfold State.beaconsLost
  refine Turned.over ?_ ?_
  · intro a1 a2 a3
    apply turned_beaconLost
    assumption
  · assumption

theorem turned_toTime {s₀ : State} (s : State) (st : TimeState) (h0 : Turned s₀ s) :
    Turned s₀ (State.toTime s st) := by
  unfold State.toTime
  refine Turned.ite ?_ ?_
  · assumption
  · extract_lets +onlyGivenNames t1
    clear_value t1
    extract_lets +onlyGivenNames t2
    extract_lets +onlyGivenNames t3
    refine Turned.cut (a := t3) ?_ fun _ => ?_
    · unfold t3; clear t3
      refine Turned.of_eq rfl rfl rfl rfl rfl rfl ?_
      assumption
    clear_value t3
    extract_lets +onlyGivenNames t4
    refine Turned.cut (a := t4) ?_ fun _ => ?_
    · unfold t4; clear t4
      apply turned_fire
      apply turned_bump
      assumption
    clear_value t4
    split
    · apply turned_fire
      assumption
    · apply turned_beaconsLost
      apply turned_fire
      assumption
    · assumption

theorem turned_masterTime {s₀ : State} (s : State) (h0 : Turned s₀ s) :
    Turned s₀ (State.masterTime s) := by
  unfold State.masterTime
  refine Turned.ite ?_ ?_
  · apply turned_toTime
    refine Turned.of_eq rfl rfl rfl rfl rfl rfl ?_
    assumption
  · refine Turned.ite ?_ ?_
    · apply turned_toTime
      assumption
    · apply turned_toTime
      assumption

theorem turned_sendSync {s₀ : State} (s : State) (h0 : Turned s₀ s) :
    Turned s₀ (State.sendSync s) := by
  unfold State.sendSync
  apply turned_byShepherd
  · assumption
  · intro a1 a2
    extract_lets +onlyGivenNames t1
    clear_value t1
    extract_lets +onlyGivenNames t2
    refine Turned.cut (a := t2) ?_ fun _ => ?_
    · unfold t2; clear t2
      refine Turned.ite ?_ ?_
      · apply turned_sendCell
        assumption
      · assumption
    clear_value t2
    refine Turned.ite ?_ ?_
    · apply turned_sendCell
      assumption
    · assumption

theorem turned_noteOffset {s₀ : State} (s : State) (d : ℕ) (o : ℤ) (h0 : Turned s₀ s) :
    Turned s₀ (State.noteOffset s d o) := by
  unfold State.noteOffset
  extract_lets +onlyGivenNames t1
  clear_value t1
  extract_lets +onlyGivenNames t2
  clear_value t2
  refine Turned.ite ?_ ?_
  · apply turned_setDomain
    assumption
  · apply turned_setDomain
    assumption

theorem turned_domainLost {s₀ : State} (s : State) (d : ℕ) (h0 : Turned s₀ s) :
    Turned s₀ (State.domainLost s d) := by
  unfold State.domainLost
  extract_lets +onlyGivenNames t1
  clear_value t1
  extract_lets +onlyGivenNames t2
  clear_value t2
  refine Turned.ite ?_ ?_
  · apply turned_fire
    apply turned_setDomain
    assumption
  · apply turned_setDomain
    assumption

theorem turned_choose {s₀ : State} (s : State) (d : ℕ) (h0 : Turned s₀ s) :
    Turned s₀ (State.choose s d) := by
  unfold State.choose
  extract_lets +onlyGivenNames t1
  clear_value t1
  extract_lets +onlyGivenNames t2
  clear_value t2
  split
  · refine Turned.ite ?_ ?_
    · extract_lets +onlyGivenNames t3
      refine Turned.cut (a := t3) ?_ fun _ => ?_
      · unfold t3; clear t3
        refine Turned.ite ?_ ?_
        · assumption
        · apply turned_domainLost
          assumption
      clear_value t3
      extract_lets +onlyGivenNames t4
      clear_value t4
      extract_lets +onlyGivenNames t5
      refine Turned.cut (a := t5) ?_ fun _ => ?_
      · unfold t5; clear t5
        refine Turned.ite ?_ ?_
        · assumption
        · apply turned_setDomain
          assumption
      clear_value t5
      apply turned_setDomain
      assumption
    · extract_lets +onlyGivenNames t6
      refine Turned.cut (a := t6) ?_ fun _ => ?_
      · unfold t6; clear t6
        apply turned_domainLost
        assumption
      clear_value t6
      apply turned_setDomain
      assumption
  · extract_lets +onlyGivenNames t7
    refine Turned.cut (a := t7) ?_ fun _ => ?_
    · unfold t7; clear t7
      apply turned_domainLost
      assumption
    clear_value t7
    apply turned_setDomain
    assumption

theorem turned_announceEntry {s₀ : State} (s : State) (d : ℕ) (st : ℕ) (port : ℕ) (a : Option Dataset) (h0 : Turned s₀ s) :
    Turned s₀ (State.announceEntry s d st port a) := by
  unfold State.announceEntry
  apply turned_choose
  refine Turned.of_eq rfl rfl rfl rfl rfl rfl ?_
  assumption

theorem turned_sendAnnounce {s₀ : State} (s : State) (d : ℕ) (port : ℕ) (h0 : Turned s₀ s) :
    Turned s₀ (State.sendAnnounce s d port) := by
  unfold State.sendAnnounce
  extract_lets +onlyGivenNames t1
  clear_value t1
  extract_lets +onlyGivenNames t2
  clear_value t2
  apply turned_broadcast
  assumption

theorem turned_takeReport {s₀ : State} (s : State) (d : ℕ) (dstate : ℕ) (offset : ℤ) (rate : ℤ) (gm : ℕ) (cls : ℕ) (steps : ℕ) (h0 : Turned s₀ s) :
    Turned s₀ (State.takeReport s d dstate offset rate gm cls steps) := by
  unfold State.takeReport
  extract_lets +onlyGivenNames t1
  clear_value t1
  extract_lets +onlyGivenNames t2
  refine Turned.cut (a := t2) ?_ fun _ => ?_
  · unfold t2; clear t2
    apply turned_noteOffset
    apply turned_setDomain
    assumption
  clear_value t2
  extract_lets +onlyGivenNames t3
  refine Turned.ite ?_ ?_
  · refine Turned.ite ?_ ?_
    · assumption
    · apply turned_fire
      refine Turned.of_eq rfl rfl rfl rfl rfl rfl ?_
      assumption
  · refine Turned.ite ?_ ?_
    · refine Turned.of_eq rfl rfl rfl rfl rfl rfl ?_
      assumption
    · assumption

theorem turned_domainTurn {s₀ : State} (s : State) (d : ℕ) (h0 : Turned s₀ s) :
    Turned s₀ (State.domainTurn s d) := by
  unfold State.domainTurn
  refine Turned.ite ?_ ?_
  · extract_lets +onlyGivenNames t1
    clear_value t1
    apply turned_choose
    refine Turned.over ?_ ?_
    · intro a2 a3 a4
      apply turned_sendAnnounce
      apply turned_announceEntry
      assumption
    · assumption
  · apply turned_setDomain
    refine Turned.of_eq rfl rfl rfl rfl rfl rfl ?_
    assumption

theorem turned_switchDomain {s₀ : State} (s : State) (d : ℕ) (h0 : Turned s₀ s) :
    Turned s₀ (State.switchDomain s d) := by
  unfold State.switchDomain
  apply turned_fire
  apply turned_bump
  refine Turned.of_eq rfl rfl rfl rfl rfl rfl ?_
  assumption

theorem turned_followTurn {s₀ : State} (s : State) (h0 : Turned s₀ s) :
    Turned s₀ (State.followTurn s) := by
  unfold State.followTurn
  refine Turned.ite h0 ?_
  extract_lets +onlyGivenNames pref x s1
  have h1 : Turned s₀ s1 := by
    unfold s1
    split
    · refine Turned.ite (turned_switchDomain _ _ h0) ?_
      refine Turned.of_eq rfl rfl rfl rfl rfl rfl h0
    · exact h0
  extract_lets +onlyGivenNames y s2
  have h2 : Turned s₀ s2 := by
    unfold s2
    refine Turned.ite (Turned.ite ?_ (Turned.ite ?_ h1)) (Turned.ite h1 (Turned.ite (turned_switchDomain _ _ h1) ?_))
    all_goals refine Turned.of_eq rfl rfl rfl rfl rfl rfl h1
  exact turned_masterTime _ h2

theorem turned_reportTurn {s₀ : State} (s : State) (h0 : Turned s₀ s) :
    Turned s₀ (State.reportTurn s) := by
  unfold State.reportTurn
  refine Turned.over ?_ ?_
  · intro a1 a2 a3
    refine Turned.ite ?_ ?_
    · extract_lets +onlyGivenNames t4
      clear_value t4
      refine Turned.ite ?_ ?_
      · apply turned_takeReport
        assumption
      · apply turned_byShepherd
        · assumption
        · intro a5 a6
          split
          · apply turned_unicastBoth
            assumption
          · assumption
    · assumption
  · assumption

theorem turned_steerTurn {s₀ : State} (s : State) (h0 : Turned s₀ s) :
    Turned s₀ (State.steerTurn s) := by
  unfold State.steerTurn
  refine Turned.ite ?_ ?_
  · assumption
  · refine Turned.ite ?_ ?_
    · refine Turned.ite ?_ ?_
      · assumption
      · extract_lets +onlyGivenNames t1
        clear_value t1
        extract_lets +onlyGivenNames t2
        clear_value t2
        extract_lets +onlyGivenNames t3
        refine Turned.have_ (P := ∀ b0 b1, Turned s₀ b0 → Turned s₀ (t3 b0 b1)) ?_ fun hg4 => ?_
        · unfold t3; clear t3
          intro a5 a6 a7
          apply turned_setDomain
          assumption
        clear_value t3
        extract_lets +onlyGivenNames t8
        refine Turned.cut (a := t8) ?_ fun _ => ?_
        · unfold t8; clear t8
          apply hg4
          apply hg4
          assumption
        clear_value t8
        refine Turned.of_eq rfl rfl rfl rfl rfl rfl ?_
        assumption
    · refine Turned.ite ?_ ?_
      · assumption
      · extract_lets +onlyGivenNames t9
        clear_value t9
        refine Turned.of_eq rfl rfl rfl rfl rfl rfl ?_
        assumption

theorem turned_timeTurn {s₀ : State} (s : State) (h0 : Turned s₀ s) :
    Turned s₀ (State.timeTurn s) := by
  unfold State.timeTurn
  extract_lets +onlyGivenNames t1
  refine Turned.cut (a := t1) ?_ fun _ => ?_
  · unfold t1; clear t1
    refine Turned.ite ?_ ?_
    · assumption
    · refine Turned.ite ?_ ?_
      · assumption
      · apply turned_bump
        assumption
  clear_value t1
  extract_lets +onlyGivenNames t2
  extract_lets +onlyGivenNames t3
  refine Turned.cut (a := t3) ?_ fun _ => ?_
  · unfold t3; clear t3
    apply turned_byShepherd
    · refine Turned.of_eq rfl rfl rfl rfl rfl rfl ?_
      assumption
    · intro a4 a5
      apply turned_domainTurn
      apply turned_domainTurn
      assumption
  clear_value t3
  extract_lets +onlyGivenNames t6
  refine Turned.cut (a := t6) ?_ fun _ => ?_
  · unfold t6; clear t6
    apply turned_reportTurn
    apply turned_followTurn
    apply turned_steerTurn
    assumption
  clear_value t6
  refine Turned.ite ?_ ?_
  · apply turned_sendSync
    assumption
  · assumption

theorem turned_toMuster {s₀ : State} (s : State) (m : MState) (h0 : Turned s₀ s) :
    Turned s₀ (State.toMuster s m) := by
  unfold State.toMuster
  refine Turned.of_eq rfl rfl rfl rfl rfl rfl ?_
  assumption

theorem turned_memberClock {s₀ : State} (s : State) (h0 : Turned s₀ s) :
    Turned s₀ (State.memberClock s) := by
  unfold State.memberClock
  apply turned_syntonise
  refine Turned.ite ?_ ?_
  · assumption
  · apply turned_toTime
    assumption

theorem turned_phaseLink {s₀ : State} (s : State) (l : ℕ) (h0 : Turned s₀ s) :
    Turned s₀ (State.phaseLink s l) := by
  unfold State.phaseLink
  extract_lets +onlyGivenNames t1
  clear_value t1
  split
  · apply turned_setLink
    assumption
  · refine Turned.ite ?_ ?_
    · assumption
    · apply turned_fire
      apply turned_setLink
      assumption

theorem turned_answer {s₀ : State} (s : State) (h0 : Turned s₀ s) :
    Turned s₀ (State.answer s) := by
  unfold State.answer
  split
  · refine Turned.ite ?_ ?_
    · apply turned_unicastBoth
      refine Turned.of_eq rfl rfl rfl rfl rfl rfl ?_
      assumption
    · apply turned_unicastBoth
      refine Turned.of_eq rfl rfl rfl rfl rfl rfl ?_
      assumption
  · assumption

theorem turned_linkRise {s₀ : State} (s : State) (l : ℕ) (h0 : Turned s₀ s) :
    Turned s₀ (State.linkRise s l) := by
  unfold State.linkRise
  extract_lets +onlyGivenNames t1
  clear_value t1
  refine Turned.ite ?_ ?_
  · extract_lets +onlyGivenNames t2
    clear_value t2
    extract_lets +onlyGivenNames t3
    refine Turned.cut (a := t3) ?_ fun _ => ?_
    · unfold t3; clear t3
      apply turned_setLink
      assumption
    clear_value t3
    refine Turned.ite ?_ ?_
    · apply turned_reportLink
      assumption
    · extract_lets +onlyGivenNames t4
      refine Turned.cut (a := t4) ?_ fun _ => ?_
      · unfold t4; clear t4
        apply turned_byShepherd
        · assumption
        · intro a5 a6
          refine Turned.ite ?_ ?_
          · assumption
          · split
            apply turned_ownOut
            refine Turned.ofEq (by assumption) ?_
            apply turned_nextSeq
            assumption
      clear_value t4
      extract_lets +onlyGivenNames t7
      refine Turned.cut (a := t7) ?_ fun _ => ?_
      · unfold t7; clear t7
        apply turned_reportLink
        assumption
      clear_value t7
      refine Turned.ite ?_ ?_
      · apply turned_toMuster
        assumption
      · assumption
  · assumption

theorem turned_joinTurn {s₀ : State} (s : State) (h0 : Turned s₀ s) :
    Turned s₀ (State.joinTurn s) := by
  unfold State.joinTurn
  refine Turned.ite ?_ ?_
  · extract_lets +onlyGivenNames t1
    extract_lets +onlyGivenNames t2
    refine Turned.cut (a := t2) ?_ fun _ => ?_
    · unfold t2; clear t2
      refine Turned.of_eq rfl rfl rfl rfl rfl rfl ?_
      assumption
    refine Turned.ite ?_ ?_
    · apply turned_answer
      assumption
    · assumption
  · assumption

theorem turned_tideCell {s₀ : State} (s : State) (h0 : Turned s₀ s) :
    Turned s₀ (State.tideCell s) := by
  unfold State.tideCell
  refine Turned.ite ?_ ?_
  · apply turned_memberClock
    refine Turned.of_eq rfl rfl rfl rfl rfl rfl ?_
    assumption
  · refine Turned.ite ?_ ?_
    · apply turned_broadcast
      assumption
    · assumption

theorem turned_linksTurn {s₀ : State} (s : State) (h0 : Turned s₀ s) :
    Turned s₀ (State.linksTurn s) := by
  unfold State.linksTurn
  extract_lets +onlyGivenNames t1
  refine Turned.cut (a := t1) ?_ fun _ => ?_
  · unfold t1; clear t1
    refine Turned.over ?_ ?_
    · intro a1 a2 a3
      apply turned_linkRise
      assumption
    · assumption
  clear_value t1
  refine Turned.over ?_ ?_
  · intro a4 a5 a6
    apply turned_phaseLink
    assumption
  · assumption

theorem turned_pairCount {s₀ : State} (s : State) (k : ℕ) (h0 : Turned s₀ s) :
    Turned s₀ (State.pairCount s k) := by
  unfold State.pairCount
  apply turned_bump
  assumption

theorem turned_toPair {s₀ : State} (s : State) (p : PairState) (h0 : Turned s₀ s) :
    Turned s₀ (State.toPair s p) := by
  unfold State.toPair
  refine Turned.of_eq rfl rfl rfl rfl rfl rfl ?_
  assumption

theorem turned_goActive {s₀ : State} (s : State) (claim : ℕ) (h0 : Turned s₀ s) :
    Turned s₀ (State.goActive s claim) := by
  unfold State.goActive
  apply turned_fire
  apply turned_pairCount
  extract_lets +onlyGivenNames t1
  refine Turned.cut (a := t1) ?_ fun _ => ?_
  · unfold t1; clear t1
    apply turned_setClaim
    assumption
  clear_value t1
  refine Turned.of_eq rfl rfl rfl rfl rfl rfl ?_
  assumption

theorem turned_planTurn {s₀ : State} (s : State) (h0 : Turned s₀ s) :
    Turned s₀ (State.planTurn s) := by
  unfold State.planTurn
  split
  · assumption
  · refine Turned.ite ?_ ?_
    · assumption
    · split
      · refine Turned.ite ?_ ?_
        · apply turned_goActive
          assumption
        · refine Turned.of_eq rfl rfl rfl rfl rfl rfl ?_
          assumption
      · refine Turned.ite ?_ ?_
        · extract_lets +onlyGivenNames t1
          refine Turned.cut (a := t1) ?_ fun _ => ?_
          · unfold t1; clear t1
            apply turned_setClaim
            assumption
          clear_value t1
          refine Turned.of_eq rfl rfl rfl rfl rfl rfl ?_
          assumption
        · refine Turned.of_eq rfl rfl rfl rfl rfl rfl ?_
          assumption
      · refine Turned.ite ?_ ?_
        · extract_lets +onlyGivenNames t2
          refine Turned.cut (a := t2) ?_ fun _ => ?_
          · unfold t2; clear t2
            apply turned_setClaim
            assumption
          clear_value t2
          refine Turned.of_eq rfl rfl rfl rfl rfl rfl ?_
          assumption
        · apply turned_setRecord
          refine Turned.of_eq rfl rfl rfl rfl rfl rfl ?_
          assumption
      · refine Turned.ite ?_ ?_
        · apply turned_goActive
          assumption
        · refine Turned.of_eq rfl rfl rfl rfl rfl rfl ?_
          assumption

theorem turned_rebaseTurn {s₀ : State} (s : State) (h0 : Turned s₀ s) :
    Turned s₀ (State.rebaseTurn s) := by
  unfold State.rebaseTurn
  refine Turned.ite ?_ ?_
  · refine Turned.of_eq rfl rfl rfl rfl rfl rfl ?_
    assumption
  · assumption

theorem turned_claimTurn {s₀ : State} (s : State) (h0 : Turned s₀ s) :
    Turned s₀ (State.claimTurn s) := by
  unfold State.claimTurn
  extract_lets +onlyGivenNames t1
  refine Turned.cut (a := t1) ?_ fun _ => ?_
  · unfold t1; clear t1
    split
    · refine Turned.ite ?_ ?_
      · assumption
      · extract_lets +onlyGivenNames t2
        refine Turned.cut (a := t2) ?_ fun _ => ?_
        · unfold t2; clear t2
          apply turned_setRecord
          assumption
        clear_value t2
        refine Turned.of_eq rfl rfl rfl rfl rfl rfl ?_
        assumption
    · assumption
  clear_value t1
  apply turned_rebaseTurn
  apply turned_planTurn
  assumption

theorem turned_pairEnable {s₀ : State} (s : State) (h0 : Turned s₀ s) :
    Turned s₀ (State.pairEnable s) := by
  unfold State.pairEnable
  refine Turned.ite ?_ ?_
  · refine Turned.ite ?_ ?_
    · apply turned_toPair
      assumption
    · assumption
  · refine Turned.of_eq rfl rfl rfl rfl rfl rfl ?_
    assumption

theorem turned_pairCell {s₀ : State} (s : State) (pay : List ℕ) (h0 : Turned s₀ s) :
    Turned s₀ (State.pairCell s pay) := by
  unfold State.pairCell
  refine Turned.ite ?_ ?_
  · split
    apply turned_ownOut
    refine Turned.ofEq (by assumption) ?_
    apply turned_nextSeq
    assumption
  · assumption

theorem turned_sendHello {s₀ : State} (s : State) (h0 : Turned s₀ s) :
    Turned s₀ (State.sendHello s) := by
  unfold State.sendHello
  apply turned_pairCell
  assumption

theorem turned_readItem {s₀ : State} (s : State) (up : Bool) (L : ℕ) (h0 : Turned s₀ s) :
    Turned s₀ (State.readItem s up L).1 := by
  unfold State.readItem
  split
  · dsimp only
    refine Turned.ofEq (by assumption) ?_
    apply turned_unschedRead
    apply turned_clientEnter
    assumption
  · dsimp only
    apply turned_skipLine
    refine Turned.ofEq (by assumption) ?_
    apply turned_unschedRead
    apply turned_clientEnter
    assumption

theorem turned_readItems {s₀ : State} (s : State) (x1 : List (Bool × ℕ)) (h0 : Turned s₀ s) :
    Turned s₀ (State.readItems s x1).1 := by
  induction x1 generalizing s with
  | nil =>
    unfold State.readItems
    dsimp only
    assumption
  | cons a l ih =>
    unfold State.readItems
    split
    split
    dsimp only
    refine Turned.ofEq (by assumption) ?_
    apply ih
    refine Turned.ofEq (by assumption) ?_
    apply turned_readItem
    assumption

theorem turned_resyncItems {s₀ : State} (s : State) (h0 : Turned s₀ s) :
    Turned s₀ (State.resyncItems s).1 := by
  unfold State.resyncItems
  extract_lets +onlyGivenNames t1
  clear_value t1
  split
  dsimp only
  refine Turned.ofEq (by assumption) ?_
  apply turned_readItems
  assumption

theorem turned_sendEpoch {s₀ : State} (s : State) (e : Epoch) (h0 : Turned s₀ s) :
    Turned s₀ (State.sendEpoch s e) := by
  unfold State.sendEpoch
  extract_lets +onlyGivenNames t1
  clear_value t1
  extract_lets +onlyGivenNames t2
  refine Turned.cut (a := t2) ?_ fun _ => ?_
  · unfold t2; clear t2
    refine Turned.over ?_ ?_
    · intro a1 a2 a3
      apply turned_pairCell
      assumption
    · assumption
  clear_value t2
  extract_lets +onlyGivenNames t3
  clear_value t3
  apply turned_pairCell
  assumption

theorem turned_closeEpoch {s₀ : State} (s : State) (h0 : Turned s₀ s) :
    Turned s₀ (State.closeEpoch s) := by
  unfold State.closeEpoch
  refine Turned.ite ?_ ?_
  · assumption
  · dsimp only
    apply turned_sendEpoch
    refine Turned.of_eq rfl rfl rfl rfl rfl rfl ?_
    assumption

theorem turned_startResync {s₀ : State} (s : State) (seq : ℕ) (h0 : Turned s₀ s) :
    Turned s₀ (State.startResync s seq) := by
  unfold State.startResync
  split
  apply turned_closeEpoch
  refine Turned.of_eq rfl rfl rfl rfl rfl rfl ?_
  refine Turned.ofEq (by assumption) ?_
  apply turned_resyncItems
  assumption

theorem turned_mirrorTurn {s₀ : State} (s : State) (h0 : Turned s₀ s) :
    Turned s₀ (State.mirrorTurn s) := by
  unfold State.mirrorTurn
  refine Turned.ite ?_ ?_
  · assumption
  · refine Turned.ite ?_ ?_
    · apply turned_startResync
      assumption
    · extract_lets +onlyGivenNames t1
      refine Turned.cut (a := t1) ?_ fun _ => ?_
      · unfold t1; clear t1
        apply turned_closeEpoch
        apply turned_closeEpoch
        assumption
      clear_value t1
      refine Turned.ite ?_ ?_
      · refine Turned.of_eq rfl rfl rfl rfl rfl rfl ?_
        assumption
      · assumption

theorem turned_askResync {s₀ : State} (s : State) (h0 : Turned s₀ s) :
    Turned s₀ (State.askResync s) := by
  unfold State.askResync
  apply turned_pairCell
  refine Turned.of_eq rfl rfl rfl rfl rfl rfl ?_
  assumption

theorem turned_latchTurn {s₀ : State} (s : State) (h0 : Turned s₀ s) :
    Turned s₀ (State.latchTurn s) := by
  unfold State.latchTurn
  split
  · extract_lets +onlyGivenNames t1
    clear_value t1
    refine Turned.of_eq rfl rfl rfl rfl rfl rfl ?_
    assumption
  · extract_lets +onlyGivenNames t2
    clear_value t2
    refine Turned.of_eq rfl rfl rfl rfl rfl rfl ?_
    assumption
  · assumption

theorem turned_applyDrover {s₀ : State} (s : State) (k : ℕ) (fk : ℕ) (xa : ℕ) (ya : ℕ) (ca : ℕ) (h0 : Turned s₀ s) :
    Turned s₀ (State.applyDrover s k fk xa ya ca) := by
  unfold State.applyDrover
  split
  · apply turned_askResync
    assumption
  · split
    · assumption
    · extract_lets +onlyGivenNames t1
      clear_value t1
      extract_lets +onlyGivenNames t2
      clear_value t2
      apply turned_setDrover
      assumption

theorem turned_mirrorWrite {s₀ : State} (s : State) (up : Bool) (L : ℕ) (w : List Word) (h0 : Turned s₀ s) :
    Turned s₀ (State.mirrorWrite s up L w) := by
  unfold State.mirrorWrite
  split
  · refine Turned.of_eq rfl rfl rfl rfl rfl rfl ?_
    refine Turned.ofEq (by assumption) ?_
    apply turned_unschedWrite
    apply turned_clientEnter
    assumption
  · apply turned_skipLine
    refine Turned.ofEq (by assumption) ?_
    apply turned_unschedWrite
    apply turned_clientEnter
    assumption
  · refine Turned.ofEq (by assumption) ?_
    apply turned_unschedWrite
    apply turned_clientEnter
    assumption

theorem turned_applyItem {s₀ : State} (s : State) (it : List ℕ) (h0 : Turned s₀ s) :
    Turned s₀ (State.applyItem s it) := by
  unfold State.applyItem
  extract_lets +onlyGivenNames t1
  clear_value t1
  split
  · extract_lets +onlyGivenNames t2
    clear_value t2
    extract_lets +onlyGivenNames t3
    clear_value t3
    extract_lets +onlyGivenNames t4
    refine Turned.cut (a := t4) ?_ fun _ => ?_
    · unfold t4; clear t4
      refine Turned.ite ?_ ?_
      · apply turned_pairCount
        assumption
      · assumption
    clear_value t4
    extract_lets +onlyGivenNames t5
    clear_value t5
    split
    refine Turned.ite ?_ ?_
    · refine Turned.of_eq rfl rfl rfl rfl rfl rfl ?_
      refine Turned.ofEq (by assumption) ?_
      split
      · dsimp only
        assumption
      · apply turned_draw
        assumption
    · extract_lets +onlyGivenNames t6
      refine Turned.cut (a := t6) ?_ fun _ => ?_
      · unfold t6; clear t6
        apply turned_pairCount
        refine Turned.ofEq (by assumption) ?_
        split
        · dsimp only
          assumption
        · apply turned_draw
          assumption
      clear_value t6
      refine Turned.of_eq rfl rfl rfl rfl rfl rfl ?_
      assumption
  · apply turned_mirrorWrite
    assumption
  · apply turned_applyDrover
    assumption
  · extract_lets +onlyGivenNames t7
    clear_value t7
    extract_lets +onlyGivenNames t8
    clear_value t8
    extract_lets +onlyGivenNames t9
    clear_value t9
    refine Turned.of_eq rfl rfl rfl rfl rfl rfl ?_
    assumption
  · apply turned_fire
    apply turned_pairCount
    assumption

theorem turned_applyTurn {s₀ : State} (s : State) (h0 : Turned s₀ s) :
    Turned s₀ (State.applyTurn s) := by
  unfold State.applyTurn
  extract_lets +onlyGivenNames t1
  clear_value t1
  refine Turned.over ?_ ?_
  · intro a1 a2 a3
    refine Turned.over ?_ ?_
    · intro a4 a5 a6
      apply turned_applyItem
      assumption
    · assumption
  · refine Turned.of_eq rfl rfl rfl rfl rfl rfl ?_
    assumption

theorem turned_checkTurn {s₀ : State} (s : State) (h0 : Turned s₀ s) :
    Turned s₀ (State.checkTurn s) := by
  unfold State.checkTurn
  refine Turned.ite ?_ ?_
  · refine Turned.of_eq rfl rfl rfl rfl rfl rfl ?_
    assumption
  · assumption

theorem turned_pairTurn {s₀ : State} (s : State) (h0 : Turned s₀ s) :
    Turned s₀ (State.pairTurn s) := by
  unfold State.pairTurn
  refine Turned.ite ?_ ?_
  · assumption
  · apply turned_sendHello
    apply turned_mirrorTurn
    apply turned_latchTurn
    apply turned_applyTurn
    apply turned_checkTurn
    apply turned_claimTurn
    assumption

theorem turned_quayEnable {s₀ : State} (s : State) (v : ℕ) (h0 : Turned s₀ s) :
    Turned s₀ (State.quayEnable s v) := by
  unfold State.quayEnable
  split
  · refine Turned.of_eq rfl rfl rfl rfl rfl rfl ?_
    assumption
  · refine Turned.of_eq rfl rfl rfl rfl rfl rfl ?_
    assumption
  · refine Turned.of_eq rfl rfl rfl rfl rfl rfl ?_
    assumption
  · assumption

theorem turned_gateEnable {s₀ : State} (s : State) (g : ℕ) (v : ℕ) (h0 : Turned s₀ s) :
    Turned s₀ (State.gateEnable s g v) := by
  unfold State.gateEnable
  extract_lets +onlyGivenNames t1
  clear_value t1
  split
  · apply turned_setGate
    assumption
  · assumption
  · assumption
  · assumption
  · apply turned_setGate
    assumption

theorem turned_gateTurn {s₀ : State} (s : State) (h0 : Turned s₀ s) :
    Turned s₀ (State.gateTurn s) := by
  unfold State.gateTurn
  refine Turned.of_eq rfl rfl rfl rfl rfl rfl ?_
  assumption

theorem turned_storeKept {s₀ : State} (s : State) (r : Row) (e : ℕ) (sub : ℕ) (v : ℕ) (h0 : Turned s₀ s) :
    Turned s₀ (State.storeKept s r e sub v) := by
  unfold State.storeKept
  split
  · assumption
  · refine Turned.of_eq rfl rfl rfl rfl rfl rfl ?_
    assumption

theorem turned_storeBlob {s₀ : State} (s : State) (r : Row) (e : ℕ) (sub : ℕ) (l : List Word) (h0 : Turned s₀ s) :
    Turned s₀ (State.storeBlob s r e sub l) := by
  unfold State.storeBlob
  split
  · assumption
  · refine Turned.of_eq rfl rfl rfl rfl rfl rfl ?_
    assumption

theorem turned_takeForce {s₀ : State} (s : State) (e : ℕ) (sub : ℕ) (v : ℕ) (h0 : Turned s₀ s) :
    Turned s₀ (State.takeForce s e sub v) := by
  unfold State.takeForce
  extract_lets +onlyGivenNames t1
  clear_value t1
  extract_lets +onlyGivenNames t2
  refine Turned.cut (a := t2) ?_ fun _ => ?_
  · unfold t2; clear t2
    apply turned_setCfg
    assumption
  clear_value t2
  refine Turned.ite ?_ ?_
  · refine Turned.ite ?_ ?_
    · apply turned_busEnable
      assumption
    · assumption
  · split
    · refine Turned.ite ?_ ?_
      · apply turned_endSessions
        assumption
      · assumption
    · apply turned_penEnable
      assumption
    · refine Turned.ite ?_ ?_
      · assumption
      · apply turned_fire
        assumption
    · refine Turned.of_eq rfl rfl rfl rfl rfl rfl ?_
      assumption
    · refine Turned.of_eq rfl rfl rfl rfl rfl rfl ?_
      assumption
    · refine Turned.of_eq rfl rfl rfl rfl rfl rfl ?_
      assumption
    · apply turned_linkEnable
      assumption
    · apply turned_pairEnable
      assumption
    · apply turned_quayEnable
      assumption
    · apply turned_gateEnable
      assumption
    · assumption

theorem turned_forcesChanged {s₀ : State} (s : State) (a : List (ℕ × ℕ)) (b : List (ℕ × ℕ)) (h0 : Turned s₀ s) :
    Turned s₀ (State.forcesChanged s a b) := by
  unfold State.forcesChanged
  extract_lets +onlyGivenNames t1
  clear_value t1
  refine Turned.over ?_ ?_
  · intro a1 a2 a3
    apply turned_fire
    assumption
  · assumption

theorem turned_clearForces {s₀ : State} (s : State) (h0 : Turned s₀ s) :
    Turned s₀ (State.clearForces s) := by
  unfold State.clearForces
  extract_lets +onlyGivenNames t1
  clear_value t1
  refine Turned.over ?_ ?_
  · intro a2 a3 a4
    apply turned_setCfg
    assumption
  · assumption

theorem turned_mapForce {s₀ : State} (s : State) (l : List Word) (h0 : Turned s₀ s) :
    Turned s₀ (State.mapForce s l) := by
  unfold State.mapForce
  apply turned_clearForces
  refine Turned.of_eq rfl rfl rfl rfl rfl rfl ?_
  assumption

theorem turned_takeBlob {s₀ : State} (s : State) (e : ℕ) (sub : ℕ) (l : List Word) (h0 : Turned s₀ s) :
    Turned s₀ (State.takeBlob s e sub l) := by
  unfold State.takeBlob
  extract_lets +onlyGivenNames t1
  extract_lets +onlyGivenNames t2
  refine Turned.cut (a := t2) ?_ fun _ => ?_
  · unfold t2; clear t2
    refine Turned.of_eq rfl rfl rfl rfl rfl rfl ?_
    assumption
  clear_value t2
  refine Turned.ite ?_ ?_
  · apply turned_mapForce
    assumption
  · refine Turned.ite ?_ ?_
    · apply turned_fdbTrim
      assumption
    · assumption

theorem turned_applyWords {s₀ : State} (s : State) (n : ℕ) (l : List ℕ) (h0 : Turned s₀ s) :
    Turned s₀ (State.applyWords s n l) := by
  unfold State.applyWords
  extract_lets +onlyGivenNames t1
  clear_value t1
  extract_lets +onlyGivenNames t2
  clear_value t2
  split
  · assumption
  · refine Turned.ite ?_ ?_
    · apply turned_takeBlob
      apply turned_storeBlob
      assumption
    · extract_lets +onlyGivenNames t3
      clear_value t3
      apply turned_takeForce
      apply turned_storeKept
      assumption

theorem turned_pairWritesTurn {s₀ : State} (s : State) (h0 : Turned s₀ s) :
    Turned s₀ (State.pairWritesTurn s) := by
  unfold State.pairWritesTurn
  extract_lets +onlyGivenNames t1
  clear_value t1
  refine Turned.over ?_ ?_
  · intro a1 a2 a3
    apply turned_applyWords
    assumption
  · refine Turned.of_eq rfl rfl rfl rfl rfl rfl ?_
    assumption

theorem turned_pendingTurn {s₀ : State} (s : State) (h0 : Turned s₀ s) :
    Turned s₀ (State.pendingTurn s) := by
  unfold State.pendingTurn
  extract_lets +onlyGivenNames t1
  clear_value t1
  extract_lets +onlyGivenNames t2
  clear_value t2
  extract_lets +onlyGivenNames t3
  extract_lets +onlyGivenNames t4
  refine Turned.cut (a := t4) ?_ fun _ => ?_
  · unfold t4; clear t4
    refine Turned.of_eq rfl rfl rfl rfl rfl rfl ?_
    assumption
  clear_value t4
  extract_lets +onlyGivenNames t5
  refine Turned.cut (a := t5) ?_ fun _ => ?_
  · unfold t5; clear t5
    refine Turned.over ?_ ?_
    · intro a1 a2 a3
      apply turned_takeBlob
      assumption
    · assumption
  clear_value t5
  refine Turned.over ?_ ?_
  · intro a4 a5 a6
    apply turned_takeForce
    assumption
  · assumption

theorem turned_resetGroup {s₀ : State} (s : State) (g : ℕ) (h0 : Turned s₀ s) :
    Turned s₀ (State.resetGroup s g) := by
  unfold State.resetGroup
  extract_lets +onlyGivenNames t1
  clear_value t1
  extract_lets +onlyGivenNames t2
  clear_value t2
  extract_lets +onlyGivenNames t3
  clear_value t3
  extract_lets +onlyGivenNames t4
  clear_value t4
  extract_lets +onlyGivenNames t5
  clear_value t5
  extract_lets +onlyGivenNames t6
  clear_value t6
  extract_lets +onlyGivenNames t7
  extract_lets +onlyGivenNames t8
  refine Turned.cut (a := t8) ?_ fun _ => ?_
  · unfold t8; clear t8
    refine Turned.of_eq rfl rfl rfl rfl rfl rfl ?_
    assumption
  clear_value t8
  extract_lets +onlyGivenNames t9
  refine Turned.cut (a := t9) ?_ fun _ => ?_
  · unfold t9; clear t9
    refine Turned.over ?_ ?_
    · intro a1 a2 a3
      apply turned_takeBlob
      assumption
    · assumption
  clear_value t9
  refine Turned.over ?_ ?_
  · intro a4 a5 a6
    apply turned_takeForce
    assumption
  · assumption

theorem turned_resetTurn {s₀ : State} (s : State) (h0 : Turned s₀ s) :
    Turned s₀ (State.resetTurn s) := by
  unfold State.resetTurn
  refine Turned.over ?_ ?_
  · intro a1 a2 a3
    apply turned_resetGroup
    assumption
  · refine Turned.of_eq rfl rfl rfl rfl rfl rfl ?_
    assumption

theorem turned_profileForce {s₀ : State} (s : State) (c : ℕ) (h0 : Turned s₀ s) :
    Turned s₀ (State.profileForce s c) := by
  unfold State.profileForce
  extract_lets +onlyGivenNames t1
  clear_value t1
  extract_lets +onlyGivenNames t2
  clear_value t2
  extract_lets +onlyGivenNames t3
  clear_value t3
  extract_lets +onlyGivenNames t4
  refine Turned.cut (a := t4) ?_ fun _ => ?_
  · unfold t4; clear t4
    refine Turned.over ?_ ?_
    · intro a1 a2 a3
      apply turned_takeBlob
      assumption
    · assumption
  clear_value t4
  refine Turned.over ?_ ?_
  · intro a4 a5 a6
    extract_lets +onlyGivenNames t5
    clear_value t5
    refine Turned.ite ?_ ?_
    · assumption
    · apply turned_takeForce
      assumption
  · assumption

theorem turned_emptyStaging {s₀ : State} (s : State) (h0 : Turned s₀ s) :
    Turned s₀ (State.emptyStaging s) := by
  unfold State.emptyStaging
  extract_lets +onlyGivenNames t1
  refine Turned.cut (a := t1) ?_ fun _ => ?_
  · unfold t1; clear t1
    apply turned_setStaging
    assumption
  clear_value t1
  apply turned_droveUnstage
  refine Turned.of_eq rfl rfl rfl rfl rfl rfl ?_
  assumption

theorem turned_applySettings {s₀ : State} (s : State) (x1 : Half) (acc : Acc) (h0 : Turned s₀ s) :
    Turned s₀ (State.applySettings s x1 acc) := by
  unfold State.applySettings
  refine Turned.over ?_ ?_
  · intro a1 a2 a3
    split
    · refine Turned.ite ?_ ?_
      · apply turned_applyWords
        assumption
      · assumption
    · assumption
  · assumption

theorem turned_confirmJoin {s₀ : State} (s : State) (h0 : Turned s₀ s) :
    Turned s₀ (State.confirmJoin s) := by
  unfold State.confirmJoin
  refine Turned.ite ?_ ?_
  · extract_lets +onlyGivenNames t1
    refine Turned.cut (a := t1) ?_ fun _ => ?_
    · unfold t1; clear t1
      apply turned_setClaim
      assumption
    clear_value t1
    refine Turned.of_eq rfl rfl rfl rfl rfl rfl ?_
    assumption
  · assumption

theorem turned_answerReq {s₀ : State} (s : State) (m : Msg) (op : ℕ) (x3 : Reply) (h0 : Turned s₀ s) :
    Turned s₀ (State.answerReq s m op x3) := by
  unfold State.answerReq
  split
  · apply turned_respond
    assumption
  · apply turned_respond
    assumption
  · assumption

theorem turned_retireTurn {s₀ : State} (s : State) (h0 : Turned s₀ s) :
    Turned s₀ (State.retireTurn s) := by
  unfold State.retireTurn
  refine Turned.ite ?_ ?_
  · apply turned_emptyStaging
    assumption
  · assumption

theorem turned_swapHalves {s₀ : State} (s : State) (start : ℕ) (h0 : Turned s₀ s) :
    Turned s₀ (State.swapHalves s start) := by
  unfold State.swapHalves
  extract_lets +onlyGivenNames t1
  clear_value t1
  extract_lets +onlyGivenNames t2
  clear_value t2
  extract_lets +onlyGivenNames t3
  clear_value t3
  refine Turned.of_eq rfl rfl rfl rfl rfl rfl ?_
  assumption

theorem turned_selectTurn {s₀ : State} (s : State) (h0 : Turned s₀ s) :
    Turned s₀ (State.selectTurn s) := by
  unfold State.selectTurn
  split
  · apply turned_confirmJoin
    apply turned_profileForce
    refine Turned.of_eq rfl rfl rfl rfl rfl rfl ?_
    assumption
  · assumption

theorem turned_swapTable {s₀ : State} (s : State) (h0 : Turned s₀ s) :
    Turned s₀ (State.swapTable s) := by
  unfold State.swapTable
  extract_lets +onlyGivenNames t1
  refine Turned.cut (a := t1) ?_ fun _ => ?_
  · unfold t1; clear t1
    assumption
  clear_value t1
  extract_lets +onlyGivenNames t2
  clear_value t2
  extract_lets +onlyGivenNames t3
  clear_value t3
  extract_lets +onlyGivenNames t4
  clear_value t4
  extract_lets +onlyGivenNames t5
  refine Turned.cut (a := t5) ?_ fun _ => ?_
  · unfold t5; clear t5
    apply turned_bumpFld
    apply turned_swapHalves
    assumption
  clear_value t5
  apply turned_keepSafe
  apply turned_applySettings
  apply turned_selectTurn
  apply turned_droveSwap
  apply turned_rxSwap
  assumption

theorem turned_restartDrovers {s₀ : State} (s : State) (h0 : Turned s₀ s) :
    Turned s₀ (State.restartDrovers s) := by
  unfold State.restartDrovers
  refine Turned.over ?_ ?_
  · intro a1 a2 a3
    refine Turned.ite ?_ ?_
    · apply turned_setDrover
      apply turned_keepAwake
      assumption
    · assumption
  · assumption

theorem turned_staleTurn {s₀ : State} (s : State) (h0 : Turned s₀ s) :
    Turned s₀ (State.staleTurn s) := by
  unfold State.staleTurn
  refine Turned.of_eq rfl rfl rfl rfl rfl rfl ?_
  assumption

theorem turned_commitTurn {s₀ : State} (s : State) (h0 : Turned s₀ s) :
    Turned s₀ (State.commitTurn s) := by
  unfold State.commitTurn
  refine Turned.ite ?_ ?_
  · refine Turned.of_eq rfl rfl rfl rfl rfl rfl ?_
    assumption
  · assumption

theorem turned_verifyTurn {s₀ : State} (s : State) (h0 : Turned s₀ s) :
    Turned s₀ (State.verifyTurn s) := by
  unfold State.verifyTurn
  extract_lets +onlyGivenNames t1
  clear_value t1
  extract_lets +onlyGivenNames t2
  clear_value t2
  extract_lets +onlyGivenNames t3
  extract_lets +onlyGivenNames t4
  refine Turned.cut (a := t4) ?_ fun _ => ?_
  · unfold t4; clear t4
    refine Turned.of_eq rfl rfl rfl rfl rfl rfl ?_
    assumption
  clear_value t4
  refine Turned.over ?_ ?_
  · intro a1 a2 a3
    split
    · apply turned_answerReq
      assumption
    · assumption
  · assumption

theorem turned_subsTurn {s₀ : State} (s : State) (h0 : Turned s₀ s) :
    Turned s₀ (State.subsTurn s) := by
  unfold State.subsTurn
  refine Turned.of_eq rfl rfl rfl rfl rfl rfl ?_
  assumption

theorem turned_onceTurn {s₀ : State} (s : State) (h0 : Turned s₀ s) :
    Turned s₀ (State.onceTurn s) := by
  unfold State.onceTurn
  refine Turned.of_eq rfl rfl rfl rfl rfl rfl ?_
  assumption

theorem turned_settingsTurn {s₀ : State} (s : State) (forces : List (ℕ × ℕ)) (h0 : Turned s₀ s) :
    Turned s₀ (State.settingsTurn s forces) := by
  unfold State.settingsTurn
  extract_lets +onlyGivenNames t1
  refine Turned.cut (a := t1) ?_ fun _ => ?_
  · unfold t1; clear t1
    apply turned_clearForces
    apply turned_pendingTurn
    apply turned_pairWritesTurn
    apply turned_resetTurn
    assumption
  clear_value t1
  apply turned_forcesChanged
  assumption

theorem turned_turnRules {s₀ : State} (s : State) (forces : List (ℕ × ℕ)) (h0 : Turned s₀ s) :
    Turned s₀ (State.turnRules s forces) := by
  unfold State.turnRules
  extract_lets +onlyGivenNames t1
  refine Turned.cut (a := t1) ?_ fun _ => ?_
  · unfold t1; clear t1
    apply turned_linksTurn
    assumption
  clear_value t1
  extract_lets +onlyGivenNames t2
  refine Turned.cut (a := t2) ?_ fun _ => ?_
  · unfold t2; clear t2
    refine Turned.over ?_ ?_
    · intro a3 a4 a5
      apply turned_phaseTurn
      assumption
    · assumption
  clear_value t2
  extract_lets +onlyGivenNames t6
  refine Turned.cut (a := t6) ?_ fun _ => ?_
  · unfold t6; clear t6
    apply turned_onceTurn
    apply turned_degradeTurn
    assumption
  clear_value t6
  extract_lets +onlyGivenNames t7
  refine Turned.cut (a := t7) ?_ fun _ => ?_
  · unfold t7; clear t7
    apply turned_portTurn
    apply turned_settingsTurn
    assumption
  clear_value t7
  extract_lets +onlyGivenNames t8
  refine Turned.cut (a := t8) ?_ fun _ => ?_
  · unfold t8; clear t8
    refine Turned.over ?_ ?_
    · intro a9 a10 a11
      apply turned_exchangeTurn
      assumption
    · assumption
  clear_value t8
  apply turned_verifyTurn
  apply turned_subsTurn
  apply turned_reportTurns
  apply turned_pairTurn
  apply turned_gateTurn
  apply turned_busTurn
  assumption

theorem turned_gridRules {s₀ : State} (s : State) (h0 : Turned s₀ s) :
    Turned s₀ (State.gridRules s) := by
  unfold State.gridRules
  apply turned_timeTurn
  apply turned_tideCell
  apply turned_joinTurn
  assumption

theorem turned_deferTurn {s₀ : State} (s : State) (due : Bool) (h0 : Turned s₀ s) :
    Turned s₀ (State.deferTurn s due) := by
  unfold State.deferTurn
  refine Turned.ite ?_ ?_
  · refine Turned.of_eq rfl rfl rfl rfl rfl rfl ?_
    assumption
  · assumption

end Sys2Proof.Laws
end

