-- ==== Sys2Proof/Tests/Slice0.lean ====
section
/-! SUPPORT. Tests of the model and, for every obligation with hypotheses, a witness that meets them. The expected values are
the spec's or follow from it by hand. -/

-- One test at a time: tests elaborated side by side would each hold a thread and its stack until the end of the compile.
set_option Elab.async false

open Sys2Proof Sys2Proof.Machine

namespace Sys2Proof.Tests

/-! ### A state with one stroke -/

/-- The 72 bits of a stroke that runs in every tide at offset 100, in one line, with descriptor 0. -/
def strokeBits (op : Nat) : Nat := op * 2 ^ 67 + 1 * 2 ^ 47 + 100 * 2 ^ 16

/-- The 72 bits of a descriptor with full masks: bank 0, line 0 and the B side b. -/
def descBits (b : Nat) : Nat := 15 * 2 ^ 50 + 15 * 2 ^ 46 + b

/-- A value of 72 bits as four words, word 0 lowest. -/
def four (v : Nat) : List Word := (List.range 4).map fun k => BitVec.ofNat 18 (v / 2 ^ (18 * k))

/-- A tide runs under a table whose sluice 0 holds one stroke; line 0 of bank 0 holds good zeros. -/
def strokeState (op b : Nat) : State :=
  { State.reset with
    table.valid := true
    table.half0 := { Half.blank with strokes := Tab.setList 0 [] 0 (four (strokeBits op)),
                                     opnds := Tab.setList 0 [] 0 (four (descBits b)), segs := [(3, 1)] }
    tide.runs := true, tide.period := 8000, ring.links := []
    image.pasture := [(0, { Line.fresh with w0 := 0, w1 := 0, w2 := 0, w3 := 0 })] }

def stroke0 (op : Nat) : Stroke := Stroke.of (strokeBits op)
def desc0 (b : Nat) : Desc := Desc.of (descBits b)

theorem mayRun_of {op b : Nat} {l : List Ecc}
    (h : (strokeState op b).selects 0 0 (· == op) = some (stroke0 op, desc0 b, l) ∧ l.all (· == .good) = true
      ∧ ((strokeState op b).advance (stroke0 op).start).startCause 0 (stroke0 op) (desc0 b) l = 0) :
    (strokeState op b).mayRun 0 0 op (stroke0 op) (desc0 b) := ⟨l, h⟩

/-- The stroke of strokeState in flight, and one act of it as the next. -/
def flight0 (op b : Nat) : Flight := (strokeState op b).flightOf 0 0 (stroke0 op) (desc0 b)
def aloft (op b : Nat) : State := (strokeState op b).joined (flight0 op b)

/-! ### Witnesses -/

/-- Obligation StepRunsFrontCommand, its second and third clause. -/
theorem witness_StepRunsFrontCommand :
    State.reset.pending = [] ∧ State.reset.tide.flights = [] ∧ State.reset.ring.toReport = [] := by decide

/-- Obligation StoresStayCanonical. -/
theorem witness_StoresStayCanonical : State.reset.storesWf ∧ step State.reset = .next State.reset := by
  refine ⟨?_, rfl⟩; decide

/-- Obligation LifecycleChanges: a change burns, and the burn's end is the command in front. -/
theorem witness_LifecycleChanges :
    ({ State.reset with fold.burning := some 1, pending := [.lifecycleBurnDone 0 0] } : State).burnOk ∧
    ∃ t, step { State.reset with fold.burning := some 1, pending := [.lifecycleBurnDone 0 0] } = .next t := by
  refine ⟨?_, _, rfl⟩
  intro v h; cases h; rfl

/-- Obligations LifecycleOnlyByBurn, OwnerHashesPersist and NumbersNeverFall. -/
theorem witness_NumbersNeverFall :
    (∃ t, exec .ophoursStore { State.reset with fold.otp := [(1, ⟨some 5, true, []⟩)], fold.burning := some 1 } = .next t)
    ∧ (({ State.reset with fold.otp := [(1, ⟨some 5, true, []⟩)] } : State).otp 1).hash ≠ none
    ∧ (({ State.reset with fold.otp := [(1, ⟨some 5, true, []⟩)] } : State).otp 1).revoked = true
    ∧ State.reset.fold.burning = none ∧ ∀ straps bad, (.ophoursStore : Instr) ≠ .lifecycleBurnDone straps bad := by
  refine ⟨⟨_, rfl⟩, by decide, by decide, rfl, fun _ _ h => by cases h⟩

/-- Obligation LineStrokesRun, clause by clause: strokes that take off; an act that is due and none; lines whose tile is awake
or dark; a read of a tag that differs; a MOVE with a partial mask over two bursts' range; CARRY in and after its tide. -/
theorem witness_LineStrokesRun :
    (strokeState 0 0).mayRun 0 0 0 (stroke0 0) (desc0 0) ∧ (strokeState 1 0).mayRun 0 0 1 (stroke0 1) (desc0 0)
    ∧ (strokeState 2 0).mayRun 0 0 2 (stroke0 2) (desc0 0) ∧ (strokeState 3 0).mayRun 0 0 3 (stroke0 3) (desc0 0)
    ∧ (strokeState 4 0).mayRun 0 0 4 (stroke0 4) (desc0 0) ∧ (strokeState 5 0).mayRun 0 0 5 (stroke0 5) (desc0 0)
    ∧ ((aloft 1 5).nextFlight 102 = some 0 ∧ (aloft 1 5).nextFlight 101 = none)
    ∧ ((aloft 1 5).flies (flight0 1 5) ∧ (aloft 1 5).reaches ((flight0 1 5).src.getD 0 Place.none) = true
      ∧ ((aloft 1 5).schedRead ((flight0 1 5).src.getD 0 Place.none) (flight0 1 5).free ((flight0 1 5).mask 0)).2 = some [0, 0, 0, 0]
      ∧ (flight0 1 5).dst[0]? = some ⟨false, 5, 5, none⟩ ∧ (aloft 1 5).reaches ⟨false, 5, 5, none⟩ = true)
    ∧ (let s : State := { aloft 1 5 with tide.darkAt := [(0, 1)] }
       s.flies (flight0 1 5) ∧ s.reaches ((flight0 1 5).src.getD 0 Place.none) = false ∧ s.reaches ⟨false, 5, 5, none⟩ = false)
    ∧ (let f : Flight := { flight0 1 5 with src := [⟨false, 0, 0, some (0, 3)⟩] }
       (aloft 1 5).flies f ∧ (aloft 1 5).reaches (f.src.getD 0 Place.none) = true
       ∧ ((aloft 1 5).schedRead (f.src.getD 0 Place.none) f.free (f.mask 0)).2 = none)
    ∧ ((strokeState 3 0).flies (flight0 3 0) ∧ (strokeState 3 0).tileAwake (fld (flight0 3 0).d.b 21 18) = true
      ∧ ({ strokeState 3 0 with tide.darkAt := [(0, 1)] } : State).tileAwake (fld (flight0 3 0).d.b 21 18) = false)
    ∧ ((strokeState 2 0).flies (flight0 2 0) ∧ (flight0 2 0).tideF = (strokeState 2 0).time.F ∧ (flight0 1 5).st.op ≠ 2) := by
  refine ⟨mayRun_of (l := [.good]) (by decide), mayRun_of (l := [.good, .good]) (by decide), mayRun_of (l := [.good, .good]) (by decide),
    mayRun_of (l := [.good, .good]) (by decide), mayRun_of (l := [.good, .good]) (by decide), mayRun_of (l := [.good, .good]) (by decide),
    by decide, by unfold State.flies; decide, by unfold State.flies; decide, by unfold State.flies; decide, by unfold State.flies; decide,
    by unfold State.flies; decide⟩

/-- R51, R52: MOVE reads line i at s + 1 + i, writes it at s + 5 + i and ends at s + n + 5; FETCH reads its burst at s + 5 and
writes its first line 53 cycles later. -/
theorem test_footprint_move : (flight0 1 5).acts = [(101, .read 0), (105, .write 0), (106, .done)] := by decide
theorem test_footprint_fetch : (flight0 4 0).acts = [(105, .read 0), (158, .write 0), (159, .done)] := by decide

/-- R52, R53: a MOVE that takes off writes its line only at s + 5: before that cycle line 5 stands as it was. -/
theorem test_move_lands :
    (((aloft 1 5).advance 105).line false 5).words = (Line.fresh).words
    ∧ (((aloft 1 5).advance 106).line false 5).words = [0, 0, 0, 0] := by decide

/-- Obligation PenPinDroveStrokesRun, clause by clause. -/
theorem witness_PenPinDroveStrokesRun :
    (strokeState 0x0E 0).mayRun 0 0 0x0E (stroke0 0x0E) (desc0 0) ∧ (strokeState 0x0F 0).mayRun 0 0 0x0F (stroke0 0x0F) (desc0 0)
    ∧ (strokeState 0x08 0).mayRun 0 0 0x08 (stroke0 0x08) (desc0 0) ∧ (strokeState 0x09 0).mayRun 0 0 0x09 (stroke0 0x09) (desc0 0)
    ∧ (strokeState 0x06 0).mayRun 0 0 0x06 (stroke0 0x06) (desc0 0) ∧ (strokeState 0x07 0).mayRun 0 0 0x07 (stroke0 0x07) (desc0 0)
    ∧ (([0x06, 0x07, 0x08, 0x09, 0x0E, 0x0F].map fun op => ((flight0 op 0).st.op, (flight0 op 0).cause,
        (strokeState op 0).strokeLost (flight0 op 0).st (flight0 op 0).d))
        = [(0x06, 0, false), (0x07, 0, false), (0x08, 0, false), (0x09, 0, false), (0x0E, 0, false), (0x0F, 0, false)])
    ∧ (1 : Nat) / 2 < (flight0 0x07 0).st.n := by
  refine ⟨mayRun_of (l := [.good, .good]) (by decide), mayRun_of (l := [.good, .good]) (by decide),
    mayRun_of (l := [.good, .good]) (by decide), mayRun_of (l := [.good, .good]) (by decide),
    mayRun_of (l := [.good, .good]) (by decide), mayRun_of (l := [.good, .good]) (by decide), by decide, by decide⟩

/-- Obligation LinkBusStrokesRun, clause by clause: strokes that take off, a transmit buffer that takes words, a frame whose
words are good or BAD, and a port that settles. -/
theorem witness_LinkBusStrokesRun :
    (strokeState 0x0A 0xF000).mayRun 0 0 0x0A (stroke0 0x0A) (desc0 0xF000) ∧ (strokeState 0x0B 0).mayRun 0 0 0x0B (stroke0 0x0B) (desc0 0)
    ∧ (strokeState 0x0C 0).mayRun 0 0 0x0C (stroke0 0x0C) (desc0 0) ∧ (strokeState 0x0D 0).mayRun 0 0 0x0D (stroke0 0x0D) (desc0 0)
    ∧ (strokeState 0x10 0).mayRun 0 0 0x10 (stroke0 0x10) (desc0 0) ∧ (strokeState 0x11 0).mayRun 0 0 0x11 (stroke0 0x11) (desc0 0)
    ∧ (strokeState 0x12 0).mayRun 0 0 0x12 (stroke0 0x12) (desc0 0)
    ∧ (([0x0A, 0x0B, 0x0C, 0x0D, 0x10, 0x11, 0x12].map fun op => ((flight0 op 0).st.op, (flight0 op 0).cause,
        (strokeState op 0).strokeLost (flight0 op 0).st (flight0 op 0).d)) = [(0x0A, 0, false), (0x0B, 0, false), (0x0C, 0, false),
        (0x0D, 0, false), (0x10, 0, false), (0x11, 0, false), (0x12, 0, false)])
    ∧ ((strokeState 0x0A 0xF000).link 0).state ≠ .settling
    ∧ ((flight0 0x10 0).flag = false ∧ (((strokeState 0x10 0).chan 0).tb 0).state ≠ .active ∧ bit (flight0 0x10 0).d.b 9 = false
      ∧ bit (flight0 0x10 512).d.b 9 = true ∧ (flight0 0x10 512).cause = 0)
    ∧ ((strokeState 0x11 0).port 0).state ≠ .settling
    ∧ (((strokeState 0x11 0).setPort 0 { (strokeState 0x11 0).port 0 with state := .settling }).port 0).state = .settling
    ∧ (let s := (strokeState 0x11 0).schedEnter 0 100 200
       let f : Flight := { flight0 0x11 0 with got := [[0, 0, 0, 0]] }
       let g : Flight := { flight0 0x11 0 with got := [[mkW qBad 0, 0, 0, 0]] }
       (flight0 0x11 0).at_ + fld (flight0 0x11 0).d.b 32 6 = 100 ∧ (s.schedAt 0 100).isSome = true
       ∧ ((pickOut f.lines).any fun w => wq w == qBad) = false ∧ ((pickOut g.lines).any fun w => wq w == qBad) = true) := by
  refine ⟨mayRun_of (l := [.good, .good]) (by decide), mayRun_of (l := [.good, .good]) (by decide), mayRun_of (l := [.good, .good]) (by decide),
    mayRun_of (l := [.good, .good]) (by decide), mayRun_of (l := [.good, .good]) (by decide), mayRun_of (l := [.good, .good]) (by decide),
    mayRun_of (l := [.good, .good]) (by decide), by decide, by decide, by decide, by decide, by decide, by decide⟩

/-- Obligation NullStrokes: nothing selected, a stroke of a lost upland channel, one of a port that settles, a reserved
opcode, a cause that comes in flight, and a null stroke's done cycle. -/
theorem witness_NullStrokes :
    strokeCmd 0x04 0 0 = some (.fetch 0 0) ∧ State.reset.selects 0 0 (· == 0x04) = none
    ∧ (let s : State := { strokeState 0x04 0 with image.lost := [(0, 1)] }
       s.selects 0 0 (· == 0x04) = some (stroke0 4, desc0 0, [.good, .good])
       ∧ ((s.advance 100).tableEcc 0 [.good, .good]).startCause 0 (stroke0 4) (desc0 0) [.good, .good] = cUpland
       ∧ (flight0 4 0).cause = 0 ∧ s.strokeLost (flight0 4 0).st (flight0 4 0).d = true)
    ∧ State.reset.selects 0 0 (· == 0x10) = none ∧ State.reset.selects 0 0 (· == 0x12) = none
    ∧ (let s : State := { strokeState 0x10 0 with table.half0.strokeEcc := [(0, .multi)] }
       s.selects 0 0 (· == 0x10) = some (stroke0 0x10, desc0 0, [.multi, .good])
       ∧ ((s.advance 100).tableEcc 0 [.multi, .good]).startCause 0 (stroke0 0x10) (desc0 0) [.multi, .good] = cStorage)
    ∧ (let s := (strokeState 0x11 0).setPort 0 { (strokeState 0x11 0).port 0 with state := .settling }
       s.selects 0 0 (· == 0x11) = some (stroke0 0x11, desc0 0, [.good, .good])
       ∧ ((s.advance 100).tableEcc 0 [.good, .good]).startCause 0 (stroke0 0x11) (desc0 0) [.good, .good] = cSettle)
    ∧ State.reset.selects 0 0 (fun op => decide (0x13 ≤ op)) = none
    ∧ (strokeState 0x13 0).selects 0 0 (fun op => decide (0x13 ≤ op)) = some (stroke0 0x13, desc0 0, [.multi])
    ∧ ((flight0 0x02 0).st.op, (flight0 0x0F 0).st.op, (flight0 0x10 0).st.op, (flight0 0x11 0).st.op, (flight0 0x12 0).st.op)
        = (0x02, 0x0F, 0x10, 0x11, 0x12)
    ∧ ({ flight0 1 5 with cause := cUpland } : Flight).cause ≠ 0 := by
  refine ⟨by decide, by decide, ⟨by decide, by decide, by decide, by decide⟩, by decide, by decide, ⟨by decide, by decide⟩,
    ⟨by decide, by decide⟩, by decide, by decide, by decide, by decide⟩

/-- Obligation StrokeStoresFrame: a MOVE from line 0 to line 5 of bank 0 does not store to line 9, in flight or as it takes
off. -/
theorem witness_StrokeStoresFrame :
    (aloft 1 5).storesWf ∧ strokeCmd 1 0 0 = some (.move 0 0) ∧ ¬ (flight0 1 5).storesTo false 9 ∧ (flight0 1 5).storesTo false 5
    ∧ (∀ f ∈ (aloft 1 5).tide.flights, f.st.op ≠ 0x02 ∧ ¬ f.storesTo false 9) ∧ (stroke0 1).op < 0x13
    ∧ (∃ t, exec (.move 0 0) (aloft 1 5) = .next t) ∧ ∃ t, exec (.reservedOpcodeStroke 0 0) (aloft 1 5) = .next t := by
  unfold Flight.storesTo
  refine ⟨by decide, rfl, by decide, by decide, by decide, by decide, ⟨_, rfl⟩, ⟨_, rfl⟩⟩

/-- Obligation TurnBeginsTide: right after reset the field side is clocked, nothing waits and nothing is due. -/
theorem witness_TurnBeginsTide :
    State.reset.clocked = true ∧ ({ State.reset.tideEnds with upd.actWait := State.reset.upd.actWait - 1 } : State).power.request = 0
    ∧ ({ State.reset.tideEnds with upd.actWait := State.reset.upd.actWait - 1 } : State).table.valid = false
    ∧ ({ State.reset with power.state := .light } : State).clocked = false := by decide

/-- A tide under the one-stroke table whose spring cycle is one tide. -/
def tideState : State := { strokeState 1 5 with tide.spring := 1, table.half0.period := 8000, table.half0.spring := 1 }

/-- Obligation TidePaceCommands, clause by clause: tile 0 is used at offset 100, tile 5 never. -/
theorem witness_TidePaceCommands :
    (let s : State := { State.reset with power.request := 1 }
     s.workRuns = true ∧ s.tideRuns = false ∧ s.power.state = .full ∧ s.ebbDue = false)
    ∧ (let s : State := { State.reset with power.state := .light }
     s.workRuns = true ∧ s.tideRuns = false ∧ s.power.state ≠ .full)
    ∧ (let s : State := { State.reset with tide.runs := true, upd.state := .scheduled, upd.actNow := true, upd.actWait := 0 }
     let a : State := { s with pair.state := .active, pair.record := 0x8001 }
     s.workRuns = true ∧ s.tideRuns = true ∧ s.table.valid = false ∧ s.activationDue s.now = true ∧ s.defers = false
     ∧ a.activationDue a.now = true ∧ a.defers = true)
    ∧ ({ State.reset with tide.runs := true } : State).activationDue 0 = false
    ∧ ({ State.reset with power.state := .keep } : State).workRuns = false
    ∧ (strokeState 1 5).tideRuns = true ∧ (strokeState 1 5).table.valid = true
    ∧ bit (((strokeState 1 5).setCfg 0x0B002 0 (2 ^ 35)).cfg 0x0B002) 35 = true
    ∧ bit (State.reset.cfg 0x0B002) 35 = false
    ∧ tideState.wakeDue 0 36 = true ∧ tideState.wakeDue 0 39 = false
    ∧ (0 : Fin 16).val ∈ ({ tideState with tide.slackAwake := [0] } : State).tide.slackAwake
    ∧ (0 : Fin 16).val ∉ tideState.tide.slackAwake
    ∧ (let s : State := { tideState with tide.darkAt := [(0, 5)] }
       Tab.get 0 s.tide.darkAt 0 ≠ 0 ∧ s.wakeDue 0 36 = true ∧ (0 : Fin 16).val ∉ s.tide.slackAwake)
    ∧ tideState.darkBegins 5 0 = true ∧ tideState.tileRuns 5 = false ∧ Tab.get 0 tideState.tide.darkAt 5 = 0
    ∧ (5 : Fin 16).val ∉ tideState.tide.slackAwake
    ∧ ({ tideState with tide.darkAt := Tab.set 0 tideState.tide.darkAt 5 1 } : State).tileWanted 5 = false
    ∧ (let s := tideState.enter 2 [⟨2, 20, 2, 1, 0, 0⟩]
       ({ s with tide.darkAt := Tab.set 0 s.tide.darkAt 5 1 } : State).tileWanted 5 = true ∧ s.darkBegins 5 0 = true ∧ s.tileRuns 5 = false)
    ∧ tideState.darkBegins 0 0 = false ∧ tideState.plannedDark 5 9 = true ∧ tideState.tileWanted 5 = false
    ∧ Tab.get 0 tideState.ledger.lastUse 5 + 8 ≤ tideState.abs 9 ∧ tideState.abs 7 < Tab.get 0 tideState.ledger.lastUse 5 + 8
    ∧ tideState.plannedDark 0 9 = false := by decide

/-- A state in which class 2 waits for a cycle of bank 0. -/
def waitingState (overdue : Bool) : State :=
  { State.reset with ledger.queue :=
      [(2, [{ age := 255, entered := 0, ready := 0, started := true, first := 0, line := none, last := none,
              stages := [⟨2, 0, 2, 1, 0, 0⟩], carried := false, overdue := overdue, cell := none }])] }

/-- The same in a tide without a table, of P 8,000. -/
def waitingTide : State := { waitingState false with tide.runs := true, time.gridP := 8000 }

/-- Obligation LedgerCommands, clause by clause. -/
theorem witness_LedgerCommands :
    (let s := waitingState false
     s.slotAt 2 0 5 = .slack ∧ s.idleAt 2 0 5 = true ∧ (s.pickSlack (s.candsAt 2 0 5)).isSome = true)
    ∧ (waitingTide.slotAt 2 0 255 = .urgent ∧ waitingTide.idleAt 2 0 255 = true ∧ (waitingTide.pickUrgent (waitingTide.candsAt 2 0 255)).isSome = true)
    ∧ (let s := waitingTide.setCfg 0x02040 2 (3 * 2 ^ 21 + 255 * 2 ^ 13 + 256)
       let s := s.setQueue 2 ((s.queueOf 2).map fun a => { a with age := 0 })
       s.slotAt 2 0 255 = .urgent ∧ s.pickUrgent (s.candsAt 2 0 255) = none ∧ (s.pickSlack (s.candsAt 2 0 255)).isSome = true)
    ∧ (State.reset.pickUrgent (State.reset.candsAt 2 0 5) = none ∧ State.reset.pickSlack (State.reset.candsAt 2 0 5) = none)
    ∧ waitingTide.slotAt 2 0 8000 = .taken ∧ ({ waitingState false with ledger.busy := [(useKey 0 2 0, 9)] } : State).idleAt 2 0 5 = false
    ∧ (waitingState false).queueOf 2 ≠ [] ∧ ((waitingState true).queueOf 2).all Access.overdue = true
    ∧ State.reset.queueOf 2 = [] := by decide

/-- Obligation SlackPickIsBest: class 2's access is picked in either kind of cycle. -/
theorem witness_SlackPickIsBest :
    ((waitingState false).pickSlack ((waitingState false).cands 2 0 5)).isSome = true
    ∧ ((waitingState false).pickUrgent ((waitingState false).cands 2 0 5)).isSome = true := by decide

theorem scrub_no_tile {s : State} {st : LStage} (h : resTile st.cls st.inst = none) (t : Nat) :
    resTile st.cls st.inst = some t → Tab.get 0 s.tide.darkAt t = 0 := by rw [h]; intro h; cases h

theorem scrub_tile {s : State} {st : LStage} {t : Nat} (h : resTile st.cls st.inst = some t) (h0 : Tab.get 0 s.tide.darkAt t = 0) (u : Nat) :
    resTile st.cls st.inst = some u → Tab.get 0 s.tide.darkAt u = 0 := by rw [h]; intro h; cases h; exact h0

/-- Class SCRUB has used its quota of one cycle of every resource of the stage's class (R144, R150). -/
def quotaState (st : LStage) : State :=
  { State.reset.setCfg 0x02040 8 1 with tide.runs := true, time.gridP := 8000, ledger.use := [(useKey 8 st.cls st.inst, 9999)] }

/-- Obligation MemoryUpkeep, clause by clause: at the boundary of the tiers; a line queued alone; one written in the
meantime; a channel that is lost; and each way in which no cycle comes. -/
theorem witness_MemoryUpkeep :
    (State.reset.storesWf ∧ (8 : Nat) % 4 = 0 ∧ 8 / 4 < tierLines true ∧ State.reset.chanLost (lineChan (8 / 4)) = false
      ∧ State.reset.workRuns = true ∧ State.reset.classSafe 2 2 = false ∧ ({ State.reset with bell.fatal := true } : State).classSafe 2 2 = true
      ∧ ({ State.reset with power.inReset := true } : State).workRuns = false)
    ∧ ((7 : Nat) % 4 ≠ 0 ∧ tierLines false ≤ 16777216 / 4 ∧ ({ State.reset with image.lost := [(0, 1)] } : State).chanLost 0 = true)
    ∧ (let s : State := { State.reset with image.marking := [(true, 3)] }
       s.storesWf ∧ s.image.marking = [(true, 3)] ∧ s.chanLost (lineChan 3) = false ∧ (true, 3) ∈ (s.advance 5).image.marking)
    ∧ ({ State.reset with image.marking := [(true, 3)] } : State).scrubRuns (scrubOf true 3) (some (true, 3)) 5
    ∧ State.reset.image.marking = []
    ∧ (let s : State := { State.reset with image.writeBack := [(false, 3)], image.pasture := [(3, { Line.fresh with code := .single })] }
       s.storesWf ∧ s.image.writeBack = [(false, 3)] ∧ (false, 3) ∈ (s.advance 5).image.writeBack ∧ ((s.advance 5).line false 3).code = .single)
    ∧ ({ State.reset with image.writeBack := [(false, 3)], image.pasture := [(3, { Line.fresh with code := .single })] } : State).scrubRuns
        (scrubOf false 3) (some (false, 3)) 5
    ∧ (let s : State := { State.reset with image.writeBack := [(false, 3)], tide.runs := true, time.gridP := 8000 }
       s.scrubMisses (scrubOf false 3) (some (false, 3)) 8000)
    ∧ (let s : State := { quotaState (scrubOf false 3) with image.writeBack := [(false, 3)] }
       s.scrubStopped (scrubOf false 3) (some (false, 3)) 5)
    ∧ (let s : State := { State.reset with image.writeBack := [(false, 3)], tide.darkAt := [(0, 1)] }
       s.scrubWakes (scrubOf false 3))
    ∧ (let s : State := { State.reset with image.marking := [(true, 3)], image.lost := [(0, 1)] }
       s.chanLost (lineChan 3) = true)
    ∧ State.reset.image.writeBack = [] := by
  refine ⟨by decide, by decide, by decide, ⟨⟨by decide, by decide, scrub_no_tile (by decide)⟩, by decide⟩, by decide, by decide,
    ⟨⟨by decide, by decide, scrub_tile (t := 0) (by decide) (by decide)⟩, by decide⟩,
    ⟨by decide, by decide, scrub_tile (t := 0) (by decide) (by decide)⟩,
    ⟨⟨by decide, by decide, scrub_tile (t := 0) (by decide) (by decide)⟩, by decide⟩, ⟨by decide, 0, by decide, by decide⟩, by decide, by decide⟩

/-- Obligation ScrubAndUplandCommands: the units at the edge of their ranges, a channel that stands and a lost one. -/
theorem witness_ScrubAndUplandCommands :
    ((63 : Fin 68).val < 64 ∧ State.reset.scrubRuns (scrubOf false (63 * 65536)) none 5)
    ∧ (64 ≤ (64 : Fin 68).val ∧ State.reset.chanLost 0 = false ∧ State.reset.scrubRuns (scrubOf true 0) (some (true, 0)) 5)
    ∧ State.reset.scrubRuns ⟨7, 0, 2, 7, 0, 0⟩ none 5
    ∧ (let s : State := { State.reset with tide.runs := true, time.gridP := 8000 }
       s.scrubMisses (scrubOf false 0) none 8000 ∧ s.scrubMisses (scrubOf true 0) (some (true, 0)) 3 ∧ s.scrubMisses ⟨7, 0, 2, 7, 0, 0⟩ none 3
       ∧ s.workRuns = true ∧ s.tideRuns = true ∧ refreshMeets s.tideP 1 1216 1 = true ∧ refreshMeets s.tideP 1 (1216 - 1) 1 = false
       ∧ refreshMeets s.tideP 1 1248 1 = false)
    ∧ ((quotaState (scrubOf false 0)).scrubStopped (scrubOf false 0) none 5
      ∧ (quotaState ⟨7, 0, 2, 7, 0, 0⟩).scrubStopped ⟨7, 0, 2, 7, 0, 0⟩ none 100)
    ∧ ({ State.reset with tide.darkAt := [(0, 1)] } : State).scrubWakes (scrubOf false 0)
    ∧ ({ State.reset with image.lost := [(0, 2)] } : State).chanLost 0 = true
    ∧ ({ State.reset with power.inReset := true } : State).workRuns = false
    ∧ State.reset.supplyUp 5 = true ∧ State.reset.supplyUp 6 = true := by
  refine ⟨⟨by decide, ⟨by decide, by decide, scrub_tile (t := 15) (by decide) (by decide)⟩, by decide⟩,
    ⟨by decide, by decide, ⟨by decide, by decide, scrub_no_tile (by decide)⟩, by decide⟩,
    ⟨⟨by decide, by decide, scrub_no_tile (by decide)⟩, by decide⟩,
    ⟨⟨by decide, by decide, scrub_tile (t := 0) (by decide) (by decide)⟩, ⟨by decide, by decide, scrub_no_tile (by decide)⟩,
      ⟨by decide, by decide, scrub_no_tile (by decide)⟩, by decide, by decide, by decide, by decide, by decide⟩,
    ⟨⟨⟨by decide, by decide, scrub_tile (t := 0) (by decide) (by decide)⟩, by decide⟩,
      ⟨⟨by decide, by decide, scrub_no_tile (by decide)⟩, by decide⟩⟩,
    ⟨by decide, 0, by decide, by decide⟩, by decide, by decide, by decide, by decide⟩

/-- Obligation TableStageMachine, clause by clause. -/
theorem witness_TableStageMachine :
    State.reset.table.stage = .empty ∧ ({ State.reset with table.stage := .armed } : State).table.stage = .armed
    ∧ ({ State.reset with table.stage := .loading } : State).table.stage = .loading
    ∧ (let s : State := { State.reset with table.stage := .refused, table.report := [cAborted * 2 ^ 27] }
       s.table.stage = .refused ∧ s.reportCode = cAborted)
    ∧ State.reset.reportCode ≠ cAborted ∧ State.reset.dict.shepherds = true
    ∧ ({ State.reset with dict.shepherds := false } : State).dict.shepherds = false
    ∧ (let s : State := { State.reset with table.stage := .admitted }
       s.table.stage = .admitted ∧ s.tideRuns = false) ∧ State.reset.table.valid = false ∧ tideState.table.valid = true := by decide

/-- A container with four sections, of which only the segment table holds words, all of them 0. -/
def emptyContainer : List Nat :=
  [0x271DE, 1, 0x400, 0x1100, 1, 0, 25000, 1, 0, 1, 4, 0, 0, 138, 0, 0,
   1, 1, 0, 40, 0, 96, 2, 1, 0, 136, 0, 0, 3, 1, 0, 136, 0, 0, 4, 1, 0, 136, 0, 0]

/-- The staging half with that container and its check words loaded. -/
def checkedState : State :=
  { State.reset with
    table.stage := .checking
    table.half0 := { Half.blank with load := Tab.setList 0 (Tab.setList 0 [] 0 (emptyContainer.map (BitVec.ofNat 18))) 136 [50862, 4772] } }

set_option maxRecDepth 100000 in
theorem checkedState_passes : checkedState.checkTable checkedState.stagingHalf = none := by decide +kernel

/-- Obligation TableChecksEnd, clause by clause: a container that passes, an empty half that has no MAGIC, and no check. -/
theorem witness_TableChecksEnd :
    (checkedState.table.stage = .checking ∧ checkedState.upd.selecting = none ∧ checkedState.dict.shepherds = true)
    ∧ (let s : State := { State.reset with table.stage := .checking }
     s.table.stage = .checking ∧ s.dict.shepherds = true ∧ (s.checkTable s.stagingHalf).isSome = true)
    ∧ State.reset.table.stage ≠ .checking ∧ ({ State.reset with dict.shepherds := false } : State).dict.shepherds = false
    ∧ ({ State.reset with upd.state := .checking } : State).upd.state = .checking := by decide

/-- Pen 5 in a state, with two committed words of three written. -/
def penState (st : RunState) (word : Word) : State :=
  { State.reset with
    pen.pens := [(5, { ((Pen.fresh.setCm 2).setWr 3) with state := st, words := 1 })]
    pen.pool := [(0, word), (1, 7)] }

/-- Obligation PenCommands, clause by clause. -/
theorem witness_PenCommands :
    (((penState .run 1).penAt 5).state ≠ .off ∧ ((penState .run 1).penAt 5).agrees = true
      ∧ ((penState .run 1).penAt 5).discard = false ∧ (penState .run 1).penPacket 5 = false
      ∧ ((penState .run 1).penAt 5).words ≠ 0)
    ∧ (State.reset.penAt 5).state = .off ∧ (State.reset.penAt 5).agrees = true
    ∧ (let s : State := { State.reset with pen.pens := [(5, { Pen.fresh with rd := 1 })] }
       (s.penAt 5).agrees = false)
    ∧ (let s : State := { State.reset with pen.pens := [(5, { Pen.fresh with state := .drain })] }
       (s.penAt 5).state = .drain ∧ (s.penAt 5).fill (s.penSize 5) = 0 ∧ (s.penAt 5).opened = false)
    ∧ (let s : State := { State.reset with pen.pens := [(5, { Pen.fresh with state := .drain, opened := true, discard := true })] }
       (s.penAt 5).opened = true ∧ (s.penAt 5).discard = true ∧ (s.penAt 5).fill (s.penSize 5) = 0 ∧ (s.penAt 5).agrees = true)
    ∧ (let s : State := { State.reset with pen.pens := [(5, { Pen.fresh with state := .run, opened := true })] }.setCfg 0x03100 5 (2 ^ 34)
       s.penPacket 5 = true ∧ (s.penAt 5).opened = true ∧ (s.penAt 5).agrees = true ∧ (s.penAt 5).state ≠ .off) := by decide

/-- Obligation PenAccess, clause by clause. -/
theorem witness_PenAccess :
    (((penState .run 1).penAt 5).state = .run ∧ ((penState .run 1).penAt 5).agrees = true
      ∧ (penState .run 1).classSafe 5 5 = false ∧ 2 ≤ ((penState .run 1).penAt 5).fill ((penState .run 1).penSize 5)
      ∧ (penState .run 1).penPacket 5 = false ∧ ((penState .run 1).penAt 5).discard = false
      ∧ 0 < ((penState .run 1).penAt 5).free ((penState .run 1).penSize 5)
      ∧ ((penState .run 1).penAt 5).words + 1 ≠ (penState .run 1).penItem 5)
    ∧ (let s : State := { penState .run 1 with pen.pens := [(5, { Pen.fresh with state := .run })] }
       (s.penAt 5).state = .run ∧ (s.penAt 5).agrees = true ∧ s.classSafe 5 5 = false ∧ s.penPacket 5 = false
       ∧ 0 < (s.penAt 5).free (s.penSize 5) ∧ (s.penAt 5).words + 1 = s.penItem 5)
    ∧ ({ penState .run 1 with bell.fatal := true } : State).classSafe 5 5 = true
    ∧ (let s : State := { State.reset with pen.pens := [(5, { Pen.fresh with state := .run, rd := 1 })] }
       (s.penAt 5).agrees = false ∧ (s.penAt 5).state ≠ .off)
    ∧ (let s : State := { State.reset with pen.pens := [(5, { (Pen.fresh.setWr 64).setCm 64 with state := .run })] }
       (s.penAt 5).state = .run ∧ (s.penAt 5).agrees = true ∧ s.classSafe 5 5 = false ∧ (s.penAt 5).free (s.penSize 5) = 0) := by decide

/-- Drover 0 runs in a clocked hub; its first word is w. -/
def droverState (w : Word) : State :=
  { State.reset with
    power.state := .full, power.inReset := false, power.breach := false, tide.runs := true, time.gridP := 8000
    drv.drovers := [(0, { Drover.blank with state := .run, prog := 2 ^ 35 })]
    drv.droves := [(0, { (State.reset.drove 0) with store := [(0, w)], n := 512 })] }

/-- Obligation DroverProgramFlow, clause by clause: each opcode, a HOLD that waits, and each way to complete. -/
theorem witness_DroverProgramFlow :
    (droverState 1).executes 0 0 0 0 ∧ (droverState 0x2C000).executes 0 0 0 11 ∧ (droverState 0x28000).executes 0 0 0 10
    ∧ (let s := droverState 0x4080
       s.executes 0 0 0 1 ∧ (s.fetched 0 0 0).holdState 0 0x4080 0 false ≠ bit 0x4080 7
       ∧ s.executes 0 0 1 1 ∧ (s.fetched 0 0 1).holdState 0 0x4080 1 false = bit 0x4080 7 ∧ fld 0x4080 10 8 ≠ 2 ∧ fld 0x4080 10 8 ≠ 4)
    ∧ (let s := droverState 0x4200
       s.executes 0 0 0 1 ∧ (s.fetched 0 0 0).holdState 0 0x4200 0 false = bit 0x4200 7 ∧ bit 0x4200 7 = false)
    ∧ (let s0 := droverState 0x4280
       let s := { s0 with drv.drovers := [(0, { (s0.drover 0) with eFlag := 1 })] }
       s.executes 0 0 0 1 ∧ (s.fetched 0 0 0).holdState 0 0x4280 0 false = bit 0x4280 7 ∧ bit 0x4280 7 = true ∧ fld 0x4280 10 8 = 2)
    ∧ (let s0 := droverState 0x4480
       let s := { s0 with drv.droves := [(0, { (s0.drove 0) with flags := 1 })] }
       s.executes 0 0 0 1 ∧ (s.fetched 0 0 0).holdState 0 0x4480 0 false = bit 0x4480 7 ∧ bit 0x4480 7 = true ∧ fld 0x4480 10 8 = 4) := by
  unfold State.executes
  decide

/-- Obligation DroverDataMoves: a word of each opcode and destination. -/
theorem witness_DroverDataMoves :
    (∀ c ∈ [0, 1, 2, 3, 4, 5, 6, 7], (droverState (BitVec.ofNat 18 (0xC000 + c * 256 + 1))).executes 0 0 0 3)
    ∧ (∀ c ∈ [0, 1, 2, 3, 4, 5, 6, 7], (droverState (BitVec.ofNat 18 (0x18000 + c * 256))).executes 0 0 0 6)
    ∧ (∀ c ∈ [0, 1, 2, 3, 4, 5], (droverState (BitVec.ofNat 18 (0x1C000 + c * 256))).executes 0 0 0 7)
    ∧ (∀ c ∈ [0, 1, 2, 3], (droverState (BitVec.ofNat 18 (0x20000 + c * 512))).executes 0 0 0 8)
    ∧ (droverState 0x8000).executes 0 0 0 2 ∧ (droverState 0x10000).executes 0 0 0 4 ∧ (droverState 0x14000).executes 0 0 0 5
    ∧ (droverState 0x24000).executes 0 0 0 9
    ∧ (let s0 := droverState 0xC601
       let s := { s0 with drv.drovers := [(0, { (s0.drover 0) with sout := 2 ^ 36 - 1 })] }
       s.executes 0 0 0 3 ∧ s.edgeHere 0 0 = true ∧ (s.edgeBegin 0 0 0 true).instrDue 0 = true ∧ (s.edgeBegin 0 0 0 true).shoutsPast 0 = true
       ∧ (s.faultEdge 0 0 0 fun u => u.shoutsPast 0).isSome = true)
    ∧ ((droverState 0xC001).faultEdge 0 0 0 fun u => u.shoutsPast 0) = none := by
  unfold State.executes
  decide

/-- Obligation DroverCompletion: with no shifter setting nothing is pushed or pulled; with each setting it is. -/
theorem witness_DroverCompletion :
    { (Drover.blank) with state := .run, pc := 1 } ≠ Drover.blank
    ∧ bit Drover.blank.shift 15 = false ∧ bit Drover.blank.shift 14 = false
    ∧ (let x := { Drover.blank with state := .run, shift := 3 * 2 ^ 14 + 2 ^ 8 + 2 ^ 2, sinFill := 1 }
       bit x.shift 15 = true ∧ x.inFrame ≤ x.sinFill ∧ bit x.shift 14 = true ∧ x.soutLeft = 0) := by decide

/-- Drover 0 of a clocked hub, changed. -/
def droverIn (w : Word) (f : Drover → Drover) : State :=
  { droverState w with drv.drovers := [(0, f ((droverState w).drover 0))] }

set_option maxRecDepth 100000 in
/-- Obligation DroverProgramFlow: a HALT whose own AUTOPUSH meets unread receive words, the FATAL latch set. -/
theorem witness_DroverProgramFlow_halt :
    (let s : State := { droverIn 0x2C000 (fun x => { x with shift := 2 ^ 15, rxUnread := true }) with bell.fatal := true }
     let e := s.fetched 0 0 0
     (s.edgeHere 0 0 = true ∧ (e.drover 0).state = .run)
     ∧ ((e.finish 0 0x2C000 (s.edgeT 0 0 0) false (e.drover 0).nextPc).drover 0).state ≠ .run) := by
  decide +kernel

/-- Obligation DroverFaultsAndControl, clause by clause. -/
theorem witness_DroverFaultsAndControl :
    ((droverState 0x30000).executes 0 0 0 12 ∧ (droverState 0x3C000).executes 0 0 0 15)
    ∧ (let b := (droverState 0x30000).edgeBegin 0 0 0 true
       (droverState 0x30000).edgeHere 0 0 = true ∧ b.instrDue 0 = true ∧ b.instrEcc 0 ≠ .multi ∧ 12 ≤ fld (b.instrAt 0) 17 14)
    ∧ (let s := droverIn 0x30000 fun x => { x with state := .stopped, waits := [⟨8, 1, 0, 1⟩] }
       let s : State := { s with tide.abs0 := 8 }
       s.edgeHere 0 0 = true ∧ (s.edgeBegin 0 0 0 true).instrDue 0 = false ∧ (s.edgeBegin 0 0 0).instrDue 0 = true)
    ∧ (droverState 0).edgeHere 0 1 = false
    ∧ (let s0 := droverState 0
       let s := { s0 with drv.droves := [(0, { (s0.drove 0) with ecc := [(0, .multi)] })] }
       s.clocked = true ∧ ((s.edgeBegin 0 0 0).drover 0).state = .run ∧ ((s.edgeBegin 0 0 0).drover 0).dwell = 0
       ∧ (s.edgeBegin 0 0 0).instrEcc 0 = .multi)
    ∧ ((droverIn 0 fun x => { x with dwell := 2 }).edgeBegin 0 0 0 |>.drover 0).dwell = 2
    ∧ ((droverIn 0 fun x => { x with state := .stopped }).drover 0).state = .stopped
    ∧ ((droverState 0).drover 0).state = .run ∧ (State.reset.drover 0).state = .off
    ∧ (let s := droverIn 0 fun x => { x with state := .fault, cause := 6 }
       (s.drover 0).state = .fault ∧ s.droverHeld 0 = false ∧ (s.drover 0).cause = 6)
    ∧ (let s0 := droverIn 0 fun x => { x with state := .fault, cause := 6 }
       let s := { s0 with bell.fatal := true }
       (s.drover 0).state = .fault ∧ s.droverHeld 0 = true) := by
  unfold State.executes
  decide

/-- Obligation DroveCommands, clause by clause. -/
theorem witness_DroveCommands :
    ((State.reset.drove 3).xstate = .idle ∧ State.reset.exchangeOk 3 0 = true ∧ State.reset.ledgerRoom 2 = true)
    ∧ (let s := State.reset.setDrove 3 { State.reset.drove 3 with xstate := .copying }
       (s.drove 3).xstate = .copying)
    ∧ (let s := State.reset.setDrove 3 { State.reset.drove 3 with xstate := .pending }
       (s.drove 3).xstate = .pending)
    ∧ (let s := State.reset.setDrover 24 { State.reset.drover 24 with prog := 2 ^ 35 }
       (s.drove 3).xstate = .idle ∧ (s.setCfg (0x04005 + 16 * 24) 0 (2 ^ 35)).exchangeOk 3 1 = false) := by decide

/-- A table binds pin 0 with both captures on. -/
def pinState (filt : Bool) : State :=
  { State.reset with
    table.valid := true, table.half0 := { Half.blank with sects := [(6, [0, 0, 0x180])] }
    pin.filt := if filt then [(0, true)] else [] }

/-- Obligation PinCommands, clause by clause. -/
theorem witness_PinCommands :
    (Tab.get 0 State.reset.pin.vio 3 = 0 ∨ Tab.get 0 State.reset.pin.vio 3 ≠ 0)
    ∧ (let s : State := { State.reset with pin.vio := [(3, 1)] }
       Tab.get 0 s.pin.vio 3 ≠ 0 ∧ Tab.get 0 s.pin.vio 2 = 0)
    ∧ (let s : State := { pinState true with pin.vio := [], pin.out := [] }
       s.bankOk 0 = true ∧ bit (s.pinCfg 0) 7 = true ∧ Tab.get false s.pin.filt 0 = true)
    ∧ (let s : State := { pinState false with pin.vio := [], pin.out := [] }
       s.bankOk 0 = true ∧ bit (s.pinCfg 0) 8 = true ∧ Tab.get false s.pin.filt 0 = false)
    ∧ bit (State.reset.pinCfg 0) (if true then 7 else 8) = false := by decide

/-- Beacon 0 with a START of 1 s and a width of 10 wc, and a period in nanoseconds. -/
def beaconState (period : Nat) (f : Beacon → Beacon) : State :=
  let s : State := { State.reset with time.state := .free, time.base := 0, tide.off := 0 }
  let s := ((s.setCfg 0x05010 0 (timeVal tickPerS)).setCfg 0x05011 0 (period * 16)).setCfg 0x05012 0 10
  s.setBeacon 0 (f (s.beacon 0))

/-- Obligation BeaconCommands, clause by clause. -/
theorem witness_BeaconCommands :
    (let s := beaconState 0 id
     (s.beacon 0).state = .idle ∧ s.time.state ≠ .unset ∧ beaconWidth (s.cfg 0x05012 0) ≠ 0 ∧ fld (s.cfg 0x05011 0) 33 4 = 0
     ∧ s.now + 1024 * tickPerWc ≤ timeUnits (s.cfg 0x05010 0))
    ∧ (let s : State := { beaconState 0 id with time.base := tickPerS }
       timeUnits (s.cfg 0x05010 0) < s.now + 1024 * tickPerWc)
    ∧ (let s := beaconState 1000 id
       fld (s.cfg 0x05011 0) 33 4 * tickPerNs ≠ 0 ∧ beaconWidth (s.cfg 0x05012 0) < fld (s.cfg 0x05011 0) 33 4 * tickPerNs)
    ∧ ((State.reset.beacon 0).state = .idle ∧ beaconWidth (State.reset.cfg 0x05012 0) = 0)
    ∧ ((beaconState 0 fun x => { x with state := .armed, due := 0 }).beacon 0).state = .armed
    ∧ (let s := beaconState 0 fun x => { x with state := .armed, due := 0 }
       5 * (s.beacon 0).due ≤ 5 * s.now + 2 * tickPerNs ∧ s.now ≤ (s.beacon 0).due + 2 * tickPerNs ∧ (s.beacon 0).active = false)
    ∧ ((beaconState 0 fun x => { x with state := .armed, due := 0, active := true }).beacon 0).active = true := by decide

/-- Channel 3 in a state, under a BUS_MODE. -/
def busState (mode : Nat) (f : BusChan → BusChan) : State :=
  (State.reset.setCfg (busEntry 3 0) 0 mode).setChan 3 (f (State.reset.chan 3))

/-- Obligation BusChannelStates, clause by clause. -/
theorem witness_BusChannelStates :
    ((busState 0 fun x => { x with state := .integrating }).chan 3).state = .integrating
    ∧ (State.reset.chan 3).state = .off
    ∧ (let s := busState 0 fun x => { x with state := .busOff }
       (s.chan 3).state = .busOff ∧ bit (s.busMode 3) 22 = false ∧ fld (s.busMode 3) 21 14 ≤ (s.chan 3).offTurns)
    ∧ (let s := busState (2 ^ 22) fun x => { x with state := .busOff }
       (s.chan 3).state = .busOff ∧ bit (s.busMode 3) 22 = true)
    ∧ ((busState 0 fun x => { x with state := .recovering }).chan 3).state = .recovering
    ∧ (let x := (busState 0 fun x => { x with state := .drain }).chan 3
       x.state = .drain ∧ x.held = none ∧ x.tb0.state = .empty ∧ x.tb1.state = .empty ∧ x.tb2.state = .empty)
    ∧ (((busState 0 fun x => { x with tb1 := { x.tb1 with state := .pending } }).chan 3).tb 1).state = .pending := by decide

/-- A frame of 11-bit identifier 5 with no payload. -/
def frame5 : List Word := [0, 0, 5, 0, 0, 0, 0, 0]

/-- The same in the FD format. -/
def frameFd : List Word := [0x4000, 0, 5, 0, 0, 0, 0, 0]

set_option maxRecDepth 100000 in
/-- Obligation BusFrames, clause by clause. -/
theorem witness_BusFrames :
    (let s := busState 0 fun x => { x with state := .active, tb1 := { x.tb1 with state := .pending } }
     s.maySend 3 = true ∧ s.busChoose 3 = some 1)
    ∧ ((busState 0 fun x => { x with tb1 := { x.tb1 with state := .active } }).chan 3).activeTb = some 1
    ∧ (bit ((busState 0 id).busMode 3) 25 = false ∧ bit ((busState (2 ^ 25) id).busMode 3) 25 = true)
    ∧ (State.reset.chan 3).activeTb = none
    ∧ (hdrShape (frw frame5) = true ∧ frame5.length = 8 + hWords (frw frame5)
      ∧ (busState 0 fun x => { x with state := .active }).mayReceive 3 false = true
      ∧ (busState 0 id).busBarred 3 (frw frame5) = false)
    ∧ (hdrShape (frw frameFd) = true ∧ frameFd.length = 8 + hWords (frw frameFd) ∧ (busState 0 id).busBarred 3 (frw frameFd) = true)
    ∧ (let s := busState 0 fun x => { x with state := .active, held := some (2, frame5) }
       (s.chan 3).held = some (2, frame5) ∧ (s.chan 3).state = .active ∧ s.classSafe 2 5 = false ∧ s.ledgerRoom 5 = true
       ∧ (let u := ((s.enterPen 5 2 frame5.length true).setChan 3 { s.chan 3 with held := none }).penPacketIn 2 frame5
          u.2 = true)
       ∧ (let t : State := { s with pen.pens := [(2, { Pen.fresh with state := .run })] }
          ((((t.setCfg 0x03100 2 (2 ^ 35)).enterPen 5 2 frame5.length true).setChan 3 { s.chan 3 with held := none }).penPacketIn 2 frame5).2 = false)
       ∧ ({ s with bell.fatal := true } : State).classSafe 2 5 = true)
    ∧ (let s := busState 0 fun x => { x with state := .active }
       let v := (s.busCount 3 6).fire 130 3
       bit (v.busMode 3) 23 = false ∧ bit (((busState (2 ^ 23) fun x => { x with state := .active }).fire 130 3).busMode 3) 23 = true)
    ∧ (let s0 := busState (2 ^ 27) fun x => { x with state := .active }
       let s : State := { s0 with pen.pens := [(0, { ((Pen.fresh.setCm 9).setWr 9) with state := .run })], pen.pool := [(0, 8), (3, 5)] }
       bit (s.busMode 3) 27 = true ∧ ((s.chan 3).tb 1).state = .empty ∧ s.ledgerRoom 5 = true
       ∧ (s0.penPacketOut 0).2 = none ∧ (s.penPacketOut 0).2 = some frame5
       ∧ ((s.penPacketOut 0).1.enter 5 [⟨9, 0, 2, 0, 0, 0⟩]).hdrOk 3 1 (frw frame5) = true) := by decide

/-- Port p in a state, under an operating mode. -/
def portState (p mode : Nat) (f : Port → Port) : State :=
  (State.reset.setCfg 0x07000 p (2 ^ 35 + mode * 2 ^ 32 + 1536)).setPort p (f (State.reset.port p))

/-- Obligation PortStates, clause by clause: port 3 is a SerDes port, port 20 is none. -/
theorem witness_PortStates :
    (let s := portState 3 2 fun x => { x with state := .settling }
     (s.port 3).state = .settling ∧ s.supplyUp 3 = true ∧ s.supplyUp 4 = true)
    ∧ ((portState 3 2 fun x => { x with state := .down }).port 3).state = .down
    ∧ ((portState 3 2 fun x => { x with state := .up }).port 3).state = .up
    ∧ ((portState 20 0 fun x => { x with state := .down }).port 20).state = .down
    ∧ ((portState 20 0 fun x => { x with state := .up }).port 20).state = .up
    ∧ (State.reset.port 3).state = .off ∧ (State.reset.port 3).faultSent = false
    ∧ (let u := portState 3 2 fun x => { x with state := .drain }
       (u.port 3).state = .drain ∧ u.schedQ 3 = [] ∧ ∀ tc < 8, u.bq 3 tc = [])
    ∧ (let s := portState 3 2 fun x => { x with state := .up }
       s.faultPort 3 = true ∧ (s.port 3).state ≠ .off)
    ∧ (portState 20 0 id).faultPort 20 = false
    ∧ ((portState 3 2 fun x => { x with faultSent := true }).port 3).faultSent = true := by decide

/-- A frame of n bytes, of EtherType e, with a VLAN tag of VID v where one is given. -/
def ethBytes (n e : Nat) (v : Option Nat) : List Nat :=
  List.replicate 12 1 ++ (match v with | none => [] | some v => [0x81, 0, v / 256, v % 256]) ++ [e / 256, e % 256] ++ List.replicate n 0

/-- A record of a transmit pen: 60 bytes. -/
def txRecord : List Word := 60 :: List.replicate 39 0

/-- A pen with one packet of 40 words feeds port 3 and the host's port. -/
def txState (rec_ : List Word) : State :=
  let s := portState 3 2 fun x => { x with state := .up }
  let s : State := { s with
    pen.pens := [(0, { ((Pen.fresh.setCm 41).setWr 41) with state := .run })], pen.pool := Tab.setList 0 [(0, 40)] 1 rec_ }
  (s.setCfg 0x07004 3 (2 ^ 12)).setCfg 0x07014 0 (2 ^ 34)

/-- A cell of link kind TUNNEL's form for station 0. -/
def tunnelCell : List Word := BitVec.ofNat 18 (2 ^ 14) :: List.replicate 31 0

/-- Obligation SwitchFrames, receive clauses. -/
theorem witness_SwitchFrames_receive :
    (let s := portState 3 2 fun x => { x with state := .up }
     (s.port 3).state = .up ∧ portMax (s.portCfg 3) = 1536
     ∧ (ethBytes 10 0x800 none).length + 4 < 64
     ∧ 64 ≤ (ethBytes 60 0x800 none).length + 4 ∧ (ethBytes 60 0x800 none).length + 4 ≤ 1536
     ∧ tagged (ethBytes 60 0x800 none) = false ∧ etype (ethBytes 60 0x800 none) ≠ 0x8808
     ∧ tagged (ethBytes 60 0x800 (some 0xFFF)) = true ∧ rawVid (ethBytes 60 0x800 (some 0xFFF)) = 0xFFF
     ∧ etype (ethBytes 60 0x8808 none) = 0x8808)
    ∧ (State.reset.port 3).state ≠ .up ∧ (State.reset.port 3).state ≠ .drain := by decide

/-- The free cells with one stored frame. -/
theorem freeCells_one (f : QFrame) : (State.reset.setBq 3 0 [f]).freeCells = 65152 - (0 + frameCells f.bytes) := rfl

/-- A frame of n zero bytes. -/
def zeros (n : Nat) : QFrame :=
  { bytes := List.replicate n 0, tc := 0, colour := 0, vid := 1, ingress := 4, copy := 0, mirrored := false }

theorem frameCells_zeros (n : Nat) : frameCells (zeros n).bytes = (n + 259) / 256 :=
  congrArg (fun k => (k + 4 + 255) / 256) List.length_replicate

/-- Obligation SwitchFrames: the buffer with room for a frame, and without. -/
theorem witness_SwitchFrames_room :
    (∃ f, (State.reset.setBq 3 0 [f]).freeCells < frameCells (zeros 60).bytes) ∧ frameCells (zeros 60).bytes ≤ State.reset.freeCells := by
  refine ⟨⟨zeros 16678912, ?_⟩, by decide⟩
  rw [freeCells_one, frameCells_zeros, frameCells_zeros]
  decide

set_option maxRecDepth 100000 in
/-- Obligation SwitchFrames, the clauses of sending. -/
theorem witness_SwitchFrames_send :
    (let f : QFrame := { bytes := ethBytes 60 0x800 none, tc := 7, colour := 0, vid := 1, ingress := 4, copy := 0, mirrored := false }
     let s : State := (portState 3 2 fun x => { x with state := .up }).setBq 3 7 [f]
     let u := s.advance 5
     u.nextFrame 3 = some (7, f) ∧ (u.port 3).sends = true ∧ ({ u.port 3 with faultSent := true } : Port).sends = false ∧ u.portSafe 3 = false ∧ (u.port 3).busy ≤ u.abs u.tide.off
     ∧ u.nextTx 3 (u.abs u.tide.off) = none
     ∧ (let v := s.schedEnter 3 50 148
        v.nextTx 3 0 = some 50 ∧ 50 < 0 + wireTime 3 (v.portRate 3) ((tagOut (v.portCfg 3) f).length + 4)))
    ∧ (let s := txState txRecord
       bit (s.cfg 0x07004 3) 12 = true ∧ (s.port 3).state = .up ∧ bit (s.cfg 0x07014) 34 = true
       ∧ s.ledgerRoom 5 = true ∧ s.classSafe 2 5 = false ∧ (s.penPacketOut 0).2 = some txRecord
       ∧ (penFrame 3 1536 0 txRecord).isSome = true)
    ∧ (let s := txState (0 :: List.replicate 39 0)
       (s.penPacketOut 0).2 = some (0 :: List.replicate 39 0) ∧ penFrame 3 1536 0 (0 :: List.replicate 39 0) = none) := by decide

set_option maxRecDepth 100000 in
/-- Obligation SwitchFrames, ageing and the tunnel. -/
theorem witness_SwitchFrames_tunnel :
    fld (State.reset.cfg 0x07010) 31 16 ≠ 0 ∧ fld ((State.reset.setCfg 0x07010 0 0).cfg 0x07010) 31 16 = 0
    ∧ (let s := State.reset.setLink 1 { State.reset.link 1 with state := .up }
       tunnelCell.length = 32 ∧ s.linkUp (dirOut (dirWrap 0)) = true ∧ cellCheck 0 tunnelCell = 236 ∧ s.station = 0
       ∧ fld (tunnelCell.getD 0 0).toNat 17 14 = 1)
    ∧ State.reset.linkUp 1 = false := by decide

/-- Link 1 in a state of a hub that is FULL. -/
def linkState (f : RLink → RLink) : State :=
  ({ State.reset with power.state := .full } : State).setLink 1 (f (State.reset.link 1))

/-- Obligation RingLinkStates, clause by clause. -/
theorem witness_RingLinkStates :
    (let s := linkState fun x => { x with state := .settling }
     (s.link 1).state = .settling ∧ s.power.state = .full ∧ s.supplyUp 3 = true ∧ s.supplyUp 4 = true)
    ∧ (let s := linkState fun x => { x with state := .training, trainRun := 16, trainProtect := false }
       (s.link 1).state = .training ∧ 16 ≤ (s.link 1).trainRun ∧ (s.link 1).trainProtect = s.protect 1 ∧ s.protect 1 = false
       ∧ (s.link 1).trained = false)
    ∧ ((linkState fun x => { x with state := .up }).link 1).state = .up
    ∧ (let s := linkState fun x => { x with state := .down }
       (s.link 1).state = .down ∧ s.linkHeld 1 = false ∧ (s.link 1).holdDone = false)
    ∧ (let s := linkState fun x => { x with state := .down, locked := true, holdDone := true }
       (s.link 1).locked = true ∧ (s.link 1).holdDone = true ∧ (s.link 1).delayHeld = false ∧ s.linkHeld 1 = false)
    ∧ (let s := linkState fun x => { x with state := .training, trained := true, trainRun := 2, trainProtect := true }
       (s.link 1).trained = true ∧ (s.link 1).trainRun < 16 ∧ (s.link 1).trainProtect ≠ s.protect 1)
    ∧ ((linkState fun x => { x with state := .training, dValid := true, d := 4, raw := 200 }).link 1).delayHeld = true
    ∧ (let s : State := { linkState fun x => { x with state := .down } with bell.fatal := true }
       (s.link 1).state = .down ∧ s.linkHeld 1 = true)
    ∧ ((linkState fun x => { x with state := .off }).link 1).state = .off
    ∧ (State.reset.link 1).state ≠ .down ∧ (State.reset.link 1).state ≠ .up := by decide

/-- Link 0 UP under a table whose ring plan names its slot 0 of beat 0 with an action. -/
def planState (action : Nat) : State :=
  { linkState id with
    ring.links := [(0, { RLink.blank with state := .up })]
    table.valid := true
    table.half0 := { Half.blank with
      sects := [(7, [0, 1, 0, 0, 0, 0, 0, 0, BitVec.ofNat 18 ((if action = 4 then 0 else 2 ^ 15) + action * 2 ^ 12), 0, 0, 8])] }
    tide.runs := true }

/-- An unscheduled unicast cell for a station with a WRAPPED bit and HOPS. -/
def transitCell (dest wrapped hops : Nat) : List Word :=
  [BitVec.ofNat 18 (wrapped * 2 ^ 13 + dest), 0, 0, BitVec.ofNat 18 (hops * 2 ^ 6)] ++ List.replicate 28 0

/-- Obligation RingLinkCells: markers. -/
theorem witness_RingLinkCells_markers :
    ((linkState fun x => { x with state := .up, faultRun := 3 }).link 1).state = .up
    ∧ ((linkState fun x => { x with state := .up, faultRun := 3 }).link 1).faultRun = 3
    ∧ ((linkState fun x => { x with state := .down }).link 1).state = .down
    ∧ ((linkState fun x => { x with state := .up, dValid := true, d := 4 }).link 1).dValid = true
    ∧ ((linkState fun x => { x with state := .up, dValid := true, d := 4 }).link 1).d = 4
    ∧ (RLink.blank.dValid = false ∧ (State.reset.link 1).state = .settling)
    ∧ (let s : State := { linkState fun x => { x with state := .down } with muster.epoch := 1 }
       (s.link 1).state = .down ∧ (s.link 1).dValid = false ∧ s.muster.epoch ≠ 0)
    ∧ State.reset.muster.epoch = 0 ∧ ((linkState fun x => { x with state := .training }).link 1).state = .training := by decide

set_option maxRecDepth 100000 in
/-- Obligation RingLinkCells: cells, each with the check it carries or another. -/
theorem witness_RingLinkCells_cells :
    (∀ a ∈ [2, 3, 4], ((planState a).slotRec 0 0 0).map SlotRec.action = some a)
    ∧ ((planState 2).linkUp 0 = true ∧ (planState 2).tideRuns = true ∧ (List.replicate 32 (0 : Word)).length = 32
      ∧ cellCheck (cellCtx 0 0 ((planState 2).time.F % 2 ^ 18)) (List.replicate 32 0) = 119)
    ∧ ((transitCell 0 0 11).length = 32 ∧ cellCheck 0 (transitCell 0 0 11) = 220 ∧ (planState 2).station = 0)
    ∧ (cellCheck 0 (transitCell 2 0 11) = 120 ∧ cellCheck 0 (transitCell 2 1 11) = 97 ∧ cellCheck 0 (transitCell 2 0 0) = 211)
    ∧ (planState 2).linkTakes (onward 0) = false
    ∧ (({ planState 2 with ring.links := [(0, { RLink.blank with state := .up }), (1, { RLink.blank with state := .up })] } : State).linkUp
        (onward 0) = true) := by decide

/-- Obligation RingLinkCells: transit buffers, reports and protection. -/
theorem witness_RingLinkCells_others :
    (let s := linkState fun x => { x with state := .up, transit := [[]] }
     (s.link 1).transit = [] :: [] ∧ (s.link 1).marks = [] ∧ s.linkUp 1 = true ∧ s.slotFree 1 0 0 = true ∧ (s.link 2).transit = [])
    ∧ (let s := linkState fun x => { x with state := .up, marks := [(4, 9)] }
       (s.link 1).marks = (4, 9) :: [] ∧ s.linkUp 1 = true ∧ s.slotFree 1 0 0 = true ∧ (s.link 1).transit.length < 64)
    ∧ ((linkState fun x => { x with transit := List.replicate 64 [] }).link 1).transit.length = 64
    ∧ ((linkState fun x => { x with state := .up }).slotFree 1 0 0 = true ∧ (planState 3).slotFree (onward 0) 0 0 = false)
    ∧ ((linkState fun x => { x with state := .training }).link 1).state = .training
    ∧ (∀ k ∈ [1, 3, 4, 5, 9], headerReserved 0 (fun i => ((BitVec.ofNat 18 (k * 2 ^ 14) :: List.replicate 31 (0 : Word)).getD i 0).toNat)
        = (k == 9))
    ∧ headerReserved 4 (fun i => ((BitVec.ofNat 18 (8 * 2 ^ 14) :: List.replicate 31 (0 : Word)).getD i 0).toNat) = false
    ∧ (5 ≠ State.reset.station ∧ Tab.get none State.reset.ring.topo 41 = none)
    ∧ (newer16 3 2 = true ∧ newer16 2 3 = false)
    ∧ (let s := (linkState fun x => { x with state := .up }).setCfg 0x08005 1 (2 ^ 35)
       s.protect 1 = true ∧ s.linkUp 1 = true ∧ (s.link 1).key = none ∧ (s.link 1).sealLate (fld (s.cfg 0x08005 1) 25 23) s.time.F = true)
    ∧ (let s := (linkState fun x => { x with state := .up, seals := [⟨1, [], false⟩] }).setCfg 0x08005 1 (2 ^ 35)
       (s.link 1).sealLate (fld (s.cfg 0x08005 1) 25 23) s.time.F = false)
    ∧ (({ tide := 3, bytes := [], failed := true } : SealMsg).failed = true)
    ∧ (linkState id).protect 1 = false ∧ (linkState id).linkUp 1 = false := by decide

/-- A hub whose shepherd cores run, in a state of the muster, with link 1 UP. -/
def musterState (f : MusterSt → MusterSt) : State :=
  { State.reset with
    dict.shepherds := true, muster := f State.reset.muster
    ring.links := [(0, { RLink.blank with state := .up }), (1, { RLink.blank with state := .up })] }

/-- Obligation MusterElection, clause by clause. -/
theorem witness_MusterElection :
    (musterState id).dict.shepherds = true ∧ (musterState id).linkUp (dirOut (dirWrap 0)) = true
    ∧ (let u := (musterState fun m => { m with state := .listen, flooded := true, epoch := 3 }).heard 1 3 5 9 false []
       u.muster.state = .listen ∧ u.muster.flooded = true ∧ 3 = u.muster.epoch)
    ∧ (let u := (musterState fun m => { m with state := .listen, flooded := false }).heard 1 3 5 9 false []
       u.muster.flooded = false ∧ ((u.toMuster .claiming).claimNow false).muster.flooded = false)
    ∧ ((musterState fun m => { m with state := .claiming, standin := false }).muster.state = .claiming)
    ∧ ((musterState fun m => { m with state := .yielded, standin := true }).muster.standin = true)
    ∧ ((musterState fun m => { m with state := .member, role := 0 }).muster.role = 0)
    ∧ ((musterState fun m => { m with state := .joining }).muster.state = .joining)
    ∧ (5 ≠ (musterState id).station ∧ timeOk 0 = true)
    ∧ (let s := musterState fun m => { m with state := .member }
       s.muster.state ≠ .solo ∧ s.muster.state ≠ .ebbed ∧ (s.firstCopy 5 3 8 7).isSome = true)
    ∧ (musterState fun m => { m with state := .solo }).muster.state = .solo := by decide

/-- Obligations MusterElection, MusterTides and EbbRounds: cores down, the other states, first and later copies. -/
theorem witness_muster_copies :
    State.reset.dict.shepherds = (musterState id).dict.shepherds
    ∧ ({ musterState id with dict.shepherds := false } : State).dict.shepherds = false
    ∧ (let s := musterState fun m => { m with state := .ebbPending, role := 0, epoch := 3 }
       (s.firstJoin 5).isSome = true ∧ ((s.firstJoin 5).bind fun u => u.firstJoin 5) = none
       ∧ (s.firstCopy 5 3 5 7).isSome = true ∧ ((s.firstCopy 5 3 5 7).bind fun u => u.firstCopy 5 3 5 7) = none
       ∧ (s.firstCopy 5 4 1 7).isSome = true ∧ ((s.firstCopy 5 4 1 7).bind fun u => u.firstCopy 5 4 1 7) = none
       ∧ (s.firstCopy 5 4 5 7).isSome = true ∧ ((s.firstCopy 5 4 5 7).bind fun u => u.firstCopy 5 4 5 7) = none
       ∧ ((s.firstCopy 5 4 6 7).bind fun u => u.firstCopy 5 4 6 7) = none)
    ∧ (let s := musterState fun m => { m with state := .member, epoch := 3 }
       let u := (s.heard 1 3 5 9 false []).seeEpoch 4
       u.muster.state = .member ∧ u.muster.role = 0 ∧ u.muster.standin = false ∧ 4 ≠ s.muster.epoch)
    ∧ (musterState fun m => { m with state := .out }).muster.state = .out
    ∧ (let s := musterState fun m => { m with state := .member, lost := false, role := 0, void := some 7, round := 6, reason := 2 }
       s.muster.void = some 7 ∧ s.muster.round = 6 ∧ 2 ≤ s.muster.reason) := by decide

/-- Obligation MusterTides, clause by clause. -/
theorem witness_MusterTides :
    (5 ≠ (musterState id).station)
    ∧ (musterState fun m => { m with state := .listen }).muster.state = .listen
    ∧ (musterState fun m => { m with state := .joining }).muster.state = .joining
    ∧ (let s := musterState fun m => { m with state := .member, role := 0, lost := false, epoch := 3 }
       s.muster.state = .member ∧ s.muster.role = 0 ∧ s.muster.lost = false ∧ 3 = s.muster.epoch ∧ 4 ≠ s.muster.epoch)
    ∧ (musterState fun m => { m with state := .member, role := 1 }).muster.role ≠ 0 := by decide

/-- Obligation EbbRounds, clause by clause. -/
theorem witness_EbbRounds :
    (let s := musterState fun m => { m with role := 1, state := .member, ebb := .awake }
     s.muster.role = 1 ∧ s.muster.state = .member ∧ s.muster.ebb = .awake ∧ s.mayRound = true)
    ∧ (let s := musterState fun m => { m with role := 1, ebb := .roundOpen, round := 3 }
       s.muster.role = 1 ∧ s.muster.ebb = .roundOpen ∧ s.muster.round = 3 ∧ s.mayRound = false)
    ∧ bit ((musterState id).cfg 0x01100) 33 = bit ((musterState id).cfg 0x01100) 33
    ∧ bit (((musterState id).setCfg 0x01100 0 (2 ^ 33)).cfg 0x01100) 33 = true
    ∧ (let s := musterState fun m => { m with state := .member, lost := false, role := 0, reason := 0 }
       5 ≠ s.station ∧ (s.firstCopy 5 4 2 3).isSome = true ∧ (s.firstCopy 5 4 5 3).isSome = true ∧ (s.firstCopy 5 4 6 3).isSome = true
       ∧ timeOk 0 = true ∧ s.muster.reason < 2 ∧ s.muster.role = 0)
    ∧ (let s := musterState fun m => { m with seen := [(5 * 256 + 4 * 16 + 2, 4)] }
       (s.firstCopy 5 4 2 3).isNone = true)
    ∧ (musterState fun m => { m with state := .joining }).muster.state = .joining
    ∧ timeOk (1000000000 * 2 ^ 16) = false := by decide

/-- Obligation FloodAndWake, clause by clause. -/
theorem witness_FloodAndWake :
    (musterState fun m => { m with state := .member }).muster.state ≠ .ebbed
    ∧ (let s := musterState fun m => { m with state := .ebbed }
       s.muster.state = .ebbed ∧ bit s.power.thresholds 2 = false)
    ∧ (let s : State := { musterState fun m => { m with wakeActive := true } with ring.links := [(2, { RLink.blank with state := .down })] }
       (s.link 2).state = .down ∧ s.ebbTest = false ∧ (s.link 1).state ≠ .down)
    ∧ (let s := musterState fun m => { m with state := .member, lost := true, wakeActive := true }
       (s.firstCopy 5 4 7 3).isSome = true ∧ s.muster.lost = true ∧ s.ebbTest = false)
    ∧ (let s := (musterState fun m => { m with state := .member, lost := true, wakeActive := false }).setCfg 0x01100 0 (2 ^ 35)
       (s.setCfg 0x01102 0 0).ebbTest = true)
    ∧ (let s := musterState fun m => { m with floods := [(5, some (1, 2))] }
       Tab.get none s.muster.floods 5 = some (1, 2) ∧ Tab.get none s.muster.floods 6 = none)
    ∧ (let s := musterState fun m => { m with state := .listen, flooded := true, role := 1 }
       s.muster.state = .listen ∧ s.muster.flooded = true ∧ s.muster.role = 1)
    ∧ (musterState fun m => { m with state := .listen, flooded := true, role := 0 }).muster.role ≠ 1
    ∧ (let s := musterState fun m => { m with state := .ebbPending, lost := true, ebbAt := 10 ^ 15 }
       s.muster.state = .ebbPending ∧ s.muster.lost = true ∧ s.beforeGuard = true ∧ (s.firstCopy 5 4 7 3).isSome = true
       ∧ ((s.firstCopy 5 4 7 3).bind fun u => u.firstCopy 5 4 7 3) = none)
    ∧ bit ({ State.reset with power.thresholds := 4 } : State).power.thresholds 2 = true := by decide

/-- A SYNC of the tide master of epoch 3. -/
def syncOf (origin : Nat) : SyncMsg :=
  { epoch := 3, state := 1, traceable := false, follow := 2, origin := origin, corr := 0, f := 4, utc := 0, off0 := 0, off1 := 0 }

/-- A member of epoch 3 that follows ring A; links 1 and 2 UP. -/
def followState (f : TimeSt → TimeSt) : State :=
  let s := musterState fun m => { m with state := .member, epoch := 3 }
  { s with ring.links := [(1, { RLink.blank with state := .up })], time := f s.time }

set_option maxRecDepth 100000 in
/-- Obligation FabricTime, clause by clause. -/
theorem witness_FabricTime :
    (followState id).linkUp 1 = true ∧ (followState id).linkUp 2 = false
    ∧ timeOk 0 = true ∧ timeOk (1000000000 * 2 ^ 16) = false
    ∧ (let s := followState id
       let u := (s.advance 5).heard 1 5 5 9 false (syncPay (syncOf 0) 0)
       let f := u.forward 1 5 5 9 false (syncPay (syncOf 0) 0)
       (5 : Fin 2048).val ≠ s.station ∧ f.dict.shepherds = true ∧ f.muster.state = .member ∧ f.isMaster = false ∧ f.muster.epoch = 3
       ∧ f.syncPath.map Prod.fst = some (rxDir 1) ∧ f.time.synced = false ∧ f.tideRuns = false
       ∧ (syncOf 0).epoch = f.muster.epoch ∧ (syncOf 0).follow.val ≠ 3)
    ∧ (followState fun t => { t with synced := true }).time.synced = true
    ∧ (let s := { musterState fun m => { m with role := 1 } with time.first := some (0, 0) }
       s.dict.shepherds = true ∧ s.isMaster = true ∧ s.time.first ≠ none)
    ∧ (followState fun t => { t with state := .locked }).time.state = .locked ∧ (followState id).isMaster = false
    ∧ (followState fun t => { t with state := .holdover }).time.state = .holdover
    ∧ (let s := musterState fun m => { m with state := .listen }
       2 ≤ s.time.follow ∧ s.tideRuns = false ∧ s.muster.state = .listen)
    ∧ (followState fun t => { t with follow := 1 }).time.follow < 2
    ∧ (let s := (({ musterState fun m => { m with role := 1 } with time.follow := 1, time.domains := [(0, { Domain.blank with dstate := 3 })] } : State).setCfg 0x09010 0 (2 ^ 35)).setCfg 0x09002 0 (2 ^ 15)
       s.isMaster = true ∧ s.dstate 0 = 3 ∧ s.dstate 1 ≠ 3 ∧ bit (s.cfg 0x09002) 15 = true ∧ s.time.follow ≠ fld (s.cfg 0x09002) 3 3
       ∧ s.dstate (fld (s.cfg 0x09002) 3 3) = 3) := by decide

/-- A tide master with domain 0 enabled, its ingress at port 3 of station 5. -/
def domainState (st : Nat) (o : Option Nat) : State :=
  ({ musterState (fun m => { m with role := 1 }) with
    time.follow := 0, tide.runs := true, time.domains := [(0, { Domain.blank with dstate := st, ingress := o })] } : State).setCfg 0x09010 0 (2 ^ 35)

set_option maxRecDepth 100000 in
/-- Obligation TimeDomains, clause by clause. -/
theorem witness_TimeDomains :
    (let s : State := { domainState 3 (some (5 * 64 + 3)) with table.valid := true }
     s.dict.shepherds = true ∧ s.domOn 0 = true ∧ s.domOn 1 = false ∧ (5 : Fin 2048).val ≠ s.station ∧ s.isMaster = true
     ∧ (s.domain 0).ingress = some (5 * 64 + 3) ∧ (5 * 64 + 3) / 64 = 5 ∧ (s.domain 0).dstate = 3 ∧ s.time.follow = 0
     ∧ (s.setDomain 0 { s.domain 0 with offset := 1000000 * 65536 + 1 }).table.valid = true ∧ s.time.large = false)
    ∧ (let s := domainState 2 (some (State.reset.station * 64 + 3))
       (s.domain 0).ingress = some (State.reset.station * 64 + 3) ∧ (State.reset.station * 64 + 3) / 64 = s.station ∧ (s.domain 0).dstate = 2)
    ∧ ((domainState 1 none).domain 0).dstate = 1 := by decide

/-- Domain 0 enabled with port 1, which is UP, in its set. -/
def ptpState (profile : Nat) (x : Domain) : State :=
  let s := ((musterState id).setCfg 0x09010 0 (2 ^ 35 + profile * 2 ^ 33)).setCfg 0x09012 0 2
  { s with sw.ports := [(1, { Port.blank with state := .up })], time.domains := [(0, x)] }

def ptpMsg : PtpMsg := { port := 1, number := 0, seq := 7, corr := 0, t := 0, off := 0 }

set_option maxRecDepth 100000 in
/-- Obligation PtpMessages, clause by clause. -/
theorem witness_PtpMessages :
    (let i := State.reset.station * 64 + 1
     let s := ptpState 0 { Domain.blank with ingress := some i, twoStep := some (7, 0, 0), reqSeq := 7 }
     let r := (s.advance ptpMsg.off).bump 0x09016 2
     r.domOf 0 = some 0 ∧ r.inPorts 0 1 = true ∧ (r.port 1).state = .up ∧ r.isIngress 0 1 = true ∧ (r.domain 0).reqSeq = 7
     ∧ (r.domain 0).twoStep = some (7, 0, 0) ∧ r.domProfile 0 = 0 ∧ r.domOf 3 = none ∧ r.inPorts 0 2 = false ∧ r.transmits 0 1 = false)
    ∧ (let s := ptpState 1 { Domain.blank with ingress := some (State.reset.station * 64 + 1), pdelay := some (7, 0, 0, 0), reqSeq := 7 }
       let r := (s.advance ptpMsg.off).bump 0x09016 2
       r.domOf 0 = some 0 ∧ r.inPorts 0 1 = true ∧ (r.port 1).state = .up ∧ r.domProfile 0 ≠ 0 ∧ r.isIngress 0 1 = true
       ∧ (r.domain 0).pdelay = some (7, 0, 0, 0))
    ∧ (let r := ((ptpState 2 Domain.blank).advance ptpMsg.off).bump 0x09016 2
       r.domOf 0 = some 0 ∧ r.inPorts 0 1 = true ∧ (r.port 1).state = .up ∧ r.domProfile 0 = 2 ∧ r.clockId ∈ [r.clockId] ∧ r.clockId ∉ ([] : List Nat))
    ∧ (let s := ptpState 0 Domain.blank
       let r := (s.advance ptpMsg.off).bump 0x09016 2
       r.transmits 0 1 = true ∧ r.isIngress 0 1 = false ∧ (r.domain 0).pdelay = none ∧ (r.domain 0).twoStep = none ∧ s.domOn 0 = true ∧ s.domOn 1 = false
       ∧ s.transmits 0 1 = true)
    ∧ (let i := State.reset.station * 64 + 1
       let s := ptpState 1 { Domain.blank with ingress := some i }
       s.transmits 0 1 = false ∧ s.isIngress 0 1 = true ∧ s.domProfile 0 ≠ 0)
    ∧ (let i := State.reset.station * 64 + 1
       let s := ptpState 0 { Domain.blank with ingress := some i }
       let e := (s.announceEntry 0 s.station 1 (some (announceData { prio1 := 0, cls := 0, acc := 0, prio2 := 0, variance := 0, gm := 1, steps := 0 }))).sendAnnounce 0 1
       e.isIngress 0 1 = true ∧ e.time.follow ≠ 0)
    ∧ (let i := State.reset.station * 64 + 1
       let s : State := { ptpState 0 { Domain.blank with ingress := some i } with time.follow := 0 }
       (s.announceEntry 0 s.station 1 (some (announceData { prio1 := 0, cls := 0, acc := 0, prio2 := 0, variance := 0, gm := 1, steps := 0 }))).time.follow = 0) := by decide

/-- A pair unit whose pair link is UP. -/
def pairState (f : PairSt → PairSt) : State :=
  let s : State := { State.reset with ring.links := [(4, { RLink.blank with state := .up })], pair := f State.reset.pair, pin.hold := false }
  s.setCfg 0x0A000 0 (2 ^ 35)

set_option maxRecDepth 100000 in
/-- Obligation PairClaims, clause by clause. -/
theorem witness_PairClaims :
    State.reset.paired = false
    ∧ (let s := pairState id
       s.paired = true ∧ s.pin.hold = false ∧ s.pair.plan = none ∧ s.linkUp 4 = true ∧ s.pair.claimInFault = false ∧ s.pair.silence = false
       ∧ s.pair.mismatched.contains 1 = false)
    ∧ ({ pairState id with pin.hold := true } : State).pin.hold = true
    ∧ (pairState fun p => { p with plan := some ⟨.takeover, 0x8002, 5⟩ }).pair.plan = some ⟨.takeover, 0x8002, 5⟩
    ∧ (172 : Fin 256).val ≠ claimCrc 0x8001 0x8001 ∧ claimCrc 0x8001 0x8001 < 256
    ∧ Machine.claimOk 0x8001 = true ∧ Machine.claimOk 0x8000 = false ∧ Machine.claimOk 0x5001 = false ∧ Machine.claimOk 0 = true
    ∧ (let s : State := { pairState id with ring.links := [] }
       s.paired = true ∧ s.linkUp 4 = false)
    ∧ (pairState fun p => { p with claimInFault := true }).pair.claimInFault = true
    ∧ (let s := pairState fun p => { p with state := .waiting, mismatched := [1] }
       s.helloDiffers (s.node + 1) 1 0 = some 1 ∧ s.pair.mismatched.contains 1 = true ∧ s.pair.record = 0 ∧ s.pair.formed = false)
    ∧ (let s : State := { pairState fun p => { p with state := .waiting, record := 0x8001 } with
                            table.valid := true, table.half0 := { Half.blank with imageId := 9 } }
       s.helloDiffers s.node (1 - s.unit) 9 = none ∧ s.pair.silence = false ∧ s.pair.linkLost = false ∧ s.pair.claimSilent = false ∧ s.pair.state = .waiting)
    ∧ (pairState fun p => { p with silence := true }).pair.silence = true
    ∧ (let s := pairState fun p => { p with state := .standby, record := 0x8001 }
       s.pair.state = .standby ∧ s.pair.record ≠ 0)
    ∧ (let s := pairState fun p => { p with state := .active, record := 0x4001 }
       s.pair.state = .active ∧ s.partnerReady = true)
    ∧ (pairState fun p => { p with state := .active }).partnerReady = false
    ∧ (let s := pairState fun p => { p with state := .out }
       s.pair.state = .out ∧ s.severeCount = 0 ∧ s.bell.fatal = false)
    ∧ (let s := pairState fun p => { p with state := .joining, firstDone := true }
       s.pair.state = .joining ∧ s.pair.firstDone = true) := by decide

/-- The states after PARTNER_SILENCE of PairClaims. -/
theorem witness_PairClaims_silence :
    (let s := pairState fun p => { p with state := .standby, record := 0x8001, claimSilent := true }
     s.pair.silence = false ∧ s.pair.claimSilent = true ∧ s.pair.record ≠ 0 ∧ (s.setRecord 0 0).pair.plan ≠ none)
    ∧ (let u := State.fire (pairState fun p => { p with state := .joining, silence := true }) 244 0
     u.pair.state = .joining)
    ∧ (let u := State.fire (pairState fun p => { p with state := .standby, silence := true }) 244 0
       u.pair.state = .standby ∧ u.pair.record = 0 ∧ u.pair.plan = none)
    ∧ (let u := State.fire (pairState fun p => { p with state := .standby, record := 0x8001, silence := true }) 244 0
       u.pair.state = .standby ∧ u.pair.record ≠ 0)
    ∧ (let u := State.fire (pairState fun p => { p with state := .active, silence := true }) 244 0
       u.pair.state ≠ .joining ∧ u.pair.state ≠ .standby) := by decide +kernel

set_option maxRecDepth 100000 in
/-- Obligation PairMirroring, clause by clause. -/
theorem witness_PairMirroring :
    (let s := pairState fun p => { p with state := .standby, rxSeq := 1, rx := [5, 6], committed := 0 }
     s.takesEpochs = true ∧ s.pair.rxSeq = 1 ∧ (s.pair.committed + 1) % 2 ^ 18 = 1 ∧ (s.pair.rx.take 2).length = 2 ∧ (s.pair.rx.take 3).length ≠ 3)
    ∧ (pairState id).takesEpochs = false
    ∧ (let s := pairState fun p => { p with state := .active, formed := true, unacked := [⟨3, 0, []⟩] }
       s.dict.shepherds = true ∧ s.takesPair = true ∧ s.mirrors = true ∧ s.pair.unacked.any (fun e => e.seq == 3) = true ∧ s.pair.unacked.any (fun e => e.seq == 4) = false)
    ∧ (pairState id).mirrors = false ∧ State.reset.paired = false
    ∧ (let s := pairState fun p => { p with digests := [⟨0, 5, true, 9⟩] }
       s.pair.digests.filter (fun d => d.F == s.time.F - 1) = [⟨0, 5, true, 9⟩] ∧ s.paired = true ∧ s.pair.silence = false ∧ s.linkUp 4 = true
       ∧ s.pair.digests.find? (fun d => d.F == 0 && d.region == 5) = some ⟨0, 5, true, 9⟩
       ∧ s.pair.digests.find? (fun d => d.F == 0 && d.region == 6) = none ∧ s.pair.resolving = false)
    ∧ (pairState fun p => { p with digests := [⟨0, 5, false, 9⟩], resolving := true }).pair.resolving = true
    ∧ (pairState id).pair.digests.filter (fun d => d.F == (pairState id).time.F - 1) = []
    ∧ (pairState fun p => { p with checking := true }).pair.checking = true
    ∧ (pairState fun p => { p with checking := true, state := .active }).pair.state = .active := by decide

/-- Obligation PairMirroring: a self-check that meets SELFCHECK_REF, whatever it is, and one that does not. -/
theorem witness_PairMirroring_selfcheck :
    Config.selfcheckRef.toNat % 2 ^ 32 = Config.selfcheckRef.toNat ∧ (Config.selfcheckRef.toNat + 1) % 2 ^ 32 ≠ Config.selfcheckRef.toNat := by
  have := Config.selfcheckRef.isLt
  omega

/-- A hub that takes requests on the management port's path and on the service port. -/
def dictState (f : DictSt → DictSt) : State :=
  let s : State := { State.reset with power.state := .full, dict := f { State.reset.dict with shepherds := true }, upd.good := true }
  s.setCfg 0x00100 0 0x8888

def dictMsg : Msg :=
  { path := 3, source := 7, session := 0, tag := 1, target := 0, unit := 0, entry := 0, sub := 0, count := 0, body := [] }

/-- An open request that this station relayed. -/
def relayedReq (n : Nat) : OpenReq := { op := 1, path := 3, source := n, msg := dictMsg, relay := n + 1 }

/-- Obligation DictRequests, clause by clause: of each shape a request that fits, and of each but the third one that breaks it. -/
theorem witness_DictRequests :
    (let s := dictState id
     let u := s.takeReq 3
     s.takes dictMsg = true ∧ dictMsg.body.length + 7 ≤ pathLimit 3 ∧ u.tooManyOpen dictMsg = false
     ∧ [0, 1, 2, 3, 4].all (fun k => shapeOk k dictMsg) = true ∧ shapeOk 0 { dictMsg with entry := 5 } = false
     ∧ shapeOk 1 { dictMsg with count := 5 } = false ∧ shapeOk 2 { dictMsg with sub := 5 } = false ∧ shapeOk 4 { dictMsg with sub := 5 } = false
     ∧ 2 * dictMsg.target + dictMsg.unit = u.station ∧ u.sessionOk dictMsg = true ∧ u.sessionOk { dictMsg with session := 4 } = false
     ∧ 2 * 3 + 0 ≠ u.station ∧ u.usable 3 = 0)
    ∧ (let s : State := { dictState id with
         muster.roster := [(0, some ⟨0, some 6, []⟩), (6, some ⟨0, some 0, []⟩)], ring.links := [(0, { RLink.blank with state := .up })] }
       (s.takeReq 3).usable 3 ≠ 0 ∧ s.takes dictMsg = true)
    ∧ (dictState id).takes { dictMsg with path := 1, body := List.replicate 474 0 } = false
    ∧ (let s := (dictState id).setCfg 0x00101 0 1
       let m := { dictMsg with path := 1, body := List.replicate 474 0 }
       s.takes m = true ∧ pathLimit m.path < m.body.length + 7)
    ∧ ((dictState fun d => { d with waiting := List.replicate 4 (relayedReq 7) }).takeReq 3).tooManyOpen dictMsg = true
    ∧ (let u := (dictState fun d => { d with waiting := (List.range 64).map fun n => { relayedReq (n + 8) with op := 1 } }).takeReq 3
       u.tooManyOpen dictMsg = true ∧ 64 ≤ u.dict.waiting.countP (fun q => q.relay != 0)) := by decide +kernel

/-- A message for an entry. -/
def entryMsg (e : Nat) (body : List Word) : Msg := { dictMsg with entry := e, body := body }

/-- The row of an entry's sub-entry 0. -/
def rowOf (e : Nat) : Option Row := match lookEntry e 0 with | .ok r => some r | .error _ => none

/-- Obligation DictValues, clause by clause. -/
theorem witness_DictValues :
    ((rowOf 0x00105).map fun r => r.acc) = some .wo ∧ ((rowOf 0x00001).map fun r => (r.acc, r.ty)) = some (.ro, .u36)
    ∧ ((rowOf 0x00100).map fun r => (r.acc, r.ty, r.words, writeRole r 0x00100 0, r.per)) = some (.rw, .u36, 2, 3, .kept)
    ∧ ((rowOf 0x00100).all fun r =>
        let s := dictState fun d => { d with sessions := [(1, { role := 3, path := 3, source := 7, slot := 0, idle := 0 })] }
        let v := valueOf r.ty [0x78C, 0x28A88]
        decide (s.roleFor dictMsg < 3) && s.roleFor { dictMsg with session := 1 } == 3 && s.sessionOk { dictMsg with session := 1 }
        && wordsFit r.ty [0x78C, 0x28A88] && !s.barred r 0x00100 0 v && !s.valueOk r 0x00100 0 0 && s.valueOk r 0x00100 0 v) = true
    ∧ (let s := dictState fun d => { d with subs := [(3, Sub.asked dictMsg)] }
       let m : Msg := { dictMsg with body := [3] }
       m.body.map BitVec.toNat = [3] ∧ (s.dict.subs.any fun p => p.1 == 3 && p.2.path == m.path.val && p.2.source == m.source) = true
       ∧ (s.dict.subs.any fun p => p.1 == 4 && p.2.path == m.path.val && p.2.source == m.source) = false)
    ∧ ({ dictState id with fold.trngOk := false } : State).fold.trngOk = false
    ∧ (let s := (dictState fun d => { d with nonces := [{ path := 3, source := 7, value := 5 }] }).fire 274 3
       freeNumber s.dict.sessions 1 16 = some 1 ∧ (s.dict.nonces.find? fun x => x.path == 3 && x.source == 7).isSome = true
       ∧ (s.dropNonce 3 7).proofOk dictMsg 5 = false ∧ (s.dict.nonces.find? fun x => x.path == 3 && x.source == 8).isNone = true)
    ∧ (let s := (dictState fun d => { d with sessions := (List.range 15).map fun n => (n + 1, { role := 0, path := 3, source := 7, slot := 0, idle := 0 }) }).fire 274 3
       freeNumber s.dict.sessions 1 16 = none)
    ∧ (dictState id).pointRuns { dictMsg with body := [0, 0] } = none
    ∧ ((dictState id).writeBulkOp { dictMsg with entry := 1 }).2 = .fail aReadOnly 0 [] := by decide +kernel

/-- Obligation DictValues: a point that is mapped, written by a Viewer. -/
theorem witness_DictValues_point :
    (let s : State := { dictState id with image.map := [{ first := 0, upland := false, addr := 0, kind := 1, width := 0, bitPos := 0, count := 9 }] }
     (s.pointRuns { dictMsg with body := [0, 0, 5] }).isSome = true ∧ s.roleFor dictMsg = 0) := by decide +kernel

/-- Obligation DictValues: an Operator writes a mapped point, taken by its line, and refused while every class is held. -/
theorem witness_DictValues_operator :
    (let s : State := { dictState (fun d => { d with sessions := [(1, { role := 1, path := 3, source := 7, slot := 0, idle := 0 })] }) with
                          image.map := [{ first := 0, upland := false, addr := 0, kind := 1, width := 0, bitPos := 0, count := 9 }] }
     let m : Msg := { dictMsg with session := 1, body := [0, 0, 5] }
     let takes (u : State) (rs : List (Nat × Run)) : Bool := match (u.writePoints m rs (m.body.drop 2)).2 with | .ok () => true | .error _ => false
     1 ≤ s.roleFor m
     ∧ ((s.pointRuns m).map fun rs => (decide (m.body.length = 2 + (rs.map fun p => p.2.words).sum), takes s rs,
          (s.writePoints m rs (m.body.drop 2)).1.ledger.waiting.length)) = some (true, true, 0)
     ∧ ((s.pointRuns m).map fun rs => takes { s with bell.fatal := true } rs) = some false) := by decide +kernel

/-- Obligation DictEvents, clause by clause. -/
theorem witness_DictEvents :
    (let x := { Sub.asked { dictMsg with entry := 1, body := [9] } with since := 1 }
     let s := dictState fun d => { d with subs := [(3, x)] }
     s.dict.subs.find? (fun p => p.1 == 3) = some (3, x) ∧ s.dict.subs.find? (fun p => p.1 == 4) = none ∧ s.workRuns = true ∧ s.dict.shepherds = true
     ∧ s.notifyDue x = true ∧ s.notifyDue { x with sent := true } = false ∧ s.pathOpen 3 = true ∧ s.pathOpen 1 = false)
    ∧ malformedAs (List.replicate 7 0) false = some (some (tagHead 0, aBadRequest))
    ∧ malformedAs ((0x6100 : Word) :: List.replicate 6 0) false = some none
    ∧ (malformedAs ((0x4100 : Word) :: List.replicate 6 0) false).isNone = true
    ∧ ((malformedAs ((0x4100 : Word) :: List.replicate 7 0) false).map fun a => a.map Prod.snd) = some (some aBadLength)
    ∧ (let s := dictState fun d => { d with waiting := [relayedReq 7] }
       s.relayed 8 = some (relayedReq 7) ∧ s.relayed 9 = none)
    ∧ (let s := (dictState id).setCfg 0x00101 0 77
       s.ownsAddress 77 = true ∧ s.ownsAddress 78 = false)
    ∧ (dictState fun d => { d with shepherds := false }).dict.shepherds = false := by decide +kernel

/-- A hub in FULL whose aperture 0 lies on a space. -/
def hostState (space : Nat) (f : HostSt → HostSt) : State :=
  let s : State := { State.reset with power.state := .full, host := f State.reset.host }
  s.setCfg 0x0B001 0 (2 ^ 12 + space * 2 ^ 15)

set_option maxRecDepth 100000 in
/-- Obligation HostPort, clause by clause. -/
theorem witness_HostPort :
    (let s := hostState 3 id
     let r := s.bump 0x0B004 0
     (s.aperture 0).1 = true ∧ (s.aperture 0).2.1 = 3 ∧ ((s.setCfg 0x0B001 1 0).aperture (2 ^ 27)).1 = false ∧ r.full = true ∧ r.classSafe 2 0 = false
     ∧ (match (r.spansRead 3 (lineSpans 0 2)).2 with | .ok ws => ws.length | .error _ => 9) = 2
     ∧ (match (r.spansRead 4 (lineSpans 0x5000 2)).2 with | .ok _ => none | .error d => some d) = some .unmapped)
    ∧ (let s : State := { hostState 3 id with power.state := .light }
       s.full = false ∧ (s.aperture 0).2.1 ≠ 5)
    ∧ (let s : State := ({ hostState 7 id with quay.state := .run }).setCfg 0x0B011 0 (2 ^ 35)
       (s.aperture 0).2.1 = 7 ∧ s.quayMapped 0 = true ∧ (hostState 7 id).quayMapped 0 = false)
    ∧ ((hostState 3 fun h => { h with req.discard := true }).host.req.discard = true)
    ∧ (let q := (hostState 3 fun h => { h with req.opened := true, req.open_ := [5] }).host.req
       q.opened = true ∧ q.discard = false ∧ q.open_ ≠ [] ∧ ¬ (q.open_.length = 4608 ∨ q.free < 1))
    ∧ (let q := (hostState 3 fun h => { h with req.opened := true, req.open_ := List.replicate 4608 0 }).host.req
       q.open_.length = 4608)
    ∧ (let q := (hostState 3 fun h => { h with rsp.ready := [[5]] }).host.rsp
       q.reading = [] ∧ q.ready = [[5]] ∧ 0 < q.fill)
    ∧ (hostState 3 fun h => { h with rsp.reading := [5] }).host.rsp.reading = [5]
    ∧ (3 : Fin 32).val.testBit 0 = true ∧ (2 : Fin 32).val.testBit 0 = false
    ∧ (let s := hostState 3 fun h => { h with pba := [4], linkUp := true }
       s.host.msixOn.contains 4 = false ∧ s.host.pba.contains 4 = true ∧ s.host.linkUp = true ∧ s.quay.locked = false ∧ s.quay.lockLeft = none
       ∧ (s.endSessions fun x => x.path == 2).quay = s.quay ∧ (s.endSessions fun x => x.path == 2).host = s.host)
    ∧ (hostState 3 fun h => { h with msixOn := [4] }).host.msixOn.contains 4 = true := by decide +kernel

/-- A hub in FULL whose bridge runs, with chip select 0 in use. -/
def quayState (f : QuaySt → QuaySt) : State :=
  let s : State := { State.reset with power.state := .full, quay := f { State.reset.quay with state := .run } }
  s.setCfg 0x0B011 0 (2 ^ 35 + 100 * 2 ^ 26)

def beatErr : QBeat := { QBeat.plain with err := true }

set_option maxRecDepth 100000 in
/-- Obligation QuayAndService, clause by clause. -/
theorem witness_QuayAndService :
    (let s := quayState id
     let u := s.quayLockStart
     let b := quayBeats (s.quayWide 0) 0 (List.replicate 2 0)
     s.full = true ∧ s.quayMapped 0 = true ∧ s.quayMapped (2 ^ 24) = false ∧ s.quay.posts = []
     ∧ (u.quayRun (u.quayLimit 0) true b []).2.2 = none
     ∧ (u.quayRun (u.quayLimit 0) true b [beatErr]).2.2 = some (1, 0)
     ∧ s.quay.locked = false ∧ s.quay.state ≠ .off)
    ∧ (let s := quayState fun q => { q with posts := [(0, [5])], locked := true }
       s.quay.posts = [(0, [5])] ∧ (([beatErr] : List QBeat).headD QBeat.plain).halt = false ∧ s.quay.locked = true
       ∧ (let u : State := State.quayLockStart { s with quay.posts := [] }
          (u.quayRun (u.quayLimit 0) true (quayBeats (s.quayWide 0) 0 [5]) []).2.2 = none
          ∧ (u.quayRun (u.quayLimit 0) true (quayBeats (s.quayWide 0) 0 [5]) [beatErr]).2.2 = some (1, 0)))
    ∧ (quayState fun q => { q with locked := true }).quay.posts = []
    ∧ ({ quayState id with power.state := .light } : State).full = false
    ∧ (quayState fun q => { q with state := .drain }).quay.state = .drain
    ∧ (quayState fun q => { q with state := .off }).quay.state = .off
    ∧ (let s := quayState id
       let f := (s.emit .quay 0 [0, 0, 0]).quayFail 1 0 0 0
       bit (f.cfg 0x0B010) 34 = bit (s.cfg 0x0B010) 34
       ∧ bit ((s.setCfg 0x0B010 0 (2 ^ 34)).cfg 0x0B010) 34 = true ∧ bit ((s.setCfg 0x0B010 0 0).cfg 0x0B010) 34 = false)
    ∧ (quayState id).workRuns = true ∧ ({ quayState id with power.inReset := true } : State).workRuns = false
    ∧ (let s : State := { quayState id with svc.rsp := [[1, 2]], svc.req := List.replicate 8 (List.replicate 1024 0) }
       let r := s.svcEnd { whole := true, extra := 0 }
       r.svc.rsp = [[1, 2]] ∧ 8192 < (r.svc.req.map List.length).sum + 7)
    ∧ ((quayState id).svcEnd { whole := true, extra := 0 }).svc.rsp = [] := by decide +kernel

set_option maxRecDepth 100000 in
/-- Obligation BellCommands, clause by clause: source 16 of level NOTE and 48 exist, 511 does not. -/
theorem witness_BellCommands :
    (srcRow? 16).isSome = true ∧ (srcRow? 511).isNone = true
    ∧ (State.reset.src 511 = Source.quiet ∧ State.reset.bell.fatal = false)
    ∧ (State.reset.fireCore 16 0 0).level 16 < 3 ∧ (State.reset.fireCore 16 0 0).bell.fatal = false
    ∧ (State.reset.src 16).unack = 0 ∧ ((State.reset.firePlain 16 0 0).src 16).unack ≠ 0
    ∧ 2 ≤ State.reset.firingLevel 17
    ∧ ({ State.reset with power.state := .full } : State).workRuns = true ∧ State.reset.tide.runs = false
    ∧ (strokeState 1 0).tide.runs = true ∧ ({ State.reset with power.inReset := true } : State).workRuns = false := by decide +kernel

/-- One record. -/
def recOf (partner : Bool) : Rec := { type := 1, partner := partner, hours := 0, cycles := 0, stamp := 0, rep := 0, payload := [] }

/-- Tracing into pen 5, with one record waiting. -/
def traceState (pen : Nat) : State :=
  { State.reset with trace.buffer := [[5]] }.setCfg 0x0D010 0 (2 ^ 35 + pen)

set_option maxRecDepth 100000 in
/-- Obligation TallyAndTrace, clause by clause. -/
theorem witness_TallyAndTrace :
    State.reset.tally.bad = [] ∧ State.reset.tally.word + (recOf false).toWords.length ≤ 2048
    ∧ State.reset.backlogFill ≤ 4096
    ∧ 4096 < ({ State.reset with tally.backlog := List.replicate 300 (recOf false) } : State).backlogFill
    ∧ ({ State.reset with tally.backlog := [recOf true] } : State).tally.backlog = [recOf true]
    ∧ ({ State.reset with tally.repDirty := true, tally.last := some (recOf true) } : State).tally.repDirty = true
    ∧ State.reset.tally.repDirty = false ∧ State.reset.trace.buffer = []
    ∧ (let s := traceState 5
       s.trace.buffer = [[5]] ∧ s.traceOn = true ∧ s.ledgerRoom 6 = true ∧ s.classSafe 2 6 = false)
    ∧ ({ traceState 5 with bell.fatal := true } : State).classSafe 2 6 = true := by decide +kernel

def servicer : Asker := { path := 3, source := 0, session := 0, tag := 1 }

/-- A PROVISIONED hub with one request in the engine. -/
def foldState (words : List Nat) (f : FoldSt → FoldSt) : State :=
  { State.reset with fold := f { State.reset.fold with lifecycle := 1, engine := [⟨words, servicer⟩], trngOk := true, standing := 0, spoiled := false } }

set_option maxRecDepth 100000 in
/-- Obligation FoldOperations, clause by clause. -/
theorem witness_FoldOperations :
    (let s := foldState [foldWord 6 0 3, 0, 0] id
     s.fold.engine.length < 5 ∧ s.fold.spoiled = false ∧ s.fold.standing = 0 ∧ s.fold.trngOk = true
     ∧ (s.foldRun ⟨[foldWord 6 0 3, 0, 0], servicer⟩).isNone = true ∧ s.fold.lifecycle = 1 ∧ s.lcKeys = true ∧ s.fold.root = none
     ∧ (s.slot 3).kind = 0 ∧ s.ownerHashes.length < 2)
    ∧ (let w := [foldWord 1 0 3, 1 * 2 ^ 15 + 4 * 2 ^ 9, 0] ++ List.replicate 16 5
       let s := foldState w id
       fillOk (1 * 2 ^ 15 + 4 * 2 ^ 9) 0 = true ∧ matWords (fld (1 * 2 ^ 15 + 4 * 2 ^ 9) 17 15) = 16 ∧ plain16 (List.replicate 16 5) = true
       ∧ (s.foldRun ⟨w, servicer⟩).isSome = true)
    ∧ 5 ≤ (foldState [] fun f => { f with engine := List.replicate 5 ⟨[], servicer⟩ }).fold.engine.length
    ∧ fld (foldWord 0 0 0) 17 12 = 0 ∧ 11 < fld (foldWord 12 0 0) 17 12
    ∧ (foldState [] fun f => { f with spoiled := true }).fold.spoiled = true ∧ State.reset.fold.lifecycle ≠ 1
    ∧ Tab.wf Slot.none State.reset.fold.slots = true
    ∧ ((foldState [] id).setOtp 1 { hash := some 5, revoked := false, point := [] }).otp 1 ≠ OtpKey.none
    ∧ (let s : State := { foldState [] id with power.state := .full }
       s.tamperArmed 1 = true ∧ (s.setCfg 0x0E007 0 0).tamperArmed 3 = false ∧ s.foldZero.workRuns = true)
    ∧ ({ foldState [] id with power.inReset := true } : State).foldZero.workRuns = false
    ∧ (foldState [] fun f => { f with root := some 5 }).fold.root ≠ none := by decide +kernel

/-- Staging in a state. -/
def updState (st : UState) (f : UpdateSt → UpdateSt) : State := { State.reset with upd := f { State.reset.upd with state := st } }

theorem crc32Bit_lt {c : Nat} {b : Bool} (h : c < 2 ^ 32) : crc32Bit c b < 2 ^ 32 := by
  have h1 : c >>> 1 < 2 ^ 32 := by rw [Nat.shiftRight_eq_div_pow]; omega
  unfold crc32Bit
  dsimp only
  split
  · exact Nat.xor_lt_two_pow h1 (by decide)
  · exact h1

theorem crc32_lt (l : List Nat) : crc32 l < 2 ^ 32 := by
  have fold {α : Type} {f : Nat → α → Nat} (hf : ∀ c a, c < 2 ^ 32 → f c a < 2 ^ 32) : ∀ (l : List α) (c : Nat), c < 2 ^ 32 → l.foldl f c < 2 ^ 32 := by
    intro l
    induction l with
    | nil => exact fun c h => h
    | cons a l ih => exact fun c h => ih _ (hf c a h)
  exact Nat.xor_lt_two_pow (fold (fun c a h => fold (fun c i h => crc32Bit_lt h) _ c h) l _ (by decide)) (by decide)

/-- Word 0 of a frame of INDEX 1 and n data words, zeros. -/
def frameData (n : Nat) : List Nat := 1 :: List.replicate n 0

/-- That frame with its CRC. -/
def frameOf (n : Nat) : List Nat := frameData n ++ [crcWords (frameData n) / 65536, crcWords (frameData n) % 65536]

/-- A frame of INDEX 1 that R560 finds nothing in, at staging that is EMPTY. -/
theorem witness_frame (n : Nat) (hn : n = 512) : (frameOf n).length = 515 ∧ ((frameOf n).map (BitVec.ofNat 18)).map BitVec.toNat = frameOf n
    ∧ fld ((frameOf n).getD 0 0) 9 0 = 1 ∧ (updState .empty id).frameCause (frameOf n) = 0 := by
  have hc : crcWords (frameData n) < 2 ^ 32 := crc32_lt _
  have hf : (frameData n).length = 513 := by unfold frameData; rw [List.length_cons, List.length_replicate, hn]
  have h1 : (crcWords (frameData n) / 65536) % 2 ^ 18 = crcWords (frameData n) / 65536 := Nat.mod_eq_of_lt (by omega)
  have h2 : (crcWords (frameData n) % 65536) % 2 ^ 18 = crcWords (frameData n) % 65536 := Nat.mod_eq_of_lt (by omega)
  have h3 : ((frameData n).map (BitVec.ofNat 18)).map BitVec.toNat = frameData n := by simp [frameData]
  have ht : (frameOf n).take 513 = frameData n := by unfold frameOf; rw [← hf, List.take_left]
  have hd : ((frameOf n).drop 1).take 512 = List.replicate n 0 := by
    show (List.replicate n 0 ++ [_, _]).take 512 = _
    exact List.take_left' (List.length_replicate.trans hn)
  have hx (k : Nat) : (frameOf n).getD (513 + k) 0 = [crcWords (frameData n) / 65536, crcWords (frameData n) % 65536].getD k 0 := by
    unfold frameOf
    rw [List.getD_append_right _ _ _ _ (by omega), hf, Nat.add_sub_cancel_left]
  refine ⟨by unfold frameOf; rw [List.length_append, hf]; rfl, ?_, rfl, ?_⟩
  · unfold frameOf
    rw [List.map_append, List.map_append, h3]
    simp only [List.map_cons, List.map_nil, BitVec.toNat_ofNat, h1, h2]
  · have hcrc : frameCrc (frameOf n) = true := by
      have e0 := hx 0
      have e1 := hx 1
      simp only [List.getD_cons_zero, List.getD_cons_succ] at e0 e1
      unfold frameCrc
      dsimp only
      rw [e0, e1, ht]
      simp only [Bool.and_eq_true, decide_eq_true_eq, beq_iff_eq]
      omega
    have ha : (List.replicate n 0).any (fun x => decide (65536 ≤ x)) = false := by simp
    unfold State.frameCause
    dsimp only
    rw [hd, hcrc, ha, if_neg (by rw [show (frameOf n).getD 0 0 = 1 from rfl]; decide), if_neg (by decide),
      if_neg (by rw [show frameIndex (frameOf n) = 1 from rfl]; decide), if_neg (by rintro ⟨a, _⟩; cases a)]

set_option maxRecDepth 100000 in
/-- Obligation UpdateCommands, clause by clause. -/
theorem witness_UpdateCommands :
    (updState .empty id).frameCause ((2 ^ 10 : Nat) :: List.replicate 514 0) = 1 ∧ fld (2 ^ 10) 9 0 = 0
    ∧ (updState .empty id).frameCause ((2 ^ 10 + 1 : Nat) :: List.replicate 514 0) = 1 ∧ fld (2 ^ 10 + 1) 9 0 = 1
    ∧ (updState .verified id).upd.state = .verified
    ∧ (let d := List.replicate 8 0 ++ [2]
       let s := updState .receiving fun u => { u with blocks := [(0, d), (1, [1])] }
       s.stagedBlocks = 2 ∧ s.upd.blocks.length = 2 ∧ s.stagedHeader = d)
    ∧ (updState .checking id).upd.state = .checking ∧ (updState .scheduled fun u => { u with actId := 4 }).upd.actId = 4
    ∧ (let s := updState .empty fun u => { u with profiles := [(1, { Profile.none with state := 1 })], busy := none, selected := 0 }
       s.upd.busy = none ∧ (s.profile 1).state = 1 ∧ s.table.stage = .empty ∧ s.power.state = .full ∧ ({ s with power.state := .light } : State).power.state ≠ .full ∧ s.activeHalf.cLength ≤ 393216
       ∧ s.table.valid = false ∧ s.table.stage ≠ .admitted)
    ∧ (updState .empty fun u => { u with busy := some (1, Profile.none) }).upd.busy = some (1, Profile.none)
    ∧ ({ State.reset with table.stage := .admitted, table.valid := true } : State).stagingHalf.cLength ≤ 393216 := by decide +kernel

/-- Gate 2 in a state. -/
def gateState (f : Gate → Gate) : State := State.reset.setGate 2 (f Gate.blank)
def sample (vin vout : Fin 4096) : GateSample := { vin := vin, vout := vout, i := 0, t := 0 }

theorem witness_GateStates :
    (gateState fun x => { x with state := .empty }).gateAt 2 = { Gate.blank with state := .empty }
    ∧ ((gateState fun x => { x with state := .on, tries := 3 }).gateAt 2).running = true
    ∧ ((gateState fun x => { x with state := .lockout }).gateAt 2).running = false
    ∧ (gateState fun x => { x with state := .damaged }).gateAt 2 ≠ Gate.blank
    ∧ (let s := (gateState fun x => { x with state := .ready, seatA := true, seatB := true, req := true })
       s.inWindow 2 (sample 240 0).vin = true ∧ (sample 240 0).t.val + 20 < fld (s.cfg 0x10004 2) 17 9 + 64
         ∧ (sample 240 0).vin.val ≤ (sample 240 240).vout.val + fld (s.cfg 0x10002 2) 12 8
         ∧ fld (s.cfg 0x10002 2) 27 21 * (sample 240 240).vin.val ≤ 100 * (sample 240 240).vout.val
         ∧ fld (s.cfg 0x10006 2) 9 3 * (sample 240 240).vin.val ≤ 100 * (sample 240 240).vout.val
         ∧ s.inWindow 2 (sample 100 0).vin = false ∧ s.classSafe 21 2 = false)
    ∧ (gateState id).workRuns = true ∧ ({ gateState id with power.inReset := true } : State).workRuns = false
    ∧ (gateState fun x => { x with seatA := true }).classSafe 21 2 = false
    ∧ 255 < min (255 + 1) 257 ∧ (Gate.blank).running = false := by
  decide +kernel

/-- The reset state in a power state. -/
def powerIn (p : PState) : State := { State.reset with power.state := p }

theorem witness_PowerCommandsAndSupplies :
    (powerIn .light).upd.good = true ∧ ¬ 3 ≤ (powerIn .full).level 369
    ∧ 3 ≤ ((powerIn .full).setSrc 369 { State.reset.src 369 with unack := 3, latch := true }).level 369
    ∧ (State.reset.power.supplies.getD 2 (0, 0)).1 = 0
    ∧ (({ State.reset with power.supplies := State.reset.power.supplies.set 8 (3, 0) } : State).power.supplies.getD 8 (0, 0)).1 ≠ 0
    ∧ (powerIn .light).workRuns = true ∧ (powerIn .dark).workRuns = false
    ∧ ((gateState fun x => { x with state := .on }).gateAt 2).running = true ∧ (State.reset.gateAt 2).running = false
    ∧ ((2 : Fin 4).val ≠ 0 ∧ ((17 : Fin 64).val < 9 ∨ 16 ≤ (17 : Fin 64).val ∧ (17 : Fin 64).val < 48) ∧ ((powerIn .keep).power.state ≠ .dark ∨ (2 : Fin 4).val = 3))
    ∧ ¬ ((15 : Fin 64).val < 9 ∨ 16 ≤ (15 : Fin 64).val ∧ (15 : Fin 64).val < 48) := by
  decide +kernel

/-- The reset state in a power state, with a source that waits. -/
def waiting (p : PState) (source : Nat) : State := { State.reset with power.state := p, power.source := source }

theorem witness_PowerStarts :
    ((∀ n < 9, ((waiting .light 0).power.supplies.getD n (0, 0)).1 = 0) ∧ bit (waiting .light 0).power.thresholds 2 = false ∧ (waiting .light 0).power.state ≠ .dark)
    ∧ ((∀ n < 9, ((waiting .deepKeep 8).power.supplies.getD n (0, 0)).1 = 0) ∧ bit (waiting .deepKeep 8).power.thresholds 2 = false)
    ∧ ¬ (∀ n < 9, (({ State.reset with power.supplies := State.reset.power.supplies.set 8 (3, 0) } : State).power.supplies.getD n (0, 0)).1 = 0)
    ∧ (waiting .light 0).power.breach = false ∧ (waiting .light 0).power.resetLow = false ∧ (waiting .light 0).power.inReset = false
    ∧ (waiting .deepKeep 12).power.source = 12 ∧ (waiting .light 0).upd.good = true ∧ bit ((waiting .light 0).cfg 0x01001) 35 = true
    ∧ bit (((waiting .light 0).setCfg 0x01001 0 0).cfg 0x01001) 35 = false
    ∧ (waiting .light 0).level 369 < 3 ∧ bit ((waiting .light 0).cfg 0x01100) 34 = false ∧ bit (((waiting .light 0).setCfg 0x01100 0 (2 ^ 34)).cfg 0x01100) 34 = true
    ∧ (let s : State := { waiting .keep 0 with muster.state := .listen }
       s.power.state = .keep ∧ s.muster.state = .listen ∧ ∀ n < 9, (s.power.supplies.getD n (0, 0)).1 = 0)
    ∧ (let s : State := { waiting .keep 0 with muster.state := .ebbed }
       s.power.state = .keep ∧ s.muster.state = .ebbed)
    ∧ (let s : State := { waiting .light 0 with muster.state := .ebbPending }
       s.muster.state = .ebbPending ∧ s.tideEnds.muster.wakeActive = false ∧ s.tideEnds.muster.vetoed = false ∧ s.tideEnds.level 369 < 3)
    ∧ (let s : State := { waiting .light 0 with muster.state := .ebbPending, muster.wakeActive := true }
       s.tideEnds.muster.wakeActive = true ∧ bit s.tideEnds.power.thresholds 2 = false)
    ∧ (let s : State := { waiting .light 0 with power.supplies := State.reset.power.supplies.set 8 (3, 0) }
       s.power.state = .light ∧ s.power.breach = false ∧ ¬ ∀ n < 9, (s.power.supplies.getD n (0, 0)).1 = 0)
    ∧ bit (waiting .light 0).power.thresholds 0 = false ∧ (waiting .light 0).workRuns = true ∧ (waiting .keep 0).workRuns = false := by
  decide +kernel

/-- A reading that every threshold and the trip is at or below, and one that clears all of them, whatever the part. -/
theorem witness_heat : (if Config.isX then 125 + 64 else 115 + 64) + 10 ≤ (511 : Fin 512).val
    ∧ (0 : Fin 512).val < (if Config.isX then 125 + 64 else 115 + 64) - 10 ∧ (0 : Fin 512).val ≤ (if Config.isX then 125 + 64 else 115 + 64) - 20 := by
  cases Config.isX <;> decide

theorem witness_VddaLossActsAsPllLoss :
    (State.reset.power.state = .keep ∨ State.reset.power.state = .light ∨ State.reset.power.state = .full) ∧ (State.reset.power.supplies.getD 7 (0, 0)).1 = 0
    ∧ (1 : Fin 4).val ≠ 0 ∧ State.reset.workRuns = true ∧ (waiting .light 11).mayWarm = true ∧ (waiting .light 11).power.source = 11 := by
  decide +kernel

/-- Obligation PenOffReadsAndWrites. -/
theorem witness_PenOffReadsAndWrites :
    (State.reset.penAt (5 : Fin 4096)).state = .off ∧ (State.reset.penAt (5 : Fin 4096)).agrees = true ∧ State.reset.classSafe 5 (5 : Fin 4096) = false
    ∧ ([7] : List Word) ≠ [] ∧ State.reset.penPacket (5 : Fin 4096) = false ∧ (State.reset.penAt (5 : Fin 4096)).discard = false
    ∧ (({ State.reset with pen.pens := [(5, { Pen.fresh with discard := true })] } : State).penAt (5 : Fin 4096)).discard = true := by
  decide +kernel

/-! ### Terms that are no commands, one for each check -/

theorem test_wf_offsets : wellFormed (.tileWake 0 (2 ^ 27)) = false ∧ wellFormed (.tileWake 0 (2 ^ 27 - 1)) = true
    ∧ wellFormed (.move 0 524288) = false ∧ wellFormed (.move 0 524287) = true
    ∧ wellFormed (.br 0 (2 ^ 27) 0 false) = false ∧ wellFormed (.br 0 0 (2 ^ 32) false) = false
    ∧ wellFormed (.ledgerStageGrant 2 4096 0) = false := by decide

theorem test_wf_words : wellFormed (.penAccessWrite 0 [0, 0, 0, 0, 0] false false) = false
    ∧ wellFormed (.unscheduledCellTransit 0 (List.replicate 31 0) 0 0 0) = false
    ∧ wellFormed (.unscheduledCellTransit 0 (List.replicate 32 0) 0 0 0) = true
    ∧ wellFormed (.unscheduledCellTransit 0 (List.replicate 32 0) 0 (2 ^ 27) 0) = false ∧ wellFormed (.scrubRead 0 (2 ^ 27)) = false
    ∧ wellFormed (.busFrameReceived 0 false false [0, 0, 0, 0, 0, 0, 0] 0) = false
    ∧ wellFormed (.ethFrameReceived 0 [256] true 0) = false
    ∧ wellFormed (.mirror 0 []) = false ∧ wellFormed (.mirror 0 (List.replicate 27 0)) = false
    ∧ wellFormed (.updateBlock [0, 0, 0, 0, 0, 0]) = false
    ∧ wellFormed (.bar2Write 2 [0] true false) = false ∧ wellFormed (.bar2Read 0 0 true) = false
    ∧ wellFormed (.quayRead 134217727 2 []) = false := by decide

theorem test_wf_fields : wellFormed (.clearLine false (2 ^ 29)) = false ∧ wellFormed (.fdbAgeExpiry 4096 0) = false
    ∧ wellFormed (.join 0 (2 ^ 18)) = false ∧ wellFormed (.timeSet (2 ^ 112)) = false
    ∧ wellFormed (.roster 0 0 none [none, none, none] 0) = false ∧ wellFormed (.roster 0 0 none [some (2 ^ 17), none, none, none] 0) = false
    ∧ wellFormed (.report 0 0 0 (2 ^ 71) 0 0 0 0) = false ∧ wellFormed (.report 0 0 0 (-2 ^ 71) 0 0 0 0) = true
    ∧ wellFormed (.bellAck 512 0 0) = false ∧ wellFormed (.pairDigest 0 [(1024, true, 0)]) = false
    ∧ wellFormed (.read { dictMsg with sub := 4096 }) = false ∧ wellFormed (.read dictMsg) = true
    ∧ wellFormed (.ptpSync { ptpMsg with seq := 65536 } false) = false ∧ wellFormed (.ptpSync ptpMsg false) = true := by decide

theorem test_wf_sizes : wellFormed (.msgRead 4609 ⟨true, 0⟩) = false ∧ wellFormed (.msgRead 4608 ⟨true, 0⟩) = true := by decide

/-! ### The worked cell's strokes and descriptors (chapter 14) -/

/-- A value of 72 bits from its words, w3 first. -/
def of72 (w3 w2 w1 w0 : Nat) : Nat := w3 * 2 ^ 54 + w2 * 2 ^ 36 + w1 * 2 ^ 18 + w0

theorem test_stroke_pin_in : Stroke.of (of72 0x10080 0x00800 0x0004C 0x10001)
    = { op := 8, sluice := 0, crit := 1, wake := false, rgen := 0, wgen := 0, tsel := 1, len := 0, start := 305, resv := 0, opnd := 1 } := by decide

theorem test_stroke_cell_tx : Stroke.of (of72 0x140C0 0x00B80 0x0005A 0x00010)
    = { op := 10, sluice := 0, crit := 1, wake := true, rgen := 0, wgen := 0, tsel := 1, len := 7, start := 360, resv := 0, opnd := 16 } := by decide

theorem test_stroke_pin_out : Stroke.of (of72 0x12220 0x00800 0x0000F 0x00000)
    = { op := 9, sluice := 1, crit := 0, wake := false, rgen := 1, wgen := 0, tsel := 1, len := 0, start := 60, resv := 0, opnd := 0 } := by decide

theorem test_descriptors : Desc.of (of72 0 0x33000 0 1) = { abank := 0, aline := 0, fm := 0xC, lm := 0xC, b := 1 }
    ∧ (let d := Desc.of (of72 0 0x3FC00 0x00016 0x090E1)
       d.fm = 15 ∧ d.lm = 15 ∧ d.b = 0x16 * 2 ^ 18 + 0x090E1)
    ∧ Desc.of (of72 0 0x0CC00 0 0x10) = { abank := 0, aline := 0, fm := 3, lm := 3, b := 16 } := by decide

/-! ### The worked drover programs (chapter 7) -/

/-- What a command leaves of a state. -/
def after {α : Type} (c : Instr) (s : State) (f : State → α) : Option α :=
  match exec c s with
  | .next t => some (f t)
  | _ => none

/-- PUT X, 16. -/
theorem test_put : after (.put_ 0 0 0 false) (droverState 0x1C110) (fun t => (t.drover 0).x) = some 16 := by decide

/-- STEP CNT, +1. -/
theorem test_step : after (.step_ 0 0 0 false) (droverIn 0x20601 fun x => { x with cnt := 5 }) (fun t => (t.drover 0).cnt) = some 6 := by decide

/-- BR ALWAYS, 3. -/
theorem test_br_always : after (.br 0 0 0 true) (droverState 0x00003) (fun t => (t.drover 0).pc) = some 3 := by decide

/-- BR XDJ, 3 with X at 0 branches and leaves 0x3_FFFF. -/
theorem test_br_xdj : after (.br 0 0 0 true) (droverState 0x00103) (fun t => ((t.drover 0).pc, (t.drover 0).x)) = some (3, 0x3FFFF) := by decide

/-- SHIN SENSE pins, 1 with the first sense pin high. -/
theorem test_shin : after (.shin 0 0 1 false) (droverIn 0x08001 fun x => { x with inwin := 2 ^ 20 })
    (fun t => (t.drover 0).sinFill) = some 1 := by decide

/-! ### Rules with a value that follows by hand -/

/-- The order of R154: GOOD, FORCED, HELD, BAD, by their codes 0, 2, 1, 3. -/
theorem test_worst : worst 0 2 = 2 ∧ worst 2 1 = 1 ∧ worst 1 2 = 1 ∧ worst 3 1 = 3 := by decide

/-- The check value of the IEEE 802.3 CRC-32 over the digits 1 to 9. -/
theorem test_crc32 : crc32 [0x31, 0x32, 0x33, 0x34, 0x35, 0x36, 0x37, 0x38, 0x39] = 0xCBF43926 := by decide +kernel

/-- One second is SECONDS 1 of R392. -/
theorem test_time : timeVal tickPerS = 2 ^ 48 ∧ timeUnits (2 ^ 48 + 2 ^ 16) = tickPerS + tickPerNs := by decide

/-- POWER_CMD KEEP waits for the end of the tide in FULL (R604) and is BAD_STATE in LIGHT. -/
theorem test_power_keep : after .powerKeep (powerIn .full) (fun t => t.power.request) = some 3
    ∧ after .powerKeep (powerIn .light) (fun t => (t.power.request, t.outbox.map fun o => o.words)) = some (0, [[aBadState]]) := by decide +kernel

/-- In DEEP KEEP a supply that leaves UP is only noted (R598). -/
theorem test_supply : after (.supplyStateChange 5 1 900) (powerIn .deepKeep) (fun t => (t.power.inReset, t.supplyUp 5, t.outbox)) = some (false, false, []) := by decide +kernel

/-- An ON gate whose fast comparator trips counts a try and cools down (R581, R583). -/
theorem test_gate_trip : after (.fastCurrentTrip 2) (gateState fun x => { x with state := .on, seatA := true, seatB := true })
    (fun t => ((t.gateAt 2).state, (t.gateAt 2).tries, (t.gateAt 2).cause)) = some (.cooldown, 1, 4) := by decide +kernel

/-- A gate command outside its state (R579). -/
theorem test_gate_on : after (.gateOn 2) (gateState id) (fun t => (t.outbox.map fun o => o.words, (t.gateAt 2).req)) = some ([[aBadState]], false) := by decide +kernel


end Sys2Proof.Tests
end

section
/-! What the commands of the muster do, case by case (R363 to R376), and the obligation MusterElection. -/

open Sys2Proof Sys2Proof.Machine Sys2Proof.Laws

namespace Sys2Proof.Laws

/-! ### Shared operations -/

/-- While the shepherd cores run, what they do happens (R31). -/
theorem byShepherd_up {s : State} (up : s.dict.shepherds = true) (f : State → State) : s.byShepherd f = f s := if_pos up

/-- While they restart, it waits (R31). -/
theorem byShepherd_down {s : State} (down : s.dict.shepherds = false) (f : State → State) : s.byShepherd f = s :=
  if_neg (by simp [down])

@[simp] theorem fire_muster (s : State) (n inst detail : Nat) (forced : Bool) :
    (s.fire n inst detail forced).muster = s.muster := (fires_fire s n inst detail forced (Fires.refl s)).muster

@[simp] theorem musterCount_muster (s : State) (k : Nat) : (s.musterCount k).muster = s.muster := rfl

@[simp] theorem syntonise_muster (s : State) : s.syntonise.muster = s.muster := by
  unfold State.syntonise
  dsimp only
  split
  · rfl
  · exact fire_muster _ _ _ _ _

/-- What a station that elects anew holds of the muster (R376). -/
theorem remusterNow_muster (s : State) : s.remusterNow.muster =
    { s.muster with state := .listen, role := 0, flooded := false, standin := false, lost := false, acting := false,
                    ebb := .awake, joinReady := false } :=
  syntonise_muster _

/-- One of another PART is answered by REJECT, and not compared (R364). -/
theorem claimCopy_foreign (s : State) {dir src claimw part nonce hops : Nat} {wrapped : Bool} {pay : List Nat} (hp : part ≠ 0x400) :
    s.claimCopy dir src claimw part nonce hops wrapped pay = s.sendReject src 1 part := if_pos hp

/-! ### CLAIM, on a link that is UP; u is the station once it has heard the copy -/

section Claim
variable {s u : State} {dir : Fin 4} {src : Fin 2048} {claimw part nonce hops : Nat} {wrapped : Bool}

theorem claim_linkDown (hl : s.linkUp (dirOut (dirWrap dir)) = false) :
    execClaim dir src claimw part nonce hops wrapped s = .next s := by
  simp [execClaim, State.byShepherd, hl]

variable (up : s.dict.shepherds = true) (hl : s.linkUp (dirOut (dirWrap dir)) = true)
  (hu : s.heard (dirOut (dirWrap dir)) 3 src hops wrapped [put 14 4 2, claimw, part, nonce] = u)
include up hl hu

theorem claim_listen_foreign (hm : u.muster.state = .listen) (hp : part ≠ 0x400) :
    execClaim dir src claimw part nonce hops wrapped s
      = .next (u.claimCopy dir src claimw part nonce hops wrapped [put 14 4 2, claimw, part, nonce]) := by
  simp [execClaim, byShepherd_up up, hl, hu, hm, hp]

theorem claim_listen_flooded (hm : u.muster.state = .listen) (hp : part = 0x400) (hf : u.muster.flooded = true) :
    execClaim dir src claimw part nonce hops wrapped s
      = .next (u.ownBest.claimCopy dir src claimw part nonce hops wrapped [put 14 4 2, claimw, part, nonce]) := by
  subst hp
  simp [execClaim, byShepherd_up up, hl, hu, hm, hf]

theorem claim_listen (hm : u.muster.state = .listen) (hp : part = 0x400) (hf : u.muster.flooded = false) :
    execClaim dir src claimw part nonce hops wrapped s
      = .next (((u.toMuster .claiming).claimNow false).claimCopy dir src claimw part nonce hops wrapped
          [put 14 4 2, claimw, part, nonce]) := by
  subst hp
  simp [execClaim, byShepherd_up up, hl, hu, hm, hf]

theorem claim_electing (hm : u.muster.state = .claiming ∨ u.muster.state = .yielded) :
    execClaim dir src claimw part nonce hops wrapped s
      = .next (u.claimCopy dir src claimw part nonce hops wrapped [put 14 4 2, claimw, part, nonce]) := by
  rcases hm with hm | hm <;> simp [execClaim, byShepherd_up up, hl, hu, hm]

theorem claim_onlyHeard (hL : u.muster.state ≠ .listen) (hC : u.muster.state ≠ .claiming) (hY : u.muster.state ≠ .yielded) :
    execClaim dir src claimw part nonce hops wrapped s = .next u := by
  cases hm : u.muster.state
  case listen => exact absurd hm hL
  case claiming => exact absurd hm hC
  case yielded => exact absurd hm hY
  all_goals simp [execClaim, byShepherd_up up, hl, hu, hm]

end Claim

/-! ### STANDIN, on a link that is UP; u is the station once it has heard the copy and seen its epoch -/

section Standin
variable {s u : State} {dir : Fin 4} {src : Fin 2048} {claimw part nonce epoch hops : Nat} {wrapped : Bool}

theorem standin_linkDown (hl : s.linkUp (dirOut (dirWrap dir)) = false) :
    execStandin dir src claimw part nonce epoch hops wrapped s = .next s := by
  simp [execStandin, State.byShepherd, hl]

variable (up : s.dict.shepherds = true) (hl : s.linkUp (dirOut (dirWrap dir)) = true)
  (hu : (s.heard (dirOut (dirWrap dir)) 3 src hops wrapped [put 14 4 3, claimw, part, nonce, epoch]).seeEpoch epoch = u)
include up hl hu

theorem standin_member_foreign (hm : u.muster.state = .member) (hp : part ≠ 0x400) :
    execStandin dir src claimw part nonce epoch hops wrapped s
      = .next (u.claimCopy dir src claimw part nonce hops wrapped [put 14 4 3, claimw, part, nonce, epoch]) := by
  simp [execStandin, byShepherd_up up, hl, hu, hm, hp]

theorem standin_member_ofEpoch (hm : u.muster.state = .member) (hp : part = 0x400) (he : epoch = s.muster.epoch)
    (hr : u.muster.role = 0) :
    execStandin dir src claimw part nonce epoch hops wrapped s
      = .next ((if u.muster.standin then u else { u with muster.best := u.ownClaim }).claimCopy dir src claimw part nonce hops
          wrapped [put 14 4 3, claimw, part, nonce, epoch]) := by
  subst hp
  simp [execStandin, byShepherd_up up, hl, hu, hm, he.symm, hr]

theorem standin_member_other (hm : u.muster.state = .member) (hp : part = 0x400)
    (ho : epoch ≠ s.muster.epoch ∨ u.muster.role ≠ 0) :
    execStandin dir src claimw part nonce epoch hops wrapped s = .next u := by
  have hn : ¬(s.muster.epoch = epoch ∧ u.muster.role = 0) := fun ⟨he, hr⟩ => ho.elim (· he.symm) (· hr)
  subst hp
  simp [execStandin, byShepherd_up up, hl, hu, hm, hn]

theorem standin_listen_ofEpoch (hm : u.muster.state = .listen) (hp : part = 0x400) (he : epoch = s.muster.epoch)
    (hf : u.muster.flooded = true) :
    execStandin dir src claimw part nonce epoch hops wrapped s
      = .next (((u.toMuster .claiming).standinNow).claimCopy dir src claimw part nonce hops wrapped
          [put 14 4 3, claimw, part, nonce, epoch]) := by
  subst hp
  simp [execStandin, byShepherd_up up, hl, hu, hm, he.symm, hf]

theorem standin_listen_other (hm : u.muster.state = .listen)
    (ho : part ≠ 0x400 ∨ epoch ≠ s.muster.epoch ∨ u.muster.flooded = false) :
    execStandin dir src claimw part nonce epoch hops wrapped s
      = .next (u.ownBest.claimCopy dir src claimw part nonce hops wrapped [put 14 4 3, claimw, part, nonce, epoch]) := by
  have hn : ¬(part = 0x400 ∧ u.muster.flooded = true ∧ s.muster.epoch = epoch) := by
    rintro ⟨hp, hf, he⟩
    simp [hp, hf, he] at ho
  simp [execStandin, byShepherd_up up, hl, hu, hm, hn]

theorem standin_electing (hm : u.muster.state = .claiming ∨ u.muster.state = .yielded) :
    execStandin dir src claimw part nonce epoch hops wrapped s
      = .next (u.claimCopy dir src claimw part nonce hops wrapped [put 14 4 3, claimw, part, nonce, epoch]) := by
  rcases hm with hm | hm <;> simp [execStandin, byShepherd_up up, hl, hu, hm]

theorem standin_onlyHeard (hM : u.muster.state ≠ .member) (hL : u.muster.state ≠ .listen) (hC : u.muster.state ≠ .claiming)
    (hY : u.muster.state ≠ .yielded) :
    execStandin dir src claimw part nonce epoch hops wrapped s = .next u := by
  cases hm : u.muster.state
  case member => exact absurd hm hM
  case listen => exact absurd hm hL
  case claiming => exact absurd hm hC
  case yielded => exact absurd hm hY
  all_goals simp [execStandin, byShepherd_up up, hl, hu, hm]

end Standin

/-! ### The timers of a claim and of a JOIN -/

section Timers
variable {s : State}

theorem claimRepeatExpiry_none (hC : s.muster.state ≠ .claiming)
    (hS : s.muster.state ≠ .member ∨ s.muster.standin = false ∨ s.muster.best ≠ s.ownClaim) :
    execClaimRepeatExpiry s = .next s := by
  have hn : ¬(s.muster.state = .claiming ∨ (s.muster.state = .member ∧ s.muster.standin = true ∧ s.muster.best = s.ownClaim)) := by
    rintro (hc | ⟨hm, hs, hb⟩)
    · exact hC hc
    · simp [hm, hs, hb] at hS
  simp [execClaimRepeatExpiry, State.byShepherd, hn]

variable (up : s.dict.shepherds = true)
include up

theorem claimListenExpiry_listen (hm : s.muster.state = .listen) (hf : s.muster.flooded = false) :
    execClaimListenExpiry s = .next ((s.toMuster .claiming).claimNow false) := by
  simp [execClaimListenExpiry, byShepherd_up up, hm, hf]

theorem claimListenExpiry_other (ho : s.muster.state ≠ .listen ∨ s.muster.flooded = true) :
    execClaimListenExpiry s = .next s := by
  rcases ho with hm | hf
  · simp [execClaimListenExpiry, byShepherd_up up, hm]
  · simp [execClaimListenExpiry, byShepherd_up up, hf]

theorem electLimitExpiry_yielded (hm : s.muster.state = .yielded) :
    execElectLimitExpiry s = .next ((s.toMuster .claiming).claimNow s.muster.standin) := by
  simp [execElectLimitExpiry, byShepherd_up up, hm]

theorem electLimitExpiry_other (hm : s.muster.state ≠ .yielded) : execElectLimitExpiry s = .next s := by
  simp [execElectLimitExpiry, byShepherd_up up, hm]

theorem claimRepeatExpiry_claiming (hm : s.muster.state = .claiming) : execClaimRepeatExpiry s = .next s.sendClaim := by
  simp [execClaimRepeatExpiry, byShepherd_up up, hm]

theorem claimRepeatExpiry_standin (hm : s.muster.state = .member) (hs : s.muster.standin = true)
    (hb : s.muster.best = s.ownClaim) : execClaimRepeatExpiry s = .next s.sendClaim := by
  simp [execClaimRepeatExpiry, byShepherd_up up, hm, hs, hb]

theorem joinRepeatExpiry_joining (hm : s.muster.state = .joining) :
    execJoinRepeatExpiry s = .next (s.broadcast 3 [put 14 4 6, s.muster.epoch]) := by
  simp [execJoinRepeatExpiry, byShepherd_up up, hm]

theorem joinRepeatExpiry_other (hm : s.muster.state ≠ .joining) : execJoinRepeatExpiry s = .next s := by
  simp [execJoinRepeatExpiry, byShepherd_up up, hm]

end Timers

/-! ### MUSTER_HELLO, ROSTER, SET, JOIN, REJECT and REMUSTER -/

section Messages
variable {s : State} {l : Fin 4} {src : Fin 2048} {epoch : Nat}

theorem musterHello_linkDown (hl : s.linkUp l = false) : execMusterHello l src epoch s = .next s := by
  simp [execMusterHello, State.byShepherd, hl]

variable (up : s.dict.shepherds = true)
include up

theorem musterHello_west (hl : s.linkUp l = true) (h1 : l.val = 1) : execMusterHello l src epoch s = .next
    { (s.heard l 3 src 1 false [put 14 4 1, epoch]).seeEpoch epoch with muster.west := some src.val } := by
  simp only [execMusterHello, byShepherd_up up, hl, if_pos h1, Bool.not_true, Bool.false_eq_true, if_false]

theorem musterHello_other (hl : s.linkUp l = true) (h1 : l.val ≠ 1) : execMusterHello l src epoch s = .next
    ((s.heard l 3 src 1 false [put 14 4 1, epoch]).seeEpoch epoch) := by
  simp [execMusterHello, byShepherd_up up, hl, h1]

section Roster
variable {claimw : Nat} {west : Option (Fin 2048)} {d : List (Option Nat)}

theorem roster_ofEpoch (hs : src.val ≠ s.station) :
    let u := s.seeEpoch s.muster.epoch
    execRoster src claimw west d s.muster.epoch s = .next
      ({ u with muster.roster := Tab.set none u.muster.roster src (some ⟨claimw, west.map Fin.val, cells d none 4⟩) }.repath).syntonise := by
  dsimp only [execRoster]
  rw [byShepherd_up up, if_pos ⟨rfl, hs⟩]

theorem roster_other (ho : epoch ≠ s.muster.epoch ∨ src.val = s.station) :
    execRoster src claimw west d epoch s = .next (s.seeEpoch epoch) := by
  dsimp only [execRoster]
  rw [byShepherd_up up, if_neg fun ⟨he, hs⟩ => ho.elim (· he) hs]

end Roster

section Set
variable {p first start : Nat} (stations : Nat) {resume : Bool}

theorem set_own (hs : src.val = s.station) : execSet l src epoch resume p first start stations s = .next s := by
  simp [execSet, byShepherd_up up, hs]

theorem set_malformed (hs : src.val ≠ s.station) (ht : timeOk start = false) :
    execSet l src epoch resume p first start stations s = .next ((s.musterCount 7).fire 179 l) := by
  simp [execSet, byShepherd_up up, hs, ht]

theorem set_laterCopy (hs : src.val ≠ s.station) (ht : timeOk start = true)
    (hc : s.firstCopy src 3 5 ((epoch * 2 + if resume then 1 else 0) * 2 ^ 36 + first) = none) :
    execSet l src epoch resume p first start stations s = .next s := by
  simp only [execSet, byShepherd_up up, hs, ht, hc]
  rfl

theorem set_firstCopy {u : State} (hs : src.val ≠ s.station) (ht : timeOk start = true)
    (hc : s.firstCopy src 3 5 ((epoch * 2 + if resume then 1 else 0) * 2 ^ 36 + first) = some u) :
    execSet l src epoch resume p first start stations s = .next (if resume
      then (u.seeEpoch epoch).takeResume src epoch p first (timeUnits start)
      else (u.seeEpoch epoch).takeSet src epoch p first (timeUnits start)) := by
  simp only [execSet, byShepherd_up up, hs, ht, hc]
  rfl

end Set

theorem join_none (ho : src.val = s.station ∨ (s.seeEpoch epoch).firstJoin src = none) :
    execJoin src epoch s = .next s := by
  by_cases hs : src.val = s.station
  · simp [execJoin, byShepherd_up up, hs]
  · simp [execJoin, byShepherd_up up, hs, ho.resolve_left hs]

theorem join_roster {u : State} (hs : src.val ≠ s.station) (hj : (s.seeEpoch epoch).firstJoin src = some u)
    (hS : u.muster.state ≠ .solo) (hE : u.muster.state ≠ .ebbed) : execJoin src epoch s = .next u.wantRoster := by
  cases hm : u.muster.state
  case solo => exact absurd hm hS
  case ebbed => exact absurd hm hE
  all_goals simp [execJoin, byShepherd_up up, hs, hj, hm]

theorem join_silent {u : State} (hs : src.val ≠ s.station) (hj : (s.seeEpoch epoch).firstJoin src = some u)
    (hm : u.muster.state = .solo ∨ u.muster.state = .ebbed) : execJoin src epoch s = .next u := by
  rcases hm with hm | hm <;> simp [execJoin, byShepherd_up up, hs, hj, hm]

theorem reject_fires {reason : Fin 8} (hr : reason.val = 1 ∨ reason.val = 2) :
    execReject l src reason s = .next (s.fire 195 src reason) := by
  simp only [execReject, byShepherd_up up, if_pos hr]

theorem reject_reserved {reason : Fin 8} (h1 : reason.val ≠ 1) (h2 : reason.val ≠ 2) :
    execReject l src reason s = .next ((s.musterCount 7).fire 179 l) := by
  simp only [execReject, byShepherd_up up, if_neg (not_or.mpr ⟨h1, h2⟩)]

theorem remuster_idle (hm : s.muster.state = .solo ∨ s.muster.state = .ebbed) : execRemuster src epoch s = .next s := by
  rcases hm with hm | hm <;> simp [execRemuster, byShepherd_up up, hm]

theorem remuster_laterCopy (hc : s.firstCopy src 3 8 epoch = none) : execRemuster src epoch s = .next s := by
  cases hm : s.muster.state <;> simp [execRemuster, byShepherd_up up, hm, hc]

theorem remuster_firstCopy {u : State} (hS : s.muster.state ≠ .solo) (hE : s.muster.state ≠ .ebbed)
    (hc : s.firstCopy src 3 8 epoch = some u) : execRemuster src epoch s = .next (u.seeEpoch epoch).remusterNow := by
  cases hm : s.muster.state
  case solo => exact absurd hm hS
  case ebbed => exact absurd hm hE
  all_goals simp [execRemuster, byShepherd_up up, hm, hc]

theorem remusterCmd_idle (hm : s.muster.state = .solo ∨ s.muster.state = .ebbed) :
    execRemusterCmd s = .next (s.abort 0x08016 7) := by
  rcases hm with hm | hm <;> simp [execRemusterCmd, byShepherd_up up, State.remusterOp, hm]

theorem remusterCmd_takesPart (hS : s.muster.state ≠ .solo) (hE : s.muster.state ≠ .ebbed) :
    execRemusterCmd s = .next s.sendRemuster := by
  cases hm : s.muster.state
  case solo => exact absurd hm hS
  case ebbed => exact absurd hm hE
  all_goals simp [execRemusterCmd, byShepherd_up up, State.remusterOp, hm]

end Messages
end Sys2Proof.Laws

namespace Sys2Proof.Proofs

/-- Settles O37: each clause is the case of that name of the commands above. -/
theorem musterElection : Obligations.MusterElection := by
  refine ⟨fun s down => congrArg _ (byShepherd_down down _), fun s up => ⟨?claim, ?standin, ?linkDown, ?listenExpiry, ?listenOther,
    ?electExpiry, ?electOther, ?repeatClaiming, ?repeatStandin, ?repeatOther, ?hello, ?rosterOfEpoch, ?rosterOther, ?set, ?join,
    ?joinExpiryOther, ?joinExpiry, ?reject, ?rejectReserved, ?remuster, ?remusterLater, ?remusterIdle, ?remusterCmd,
    ?remusterCmdIdle⟩⟩
  case claim =>
    intro dir src claimw part nonce hops wrapped hl
    exact ⟨claim_listen_foreign up hl rfl, claim_listen_flooded up hl rfl, claim_listen up hl rfl, claim_electing up hl rfl,
      claim_onlyHeard up hl rfl, claimCopy_foreign _⟩
  case standin =>
    intro dir src claimw part nonce epoch hops wrapped hl
    exact ⟨standin_member_foreign up hl rfl, standin_member_ofEpoch up hl rfl, standin_member_other up hl rfl,
      standin_listen_ofEpoch up hl rfl, standin_listen_other up hl rfl, standin_electing up hl rfl, standin_onlyHeard up hl rfl⟩
  case linkDown => exact fun dir src claimw part nonce epoch hops wrapped hl => ⟨claim_linkDown hl, standin_linkDown hl⟩
  case listenExpiry => exact claimListenExpiry_listen up
  case listenOther => exact claimListenExpiry_other up
  case electExpiry => exact electLimitExpiry_yielded up
  case electOther => exact electLimitExpiry_other up
  case repeatClaiming => exact claimRepeatExpiry_claiming up
  case repeatStandin => exact claimRepeatExpiry_standin up
  case repeatOther => exact claimRepeatExpiry_none
  case hello => exact fun l src epoch => ⟨musterHello_west up, musterHello_other up, musterHello_linkDown⟩
  case rosterOfEpoch => exact fun src claimw west d hs => roster_ofEpoch up hs
  case rosterOther => exact fun src claimw west d epoch ho => roster_other up ho
  case set =>
    intro l src epoch p first start stations resume
    refine ⟨set_own up stations, set_malformed up stations, set_laterCopy up stations, fun u hs ht hc => ⟨fun hr => ?_, fun hr => ?_⟩⟩
    · exact (set_firstCopy up stations hs ht hc).trans (by rw [if_pos hr])
    · exact (set_firstCopy up stations hs ht hc).trans (by rw [if_neg (by simp [hr])])
  case join => exact fun src epoch => ⟨join_none up, fun u hs hj => ⟨join_roster up hs hj, join_silent up hs hj⟩⟩
  case joinExpiryOther => exact joinRepeatExpiry_other up
  case joinExpiry => exact joinRepeatExpiry_joining up
  case reject => exact fun l src reason => reject_fires up
  case rejectReserved => exact fun l src reason => reject_reserved up
  case remuster =>
    intro src epoch u hS hE hc
    refine ⟨_, remuster_firstCopy up hS hE hc, ?_⟩
    rw [remusterNow_muster]
    exact ⟨rfl, rfl, rfl⟩
  case remusterLater => exact fun src epoch => remuster_laterCopy up
  case remusterIdle => exact fun src epoch => remuster_idle up
  case remusterCmd =>
    intro hS hE
    refine ⟨_, remusterCmd_takesPart up hS hE, ?_⟩
    rw [State.sendRemuster, remusterNow_muster]
    exact ⟨rfl, rfl⟩
  case remusterCmdIdle => exact remusterCmd_idle up

end Sys2Proof.Proofs
end

section
/-! What the commands of the ebb round do, case by case (R377 to R381, R388, R390), and the obligation EbbRounds. -/

open Sys2Proof Sys2Proof.Machine Sys2Proof.Laws

namespace Sys2Proof.Laws

/-- Where a round may start (R377). -/
theorem mayRound_iff (s : State) :
    s.mayRound = true ↔ s.muster.role = 1 ∧ s.muster.state = .member ∧ s.muster.ebb = .awake := by
  simp [State.mayRound, and_assoc]

section Ebb
variable {s : State} {l : Fin 4} {src : Fin 2048} {n : Nat} (up : s.dict.shepherds = true)
include up

/-! ### Commands and timers of the tide master -/

theorem startRound_opens (hr : s.muster.role = 1) (hm : s.muster.state = .member) (hb : s.muster.ebb = .awake) :
    execStartRound s = .next s.roundNow := by
  have hmay := (mayRound_iff s).mpr ⟨hr, hm, hb⟩
  simp [execStartRound, byShepherd_up up, State.startRoundOp, hmay]

theorem startRound_badState (ho : s.muster.role ≠ 1 ∨ s.muster.state ≠ .member ∨ s.muster.ebb ≠ .awake) :
    execStartRound s = .next (s.abort 0x01103 7) := by
  have hmay : ¬s.mayRound = true := by
    rw [mayRound_iff]
    rintro ⟨hr, hm, hb⟩
    simp [hr, hm, hb] at ho
  simp [execStartRound, byShepherd_up up, State.startRoundOp, hmay]

theorem cancelRound_cancels (hr : s.muster.role = 1) (hb : s.muster.ebb = .roundOpen ∨ s.muster.ebb = .pending) :
    execCancelRound s = .next (s.cancelNow 6 s.station) := by
  simp only [execCancelRound, byShepherd_up up, State.cancelRoundOp, if_pos (And.intro hr hb)]

theorem cancelRound_badState (ho : s.muster.role ≠ 1 ∨ (s.muster.ebb ≠ .roundOpen ∧ s.muster.ebb ≠ .pending)) :
    execCancelRound s = .next (s.abort 0x01103 7) := by
  have hn : ¬(s.muster.role = 1 ∧ (s.muster.ebb = .roundOpen ∨ s.muster.ebb = .pending)) :=
    fun ⟨hr, hb⟩ => ho.elim (· hr) fun ⟨hO, hP⟩ => hb.elim hO hP
  simp only [execCancelRound, byShepherd_up up, State.cancelRoundOp, if_neg hn]

theorem roundIntervalExpiry_opens (hauto : bit (s.cfg 0x01100) 33 = true) (hmay : s.mayRound = true) :
    execRoundIntervalExpiry s = .next s.roundNow := by
  simp [execRoundIntervalExpiry, byShepherd_up up, hauto, hmay]

theorem roundIntervalExpiry_none (ho : bit (s.cfg 0x01100) 33 = false ∨ s.mayRound = false) :
    execRoundIntervalExpiry s = .next s := by
  rcases ho with hauto | hmay
  · simp [execRoundIntervalExpiry, byShepherd_up up, hauto]
  · simp [execRoundIntervalExpiry, byShepherd_up up, hmay]

theorem roundLimitExpiry_cancels (hr : s.muster.role = 1) (hb : s.muster.ebb = .roundOpen) :
    execRoundLimitExpiry s = .next (s.cancelNow 3 s.station) := by
  simp [execRoundLimitExpiry, byShepherd_up up, hr, hb]

theorem roundLimitExpiry_none (ho : s.muster.role ≠ 1 ∨ s.muster.ebb ≠ .roundOpen) : execRoundLimitExpiry s = .next s := by
  rcases ho with hr | hb
  · simp [execRoundLimitExpiry, byShepherd_up up, hr]
  · simp [execRoundLimitExpiry, byShepherd_up up, hb]

/-! ### ROUND -/

section Round
variable {u : State} (hs : src.val ≠ s.station) (hc : s.firstCopy src 4 2 n = some u)
include hs hc

theorem round_member (hm : u.muster.state = .member) : execRound src n s = .next
    ({ u with muster.round := n, muster.ebb := .roundOpen, muster.reason := 0 } : State).answer := by
  simp [execRound, byShepherd_up up, hs, hc, hm]

theorem round_coming (hm : u.muster.state = .listen ∨ u.muster.state = .claiming ∨ u.muster.state = .yielded
      ∨ u.muster.state = .joining) :
    execRound src n s = .next { u with muster.round := n, muster.ebb := .roundOpen, muster.reason := 0 } := by
  rcases hm with hm | hm | hm | hm <;> simp [execRound, byShepherd_up up, hs, hc, hm]

theorem round_onlyNoted (hM : u.muster.state ≠ .member) (ho : ¬(u.muster.state = .listen ∨ u.muster.state = .claiming
      ∨ u.muster.state = .yielded ∨ u.muster.state = .joining)) :
    execRound src n s = .next u := by
  cases hm : u.muster.state
  case member => exact absurd hm hM
  case listen => exact absurd (.inl hm) ho
  case claiming => exact absurd (.inr (.inl hm)) ho
  case yielded => exact absurd (.inr (.inr (.inl hm))) ho
  case joining => exact absurd (.inr (.inr (.inr hm))) ho
  all_goals simp [execRound, byShepherd_up up, hs, hc, hm]

end Round

theorem round_none (ho : s.firstCopy src 4 2 n = none ∨ src.val = s.station) : execRound src n s = .next s := by
  by_cases hs : src.val = s.station
  · simp [execRound, byShepherd_up up, hs]
  · simp [execRound, byShepherd_up up, hs, ho.resolve_right hs]

/-! ### CONSENT and VETO -/

theorem consent_noted (hr : s.muster.role = 1) (hb : s.muster.ebb = .roundOpen) :
    execConsent src s.muster.round s = .next (s.consentOf src) := by
  simp [execConsent, byShepherd_up up, hr, hb]

theorem consent_none (ho : s.muster.role ≠ 1 ∨ n ≠ s.muster.round) : execConsent src n s = .next s := by
  rcases ho with hr | hn
  · simp [execConsent, byShepherd_up up, hr]
  · simp [execConsent, byShepherd_up up, hn]

theorem veto_noted {need : Nat} (hr : s.muster.role = 1) :
    execVeto src s.muster.round need s = .next (s.vetoOf src (need % 256)) := by
  simp [execVeto, byShepherd_up up, hr]

theorem veto_none {need : Nat} (ho : s.muster.role ≠ 1 ∨ n ≠ s.muster.round) : execVeto src n need s = .next s := by
  rcases ho with hr | hn
  · simp [execVeto, byShepherd_up up, hr]
  · simp [execVeto, byShepherd_up up, hn]

/-! ### COMMIT -/

theorem commit_malformed {at_ : Nat} (ht : timeOk at_ = false) :
    execCommit l src n at_ s = .next ((s.musterCount 7).fire 179 l) := by
  simp [execCommit, byShepherd_up up, ht]

theorem commit_firstCopy {at_ : Nat} {u : State} (ht : timeOk at_ = true) (hm : s.muster.state = .member)
    (hl : s.muster.lost = false) (hr : s.muster.role = 0) (hv : s.muster.void ≠ some n)
    (hn : s.muster.round ≠ n ∨ s.muster.reason < 2) (hc : s.firstCopy src 4 5 n = some u) :
    execCommit l src n at_ s = .next { u with
      muster.state := .ebbPending, muster.round := n, muster.ebb := .pending, muster.reason := 1,
      muster.ebbAt := timeUnits at_ } := by
  have taken : s.muster.state = .member ∧ s.muster.lost = false ∧ s.muster.role = 0 ∧ s.muster.void ≠ some n
      ∧ ¬(s.muster.round = n ∧ 2 ≤ s.muster.reason) := ⟨hm, hl, hr, hv, by omega⟩
  simp only [execCommit, byShepherd_up up, ht, Bool.not_true, Bool.false_eq_true, if_false, if_pos taken, hc]

theorem commit_none {at_ : Nat} (ht : timeOk at_ = true) (ho : s.muster.state ≠ .member ∨ s.muster.lost = true
      ∨ s.muster.role ≠ 0 ∨ s.muster.void = some n ∨ (s.muster.round = n ∧ 2 ≤ s.muster.reason)
      ∨ s.firstCopy src 4 5 n = none) :
    execCommit l src n at_ s = .next s := by
  rcases ho with hm | hl | hr | hv | ⟨he, hge⟩ | hc
  · simp [execCommit, byShepherd_up up, ht, hm]
  · simp [execCommit, byShepherd_up up, ht, hl]
  · simp [execCommit, byShepherd_up up, ht, hr]
  · simp [execCommit, byShepherd_up up, ht, hv]
  · simp [execCommit, byShepherd_up up, ht, he, Nat.not_le.mpr hge]
  · simp [execCommit, byShepherd_up up, ht, hc]

/-! ### CANCEL -/

section Cancel
variable {reason : Fin 8} {vetoer : Fin 2048}

theorem cancel_reserved (h7 : reason.val = 7) :
    execCancel l src n reason vetoer s = .next ((s.musterCount 7).fire 179 l) := by
  simp only [execCancel, byShepherd_up up, if_pos h7]

theorem cancel_none (h7 : reason.val ≠ 7) (ho : s.muster.role ≠ 0 ∨ s.firstCopy src 4 6 n = none) :
    execCancel l src n reason vetoer s = .next s := by
  rcases ho with hr | hc
  · simp only [execCancel, byShepherd_up up, if_neg h7, if_pos hr]
  · simp only [execCancel, byShepherd_up up, if_neg h7, hc, ite_self]

theorem cancel_firstCopy {u : State} (h7 : reason.val ≠ 7) (hr : s.muster.role = 0) (hc : s.firstCopy src 4 6 n = some u) :
    execCancel l src n reason vetoer s = .next (({ u with
      muster.state := if u.muster.state = MState.ebbPending then .member else u.muster.state, muster.round := n,
      muster.ebb := if u.muster.ebb = EbbPhase.beacon then .beacon else .awake,
      muster.reason := reason.val } : State).fire 208 vetoer) := by
  simp only [execCancel, byShepherd_up up, if_neg h7, if_neg (not_not.mpr hr), hc]

end Cancel
end Ebb
end Sys2Proof.Laws

namespace Sys2Proof.Proofs

/-- Settles O39: each clause is the case of that name of the commands above. -/
theorem ebbRounds : Obligations.EbbRounds := by
  refine fun s => ⟨fun down => ⟨congrArg _ (byShepherd_down down _), congrArg _ (byShepherd_down down _)⟩, fun up =>
    ⟨startRound_opens up, startRound_badState up, cancelRound_cancels up, cancelRound_badState up, roundIntervalExpiry_opens up,
      roundIntervalExpiry_none up, roundLimitExpiry_cancels up, roundLimitExpiry_none up, ?round, fun src n => round_none up,
      fun src => consent_noted up, ?otherRound, fun src need => veto_noted up, ?otherStation, ?commitNone, ?cancelNone,
      ?cancelReserved, ?commit, ?commitMalformed, ?cancel⟩⟩
  case round => exact fun src n u hs hc => ⟨round_member up hs hc, round_coming up hs hc, round_onlyNoted up hs hc⟩
  case otherRound => exact fun src n hn need => ⟨consent_none up (.inr hn), veto_none up (.inr hn)⟩
  case otherStation => exact fun src n need hr => ⟨consent_none up (.inl hr), veto_none up (.inl hr)⟩
  case commitNone => exact fun l src n at_ => commit_none up
  case cancelNone => exact fun l src n reason vetoer => cancel_none up
  case cancelReserved => exact fun l src n reason vetoer => cancel_reserved up
  case commit => exact fun l src n at_ u => commit_firstCopy up
  case commitMalformed => exact fun l src n at_ => commit_malformed up
  case cancel => exact fun l src n reason vetoer u => cancel_firstCopy up

end Sys2Proof.Proofs
end

section
/-! What time that passes (State.advance) and a broadcast that is heard (State.heard) leave: the settings in force, and with
them the station's number, which SYNC compares after both. One lemma per operation that they are made of, lower layers first;
each cites those of the operations that it calls. -/

open Sys2Proof Sys2Proof.Machine Sys2Proof.Laws

namespace Sys2Proof.Laws
variable (s : State)

/-- A fold keeps the settings where each of its steps does. -/
theorem foldl_settings {α : Type} {f : State → α → State} (hf : ∀ s x, (f s x).dict.settings = s.dict.settings) (l : List α)
    (s : State) : (l.foldl f s).dict.settings = s.dict.settings := by
  induction l generalizing s with
  | nil => rfl
  | cons x l ih => exact (ih _).trans (hf s x)

/-! ### Firings, counters, unscheduled cells and reports of links -/

@[simp] theorem fire_settings (n inst detail : Nat) (forced : Bool) :
    (s.fire n inst detail forced).dict.settings = s.dict.settings := (fires_fire s n inst detail forced (Fires.refl s)).dict_settings
@[simp] theorem bump_settings (e sub k : Nat) : (s.bump e sub k).dict.settings = s.dict.settings := rfl
@[simp] theorem bumpFld_settings (e sub hi lo : Nat) : (s.bumpFld e sub hi lo).dict.settings = s.dict.settings := rfl
@[simp] theorem linkCount_settings (l k : Nat) : (s.linkCount l k).dict.settings = s.dict.settings :=
  (fires_linkCount s l k (Fires.refl s)).dict_settings
@[simp] theorem pairBell_settings : s.pairBell.dict.settings = s.dict.settings := (fires_pairBell s (Fires.refl s)).dict_settings

@[simp] theorem countWrap_settings (l : Nat) : (s.countWrap l).dict.settings = s.dict.settings := by
  simp [State.countWrap, apply_ite State.dict, apply_ite DictSt.settings]

@[simp] theorem enter_settings (c : Nat) (stages : List LStage) (line : Option (Bool × Nat)) (carried : Bool)
    (cell : Option (Nat × List Word)) : (s.enter c stages line carried cell).dict.settings = s.dict.settings := by
  unfold State.enter State.takeAccess State.reachTile State.wakeTile
  grind [State.setQueue]

@[simp] theorem ownOut_settings (c l : Nat) (w : List Word) : (s.ownOut c l w).dict.settings = s.dict.settings := enter_settings ..

@[simp] theorem sendDir_settings (dir : Nat) (w : List Word) : (s.sendDir dir w).dict.settings = s.dict.settings := by
  unfold State.sendDir
  grind [ownOut_settings, countWrap_settings, linkCount_settings]

@[simp] theorem broadcast_settings (kind : Nat) (pay : List Nat) : (s.broadcast kind pay).dict.settings = s.dict.settings := by
  simp [State.broadcast, State.sendCell, State.nextSeq]

@[simp] theorem setRecord_settings (v src : Nat) : (s.setRecord v src).dict.settings = s.dict.settings := by
  unfold State.setRecord State.setClaim State.seenEpoch
  grind [pairBell_settings]

@[simp] theorem loseTunnel_settings (l : Nat) (node : Nat → Bool) : (s.loseTunnel l node).dict.settings = s.dict.settings := by
  unfold State.loseTunnel
  exact foldl_settings (fun s _ => bumpFld_settings s ..) _ _

theorem endSessions_settings (test : Session → Bool) : (s.endSessions test).dict.settings = s.dict.settings := by
  refine foldl_settings (fun s p => ?_) _ _
  rfl

@[simp] theorem repath_settings : s.repath.dict.settings = s.dict.settings := by
  refine foldl_settings (fun s n => ?_) _ _
  grind [loseTunnel_settings, endSessions_settings, fire_settings, bumpFld_settings]

@[simp] theorem syntonise_settings : s.syntonise.dict.settings = s.dict.settings := by
  unfold State.syntonise
  grind [fire_settings]

theorem wrapCell_settings {put : State → List Word → State} (hp : ∀ s w, (put s w).dict.settings = s.dict.settings) (l : Nat)
    (w : List Word) : (s.wrapCell l w put).dict.settings = s.dict.settings := by
  unfold State.wrapCell
  grind [linkCount_settings, countWrap_settings]

theorem transitPut_settings (l : Nat) (w : List Word) : (s.transitPut l w).dict.settings = s.dict.settings := by
  unfold State.transitPut State.setLink
  grind [linkCount_settings, fire_settings]

@[simp] theorem wrapWaiting_settings (l : Nat) : (s.wrapWaiting l).dict.settings = s.dict.settings := by
  unfold State.wrapWaiting
  split
  · rfl
  · refine (foldl_settings (fun s a => ?_) _ _).trans ?_
    · grind [wrapCell_settings, ownOut_settings]
    · refine (foldl_settings (fun s w => wrapCell_settings s (fun s w => transitPut_settings s _ w) l w) _ _).trans ?_
      simp [State.setQueue, State.setLink]

theorem reportLink_settings (l : Nat) (up : Bool) : (s.reportLink l up).dict.settings = s.dict.settings := by
  have hp (s : State) : s.pairLinkLost.dict.settings = s.dict.settings := by
    unfold State.pairLinkLost
    split
    · exact setRecord_settings s 0 0
    · rfl
  simp only [State.reportLink]
  cases up <;> by_cases h4 : l = 4 <;> simp [h4, hp]

@[simp] theorem reportTurns_settings : s.reportTurns.dict.settings = s.dict.settings :=
  foldl_settings (fun s l => reportLink_settings s l false) _ _

/-! ### Lines -/

theorem heldFull_settings (up : Bool) (L : Nat) : (s.heldFull up L).dict.settings = s.dict.settings := by
  simp [State.heldFull]

theorem heldClear_settings (up : Bool) (L mask : Nat) : (s.heldClear up L mask).dict.settings = s.dict.settings := by
  unfold State.heldClear
  grind [heldFull_settings]

theorem markHeld_settings (dst : List Place) (mask : Nat → Nat) : (s.markHeld dst mask).dict.settings = s.dict.settings := by
  unfold State.markHeld
  refine (foldl_settings (fun s p => ?_) _ _).trans (foldl_settings (fun s m => ?_) _ _)
  · unfold State.heldAdd
    grind [heldFull_settings]
  · rfl

theorem foundBad_settings (up : Bool) (L : Nat) : (s.foundBad up L).dict.settings = s.dict.settings := by
  unfold State.foundBad State.countFound State.loseChannel State.logPoison
  grind [fire_settings, bumpFld_settings]

theorem foundSingle_settings (up : Bool) (L : Nat) : (s.foundSingle up L).dict.settings = s.dict.settings := by
  unfold State.foundSingle State.queueBack
  grind [fire_settings, bumpFld_settings]

theorem checkLine_settings (up : Bool) (L : Nat) : (s.checkLine up L).1.dict.settings = s.dict.settings := by
  unfold State.checkLine
  grind [foundBad_settings, foundSingle_settings]

theorem setLine_settings (up : Bool) (L : Nat) (l : Line) : (s.setLine up L l).dict.settings = s.dict.settings := by
  cases up <;> rfl

theorem writeOver_settings (up : Bool) (P mask : Nat) (w : List Word) (tag : Option Nat) (bad : Bool) (old : List Word) :
    (s.writeOver up P mask w tag bad old).1.dict.settings = s.dict.settings := by
  unfold State.writeOver State.refusePoison
  grind [setLine_settings, heldClear_settings, fire_settings, bumpFld_settings]

theorem writeLine_settings (up : Bool) (P mask : Nat) (w : List Word) (tag : Option Nat) :
    (s.writeLine up P mask w tag).1.dict.settings = s.dict.settings := by
  unfold State.writeLine State.writeWhole
  grind [setLine_settings, heldClear_settings, checkLine_settings, writeOver_settings]

theorem unschedWrite_settings (up : Bool) (L mask : Nat) (w : List Word) (b : Option Nat) :
    (s.unschedWrite up L mask w b).1.dict.settings = s.dict.settings := by
  unfold State.unschedWrite
  grind [writeLine_settings]

theorem schedWrite_settings (p : Place) (mask : Nat) (w : List Word) (old : Option (Bool × List Word)) :
    (s.schedWrite p mask w old).dict.settings = s.dict.settings := by
  unfold State.schedWrite
  grind [writeLine_settings, writeOver_settings]

theorem schedRead_settings (p : Place) (free : Bool) (mask : Nat) :
    (s.schedRead p free mask).1.dict.settings = s.dict.settings := by
  unfold State.schedRead State.countHeld
  grind [checkLine_settings, bump_settings]

/-! ### What answers a write that waited -/

theorem mirrorLine_settings (up : Bool) (L : Nat) : (s.mirrorLine up L).dict.settings = s.dict.settings := by
  unfold State.mirrorLine State.addItem
  grind

@[simp] theorem interrupt_settings (k : Nat) : (s.interrupt k).dict.settings = s.dict.settings :=
  (fires_interrupt s k (Fires.refl s)).dict_settings
@[simp] theorem tallyEvent_settings (c : Nat) (p : List Nat) : (s.tallyEvent c p).dict.settings = s.dict.settings :=
  (fires_tallyEvent s c p (Fires.refl s)).dict_settings

theorem respond_settings (path source : Nat) (h : Head) (body : List Nat) :
    (s.respond path source h body).dict.settings = s.dict.settings := by
  unfold State.respond State.reply State.hostRsp
  grind [bump_settings, interrupt_settings, State.emit]

theorem pointEnds_settings (req : Option Msg) (code : Nat) : (s.pointEnds req code).dict.settings = s.dict.settings := by
  unfold State.pointEnds
  grind [respond_settings]

theorem landWrite_settings (x : WaitWrite) : (s.landWrite x).dict.settings = s.dict.settings := by
  have hw := unschedWrite_settings s false x.line x.mask x.words x.bit
  unfold State.landWrite State.skipLine
  grind [pointEnds_settings, mirrorLine_settings, fire_settings, bump_settings, tallyEvent_settings]

theorem landHeld_settings : s.landHeld.dict.settings = s.dict.settings := by
  unfold State.landHeld
  refine (foldl_settings (fun s x => ?_) _ _).trans rfl
  exact landWrite_settings _ x

/-! ### Pens -/

theorem penFall_settings (p : Nat) : (s.penFall p).dict.settings = s.dict.settings := by
  unfold State.penFall State.setPen
  grind

theorem penCheck_settings (p : Nat) : (s.penCheck p).1.dict.settings = s.dict.settings := by
  unfold State.penCheck
  grind [State.setPen, penFall_settings, fire_settings, bumpFld_settings]

theorem penCutShort_settings (p : Nat) : (s.penCutShort p).dict.settings = s.dict.settings := by
  unfold State.penCutShort State.penBad
  grind [State.setPen, penCheck_settings, bumpFld_settings]

theorem penOverflow_settings (p : Nat) : (s.penOverflow p).dict.settings = s.dict.settings := by
  simp [State.penOverflow]

theorem penRise_settings (p : Nat) : (s.penRise p).dict.settings = s.dict.settings := by
  have hm (s : State) (v : Nat) : (s.msiSend v).dict.settings = s.dict.settings := (fires_msiSend s v (Fires.refl s)).dict_settings
  unfold State.penRise
  grind [State.setPen, fire_settings]

theorem penWordIn_settings (p : Nat) (w : Word) : (s.penWordIn p w).1.dict.settings = s.dict.settings := by
  unfold State.penWordIn State.penPacketWord State.penStream State.penWord State.penPoke
  grind [State.setPen, penOverflow_settings, penRise_settings]

theorem penWordsIn_settings (p : Nat) (ws : List Word) : (s.penWordsIn p ws).1.dict.settings = s.dict.settings := by
  induction ws generalizing s with
  | nil => rfl
  | cons w ws ih => exact (ih _).trans (penWordIn_settings s p w)

theorem penPushLost_settings (p : Nat) (ws : List Word) : (s.penPushLost p ws).1.dict.settings = s.dict.settings := by
  have hc := penCheck_settings s p
  unfold State.penPushLost
  grind [State.setPen, penOverflow_settings, penWordsIn_settings]

theorem penTake_settings (p : Nat) : (s.penTake p).1.dict.settings = s.dict.settings := by
  unfold State.penTake
  grind [State.setPen]

theorem penPositions_settings (p n : Nat) : (s.penPositions p n).1.dict.settings = s.dict.settings := by
  induction n generalizing s with
  | zero => rfl
  | succ n ih =>
    have ht := penTake_settings s p
    unfold State.penPositions
    grind [bump_settings]

theorem penReadN_settings (p n : Nat) : (s.penReadN p n).1.dict.settings = s.dict.settings :=
  (penFall_settings _ p).trans ((penPositions_settings _ p n).trans (penCheck_settings s p))

theorem penSeal_settings (p k : Nat) : (s.penSeal p k).dict.settings = s.dict.settings := by
  unfold State.penSeal State.setPen
  refine (penRise_settings _ p).trans (foldl_settings (fun s i => ?_) (List.range _) s)
  rfl

theorem penCommit_settings (p : Nat) : (s.penCommit p).dict.settings = s.dict.settings := by
  unfold State.penCommit
  grind [State.setPen, penCheck_settings, penSeal_settings]

/-! ### Ports and monitoring sessions of the switch core -/

theorem portCount_settings (p k : Nat) : (s.portCount p k).dict.settings = s.dict.settings := by
  unfold State.portCount
  grind [bump_settings]

theorem redAdmit_settings (p tc colour : Nat) : (s.redAdmit p tc colour).1.dict.settings = s.dict.settings := by
  unfold State.redAdmit State.draw
  grind

theorem enqueue_settings (p : Nat) (f : QFrame) : (s.enqueue p f).1.dict.settings = s.dict.settings := by
  unfold State.enqueue State.noteFree State.setBq
  grind [portCount_settings, redAdmit_settings]

theorem mirror_settings (k : Nat) (f : QFrame) : (s.mirror k f).dict.settings = s.dict.settings := by
  unfold State.mirror State.newCopy
  grind [portCount_settings, enqueue_settings, bump_settings]

theorem recToPen_settings (p : Nat) (ws : List Word) : (s.recToPen p ws).1.dict.settings = s.dict.settings := by
  have he (c n : Nat) (into : Bool) : (s.enterPen c p n into).dict.settings = s.dict.settings :=
    foldl_settings (fun s _ => enter_settings s ..) _ _
  unfold State.recToPen State.penPacketIn
  grind [penPushLost_settings, penCommit_settings]

theorem sample_settings (k : Nat) (f : QFrame) (port dir t : Nat) : (s.sample k f port dir t).dict.settings = s.dict.settings := by
  unfold State.sample
  grind [recToPen_settings, bump_settings]

theorem sessions_settings (f : QFrame) (port dir t : Nat) (rule : Option Nat) :
    (s.sessions f port dir t rule).dict.settings = s.dict.settings := by
  refine foldl_settings (fun s k => ?_) _ _
  grind [mirror_settings, sample_settings]

theorem schedBegin_settings (p at_ : Nat) : (s.schedBegin p at_).dict.settings = s.dict.settings := by
  unfold State.schedBegin State.schedPut State.schedDrop State.setSchedQ State.setPort
  grind [portCount_settings]

theorem schedStamp_settings (p at_ : Nat) : (s.schedStamp p at_).dict.settings = s.dict.settings := by
  unfold State.schedStamp State.schedPut State.setSchedQ
  grind

theorem schedSent_settings (p at_ : Nat) : (s.schedSent p at_).dict.settings = s.dict.settings := by
  unfold State.schedSent State.schedDrop State.setSchedQ State.emit
  grind [portCount_settings, sessions_settings]

/-! ### The acts of a stroke in flight -/

theorem cellOut_settings (l : Nat) (w : List Word) (ctx : Nat) (place : List Nat) :
    (s.cellOut l w ctx place).dict.settings = s.dict.settings := by
  unfold State.cellOut State.emit State.setLink
  grind

theorem nullClass_settings (f : Flight) : (s.nullClass f).dict.settings = s.dict.settings := by
  unfold State.nullClass State.schedDrop State.setSchedQ State.setChan
  grind [landHeld_settings, penCutShort_settings]

theorem failed_settings (f : Flight) (cause : Nat) : (s.failed f cause).1.dict.settings = s.dict.settings :=
  (nullClass_settings _ f).trans
    ((fires_countNull _ f.sl cause (Fires.refl _)).dict_settings.trans (markHeld_settings s f.dst f.mask))

theorem flightDepart_settings (f : Flight) (l : Nat) : (s.flightDepart f l).1.dict.settings = s.dict.settings := by
  unfold State.flightDepart State.depart
  grind [cellOut_settings, linkCount_settings, fire_settings]

theorem busRelease_settings (tile c b : Nat) (marked : Bool) :
    (s.busRelease tile c b marked).dict.settings = s.dict.settings := by
  unfold State.busRelease State.busCount State.setChan
  grind [bump_settings, fire_settings]

theorem flightDone_settings (f : Flight) : (s.flightDone f).dict.settings = s.dict.settings := by
  unfold State.flightDone
  grind [landHeld_settings, busRelease_settings, bump_settings, fire_settings]

theorem flightMeet_settings (f : Flight) : (s.flightMeet f).1.dict.settings = s.dict.settings := by
  unfold State.flightMeet State.schedEnter State.setSchedQ
  grind [failed_settings, fire_settings]

theorem busMeet_settings (c b : Nat) : (s.busMeet c b).dict.settings = s.dict.settings := by
  have hw := (fires_withdraw s c b (Fires.refl s)).dict_settings
  unfold State.busMeet State.busCount State.setChan
  grind [bump_settings, fire_settings]

/-- What a fold notes of held pins; any test c, so that no pin's configuration is computed to compare the settings. -/
theorem noteHeld_settings (c : Nat → Prop) [DecidablePred c] (v : Nat → Nat) (ps : List Nat) :
    (ps.foldl (fun (t : State) p => if c p then { t with pin.safeHeld := Tab.set 0 t.pin.safeHeld p (v p) } else t) s).dict.settings
      = s.dict.settings := by
  refine foldl_settings (fun t p => ?_) _ _
  split <;> rfl

theorem snapHold_settings (ps : List Nat) : (s.snapHold ps).dict.settings = s.dict.settings :=
  noteHeld_settings s (fun p => pinSafe (s.pinCfg p) = 3) (fun p => (s.pinDrive p).2) ps

/-- Stated of any record of the field pins, for the same reason. -/
theorem setPins_settings (x : PinSt) : ({ s with pin := x } : State).dict.settings = s.dict.settings := rfl

theorem loadDout_settings (b h : Nat) (w : Word) : (s.loadDout b h w).dict.settings = s.dict.settings := by
  simp only [State.loadDout]
  split
  · rfl
  · split
    · split
      · rfl
      · exact (setPins_settings _ _).trans (snapHold_settings s _)
    · exact setPins_settings s _

theorem flightPut_settings (f : Flight) (q : Nat) : (s.flightPut f q).1.dict.settings = s.dict.settings := by
  unfold State.flightPut
  split
  · refine foldl_settings (fun s j => ?_) _ _
    rfl
  · exact (loadDout_settings _ _ _ _).trans (loadDout_settings _ _ _ _)
  · exact penPushLost_settings _ _ _
  · grind [State.setChan, busMeet_settings]
  · unfold State.schedDrop State.schedPut State.setSchedQ
    grind [bump_settings, fire_settings]

theorem rxDeliver_settings (n f : Nat) : (s.rxDeliver n f).1.dict.settings = s.dict.settings := by
  unfold State.rxDeliver
  grind [bump_settings]

theorem flightTake_settings (f : Flight) (q : Nat) : (s.flightTake f q).1.dict.settings = s.dict.settings := by
  unfold State.flightTake
  split
  · refine foldl_settings (fun s j => ?_) _ _
    grind [State.drvRegTaken, State.setDrover]
  · rfl
  · exact penReadN_settings _ _ _
  · exact rxDeliver_settings _ _ _

theorem flightAct_settings (f : Flight) (a : Act) : (s.flightAct f a).1.dict.settings = s.dict.settings := by
  unfold State.flightAct
  grind [failed_settings, schedRead_settings, checkLine_settings, schedWrite_settings, flightTake_settings, flightPut_settings,
    flightMeet_settings, penCommit_settings, flightDepart_settings, schedBegin_settings, schedStamp_settings,
    schedSent_settings, flightDone_settings]

theorem digestPart_settings (f : Flight) : (s.digestPart f).dict.settings = s.dict.settings := by
  unfold State.digestPart State.addPart
  grind

theorem flightCycle_settings (f : Flight) (a : Act) : (s.flightCycle f a).1.dict.settings = s.dict.settings := by
  have ht (s : State) (sl idx cause : Nat) : (s.traceStroke sl idx cause).dict.settings = s.dict.settings :=
    (fires_traceStroke s sl idx cause (Fires.refl s)).dict_settings
  unfold State.flightCycle
  grind [failed_settings, flightAct_settings, digestPart_settings]

theorem runAct_settings (k : Nat) : (s.runAct k).dict.settings = s.dict.settings := by
  unfold State.runAct
  grind [flightCycle_settings]

theorem runActs_settings (limit n : Nat) : (s.runActs limit n).dict.settings = s.dict.settings := by
  induction n generalizing s with
  | zero => rfl
  | succ n ih =>
    unfold State.runActs
    grind [runAct_settings]

/-- Time that passes changes no setting in force. -/
@[simp] theorem advance_settings (off : Nat) : (s.advance off).dict.settings = s.dict.settings :=
  (runActs_settings _ _ _).trans (reportTurns_settings s)

/-- A broadcast that is heard changes no setting in force. -/
@[simp] theorem heard_settings (l kind src hops : Nat) (wrapped : Bool) (pay : List Nat) :
    (s.heard l kind src hops wrapped pay).dict.settings = s.dict.settings := by
  unfold State.heard State.cellIn State.setLink State.draw
  grind [linkCount_settings]

/-- The station's number is a setting's. -/
theorem station_of_settings {a b : State} (h : a.dict.settings = b.dict.settings) : a.station = b.station := by
  have hc (e sub : Nat) : a.cfg e sub = b.cfg e sub := by rw [State.cfg, State.cfg, h]
  have hp : a.paired = b.paired := congrArg (bit · 35) (hc _ _)
  rw [State.station, State.station, State.node, State.node, State.unit, State.unit, hc, hc, hp]

end Sys2Proof.Laws
end

section
/-! What the commands of fabric time do, case by case (R397 to R402, R409, R410), and the obligation FabricTime. -/

open Sys2Proof Sys2Proof.Machine Sys2Proof.Laws

namespace Sys2Proof.Laws

/-! ### SYNC; u is the station once it has heard the copy, f once it has passed it on -/

/-- The path of a SYNC that a station takes is the one in direction d. -/
theorem any_direction_iff {path : Option (Nat × Nat)} {d : Nat} :
    path.any (fun p => p.1 == d) = true ↔ path.map Prod.fst = some d := by
  cases path <;> simp

/-- A SYNC whose fields are sound is the one that goes on (R19, R393, R415). -/
theorem sync_sound_iff {m : SyncMsg} :
    (!timeOk m.origin || m.follow.val == 3) = false ↔ timeOk m.origin = true ∧ m.follow.val ≠ 3 := by
  simp

/-- A station in state f accepts this copy of a SYNC (R402). -/
def Follows (f : State) (l : Fin 4) (src : Fin 2048) (w : Bool) (m : SyncMsg) : Prop :=
  f.dict.shepherds = true ∧ (f.muster.state = .joining ∨ f.muster.state = .member ∨ f.muster.state = .ebbPending)
  ∧ w = false ∧ f.isMaster = false ∧ src.val ≠ f.station ∧ m.epoch = f.muster.epoch
  ∧ f.syncPath.map Prod.fst = some (rxDir l)

section Sync
variable {s u f : State} {l : Fin 4} {src : Fin 2048} {w : Bool} {hops at16 res : Nat} {m : SyncMsg}

theorem sync_linkDown (hl : s.linkUp l = false) : execSync l src w hops m at16 res s = .next s := by
  simp [execSync, hl]

variable (hu : (s.advance (at16 / 16)).heard l 5 src hops w (syncPay m m.corr) = u)
include hu

/-- Neither the time that passes nor the cell that is heard renumbers the station. -/
theorem sync_station : u.station = s.station := by
  subst hu
  exact station_of_settings ((heard_settings ..).trans (advance_settings ..))

variable (hl : s.linkUp l = true)
include hl

theorem sync_malformed (hs : ¬(timeOk m.origin = true ∧ m.follow.val ≠ 3)) :
    execSync l src w hops m at16 res s = .next ((u.bump 0x09016 7).fire 179 l) := by
  have hbad := Bool.eq_true_of_not_eq_false (mt sync_sound_iff.mp hs)
  simp only [execSync, hl, hu, hbad, Bool.not_true, Bool.false_eq_true, if_false, if_true]

variable (hs : timeOk m.origin = true ∧ m.follow.val ≠ 3)
  (hf : (if src.val = s.station ∧ w = false then u
    else u.forward l 5 src hops w (syncPay m (m.corr + u.incoming l + sixteenths res))) = f)
include hs hf

theorem sync_accepted (hy : Follows f l src w m) : execSync l src w hops m at16 res s = .next (f.acceptSync l m at16) := by
  obtain ⟨hshep, hstate, hw, hmaster, hother, hepoch, hpath⟩ := hy
  rw [← sync_station hu] at hf
  simp only [execSync, hl, hu, sync_sound_iff.mpr hs, hf, Bool.not_true, Bool.false_eq_true, if_false]
  have hp := any_direction_iff.mpr hpath
  rcases hstate with hm | hm | hm <;> simp [hm, hw, hshep, hmaster, hother, hepoch, hp]

theorem sync_passedOn (hn : ¬Follows f l src w m) : execSync l src w hops m at16 res s = .next f := by
  rw [← sync_station hu] at hf
  simp only [execSync, hl, hu, sync_sound_iff.mpr hs, hf, Bool.not_true, Bool.false_eq_true, if_false]
  rw [if_neg]
  intro test
  simp only [Bool.and_eq_true, any_direction_iff, bne_iff_ne, beq_iff_eq, Bool.not_eq_true'] at test
  obtain ⟨⟨⟨⟨⟨⟨hshep, hstate⟩, hw⟩, hmaster⟩, hother⟩, hepoch⟩, hpath⟩ := test
  refine hn ⟨hshep, ?_, hw, hmaster, hother, hepoch, hpath⟩
  cases hm : f.muster.state <;> simp [hm] at hstate ⊢

end Sync

/-! ### What an accepted SYNC does (R398, R402) -/

/-- The offset that the SYNC shows: local time less its ORIGIN, CORRECTION and the incoming delay. -/
def syncOffset (f : State) (l : Fin 4) (m : SyncMsg) (at16 : Nat) : Int :=
  ((f.time.base + at16 * 16384) / 5 : Nat) - (time16 m.origin + m.corr + f.incoming l)

/-- A JOINING station knows fabric time by now, and the grid with it. -/
def joinerKnows (a : State) : State := if a.muster.state = .joining then a.gridKnown else a

section AcceptSync
variable {f : State} {l : Fin 4} {m : SyncMsg} {at16 : Nat}

theorem acceptSync_steps (hsync : f.time.synced = false) (hruns : f.tideRuns = false) : f.acceptSync l m at16 =
    joinerKnows ((((f.bump 0x09016 0).stepTime (syncOffset f l m at16)).takeSync m).memberTime) := by
  have hfirst : (f.bump 0x09016 0).time.synced = false ∧ (f.bump 0x09016 0).tideRuns = false := ⟨hsync, hruns⟩
  simp only [State.acceptSync, if_pos hfirst]
  rfl

theorem acceptSync_averages (ho : f.time.synced = true ∨ f.tideRuns = true) : f.acceptSync l m at16 =
    joinerKnows ((((f.bump 0x09016 0).filterOffset (syncOffset f l m at16)).takeSync m).memberTime) := by
  have hlater : ¬((f.bump 0x09016 0).time.synced = false ∧ (f.bump 0x09016 0).tideRuns = false) :=
    fun ⟨hsync, hruns⟩ => ho.elim (absurd hsync ∘ ne_false_of_eq_true) (absurd hruns ∘ ne_false_of_eq_true)
  simp only [State.acceptSync, if_neg hlater]
  rfl

end AcceptSync

/-! ### The timers of SYNC -/

section Timers
variable {s : State}

theorem syncPreTideExpiry_sends (up : s.dict.shepherds = true) (hmaster : s.isMaster = true) (hfirst : s.time.first ≠ none) :
    execSyncPreTideExpiry s = .next s.sendSync := by
  simp [execSyncPreTideExpiry, byShepherd_up up, hmaster, Option.isSome_iff_ne_none, hfirst]

theorem syncPreTideExpiry_none (ho : s.isMaster = false ∨ s.time.first = none) : execSyncPreTideExpiry s = .next s := by
  rcases ho with hmaster | hfirst
  · simp [execSyncPreTideExpiry, State.byShepherd, hmaster]
  · simp [execSyncPreTideExpiry, State.byShepherd, hfirst]

theorem syncLossTides_holdover (hmaster : s.isMaster = false) (ht : s.time.state = .free ∨ s.time.state = .locked) :
    execSyncLossTides s = .next (s.toTime .holdover) := by
  simp [execSyncLossTides, hmaster, ht]

theorem syncLossTides_none (ho : s.isMaster = true ∨ s.time.state = .unset ∨ s.time.state = .holdover) :
    execSyncLossTides s = .next s := by
  rcases ho with hmaster | ht | ht
  · simp [execSyncLossTides, hmaster]
  · simp [execSyncLossTides, ht]
  · simp [execSyncLossTides, ht]

theorem holdoverLimitExpiry_unset (hmaster : s.isMaster = false) (ht : s.time.state = .holdover) :
    execHoldoverLimitExpiry s = .next (s.toTime .unset) := by
  simp [execHoldoverLimitExpiry, hmaster, ht]

theorem holdoverLimitExpiry_none (ho : s.isMaster = true ∨ s.time.state ≠ .holdover) :
    execHoldoverLimitExpiry s = .next s := by
  rcases ho with hmaster | ht
  · simp [execHoldoverLimitExpiry, hmaster]
  · simp [execHoldoverLimitExpiry, ht]

end Timers

/-! ### TIME_SET, SWITCH and REVERT_HOLD_EXPIRY -/

section Commands
variable {s : State} {v : Nat}

theorem timeSet_badValue (hv : timeOk v = false) : execTimeSet v s = .next (s.abort 0x09003 6) := by
  simp [execTimeSet, State.timeSetOp, hv]

theorem timeSet_badState (hv : timeOk v = true) (hf : s.time.follow < 2) : execTimeSet v s = .next (s.abort 0x09003 7) := by
  simp [execTimeSet, State.timeSetOp, hv, hf]

theorem timeSet_steps (hv : timeOk v = true) (hf : 2 ≤ s.time.follow) (hruns : s.tideRuns = false)
    (hm : s.muster.state = .solo ∨ s.muster.state = .listen ∨ s.muster.state = .claiming) :
    execTimeSet v s = .next { s with
      time.setTo := some (timeUnits v), time.base := timeUnits v - s.tide.off * tickPerWc } := by
  have hkept : ({ s with time.setTo := some (timeUnits v) } : State).tideRuns = false := hruns
  rcases hm with hm | hm | hm <;> simp [execTimeSet, State.timeSetOp, hv, Nat.not_lt.mpr hf, hm, hkept]

theorem timeSet_kept (hv : timeOk v = true) (hf : 2 ≤ s.time.follow)
    (ho : s.tideRuns = true ∨ (s.muster.state ≠ .solo ∧ s.muster.state ≠ .listen ∧ s.muster.state ≠ .claiming)) :
    execTimeSet v s = .next { s with time.setTo := some (timeUnits v) } := by
  rcases ho with hruns | ⟨hS, hL, hC⟩
  · have hkept : ({ s with time.setTo := some (timeUnits v) } : State).tideRuns = true := hruns
    cases hm : s.muster.state <;> simp [execTimeSet, State.timeSetOp, hv, Nat.not_lt.mpr hf, hm, hkept]
  · cases hm : s.muster.state
    case solo => exact absurd hm hS
    case listen => exact absurd hm hL
    case claiming => exact absurd hm hC
    all_goals simp [execTimeSet, State.timeSetOp, hv, Nat.not_lt.mpr hf, hm]

section Switch
variable {o : Nat} (ho : o = if s.time.follow = 0 then 1 else if s.time.follow = 1 then 0 else 1 - fld (s.cfg 0x09002) 3 3)
include ho

theorem switch_noted (hr : s.muster.role = 1) (hd : s.dstate o = 3) :
    execSwitch s = .next { s with time.switchTo := some o } := by
  simp only [execSwitch, State.switchOp, ← ho, if_pos (And.intro hr hd)]

theorem switch_badState (hn : s.muster.role ≠ 1 ∨ s.dstate o ≠ 3) : execSwitch s = .next (s.abort 0x09017 7) := by
  simp only [execSwitch, State.switchOp, ← ho, if_neg (not_and_or.mpr hn)]

end Switch
end Commands
end Sys2Proof.Laws

namespace Sys2Proof.Proofs

/-- Settles O41: each clause is the case of that name of the commands above. -/
theorem fabricTime : Obligations.FabricTime := by
  refine fun s => ⟨?sync, fun up => ⟨syncPreTideExpiry_sends up, syncPreTideExpiry_none⟩, syncLossTides_holdover,
    syncLossTides_none, holdoverLimitExpiry_unset, holdoverLimitExpiry_none, ?timeSet, ?switch, ?revert⟩
  case sync =>
    intro l src w hops m at16 res
    refine ⟨sync_linkDown, fun hl => ⟨sync_malformed rfl hl, sync_passedOn rfl hl (hf := rfl), fun hs hy => ⟨?_, ?_⟩⟩⟩
    · exact fun hsync hruns => (sync_accepted rfl hl hs rfl hy).trans (congrArg _ (acceptSync_steps hsync hruns))
    · exact fun ho => (sync_accepted rfl hl hs rfl hy).trans (congrArg _ (acceptSync_averages ho))
  case timeSet =>
    exact fun v => ⟨timeSet_badValue, timeSet_badState, fun hv hf => ⟨timeSet_steps hv hf, timeSet_kept hv hf⟩⟩
  case switch => exact fun o _ ho => ⟨switch_noted ho, switch_badState ho⟩
  case revert => exact ⟨fun hr => congrArg _ (if_pos hr), fun hn => congrArg _ (if_neg hn)⟩

end Sys2Proof.Proofs
end

section
/-! What the commands of firmware update and of the profiles do, case by case (R556 to R571), and the obligation
UpdateCommands. -/

open Sys2Proof Sys2Proof.Machine Sys2Proof.Laws

namespace Sys2Proof.Laws

/-! ### How a command ends -/

/-- A command that went through leaves its effect. -/
theorem cmdEnd_done (s : State) (entry : Nat) : State.cmdEnd (s, 0) entry = s := rfl

/-! ### UPDATE_BLOCK -/

section Block
variable {s : State} {w : List Nat}

/-- A frame in a state that takes none (R559). -/
theorem frameIn_badState (hn : ¬(s.upd.state = .empty ∨ s.upd.state = .receiving)) : s.frameIn w = (s, aBadState) := by
  unfold State.frameIn
  split
  case h_1 he => exact absurd (.inl he) hn
  case h_2 hr => exact absurd (.inr hr) hn
  case h_3 => rfl

/-- A frame in which R560 finds a fault. -/
theorem frameIn_refused (ho : s.upd.state = .empty ∨ s.upd.state = .receiving) (hc : s.frameCause w ≠ 0) :
    s.frameIn w = (s.refuseFrame (s.frameCause w) (frameIndex w == 0), aBadValue) := by
  rcases ho with he | hr
  · simp only [State.frameIn, he, if_neg hc]
  · simp only [State.frameIn, hr, if_neg hc]

/-- A refused header counts once more and fires (R560). -/
theorem refuseFrame_header (hi : frameIndex w = 0) (c : Nat) : s.refuseFrame c (frameIndex w == 0) =
    (State.bump { s.bump 0x0F009 1 with upd.cause := c } 0x0F009 3).fire 320 0 := if_pos (beq_iff_eq.mpr hi)

theorem refuseFrame_data (hi : frameIndex w ≠ 0) (c : Nat) : s.refuseFrame c (frameIndex w == 0) =
    { s.bump 0x0F009 1 with upd.cause := c } := if_neg (mt beq_iff_eq.mp hi)

/-- A frame that passes R560. -/
theorem frameIn_passes (ho : s.upd.state = .empty ∨ s.upd.state = .receiving) (hc : s.frameCause w = 0) :
    s.frameIn w = s.takeBlock w := by
  rcases ho with he | hr
  · simp only [State.frameIn, he, if_pos hc]
  · simp only [State.frameIn, hr, if_pos hc]

theorem takeBlock_firstHeader (he : s.upd.state = .empty) (hi : frameIndex w = 0) :
    s.takeBlock w = ({ s.storeBlock 0 ((w.drop 1).take 512) with upd.state := .receiving }, 0) := by
  simp only [State.takeBlock, he, if_pos hi]

theorem takeBlock_noHeader (he : s.upd.state = .empty) (hi : frameIndex w ≠ 0) : s.takeBlock w = (s, aBadState) := by
  simp only [State.takeBlock, he, if_neg hi]

theorem takeBlock_stored (hr : s.upd.state = .receiving) (hi : frameIndex w ≠ 0) :
    s.takeBlock w = (s.storeBlock (frameIndex w) ((w.drop 1).take 512), 0) := by
  simp only [State.takeBlock, hr, if_pos hi]

theorem takeBlock_sameHeader (hr : s.upd.state = .receiving) (hi : frameIndex w = 0)
    (hd : (w.drop 1).take 512 = s.stagedHeader) : s.takeBlock w = (s.bump 0x0F009 2, 0) := by
  simp only [State.takeBlock, hr, if_neg (not_not.mpr hi), if_pos hd]

theorem takeBlock_otherHeader (hr : s.upd.state = .receiving) (hi : frameIndex w = 0)
    (hd : (w.drop 1).take 512 ≠ s.stagedHeader) : s.takeBlock w = (s, aBadState) := by
  simp only [State.takeBlock, hr, if_neg (not_not.mpr hi), if_neg hd]

variable {frame : List Word}

theorem updateBlock_badLength (hl : frame.length ≠ 515) : execUpdateBlock frame s = .next (s.abort 0x0F001 aBadLength) := by
  simp only [execUpdateBlock, State.blockOp, List.length_map, if_neg hl]
  rfl

/-- What a frame of the right length leaves is what it comes to in staging. -/
theorem updateBlock_ofLength {p : State × Nat} (hl : frame.length = 515) (hp : s.frameIn (frame.map BitVec.toNat) = p) :
    execUpdateBlock frame s = .next (State.cmdEnd p 0x0F001) := by
  simp only [execUpdateBlock, State.blockOp, List.length_map, if_pos hl, hp]
  rfl

end Block

/-! ### UPDATE_CMD -/

section Update
variable {s : State} {id : Nat}

theorem updateDiscard_empties (hs : s.upd.state = .receiving ∨ s.upd.state = .verified ∨ s.upd.state = .refused) :
    execUpdateDiscard s = .next { s with upd.state := .empty, upd.blocks := [], upd.deferred := false } := by
  rcases hs with h | h | h <;> simp only [execUpdateDiscard, State.updateDiscardOp, h, cmdEnd_done]

theorem updateDiscard_badState (hn : ¬(s.upd.state = .receiving ∨ s.upd.state = .verified ∨ s.upd.state = .refused)) :
    execUpdateDiscard s = .next (s.abort 0x0F003 aBadState) := by
  unfold execUpdateDiscard State.updateDiscardOp
  split
  case h_1 h => exact absurd (.inl h) hn
  case h_2 h => exact absurd (.inr (.inl h)) hn
  case h_3 h => exact absurd (.inr (.inr h)) hn
  case h_4 => rfl

theorem updateCheck_begins (up : s.dict.shepherds = true)
    (hw : s.upd.state = .receiving ∧ s.upd.blocks.length = s.stagedBlocks) :
    execUpdateCheck s = .next { s with upd.state := .checking } := by
  rw [execUpdateCheck, byShepherd_up up, State.updateCheckOp, State.heldBlocks, if_pos hw, cmdEnd_done]

theorem updateCheck_badState (up : s.dict.shepherds = true)
    (hn : ¬(s.upd.state = .receiving ∧ s.upd.blocks.length = s.stagedBlocks)) :
    execUpdateCheck s = .next (s.abort 0x0F003 aBadState) := by
  rw [execUpdateCheck, byShepherd_up up, State.updateCheckOp, State.heldBlocks, if_neg hn]
  rfl

/-- When the key operation of a CHECK verifies the image (R540, R561). -/
theorem checkGood_iff : (s.foldReady && imageSigned s.upd.blocks) = true
    ↔ s.fold.standing = 0 ∧ s.fold.trngOk = true ∧ imageSigned s.upd.blocks = true := by
  simp [State.foldReady, and_assoc]

theorem updateCheckDone_none (hn : s.upd.state ≠ .checking) : execUpdateCheckDone s = .next s := congrArg _ (if_pos hn)

theorem updateCheckDone_verified (hc : s.upd.state = .checking)
    (hg : s.fold.standing = 0 ∧ s.fold.trngOk = true ∧ imageSigned s.upd.blocks = true) :
    execUpdateCheckDone s = .next (State.checkAnswer { s.bump 0x0E00A 0 with upd.state := .verified } 0) := by
  rw [execUpdateCheckDone, if_neg (not_not.mpr hc), if_pos (checkGood_iff.mpr hg)]
  rfl

theorem updateCheckDone_refused (hc : s.upd.state = .checking)
    (hn : ¬(s.fold.standing = 0 ∧ s.fold.trngOk = true ∧ imageSigned s.upd.blocks = true)) :
    execUpdateCheckDone s = .next (State.checkAnswer (State.fire { ((s.bump 0x0E00A 1).fire 306 0 0).bump 0x0F009 4 with
      upd.state := .refused, upd.cause := 63 } 320 0) aRefused) := by
  rw [execUpdateCheckDone, if_neg (not_not.mpr hc), if_neg (mt checkGood_iff.mp hn), State.foldRefuse]

theorem schedule_takesSettings (hv : s.upd.state = .verified) : execSchedule s = .next { s with
    upd.state := .scheduled, upd.deferred := false, upd.actAt := timeUnits (s.cfg 0x0F004), upd.actId := s.cfg 0x0F005
    upd.actNow := timeUnits (s.cfg 0x0F004) == 0 || decide (timeUnits (s.cfg 0x0F004) ≤ s.now)
    upd.actWait := if s.tableRuns then (if s.tide.off = 0 then 2 else 3) else 0 } := by
  rw [execSchedule, State.scheduleOp, if_pos hv, cmdEnd_done]

theorem schedule_badState (hn : s.upd.state ≠ .verified) : execSchedule s = .next (s.abort 0x0F003 aBadState) := by
  rw [execSchedule, State.scheduleOp, if_neg hn]
  rfl

theorem unschedule_ofId (hs : s.upd.state = .scheduled) (hi : id = s.upd.actId) :
    execUnschedule id s = .next { s with upd.state := .verified, upd.deferred := false } := by
  rw [execUnschedule, State.unscheduleOp, if_neg (not_not.mpr hs), if_neg (not_not.mpr hi), cmdEnd_done]

theorem unschedule_badValue (hs : s.upd.state = .scheduled) (hi : id ≠ s.upd.actId) :
    execUnschedule id s = .next (s.abort 0x0F003 aBadValue) := by
  rw [execUnschedule, State.unscheduleOp, if_neg (not_not.mpr hs), if_pos hi]
  rfl

theorem unschedule_badState (hn : s.upd.state ≠ .scheduled) (id : Nat) :
    execUnschedule id s = .next (s.abort 0x0F003 aBadState) := by
  rw [execUnschedule, State.unscheduleOp, if_pos hn]
  rfl

/-! ### The profile commands -/

theorem profileSelect_loads {n : Fin 4} (hl : s.upd.busy = none ∧ (s.profile n).state = 1 ∧ s.table.stage = .empty
    ∧ (s.power.state ≠ .full ∨ s.sameRws n = true)) :
    execProfileSelect n s = .next { s.loadProfile n with upd.selecting := some n.val } := by
  rw [execProfileSelect, State.selectOp, if_pos (hl.imp_left Option.isNone_iff_eq_none.mpr), cmdEnd_done]

theorem profileSelect_badState {n : Fin 4} (hn : ¬(s.upd.busy = none ∧ (s.profile n).state = 1 ∧ s.table.stage = .empty
    ∧ (s.power.state ≠ .full ∨ s.sameRws n = true))) :
    execProfileSelect n s = .next (s.abort 0x0F012 aBadState) := by
  rw [execProfileSelect, State.selectOp, if_neg (mt (And.imp_left Option.isNone_iff_eq_none.mp) hn)]
  rfl

/-- A half of at most 393,216 words is to be kept in the profile. -/
theorem storeHalf_keeps {n : Nat} {h : Half} (hw : h.cLength ≤ 393216) : s.storeHalf n h = ({ s with
    upd.busy := some (n, { state := 1, pformat := s.upd.pformat, container := h.container, imageId := h.imageId }) }, 0) :=
  if_pos hw

theorem storeHalf_badState {n : Nat} {h : Half} (hw : ¬h.cLength ≤ 393216) : s.storeHalf n h = (s, aBadState) := if_neg hw

theorem profileStore_keeps (n : Fin 4) (hs : s.upd.busy = none ∧ s.activeHalf.cLength ≤ 393216) (hv : s.table.valid = true) :
    execProfileStore n s = .next { s with upd.busy := some (n.val,
      { state := 1, pformat := s.upd.pformat, container := s.activeHalf.container, imageId := s.activeHalf.imageId }) } := by
  obtain ⟨hb, hw⟩ := hs
  rw [execProfileStore, State.storeOp, if_pos ⟨Option.isNone_iff_eq_none.mpr hb, hv⟩, storeHalf_keeps hw, cmdEnd_done]

theorem profileStore_badState (n : Fin 4)
    (hn : ¬(s.upd.busy = none ∧ s.activeHalf.cLength ≤ 393216) ∨ s.table.valid = false) :
    execProfileStore n s = .next (s.abort 0x0F012 aBadState) := by
  rw [execProfileStore, State.storeOp]
  split
  next hp =>
    obtain ⟨hb, hk⟩ := hp
    have hw : ¬s.activeHalf.cLength ≤ 393216 := by simpa [Option.isNone_iff_eq_none.mp hb, hk] using hn
    rw [storeHalf_badState hw]
    rfl
  next => rfl

theorem storeStaging_keeps (n : Fin 4) (hs : s.upd.busy = none ∧ s.stagingHalf.cLength ≤ 393216)
    (ha : s.table.stage = .admitted) :
    execStoreStaging n s = .next { s with upd.busy := some (n.val,
      { state := 1, pformat := s.upd.pformat, container := s.stagingHalf.container, imageId := s.stagingHalf.imageId }) } := by
  obtain ⟨hb, hw⟩ := hs
  rw [execStoreStaging, State.storeStagingOp, if_pos ⟨Option.isNone_iff_eq_none.mpr hb, ha⟩, storeHalf_keeps hw, cmdEnd_done]

theorem storeStaging_badState (n : Fin 4)
    (hn : ¬(s.upd.busy = none ∧ s.stagingHalf.cLength ≤ 393216) ∨ s.table.stage ≠ .admitted) :
    execStoreStaging n s = .next (s.abort 0x0F012 aBadState) := by
  rw [execStoreStaging, State.storeStagingOp]
  split
  next hp =>
    obtain ⟨hb, hk⟩ := hp
    have hw : ¬s.stagingHalf.cLength ≤ 393216 := by simpa [Option.isNone_iff_eq_none.mp hb, hk] using hn
    rw [storeHalf_badState hw]
    rfl
  next => rfl

theorem profileErase_empties {n : Fin 4} (hb : s.upd.busy = none) (hn : n.val ≠ s.upd.selected) :
    execProfileErase n s = .next { s with upd.busy := some (n.val, Profile.none) } := by
  rw [execProfileErase, State.eraseOp, if_pos ⟨Option.isNone_iff_eq_none.mpr hb, hn⟩, cmdEnd_done]

theorem profileErase_badState {n : Fin 4} (ho : s.upd.busy ≠ none ∨ n.val = s.upd.selected) :
    execProfileErase n s = .next (s.abort 0x0F012 aBadState) := by
  have hn : ¬(s.upd.busy.isNone ∧ n.val ≠ s.upd.selected) :=
    fun ⟨hb, hn⟩ => ho.elim (· (Option.isNone_iff_eq_none.mp hb)) hn
  rw [execProfileErase, State.eraseOp, if_neg hn]
  rfl

theorem profileCommandDone_none (hb : s.upd.busy = none) : execProfileCommandDone s = .next s := by
  simp only [execProfileCommandDone, hb]

theorem profileCommandDone_ends {n : Nat} {x : Profile} (hb : s.upd.busy = some (n, x)) :
    execProfileCommandDone s = .next (if x.state = 1 then State.copyForce { s.setProfile n x with upd.busy := none } n .prof
      else State.clearCopy { s.setProfile n x with upd.busy := none } n) := by
  simp only [execProfileCommandDone, hb]

end Update
end Sys2Proof.Laws

namespace Sys2Proof.Proofs

/-- Settles O54: each clause is the case of that name of the commands above. -/
theorem updateCommands : Obligations.UpdateCommands := by
  refine fun s => ⟨?block, ⟨updateDiscard_empties, updateDiscard_badState⟩,
    ⟨updateCheck_begins, updateCheck_badState, fun down => congrArg _ (byShepherd_down down _)⟩,
    ⟨updateCheckDone_none, updateCheckDone_verified, updateCheckDone_refused⟩, ⟨schedule_takesSettings, schedule_badState⟩,
    fun id => ⟨unschedule_ofId, unschedule_badValue, (unschedule_badState · id)⟩, ?profiles, profileCommandDone_none, ?done⟩
  case block =>
    intro frame w d i open_ store refused
    refine ⟨updateBlock_badLength, fun hl hn => ?badState, fun hl ho hc hi => ?header, fun hl ho hc hi => ?data,
      fun hl hc => ⟨fun he hi => ?first, fun he hi => ?none, fun hr hi => ?stored, fun hr hi hd => ?same,
        fun hr hi hd => ?other⟩⟩
    case badState => exact updateBlock_ofLength hl (frameIn_badState hn)
    case header =>
      rw [← refuseFrame_header hi]
      exact updateBlock_ofLength hl (frameIn_refused ho hc)
    case data =>
      have hs : refused = s.refuseFrame (s.frameCause w) (frameIndex w == 0) := (refuseFrame_data hi _).symm
      rw [hs]
      exact updateBlock_ofLength hl (frameIn_refused ho hc)
    case first =>
      have hs : store = s.storeBlock 0 d := congrArg (s.storeBlock · d) hi
      rw [hs]
      exact updateBlock_ofLength hl ((frameIn_passes (.inl he) hc).trans (takeBlock_firstHeader he hi))
    case none => exact updateBlock_ofLength hl ((frameIn_passes (.inl he) hc).trans (takeBlock_noHeader he hi))
    case stored => exact updateBlock_ofLength hl ((frameIn_passes (.inr hr) hc).trans (takeBlock_stored hr hi))
    case same => exact updateBlock_ofLength hl ((frameIn_passes (.inr hr) hc).trans (takeBlock_sameHeader hr hi hd))
    case other => exact updateBlock_ofLength hl ((frameIn_passes (.inr hr) hc).trans (takeBlock_otherHeader hr hi hd))
  case profiles =>
    exact fun n => ⟨profileSelect_loads, profileSelect_badState, profileStore_keeps n, profileStore_badState n,
      storeStaging_keeps n, storeStaging_badState n, profileErase_empties, profileErase_badState⟩
  case done =>
    exact fun n x hb => ⟨fun h1 => (profileCommandDone_ends hb).trans (by rw [if_pos h1]),
      fun hn => (profileCommandDone_ends hb).trans (by rw [if_neg hn])⟩

end Sys2Proof.Proofs
end

section
/-! What a firing leaves of the dictionary: everything but its counters. One lemma per operation that a firing is made of,
lower layers first. -/

open Sys2Proof Sys2Proof.Machine Sys2Proof.Laws

namespace Sys2Proof.Laws

/-- What the dictionary holds besides its counters: settings, sessions, subscriptions and requests. -/
def dictRest (s : State) : DictSt := { s.dict with counts := [] }

variable (s : State)

/-- A fold keeps it where each of its steps does. -/
theorem foldl_dictRest {α : Type} {f : State → α → State} (hf : ∀ s x, dictRest (f s x) = dictRest s) (l : List α)
    (s : State) : dictRest (l.foldl f s) = dictRest s := by
  induction l generalizing s with
  | nil => rfl
  | cons x l ih => exact (ih _).trans (hf s x)

/-- So does a choice where both ways do. -/
theorem ite_dictRest {c : Prop} [Decidable c] {a b s : State} (ha : dictRest a = dictRest s) (hb : dictRest b = dictRest s) :
    dictRest (if c then a else b) = dictRest s := by
  split <;> assumption

/-! ### Counters, interrupts, records and trace -/

theorem interrupt_dictRest (k : Nat) : dictRest (s.interrupt k) = dictRest s := by
  unfold State.interrupt State.msiSend
  grind [dictRest, State.emit, State.bump, State.setCount]

theorem tallyEvent_dictRest (c : Nat) (p : List Nat) : dictRest (s.tallyEvent c p) = dictRest s := by
  unfold State.tallyEvent
  grind [dictRest, State.bump, State.setCount]

theorem firePlain_dictRest (n inst detail : Nat) (forced : Bool) : dictRest (s.firePlain n inst detail forced) = dictRest s := by
  unfold State.firePlain State.setSrc
  grind [dictRest, interrupt_dictRest, tallyEvent_dictRest]

theorem traceRec_dictRest (type w0 : Nat) (rest : List Nat) : dictRest (s.traceRec type w0 rest) = dictRest s := by
  unfold State.traceRec State.traceWords
  have ht (l : List (List Word)) (s : State) : dictRest (l.foldl State.traceTail s) = dictRest s :=
    foldl_dictRest (f := State.traceTail) (fun _ _ => rfl) l s
  grind [dictRest, State.bump, State.setCount, State.traceTail, firePlain_dictRest]

theorem fireCore_dictRest (n inst detail : Nat) (forced : Bool) : dictRest (s.fireCore n inst detail forced) = dictRest s := by
  unfold State.fireCore
  grind [firePlain_dictRest, traceRec_dictRest]

/-! ### The units that a safe state stops -/

theorem keepSafe_dictRest (before : State) : dictRest (s.keepSafe before) = dictRest s := by
  unfold State.keepSafe
  split
  · rfl
  · refine foldl_dictRest (fun s p => ?_) _ _
    split <;> rfl

theorem droverSafe_dictRest (k : Nat) : dictRest (s.droverSafe k) = dictRest s := by
  unfold State.droverSafe State.setDrover
  exact ite_dictRest rfl rfl

theorem linkSafe_dictRest (l : Nat) : dictRest (s.linkSafe l) = dictRest s := by
  unfold State.linkSafe State.linkCount State.emit State.setLink
  grind [dictRest, State.bump, State.setCount, fireCore_dictRest]

theorem beaconsSafe_dictRest : dictRest s.beaconsSafe = dictRest s := by
  refine foldl_dictRest (fun s b => ?_) _ _
  unfold State.beaconSafe State.setBeacon
  grind [dictRest, fireCore_dictRest]

theorem setChan_dictRest (c : Nat) (x : BusChan) : dictRest (s.setChan c x) = dictRest s := rfl

theorem withdraw_dictRest (c b : Nat) : dictRest (s.withdraw c b) = dictRest s := ite_dictRest rfl rfl

theorem busHaltOp_dictRest (c : Nat) : dictRest (s.busHaltOp c) = dictRest s :=
  calc dictRest (s.busHaltOp c)
    _ = dictRest (s.dropFrames c) := setChan_dictRest _ c _
    _ = dictRest (((s.withdraw c 0).withdraw c 1).withdraw c 2) := setChan_dictRest _ c _
    _ = dictRest ((s.withdraw c 0).withdraw c 1) := withdraw_dictRest _ c 2
    _ = dictRest (s.withdraw c 0) := withdraw_dictRest _ c 1
    _ = dictRest s := withdraw_dictRest s c 0

theorem busesSafe_dictRest (test : Nat → Bool) : dictRest (s.busesSafe test) = dictRest s := by
  unfold State.busesSafe
  refine foldl_dictRest (fun s p => ?_) _ s
  exact busHaltOp_dictRest s p.1

theorem tileSafe_dictRest (t : Nat) : dictRest (s.tileSafe t) = dictRest s :=
  (busesSafe_dictRest _ _).trans (foldl_dictRest (fun s j => droverSafe_dictRest s (16 * t + j)) _ s)

theorem quayHaltOp_dictRest : dictRest s.quayHaltOp = dictRest s := rfl

theorem gateDown_dictRest (g cause : Nat) : dictRest (s.gateDown g cause) = dictRest s := by
  unfold State.gateDown State.setGate
  exact ite_dictRest rfl rfl

theorem pairBell_dictRest : dictRest s.pairBell = dictRest s := by
  unfold State.pairBell State.pairOut
  exact ite_dictRest rfl rfl

/-! ### A firing -/

theorem enterSafe_dictRest (n inst : Nat) : dictRest (s.enterSafe n inst) = dictRest s := by
  unfold State.enterSafe
  split
  · split
    · exact tileSafe_dictRest s inst
    · rfl
  · split
    · exact foldl_dictRest (fun s j => droverSafe_dictRest s (8 * inst + j)) _ s
    · exact droverSafe_dictRest s inst
  · exact busHaltOp_dictRest s inst
  · exact linkSafe_dictRest s inst
  · exact beaconsSafe_dictRest s
  · exact quayHaltOp_dictRest s
  · refine foldl_dictRest (fun s l => ?_) _ s
    split
    · exact linkSafe_dictRest s l
    · rfl
  · exact gateDown_dictRest s inst 9
  · rfl

theorem enterFatal_dictRest : dictRest s.enterFatal = dictRest s := by
  unfold State.enterFatal
  extract_lets t u v
  have ht : dictRest t = dictRest s := foldl_dictRest droverSafe_dictRest _ s
  have hu : dictRest u = dictRest s := (busesSafe_dictRest t _).trans ht
  have hv : dictRest v = dictRest s := (foldl_dictRest linkSafe_dictRest _ u).trans hu
  clear_value v
  exact (foldl_dictRest (fun s g => gateDown_dictRest s g 9) _ _).trans
    ((quayHaltOp_dictRest _).trans ((beaconsSafe_dictRest v).trans hv))

/-- A firing changes nothing of the dictionary but its counters. -/
theorem fire_dictRest (n inst detail : Nat) (forced : Bool) : dictRest (s.fire n inst detail forced) = dictRest s := by
  unfold State.fire
  extract_lets before t severe u v w
  have ht : dictRest t = dictRest s := fireCore_dictRest s n inst detail forced
  clear_value t
  have hu : dictRest u = dictRest s := ite_dictRest ht ht
  have hv : dictRest v = dictRest s :=
    (foldl_dictRest (fun s i => (enterSafe_dictRest _ n i).trans (keepSafe_dictRest s before)) _ u).trans hu
  clear_value v
  have hw : dictRest w = dictRest s :=
    ite_dictRest ((enterFatal_dictRest _).trans ((keepSafe_dictRest v before).trans hv)) hv
  exact (pairBell_dictRest w).trans hw

end Sys2Proof.Laws
end

section
/-! What the commands of the staging half leave (R107 to R113), and the obligation TableStageMachine. -/

open Sys2Proof Sys2Proof.Machine Sys2Proof.Laws

namespace Sys2Proof.Laws

/-! ### The staging half -/

section Staging
variable (s : State) (h : Half)

/-- Replacing the staging half changes nothing but the tables. -/
theorem setStaging_frame : ∃ t, s.setStaging h = { s with table := t } := by
  unfold State.setStaging
  split
  · exact ⟨_, rfl⟩
  · exact ⟨_, rfl⟩

theorem setStaging_valid : (s.setStaging h).table.valid = s.table.valid := by
  unfold State.setStaging
  split <;> rfl

theorem setStaging_active : (s.setStaging h).table.active = s.table.active := by
  unfold State.setStaging
  split <;> rfl

theorem setStaging_stagingHalf : (s.setStaging h).stagingHalf = h := by
  cases hv : s.table.valid <;> cases ha : s.table.active <;> simp [State.setStaging, State.stagingHalf, hv, ha]

/-- While a half is active, the staging half is the other one (R107). -/
theorem setStaging_activeHalf (hv : s.table.valid = true) : (s.setStaging h).activeHalf = s.activeHalf := by
  cases ha : s.table.active <;> simp [State.setStaging, State.activeHalf, hv, ha]

end Staging

/-! ### Pilot's report, in accesses of the ledger -/

section Report
variable (s : State)

/-- An access to a port of the pen pool enters the ledger, and reaches no tile (R75, R138). -/
theorem enterPort_ledger (c port dir count gap next : Nat) :
    ∃ l, s.enter c [⟨9, port, dir, count, gap, next⟩] = { s with ledger := l } := by
  unfold State.enter State.takeAccess
  split
  · exact ⟨_, rfl⟩
  · exact ⟨_, rfl⟩

/-- Accesses for words that come from no named line change nothing but the ledger. -/
theorem enterWords_ledger (c n : Nat) (into : Bool) : ∃ l, s.enterWords c n into = { s with ledger := l } := by
  unfold State.enterWords
  induction List.range ((n + 3) / 4) generalizing s with
  | nil => exact ⟨s.ledger, rfl⟩
  | cons _ ks ih =>
    obtain ⟨l, hl⟩ : ∃ l, s.enter c [if into then penIn 0 0 else penOut 0] = { s with ledger := l } := by
      cases into <;> exact enterPort_ledger s c ..
    obtain ⟨l', hl'⟩ := ih { s with ledger := l }
    exact ⟨l', by rw [List.foldl_cons, hl, hl']⟩

/-- The report is written, in accesses of the ledger (R126). -/
theorem writeReport_ledger (r : List Nat) : ∃ l, s.writeReport r = { s with ledger := l, table.report := r } := by
  obtain ⟨l, hl⟩ := enterWords_ledger s 7 r.length false
  exact ⟨l, by rw [State.writeReport, hl]⟩

end Report

/-- The load stores are free again: no table changes. -/
theorem droveUnstage_table (s : State) : s.droveUnstage.table = s.table := by
  unfold State.droveUnstage
  induction List.range 32 generalizing s with
  | nil => rfl
  | cons d ds ih =>
    refine (ih _).trans ?_
    dsimp only
    split <;> rfl

theorem emptyStaging_table (s : State) : s.emptyStaging.table =
    { (s.setStaging Half.blank).table with stage := .empty, stagingId := 0, fromProfile := none } :=
  droveUnstage_table _

/-- A DISCARD leaves a blank half (R111). -/
theorem emptyStaging_stagingHalf (s : State) : s.emptyStaging.stagingHalf = Half.blank := by
  rw [State.stagingHalf, emptyStaging_table]
  exact setStaging_stagingHalf s Half.blank

theorem emptyStaging_activeHalf (s : State) (hv : s.table.valid = true) : s.emptyStaging.activeHalf = s.activeHalf := by
  rw [State.activeHalf, emptyStaging_table]
  exact setStaging_activeHalf s Half.blank hv

/-! ### TABLE_CMD -/

section Commands
variable {s : State}

theorem tableOpen_opens (hs : s.table.stage = .empty ∨ s.table.stage = .refused) : execTableOpen s = .next s.openTable := by
  rcases hs with h | h <;> simp only [execTableOpen, State.tableOpenOp, h]

theorem tableOpen_badState (hE : s.table.stage ≠ .empty) (hR : s.table.stage ≠ .refused) :
    execTableOpen s = .next (s.abort 0x02021 aBadState) := by
  unfold execTableOpen State.tableOpenOp
  split
  case h_1 h => exact absurd h hE
  case h_2 h => exact absurd h hR
  case h_3 => rfl

theorem tableCheck_begins (up : s.dict.shepherds = true)
    (hs : s.table.stage = .loading ∨ (s.table.stage = .refused ∧ s.reportCode = cAborted)) :
    execTableCheck s = .next (State.reportRuns { s with table.stage := .checking }) := by
  rw [execTableCheck, byShepherd_up up, State.tableCheckOp, if_pos hs]

theorem tableCheck_badState (up : s.dict.shepherds = true) (hL : s.table.stage ≠ .loading)
    (hR : s.table.stage ≠ .refused ∨ s.reportCode ≠ cAborted) :
    execTableCheck s = .next (s.abort 0x02021 aBadState) := by
  rw [execTableCheck, byShepherd_up up, State.tableCheckOp, if_neg (not_or.mpr ⟨hL, not_and_or.mpr hR⟩)]

theorem tableArm_arms (hs : s.table.stage = .admitted) : execTableArm s = .next s.arm := congrArg _ (if_pos hs)

theorem tableArm_badState (hn : s.table.stage ≠ .admitted) : execTableArm s = .next (s.abort 0x02021 aBadState) :=
  congrArg _ (if_neg hn)

theorem tableDisarm_admits (hs : s.table.stage = .armed) : execTableDisarm s = .next { s with table.stage := .admitted } :=
  congrArg _ (if_pos hs)

theorem tableDisarm_badState (hn : s.table.stage ≠ .armed) : execTableDisarm s = .next (s.abort 0x02021 aBadState) :=
  congrArg _ (if_neg hn)

theorem tableDiscard_empties (hs : s.table.stage = .loading ∨ s.table.stage = .refused ∨ s.table.stage = .admitted) :
    execTableDiscard s = .next s.emptyStaging := by
  rcases hs with h | h | h <;> simp only [execTableDiscard, State.tableDiscardOp, h]

theorem tableDiscard_badState (hL : s.table.stage ≠ .loading) (hR : s.table.stage ≠ .refused)
    (hA : s.table.stage ≠ .admitted) : execTableDiscard s = .next (s.abort 0x02021 aBadState) := by
  unfold execTableDiscard State.tableDiscardOp
  split
  case h_1 h => exact absurd h hL
  case h_2 h => exact absurd h hR
  case h_3 h => exact absurd h hA
  case h_4 => rfl

end Commands

/-! ### ARM -/

/-- A half that is ARMED now, before it shows whether the next tide start is its swap (R112). -/
def armedNow (s : State) : State :=
  { s with table.armedAt := s.tide.t + (if s.tide.off = 0 then 0 else 1), table.armUnits := s.now, table.stage := .armed }

section Arm
variable (s : State)

theorem arm_eq : s.arm = if (armedNow s).swapsNext then { armedNow s with table.stage := .committed } else armedNow s := rfl

/-- The half is COMMITTED where the next tide start is its swap, else ARMED (R112). -/
theorem arm_stage : s.arm.table.stage = if s.arm.swapsNext then .committed else .armed := by
  by_cases hn : (armedNow s).swapsNext = true
  · have hc : State.swapsNext { armedNow s with table.stage := .committed } = true := hn
    rw [arm_eq, if_pos hn, if_pos hc]
  · rw [arm_eq, if_neg hn, if_neg hn]
    rfl

theorem arm_armed_or_committed : s.arm.table.stage = .armed ∨ s.arm.table.stage = .committed := by
  rw [arm_stage]
  split
  · exact .inr rfl
  · exact .inl rfl

/-- While no tide runs, no tide start is its swap. -/
theorem arm_stage_of_noTide (hr : s.tideRuns = false) : s.arm.table.stage = .armed := by
  have hr : (armedNow s).tideRuns = false := hr
  have hn : ¬(armedNow s).swapsNext = true := by simp [State.swapsNext, hr]
  rw [arm_eq, if_neg hn]
  rfl

/-- ARM changes nothing of the table but its stage and what the swap goes by. -/
theorem arm_table : ∃ stage at_ units,
    s.arm.table = { s.table with stage := stage, armedAt := at_, armUnits := units } := by
  rw [arm_eq]
  split
  · exact ⟨_, _, _, rfl⟩
  · exact ⟨_, _, _, rfl⟩

theorem arm_active : s.arm.table.active = s.table.active := by
  obtain ⟨stage, at_, units, h⟩ := arm_table s
  rw [h]

theorem arm_stagingHalf : s.arm.stagingHalf = s.stagingHalf := by
  obtain ⟨stage, at_, units, h⟩ := arm_table s
  unfold State.stagingHalf
  rw [h]

theorem arm_activeHalf : s.arm.activeHalf = s.activeHalf := by
  obtain ⟨stage, at_, units, h⟩ := arm_table s
  unfold State.activeHalf
  rw [h]

end Arm
end Sys2Proof.Laws

namespace Sys2Proof.Proofs

/-- Settles O20: each clause is the case of that name of the commands above. -/
theorem tableStageMachine : Obligations.TableStageMachine := by
  refine ⟨?opens, fun s => tableOpen_badState, ?checks, fun s => tableCheck_badState,
    fun s down => congrArg _ (byShepherd_down down _), ?arms, fun s => tableArm_badState, fun s => tableDisarm_admits,
    fun s => tableDisarm_badState, ?discards, fun s => tableDiscard_badState⟩
  case opens =>
    exact fun s hs => ⟨s.openTable, tableOpen_opens hs, rfl, setStaging_stagingHalf s Half.blank, rfl,
      setStaging_valid s Half.blank, setStaging_active s Half.blank, setStaging_activeHalf s Half.blank⟩
  case checks =>
    intro s up hs
    obtain ⟨l, hl⟩ := writeReport_ledger { s with table.stage := .checking } _
    exact ⟨_, (tableCheck_begins up hs).trans (congrArg _ hl), rfl, rfl, rfl⟩
  case arms =>
    exact fun s hs => ⟨s.arm, tableArm_arms hs, arm_stage s, arm_stage_of_noTide s, arm_active s, arm_stagingHalf s,
      arm_activeHalf s⟩
  case discards =>
    intro s hs
    have ht := emptyStaging_table s
    exact ⟨s.emptyStaging, tableDiscard_empties hs, congrArg TableSt.stage ht, emptyStaging_stagingHalf s,
      (congrArg TableSt.valid ht).trans (setStaging_valid s Half.blank),
      (congrArg TableSt.active ht).trans (setStaging_active s Half.blank), emptyStaging_activeHalf s⟩

end Sys2Proof.Proofs
end

section
/-! What the end of a check and a restart of the shepherd cores leave (R31, R122 to R129), and the obligation
TableChecksEnd. -/

open Sys2Proof Sys2Proof.Machine Sys2Proof.Laws

namespace Sys2Proof.Laws

/-! ### What work on the staging half leaves -/

/-- What everything that a check does to the staging half before its report leaves as it is: tide, time, image, pens, update,
Fold, service port, the dictionary but its counters, and the active half while there is one. -/
structure Beside (s₀ s : State) : Prop where
  tide : s.tide = s₀.tide
  time : s.time = s₀.time
  image : s.image = s₀.image
  pen : s.pen = s₀.pen
  upd : s.upd = s₀.upd
  fold : s.fold = s₀.fold
  svc : s.svc = s₀.svc
  dictRest : dictRest s = dictRest s₀
  valid : s.table.valid = s₀.table.valid
  activeHalf : s₀.table.valid = true → s.activeHalf = s₀.activeHalf

theorem Beside.refl (s : State) : Beside s s := ⟨rfl, rfl, rfl, rfl, rfl, rfl, rfl, rfl, rfl, fun _ => rfl⟩

theorem Beside.trans {a b c : State} (h : Beside a b) (g : Beside b c) : Beside a c :=
  ⟨g.tide.trans h.tide, g.time.trans h.time, g.image.trans h.image, g.pen.trans h.pen, g.upd.trans h.upd, g.fold.trans h.fold,
    g.svc.trans h.svc, g.dictRest.trans h.dictRest, g.valid.trans h.valid,
    fun hv => (g.activeHalf (h.valid.trans hv)).trans (h.activeHalf hv)⟩

theorem Beside.ite {c : Prop} [Decidable c] {s a b : State} (ha : Beside s a) (hb : Beside s b) :
    Beside s (if c then a else b) := by
  split <;> assumption

theorem Beside.foldl {α : Type} {f : State → α → State} (hf : ∀ s x, Beside s (f s x)) (l : List α) (s : State) :
    Beside s (l.foldl f s) := by
  induction l generalizing s with
  | nil => exact .refl s
  | cons x l ih => exact (hf s x).trans (ih _)

section Operations
variable (s : State)

theorem fire_beside (n inst detail : Nat) (forced : Bool) : Beside s (s.fire n inst detail forced) :=
  have h := fires_fire s n inst detail forced (Fires.refl s)
  ⟨h.tide, h.time, h.image, h.pen, h.upd, h.fold, h.svc, fire_dictRest s n inst detail forced, congrArg _ h.table,
    fun _ => by rw [State.activeHalf, h.table]; rfl⟩

theorem bump_beside (e sub k : Nat) : Beside s (s.bump e sub k) := ⟨rfl, rfl, rfl, rfl, rfl, rfl, rfl, rfl, rfl, fun _ => rfl⟩

theorem draw_beside : Beside s s.draw.1 := ⟨rfl, rfl, rfl, rfl, rfl, rfl, rfl, rfl, rfl, fun _ => rfl⟩

theorem setDrove_beside (d : Nat) (x : Drove) : Beside s (s.setDrove d x) :=
  ⟨rfl, rfl, rfl, rfl, rfl, rfl, rfl, rfl, rfl, fun _ => rfl⟩

theorem setStaging_beside (h : Half) : Beside s (s.setStaging h) := by
  have hv := setStaging_valid s h
  have ha := setStaging_activeHalf s h
  obtain ⟨t, ht⟩ := setStaging_frame s h
  rw [ht] at hv ha ⊢
  exact ⟨rfl, rfl, rfl, rfl, rfl, rfl, rfl, rfl, hv, ha⟩

/-- The words of a report enter the ledger. -/
theorem writeReport_beside (r : List Nat) : Beside s (s.writeReport r) := by
  obtain ⟨l, hl⟩ := writeReport_ledger s r
  rw [hl]
  exact ⟨rfl, rfl, rfl, rfl, rfl, rfl, rfl, rfl, rfl, fun _ => rfl⟩

/-- The load stores of the droves go to the staging half; an exchange still pending is cancelled and fires. -/
theorem droveStage_beside (sec : List Word) : Beside s (s.droveStage sec) := by
  refine Beside.foldl (fun s d => ?_) _ s
  exact .ite ((setDrove_beside s d _).trans (fire_beside _ 99 d 0 false)) (setDrove_beside s d _)

theorem unpackHalf_beside (h : Half) : Beside s (s.unpackHalf h) := by
  unfold State.unpackHalf
  extract_lets u t
  split
  · exact (setStaging_beside s u).trans (droveStage_beside t _)
  · exact setStaging_beside s u

/-- The key operation of a signature counts, and fires where it is refused. -/
theorem signCount_beside (h : Half) : Beside s (s.signCount h) :=
  .ite (.refl s) (.ite (bump_beside s _ _ _) ((bump_beside s _ _ _).trans (fire_beside _ 306 0 0 false)))

end Operations

/-! ### The end of a check -/

/-- A half that is REFUSED with a failure's report, before PILOT_REFUSED fires. -/
def halfRefused (s : State) (f : PFail) (id elapsed : Nat) : State :=
  { s.writeReport (f.report elapsed) with
    table.stage := .refused, table.stagingId := if 6 ≤ f.step then id else 0, upd.selecting := none }

/-- A half that is ADMITTED, before one that a profile brought is armed. -/
def halfAdmitted (s : State) (id elapsed : Nat) : State :=
  { s.writeReport (admittedReport elapsed) with table.stage := .admitted, table.stagingId := id }

section Ends
variable {s : State} {elapsed : Nat}

/-- A check that finds a failure ends with the half REFUSED. -/
theorem checkEnds_refused {f : PFail} (hf : s.checkTable s.stagingHalf = some f) : ∃ u, Beside s u ∧
    s.checkEnds elapsed = (halfRefused u f s.stagingHalf.cImageId elapsed).fire 16 0 := by
  unfold State.checkEnds
  dsimp only
  rw [hf]
  exact ⟨_, .ite (signCount_beside s _) ((signCount_beside s _).trans (unpackHalf_beside _ _)), rfl⟩

/-- A check that finds none ends with the half ADMITTED, and armed where a profile brought it (R570). -/
theorem checkEnds_admitted (hf : s.checkTable s.stagingHalf = none) : ∃ u, Beside s u ∧ s.checkEnds elapsed =
    if s.upd.selecting.isSome then (halfAdmitted u s.stagingHalf.cImageId elapsed).armProfile
    else halfAdmitted u s.stagingHalf.cImageId elapsed := by
  unfold State.checkEnds
  dsimp only
  rw [hf]
  have hu := (signCount_beside s s.stagingHalf).trans (unpackHalf_beside _ s.stagingHalf)
  refine ⟨_, hu, ?_⟩
  have hs : (halfAdmitted ((s.signCount s.stagingHalf).unpackHalf s.stagingHalf) s.stagingHalf.cImageId elapsed).upd.selecting
      = s.upd.selecting := congrArg UpdateSt.selecting ((writeReport_beside _ _).upd.trans hu.upd)
  rw [← hs]
  rfl

theorem tableCheckDone_ends (up : s.dict.shepherds = true) (hc : s.table.stage = .checking) :
    execTableCheckDone elapsed s = .next (s.checkEnds elapsed) := by
  rw [execTableCheckDone, byShepherd_up up, if_pos hc]

theorem tableCheckDone_none (ho : s.dict.shepherds = false ∨ s.table.stage ≠ .checking) :
    execTableCheckDone elapsed s = .next s := by
  rcases ho with down | hn
  · exact congrArg _ (byShepherd_down down _)
  · rw [execTableCheckDone, State.byShepherd, if_neg hn, ite_self]

/-- A half that a profile brought is armed at once (R570). -/
theorem armProfile_stage (u : State) : u.armProfile.table.stage = .armed ∨ u.armProfile.table.stage = .committed :=
  arm_armed_or_committed _

end Ends

/-! ### The shepherd cores restart alone -/

/-- CODE of a failure's report (R129, R130). -/
theorem report_code (f : PFail) (elapsed : Nat) : fld ((f.report elapsed).getD 0 0) 35 27 = f.code % 512 := by
  simp only [PFail.report, List.getD_cons_zero, fld, put, Nat.shiftLeft_eq, Nat.shiftRight_eq_div_pow]
  omega

/-- A check that ends with the shepherd cores is reported as aborted. -/
theorem reached_code (s : State) (v : Nat) : (s.reached v).code = cAborted := by
  unfold State.reached
  split <;> rfl

/-- A check that runs is aborted: the half is REFUSED (R127). -/
theorem abortCheck_refuses {s : State} (hc : s.table.stage = .checking) : ∃ u f id t, Beside s u ∧ f.code = cAborted ∧
    s.abortCheck = (halfRefused u f id t).fire 16 0 := by
  unfold State.abortCheck
  rw [if_pos hc]
  have hd : Beside s s.draw.1.draw.1 := (draw_beside s).trans (draw_beside _)
  exact ⟨_, _, _, _, .ite hd (hd.trans (unpackHalf_beside _ _)), reached_code _ _, rfl⟩

theorem abortCheck_none {s : State} (hn : s.table.stage ≠ .checking) : s.abortCheck = s := if_neg hn

/-- What is left beside is left so whatever the update holds. -/
theorem Beside.withUpd {a b : State} (h : Beside a b) (x : UpdateSt) : Beside { a with upd := x } { b with upd := x } :=
  ⟨h.tide, h.time, h.image, h.pen, rfl, h.fold, h.svc, h.dictRest, h.valid, h.activeHalf⟩

/-- A REFUSED half leaves of the update all but the profile selected. -/
theorem halfRefused_beside (s : State) (f : PFail) (id elapsed : Nat) :
    Beside s { halfRefused s f id elapsed with upd := s.upd } :=
  ((writeReport_beside s (f.report elapsed)).withUpd s.upd).trans
    ⟨rfl, rfl, rfl, rfl, rfl, rfl, rfl, rfl, rfl, fun _ => rfl⟩

/-- So does an aborted check. -/
theorem abortCheck_beside (s : State) : Beside s { s.abortCheck with upd := s.upd } := by
  by_cases hc : s.table.stage = .checking
  · obtain ⟨u, f, id, t, hu, -, ha⟩ := abortCheck_refuses hc
    rw [ha, ← hu.upd]
    exact hu.trans ((halfRefused_beside u f id t).trans ((fire_beside _ 16 0 0 false).withUpd u.upd))
  · rw [abortCheck_none hc]
    exact .refl s

theorem abortCheck_updState (s : State) : s.abortCheck.upd.state = s.upd.state := by
  by_cases hc : s.table.stage = .checking
  · obtain ⟨u, f, id, t, hu, -, ha⟩ := abortCheck_refuses hc
    have hw := (writeReport_beside u (f.report t)).upd.trans hu.upd
    rw [ha, (fire_beside _ 16 0 0 false).upd]
    exact (congrArg UpdateSt.state hw :)
  · rw [abortCheck_none hc]

theorem abortCheck_report {s : State} (hc : s.table.stage = .checking) :
    s.abortCheck.table.stage = .refused ∧ fld (s.abortCheck.table.report.getD 0 0) 35 27 = cAborted := by
  obtain ⟨u, f, id, t, -, hf, ha⟩ := abortCheck_refuses hc
  have hr : (halfRefused u f id t).table.report = f.report t := rfl
  rw [ha, (fires_fire _ 16 0 0 false (Fires.refl _)).table, hr, report_code, hf]
  exact ⟨rfl, rfl⟩

/-- The end of sessions leaves everything but the dictionary and the Fold's results. -/
theorem endSessions_frame (s : State) (test : Session → Bool) :
    ∃ d r, s.endSessions test = { s with dict := d, fold.results := r } := by
  unfold State.endSessions
  induction s.dict.sessions.filter fun p => test p.2 generalizing s with
  | nil => exact ⟨s.dict, s.fold.results, rfl⟩
  | cons p ps ih =>
    obtain ⟨d, r, h⟩ := ih (s.endSession p.1)
    exact ⟨d, r, h⟩

/-- When all sessions end, none is left. -/
theorem endSessions_all (s : State) : (s.endSessions fun _ => true).dict.sessions = [] := by
  have h (l : Tab Session) (s : State) (hs : s.dict.sessions = l) :
      (l.foldl (fun s p => s.endSession p.1) s).dict.sessions = [] := by
    induction l generalizing s with
    | nil => exact hs
    | cons p l ih => exact ih _ (by simp [State.endSession, hs, Tab.set])
  rw [State.endSessions, List.filter_true]
  exact h _ s rfl

/-- The steps of SHEPHERD_WATCHDOG (R31). -/
theorem watchdog_eq (core : Fin 4) (s : State) : execShepherdWatchdog core s = .next
    { (s.fire 4 core).dropClients.abortCheck.updateRestart.dropWaiting.mirrorPause with dict.shepherds := false } := rfl

/-- What the loss of the clients of the shepherd cores leaves, and what it ends (R31). -/
structure Dropped (s c : State) : Prop where
  table : c.table = s.table
  tide : c.tide = s.tide
  time : c.time = s.time
  image : c.image = s.image
  pen : c.pen = s.pen
  upd : c.upd = s.upd
  engine : c.fold.engine = s.fold.engine
  sessions : c.dict.sessions = []
  subs : c.dict.subs = []
  waiting : c.dict.waiting = []
  req : c.svc.req = []

theorem dropClients_dropped (s : State) : Dropped s s.dropClients := by
  have he := endSessions_all s
  obtain ⟨d, r, h⟩ := endSessions_frame s fun _ => true
  unfold State.dropClients
  rw [h] at he ⊢
  exact ⟨rfl, rfl, rfl, rfl, rfl, rfl, rfl, he, rfl, rfl, rfl⟩

/-- The same after a firing, as SHEPHERD_WATCHDOG makes one. -/
theorem fire_dropped (s : State) (n inst detail : Nat) (forced : Bool) :
    Dropped s (s.fire n inst detail forced).dropClients :=
  have f := fires_fire s n inst detail forced (Fires.refl s)
  have c := dropClients_dropped (s.fire n inst detail forced)
  ⟨c.table.trans f.table, c.tide.trans f.tide, c.time.trans f.time, c.image.trans f.image, c.pen.trans f.pen, c.upd.trans f.upd,
    c.engine.trans (congrArg FoldSt.engine f.fold), c.sessions, c.subs, c.waiting, c.req⟩

/-- An update check starts over (R562); nothing else changes. -/
theorem updateRestart_frame (s : State) :
    ∃ x, s.updateRestart = { s with upd := x } ∧ (s.upd.state = .checking → x.state = .receiving) := by
  unfold State.updateRestart
  split
  next => exact ⟨_, rfl, fun _ => rfl⟩
  next hn => exact ⟨s.upd, rfl, fun hc => absurd hc hn⟩

theorem restartDone_resumes {s : State} (down : s.dict.shepherds = false) :
    execShepherdRestartDone s = .next (State.mirrorResume { s with dict.shepherds := true }) :=
  congrArg _ (if_neg (by simp [down]))

theorem restartDone_none {s : State} (up : s.dict.shepherds = true) : execShepherdRestartDone s = .next s :=
  congrArg _ (if_pos up)

end Sys2Proof.Laws

namespace Sys2Proof.Proofs

/-- Settles O21: each clause is the case of that name of the commands above. -/
theorem tableChecksEnd : Obligations.TableChecksEnd := by
  refine ⟨?refused, ?admitted, fun elapsed s => tableCheckDone_none, ?watchdog, fun s => restartDone_resumes,
    fun s => restartDone_none⟩
  case refused =>
    intro elapsed s f up hc hf
    obtain ⟨u, hu, he⟩ := checkEnds_refused (elapsed := elapsed) hf
    have hr := hu.trans (writeReport_beside u (f.report elapsed))
    exact ⟨halfRefused u f s.stagingHalf.cImageId elapsed, (tableCheckDone_ends up hc).trans (congrArg _ he),
      (fires_fire _ 16 0 0 false (Fires.refl _)).table, rfl, rfl, rfl, hr.tide, hr.image, hr.activeHalf⟩
  case admitted =>
    intro elapsed s up hc hf
    obtain ⟨u, hu, he⟩ := checkEnds_admitted (elapsed := elapsed) hf
    have hr := hu.trans (writeReport_beside u (admittedReport elapsed))
    exact ⟨halfAdmitted u s.stagingHalf.cImageId elapsed, (tableCheckDone_ends up hc).trans (congrArg _ he), rfl, rfl, hr.tide,
      hr.image, hr.activeHalf, armProfile_stage _⟩
  case watchdog =>
    intro core s
    have hc := fire_dropped s 4 core 0 false
    generalize hC : (s.fire 4 core).dropClients = c at hc
    have ha := abortCheck_beside c
    have hstage : c.table.stage = s.table.stage := congrArg TableSt.stage hc.table
    obtain ⟨x, hx, hr⟩ := updateRestart_frame c.abortCheck
    have he : execShepherdWatchdog core s = .next { c.abortCheck with
        upd := x, fold.engine := c.abortCheck.fold.engine.take 1, pair.rx := [], pair.rxSeq := c.abortCheck.pair.committed,
        dict.shepherds := false } := by
      rw [watchdog_eq, hC, hx, State.dropWaiting, State.mirrorPause]
    have hd {α : Type} (g : DictSt → α) : g (dictRest c.abortCheck) = g (dictRest c) := congrArg g ha.dictRest
    refine ⟨_, he, rfl, fun hs => ?_, fun hs => ?_, (hd DictSt.sessions).trans hc.sessions, (hd DictSt.subs).trans hc.subs,
      (hd DictSt.waiting).trans hc.waiting, (congrArg SvcSt.req ha.svc).trans hc.req, fun hs => ?_, ?_, ha.tide.trans hc.tide,
      ha.time.trans hc.time, ha.pen.trans hc.pen, ha.image.trans hc.image⟩
    · exact abortCheck_report (hstage.trans hs)
    · exact (congrArg State.table (abortCheck_none (hstage ▸ hs))).trans hc.table
    · exact hr ((abortCheck_updState c).trans ((congrArg UpdateSt.state hc.upd).trans hs))
    · exact congrArg (List.take 1) ((congrArg FoldSt.engine ha.fold).trans hc.engine)

end Sys2Proof.Proofs
end

section
/-! What the commands of mirroring and divergence do, case by case (R428 to R439), and the obligation PairMirroring. -/

open Sys2Proof Sys2Proof.Machine Sys2Proof.Laws

namespace Sys2Proof.Laws

section Mirroring
variable {s : State} {seq : Nat}

/-! ### MIRROR and PAIR_COMMIT at the standby -/

theorem mirror_none {words : List Word} (ho : words.length = 0 ∨ 26 < words.length ∨ s.takesEpochs = false) :
    execMirror seq words s = .next s := by
  rcases ho with h0 | hlong | ht
  · rw [execMirror, if_pos (.inl h0)]
  · rw [execMirror, if_pos (.inr hlong)]
  · rw [execMirror, ht]
    simp

section Words
variable {words : List Word} (h0 : 0 < words.length) (h26 : words.length ≤ 26) (ht : s.takesEpochs = true)
include h0 h26 ht

theorem mirror_extends (hs : s.pair.rxSeq = seq) :
    execMirror seq words s = .next { s with pair.rx := s.pair.rx ++ words.map BitVec.toNat } := by
  have hn : ¬(words.length = 0 ∨ 26 < words.length) := by omega
  rw [execMirror, if_neg hn, if_neg (by simp [ht]), if_pos hs]

theorem mirror_replaces (hs : s.pair.rxSeq ≠ seq) :
    execMirror seq words s = .next { s with pair.rxSeq := seq, pair.rx := words.map BitVec.toNat } := by
  have hn : ¬(words.length = 0 ∨ 26 < words.length) := by omega
  rw [execMirror, if_neg hn, if_neg (by simp [ht]), if_neg hs]

end Words

section Commit
variable {count crc fk : Nat}

theorem pairCommit_none (ht : s.takesEpochs = false) : execPairCommit seq count crc fk s = .next s := by
  rw [execPairCommit, if_pos (by simp [ht])]

variable (ht : s.takesEpochs = true)
include ht

theorem pairCommit_commits (hw : seq = s.expected ∧ s.pair.rxSeq = seq ∧ (s.pair.rx.take count).length = count
      ∧ crcWords (s.pair.rx.take count) = crc) :
    execPairCommit seq count crc fk s = .next (State.pairCell (State.pairCount { s with
      pair.committed := seq, pair.rx := []
      pair.apply := s.pair.apply ++ [⟨seq, fk, splitItems ((s.pair.rx.take count).length + 1) (s.pair.rx.take count)⟩]
      pair.resync := s.pair.resync && !decide (count < 4096)
      pair.firstDone := s.pair.firstDone || decide (count < 4096) } 4) [put 14 4 6, seq]).tryStandby := by
  rw [execPairCommit, if_neg (by simp [ht]), if_pos hw]

theorem pairCommit_discards (hn : ¬(seq = s.expected ∧ s.pair.rxSeq = seq ∧ (s.pair.rx.take count).length = count
      ∧ crcWords (s.pair.rx.take count) = crc)) :
    execPairCommit seq count crc fk s = .next
      (State.pairCell (State.pairCount { s with pair.rx := [], pair.rxSeq := s.expected } 5) [put 14 4 7, s.expected]) := by
  rw [execPairCommit, if_neg (by simp [ht]), if_neg hn]

end Commit

/-! ### PAIR_ACK and NAK at the active -/

theorem pairAck_none (ho : s.takesPair = false ∨ s.pair.unacked.any (fun e => e.seq == seq) = false) :
    execPairAck seq s = .next s := by
  have hn : ¬(s.takesPair && s.pair.unacked.any fun e => e.seq == seq) = true := by
    rcases ho with h | h <;> simp [h]
  rw [execPairAck, State.byShepherd, if_neg hn, ite_self]

theorem nak_none (ho : s.takesPair = false ∨ s.mirrors = false) : execNak seq s = .next s := by
  have hp : (!(s.takesPair && s.mirrors)) = true := by
    rcases ho with h | h <;> simp [h]
  rw [execNak, State.byShepherd, if_pos hp, ite_self]

section Active
variable (up : s.dict.shepherds = true) (ht : s.takesPair = true)
include up ht

theorem pairAck_frees (ha : s.pair.unacked.any (fun e => e.seq == seq) = true) : execPairAck seq s = .next
    (State.closeEpoch { s with pair.unacked := s.pair.unacked.filter (fun e => e.seq != seq), pair.acked := seq }) := by
  rw [execPairAck, byShepherd_up up, if_pos (by rw [ht, ha]; rfl)]

theorem nak_resends (hm : s.mirrors = true) (ha : s.pair.unacked.any (fun e => e.seq == seq) = true) : execNak seq s = .next
    ((s.pair.unacked.dropWhile fun e => e.seq != seq).foldl (fun s e => s.sendEpoch e) (s.pairCount 5)) := by
  have ha : (s.pairCount 5).pair.unacked.any (fun e => e.seq == seq) = true := ha
  rw [execNak, byShepherd_up up, if_neg (by simp [ht, hm])]
  exact congrArg _ (if_pos ha)

theorem nak_resyncs (hm : s.mirrors = true) (hn : s.pair.unacked.any (fun e => e.seq == seq) = false) :
    execNak seq s = .next ((s.pairCount 5).startResync (seq % 2 ^ 18)) := by
  have hn : ¬(s.pairCount 5).pair.unacked.any (fun e => e.seq == seq) = true := ne_true_of_eq_false hn
  rw [execNak, byShepherd_up up, if_neg (by simp [ht, hm])]
  exact congrArg _ (if_neg hn)

end Active
end Mirroring

/-! ### Digests -/

section Digests
variable {s : State}

theorem pairDigestSend_none (hp : s.paired = false) : execPairDigestSend s = .next s := by
  rw [execPairDigestSend, if_pos (by simp [hp])]

/-- The cells of the last tide's digests leave (R430). -/
theorem pairDigestSend_paired (hp : s.paired = true) {ds : List Digest}
    (hd : s.pair.digests.filter (fun d => d.F == s.time.F - 1) = ds) : execPairDigestSend s = .next
    ((cut8 (ds.length + 1) ds).foldl (fun u c => u.pairCell ([put 14 4 2, c.length] ++ words36 (s.time.F - 1)
      ++ c.flatMap fun d => [putB 17 d.valid + put 0 10 d.region, fld d.value 31 16, fld d.value 15 0])) s) := by
  subst hd
  rw [execPairDigestSend, if_neg (by simp [hp])]

theorem pairDigest_none {f : Nat} {l : List (Nat × Bool × Nat)}
    (ho : 8 < l.length ∨ s.paired = false ∨ s.pair.silence = true ∨ s.linkUp 4 = false) : execPairDigest f l s = .next s := by
  rcases ho with hlong | ho
  · rw [execPairDigest, if_pos hlong]
  · have hp : (!s.takesPair || s.pair.silence) = true := by
      rcases ho with h | h | h <;> simp [State.takesPair, h]
    rw [execPairDigest, if_pos hp, ite_self]

/-- Each entry of a cell is compared with this unit's own (R430). -/
theorem pairDigest_compares {f : Nat} {l : List (Nat × Bool × Nat)} (hl : l.length ≤ 8) (hp : s.paired = true)
    (hs : s.pair.silence = false) (hu : s.linkUp 4 = true) :
    execPairDigest f l s = .next (l.foldl (fun s e => s.compare f e.1 e.2.1 e.2.2) s) := by
  rw [execPairDigest, if_neg (Nat.not_lt.mpr hl), if_neg (by simp [State.takesPair, hp, hs, hu])]

variable {f r value : Nat} {v : Bool}

theorem compare_absent (hd : s.pair.digests.find? (fun d => d.F == f && d.region == r) = none) :
    s.compare f r v value = s.pairCount 2 := by
  simp only [State.compare, hd]

variable {d : Digest} (hd : s.pair.digests.find? (fun d => d.F == f && d.region == r) = some d)
include hd

theorem compare_invalid (ho : d.valid = false ∨ v = false) : s.compare f r v value = s.pairCount 2 := by
  have hn : ¬(d.valid && v) = true := by
    rcases ho with h | h <;> simp [h]
  simp only [State.compare, hd, if_neg hn]

theorem compare_equal (hv : d.valid = true) (hw : v = true) (he : d.value = value) :
    s.compare f r v value = s.pairCount 0 := by
  simp only [State.compare, hd, hv, hw, Bool.and_self, if_true, if_pos he]

/-- One that differs counts, and starts a resolution where none runs (R431). -/
theorem compare_differs (hv : d.valid = true) (hw : v = true) (hn : d.value ≠ value) : s.compare f r v value =
    if s.pair.resolving then s.pairCount 1 else { s.pairCount 1 with
      pair.resolving := true, pair.checkNext := true, pair.ownNow := 0, pair.partnerNow := 0, pair.mismatchRegion := r,
      pair.mismatchF := f } := by
  simp only [State.compare, hd, hv, hw, Bool.and_self, if_true, if_neg hn]
  rfl

end Digests

/-! ### The self-check -/

section Selfcheck
variable {s : State} {sig : Nat}

/-- A result of the own self-check, noted and sent (R432). -/
def checkNoted (s : State) (sig r : Nat) : State := State.pairCell { s with
  pair.checking := false, pair.own := r, pair.ownNow := r, pair.signature := sig % 2 ^ 32 }
  ([put 14 4 3, r] ++ words36 s.pair.mismatchF ++ [fld (sig % 2 ^ 32) 31 16, fld (sig % 2 ^ 32) 15 0])

/-- What a result means for this unit: after a failure a STANDBY or ACTIVE unit goes OUT, and the failure fires (R432). -/
def checkJudged (u : State) (pass : Bool) : State :=
  if pass then u else (if u.pair.state = .standby ∨ u.pair.state = .active then u.pairOut else u).fire 257 0

/-- A resolution that runs ends where both results are known (R432). -/
def checkEndsResolution (u : State) : State := if u.pair.resolving then u.resolve else u

theorem selfcheckDone_none (hn : s.pair.checking = false) : execSelfcheckDone sig s = .next s := by
  rw [execSelfcheckDone, if_pos (by simp [hn])]

section Checking
variable (hc : s.pair.checking = true)
include hc

theorem selfcheckDone_checking {pass : Bool} {r : Nat} (hp : (sig % 2 ^ 32 == Config.selfcheckRef.toNat) = pass)
    (hr : (if pass then 1 else 2) = r) :
    execSelfcheckDone sig s = .next (checkEndsResolution (checkJudged (checkNoted s sig r) pass)) := by
  subst hr hp
  exact congrArg _ (if_neg (by simp [hc]))

theorem selfcheckDone_passes (hs : sig % 2 ^ 32 = Config.selfcheckRef.toNat) :
    execSelfcheckDone sig s = .next (checkEndsResolution (checkNoted s sig 1)) := by
  rw [selfcheckDone_checking hc (r := 1) (beq_iff_eq.mpr hs) rfl, checkJudged, if_pos rfl]

variable (hs : sig % 2 ^ 32 ≠ Config.selfcheckRef.toNat)
include hs

theorem selfcheckDone_goesOut (ho : (checkNoted s sig 2).pair.state = .standby ∨ (checkNoted s sig 2).pair.state = .active) :
    execSelfcheckDone sig s = .next (checkEndsResolution ((checkNoted s sig 2).pairOut.fire 257 0)) := by
  rw [selfcheckDone_checking hc (r := 2) (beq_eq_false_iff_ne.mpr hs) rfl, checkJudged, if_neg Bool.false_ne_true, if_pos ho]

theorem selfcheckDone_stays (hS : (checkNoted s sig 2).pair.state ≠ .standby) (hA : (checkNoted s sig 2).pair.state ≠ .active) :
    execSelfcheckDone sig s = .next (checkEndsResolution ((checkNoted s sig 2).fire 257 0)) := by
  rw [selfcheckDone_checking hc (r := 2) (beq_eq_false_iff_ne.mpr hs) rfl, checkJudged, if_neg Bool.false_ne_true,
    if_neg (not_or.mpr ⟨hS, hA⟩)]

end Checking

variable (sig) (pass : Bool) (f : Nat)

theorem selfcheck_none (ho : s.paired = false ∨ s.linkUp 4 = false ∨ s.pair.silence = true) :
    execSelfcheck pass f sig s = .next s := by
  have hp : (!s.takesPair || s.pair.silence) = true := by
    rcases ho with h | h | h <;> simp [State.takesPair, h]
  simp only [execSelfcheck, if_pos hp]

theorem selfcheck_notes (hp : s.paired = true) (hu : s.linkUp 4 = true) (hs : s.pair.silence = false) :
    execSelfcheck pass f sig s = .next (checkEndsResolution
      { s with pair.partner := if pass then 1 else 2, pair.partnerNow := if pass then 1 else 2 }) := by
  have hn : ¬(!s.takesPair || s.pair.silence) = true := by simp [State.takesPair, hp, hu, hs]
  simp only [execSelfcheck, if_neg hn]
  rfl

end Selfcheck
end Sys2Proof.Laws

namespace Sys2Proof.Proofs

/-- Settles O45: each clause is the case of that name of the commands above. -/
theorem pairMirroring : Obligations.PairMirroring := by
  refine fun s => ⟨?mirror, ?commit, ?acks, pairDigestSend_none, fun hp hd => pairDigestSend_paired hp hd,
    fun d hp hd => pairDigestSend_paired hp hd, ?digests, ?selfchecks⟩
  case mirror => exact fun seq words => ⟨mirror_none, fun h0 h26 ht => ⟨mirror_extends h0 h26 ht, mirror_replaces h0 h26 ht⟩⟩
  case commit => exact fun seq count crc fk => ⟨pairCommit_none, pairCommit_commits, pairCommit_discards⟩
  case acks =>
    intro seq
    refine ⟨fun ho => ?_, pairAck_frees, fun hn => pairAck_none (.inr hn), fun hn => nak_none (.inr hn), nak_resends, nak_resyncs⟩
    rcases ho with down | ht
    · exact ⟨congrArg _ (byShepherd_down down _), congrArg _ (byShepherd_down down _)⟩
    · exact ⟨pairAck_none (.inl ht), nak_none (.inl ht)⟩
  case digests =>
    intro f l
    refine ⟨pairDigest_none, fun hp hs hu => ⟨fun hl => pairDigest_compares hl hp hs hu, fun r v value => ?_⟩⟩
    have h1 : execPairDigest f [(r, v, value)] s = .next (s.compare f r v value) :=
      pairDigest_compares (Nat.le_of_ble_eq_true rfl) hp hs hu
    refine ⟨fun hd => h1.trans (congrArg _ (compare_absent hd)), fun d hd => ⟨fun ho => ?_, fun hv hw he => ?_,
      fun hv hw hn hr => ?_, fun hv hw hn hr => ?_⟩⟩
    · exact h1.trans (congrArg _ (compare_invalid hd ho))
    · exact h1.trans (congrArg _ (compare_equal hd hv hw he))
    · exact h1.trans (congrArg _ ((compare_differs hd hv hw hn).trans (if_pos hr)))
    · exact h1.trans (congrArg _ ((compare_differs hd hv hw hn).trans (if_neg (ne_true_of_eq_false hr))))
  case selfchecks =>
    refine fun pass sig => ⟨selfcheckDone_none, fun hc => ?done,
      fun f => ⟨selfcheck_none sig pass f, fun hp hu hs => ⟨fun hr => ?_, fun hr => ?_⟩⟩⟩
    case done =>
      intro noted ends
      have hn : noted = checkNoted s sig := rfl
      have he : ends = checkEndsResolution := rfl
      clear_value noted ends
      subst hn he
      exact ⟨selfcheckDone_passes hc, selfcheckDone_goesOut hc, selfcheckDone_stays hc⟩
    · exact (selfcheck_notes sig pass f hp hu hs).trans (congrArg _ (if_pos hr))
    · exact (selfcheck_notes sig pass f hp hu hs).trans (congrArg _ (if_neg (ne_true_of_eq_false hr)))

end Sys2Proof.Proofs
end

section
/-! How the stroke commands start a stroke (R43, R93, R136), what a null one does (R133, R149), and the obligation
NullStrokes. -/

open Sys2Proof Sys2Proof.Machine Sys2Proof.Laws

namespace Sys2Proof.Laws

/-! ### The stroke commands -/

section Start
variable {op idx : Nat} {sl : Fin 16} {c : Instr}

/-- Each stroke command starts the stroke of its own opcode. -/
theorem exec_strokeCmd (h : strokeCmd op sl idx = some c) (s : State) : exec c s = .next (s.launch sl idx (· == op)) := by
  unfold strokeCmd at h
  split at h <;> cases h <;> rfl

/-- The stroke commands name the opcodes of R93 and no reserved one. -/
theorem strokeCmd_opcode (h : strokeCmd op sl idx = some c) : op < 0x13 := by
  unfold strokeCmd at h
  split at h <;> cases h <;> decide

end Start

section Launch
variable {s : State} {sl idx : Nat} {test : Nat → Bool} {st : Stroke} {d : Desc} {ecc : List Ecc}

/-- A selected stroke is one that the command's test names. -/
theorem selects_opcode (h : s.selects sl idx test = some (st, d, ecc)) : test st.op = true := by
  simp only [State.selects] at h
  split at h
  · rename_i hc
    obtain ⟨rfl, rfl, rfl⟩ := by simpa using h
    simp_all
  · cases h

/-- A reserved opcode is a storage fault of its entry (R95). -/
theorem selects_reserved (h : s.selects sl idx test = some (st, d, ecc)) (hr : 0x13 ≤ st.op) : ecc = [.multi] := by
  simp only [State.selects] at h
  split at h
  · obtain ⟨rfl, rfl, rfl⟩ := by simpa using h
    rw [if_neg (by omega), if_pos hr]
  · cases h

/-- An entry that the tide does not run starts nothing. -/
theorem launch_unselected (h : s.selects sl idx test = none) : s.launch sl idx test = s := by
  simp [State.launch, h]

variable (h : s.selects sl idx test = some (st, d, ecc))
include h

/-- With no cause against it, the stroke takes off. -/
theorem launch_joins (h0 : ((s.advance st.start).tableEcc sl ecc).startCause sl st d ecc = 0) :
    s.launch sl idx test = ((s.advance st.start).tableEcc sl ecc).joined
      (((s.advance st.start).tableEcc sl ecc).flightOf sl idx st d) := by
  simp [State.launch, h, h0, cSettle, State.joined]

/-- With a cause that is not settling, the stroke is null from its start (R136). -/
theorem launch_null {k : Nat} (hk : ((s.advance st.start).tableEcc sl ecc).startCause sl st d ecc = k) (h0 : k ≠ 0)
    (h3 : k ≠ cSettle) :
    s.launch sl idx test = (((s.advance st.start).tableEcc sl ecc).failed
      (((s.advance st.start).tableEcc sl ecc).flightOf sl idx st d) k).1.joined
      { ((s.advance st.start).tableEcc sl ecc).flightOf sl idx st d with cause := k } := by
  simp [State.launch, h, hk, h0, h3, State.joined, State.failed]

/-- A transmit on what settles fires and is null (R303, R341). -/
theorem launch_settles (hk : ((s.advance st.start).tableEcc sl ecc).startCause sl st d ecc = cSettle) :
    s.launch sl idx test = ((((s.advance st.start).tableEcc sl ecc).fireSettle st d).failed
      (((s.advance st.start).tableEcc sl ecc).flightOf sl idx st d) cSettle).1.joined
      { ((s.advance st.start).tableEcc sl ecc).flightOf sl idx st d with cause := cSettle } := by
  simp [State.launch, h, hk, State.joined, State.failed, show cSettle ≠ 0 by decide]

end Launch

/-- A stroke that nothing makes null joins the strokes in flight at its START. -/
theorem exec_strokeCmd_joins {op idx : Nat} {sl : Fin 16} {c : Instr} {s : State} {st : Stroke} {d : Desc}
    (hc : strokeCmd op sl idx = some c) (h : s.mayRun sl idx op st d) :
    exec c s = .next ((s.advance st.start).joined ((s.advance st.start).flightOf sl idx st d)) := by
  obtain ⟨ecc, hsel, hgood, hcause⟩ := h
  have hecc : (s.advance st.start).tableEcc sl ecc = s.advance st.start := tableEcc_good hgood
  rw [exec_strokeCmd hc, launch_joins hsel (hecc.symm ▸ hcause), hecc]

/-- A reserved opcode counts and fires a storage fault of the table store (R95, R98). -/
theorem tableEcc_multi (s : State) (sl : Nat) : s.tableEcc sl [.multi] = (s.bumpFld 0x02027 0 17 0).fire 19 sl := by
  simp [State.tableEcc]

theorem startCause_multi (s : State) (sl : Nat) (st : Stroke) (d : Desc) : s.startCause sl st d [.multi] = cStorage := by
  simp [State.startCause]

theorem exec_reservedOpcodeStroke (sl : Fin 16) (idx : Nat) (s : State) :
    exec (.reservedOpcodeStroke sl idx) s = .next (s.launch sl idx fun op => decide (0x13 ≤ op)) := rfl

/-- RESERVED_OPCODE_STROKE of a reserved opcode is null with cause storage (R95). -/
theorem reservedOpcodeStroke_null {sl : Fin 16} {idx : Nat} {s : State} {st : Stroke} {d : Desc} {ecc : List Ecc}
    (h : s.selects sl idx (fun op => decide (0x13 ≤ op)) = some (st, d, ecc)) :
    exec (.reservedOpcodeStroke sl idx) s = .next
      (((((s.advance st.start).bumpFld 0x02027 0 17 0).fire 19 sl).failed
        ((((s.advance st.start).bumpFld 0x02027 0 17 0).fire 19 sl).flightOf sl idx st d) cStorage).1.joined
        { (((s.advance st.start).bumpFld 0x02027 0 17 0).fire 19 sl).flightOf sl idx st d with cause := cStorage }) := by
  have hecc : ecc = [.multi] := selects_reserved h (of_decide_eq_true (selects_opcode h))
  subst hecc
  rw [exec_reservedOpcodeStroke, launch_null h (startCause_multi _ _ _ _) (by decide) (by decide), tableEcc_multi]

/-! ### A null stroke -/

section Null
variable {s : State} {f : Flight} {a : Act}

/-- A null stroke keeps its flight but for the cause. -/
@[simp] theorem failed_flight (s : State) (f : Flight) (k : Nat) : (s.failed f k).2 = { f with cause := k } := rfl

/-- A stroke that is null already does nothing before its end (R82). -/
theorem flightCycle_null (ha : a ≠ .done) (hc : f.cause ≠ 0) : s.flightCycle f a = (s, f) := by
  simp [State.flightCycle, ha, hc]

/-- The loss of its channel makes a stroke null at its next act (R149). -/
theorem flightCycle_lost (ha : a ≠ .done) (hc : f.cause = 0) (hl : s.strokeLost f.st f.d = true) :
    s.flightCycle f a = s.failed f cUpland := by
  simp [State.flightCycle, ha, hc, hl, show cUpland ≠ 0 by decide]
  rfl

/-- The end of a null stroke hands its part of the digest over and writes its STROKE record (R133, R516). -/
theorem flightCycle_done_null (hc : f.cause ≠ 0) :
    s.flightCycle f .done = ((s.digestPart f).traceStroke f.sl f.idx f.cause, f) := by
  simp [State.flightCycle, hc]

theorem digestPart_other (h : f.st.op ≠ 0x12) : s.digestPart f = s := if_neg h

theorem digestPart_digest (h : f.st.op = 0x12) : s.digestPart f = s.addPart ⟨f.tideF, fld f.d.b 9 0, f.st.start * 16 + f.sl,
    if f.cause = 0 then (pickOut f.lines).map BitVec.toNat else [], f.cause != 0⟩ := if_pos h

/-- What a null stroke of a class without a rule of its own leaves beside its destination (R133). -/
theorem nullClass_other (h2 : f.st.op ≠ 0x02) (hF : f.st.op ≠ 0x0F) (h10 : f.st.op ≠ 0x10) (h11 : f.st.op ≠ 0x11) :
    s.nullClass f = s := by
  unfold State.nullClass
  split <;> simp_all

end Null
end Sys2Proof.Laws

namespace Sys2Proof.Proofs

/-- Settles O12: the cases of a start, of a stroke that becomes null, and of a null stroke's acts. -/
theorem nullStrokes : Obligations.NullStrokes := by
  refine ⟨?commands, ?reserved, ?becomes, ?acts, ?ends⟩
  case commands =>
    intro op sl idx c s hc
    refine ⟨fun hn => ?_, fun st d ecc h => ⟨fun h0 h3 => ?_, fun h3 => ?_⟩⟩
    · rw [exec_strokeCmd hc, launch_unselected hn]
    · exact (exec_strokeCmd hc s).trans (congrArg _ (launch_null h rfl h0 h3))
    · rw [h3]
      exact (exec_strokeCmd hc s).trans (congrArg _ (launch_settles h h3))
  case reserved => exact fun sl idx s => ⟨fun hn => by rw [exec_reservedOpcodeStroke, launch_unselected hn], fun st d ecc => reservedOpcodeStroke_null⟩
  case becomes =>
    intro s f k u c b
    have hf : (s.failed f k).1 = u.nullClass f := rfl
    refine ⟨fun h => ?_, fun h => ?_, fun h => ?_, fun h => ?_, fun h2 hF h10 h11 => nullClass_other h2 hF h10 h11, rfl⟩ <;>
      simp [hf, State.nullClass, h, c, b]
  case acts => exact fun s f a ha => ⟨flightCycle_null ha, flightCycle_lost ha⟩
  case ends =>
    refine fun s f hc => ⟨fun ho => ?_, fun hd => ?_⟩
    · rw [flightCycle_done_null hc, digestPart_other ho]
    · rw [flightCycle_done_null hc, digestPart_digest hd, if_neg hc, bne_iff_ne.mpr hc]

end Sys2Proof.Proofs
end

section
/-! In which cycles a stroke in flight acts (R49, R51 to R53), and which flight acts next. -/

open Sys2Proof Sys2Proof.Machine Sys2Proof.Laws

namespace Sys2Proof.Laws

/-! ### A list of acts in order of time -/

theorem mem_insertAct {x a : Nat × Act} {l : List (Nat × Act)} : x ∈ insertAct a l ↔ x = a ∨ x ∈ l := by
  induction l with
  | nil => simp [insertAct]
  | cons b l ih =>
    unfold insertAct
    split
    · simp only [List.mem_cons, ih]; tauto
    · simp

/-- An act placed in order of time keeps the order. -/
theorem insertAct_sorted {a : Nat × Act} {l : List (Nat × Act)} (h : l.Pairwise fun x y => actKey x ≤ actKey y) :
    (insertAct a l).Pairwise fun x y => actKey x ≤ actKey y := by
  induction l with
  | nil => simp [insertAct]
  | cons b l ih =>
    obtain ⟨hb, hl⟩ := List.pairwise_cons.mp h
    unfold insertAct
    split
    · rename_i hba
      refine List.pairwise_cons.mpr ⟨fun x hx => ?_, ih hl⟩
      rcases mem_insertAct.mp hx with rfl | hx
      · exact hba
      · exact hb x hx
    · rename_i hba
      refine List.pairwise_cons.mpr ⟨fun x hx => ?_, h⟩
      rcases List.mem_cons.mp hx with rfl | hx
      · omega
      · have := hb x hx
        omega

theorem mem_foldl_insertAct {x : Nat × Act} {L l : List (Nat × Act)} :
    x ∈ L.foldl (fun l a => insertAct a l) l ↔ x ∈ L ∨ x ∈ l := by
  induction L generalizing l with
  | nil => simp
  | cons a L ih => simp only [List.foldl_cons, ih, mem_insertAct, List.mem_cons]; tauto

theorem foldl_insertAct_sorted {L l : List (Nat × Act)} (h : l.Pairwise fun x y => actKey x ≤ actKey y) :
    (L.foldl (fun l a => insertAct a l) l).Pairwise fun x y => actKey x ≤ actKey y := by
  induction L generalizing l with
  | nil => exact h
  | cons a L ih => exact ih (insertAct_sorted h)

/-! ### The acts of a flight, by offset from its stroke's START -/

section Footprint
variable {s : State} {sl idx : Nat} {st : Stroke} {d : Desc}

theorem acts_sorted : (s.flightOf sl idx st d).acts.Pairwise fun a b => actKey a ≤ actKey b :=
  foldl_insertAct_sorted List.Pairwise.nil

/-- Each act of the stroke is one of its flight, in its own work cycle. -/
theorem mem_acts {k x : Nat} {a : Act} (h : (k, a) ∈ s.strokeActs st d) (e : s.tide.abs0 + k = x) :
    (x, a) ∈ (s.flightOf sl idx st d).acts :=
  mem_foldl_insertAct.mpr (.inl (List.mem_map.mpr ⟨(k, a), h, by rw [e]⟩))

/-- Every stroke ends in its done cycle. -/
theorem mem_acts_done {x : Nat} (e : s.tide.abs0 + s.doneAt st d = x) : (x, .done) ∈ (s.flightOf sl idx st d).acts :=
  mem_acts (List.mem_append_right _ (List.mem_singleton.mpr rfl)) e

/-- A stroke with a source reads each of its lines. -/
theorem mem_acts_read {i x : Nat} (hs : (strokeSrc sl st d).isSome) (hi : i < st.n) (e : s.tide.abs0 + st.readAt d i = x) :
    (x, .read i) ∈ (s.flightOf sl idx st d).acts := by
  refine mem_acts ?_ e
  have hr : (st.readAt d i, Act.read i) ∈ (List.range st.n).map fun i => (st.readAt d i, Act.read i) :=
    List.mem_map.mpr ⟨i, List.mem_range.mpr hi, rfl⟩
  unfold strokeSrc at hs
  unfold State.strokeActs
  split at hs <;> simp_all

/-- A stroke with a destination writes each of its lines. -/
theorem mem_acts_write {i x : Nat} (hd : (strokeDest sl st d).isSome) (hi : i < st.n) (e : s.tide.abs0 + st.writeAt d i = x) :
    (x, .write i) ∈ (s.flightOf sl idx st d).acts := by
  refine mem_acts ?_ e
  unfold strokeDest at hd
  unfold State.strokeActs
  split at hd <;> simp_all

/-- MOVE and PUSH check a line of which their mask leaves words out. -/
theorem mem_acts_merge {i x : Nat} (ho : st.op = 0x01 ∨ st.op = 0x03) (hi : i < st.n) (hm : d.mask st.n i ≠ 15)
    (e : s.tide.abs0 + (st.writeAt d i - 4) = x) : (x, .merge i) ∈ (s.flightOf sl idx st d).acts := by
  refine mem_acts ?_ e
  rcases ho with h | h <;> simp [State.strokeActs, Stroke.mask, h, hi, hm]

end Footprint

/-! ### Which flight acts next -/

/-- What holds of every prefix of a list under the fold over it holds of the list. -/
theorem foldl_prefix {α β : Type} {f : β → α → β} {b : β} {P : List α → β → Prop} (h0 : P [] b)
    (hs : ∀ l x b, P l b → P (l ++ [x]) (f b x)) (l : List α) : P l (l.foldl f b) := by
  induction l using List.reverseRecOn with
  | nil => exact h0
  | append_singleton l x ih => simpa using hs l x _ ih

/-- The flights of a list are all idle before a work cycle, or m names the place and the key of the one with the earliest act. -/
def NextIs (limit : Nat) (l : List (Flight × Nat)) (m : Option (Nat × Nat)) : Prop :=
  (m = none → ∀ p ∈ l, ∀ b r, p.1.acts = b :: r → limit ≤ b.1)
  ∧ ∀ k j, m = some (k, j) →
    (∃ p ∈ l, p.2 = j ∧ ∃ a r, p.1.acts = a :: r ∧ a.1 < limit ∧ actKey a = k)
    ∧ ∀ p ∈ l, ∀ b r, p.1.acts = b :: r → k ≤ actKey b

theorem actKey_lt {a b : Nat × Act} (h : a.1 < b.1) : actKey a < actKey b := by
  have ha : a.2.rank ≤ 2 := by cases a.2 <;> simp [Act.rank]
  unfold actKey
  omega

/-- A flight that has no act before the limit leaves the choice. -/
theorem NextIs.skip {limit : Nat} {l : List (Flight × Nat)} {m : Option (Nat × Nat)} {p : Flight × Nat} (h : NextIs limit l m)
    (hp : ∀ b r, p.1.acts = b :: r → limit ≤ b.1) : NextIs limit (l ++ [p]) m := by
  refine ⟨fun hm q hq => ?_, fun k j hm => ?_⟩
  · rcases List.mem_append.mp hq with hq | hq
    · exact h.1 hm q hq
    · obtain rfl := List.mem_singleton.mp hq
      exact hp
  · obtain ⟨⟨q, hq, hj, a, r, ha, hlt, hk⟩, hmin⟩ := h.2 k j hm
    refine ⟨⟨q, List.mem_append_left _ hq, hj, a, r, ha, hlt, hk⟩, fun q' hq' b r' hb => ?_⟩
    rcases List.mem_append.mp hq' with hq' | hq'
    · exact hmin q' hq' b r' hb
    · obtain rfl := List.mem_singleton.mp hq'
      have := actKey_lt (Nat.lt_of_lt_of_le hlt (hp b r' hb))
      omega

/-- A flight with an act before the limit is chosen where it comes earlier than the choice so far. -/
theorem NextIs.take {limit : Nat} {l : List (Flight × Nat)} {m : Option (Nat × Nat)} {p : Flight × Nat} {a : Nat × Act}
    {r : List (Nat × Act)} (h : NextIs limit l m) (ha : p.1.acts = a :: r) (hlt : a.1 < limit)
    (hm : ∀ kj, m = some kj → actKey a < kj.1) : NextIs limit (l ++ [p]) (some (actKey a, p.2)) := by
  refine ⟨fun hn => (nomatch hn), fun k j hk => ?_⟩
  obtain ⟨rfl, rfl⟩ : actKey a = k ∧ p.2 = j := by simpa using hk
  refine ⟨⟨p, by simp, rfl, a, r, ha, hlt, rfl⟩, fun q hq b r' hb => ?_⟩
  rcases List.mem_append.mp hq with hq | hq
  · cases m with
    | none => exact (actKey_lt (Nat.lt_of_lt_of_le hlt (h.1 rfl q hq b r' hb))).le
    | some kj => exact (Nat.lt_of_lt_of_le (hm _ rfl) ((h.2 _ _ rfl).2 q hq b r' hb)).le
  · obtain rfl := List.mem_singleton.mp hq
    obtain rfl : a = b := (List.cons.inj (ha.symm.trans hb)).1
    rfl

/-- A flight with an act before the limit that comes no earlier than the choice so far leaves it. -/
theorem NextIs.keep {limit k j : Nat} {l : List (Flight × Nat)} {p : Flight × Nat} {a : Nat × Act} {r : List (Nat × Act)}
    (h : NextIs limit l (some (k, j))) (ha : p.1.acts = a :: r) (hk : k ≤ actKey a) : NextIs limit (l ++ [p]) (some (k, j)) := by
  refine ⟨fun hn => (nomatch hn), fun k' j' e => ?_⟩
  obtain ⟨rfl, rfl⟩ : k = k' ∧ j = j' := by simpa using e
  obtain ⟨⟨q, hq, hj⟩, hmin⟩ := h.2 _ _ rfl
  refine ⟨⟨q, List.mem_append_left _ hq, hj⟩, fun q' hq' b r' hb => ?_⟩
  rcases List.mem_append.mp hq' with hq' | hq'
  · exact hmin q' hq' b r' hb
  · obtain rfl := List.mem_singleton.mp hq'
    obtain rfl : a = b := (List.cons.inj (ha.symm.trans hb)).1
    exact hk

/-- The choice of the next flight meets its rule (R53). -/
theorem nextFlight_spec (s : State) (limit : Nat) :
    ∃ m : Option (Nat × Nat), s.nextFlight limit = m.map Prod.snd ∧ NextIs limit s.tide.flights.zipIdx m := by
  refine ⟨_, rfl, foldl_prefix (P := NextIs limit) ⟨by simp, by simp⟩ (fun l p m h => ?_) _⟩
  rcases ha : p.1.acts with _ | ⟨a, r⟩
  · exact h.skip fun b r hb => nomatch ha.symm.trans hb
  · by_cases hlt : a.1 < limit
    · rcases m with _ | ⟨k, j⟩
      · simpa [hlt] using h.take ha hlt (by simp)
      · by_cases hk : actKey a < k
        · simpa [hlt, hk] using h.take ha hlt (by simpa using hk)
        · simpa [hlt, hk] using h.keep ha (by omega)
    · have hs := h.skip (p := p) fun b r' hb => by
        obtain rfl : a = b := (List.cons.inj (ha.symm.trans hb)).1
        omega
      simpa [hlt] using hs

/-- With no act of a flight before the limit, none acts. -/
theorem nextFlight_none {s : State} {limit : Nat} (h : s.nextFlight limit = none) {g : Flight} (hg : g ∈ s.tide.flights)
    {b : Nat × Act} {l : List (Nat × Act)} (hb : g.acts = b :: l) : limit ≤ b.1 := by
  obtain ⟨m, hm, hnext⟩ := nextFlight_spec s limit
  obtain rfl : m = none := by simpa [h] using hm.symm
  obtain ⟨i, hi, rfl⟩ := List.getElem_of_mem hg
  exact hnext.1 rfl (s.tide.flights[i], i) (by simp [List.mem_zipIdx_iff_getElem?, hi]) b l hb

/-- The flight that acts next has the earliest act, before the limit. -/
theorem nextFlight_some {s : State} {limit k : Nat} (h : s.nextFlight limit = some k) :
    ∃ f a rest, s.tide.flights[k]? = some f ∧ f.acts = a :: rest ∧ a.1 < limit
      ∧ ∀ g ∈ s.tide.flights, ∀ b l, g.acts = b :: l → actKey a ≤ actKey b := by
  obtain ⟨m, hm, hnext⟩ := nextFlight_spec s limit
  obtain ⟨⟨key, j⟩, rfl, rfl⟩ : ∃ kj, m = some kj ∧ kj.2 = k := by simpa [h, eq_comm] using hm
  obtain ⟨⟨p, hp, hj, a, r, ha, hlt, hk⟩, hmin⟩ := hnext.2 key j rfl
  refine ⟨p.1, a, r, ?_, ha, hlt, fun g hg b l hb => ?_⟩
  · simpa [hj] using List.mem_zipIdx_iff_getElem?.mp hp
  · obtain ⟨i, hi, rfl⟩ := List.getElem_of_mem hg
    exact hk ▸ hmin (s.tide.flights[i], i) (by simp [List.mem_zipIdx_iff_getElem?, hi]) b l hb

end Sys2Proof.Laws
end

section
/-! What each act of a stroke that nothing has made null does (R51, R53), and the obligation LineStrokesRun. -/

open Sys2Proof Sys2Proof.Machine Sys2Proof.Laws

namespace Sys2Proof.Laws

section Acts
variable {s : State} {f : Flight}

/-- Before its end, a stroke that nothing has made null does its act. -/
theorem flightCycle_act (h : s.flies f) (a : Act) (ha : a ≠ .done) : s.flightCycle f a = s.flightAct f a := by
  obtain ⟨hc, hl⟩ := h
  simp [State.flightCycle, hc, hl, ha]

/-- At its end it does what its class does there, hands its digest over and writes its STROKE record of cause 0. -/
theorem flightCycle_done (h : s.flies f) :
    s.flightCycle f .done = (((s.flightDone f).digestPart f).traceStroke f.sl f.idx 0, f) := by
  obtain ⟨hc, hl⟩ := h
  simp [State.flightCycle, State.flightAct, hc, hl]

variable {i : Nat}

theorem read_unreached (h : s.flies f) (hr : s.reaches (f.src.getD i Place.none) = false) :
    s.flightCycle f (.read i) = s.failed f cSched := by
  rw [flightCycle_act h (.read i) nofun]
  simp only [State.flightAct, hr, Bool.not_false, if_true]

theorem read_fault (h : s.flies f) (hr : s.reaches (f.src.getD i Place.none) = true)
    (hn : (s.schedRead (f.src.getD i Place.none) f.free (f.mask i)).2 = none) :
    s.flightCycle f (.read i) = (s.schedRead (f.src.getD i Place.none) f.free (f.mask i)).1.failed f cSched := by
  rw [flightCycle_act h (.read i) nofun]
  simp only [State.flightAct, hr, Bool.not_true, Bool.false_eq_true, if_false]
  split <;> simp_all

theorem read_words (h : s.flies f) (hr : s.reaches (f.src.getD i Place.none) = true) {w : List Word}
    (hw : (s.schedRead (f.src.getD i Place.none) f.free (f.mask i)).2 = some w) :
    s.flightCycle f (.read i)
      = ((s.schedRead (f.src.getD i Place.none) f.free (f.mask i)).1, { f with got := f.got ++ [w] }) := by
  rw [flightCycle_act h (.read i) nofun]
  simp only [State.flightAct, hr, Bool.not_true, Bool.false_eq_true, if_false]
  split <;> simp_all

section Destination
variable {q : Place} (h : s.flies f) (hq : f.dst[i]? = some q)
include h hq

theorem write_unreached (hr : s.reaches q = false) : s.flightCycle f (.write i) = s.failed f cSched := by
  rw [flightCycle_act h (.write i) nofun]
  simp [State.flightAct, hq, hr]

theorem write_stores (hr : s.reaches q = true) : s.flightCycle f (.write i) =
    (s.schedWrite q (f.mask i) (f.got.getD i []) ((f.old.find? (·.1 == i)).map Prod.snd), f) := by
  rw [flightCycle_act h (.write i) nofun]
  simp [State.flightAct, hq, hr]

theorem merge_unreached (hr : s.reaches q = false) : s.flightCycle f (.merge i) = s.failed f cSched := by
  rw [flightCycle_act h (.merge i) nofun]
  simp [State.flightAct, hq, hr]

theorem merge_keeps (hr : s.reaches q = true) : s.flightCycle f (.merge i) = ((s.checkLine q.up q.line).1,
    { f with old := f.old ++ [(i, (s.checkLine q.up q.line).2, ((s.checkLine q.up q.line).1.line q.up q.line).words)] }) := by
  rw [flightCycle_act h (.merge i) nofun]
  simp [State.flightAct, hq, hr]

end Destination

theorem meet_push (h : s.flies f) (ho : f.st.op = 0x03) : s.flightCycle f .meet =
    if s.tileAwake (fld f.d.b 21 18) then (s, f) else s.failed f cSched := by
  rw [flightCycle_act h .meet nofun]
  simp [State.flightAct, State.flightMeet, ho]

/-- A class without a rule of its own at the end only writes its STROKE record. -/
theorem done_other (h : s.flies f) (h2 : f.st.op ≠ 0x02) (h10 : f.st.op ≠ 0x10) (h12 : f.st.op ≠ 0x12) :
    s.flightCycle f .done = (s.traceStroke f.sl f.idx 0, f) := by
  have hd : s.flightDone f = s := by
    unfold State.flightDone
    split <;> simp_all
  rw [flightCycle_done h, hd, digestPart_other h12]

/-- CARRY, in the tide of its start, lets the writes that waited for its lines land (R104). -/
theorem done_carry (h : s.flies f) (ho : f.st.op = 0x02) (hF : f.tideF = s.time.F) :
    s.flightCycle f .done = ((State.landHeld { s with
      ledger.carried := (List.range f.st.n).map (f.d.aFirst f.sl + ·) ++ s.ledger.carried }).traceStroke f.sl f.idx 0, f) := by
  rw [flightCycle_done h, digestPart_other (by omega)]
  simp [State.flightDone, ho, hF]

end Acts
end Sys2Proof.Laws

namespace Sys2Proof.Proofs

/-- Settles O9: the start of a stroke command, the cycles of each class, the flight that acts next, and each act. -/
theorem lineStrokesRun : Obligations.LineStrokesRun := by
  refine ⟨fun op sl idx c s st d _ => exec_strokeCmd_joins, ?cycles, fun s limit k => nextFlight_some,
    fun s limit h g hg b l => nextFlight_none h hg, ?acts⟩
  case cycles =>
    intro sl idx s st d f at_ burst
    refine ⟨acts_sorted, fun h => ?wait, fun h => ?carry, fun h i hi hm => ?moveMerge, fun h => ?push, fun h i hi => ?fetch,
      fun h i hi => ?store⟩
    case wait => simp [f, at_, State.flightOf, State.strokeActs, State.doneAt, h, insertAct]
    case carry =>
      rcases h with h | h <;>
      exact ⟨mem_acts_done (by simp [State.doneAt, h, at_, Nat.add_assoc]),
        fun i hi => ⟨mem_acts_read (by simp [strokeSrc, h]) hi (by simp [Stroke.readAt, h, at_, Nat.add_assoc]),
          mem_acts_write (by simp [strokeDest, h]) hi (by simp [Stroke.writeAt, h, at_, Nat.add_assoc])⟩⟩
    case moveMerge => exact mem_acts_merge (.inl h) hi hm (by simp only [Stroke.writeAt, h, at_]; omega)
    case push =>
      exact ⟨mem_acts_done (by simp [State.doneAt, h, at_, Nat.add_assoc]),
        mem_acts (k := st.start + 8) (by simp [State.strokeActs, h]) rfl,
        fun i hi => ⟨mem_acts_read (by simp [strokeSrc, h]) hi (by simp [Stroke.readAt, h, at_, Nat.add_assoc]),
          mem_acts_write (by simp [strokeDest, h]) hi (by simp [Stroke.writeAt, h, at_, Nat.add_assoc]),
          fun hm => mem_acts_merge (.inr h) hi hm (by simp only [Stroke.writeAt, h, at_]; omega)⟩⟩
    case fetch =>
      exact ⟨mem_acts_read (by simp [strokeSrc, h]) hi (by
          simp [Stroke.readAt, Stroke.fetchAt, Desc.burst, h, at_, burst, Nat.add_assoc]),
        mem_acts_write (by simp [strokeDest, h]) hi (by
          simp only [Stroke.writeAt, Stroke.fetchAt, Desc.burst, h, at_, burst]; omega)⟩
    case store =>
      exact ⟨mem_acts_read (by simp [strokeSrc, h]) hi (by simp [Stroke.readAt, h, at_, Nat.add_assoc]),
        mem_acts_write (by simp [strokeDest, h]) hi (by
          simp [Stroke.writeAt, Stroke.storeAt, Desc.burst, h, at_, burst, Nat.add_assoc])⟩
  case acts =>
    intro s f i h p old
    refine ⟨read_unreached h, read_fault h, fun w hr hw => read_words h hr hw, fun q hq hr => ⟨write_unreached h hq hr, merge_unreached h hq hr⟩,
      fun q hq hr => ⟨write_stores h hq hr, _, merge_keeps h hq hr⟩, fun ho => ⟨fun ha => ?_, fun ha => ?_⟩, done_carry h, done_other h⟩
    · rw [meet_push h ho, if_pos ha]
    · rw [meet_push h ho, if_neg (by simp [ha])]

end Sys2Proof.Proofs
end

section
/-! Strokes of pens, pins and drovers: what their acts do (R54, R56, R94, R196, R199, R256, R258), and the obligation
PenPinDroveStrokesRun. -/

open Sys2Proof Sys2Proof.Machine Sys2Proof.Laws

namespace Sys2Proof.Laws

/-- Words that one act writes to drover registers are all written in its cycle. -/
theorem foldl_drvRegWrite_abs (k : Nat) (r : Nat → Nat) (v : Nat → Word) (l : List Nat) (s : State) :
    l.foldl (fun (u : State) j => u.drvRegWrite k (r j) (v j) (u.abs u.tide.off)) s
      = l.foldl (fun (u : State) j => u.drvRegWrite k (r j) (v j) (s.abs s.tide.off)) s := by
  have habs (u : State) (j at_ : Nat) : (u.drvRegWrite k (r j) (v j) at_).abs (u.drvRegWrite k (r j) (v j) at_).tide.off
      = u.abs u.tide.off := rfl
  suffices h : ∀ u : State, u.abs u.tide.off = s.abs s.tide.off →
      l.foldl (fun (u : State) j => u.drvRegWrite k (r j) (v j) (u.abs u.tide.off)) u
        = l.foldl (fun (u : State) j => u.drvRegWrite k (r j) (v j) (s.abs s.tide.off)) u from h s rfl
  induction l with
  | nil => exact fun _ _ => rfl
  | cons j l ih =>
    intro u hu
    simp only [List.foldl_cons, hu]
    exact ih _ ((habs u j _).trans hu)

section Acts
variable {s : State} {f : Flight} (h : s.flies f) (q : Nat)
include h

theorem take_acts : s.flightCycle f (.take q) = s.flightTake f q := flightCycle_act h (.take q) nofun

theorem put_acts : s.flightCycle f (.put q) = s.flightPut f q := flightCycle_act h (.put q) nofun

/-- DRV_RD takes what the selected registers of a half line show (R94). -/
theorem take_drvRd (ho : f.st.op = 0x07) :
    (s.flightCycle f (.take q)).1 = ((maskBits (f.mask (q / 2))).filter fun j => j / 2 == q % 2).foldl (fun u j =>
        u.drvRegTaken (2 * f.sl + fld f.d.b 6 6) (fld f.d.b 5 0 + 4 * (q / 2) + j) (s.abs s.tide.off)) s
    ∧ (q / 2 < f.st.n → (s.flightCycle f (.take q)).2.got.getD (q / 2) [] =
        ((maskBits (f.mask (q / 2))).filter fun j => j / 2 == q % 2).foldl (fun l j => l.set j
          (s.drvRegWord (2 * f.sl + fld f.d.b 6 6) (fld f.d.b 5 0 + 4 * (q / 2) + j) (s.abs s.tide.off)))
          (f.got.getD (q / 2) [0, 0, 0, 0])) := by
  rw [take_acts h]
  refine ⟨by simp [State.flightTake, ho], fun hq => ?_⟩
  simp [State.flightTake, ho, hq]

/-- DRV_WR writes the selected words of a half line to their registers (R94). -/
theorem put_drvWr (ho : f.st.op = 0x06) : s.flightCycle f (.put q) =
    (((maskBits (f.mask (q / 2))).filter fun j => j / 2 == q % 2).foldl (fun u j => u.drvRegWrite (2 * f.sl + fld f.d.b 6 6)
      (fld f.d.b 5 0 + 4 * (q / 2) + j) ((f.got.getD (q / 2) []).getD j 0) (s.abs s.tide.off)) s, f) := by
  rw [put_acts h]
  simp only [State.flightPut, ho]
  rw [foldl_drvRegWrite_abs]

end Acts
end Sys2Proof.Laws

namespace Sys2Proof.Proofs

/-- Settles O10: the start of a stroke command, the cycles of each class, and each act. -/
theorem penPinDroveStrokesRun : Obligations.PenPinDroveStrokesRun := by
  refine ⟨fun op sl idx c s st d _ => exec_strokeCmd_joins, ?cycles, ?acts⟩
  case cycles =>
    intro sl idx s st d f at_ used
    refine ⟨fun h => ?drvWr, fun h => ?drvRd, fun h => ?pinIn, fun h => ?pinOut, fun h => ?penRd, fun h => ?penWr⟩
    case drvWr =>
      refine ⟨fun i hi => mem_acts_read (by simp [strokeSrc, h]) hi (by simp [Stroke.readAt, h, at_, Nat.add_assoc]),
        fun q hq hu => mem_acts (k := st.start + 5 + q) ?_ (by simp [at_, Nat.add_assoc])⟩
      simpa [State.strokeActs, Desc.drovePorts, h, hq, used] using hu
    case drvRd =>
      refine ⟨mem_acts_done (by simp [State.doneAt, h, at_]; omega),
        fun i hi => mem_acts_write (by simp [strokeDest, h]) hi (by simp [Stroke.writeAt, h, at_, Nat.add_assoc]),
        fun q hq hu => mem_acts (k := st.start + 1 + q) ?_ (by simp [at_, Nat.add_assoc])⟩
      simpa [State.strokeActs, Desc.drovePorts, h, hq, used] using hu
    case pinIn =>
      exact ⟨mem_acts (k := st.start + 4) (by simp [State.strokeActs, h]) rfl,
        mem_acts_done (by simp [State.doneAt, h, at_]),
        fun i hi => mem_acts_write (by simp [strokeDest, h]) hi (by simp [Stroke.writeAt, h, at_, Nat.add_assoc])⟩
    case pinOut =>
      exact ⟨mem_acts (k := st.start + 9) (by simp [State.strokeActs, h]) rfl,
        mem_acts_done (by simp [State.doneAt, h, at_]),
        fun i hi => mem_acts_read (by simp [strokeSrc, h]) hi (by simp [Stroke.readAt, h, at_, Nat.add_assoc])⟩
    case penRd =>
      exact ⟨mem_acts_done (by simp [State.doneAt, h, at_, Nat.add_assoc]),
        fun i hi => ⟨mem_acts (k := st.start + 4 + i) (by simp [State.strokeActs, h, hi]) (by simp [at_, Nat.add_assoc]),
          mem_acts_write (by simp [strokeDest, h]) hi (by simp [Stroke.writeAt, h, at_, Nat.add_assoc])⟩⟩
    case penWr =>
      exact ⟨mem_acts_done (by simp [State.doneAt, h, at_, Nat.add_assoc]),
        mem_acts (k := st.start + st.n + 8) (by simp [State.strokeActs, h]) (by simp [at_, Nat.add_assoc]),
        fun i hi => ⟨mem_acts_read (by simp [strokeSrc, h]) hi (by simp [Stroke.readAt, h, at_, Nat.add_assoc]),
          mem_acts (k := st.start + 8 + i) (by simp [State.strokeActs, h, hi]) (by simp [at_, Nat.add_assoc])⟩⟩
  case acts =>
    intro s f q h line pos drove reg now pen bank
    refine ⟨put_drvWr h q, take_drvRd h q, ?_, fun ho => ?_, ?_, fun ho => ⟨?_, flightCycle_act h .commit nofun⟩⟩
    · intro ho good
      rw [take_acts h]
      simp only [State.flightTake, ho]
      rfl
    · rw [put_acts h]
      simp only [State.flightPut, ho]
      rfl
    · intro ho r
      rw [take_acts h]
      simp only [State.flightTake, ho]
      rfl
    · rw [put_acts h]
      simp only [State.flightPut, ho]
      rfl

end Sys2Proof.Proofs
end

section
/-! Strokes of links, buses, ports and digests: what their acts do (R65, R67, R68, R279, R303, R337, R341, R429), and the
obligation LinkBusStrokesRun. -/

open Sys2Proof Sys2Proof.Machine Sys2Proof.Laws

namespace Sys2Proof.Laws

section Acts
variable {s : State} {f : Flight} (h : s.flies f)
include h

/-- A departure on a link that is not SETTLING sends the stroke's words (R341). -/
theorem depart_sends {l : Nat} (hl : (s.link l).state ≠ .settling) :
    (s.flightCycle f (.depart l)).1 = s.depart l (fld f.d.b 11 0) f.got.flatten f.d.place := by
  rw [flightCycle_act h (.depart l) nofun]
  simp [State.flightAct, State.flightDepart, hl]

/-- A receive takes what its slot delivers (R337). -/
theorem take_rx (ho : f.st.op = 0x0C ∨ f.st.op = 0x0D) (q : Nat) : s.flightCycle f (.take q) =
    ((s.rxDeliver (fld f.d.b 11 0) f.tideF).1,
      { f with got := (List.range f.st.n).map fun i => ((s.rxDeliver (fld f.d.b 11 0) f.tideF).2.drop (4 * i)).take 4 }) := by
  rw [take_acts h]
  rcases ho with ho | ho <;> simp only [State.flightTake, ho]

/-- BUS_LOAD loads a line after its first into a buffer that was not ACTIVE then (R68). -/
theorem put_busLoad (ho : f.st.op = 0x10) (hf : f.flag = false) {q : Nat} (hq : 0 < q) : s.flightCycle f (.put q) =
    (s.setChan (fld f.d.b 6 0) ((s.chan (fld f.d.b 6 0)).setTb (fld f.d.b 8 7)
      (((s.chan (fld f.d.b 6 0)).tb (fld f.d.b 8 7)).load (fld f.d.b 18 10 + q) ((f.lines.drop q).take 1))), f) := by
  have hq0 : q ≠ 0 := by omega
  rw [put_acts h]
  simp only [State.flightPut, ho, hf, beq_eq_false_iff_ne.mpr hq0, hq0, Bool.false_and, Bool.or_self, Bool.false_eq_true,
    if_false]
  rw [← hf]

/-- The end of a BUS_LOAD of words none of which is BAD releases its buffer where its RELEASE bit is set (R279). -/
theorem done_busLoad (ho : f.st.op = 0x10) (hf : f.flag = false) (hb : ((pickOut f.lines).any fun w => wq w == qBad) = false) :
    s.flightCycle f .done = ((if bit f.d.b 9 then s.busRelease f.sl (fld f.d.b 6 0) (fld f.d.b 8 7) false else s).traceStroke
      f.sl f.idx 0, f) := by
  rw [flightCycle_done h, digestPart_other (by omega)]
  simp only [State.flightDone, ho, hf, hb, Bool.false_eq_true, if_false]

/-- FRAME_TX meets the queue of its port (R303). -/
theorem meet_frameTx (ho : f.st.op = 0x11) : s.flightCycle f .meet =
    if (s.port (fld f.d.b 5 0)).state = .settling then (s.fire 145 (fld f.d.b 5 0)).failed f cSettle
    else (s.schedEnter (fld f.d.b 5 0) (f.at_ + fld f.d.b 32 6) (f.at_ + fld f.d.b 32 6 + s.txTime f.st f.d), f) := by
  rw [flightCycle_act h .meet nofun]
  simp [State.flightAct, State.flightMeet, ho]

/-- FRAME_TX hands its words to its entry of the scheduled queue; a BAD word drops the entry, counts and fires (R67). -/
theorem put_frameTx (ho : f.st.op = 0x11) {g : SchedFrame} (hg : s.schedAt (fld f.d.b 5 0) (f.at_ + fld f.d.b 32 6) = some g)
    (q : Nat) : s.flightCycle f (.put q) =
      if (pickOut f.lines).any fun w => wq w == qBad then
        (((s.schedDrop (fld f.d.b 5 0) (f.at_ + fld f.d.b 32 6)).bump 0x03025).fire 51 f.sl (badAddr (f.d.aFirst f.sl) f.lines), f)
      else (s.schedPut (fld f.d.b 5 0) { g with bytes := txBytes (pickOut f.lines) }, f) := by
  rw [put_acts h]
  simp only [State.flightPut, ho, hg]

/-- The end of a DIGEST adds its words to its region's digest (R429). -/
theorem done_digest (ho : f.st.op = 0x12) : s.flightCycle f .done = ((s.addPart ⟨f.tideF, fld f.d.b 9 0, f.st.start * 16 + f.sl,
    (pickOut f.lines).map BitVec.toNat, false⟩).traceStroke f.sl f.idx 0, f) := by
  have hd : s.flightDone f = s := by simp only [State.flightDone, ho]
  rw [flightCycle_done h, hd, digestPart_digest ho, h.1]
  rfl

end Acts
end Sys2Proof.Laws

namespace Sys2Proof.Proofs

/-- Settles O11: the start of a stroke command, the cycles of each class, and each act. -/
theorem linkBusStrokesRun : Obligations.LinkBusStrokesRun := by
  refine ⟨fun op sl idx c s st d _ => exec_strokeCmd_joins, ?cycles, ?acts⟩
  case cycles =>
    intro sl idx s st d f at_ tx
    refine ⟨fun h => ?cellTx, fun h => ?cellRx, fun h => ?busLoad, fun h => ?frameTx, fun h => ?digest⟩
    case cellTx =>
      rcases h with h | h <;>
      exact ⟨fun i hi => mem_acts_read (by simp [strokeSrc, h]) hi (by simp [Stroke.readAt, h, at_, Nat.add_assoc]),
        fun l hl => mem_acts (k := s.departsAt d l) (by simp [State.strokeActs, h, hl]) rfl⟩
    case cellRx =>
      rcases h with h | h <;>
      exact ⟨mem_acts (k := st.start + 4) (by simp [State.strokeActs, h]) rfl, mem_acts_done (by simp [State.doneAt, h, at_]),
        fun i hi => mem_acts_write (by simp [strokeDest, h]) hi (by simp [Stroke.writeAt, h, at_, Nat.add_assoc])⟩
    case busLoad =>
      exact ⟨mem_acts_done (by simp [State.doneAt, h, at_, Nat.add_assoc]),
        fun i hi => ⟨mem_acts_read (by simp [strokeSrc, h]) hi (by simp [Stroke.readAt, h, at_, Nat.add_assoc]),
          mem_acts (k := st.start + 8 + i) (by simp [State.strokeActs, h, hi]) (by simp [at_, Nat.add_assoc])⟩⟩
    case frameTx =>
      exact ⟨mem_acts (k := st.start + 8) (by simp [State.strokeActs, h]) rfl,
        mem_acts (k := st.start + st.n + 7) (by simp [State.strokeActs, h]) (by simp [at_, Nat.add_assoc]),
        mem_acts (k := st.ttx d) (by simp [State.strokeActs, h]) rfl,
        fun i hi => mem_acts_read (by simp [strokeSrc, h]) hi (by simp [Stroke.readAt, h, at_, Nat.add_assoc]),
        mem_acts (k := st.ttx d + s.txBits st d) (by simp [State.strokeActs, h]) rfl⟩
    case digest =>
      exact ⟨mem_acts_done (by simp [State.doneAt, h, at_, Nat.add_assoc]),
        fun i hi => mem_acts_read (by simp [strokeSrc, h]) hi (by simp [Stroke.readAt, h, at_, Nat.add_assoc])⟩
  case acts =>
    intro s f h p due ws bad c b
    refine ⟨fun l _ => depart_sends h, fun ho => take_rx h ho 0, fun ho hf _ => ?busLoad, fun ho => ?frameTx, done_digest h⟩
    case busLoad =>
      refine ⟨fun q => put_busLoad h ho hf, fun hr hb => ?_, fun hr hb => ?_⟩
      · rw [done_busLoad h ho hf hb, if_pos hr]
      · rw [done_busLoad h ho hf hb, if_neg (by simp [hr])]
    case frameTx =>
      refine ⟨fun hs => ?_, fun hs => ?_, fun q g hg hb => ?_, fun q g hg hb => ?_, flightCycle_act h .begin_ nofun,
        flightCycle_act h .sent nofun⟩
      · rw [meet_frameTx h ho, if_pos hs]
      · rw [meet_frameTx h ho, if_neg hs]
      · rw [put_frameTx h ho hg, if_neg (by simpa [bad] using hb)]
      · rw [put_frameTx h ho hg, if_pos hb]

end Sys2Proof.Proofs
end

section
/-! Time that passes (State.advance) leaves every stroke in flight but the one that acts, the power state, and a lost channel
lost. One lemma per operation that an act is made of, lower layers first; each cites those of the operations that it calls. -/

open Sys2Proof Sys2Proof.Machine Sys2Proof.Laws

namespace Sys2Proof.Machine

/-- What no act changes but one that checks a line, which may lose a channel: the strokes in flight, the power state, and the
causes of lost channels. -/
abbrev State.steady (s : State) : List Flight × PowerSt × Tab Nat := (s.tide.flights, s.power, s.image.lost)

end Sys2Proof.Machine

namespace Sys2Proof.Laws
variable (s : State)

theorem Fires.steady {a b : State} (h : Fires a b) : b.steady = a.steady := by
  simp [h.tide, h.power, h.image]

/-- A fold keeps what is steady where each of its steps does. -/
theorem foldl_steady {α : Type} {f : State → α → State} (hf : ∀ s x, (f s x).steady = s.steady) (l : List α)
    (s : State) : (l.foldl f s).steady = s.steady := by
  induction l generalizing s with
  | nil => rfl
  | cons x l ih => exact (ih _).trans (hf s x)

/-! ### Firings, counters, unscheduled cells and reports of links -/

@[simp] theorem fire_steady (n inst detail : Nat) (forced : Bool) :
    (s.fire n inst detail forced).steady = s.steady := (fires_fire s n inst detail forced (Fires.refl s)).steady
@[simp] theorem bump_steady (e sub k : Nat) : (s.bump e sub k).steady = s.steady := rfl
@[simp] theorem bumpFld_steady (e sub hi lo : Nat) : (s.bumpFld e sub hi lo).steady = s.steady := rfl
@[simp] theorem linkCount_steady (l k : Nat) : (s.linkCount l k).steady = s.steady :=
  (fires_linkCount s l k (Fires.refl s)).steady
@[simp] theorem pairBell_steady : s.pairBell.steady = s.steady := (fires_pairBell s (Fires.refl s)).steady

@[simp] theorem countWrap_steady (l : Nat) : (s.countWrap l).steady = s.steady := by
  unfold State.countWrap
  grind [linkCount_steady, fire_steady]

@[simp] theorem enter_steady (c : Nat) (stages : List LStage) (line : Option (Bool × Nat)) (carried : Bool)
    (cell : Option (Nat × List Word)) : (s.enter c stages line carried cell).steady = s.steady := by
  unfold State.enter State.takeAccess State.reachTile State.wakeTile
  grind [State.setQueue]

@[simp] theorem ownOut_steady (c l : Nat) (w : List Word) : (s.ownOut c l w).steady = s.steady := enter_steady ..

@[simp] theorem sendDir_steady (dir : Nat) (w : List Word) : (s.sendDir dir w).steady = s.steady := by
  unfold State.sendDir
  grind [ownOut_steady, countWrap_steady, linkCount_steady]

@[simp] theorem broadcast_steady (kind : Nat) (pay : List Nat) : (s.broadcast kind pay).steady = s.steady := by
  unfold State.broadcast State.sendCell State.nextSeq
  grind [sendDir_steady]

@[simp] theorem setRecord_steady (v src : Nat) : (s.setRecord v src).steady = s.steady := by
  unfold State.setRecord State.setClaim State.seenEpoch
  grind [pairBell_steady]

@[simp] theorem loseTunnel_steady (l : Nat) (node : Nat → Bool) : (s.loseTunnel l node).steady = s.steady := by
  unfold State.loseTunnel
  exact foldl_steady (fun s _ => bumpFld_steady s ..) _ _

theorem endSessions_steady (test : Session → Bool) : (s.endSessions test).steady = s.steady := by
  refine foldl_steady (fun s p => ?_) _ _
  rfl

@[simp] theorem repath_steady : s.repath.steady = s.steady := by
  refine foldl_steady (fun s n => ?_) _ _
  grind [loseTunnel_steady, endSessions_steady, fire_steady, bumpFld_steady]

@[simp] theorem syntonise_steady : s.syntonise.steady = s.steady := by
  unfold State.syntonise
  grind [fire_steady]

theorem wrapCell_steady {put : State → List Word → State} (hp : ∀ s w, (put s w).steady = s.steady) (l : Nat)
    (w : List Word) : (s.wrapCell l w put).steady = s.steady := by
  unfold State.wrapCell
  grind [linkCount_steady, countWrap_steady]

theorem transitPut_steady (l : Nat) (w : List Word) : (s.transitPut l w).steady = s.steady := by
  unfold State.transitPut State.setLink
  grind [linkCount_steady, fire_steady]

@[simp] theorem wrapWaiting_steady (l : Nat) : (s.wrapWaiting l).steady = s.steady := by
  unfold State.wrapWaiting
  split
  · rfl
  · refine (foldl_steady (fun s a => ?_) _ _).trans ?_
    · grind [wrapCell_steady, ownOut_steady]
    · refine (foldl_steady (fun s w => wrapCell_steady s (fun s w => transitPut_steady s _ w) l w) _ _).trans ?_
      exact loseTunnel_steady s l _

theorem reportLink_steady (l : Nat) (up : Bool) : (s.reportLink l up).steady = s.steady := by
  have hp (s : State) : s.pairLinkLost.steady = s.steady := by
    unfold State.pairLinkLost
    split
    · exact setRecord_steady s 0 0
    · rfl
  simp only [State.reportLink]
  cases up <;> by_cases h4 : l = 4 <;> simp [h4, hp]

@[simp] theorem reportTurns_steady : s.reportTurns.steady = s.steady :=
  foldl_steady (fun s l => reportLink_steady s l false) _ _

/-! ### Lines -/

theorem heldFull_steady (up : Bool) (L : Nat) : (s.heldFull up L).steady = s.steady := by
  simp [State.heldFull]

theorem heldClear_steady (up : Bool) (L mask : Nat) : (s.heldClear up L mask).steady = s.steady := by
  unfold State.heldClear
  grind [heldFull_steady]

theorem markHeld_steady (dst : List Place) (mask : Nat → Nat) : (s.markHeld dst mask).steady = s.steady := by
  unfold State.markHeld
  refine (foldl_steady (fun s p => ?_) _ _).trans (foldl_steady (fun s m => ?_) _ _)
  · unfold State.heldAdd
    grind [heldFull_steady]
  · rfl

theorem foundSingle_steady (up : Bool) (L : Nat) : (s.foundSingle up L).steady = s.steady := by
  unfold State.foundSingle State.queueBack
  grind [fire_steady, bumpFld_steady]

theorem setLine_steady (up : Bool) (L : Nat) (l : Line) : (s.setLine up L l).steady = s.steady := by
  cases up <;> rfl

theorem writeOver_steady (up : Bool) (P mask : Nat) (w : List Word) (tag : Option Nat) (bad : Bool) (old : List Word) :
    (s.writeOver up P mask w tag bad old).1.steady = s.steady := by
  unfold State.writeOver State.refusePoison
  grind [setLine_steady, heldClear_steady, fire_steady, bumpFld_steady]

/-! ### What answers a write that waited for its CARRY -/

theorem mirrorLine_steady (up : Bool) (L : Nat) : (s.mirrorLine up L).steady = s.steady := by
  unfold State.mirrorLine State.addItem
  grind

@[simp] theorem interrupt_steady (k : Nat) : (s.interrupt k).steady = s.steady :=
  (fires_interrupt s k (Fires.refl s)).steady
@[simp] theorem tallyEvent_steady (c : Nat) (p : List Nat) : (s.tallyEvent c p).steady = s.steady :=
  (fires_tallyEvent s c p (Fires.refl s)).steady

theorem respond_steady (path source : Nat) (h : Head) (body : List Nat) :
    (s.respond path source h body).steady = s.steady := by
  unfold State.respond State.reply State.hostRsp
  grind [bump_steady, interrupt_steady, State.emit]

theorem pointEnds_steady (req : Option Msg) (code : Nat) : (s.pointEnds req code).steady = s.steady := by
  unfold State.pointEnds
  grind [respond_steady]

/-! ### Pens -/

theorem penFall_steady (p : Nat) : (s.penFall p).steady = s.steady := by
  unfold State.penFall State.setPen
  grind

theorem penCheck_steady (p : Nat) : (s.penCheck p).1.steady = s.steady := by
  unfold State.penCheck
  grind [State.setPen, penFall_steady, fire_steady, bumpFld_steady]

theorem penCutShort_steady (p : Nat) : (s.penCutShort p).steady = s.steady := by
  unfold State.penCutShort State.penBad
  grind [State.setPen, penCheck_steady, bumpFld_steady]

theorem penOverflow_steady (p : Nat) : (s.penOverflow p).steady = s.steady := by
  simp [State.penOverflow]

theorem penRise_steady (p : Nat) : (s.penRise p).steady = s.steady := by
  have hm (s : State) (v : Nat) : (s.msiSend v).steady = s.steady := (fires_msiSend s v (Fires.refl s)).steady
  unfold State.penRise
  grind [State.setPen, fire_steady]

theorem penWordIn_steady (p : Nat) (w : Word) : (s.penWordIn p w).1.steady = s.steady := by
  unfold State.penWordIn State.penPacketWord State.penStream State.penWord State.penPoke
  grind [State.setPen, penOverflow_steady, penRise_steady]

theorem penWordsIn_steady (p : Nat) (ws : List Word) : (s.penWordsIn p ws).1.steady = s.steady := by
  induction ws generalizing s with
  | nil => rfl
  | cons w ws ih => exact (ih _).trans (penWordIn_steady s p w)

theorem penPushLost_steady (p : Nat) (ws : List Word) : (s.penPushLost p ws).1.steady = s.steady := by
  have hc := penCheck_steady s p
  unfold State.penPushLost
  grind [State.setPen, penOverflow_steady, penWordsIn_steady]

theorem penTake_steady (p : Nat) : (s.penTake p).1.steady = s.steady := by
  unfold State.penTake
  grind [State.setPen]

theorem penPositions_steady (p n : Nat) : (s.penPositions p n).1.steady = s.steady := by
  induction n generalizing s with
  | zero => rfl
  | succ n ih =>
    have ht := penTake_steady s p
    unfold State.penPositions
    grind [bump_steady]

theorem penReadN_steady (p n : Nat) : (s.penReadN p n).1.steady = s.steady :=
  (penFall_steady _ p).trans ((penPositions_steady _ p n).trans (penCheck_steady s p))

theorem penSeal_steady (p k : Nat) : (s.penSeal p k).steady = s.steady := by
  unfold State.penSeal State.setPen
  refine (penRise_steady _ p).trans (foldl_steady (fun s i => ?_) (List.range _) s)
  rfl

theorem penCommit_steady (p : Nat) : (s.penCommit p).steady = s.steady := by
  unfold State.penCommit
  grind [State.setPen, penCheck_steady, penSeal_steady]

/-! ### Ports and monitoring sessions of the switch core -/

theorem portCount_steady (p k : Nat) : (s.portCount p k).steady = s.steady := by
  unfold State.portCount
  grind [bump_steady]

theorem redAdmit_steady (p tc colour : Nat) : (s.redAdmit p tc colour).1.steady = s.steady := by
  unfold State.redAdmit State.draw
  grind

theorem enqueue_steady (p : Nat) (f : QFrame) : (s.enqueue p f).1.steady = s.steady := by
  unfold State.enqueue State.noteFree State.setBq
  grind [portCount_steady, redAdmit_steady]

theorem mirror_steady (k : Nat) (f : QFrame) : (s.mirror k f).steady = s.steady := by
  unfold State.mirror State.newCopy
  grind [portCount_steady, enqueue_steady, bump_steady]

theorem recToPen_steady (p : Nat) (ws : List Word) : (s.recToPen p ws).1.steady = s.steady := by
  have he (c n : Nat) (into : Bool) : (s.enterPen c p n into).steady = s.steady :=
    foldl_steady (fun s _ => enter_steady s ..) _ _
  unfold State.recToPen State.penPacketIn
  grind [penPushLost_steady, penCommit_steady]

theorem sample_steady (k : Nat) (f : QFrame) (port dir t : Nat) : (s.sample k f port dir t).steady = s.steady := by
  unfold State.sample
  grind [recToPen_steady, bump_steady]

theorem sessions_steady (f : QFrame) (port dir t : Nat) (rule : Option Nat) :
    (s.sessions f port dir t rule).steady = s.steady := by
  refine foldl_steady (fun s k => ?_) _ _
  grind [mirror_steady, sample_steady]

theorem schedBegin_steady (p at_ : Nat) : (s.schedBegin p at_).steady = s.steady := by
  unfold State.schedBegin State.schedPut State.schedDrop State.setSchedQ State.setPort
  grind [portCount_steady]

theorem schedStamp_steady (p at_ : Nat) : (s.schedStamp p at_).steady = s.steady := by
  unfold State.schedStamp State.schedPut State.setSchedQ
  grind

theorem schedSent_steady (p at_ : Nat) : (s.schedSent p at_).steady = s.steady := by
  unfold State.schedSent State.schedDrop State.setSchedQ State.emit
  grind [portCount_steady, sessions_steady]

/-! ### The acts of a stroke in flight -/

theorem cellOut_steady (l : Nat) (w : List Word) (ctx : Nat) (place : List Nat) :
    (s.cellOut l w ctx place).steady = s.steady := by
  unfold State.cellOut State.emit State.setLink
  grind

theorem flightDepart_steady (f : Flight) (l : Nat) : (s.flightDepart f l).1.steady = s.steady := by
  unfold State.flightDepart State.depart
  grind [cellOut_steady, linkCount_steady, fire_steady]

theorem busRelease_steady (tile c b : Nat) (marked : Bool) :
    (s.busRelease tile c b marked).steady = s.steady := by
  unfold State.busRelease State.busCount State.setChan
  grind [bump_steady, fire_steady]

theorem busMeet_steady (c b : Nat) : (s.busMeet c b).steady = s.steady := by
  have hw := (fires_withdraw s c b (Fires.refl s)).steady
  unfold State.busMeet State.busCount State.setChan
  grind [bump_steady, fire_steady]

/-- What a fold notes of held pins; any test c, so that no pin's configuration is computed to compare what is steady. -/
theorem noteHeld_steady (c : Nat → Prop) [DecidablePred c] (v : Nat → Nat) (ps : List Nat) :
    (ps.foldl (fun (t : State) p => if c p then { t with pin.safeHeld := Tab.set 0 t.pin.safeHeld p (v p) } else t) s).steady
      = s.steady := by
  refine foldl_steady (fun t p => ?_) _ _
  split <;> rfl

theorem snapHold_steady (ps : List Nat) : (s.snapHold ps).steady = s.steady :=
  noteHeld_steady s (fun p => pinSafe (s.pinCfg p) = 3) (fun p => (s.pinDrive p).2) ps

/-- Stated of any record of the field pins, for the same reason. -/
theorem setPins_steady (x : PinSt) : ({ s with pin := x } : State).steady = s.steady := rfl

theorem loadDout_steady (b h : Nat) (w : Word) : (s.loadDout b h w).steady = s.steady := by
  simp only [State.loadDout]
  split
  · rfl
  · split
    · split
      · rfl
      · exact (setPins_steady _ _).trans (snapHold_steady s _)
    · exact setPins_steady s _

theorem flightPut_steady (f : Flight) (q : Nat) : (s.flightPut f q).1.steady = s.steady := by
  unfold State.flightPut
  split
  · refine foldl_steady (fun s j => ?_) _ _
    rfl
  · exact (loadDout_steady _ _ _ _).trans (loadDout_steady _ _ _ _)
  · exact penPushLost_steady _ _ _
  · grind [State.setChan, busMeet_steady]
  · unfold State.schedDrop State.schedPut State.setSchedQ
    grind [bump_steady, fire_steady]

theorem rxDeliver_steady (n f : Nat) : (s.rxDeliver n f).1.steady = s.steady := by
  unfold State.rxDeliver
  grind [bump_steady]

theorem flightTake_steady (f : Flight) (q : Nat) : (s.flightTake f q).1.steady = s.steady := by
  unfold State.flightTake
  split
  · refine foldl_steady (fun s j => ?_) _ _
    grind [State.drvRegTaken, State.setDrover]
  · rfl
  · exact penReadN_steady _ _ _
  · exact rxDeliver_steady _ _ _

theorem digestPart_steady (f : Flight) : (s.digestPart f).steady = s.steady := by
  unfold State.digestPart State.addPart
  grind

/-! ### The operations that check a line, which may lose a channel -/

/-- b has the strokes in flight and the power state of a, and every channel that a has lost. -/
structure Flown (a b : State) : Prop where
  flights : b.tide.flights = a.tide.flights
  power : b.power = a.power
  lost : ∀ c, a.chanLost c = true → b.chanLost c = true

theorem Flown.of_steady {a b : State} (h : b.steady = a.steady) : Flown a b := by
  obtain ⟨hf, hp, hl⟩ : b.tide.flights = a.tide.flights ∧ b.power = a.power ∧ b.image.lost = a.image.lost := by simpa using h
  exact ⟨hf, hp, fun c hc => by rwa [State.chanLost, hl]⟩

theorem Flown.refl (s : State) : Flown s s := of_steady rfl

theorem Flown.trans {a b c : State} (h : Flown a b) (g : Flown b c) : Flown a c :=
  ⟨g.flights.trans h.flights, g.power.trans h.power, fun k hk => g.lost k (h.lost k hk)⟩

theorem Flown.then {a b c : State} (h : Flown a b) (g : c.steady = b.steady) : Flown a c := h.trans (of_steady g)

theorem Flown.ofEq {β : Type} {a b : State} {p : State × β} {x : β} (e : p = (b, x)) (h : Flown a p.1) : Flown a b := by
  rwa [e] at h

theorem Flown.ite {a b c : State} {p : Prop} [Decidable p] (hb : Flown a b) (hc : Flown a c) : Flown a (if p then b else c) := by
  split <;> assumption

/-- A channel that is lost joins those lost before. -/
theorem loseChannel_flown (c : Nat) {cause : Nat} (h : cause ≠ 0) : Flown s (s.loseChannel c cause) := by
  unfold State.loseChannel
  refine Flown.ite (Flown.refl s) ?_
  generalize hu : ({ s with image.lost := Tab.set 0 s.image.lost c cause, image.uplandReady := s.image.uplandReady.set c false } : State) = u
  refine Flown.then (b := u) (hu ▸ ⟨rfl, rfl, fun k hk => ?_⟩) (fire_steady u _ _ _ _)
  simp only [State.chanLost, get_set_of_ne h, bne_iff_ne] at hk ⊢
  split <;> assumption

theorem countFound_flown (c : Nat) : Flown s (s.countFound c) := by
  have hn (n : Nat) : Flown s { s with image.foundTide := Tab.set 0 s.image.foundTide c n } := Flown.of_steady rfl
  unfold State.countFound
  exact Flown.ite ((hn _).trans (loseChannel_flown _ c (by decide))) (hn _)

theorem foundBad_flown (up : Bool) (L : Nat) : Flown s (s.foundBad up L) := by
  unfold State.foundBad
  refine Flown.ite (Flown.refl s) ?_
  have hc : Flown s (((s.bumpFld (eccEntry up L).1 (eccEntry up L).2 17 0).bumpFld 0x03022 0 35 18).logPoison up L) :=
    Flown.of_steady rfl
  have hf := hc.then (fire_steady _ 49 (lineInst up L) (4 * L) false)
  exact Flown.ite (hf.trans (countFound_flown _ _)) hf

theorem checkLine_flown (up : Bool) (L : Nat) : Flown s (s.checkLine up L).1 := by
  unfold State.checkLine
  have hs : Flown s (if (s.line up L).code = .single then s.foundSingle up L else s) :=
    Flown.ite (Flown.of_steady (foundSingle_steady s up L)) (Flown.refl s)
  dsimp only
  split
  · exact hs.trans (foundBad_flown _ up L)
  · exact hs

theorem writeLine_flown (up : Bool) (P mask : Nat) (w : List Word) (tag : Option Nat) : Flown s (s.writeLine up P mask w tag).1 := by
  unfold State.writeLine
  split
  · unfold State.writeWhole
    exact Flown.of_steady ((heldClear_steady _ up P 15).trans (setLine_steady s up P _))
  · split
    · exact Flown.refl s
    · exact (checkLine_flown s up P).then (writeOver_steady _ up P mask w tag _ _)

theorem unschedWrite_flown (up : Bool) (L mask : Nat) (w : List Word) (b : Option Nat) :
    Flown s (s.unschedWrite up L mask w b).1 := by
  unfold State.unschedWrite
  split
  · split
    · exact Flown.refl s
    · exact writeLine_flown s ..
  · split
    · exact Flown.refl s
    · split
      · exact writeLine_flown s ..
      · split
        · exact Flown.refl s
        · split
          · exact Flown.refl s
          · split
            · exact Flown.refl s
            · exact writeLine_flown s ..

theorem schedWrite_flown (p : Place) (mask : Nat) (w : List Word) (old : Option (Bool × List Word)) :
    Flown s (s.schedWrite p mask w old) := by
  unfold State.schedWrite
  split
  · exact Flown.of_steady (writeOver_steady s ..)
  · exact writeLine_flown s ..

theorem schedRead_flown (p : Place) (free : Bool) (mask : Nat) : Flown s (s.schedRead p free mask).1 := by
  have hc : Flown s ((s.checkLine p.up p.line).1.countHeld p.up p.line mask) :=
    (checkLine_flown s p.up p.line).trans (Flown.ite (Flown.refl _) (Flown.of_steady rfl))
  unfold State.schedRead
  dsimp only
  split
  · exact hc
  · split
    · exact hc
    · split
      · exact hc.then (bump_steady _ _ _ _)
      · split <;> exact hc

theorem landWrite_flown (x : WaitWrite) : Flown s (s.landWrite x) := by
  have hw := unschedWrite_flown s false x.line x.mask x.words x.bit
  unfold State.landWrite
  split
  · rename_i u e
    rw [e] at hw
    exact (hw.trans (Flown.ite (Flown.of_steady (mirrorLine_steady u false x.line)) (Flown.refl u))).then (pointEnds_steady _ _ _)
  · rename_i u d e
    rw [e] at hw
    refine hw.then ((pointEnds_steady _ _ _).trans ?_)
    unfold State.skipLine
    grind [fire_steady, bump_steady, tallyEvent_steady]

theorem foldl_flown {α : Type} {f : State → α → State} (hf : ∀ s x, Flown s (f s x)) (l : List α) (s : State) :
    Flown s (l.foldl f s) := by
  induction l generalizing s with
  | nil => exact Flown.refl s
  | cons x l ih => exact (hf s x).trans (ih _)

theorem landHeld_flown : Flown s s.landHeld := by
  have hx (s : State) (x : WaitWrite) : Flown s ({ s with ledger.waiting := s.ledger.waiting.erase x }.landWrite x) := by
    refine Flown.trans ?_ (landWrite_flown _ x)
    exact Flown.of_steady rfl
  unfold State.landHeld
  split
  refine Flown.trans ?_ (foldl_flown hx _ _)
  exact Flown.of_steady rfl

/-! ### The acts of a stroke that may check a line or become null -/

theorem nullClass_flown (f : Flight) : Flown s (s.nullClass f) := by
  unfold State.nullClass
  split
  · exact landHeld_flown s
  · exact Flown.ite (Flown.of_steady (penCutShort_steady s _)) (Flown.refl s)
  · exact Flown.of_steady rfl
  · exact Flown.of_steady rfl
  · exact Flown.refl s

theorem failed_flown (f : Flight) (cause : Nat) : Flown s (s.failed f cause).1 :=
  ((Flown.of_steady (markHeld_steady s f.dst f.mask)).then (fires_countNull _ f.sl cause (Fires.refl _)).steady).trans
    (nullClass_flown _ f)

theorem flightDone_flown (f : Flight) : Flown s (s.flightDone f) := by
  unfold State.flightDone
  split
  · refine Flown.ite (Flown.trans ?_ (landHeld_flown _)) (Flown.refl s)
    exact Flown.of_steady rfl
  · refine Flown.ite (Flown.refl s) (Flown.of_steady ?_)
    grind [busRelease_steady, bump_steady, fire_steady]
  · exact Flown.refl s

theorem flightMeet_flown (f : Flight) : Flown s (s.flightMeet f).1 := by
  unfold State.flightMeet
  split
  · split
    · exact Flown.refl s
    · exact failed_flown s f _
  · dsimp only
    split
    · exact (Flown.of_steady (fire_steady s _ _ _ _)).trans (failed_flown _ f _)
    · exact Flown.of_steady rfl

theorem flightAct_flown (f : Flight) (a : Act) : Flown s (s.flightAct f a).1 := by
  unfold State.flightAct
  split
  · dsimp only
    split
    · exact failed_flown s f _
    · split
      · rename_i e
        exact (Flown.ofEq e (schedRead_flown s ..)).trans (failed_flown _ f _)
      · rename_i e
        exact Flown.ofEq e (schedRead_flown s ..)
  · dsimp only
    split
    · exact failed_flown s f _
    · exact checkLine_flown s _ _
  · split
    · exact Flown.refl s
    · split
      · exact failed_flown s f _
      · exact schedWrite_flown s ..
  · exact Flown.of_steady (flightTake_steady s f _)
  · exact Flown.of_steady (flightPut_steady s f _)
  · exact flightMeet_flown s f
  · exact Flown.of_steady (penCommit_steady s _)
  · exact Flown.of_steady (flightDepart_steady s f _)
  · exact Flown.of_steady (schedBegin_steady s _ _)
  · exact Flown.of_steady (schedStamp_steady s _ _)
  · exact Flown.of_steady (schedSent_steady s _ _)
  · exact flightDone_flown s f

theorem flightCycle_flown (f : Flight) (a : Act) : Flown s (s.flightCycle f a).1 := by
  have hend (u : State) (g : Flight) : ((u.digestPart g).traceStroke g.sl g.idx g.cause).steady = u.steady :=
    (fires_traceStroke _ _ _ _ (Fires.refl _)).steady.trans (digestPart_steady u g)
  have hlost : Flown s (if (decide (f.cause = 0) && s.strokeLost f.st f.d) = true then s.failed f cUpland else (s, f)).1 := by
    split
    · exact failed_flown s f _
    · exact Flown.refl s
  unfold State.flightCycle
  dsimp only
  generalize (if (decide (f.cause = 0) && s.strokeLost f.st f.d) = true then s.failed f cUpland else (s, f)) = r at hlost ⊢
  have hact : Flown s (if r.2.cause = 0 then r.1.flightAct r.2 a else r).1 := by
    split
    · exact hlost.trans (flightAct_flown _ _ a)
    · exact hlost
  generalize (if r.2.cause = 0 then r.1.flightAct r.2 a else r) = r' at hact ⊢
  split
  · exact hact.then (hend _ _)
  · exact hact

/-! ### Time that passes -/

/-- The power state and the lost channels of a state, however many acts have come since. -/
structure Lasting (a b : State) : Prop where
  power : b.power = a.power
  lost : ∀ c, a.chanLost c = true → b.chanLost c = true

theorem runAct_lasting {s₀ s : State} (h : Lasting s₀ s) (k : Nat) : Lasting s₀ (s.runAct k) := by
  unfold State.runAct
  split
  · exact h
  · rename_i f _
    split
    · exact ⟨h.power, h.lost⟩
    · rename_i a rest _
      have hc := flightCycle_flown { s with tide.off := max s.tide.off (a.1 - s.tide.abs0) } { f with acts := rest } a.2
      exact ⟨hc.power.trans h.power, fun c hl => hc.lost c (h.lost c hl)⟩

/-- Time that passes keeps the power state, and a lost channel stays lost. -/
theorem advance_lasting (off : Nat) : Lasting s (s.advance off) := by
  have hr := Flown.of_steady (reportTurns_steady s)
  have ha := runActs_keeps (I := Lasting s) (s.reportTurns.abs off) (fun _ k hk => runAct_lasting hk k) s.reportTurns.actsLeft _
    ⟨hr.power, hr.lost⟩
  exact ⟨ha.power, ha.lost⟩

end Sys2Proof.Laws
end

section
/-! A stroke stores to no line but those of its destination (R51, R53, R99): the obligation StrokeStoresFrame. -/

open Sys2Proof Sys2Proof.Machine Sys2Proof.Laws

namespace Sys2Proof.Laws

/-! ### A cycle of a flight -/

theorem Acted.and_lines {s t u : State} {f g : Flight} (h : Acted s f (t, g)) (hl : Lines t u) : Acted s f (u, g) :=
  ⟨h.image.imp (·.trans hl) fun ⟨p, hp, e⟩ => ⟨p, hp, e.after hl⟩, h.st, h.dst⟩

/-- A cycle of a flight leaves the image's lines as they are, or writes one line of its destination. -/
theorem acted_flightCycle (s : State) (f : Flight) (a : Act) (hop : f.st.op ≠ 0x02) : Acted s f (s.flightCycle f a) := by
  have hend (r : State × Flight) (h : Acted s f r) :
      Acted s f (if a = .done then ((r.1.digestPart r.2).traceStroke r.2.sl r.2.idx r.2.cause, r.2) else r) := by
    split
    · exact h.and_lines (lines_traceStroke _ _ _ _ (lines_digestPart _ _ (Lines.refl _)))
    · exact h
  by_cases hc : f.cause = 0
  · by_cases hl : s.strokeLost f.st f.d = true
    · have hk : cUpland ≠ 0 := by decide
      have hf := hend _ (Acted.failed cUpland hop (Lines.refl s))
      simp only [failed_flight] at hf
      simp only [State.flightCycle, hc, hl, hk, decide_true, Bool.and_self, if_true, if_false, failed_flight]
      exact hf
    · simpa [State.flightCycle, hc, hl] using hend _ (acted_flightAct s f a hop)
  · simpa [State.flightCycle, hc] using hend (s, f) (Acted.of (Lines.refl s))

theorem storesWf_of_kept {s t : State} (h : s.storesWf) (hk : Kept s t) : t.storesWf :=
  ⟨hk.pasture h.1, hk.upland h.2.1, hk.pool h.2.2.1, hk.mram h.2.2.2⟩

/-! ### Time that passes -/

/-- Line P of a tier stands as in s₀, and no flight of s stores to it or is a CARRY's. -/
structure Spared (up : Bool) (P : Nat) (s₀ s : State) : Prop where
  wf : s.storesWf
  line : s.line up P = s₀.line up P
  flights : ∀ f ∈ s.tide.flights, f.st.op ≠ 0x02 ∧ ¬ f.storesTo up P

section Time
variable {up : Bool} {P : Nat} {s₀ s : State}

/-- A flight that stays in flight spares the line by its stroke and its destination alone. -/
theorem spares_of_eq {f g : Flight} (hst : g.st = f.st) (hdst : g.dst = f.dst) (h : f.st.op ≠ 0x02 ∧ ¬ f.storesTo up P) :
    g.st.op ≠ 0x02 ∧ ¬ g.storesTo up P := by
  rwa [hst, Flight.storesTo, hdst]

theorem Spared.runAct (h : Spared up P s₀ s) (k : Nat) : Spared up P s₀ (s.runAct k) := by
  unfold State.runAct
  split
  · exact h
  · rename_i f hf
    have hmem : f ∈ s.tide.flights := List.mem_of_getElem? hf
    split
    · exact ⟨h.wf, h.line, fun g hg => h.flights g (List.mem_of_mem_eraseIdx hg)⟩
    · rename_i a rest _
      obtain ⟨hop, hto⟩ := h.flights f hmem
      generalize hu : ({ s with tide.off := max s.tide.off (a.1 - s.tide.abs0) } : State) = u
      have hwf : u.storesWf := hu ▸ h.wf
      have hline : u.line up P = s₀.line up P := hu ▸ h.line
      have hfl : u.tide.flights = s.tide.flights := by rw [← hu]
      have hact := acted_flightCycle u { f with acts := rest } a.2 hop
      have hkept := (flightCycle_flown u { f with acts := rest } a.2).flights
      have hwf' := storesWf_of_kept hwf (keeps_flightCycle u { f with acts := rest } a.2 (Kept.refl u))
      refine ⟨hwf', (hact.line ⟨hwf.1, hwf.2.1⟩ hto).trans hline, fun g hg => ?_⟩
      dsimp only at hg
      rw [hkept, hfl] at hg
      split at hg
      · exact h.flights g (List.mem_of_mem_eraseIdx hg)
      · rcases List.mem_or_eq_of_mem_set hg with hg | rfl
        · exact h.flights g hg
        · exact spares_of_eq hact.st hact.dst ⟨hop, hto⟩

theorem Spared.reportTurns (h : Spared up P s₀ s) : Spared up P s₀ s.reportTurns :=
  ⟨storesWf_of_kept h.wf (keeps_reportTurns s (Kept.refl s)), (line_of_lines (lines_reportTurns s (Lines.refl s)) up P).trans h.line,
    fun f hf => h.flights f ((Flown.of_steady (reportTurns_steady s)).flights ▸ hf)⟩

/-- Time that passes leaves a line to which no flight under way stores. -/
theorem Spared.advance (h : Spared up P s₀ s) (off : Nat) : Spared up P s₀ (s.advance off) := by
  have hr := runActs_keeps (I := Spared up P s₀) (s.reportTurns.abs off) (fun _ k hk => hk.runAct k) s.reportTurns.actsLeft _
    h.reportTurns
  exact ⟨hr.wf, hr.line, hr.flights⟩

theorem advance_line (hwf : s.storesWf) (hf : ∀ f ∈ s.tide.flights, f.st.op ≠ 0x02 ∧ ¬ f.storesTo up P) (off : Nat) :
    (s.advance off).line up P = s.line up P := (Spared.advance ⟨hwf, rfl, hf⟩ off).line

end Time

/-! ### The start of a stroke -/

/-- The start of a stroke stores to no line, whether it takes off or is null. -/
theorem lines_launch {s : State} {sl idx : Nat} {test : Nat → Bool} {st : Stroke} {d : Desc} {ecc : List Ecc}
    (h : s.selects sl idx test = some (st, d, ecc)) (ho : st.op ≠ 0x02) :
    Lines (s.advance st.start) (s.launch sl idx test) := by
  have hecc := lines_tableEcc _ sl ecc (Lines.refl (s.advance st.start))
  unfold State.launch
  rw [h]
  dsimp only
  generalize (s.advance st.start).tableEcc sl ecc = a at hecc ⊢
  have hset := Lines.ite (c := a.startCause sl st d ecc = cSettle) (lines_fireSettle _ st d hecc) hecc
  generalize (if a.startCause sl st d ecc = cSettle then a.fireSettle st d else a) = b at hset ⊢
  split
  · exact hset.trans ⟨rfl, rfl, rfl, rfl⟩
  · exact (lines_failed b _ _ ho hset).trans ⟨rfl, rfl, rfl, rfl⟩

/-- A line to which no flight under way stores is the same after the start of a stroke that is no CARRY. -/
theorem launch_line {s : State} {up : Bool} {P : Nat} (hwf : s.storesWf)
    (hf : ∀ f ∈ s.tide.flights, f.st.op ≠ 0x02 ∧ ¬ f.storesTo up P) {sl idx : Nat} {test : Nat → Bool}
    (ht : test 0x02 = false) : (s.launch sl idx test).line up P = s.line up P := by
  rcases h : s.selects sl idx test with _ | ⟨st, d, ecc⟩
  · rw [launch_unselected h]
  · have ho : st.op ≠ 0x02 := fun e => by simpa [e, ht] using selects_opcode h
    exact (line_of_lines (lines_launch h ho) up P).trans (advance_line hwf hf st.start)

/-- The lines a flight stores to: those of its stroke's destination, in the copy that its generation selects (R99). -/
theorem flightOf_storesTo {s : State} {sl idx : Nat} {st : Stroke} {d : Desc} {up : Bool} {P : Nat} (ho : st.op < 0x13) :
    (s.flightOf sl idx st d).storesTo up P ↔ ∃ u L i, strokeDest sl st d = some (u, L) ∧ i < st.n
      ∧ (s.placeOf u (if st.op = 0x02 then 0 else st.wgen) (L + i)).up = up
      ∧ (s.placeOf u (if st.op = 0x02 then 0 else st.wgen) (L + i)).line = P := by
  have hr : ¬ 0x13 ≤ st.op := by omega
  simp only [Flight.storesTo, State.flightOf, if_neg hr]
  rcases strokeDest sl st d with _ | ⟨u, L⟩
  · simp
  · simp [and_assoc]

end Sys2Proof.Laws

namespace Sys2Proof.Proofs

/-- Settles O13: the frame of an act, the lines of a destination, and the frame of time and of a start. -/
theorem strokeStoresFrame : Obligations.StrokeStoresFrame := by
  refine ⟨?act, fun s sl idx st d up P => flightOf_storesTo, fun s off up P hwf hf => advance_line hwf hf off, ?commands, ?reserved⟩
  case act =>
    exact fun s f a up P hwf hop hto => ⟨(acted_flightCycle s f a hop).line ⟨hwf.1, hwf.2.1⟩ hto,
      storesWf_of_kept hwf (keeps_flightCycle _ _ _ (Kept.refl s))⟩
  case commands =>
    intro op sl idx c s t up P hwf hf hc ho he
    obtain rfl : s.launch sl idx (· == op) = t := by simpa [exec_strokeCmd hc] using he
    exact launch_line hwf hf (by simpa using ho.symm)
  case reserved =>
    intro sl idx s t up P hwf hf he
    obtain rfl : s.launch sl idx (fun op => decide (0x13 ≤ op)) = t := by simpa [exec_reservedOpcodeStroke] using he
    exact launch_line hwf hf (by decide)

end Sys2Proof.Proofs
end

section
/-! Accesses of class SCRUB (R140, R144, R176), the writes that keep the image sound (R169, R170, R177, R181), and the
obligation MemoryUpkeep. -/

open Sys2Proof Sys2Proof.Machine Sys2Proof.Laws

namespace Sys2Proof.Laws

/-! ### An access of class SCRUB -/

section Scrub
variable {s : State} {st : LStage} {line : Option (Bool × Nat)} {off : Nat} {work : State → State}

/-- Where the work domain does not run, nothing is done. -/
theorem scrubStage_stands (h : s.workRuns = false) : s.scrubStage st line off work = s := by
  simp [State.scrubStage, h]

/-- Its dark tile wakes first (R78). -/
theorem scrubStage_wakes (h : s.scrubWakes st) : s.scrubStage st line off work = s.reachTile [st] off := by
  obtain ⟨hrun, t, ht, hdark⟩ := h
  simp [State.scrubStage, hrun, ht, hdark]

/-- With its tile awake, what it does follows from the cycle and the quota. -/
theorem scrubStage_awake (hrun : s.workRuns = true) (ha : ∀ t, resTile st.cls st.inst = some t → Tab.get 0 s.tide.darkAt t = 0) :
    s.scrubStage st line off work =
      if !s.scrubFree st line off then s else if !s.belowQuota 8 st.cls st.inst then s.quotaStop 8
      else work (s.scrubTakes st line off) := by
  unfold State.scrubStage
  rcases ht : resTile st.cls st.inst with _ | t
  · simp [hrun, State.scrubTakes]
  · simp [hrun, State.scrubTakes, ha t ht]

theorem scrubStage_misses (h : s.scrubMisses st line off) : s.scrubStage st line off work = s := by
  obtain ⟨hrun, hfree, ha⟩ := h
  rw [scrubStage_awake hrun ha, hfree]
  rfl

theorem scrubStage_stopped (h : s.scrubStopped st line off) : s.scrubStage st line off work = s.quotaStop 8 := by
  obtain ⟨⟨hrun, hfree, ha⟩, hq⟩ := h
  rw [scrubStage_awake hrun ha, hfree, hq]
  rfl

theorem scrubStage_runs (h : s.scrubRuns st line off) : s.scrubStage st line off work = work (s.scrubTakes st line off) := by
  obtain ⟨⟨hrun, hfree, ha⟩, hq⟩ := h
  rw [scrubStage_awake hrun ha, hfree, hq]
  rfl

end Scrub

/-- The ledger's notes of an access touch no line and no queue of lines. -/
theorem scrubTakes_image (s : State) (st : LStage) (line : Option (Bool × Nat)) (off : Nat) :
    (s.scrubTakes st line off).image = (s.advance off).image := by
  have hg (u : State) (c r i w : Nat) : (u.traceGrant c r i w).image = u.image := by
    unfold State.traceGrant
    split
    · exact (fires_traceRec u _ _ _ (Fires.refl u)).image
    · rfl
  exact hg _ _ _ _ _

theorem line_of_image {s t : State} (h : s.image = t.image) (up : Bool) (P : Nat) : s.line up P = t.line up P := by
  unfold State.line
  rw [h]

theorem tiers_of_lines {s t : State} (h : Lines s t) (ht : Tiers s) : Tiers t := by
  rwa [Tiers, h.image_pasture, h.image_upland]

theorem tiers_of_storesWf {s : State} (h : s.storesWf) : Tiers s := ⟨h.1, h.2.1⟩

theorem advance_storesWf {s : State} (h : s.storesWf) (off : Nat) : (s.advance off).storesWf :=
  storesWf_of_kept h (keeps_advance s off (Kept.refl s))

theorem setLine_line_same {s : State} (h : Tiers s) (up : Bool) (P : Nat) (l : Line) : (s.setLine up P l).line up P = l := by
  obtain ⟨hp, hu⟩ := h
  cases up
  · exact (get_set hp).trans (if_pos rfl)
  · exact (get_set hu).trans (if_pos rfl)

@[simp] theorem setLine_marking (s : State) (up : Bool) (P : Nat) (l : Line) :
    (s.setLine up P l).image.marking = s.image.marking := by
  cases up <;> rfl

@[simp] theorem setLine_writeBack (s : State) (up : Bool) (P : Nat) (l : Line) :
    (s.setLine up P l).image.writeBack = s.image.writeBack := by
  cases up <;> rfl

/-! ### CLEAR_LINE -/

section Clear
variable {s : State} {up : Bool} {addr : Nat} (hrun : s.workRuns = true)
include hrun

theorem clearLine_outside
    (ho : addr % 4 ≠ 0 ∨ tierLines up ≤ addr / 4 ∨ (up = true ∧ s.chanLost (lineChan (addr / 4)) = true)) :
    exec (.clearLine up addr) s = .next { s with outbox := ⟨.abort, 0x03024, [6]⟩ :: s.outbox } := by
  show execClearLine up addr s = _
  simp only [execClearLine, hrun, Bool.not_true, Bool.false_eq_true, if_false, if_pos ho]
  rfl

theorem clearLine_held
    (ho : ¬(addr % 4 ≠ 0 ∨ tierLines up ≤ addr / 4 ∨ (up = true ∧ s.chanLost (lineChan (addr / 4)) = true)))
    (hc : s.classSafe 2 2 = true) :
    exec (.clearLine up addr) s = .next { s with outbox := ⟨.abort, 0x03024, [0x011]⟩ :: s.outbox } := by
  show execClearLine up addr s = _
  simp only [execClearLine, hrun, Bool.not_true, Bool.false_eq_true, if_false, if_neg ho, hc, if_true]
  rfl

theorem clearLine_writes
    (ho : ¬(addr % 4 ≠ 0 ∨ tierLines up ≤ addr / 4 ∨ (up = true ∧ s.chanLost (lineChan (addr / 4)) = true)))
    (hc : s.classSafe 2 2 = false) :
    exec (.clearLine up addr) s = .next ((s.clientEnter 2 up (addr / 4) true 15).writeWhole up (addr / 4) Line.fresh.words none) := by
  show execClearLine up addr s = _
  simp only [execClearLine, hrun, Bool.not_true, Bool.false_eq_true, if_false, if_neg ho, hc]
  rfl

end Clear

theorem clearLine_stands {s : State} (up : Bool) (addr : Nat) (h : s.workRuns = false) : exec (.clearLine up addr) s = .next s := by
  show execClearLine up addr s = _
  simp [execClearLine, h]

/-- An access that enters the ledger touches no line. -/
theorem lines_clientEnter (s : State) (c : Nat) (up : Bool) (L : Nat) (write : Bool) (mask : Nat) :
    Lines s (s.clientEnter c up L write mask) := by
  unfold State.clientEnter
  split
  · exact Lines.ite (Lines.refl s) (lines_enter _ _ _ _ _ _ (Lines.refl s))
  · exact lines_enter _ _ _ _ _ _ (Lines.refl s)

/-- A write of a whole line sets it, with good check bits and poison bit 0. -/
theorem writeWhole_line_same {s : State} (h : Tiers s) (up : Bool) (P : Nat) (w : List Word) (tag : Option Nat) :
    (s.writeWhole up P w tag).line up P = { (s.line up P).merge 15 w with poison := false, code := .good }.retag tag := by
  refine (line_of_lines (lines_heldClear _ up P 15) up P).trans ?_
  exact setLine_line_same h up P _

theorem writeWhole_else (s : State) (up : Bool) (P : Nat) (w : List Word) (tag : Option Nat) : Else up P s (s.writeWhole up P w tag) :=
  Else.writeLine s up P 15 w tag

/-! ### POISON_MARK_WRITE and SCRUB_WRITE_BACK -/

/-- The oldest line leaves the queue of lines to mark, and its write is noted for the ledger. -/
def leaveMarking (up : Bool) (L off : Nat) (s : State) : State :=
  { s with image.marking := s.image.marking.erase (up, L) }.noteWrite (scrubOf up L) (some (up, L)) off

/-- The oldest line leaves the queue of lines to write back, and its write is noted for the ledger. -/
def leaveWriteBack (up : Bool) (L off : Nat) (s : State) : State :=
  { s with image.writeBack := s.image.writeBack.erase (up, L) }.noteWrite (scrubOf up L) (some (up, L)) off

/-- What POISON_MARK_WRITE does in its cycle: the marking write of a line that is still queued (R170). -/
def markQueued (up : Bool) (L off : Nat) (s : State) : State :=
  if s.image.marking.contains (up, L) then
    (leaveMarking up L off s).setLine up L
      { s.line up L with poison := true, code := .good, sideBad := false, tagVoid := (s.line up L).tagVoid || (s.line up L).sideBad }
  else s

/-- What SCRUB_WRITE_BACK does in its cycle: good check bits for a line that is still queued, where its error stands (R177). -/
def freshenQueued (up : Bool) (L off : Nat) (s : State) : State :=
  if s.image.writeBack.contains (up, L) then
    if (s.line up L).code = .single then (leaveWriteBack up L off s).setLine up L { s.line up L with code := .good }
    else leaveWriteBack up L off s
  else s

section Queued
variable (s : State) (up : Bool) (L off : Nat)

theorem noteWrite_image (st : LStage) (line : Option (Bool × Nat)) : (s.noteWrite st line off).image = s.image := by
  unfold State.noteWrite
  split
  · split <;> rfl
  · rfl

/-- A write noted for the ledger touches no line. -/
theorem lines_noteWrite (st : LStage) (line : Option (Bool × Nat)) : Lines s (s.noteWrite st line off) := by
  unfold State.noteWrite
  split
  · split <;> exact ⟨rfl, rfl, rfl, rfl⟩
  · exact Lines.refl s

theorem lines_leaveMarking : Lines s (leaveMarking up L off s) :=
  Lines.trans (b := { s with image.marking := s.image.marking.erase (up, L) }) ⟨rfl, rfl, rfl, rfl⟩ (lines_noteWrite _ _ _ _)

theorem lines_leaveWriteBack : Lines s (leaveWriteBack up L off s) :=
  Lines.trans (b := { s with image.writeBack := s.image.writeBack.erase (up, L) }) ⟨rfl, rfl, rfl, rfl⟩ (lines_noteWrite _ _ _ _)

@[simp] theorem leaveMarking_marking : (leaveMarking up L off s).image.marking = s.image.marking.erase (up, L) :=
  congrArg ImageSt.marking (noteWrite_image _ _ _ _)

@[simp] theorem leaveWriteBack_writeBack : (leaveWriteBack up L off s).image.writeBack = s.image.writeBack.erase (up, L) :=
  congrArg ImageSt.writeBack (noteWrite_image _ _ _ _)

theorem markQueued_marking : (markQueued up L off s).image.marking = s.image.marking.erase (up, L) := by
  unfold markQueued
  split
  · rw [setLine_marking, leaveMarking_marking]
  · rename_i h
    exact (List.erase_of_not_mem (by simpa using h)).symm

theorem markQueued_else : Else up L s (markQueued up L off s) := by
  unfold markQueued
  split
  · exact (Else.of (lines_leaveMarking s up L off)).trans Else.setLine
  · exact Else.of (Lines.refl s)

theorem freshenQueued_writeBack : (freshenQueued up L off s).image.writeBack = s.image.writeBack.erase (up, L) := by
  unfold freshenQueued
  split
  · split
    · rw [setLine_writeBack, leaveWriteBack_writeBack]
    · rw [leaveWriteBack_writeBack]
  · rename_i h
    exact (List.erase_of_not_mem (by simpa using h)).symm

theorem freshenQueued_else : Else up L s (freshenQueued up L off s) := by
  have hl := lines_leaveWriteBack s up L off
  unfold freshenQueued
  split
  · split
    · exact (Else.of hl).trans Else.setLine
    · exact Else.of hl
  · exact Else.of (Lines.refl s)

variable {s up L}

theorem markQueued_line (ht : Tiers s) (h : (up, L) ∈ s.image.marking) : (markQueued up L off s).line up L =
    { s.line up L with poison := true, code := .good, sideBad := false, tagVoid := (s.line up L).tagVoid || (s.line up L).sideBad } := by
  unfold markQueued
  rw [if_pos (by simpa using h)]
  exact setLine_line_same (tiers_of_lines (lines_leaveMarking s up L off) ht) up L _

theorem markQueued_unqueued (h : (up, L) ∉ s.image.marking) : markQueued up L off s = s := if_neg (by simpa using h)

theorem freshenQueued_line (ht : Tiers s) : (freshenQueued up L off s).line up L =
    if (up, L) ∈ s.image.writeBack ∧ (s.line up L).code = .single then { s.line up L with code := .good } else s.line up L := by
  have hl := lines_leaveWriteBack s up L off
  unfold freshenQueued
  by_cases hm : (up, L) ∈ s.image.writeBack
  · rw [if_pos (by simpa using hm)]
    by_cases hc : (s.line up L).code = .single
    · rw [if_pos hc, if_pos (And.intro hm hc)]
      exact setLine_line_same (tiers_of_lines hl ht) up L _
    · rw [if_neg hc, if_neg fun h => hc h.2]
      exact line_of_lines hl up L
  · rw [if_neg (by simpa using hm), if_neg fun h => hm h.1]

end Queued

section Commands
variable {s : State} {up : Bool} {L off : Nat} {rest : List (Bool × Nat)}

/-- POISON_MARK_WRITE is one access of class SCRUB, for the oldest line queued for marking. -/
theorem poisonMarkWrite_oldest (hq : s.image.marking = (up, L) :: rest) (hl : up = true → s.chanLost (lineChan L) = false) :
    exec (.poisonMarkWrite off) s = .next (s.scrubStage (scrubOf up L) (some (up, L)) off (markQueued up L off)) := by
  have hn : ¬(up && s.chanLost (lineChan L)) = true := by cases up <;> simp_all
  show execPoisonMarkWrite off s = _
  simp only [execPoisonMarkWrite, hq, if_neg hn]
  rfl

/-- SCRUB_WRITE_BACK is one, for the oldest line queued for write-back. -/
theorem scrubWriteBack_oldest (hq : s.image.writeBack = (up, L) :: rest) (hl : up = true → s.chanLost (lineChan L) = false) :
    exec (.scrubWriteBack off) s = .next (s.scrubStage (scrubOf up L) (some (up, L)) off (freshenQueued up L off)) := by
  have hn : ¬(up && s.chanLost (lineChan L)) = true := by cases up <;> simp_all
  show execScrubWriteBack off s = _
  simp only [execScrubWriteBack, hq, if_neg hn]
  rfl

theorem poisonMarkWrite_lost (hq : s.image.marking = (true, L) :: rest) (hl : s.chanLost (lineChan L) = true) :
    exec (.poisonMarkWrite off) s = .next { s with image.marking := rest } := by
  show execPoisonMarkWrite off s = _
  simp only [execPoisonMarkWrite, hq, hl, Bool.and_self, if_true]

theorem scrubWriteBack_lost (hq : s.image.writeBack = (true, L) :: rest) (hl : s.chanLost (lineChan L) = true) :
    exec (.scrubWriteBack off) s = .next { s with image.writeBack := rest } := by
  show execScrubWriteBack off s = _
  simp only [execScrubWriteBack, hq, hl, Bool.and_self, if_true]

theorem poisonMarkWrite_none (hq : s.image.marking = []) : exec (.poisonMarkWrite off) s = .next s := by
  show execPoisonMarkWrite off s = _
  simp only [execPoisonMarkWrite, hq]

theorem scrubWriteBack_none (hq : s.image.writeBack = []) : exec (.scrubWriteBack off) s = .next s := by
  show execScrubWriteBack off s = _
  simp only [execScrubWriteBack, hq]

/-- The access noted, the image is that of the time that has passed. -/
theorem scrubTakes_tiers (hwf : s.storesWf) (st : LStage) (line : Option (Bool × Nat)) (off : Nat) :
    Tiers (s.scrubTakes st line off) := by
  rw [Tiers, scrubTakes_image]
  exact tiers_of_storesWf (advance_storesWf hwf off)

end Commands
end Sys2Proof.Laws

namespace Sys2Proof.Proofs

/-- Settles O18: CLEAR_LINE, and the two accesses of class SCRUB in each case of their access. -/
theorem memoryUpkeep : Obligations.MemoryUpkeep := by
  refine ⟨?clear, fun up addr s => clearLine_stands up addr, ?runs, ?elsewhere,
    fun L off rest s hl => ⟨(poisonMarkWrite_lost · hl), (scrubWriteBack_lost · hl)⟩,
    fun off s => ⟨poisonMarkWrite_none, scrubWriteBack_none⟩⟩
  case clear =>
    intro up addr s hrun outside
    refine ⟨fun hwf ho hc => ?_, clearLine_outside hrun, clearLine_held hrun⟩
    have hin := lines_clientEnter s 2 up (addr / 4) true 15
    have ht := tiers_of_lines hin (tiers_of_storesWf hwf)
    refine ⟨_, clearLine_writes hrun ho hc, ?_, fun u P hP => ?_⟩
    · rw [writeWhole_line_same ht, line_of_lines hin]
      rfl
    · rw [(writeWhole_else _ _ _ _ _).line ht u P hP, line_of_lines hin]
  case runs =>
    intro up L off rest s hwf hl hr a
    have himg : (s.scrubTakes (scrubOf up L) (some (up, L)) off).image = a.image := scrubTakes_image _ _ _ _
    have hline (u : Bool) (P : Nat) := line_of_image himg u P
    have ht := scrubTakes_tiers hwf (scrubOf up L) (some (up, L)) off
    refine ⟨fun hq => ?_, fun hq => ?_⟩
    · refine ⟨_, (poisonMarkWrite_oldest hq hl).trans (congrArg _ (scrubStage_runs hr)), ?_, fun hm => ?_, fun hm => ?_, fun u P hP => ?_⟩
      · rw [markQueued_marking, himg]
      · rw [markQueued_line off ht (himg ▸ hm), hline]
      · rw [markQueued_unqueued off (himg ▸ hm), hline]
      · rw [(markQueued_else _ up L off).line ht u P hP, hline]
    · refine ⟨_, (scrubWriteBack_oldest hq hl).trans (congrArg _ (scrubStage_runs hr)), ?_, ?_, fun u P hP => ?_⟩
      · rw [freshenQueued_writeBack, himg]
      · rw [freshenQueued_line off ht, himg, hline]
      · rw [(freshenQueued_else _ up L off).line ht u P hP, hline]
  case elsewhere =>
    intro up L off rest s hl
    refine ⟨fun h => ?none, fun h => ?stopped, fun h => ?wakes⟩
    case none =>
      have hs (work : State → State) : s.scrubStage (scrubOf up L) (some (up, L)) off work = s :=
        h.elim scrubStage_stands scrubStage_misses
      exact ⟨fun hq => (poisonMarkWrite_oldest hq hl).trans (congrArg _ (hs _)),
        fun hq => (scrubWriteBack_oldest hq hl).trans (congrArg _ (hs _))⟩
    case stopped =>
      exact ⟨fun hq => (poisonMarkWrite_oldest hq hl).trans (congrArg _ (scrubStage_stopped h)),
        fun hq => (scrubWriteBack_oldest hq hl).trans (congrArg _ (scrubStage_stopped h))⟩
    case wakes =>
      exact ⟨fun hq => (poisonMarkWrite_oldest hq hl).trans (congrArg _ (scrubStage_wakes h)),
        fun hq => (scrubWriteBack_oldest hq hl).trans (congrArg _ (scrubStage_wakes h))⟩

end Sys2Proof.Proofs
end

section
/-! SCRUB_READ and the upland commands (R59, R171, R173, R176), and the obligation ScrubAndUplandCommands. -/

open Sys2Proof Sys2Proof.Machine Sys2Proof.Laws

namespace Sys2Proof.Laws

section Scrub
variable {s : State} {u : Fin 68} (off : Nat)

/-- SCRUB_READ of a bank is one access of class SCRUB to the line at its pointer (R176). -/
theorem scrubRead_bank (hu : u.val < 64) : exec (.scrubRead u off) s =
    .next (s.scrubStage (scrubOf false (u * 65536 + Tab.get 0 s.image.scrubAt u)) none off fun s' =>
      ((s'.checkLine false (u * 65536 + Tab.get 0 s.image.scrubAt u)).1).scrubAdvance u 65536) := by
  show execScrubRead u off s = _
  simp only [execScrubRead, if_pos hu]

/-- Of a channel that stands it is one to the burst at its pointer. -/
theorem scrubRead_channel (hu : 64 ≤ u.val) (hl : s.chanLost (u - 64) = false) : exec (.scrubRead u off) s =
    .next (s.scrubStage (scrubOf true ((u - 64) * 2 ^ 25 + 8 * Tab.get 0 s.image.scrubAt u))
      (some (true, (u - 64) * 2 ^ 25 + 8 * Tab.get 0 s.image.scrubAt u)) off fun s' =>
      ((List.range 8).foldl (fun v i => (v.checkLine true ((u - 64) * 2 ^ 25 + 8 * Tab.get 0 s.image.scrubAt u + i)).1) s').scrubAdvance
        u 4194304) := by
  show execScrubRead u off s = _
  simp only [execScrubRead, if_neg (Nat.not_lt.mpr hu), hl, Bool.false_eq_true, if_false]

theorem scrubRead_lost (hu : 64 ≤ u.val) (hl : s.chanLost (u - 64) = true) : exec (.scrubRead u off) s = .next s := by
  show execScrubRead u off s = _
  simp only [execScrubRead, if_neg (Nat.not_lt.mpr hu), hl, if_true]

/-- SCRUB_READ of a bank or of a channel that stands is one access of class SCRUB to the line at its pointer. -/
theorem scrubRead_access (hs : u.val < 64 ∨ s.chanLost (u - 64) = false) :
    ∃ work, exec (.scrubRead u off) s = .next (s.scrubStage
      (scrubOf (decide (64 ≤ u.val)) (if u.val < 64 then u * 65536 + Tab.get 0 s.image.scrubAt u
        else (u - 64) * 2 ^ 25 + 8 * Tab.get 0 s.image.scrubAt u))
      (if decide (64 ≤ u.val) then some (true, if u.val < 64 then u * 65536 + Tab.get 0 s.image.scrubAt u
        else (u - 64) * 2 ^ 25 + 8 * Tab.get 0 s.image.scrubAt u) else none) off work) := by
  by_cases hu : u.val < 64
  · have hn : ¬ 64 ≤ u.val := by omega
    simp only [hu, hn, decide_false, if_true, Bool.false_eq_true, if_false]
    exact ⟨_, scrubRead_bank off hu⟩
  · have hn : 64 ≤ u.val := by omega
    simp only [hu, hn, decide_true, if_true, if_false]
    exact ⟨_, scrubRead_channel off hn (hs.resolve_left hu)⟩

/-- Where the work domain does not run, or of a lost channel, it changes nothing. -/
theorem scrubRead_none (h : s.workRuns = false ∨ (64 ≤ u.val ∧ s.chanLost (u - 64) = true)) :
    exec (.scrubRead u off) s = .next s := by
  rcases h with h | ⟨hu, hl⟩
  · by_cases hs : u.val < 64 ∨ s.chanLost (u - 64) = false
    · obtain ⟨work, he⟩ := scrubRead_access off hs
      rw [he, scrubStage_stands h]
    · rw [not_or] at hs
      exact scrubRead_lost off (by omega) (by simpa using hs.2)
  · exact scrubRead_lost off hu hl

end Scrub

section Upland
variable {s : State} {ch : Fin 4} {off : Nat}

/-- At the start of a refresh window time passes to it; the channel then stands or is lost (R59, R173). -/
theorem uplandRefresh_window {done : Bool} (hw : s.workRuns = true) (ht : s.tideRuns = true)
    (hr : refreshMeets s.tideP ch off 1 = true) (h0 : off = 0 ∨ refreshMeets s.tideP ch (off - 1) 1 = false) :
    exec (.uplandRefresh ch off done) s = .next
      (if (done && s.supplyUp 5 && s.supplyUp 6) || (s.advance off).chanLost ch then s.advance off
        else (s.advance off).loseChannel ch 4) := by
  have hd : decide (off ≠ 0 ∧ refreshMeets s.tideP ch (off - 1) 1 = true) = false :=
    decide_eq_false fun ⟨ho, hm⟩ => h0.elim ho (by simp [hm])
  have hp (n : Nat) : (s.advance off).supplyUp n = s.supplyUp n := by
    unfold State.supplyUp
    rw [(advance_lasting s off).power]
  show execUplandRefresh ch off done s = _
  simp only [execUplandRefresh, hw, ht, hr, hd, hp, Bool.not_true, Bool.or_self, Bool.false_eq_true, if_false]

theorem uplandRefresh_stands {done : Bool}
    (h : ¬(s.workRuns = true ∧ s.tideRuns = true ∧ refreshMeets s.tideP ch off 1 = true
      ∧ (off = 0 ∨ refreshMeets s.tideP ch (off - 1) 1 = false))) :
    exec (.uplandRefresh ch off done) s = .next s := by
  show execUplandRefresh ch off done s = _
  rw [execUplandRefresh, if_pos]
  simp only [Bool.or_eq_true, Bool.not_eq_true', decide_eq_true_eq]
  by_contra hc
  refine h ?_
  simp only [not_or, Bool.not_eq_false, not_and] at hc
  obtain ⟨⟨⟨hw, ht⟩, hr⟩, h0⟩ := hc
  exact ⟨hw, ht, hr, or_iff_not_imp_left.mpr fun ho => by simpa using h0 ho⟩

/-- UPLAND_COMMAND_RETRY is one access of class SCRUB to the channel (R173). -/
theorem uplandCommandRetry_access {ok : Bool} (hl : s.chanLost ch = false) : exec (.uplandCommandRetry ch off ok) s =
    .next (s.scrubStage ⟨7, ch, 2, 7, 0, 0⟩ none off fun s' => if ok then s'.fire 65 ch else (s'.fire 65 ch).loseChannel ch 3) := by
  show execUplandCommandRetry ch off ok s = _
  simp only [execUplandCommandRetry, hl, Bool.false_eq_true, if_false]

theorem uplandCommandRetry_lost {ok : Bool} (hl : s.chanLost ch = true) : exec (.uplandCommandRetry ch off ok) s = .next s := by
  show execUplandCommandRetry ch off ok s = _
  simp only [execUplandCommandRetry, hl, if_true]

end Upland
end Sys2Proof.Laws

namespace Sys2Proof.Proofs

/-- Settles O19: SCRUB_READ, UPLAND_REFRESH and UPLAND_COMMAND_RETRY in each case of their access. -/
theorem scrubAndUplandCommands : Obligations.ScrubAndUplandCommands := by
  refine ⟨?bank, ?channel, ?readElse, fun u off s => scrubRead_none off, ?refresh, ?retry,
    ?retryNone, ?retryElse⟩
  case bank =>
    intro u off s hu L hr
    rw [scrubRead_bank off hu, scrubStage_runs hr]
  case channel =>
    intro u off s hu hl L hr
    rw [scrubRead_channel off hu hl, scrubStage_runs hr]
  case readElse =>
    intro u off s L up hs
    obtain ⟨work, he⟩ := scrubRead_access off hs
    exact ⟨fun h => by rw [he, scrubStage_misses h], fun h => by rw [he, scrubStage_stopped h],
      fun h => by rw [he, scrubStage_wakes h]⟩
  case refresh =>
    intro ch off done s a window
    refine ⟨fun ⟨hw, ht, hr, h0⟩ hs => ?_, fun ⟨hw, ht, hr, h0⟩ hs hl => ?_, uplandRefresh_stands⟩
    · rw [uplandRefresh_window hw ht hr h0, if_pos]
      rcases hs with ⟨hd, h5, h6⟩ | hl
      · simp [hd, h5, h6]
      · simp [(advance_lasting s off).lost ch hl]
    · have hn : (done && s.supplyUp 5 && s.supplyUp 6) = false := by
        rcases hs with hd | h5 | h6
        · simp [hd]
        · simp [h5]
        · simp [h6]
      rw [uplandRefresh_window hw ht hr h0, hn, Bool.false_or]
      by_cases hc : (s.advance off).chanLost ch = true
      · rw [if_pos hc, State.loseChannel, if_pos hc]
      · rw [if_neg hc]
  case retry =>
    intro ch off s hl hr u
    refine ⟨?_, ?_⟩
    · rw [uplandCommandRetry_access hl, scrubStage_runs hr, if_pos rfl]
    · rw [uplandCommandRetry_access hl, scrubStage_runs hr, if_neg Bool.false_ne_true]
  case retryNone =>
    intro ch off ok s h
    by_cases hl : s.chanLost ch = true
    · exact uplandCommandRetry_lost hl
    · rw [uplandCommandRetry_access (by simpa using hl), scrubStage_stands (h.resolve_right hl)]
  case retryElse =>
    intro ch off ok s
    refine ⟨fun h => ?_, fun hl h => by rw [uplandCommandRetry_access hl, scrubStage_stopped h]⟩
    by_cases hl : s.chanLost ch = true
    · exact uplandCommandRetry_lost hl
    · rw [uplandCommandRetry_access (by simpa using hl), scrubStage_misses h]

end Sys2Proof.Proofs
end

section
/-! The access line of a pen (R198, R200): a state that refutes the obligation PenAccess. -/

open Sys2Proof Sys2Proof.Machine Sys2Proof.Laws

namespace Sys2Proof.Laws

/-- Pen 0 in RUN, in stream mode with items of one word, full, and holding a count of five words of the item at hand: more than
an item has. -/
def overlongItem : State :=
  { State.reset with pen.pens := [(0, { Pen.fresh with state := .run, cm := 64, cmC := penComp 64, wr := 64, wrC := penComp 64,
                                                       words := 5 })] }

/-- A word that such a pen loses ends the item, and with it the discard. -/
theorem overlongItem_word : ((overlongItem.penPushLost 0 [0]).1.penAt 0).words = 0
    ∧ ((overlongItem.penPushLost 0 [0]).1.penAt 0).discard = false := by decide +kernel

end Sys2Proof.Laws

namespace Sys2Proof.Proofs

/-- Refutes O23: of a full pen in stream mode whose word count has passed the item's length, the model ends the item with the
word it loses (overlongItem_word), and the statement has it go on, counted and discarding. -/
theorem not_penAccess : ¬ Obligations.PenAccess := by
  intro h
  obtain ⟨-, -, -, -, hword, -⟩ := h
  have hfull := (hword 0 0 overlongItem (by decide) (by decide) (by decide) (by decide) (by decide)).2.2 (by decide)
  have hwords : 0 = 6 := overlongItem_word.1.symm.trans ((congrArg (fun r => (r.1.penAt 0).words) hfull).trans (by decide +kernel))
  exact absurd hwords (by decide)

end Sys2Proof.Proofs
end

section
/-! The commands that pace the tide (R76 to R78, R450, R477, R563), and the obligation TidePaceCommands. -/

open Sys2Proof Sys2Proof.Machine Sys2Proof.Laws

namespace Sys2Proof.Laws

/-! ### NO_TIDE_PERIOD -/

section Period
variable {s : State}

theorem noTidePeriod_periodNow (hw : s.workRuns = true) (ht : s.tideRuns = false) : exec .noTidePeriod s = .next s.periodNow := by
  show execNoTidePeriod s = _
  simp [execNoTidePeriod, hw, ht]

theorem noTidePeriod_activates (hw : s.workRuns = true) (ht : s.tideRuns = true) (hv : s.table.valid = false) :
    exec .noTidePeriod s = .next s.periodActivates := by
  show execNoTidePeriod s = _
  simp [execNoTidePeriod, hw, ht, hv]

theorem noTidePeriod_none (h : s.workRuns = false ∨ (s.tideRuns = true ∧ s.table.valid = true)) :
    exec .noTidePeriod s = .next s := by
  show execNoTidePeriod s = _
  rcases h with hw | ⟨ht, hv⟩
  · simp [execNoTidePeriod, hw]
  · simp [execNoTidePeriod, ht, hv]

/-- A POWER_CMD that acts in a period without a tide takes its place (R604). -/
theorem periodNow_leaves {t : State} (hf : s.power.state = .full) (h : s.powerTurn true = some t) : s.periodNow = t := by
  simp only [State.periodNow, if_pos hf, h]

/-- Else the rules that act at a turn are applied (R450), and a due activation waits for the next start (R563). -/
theorem periodNow_turnRules (h : s.power.state ≠ .full ∨ s.powerTurn true = none) :
    let u : State := { s with upd.actWait := 0 }
    s.periodNow = (if u.activationDue s.now then { u with upd.actNow := true } else u).turnRules s.forces := by
  have hn : (if s.power.state = .full then s.powerTurn true else none) = none := by
    rcases h with hf | hp
    · exact if_neg hf
    · rw [hp, ite_self]
  simp only [State.periodNow, hn]
  rfl

theorem powerTurn_none (h : s.power.request = 0 ∨ (s.power.request = 1 ∧ s.ebbDue = true)) : s.powerTurn true = none := by
  rcases h with hr | ⟨hr, he⟩
  · simp [State.powerTurn, hr]
  · simp [State.powerTurn, hr, he]

/-- The due activation of a unit that does not defer is a warm restart (R563). -/
theorem periodActivates_restarts (hd : s.activationDue s.now = true) (hn : s.defers = false) :
    s.periodActivates = { s with upd.state := .activating, upd.deferred := false }.beginWarm 6 := by
  simp [State.periodActivates, State.dueNow, State.activate, hd, hn]

theorem periodActivates_defers (hd : s.activationDue s.now = true) (hn : s.defers = true) :
    s.periodActivates = { s with upd.deferred := true } := by
  simp [State.periodActivates, State.dueNow, State.activate, State.deferTurn, hd, hn]

theorem periodActivates_none (hd : s.activationDue s.now = false) : s.periodActivates = s := by
  simp [State.periodActivates, State.dueNow, State.deferTurn, hd]

end Period

/-! ### TIDE_INTERRUPT -/

theorem tideInterrupt_raises {s : State} (he : bit (s.cfg 0x0B002) 35 = true) (ht : s.tideRuns = true) :
    exec .tideInterrupt s = .next ((s.advance (fld (s.cfg 0x0B002) 26 0)).interrupt 4) := by
  show execTideInterrupt s = _
  simp only [execTideInterrupt, he, ht, Bool.and_self, if_true]

theorem tideInterrupt_none {s : State} (h : bit (s.cfg 0x0B002) 35 = false ∨ s.tideRuns = false) :
    exec .tideInterrupt s = .next s := by
  show execTideInterrupt s = _
  rcases h with h | h <;> simp only [execTideInterrupt, h, Bool.false_and, Bool.and_false, Bool.false_eq_true, if_false]

/-! ### The tiles' power -/

section Tile
variable {tile : Fin 16} {off : Nat} {s : State}

theorem tileWake_slack (hd : s.wakeDue tile off = true) (ha : tile.val ∈ s.tide.slackAwake) :
    exec (.tileWake tile off) s = .next { s with tide.slackAwake := s.tide.slackAwake.filter (· ≠ tile.val) } := by
  show execTileWake tile off s = _
  simp [execTileWake, hd, ha]

theorem tileWake_wakes (hd : s.wakeDue tile off = true) (ha : tile.val ∉ s.tide.slackAwake)
    (hk : Tab.get 0 s.tide.darkAt tile ≠ 0) :
    exec (.tileWake tile off) s = .next ((s.advance off).wakeTile tile off) := by
  show execTileWake tile off s = _
  simp [execTileWake, hd, ha, hk]

theorem tileWake_none (h : s.wakeDue tile off = false ∨ (tile.val ∉ s.tide.slackAwake ∧ Tab.get 0 s.tide.darkAt tile = 0)) :
    exec (.tileWake tile off) s = .next s := by
  show execTileWake tile off s = _
  rcases h with h | ⟨ha, hk⟩
  · simp [execTileWake, h]
  · simp [execTileWake, ha, hk]

section Dark
variable (hb : s.darkBegins tile off = true) (hr : s.tileRuns tile = false) (hk : Tab.get 0 s.tide.darkAt tile = 0)
  (ha : tile.val ∉ s.tide.slackAwake)
include hb hr hk ha

/-- A tile goes dark at the offset; an access that waits for it wakes it at once (R76, R78). -/
theorem tileDark_begins :
    let d : State := { s.advance off with tide.darkAt := Tab.set 0 (s.advance off).tide.darkAt tile (off + 1) }
    exec (.tileDark tile off) s = .next (if d.tileWanted tile then
      { d.wakeTile tile off with tide.slackAwake := tile.val :: (d.wakeTile tile off).tide.slackAwake } else d) := by
  show execTileDark tile off s = _
  simp [execTileDark, hb, hr, hk, ha]

end Dark

theorem tileDark_none (h : s.darkBegins tile off = false ∨ s.tileRuns tile = true ∨ Tab.get 0 s.tide.darkAt tile ≠ 0
    ∨ tile.val ∈ s.tide.slackAwake) : exec (.tileDark tile off) s = .next s := by
  show execTileDark tile off s = _
  rcases h with h | h | h | h <;> simp [execTileDark, h]

theorem tileRedark_darkens (ha : tile.val ∈ s.tide.slackAwake) (hp : s.plannedDark tile off = true)
    (hw : s.tileWanted tile = false) (hr : s.tileRuns tile = false) (hu : Tab.get 0 s.ledger.lastUse tile + 8 ≤ s.abs off) :
    exec (.tileRedark tile off) s = .next { s.advance off with
      tide.slackAwake := (s.advance off).tide.slackAwake.filter (· ≠ tile.val)
      tide.darkAt := Tab.set 0 (s.advance off).tide.darkAt tile (off + 1) } := by
  show execTileRedark tile off s = _
  simp [execTileRedark, ha, hp, hw, hr, hu]

theorem tileRedark_none (h : tile.val ∉ s.tide.slackAwake ∨ s.plannedDark tile off = false ∨ s.tileWanted tile = true
    ∨ s.tileRuns tile = true ∨ s.abs off < Tab.get 0 s.ledger.lastUse tile + 8) : exec (.tileRedark tile off) s = .next s := by
  show execTileRedark tile off s = _
  rcases h with h | h | h | h | h
  · simp [execTileRedark, h]
  · simp [execTileRedark, h]
  · simp [execTileRedark, h]
  · simp [execTileRedark, h]
  · simp [execTileRedark, Nat.not_le.mpr h]

end Tile
end Sys2Proof.Laws

namespace Sys2Proof.Proofs

/-- Settles O15: each clause is the case of that name of the commands above. -/
theorem tidePaceCommands : Obligations.TidePaceCommands := by
  refine ⟨fun s hw ht hf => ⟨fun hr => ?_, fun hr => ?_, fun hr he => ?_⟩, ?turnRules,
    fun s hw ht hv => ⟨fun hd => ?_, fun hd hn => ?_, fun hd hn => ?_⟩, fun s => noTidePeriod_none, fun s => tideInterrupt_raises,
    fun s => tideInterrupt_none, ?tiles⟩
  case turnRules =>
    intro s hw ht ho u
    exact (noTidePeriod_periodNow hw ht).trans (congrArg _ (periodNow_turnRules (ho.imp_right powerTurn_none)))
  · rw [noTidePeriod_periodNow hw ht, periodNow_leaves hf (t := s.keepEntry) (by simp [State.powerTurn, hr])]
  · rw [noTidePeriod_periodNow hw ht, periodNow_leaves hf (t := s.deepEntry) (by simp [State.powerTurn, hr])]
  · rw [noTidePeriod_periodNow hw ht, periodNow_leaves hf (t := s.lightEntry) (by simp [State.powerTurn, hr, he])]
  · rw [noTidePeriod_activates hw ht hv, periodActivates_none hd]
  · rw [noTidePeriod_activates hw ht hv, periodActivates_defers hd hn]
  · rw [noTidePeriod_activates hw ht hv, periodActivates_restarts hd hn]
  case tiles =>
    intro tile off s a
    refine ⟨tileWake_slack, tileWake_wakes, tileWake_none, fun hb hr hk ha hw => ?_, ?wanted, tileDark_none, tileRedark_darkens,
      tileRedark_none⟩
    · exact (tileDark_begins hb hr hk ha).trans (congrArg _ (if_neg (ne_true_of_eq_false hw)))
    case wanted =>
      intro d hb hr hk ha hw
      exact (tileDark_begins hb hr hk ha).trans (congrArg _ (if_pos hw))

end Sys2Proof.Proofs
end

section
/-! The commands of the ledger (R69 to R74, R139 to R145), and the obligation LedgerCommands. -/

open Sys2Proof Sys2Proof.Machine Sys2Proof.Laws

namespace Sys2Proof.Laws

/-- An age of eight bits rises by one block, up to 255. -/
theorem satAdd_age (n : Nat) : satAdd 8 n 1 = min 255 (n + 1) := Nat.min_comm _ _

/-! ### LEDGER_STAGE_GRANT -/

section Grant
variable {rcls : Fin 16} {inst off : Nat} {s : State}

/-- In a cycle that a stroke takes, or in which the instance has been granted, nothing is granted. -/
theorem ledgerStageGrant_none (h : s.slotAt rcls inst off = .taken ∨ s.idleAt rcls inst off = false) :
    exec (.ledgerStageGrant rcls inst off) s = .next s := by
  show execLedgerStageGrant rcls inst off s = _
  simp only [execLedgerStageGrant, if_pos h]

section Open
variable (ht : s.slotAt rcls inst off ≠ .taken) (hi : s.idleAt rcls inst off = true)
include ht hi

/-- In any other cycle the pick is granted: in an urgent slot that among urgent stages goes before that of a slack cycle (R140). -/
theorem ledgerStageGrant_grants {x : Cand} (hp : (if s.slotAt rcls inst off = .urgent then
      (s.pickUrgent (s.candsAt rcls inst off)).or (s.pickSlack (s.candsAt rcls inst off))
    else s.pickSlack (s.candsAt rcls inst off)) = some x) :
    exec (.ledgerStageGrant rcls inst off) s = .next ((s.noteQuota (s.candsAt rcls inst off)).grant x off) := by
  show execLedgerStageGrant rcls inst off s = _
  simp [execLedgerStageGrant, ht, hi, hp]

/-- With no pick, only the refusals by quota are noted (R150). -/
theorem ledgerStageGrant_notes (hp : (if s.slotAt rcls inst off = .urgent then
      (s.pickUrgent (s.candsAt rcls inst off)).or (s.pickSlack (s.candsAt rcls inst off))
    else s.pickSlack (s.candsAt rcls inst off)) = none) :
    exec (.ledgerStageGrant rcls inst off) s = .next (s.noteQuota (s.candsAt rcls inst off)) := by
  show execLedgerStageGrant rcls inst off s = _
  simp [execLedgerStageGrant, ht, hi, hp]

end Open
end Grant

/-! ### LEDGER_OVERDUE -/

section Overdue
variable {c : Fin 9} {s : State}

theorem ledgerOverdue_counts {a : Access} {l : List Access} (hq : s.queueOf c = a :: l) (ha : a.overdue = false) :
    exec (.ledgerOverdue c) s = .next
      (({ s with ledger.overdue := satAdd 18 s.ledger.overdue 1 }.setQueue c ({ a with overdue := true } :: l)).fire 32 c) := by
  show execLedgerOverdue c s = _
  simp only [execLedgerOverdue, hq, ha, Bool.false_eq_true, if_false]

theorem ledgerOverdue_counted {a : Access} {l : List Access} (hq : s.queueOf c = a :: l) (ha : a.overdue = true) :
    exec (.ledgerOverdue c) s = .next s := by
  show execLedgerOverdue c s = _
  simp only [execLedgerOverdue, hq, ha, if_true]

theorem ledgerOverdue_none (hq : s.queueOf c = []) : exec (.ledgerOverdue c) s = .next s := by
  show execLedgerOverdue c s = _
  simp only [execLedgerOverdue, hq]

end Overdue
end Sys2Proof.Laws

namespace Sys2Proof.Proofs

/-- Settles O16: each clause is the case of that name of the commands above. -/
theorem ledgerCommands : Obligations.LedgerCommands := by
  refine ⟨fun s => ⟨_, rfl, rfl, ?_, ?_, ?_⟩, ?grant, fun c s a l hq => ⟨ledgerOverdue_counts hq, ledgerOverdue_counted hq⟩,
    fun c s => ledgerOverdue_none⟩
  · simp
  · simp [satAdd_age, Function.comp_def]
  · simp [Function.comp_def]
  case grant =>
    intro rcls inst off s slot l q r
    refine ⟨ledgerStageGrant_none, fun ht hi => ⟨fun x hs hp => ledgerStageGrant_grants ht hi ?_,
      fun x hs hp => ledgerStageGrant_grants ht hi ?_, fun x hs hu hp => ledgerStageGrant_grants ht hi ?_,
      fun hs hp => ledgerStageGrant_notes ht hi ?_⟩⟩
    · rwa [if_neg (by simp [show s.slotAt rcls inst off = .slack from hs])]
    · rw [if_pos hs, hp, Option.some_or]
    · rw [if_pos hs, hu, Option.none_or, hp]
    · split
      · rename_i hu
        have hn : s.pickUrgent l = none := hs.resolve_left (by simp [slot, hu])
        rw [hn, Option.none_or, hp]
      · exact hp

end Sys2Proof.Proofs
end


section
/-! Banks, filters and captures, and the commands on a drove. -/

open Sys2Proof Sys2Proof.Machine Sys2Proof.Laws

namespace Sys2Proof.Laws

/-- VIO_STATE_CHANGE out of range: the bank leaves service, and the fault is Bell's where it runs and was not told before. -/
theorem exec_vioStateChange_of_out (b : Fin 32) (v : Fin 4) (s : State) (hv : v ≠ 0) :
    let u : State := { s with
      pin.vio := Tab.set 0 s.pin.vio b v.val,
      pin.out := if s.pin.out.contains b.val then s.pin.out else b.val :: s.pin.out }
    exec (.vioStateChange b v) s = .next (if Tab.get 0 s.pin.vio b = 0 ∧ s.workRuns = true then u.fire 112 b else u) := by
  intro u
  show execVioStateChange b v s = _
  have hne : v.val ≠ 0 := fun h => hv (Fin.ext h)
  have hu : (if s.pin.out.contains b.val then { s with pin.vio := Tab.set 0 s.pin.vio b v.val } else
      { s with pin.vio := Tab.set 0 s.pin.vio b v.val, pin.out := b.val :: s.pin.out }) = u := by
    by_cases hin : s.pin.out.contains b.val = true
    · simp only [u, if_pos hin]
    · simp only [u, if_neg hin]
  have hruns : u.workRuns = s.workRuns := rfl
  simp only [execVioStateChange, if_neg hne, hu, State.fireLive, hruns]
  by_cases was : Tab.get 0 s.pin.vio b = 0 <;> by_cases run : s.workRuns = true <;> simp [was, run]

/-- PIN_CAPTURE of an edge that is not captured changes nothing. -/
theorem exec_pinCapture_of_not (p : Fin 1024) (rise : Bool) (off : Nat) (s : State)
    (h : bit (s.pinCfg p) (if rise then 7 else 8) = false ∨ s.bankOk (p.val / 32) = false ∨
      Tab.get false s.pin.filt p ≠ rise) :
    exec (.pinCapture p rise off) s = .next s := by
  show execPinCapture p rise off s = _
  have no : (bit (s.pinCfg p) (if rise then 7 else 8) && s.bankOk (p.val / 32) && Tab.get false s.pin.filt p == rise) =
      false := by
    obtain h | h | h := h <;> simp [h]
  simp [execPinCapture, no]

end Sys2Proof.Laws

namespace Sys2Proof.Proofs

/-- Settles O29: each command's own branches, the bank's and the filter's state being the one before the time passes. -/
theorem pinCommands : Obligations.PinCommands := by
  refine ⟨fun b s => ?vio, exec_vioStateChange_of_out, fun b s hin => ?back, fun b s hout => ?kept, fun p level s => rfl,
    fun p off s ok => ⟨fun edge level => ?rise, fun edge level => ?fall⟩, exec_pinCapture_of_not⟩
  case vio =>
    show execVioStateChange b 0 s = _
    simp [execVioStateChange]
  case back =>
    show execBankReturnToService b s = _
    simp [execBankReturnToService, hin]
  case kept =>
    show execBankReturnToService b s = _
    simp [execBankReturnToService, hout]
  case rise =>
    show execPinCapture p true off s = _
    simp [execPinCapture, edge, level, ok]
  case fall =>
    show execPinCapture p false off s = _
    simp [execPinCapture, edge, level, ok]

/-- Settles O28: each command's branches on the drove's exchange state, and on the checks of EXCHANGE. -/
theorem droveCommands : Obligations.DroveCommands := by
  refine ⟨fun d s => ⟨?_, ?_, ?_, ?_, ?_, ?_⟩, fun d mask carry s => ⟨?_, ?_, ?_⟩, fun d a w s => ⟨?_, ?_⟩,
    fun d r w s => ?register⟩
  case register => rfl
  · intro idle
    show execDroveCopy d s = _
    simp [execDroveCopy, idle]
  · intro busy
    show execDroveCopy d s = _
    simp [execDroveCopy, busy]
  · intro copying
    show execDroveCopyDone d s = _
    simp [execDroveCopyDone, copying]
  · intro other
    show execDroveCopyDone d s = _
    simp [execDroveCopyDone, other]
  · intro pending
    show execExchangeCancel d s = _
    simp [execExchangeCancel, pending]
  · intro other
    show execExchangeCancel d s = _
    simp [execExchangeCancel, other]
  · intro idle ok
    show execExchange d mask carry s = _
    simp [execExchange, idle, ok]
  · intro idle fails
    show execExchange d mask carry s = _
    simp [execExchange, idle, fails]
  · intro busy
    show execExchange d mask carry s = _
    simp [execExchange, busy]
  · intro idle
    show execDroveStoreWrite d a w s = _
    simp [execDroveStoreWrite, idle]
  · intro busy
    show execDroveStoreWrite d a w s = _
    simp [execDroveStoreWrite, busy]

end Sys2Proof.Proofs
end


section
/-! Faults at an edge of a drove's clock, its idle edges, and the control commands of a drover (R216, R227 to R229). -/

open Sys2Proof Sys2Proof.Machine Sys2Proof.Laws

namespace Sys2Proof.Laws

/-! ### Faults at an edge -/

/-- A fault of a cause other than 6: T steps, the drover is in FAULT, and DROVER_FAULT fires. -/
theorem faultNow_of_ne (s : State) (k cause : Nat) (h : cause ≠ 6) : s.faultNow k cause = (s.faulted k cause).fire 96 k :=
  if_neg h

/-- A fault that a test sees before a command due at the edge takes effect acts there. -/
theorem faultEdge_of_before {s : State} {k off sense : Nat} {test : State → Bool} (edge : s.edgeHere k off = true)
    (due : (s.edgeBegin k off sense true).instrDue k = true) (sees : test (s.edgeBegin k off sense true) = true) :
    s.faultEdge k off sense test = some (s.edgeBegin k off sense true) := by
  simp [State.faultEdge, edge, due, sees]

/-- A fault that a test sees only after a command due at the edge has taken effect acts there. -/
theorem faultEdge_of_after {s : State} {k off sense : Nat} {test : State → Bool} (edge : s.edgeHere k off = true)
    (before : ¬((s.edgeBegin k off sense true).instrDue k = true ∧ test (s.edgeBegin k off sense true) = true))
    (due : (s.edgeBegin k off sense).instrDue k = true) (sees : test (s.edgeBegin k off sense) = true) :
    s.faultEdge k off sense test = some (s.edgeBegin k off sense) := by
  have no : ((s.edgeBegin k off sense true).instrDue k && test (s.edgeBegin k off sense true)) = false := by
    simpa using before
  simp [State.faultEdge, edge, no, due, sees]

/-- No fault where the drove has no edge. -/
theorem faultEdge_of_no_edge {s : State} {k off sense : Nat} {test : State → Bool} (h : s.edgeHere k off = false) :
    s.faultEdge k off sense test = none := by
  simp [State.faultEdge, h]

/-- A readable word of OP 12 to 15 is the next one, as UNDEFINED_DROVER_OPCODE tests it. -/
def undefinedNext (k : Nat) (u : State) : Bool := u.instrEcc k != .multi && decide (12 ≤ fld (u.instrAt k) 17 14)

theorem undefinedNext_iff (u : State) (k : Nat) :
    undefinedNext k u = true ↔ u.instrEcc k ≠ .multi ∧ 12 ≤ fld (u.instrAt k) 17 14 := by
  simp [undefinedNext]

/-- UNDEFINED_DROVER_OPCODE, where the fault is met in the state `u`: its cause, 8 to 11, is not the one that fires nothing. -/
theorem exec_undefinedDroverOpcode_of_met {k : Fin 256} {off sense : Nat} {test : Bool} {s u : State}
    (met : s.faultEdge k off sense (undefinedNext k) = some u) (op : 12 ≤ fld (u.instrAt k) 17 14) :
    exec (.undefinedDroverOpcode k off sense test) s =
      .next (((u.storeCorrect k).faulted k (fld (u.instrAt k) 17 14 - 4)).fire 96 k) := by
  show Host.Outcome.next (match s.faultEdge k off sense (undefinedNext k) with
    | some t => (t.storeCorrect k).faultNow k (fld (t.instrAt k) 17 14 - 4)
    | none => s) = _
  have fires : fld (u.instrAt k) 17 14 - 4 ≠ 6 := by omega
  simp only [met, faultNow_of_ne _ _ _ fires]

/-- DROVE_STORE_UNCORRECTABLE, where the fault is met in the state `u`. -/
theorem exec_droveStoreUncorrectable_of_met {k : Fin 256} {off sense : Nat} {test : Bool} {s u : State}
    (met : s.faultEdge k off sense (fun _ => true) = some u) :
    exec (.droveStoreUncorrectable k off sense test) s = .next (((u.storeBad k).faulted k 5).fire 96 k) := by
  show execDroveStoreUncorrectable k off sense test s = _
  have fires : (5 : Nat) ≠ 6 := by decide
  simp only [execDroveStoreUncorrectable, met, faultNow_of_ne _ _ _ fires]

/-! ### DRV_RUN, DRV_STOP, DRV_RESTART -/

/-- A command listed for the drover's state waits for its edge. -/
theorem drvCtrl_of_allowed {s : State} {k cmd : Nat} (h : s.drvAllowed k cmd = true) : s.drvCtrl k cmd = s.drvQueue k cmd :=
  if_pos h

/-- A command not listed for the drover's state answers BAD_STATE. -/
theorem drvCtrl_of_not_allowed {s : State} {k cmd : Nat} (h : s.drvAllowed k cmd = false) :
    s.drvCtrl k cmd = s.abort (0x04009 + 16 * k) 7 :=
  if_neg (ne_true_of_eq_false h)

/-- RUN is for a drover that is STOPPED. -/
theorem drvAllowed_run (s : State) (k : Nat) : s.drvAllowed k 1 = decide ((s.drover k).state = .stopped) := by
  cases h : (s.drover k).state <;> simp [State.drvAllowed, h]

/-- STOP is for a drover that is RUN. -/
theorem drvAllowed_stop (s : State) (k : Nat) : s.drvAllowed k 2 = decide ((s.drover k).state = .run) := by
  cases h : (s.drover k).state <;> simp [State.drvAllowed, h]

/-- RESTART is for a drover that is RUN, STOPPED, or in a FAULT that nothing holds. -/
theorem drvAllowed_restart (s : State) (k : Nat) :
    s.drvAllowed k 3 = (decide ((s.drover k).state = .run ∨ (s.drover k).state = .stopped) ||
      (decide ((s.drover k).state = .fault) && s.drvFree k)) := by
  cases h : (s.drover k).state <;> simp [State.drvAllowed, h]

/-! ### A word that waits for its edges -/

/-- At the first edge a cycle after it, a word that waits is counted. -/
theorem visible_first (x : Drover) (w : DWait) (abs : Nat) (free fault : Bool) (h : w.at_ + 1 ≤ abs) (hw : x.waits = [w])
    (first : w.seen = 0) : x.visible abs free fault = { x with waits := [{ w with seen := 1 }] } := by
  have late : ¬abs < w.at_ + 1 := Nat.not_lt.mpr h
  simp only [Drover.visible, hw, List.foldl_cons, List.foldl_nil, if_neg late, if_pos first, List.nil_append]

/-- At the second edge, a control word takes effect unless a fault is met at it. -/
theorem visible_control (x : Drover) (cmd : Word) (at_ abs : Nat) (free fault : Bool) (h : at_ + 1 ≤ abs)
    (hw : x.waits = [⟨8, cmd, at_, 1⟩]) :
    x.visible abs free fault =
      if fault then { x with waits := [] } else Drover.control { x with waits := [] } cmd.toNat free := by
  have late : ¬abs < at_ + 1 := Nat.not_lt.mpr h
  have seen : (1 : Nat) ≠ 0 := by decide
  simp only [Drover.visible, hw, List.foldl_cons, List.foldl_nil, if_neg late, if_neg seen, if_true]

/-- RESTART acts in RUN and STOPPED, and in FAULT where the drover is free. -/
theorem control_restart (x : Drover) (free : Bool)
    (h : x.state = .run ∨ x.state = .stopped ∨ (x.state = .fault ∧ free = true)) : x.control 3 free = x.restart := by
  obtain h | h | ⟨h, rfl⟩ := h <;> simp [Drover.control, h]

end Sys2Proof.Laws

namespace Sys2Proof.Proofs

/-- Settles O27: a fault is looked for before the commands due at its edge and then after them; a control word is listed for the
drover's state or refused, and acts at the second edge that counts it. -/
theorem droverFaultsAndControl : Obligations.DroverFaultsAndControl := by
  refine ⟨fun k off sense test s edge => ⟨?undefinedBefore, ?undefinedAfter, ?storeBefore, ?storeAfter⟩,
    fun k off sense test s edge => ⟨?dwell, ?idle, ?off⟩, fun k off sense test s none => ⟨?edgeNone, ?undefinedNone, ?storeNone⟩,
    fun k s => ⟨?run, ?stop, ?restart, ?restartFault⟩, fun k s => ⟨?runNot, ?stopNot, ?restartOff, ?restartHeld⟩,
    fun x cmd at_ abs free late => ⟨?first, ?runActs, ?stopActs, ?restartActs, ?beside⟩⟩
  case undefinedBefore =>
    intro ⟨due, ecc, op⟩
    exact exec_undefinedDroverOpcode_of_met (faultEdge_of_before edge due ((undefinedNext_iff _ k).mpr ⟨ecc, op⟩)) op
  case undefinedAfter =>
    intro before ⟨due, ecc, op⟩
    have unmet : ¬((s.edgeBegin k off sense true).instrDue k = true ∧ undefinedNext k (s.edgeBegin k off sense true) = true) :=
      fun ⟨due, sees⟩ => before ⟨due, (undefinedNext_iff _ k).mp sees⟩
    exact exec_undefinedDroverOpcode_of_met (faultEdge_of_after edge unmet due ((undefinedNext_iff _ k).mpr ⟨ecc, op⟩)) op
  case storeBefore =>
    intro due
    exact exec_droveStoreUncorrectable_of_met (faultEdge_of_before edge due rfl)
  case storeAfter =>
    intro before due
    exact exec_droveStoreUncorrectable_of_met
      (faultEdge_of_after edge (fun ⟨due, _⟩ => ne_true_of_eq_false before due) due rfl)
  case dwell =>
    intro run dwell
    show execDroverClockEdge k off sense test s = _
    simp [execDroverClockEdge, edge, run, dwell]
  case idle =>
    intro state
    show execDroverClockEdge k off sense test s = _
    obtain h | h := state <;> simp [execDroverClockEdge, edge, h]
  case off =>
    intro state
    show execDroverClockEdge k off sense test s = _
    simp [execDroverClockEdge, edge, state]
  case edgeNone =>
    show execDroverClockEdge k off sense test s = _
    simp [execDroverClockEdge, none]
  case undefinedNone =>
    show execUndefinedDroverOpcode k off sense test s = _
    simp only [execUndefinedDroverOpcode, faultEdge_of_no_edge none]
  case storeNone =>
    show execDroveStoreUncorrectable k off sense test s = _
    simp only [execDroveStoreUncorrectable, faultEdge_of_no_edge none]
  case run =>
    intro state
    exact congrArg _ (drvCtrl_of_allowed (by simp [drvAllowed_run, state]))
  case stop =>
    intro state
    exact congrArg _ (drvCtrl_of_allowed (by simp [drvAllowed_stop, state]))
  case restart =>
    intro state
    exact congrArg _ (drvCtrl_of_allowed (by simp [drvAllowed_restart, state]))
  case restartFault =>
    intro state held acknowledged
    have free : s.drvFree k = true := by simpa [State.drvFree, held] using acknowledged
    exact congrArg _ (drvCtrl_of_allowed (by simp [drvAllowed_restart, state, free]))
  case runNot =>
    intro state
    exact congrArg _ (drvCtrl_of_not_allowed (by simp [drvAllowed_run, state]))
  case stopNot =>
    intro state
    exact congrArg _ (drvCtrl_of_not_allowed (by simp [drvAllowed_stop, state]))
  case restartOff =>
    intro state
    exact congrArg _ (drvCtrl_of_not_allowed (by simp [drvAllowed_restart, state]))
  case restartHeld =>
    intro state held
    exact congrArg _ (drvCtrl_of_not_allowed (by simp [drvAllowed_restart, state, held]))
  case first =>
    intro waits
    exact visible_first x _ abs free false late waits rfl
  case runActs =>
    intro waits state
    rw [visible_control x 1 at_ abs free false late waits]
    simp [Drover.control, state]
  case stopActs =>
    intro waits state
    rw [visible_control x 2 at_ abs free false late waits]
    simp [Drover.control, state]
  case restartActs =>
    intro waits state
    rw [visible_control x 3 at_ abs free false late waits]
    exact control_restart { x with waits := [] } free state
  case beside =>
    intro waits
    exact visible_control x cmd at_ abs free true late waits

end Sys2Proof.Proofs
end


section
/-! Frames of the switch core (R300 to R318): reception, best-effort transmission, the transmit pens, and the tunnel. -/

open Sys2Proof Sys2Proof.Machine Sys2Proof.Laws

namespace Sys2Proof.Laws

/-! ### ETH_FRAME_RECEIVED -/

/-- A port that is UP or DRAIN receives. -/
theorem exec_ethFrameReceived_of_on {p : Fin 49} {s : State} (bytes : List Nat) (bad : Bool) (back : Nat)
    (on : (s.port p).state = .up ∨ (s.port p).state = .drain) :
    exec (.ethFrameReceived p bytes bad back) s = .next (match rxDrop (portMax (s.portCfg p)) bytes bad with
      | some (k, res) => if res then (s.portCount p k).fire 146 p else s.portCount p k
      | none => s.rxGood p bytes (s.stampAt (s.now - back * tickPerWc))) := by
  show execEthFrameReceived p bytes bad back s = _
  obtain h | h := on <;> simp only [execEthFrameReceived, h] <;> rfl

/-- A port in another state receives nothing. -/
theorem exec_ethFrameReceived_of_not_on {p : Fin 49} {s : State} (bytes : List Nat) (bad : Bool) (back : Nat)
    (up : (s.port p).state ≠ .up) (drain : (s.port p).state ≠ .drain) :
    exec (.ethFrameReceived p bytes bad back) s = .next s := by
  show execEthFrameReceived p bytes bad back s = _
  cases h : (s.port p).state with
  | up => exact absurd h up
  | drain => exact absurd h drain
  | off | down | settling => simp only [execEthFrameReceived, h]

/-- A bad frame is dropped before its length is looked at. -/
theorem rxDrop_of_bad (max : Nat) (b : List Nat) : rxDrop max b true = some (1, false) := rfl

/-- A frame of a length outside 64 to the port's maximum is dropped. -/
theorem rxDrop_of_length {max : Nat} {b : List Nat} (h : ¬(64 ≤ b.length + 4 ∧ b.length + 4 ≤ max)) :
    rxDrop max b false = some (2, false) := by
  have wrong : b.length + 4 < 64 ∨ max < b.length + 4 := by omega
  simp [rxDrop, wrong]

/-- A frame of a right length is dropped for its VID or its EtherType alone. -/
theorem rxDrop_of_sized {max : Nat} {b : List Nat} (h : 64 ≤ b.length + 4 ∧ b.length + 4 ≤ max) :
    rxDrop max b false =
      if tagged b ∧ rawVid b = 0xFFF then some (3, true) else if etype b = 0x8808 then some (4, false) else none := by
  have right : ¬(b.length + 4 < 64 ∨ max < b.length + 4) := by omega
  simp only [rxDrop, if_neg right, Bool.false_eq_true, if_false]

/-! ### BEST_EFFORT_FRAME_START -/

/-- The port may send the frame `f` at the present cycle, ending by the next scheduled one. -/
def Sendable (u : State) (p : Nat) (f : QFrame) : Prop :=
  let now := u.abs u.tide.off
  ((u.port p).state = .up ∨ (u.port p).state = .drain) ∧ (u.port p).sends = true ∧ u.portSafe p = false
    ∧ (u.port p).busy ≤ now
    ∧ ∀ t, u.nextTx p now = some t → now + wireTime p (u.portRate p) ((tagOut (u.portCfg p) f).length + 4) ≤ t

/-- The frame `f`, head of class `tc`, begins on the wire. -/
def frameBegun (u : State) (p tc : Nat) (f : QFrame) : State :=
  let b := tagOut (u.portCfg p) f
  let v := (u.setBq p tc ((u.bq p tc).drop 1)).setPort p
    { u.port p with busy := u.abs u.tide.off + wireTime p (u.portRate p) (b.length + 4) }
  ((v.emit .ethFrame p (withFcs b)).portCount p 5).sessions { f with bytes := b } p 1
    (v.stampAt (v.now + wireAddr p (u.portRate p) * tickPerWc)) none

/-- A time that ends by the next scheduled frame, as the model tests it. -/
theorem fits_iff (next : Option Nat) (till : Nat) :
    (match next with | none => true | some t => decide (till ≤ t)) = true ↔ ∀ t, next = some t → till ≤ t := by
  cases next <;> simp

/-- With a frame waiting that may be sent, it begins. -/
theorem exec_bestEffort_of_sendable {p : Fin 49} {off tc : Nat} {f : QFrame} {s : State}
    (head : (s.advance off).nextFrame p = some (tc, f)) (h : Sendable (s.advance off) p f) :
    exec (.bestEffortFrameStart p off) s = .next (frameBegun (s.advance off) p tc f) := by
  show execBestEffortFrameStart p off s = _
  obtain ⟨on, sends, safe, free, fits⟩ := h
  simp only [execBestEffortFrameStart, head]
  rw [if_pos ⟨on, sends, safe, free, (fits_iff _ _).mpr fits⟩]
  rfl

/-- With a frame waiting that may not be sent, only time passes. -/
theorem exec_bestEffort_of_not_sendable {p : Fin 49} {off tc : Nat} {f : QFrame} {s : State}
    (head : (s.advance off).nextFrame p = some (tc, f)) (h : ¬Sendable (s.advance off) p f) :
    exec (.bestEffortFrameStart p off) s = .next (s.advance off) := by
  show execBestEffortFrameStart p off s = _
  simp only [execBestEffortFrameStart, head]
  rw [if_neg fun ⟨on, sends, safe, free, fits⟩ => h ⟨on, sends, safe, free, (fits_iff _ _).mp fits⟩]

/-- With no frame waiting, only time passes. -/
theorem exec_bestEffort_of_none {p : Fin 49} {off : Nat} {s : State} (head : (s.advance off).nextFrame p = none) :
    exec (.bestEffortFrameStart p off) s = .next (s.advance off) := by
  show execBestEffortFrameStart p off s = _
  simp only [execBestEffortFrameStart, head]

/-! ### PORT_TX_PEN_FETCH -/

/-- The transmit pen of a port, and of the host as port 49. -/
def txPen (s : State) (p : Nat) : Nat := if p = 49 then fld (s.cfg 0x07014) 11 0 else fld (s.cfg 0x07004 p) 11 0

/-- The transmit pen is in use: the host's, or that of a port that is UP. -/
def txOn (s : State) (p : Nat) : Bool :=
  if p = 49 then bit (s.cfg 0x07014) 34 else bit (s.cfg 0x07004 p) 12 && (s.port p).state == .up

/-- Where the pen is in use, class FRAME has room and is not held, and a whole record waits, it is taken as one access; its frame
`r`, if it is one, goes on. -/
theorem exec_portTxPenFetch_of_record {p : Fin 50} {s : State} {ws : List Word} (on : txOn s p = true)
    (room : s.ledgerRoom 5 = true) (safe : s.classSafe 2 5 = false) (out : (s.penPacketOut (txPen s p)).2 = some ws) :
    let e := (s.penPacketOut (txPen s p)).1.enterPen 5 (txPen s p) ws.length false
    ∀ r, penFrame p (if p.val = 49 then 9216 else portMax (e.portCfg p)) (if p.val = 49 then 1 else portPvid (e.portCfg p)) ws = r →
      exec (.portTxPenFetch p) s = .next (match r with
        | none => e.portCount p 12
        | some f =>
          if p.val = 49 then e.classify f (e.stampAt e.now)
          else if e.freeCells < frameCells f.bytes then e.noteFull p
          else ((e.newCopy f).1.enqueue p (e.newCopy f).2).1) := by
  rintro e _ rfl
  show execPortTxPenFetch p s = _
  have pair : s.penPacketOut (txPen s p) = ((s.penPacketOut (txPen s p)).1, some ws) := Prod.ext rfl out
  have go : (txOn s p && s.ledgerRoom 5 && !s.classSafe 2 5) = true := by simp [on, room, safe]
  simp only [txPen, txOn] at pair go
  simp only [execPortTxPenFetch, go, if_true]
  rw [pair]
  rfl

/-- Where one of these fails, nothing changes. -/
theorem exec_portTxPenFetch_of_not {p : Fin 50} {s : State}
    (h : s.ledgerRoom 5 = false ∨ s.classSafe 2 5 = true ∨ (s.penPacketOut (txPen s p)).2 = none ∨ txOn s p = false) :
    exec (.portTxPenFetch p) s = .next s := by
  show execPortTxPenFetch p s = _
  by_cases go : (txOn s p && s.ledgerRoom 5 && !s.classSafe 2 5) = true
  · obtain ⟨⟨on, room⟩, safe⟩ : (txOn s p = true ∧ s.ledgerRoom 5 = true) ∧ s.classSafe 2 5 = false := by simpa using go
    have out : (s.penPacketOut (txPen s p)).2 = none := by simpa [on, room, safe] using h
    have pair : s.penPacketOut (txPen s p) = ((s.penPacketOut (txPen s p)).1, none) := Prod.ext rfl out
    simp only [txPen, txOn] at pair go
    simp only [execPortTxPenFetch, go, if_true]
    rw [pair]
  · simp only [txOn] at go
    simp only [execPortTxPenFetch, if_neg go]

/-- A pen that is not in use, as the statement says it. -/
theorem txOn_eq_false_iff (s : State) (p : Nat) :
    txOn s p = false ↔
      (if p = 49 then bit (s.cfg 0x07014) 34 = false else bit (s.cfg 0x07004 p) 12 = false ∨ (s.port p).state ≠ .up) := by
  by_cases host : p = 49
  · simp [txOn, host]
  · by_cases on : bit (s.cfg 0x07004 p) 12 = true <;> simp [txOn, host, on]

/-- A pen in use, as the statement says it. -/
theorem txOn_iff (s : State) (p : Nat) :
    txOn s p = true ↔
      (if p = 49 then bit (s.cfg 0x07014) 34 = true else bit (s.cfg 0x07004 p) 12 = true ∧ (s.port p).state = .up) := by
  by_cases host : p = 49 <;> simp [txOn, host]

/-! ### TUNNEL -/

/-- A plain cell that arrived on link `l`, up, as a TUNNEL cell for this station. -/
def tunnelHere (s : State) (l : Nat) (plain : List Word) : Prop :=
  let w k := (plain.getD k 0).toNat
  plain.length = 32 ∧ s.linkUp l = true ∧ fld (w 0) 17 14 = 1 ∧ bit (w 0) 12 = false
    ∧ 2 * fld (w 0) 10 1 + fld (w 0) 11 11 = s.station

/-- The test by which the model leaves a cell alone. -/
theorem tunnel_test_iff (s : State) (l : Nat) (plain : List Word) :
    (plain.length != 32 || !s.linkUp l || fld (plain.getD 0 0).toNat 17 14 != 1 || bit (plain.getD 0 0).toNat 12
      || 2 * fld (plain.getD 0 0).toNat 10 1 + fld (plain.getD 0 0).toNat 11 11 != s.station) = true ↔
      ¬tunnelHere s l plain := by
  simp only [tunnelHere, Bool.or_eq_true, bne_iff_ne, Bool.not_eq_true']
  grind

section
variable {dir : Fin 4} {cell plain : List Word} {check : Fin 256} {sum : Nat} {s : State}
  (opened : s.opened (dirOut (dirWrap dir)) cell check = (plain, sum))
include opened

/-- A TUNNEL cell for this station: its check decides, then its reserved bits. -/
theorem exec_tunnel_of_here (here : tunnelHere s (dirOut (dirWrap dir)) plain) {ok reserved : Bool}
    (check_ok : (cellCheck 0 plain == sum) = ok)
    (bits : headerReserved (dirOut (dirWrap dir)) (fun k => (plain.getD k 0).toNat) = reserved) :
    let l := dirOut (dirWrap dir)
    let w k := (plain.getD k 0).toNat
    let t := s.cellIn l plain sum ok
    exec (.tunnel dir cell check) s = .next
      (if !ok then t.checkFail l
      else if reserved then (t.linkCount l 3).dropReserved l
      else (t.linkCount l 3).assemble l (4 * (2 * fld (w 1) 17 8 + fld (w 1) 7 7) + dir) plain) := by
  show execTunnel dir cell check s = _
  simp only [execTunnel, opened]
  rw [if_neg ((tunnel_test_iff s _ plain).not.mpr (not_not_intro here)), check_ok, bits]

/-- Any other cell changes nothing. -/
theorem exec_tunnel_of_not_here (away : ¬tunnelHere s (dirOut (dirWrap dir)) plain) :
    exec (.tunnel dir cell check) s = .next s := by
  show execTunnel dir cell check s = _
  simp only [execTunnel, opened]
  rw [if_pos ((tunnel_test_iff s _ plain).mpr away)]

end

end Sys2Proof.Laws

namespace Sys2Proof.Proofs

/-- Settles O34: a received frame meets the receive checks in their order, a waiting one the port's conditions in one, a record of
a pen its form; a TUNNEL cell its check and its reserved bits. -/
theorem switchFrames : Obligations.SwitchFrames := by
  refine ⟨fun p bytes bad back s on => ⟨?bad, ?length, ?reserved, ?control, ?good⟩,
    fun p bytes bad back s up drain => exec_ethFrameReceived_of_not_on bytes bad back up drain,
    fun p off tc f s => ?send, fun p off s => ?wait, fun p off tc t f s => ?late, fun p s => ?idle, fun p ws s => ?record,
    fun vid mac s => ⟨fun ages => ?ages, fun still => ?still⟩, fun node s => rfl,
    fun dir cell check s => ⟨?reservedBits, ?whole, ?check, exec_tunnel_of_not_here Prod.mk.eta.symm⟩⟩
  case bad =>
    rintro rfl
    rw [exec_ethFrameReceived_of_on bytes true back on, rxDrop_of_bad]
    simp only [Bool.false_eq_true, if_false]
  case length =>
    rintro rfl wrong
    rw [exec_ethFrameReceived_of_on bytes false back on, rxDrop_of_length wrong]
    simp only [Bool.false_eq_true, if_false]
  case reserved =>
    rintro rfl sized reserved
    rw [exec_ethFrameReceived_of_on bytes false back on, rxDrop_of_sized sized, if_pos reserved]
    simp only [if_true]
  case control =>
    rintro rfl sized free control
    rw [exec_ethFrameReceived_of_on bytes false back on, rxDrop_of_sized sized, if_neg free, if_pos control]
    simp only [Bool.false_eq_true, if_false]
  case good =>
    rintro rfl sized free other
    rw [exec_ethFrameReceived_of_on bytes false back on, rxDrop_of_sized sized, if_neg free, if_neg other]
  case send =>
    intro u now b till head on sends safe free fits
    exact exec_bestEffort_of_sendable head ⟨on, sends, safe, free, fits⟩
  case wait =>
    intro u h
    cases head : u.nextFrame p with
    | none => exact exec_bestEffort_of_none head
    | some next =>
      refine exec_bestEffort_of_not_sendable head ?_
      rintro ⟨on, sends, safe, free, -⟩
      obtain h | ⟨up, drain⟩ | h | h | h := h
      · exact absurd (head.symm.trans h) (Option.some_ne_none _)
      · exact on.elim up drain
      · exact ne_true_of_eq_false h sends
      · exact ne_true_of_eq_false safe h
      · exact absurd free (Nat.not_le.mpr h)
  case late =>
    intro u now head next early
    refine exec_bestEffort_of_not_sendable head ?_
    rintro ⟨-, -, -, -, fits⟩
    exact absurd (fits t next) (Nat.not_le.mpr early)
  case idle =>
    intro host pen h
    refine exec_portTxPenFetch_of_not ?_
    rw [txOn_eq_false_iff]
    exact h
  case record =>
    intro host pen on room safe out e rec_
    have fetch := exec_portTxPenFetch_of_record ((txOn_iff s p).mpr on) room safe out
    refine ⟨fun wrong => fetch none wrong, fun f right => ⟨fun h => ?_, fun h full => ?_, fun h fits => ?_⟩⟩
    · rw [fetch (some f) right]
      exact congrArg _ (if_pos h)
    · rw [fetch (some f) right]
      exact congrArg _ ((if_neg h).trans (if_pos full))
    · rw [fetch (some f) right]
      exact congrArg _ ((if_neg h).trans (if_neg (Nat.not_lt.mpr fits)))
  case ages =>
    show execFdbAgeExpiry vid mac s = _
    simp [execFdbAgeExpiry, ages]
  case still =>
    show execFdbAgeExpiry vid mac s = _
    simp [execFdbAgeExpiry, still]
  case reservedBits =>
    intro here ok reserved
    simpa only [Bool.not_true, Bool.false_eq_true, if_false, if_true] using
      exec_tunnel_of_here Prod.mk.eta.symm here (beq_iff_eq.mpr ok) reserved
  case whole =>
    intro here ok free
    simpa only [Bool.not_true, Bool.false_eq_true, if_false] using
      exec_tunnel_of_here Prod.mk.eta.symm here (beq_iff_eq.mpr ok) free
  case check =>
    intro here other
    simpa only [Bool.not_false, if_true] using
      exec_tunnel_of_here Prod.mk.eta.symm here (beq_eq_false_iff_ne.mpr other) rfl

end Sys2Proof.Proofs
end

section
/-! What the operations of the dictionary do with values (R104, R162, R163, R449, R453 to R463), operation by operation, and the
obligation DictValues. -/

open Sys2Proof Sys2Proof.Machine Sys2Proof.Laws

namespace Sys2Proof.Laws

/-! ### READ, WRITE and WRITE_VERIFY of an entry whose row is known -/

section Row
variable {m : Msg} {r : Row} (hr : lookEntry m.entry m.sub = .ok r) (s : State)
include hr

theorem readOp_of_writeOnly (h : r.acc = .wo) : s.readOp m = (s, .fail aWriteOnly m.sub []) := by
  simp [State.readOp, hr, h]

theorem verifyOp_of_writeOnly (h : r.acc = .wo) : s.verifyOp m = (s, .fail aWriteOnly m.sub []) := by
  simp [State.verifyOp, hr, h]

theorem readOp_of_readable (hacc : r.acc ≠ .wo) (hty : r.ty ≠ .blob) (hbody : m.body = []) :
    s.readOp m = (s, .body (s.isPending m.entry m.sub) (s.readWords r m.entry m.sub)) := by
  simp [State.readOp, hr, hacc, hty, hbody]

/-- A write that its checks refuse changes nothing, and ends with their code. -/
theorem writeOp_of_refused {c : Nat} (hc : s.writeCode r m.entry m.sub (s.roleFor m) m.body = c) (h0 : c ≠ 0) :
    s.writeOp m = (s, .fail c m.sub []) := by
  simp [State.writeOp, hr, hc, h0]

/-- An accepted write of a setting is recorded and accepted, and answers with an empty body. -/
theorem writeOp_of_setting (hc : s.writeCode r m.entry m.sub (s.roleFor m) m.body = 0) (hacc : r.acc ≠ .wo)
    (he : m.entry ≠ 0x0F003) :
    s.writeOp m = ((s.recordWrite m r m.entry m.sub).accept r m.entry m.sub (valueOf r.ty m.body), .body false []) := by
  simp [State.writeOp, hr, hc, State.doWrite, hacc, waitsCheck, he]

end Row

/-! ### The checks of a write, in their order (R449, R463) -/

section Code
variable (s : State) {r : Row} {e k role : Nat} {ws : List Word}

theorem writeCode_of_readOnly (h : r.acc = .ro) : s.writeCode r e k role ws = aReadOnly := if_pos h

variable (hacc : r.acc ≠ .ro)
include hacc

theorem writeCode_of_wrongLength (h : r.ty = .blob ∨ ws.length ≠ r.words) : s.writeCode r e k role ws = aBadLength :=
  (if_neg hacc).trans (if_pos h)

variable (hty : r.ty ≠ .blob) (hlen : ws.length = r.words)
include hty hlen

theorem writeCode_of_noRight (h : role < writeRole r e (valueOf r.ty ws)) : s.writeCode r e k role ws = aNoRight := by
  simp [State.writeCode, hacc, hty, hlen, h]

/-- A write that comes as far as its value ends with the value's judgement. -/
theorem writeCode_of_permitted (hrole : writeRole r e (valueOf r.ty ws) ≤ role) (hper : r.per ≠ .prof ∨ s.noProfile = false)
    (hbar : s.barred r e k (valueOf r.ty ws) = false) :
    s.writeCode r e k role ws = if wordsFit r.ty ws && s.valueOk r e k (valueOf r.ty ws) then 0 else aBadValue := by
  have hprof : ¬(r.per = .prof ∧ s.noProfile = true) := fun ⟨hp, hn⟩ => hper.elim (· hp) fun h => Bool.false_ne_true (h.symm.trans hn)
  simp [State.writeCode, hacc, hty, hlen, Nat.not_lt.mpr hrole, hprof, hbar]

end Code

/-! ### WRITE_BULK -/

/-- A bulk write leaves the state, or answers with an empty body. -/
theorem writeBulkOp_leaves_or_answers (s : State) (m : Msg) : (s.writeBulkOp m).1 = s ∨ (s.writeBulkOp m).2 = .body false [] := by
  unfold State.writeBulkOp
  repeat' split
  all_goals simp

theorem writeBulkOp_of_fail {s : State} {m : Msg} {c k : Nat} {ws : List Nat} (h : (s.writeBulkOp m).2 = .fail c k ws) :
    (s.writeBulkOp m).1 = s :=
  (writeBulkOp_leaves_or_answers s m).resolve_right fun hb => nomatch h.symm.trans hb

/-! ### Subscriptions and sessions -/

section Dialog
variable {s : State} {m : Msg}

theorem unsubscribeOp_of_body {n : Nat} (h : m.body.map BitVec.toNat = [n]) :
    s.unsubscribeOp m =
      if s.dict.subs.any fun p => p.1 == n && p.2.path == m.path.val && p.2.source == m.source then
        ({ s with dict.subs := s.dict.subs.filter fun p => p.1 != n }, .body false [])
      else (s, .fail aBadValue 0 []) := by
  obtain ⟨w, hw, rfl⟩ := List.map_eq_singleton_iff.mp h
  unfold State.unsubscribeOp
  rw [hw]
  rfl

theorem closeOp_of_session (hbody : m.body = []) (hs : m.session.val ≠ 0) :
    s.closeOp m = (s.endSession m.session, .body false []) := by
  simp [State.closeOp, hbody, hs]

theorem challengeOp_of_sick (hbody : m.body = []) (ht : s.fold.trngOk = false) : s.challengeOp m = (s, .fail aBusy 0 []) := by
  simp [State.challengeOp, hbody, ht]

theorem openOp_of_full (h : freeNumber (s.fire 274 m.path).dict.sessions 1 16 = none) :
    s.openOp m = (s.fire 274 m.path, .fail aBusy 0 []) := by
  simp [State.openOp, h]

/-- OPEN without a nonce whose proof verifies is refused. -/
theorem openOp_of_unproved {n : Nat} (hn : freeNumber (s.fire 274 m.path).dict.sessions 1 16 = some n)
    (h : (((s.fire 274 m.path).dict.nonces.find? fun x => x.path == m.path.val && x.source == m.source).any fun x =>
      ((s.fire 274 m.path).dropNonce m.path m.source).proofOk m x.value) = false) :
    s.openOp m = (((s.fire 274 m.path).dropNonce m.path m.source).foldRefuse, .fail aRefused 0 []) := by
  simp [State.openOp, hn, h]

end Dialog

/-! ### Points -/

section Points
variable {s : State} {m : Msg}

theorem pointReadOp_of_unmapped (hlen : m.body.length = 2) (h : s.pointRuns m = none) :
    s.pointReadOp m = (s, .fail aNoObject 0 []) := by
  simp [State.pointReadOp, hlen, h]

theorem pointWriteOp_of_unmapped (hlen : 2 ≤ m.body.length) (h : s.pointRuns m = none) :
    s.pointWriteOp m = (s, .fail aNoObject 0 []) := by
  simp [State.pointWriteOp, Nat.not_lt.mpr hlen, h]

variable {rs : List (Nat × Run)} (hruns : s.pointRuns m = some rs)
  (hlen : m.body.length = 2 + (rs.map fun p => p.2.words).sum)
include hruns hlen

theorem pointWriteOp_of_viewer (h : s.roleFor m = 0) : s.pointWriteOp m = (s, .fail aNoRight 0 []) := by
  simp +arith [State.pointWriteOp, hruns, hlen, h]

variable (hrole : 1 ≤ s.roleFor m) {t : State}
include hrole

theorem pointWriteOp_of_refused {d : Deny} (hw : s.writePoints m rs (m.body.drop 2) = (t, .error d)) :
    s.pointWriteOp m = (t, .fail d.code 0 []) := by
  simp +arith [State.pointWriteOp, hruns, hlen, Nat.ne_of_gt hrole, hw]

theorem pointWriteOp_of_taken (hw : s.writePoints m rs (m.body.drop 2) = (t, .ok ())) :
    s.pointWriteOp m =
      if ∃ x ∈ t.ledger.waiting, x.req = some m then
        ({ t with dict.waiting := t.dict.waiting ++ [openPoint m] }, .later)
      else (t, .body false []) := by
  simp +arith [State.pointWriteOp, hruns, hlen, Nat.ne_of_gt hrole, hw]

end Points
end Sys2Proof.Laws

namespace Sys2Proof.Proofs

/-- Settles O47: each operation, case by case of what its checks find. -/
theorem dictValues : Obligations.DictValues := by
  intro m s
  refine ⟨fun r hr => ⟨?writeOnly, ?read, ?readOnly, ?length, ?right, ?value⟩, fun _ _ _ => writeBulkOp_of_fail, ?unsubscribe,
    closeOp_of_session, challengeOp_of_sick, ⟨?proof, ?nonce, openOp_of_full⟩, ?unmapped, fun _ => pointWriteOp_of_viewer,
    fun rs t hruns hlen hrole => ⟨fun hw => ?points, fun _ => pointWriteOp_of_refused hruns hlen hrole⟩⟩
  case writeOnly => exact fun h => ⟨readOp_of_writeOnly hr s h, verifyOp_of_writeOnly hr s h⟩
  case read => exact readOp_of_readable hr s
  case readOnly => exact fun h => writeOp_of_refused hr s (writeCode_of_readOnly s h) (by decide)
  case length => exact fun hacc h => writeOp_of_refused hr s (writeCode_of_wrongLength s hacc h) (by decide)
  case right => exact fun hacc hty hlen h => writeOp_of_refused hr s (writeCode_of_noRight s hacc hty hlen h) (by decide)
  case value =>
    intro hacc hty hlen hrole hper hbar
    have hcode := writeCode_of_permitted s hacc hty hlen hrole hper hbar
    refine ⟨fun hbad => writeOp_of_refused hr s (hcode.trans (if_neg ?_)) (by decide),
      fun hfit hok => writeOp_of_setting hr s (hcode.trans (if_pos ?_))⟩
    · rw [Bool.and_eq_true]
      exact fun ⟨hfit, hok⟩ => hbad.elim (ne_false_of_eq_true hfit) (ne_false_of_eq_true hok)
    · rw [hfit, hok, Bool.and_self]
  case unsubscribe =>
    exact fun n hn => ⟨fun own => (unsubscribeOp_of_body hn).trans (if_pos own),
      fun other => (unsubscribeOp_of_body hn).trans (if_neg (ne_true_of_eq_false other))⟩
  case proof =>
    intro n hn x hx hproof
    exact openOp_of_unproved hn (by rw [hx]; exact hproof)
  case nonce =>
    intro n hn hx
    exact openOp_of_unproved hn (by rw [hx]; rfl)
  case unmapped =>
    exact fun hlen h => ⟨pointReadOp_of_unmapped hlen h, pointWriteOp_of_unmapped hlen.ge h⟩
  case points =>
    have htaken := pointWriteOp_of_taken hruns hlen hrole hw
    exact ⟨fun waits => htaken.trans (if_pos waits), fun none => htaken.trans (if_neg fun ⟨x, hx, e⟩ => none x hx e)⟩

end Sys2Proof.Proofs
end

section
/-! Time that passes (State.advance) and the end of a tide (State.tideEnds) leave the tide counter, and whether a tide has begun
since the start. One lemma per operation that an act of a stroke is made of, where no lemma of what a turn leaves (Turned) says
it already; each cites those of the operations that it calls. -/

open Sys2Proof Sys2Proof.Machine Sys2Proof.Laws

namespace Sys2Proof.Machine

/-- The tide counter, and whether a tide has begun since the start. -/
abbrev State.tideNo (s : State) : Nat × Bool := (s.tide.t, s.tide.begun)

end Sys2Proof.Machine

namespace Sys2Proof.Laws
variable (s : State)

theorem Turned.tideNo {a b : State} (h : Turned a b) : b.tideNo = a.tideNo := Prod.ext h.tide_t h.tide_begun
theorem Fires.tideNo {a b : State} (h : Fires a b) : b.tideNo = a.tideNo := by rw [State.tideNo, h.tide]

/-- A fold keeps the tide's number where each of its steps does. -/
theorem foldl_tideNo {α : Type} {f : State → α → State} (hf : ∀ s x, (f s x).tideNo = s.tideNo) (l : List α) (s : State) :
    (l.foldl f s).tideNo = s.tideNo :=
  List.foldlRecOn l f (motive := fun t => t.tideNo = s.tideNo) rfl fun t ht x _ => (hf t x).trans ht

/-! ### Operations that a turn is made of too -/

theorem fire_tideNo (n inst detail : Nat) (forced : Bool) : (s.fire n inst detail forced).tideNo = s.tideNo :=
  (fires_fire s n inst detail forced (Fires.refl s)).tideNo
theorem bump_tideNo (e sub k : Nat) : (s.bump e sub k).tideNo = s.tideNo := rfl
theorem bumpFld_tideNo (e sub hi lo : Nat) : (s.bumpFld e sub hi lo).tideNo = s.tideNo := rfl
theorem linkCount_tideNo (l k : Nat) : (s.linkCount l k).tideNo = s.tideNo := (turned_linkCount s l k (.refl s)).tideNo
theorem heldFull_tideNo (up : Bool) (L : Nat) : (s.heldFull up L).tideNo = s.tideNo := (turned_heldFull s up L (.refl s)).tideNo
theorem countHeld_tideNo (up : Bool) (L mask : Nat) : (s.countHeld up L mask).tideNo = s.tideNo :=
  (turned_countHeld s up L mask (.refl s)).tideNo
theorem checkLine_tideNo (up : Bool) (L : Nat) : (s.checkLine up L).1.tideNo = s.tideNo :=
  (turned_checkLine s up L (.refl s)).tideNo
theorem writeOver_tideNo (up : Bool) (P mask : Nat) (w : List Word) (tag : Option Nat) (bad : Bool) (old : List Word) :
    (s.writeOver up P mask w tag bad old).1.tideNo = s.tideNo := (turned_writeOver s up P mask w tag bad old (.refl s)).tideNo
theorem writeLine_tideNo (up : Bool) (P mask : Nat) (w : List Word) (tag : Option Nat) :
    (s.writeLine up P mask w tag).1.tideNo = s.tideNo := (turned_writeLine s up P mask w tag (.refl s)).tideNo
theorem unschedWrite_tideNo (up : Bool) (L mask : Nat) (w : List Word) (b : Option Nat) :
    (s.unschedWrite up L mask w b).1.tideNo = s.tideNo := (turned_unschedWrite s up L mask w b (.refl s)).tideNo
theorem skipLine_tideNo (up : Bool) (L : Nat) : (s.skipLine up L).tideNo = s.tideNo := (turned_skipLine s up L (.refl s)).tideNo
theorem respond_tideNo (path source : Nat) (h : Head) (body : List Nat) : (s.respond path source h body).tideNo = s.tideNo :=
  (turned_respond s path source h body (.refl s)).tideNo
theorem penFall_tideNo (p : Nat) : (s.penFall p).tideNo = s.tideNo := (turned_penFall s p (.refl s)).tideNo
theorem penCheck_tideNo (p : Nat) : (s.penCheck p).1.tideNo = s.tideNo := (turned_penCheck s p (.refl s)).tideNo
theorem penPush_tideNo (p : Nat) (ws : List Word) : (s.penPush p ws).tideNo = s.tideNo := (turned_penPush s p ws (.refl s)).tideNo
theorem penCommit_tideNo (p : Nat) : (s.penCommit p).tideNo = s.tideNo := (turned_penCommit s p (.refl s)).tideNo
theorem portCount_tideNo (p k : Nat) : (s.portCount p k).tideNo = s.tideNo := (turned_portCount s p k (.refl s)).tideNo
theorem schedDrop_tideNo (p at_ : Nat) : (s.schedDrop p at_).tideNo = s.tideNo := (turned_schedDrop s p at_ (.refl s)).tideNo
theorem schedSent_tideNo (p at_ : Nat) : (s.schedSent p at_).tideNo = s.tideNo := (turned_schedSent s p at_ (.refl s)).tideNo
theorem snapHold_tideNo (ps : List Nat) : (s.snapHold ps).tideNo = s.tideNo := (turned_snapHold s ps (.refl s)).tideNo
theorem cellOut_tideNo (l : Nat) (w : List Word) (ctx : Nat) (place : List Nat) : (s.cellOut l w ctx place).tideNo = s.tideNo :=
  (turned_cellOut s l w ctx place (.refl s)).tideNo

/-! ### Lines, and what answers a write that waited for its CARRY -/

theorem markHeld_tideNo (dst : List Place) (mask : Nat → Nat) : (s.markHeld dst mask).tideNo = s.tideNo := by
  unfold State.markHeld
  refine (foldl_tideNo (fun s p => ?_) _ _).trans (foldl_tideNo (fun s m => ?_) _ _)
  · unfold State.heldAdd
    grind [heldFull_tideNo]
  · rfl

theorem schedRead_tideNo (p : Place) (free : Bool) (mask : Nat) : (s.schedRead p free mask).1.tideNo = s.tideNo := by
  unfold State.schedRead
  grind [checkLine_tideNo, countHeld_tideNo, bump_tideNo]

theorem schedWrite_tideNo (p : Place) (mask : Nat) (w : List Word) (old : Option (Bool × List Word)) :
    (s.schedWrite p mask w old).tideNo = s.tideNo := by
  unfold State.schedWrite
  grind [writeLine_tideNo, writeOver_tideNo]

theorem mirrorLine_tideNo (up : Bool) (L : Nat) : (s.mirrorLine up L).tideNo = s.tideNo := by
  unfold State.mirrorLine State.addItem
  grind

theorem pointEnds_tideNo (req : Option Msg) (code : Nat) : (s.pointEnds req code).tideNo = s.tideNo := by
  unfold State.pointEnds
  grind [respond_tideNo]

theorem landWrite_tideNo (x : WaitWrite) : (s.landWrite x).tideNo = s.tideNo := by
  have hw := unschedWrite_tideNo s false x.line x.mask x.words x.bit
  unfold State.landWrite
  grind [pointEnds_tideNo, mirrorLine_tideNo, fire_tideNo, bump_tideNo, skipLine_tideNo]

theorem landHeld_tideNo : s.landHeld.tideNo = s.tideNo := by
  unfold State.landHeld
  refine (foldl_tideNo (fun s x => ?_) _ _).trans rfl
  exact landWrite_tideNo _ x

/-! ### Pens, the receive store, frames and buses -/

theorem penCutShort_tideNo (p : Nat) : (s.penCutShort p).tideNo = s.tideNo := by
  unfold State.penCutShort State.penBad
  grind [State.setPen, penCheck_tideNo, bumpFld_tideNo]

theorem penPositions_tideNo (p n : Nat) : (s.penPositions p n).1.tideNo = s.tideNo := by
  induction n generalizing s with
  | zero => rfl
  | succ n ih =>
    have ht : (s.penTake p).1.tideNo = s.tideNo := by
      unfold State.penTake
      grind [State.setPen]
    unfold State.penPositions
    grind [bump_tideNo]

theorem penReadN_tideNo (p n : Nat) : (s.penReadN p n).1.tideNo = s.tideNo :=
  (penFall_tideNo _ p).trans ((penPositions_tideNo _ p n).trans (penCheck_tideNo s p))

theorem rxDeliver_tideNo (n f : Nat) : (s.rxDeliver n f).1.tideNo = s.tideNo := by
  unfold State.rxDeliver
  grind [bump_tideNo]

theorem schedBegin_tideNo (p at_ : Nat) : (s.schedBegin p at_).tideNo = s.tideNo := by
  unfold State.schedBegin State.schedPut State.setSchedQ State.setPort
  grind [portCount_tideNo, schedDrop_tideNo]

theorem schedStamp_tideNo (p at_ : Nat) : (s.schedStamp p at_).tideNo = s.tideNo := by
  unfold State.schedStamp State.schedPut State.setSchedQ
  grind

theorem busRelease_tideNo (tile c b : Nat) (marked : Bool) : (s.busRelease tile c b marked).tideNo = s.tideNo := by
  unfold State.busRelease State.busCount State.setChan
  grind [bump_tideNo, fire_tideNo]

theorem busMeet_tideNo (c b : Nat) : (s.busMeet c b).tideNo = s.tideNo := by
  have hw := (fires_withdraw s c b (Fires.refl s)).tideNo
  unfold State.busMeet State.busCount State.setChan
  grind [bump_tideNo, fire_tideNo]

/-- Stated of any record of the field pins, so that no pin's level is computed to compare the numbers. -/
theorem setPins_tideNo (x : PinSt) : ({ s with pin := x } : State).tideNo = s.tideNo := rfl

theorem loadDout_tideNo (b h : Nat) (w : Word) : (s.loadDout b h w).tideNo = s.tideNo := by
  simp only [State.loadDout]
  split
  · rfl
  · split
    · split
      · rfl
      · exact (setPins_tideNo _ _).trans (snapHold_tideNo s _)
    · exact setPins_tideNo s _

/-! ### The acts of a stroke in flight -/

theorem failed_tideNo (f : Flight) (cause : Nat) : (s.failed f cause).1.tideNo = s.tideNo := by
  have hn (s : State) : (s.nullClass f).tideNo = s.tideNo := by
    unfold State.nullClass State.setChan
    grind [landHeld_tideNo, penCutShort_tideNo, schedDrop_tideNo]
  exact (hn _).trans ((fires_countNull _ f.sl cause (Fires.refl _)).tideNo.trans (markHeld_tideNo s f.dst f.mask))

theorem flightTake_tideNo (f : Flight) (q : Nat) : (s.flightTake f q).1.tideNo = s.tideNo := by
  unfold State.flightTake
  split
  · refine foldl_tideNo (fun s j => ?_) _ _
    grind [State.drvRegTaken, State.setDrover]
  · rfl
  · exact penReadN_tideNo _ _ _
  · exact rxDeliver_tideNo _ _ _

theorem flightPut_tideNo (f : Flight) (q : Nat) : (s.flightPut f q).1.tideNo = s.tideNo := by
  unfold State.flightPut
  split
  · refine foldl_tideNo (fun s j => ?_) _ _
    rfl
  · exact (loadDout_tideNo _ _ _ _).trans (loadDout_tideNo _ _ _ _)
  · exact penPush_tideNo _ _ _
  · grind [State.setChan, busMeet_tideNo]
  · unfold State.schedPut State.setSchedQ
    grind [bump_tideNo, fire_tideNo, schedDrop_tideNo]

theorem flightMeet_tideNo (f : Flight) : (s.flightMeet f).1.tideNo = s.tideNo := by
  unfold State.flightMeet State.schedEnter State.setSchedQ
  grind [failed_tideNo, fire_tideNo]

theorem flightDepart_tideNo (f : Flight) (l : Nat) : (s.flightDepart f l).1.tideNo = s.tideNo := by
  unfold State.flightDepart State.depart
  grind [cellOut_tideNo, linkCount_tideNo, fire_tideNo]

theorem flightDone_tideNo (f : Flight) : (s.flightDone f).tideNo = s.tideNo := by
  unfold State.flightDone
  grind [landHeld_tideNo, busRelease_tideNo, bump_tideNo, fire_tideNo]

theorem flightAct_tideNo (f : Flight) (a : Act) : (s.flightAct f a).1.tideNo = s.tideNo := by
  unfold State.flightAct
  grind [failed_tideNo, schedRead_tideNo, checkLine_tideNo, schedWrite_tideNo, flightTake_tideNo, flightPut_tideNo,
    flightMeet_tideNo, penCommit_tideNo, flightDepart_tideNo, schedBegin_tideNo, schedStamp_tideNo, schedSent_tideNo,
    flightDone_tideNo]

theorem flightCycle_tideNo (f : Flight) (a : Act) : (s.flightCycle f a).1.tideNo = s.tideNo := by
  have hd (s : State) (f : Flight) : (s.digestPart f).tideNo = s.tideNo := by
    unfold State.digestPart State.addPart
    grind
  have ht (s : State) (sl idx cause : Nat) : (s.traceStroke sl idx cause).tideNo = s.tideNo :=
    (fires_traceStroke s sl idx cause (Fires.refl s)).tideNo
  unfold State.flightCycle
  grind [failed_tideNo, flightAct_tideNo]

/-! ### Time that passes, and the end of a tide -/

theorem runAct_tideNo (k : Nat) : (s.runAct k).tideNo = s.tideNo := by
  unfold State.runAct
  grind [flightCycle_tideNo]

/-- Time that passes begins no tide. -/
theorem advance_tideNo (off : Nat) : (s.advance off).tideNo = s.tideNo :=
  runActs_keeps (I := fun t => t.tideNo = s.tideNo) (s.reportTurns.abs off) (fun t k ht => (runAct_tideNo t k).trans ht)
    s.reportTurns.actsLeft _ (turned_reportTurns s (.refl s)).tideNo

/-- The end of a tide counts no tide: the next one does as it begins. -/
theorem tideEnds_tideNo : s.tideEnds.tideNo = s.tideNo := by
  have hseal (u : State) : ((List.range 5).foldl (fun s l => s.sealTurn l) u).tideNo = u.tideNo :=
    foldl_tideNo (fun s l => (turned_sealTurn s l (.refl s)).tideNo) _ _
  have htile (u : State) (p : Nat) : (u.tileTurn p).tideNo = u.tideNo := by
    simp only [State.tileTurn]
  have hcount (u : State) : u.countTide.tideNo = u.tideNo := by
    unfold State.countTide
    split <;> rfl
  unfold State.tideEnds
  split
  · calc
      _ = _ := hcount _
      _ = _ := (turned_ledgerTurn _ (.refl _)).tideNo
      _ = _ := htile _ _
      _ = _ := (turned_digestClose _ (.refl _)).tideNo
      _ = _ := hseal _
      _ = s.tideNo := advance_tideNo s _
  · rfl

end Sys2Proof.Laws
end

section
/-! What TURN does where the hub stays in FULL and no update is activated (R99, R394, R396, R603), and the obligation
TurnBeginsTide. -/

open Sys2Proof Sys2Proof.Machine Sys2Proof.Laws

namespace Sys2Proof.Laws

/-- What a tide that begins sets, before any rule of the turn acts: it runs, at offset 0, with the next number of the counter,
and with the number and the start that the grid gives it. -/
structure Begun (n : NextTide) (s t : State) : Prop where
  runs : t.tide.runs = true
  begun : t.tide.begun = true
  off : t.tide.off = 0
  counter : t.tide.t = if s.tide.begun then s.tide.t + 1 else 0
  F : t.time.F = n.f
  base : t.time.base = n.start

theorem Begun.turned {n : NextTide} {s t u : State} (h : Begun n s t) (ht : Turned t u) : Begun n s u :=
  ⟨ht.tide_runs.trans h.runs, ht.tide_begun.trans h.begun, ht.tide_off.trans h.off, ht.tide_t.trans h.counter, ht.time_F.trans h.F,
    ht.time_base.trans h.base⟩

/-- What is begun depends on the state before through the tide's number alone. -/
theorem Begun.of_tideNo {n : NextTide} {s s' t : State} (h : Begun n s t) (hs : s.tideNo = s'.tideNo) : Begun n s' t := by
  obtain ⟨ht, hb⟩ := Prod.mk.inj hs
  exact ⟨h.runs, h.begun, h.off, by rw [h.counter, ht, hb], h.F, h.base⟩

theorem begun_gridTo_tideTo (s : State) (n : NextTide) : Begun n s ((s.tideTo n).gridTo n) := ⟨rfl, rfl, rfl, rfl, rfl, rfl⟩

/-- A table's swap, the drovers' restart and the rules of the turn leave the tide as it began. -/
theorem begun_tideBegins (s : State) (n : NextTide) (swap : Bool) : Begun n s (s.tideBegins n swap) := by
  have hstart : Begun n s ((s.retireTurn.tideTo n).gridTo n) :=
    (begun_gridTo_tideTo s.retireTurn n).of_tideNo (turned_retireTurn s (.refl s)).tideNo
  unfold State.tideBegins
  refine hstart.turned (turned_turnRules _ _ (turned_gridRules _ (turned_commitTurn _ (turned_staleTurn _
    (turned_holdExit _ ?restart)))))
  case restart =>
    have hswap (u : State) : Turned u (if swap then u.swapTable else u) := .ite (turned_swapTable u (.refl u)) (.refl u)
    refine Turned.ite ?_ (hswap _)
    exact .of_eq rfl rfl rfl rfl rfl rfl (turned_restartDrovers _ (hswap _))

/-- The state in which a turn takes its decisions: the running tide has ended, and an activation's wait is shorter by one. -/
def turnFrom (s : State) : State := { s.tideEnds with upd.actWait := s.upd.actWait - 1 }

/-- A turn that no power command and no activation takes begins the next tide of the grid. -/
theorem turnNow_of_none {s : State} {n : NextTide} (hn : (turnFrom s).nextTide = n) (hpower : (turnFrom s).power.request = 0)
    (hdue : ((turnFrom s).table.valid && (turnFrom s).dueNow ((turnFrom s).atBoundary n) ((turnFrom s).swaps n) n.start) = false) :
    s.turnNow = (turnFrom s).tideBegins n ((turnFrom s).swaps n) := by
  subst hn
  have hstay : (turnFrom s).powerTurn ((turnFrom s).atBoundary (turnFrom s).nextTide) = none := by
    simp [State.powerTurn, hpower]
  unfold turnFrom at *
  simp [State.turnNow, hstay, hdue, State.deferTurn]

end Sys2Proof.Laws

namespace Sys2Proof.Proofs

/-- Settles O14: neither a power command nor an activation takes the turn, so the tide begins, and no rule that acts at a turn
changes what its beginning set. -/
theorem turnBeginsTide : Obligations.TurnBeginsTide := by
  refine ⟨fun s hclocked hpower hdue => ?clocked, fun s hoff => ?off⟩
  case clocked =>
    have hbegun := (begun_tideBegins (turnFrom s) (turnFrom s).nextTide ((turnFrom s).swaps (turnFrom s).nextTide)).of_tideNo
      (tideEnds_tideNo s)
    rw [← turnNow_of_none rfl hpower hdue] at hbegun
    exact ⟨s.turnNow, congrArg _ (if_pos hclocked), hbegun.runs, hbegun.begun, hbegun.off, hbegun.counter, hbegun.F, hbegun.base⟩
  case off => exact congrArg _ (if_neg (ne_true_of_eq_false hoff))

end Sys2Proof.Proofs
end

section
/-! The picks of the ledger (R139, R140, R144), and the obligation SlackPickIsBest. -/

open Sys2Proof Sys2Proof.Machine Sys2Proof.Laws

namespace Sys2Proof.Laws

/-! ### A pick by a key

`pickBy` keeps the first candidate that no other beats. Where one beats another as its key in a linear order is the greater, what is
picked is a candidate of the greatest key. -/

theorem pickBy_eq_none {better : Cand → Cand → Bool} {l : List Cand} (h : pickBy better l = none) : l = [] := by
  cases l with
  | nil => rfl
  | cons a l =>
    simp only [pickBy] at h
    split at h
    · cases h
    · split at h <;> cases h

theorem pickBy_mem {better : Cand → Cand → Bool} {l : List Cand} {x : Cand} (h : pickBy better l = some x) : x ∈ l := by
  induction l generalizing x with
  | nil => cases h
  | cons a l ih =>
    simp only [pickBy] at h
    split at h
    case h_1 => cases h; exact .head _
    case h_2 b hb =>
      split at h <;> cases h
      · exact .tail _ (ih hb)
      · exact .head _

theorem pickBy_key_le {α : Type} [LinearOrder α] {key : Cand → α} {better : Cand → Cand → Bool}
    (hbetter : ∀ a b, better a b = true ↔ key b < key a) {l : List Cand} {x : Cand} (h : pickBy better l = some x) :
    ∀ y ∈ l, key y ≤ key x := by
  induction l generalizing x with
  | nil => cases h
  | cons a l ih =>
    rw [List.forall_mem_cons]
    simp only [pickBy] at h
    split at h
    case h_1 hnone =>
      cases h
      exact ⟨le_rfl, by rw [pickBy_eq_none hnone]; exact List.forall_mem_nil _⟩
    case h_2 b hb =>
      split at h <;> rename_i hba <;> cases h <;> rw [hbetter] at hba
      · exact ⟨hba.le, ih hb⟩
      · exact ⟨le_rfl, fun y hy => (ih hb y hy).trans (not_lt.mp hba)⟩

/-- What a slack cycle goes by (R140): PRIO first, then age. -/
def slackKey (s : State) (x : Cand) : Lex (Nat × Nat) := toLex (fld (s.cfg 0x02040 x.cls) 23 21, x.acc.age)

theorem slackKey_le_iff {s : State} {x y : Cand} : slackKey s y ≤ slackKey s x ↔
    fld (s.cfg 0x02040 y.cls) 23 21 < fld (s.cfg 0x02040 x.cls) 23 21
      ∨ fld (s.cfg 0x02040 y.cls) 23 21 = fld (s.cfg 0x02040 x.cls) 23 21 ∧ y.acc.age ≤ x.acc.age :=
  Prod.Lex.toLex_le_toLex

/-- The pick of a slack cycle is one within its quota, and of those one of the greatest key. -/
theorem pickSlack_best {s : State} {l : List Cand} {x : Cand} (h : s.pickSlack l = some x) :
    (x ∈ l ∧ s.withinQuota x.cls x.acc = true)
      ∧ ∀ y ∈ l, s.withinQuota y.cls y.acc = true → slackKey s y ≤ slackKey s x := by
  refine ⟨List.mem_filter.mp (pickBy_mem h), fun y hy hq => ?_⟩
  refine pickBy_key_le (key := slackKey s) (fun a b => ?_) h y (List.mem_filter.mpr ⟨hy, hq⟩)
  simp only [slackKey, Prod.Lex.toLex_lt_toLex, Bool.or_eq_true, Bool.and_eq_true, decide_eq_true_iff, beq_iff_eq,
    eq_comm (a := fld (s.cfg 0x02040 a.cls) 23 21)]

/-- A candidate that an urgent slot may pick (R139, R140, R144): urgent, within its quota, and with no urgent access of its class
before it. -/
def MayUrgent (s : State) (x : Cand) : Prop :=
  s.isUrgent x.cls x.acc = true ∧ s.withinQuota x.cls x.acc = true
    ∧ ∀ a ∈ (s.queueOf x.cls).take x.pos, s.isUrgent x.cls a = false

/-- The pick of an urgent slot is one that it may pick, and of those one of the highest age. -/
theorem pickUrgent_best {s : State} {l : List Cand} {x : Cand} (h : s.pickUrgent l = some x) :
    (x ∈ l ∧ MayUrgent s x) ∧ ∀ y ∈ l, MayUrgent s y → y.acc.age ≤ x.acc.age := by
  have hmay (y : Cand) : (y ∈ l.filter fun x => s.isUrgent x.cls x.acc && s.withinQuota x.cls x.acc
      && ((s.queueOf x.cls).take x.pos).all fun a => !s.isUrgent x.cls a) ↔ y ∈ l ∧ MayUrgent s y := by
    simp [MayUrgent, and_assoc]
  refine ⟨(hmay x).mp (pickBy_mem h), fun y hy hm => ?_⟩
  exact pickBy_key_le (key := fun z => z.acc.age) (fun a b => decide_eq_true_iff) h y ((hmay y).mpr ⟨hy, hm⟩)

end Sys2Proof.Laws

namespace Sys2Proof.Proofs

/-- Settles O17: either pick is of the greatest key among the candidates that its cycle may take. -/
theorem slackPickIsBest : Obligations.SlackPickIsBest := by
  refine ⟨fun s l x h => ?slack, fun s l x h => ?urgent⟩
  case slack =>
    obtain ⟨hmem, hbest⟩ := pickSlack_best h
    exact ⟨hmem, fun y hy hq => slackKey_le_iff.mp (hbest y hy hq)⟩
  case urgent =>
    obtain ⟨⟨hmem, hmay⟩, hbest⟩ := pickUrgent_best h
    exact ⟨⟨hmem, hmay⟩, fun y hy hu hq hfirst => hbest y hy ⟨hu, hq, hfirst⟩⟩

end Sys2Proof.Proofs
end

section
/-! POWER_CMD, the supplies and the clocks (R592 to R604), and the obligation PowerCommandsAndSupplies. -/

open Sys2Proof Sys2Proof.Machine Sys2Proof.Laws

namespace Sys2Proof.Laws

variable {s : State}

/-! ### POWER_CMD (R604) -/

/-- While the work domain runs the hub is in LIGHT or FULL (R603). -/
theorem light_or_full_of_workRuns (hw : s.workRuns = true) : s.power.state = .light ∨ s.power.state = .full := by
  simp only [State.workRuns, Bool.and_eq_true, Bool.or_eq_true, beq_iff_eq] at hw
  exact hw.1.1

theorem light_of_not_full (hw : s.workRuns = true) (hf : s.power.state ≠ .full) : s.power.state = .light :=
  (light_or_full_of_workRuns hw).resolve_right hf

theorem full_of_not_light (hw : s.workRuns = true) (hl : s.power.state ≠ .light) : s.power.state = .full :=
  (light_or_full_of_workRuns hw).resolve_left hl

theorem powerOp_stands (cmd : Nat) (hw : s.workRuns = false) : s.powerOp cmd = s := by
  simp [State.powerOp, hw]

section Works
variable (hw : s.workRuns = true)
include hw

theorem powerOp_light (hf : s.power.state = .full) : s.powerOp 1 = { s with power.request := 1 } := by
  simp [State.powerOp, hw, hf]

theorem powerOp_light_badState (hf : s.power.state ≠ .full) : s.powerOp 1 = s.abort 0x01002 aBadState := by
  simp [State.powerOp, hw, light_of_not_full hw hf]

theorem powerOp_full (hl : s.power.state = .light) (hfw : s.firmware = true) : s.powerOp 2 = s.enterFull := by
  simp [State.powerOp, hw, hl, hfw]

theorem powerOp_full_badState (h : s.power.state ≠ .light ∨ s.firmware = false) :
    s.powerOp 2 = s.abort 0x01002 aBadState := by
  by_cases hl : s.power.state = .light
  · simp [State.powerOp, hw, hl, h.resolve_left (not_not_intro hl)]
  · simp [State.powerOp, hw, full_of_not_light hw hl]

theorem powerOp_keep (hf : s.power.state = .full) (hx : s.xtalSafe = false) :
    s.powerOp 3 = { s with power.request := 3 } ∧ s.powerOp 4 = { s with power.request := 4 } := by
  simp [State.powerOp, hw, hf, hx]

theorem powerOp_keep_badState (h : s.power.state ≠ .full ∨ s.xtalSafe = true) :
    s.powerOp 3 = s.abort 0x01002 aBadState ∧ s.powerOp 4 = s.abort 0x01002 aBadState := by
  by_cases hf : s.power.state = .full
  · simp [State.powerOp, hw, hf, h.resolve_left (not_not_intro hf)]
  · simp [State.powerOp, hw, light_of_not_full hw hf]

theorem powerOp_restart : s.powerOp 5 = s.beginWarm 5 ∧ s.powerOp 6 = s.beginCold 4 := by
  obtain h | h := light_or_full_of_workRuns hw <;> simp [State.powerOp, hw, h]

end Works

theorem firmware_iff : s.firmware = true ↔ s.upd.good = true ∧ s.fold.lifecycle ≠ 4 := by simp [State.firmware]

theorem firmware_eq_false_iff : s.firmware = false ↔ s.upd.good = false ∨ s.fold.lifecycle = 4 := by
  simp only [State.firmware, Bool.and_eq_false_iff, bne_eq_false_iff_eq]

theorem xtalSafe_iff : s.xtalSafe = true ↔ 3 ≤ s.level 369 := decide_eq_true_iff

theorem xtalSafe_eq_false_iff : s.xtalSafe = false ↔ ¬ 3 ≤ s.level 369 := decide_eq_false_iff_not

/-! ### Gates that lose their power (R588) -/

theorem gateDown_stands {g cause : Nat} (h : (s.gateAt g).running = false) : s.gateDown g cause = s := by
  simp [State.gateDown, h]

theorem gateDown_turnsOff {g cause : Nat} (h : (s.gateAt g).running = true) :
    s.gateDown g cause = s.setGate g ((s.gateAt g).off .ready cause) := if_pos h

theorem gateDown_onlyGate (s : State) (g cause : Nat) : ∃ x, s.gateDown g cause = { s with gate := x } := by
  unfold State.gateDown
  split
  · exact ⟨_, rfl⟩
  · exact ⟨s.gate, rfl⟩

theorem foldl_onlyGate {α : Type} {f : State → α → State} (hf : ∀ s x, ∃ y, f s x = { s with gate := y }) (l : List α) (s : State) :
    ∃ y, l.foldl f s = { s with gate := y } := by
  induction l generalizing s with
  | nil => exact ⟨s.gate, rfl⟩
  | cons x l ih =>
    obtain ⟨y, hy⟩ := hf s x
    obtain ⟨z, hz⟩ := ih (f s x)
    exact ⟨z, by rw [List.foldl_cons, hz, hy]⟩

theorem gatesPower_onlyGate (s : State) : ∃ x, s.gatesPower = { s with gate := x } :=
  foldl_onlyGate (fun s g => gateDown_onlyGate s g 10) _ s

@[simp] theorem gatesPower_power (s : State) : s.gatesPower.power = s.power := by
  obtain ⟨x, hx⟩ := gatesPower_onlyGate s
  rw [hx]

@[simp] theorem gatesPower_pin (s : State) : s.gatesPower.pin = s.pin := by
  obtain ⟨x, hx⟩ := gatesPower_onlyGate s
  rw [hx]

@[simp] theorem gatesPower_tide (s : State) : s.gatesPower.tide = s.tide := by
  obtain ⟨x, hx⟩ := gatesPower_onlyGate s
  rw [hx]

/-! ### SUPPLY_STATE_CHANGE (R593, R598) -/

/-- The reading of a supply that SUPPLY_STATE_CHANGE brings. -/
def supplyRead (s : State) (n : Fin 9) (now : Fin 4) (mv : Fin 4096) : State :=
  { s with power.supplies := s.power.supplies.set n (now.val, mv.val) }

/-- A supply leaves UP. -/
def leavesUp (s : State) (n : Fin 9) (now : Fin 4) : Prop := (s.power.supplies.getD n (0, 0)).1 = 0 ∧ now.val ≠ 0

/-- The power states in which the loss of a supply has its row of R598. -/
def lossActs (s : State) : Prop := s.power.state = .keep ∨ s.power.state = .light ∨ s.power.state = .full

section Supply
variable {n : Fin 9} {now : Fin 4} {mv : Fin 4096}

/-- The model's test of a supply that leaves UP. -/
theorem leavesUp_iff : (s.supplyUp n && decide (now.val ≠ 0)) = true ↔ leavesUp s n now := by
  simp only [State.supplyUp, leavesUp, Bool.and_eq_true, beq_iff_eq, decide_eq_true_iff]

theorem supplyChange_shore_reads (h0 : n.val = 0) (h : now.val = 0 ∨ s.power.state = .dark) :
    exec (.supplyStateChange n now mv) s = .next (supplyRead s n now mv) := by
  show execSupplyStateChange n now mv s = _
  simp only [execSupplyStateChange, if_pos h0, if_pos h, supplyRead]

theorem supplyChange_shore_dark (h0 : n.val = 0) (h : ¬(now.val = 0 ∨ s.power.state = .dark)) :
    exec (.supplyStateChange n now mv) s = .next (supplyRead s n now mv).goDark := by
  show execSupplyStateChange n now mv s = _
  simp only [execSupplyStateChange, if_pos h0, if_neg h, supplyRead]

section Other
variable (h0 : n.val ≠ 0)
include h0

theorem supplyChange_lost (hl : leavesUp s n now) (hr : lossActs s) :
    exec (.supplyStateChange n now mv) s = .next ((supplyRead s n now mv).supplyLost n) := by
  show execSupplyStateChange n now mv s = _
  simp only [execSupplyStateChange, if_neg h0, if_pos (leavesUp_iff.mpr hl), if_pos (show _ ∨ _ ∨ _ from hr), supplyRead]

theorem supplyChange_unused (hl : leavesUp s n now) (hr : ¬ lossActs s) :
    exec (.supplyStateChange n now mv) s = .next (supplyRead s n now mv) := by
  show execSupplyStateChange n now mv s = _
  simp only [execSupplyStateChange, if_neg h0, if_pos (leavesUp_iff.mpr hl), if_neg (show ¬(_ ∨ _ ∨ _) from hr), supplyRead]

theorem supplyChange_stays (hl : ¬ leavesUp s n now) :
    exec (.supplyStateChange n now mv) s = .next
      (if n.val = 8 ∧ now.val = 0 ∧ s.supplyUp n = false ∧ s.power.state = .full then (supplyRead s n now mv).t1lBack
        else supplyRead s n now mv) := by
  show execSupplyStateChange n now mv s = _
  simp only [execSupplyStateChange, if_neg h0, if_neg (mt leavesUp_iff.mp hl), supplyRead]

end Other
end Supply

/-! ### POWER_ORDER_BREACH (R594 to R597) -/

/-- The rail exists, and the shore domain is powered or the order is that of powering up. -/
def breachActs (s : State) (kind : Fin 4) (n : Fin 64) : Prop :=
  kind.val ≠ 0 ∧ (n.val < 9 ∨ 16 ≤ n.val ∧ n.val < 48) ∧ (s.power.state ≠ .dark ∨ kind.val = 3)

theorem put_order (kind : Fin 4) (n : Fin 64) : put 16 2 kind + put 10 6 n = 65536 * kind.val + 1024 * n.val := by
  simp only [put, Nat.shiftLeft_eq]
  omega

section Breach
variable {kind : Fin 4} {n : Fin 64}

theorem orderBreach_none (h : ¬ breachActs s kind n) : exec (.powerOrderBreach kind n) s = .next s := by
  show execPowerOrderBreach kind n s = _
  refine congrArg _ (if_pos ?_)
  unfold breachActs at h
  by_contra hno
  push Not at hno
  obtain ⟨hk, hgap, htop, hdark⟩ := hno
  exact h ⟨hk, by omega, Classical.or_iff_not_imp_left.mpr fun hd => hdark (not_not.mp hd)⟩

/-- The state that a breach finds: the first ORDER word stays, and a check under way has ended (R127, R595). -/
def breachFrom (s : State) (kind : Fin 4) (n : Fin 64) : State :=
  State.abortCheck { s with power.order := if s.power.breach then s.power.order else 65536 * kind.val + 1024 * n.val }

/-- A breach of the supply order: the work domain is held in reset, and the pins are let go. -/
def breached (u : State) : State := { u.intoReset 8 with power.breach := true, pin.hold := false, pin.held := [] }

theorem breached_power (u : State) : (breached u).power = { u.power with
    breach := true, inReset := true, source := 8, request := 0,
    previous := if u.power.inReset then u.power.previous else u.power.state, state := .light } := rfl

theorem breached_pin (u : State) : (breached u).pin = { u.pin with hold := false, held := [] } := rfl

theorem breached_tide (u : State) : (breached u).tide = { u.tide with runs := false, flights := [] } := rfl

theorem breached_gate (u : State) : (breached u).gate = u.gate := rfl

theorem orderBreach_acts (h : breachActs s kind n) :
    exec (.powerOrderBreach kind n) s = .next (breached (breachFrom s kind n).gatesPower) := by
  obtain ⟨hk, hrail, hdark⟩ := h
  have hacts : ¬(kind.val = 0 ∨ (9 ≤ n.val ∧ n.val < 16) ∨ 48 ≤ n.val ∨ (s.power.state = .dark ∧ kind.val ≠ 3)) := by
    rintro (h | h | h | ⟨hd, h3⟩)
    · exact hk h
    · omega
    · omega
    · exact hdark.elim (· hd) h3
  have hfirst (v : Nat) : (if s.power.breach then s else { s with power.order := v }) =
      { s with power.order := if s.power.breach then s.power.order else v } := by split <;> rfl
  show execPowerOrderBreach kind n s = _
  rw [execPowerOrderBreach, if_neg hacts, put_order, hfirst, breachFrom, breached]

end Breach

/-! ### Clocks (R600 to R602) and VDD_SHORE (R604) -/

/-- SHORE_XTAL is no part of what the work domain runs by. -/
theorem xtalLost_workRuns : ({ s with power.xtalOk := false } : State).workRuns = s.workRuns := rfl

theorem shoreXtalFail_fires (hw : s.workRuns = true) :
    exec .shoreXtalFail s = .next (State.fire { s with power.xtalOk := false } 369 0) := by
  show execShoreXtalFail s = _
  rw [execShoreXtalFail, State.fireLive, xtalLost_workRuns, if_pos hw]

theorem shoreXtalFail_silent (hw : s.workRuns = false) : exec .shoreXtalFail s = .next { s with power.xtalOk := false } := by
  show execShoreXtalFail s = _
  rw [execShoreXtalFail, State.fireLive, xtalLost_workRuns, if_neg (ne_true_of_eq_false hw)]

theorem workPllLoss_restarts (ref : Bool) (hw : s.workRuns = true) : exec (.workPllLoss ref) s = .next (s.pllLost ref) :=
  congrArg _ (if_pos hw)

theorem workPllLoss_none (ref : Bool) (hw : s.workRuns = false) : exec (.workPllLoss ref) s = .next s :=
  congrArg _ (if_neg (ne_true_of_eq_false hw))

theorem pllLost_refStays (s : State) : s.pllLost false = State.beginWarm
    { s with power.workLock := false, power.losses := min (s.power.losses + 1) 32767 } 11 := by
  have hsat : satAdd 15 s.power.losses 1 = min (s.power.losses + 1) 32767 := rfl
  rw [State.pllLost, Bool.not_false, Bool.and_true, hsat]

end Sys2Proof.Laws

namespace Sys2Proof.Proofs

/-- Settles O56: each clause is the case of that name of the commands above. -/
theorem powerCommandsAndSupplies : Obligations.PowerCommandsAndSupplies := by
  intro s bad st safe reset warm free
  refine ⟨fun hw => ?stands, fun hw hf => congrArg _ (powerOp_light hw hf), fun hw hf => congrArg _ (powerOp_light_badState hw hf),
    fun hw hl hg hs => ?full, fun hw h => congrArg _ (powerOp_full_badState hw (h.imp_right firmware_eq_false_iff.mpr)),
    fun hw hf hx => ?keep, fun hw h => ?keepBad, fun hw => ?restart, abortCheck_none, fun n now mv => ?supply, fun kind n => ?breach,
    fun u g => gateDown_stands, fun u g => gateDown_turnsOff, rfl, shoreXtalFail_fires, shoreXtalFail_silent,
    fun ref => ⟨workPllLoss_restarts ref, workPllLoss_none ref⟩, fun hd => congrArg _ (if_pos hd), fun hd => congrArg _ (if_neg hd)⟩
  case stands =>
    have none (cmd : Nat) : Host.Outcome.next (φ := Fault) (ρ := Refusal) (s.powerOp cmd) = .next s := congrArg _ (powerOp_stands cmd hw)
    exact ⟨none 1, none 2, none 3, none 4, none 5, none 6⟩
  case full =>
    have hop : s.powerOp 2 = s.enterFull := powerOp_full hw hl (firmware_iff.mpr ⟨hg, hs⟩)
    rw [State.enterFull, show s.power.state = .light from hl] at hop
    exact congrArg _ hop
  case keep =>
    obtain ⟨hkeep, hdeep⟩ := powerOp_keep hw hf (xtalSafe_eq_false_iff.mpr hx)
    exact ⟨congrArg _ hkeep, congrArg _ hdeep⟩
  case keepBad =>
    obtain ⟨hkeep, hdeep⟩ := powerOp_keep_badState hw (h.imp_right xtalSafe_iff.mpr)
    exact ⟨congrArg _ hkeep, congrArg _ hdeep⟩
  case restart =>
    obtain ⟨hwarm, hcold⟩ := powerOp_restart hw
    exact ⟨congrArg _ hwarm, congrArg _ hcold⟩
  case supply =>
    intro read runs leaves
    have lost (h0 : n.val ≠ 0) (hl : leaves) (hr : runs) : exec (.supplyStateChange n now mv) s = .next (read.supplyLost n) :=
      supplyChange_lost h0 hl hr
    refine ⟨fun h0 h => supplyChange_shore_reads h0 h, fun h0 hn hd => ?dark, fun h0 hl hr => supplyChange_unused h0 hl hr,
      fun h0 h8 hl => (supplyChange_stays h0 hl).trans (congrArg _ (if_neg fun h => h8 h.1)), fun h8 hl => ?back, fun hl hr => ?lost⟩
    case dark =>
      exact ⟨_, supplyChange_shore_dark h0 (not_or.mpr ⟨hn, hd⟩), gatesPower_power _, gatesPower_pin _, gatesPower_tide _⟩
    case back =>
      have hcond : (n.val = 8 ∧ now.val = 0 ∧ s.supplyUp n = false ∧ s.power.state = .full)
          ↔ (now.val = 0 ∧ (s.power.supplies.getD 8 (0, 0)).1 ≠ 0 ∧ st = .full) := by
        simp [State.supplyUp, h8, st]
      rw [supplyChange_stays (by omega) hl, if_congr hcond rfl rfl]
      rfl
    case lost =>
      refine ⟨fun h => ?_, fun h => ?_, fun h => ?_, fun h => ?_, fun h => ?_, fun h => ?_⟩
      · rw [lost (by omega) hl hr, h]; rfl
      · rw [lost (by omega) hl hr, h]; rfl
      · rw [lost (by omega) hl hr]
        obtain h | h := h <;> rw [h] <;> rfl
      · rw [lost (by omega) hl hr]
        obtain h | h := h <;> rw [h] <;> rfl
      · rw [lost (by omega) hl hr, h]
        exact congrArg _ (pllLost_refStays _)
      · rw [lost (by omega) hl hr, h]; rfl
  case breach =>
    intro acts
    refine ⟨orderBreach_none, fun h => ⟨_, orderBreach_acts h, ?_, ?_, ?_, breached_gate _⟩⟩
    · rw [breached_power, gatesPower_power]; rfl
    · rw [breached_pin, gatesPower_pin]; rfl
    · rw [breached_tide, gatesPower_tide]; rfl

end Sys2Proof.Proofs
end

section
/-! The Quay bridge (R479 to R487) and the service port (R488 to R490), and the obligation QuayAndService. -/

open Sys2Proof Sys2Proof.Machine Sys2Proof.Laws

namespace Sys2Proof.Laws

variable {s : State}

/-! ### QUAY_READ (R481, R484, R486) -/

section Read
variable {o : Fin 134217728} {n : Nat} {beats : List QBeat}

theorem quayRead_notFull (hf : s.full = false) : exec (.quayRead o n beats) s = .next (s.hostCa o) := by
  show execQuayRead o n beats s = _
  simp [execQuayRead, hf]

section Full
variable (hf : s.full = true)
include hf

theorem quayRead_unmapped (hm : s.quayMapped o = false) : exec (.quayRead o n beats) s = .next (s.hostUr o false) := by
  show execQuayRead o n beats s = _
  simp [execQuayRead, hf, hm]

theorem quayRead_waits (hm : s.quayMapped o = true) (hp : s.quay.posts ≠ []) (hh : (beats.headD QBeat.plain).halt = false) :
    exec (.quayRead o n beats) s = .next s := by
  show execQuayRead o n beats s = _
  simp only [execQuayRead, hf, hm, if_pos (And.intro hp hh)]
  rfl

end Full

/-- The read goes: nothing posted is before it, or a HALT ends it. -/
def readGoes (s : State) (o : Fin 134217728) (beats : List QBeat) : Prop :=
  s.full = true ∧ s.quayMapped o = true ∧ (s.quay.posts = [] ∨ (beats.headD QBeat.plain).halt = true)

/-- The beats of a read that goes. -/
def readRun (s : State) (o : Fin 134217728) (n : Nat) (beats : List QBeat) : State × List Nat × Option (Nat × Nat) :=
  let u := (s.enterWords 1 n true).quayLockStart
  u.quayRun (u.quayLimit (fld o 26 24)) true (quayBeats (s.quayWide (fld o 26 24)) o (List.replicate n 0)) beats

/-- What the far bus has shown of a read. -/
def readShown (s : State) (o : Fin 134217728) (n : Nat) (beats : List QBeat) : State :=
  (readRun s o n beats).1.emit .quay (fld o 26 24) [0, fld o 23 0, (readRun s o n beats).2.1.length]

/-- The answer to a read whose beats end in `failure`. -/
def readAnswer (s : State) (o : Fin 134217728) (n : Nat) (beats : List QBeat) : Option (Nat × Nat) → State
  | none => (readShown s o n beats).hostWords (quayWords (s.quayWide (fld o 26 24)) n (readRun s o n beats).2.1)
  | some (c, far) =>
    let f := (readShown s o n beats).quayFail c 0 (fld o 26 24) far
    if bit (f.cfg 0x0B010) 34 then f.hostCa o
    else f.hostWords (quayWords (s.quayWide (fld o 26 24)) n (readRun s o n beats).2.1)

theorem quayRead_answers (hg : readGoes s o beats) {r : Option (Nat × Nat)} (hr : (readRun s o n beats).2.2 = r) :
    exec (.quayRead o n beats) s = .next (readAnswer s o n beats r) := by
  subst hr
  obtain ⟨hf, hm, hp⟩ := hg
  have hno : ¬(s.quay.posts ≠ [] ∧ (beats.headD QBeat.plain).halt = false) := by
    rintro ⟨hne, hh⟩
    exact hp.elim hne (ne_true_of_eq_false hh)
  show execQuayRead o n beats s = _
  simp only [execQuayRead, hf, hm, if_neg hno]
  rfl

end Read

/-! ### QUAY_POSTED_WRITE and QUAY_WRITE_BURST (R481, R484, R486) -/

section Write
variable {o : Fin 134217728} {ws : List Word}

theorem quayPostedWrite_notFull (hf : s.full = false) : exec (.quayPostedWrite o ws) s = .next (s.hostDrop o) := by
  show execQuayPostedWrite o ws s = _
  simp [execQuayPostedWrite, hf]

section Full
variable (hf : s.full = true)
include hf

theorem quayPostedWrite_unmapped (hm : s.quayMapped o = false) : exec (.quayPostedWrite o ws) s = .next (s.hostUr o true) := by
  show execQuayPostedWrite o ws s = _
  simp [execQuayPostedWrite, hf, hm]

theorem quayPostedWrite_waits (hm : s.quayMapped o = true) (hr : 1024 < (s.quay.posts.map fun p => p.2.length).sum + ws.length) :
    exec (.quayPostedWrite o ws) s = .next s := by
  show execQuayPostedWrite o ws s = _
  simp [execQuayPostedWrite, hf, hm, hr]

theorem quayPostedWrite_queues (hm : s.quayMapped o = true) (hr : (s.quay.posts.map fun p => p.2.length).sum + ws.length ≤ 1024) :
    exec (.quayPostedWrite o ws) s = .next { s.enterWords 1 ws.length false with quay.posts := s.quay.posts ++ [(o.val, ws)] } := by
  show execQuayPostedWrite o ws s = _
  simp only [execQuayPostedWrite, hf, hm, if_neg (Nat.not_lt.mpr hr)]
  rfl

end Full

theorem quayWriteBurst_none {beats : List QBeat} (hp : s.quay.posts = []) : exec (.quayWriteBurst beats) s = .next s := by
  show execQuayWriteBurst beats s = _
  simp only [execQuayWriteBurst, hp]

/-- The beats of the oldest posted write. -/
def burstRun (s : State) (o : Nat) (ws : List Word) (rest : List (Nat × List Word)) (beats : List QBeat) :
    State × List Nat × Option (Nat × Nat) :=
  let u : State := State.quayLockStart { s with quay.posts := rest }
  u.quayRun (u.quayLimit (fld o 26 24)) true (quayBeats (s.quayWide (fld o 26 24)) o ws) beats

/-- What the far bus has shown of the oldest posted write. -/
def burstShown (s : State) (o : Nat) (ws : List Word) (rest : List (Nat × List Word)) (beats : List QBeat) : State :=
  (burstRun s o ws rest beats).1.emit .quay (fld o 26 24) ([1, fld o 23 0] ++
    ((quayBeats (s.quayWide (fld o 26 24)) o ws).take (burstRun s o ws rest beats).2.1.length).map Prod.snd)

section Runs
variable {beats : List QBeat} {o : Nat} {rest : List (Nat × List Word)} (hp : s.quay.posts = (o, ws) :: rest)
include hp

theorem quayWriteBurst_ends (hr : (burstRun s o ws rest beats).2.2 = none) :
    exec (.quayWriteBurst beats) s = .next (burstShown s o ws rest beats).quayLockEnd := by
  unfold burstShown
  unfold burstRun at hr ⊢
  show execQuayWriteBurst beats s = _
  simp only [execQuayWriteBurst, hp, hr]

theorem quayWriteBurst_fails {c far : Nat} (hr : (burstRun s o ws rest beats).2.2 = some (c, far)) :
    exec (.quayWriteBurst beats) s = .next ((burstShown s o ws rest beats).quayFail c 1 (fld o 26 24) far).quayLockEnd := by
  unfold burstShown
  unfold burstRun at hr ⊢
  show execQuayWriteBurst beats s = _
  simp only [execQuayWriteBurst, hp, hr]

end Runs
end Write

/-! ### The lock (R485), DRAIN and HALT (R487) -/

theorem qlockOff_none (h : s.host.qlock = false) : s.qlockOff = s := by simp [State.qlockOff, h]

theorem qlockOff_ends (h : s.host.qlock = true) (hp : s.quay.posts = []) :
    s.qlockOff = { s with host.qlock := false, quay.locked := false, quay.lockLeft := none } := by
  simp [State.qlockOff, h, hp]

theorem qlockOff_waits (h : s.host.qlock = true) (hp : s.quay.posts ≠ []) :
    s.qlockOff = { s with host.qlock := false, quay.lockLeft := some s.quay.posts.length } := by
  simp [State.qlockOff, h, hp]

theorem quayLockTimeout_none (h : s.quay.locked = false) : exec .quayLockTimeout s = .next s :=
  congrArg _ (if_neg (ne_true_of_eq_false h))

theorem quayLockTimeout_ends (h : s.quay.locked = true) : exec .quayLockTimeout s = .next
    ((State.bump { s.draw.1 with quay.locked := false, quay.lockLeft := none, host.qlock := false } 0x0B015 3).quayLog 3
      (s.draw.2 % 2) (s.draw.2 / 2 % 8) (s.draw.2 / 16)) := congrArg _ (if_pos h)

theorem quayDrainDone_off (hd : s.quay.state = .drain) (hp : s.quay.posts = []) :
    exec .quayDrainDone s = .next { s with quay.state := .off, quay.locked := false, quay.lockLeft := none } :=
  congrArg _ (if_pos ⟨hd, hp⟩)

theorem quayDrainDone_none (h : s.quay.state ≠ .drain ∨ s.quay.posts ≠ []) : exec .quayDrainDone s = .next s :=
  congrArg _ (if_neg (not_and_or.mpr h))

theorem quayHalt_badState (h : s.quay.state = .off) : exec .quayHalt s = .next (s.abort 0x0B013 aBadState) :=
  congrArg _ (if_pos h)

theorem quayHalt_halts (h : s.quay.state ≠ .off) : exec .quayHalt s = .next s.quayHaltOp := congrArg _ (if_neg h)

/-! ### The service port (R488 to R490) -/

theorem svcOpen_iff : s.svcOpen = true ↔ s.workRuns = true ∧ s.fold.lifecycle ≠ 4 := by simp [State.svcOpen]

theorem svcStatus_eq (s : State) : s.svcStatus = 131072 * (if s.svc.rsp = [] then 0 else 1)
    + 65536 * (if 8192 ≤ (s.svc.req.map List.length).sum then 1 else 0) + (s.svc.rsp.headD []).length % 8192 := by
  have hready : putB 17 s.svcIntLow = 131072 * (if s.svc.rsp = [] then 0 else 1) := by
    rw [State.svcIntLow]
    cases hr : s.svc.rsp <;> simp [putB]
  have hfull : putB 16 (decide (8192 ≤ (s.svc.req.map List.length).sum)) =
      65536 * (if 8192 ≤ (s.svc.req.map List.length).sum then 1 else 0) := by
    simp only [putB, decide_eq_true_iff]
    split <;> rfl
  rw [State.svcStatus, hready, hfull]
  rfl

/-- A packet whose words nothing answers reads idle words (R489). -/
def svcIdle (s : State) (n : Nat) : State := s.svcMiso (List.replicate n 0x1FFFF)

section Closed
variable (hc : ¬ s.svcOpen = true)
include hc

theorem msgWrite_closed (ws : List Word) (e : SvcEnd) : exec (.msgWrite ws e) s = .next s := by
  show execMsgWrite ws e s = _
  simp [execMsgWrite, hc]

theorem imageWrite_closed (ws : List Word) (e : SvcEnd) : exec (.imageWrite ws e) s = .next s := by
  show execImageWrite ws e s = _
  simp [execImageWrite, hc]

theorem msgRead_closed (n : Nat) (e : SvcEnd) : exec (.msgRead n e) s = .next s := by
  show execMsgRead n e s = _
  simp [execMsgRead, hc]

theorem reservedServiceCommand_closed : exec .reservedServiceCommand s = .next s := congrArg _ (if_neg hc)

end Closed

section Open
variable (ho : s.svcOpen = true)
include ho

theorem reservedServiceCommand_drops : exec .reservedServiceCommand s = .next (s.svcMiso []).svcDrop := by
  show execReservedServiceCommand s = _
  rw [execReservedServiceCommand, if_pos ho]

section Words
variable {ws : List Word} {e : SvcEnd}

theorem msgWrite_drops (hl : ws.length < 7 ∨ 4608 < ws.length) : exec (.msgWrite ws e) s = .next (s.svcMiso []).svcDrop := by
  show execMsgWrite ws e s = _
  simp only [execMsgWrite, ho, Bool.not_true, Bool.false_eq_true, if_false, if_pos hl]

section Sized
variable (h7 : 7 ≤ ws.length) (hmax : ws.length ≤ 4608)
include h7 hmax

/-- A packet of a message's length is shifted in; one that arrives whole is queued, or answered BUSY. -/
theorem msgWrite_shifts : exec (.msgWrite ws e) s = .next
    (let r := (svcIdle s ws.length).svcEnd e
     if e.whole = false then r
     else if 8192 < (r.svc.req.map List.length).sum + ws.length then
       (r.bump 0x0B020 2).reply 3 0 ({ tagHead (ws.getD 1 0).toNat with abort := aBusy }.words [])
     else { r.bump 0x0B020 0 with svc.req := r.svc.req ++ [ws] }) := by
  have hlen : ¬(ws.length < 7 ∨ 4608 < ws.length) := by omega
  show execMsgWrite ws e s = _
  simp only [execMsgWrite, ho, Bool.not_true, Bool.false_eq_true, if_false, if_neg hlen, Bool.not_eq_true']
  rfl

theorem msgWrite_cut (hw : e.whole = false) : exec (.msgWrite ws e) s = .next ((svcIdle s ws.length).svcEnd e) :=
  (msgWrite_shifts ho h7 hmax).trans (congrArg _ (if_pos hw))

theorem msgWrite_queues (hw : e.whole = true)
    (hr : (((svcIdle s ws.length).svcEnd e).svc.req.map List.length).sum + ws.length ≤ 8192) :
    exec (.msgWrite ws e) s = .next { ((svcIdle s ws.length).svcEnd e).bump 0x0B020 0 with
      svc.req := ((svcIdle s ws.length).svcEnd e).svc.req ++ [ws] } :=
  (msgWrite_shifts ho h7 hmax).trans
    (congrArg _ ((if_neg (ne_false_of_eq_true hw)).trans (if_neg (Nat.not_lt.mpr hr))))

theorem msgWrite_busy (hw : e.whole = true)
    (hr : 8192 < (((svcIdle s ws.length).svcEnd e).svc.req.map List.length).sum + ws.length) :
    exec (.msgWrite ws e) s = .next ((((svcIdle s ws.length).svcEnd e).bump 0x0B020 2).reply 3 0
      ({ tagHead (ws.getD 1 0).toNat with abort := aBusy }.words [])) :=
  (msgWrite_shifts ho h7 hmax).trans (congrArg _ ((if_neg (ne_false_of_eq_true hw)).trans (if_pos hr)))

end Sized

theorem imageWrite_drops (hl : ws.length = 0 ∨ 4608 < ws.length) : exec (.imageWrite ws e) s = .next (s.svcMiso []).svcDrop := by
  show execImageWrite ws e s = _
  simp only [execImageWrite, ho, Bool.not_true, Bool.false_eq_true, if_false, if_pos hl]

section Sized
variable (h0 : 0 < ws.length) (hmax : ws.length ≤ 4608)
include h0 hmax

/-- A packet of an image's length is shifted in; of whole blocks it holds at most 8, since 9 are longer than a packet. -/
theorem imageWrite_shifts : exec (.imageWrite ws e) s = .next
    (let r := (svcIdle s ws.length).svcEnd e
     if e.whole = false then r
     else if ws.length % 515 = 0 then (r.bump 0x0B020 0).imageFrames (ws.map BitVec.toNat) (ws.length / 515)
     else r.bump 0x0F009 1) := by
  have hlen : ¬(ws.length = 0 ∨ 4608 < ws.length) := by omega
  have hblocks : (ws.length % 515 ≠ 0 ∨ 8 < ws.length / 515) ↔ ¬ ws.length % 515 = 0 := by omega
  show execImageWrite ws e s = _
  simp only [execImageWrite, ho, Bool.not_true, Bool.false_eq_true, if_false, if_neg hlen, Bool.not_eq_true', hblocks, ite_not]
  rfl

theorem imageWrite_cut (hw : e.whole = false) : exec (.imageWrite ws e) s = .next ((svcIdle s ws.length).svcEnd e) :=
  (imageWrite_shifts ho h0 hmax).trans (congrArg _ (if_pos hw))

theorem imageWrite_counts (hw : e.whole = true) (hb : ¬ ws.length % 515 = 0) :
    exec (.imageWrite ws e) s = .next (((svcIdle s ws.length).svcEnd e).bump 0x0F009 1) :=
  (imageWrite_shifts ho h0 hmax).trans (congrArg _ ((if_neg (ne_false_of_eq_true hw)).trans (if_neg hb)))

theorem imageWrite_takes (hw : e.whole = true) (hb : ws.length % 515 = 0) :
    exec (.imageWrite ws e) s = .next
      ((((svcIdle s ws.length).svcEnd e).bump 0x0B020 0).imageFrames (ws.map BitVec.toNat) (ws.length / 515)) :=
  (imageWrite_shifts ho h0 hmax).trans (congrArg _ ((if_neg (ne_false_of_eq_true hw)).trans (if_pos hb)))

end Sized
end Words

section Read
variable {n : Nat} {e : SvcEnd}

/-- What a read that takes nothing leaves. -/
def svcNothing (s : State) (n : Nat) (e : SvcEnd) : State :=
  if e.whole then ((svcIdle s n).svcEnd e).bump 0x0B020 0 else (svcIdle s n).svcEnd e

theorem msgRead_drops (hn : 4608 < n) : exec (.msgRead n e) s = .next (s.svcMiso []).svcDrop := by
  show execMsgRead n e s = _
  simp only [execMsgRead, ho, Bool.not_true, Bool.false_eq_true, if_false, if_pos hn]

section Sized
variable (hn : n ≤ 4608)
include hn

theorem msgRead_none (hr : s.svc.rsp = []) : exec (.msgRead n e) s = .next (svcNothing s n e) := by
  show execMsgRead n e s = _
  simp only [execMsgRead, ho, Bool.not_true, Bool.false_eq_true, if_false, if_neg (Nat.not_lt.mpr hn), hr]
  rfl

variable {m : List Word} {l : List (List Word)} (hr : s.svc.rsp = m :: l)
include hr

theorem msgRead_otherLength (hne : n ≠ m.length) : exec (.msgRead n e) s = .next (svcNothing s n e) := by
  show execMsgRead n e s = _
  simp only [execMsgRead, ho, Bool.not_true, Bool.false_eq_true, if_false, if_neg (Nat.not_lt.mpr hn), hr, if_neg hne]
  rfl

theorem msgRead_cut (hm : n = m.length) (hw : e.whole = false) :
    exec (.msgRead n e) s = .next ((s.svcMiso (m.map BitVec.toNat)).svcEnd e) := by
  show execMsgRead n e s = _
  simp only [execMsgRead, ho, Bool.not_true, Bool.false_eq_true, if_false, if_neg (Nat.not_lt.mpr hn), hr, if_pos hm, hw]

theorem msgRead_takes (hm : n = m.length) (hw : e.whole = true) :
    exec (.msgRead n e) s = .next { ((s.svcMiso (m.map BitVec.toNat)).svcEnd e).bump 0x0B020 0 with svc.rsp := l } := by
  show execMsgRead n e s = _
  simp only [execMsgRead, ho, Bool.not_true, Bool.false_eq_true, if_false, if_neg (Nat.not_lt.mpr hn), hr, if_pos hm, hw]
  rfl

end Sized
end Read
end Open
end Sys2Proof.Laws

namespace Sys2Proof.Proofs

/-- Settles O50: each clause is the case of that name of the commands above. -/
theorem quayAndService : Obligations.QuayAndService := by
  intro s
  refine ⟨fun o n beats => ?read, fun o ws => ?posted, fun beats => ⟨quayWriteBurst_none, fun o ws rest hp => ?burst⟩, rfl, rfl,
    qlockOff_none, qlockOff_ends, qlockOff_waits, quayLockTimeout_none, fun h => ⟨_, _, _, quayLockTimeout_ends h⟩, quayDrainDone_off,
    quayDrainDone_none, quayHalt_badState, quayHalt_halts, ?service⟩
  case read =>
    exact ⟨quayRead_notFull, quayRead_unmapped, quayRead_waits, fun hg hr => quayRead_answers hg hr, fun c far hg hr =>
      ⟨fun hb => (quayRead_answers hg hr).trans (congrArg _ (if_pos hb)),
        fun hb => (quayRead_answers hg hr).trans (congrArg _ (if_neg (ne_true_of_eq_false hb)))⟩⟩
  case posted =>
    exact ⟨quayPostedWrite_notFull, quayPostedWrite_unmapped, quayPostedWrite_waits, quayPostedWrite_queues⟩
  case burst =>
    intro cs bs u run t
    exact ⟨quayWriteBurst_ends hp, fun c far hr => quayWriteBurst_fails hp hr⟩
  case service =>
    rw [← svcStatus_eq]
    refine ⟨fun hc => ?closed, fun ho => ?open_⟩
    case closed =>
      replace hc := mt svcOpen_iff.mp hc
      exact ⟨fun ws e => ⟨msgWrite_closed hc ws e, imageWrite_closed hc ws e⟩, msgRead_closed hc, reservedServiceCommand_closed hc⟩
    case open_ =>
      replace ho := svcOpen_iff.mpr ho
      exact ⟨reservedServiceCommand_drops ho,
        fun ws e => ⟨msgWrite_drops ho, fun h7 hmax => ⟨msgWrite_cut ho h7 hmax, msgWrite_queues ho h7 hmax, msgWrite_busy ho h7 hmax⟩,
          imageWrite_drops ho, imageWrite_cut ho,
          fun h0 hmax hw => ⟨imageWrite_counts ho h0 hmax hw, imageWrite_takes ho h0 hmax hw⟩⟩,
        fun n e => ⟨msgRead_drops ho, msgRead_none ho, fun m l hn hr => msgRead_otherLength ho hn hr,
          fun m l hn hr hm => ⟨msgRead_cut ho hn hr hm, msgRead_takes ho hn hr hm⟩⟩⟩

end Sys2Proof.Proofs
end

section
/-! The Tally (R506 to R515) and trace (R516 to R519), and the obligation TallyAndTrace. -/

open Sys2Proof Sys2Proof.Machine Sys2Proof.Laws

namespace Sys2Proof.Laws

variable {s : State}

/-! ### TALLY_RECORD_WRITE (R508) -/

theorem tallyRecordWrite_none (h : s.tally.backlog = [] ∨ s.workRuns = false ∨ s.ledgerRoom 4 = false) :
    exec .tallyRecordWrite s = .next s := by
  show execTallyRecordWrite s = _
  unfold execTallyRecordWrite State.bellRuns
  split
  · rfl
  · rfl
  · next r l hq hw =>
    have hroom : s.ledgerRoom 4 = false := by simpa [hq, hw] using h
    simp [hroom]

/-- The state in which the oldest waiting record has been written. -/
def recWritten (s : State) (r : Rec) (l : List Rec) : State :=
  ((State.repeatWrite { s with tally.backlog := l }).enterWords 4 r.len false).writeRec r

section Record
variable {r : Rec} {l : List Rec} (hw : s.workRuns = true) (hroom : s.ledgerRoom 4 = true) (hq : s.tally.backlog = r :: l)
include hw hroom hq

theorem tallyRecordWrite_writes : exec .tallyRecordWrite s = .next
    (if r.partner then recWritten s r l else (recWritten s r l).addItem ((put 14 4 4 + put 0 14 r.len) :: r.toWords)) := by
  show execTallyRecordWrite s = _
  simp only [execTallyRecordWrite, State.bellRuns, hq, hw, hroom, Bool.not_true, Bool.false_eq_true, if_false]
  rfl

end Record

/-- A record that fits its block, with no failing word, takes the next words of it, and an end word where the block has room. -/
theorem writeRec_fits {r : Rec} (hbad : s.tally.bad = []) (hfit : s.tally.word + r.toWords.length ≤ 2048) :
    s.writeRec r = { s.bump 0x0D002 0 with
      tally.mram := Tab.setList 0 s.tally.mram (s.tally.block * 2048 + s.tally.word)
        ((if s.tally.word + r.toWords.length < 2048 then r.toWords ++ [0] else r.toWords).map (BitVec.ofNat 18))
      tally.word := s.tally.word + r.toWords.length
      tally.lastAt := s.tally.block * 2048 + s.tally.word } := by
  rw [State.writeRec, if_neg (Nat.not_lt.mpr hfit), hbad]
  rfl

/-! ### A raised REPEAT (R512): TALLY_REPEAT_WRITE and TALLY_FLUSH -/

theorem repeatWrite_none (h : s.tally.repDirty = false) : s.repeatWrite = s := by simp [State.repeatWrite, h]

/-- The accesses of class TALLY change the ledger alone, so the record is the one that the Tally held before them. -/
theorem repeatWrite_rewrites {q : Rec} (hd : s.tally.repDirty = true) (hl : s.tally.last = some q) :
    s.repeatWrite = { (s.enterWords 4 4 true).enterWords 4 4 false with
      tally.repDirty := false
      tally.mram := Tab.setList 0 s.tally.mram s.tally.lastAt (q.toWords.map (BitVec.ofNat 18)) } := by
  obtain ⟨lin, hin⟩ := enterWords_ledger s 4 4 true
  obtain ⟨lout, hout⟩ := enterWords_ledger { s with ledger := lin } 4 4 false
  rw [State.repeatWrite, if_pos hd, hin, hout, State.flushRepeat, if_pos hd]
  simp only [hl]

/-- The two commands that write a raised REPEAT. -/
theorem repeatCommand {c : Instr} (hc : c = .tallyRepeatWrite ∨ c = .tallyFlush) :
    exec c s = .next (if s.workRuns then s.repeatWrite else s) := by
  obtain rfl | rfl := hc <;> rfl

/-! ### TALLY_OVERRUN_QUEUE (R514) and TALLY_CLEAR (R524) -/

theorem tallyOverrunQueue_none (h : s.workRuns = false ∨ 4096 < s.backlogFill) : exec .tallyOverrunQueue s = .next s := by
  show execTallyOverrunQueue s = _
  rw [execTallyOverrunQueue, if_pos]
  simpa [State.bellRuns] using h

theorem tallyOverrunQueue_queues (hw : s.workRuns = true) (hf : s.backlogFill ≤ 4096) :
    exec .tallyOverrunQueue s = .next (s.tally.lost.foldl (fun s p =>
      (State.tally_ { s with tally.lost := Tab.set 0 s.tally.lost p.1 0 } 3 ([p.1] ++ words36 p.2)).fire 1 p.1) s) := by
  show execTallyOverrunQueue s = _
  rw [execTallyOverrunQueue, if_neg]
  simpa [State.bellRuns, hw] using hf

theorem tallyClear_none (hw : s.workRuns = false) : exec .tallyClear s = .next s :=
  congrArg _ (if_neg (ne_true_of_eq_false hw))

/-- Every block ends after its header. -/
def blocksEnded (s : State) : State :=
  { s with tally.mram := (List.range 256).foldl (fun m b => Tab.set 0 m (b * 2048 + 4) 0) s.tally.mram, tally.repDirty := false }

theorem beginBlock_startCause (s : State) (b : Nat) : (s.beginBlock b).tally.startCause = s.tally.startCause := rfl

theorem tallyClear_eq (s : State) : s.tallyClear =
    ((blocksEnded s).beginBlock (nextBlock s.tally.retired s.tally.block)).startRecord
      (fld s.tally.startCause 38 36) (fld s.tally.startCause 35 18) (fld s.tally.startCause 17 0) := by
  simp only [State.tallyClear, blocksEnded, beginBlock_startCause]

theorem tallyClear_clears (hw : s.workRuns = true) : exec .tallyClear s = .next s.tallyClear := congrArg _ (if_pos hw)

/-! ### TRACE_RECORD_WRITE (R516, R519) -/

theorem traceRecordWrite_none (h : s.trace.buffer = [] ∨ s.traceOn = false) : exec .traceRecordWrite s = .next s := by
  show execTraceRecordWrite s = _
  unfold execTraceRecordWrite
  split
  · rfl
  · next r l hq =>
    have hoff : s.traceOn = false := by simpa [hq] using h
    simp [hoff]

/-- A record that the trace pen could not take: the first of a run fires. -/
theorem traceDrop_eq (s : State) : s.traceDrop =
    if s.trace.lostRun = 0 then State.fire { s.bump 0x0D012 1 with trace.lostRun := s.trace.lostRun + 1 } 3 0
    else { s.bump 0x0D012 1 with trace.lostRun := s.trace.lostRun + 1 } := by
  simp only [State.traceDrop, beq_iff_eq]

section Trace
variable {r : List Word} {l : List (List Word)} (hq : s.trace.buffer = r :: l)
include hq

theorem traceRecordWrite_waits (hroom : s.ledgerRoom (recClass r) = false) : exec .traceRecordWrite s = .next s := by
  show execTraceRecordWrite s = _
  simp [execTraceRecordWrite, hq, hroom]

/-- What the trace pen makes of the record. -/
def traceIn (s : State) (r : List Word) (l : List (List Word)) : State × Bool :=
  (State.enterPen { s with trace.buffer := l } (recClass r) (fld (s.cfg 0x0D010) 11 0) r.length true).penPacketIn
    (fld (s.cfg 0x0D010) 11 0) r

variable (hon : s.traceOn = true) (hroom : s.ledgerRoom (recClass r) = true)
include hon hroom

theorem traceRecordWrite_held (hs : s.classSafe 2 (recClass r) = true) :
    exec .traceRecordWrite s = .next (State.traceDrop { s with trace.buffer := l }) := by
  show execTraceRecordWrite s = _
  simp [execTraceRecordWrite, hq, hon, hroom, hs]

theorem traceRecordWrite_enters (hs : s.classSafe 2 (recClass r) = false) : exec .traceRecordWrite s = .next
    (if (traceIn s r l).2 then (traceIn s r l).1.traceDrop else (traceIn s r l).1.bump 0x0D012 0) := by
  show execTraceRecordWrite s = _
  simp only [execTraceRecordWrite, traceIn, hq, hon, hroom, hs, Bool.not_true, Bool.or_false, Bool.false_eq_true, if_false]
  split
  · next t heq => simp [heq]
  · next t heq => simp [heq]

end Trace
end Sys2Proof.Laws

namespace Sys2Proof.Proofs

/-- Settles O52: each clause is the case of that name of the commands above. -/
theorem tallyAndTrace : Obligations.TallyAndTrace := by
  intro s
  refine ⟨tallyRecordWrite_none, fun r l hw hroom hq => ?record, fun r hbad hfit => writeRec_fits hbad hfit, fun c hc => ?rewrite,
    fun hw => ?both, tallyOverrunQueue_none, tallyOverrunQueue_queues, rfl, ⟨tallyClear_none, fun hw => ?clear⟩, fun _ _ _ => rfl,
    traceRecordWrite_none, fun r l => traceRecordWrite_waits, fun r l hq hon hroom => ?trace⟩
  case record =>
    have hex := tallyRecordWrite_writes hw hroom hq
    exact ⟨fun hp => hex.trans (congrArg _ (if_pos hp)), fun hp => hex.trans (congrArg _ (if_neg (ne_true_of_eq_false hp)))⟩
  case rewrite =>
    refine ⟨fun h => ?_, fun q hw hd hl => ?_⟩
    · rw [repeatCommand hc]
      obtain hw | hd := h
      · rw [if_neg (ne_true_of_eq_false hw)]
      · rw [repeatWrite_none hd, ite_self]
    · rw [repeatCommand hc, if_pos hw, repeatWrite_rewrites hd hl]
  case both =>
    exact ⟨(repeatCommand (.inl rfl)).trans (congrArg _ (if_pos hw)), (repeatCommand (.inr rfl)).trans (congrArg _ (if_pos hw))⟩
  case clear => exact (tallyClear_clears hw).trans (congrArg _ (tallyClear_eq s))
  case trace =>
    intro cls u p w drop
    have hdrop (x : State) : x.traceDrop = drop x := traceDrop_eq x
    exact ⟨fun hs => (traceRecordWrite_held hq hon hroom hs).trans (congrArg _ (hdrop u)),
      fun hs ht => (traceRecordWrite_enters hq hon hroom hs).trans (congrArg _ (if_neg (ne_true_of_eq_false ht))),
      fun hs ht => (traceRecordWrite_enters hq hon hroom hs).trans (congrArg _ ((if_pos ht).trans (hdrop w.1)))⟩

end Sys2Proof.Proofs
end

section
/-! The canonical form of the stores of words (R174, R191, R506) over a step, and the obligation StoresStayCanonical. -/

open Sys2Proof Sys2Proof.Machine Sys2Proof.Laws

namespace Sys2Proof.Laws

/-! ### What a command keeps -/

/-- Every command but the end of a life-cycle burn answers a state that has what Kept lists of the state before it. -/
theorem exec_kept (c : Instr) (s : State) (h : ∀ straps bad, c ≠ .lifecycleBurnDone straps bad) :
    ∃ t, exec c s = .next t ∧ Kept s t := by
  have hk := Kept.refl s
  cases c with
  | turn => exact keeps_execTurn s hk
  | noTidePeriod => exact keeps_execNoTidePeriod s hk
  | tileWake tile off => exact keeps_execTileWake tile off s hk
  | tileDark tile off => exact keeps_execTileDark tile off s hk
  | tileRedark tile off => exact keeps_execTileRedark tile off s hk
  | wait sl idx => exact keeps_execWait sl idx s hk
  | move sl idx => exact keeps_execMove sl idx s hk
  | carry sl idx => exact keeps_execCarry sl idx s hk
  | push sl idx => exact keeps_execPush sl idx s hk
  | fetch sl idx => exact keeps_execFetch sl idx s hk
  | store sl idx => exact keeps_execStore sl idx s hk
  | drvWr sl idx => exact keeps_execDrvWr sl idx s hk
  | drvRd sl idx => exact keeps_execDrvRd sl idx s hk
  | pinIn sl idx => exact keeps_execPinIn sl idx s hk
  | pinOut sl idx => exact keeps_execPinOut sl idx s hk
  | cellTx sl idx => exact keeps_execCellTx sl idx s hk
  | pairTx sl idx => exact keeps_execPairTx sl idx s hk
  | cellRx sl idx => exact keeps_execCellRx sl idx s hk
  | pairRx sl idx => exact keeps_execPairRx sl idx s hk
  | penRd sl idx => exact keeps_execPenRd sl idx s hk
  | penWr sl idx => exact keeps_execPenWr sl idx s hk
  | busLoad sl idx => exact keeps_execBusLoad sl idx s hk
  | frameTx sl idx => exact keeps_execFrameTx sl idx s hk
  | digest sl idx => exact keeps_execDigest sl idx s hk
  | reservedOpcodeStroke sl idx => exact keeps_execReservedOpcodeStroke sl idx s hk
  | uplandRefresh ch off completed => exact keeps_execUplandRefresh ch off completed s hk
  | uplandCommandRetry ch off ok => exact keeps_execUplandCommandRetry ch off ok s hk
  | ledgerBlockStart => exact keeps_execLedgerBlockStart s hk
  | ledgerStageGrant rcls inst off => exact keeps_execLedgerStageGrant rcls inst off s hk
  | ledgerOverdue cls => exact keeps_execLedgerOverdue cls s hk
  | scrubRead unit off => exact keeps_execScrubRead unit off s hk
  | scrubWriteBack off => exact keeps_execScrubWriteBack off s hk
  | poisonMarkWrite off => exact keeps_execPoisonMarkWrite off s hk
  | tableOpen => exact keeps_execTableOpen s hk
  | tableCheck => exact keeps_execTableCheck s hk
  | tableArm => exact keeps_execTableArm s hk
  | tableDisarm => exact keeps_execTableDisarm s hk
  | tableDiscard => exact keeps_execTableDiscard s hk
  | tableCheckDone elapsed => exact keeps_execTableCheckDone elapsed s hk
  | shepherdWatchdog core => exact keeps_execShepherdWatchdog core s hk
  | shepherdRestartDone => exact keeps_execShepherdRestartDone s hk
  | clearLine upland addr => exact keeps_execClearLine upland addr s hk
  | penAccessRead pen => exact keeps_execPenAccessRead pen s hk
  | penAccessWrite pen words ends posted => exact keeps_execPenAccessWrite pen words ends posted s hk
  | flush pen => exact keeps_execFlush pen s hk
  | penHalt pen => exact keeps_execPenHalt pen s hk
  | markBad pen => exact keeps_execMarkBad pen s hk
  | penDrainDone pen => exact keeps_execPenDrainDone pen s hk
  | br d off sense test => exact keeps_execBr d off sense test s hk
  | hold d off sense test => exact keeps_execHold d off sense test s hk
  | shin d off sense test => exact keeps_execShin d off sense test s hk
  | shout d off sense test => exact keeps_execShout d off sense test s hk
  | latch d off sense test => exact keeps_execLatch d off sense test s hk
  | take d off sense test => exact keeps_execTake d off sense test s hk
  | copy d off sense test => exact keeps_execCopy d off sense test s hk
  | put_ d off sense test => exact keeps_execPut d off sense test s hk
  | step_ d off sense test => exact keeps_execStep d off sense test s hk
  | edge d off sense test => exact keeps_execEdge d off sense test s hk
  | flag d off sense test => exact keeps_execFlag d off sense test s hk
  | halt d off sense test => exact keeps_execHalt d off sense test s hk
  | undefinedDroverOpcode d off sense test => exact keeps_execUndefinedDroverOpcode d off sense test s hk
  | droveStoreUncorrectable d off sense test => exact keeps_execDroveStoreUncorrectable d off sense test s hk
  | droverClockEdge d off sense test => exact keeps_execDroverClockEdge d off sense test s hk
  | drvRun d => exact keeps_execDrvRun d s hk
  | drvStop d => exact keeps_execDrvStop d s hk
  | drvRestart d => exact keeps_execDrvRestart d s hk
  | droveCopy drove => exact keeps_execDroveCopy drove s hk
  | droveCopyDone drove => exact keeps_execDroveCopyDone drove s hk
  | exchange drove mask carry => exact keeps_execExchange drove mask carry s hk
  | exchangeCancel drove => exact keeps_execExchangeCancel drove s hk
  | droveRegisterWrite drove w value => exact keeps_execDroveRegisterWrite drove w value s hk
  | droveStoreWrite drove a value => exact keeps_execDroveStoreWrite drove a value s hk
  | vioStateChange bank vio => exact keeps_execVioStateChange bank vio s hk
  | bankReturnToService bank => exact keeps_execBankReturnToService bank s hk
  | pinCapture pin rise off => exact keeps_execPinCapture pin rise off s hk
  | filterOutputChange pin level => exact keeps_execFilterOutputChange pin level s hk
  | beaconArm b => exact keeps_execBeaconArm b s hk
  | beaconStop b => exact keeps_execBeaconStop b s hk
  | beaconEdge b off => exact keeps_execBeaconEdge b off s hk
  | busIntegrated ch => exact keeps_execBusIntegrated ch s hk
  | busFrameStart ch off => exact keeps_execBusFrameStart ch off s hk
  | busFrameTxEnd ch outcome => exact keeps_execBusFrameTxEnd ch outcome s hk
  | busFrameReceived ch own esi frame back => exact keeps_execBusFrameReceived ch own esi frame back s hk
  | busProtocolViolation ch format rise => exact keeps_execBusProtocolViolation ch format rise s hk
  | busRxRecordWrite ch => exact keeps_execBusRxRecordWrite ch s hk
  | busTbPenFetch ch tb => exact keeps_execBusTbPenFetch ch tb s hk
  | busRecoverDelayExpiry ch => exact keeps_execBusRecoverDelayExpiry ch s hk
  | busRecoveryDone ch => exact keeps_execBusRecoveryDone ch s hk
  | busDrainDone ch => exact keeps_execBusDrainDone ch s hk
  | busRecover ch => exact keeps_execBusRecover ch s hk
  | busHalt ch => exact keeps_execBusHalt ch s hk
  | busAbortTb ch tb => exact keeps_execBusAbortTb ch tb s hk
  | ethFrameReceived port bytes bad back => exact keeps_execEthFrameReceived port bytes bad back s hk
  | bestEffortFrameStart port off => exact keeps_execBestEffortFrameStart port off s hk
  | portTxPenFetch port => exact keeps_execPortTxPenFetch port s hk
  | portSettleDone port => exact keeps_execPortSettleDone port s hk
  | portLinkUp port ampl => exact keeps_execPortLinkUp port ampl s hk
  | portLinkLost port => exact keeps_execPortLinkLost port s hk
  | portLanePllLoss port => exact keeps_execPortLanePllLoss port s hk
  | portLocalFault port => exact keeps_execPortLocalFault port s hk
  | localFaultEnd port => exact keeps_execLocalFaultEnd port s hk
  | remoteFaultReceived port lasts => exact keeps_execRemoteFaultReceived port lasts s hk
  | portDrainDone port => exact keeps_execPortDrainDone port s hk
  | portHalt port => exact keeps_execPortHalt port s hk
  | portCalibrate port => exact keeps_execPortCalibrate port s hk
  | portRestart port => exact keeps_execPortRestart port s hk
  | fdbAgeExpiry vid mac => exact keeps_execFdbAgeExpiry vid mac s hk
  | tunnelRepathHoldExpiry node => exact keeps_execTunnelRepathHoldExpiry node s hk
  | ringScheduledCell link beat slot cell check => exact keeps_execRingScheduledCell link beat slot cell check s hk
  | unscheduledCellTransit link cell check beat slot => exact keeps_execUnscheduledCellTransit link cell check beat slot s hk
  | transitCellSend link beat slot => exact keeps_execTransitCellSend link beat slot s hk
  | linkFault link => exact keeps_execLinkFault link s hk
  | trainOk link protect => exact keeps_execTrainOk link protect s hk
  | delayProbe link ta => exact keeps_execDelayProbe link ta s hk
  | delayEcho link ta rt => exact keeps_execDelayEcho link ta rt s hk
  | ringLinkSettleDone link => exact keeps_execRingLinkSettleDone link s hk
  | ringLinkTrained link polarity swapped => exact keeps_execRingLinkTrained link polarity swapped s hk
  | ringTrainingTimeout link => exact keeps_execRingTrainingTimeout link s hk
  | ringBlockLockLost link => exact keeps_execRingBlockLockLost link s hk
  | ringBlockLockAcquired link => exact keeps_execRingBlockLockAcquired link s hk
  | ringLanePllLoss link => exact keeps_execRingLanePllLoss link s hk
  | retrainHoldExpiry link => exact keeps_execRetrainHoldExpiry link s hk
  | ringHalt link => exact keeps_execRingHalt link s hk
  | ringCalibrate link => exact keeps_execRingCalibrate link s hk
  | retrain link => exact keeps_execRetrain link s hk
  | topology station link up counter => exact keeps_execTopology station link up counter s hk
  | tunnel dir cell check => exact keeps_execTunnel dir cell check s hk
  | seal_ link tag tide => exact keeps_execSeal link tag tide s hk
  | sealLimitExpiry link => exact keeps_execSealLimitExpiry link s hk
  | malformedSlot link data => exact keeps_execMalformedSlot link data s hk
  | reservedCell link cell check => exact keeps_execReservedCell link cell check s hk
  | musterHello link src epoch => exact keeps_execMusterHello link src epoch s hk
  | claim dir src claimw part nonce hops wrapped => exact keeps_execClaim dir src claimw part nonce hops wrapped s hk
  | standin dir src claimw part nonce epoch hops wrapped => exact keeps_execStandin dir src claimw part nonce epoch hops wrapped s hk
  | roster src claimw west d epoch => exact keeps_execRoster src claimw west d epoch s hk
  | set link src epoch resume p first start stations => exact keeps_execSet link src epoch resume p first start stations s hk
  | join src epoch => exact keeps_execJoin src epoch s hk
  | reject link src reason => exact keeps_execReject link src reason s hk
  | remuster src epoch => exact keeps_execRemuster src epoch s hk
  | remusterCmd => exact keeps_execRemusterCmd s hk
  | tide src epoch claimw acting f p => exact keeps_execTide src epoch claimw acting f p s hk
  | round src n => exact keeps_execRound src n s hk
  | consent src n => exact keeps_execConsent src n s hk
  | veto src n need => exact keeps_execVeto src n need s hk
  | commit link src n ebbAt => exact keeps_execCommit link src n ebbAt s hk
  | cancel link src n reason vetoer => exact keeps_execCancel link src n reason vetoer s hk
  | flood src beacons => exact keeps_execFlood src beacons s hk
  | startRound => exact keeps_execStartRound s hk
  | cancelRound => exact keeps_execCancelRound s hk
  | claimListenExpiry => exact keeps_execClaimListenExpiry s hk
  | electLimitExpiry => exact keeps_execElectLimitExpiry s hk
  | claimRepeatExpiry => exact keeps_execClaimRepeatExpiry s hk
  | joinRepeatExpiry => exact keeps_execJoinRepeatExpiry s hk
  | tideMasterLoss => exact keeps_execTideMasterLoss s hk
  | roundLimitExpiry => exact keeps_execRoundLimitExpiry s hk
  | roundIntervalExpiry => exact keeps_execRoundIntervalExpiry s hk
  | ebbAtReached => exact keeps_execEbbAtReached s hk
  | floodQuietExpiry => exact keeps_execFloodQuietExpiry s hk
  | floodBeaconExpiry => exact keeps_execFloodBeaconExpiry s hk
  | wakePatternRepeatExpiry link => exact keeps_execWakePatternRepeatExpiry link s hk
  | beaconLimitExpiry station => exact keeps_execBeaconLimitExpiry station s hk
  | resumeWaitExpiry => exact keeps_execResumeWaitExpiry s hk
  | resumeLimitExpiry => exact keeps_execResumeLimitExpiry s hk
  | wakeInput active => exact keeps_execWakeInput active s hk
  | wakePatternDetected link => exact keeps_execWakePatternDetected link s hk
  | sync link src wrapped hops m at16 residence => exact keeps_execSync link src wrapped hops m at16 residence s hk
  | report src d dstate offset rate gm cls steps => exact keeps_execReport src d dstate offset rate gm cls steps s hk
  | announce src d valid port m => exact keeps_execAnnounce src d valid port m s hk
  | syncPreTideExpiry => exact keeps_execSyncPreTideExpiry s hk
  | syncLossTides => exact keeps_execSyncLossTides s hk
  | holdoverLimitExpiry => exact keeps_execHoldoverLimitExpiry s hk
  | revertHoldExpiry => exact keeps_execRevertHoldExpiry s hk
  | domainSyncLoss d => exact keeps_execDomainSyncLoss d s hk
  | domainReportLoss d => exact keeps_execDomainReportLoss d s hk
  | ptpSyncIntervalExpiry d port off => exact keeps_execPtpSyncIntervalExpiry d port off s hk
  | announceIntervalExpiry d => exact keeps_execAnnounceIntervalExpiry d s hk
  | ptpSync m twoStep => exact keeps_execPtpSync m twoStep s hk
  | ptpFollowUp m => exact keeps_execPtpFollowUp m s hk
  | ptpDelayReq m => exact keeps_execPtpDelayReq m s hk
  | ptpDelayResp m => exact keeps_execPtpDelayResp m s hk
  | ptpPdelayReq m => exact keeps_execPtpPdelayReq m s hk
  | ptpPdelayResp m twoStep => exact keeps_execPtpPdelayResp m twoStep s hk
  | ptpPdelayRespFollowUp m => exact keeps_execPtpPdelayRespFollowUp m s hk
  | ptpAnnounce m a utc path => exact keeps_execPtpAnnounce m a utc path s hk
  | ptpManagement m => exact keeps_execPtpManagement m s hk
  | ptpMalformed port => exact keeps_execPtpMalformed port s hk
  | timeSet at_ => exact keeps_execTimeSet at_ s hk
  | switch => exact keeps_execSwitch s hk
  | claimFrameStart => exact keeps_execClaimFrameStart s hk
  | claimFrameReceived claim next crc good turned => exact keeps_execClaimFrameReceived claim next crc good turned s hk
  | claimInSilence => exact keeps_execClaimInSilence s hk
  | pairHello node unit st claim image f fw => exact keeps_execPairHello node unit st claim image f fw s hk
  | aloneWaitExpiry => exact keeps_execAloneWaitExpiry s hk
  | pairDigest f entries => exact keeps_execPairDigest f entries s hk
  | pairDigestSend => exact keeps_execPairDigestSend s hk
  | selfcheckDone signature => exact keeps_execSelfcheckDone signature s hk
  | selfcheck pass f signature => exact keeps_execSelfcheck pass f signature s hk
  | mirror seq words => exact keeps_execMirror seq words s hk
  | pairCommit seq count crc fk => exact keeps_execPairCommit seq count crc fk s hk
  | pairAck seq => exact keeps_execPairAck seq s hk
  | nak seq => exact keeps_execNak seq s hk
  | partnerSilence => exact keeps_execPartnerSilence s hk
  | swap => exact keeps_execSwap s hk
  | rejoin => exact keeps_execRejoin s hk
  | confirm => exact keeps_execConfirm s hk
  | resync => exact keeps_execResync s hk
  | read m => exact keeps_execRead m s hk
  | write m => exact keeps_execWrite m s hk
  | writeVerify m => exact keeps_execWriteVerify m s hk
  | readBulk m => exact keeps_execReadBulk m s hk
  | writeBulk m => exact keeps_execWriteBulk m s hk
  | subscribe m => exact keeps_execSubscribe m s hk
  | unsubscribe m => exact keeps_execUnsubscribe m s hk
  | notify n leaves => exact keeps_execNotify n leaves s hk
  | describe m => exact keeps_execDescribe m s hk
  | pointRead m => exact keeps_execPointRead m s hk
  | pointWrite m => exact keeps_execPointWrite m s hk
  | challenge m => exact keeps_execChallenge m s hk
  | open_ m => exact keeps_execOpen m s hk
  | close m => exact keeps_execClose m s hk
  | blobRead m => exact keeps_execBlobRead m s hk
  | blobWrite m => exact keeps_execBlobWrite m s hk
  | dictMalformedRequest path source words packing => exact keeps_execDictMalformedRequest path source words packing s hk
  | relayedResponse relay abort pend dflt body => exact keeps_execRelayedResponse relay abort pend dflt body s hk
  | relayTimeout relay => exact keeps_execRelayTimeout relay s hk
  | blobGapExpiry entry => exact keeps_execBlobGapExpiry entry s hk
  | sessionIdleExpiry n => exact keeps_execSessionIdleExpiry n s hk
  | nonceExpiry path source => exact keeps_execNonceExpiry path source s hk
  | arpRequest address asker => exact keeps_execArpRequest address asker s hk
  | icmpEchoRequest address asker payload => exact keeps_execIcmpEchoRequest address asker payload s hk
  | resetGroup group => exact keeps_execResetGroup group s hk
  | clearDefaulted group => exact keeps_execClearDefaulted group s hk
  | closeAll => exact keeps_execCloseAll s hk
  | bar2Read addr n full => exact keeps_execBar2Read addr n full s hk
  | bar2Write addr words full ep => exact keeps_execBar2Write addr words full ep s hk
  | reqData w => exact keeps_execReqData w s hk
  | reqEnd => exact keeps_execReqEnd s hk
  | reqAbort => exact keeps_execReqAbort s hk
  | rspData => exact keeps_execRspData s hk
  | rspFlush => exact keeps_execRspFlush s hk
  | intStatusClear mask enable => exact keeps_execIntStatusClear mask enable s hk
  | qlock on => exact keeps_execQlock on s hk
  | bar0UnmappedAccess offset write => exact keeps_execBar0UnmappedAccess offset write s hk
  | msiXTableWrite vector dword value => exact keeps_execMsiXTableWrite vector dword value s hk
  | tideInterrupt => exact keeps_execTideInterrupt s hk
  | pcieReset linkDown => exact keeps_execPcieReset linkDown s hk
  | pcieLinkUp speed width => exact keeps_execPcieLinkUp speed width s hk
  | quayRead offset n beats => exact keeps_execQuayRead offset n beats s hk
  | quayPostedWrite offset words => exact keeps_execQuayPostedWrite offset words s hk
  | quayWriteBurst beats => exact keeps_execQuayWriteBurst beats s hk
  | quayLockTimeout => exact keeps_execQuayLockTimeout s hk
  | quayDrainDone => exact keeps_execQuayDrainDone s hk
  | quayHalt => exact keeps_execQuayHalt s hk
  | msgWrite words e => exact keeps_execMsgWrite words e s hk
  | msgRead len e => exact keeps_execMsgRead len e s hk
  | imageWrite words e => exact keeps_execImageWrite words e s hk
  | reservedServiceCommand => exact keeps_execReservedServiceCommand s hk
  | bellFiring src inst detail => exact keeps_execBellFiring src inst detail s hk
  | bellWindowTick => exact keeps_execBellWindowTick s hk
  | bellCompareMismatch => exact keeps_execBellCompareMismatch s hk
  | bellAck src session path => exact keeps_execBellAck src session path s hk
  | bellForce src inst => exact keeps_execBellForce src inst s hk
  | ackAll session path => exact keeps_execAckAll session path s hk
  | tallyRecordWrite => exact keeps_execTallyRecordWrite s hk
  | tallyRepeatWrite => exact keeps_execTallyRepeatWrite s hk
  | tallyOverrunQueue => exact keeps_execTallyOverrunQueue s hk
  | ophoursStore => exact keeps_execOphoursStore s hk
  | tallyFlush => exact keeps_execTallyFlush s hk
  | tallyClear => exact keeps_execTallyClear s hk
  | traceRecordWrite => exact keeps_execTraceRecordWrite s hk
  | foldTamper cause vbat => exact keeps_execFoldTamper cause vbat s hk
  | foldRootDraw => exact keeps_execFoldRootDraw s hk
  | vbatLowExpiry vbat => exact keeps_execVbatLowExpiry vbat s hk
  | installClear a target fill payload => exact keeps_execInstallClear a target fill payload s hk
  | installSigned a target fill payload => exact keeps_execInstallSigned a target fill payload s hk
  | installWrapped a slot target fill payload => exact keeps_execInstallWrapped a slot target fill payload s hk
  | derive a slot target fill payload => exact keeps_execDerive a slot target fill payload s hk
  | deriveRoot a target fill payload => exact keeps_execDeriveRoot a target fill payload s hk
  | erase a target => exact keeps_execErase a target s hk
  | sign a slot payload => exact keeps_execSign a slot payload s hk
  | verify a slot payload => exact keeps_execVerify a slot payload s hk
  | lifecycle a payload => exact keeps_execLifecycle a payload s hk
  | otpWrite a target payload => exact keeps_execOtpWrite a target payload s hk
  | revoke a target => exact keeps_execRevoke a target s hk
  | foldOpDone => exact keeps_execFoldOpDone s hk
  | trngHealthFail => exact keeps_execTrngHealthFail s hk
  | trngHealthRecover => exact keeps_execTrngHealthRecover s hk
  | lifecycleBurnDone straps bad => exact absurd rfl (h straps bad)
  | updateBlock frame => exact keeps_execUpdateBlock frame s hk
  | updateDiscard => exact keeps_execUpdateDiscard s hk
  | updateCheck => exact keeps_execUpdateCheck s hk
  | updateCheckDone => exact keeps_execUpdateCheckDone s hk
  | schedule => exact keeps_execSchedule s hk
  | unschedule id => exact keeps_execUnschedule id s hk
  | profileSelect n => exact keeps_execProfileSelect n s hk
  | profileStore n => exact keeps_execProfileStore n s hk
  | storeStaging n => exact keeps_execStoreStaging n s hk
  | profileErase n => exact keeps_execProfileErase n s hk
  | profileCommandDone => exact keeps_execProfileCommandDone s hk
  | gateSeated g m => exact keeps_execGateSeated g m s hk
  | gateUnseated g a b => exact keeps_execGateUnseated g a b s hk
  | seatDebounceExpiry g => exact keeps_execSeatDebounceExpiry g s hk
  | gateStart g m => exact keeps_execGateStart g m s hk
  | prechargeDone g m => exact keeps_execPrechargeDone g m s hk
  | turnOnDone g m => exact keeps_execTurnOnDone g m s hk
  | pgoodDelayExpiry g => exact keeps_execPgoodDelayExpiry g s hk
  | preTimeExpiry g => exact keeps_execPreTimeExpiry g s hk
  | mainTimeExpiry g => exact keeps_execMainTimeExpiry g s hk
  | slowCurrentTrip g m => exact keeps_execSlowCurrentTrip g m s hk
  | fastCurrentTrip g => exact keeps_execFastCurrentTrip g s hk
  | fetHotTrip g m => exact keeps_execFetHotTrip g m s hk
  | railWindowExit g m => exact keeps_execRailWindowExit g m s hk
  | cooldownExpiry g m => exact keeps_execCooldownExpiry g m s hk
  | fetCooled g m => exact keeps_execFetCooled g m s hk
  | retryResetExpiry g => exact keeps_execRetryResetExpiry g s hk
  | gateDamageDetected g m => exact keeps_execGateDamageDetected g m s hk
  | gateOn g => exact keeps_execGateOn g s hk
  | gateOff g => exact keeps_execGateOff g s hk
  | gateReset g => exact keeps_execGateReset g s hk
  | clearDamaged g clear => exact keeps_execClearDamaged g clear s hk
  | supplyStateChange supply st mv => exact keeps_execSupplyStateChange supply st mv s hk
  | powerOrderBreach kind supply => exact keeps_execPowerOrderBreach kind supply s hk
  | shoreXtalFail => exact keeps_execShoreXtalFail s hk
  | workPllLoss ref => exact keeps_execWorkPllLoss ref s hk
  | vddShoreUp => exact keeps_execVddShoreUp s hk
  | resetNAsserted => exact keeps_execResetNAsserted s hk
  | resetNRelease straps bad => exact keeps_execResetNRelease straps bad s hk
  | warmNRelease straps bad => exact keeps_execWarmNRelease straps bad s hk
  | deepAfterExpiry => exact keeps_execDeepAfterExpiry s hk
  | junctionHotThreshold tj => exact keeps_execJunctionHotThreshold tj s hk
  | junctionLimitThreshold tj => exact keeps_execJunctionLimitThreshold tj s hk
  | thermalTrip tj => exact keeps_execThermalTrip tj s hk
  | junctionThresholdClear k tj => exact keeps_execJunctionThresholdClear k tj s hk
  | coldStart straps bad => exact keeps_execColdStart straps bad s hk
  | warmRestart straps bad => exact keeps_execWarmRestart straps bad s hk
  | deepKeepExit straps bad => exact keeps_execDeepKeepExit straps bad s hk
  | floodFromKeep bad => exact keeps_execFloodFromKeep bad s hk
  | powerLight => exact keeps_execPowerLight s hk
  | powerFull => exact keeps_execPowerFull s hk
  | powerKeep => exact keeps_execPowerKeep s hk
  | powerDeepKeep => exact keeps_execPowerDeepKeep s hk
  | powerWarm => exact keeps_execPowerWarm s hk
  | powerCold => exact keeps_execPowerCold s hk

/-- The end of a burn changes the life cycle (R549), which no store depends on. -/
theorem lifecycleBurnDone_storesWf {straps : Fin 64} {bad : Fin 16} {s t : State} (hwf : s.storesWf)
    (he : exec (.lifecycleBurnDone straps bad) s = .next t) : t.storesWf := by
  obtain ⟨u, hu, hk⟩ | ⟨lc, u, -, hu, hk⟩ := keeps_execLifecycleBurnDone straps bad s (Kept.refl s)
  · cases hu.symm.trans he
    exact storesWf_of_kept hwf hk
  · cases hu.symm.trans he
    exact storesWf_of_kept (s := { s with fold.lifecycle := lc, fold.burning := none }) hwf hk

theorem exec_storesWf {c : Instr} {s t : State} (hwf : s.storesWf) (he : exec c s = .next t) : t.storesWf := by
  by_cases hb : ∃ straps bad, c = .lifecycleBurnDone straps bad
  · obtain ⟨straps, bad, rfl⟩ := hb
    exact lifecycleBurnDone_storesWf hwf he
  · obtain ⟨u, hu, hk⟩ := exec_kept c s fun straps bad hc => hb ⟨straps, bad, hc⟩
    cases hu.symm.trans he
    exact storesWf_of_kept hwf hk

theorem tick_storesWf {s : State} (hwf : s.storesWf) : s.tick.storesWf := storesWf_of_kept hwf (keeps_tick s (Kept.refl s))

/-! ### The two kinds of step -/

theorem step_of_pending_nil {s : State} (h : s.pending = []) : step s = .next s.tick := by simp only [step, h]

theorem step_of_pending_cons {s : State} {c : Instr} {rest : List Instr} (h : s.pending = c :: rest) :
    step s = exec c { s with pending := rest } := by simp only [step, h]

end Sys2Proof.Laws

namespace Sys2Proof.Proofs

/-- Settles O3: a step is a tick of time or a command on the queue's rest, and either keeps the stores' form. -/
theorem storesStayCanonical : Obligations.StoresStayCanonical := by
  intro s t hwf hstep
  cases hp : s.pending with
  | nil =>
    cases (step_of_pending_nil hp).symm.trans hstep
    exact tick_storesWf hwf
  | cons c rest =>
    exact exec_storesWf (s := { s with pending := rest }) hwf ((step_of_pending_cons hp).symm.trans hstep)

end Sys2Proof.Proofs
end

section
/-! The state after reset (log entry 8), and the obligations ResetStoresCanonical and ResetValues. -/

open Sys2Proof Sys2Proof.Machine Sys2Proof.Laws

namespace Sys2Proof.Laws

/-! ### Its stores of words -/

/-- A store that lists nothing is canonical. -/
theorem wf_nil {α : Type} [DecidableEq α] {d : α} : Tab.wf d [] = true := rfl

/-- The MRAM lists word 0 of block 0, its MAGIC, and word 2, of its SEQ 1 (R506). -/
theorem reset_mram_wf : Tab.wf 0 State.reset.tally.mram = true := by decide

/-- Both tiers and the pen pool list nothing at reset. -/
theorem reset_storesWf : State.reset.storesWf := ⟨wf_nil, wf_nil, wf_nil, reset_mram_wf⟩

theorem burnOk_of_not_burning {s : State} (h : s.fold.burning = none) : s.burnOk := fun v hv => by simp [h] at hv

/-! ### The values a cold start leaves -/

/-- R174: a line of either tier. -/
theorem reset_line (up : Bool) (L : Nat) : State.reset.line up L = Line.fresh := by cases up <;> rfl

/-- No setting is listed, so each reads as its default. -/
theorem reset_cfg (e sub : Nat) : State.reset.cfg e sub = defaultOf e sub := rfl

theorem reset_session (n : Nat) : State.reset.session n = Session.none := rfl

/-- R579: a gate is DISABLED. -/
theorem reset_gateAt (g : Nat) : State.reset.gateAt g = Gate.blank := rfl

/-- R348: the four ring links and the pair link settle. -/
theorem reset_link {l : Nat} (h : l < 5) : State.reset.link l = RLink.starts := by
  interval_cases l <;> rfl

theorem reset_port (p : Nat) : State.reset.port p = Port.blank := rfl

theorem reset_supplyUp {n : Nat} (h : n < 9) : State.reset.supplyUp n = true := by
  interval_cases n <;> rfl

end Sys2Proof.Laws

namespace Sys2Proof.Proofs

/-- Settles O4: all but the MRAM list nothing, and the MRAM's two words stand in order. -/
theorem resetStoresCanonical : Obligations.ResetStoresCanonical :=
  ⟨reset_storesWf, burnOk_of_not_burning rfl, rfl⟩

/-- Settles O58: what a store lists or leaves out at reset, and the fields of each unit's reset. -/
theorem resetValues : Obligations.ResetValues := by
  refine ⟨reset_line, reset_cfg, ?startFull, rfl, reset_session, fun _ => rfl, ?gates, rfl, rfl, rfl, rfl, rfl, rfl, ?links, ?ports,
    rfl, fun _ => reset_supplyUp, rfl, rfl⟩
  case startFull => rw [reset_cfg]; decide
  case gates => exact fun g => congrArg Gate.state (reset_gateAt g)
  case links => exact fun l hl => congrArg RLink.state (reset_link hl)
  case ports => exact fun p => congrArg Port.state (reset_port p)

end Sys2Proof.Proofs
end

section
/-! FLUSH, PEN_HALT, MARK_BAD and PEN_DRAIN_DONE (R194 to R204), and the obligation PenCommands. -/

open Sys2Proof Sys2Proof.Machine Sys2Proof.Laws

namespace Sys2Proof.Laws

/-! ### The pointer check (R194) -/

/-- PEN_POINTER_RESET: a pen whose copies disagree is cleared, counted and reported, and stays in its state. -/
def penPointerReset (s : State) (p : Nat) : State :=
  (((s.setPen p (s.penAt p).clear).penFall p).bumpFld 0x03105 p 8 0).fire 80 p

section Check
variable {s : State} {p : Nat}

theorem penCheck_agrees (ha : (s.penAt p).agrees = true) : s.penCheck p = (s, false) := if_pos ha

theorem penCheck_differs (ha : (s.penAt p).agrees = false) : s.penCheck p = (penPointerReset s p, true) :=
  if_neg (ne_true_of_eq_false ha)

/-! ### Flushing and halting a pen (R201, R202) -/

/-- A pen emptied: RD and WR stand at CM, and the rest of an open packet or of a partial item is to be discarded. -/
def penEmptied (x : Pen) (packet : Bool) : Pen :=
  { (x.setRd x.cm).setWr x.cm with discard := x.opened || (!packet && x.words != 0) }

theorem penFlush_agrees (ha : (s.penAt p).agrees = true) :
    s.penFlush p = ((s.setPen p (penEmptied (s.penAt p) (s.penPacket p))).bumpFld 0x03105 p 17 9).penFall p := by
  simp only [State.penFlush, penCheck_agrees ha, Bool.false_eq_true, if_false, penEmptied]

theorem penFlush_differs (ha : (s.penAt p).agrees = false) : s.penFlush p = penPointerReset s p := by
  simp only [State.penFlush, penCheck_differs ha, if_true]

theorem penHaltOp_agrees (ha : (s.penAt p).agrees = true) :
    s.penHaltOp p = (s.penFlush p).setPen p { (s.penFlush p).penAt p with state := .off } := if_pos ha

theorem penHaltOp_differs (ha : (s.penAt p).agrees = false) : s.penHaltOp p = penPointerReset s p := by
  rw [State.penHaltOp, if_neg (ne_true_of_eq_false ha), penCheck_differs ha]

/-! ### A packet or a partial item marked bad (R197) -/

/-- A packet is open, or in stream mode an item is begun. -/
def penBegun (s : State) (p : Nat) : Bool :=
  (s.penPacket p && (s.penAt p).opened) || (!s.penPacket p && (s.penAt p).words != 0)

theorem penBegun_iff : penBegun s p = true ↔ if s.penPacket p then (s.penAt p).opened = true else (s.penAt p).words ≠ 0 := by
  unfold penBegun
  cases s.penPacket p <;> simp

theorem penBegun_eq_false_iff :
    penBegun s p = false ↔ if s.penPacket p then (s.penAt p).opened = false else (s.penAt p).words = 0 := by
  unfold penBegun
  cases s.penPacket p <;> simp

theorem penBad_differs (ha : (s.penAt p).agrees = false) : s.penBad p = penPointerReset s p := by
  simp only [State.penBad, penCheck_differs ha, Bool.true_or, if_true]

theorem penBad_rewinds (ha : (s.penAt p).agrees = true) (ho : (s.penAt p).state ≠ .off) (hd : (s.penAt p).discard = false)
    (hb : penBegun s p = true) : s.penBad p =
      (s.setPen p { (s.penAt p).setWr (s.penAt p).cm with opened := false, words := 0 }).bumpFld 0x03105 p 26 18 := by
  rw [penBegun] at hb
  simp only [State.penBad, penCheck_agrees ha, hd, ho, hb, decide_false, Bool.or_self, Bool.false_eq_true, if_false, if_true]

theorem penBad_stands (ha : (s.penAt p).agrees = true)
    (h : (s.penAt p).state = .off ∨ (s.penAt p).discard = true ∨ penBegun s p = false) : s.penBad p = s := by
  rw [penBegun] at h
  rcases h with h | h | h <;>
    simp only [State.penBad, penCheck_agrees ha, h, decide_true, Bool.or_true, Bool.true_or, Bool.false_eq_true, if_true, if_false,
      ite_self]

end Check

/-! ### The commands -/

section Commands
variable {s : State} {p : Fin 4096}

theorem flush_off (h : (s.penAt p).state = .off) : exec (.flush p) s = .next s := congrArg _ (if_pos h)

theorem flush_flushes (h : (s.penAt p).state ≠ .off) : exec (.flush p) s = .next (s.penFlush p) := congrArg _ (if_neg h)

theorem penHalt_off (h : (s.penAt p).state = .off) : exec (.penHalt p) s = .next s := congrArg _ (if_pos h)

theorem penHalt_halts (h : (s.penAt p).state ≠ .off) : exec (.penHalt p) s = .next (s.penHaltOp p) := congrArg _ (if_neg h)

theorem markBad_bad : exec (.markBad p) s = .next (s.penBad p) := rfl

theorem penDrainDone_off (hs : (s.penAt p).state = .drain) (hf : (s.penAt p).fill (s.penSize p) = 0)
    (hd : (s.penAt p).opened = false ∨ (s.penAt p).discard = true) :
    exec (.penDrainDone p) s = .next (s.setPen p { s.penAt p with state := .off }) := congrArg _ (if_pos ⟨hs, hf, hd⟩)

theorem penDrainDone_stands (h : ¬((s.penAt p).state = .drain ∧ (s.penAt p).fill (s.penSize p) = 0
    ∧ ((s.penAt p).opened = false ∨ (s.penAt p).discard = true))) : exec (.penDrainDone p) s = .next s := congrArg _ (if_neg h)

end Commands
end Sys2Proof.Laws

namespace Sys2Proof.Proofs

/-- Settles O22: each command by what the pointer check finds, and then by the pen's state. -/
theorem penCommands : Obligations.PenCommands := by
  refine ⟨fun p s ho ha => ?empties, fun p s ho => ⟨flush_off ho, penHalt_off ho⟩,
    fun p s ha ho hd hb => ?rewinds, fun p s ha h => ?stands,
    fun p s ha => ⟨fun ho => ?resets, ?badResets⟩, fun p s => penDrainDone_off,
    fun p s h => penDrainDone_stands ?drains⟩
  case empties =>
    rw [flush_flushes ho, penHalt_halts ho, penHaltOp_agrees ha, penFlush_agrees ha]
    exact ⟨rfl, rfl⟩
  case rewinds => rw [markBad_bad, penBad_rewinds ha ho hd (penBegun_iff.mpr hb)]
  case stands => rw [markBad_bad, penBad_stands ha (h.imp_right (Or.imp_right penBegun_eq_false_iff.mpr))]
  case resets =>
    rw [flush_flushes ho, penHalt_halts ho, penFlush_differs ha, penHaltOp_differs ha]
    exact ⟨rfl, rfl⟩
  case badResets =>
    rw [markBad_bad, penBad_differs ha]
    rfl
  case drains =>
    rintro ⟨hs, hf, hd⟩
    rcases h with h | h | ⟨hopen, hnot⟩
    · exact h hs
    · exact h hf
    · simp [hopen, hnot] at hd

end Sys2Proof.Proofs
end

section
/-! Reads of a pen in OFF and writes to it (R203, log 108), and the obligation PenOffReadsAndWrites. -/

open Sys2Proof Sys2Proof.Machine Sys2Proof.Laws

namespace Sys2Proof.Laws

/-- What a write to a pen in OFF counts and fires leaves the pens as they are. -/
theorem penOverflow_pen (s : State) (p : Nat) : (s.penOverflow p).pen = s.pen :=
  (fires_fire (s.bumpFld 0x03105 p 35 27) 81 p 0 false (Fires.refl _)).pen

/-! ### Words and fields -/

/-- R154: HELD takes the place of every better quality. -/
theorem worst_held {q : Nat} (hq : q < 4) : worst q qHeld = if q = 3 then 3 else 1 := by
  interval_cases q <;> rfl

theorem wq_ofNat (v : Nat) : wq (BitVec.ofNat 18 v) = v / 65536 % 4 := by
  simp only [wq, fld, BitVec.toNat_ofNat, Nat.shiftRight_eq_div_pow]
  omega

theorem wp_ofNat (v : Nat) : wp (BitVec.ofNat 18 v) = v % 65536 := by
  simp only [wp, fld, BitVec.toNat_ofNat, Nat.shiftRight_zero]
  omega

/-- The word of a setting with its quality made no better than HELD. -/
theorem worsen_ofNat_held (v : Nat) :
    worsen (BitVec.ofNat 18 v) qHeld = BitVec.ofNat 18 ((if v / 65536 % 4 = 3 then 3 else 1) * 65536 + v % 65536) := by
  rw [worsen, wq_ofNat, wp_ofNat, worst_held (Nat.mod_lt _ (by decide))]
  refine congrArg (BitVec.ofNat 18) ?_
  simp only [put, Nat.shiftLeft_eq]
  split <;> omega

/-- A field that was replaced reads as what was put there. -/
theorem fld_setFld (v hi lo n : Nat) : fld (setFld v hi lo n) hi lo = n % 2 ^ (hi + 1 - lo) := by
  simp only [setFld, fld, Nat.shiftRight_eq_div_pow, Nat.shiftLeft_eq]
  generalize 2 ^ (hi + 1 - lo) = w
  have hkept : v - v / 2 ^ lo % w * 2 ^ lo = v % 2 ^ lo + 2 ^ lo * (w * (v / 2 ^ lo / w)) := by
    refine Nat.sub_eq_of_eq_add ?_
    calc v = v % 2 ^ lo + 2 ^ lo * (v / 2 ^ lo) := (Nat.mod_add_div v (2 ^ lo)).symm
      _ = v % 2 ^ lo + 2 ^ lo * (v / 2 ^ lo % w + w * (v / 2 ^ lo / w)) := by
        rw [Nat.mod_add_div (v / 2 ^ lo) w]
      _ = _ := by ring
  have hlow : v % 2 ^ lo < 2 ^ lo := Nat.mod_lt _ (by positivity)
  rw [hkept, Nat.mul_comm (n % w), Nat.add_assoc, ← Nat.mul_add, Nat.add_mul_div_left _ _ (by positivity), Nat.div_eq_of_lt hlow,
    Nat.zero_add, Nat.mul_add_mod, Nat.mod_mod]

/-- A field of a counting entry after it has counted once more. -/
theorem bumpFld_count (s : State) (e sub hi lo : Nat) (h : lo ≤ hi) :
    fld ((s.bumpFld e sub hi lo).count e sub) hi lo = min (fld (s.count e sub) hi lo + 1) (2 ^ (hi + 1 - lo) - 1) := by
  have hmax : 2 ≤ 2 ^ (hi + 1 - lo) := Nat.le_self_pow (by omega) 2
  have hfld : fld (setFld (s.count e sub) hi lo (satAdd (hi + 1 - lo) (fld (s.count e sub) hi lo) 1)) hi lo =
      min (fld (s.count e sub) hi lo + 1) (2 ^ (hi + 1 - lo) - 1) := by
    rw [fld_setFld, satAdd, Nat.mod_eq_of_lt (by omega)]
  have hne : setFld (s.count e sub) hi lo (satAdd (hi + 1 - lo) (fld (s.count e sub) hi lo) 1) ≠ 0 := by
    intro h0
    rw [h0, fld, Nat.zero_shiftRight, Nat.zero_mod] at hfld
    omega
  rw [← hfld]
  exact congrArg (fld · hi lo) ((get_set_of_ne hne).trans (if_pos rfl))

/-! ### What an access that enters the ledger leaves as it is (R138, R139) -/

theorem reachTile_frame (s : State) (l : List LStage) (off : Nat) : ∃ d, s.reachTile l off = { s with tide := d } := by
  unfold State.reachTile State.wakeTile
  split
  · exact ⟨s.tide, rfl⟩
  · split
    · exact ⟨s.tide, rfl⟩
    · split
      · exact ⟨s.tide, rfl⟩
      · exact ⟨_, rfl⟩

/-- An access changes the ledger, and of the tide what wakes a tile. -/
theorem enter_frame (s : State) (c : Nat) (stages : List LStage) :
    ∃ d l, s.enter c stages = { s with tide := d, ledger := l } := by
  unfold State.enter State.takeAccess
  split
  · obtain ⟨d, hd⟩ := reachTile_frame (s.setQueue c (s.queueOf c ++ [s.newAccess stages none false none])) stages s.tide.off
    exact ⟨d, _, hd⟩
  · exact ⟨s.tide, _, rfl⟩

/-! ### Reads of a pen in OFF -/

theorem penFall_frame (s : State) (p : Nat) : ∃ l, s.penFall p = { s with pen.pens := l } := by
  simp only [State.penFall]
  split
  · exact ⟨_, rfl⟩
  · exact ⟨s.pen.pens, rfl⟩

/-- Reads beyond CM that have been counted (R199). -/
def underflows (p n : Nat) (s : State) : State := (fun u => u.bump 0x03106 p)^[n] s

theorem underflows_frame (p n : Nat) (s : State) : ∃ d, underflows p n s = { s with dict := d } := by
  unfold underflows
  induction n generalizing s with
  | zero => exact ⟨s.dict, rfl⟩
  | succ n ih =>
    obtain ⟨d, hd⟩ := ih (s.bump 0x03106 p)
    exact ⟨d, hd⟩

/-- Words that reach a pen which discards an item, up to the item's end. -/
def penSkips (item : Nat) (ws : List Word) (x : Pen) : Pen :=
  ws.foldl (fun x _ => if x.discard then x.skipWord item else x) x

theorem penSkips_frame (item : Nat) (ws : List Word) (x : Pen) :
    ∃ n d, penSkips item ws x = { x with words := n, discard := d } := by
  unfold penSkips
  induction ws generalizing x with
  | nil => exact ⟨x.words, x.discard, rfl⟩
  | cons w ws ih =>
    obtain ⟨n, d, h⟩ := ih (if x.discard then x.skipWord item else x)
    refine ⟨n, d, h.trans ?_⟩
    split <;> rfl

section Off
variable {s : State} {p : Nat} (ho : (s.penAt p).state = .off) (hc : s.classSafe 5 p = false)
include ho hc

/-- Every position of a pen in OFF is one beyond CM, and reads as the idle word, held. -/
theorem penPositions_off (n : Nat) :
    s.penPositions p n = (underflows p n s, List.replicate n (worsen (BitVec.ofNat 18 (s.cfg 0x03101 p)) qHeld)) := by
  induction n generalizing s with
  | zero => rfl
  | succ n ih =>
    have hrest := ih (s := s.bump 0x03106 p) ho hc
    simp only [State.penPositions, hc, ho, hrest, Bool.false_eq_true, if_false, if_true]
    rfl

variable (ha : (s.penAt p).agrees = true)
include ha

theorem penReadN_off (n : Nat) : s.penReadN p n =
    ((underflows p n s).penFall p, List.replicate n (worsen (BitVec.ofNat 18 (s.cfg 0x03101 p)) qHeld)) := by
  simp only [State.penReadN, penCheck_agrees ha, penPositions_off ho hc]

/-! ### Writes to a pen in OFF -/

/-- A write is lost and counts once, whatever its length. -/
theorem penPushLost_off {ws : List Word} (hw : ws ≠ []) (hcut : ¬(s.penPacket p = false ∧ (s.penAt p).discard = true)) :
    s.penPushLost p ws = (s.penOverflow p, true) := by
  have hkeeps : (s.penPacket p || !(s.penAt p).discard) = true := by
    cases hp : s.penPacket p <;> simp_all
  simp only [State.penPushLost, penCheck_agrees ha, hc, ho, hkeeps, List.isEmpty_eq_false_iff.mpr hw, Bool.false_eq_true,
    if_false, if_true]

/-- So does one that carries on an item cut short, whose words pass. -/
theorem penPushLost_off_cut {ws : List Word} (hw : ws ≠ []) (hp : s.penPacket p = false) (hd : (s.penAt p).discard = true) :
    s.penPushLost p ws = ((s.setPen p (penSkips (s.penItem p) ws (s.penAt p))).penOverflow p, true) := by
  simp only [State.penPushLost, penCheck_agrees ha, hc, ho, hp, hd, List.isEmpty_eq_false_iff.mpr hw, Bool.not_true, Bool.or_self,
    Bool.false_eq_true, if_false, if_true, penSkips]

end Off

/-! ### The access line of a pen in OFF (R200) -/

/-- PEN_ACCESS_READ is an access through the pen's port, then a read of four positions. -/
theorem penAccessRead_eq (p : Fin 4096) (s : State) : exec (.penAccessRead p) s =
    .next (((s.enter 0 [penOut p]).penReadN p 4).1.emit .hostCompletion p
      (((s.enter 0 [penOut p]).penReadN p 4).2.map BitVec.toNat)) := by
  show execPenAccessRead p s = _
  unfold execPenAccessRead
  generalize (s.enter 0 [penOut p]).penReadN p 4 = r
  rfl

/-- PEN_ACCESS_WRITE is an access through the pen's port, then a write of up to four words. -/
theorem penAccessWrite_eq (p : Fin 4096) (ws : List Word) (ends posted : Bool) (s : State) :
    exec (.penAccessWrite p ws ends posted) s = .next
      (let r := (s.enter 0 [penIn p 0]).penPushLost p (ws.take 4)
       let u := if r.2 && !posted then r.1.emit .abort p [2] else r.1
       if ends then u.penCommit p else u) := rfl

section Access
variable {s : State} {p : Fin 4096} (ho : (s.penAt p).state = .off) (hc : s.classSafe 5 p = false)
  (ha : (s.penAt p).agrees = true)
include ho hc ha

/-- A read answers four idle words, held, and leaves the pool. -/
theorem penAccessRead_off : ∃ t, exec (.penAccessRead p) s = .next t ∧ t.pen.pool = s.pen.pool
    ∧ t.outbox = { kind := .hostCompletion, unit := p, words :=
        List.replicate 4 (worsen (BitVec.ofNat 18 (s.cfg 0x03101 p)) qHeld).toNat } :: s.outbox := by
  obtain ⟨d, l, hin⟩ := enter_frame s 0 [penOut p]
  generalize hu : ({ s with tide := d, ledger := l } : State) = u at hin
  obtain ⟨dict, hunder⟩ := underflows_frame p 4 u
  obtain ⟨pens, hfall⟩ := penFall_frame (underflows p 4 u) p
  have hread := penReadN_off (s := u) (p := p) (by subst hu; exact ho) (by subst hu; exact hc) (by subst hu; exact ha) 4
  rw [hfall, hunder] at hread
  refine ⟨_, by rw [penAccessRead_eq, hin, hread], ?_, ?_⟩ <;> subst hu
  · rfl
  · simp only [List.map_replicate]
    rfl

/-- A write is lost; one that is not posted is also sent an error response (log 108). -/
theorem penAccessWrite_off {ws : List Word} {ends posted : Bool} (hw : ws ≠ [])
    (hcut : ¬(s.penPacket p = false ∧ (s.penAt p).discard = true)) :
    exec (.penAccessWrite p ws ends posted) s = .next
      (let u := (s.enter 0 [penIn p 0]).penOverflow p
       let v := if posted then u else u.emit .abort p [2]
       if ends then v.penCommit p else v) := by
  obtain ⟨d, l, hin⟩ := enter_frame s 0 [penIn p 0]
  generalize hu : ({ s with tide := d, ledger := l } : State) = u at hin
  have htake : ws.take 4 ≠ [] := by simpa using hw
  have hlost := penPushLost_off (s := u) (p := p) (by subst hu; exact ho) (by subst hu; exact hc) (by subst hu; exact ha) htake
    (by subst hu; exact hcut)
  rw [penAccessWrite_eq, hin, hlost]
  cases posted <;> simp only [Bool.not_false, Bool.not_true, Bool.and_self, Bool.and_false, Bool.false_eq_true, if_true, if_false]

end Access
end Sys2Proof.Laws

namespace Sys2Proof.Proofs

/-- Settles O60: a pen in OFF has no position before CM, and a write to it stores nothing. -/
theorem penOffReadsAndWrites : Obligations.PenOffReadsAndWrites := by
  intro p s ho ha hc idle held cut counts
  have hcounts (u : State) : counts u = u.penOverflow p := rfl
  have hheld : worsen (BitVec.ofNat 18 (s.cfg 0x03101 p)) qHeld = held := worsen_ofNat_held _
  refine ⟨fun n => ?reads, hheld ▸ penAccessRead_off ho hc ha, fun ws hw => ⟨fun hcut => ?lost, fun hcut => ?cutShort⟩,
    fun w ws ends posted hcut => penAccessWrite_off ho hc ha (List.cons_ne_nil w ws) hcut,
    bumpFld_count s 0x03105 p 35 27 (by decide)⟩
  case reads => rw [penReadN_off ho hc ha, hheld]
  case lost => exact ⟨penPushLost_off ho hc ha hw hcut, penOverflow_pen s p⟩
  case cutShort =>
    obtain ⟨hp, hd⟩ := hcut
    obtain ⟨n, d, hx⟩ := penSkips_frame (s.penItem p) ws (s.penAt p)
    refine ⟨_, penPushLost_off_cut ho hc ha hw hp hd, ?_⟩
    refine ⟨by rw [hx], by rw [hx], by rw [hx], by rw [hx]; exact ho, ?_⟩
    rw [hcounts, penOverflow_pen]
    rfl

end Sys2Proof.Proofs
end

section
/-! The PCI Express endpoint (R472 to R478, R493), and the obligation HostPort. -/

open Sys2Proof Sys2Proof.Machine Sys2Proof.Laws

namespace Sys2Proof.Laws

variable {s : State}

/-! ### BAR2 (R474 to R476) -/

/-- A request to a space gets past the power state and Bell: the hub is in FULL or the space is the load window, and the
endpoint's function, or the bridge's, is not in its safe state. -/
def bar2May (s : State) (space : Nat) : Prop :=
  (s.full = true ∨ space = 5) ∧ s.classSafe 2 (if space = 7 then 1 else 0) = false

theorem bar2May_iff {space : Nat} :
    bar2May s space ↔ ¬((!s.full && space != 5) || s.classSafe 2 (if space = 7 then 1 else 0)) = true := by
  unfold bar2May
  cases s.full <;> simp

/-- The answer to a read of lines: their words, or by the first line that fails a Completer Abort or an Unsupported Request. -/
def bar2Lines (addr : Nat) : State × Except Deny (List Word) → State
  | (s, .ok ws) => s.hostWords (ws.map BitVec.toNat)
  | (s, .error .error) => s.hostCa addr
  | (s, .error _) => s.hostUr addr false

theorem bar2Lines_words {addr : Nat} {r : State × Except Deny (List Word)} {ws : List Word} (h : r.2 = .ok ws) :
    bar2Lines addr r = r.1.hostWords (ws.map BitVec.toNat) := by
  obtain ⟨t, x⟩ := r
  cases h
  rfl

theorem bar2Lines_abort {addr : Nat} {r : State × Except Deny (List Word)} (h : r.2 = .error .error) :
    bar2Lines addr r = r.1.hostCa addr := by
  obtain ⟨t, x⟩ := r
  cases h
  rfl

theorem bar2Lines_unsupported {addr : Nat} {r : State × Except Deny (List Word)} {d : Deny} (hd : d ≠ .error)
    (h : r.2 = .error d) : bar2Lines addr r = r.1.hostUr addr false := by
  obtain ⟨t, x⟩ := r
  cases h
  cases d with
  | error => exact absurd rfl hd
  | _ => rfl

section Read
variable {addr : Fin 1073741824} {n : Nat}

/-- BAR2_READ counts, and is answered by the first of its checks that fails. -/
theorem bar2Read_eq (full : Bool) : exec (.bar2Read addr n full) s = .next
    (let r := s.bump 0x0B004 0
     let a := s.aperture addr
     if !full then (r.bump 0x0B004 4).hostUr addr false
     else if !a.1 then r.hostUr addr false
     else if (!r.full && a.2.1 != 5) || r.classSafe 2 (if a.2.1 = 7 then 1 else 0) then r.hostCa addr
     else if a.2.1 = 7 then (if r.quayMapped a.2.2 then r else r.hostUr addr false)
     else bar2Lines addr (r.spansRead a.2.1 (lineSpans a.2.2 n))) := by
  show execBar2Read addr n full s = _
  unfold execBar2Read
  generalize s.aperture addr = a
  rfl

theorem bar2Read_bytes : exec (.bar2Read addr n false) s = .next (((s.bump 0x0B004 0).bump 0x0B004 4).hostUr addr false) :=
  bar2Read_eq false

theorem bar2Read_closed (he : (s.aperture addr).1 = false) :
    exec (.bar2Read addr n true) s = .next ((s.bump 0x0B004 0).hostUr addr false) := by
  simp only [bar2Read_eq, he, Bool.not_true, Bool.not_false, Bool.false_eq_true, if_false, if_true]

section Open
variable (he : (s.aperture addr).1 = true)
include he

theorem bar2Read_held (hm : ¬ bar2May (s.bump 0x0B004 0) (s.aperture addr).2.1) :
    exec (.bar2Read addr n true) s = .next ((s.bump 0x0B004 0).hostCa addr) := by
  simp only [bar2Read_eq, he, Bool.not_true, Bool.false_eq_true, if_false, if_pos (not_not.mp (mt bar2May_iff.mpr hm))]

section May
variable (hm : bar2May (s.bump 0x0B004 0) (s.aperture addr).2.1)
include hm

theorem bar2Read_may : exec (.bar2Read addr n true) s = .next
    (let r := s.bump 0x0B004 0
     let a := s.aperture addr
     if a.2.1 = 7 then (if r.quayMapped a.2.2 then r else r.hostUr addr false)
     else bar2Lines addr (r.spansRead a.2.1 (lineSpans a.2.2 n))) := by
  simp only [bar2Read_eq, he, Bool.not_true, Bool.false_eq_true, if_false, if_neg (bar2May_iff.mp hm)]

end May
end Open
end Read

section Write
variable {addr : Fin 1073741824} {ws : List Word}

/-- BAR2_WRITE counts, and is answered by the first of its checks that fails. -/
theorem bar2Write_eq (full poisoned : Bool) : exec (.bar2Write addr ws full poisoned) s = .next
    (let r := s.bump 0x0B004 1
     let a := s.aperture addr
     if poisoned then r.hostDrop addr
     else if !full then r.hostUr addr true
     else if !a.1 then r.hostUr addr true
     else if (!r.full && a.2.1 != 5) || r.classSafe 2 (if a.2.1 = 7 then 1 else 0) then r.hostDrop addr
     else if a.2.1 = 7 then (if r.quayMapped a.2.2 then r else r.hostUr addr true)
     else r.spansWrite addr a.2.1 ws (lineSpans a.2.2 ws.length)) := by
  show execBar2Write addr ws full poisoned s = _
  unfold execBar2Write
  generalize s.aperture addr = a
  rfl

theorem bar2Write_poisoned (full : Bool) : exec (.bar2Write addr ws full true) s = .next ((s.bump 0x0B004 1).hostDrop addr) :=
  bar2Write_eq full true

theorem bar2Write_bytes : exec (.bar2Write addr ws false false) s = .next ((s.bump 0x0B004 1).hostUr addr true) :=
  bar2Write_eq false false

theorem bar2Write_closed (he : (s.aperture addr).1 = false) :
    exec (.bar2Write addr ws true false) s = .next ((s.bump 0x0B004 1).hostUr addr true) := by
  simp only [bar2Write_eq, he, Bool.not_true, Bool.not_false, Bool.false_eq_true, if_false, if_true]

section Open
variable (he : (s.aperture addr).1 = true)
include he

theorem bar2Write_held (hm : ¬ bar2May (s.bump 0x0B004 1) (s.aperture addr).2.1) :
    exec (.bar2Write addr ws true false) s = .next ((s.bump 0x0B004 1).hostDrop addr) := by
  simp only [bar2Write_eq, he, Bool.not_true, Bool.false_eq_true, if_false, if_pos (not_not.mp (mt bar2May_iff.mpr hm))]

section May
variable (hm : bar2May (s.bump 0x0B004 1) (s.aperture addr).2.1)
include hm

theorem bar2Write_may : exec (.bar2Write addr ws true false) s = .next
    (let r := s.bump 0x0B004 1
     let a := s.aperture addr
     if a.2.1 = 7 then (if r.quayMapped a.2.2 then r else r.hostUr addr true)
     else r.spansWrite addr a.2.1 ws (lineSpans a.2.2 ws.length)) := by
  simp only [bar2Write_eq, he, Bool.not_true, Bool.false_eq_true, if_false, if_neg (bar2May_iff.mp hm)]

end May
end Open
end Write

/-! ### The BAR0 queues (R197, R202, R473) -/

section Request
variable {w : Word}

/-- A word of the open request finds 4,608 before it, or no room. -/
def reqTooMuch (q : MsgQueue) : Prop := q.open_.length = 4608 ∨ q.free < (if q.opened then 1 else 2)

theorem reqData_passes (hd : s.host.req.discard = true) : exec (.reqData w) s = .next { s with host.req.opened := true } :=
  congrArg _ (if_pos hd)

theorem reqData_drops (hd : s.host.req.discard = false) (ht : reqTooMuch s.host.req) : exec (.reqData w) s = .next
    { s.bump 0x0B004 4 with host.req := { s.host.req with open_ := [], opened := true, discard := true } } :=
  congrArg _ ((if_neg (ne_true_of_eq_false hd)).trans (if_pos ht))

theorem reqData_lengthens (hd : s.host.req.discard = false) (ht : ¬ reqTooMuch s.host.req) : exec (.reqData w) s = .next
    { s with host.req := { s.host.req with open_ := s.host.req.open_ ++ [w], opened := true } } :=
  congrArg _ ((if_neg (ne_true_of_eq_false hd)).trans (if_neg ht))

/-- The open request is one to commit. -/
def reqWhole (q : MsgQueue) : Prop := q.opened = true ∧ q.discard = false ∧ q.open_ ≠ []

theorem reqWhole_iff {q : MsgQueue} : reqWhole q ↔ (q.opened && !q.discard && !q.open_.isEmpty) = true := by
  simp [reqWhole, and_assoc]

theorem reqEnd_commits (h : reqWhole s.host.req) : exec .reqEnd s = .next { s.bump 0x0B004 7 with host.req :=
    { s.host.req with open_ := [], opened := false, discard := false, ready := s.host.req.ready ++ [s.host.req.open_] } } :=
  congrArg _ (if_pos (reqWhole_iff.mp h))

theorem reqEnd_ends (h : ¬ reqWhole s.host.req) : exec .reqEnd s = .next
    { s with host.req := { s.host.req with open_ := [], opened := false, discard := false } } :=
  congrArg _ (if_neg (mt reqWhole_iff.mpr h))

theorem reqAbort_passes (hd : s.host.req.discard = true) : exec .reqAbort s = .next s := congrArg _ (if_pos hd)

theorem reqAbort_ends (hd : s.host.req.discard = false) : exec .reqAbort s = .next
    { s with host.req := { s.host.req with open_ := [], opened := false } } := congrArg _ (if_neg (ne_true_of_eq_false hd))

end Request

theorem rspData_word {w : Word} {l : List Word} (hr : s.host.rsp.reading = w :: l) : exec .rspData s = .next
    (({ s with host.rsp.reading := l } : State).emit .hostCompletion 0 [w.toNat]) := by
  show execRspData s = _
  simp only [execRspData, hr]
  rfl

theorem rspData_length {m : List Word} {l : List (List Word)} (hr : s.host.rsp.reading = []) (hq : s.host.rsp.ready = m :: l) :
    exec .rspData s = .next
      (({ s with host.rsp := { s.host.rsp with reading := m, ready := l } } : State).emit .hostCompletion 0 [m.length]) := by
  show execRspData s = _
  simp only [execRspData, hr, hq]
  rfl

theorem rspData_idle (hr : s.host.rsp.reading = []) (hq : s.host.rsp.ready = []) :
    exec .rspData s = .next (s.emit .hostCompletion 0 [0x1FFFF]) := by
  show execRspData s = _
  simp only [execRspData, hr, hq]
  rfl

/-! ### Interrupts (R477) -/

section Interrupt

/-- The interrupt registers after a write of INT_STATUS, and of INT_ENABLE where one comes with it. -/
def intCleared (s : State) (mask : Fin 32) (enable : Option (Fin 32)) : State :=
  { s with
    host.intStatus := (List.range 5).foldl (fun a k => if s.host.intStatus.testBit k && !mask.val.testBit k then a + 2 ^ k else a) 0
    host.intEnable := (enable.map Fin.val).getD s.host.intEnable }

theorem intStatusClear_eq (mask : Fin 32) (enable : Option (Fin 32)) : exec (.intStatusClear mask enable) s = .next
    (if mask.val.testBit 0 && decide (0 < s.host.rsp.fill) then (intCleared s mask enable).interrupt 0
     else intCleared s mask enable) := rfl

section Clear
variable {mask : Fin 32} {enable : Option (Fin 32)}

/-- DICT_RSP holds again at once while a response waits. -/
theorem intStatusClear_again (hb : mask.val.testBit 0 = true) (hf : 0 < s.host.rsp.fill) :
    exec (.intStatusClear mask enable) s = .next ((intCleared s mask enable).interrupt 0) := by
  rw [intStatusClear_eq, hb, decide_eq_true hf, Bool.and_self, if_pos rfl]

theorem intStatusClear_clears (h : mask.val.testBit 0 = false ∨ s.host.rsp.fill = 0) :
    exec (.intStatusClear mask enable) s = .next (intCleared s mask enable) := by
  rw [intStatusClear_eq, if_neg]
  rcases h with h | h <;> simp [h]

end Clear

variable {v : Fin 64} {value : BitVec 32}

theorem msiXTableWrite_word {dword : Fin 4} (h : dword.val < 3) : exec (.msiXTableWrite v dword value) s = .next
    { s with host.msix := Tab.set 0 s.host.msix (4 * v + dword) value.toNat } := congrArg _ (if_pos h)

/-- A vector whose mask falls. -/
def msixUnmasked (s : State) (v : Nat) : State :=
  { s with host.msixOn := v :: s.host.msixOn, host.pba := s.host.pba.filter (· != v) }

/-- The last double word of a vector holds its mask. -/
theorem msiXTableWrite_mask : exec (.msiXTableWrite v 3 value) s = .next
    (if value.getLsbD 0 then { s with host.msixOn := s.host.msixOn.filter (· != v.val) }
     else if s.host.msixOn.contains v.val then s
     else if s.host.pba.contains v.val then (msixUnmasked s v).msiSend v else msixUnmasked s v) := rfl

theorem msiXTableWrite_masks (hb : value.getLsbD 0 = true) : exec (.msiXTableWrite v 3 value) s = .next
    { s with host.msixOn := s.host.msixOn.filter (· != v.val) } := msiXTableWrite_mask.trans (congrArg _ (if_pos hb))

section Unmasked
variable (hb : value.getLsbD 0 = false)
include hb

theorem msiXTableWrite_stands (hon : s.host.msixOn.contains v.val = true) : exec (.msiXTableWrite v 3 value) s = .next s := by
  rw [msiXTableWrite_mask, if_neg (ne_true_of_eq_false hb), if_pos hon]

theorem msiXTableWrite_unmasks (hon : s.host.msixOn.contains v.val = false) : exec (.msiXTableWrite v 3 value) s = .next
    (if s.host.pba.contains v.val then (msixUnmasked s v).msiSend v else msixUnmasked s v) := by
  rw [msiXTableWrite_mask, if_neg (ne_true_of_eq_false hb), if_neg (ne_true_of_eq_false hon)]

end Unmasked

end Interrupt

/-! ### PCIE_RESET and PCIE_LINK_UP (R478, R493) -/

section Link

theorem endSessions_host (s : State) (test : Session → Bool) : (s.endSessions test).host = s.host := by
  obtain ⟨d, r, h⟩ := endSessions_frame s test
  rw [h]

theorem qlockOff_linkUp (s : State) : s.qlockOff.host.linkUp = s.host.linkUp := by
  unfold State.qlockOff
  split
  · rfl
  · split <;> rfl

/-- The path's sessions ended, its queues emptied, its interrupt registers cleared and QLOCK let go. -/
def pcieCleared (s : State) : State :=
  let e := s.endSessions fun x => x.path == 2
  State.qlockOff { e with host := { e.host with
    req := e.host.req.flush, rsp := e.host.rsp.flush, intStatus := 0, intEnable := 0, msix := [], msixOn := [], pba := [] } }

theorem pcieCleared_eq (s : State) : pcieCleared s = State.qlockOff { s.endSessions fun x => x.path == 2 with host := { s.host with
    req := s.host.req.flush, rsp := s.host.rsp.flush, intStatus := 0, intEnable := 0, msix := [], msixOn := [], pba := [] } } := by
  simp only [pcieCleared, endSessions_host]

theorem pcieCleared_linkUp (s : State) : (pcieCleared s).host.linkUp = s.host.linkUp := by
  rw [pcieCleared_eq, qlockOff_linkUp]

/-- PCIE_RESET clears; where the link is lost with it, that counts and fires. -/
theorem pcieReset_eq (linkDown : Bool) : exec (.pcieReset linkDown) s = .next
    (if linkDown && (pcieCleared s).host.linkUp then
       (State.bump { pcieCleared s with host.linkUp := false, host.speed := 0, host.width := 0 } 0x0B004 5).fire 289 0
     else pcieCleared s) := rfl

theorem pcieReset_clears {linkDown : Bool} (h : linkDown = false ∨ s.host.linkUp = false) :
    exec (.pcieReset linkDown) s = .next (pcieCleared s) := by
  rw [pcieReset_eq, pcieCleared_linkUp, if_neg]
  rcases h with h | h <;> simp [h]

theorem pcieReset_linkLost (h : s.host.linkUp = true) : exec (.pcieReset true) s = .next
    ((State.bump { pcieCleared s with host.linkUp := false, host.speed := 0, host.width := 0 } 0x0B004 5).fire 289 0) := by
  rw [pcieReset_eq, pcieCleared_linkUp, h, Bool.and_self, if_pos rfl]

variable {speed width : Fin 5}

theorem pcieLinkUp_unlawful (h : speed.val = 0 ∨ width.val = 0 ∨ width.val = 3) : exec (.pcieLinkUp speed width) s = .next s :=
  congrArg _ (if_pos h)

theorem pcieLinkUp_lawful (hs : speed.val ≠ 0) (h0 : width.val ≠ 0) (h3 : width.val ≠ 3) :
    exec (.pcieLinkUp speed width) s = .next { s with host.linkUp := true, host.speed := speed, host.width := width } :=
  congrArg _ (if_neg (by tauto))

end Link
end Sys2Proof.Laws

namespace Sys2Proof.Proofs

/-- Settles O49: each clause is the case of that name of the commands above. -/
theorem hostPort : Obligations.HostPort := by
  intro s
  refine ⟨fun addr n => ?read, fun addr ws => ?write, fun w => ⟨reqData_passes, reqData_drops, reqData_lengthens⟩,
    ⟨reqEnd_commits, reqEnd_ends, reqAbort_passes, reqAbort_ends⟩,
    ⟨fun w l => rspData_word, fun m l => rspData_length, rspData_idle, rfl⟩,
    fun mask enable => ⟨intStatusClear_again, intStatusClear_clears⟩, fun o w => rfl,
    fun v value => ⟨fun dword => msiXTableWrite_word, msiXTableWrite_masks, msiXTableWrite_stands, fun hb hon => ?unmasks⟩,
    ?reset,
    fun speed width => ⟨pcieLinkUp_unlawful, pcieLinkUp_lawful⟩⟩
  case read =>
    refine ⟨bar2Read_bytes, bar2Read_closed, bar2Read_held, fun he hm h7 hq => ?_, fun he hm h7 hq => ?_, fun he hm h7 => ?_⟩
    · exact (bar2Read_may he hm).trans (congrArg _ ((if_pos h7).trans (if_pos hq)))
    · exact (bar2Read_may he hm).trans (congrArg _ ((if_pos h7).trans (if_neg (ne_true_of_eq_false hq))))
    · have hlines := (bar2Read_may (n := n) he hm).trans (congrArg _ (if_neg h7))
      exact ⟨fun ws h => hlines.trans (congrArg _ (bar2Lines_words h)), fun h => hlines.trans (congrArg _ (bar2Lines_abort h)),
        fun d hd h => hlines.trans (congrArg _ (bar2Lines_unsupported hd h))⟩
  case write =>
    refine ⟨bar2Write_poisoned, bar2Write_bytes, bar2Write_closed, bar2Write_held, fun he hm h7 hq => ?_, fun he hm h7 hq => ?_,
      fun he hm h7 => ?_⟩
    · exact (bar2Write_may he hm).trans (congrArg _ ((if_pos h7).trans (if_pos hq)))
    · exact (bar2Write_may he hm).trans (congrArg _ ((if_pos h7).trans (if_neg (ne_true_of_eq_false hq))))
    · exact (bar2Write_may he hm).trans (congrArg _ (if_neg h7))
  case unmasks =>
    rw [msiXTableWrite_unmasks hb hon]
    exact ⟨fun hp => congrArg _ (if_neg (ne_true_of_eq_false hp)), fun hp => congrArg _ (if_pos hp)⟩
  case reset =>
    intro e t
    have ht : t = pcieCleared s := (pcieCleared_eq s).symm
    rw [ht]
    exact ⟨pcieReset_clears (.inl rfl), fun h => pcieReset_clears (.inr h), pcieReset_linkLost⟩

end Sys2Proof.Proofs
end

section
/-! The instructions of a drover at an edge of its drove's clock, and how one completes (R210, R216 to R228). -/

open Sys2Proof Sys2Proof.Machine Sys2Proof.Laws

namespace Sys2Proof.Laws

/-! ### An instruction at its edge -/

/-- Where the drover executes a word of the command's opcode, the command's body acts on the state that the edge fetched. -/
theorem instr_of_executes {s : State} {k off sense n : Nat} {op : Nat → Bool} {body : State → Nat → Nat → State}
    (h : s.executes k off sense n) (hop : op n = true) :
    s.instr k off sense op body =
      body (s.fetched k off sense) ((s.fetched k off sense).instrAt k) (s.edgeT k off sense) := by
  obtain ⟨edge, run, dwell, ecc, opcode⟩ := h
  have due : (s.edgeBegin k off sense).instrDue k = true := by simp [State.instrDue, run, dwell]
  exact if_pos ⟨edge, due, ecc, opcode ▸ hop⟩

/-- SHOUT to PC beyond LAST, where the fault is met in the state `u`: its cause is not the one that fires nothing. -/
theorem exec_shout_of_met {k : Fin 256} {off sense : Nat} {test : Bool} {s u : State}
    (met : s.faultEdge k off sense (fun u => u.shoutsPast k) = some u) :
    exec (.shout k off sense test) s = .next (((u.storeCorrect k).faulted k 4).fire 96 k) := by
  show execShout k off sense test s = _
  have fires : (4 : Nat) ≠ 6 := by decide
  simp only [execShout, met, faultNow_of_ne _ _ _ fires]

/-! ### Completion (R216, R220, R221) -/

/-- AUTOPUSH follows the word: SIN holds a frame, and the word is no LATCH. -/
def AutoPushes (x : Drover) (w : Nat) : Prop := bit x.shift 15 = true ∧ x.inFrame ≤ x.sinFill ∧ fld w 17 14 ≠ 4

/-- AUTOPULL follows the word: nothing is left in SOUT, and the word is no TAKE. -/
def AutoPulls (x : Drover) (w : Nat) : Prop := bit x.shift 14 = true ∧ x.soutLeft = 0 ∧ fld w 17 14 ≠ 5

/-- The second half of State.autos. -/
def autoPull (s : State) (k w : Nat) : State :=
  if bit (s.drover k).shift 14 && (s.drover k).soutLeft == 0 && fld w 17 14 != 5 then
    s.takeDrover k ((s.drover k).doTake true)
  else s

section Autos
variable {s : State} {k w : Nat}

theorem autos_of_pushes (h : AutoPushes (s.drover k) w) : s.autos k w = autoPull (s.doLatch k 0 false false) k w := by
  obtain ⟨on, full, other⟩ := h
  simp [State.autos, autoPull, on, full, other]

theorem autos_of_not_pushes (h : ¬AutoPushes (s.drover k) w) : s.autos k w = autoPull s k w := by
  have no : (bit (s.drover k).shift 15 && decide ((s.drover k).inFrame ≤ (s.drover k).sinFill) && fld w 17 14 != 4) = false := by
    simpa [AutoPushes] using h
  simp only [State.autos, autoPull, no, Bool.false_eq_true, if_false]

theorem autoPull_of_pulls (h : AutoPulls (s.drover k) w) : autoPull s k w = s.takeDrover k ((s.drover k).doTake true) := by
  obtain ⟨on, empty, other⟩ := h
  simp [autoPull, on, empty, other]

theorem autoPull_of_not_pulls (h : ¬AutoPulls (s.drover k) w) : autoPull s k w = s :=
  if_neg fun yes => h (by simpa [AutoPulls, and_assoc] using yes)

end Autos

/-- The cue that a word asks for, driven last. -/
def cued (k w : Nat) (u : State) : State :=
  if fld w 13 12 = 0 then u else u.setCue (u.drover k) ((u.drover k).cuePat (fld w 13 12))

/-- The drover as an instruction that completes leaves it, before AUTOPUSH and AUTOPULL. -/
def completed (x : Drover) (w te : Nat) (wroteT : Bool) (pc : Nat) : Drover :=
  { x with
    pc := pc, dwell := if bit w 11 then x.dwellN else 0,
    t := if wroteT then x.t else if te ≠ 0 then te - 1 else if x.tper ≠ 0 then x.tper - 1 else 0 }

/-- Completing: PC, the dwell clocks and T, then AUTOPUSH and AUTOPULL, then the cue. -/
theorem finish_eq (s : State) (k w te : Nat) (wroteT : Bool) (pc : Nat) :
    s.finish k w te wroteT pc = cued k w ((s.setDrover k (completed (s.drover k) w te wroteT pc)).autos k w) := by
  have timer : (s.drover k).tick te = if te ≠ 0 then te - 1 else if (s.drover k).tper ≠ 0 then (s.drover k).tper - 1 else 0 :=
    (ite_not ..).symm
  simp only [State.finish, timer]
  rfl

end Sys2Proof.Laws

namespace Sys2Proof.Proofs

/-- Settles O26: completing is the drover's registers, AUTOPUSH, AUTOPULL and the cue in this order, and each of the two may follow
or not. -/
theorem droverCompletion : Obligations.DroverCompletion := by
  intro s k w te wroteT pc x y a cue pushes pulls used
  have here : a.drover k = y := (State.drover_setDrover s k k used).trans (if_pos rfl)
  have finish : s.finish k w te wroteT pc = cue (a.autos k w) := finish_eq s k w te wroteT pc
  have taken : a.takeDrover k (y.doTake true) = a.takeDrover k ((a.drover k).doTake true) := by rw [here]
  rw [finish, taken]
  -- `pushes` is AutoPushes of `x` and of `y`, which differ in no field that it reads.
  have push : AutoPushes (a.drover k) w ↔ pushes := by rw [here]; exact Iff.rfl
  have pull : AutoPulls (a.drover k) w ↔ pulls y := by rw [here]; exact Iff.rfl
  refine ⟨fun stays kept => ?none, fun stays pulled => ?pull, fun pushed kept => ?push, fun pushed pulled => ?both, rfl⟩
  case none => rw [autos_of_not_pushes (mt push.mp stays), autoPull_of_not_pulls (mt pull.mp kept)]
  case pull => rw [autos_of_not_pushes (mt push.mp stays), autoPull_of_pulls (pull.mpr pulled)]
  case push => rw [autos_of_pushes (push.mpr pushed), autoPull_of_not_pulls kept]
  case both => rw [autos_of_pushes (push.mpr pushed), autoPull_of_pulls pulled]

/-- Settles O24: each opcode's body at its edge, a HOLD by its state and a HALT by the state that completing leaves. -/
theorem droverProgramFlow : Obligations.DroverProgramFlow := by
  intro k off sense test s e x w te
  have acts {m op body} (h : s.executes k off sense m) (hop : op m = true) : s.instr k off sense op body = body e w te :=
    instr_of_executes h hop
  -- The rest holds of any state, word and T: no goal has to look into the fetched ones.
  clear_value te w e
  refine ⟨fun h => congrArg _ (acts h rfl), fun h waits => ?waits, fun h holds => ?holds, fun h => congrArg _ (acts h rfl),
    fun h => ?halt⟩
  case waits => exact congrArg _ ((acts h rfl).trans (if_neg waits))
  case holds =>
    refine ⟨fun pol src => ?edgeFlag, fun pol src => ?droveFlag, fun other => ?noFlag⟩
    all_goals refine congrArg _ ((acts h rfl).trans ((if_pos holds).trans ?_))
    case edgeFlag => simp [pol, src, x]
    case droveFlag => simp [pol, src, x]
    case noFlag =>
      obtain pol | ⟨notEdge, notDrove⟩ := other
      · simp [pol, x]
      · simp [notEdge, notDrove, x]
  case halt => exact ⟨_, congrArg Host.Outcome.next (acts h rfl), fun run => if_pos run, fun stopped => if_neg stopped⟩

/-- Settles O25: each opcode's body at its edge, at the destination that its word names; a SHOUT to PC beyond LAST by the fault. -/
theorem droverDataMoves : Obligations.DroverDataMoves := by
  intro k off sense test s e x w te n v y sound
  have acts {m op body} (h : s.executes k off sense m) (hop : op m = true) : s.instr k off sense op body = body e w te :=
    instr_of_executes h hop
  -- As above, the fetched state, its word and T stand for any.
  clear_value te w e
  refine ⟨fun h => congrArg _ (acts h rfl), fun safe h dst => ?shoutDrive, fun safe h dst => ?shoutX, fun safe h dst => ?shoutY,
    fun safe h dst => ?shoutDirs, fun safe h dst => ?shoutT, fun safe h dst => ?shoutPc, fun u => exec_shout_of_met,
    fun edge due past => exec_shout_of_met (faultEdge_of_before edge due past), fun safe h dst => ?shoutCnt,
    fun safe h dst => ?shoutNowhere, fun h => congrArg _ (acts h rfl), fun h => congrArg _ (acts h rfl), fun h => ?copy,
    fun h => ?put, fun h => ?step, fun h => congrArg _ (acts h rfl)⟩
  case copy =>
    refine ⟨fun dst => ?_, fun dst => ?_, fun dst => ?_, fun dst => ?_, fun dst => ?_, fun dst => ?_, fun dst => ?_,
      fun dst => ?_⟩
    all_goals
      show execCopy k off sense test s = _
      simp only [execCopy, acts (op := (· == 6)) h rfl, dst]
      rfl
  case put =>
    refine ⟨fun dst => ?_, fun dst => ?_, fun dst => ?_, fun dst => ?_, fun dst => ?_, fun dst => ?_⟩
    all_goals
      show execPut k off sense test s = _
      simp only [execPut, acts (op := (· == 7)) h rfl, dst]
      rfl
  case step =>
    refine ⟨fun dst => ?_, fun dst => ?_, fun dst => ?_, fun dst => ?_⟩
    all_goals
      show execStep k off sense test s = _
      simp only [execStep, acts (op := (· == 8)) h rfl, dst]
      rfl
  -- What is left is SHOUT, one goal for each destination.
  all_goals
    have clear : s.faultEdge k off sense (fun u => u.shoutsPast k) = none := safe
    show execShout k off sense test s = _
    simp only [execShout, clear, acts (op := (· == 3)) h rfl, dst]
    rfl

end Sys2Proof.Proofs
end

section
/-! The beacons (R261 to R263, log 33), and the obligation BeaconCommands. -/

open Sys2Proof Sys2Proof.Machine Sys2Proof.Laws

namespace Sys2Proof.Laws

/-! ### A beacon's next pulse -/

/-- Rounding `least - start` up to whole periods gives the first multiple that reaches `least`. -/
theorem first_period_from {start least period : Nat} (hp : period ≠ 0) (early : start < least) :
    let due := start + (least - start + period - 1) / period * period
    least ≤ due ∧ due < least + period := by
  intro due
  have below := Nat.div_mul_le_self (least - start + period - 1) period
  have above := Nat.lt_div_mul_add (a := least - start + period - 1) (Nat.pos_of_ne_zero hp)
  simp only [due]
  omega

section Take
variable {b : Nat} {s : State}

theorem beaconTake_due_of_once (once : (s.beaconTake b).period = 0) :
    (s.beaconTake b).due = timeUnits (s.cfg 0x05010 b) :=
  if_pos (.inl once)

/-- The first pulse of a periodic beacon is the first START + k × PERIOD that is at least 1,024 wc after the grant. -/
theorem beaconTake_due_of_periodic (periodic : (s.beaconTake b).period ≠ 0) :
    ∃ k, (s.beaconTake b).due = timeUnits (s.cfg 0x05010 b) + k * (s.beaconTake b).period
      ∧ s.now + 1024 * tickPerWc ≤ (s.beaconTake b).due
      ∧ (k = 0 ∨ (s.beaconTake b).due < s.now + 1024 * tickPerWc + (s.beaconTake b).period) := by
  by_cases inTime : s.now + 1024 * tickPerWc ≤ timeUnits (s.cfg 0x05010 b)
  · have due : (s.beaconTake b).due = timeUnits (s.cfg 0x05010 b) := if_pos (.inr inTime)
    exact ⟨0, by rw [due, Nat.zero_mul, Nat.add_zero], due ▸ inTime, .inl rfl⟩
  · have due : (s.beaconTake b).due = timeUnits (s.cfg 0x05010 b)
        + (s.now + 1024 * tickPerWc - timeUnits (s.cfg 0x05010 b) + (s.beaconTake b).period - 1)
          / (s.beaconTake b).period * (s.beaconTake b).period :=
      if_neg (not_or.mpr ⟨periodic, inTime⟩)
    obtain ⟨reaches, first⟩ := first_period_from periodic (Nat.lt_of_not_le inTime)
    exact ⟨_, due, due ▸ reaches, .inr (due ▸ first)⟩

end Take

/-! ### BEACON_ARM (R262) -/

/-- Fabric time that is UNSET stops a beacon just armed: the ARMED one, once stored, leaves nothing behind. -/
theorem beaconLost_of_setBeacon_armed {b : Nat} {s : State} {x : Beacon} (armed : x.state = .armed) :
    (s.setBeacon b x).beaconLost b = (s.setBeacon b { x with state := .stopped, active := false }).fire 114 b := by
  have listed : x ≠ Beacon.blank := fun h => by simp [h, Beacon.blank] at armed
  have reads : (s.setBeacon b x).beacon b = x := (State.beacon_setBeacon s b b listed).trans (if_pos rfl)
  have overwrites (y : Beacon) : (s.setBeacon b x).setBeacon b y = s.setBeacon b y :=
    congrArg (fun m => { s with pin.beacons := m }) (set_set_of_ne listed)
  simp only [State.beaconLost, reads, armed, true_or, if_true, overwrites]

/-- ARM's check of the settings fails: no width, or a period that it fills. -/
def BadPulse (x : Beacon) : Prop := x.width = 0 ∨ (x.period ≠ 0 ∧ x.period ≤ x.width)

theorem not_badPulse {x : Beacon} (hw : x.width ≠ 0) (hp : x.period = 0 ∨ x.width < x.period) : ¬BadPulse x := by
  rintro (none | ⟨periodic, fills⟩)
  · exact hw none
  · exact hp.elim periodic (Nat.not_lt_of_le fills)

section Arm
variable {b : Fin 64} {s : State}

theorem exec_beaconArm_of_not_idle (busy : (s.beacon b).state ≠ .idle) : exec (.beaconArm b) s = .next (s.abort 0x05013 7) :=
  congrArg Host.Outcome.next (if_pos busy)

variable (idle : (s.beacon b).state = .idle)
include idle

theorem exec_beaconArm_of_bad (bad : BadPulse (s.beaconTake b)) : exec (.beaconArm b) s = .next (s.abort 0x05013 6) :=
  congrArg Host.Outcome.next ((if_neg (not_not_intro idle)).trans (if_pos bad))

variable (good : ¬BadPulse (s.beaconTake b))
include good

theorem exec_beaconArm_of_unset (unset : s.time.state = .unset) :
    exec (.beaconArm b) s = .next ((s.setBeacon b { s.beaconTake b with state := .stopped, active := false }).fire 114 b) := by
  have lost := beaconLost_of_setBeacon_armed (s := s) (b := b) (x := s.beaconTake b) rfl
  exact congrArg Host.Outcome.next
    ((if_neg (not_not_intro idle)).trans <| (if_neg good).trans <| (if_pos unset).trans lost)

variable (valid : s.time.state ≠ .unset)
include valid

theorem exec_beaconArm_of_late
    (late : (s.beaconTake b).period = 0 ∧ (s.beaconTake b).due < s.now + 1024 * tickPerWc) :
    exec (.beaconArm b) s = .next ((s.setBeacon b { s.beaconTake b with state := .missed }).fire 114 b) :=
  congrArg Host.Outcome.next
    ((if_neg (not_not_intro idle)).trans <| (if_neg good).trans <| (if_neg valid).trans (if_pos late))

theorem exec_beaconArm_of_inTime
    (inTime : ¬((s.beaconTake b).period = 0 ∧ (s.beaconTake b).due < s.now + 1024 * tickPerWc)) :
    exec (.beaconArm b) s = .next (s.setBeacon b (s.beaconTake b)) :=
  congrArg Host.Outcome.next
    ((if_neg (not_not_intro idle)).trans <| (if_neg good).trans <| (if_neg valid).trans (if_neg inTime))

end Arm

/-! ### BEACON_EDGE (R261) -/

/-- An edge may fall now: the beacon has one to come, and it is from 0.4 ns before to 2.0 ns after its time. -/
def EdgeDue (u : State) (x : Beacon) : Prop :=
  (x.state = .armed ∨ x.state = .running) ∧ 5 * x.due ≤ 5 * u.now + 2 * tickPerNs ∧ u.now ≤ x.due + 2 * tickPerNs

/-- The leading edge; the trailing one waits a width. -/
theorem edge_of_rest {x : Beacon} (rest : x.active = false) :
    x.edge = { x with active := true, due := x.due + x.width, state := if x.period = 0 then x.state else .running } :=
  if_neg (Bool.not_eq_true _ ▸ rest)

/-- The trailing edge; the next leading one waits a period from the last. -/
theorem edge_of_pulse {x : Beacon} (pulse : x.active = true) :
    x.edge = { x with active := false, pulses := satAdd 15 x.pulses 1, due := x.due - x.width + x.period,
                      state := if x.period = 0 then .done else x.state } :=
  if_pos pulse

section Edge
variable {b : Fin 64} {off : Nat} {s : State}

theorem exec_beaconEdge_of_due (due : EdgeDue (s.advance off) ((s.advance off).beacon b)) :
    exec (.beaconEdge b off) s = .next ((s.advance off).setBeacon b ((s.advance off).beacon b).edge) :=
  congrArg Host.Outcome.next (if_pos due)

theorem exec_beaconEdge_of_not_due (other : ¬EdgeDue (s.advance off) ((s.advance off).beacon b)) :
    exec (.beaconEdge b off) s = .next s :=
  congrArg Host.Outcome.next (if_neg other)

end Edge
end Sys2Proof.Laws

namespace Sys2Proof.Proofs

/-- Settles O30: BEACON_ARM by the beacon's state, the check of its settings, fabric time and the time of its first pulse, and
BEACON_EDGE by its window and the pulse in progress. -/
theorem beaconCommands : Obligations.BeaconCommands := by
  refine ⟨fun b s idle valid hw hp => ?arm, fun b s idle unset hw hp => ?unset,
    fun b s idle bad => exec_beaconArm_of_bad idle bad, fun b s busy => exec_beaconArm_of_not_idle busy,
    fun b s busy => congrArg Host.Outcome.next (if_neg busy), fun b s idle => congrArg Host.Outcome.next (if_pos idle),
    fun b off s => ?edge⟩
  case arm =>
    have good : ¬BadPulse (s.beaconTake b) := not_badPulse hw hp
    refine ⟨fun once early => ?late, fun once inTime => ?single, fun periodic => ?periodic⟩
    case late =>
      have soon : (s.beaconTake b).due < s.now + 1024 * tickPerWc := (beaconTake_due_of_once once).trans_lt early
      exact ⟨_, rfl, exec_beaconArm_of_late idle good valid ⟨once, soon⟩⟩
    case single =>
      have due := beaconTake_due_of_once (s := s) (b := b) once
      have ahead : s.now + 1024 * tickPerWc ≤ (s.beaconTake b).due := inTime.trans_eq due.symm
      exact ⟨_, rfl, due, rfl, once, rfl, exec_beaconArm_of_inTime idle good valid fun late => late.2.not_ge ahead⟩
    case periodic =>
      obtain ⟨k, due, reaches, first⟩ := beaconTake_due_of_periodic (s := s) (b := b) periodic
      exact ⟨_, k, rfl, due, reaches, first, rfl, rfl, rfl,
        exec_beaconArm_of_inTime idle good valid fun late => periodic late.1⟩
  case unset => exact ⟨_, rfl, rfl, exec_beaconArm_of_unset idle (not_badPulse hw hp) unset⟩
  case edge =>
    refine ⟨fun other => exec_beaconEdge_of_not_due ?outside,
      fun comes begun inTime => ⟨fun rest => ?leading, fun pulse => ?trailing⟩⟩
    case outside =>
      rintro ⟨comes, begun, inTime⟩
      obtain ⟨notArmed, notRunning⟩ | early | late := other
      · exact comes.elim notArmed notRunning
      · exact early.not_ge begun
      · exact late.not_ge inTime
    case leading =>
      rw [exec_beaconEdge_of_due ⟨comes, begun, inTime⟩, edge_of_rest rest]
    case trailing =>
      rw [exec_beaconEdge_of_due ⟨comes, begun, inTime⟩, edge_of_pulse pulse]

end Sys2Proof.Proofs
end

section
/-! The message-bus channels: their states (R275, R291, R297), the frames they send and receive (R280 to R289), and their
pen-fed buffers and receive records (R282, R285), with the obligations BusChannelStates and BusFrames. -/

open Sys2Proof Sys2Proof.Machine Sys2Proof.Laws

namespace Sys2Proof.Laws

/-! ### A channel and its buffers -/

section Chan
variable {x : BusChan}

theorem writes_iff : x.writes = true ↔ x.state = .active ∨ x.state = .passive ∨ x.state = .drain := by
  cases h : x.state <;> simp [BusChan.writes, h]

theorem buffers_empty_iff : (List.range 3).all (fun b => (x.tb b).state == .empty) = true ↔
    x.tb0.state = .empty ∧ x.tb1.state = .empty ∧ x.tb2.state = .empty := by
  simp [List.range_succ, BusChan.tb]

theorem state_of_activeTb {b : Nat} (h : x.activeTb = some b) : (x.tb b).state = .active :=
  beq_iff_eq.mp (List.find?_some (p := fun b => (x.tb b).state == .active) h)

end Chan

section Operations
variable {c b : Nat} {s : State}

theorem withdraw_of_pending (pending : ((s.chan c).tb b).state = .pending) :
    s.withdraw c b = (s.setChan c ((s.chan c).setTb b ((s.chan c).tb b).done)).busCount c 1 :=
  if_pos pending

/-- A frame that is not sent goes back to PENDING, or under DAR ends its buffer and counts as aborted (R280). -/
theorem txAgain_of_active (active : ((s.chan c).tb b).state = .active) :
    s.txAgain c b = if bit (s.busMode c) 25 then
        (s.setChan c { (s.chan c).setTb b ((s.chan c).tb b).ended with refBody := [] }).busCount c 1
      else s.setChan c { (s.chan c).setTb b { (s.chan c).tb b with state := .pending } with refBody := [] } :=
  if_neg (not_not_intro active)

/-- What a violation does on a channel that takes frames: a protocol exception where the format is not enabled and
exceptions are, else an error frame (R286). -/
theorem busViolation_of_writes {format : Bool} {rise : Nat} (writes : (s.chan c).writes = true) :
    let v := (s.busCount c 6).fire 130 c
    let e := v.bumpFld (busEntry c 13) 7 35 18
    s.busViolation c format rise = if format && !bit (v.busMode c) 23 then v.setChan c { v.chan c with waits := true }
      else (if e.busModeNo c = 0 ∨ e.busModeNo c = 4 then e.emit .busSignal c [1] else e).recUp c rise := by
  obtain h | h | h := writes_iff.mp writes <;> simp only [State.busViolation, h]

end Operations

/-! ### BUS_FRAME_START (R280) -/

section Commands
variable {c : Fin 128} {s : State}

/-- The state in which buffer b of channel c has begun its frame: a reference message takes its payload at its start (R288). -/
def frameStarted (u : State) (c b : Nat) : State :=
  let x := u.chan c
  let isR := b == 0 && fld (u.busMode c) 13 12 == 1 && isRef (u.cfg (busEntry c 10)) (hdrw (x.tb b).image)
  u.setChan c { x.setTb b { x.tb b with state := .active } with
    sof := timeVal u.now,
    refBody := if isR then refPayload (hdrw (x.tb b).image) x.refs u.now (u.time.state != .unset) else [] }

theorem exec_busFrameStart_sends {off b : Nat} (may : (s.advance off).maySend c = true)
    (chosen : (s.advance off).busChoose c = some b) :
    exec (.busFrameStart c off) s = .next (frameStarted (s.advance off) c b) := by
  show execBusFrameStart c off s = _
  simp only [execBusFrameStart, may, if_true, chosen]
  rfl

theorem exec_busFrameStart_waits {off : Nat}
    (idle : (s.advance off).maySend c = false ∨ (s.advance off).busChoose c = none) :
    exec (.busFrameStart c off) s = .next s := by
  show execBusFrameStart c off s = _
  obtain barred | nothing := idle
  · exact congrArg _ (if_neg (ne_true_of_eq_false barred))
  · simp only [execBusFrameStart, nothing, ite_self]

/-! ### BUS_FRAME_TX_END (R280, R276) -/

theorem exec_busFrameTxEnd_of_idle {o : Fin 4} (idle : (s.chan c).activeTb = none) :
    exec (.busFrameTxEnd c o) s = .next s := by
  show execBusFrameTxEnd c o s = _
  simp only [execBusFrameTxEnd, idle]

section Sending
variable {b : Nat} (active : (s.chan c).activeTb = some b)
include active

theorem exec_busFrameTxEnd_success : exec (.busFrameTxEnd c 0) s = .next (s.txDone c b) := by
  show execBusFrameTxEnd c 0 s = _
  simp only [execBusFrameTxEnd, active]
  rfl

theorem exec_busFrameTxEnd_lost : exec (.busFrameTxEnd c 1) s = .next (s.txAgain c b) := by
  show execBusFrameTxEnd c 1 s = _
  simp only [execBusFrameTxEnd, active]
  rfl

theorem exec_busFrameTxEnd_error_raises : exec (.busFrameTxEnd c 2) s =
    .next (((s.bumpFld (busEntry c 13) 7 35 18).moveTec c (· + 8)).txAgain c b) := by
  show execBusFrameTxEnd c 2 s = _
  simp only [execBusFrameTxEnd, active]
  rfl

theorem exec_busFrameTxEnd_error_leaves : exec (.busFrameTxEnd c 3) s =
    .next ((s.bumpFld (busEntry c 13) 7 35 18).txAgain c b) := by
  show execBusFrameTxEnd c 3 s = _
  simp only [execBusFrameTxEnd, active]

end Sending

/-! ### BUS_FRAME_RECEIVED (R283) -/

/-- A frame of a valid form, of its header's length, from a node that the channel hears. -/
def Received (s : State) (c : Nat) (own : Bool) (frame : List Word) : Prop :=
  hdrShape (frw frame) = true ∧ frame.length = 8 + hWords (frw frame) ∧ s.mayReceive c own = true

theorem received_iff {own : Bool} {frame : List Word} : Received s c own frame ↔
    (hdrShape (frw frame) && frame.length == 8 + hWords (frw frame) && s.mayReceive c own) = true := by
  simp [Received, and_assoc]

section Receive
variable {own esi : Bool} {frame : List Word} {back : Nat}

theorem exec_busFrameReceived_of_received (taken : Received s c own frame) :
    let t := timeVal (s.now - back * tickPerWc)
    let u := (s.refSeen c own frame t).busDeliver c esi frame t
    exec (.busFrameReceived c own esi frame back) s =
      .next (if s.busBarred c (frw frame) then s.busViolation c true 1 else if own then u else u.recDown c) :=
  congrArg Host.Outcome.next (if_pos (received_iff.mp taken))

theorem exec_busFrameReceived_of_not (other : ¬ Received s c own frame) :
    exec (.busFrameReceived c own esi frame back) s = .next s :=
  congrArg Host.Outcome.next (if_neg (mt received_iff.mpr other))

end Receive

/-! ### BUS_RX_RECORD_WRITE (R285) -/

section Record
variable {p : Nat} {ws : List Word}

theorem exec_busRxRecordWrite_of_none (free : (s.chan c).held = none) : exec (.busRxRecordWrite c) s = .next s := by
  show execBusRxRecordWrite c s = _
  simp only [execBusRxRecordWrite, free]

theorem exec_busRxRecordWrite_of_not_writes (silent : ¬ (s.chan c).writes = true) :
    exec (.busRxRecordWrite c) s = .next s := by
  show execBusRxRecordWrite c s = _
  simp only [execBusRxRecordWrite, Bool.eq_false_of_not_eq_true silent]
  cases (s.chan c).held <;> rfl

/-- A held record of a channel that writes records: Bell's safe state loses it, a full ledger keeps it, and else its pen
takes it or loses it. -/
theorem exec_busRxRecordWrite_of_held (held : (s.chan c).held = some (p, ws)) (writes : (s.chan c).writes = true) :
    let u := ((s.enterPen 5 p ws.length true).setChan c { s.chan c with held := none }).penPacketIn p ws
    exec (.busRxRecordWrite c) s = .next (
      if s.classSafe 2 5 then ((s.setChan c { s.chan c with held := none }).busCount c 5).fire 133 c
      else if s.ledgerRoom 5 then (if u.2 then (u.1.busCount c 5).fire 133 c else u.1) else s) := by
  show execBusRxRecordWrite c s = _
  simp only [execBusRxRecordWrite, held, writes, Bool.not_true, Bool.false_eq_true, if_false]
  generalize State.penPacketIn _ p ws = taken
  obtain ⟨t, lost⟩ := taken
  cases lost
  · simp only [Bool.false_eq_true, if_false]
  · simp only [if_true]

theorem exec_busRxRecordWrite_of_full (safe : s.classSafe 2 5 = false) (full : s.ledgerRoom 5 = false) :
    exec (.busRxRecordWrite c) s = .next s := by
  by_cases writes : (s.chan c).writes = true
  · cases held : (s.chan c).held with
    | none => exact exec_busRxRecordWrite_of_none held
    | some r =>
      have acts := exec_busRxRecordWrite_of_held held writes
      exact acts.trans (congrArg _ ((if_neg (ne_true_of_eq_false safe)).trans (if_neg (ne_true_of_eq_false full))))
  · exact exec_busRxRecordWrite_of_not_writes writes

end Record

/-! ### BUS_TB_PEN_FETCH (R282) -/

section Fetch
variable {tb : Fin 3}

/-- The pen that feeds a buffer. -/
def feedPen (s : State) (c : Nat) (tb : Fin 3) : Nat := fld (s.cfg (busEntry c 8)) (35 - 12 * tb.val) (24 - 12 * tb.val)

/-- The state in which a buffer's packet of words has left its pen, as one access. -/
def packetTaken (s : State) (c : Nat) (tb : Fin 3) (ws : List Word) : State :=
  (s.penPacketOut (feedPen s c tb)).1.enterPen 5 (feedPen s c tb) ws.length false

/-- A buffer may take a packet: its channel is ACTIVE or PASSIVE, a pen feeds it, it is EMPTY, and the ledger takes the
access. -/
def MayFetch (s : State) (c : Nat) (tb : Fin 3) : Prop :=
  ((s.chan c).state = .active ∨ (s.chan c).state = .passive) ∧ bit (s.busMode c) (26 + tb.val) = true
    ∧ ((s.chan c).tb tb).state = .empty ∧ s.ledgerRoom 5 = true ∧ s.classSafe 2 5 = false

theorem exec_busTbPenFetch_of_not (barred : ¬ MayFetch s c tb) : exec (.busTbPenFetch c tb) s = .next s :=
  congrArg Host.Outcome.next (if_neg barred)

variable (may : MayFetch s c tb)
include may

theorem exec_busTbPenFetch_of_no_packet (out : (s.penPacketOut (feedPen s c tb)).2 = none) :
    exec (.busTbPenFetch c tb) s = .next s := by
  have pair : s.penPacketOut (feedPen s c tb) = ((s.penPacketOut (feedPen s c tb)).1, none) := Prod.ext rfl out
  refine congrArg Host.Outcome.next ((if_pos may).trans ?_)
  simp only [feedPen] at pair
  rw [pair]

/-- A packet is taken as one access: a frame for the buffer fills it, any other record is counted. -/
theorem exec_busTbPenFetch_of_packet {ws : List Word} (out : (s.penPacketOut (feedPen s c tb)).2 = some ws) :
    exec (.busTbPenFetch c tb) s = .next (
      if (packetTaken s c tb ws).hdrOk c tb (frw ws) && ws.length == 8 + (hLen (frw ws) + 1) / 2 then
        (packetTaken s c tb ws).setChan c (((packetTaken s c tb ws).chan c).setTb tb
          { TxBuf.blank with state := .pending, image := Tab.setList 0 [] 0 ws })
      else ((packetTaken s c tb ws).busCount c 2).fire 131 c) := by
  have pair : s.penPacketOut (feedPen s c tb) = ((s.penPacketOut (feedPen s c tb)).1, some ws) := Prod.ext rfl out
  unfold packetTaken
  refine congrArg Host.Outcome.next ((if_pos may).trans ?_)
  generalize (s.penPacketOut (feedPen s c tb)).1 = t at pair ⊢
  simp only [feedPen] at pair ⊢
  rw [pair]
  rfl

end Fetch
end Commands
end Sys2Proof.Laws

namespace Sys2Proof.Proofs

/-- Settles O31: each event and command by the channel's state and the conditions of its move. -/
theorem busChannelStates : Obligations.BusChannelStates := by
  intro c tb s x bad
  refine ⟨fun integrating => congrArg _ (if_pos integrating), fun other => congrArg _ (if_neg other),
    fun off auto passed => congrArg _ (if_pos ⟨off, auto, passed⟩), fun other => congrArg _ (if_neg ?notExpired),
    fun recovering => congrArg _ (if_pos recovering), fun other => congrArg _ (if_neg other),
    fun drains free e0 e1 e2 => congrArg _ (if_pos ⟨drains, free, buffers_empty_iff.mpr ⟨e0, e1, e2⟩⟩),
    fun other => congrArg _ (if_neg ?notDrained),
    fun off manual => congrArg _ (if_pos ⟨off, manual⟩), fun other => congrArg _ (if_neg ?notManual),
    fun on => congrArg _ (if_neg on), fun off => congrArg _ (if_pos off),
    fun pending => congrArg _ ((if_pos pending).trans (withdraw_of_pending pending)),
    fun other => congrArg _ (if_neg other)⟩
  case notExpired =>
    rintro ⟨off, auto, passed⟩
    obtain notOff | manual | early := other
    · exact notOff off
    · exact ne_true_of_eq_false auto manual
    · exact early.not_ge passed
  case notDrained =>
    rintro ⟨drains, free, empty⟩
    obtain ⟨e0, e1, e2⟩ := buffers_empty_iff.mp empty
    obtain notDrain | held | full0 | full1 | full2 := other
    · exact notDrain drains
    · exact held free
    · exact full0 e0
    · exact full1 e1
    · exact full2 e2
  case notManual =>
    rintro ⟨off, manual⟩
    exact other.elim (· off) fun auto => ne_true_of_eq_false auto manual

/-- Settles O32: the start, the end and the reception of a frame, a violation, and the accesses to pens, each by the conditions
of its command. -/
theorem busFrames : Obligations.BusFrames := by
  refine ⟨fun c off b s may chosen => exec_busFrameStart_sends may chosen,
    fun c off s idle => exec_busFrameStart_waits idle, fun c b s active => ?txEnd,
    fun c o s idle => exec_busFrameTxEnd_of_idle idle,
    fun c own esi frame back s shape long hears => ?received, fun c own esi frame back s other => ?notReceived,
    fun c format rise s takes => ?violation, fun c p ws s held takes => ?record, fun c s other => ?noRecord,
    fun c tb s up fed empty room safe => ?fetch, fun c tb s other => exec_busTbPenFetch_of_not ?barred⟩
  case txEnd =>
    have again := txAgain_of_active (state_of_activeTb active)
    exact ⟨exec_busFrameTxEnd_success active,
      fun retries => (exec_busFrameTxEnd_lost active).trans (congrArg _ (again.trans (if_neg (ne_true_of_eq_false retries)))),
      fun dar => (exec_busFrameTxEnd_lost active).trans (congrArg _ (again.trans (if_pos dar))),
      exec_busFrameTxEnd_error_raises active, exec_busFrameTxEnd_error_leaves active⟩
  case received =>
    have taken : Received s c own frame := ⟨shape, long, hears⟩
    have acts := exec_busFrameReceived_of_received (esi := esi) (back := back) taken
    exact ⟨fun enabled => acts.trans (congrArg _ (if_neg (ne_true_of_eq_false enabled))),
      fun barred => acts.trans (congrArg _ (if_pos barred))⟩
  case notReceived =>
    refine exec_busFrameReceived_of_not fun ⟨shape, long, hears⟩ => ?_
    obtain malformed | wrong | deaf := other
    · exact ne_true_of_eq_false malformed shape
    · exact wrong long
    · exact ne_true_of_eq_false deaf hears
  case violation =>
    have acts := busViolation_of_writes (format := format) (rise := rise) (writes_iff.mpr takes)
    refine ⟨fun barred exceptions => ?_, fun other => ?_⟩
    · refine congrArg Host.Outcome.next (acts.trans (if_pos ?_))
      rw [barred, exceptions]
      rfl
    · refine congrArg Host.Outcome.next (acts.trans (if_neg ?_))
      obtain enabled | noExceptions := other
      · simp [enabled]
      · simp [noExceptions]
  case record =>
    have acts := exec_busRxRecordWrite_of_held held (writes_iff.mpr takes)
    refine ⟨fun safe room => ?_, fun bell => acts.trans (congrArg _ (if_pos bell))⟩
    have goes := acts.trans (congrArg _ ((if_neg (ne_true_of_eq_false safe)).trans (if_pos room)))
    exact ⟨fun stored => goes.trans (congrArg _ (if_neg (ne_true_of_eq_false stored))),
      fun lost => goes.trans (congrArg _ (if_pos lost))⟩
  case noRecord =>
    obtain free | silent | ⟨safe, full⟩ := other
    · exact exec_busRxRecordWrite_of_none free
    · refine exec_busRxRecordWrite_of_not_writes fun writes => ?_
      obtain ⟨notActive, notPassive, notDrain⟩ := silent
      exact (writes_iff.mp writes).elim notActive (·.elim notPassive notDrain)
    · exact exec_busRxRecordWrite_of_full safe full
  case fetch =>
    have may : MayFetch s c tb := ⟨up, fed, empty, room, safe⟩
    refine ⟨exec_busTbPenFetch_of_no_packet may, fun ws out => ⟨fun header long => ?_, fun other => ?_⟩⟩
    · exact (exec_busTbPenFetch_of_packet may out).trans
        (congrArg _ (if_pos ((Bool.and_eq_true _ _).mpr ⟨header, beq_iff_eq.mpr long⟩)))
    · refine (exec_busTbPenFetch_of_packet may out).trans (congrArg _ (if_neg fun both => ?_))
      obtain ⟨header, long⟩ := (Bool.and_eq_true _ _).mp both
      exact other.elim (fun bad => ne_true_of_eq_false bad header) (· (beq_iff_eq.mp long))
  case barred =>
    rintro ⟨up, fed, empty, room, safe⟩
    obtain ⟨notActive, notPassive⟩ | unfed | full | noRoom | held := other
    · exact up.elim notActive notPassive
    · exact ne_true_of_eq_false unfed fed
    · exact full empty
    · exact ne_true_of_eq_false noRoom room
    · exact ne_true_of_eq_false safe held

end Sys2Proof.Proofs
end

section
/-! The states of a switch port (R301, R302, R303, R320), and the obligation PortStates. -/

open Sys2Proof Sys2Proof.Machine Sys2Proof.Laws

namespace Sys2Proof.Laws

/-- A port that R302 can take to SETTLING: one with a lane (ports 0 to 15), in UP or DOWN. -/
def CanSettle (s : State) (p : Nat) : Prop := p < 16 ∧ ((s.port p).state = .up ∨ (s.port p).state = .down)

/-- A port that signals link faults (R301): of a mode that has them, and not OFF. -/
def SignalsFault (s : State) (p : Nat) : Prop := s.faultPort p = true ∧ (s.port p).state ≠ .off

/-- A port whose DRAIN is over (R320): no frame waits in its scheduled queue or its eight best-effort queues. -/
def Drained (s : State) (p : Nat) : Prop :=
  (s.port p).state = .drain ∧ s.schedQ p = [] ∧ ∀ tc < 8, s.bq p tc = []

theorem signalsFault_iff {s : State} {p : Nat} :
    SignalsFault s p ↔ (s.faultPort p && (s.port p).state != .off) = true := by
  simp only [SignalsFault, Bool.and_eq_true, bne_iff_ne]

theorem drained_iff {s : State} {p : Nat} : Drained s p ↔
    (s.port p).state = .drain ∧ (s.schedQ p).isEmpty = true ∧ (List.range 8).all (fun tc => (s.bq p tc).isEmpty) = true := by
  simp only [Drained, List.isEmpty_iff, List.all_eq_true, List.mem_range]

section Commands
variable {p : Fin 49} {s : State}

/-! ### Ways to SETTLING (R302, R303) -/

theorem exec_portLanePllLoss_of_canSettle (h : CanSettle s p) : exec (.portLanePllLoss p) s = .next (s.portSettle p) :=
  congrArg Host.Outcome.next (if_pos h)

theorem exec_portLanePllLoss_of_not (h : ¬CanSettle s p) : exec (.portLanePllLoss p) s = .next s :=
  congrArg Host.Outcome.next (if_neg h)

theorem exec_portCalibrate_of_canSettle (h : CanSettle s p) : exec (.portCalibrate p) s = .next (s.portSettle p) :=
  congrArg Host.Outcome.next (if_pos h)

theorem exec_portCalibrate_of_not (h : ¬CanSettle s p) : exec (.portCalibrate p) s = .next (s.abort 0x07002 7) :=
  congrArg Host.Outcome.next (if_neg h)

theorem exec_portRestart_of_up (up : (s.port p).state = .up) :
    exec (.portRestart p) s = .next (if p.val < 16 then s.portSettle p else s.portLost p) := by
  show execPortRestart p s = _
  simp only [execPortRestart, up]

theorem exec_portRestart_of_down (down : (s.port p).state = .down) :
    exec (.portRestart p) s = .next (if p.val < 16 then s.portSettle p else s) := by
  show execPortRestart p s = _
  simp only [execPortRestart, down]

theorem exec_portRestart_of_canSettle (h : CanSettle s p) : exec (.portRestart p) s = .next (s.portSettle p) := by
  obtain ⟨lane, up | down⟩ := h
  · exact (exec_portRestart_of_up up).trans (congrArg _ (if_pos lane))
  · exact (exec_portRestart_of_down down).trans (congrArg _ (if_pos lane))

theorem exec_portRestart_of_other (notUp : (s.port p).state ≠ .up) (notDown : (s.port p).state ≠ .down) :
    exec (.portRestart p) s = .next (s.abort 0x07002 7) := by
  show execPortRestart p s = _
  unfold execPortRestart
  split
  case h_1 up => exact absurd up notUp
  case h_2 down => exact absurd down notDown
  case h_3 => rfl

/-! ### The end of DRAIN (R320) -/

theorem exec_portDrainDone_of_drained (h : Drained s p) :
    exec (.portDrainDone p) s = .next (s.setPort p { Port.blank with busy := (s.port p).busy }) :=
  congrArg Host.Outcome.next (if_pos (drained_iff.mp h))

theorem exec_portDrainDone_of_not (h : ¬Drained s p) : exec (.portDrainDone p) s = .next s :=
  congrArg Host.Outcome.next (if_neg (mt drained_iff.mpr h))

/-! ### Link faults (R301) -/

theorem exec_portLocalFault_of_signals (h : SignalsFault s p) :
    exec (.portLocalFault p) s = .next ((s.setPort p { s.port p with faultSent := true }).emit .marker (100 + p) [1]) :=
  congrArg Host.Outcome.next (if_pos (signalsFault_iff.mp h))

theorem exec_portLocalFault_of_not (h : ¬SignalsFault s p) : exec (.portLocalFault p) s = .next s :=
  congrArg Host.Outcome.next (if_neg (mt signalsFault_iff.mpr h))

theorem exec_remoteFaultReceived_of_signals (h : SignalsFault s p) (lasts : Bool) :
    exec (.remoteFaultReceived p lasts) s = .next (s.setPort p { s.port p with faultSeen := lasts }) :=
  congrArg Host.Outcome.next (if_pos (signalsFault_iff.mp h))

theorem exec_remoteFaultReceived_of_not (h : ¬SignalsFault s p) (lasts : Bool) :
    exec (.remoteFaultReceived p lasts) s = .next s :=
  congrArg Host.Outcome.next (if_neg (mt signalsFault_iff.mpr h))

end Commands
end Sys2Proof.Laws

namespace Sys2Proof.Proofs

/-- Settles O33: each command and event of a port by the port's state, by whether it has a lane, by whether its DRAIN is over,
and by whether it signals link faults. -/
theorem portStates : Obligations.PortStates := by
  intro p s
  refine ⟨fun settling ser analog => congrArg Host.Outcome.next (if_pos ⟨settling, ser, analog⟩),
    fun other => congrArg Host.Outcome.next (if_neg (other ·.1)),
    fun a down => congrArg Host.Outcome.next (if_pos down), fun a other => congrArg Host.Outcome.next (if_neg other),
    fun up => congrArg Host.Outcome.next (if_pos up), fun other => congrArg Host.Outcome.next (if_neg other),
    fun ready => ⟨fun lane => ?settle, fun noLane => ?noLane⟩,
    fun up noLane => (exec_portRestart_of_up up).trans (congrArg _ (if_neg noLane.not_gt)),
    fun down noLane => (exec_portRestart_of_down down).trans (congrArg _ (if_neg noLane.not_gt)),
    fun notUp notDown => ?barred,
    fun drain sched best => exec_portDrainDone_of_drained ⟨drain, sched, best⟩,
    fun waits => exec_portDrainDone_of_not ?waits,
    fun running => congrArg Host.Outcome.next (if_neg running), fun off => congrArg Host.Outcome.next (if_pos off),
    fun mode running => ?signals, fun other => ?silent,
    fun sent => congrArg Host.Outcome.next (if_pos sent),
    fun clear => congrArg Host.Outcome.next (if_neg (ne_true_of_eq_false clear))⟩
  case settle =>
    have can : CanSettle s p := ⟨lane, ready⟩
    exact ⟨exec_portLanePllLoss_of_canSettle can, exec_portCalibrate_of_canSettle can, exec_portRestart_of_canSettle can⟩
  case noLane =>
    have cannot : ¬CanSettle s p := fun can => noLane.not_gt can.1
    exact ⟨exec_portLanePllLoss_of_not cannot, exec_portCalibrate_of_not cannot⟩
  case barred =>
    have cannot : ¬CanSettle s p := fun can => can.2.elim notUp notDown
    exact ⟨exec_portLanePllLoss_of_not cannot, exec_portCalibrate_of_not cannot, exec_portRestart_of_other notUp notDown⟩
  case waits =>
    rintro ⟨drain, sched, best⟩
    obtain other | queued | ⟨tc, small, queued⟩ := waits
    · exact other drain
    · exact queued sched
    · exact queued (best tc small)
  case signals =>
    have signals : SignalsFault s p := ⟨mode, running⟩
    exact ⟨exec_portLocalFault_of_signals signals, exec_remoteFaultReceived_of_signals signals⟩
  case silent =>
    have silent : ¬SignalsFault s p := fun ⟨mode, running⟩ => other.elim (ne_true_of_eq_false · mode) running
    exact ⟨exec_portLocalFault_of_not silent, exec_remoteFaultReceived_of_not silent⟩

end Sys2Proof.Proofs
end

section
/-! The life cycle, the owner hashes and the numbers of a station over a command and a step (R506, R536, R548), and the obligations
EveryCommandCompletes, StepRunsFrontCommand, LifecycleChanges, LifecycleOnlyByBurn, OwnerHashesPersist and NumbersNeverFall. -/

open Sys2Proof Sys2Proof.Machine Sys2Proof.Laws

namespace Sys2Proof.Laws

/-! ### The end of a burn (R549) -/

/-- The state whose fuses burnt becomes the life cycle, and no burn is left. -/
def burnt (s : State) (lc : Nat) : State := { s with fold.lifecycle := lc, fold.burning := none }

theorem lifecycleBurnDone_none {straps : Fin 64} {bad : Fin 16} {s : State} (h : s.fold.burning = none) :
    exec (.lifecycleBurnDone straps bad) s = .next s := by
  show execLifecycleBurnDone straps bad s = _
  rw [execLifecycleBurnDone, h]

theorem lifecycleBurnDone_kept {straps : Fin 64} {bad : Fin 16} {s : State} {lc : Nat} (h : s.fold.burning = some lc) :
    ∃ t, exec (.lifecycleBurnDone straps bad) s = .next t ∧ Kept (burnt s lc) t := by
  refine ⟨_, by show execLifecycleBurnDone straps bad s = _; rw [execLifecycleBurnDone, h], ?_⟩
  apply keeps_untrained
  apply keeps_coldStartAs
  apply keeps_policyFixed
  exact Kept.refl _

/-! ### What each command answers -/

/-- A command answers a state that has what Kept lists of the state before it, or of that state with its burn at an end. -/
theorem exec_keptOrBurnt (c : Instr) (s : State) :
    ∃ t, exec c s = .next t ∧ (Kept s t ∨ ∃ lc, s.fold.burning = some lc ∧ Kept (burnt s lc) t) := by
  by_cases hb : ∃ straps bad, c = .lifecycleBurnDone straps bad
  · obtain ⟨straps, bad, rfl⟩ := hb
    cases hburn : s.fold.burning with
    | none => exact ⟨s, lifecycleBurnDone_none hburn, .inl (Kept.refl s)⟩
    | some lc =>
      obtain ⟨t, ht, hk⟩ := lifecycleBurnDone_kept (straps := straps) (bad := bad) hburn
      exact ⟨t, ht, .inr ⟨lc, rfl, hk⟩⟩
  · obtain ⟨t, ht, hk⟩ := exec_kept c s fun straps bad hc => hb ⟨straps, bad, hc⟩
    exact ⟨t, ht, .inl hk⟩

theorem keptOrBurnt_of_exec {c : Instr} {s t : State} (h : exec c s = .next t) :
    Kept s t ∨ ∃ lc, s.fold.burning = some lc ∧ Kept (burnt s lc) t := by
  obtain ⟨u, hu, hk⟩ := exec_keptOrBurnt c s
  cases hu.symm.trans h
  exact hk

/-! ### The life cycle over a command (R548) -/

/-- What burns where nothing burnt before is a change of R548 from the life cycle kept. -/
theorem lcChange_of_burnTo_none {a b : FoldSt} (h : BurnTo a b) (hn : a.burning = none) {v : Nat} (hv : b.burning = some v) :
    lcChange a.lifecycle v = true := by
  obtain he | ⟨w, hw, hc⟩ := h
  · rw [he, hn] at hv; cases hv
  · cases hw.symm.trans hv; exact hc

theorem burnOk_of_kept {s t : State} (hb : s.burnOk) (hk : Kept s t) : t.burnOk := by
  intro v hv
  rw [hk.lifecycle]
  obtain he | ⟨w, hw, hc⟩ := hk.burning
  · exact hb v (he ▸ hv)
  · cases hw.symm.trans hv; exact hc

/-- The life cycle stays or makes a change of R548, and what burns next is such a change. -/
def lcMoves (s t : State) : Prop :=
  (t.fold.lifecycle = s.fold.lifecycle ∨ lcChange s.fold.lifecycle t.fold.lifecycle = true) ∧ t.burnOk

theorem lcMoves_of_kept {s t : State} (hb : s.burnOk) (hk : Kept s t) : lcMoves s t :=
  ⟨.inl hk.lifecycle, burnOk_of_kept hb hk⟩

theorem lcMoves_of_burnt {s t : State} {lc : Nat} (hb : s.burnOk) (hlc : s.fold.burning = some lc) (hk : Kept (burnt s lc) t) :
    lcMoves s t := by
  have hnow : t.fold.lifecycle = lc := hk.lifecycle
  refine ⟨.inr (hnow ▸ hb lc hlc), fun v hv => ?_⟩
  rw [hnow]
  exact lcChange_of_burnTo_none hk.burning rfl hv

theorem exec_lcMoves {c : Instr} {s t : State} (hb : s.burnOk) (h : exec c s = .next t) : lcMoves s t := by
  obtain hk | ⟨lc, hlc, hk⟩ := keptOrBurnt_of_exec h
  · exact lcMoves_of_kept hb hk
  · exact lcMoves_of_burnt hb hlc hk

/-! ### A step with no command waiting -/

theorem reportTurns_of_nil {s : State} (h : s.ring.toReport = []) : s.reportTurns = s := by
  have hs : ({ s with ring.toReport := [] } : State) = s := by rw [← h]
  rw [State.reportTurns, h, hs, List.foldl_nil]

theorem tick_of_quiet {s : State} (hf : s.tide.flights = []) (hr : s.ring.toReport = []) : s.tick = s := by
  simp only [State.tick, reportTurns_of_nil hr, hf, List.filterMap_nil, List.min?_nil]

end Sys2Proof.Laws

namespace Sys2Proof.Proofs

/-- Settles O5: a step is a tick of time, which keeps the life cycle, or a command, which keeps it or ends the burn. -/
theorem lifecycleChanges : Obligations.LifecycleChanges := by
  intro s t hb hstep
  cases hp : s.pending with
  | nil =>
    cases (step_of_pending_nil hp).symm.trans hstep
    exact lcMoves_of_kept hb (keeps_tick s (Kept.refl s))
  | cons c rest =>
    exact exec_lcMoves (s := { s with pending := rest }) hb ((step_of_pending_cons hp).symm.trans hstep)

/-- Settles O6: every other command keeps the life cycle, and the end of a burn makes it the state whose fuses burnt. -/
theorem lifecycleOnlyByBurn : Obligations.LifecycleOnlyByBurn := by
  refine ⟨fun c s t hc he => ?others, fun straps bad s lc hburn => ?burns, fun _ _ _ => lifecycleBurnDone_none⟩
  case others =>
    obtain ⟨u, hu, hk⟩ := exec_kept c s hc
    cases hu.symm.trans he
    exact hk.lifecycle
  case burns =>
    obtain ⟨t, ht, hk⟩ := lifecycleBurnDone_kept (straps := straps) (bad := bad) hburn
    exact ⟨t, ht, hk.lifecycle, fun v hv => lcChange_of_burnTo_none hk.burning rfl hv⟩

/-- Settles O7: no command takes an owner hash back, as Kept says of each and of the end of a burn. -/
theorem ownerHashesPersist : Obligations.OwnerHashesPersist := by
  intro c s t k he hhash
  obtain hk | ⟨lc, -, hk⟩ := keptOrBurnt_of_exec he
  · exact hk.otp k hhash
  · exact hk.otp k hhash

/-- Settles O8: no command lowers the two numbers or takes a block back, as Kept says of each and of the end of a burn. -/
theorem numbersNeverFall : Obligations.NumbersNeverFall := by
  intro c s t he
  obtain hk | ⟨lc, -, hk⟩ := keptOrBurnt_of_exec he
  · exact ⟨hk.installSeq, hk.seq, fun _ hb => hk.retired hb⟩
  · exact ⟨hk.installSeq, hk.seq, fun _ hb => hk.retired hb⟩

/-- Settles O2: a command answers a state that keeps the queue. -/
theorem everyCommandCompletes : Obligations.EveryCommandCompletes := by
  intro c s
  obtain ⟨t, ht, hk | ⟨lc, -, hk⟩⟩ := exec_keptOrBurnt c s
  · exact ⟨t, ht, hk.pending⟩
  · exact ⟨t, ht, hk.pending⟩

/-- Settles O1: a step by the front of the queue, and a tick of a state with no flight and no link to report. -/
theorem stepRunsFrontCommand : Obligations.StepRunsFrontCommand := by
  refine ⟨fun c s rest => step_of_pending_cons rfl, fun s => step_of_pending_nil, fun s hp hf hr => ?_⟩
  rw [step_of_pending_nil hp, tick_of_quiet hf hr]

end Sys2Proof.Proofs
end

section
/-! The states of ring and pair links (R348 to R355), and the obligation RingLinkStates. -/

open Sys2Proof Sys2Proof.Machine Sys2Proof.Laws

namespace Sys2Proof.Laws

/-! ### Training (R348) -/

/-- A DOWN link whose lanes are locked and whose hold has passed, that neither its delay nor Bell keeps DOWN. -/
def mayTrain (s : State) (l : Nat) : Prop :=
  (s.link l).state = .down ∧ (s.link l).locked = true ∧ (s.link l).holdDone = true ∧ (s.link l).delayHeld = false
    ∧ s.linkHeld l = false

theorem linkTryTrain_trains {s : State} {l : Nat} (h : mayTrain s l) : s.linkTryTrain l = s.linkTrain l := if_pos h

theorem linkTryTrain_stands {s : State} {l : Nat} (h : ¬ mayTrain s l) : s.linkTryTrain l = s := if_neg h

section LinkStates
variable {s : State} {l : Fin 5}

theorem ringLinkSettleDone_trains (hx : (s.link l).state = .settling) (hf : s.power.state = .full) (h3 : s.supplyUp 3 = true)
    (h4 : s.supplyUp 4 = true) : exec (.ringLinkSettleDone l) s = .next
      ((s.linkTrain l).setLink l { (s.linkTrain l).link l with locked := false }) := congrArg _ (if_pos ⟨hx, hf, h3, h4⟩)

theorem ringLinkSettleDone_none (h : (s.link l).state ≠ .settling ∨ s.power.state ≠ .full ∨ s.supplyUp 3 = false
    ∨ s.supplyUp 4 = false) : exec (.ringLinkSettleDone l) s = .next s := by
  refine congrArg _ (if_neg ?_)
  rintro ⟨hx, hf, h3, h4⟩
  simp [hx, hf, h3, h4] at h

theorem ringLinkTrained_none {polarity : Fin 16} {swapped : Bool}
    (h : (s.link l).state ≠ .training ∨ (s.link l).delayHeld = true ∨ (s.link l).trainRun < 16
      ∨ (s.link l).trainProtect ≠ s.protect l ∨ (s.protect l = true ∧ (s.link l).key = none)) :
    exec (.ringLinkTrained l polarity swapped) s = .next s := by
  refine congrArg _ (if_neg ?_)
  rintro ⟨hx, hd, hrun, hp, hk⟩
  obtain h | h | h | h | ⟨h, hnone⟩ := h
  · exact h hx
  · simp [hd] at h
  · omega
  · exact h hp
  · simp [hnone] at hk
    simp [hk] at h

/-! ### Settling and leaving (R348, R354) -/

/-- RING_LANE_PLL_LOSS and RING_CALIBRATE take the link to SETTLING: it is UP or TRAINING, or DOWN with nothing that holds it. -/
def mayRelock (s : State) (l : Nat) : Prop :=
  (s.link l).state = .up ∨ (s.link l).state = .training ∨ ((s.link l).state = .down ∧ s.linkHeld l = false)

theorem relock_settles (h : mayRelock s l) :
    exec (.ringLanePllLoss l) s = .next (s.linkSettle l) ∧ exec (.ringCalibrate l) s = .next (s.linkSettle l) := by
  show execRingLanePllLoss l s = _ ∧ execRingCalibrate l s = _
  obtain h | h | ⟨h, hn⟩ := h
  · simp only [execRingLanePllLoss, State.laneLost, execRingCalibrate, h, and_self]
  · simp only [execRingLanePllLoss, State.laneLost, execRingCalibrate, h, and_self]
  · simp [execRingLanePllLoss, State.laneLost, execRingCalibrate, h, hn]

theorem retrain_settles (h : (s.link l).state = .up ∨ ((s.link l).state = .down ∧ s.linkHeld l = false)) :
    exec (.retrain l) s = .next (s.retrainOp l) := by
  show execRetrain l s = _
  obtain h | ⟨h, hn⟩ := h
  · simp only [execRetrain, h]
  · simp [execRetrain, h, hn]

theorem relock_held (h : (s.link l).state = .down) (hn : s.linkHeld l = true) :
    exec (.ringLanePllLoss l) s = .next s ∧ exec (.ringCalibrate l) s = .next s ∧ exec (.retrain l) s = .next s := by
  show execRingLanePllLoss l s = _ ∧ execRingCalibrate l s = _ ∧ execRetrain l s = _
  simp [execRingLanePllLoss, State.laneLost, execRingCalibrate, execRetrain, h, hn]

theorem relock_unlit (h : (s.link l).state = .off ∨ (s.link l).state = .settling) :
    exec (.ringLanePllLoss l) s = .next s ∧ exec (.ringCalibrate l) s = .next (s.abort 0x08002 7)
      ∧ exec (.retrain l) s = .next (s.abort 0x08002 7) := by
  show execRingLanePllLoss l s = _ ∧ execRingCalibrate l s = _ ∧ execRetrain l s = _
  obtain h | h := h <;> simp [execRingLanePllLoss, State.laneLost, execRingCalibrate, execRetrain, h]

theorem retrain_training (h : (s.link l).state = .training) : exec (.retrain l) s = .next (s.abort 0x08002 7) := by
  show execRetrain l s = _
  simp only [execRetrain, h]

end LinkStates
end Sys2Proof.Laws

namespace Sys2Proof.Proofs

/-- Settles O35: each clause is the case of that name of the commands above. -/
theorem ringLinkStates : Obligations.RingLinkStates := by
  intro l s x bad settled retrained
  refine ⟨ringLinkSettleDone_trains, fun polarity swapped hx hd hrun hp hk => congrArg _ (if_pos ⟨hx, hd, hrun, hp, hk⟩),
    fun _ _ => ringLinkTrained_none, ringLinkSettleDone_none, fun hx => congrArg _ (if_pos hx), fun hx => congrArg _ (if_neg hx),
    fun hx => congrArg _ (if_pos hx), fun hx => congrArg _ (if_neg hx), ?acquired, ?holdExpiry, ?holdOther, relock_settles,
    retrain_settles, relock_held, relock_unlit, retrain_training, fun hx => congrArg _ (if_neg hx), fun hx => congrArg _ (if_pos hx)⟩
  case acquired => exact ⟨fun ht => congrArg _ (linkTryTrain_trains ht), fun ht => congrArg _ (linkTryTrain_stands ht)⟩
  case holdExpiry =>
    intro hx hn
    have hexec : exec (.retrainHoldExpiry l) s = .next ((s.setLink l { x with holdDone := true }).linkTryTrain l) :=
      congrArg _ (if_pos ⟨hx, hn⟩)
    exact ⟨fun ht => hexec.trans (congrArg _ (linkTryTrain_trains ht)), fun ht => hexec.trans (congrArg _ (linkTryTrain_stands ht))⟩
  case holdOther =>
    intro h
    refine congrArg _ (if_neg fun ⟨hx, hn⟩ => ?_)
    exact h.elim (· hx) fun hh => by simp [hn] at hh

end Sys2Proof.Proofs
end

section
/-! Cells and markers of ring and pair links (R331 to R357), and the obligation RingLinkCells. -/

open Sys2Proof Sys2Proof.Machine Sys2Proof.Laws

namespace Sys2Proof.Laws

/-! ### A link that has left OFF -/

theorem link_ne_blank {x : RLink} (h : x.state ≠ .off) : x ≠ RLink.blank := fun e => h (e ▸ rfl)

theorem link_setLink_same (s : State) (l : Nat) {x : RLink} (h : x.state ≠ .off) : (s.setLink l x).link l = x :=
  (s.link_setLink l l (link_ne_blank h)).trans (if_pos rfl)

theorem setLink_setLink (s : State) (l : Nat) {x : RLink} (h : x.state ≠ .off) (y : RLink) :
    (s.setLink l x).setLink l y = s.setLink l y := by
  simp only [State.setLink, set_set_of_ne (link_ne_blank h)]

theorem linkUp_iff {s : State} {l : Nat} : s.linkUp l = true ↔ (s.link l).state = .up := by simp [State.linkUp]

theorem linkUp_eq_false_iff {s : State} {l : Nat} : s.linkUp l = false ↔ (s.link l).state ≠ .up := by
  simp [State.linkUp, beq_eq_false_iff_ne]

/-! ### Markers (R330, R348 to R350) -/

section Markers
variable {s : State} {l : Fin 5}

/-- Markers are acted on: the link is neither OFF nor SETTLING (R342). -/
def heedsMarkers (s : State) (l : Nat) : Prop := (s.link l).state ≠ .off ∧ (s.link l).state ≠ .settling

/-- The link after one more LINK_FAULT. -/
def faultNoted (x : RLink) : RLink := { x with faultRx := true, faultRun := min 4 (x.faultRun + 1), trainRun := 0 }

theorem linkFault_heeded (h : heedsMarkers s l) : exec (.linkFault l) s = .next
    (if (s.link l).state = .up ∧ 4 ≤ (s.link l).faultRun + 1 then (s.setLink l (faultNoted (s.link l))).linkFall l 3
      else s.setLink l (faultNoted (s.link l))) := by
  show execLinkFault l s = _
  obtain ⟨ho, hs⟩ := h
  cases hx : (s.link l).state <;> simp_all [execLinkFault, faultNoted]

theorem trainOk_heeded (h : heedsMarkers s l) (protect : Bool) : exec (.trainOk l protect) s = .next (s.setLink l { s.link l with
    trainRun := if (s.link l).trainProtect = protect then min 16 ((s.link l).trainRun + 1) else 1,
    trainProtect := protect, faultRx := false, faultRun := 0 }) := by
  show execTrainOk l protect s = _
  obtain ⟨ho, hs⟩ := h
  cases hx : (s.link l).state <;> simp_all [execTrainOk]

theorem delayProbe_heeded (h : heedsMarkers s l) (ta : Nat) :
    exec (.delayProbe l ta) s = .next ((s.setLink l (s.link l).breakRuns).marker l 4 (ta % 65536)) := by
  show execDelayProbe l ta s = _
  obtain ⟨ho, hs⟩ := h
  cases hx : (s.link l).state <;> simp_all [execDelayProbe]

/-- The link that has measured RT − TA. -/
def delayMeasured (x : RLink) (ta rt : Nat) : RLink := { x.breakRuns with raw := rt - ta }

/-- DELAY_ECHO by what the measured d is to the one in force (R350). -/
theorem delayEcho_heeded (h : heedsMarkers s l) (ta rt : Nat) :
    let d := (rt - ta + 31) / 32
    let y := delayMeasured (s.link l) ta rt
    exec (.delayEcho l ta rt) s = .next
      (if (s.link l).dValid = false then
          (if s.muster.epoch = 0 then s.setLink l y else (s.setLink l { y with dValid := true, d := d }).wantRoster)
        else if (s.link l).d = d then s.setLink l y
        else if (s.link l).state = .down then s.setLink l { y with cause := 6 }
        else (s.setLink l y).linkFall l 6) := by
  intro d y
  show execDelayEcho l ta rt s = _
  obtain ⟨ho, hs⟩ := h
  have hlink : (s.setLink l y).link l = y := link_setLink_same s l (x := y) ho
  have hset (z : RLink) : (s.setLink l y).setLink l z = s.setLink l z := setLink_setLink s l (x := y) ho z
  have hdv : y.dValid = (s.link l).dValid := rfl
  have hd : y.d = (s.link l).d := rfl
  have hstate : y.state = (s.link l).state := rfl
  have hmeasured : s.setLink l { (s.link l).breakRuns with raw := rt - ta } = s.setLink l y := rfl
  cases hx : (s.link l).state
  case off => exact absurd hx ho
  case settling => exact absurd hx hs
  all_goals
    simp only [execDelayEcho, hx, hmeasured, hlink]
    rw [hx] at hstate
    clear_value y
    cases hv : (s.link l).dValid <;> simp [hset, hstate, hdv, hd, hv, d]

/-- In OFF and SETTLING no marker is acted on (R342). -/
theorem markers_unheeded (h : (s.link l).state = .off ∨ (s.link l).state = .settling) :
    exec (.linkFault l) s = .next s ∧ (∀ p, exec (.trainOk l p) s = .next s) ∧ (∀ ta, exec (.delayProbe l ta) s = .next s)
      ∧ (∀ ta rt, exec (.delayEcho l ta rt) s = .next s) ∧ exec (.malformedSlot l false) s = .next s := by
  show execLinkFault l s = _ ∧ (∀ p, execTrainOk l p s = _) ∧ (∀ ta, execDelayProbe l ta s = _)
    ∧ (∀ ta rt, execDelayEcho l ta rt s = _) ∧ execMalformedSlot l false s = _
  obtain h | h := h <;> simp [execLinkFault, execTrainOk, execDelayProbe, execDelayEcho, execMalformedSlot, h]

end Markers

/-! ### What a firing leaves of a slot (R66, R497) -/

/-- What tells whether a slot is free, but for what Fires lists: the accesses that wait with the ledger, their use, and the phases of
the links. -/
structure SlotsKept (s t : State) : Prop where
  queue : t.ledger.queue = s.ledger.queue
  use : t.ledger.use = s.ledger.use
  carried : t.ledger.carried = s.ledger.carried
  phase : ∀ l, (t.link l).phase = (s.link l).phase

theorem SlotsKept.refl (s : State) : SlotsKept s s := ⟨rfl, rfl, rfl, fun _ => rfl⟩

theorem SlotsKept.trans {a b c : State} (h : SlotsKept a b) (g : SlotsKept b c) : SlotsKept a c :=
  ⟨g.queue.trans h.queue, g.use.trans h.use, g.carried.trans h.carried, fun l => (g.phase l).trans (h.phase l)⟩

theorem SlotsKept.of_eq {s t : State} (hl : t.ledger = s.ledger) (hr : t.ring = s.ring) : SlotsKept s t :=
  ⟨hl ▸ rfl, hl ▸ rfl, hl ▸ rfl, fun l => by rw [State.link, State.link, hr]⟩

theorem SlotsKept.ite {s a b : State} {c : Prop} [Decidable c] (ha : SlotsKept s a) (hb : SlotsKept s b) :
    SlotsKept s (if c then a else b) := by split <;> assumption

theorem SlotsKept.foldl {α : Type} {f : State → α → State} (hf : ∀ s x, SlotsKept s (f s x)) (l : List α) (s : State) :
    SlotsKept s (l.foldl f s) := by
  induction l generalizing s with
  | nil => exact SlotsKept.refl s
  | cons x l ih => exact (hf s x).trans (ih _)

section Firing
variable (s : State)

theorem slotsKept_tallyEvent (c : Nat) (p : List Nat) : SlotsKept s (s.tallyEvent c p) := by
  unfold State.tallyEvent
  refine SlotsKept.of_eq ?_ ?_ <;> grind [State.bump, State.setCount]

theorem slotsKept_interrupt (k : Nat) : SlotsKept s (s.interrupt k) := by
  unfold State.interrupt State.msiSend
  refine SlotsKept.of_eq ?_ ?_ <;> grind [State.bump, State.setCount, State.emit]

theorem slotsKept_firePlain (n inst detail : Nat) (forced : Bool) : SlotsKept s (s.firePlain n inst detail forced) := by
  unfold State.firePlain
  split
  · exact SlotsKept.refl s
  · extract_lets lv x u1 bell1 u2 bell2 u3 u4
    have h1 : SlotsKept s u1 := SlotsKept.of_eq rfl rfl
    have h2 : SlotsKept u1 u2 := SlotsKept.ite (SlotsKept.of_eq rfl rfl) (SlotsKept.refl _)
    have h3 : SlotsKept u2 u3 := SlotsKept.ite (SlotsKept.of_eq rfl rfl) (SlotsKept.refl _)
    have h4 : SlotsKept u3 u4 := slotsKept_tallyEvent u3 _ _
    exact (h1.trans (h2.trans (h3.trans h4))).trans (SlotsKept.ite (slotsKept_interrupt u4 1) (SlotsKept.refl u4))

theorem slotsKept_traceWords (w : List Word) : SlotsKept s (s.traceWords w) := by
  have htail (l : List (List Word)) (s : State) : SlotsKept s (l.foldl State.traceTail s) :=
    SlotsKept.foldl (f := State.traceTail) (fun s x => SlotsKept.of_eq rfl rfl) l s
  unfold State.traceWords
  extract_lets lost need kept trace1 tailed counted first trace2 lostOne
  refine SlotsKept.ite ((htail lost s).trans (SlotsKept.of_eq rfl rfl)) ?_
  have hlost : SlotsKept s lostOne := SlotsKept.of_eq rfl rfl
  exact SlotsKept.ite (hlost.trans (slotsKept_firePlain lostOne 3 0 0 false)) hlost

theorem slotsKept_fireCore (n inst detail : Nat) (forced : Bool) : SlotsKept s (s.fireCore n inst detail forced) := by
  unfold State.fireCore
  split
  · exact SlotsKept.refl s
  · dsimp only
    split
    · exact (slotsKept_firePlain s n inst detail forced).trans (slotsKept_traceWords _ _)
    · exact slotsKept_firePlain s n inst detail forced

theorem slotsKept_linkSafe (l : Nat) : SlotsKept s (s.linkSafe l) := by
  unfold State.linkSafe
  extract_lets x dict down fired
  refine SlotsKept.ite (SlotsKept.refl s) ?_
  have hx : ({ x.leave .down with cause := 7 } : RLink) ≠ RLink.blank := link_ne_blank (by simp [RLink.leave])
  have hdown : SlotsKept s down := by
    refine ⟨rfl, rfl, rfl, fun k => ?_⟩
    show ((s.setLink l _).link k).phase = _
    rw [s.link_setLink l k hx]
    split
    · next hk => rw [hk]; rfl
    · rfl
  have hfired : SlotsKept down fired := SlotsKept.ite (slotsKept_fireCore down 160 l 7 false) (SlotsKept.refl down)
  exact (hdown.trans hfired).trans ⟨rfl, rfl, rfl, fun _ => rfl⟩

theorem slotsKept_droverSafe (k : Nat) : SlotsKept s (s.droverSafe k) :=
  SlotsKept.ite (SlotsKept.of_eq rfl rfl) (SlotsKept.refl s)

theorem slotsKept_beaconSafe (b : Nat) : SlotsKept s (s.beaconSafe b) := by
  have hset (x : Beacon) : SlotsKept s (s.setBeacon b x) := SlotsKept.of_eq rfl rfl
  exact SlotsKept.ite ((hset _).trans (slotsKept_fireCore _ 114 b 0 false)) (SlotsKept.refl s)

theorem slotsKept_beaconsSafe : SlotsKept s s.beaconsSafe := SlotsKept.foldl slotsKept_beaconSafe _ s

theorem slotsKept_setChan (c : Nat) (x : BusChan) : SlotsKept s (s.setChan c x) := SlotsKept.of_eq rfl rfl

theorem slotsKept_withdraw (c b : Nat) : SlotsKept s (s.withdraw c b) :=
  SlotsKept.ite (SlotsKept.of_eq rfl rfl) (SlotsKept.refl s)

theorem slotsKept_dropFrames (c : Nat) : SlotsKept s (s.dropFrames c) :=
  (((slotsKept_withdraw s c 0).trans (slotsKept_withdraw _ c 1)).trans (slotsKept_withdraw _ c 2)).trans (slotsKept_setChan _ c _)

theorem slotsKept_busHaltOp (c : Nat) : SlotsKept s (s.busHaltOp c) :=
  (slotsKept_dropFrames s c).trans (slotsKept_setChan _ c _)

theorem slotsKept_busesSafe (test : Nat → Bool) : SlotsKept s (s.busesSafe test) := by
  unfold State.busesSafe
  refine SlotsKept.foldl ?_ _ s
  exact fun s p => slotsKept_busHaltOp s p.1

theorem slotsKept_tileSafe (t : Nat) : SlotsKept s (s.tileSafe t) :=
  (SlotsKept.foldl (fun s j => slotsKept_droverSafe s (16 * t + j)) _ s).trans (slotsKept_busesSafe _ _)

theorem slotsKept_gateDown (g cause : Nat) : SlotsKept s (s.gateDown g cause) :=
  SlotsKept.ite (SlotsKept.of_eq rfl rfl) (SlotsKept.refl s)

theorem slotsKept_quayHaltOp : SlotsKept s s.quayHaltOp := SlotsKept.of_eq rfl rfl

theorem slotsKept_enterSafe (n inst : Nat) : SlotsKept s (s.enterSafe n inst) := by
  unfold State.enterSafe
  split
  · exact SlotsKept.ite (slotsKept_tileSafe s inst) (SlotsKept.refl s)
  · exact SlotsKept.ite (SlotsKept.foldl (fun s j => slotsKept_droverSafe s _) _ s) (slotsKept_droverSafe s inst)
  · exact slotsKept_busHaltOp s inst
  · exact slotsKept_linkSafe s inst
  · exact slotsKept_beaconsSafe s
  · exact slotsKept_quayHaltOp s
  · exact SlotsKept.foldl (fun s l => SlotsKept.ite (slotsKept_linkSafe s l) (SlotsKept.refl s)) _ s
  · exact slotsKept_gateDown s inst 9
  · exact SlotsKept.refl s

theorem slotsKept_enterFatal : SlotsKept s s.enterFatal := by
  unfold State.enterFatal
  extract_lets drovers buses links
  have hdrovers : SlotsKept s drovers := SlotsKept.foldl slotsKept_droverSafe _ s
  have hlinks : SlotsKept buses links := SlotsKept.foldl slotsKept_linkSafe _ buses
  exact (hdrovers.trans ((slotsKept_busesSafe drovers _).trans hlinks)).trans
    (((slotsKept_beaconsSafe links).trans (slotsKept_quayHaltOp _)).trans (SlotsKept.foldl (fun s g => slotsKept_gateDown s g 9) _ _))

theorem slotsKept_keepSafe (before : State) : SlotsKept s (s.keepSafe before) := by
  unfold State.keepSafe
  refine SlotsKept.ite (SlotsKept.refl s) (SlotsKept.foldl (fun s p => ?_) _ s)
  exact SlotsKept.ite (SlotsKept.of_eq rfl rfl) (SlotsKept.refl s)

theorem slotsKept_pairBell : SlotsKept s s.pairBell := SlotsKept.ite (SlotsKept.of_eq rfl rfl) (SlotsKept.refl s)

theorem slotsKept_fire (n inst detail : Nat) (forced : Bool) : SlotsKept s (s.fire n inst detail forced) := by
  unfold State.fire
  extract_lets before fired ledger severe safe fatal
  have hsevere : SlotsKept fired severe := SlotsKept.ite ⟨rfl, rfl, rfl, fun _ => rfl⟩ (SlotsKept.refl fired)
  have hsafe : SlotsKept severe safe :=
    SlotsKept.foldl (fun s i => (slotsKept_keepSafe s before).trans (slotsKept_enterSafe _ n i)) _ severe
  have hfatal : SlotsKept safe fatal :=
    SlotsKept.ite ((slotsKept_keepSafe safe before).trans (slotsKept_enterFatal _)) (SlotsKept.refl safe)
  exact (slotsKept_fireCore s n inst detail forced).trans (hsevere.trans (hsafe.trans (hfatal.trans (slotsKept_pairBell fatal))))

end Firing

section
variable (s : State) (k : Nat)

theorem slotsKept_countWrap : SlotsKept s (s.countWrap k) := by
  unfold State.countWrap
  extract_lets counted ring
  have hc : SlotsKept s counted := SlotsKept.of_eq rfl rfl
  have hr : SlotsKept s { counted with ring.wrapSeen := true } := ⟨rfl, rfl, rfl, fun _ => rfl⟩
  exact SlotsKept.ite hc (hr.trans (slotsKept_fire _ 178 k 0 false))

theorem fires_countWrap : Fires s (s.countWrap k) := by
  unfold State.countWrap
  extract_lets counted ring
  have hc : Fires s counted := fires_linkCount s k 9 (Fires.refl s)
  exact Fires.ite hc (fires_fire _ _ _ _ _ (hc.trans ⟨rfl, rfl, rfl, rfl, rfl, rfl, rfl, rfl, rfl, rfl, rfl, rfl, rfl, rfl, rfl, rfl⟩))

end

/-- A wrap's count and event leave a slot free or taken as it was. -/
theorem countWrap_slotFree (s : State) (k l beat slot : Nat) : (s.countWrap k).slotFree l beat slot = s.slotFree l beat slot := by
  have hslots := slotsKept_countWrap s k
  have hfires := fires_countWrap s k
  have hcands (r i off : Nat) : (s.countWrap k).cands r i off = s.cands r i off := by
    simp only [State.cands, State.queueOf, State.presents, State.holdFree, State.abs, State.awakeAt, hslots.queue, hslots.carried,
      hfires.tide]
    rfl
  have hquota (x : Cand) : (s.countWrap k).withinQuota x.cls x.acc = s.withinQuota x.cls x.acc := by
    simp only [State.withinQuota, State.belowQuota, State.useOf, State.quotaLimit, State.cfg, State.tideP, State.tideRuns, hslots.use,
      hfires.tide, hfires.table, hfires.time, hfires.dict_settings]
    rfl
  simp only [State.slotFree, State.slotPlanned, State.tableRuns, State.sect, State.activeHalf, State.slotOffset, State.gridPhase,
    hslots.phase, hfires.tide, hfires.table, hcands, hquota]

/-! ### A cell that arrives (R342) -/

section Arrives
variable {u : State} {l : Nat} {cell : List Word} {check beat slot : Nat}

theorem cellArrives_none (h : ¬(cell.length = 32 ∧ u.linkUp l = true)) : u.cellArrives l cell check beat slot = u := by
  refine if_pos ?_
  rwa [← Bool.not_eq_true, ← not_and_or]

section Up
variable (h : cell.length = 32 ∧ u.linkUp l = true)
include h

theorem cellArrives_planned {r : SlotRec} (hr : u.slotRec l (u.hereBeat l beat) slot = some r) :
    u.cellArrives l cell check beat slot
      = u.plannedIn l (u.opened l cell check).1 (u.opened l cell check).2 (u.hereBeat l beat) slot r := by
  simp [State.cellArrives, h.1, h.2, hr]

theorem cellArrives_unplanned (hr : u.slotRec l (u.hereBeat l beat) slot = none) :
    u.cellArrives l cell check beat slot
      = u.unplannedIn l (u.opened l cell check).1 (u.opened l cell check).2 (u.hereBeat l beat) slot := by
  simp [State.cellArrives, h.1, h.2, hr]

end Up
end Arrives

/-! ### A cell in a slot that a record names (R342) -/

section Planned
variable (u : State) (l : Nat) {cell : List Word} {check : Nat} (beat slot : Nat) (r : SlotRec)

/-- The context of a record's cell in the running tide (R332). -/
def recordCtx (u : State) (r : SlotRec) : Nat := cellCtx r.src r.stream (u.time.F % 2 ^ 18)

/-- The record's cell, once checked, is counted. -/
def plannedGood (u : State) (l : Nat) (cell : List Word) (check : Nat) : State := (u.cellIn l cell check true).linkCount l 1

/-- The record's cell is kept in the receive slot of its stream, if it has one (R336). -/
def plannedKept (u v : State) (l : Nat) (cell : List Word) (r : SlotRec) : State :=
  match v.rxOf r.src r.stream with
  | some n => v.keepCell l n (u.time.F % 2 ^ 18) cell
  | none => v

/-- The record's cell goes on in its beat and slot, or counts where the onward link carries no scheduled cells. -/
def plannedOut (t : State) (l : Nat) (cell : List Word) (ctx : Nat) (place : List Nat) : State :=
  if t.linkSched (onward l) then (t.cellOut (onward l) cell ctx place).linkCount (onward l) 0 else t.linkCount (onward l) 6

theorem plannedIn_fails (hc : cellCheck (recordCtx u r) cell ≠ check) :
    u.plannedIn l cell check beat slot r = if r.action = 3 ∨ r.action = 4 then
      ((u.cellIn l cell check false).checkFail l).bump 0x08008 3 else (u.cellIn l cell check false).checkFail l := by
  have hb : (cellCheck (recordCtx u r) cell == check) = false := beq_false_of_ne hc
  rw [recordCtx] at hb
  simp only [State.plannedIn, hb, Bool.not_false, if_true]

section Checked
variable (hc : cellCheck (recordCtx u r) cell = check)
include hc

theorem plannedIn_checked : u.plannedIn l cell check beat slot r =
    let v := plannedGood u l cell check
    let w := if r.action = 3 ∨ r.action = 4 then plannedKept u v l cell r else v
    if r.action = 2 ∨ r.action = 3 then plannedOut w l cell (recordCtx u r) [beat, slot] else w := by
  have hb : (cellCheck (recordCtx u r) cell == check) = true := beq_iff_eq.mpr hc
  rw [recordCtx] at hb
  simp only [State.plannedIn, hb, Bool.not_true, Bool.false_eq_true, if_false]
  rfl

theorem plannedIn_passes (ha : r.action = 2) : u.plannedIn l cell check beat slot r
    = plannedOut (plannedGood u l cell check) l cell (recordCtx u r) [beat, slot] :=
  (plannedIn_checked u l beat slot r hc).trans (by simp [ha])

theorem plannedIn_keepsAndPasses (ha : r.action = 3) : u.plannedIn l cell check beat slot r
    = plannedOut (plannedKept u (plannedGood u l cell check) l cell r) l cell (recordCtx u r) [beat, slot] :=
  (plannedIn_checked u l beat slot r hc).trans (by simp [ha])

theorem plannedIn_keeps (ha : r.action = 4) :
    u.plannedIn l cell check beat slot r = plannedKept u (plannedGood u l cell check) l cell r :=
  (plannedIn_checked u l beat slot r hc).trans (by simp [ha])

theorem plannedIn_ends (ha : r.action = 5) : u.plannedIn l cell check beat slot r = plannedGood u l cell check :=
  (plannedIn_checked u l beat slot r hc).trans (by simp [ha])

end Checked
end Planned

/-! ### A cell in any other slot (R345, R346, R352) -/

section Unplanned
variable {u : State} {l : Nat} {cell : List Word} {check beat slot : Nat}

/-- Word k of a cell as a number. -/
def cellWord (cell : List Word) (k : Nat) : Nat := (cell.getD k 0).toNat

/-- An unscheduled cell whose check holds is counted. -/
def unplannedGood (u : State) (l : Nat) (cell : List Word) (check : Nat) : State := (u.cellIn l cell check true).linkCount l 3

/-- The cell is this station's: addressed to it, or a broadcast of its own that came whole round (R346). -/
def ownCell (v : State) (cell : List Word) : Prop :=
  if bit (cellWord cell 0) 12 then 2 * fld (cellWord cell 1) 17 8 + fld (cellWord cell 1) 7 7 = v.station
    ∧ bit (cellWord cell 0) 13 = false
  else 2 * fld (cellWord cell 0) 10 1 + fld (cellWord cell 0) 11 11 = v.station

theorem unplannedIn_fails (hc : cellCheck 0 cell ≠ check) :
    u.unplannedIn l cell check beat slot = (u.cellIn l cell check false).checkFail l := by
  simp only [State.unplannedIn, beq_false_of_ne hc, Bool.not_false, if_true]

section Checked
variable (hc : cellCheck 0 cell = check)
include hc

/-- A checked cell, by its header, by whether it ends here, by its HOPS and by what the onward link takes. -/
theorem unplannedIn_checked : u.unplannedIn l cell check beat slot =
    let v := unplannedGood u l cell check
    if headerReserved l (cellWord cell) then v.dropReserved l
    else if l = 4 then v
    else if !bit (cellWord cell 0) 12 && 2 * fld (cellWord cell 0) 10 1 + fld (cellWord cell 0) 11 11 == v.station then v
    else if bit (cellWord cell 0) 12 && 2 * fld (cellWord cell 1) 17 8 + fld (cellWord cell 1) 7 7 == v.station
        && !bit (cellWord cell 0) 13 then v
    else if fld (cellWord cell 3) 17 6 ≤ 1 then v.linkCount l 8
    else if v.linkTakes (onward l) then v.passOn (onward l) (lessHop cell) (v.slotFree (onward l) beat slot)
    else if bit (cellWord cell 0) 13 then v.linkCount (onward l) 9
    else (v.countWrap (onward l)).passOn l (setWrapped (lessHop cell)) (v.slotFree l beat slot) := by
  simp only [State.unplannedIn, beq_iff_eq.mpr hc, Bool.not_true, Bool.false_eq_true, if_false]
  rfl

theorem unplannedIn_reserved (hr : headerReserved l (cellWord cell) = true) :
    u.unplannedIn l cell check beat slot = (unplannedGood u l cell check).dropReserved l :=
  (unplannedIn_checked hc).trans (if_pos hr)

section Sound
variable (hr : headerReserved l (cellWord cell) = false)
include hr

theorem unplannedIn_ends (hend : l = 4 ∨ ownCell (unplannedGood u l cell check) cell) :
    u.unplannedIn l cell check beat slot = unplannedGood u l cell check := by
  rw [unplannedIn_checked hc]
  obtain rfl | hown := hend
  · simp [hr]
  · unfold ownCell at hown
    cases h12 : bit (cellWord cell 0) 12 <;> simp_all

/-- A cell that does not end here goes on, by its HOPS and by what the onward link takes. -/
theorem unplannedIn_goesOn (hend : ¬(l = 4 ∨ ownCell (unplannedGood u l cell check) cell)) :
    u.unplannedIn l cell check beat slot =
      let v := unplannedGood u l cell check
      if fld (cellWord cell 3) 17 6 ≤ 1 then v.linkCount l 8
      else if v.linkTakes (onward l) then v.passOn (onward l) (lessHop cell) (v.slotFree (onward l) beat slot)
      else if bit (cellWord cell 0) 13 then v.linkCount (onward l) 9
      else (v.countWrap (onward l)).passOn l (setWrapped (lessHop cell)) ((v.countWrap (onward l)).slotFree l beat slot) := by
  rw [unplannedIn_checked hc]
  unfold ownCell at hend
  cases h12 : bit (cellWord cell 0) 12 <;> simp_all [countWrap_slotFree]

end Sound
end Checked
end Unplanned

/-! ### What waits on a link (R66, R343) -/

/-- The grid of a ring link stands at its phase (R60). -/
theorem slotOffset_ring (s : State) (l : Fin 4) (beat slot : Nat) :
    s.slotOffset l beat slot = 36 * beat + (s.link l).phase + 36 * slot / 5 := by
  have hl : l.val ≠ 4 := by omega
  simp only [State.slotOffset, State.gridPhase, if_neg hl]

section Waits
variable {s : State} {l : Nat}

/-- The slot is left to what waits: the link is UP, and neither a scheduled cell nor the ledger has it. -/
def serves (s : State) (l beat slot : Nat) : Prop := s.linkUp l = true ∧ s.slotFree l beat slot = true

theorem slotServes_marker {beat slot code arg : Nat} {rest : List (Nat × Nat)} (h : serves s l beat slot)
    (hm : (s.link l).marks = (code, arg) :: rest) :
    s.slotServes l beat slot = (s.setLink l { s.link l with marks := rest }).emit .marker l [code, arg] := by
  simp [State.slotServes, h.1, h.2, hm]

theorem slotServes_cell {beat slot : Nat} {w : List Word} {rest : List (List Word)} (h : serves s l beat slot)
    (hm : (s.link l).marks = []) (ht : (s.link l).transit = w :: rest) :
    s.slotServes l beat slot = (s.setLink l { s.link l with transit := rest }).unschedOut l w := by
  simp [State.slotServes, h.1, h.2, hm, ht]

theorem slotServes_none {beat slot : Nat} (h : ¬ serves s l beat slot ∨ ((s.link l).marks = [] ∧ (s.link l).transit = [])) :
    s.slotServes l beat slot = s := by
  by_cases hs : serves s l beat slot
  · obtain ⟨hm, ht⟩ := h.resolve_left (not_not_intro hs)
    simp [State.slotServes, hs.1, hs.2, hm, ht]
  · unfold serves at hs
    simp [State.slotServes, hs]

theorem passOn_leaves {w : List Word} (hu : s.linkUp l = true) (ht : (s.link l).transit = []) :
    s.passOn l w true = s.unschedOut l w := by simp [State.passOn, hu, ht]

theorem passOn_waits {w : List Word} {free : Bool} (h : free = false ∨ s.linkUp l = false ∨ (s.link l).transit ≠ []) :
    s.passOn l w free = s.transitPut l w := by
  refine if_neg ?_
  obtain h | h | h := h <;> simp [h]

end Waits

/-! ### TOPOLOGY (R351) -/

theorem topology_taken {st : Fin 2048} {l : Fin 5} {up : Bool} {n : Nat} {s : State} (hst : st.val ≠ s.station)
    (h : ∀ v, Tab.get none s.ring.topo (8 * st.val + l.val) = some v → newer16 (n % 65536) (v / 2) = true) :
    exec (.topology st l up n) s = .next ((({ s with
      ring.topo := Tab.set none s.ring.topo (8 * st.val + l.val) (some (2 * (n % 65536) + if up then 1 else 0)) } : State).repath).syntonise) := by
  refine congrArg _ (if_pos ?_)
  rw [Bool.and_eq_true, bne_iff_ne]
  refine ⟨?_, hst⟩
  split
  · rfl
  · next v hv => exact h v hv

theorem topology_old {st : Fin 2048} {l : Fin 5} {up : Bool} {n v : Nat} {s : State}
    (hv : Tab.get none s.ring.topo (8 * st.val + l.val) = some v) (hold : newer16 (n % 65536) (v / 2) = false) :
    exec (.topology st l up n) s = .next s := by
  refine congrArg _ (if_neg ?_)
  simp [hv, hold]

/-! ### SEAL and its limit (R357) -/

section Seals
variable {s : State} {l : Fin 5}

/-- The message of a tide that a link has received, empty where none is kept. -/
def sealOf (x : RLink) (tide : Nat) : SealMsg := (x.seals.find? fun m => m.tide == tide).getD ⟨tide, [], false⟩

/-- The link with the messages up to a tide settled. -/
def sealsSettled (s : State) (l tide : Nat) : State :=
  s.setLink l { s.link l with seals := (s.link l).seals.filter fun m => decide (tide < m.tide) }

section Protected
variable (hp : s.protect l = true) (hu : s.linkUp l = true)
include hp hu

theorem seal_noKey {tag tide : Nat} (hk : (s.link l).key = none) :
    exec (.seal_ l tag tide) s = .next ((sealsSettled s l tide).authEvent l tide) := by
  show execSeal l tag tide s = _
  simp [execSeal, hp, hu, hk, sealsSettled]

theorem seal_keyed {tag tide k : Nat} (hk : (s.link l).key = some k) :
    exec (.seal_ l tag tide) s = .next
      (if (sealOf (s.link l) tide).tagOk k (gcmIv (s.farEnd l).1 (s.farEnd l).2 tide) tag then sealsSettled s l tide
        else if (sealOf (s.link l) tide).failed then (sealsSettled s l tide).linkCount l 11
        else (sealsSettled s l tide).authEvent l tide) := by
  show execSeal l tag tide s = _
  simp [execSeal, hp, hu, hk, sealsSettled, sealOf]

theorem sealLimit_late (hlate : (s.link l).sealLate (fld (s.cfg 0x08005 l) 25 23) s.time.F = true) :
    exec (.sealLimitExpiry l) s = .next (s.authEvent l (((s.link l).seals.head?.map SealMsg.tide).getD 0)) := by
  show execSealLimitExpiry l s = _
  simp only [execSealLimitExpiry, hp, hu, hlate, Bool.and_self, if_true]

end Protected

theorem sealLimit_intime (h : (s.link l).sealLate (fld (s.cfg 0x08005 l) 25 23) s.time.F = false) :
    exec (.sealLimitExpiry l) s = .next s := by
  show execSealLimitExpiry l s = _
  simp only [execSealLimitExpiry, h, Bool.and_false, Bool.false_eq_true, if_false]

theorem seal_none {tag tide : Nat} (h : s.protect l = false ∨ s.linkUp l = false) :
    exec (.seal_ l tag tide) s = .next s ∧ exec (.sealLimitExpiry l) s = .next s := by
  show execSeal l tag tide s = _ ∧ execSealLimitExpiry l s = _
  obtain h | h := h <;> simp [execSeal, execSealLimitExpiry, h]

end Seals

/-! ### Malformed slots and reserved cells (R331, R345) -/

section Malformed
variable {s : State} {l : Fin 5}

theorem malformedSlot_cell (hu : s.linkUp l = true) : exec (.malformedSlot l true) s = .next ((s.badCellIn l).linkCount l 4) := by
  show execMalformedSlot l true s = _
  simp [execMalformedSlot, linkUp_iff.mp hu]

theorem malformedSlot_noCell (hu : s.linkUp l = false) : exec (.malformedSlot l true) s = .next s := by
  show execMalformedSlot l true s = _
  have hup := linkUp_eq_false_iff.mp hu
  cases hx : (s.link l).state
  case up => exact absurd hx hup
  all_goals simp [execMalformedSlot, hx]

theorem malformedSlot_marker (h : heedsMarkers s l) :
    exec (.malformedSlot l false) s = .next ((s.setLink l (s.link l).breakRuns).dropReserved l) := by
  show execMalformedSlot l false s = _
  obtain ⟨ho, hs⟩ := h
  cases hx : (s.link l).state
  case off => exact absurd hx ho
  case settling => exact absurd hx hs
  all_goals simp [execMalformedSlot, hx]

theorem badCellIn_plain (h : s.protect l = false) : s.badCellIn l = s := if_neg (ne_true_of_eq_false h)

variable {cell : List Word} {check : Fin 256}

theorem reservedCell_none (h : s.linkUp l = false ∨ cell.length ≠ 32) : exec (.reservedCell l cell check) s = .next s := by
  show execReservedCell l cell check s = _
  obtain h | h := h <;> simp [execReservedCell, h]

section Arrives
variable (hlen : cell.length = 32) (hu : s.linkUp l = true)
include hlen hu

theorem reservedCell_fails (hc : cellCheck 0 (s.opened l cell check).1 ≠ (s.opened l cell check).2) :
    exec (.reservedCell l cell check) s
      = .next ((s.cellIn l (s.opened l cell check).1 (s.opened l cell check).2 false).checkFail l) := by
  show execReservedCell l cell check s = _
  simp [execReservedCell, hlen, hu, beq_false_of_ne hc]

theorem reservedCell_counts (hc : cellCheck 0 (s.opened l cell check).1 = (s.opened l cell check).2) :
    exec (.reservedCell l cell check) s
      = .next (((unplannedGood s l (s.opened l cell check).1 (s.opened l cell check).2).countReserved l
          (cellWord (s.opened l cell check).1)).fire 179 l) := by
  show execReservedCell l cell check s = _
  simp only [execReservedCell, hlen, hu, ne_eq, not_true_eq_false, if_false, Bool.not_true, Bool.false_eq_true,
    beq_iff_eq.mpr hc, if_true]
  rfl

end Arrives
/-! Where a dropped cell counts (R345, R364, R400, R428). -/

section Counts
variable (u : State) {w : Nat → Nat}

theorem countReserved_header {k : Nat} (h : headerReserved k w = true) : u.countReserved k w = u.linkCount k 10 := if_pos h

theorem countReserved_kind {k : Nat} (h : headerReserved k w = false) :
    ((fld (w 0) 17 14 = 3 ∨ fld (w 0) 17 14 = 4) → u.countReserved k w = u.bump 0x08017 7)
      ∧ (fld (w 0) 17 14 = 5 → u.countReserved k w = u.bump 0x09016 7)
      ∧ (fld (w 0) 17 14 = 8 → u.countReserved k w = u.bump 0x0A008 8)
      ∧ (fld (w 0) 17 14 ≠ 3 → fld (w 0) 17 14 ≠ 4 → fld (w 0) 17 14 ≠ 5 → fld (w 0) 17 14 ≠ 8 →
          u.countReserved k w = u.linkCount k 10) := by
  unfold State.countReserved
  rw [if_neg (ne_true_of_eq_false h)]
  refine ⟨?_, ?_, ?_, ?_⟩
  · rintro (h | h) <;> simp only [h]
  · intro h; simp only [h]
  · intro h; simp only [h]
  · intro h3 h4 h5 h8
    split
    · exact absurd ‹_› h3
    · exact absurd ‹_› h4
    · exact absurd ‹_› h5
    · exact absurd ‹_› h8
    · rfl

end Counts
end Malformed
end Sys2Proof.Laws

namespace Sys2Proof.Proofs

/-- Settles O36: each clause is the case of that name of the commands above. -/
theorem ringLinkCells : Obligations.RingLinkCells := by
  refine ⟨fun l s ho hs => ⟨?fault, ?faultShort, trainOk_heeded ⟨ho, hs⟩, delayProbe_heeded ⟨ho, hs⟩, ?echo⟩, fun l s h => ?unheeded,
    ?cell, ?transit, ?passOn, fun st l up n s hst => ⟨topology_taken hst, fun v => topology_old⟩, ?seals,
    fun l tag tide s => seal_none, fun l s => malformedSlot_noCell, ?unheededSlot, ?trainingSlot, ?upSlot, ?reserved,
    fun l cell check s => reservedCell_none⟩
  case fault => exact fun hu h4 => (linkFault_heeded ⟨ho, hs⟩).trans (congrArg _ (if_pos ⟨hu, h4⟩))
  case faultShort =>
    refine fun h => (linkFault_heeded ⟨ho, hs⟩).trans (congrArg _ (if_neg fun ⟨hu, h4⟩ => ?_))
    exact h.elim (· hu) fun h => by omega
  case echo =>
    intro ta rt d y
    have hecho := delayEcho_heeded (l := l) (s := s) ⟨ho, hs⟩ ta rt
    refine ⟨fun hv he => hecho.trans ?_, fun hv he => hecho.trans ?_, fun hv hd => hecho.trans ?_,
      fun hv hd hx => hecho.trans ?_, fun hv hd hx => hecho.trans ?_⟩
    · rw [if_pos hv, if_neg he]; rfl
    · rw [if_pos hv, if_pos he]; rfl
    · rw [if_neg (ne_false_of_eq_true hv), if_pos hd]; rfl
    · rw [if_neg (ne_false_of_eq_true hv), if_neg hd, if_pos hx]; rfl
    · rw [if_neg (ne_false_of_eq_true hv), if_neg hd, if_neg hx]; rfl
  case unheeded =>
    obtain ⟨hf, ht, hp, he, -⟩ := markers_unheeded h
    exact ⟨hf, ht, hp, he⟩
  case cell =>
    intro l beat slot cell check s u plain sum b arrives onw r
    have hr : r = .next (u.cellArrives l cell check beat slot) := rfl
    refine ⟨rfl, fun h => hr.trans (congrArg _ (cellArrives_none h)), fun x ha hx => ?planned, fun ha hx => ?unplanned⟩
    case planned =>
      have hp := hr.trans (congrArg _ (cellArrives_planned ha hx))
      refine ⟨fun hc => hp.trans (congrArg _ (plannedIn_fails u l b slot x hc)), fun hc => ⟨fun h2 => ?_, fun h3 => ?_, fun h4 => ?_,
        fun h5 => ?_⟩⟩
      · exact hp.trans (congrArg _ (plannedIn_passes u l b slot x hc h2))
      · exact hp.trans (congrArg _ (plannedIn_keepsAndPasses u l b slot x hc h3))
      · exact hp.trans (congrArg _ (plannedIn_keeps u l b slot x hc h4))
      · exact hp.trans (congrArg _ (plannedIn_ends u l b slot x hc h5))
    case unplanned =>
      have hp := hr.trans (congrArg _ (cellArrives_unplanned ha hx))
      intro w v own reserved here
      refine ⟨fun hc => hp.trans (congrArg _ (unplannedIn_fails hc)), fun hc hres => hp.trans (congrArg _ (unplannedIn_reserved hc hres)),
        fun hc hres hend => ?_, fun hc hres hend hhops => ?_, fun hc hres hend hhops => ?_⟩
      · exact hp.trans (congrArg _ (unplannedIn_ends hc (Bool.eq_false_iff.mpr hres) hend))
      · have hgo := unplannedIn_goesOn (beat := b) (slot := slot) hc (Bool.eq_false_iff.mpr hres) hend
        exact hp.trans (congrArg _ (hgo.trans (if_pos hhops)))
      · have hgo := unplannedIn_goesOn (beat := b) (slot := slot) hc (Bool.eq_false_iff.mpr hres) hend
        have hon := hp.trans (congrArg _ (hgo.trans (if_neg (not_le_of_gt hhops))))
        refine ⟨fun ht => hon.trans (congrArg _ (if_pos ht)), fun ht h13 => ?_, fun ht h13 => ?_⟩
        · exact hon.trans (congrArg _ ((if_neg (ne_true_of_eq_false ht)).trans (if_pos h13)))
        · exact hon.trans (congrArg _ ((if_neg (ne_true_of_eq_false ht)).trans (if_neg (ne_true_of_eq_false h13))))
  case transit =>
    intro l beat slot s u x free r
    have hr : r = .next (u.slotServes l beat slot) := by
      show execTransitCellSend l beat slot s = _
      simp only [execTransitCellSend, slotOffset_ring, u]
    exact ⟨fun code arg rest hf hm => hr.trans (congrArg _ (slotServes_marker hf hm)),
      fun w rest hf hm ht => hr.trans (congrArg _ (slotServes_cell hf hm ht)), fun h => hr.trans (congrArg _ (slotServes_none h))⟩
  case passOn =>
    intro l w free s x
    refine ⟨fun hf hu ht => hf ▸ passOn_leaves hu ht, fun h => ⟨fun hfits => ?_, fun hfull => ?_⟩⟩
    · exact (passOn_waits h).trans (if_neg (not_le_of_gt hfits))
    · exact (passOn_waits h).trans (if_pos hfull)
  case seals =>
    intro l tag tide s hp hu x m u iv
    refine ⟨seal_noKey hp hu, fun k hk htag => (seal_keyed hp hu hk).trans ?_, fun k hk htag hf => (seal_keyed hp hu hk).trans ?_,
      fun k hk htag hf => (seal_keyed hp hu hk).trans ?_, sealLimit_late hp hu, sealLimit_intime⟩
    · exact congrArg _ (if_pos htag)
    · exact congrArg _ ((if_neg (ne_true_of_eq_false htag)).trans (if_pos hf))
    · exact congrArg _ ((if_neg (ne_true_of_eq_false htag)).trans (if_neg (ne_true_of_eq_false hf)))
  case unheededSlot =>
    intro l s h
    obtain ⟨-, -, -, -, hslot⟩ := markers_unheeded h
    exact hslot
  case trainingSlot =>
    intro l s h
    refine malformedSlot_marker ⟨?_, ?_⟩ <;> obtain h | h := h <;> simp [h]
  case upSlot =>
    intro l s hu
    refine ⟨malformedSlot_cell hu, fun hp => ?_, malformedSlot_marker ?_⟩
    · rw [malformedSlot_cell hu, badCellIn_plain hp]
    · exact ⟨by simp [linkUp_iff.mp hu], by simp [linkUp_iff.mp hu]⟩
  case reserved =>
    intro l cell check s hlen hu plain sum w v named r
    refine ⟨reservedCell_fails hlen hu, fun hc => ?_⟩
    have hr := reservedCell_counts hlen hu hc
    have hfire {a b : State} (h : a = b) : (Host.Outcome.next (a.fire 179 l) : Host.Outcome State Fault Refusal) = .next (b.fire 179 l) := by rw [h]
    have hheader (hn : ¬ named) := countReserved_header v (Bool.not_eq_false _ ▸ hn : headerReserved l w = true)
    refine ⟨fun hn => ?muster, fun hn => ?time, fun hn => ?pair, fun hn => hr.trans (hfire (hheader hn)), fun hn => ?other⟩
    all_goals obtain ⟨hmuster, htime, hpair, hother⟩ := countReserved_kind v (w := w) hn
    case muster => exact fun h => hr.trans (hfire (hmuster h))
    case time => exact fun h => hr.trans (hfire (htime h))
    case pair => exact fun h => hr.trans (hfire (hpair h))
    case other => exact fun h3 h4 h5 h8 => hr.trans (hfire (hother h3 h4 h5 h8))

end Sys2Proof.Proofs
end

section
/-! TIDE cells and their loss (R373 to R375), and the obligation MusterTides. -/

open Sys2Proof Sys2Proof.Machine Sys2Proof.Laws

namespace Sys2Proof.Laws

/-! ### A first copy and what it leaves (R363, R365) -/

theorem firstCopy_eq_some {s w : State} {src kind type id : Nat} (h : s.firstCopy src kind type id = some w) :
    w = { s with muster.seen := Tab.set 0 s.muster.seen (src * 256 + kind * 16 + type) (id + 1) } := by
  unfold State.firstCopy at h
  dsimp only at h
  split at h
  · cases h
  · exact (Option.some.inj h).symm

/-- The station once it has seen the first copy of a TIDE: its highest tide and epoch rise. -/
def tideSeen (w : State) (epoch f : Nat) : State :=
  State.seeEpoch { w with time.highest := max w.time.highest (f + 1) } epoch

theorem tideSeen_muster {s w : State} {src id : Nat} (epoch f : Nat) (hw : s.firstCopy src 4 1 id = some w) :
    (tideSeen w epoch f).muster.state = s.muster.state ∧ (tideSeen w epoch f).muster.role = s.muster.role
      ∧ (tideSeen w epoch f).muster.epoch = s.muster.epoch ∧ (tideSeen w epoch f).muster.ebb = s.muster.ebb := by
  rw [firstCopy_eq_some hw]
  exact ⟨rfl, rfl, rfl, rfl⟩

section Tide
variable {s w : State} {src : Fin 2048} {epoch claimw f p : Nat} {acting : Bool} (up : s.dict.shepherds = true)
include up

theorem tide_laterCopy (h : src.val = s.station ∨ s.firstCopy src 4 1 (epoch * 2 ^ 36 + f) = none) :
    execTide src epoch claimw acting f p s = .next s := by
  rw [execTide, byShepherd_up up]
  by_cases hs : src.val = s.station
  · rw [if_pos hs]
  · rw [if_neg hs, h.resolve_left hs]

section FirstCopy
variable (hs : src.val ≠ s.station) (hw : s.firstCopy src 4 1 (epoch * 2 ^ 36 + f) = some w)
include hs hw

theorem tide_listen (hm : s.muster.state = .listen) : execTide src epoch claimw acting f p s
    = .next ((tideSeen w epoch f).enterJoining.joinTide src epoch claimw f p acting) := by
  have hu := (tideSeen_muster epoch f hw).1.trans hm
  rw [tideSeen] at hu
  simp only [execTide, byShepherd_up up, if_neg hs, hw, hu, tideSeen]

theorem tide_joining (hm : s.muster.state = .joining) : execTide src epoch claimw acting f p s
    = .next ((tideSeen w epoch f).joinTide src epoch claimw f p acting) := by
  have hu := (tideSeen_muster epoch f hw).1.trans hm
  rw [tideSeen] at hu
  simp only [execTide, byShepherd_up up, if_neg hs, hw, hu, tideSeen]

/-- At a member a tide master judges the cell, and a station that does not lead takes it where it is of its epoch. -/
theorem tide_member (hm : s.muster.state = .member ∨ s.muster.state = .ebbPending) :
    execTide src epoch claimw acting f p s = .next
      (let u := tideSeen w epoch f
       if s.muster.role ≠ 0 then u.masterTide src epoch claimw f p acting
       else if epoch ≠ s.muster.epoch then u
       else if acting = true then
         ({ u with muster.acting := true, muster.actStation := src.val, muster.standin := false } : State).syntonise
       else
         ({ u with muster.masterKnown := true, muster.masterClaimw := claimw, muster.acting := false, muster.lost := false,
                   muster.standin := false,
                   muster.ebb := if s.muster.ebb = EbbPhase.beacon then .awake else s.muster.ebb } : State).syntonise) := by
  obtain ⟨hstate, hrole, hepoch, hebb⟩ := tideSeen_muster epoch f hw
  rw [← hrole, ← hepoch, ← hebb]
  obtain hm | hm := hm <;>
    rw [hm, tideSeen] at hstate <;>
    simp only [execTide, byShepherd_up up, if_neg hs, hw, hstate, tideSeen] <;>
    rfl

theorem tide_apart (hm : s.muster.state = .solo ∨ s.muster.state = .claiming ∨ s.muster.state = .yielded
    ∨ s.muster.state = .ebbed ∨ s.muster.state = .out) :
    execTide src epoch claimw acting f p s = .next (tideSeen w epoch f) := by
  obtain ⟨hstate, -, -, -⟩ := tideSeen_muster epoch f hw
  obtain hm | hm | hm | hm | hm := hm <;>
    rw [hm, tideSeen] at hstate <;>
    simp only [execTide, byShepherd_up up, if_neg hs, hw, hstate, tideSeen]

end FirstCopy

/-! ### TIDE_MASTER_LOSS (R374, R380, R382) -/

/-- A station that does not lead and has not yet lost its tide master. -/
def mayLoseMaster (s : State) : Prop :=
  (s.muster.state = .member ∨ s.muster.state = .ebbPending) ∧ s.muster.role = 0 ∧ s.muster.lost = false

theorem tideMasterLoss_standsIn (h : mayLoseMaster s) : execTideMasterLoss s = .next ({ s with
    muster.state := .member, muster.lost := true, muster.ebb := .beacon,
    muster.reason := if s.muster.ebb = .roundOpen ∨ s.muster.ebb = .pending then 5 else s.muster.reason } : State).standinNow.syntonise := by
  rw [execTideMasterLoss, byShepherd_up up]
  exact congrArg _ (if_pos h)

theorem tideMasterLoss_none (h : ¬ mayLoseMaster s) : execTideMasterLoss s = .next s := by
  rw [execTideMasterLoss, byShepherd_up up]
  exact congrArg _ (if_neg h)

end Tide
end Sys2Proof.Laws

namespace Sys2Proof.Proofs

/-- Settles O38: each clause is the case of that name of the commands above. -/
theorem musterTides : Obligations.MusterTides := by
  refine fun s up => ⟨fun src epoch claimw acting f p w hs hw => ?firstCopy, fun _ _ _ _ _ _ => tide_laterCopy up,
    fun hm hr hl => tideMasterLoss_standsIn up ⟨hm, hr, hl⟩, fun h => tideMasterLoss_none up fun ⟨hm, hr, hl⟩ => ?apart⟩
  case firstCopy =>
    refine ⟨tide_listen up hs hw, tide_joining up hs hw, fun hm => ?member, tide_apart up hs hw⟩
    have hexec := tide_member (claimw := claimw) (acting := acting) (p := p) up hs hw hm
    refine ⟨fun hr => ?leads, fun hr he => ?otherEpoch, fun hr he ha => ?acting, fun hr he ha => ?master⟩
    case leads => exact hexec.trans (congrArg _ (if_pos hr))
    case otherEpoch => exact hexec.trans (congrArg _ ((if_neg (not_not_intro hr)).trans (if_pos he)))
    case acting =>
      exact hexec.trans (congrArg _ ((if_neg (not_not_intro hr)).trans ((if_neg (not_not_intro he)).trans (if_pos ha))))
    case master =>
      exact hexec.trans (congrArg _ ((if_neg (not_not_intro hr)).trans ((if_neg (not_not_intro he)).trans
        (if_neg (ne_true_of_eq_false ha)))))
  case apart =>
    obtain h | h | ⟨h1, h2⟩ := h
    · exact h hr
    · simp [hl] at h
    · exact hm.elim h1 h2

end Sys2Proof.Proofs
end

section
/-! Flood and wake (R382 to R387), and the obligation FloodAndWake. -/

open Sys2Proof Sys2Proof.Machine Sys2Proof.Laws

namespace Sys2Proof.Laws

variable {s : State}

/-! ### Wake inputs and patterns (R382, R384, R385) -/

theorem wakeInput_notes {active : Bool} (h : s.muster.state ≠ .ebbed ∨ active = false) :
    exec (.wakeInput active) s = .next { s with muster.wakeActive := active } := by
  refine congrArg _ (if_neg ?_)
  rintro ⟨ha, hm, -⟩
  exact h.elim (· hm) fun hf => by simp [ha] at hf

theorem wakeInput_wakes (hm : s.muster.state = .ebbed) (hc : bit s.power.thresholds 2 = false) :
    exec (.wakeInput true) s = .next (({ s with muster.wakeActive := true } : State).wakeNow 1 0) := by
  show execWakeInput true s = _
  exact congrArg Host.Outcome.next (if_pos ⟨rfl, hm, hc⟩)

theorem wakeInput_hot (hot : bit s.power.thresholds 2 = true) :
    exec (.wakeInput true) s = .next { s with muster.wakeActive := true } :=
  congrArg _ (if_neg fun ⟨_, _, hc⟩ => by simp [hot] at hc)

theorem wakePatternDetected_none {l : Fin 4} (h : s.muster.state ≠ .ebbed ∨ bit s.power.thresholds 2 = true) :
    exec (.wakePatternDetected l) s = .next s :=
  congrArg _ (if_neg fun ⟨hm, hc⟩ => h.elim (· hm) fun hot => by simp [hot] at hc)

theorem wakePatternRepeat_none {l : Fin 4} (h : (s.link l).state ≠ .down ∨ s.ebbTest = true) :
    exec (.wakePatternRepeatExpiry l) s = .next s :=
  congrArg _ (if_neg fun ⟨hd, hn⟩ => h.elim (· hd) fun ht => by simp [ht] at hn)

/-! ### FLOOD and its measure (R382, R383) -/

/-- The span of the beacons heard of a station: from their first tick to the last, anew after 200 ticks without one. -/
def beaconSpan (u : State) (src : Nat) : Nat × Nat :=
  match Tab.get none u.muster.floods src with
  | some (a, b) => if u.bell.tick ≤ b + 200 then (a, u.bell.tick) else (u.bell.tick, u.bell.tick)
  | none => (u.bell.tick, u.bell.tick)

/-- The station once it has measured a beacon. -/
def beaconHeard (u : State) (src : Nat) : State :=
  { u with muster.floods := Tab.set none u.muster.floods src (some (beaconSpan u src)) }

section Up
variable (up : s.dict.shepherds = true)
include up

theorem flood_laterCopy {src : Fin 2048} {n : Nat} (h : src.val = s.station ∨ s.firstCopy src 4 7 n = none) :
    exec (.flood src n) s = .next s := by
  show execFlood src n s = _
  rw [execFlood, byShepherd_up up]
  by_cases hs : src.val = s.station
  · rw [if_pos hs]
  · rw [if_neg hs, h.resolve_left hs]

theorem flood_firstCopy {src : Fin 2048} {n : Nat} {u : State} (hs : src.val ≠ s.station) (hu : s.firstCopy src 4 7 n = some u) :
    exec (.flood src n) s = .next
      (if u.muster.state = .ebbPending ∧ u.muster.lost = true ∧ (beaconHeard u src).beforeGuard = true then
        { beaconHeard u src with muster.state := .member, muster.ebb := .beacon } else beaconHeard u src) := by
  show execFlood src n s = _
  rw [execFlood, byShepherd_up up, if_neg hs, hu]
  rfl

/-- A member that has lost its tide master. -/
def lostMember (s : State) : Prop := s.muster.state = .member ∧ s.muster.lost = true

theorem floodExpiries_none (h : s.muster.state ≠ .member ∨ s.muster.lost = false) :
    exec .floodBeaconExpiry s = .next s ∧ exec .floodQuietExpiry s = .next s := by
  show execFloodBeaconExpiry s = _ ∧ execFloodQuietExpiry s = _
  rw [execFloodBeaconExpiry, execFloodQuietExpiry, byShepherd_up up, byShepherd_up up]
  obtain h | h := h <;> simp [h]

theorem floodExpiries_need (h : lostMember s) (hneed : s.ebbTest = false) :
    exec .floodBeaconExpiry s = .next (({ s with muster.beacons := (s.muster.beacons + 1) % 2 ^ 18 } : State).broadcast 4
        [put 14 4 7, (s.muster.beacons + 1) % 2 ^ 18])
      ∧ exec .floodQuietExpiry s = .next s := by
  show execFloodBeaconExpiry s = _ ∧ execFloodQuietExpiry s = _
  rw [execFloodBeaconExpiry, execFloodQuietExpiry, byShepherd_up up, byShepherd_up up]
  exact ⟨congrArg _ (if_pos ⟨h.1, h.2, hneed⟩), congrArg _ (if_neg (by simp [hneed]))⟩

theorem floodExpiries_quiet (h : lostMember s) (hquiet : s.ebbTest = true) :
    exec .floodBeaconExpiry s = .next s ∧ exec .floodQuietExpiry s
      = .next { s with muster.state := .ebbPending, muster.ebb := .pending, muster.ebbAt := s.ebbTime } := by
  show execFloodBeaconExpiry s = _ ∧ execFloodQuietExpiry s = _
  rw [execFloodBeaconExpiry, execFloodQuietExpiry, byShepherd_up up, byShepherd_up up]
  exact ⟨congrArg _ (if_neg (by simp [hquiet])), congrArg _ (if_pos ⟨h.1, h.2, hquiet⟩)⟩

theorem beaconLimitExpiry_restarts {st : Fin 2048} {a b : Nat} (h : Tab.get none s.muster.floods st = some (a, b)) :
    exec (.beaconLimitExpiry st) s = .next (({ s with
      muster.floods := Tab.set none s.muster.floods st (some (s.bell.tick, b)) } : State).holdoutNow 1 st ((s.bell.tick - a) / 1000) 0) := by
  show execBeaconLimitExpiry st s = _
  rw [execBeaconLimitExpiry, byShepherd_up up, h]

theorem beaconLimitExpiry_none {st : Fin 2048} (h : Tab.get none s.muster.floods st = none) :
    exec (.beaconLimitExpiry st) s = .next s := by
  show execBeaconLimitExpiry st s = _
  rw [execBeaconLimitExpiry, byShepherd_up up, h]

/-! ### The wait and the limit of a resume (R386) -/

theorem resumeWaitExpiry_eq : exec .resumeWaitExpiry s = .next
    (if s.muster.state = .listen ∧ s.muster.flooded = true ∧ s.muster.role = 1 then s.resume else s) := by
  show execResumeWaitExpiry s = _
  rw [execResumeWaitExpiry, byShepherd_up up]

theorem resumeLimitExpiry_eq : exec .resumeLimitExpiry s = .next
    (if s.muster.state = .listen ∧ s.muster.flooded = true ∧ s.muster.role ≠ 1 then (s.toMuster .claiming).standinNow else s) := by
  show execResumeLimitExpiry s = _
  rw [execResumeLimitExpiry, byShepherd_up up]

end Up
end Sys2Proof.Laws

namespace Sys2Proof.Proofs

/-- Settles O40: each clause is the case of that name of the commands above. -/
theorem floodAndWake : Obligations.FloodAndWake := by
  refine fun s => ⟨fun _ => wakeInput_notes, fun hm hc => ⟨wakeInput_wakes hm hc, fun l => congrArg _ (if_pos ⟨hm, hc⟩)⟩,
    wakeInput_hot, fun l => wakePatternDetected_none, fun l hd hn => congrArg _ (if_pos ⟨hd, hn⟩), fun l => wakePatternRepeat_none,
    fun up => ⟨?flood, fun src n => flood_laterCopy up, floodExpiries_none up, fun hm hl => floodExpiries_need up ⟨hm, hl⟩,
      fun hm hl => floodExpiries_quiet up ⟨hm, hl⟩, fun st a b => beaconLimitExpiry_restarts up, fun st => beaconLimitExpiry_none up,
      ?resumes, ?noResume, ?claims⟩⟩
  case flood =>
    intro src n u hs hu v
    refine ⟨fun h => (flood_firstCopy up hs hu).trans (congrArg _ (if_neg ?_)),
      fun hm hl hg => (flood_firstCopy up hs hu).trans (congrArg _ (if_pos ⟨hm, hl, hg⟩))⟩
    rintro ⟨hm, hl, hg⟩
    obtain h | h | h := h
    · exact h hm
    · simp [hl] at h
    · exact absurd (hg : v.beforeGuard = true) (ne_true_of_eq_false h)
  case resumes =>
    intro hm hf hr
    exact ⟨(resumeWaitExpiry_eq up).trans (congrArg _ (if_pos ⟨hm, hf, hr⟩)),
      (resumeLimitExpiry_eq up).trans (congrArg _ (if_neg fun h => h.2.2 hr))⟩
  case noResume =>
    intro h
    rw [resumeWaitExpiry_eq up, resumeLimitExpiry_eq up]
    obtain h | h := h <;> simp [h]
  case claims =>
    intro hm hf hr
    exact ⟨(resumeWaitExpiry_eq up).trans (congrArg _ (if_neg fun h => hr h.2.2)),
      (resumeLimitExpiry_eq up).trans (congrArg _ (if_pos ⟨hm, hf, hr⟩))⟩

end Sys2Proof.Proofs
end

section
/-! Domains of fabric time (R400, R405, R407), and the obligation TimeDomains. -/

open Sys2Proof Sys2Proof.Machine Sys2Proof.Laws

namespace Sys2Proof.Laws

variable {s : State} {d : Fin 2}

/-! ### ANNOUNCE (R400, R405) -/

section Up
variable (up : s.dict.shepherds = true)
include up

theorem announce_sets {src : Fin 2048} {valid : Bool} {port : Fin 49} {m : AnnounceMsg} (hon : s.domOn d = true)
    (hs : src.val ≠ s.station) : exec (.announce src d valid port m) s
      = .next (s.announceEntry d src port (if valid then some (announceData m) else none)) := by
  show execAnnounce src d valid port m s = _
  rw [execAnnounce, byShepherd_up up, if_pos (by rw [hon, Bool.true_and, bne_iff_ne]; exact hs)]

theorem announce_none {src : Fin 2048} {valid : Bool} {port : Fin 49} {m : AnnounceMsg}
    (h : s.domOn d = false ∨ src.val = s.station) : exec (.announce src d valid port m) s = .next s := by
  show execAnnounce src d valid port m s = _
  rw [execAnnounce, byShepherd_up up]
  obtain h | h := h <;> simp [h]

theorem announceInterval_sends (hon : s.domOn d = true) : exec (.announceIntervalExpiry d) s = .next
    ((s.timePorts d).foldl (fun s p => s.ptpAnnounce d p) ((s.foreignPorts d).foldl (fun s p => s.sendAnnounce d p) s)) := by
  show execAnnounceIntervalExpiry d s = _
  rw [execAnnounceIntervalExpiry, byShepherd_up up, if_pos hon]

theorem announceInterval_none (hoff : s.domOn d = false) : exec (.announceIntervalExpiry d) s = .next s := by
  show execAnnounceIntervalExpiry d s = _
  rw [execAnnounceIntervalExpiry, byShepherd_up up, if_neg (ne_true_of_eq_false hoff)]

/-! ### REPORT (R400, R407) -/

/-- The tide master takes the report: of an enabled domain, from its ingress station, or from any while none is chosen. -/
def takesReport (s : State) (d : Fin 2) (src : Nat) : Prop :=
  s.isMaster = true ∧ s.domOn d = true ∧ ∀ i, (s.domain d).ingress = some i → i / 64 = src

omit up in
theorem takesReport_iff {src : Nat} :
    (s.isMaster && s.domOn d && (s.domain d).ingress.all fun i => i / 64 == src) = true ↔ takesReport s d src := by
  simp only [takesReport, Bool.and_eq_true, Option.all_eq_true, beq_iff_eq, and_assoc]

theorem report_eq {src : Fin 2048} {ds : Fin 4} {o rate : Int} {gm cls steps : Nat} (h : takesReport s d src) :
    exec (.report src d ds o rate gm cls steps) s = .next (s.takeReport d ds o rate gm cls steps) := by
  show execReport src d ds o rate gm cls steps s = _
  rw [execReport, byShepherd_up up, if_pos (takesReport_iff.mpr h)]

theorem report_none {src : Fin 2048} {ds : Fin 4} {o rate : Int} {gm cls steps : Nat} (h : ¬ takesReport s d src) :
    exec (.report src d ds o rate gm cls steps) s = .next s := by
  show execReport src d ds o rate gm cls steps s = _
  rw [execReport, byShepherd_up up, if_neg (mt takesReport_iff.mp h)]

end Up

section Report
variable {ds gm cls steps : Nat} {o rate : Int}

/-- The station with what a report tells of a domain. -/
def reported (s : State) (d ds : Nat) (o rate : Int) (gm cls steps : Nat) : State :=
  (s.setDomain d { s.domain d with dstate := ds, rate := rate, gm := gm, cls := cls, steps := steps }).noteOffset d o

/-- An offset above 1 ms while a table is active (R407). -/
def offsetLarge (t : State) (o : Int) : Prop := 1000000 * 65536 < o.natAbs ∧ t.table.valid = true

theorem takeReport_otherDomain {d : Nat} (hf : (reported s d ds o rate gm cls steps).time.follow ≠ d) :
    s.takeReport d ds o rate gm cls steps = reported s d ds o rate gm cls steps :=
  (if_neg fun h => hf h.1).trans (if_neg hf)

section Followed
variable {d : Nat} (hf : (reported s d ds o rate gm cls steps).time.follow = d)
include hf

theorem takeReport_small (hs : ¬ offsetLarge (reported s d ds o rate gm cls steps) o) :
    s.takeReport d ds o rate gm cls steps = { reported s d ds o rate gm cls steps with time.large := false } :=
  (if_neg fun h => hs h.2).trans (if_pos hf)

theorem takeReport_staysLarge (hl : offsetLarge (reported s d ds o rate gm cls steps) o)
    (hn : (reported s d ds o rate gm cls steps).time.large = true) :
    s.takeReport d ds o rate gm cls steps = reported s d ds o rate gm cls steps :=
  (if_pos ⟨hf, hl⟩).trans (if_pos hn)

theorem takeReport_turnsLarge (hl : offsetLarge (reported s d ds o rate gm cls steps) o)
    (hn : (reported s d ds o rate gm cls steps).time.large = false) : s.takeReport d ds o rate gm cls steps
      = State.fire { reported s d ds o rate gm cls steps with time.large := true } 229 d :=
  (if_pos ⟨hf, hl⟩).trans (if_neg (ne_true_of_eq_false hn))

end Followed
end Report

/-! ### The loss of a domain (R407) -/

/-- A domain back in LISTENING. -/
def listens (s : State) (d : Nat) : State := s.setDomain d { s.domain d with dstate := 1, run := 0, twoStep := none }

theorem domainLost_locked {d : Nat} (h : (s.domain d).dstate = 3) : s.domainLost d = (listens s d).fire 228 d := if_pos h

theorem domainLost_measuring {d : Nat} (h : (s.domain d).dstate = 2) : s.domainLost d = listens s d :=
  if_neg (by simp [h])

/-- The ingress of the domain is this station. -/
def ingressHere (s : State) (d : Nat) : Prop := ∃ i, (s.domain d).ingress = some i ∧ i / 64 = s.station

theorem ingressHere_iff {d : Nat} : (s.domain d).ingress.any (fun i => i / 64 == s.station) = true ↔ ingressHere s d := by
  simp only [ingressHere, Option.any_eq_true, beq_iff_eq]

theorem domainSyncLoss_loses (h : ingressHere s d) (h2 : 2 ≤ (s.domain d).dstate) :
    exec (.domainSyncLoss d) s = .next (s.domainLost d) := by
  show execDomainSyncLoss d s = _
  rw [execDomainSyncLoss, if_pos (by rw [ingressHere_iff.mpr h, decide_eq_true h2]; rfl)]

theorem domainSyncLoss_none (h : ¬ ingressHere s d ∨ (s.domain d).dstate < 2) : exec (.domainSyncLoss d) s = .next s := by
  show execDomainSyncLoss d s = _
  rw [execDomainSyncLoss, if_neg]
  rw [Bool.and_eq_true, ingressHere_iff, decide_eq_true_iff]
  rintro ⟨hh, h2⟩
  exact h.elim (· hh) fun hlt => by omega

theorem domainReportLoss_loses (h : s.isMaster = true) (h2 : 2 ≤ (s.domain d).dstate) :
    exec (.domainReportLoss d) s = .next (s.domainLost d) := by
  show execDomainReportLoss d s = _
  rw [execDomainReportLoss, if_pos (by rw [h, decide_eq_true h2]; rfl)]

theorem domainReportLoss_none (h : s.isMaster = false ∨ (s.domain d).dstate < 2) : exec (.domainReportLoss d) s = .next s := by
  show execDomainReportLoss d s = _
  rw [execDomainReportLoss, if_neg]
  rw [Bool.and_eq_true, decide_eq_true_iff]
  rintro ⟨hh, h2⟩
  exact h.elim (fun hf => by simp [hh] at hf) fun hlt => by omega

end Sys2Proof.Laws

namespace Sys2Proof.Proofs

/-- Settles O42: each clause is the case of that name of the commands above. -/
theorem timeDomains : Obligations.TimeDomains := by
  refine fun s d => ⟨fun up => ⟨fun src valid port m => ⟨announce_sets up, announce_none up⟩, announceInterval_sends up,
    announceInterval_none up, fun src ds o rate gm cls steps => ?report⟩, ?loss⟩
  case report =>
    intro taken heard large
    exact ⟨report_none up, fun h hf => (report_eq up h).trans (congrArg _ (takeReport_otherDomain hf)),
      fun h hf hs => (report_eq up h).trans (congrArg _ (takeReport_small hf hs)),
      fun h hf hl hn => (report_eq up h).trans (congrArg _ (takeReport_staysLarge hf hl hn)),
      fun h hf hl hn => (report_eq up h).trans (congrArg _ (takeReport_turnsLarge hf hl hn))⟩
  case loss =>
    intro x listening here
    have two_le (h3 : x.dstate = 3) : 2 ≤ x.dstate := by omega
    exact ⟨fun h h3 => (domainSyncLoss_loses h (two_le h3)).trans (congrArg _ (domainLost_locked h3)),
      fun h h2 => (domainSyncLoss_loses h h2.ge).trans (congrArg _ (domainLost_measuring h2)), domainSyncLoss_none,
      fun h h3 => (domainReportLoss_loses h (two_le h3)).trans (congrArg _ (domainLost_locked h3)),
      fun h h2 => (domainReportLoss_loses h h2.ge).trans (congrArg _ (domainLost_measuring h2)), domainReportLoss_none⟩

end Sys2Proof.Proofs
end

section
/-! Claims and the forming of a pair (R416 to R426, R433), and the obligation PairClaims. -/

open Sys2Proof Sys2Proof.Machine Sys2Proof.Laws

namespace Sys2Proof.Laws

variable {s : State}

/-! ### A hub that is no pair unit (R416) -/

theorem claims_unpaired (h : s.paired = false) :
    exec .claimFrameStart s = .next s ∧ exec .claimInSilence s = .next s ∧ exec .partnerSilence s = .next s
      ∧ (∀ c n crc good turned, exec (.claimFrameReceived c n crc good turned) s = .next s)
      ∧ ∀ node unit st c image f fw, exec (.pairHello node unit st c image f fw) s = .next s := by
  show execClaimFrameStart s = _ ∧ execClaimInSilence s = _ ∧ execPartnerSilence s = _
    ∧ (∀ c n crc good turned, execClaimFrameReceived c n crc good turned s = _)
    ∧ ∀ node unit st c image f fw, execPairHello node unit st c image f fw s = _
  simp [execClaimFrameStart, execClaimInSilence, execPartnerSilence, execClaimFrameReceived, execPairHello, State.takesPair, h]

/-! ### What leaves the station as it is (R416, R417, R433) -/

theorem claimFrameStart_held (hh : s.pin.hold = true) : exec .claimFrameStart s = .next s := by
  show execClaimFrameStart s = _
  simp [execClaimFrameStart, hh]

theorem pairHello_linkDown {node : Fin 1024} {unit : Fin 2} {st : Fin 8} {c : Fin 65536} {image f fw : Nat} (hu : s.linkUp 4 = false) :
    exec (.pairHello node unit st c image f fw) s = .next s := by
  show execPairHello node unit st c image f fw s = _
  simp [execPairHello, State.takesPair, hu]

theorem partnerSilence_again (hs : s.pair.silence = true) : exec .partnerSilence s = .next s := by
  show execPartnerSilence s = _
  simp [execPartnerSilence, hs]

section Paired
variable (hp : s.paired = true)
include hp

/-! ### Claim frames (R422, R423) -/

/-- The claim that a unit announces next: the planned one, with none planned its own again. -/
def nextClaim (s : State) : Nat := (s.pair.plan.map Planned.claim).getD s.pair.claim

theorem claimFrameStart_sends (hh : s.pin.hold = false) : exec .claimFrameStart s = .next
    ({ s with pair.frame := (s.pair.claim, nextClaim s) }.emit .claimFrame 0
      [s.pair.claim, nextClaim s, claimCrc s.pair.claim (nextClaim s)]) := by
  show execClaimFrameStart s = _
  rw [execClaimFrameStart, if_neg (by simp [hp, hh])]
  rfl

section Received
variable {c n : Fin 65536} {crc : Fin 256} {good turned : Bool}

theorem claimFrameReceived_bad
    (h : good = false ∨ crc.val ≠ claimCrc c n ∨ Machine.claimOk c = false ∨ Machine.claimOk n = false) :
    exec (.claimFrameReceived c n crc good turned) s = .next ((s.pairCount 8).fire 242 0) := by
  show execClaimFrameReceived c n crc good turned s = _
  rw [execClaimFrameReceived, if_neg (by simp [hp]), if_pos]
  obtain h | h | h | h := h <;> simp [h]

theorem claimFrameReceived_good (hg : good = true) (hc : crc.val = claimCrc c n) (h1 : Machine.claimOk c = true)
    (h2 : Machine.claimOk n = true) : exec (.claimFrameReceived c n crc good turned) s = .next
      ((State.setRecord { s with pair.claimSilent := false, pair.claimInFault := false, pair.last := some (c.val, n.val) }
        (if turned then n else c) 1).seeSwap c n) := by
  show execClaimFrameReceived c n crc good turned s = _
  rw [execClaimFrameReceived, if_neg (by simp [hp]), if_neg (by simp [hg, hc, h1, h2])]

end Received

/-! ### CLAIM_IN_SILENCE (R426) -/

theorem claimInSilence_eq : exec .claimInSilence s = .next
    (let u : State := { s with pair.claimSilent := true, pair.last := none }
     if s.linkUp 4 then (if s.pair.claimInFault then u else State.fire { u with pair.claimInFault := true } 241 0)
     else u.setRecord 0 0) := by
  show execClaimInSilence s = _
  rw [execClaimInSilence, if_neg (by simp [hp])]
  rfl

/-! ### PAIR_HELLO (R417, R418) -/

section Hello
variable {node : Fin 1024} {unit : Fin 2} {st : Fin 8} {c : Fin 65536} {image f fw : Nat}

section LinkUp
variable (hu : s.linkUp 4 = true)
include hu

theorem pairHello_malformed (h : Machine.claimOk c = false ∨ 5 < st.val) :
    exec (.pairHello node unit st c image f fw) s = .next ((s.pairCount 8).fire 179 4) := by
  show execPairHello node unit st c image f fw s = _
  rw [execPairHello, if_neg (by simp [State.takesPair, hp, hu]), if_pos]
  obtain h | h := h <;> simp [h]

section WellFormed
variable (hc : Machine.claimOk c = true) (hst : st.val ≤ 5)
include hc hst

theorem pairHello_differs {k : Nat} (hk : s.helloDiffers node unit image = some k) :
    exec (.pairHello node unit st c image f fw) s = .next
      (if s.pair.mismatched.contains k then s.pairCount 9
        else State.fire { s.pairCount 9 with pair.mismatched := k :: s.pair.mismatched } 243 0 k) := by
  show execPairHello node unit st c image f fw s = _
  rw [execPairHello, if_neg (by simp [State.takesPair, hp, hu]), if_neg (by simp [hc]; omega), hk]
  rfl

theorem pairHello_good (hk : s.helloDiffers node unit image = none) :
    exec (.pairHello node unit st c image f fw) s = .next (s.goodHello st c (fw % 2 ^ 18)) := by
  show execPairHello node unit st c image f fw s = _
  rw [execPairHello, if_neg (by simp [State.takesPair, hp, hu]), if_neg (by simp [hc]; omega), hk]

end WellFormed
end LinkUp
end Hello

omit hp in
/-- A good HELLO of an ACTIVE partner, after no silence and no loss, at a WAITING unit: it joins (R418). -/
theorem goodHello_joins (claim fw : Nat) (hsil : s.pair.silence = false) (hlost : s.pair.linkLost = false)
    (hcs : s.pair.claimSilent = false) (hw : s.pair.state = .waiting) :
    s.goodHello 4 claim fw = { s with
      pair.formed := true, pair.partnerFw := fw, pair.state := .joining, pair.firstDone := false } := by
  simp [State.goodHello, State.formWith, hsil, hlost, hcs, hw]

/-! ### PARTNER_SILENCE (R426, R433) -/

/-- The station as its partner falls silent: its record is 0 where CLAIM_IN is silent too, and the firing has its effect. -/
def partnerLost (s : State) : State :=
  let b := if s.pair.claimSilent && s.pair.record != 0 then s.setRecord 0 0 else s
  State.fire { b with
    pair.silence := true, pair.formed := false, pair.resolving := false, pair.checkNext := false, pair.rx := [],
    pair.linkLost := b.pair.linkLost || b.pair.record != 0 } 244 0

section Silence
variable (hs : s.pair.silence = false)
include hs

theorem partnerSilence_joining (hj : (partnerLost s).pair.state = .joining) :
    exec .partnerSilence s = .next { partnerLost s with pair.state := .waiting } := by
  show execPartnerSilence s = _
  rw [execPartnerSilence, if_neg (by simp [hp, hs])]
  simp only [partnerLost] at hj ⊢
  simp only [hj]
  rfl

theorem partnerSilence_standby (hj : (partnerLost s).pair.state = .standby) : exec .partnerSilence s = .next
    (if (partnerLost s).pair.record = 0 ∧ (partnerLost s).pair.plan = none then { partnerLost s with
        pair.plan := some ⟨.takeover, (partnerLost s).nextActive, (partnerLost s).abs (partnerLost s).tide.off + 8800⟩ }
      else partnerLost s) := by
  show execPartnerSilence s = _
  rw [execPartnerSilence, if_neg (by simp [hp, hs])]
  simp only [partnerLost] at hj ⊢
  simp only [hj]

theorem partnerSilence_other (hj : (partnerLost s).pair.state ≠ .joining) (hst : (partnerLost s).pair.state ≠ .standby) :
    exec .partnerSilence s = .next (partnerLost s) := by
  show execPartnerSilence s = _
  rw [execPartnerSilence, if_neg (by simp [hp, hs])]
  cases hx : (partnerLost s).pair.state
  case joining => exact absurd hx hj
  case standby => exact absurd hx hst
  all_goals
    simp only [partnerLost] at hx ⊢
    simp only [hx]

end Silence
end Paired

/-! ### Taking over (R418, R424) -/

theorem aloneWaitExpiry_goesActive (hw : s.pair.state = .waiting) (h0 : s.pair.record = 0) (hf : s.pair.formed = false) :
    exec .aloneWaitExpiry s = .next (s.goActive s.nextActive) := by
  show execAloneWaitExpiry s = _
  rw [execAloneWaitExpiry, if_pos ⟨hw, h0, hf⟩]

theorem aloneWaitExpiry_none (h : s.pair.state ≠ .waiting ∨ s.pair.record ≠ 0 ∨ s.pair.formed = true) :
    exec .aloneWaitExpiry s = .next s := by
  refine congrArg _ (if_neg ?_)
  rintro ⟨h1, h2, h3⟩
  obtain h | h | h := h
  · exact h h1
  · exact h h2
  · simp [h3] at h

/-- A record that falls to 0 at a STANDBY unit: it plans to take over 8,800 wc ahead. -/
theorem setRecord_zero_standby (src : Nat) (hst : s.pair.state = .standby) (hr : s.pair.record ≠ 0) :
    s.setRecord 0 src = State.pairBell
      (let v : State := State.seenEpoch { s with pair.record := 0, pair.source := src, pair.zeroSince := s.bell.tick } 0
       { v with pair.plan := some ⟨.takeover, v.nextActive, s.abs s.tide.off + 8800⟩ }) := by
  have hrole : claimRole 0 ≠ 8 := by decide
  simp only [State.setRecord, State.seenEpoch, hst, hr, hrole, ne_eq, not_false_eq_true, and_self, if_true, if_false]
  rfl

/-! ### PAIR_CMD (R418, R424, R439) -/

section Commands

theorem swap_badState (h : s.pair.state ≠ .active ∨ s.partnerReady = false) : exec .swap s = .next (s.abort 0x0A003 7) :=
  congrArg _ (if_neg fun ⟨ha, hr⟩ => h.elim (· ha) fun hf => by simp [hr] at hf)

theorem rejoin_badState (h : s.pair.state ≠ .out ∨ s.severeCount ≠ 0 ∨ s.bell.fatal = true) :
    exec .rejoin s = .next (s.abort 0x0A003 7) := by
  refine congrArg _ (if_neg ?_)
  rintro ⟨ho, h0, hf⟩
  obtain h | h | h := h
  · exact h ho
  · exact h h0
  · simp [hf] at h

theorem confirm_badState (h : s.pair.state ≠ .joining ∨ s.pair.firstDone = false) : exec .confirm s = .next (s.abort 0x0A003 7) :=
  congrArg _ (if_neg fun ⟨hj, hd⟩ => h.elim (· hj) fun hf => by simp [hd] at hf)

end Commands
end Sys2Proof.Laws

namespace Sys2Proof.Proofs

/-- Settles O44: each clause is the case of that name of the commands above. -/
theorem pairClaims : Obligations.PairClaims := by
  refine fun s => ⟨claims_unpaired, fun hp => ⟨claimFrameStart_held, ?ownAgain, ?planned, fun c n crc good turned =>
      ⟨claimFrameReceived_bad hp, claimFrameReceived_good hp⟩, ?silence, fun node unit st c image f fw => ?hello, partnerSilence_again,
      ?partnerSilence⟩, aloneWaitExpiry_goesActive, aloneWaitExpiry_none, setRecord_zero_standby,
    fun ha hr => congrArg _ (if_pos ⟨ha, hr⟩), swap_badState, fun ho h0 hf => congrArg _ (if_pos ⟨ho, h0, hf⟩), rejoin_badState,
    fun hj hd => congrArg _ (if_pos ⟨hj, hd⟩), confirm_badState, fun hs => congrArg _ (if_pos hs), fun hs => congrArg _ (if_neg hs)⟩
  case ownAgain =>
    intro hh hn
    have hnext : nextClaim s = s.pair.claim := by rw [nextClaim, hn]; rfl
    rw [claimFrameStart_sends hp hh, hnext]
  case planned =>
    intro p hh hn
    have hnext : nextClaim s = p.claim := by rw [nextClaim, hn]; rfl
    rw [claimFrameStart_sends hp hh, hnext]
  case silence =>
    refine ⟨fun hu => ?_, fun hu hf => ?_, fun hu hf => ?_⟩ <;> rw [claimInSilence_eq hp]
    · exact congrArg _ (if_neg (ne_true_of_eq_false hu))
    · exact congrArg _ ((if_pos hu).trans (if_pos hf))
    · exact congrArg _ ((if_pos hu).trans (if_neg (ne_true_of_eq_false hf)))
  case hello =>
    refine ⟨pairHello_linkDown, pairHello_malformed hp, fun hu hc hst k hk => ⟨fun hm => ?_, fun hm => ?_⟩,
      fun hu hc hst hk => pairHello_good hp hu hc hst hk, fun hu hc hst hk hsil hlost hcs hw => ?_⟩
    · exact (pairHello_differs hp hu hc hst hk).trans (congrArg _ (if_pos hm))
    · exact (pairHello_differs hp hu hc hst hk).trans (congrArg _ (if_neg (ne_true_of_eq_false hm)))
    · rw [pairHello_good hp hu hc (by omega) hk, hst, goodHello_joins c _ hsil hlost hcs hw]
  case partnerSilence =>
    intro hs b u
    have hb : b = if s.pair.claimSilent && s.pair.record != 0 then s.setRecord 0 0 else s := by
      simp only [b, Bool.and_eq_true, bne_iff_ne]
    have hu : u = partnerLost s := by simp only [u, hb, partnerLost]
    clear_value u
    subst hu
    refine ⟨partnerSilence_joining hp hs, fun hj h0 hn => ?_, fun hj h => ?_, partnerSilence_other hp hs⟩
    · exact (partnerSilence_standby hp hs hj).trans (congrArg _ (if_pos ⟨h0, hn⟩))
    · exact (partnerSilence_standby hp hs hj).trans (congrArg _ (if_neg fun ⟨h0, hn⟩ => h.elim (· h0) (· hn)))

end Sys2Proof.Proofs
end

section
/-! Requests on the four paths (R454 to R464): what State.serve does with a request at each of its gates, in their
order, and that each of the 15 requests is one State.serve. -/

open Sys2Proof Sys2Proof.Machine Sys2Proof.Laws

namespace Sys2Proof.Laws

section Serve

variable {s : State} {m : Msg} {op shape : Nat} {run : State → State × Reply}

/-! ### The gates of a request, one equation each -/

theorem serve_untaken (h : s.takes m = false) : s.serve m op shape run = s := by
  simp [State.serve, h]

theorem serve_taken (h : s.takes m = true) :
    s.serve m op shape run = (s.takeReq m.path).admitReq m op shape run := by
  simp [State.serve, h]

theorem admitReq_long (h : pathLimit m.path < m.body.length + 7) :
    s.admitReq m op shape run = s.abortReq m op aBadLength :=
  if_pos h

theorem admitReq_badShape (fits : m.body.length + 7 ≤ pathLimit m.path) (h : shapeOk shape m = false) :
    s.admitReq m op shape run = ((s.bump 0x00104 2).fire 272 m.path).abortReq m op aBadRequest := by
  rw [State.admitReq, if_neg (Nat.not_lt.2 fits), if_pos (by simp [h])]
  rfl

theorem admitReq_tooMany (fits : m.body.length + 7 ≤ pathLimit m.path) (shaped : shapeOk shape m = true)
    (h : s.tooManyOpen m = true) : s.admitReq m op shape run = s.abortReq m op aBusy := by
  rw [State.admitReq, if_neg (Nat.not_lt.2 fits), if_neg (by simp [shaped]), if_pos h]

/-- Past its length, its header and the limits a request goes to the station that it names. -/
theorem admitReq_ready (fits : m.body.length + 7 ≤ pathLimit m.path) (shaped : shapeOk shape m = true)
    (few : s.tooManyOpen m = false) :
    s.admitReq m op shape run = if msgDest m ≠ s.station then s.relayReq m op else s.serveHere m op run := by
  rw [State.admitReq, if_neg (Nat.not_lt.2 fits), if_neg (by simp [shaped]), if_neg (by simp [few])]

/-- A request that finds its place among the 64 open ones also finds a relay number: a relayed request is an open one. -/
theorem relayed_few (few : s.tooManyOpen m = false) : ¬ 64 ≤ s.dict.waiting.countP fun q => q.relay != 0 := by
  have room : s.dict.waiting.length < 64 := by
    simp only [State.tooManyOpen, Bool.or_eq_false_iff, decide_eq_false_iff_not, Nat.not_le] at few
    exact few.2
  exact Nat.not_le.2 (Nat.lt_of_le_of_lt List.countP_le_length room)

theorem relayReq_noPath (few : s.tooManyOpen m = false) (h : s.usable m.target = 0) :
    s.relayReq m op = s.abortReq m op aUnreachable := by
  rw [State.relayReq, if_neg (relayed_few few), if_pos h]

theorem relayReq_path (few : s.tooManyOpen m = false) (h : s.usable m.target ≠ 0) : s.relayReq m op = s.relay m op := by
  rw [State.relayReq, if_neg (relayed_few few), if_neg h]

theorem serveHere_noSession (h : s.sessionOk m = false) : s.serveHere m op run = s.abortReq m op aNoSession := by
  simp [State.serveHere, h]

theorem serveHere_runs (h : s.sessionOk m = true) :
    s.serveHere m op run
      = (run ((s.bump 0x00104 0).touch m.session)).1.answerReq m op (run ((s.bump 0x00104 0).touch m.session)).2 := by
  simp only [State.serveHere, h]
  rfl

end Serve

/-- What becomes of a command that is a request with this OP, these header fields and this operation: held back at a
gate, relayed, or run. -/
def Served (m : Msg) (s : State) (c : Instr) (op shape : Nat) (run : State → State × Reply) : Prop :=
  let u := s.takeReq m.path
  let w := (u.bump 0x00104 0).touch m.session
  let fits := s.takes m = true ∧ m.body.length + 7 ≤ pathLimit m.path
  let ready := fits ∧ shapeOk shape m = true ∧ u.tooManyOpen m = false
  (s.takes m = false → exec c s = .next s)
  ∧ (s.takes m = true → pathLimit m.path < m.body.length + 7 → exec c s = .next (u.abortReq m op aBadLength))
  ∧ (fits → shapeOk shape m = false → exec c s = .next (((u.bump 0x00104 2).fire 272 m.path).abortReq m op aBadRequest))
  ∧ (fits → shapeOk shape m = true → u.tooManyOpen m = true → exec c s = .next (u.abortReq m op aBusy))
  ∧ (ready → msgDest m ≠ u.station →
      (u.usable m.target = 0 → exec c s = .next (u.abortReq m op aUnreachable))
      ∧ (u.usable m.target ≠ 0 → exec c s = .next (u.relay m op)))
  ∧ (ready → msgDest m = u.station →
      (u.sessionOk m = false → exec c s = .next (u.abortReq m op aNoSession))
      ∧ (u.sessionOk m = true → exec c s = .next ((run w).1.answerReq m op (run w).2)))

/-- Every command that is a State.serve is served so. -/
theorem served_of_serve (m : Msg) (s : State) (c : Instr) (op shape : Nat) (run : State → State × Reply)
    (isServe : exec c s = .next (s.serve m op shape run)) : Served m s c op shape run := by
  refine ⟨fun no => ?_, fun yes long => ?_, fun ⟨yes, fits⟩ bad => ?_, fun ⟨yes, fits⟩ shaped many => ?_,
    fun ⟨⟨yes, fits⟩, shaped, few⟩ other => ⟨fun noPath => ?_, fun path => ?_⟩,
    fun ⟨⟨yes, fits⟩, shaped, few⟩ here => ⟨fun noSession => ?_, fun session => ?_⟩⟩ <;> rw [isServe]
  · rw [serve_untaken no]
  · rw [serve_taken yes, admitReq_long long]
  · rw [serve_taken yes, admitReq_badShape fits bad]
  · rw [serve_taken yes, admitReq_tooMany fits shaped many]
  · rw [serve_taken yes, admitReq_ready fits shaped few, if_pos other, relayReq_noPath few noPath]
  · rw [serve_taken yes, admitReq_ready fits shaped few, if_pos other, relayReq_path few path]
  · rw [serve_taken yes, admitReq_ready fits shaped few, if_neg (not_not.2 here), serveHere_noSession noSession]
  · rw [serve_taken yes, admitReq_ready fits shaped few, if_neg (not_not.2 here), serveHere_runs session]

end Sys2Proof.Laws

namespace Sys2Proof.Proofs

/-- Settles O46: each of the 15 requests is a State.serve, and what becomes of one is said gate by gate. -/
theorem dictRequests : Obligations.DictRequests := fun m s =>
  ⟨served_of_serve m s (.read m) 1 1 (State.readOp · m) rfl,
    served_of_serve m s (.write m) 2 1 (State.writeOp · m) rfl,
    served_of_serve m s (.writeVerify m) 3 1 (State.verifyOp · m) rfl,
    served_of_serve m s (.readBulk m) 4 3 (State.readBulkOp · m) rfl,
    served_of_serve m s (.writeBulk m) 5 3 (State.writeBulkOp · m) rfl,
    served_of_serve m s (.subscribe m) 6 3 (State.subscribeOp · m) rfl,
    served_of_serve m s (.unsubscribe m) 7 0 (State.unsubscribeOp · m) rfl,
    served_of_serve m s (.describe m) 9 2 (State.describeOp · m) rfl,
    served_of_serve m s (.pointRead m) 10 4 (State.pointReadOp · m) rfl,
    served_of_serve m s (.pointWrite m) 11 4 (State.pointWriteOp · m) rfl,
    served_of_serve m s (.challenge m) 12 0 (State.challengeOp · m) rfl,
    served_of_serve m s (.open_ m) 13 0 (State.openOp · m) rfl,
    served_of_serve m s (.close m) 14 0 (State.closeOp · m) rfl,
    served_of_serve m s (.blobRead m) 15 1 (State.blobReadOp · m) rfl,
    served_of_serve m s (.blobWrite m) 16 1 (State.blobWriteOp · m) rfl⟩

end Sys2Proof.Proofs
end

section
/-! Events and commands of the dictionary (R454 to R467): subscriptions, malformed and relayed requests, the expiries, the
IP layer and DICT_CMD. -/

open Sys2Proof Sys2Proof.Machine Sys2Proof.Laws

namespace Sys2Proof.Laws

/-! ### NOTIFY (R462) -/

theorem notify_none {s : State} {n : Fin 64} (leaves : Bool) (none : s.dict.subs.find? (fun p => p.1 == n.val) = .none) :
    exec (.notify n leaves) s = .next s := by
  show execNotify n leaves s = _
  simp only [execNotify, none]

/-- A subscription's NOTIFY is due while the hub runs and its turn has come. -/
theorem notify_some {s : State} {n : Fin 64} (leaves : Bool) {k : Nat} {x : Sub}
    (found : s.dict.subs.find? (fun p => p.1 == n.val) = some (k, x)) :
    exec (.notify n leaves) s
      = .next (if s.workRuns && s.dict.shepherds && s.notifyDue x then s.notifyOp n x leaves else s) := by
  show execNotify n leaves s = _
  simp only [execNotify, found]

theorem notify_notDue {s : State} {n : Fin 64} (leaves : Bool) {k : Nat} {x : Sub}
    (found : s.dict.subs.find? (fun p => p.1 == n.val) = some (k, x))
    (not : s.workRuns = false ∨ s.dict.shepherds = false ∨ s.notifyDue x = false) :
    exec (.notify n leaves) s = .next s := by
  have held : ¬ (s.workRuns && s.dict.shepherds && s.notifyDue x) = true := by
    rcases not with h | h | h <;> simp [h]
  rw [notify_some leaves found, if_neg held]

theorem notify_due {s : State} {n : Fin 64} (leaves : Bool) {k : Nat} {x : Sub}
    (found : s.dict.subs.find? (fun p => p.1 == n.val) = some (k, x))
    (runs : s.workRuns = true) (up : s.dict.shepherds = true) (due : s.notifyDue x = true) :
    exec (.notify n leaves) s = .next (s.notifyOp n x leaves) := by
  rw [notify_some leaves found, if_pos (by simp [runs, up, due])]

/-! ### DICT_MALFORMED_REQUEST (R464) -/

section Malformed

variable {s : State} {path : Fin 4} (source : Nat) {words : List Word} {packing : Bool}

theorem dictMalformedRequest_closed
    (down : ¬ (s.workRuns = true ∧ s.dict.shepherds = true ∧ s.pathOpen path = true)) :
    exec (.dictMalformedRequest path source words packing) s = .next s := by
  have no : (!(s.workRuns && s.dict.shepherds && s.pathOpen path)) = true := by
    rw [Bool.not_eq_true', ← Bool.not_eq_true]
    simpa [and_assoc] using down
  exact congrArg _ (if_pos no)

/-- On an open path the message is judged by its words. -/
theorem dictMalformedRequest_open (up : s.workRuns = true ∧ s.dict.shepherds = true ∧ s.pathOpen path = true) :
    exec (.dictMalformedRequest path source words packing) s
      = .next (match malformedAs words packing with
          | none => s
          | some none => (s.takeReq path).malformed path
          | some (some (h, c)) => ((s.takeReq path).malformed path).respond path source { h with abort := c } []) := by
  obtain ⟨runs, shepherds, opened⟩ := up
  refine congrArg _ ((if_neg (by simp [runs, shepherds, opened])).trans ?_)
  rcases malformedAs words packing with _ | _ | _ <;> rfl

theorem dictMalformedRequest_wellFormed (well : malformedAs words packing = none) :
    exec (.dictMalformedRequest path source words packing) s = .next s := by
  by_cases up : s.workRuns = true ∧ s.dict.shepherds = true ∧ s.pathOpen path = true
  · rw [dictMalformedRequest_open source up, well]
  · exact dictMalformedRequest_closed source up

end Malformed

/-! ### Relayed requests (R457) -/

theorem relayedResponse_down {s : State} (relay abort : Nat) (pend dflt : Bool) (body : List Word)
    (down : s.workRuns = false ∨ s.dict.shepherds = false) :
    exec (.relayedResponse relay abort pend dflt body) s = .next s := by
  have no : (!(s.workRuns && s.dict.shepherds)) = true := by
    rcases down with h | h <;> simp [h]
  exact congrArg _ (if_pos no)

theorem relayedResponse_up {s : State} (relay abort : Nat) (pend dflt : Bool) (body : List Word)
    (runs : s.workRuns = true) (up : s.dict.shepherds = true) :
    exec (.relayedResponse relay abort pend dflt body) s
      = .next (match s.relayed relay with
          | none => s.malformed 0
          | some q => (s.endRelay relay).reply q.path q.source
              ({ msgHead q.msg q.op with abort := abort, pend := pend, dflt := dflt }.words (body.map BitVec.toNat))) := by
  refine congrArg _ ((if_neg (by simp [runs, up])).trans ?_)
  cases s.relayed relay <;> rfl

theorem relayTimeout_none {s : State} {relay : Nat} (none : s.relayed relay = .none) :
    exec (.relayTimeout relay) s = .next s := by
  show execRelayTimeout relay s = _
  simp only [execRelayTimeout, none]

theorem relayTimeout_some {s : State} {relay : Nat} {q : OpenReq} (found : s.relayed relay = some q) :
    exec (.relayTimeout relay) s
      = .next ((((s.endRelay relay).bump 0x00104 5).fire 275 q.path).abortReq q.msg q.op aTimeout) := by
  show execRelayTimeout relay s = _
  simp only [execRelayTimeout, found]

end Sys2Proof.Laws

namespace Sys2Proof.Proofs

/-- Settles O48: each event and command under the cases of its own definition. -/
theorem dictEvents : Obligations.DictEvents := by
  intro s
  refine ⟨fun n leaves => ⟨notify_none leaves, fun k x found => ⟨notify_notDue leaves found, fun runs up due =>
      ⟨notify_due true found runs up due, notify_due false found runs up due⟩⟩⟩,
    fun path source words packing => ?_, fun relay abort pend dflt body => ?_, fun e => rfl, rfl,
    fun n some => congrArg _ (if_neg some), fun path source => rfl, fun address asker payload => ?_,
    fun g => ⟨fun bad => congrArg _ (if_pos bad), fun g0 gE g10 => ?_,
      fun bad => congrArg _ (if_pos bad), fun ok => congrArg _ (if_neg (Nat.not_lt.2 ok))⟩, rfl⟩
  · refine ⟨dictMalformedRequest_closed source, dictMalformedRequest_wellFormed source, fun up unanswered => ?_,
      fun h c up answered => ?_⟩
    · rw [dictMalformedRequest_open source up, unanswered]
      rfl
    · rw [dictMalformedRequest_open source up, answered]
      rfl
  · refine ⟨relayedResponse_down relay abort pend dflt body, fun runs up => ⟨fun none => ?_, fun q found => ?_⟩,
      relayTimeout_none, fun q => relayTimeout_some⟩
    · rw [relayedResponse_up relay abort pend dflt body runs up, none]
      rfl
    · rw [relayedResponse_up relay abort pend dflt body runs up, found]
  · exact ⟨fun own => ⟨congrArg _ (if_pos own), congrArg _ (if_pos own)⟩, fun other =>
      ⟨congrArg _ (if_neg (Bool.not_eq_true _ ▸ other)), congrArg _ (if_neg (Bool.not_eq_true _ ▸ other))⟩⟩
  · refine congrArg _ (if_neg ?_)
    rintro (h | h | h)
    · exact g0 h
    · exact gE h
    · exact absurd h (Nat.not_lt.2 g10)

end Sys2Proof.Proofs
end

section
/-! Bell's commands (R495 to R503): a firing's record and latch, acknowledgement, and the window tick. -/

open Sys2Proof Sys2Proof.Machine Sys2Proof.Laws

namespace Sys2Proof.Laws

section Firing

variable (s : State)

/-! ### What a firing leaves at Bell -/

theorem tallyEvent_bell (c : Nat) (p : List Nat) : (s.tallyEvent c p).bell = s.bell := by
  unfold State.tallyEvent
  grind [State.bump, State.setCount]

theorem interrupt_bell (k : Nat) : (s.interrupt k).bell = s.bell := by
  unfold State.interrupt State.msiSend
  grind [State.bump, State.setCount, State.emit]

theorem fired_ne_quiet (n inst lv : Nat) (forced : Bool) : s.fired n inst lv forced ≠ Source.quiet :=
  fun h => List.cons_ne_nil _ _ (congrArg Source.insts h)

/-- Bell after a firing: the source's record, the FATAL latch, and the source of the last fault. -/
def firedBell (n inst : Nat) (forced : Bool) : BellSt :=
  let lv := s.firingLevel n
  { s.bell with
    srcs := Tab.set Source.quiet s.bell.srcs n (s.fired n inst lv forced)
    fatal := if lv = 5 then true else s.bell.fatal
    stopped := if lv = 5 then true else s.bell.stopped
    lastSource := if 2 ≤ lv then n else s.bell.lastSource }

theorem firePlain_bell {n : Nat} (inst detail : Nat) (forced : Bool) (exists_ : (srcRow? n).isSome = true) :
    (s.firePlain n inst detail forced).bell = firedBell s n inst forced := by
  obtain ⟨row, found⟩ := Option.isSome_iff_exists.1 exists_
  simp only [State.firePlain, found, apply_ite State.bell, interrupt_bell, tallyEvent_bell, State.setSrc_bell, ite_self,
    firedBell]
  by_cases fault : 2 ≤ s.firingLevel n <;> by_cases fatal : s.firingLevel n = 5 <;> simp only [fault, fatal] <;> rfl

theorem firePlain_src {n : Nat} (k inst detail : Nat) (forced : Bool) (exists_ : (srcRow? n).isSome = true) :
    (s.firePlain n inst detail forced).src k = if k = n then s.fired n inst (s.firingLevel n) forced else s.src k := by
  simp only [State.src, firePlain_bell s inst detail forced exists_]
  exact get_set_of_ne (fired_ne_quiet s n inst _ forced)

end Firing

/-- Below MAJOR nothing that a source names is safe while FATAL is not latched. -/
theorem nowSafe_below {s before : State} {n inst : Nat} (below : s.level n < 3) (calm : s.bell.fatal = false) :
    s.nowSafe before n inst = [] := by
  have low : decide (3 ≤ s.level n) = false := decide_eq_false (Nat.not_le.2 below)
  simp [State.nowSafe, State.safe, calm, low]

/-- A firing whose source stays below MAJOR stops nothing but what R418 moves. -/
theorem fire_below {s : State} {n inst detail : Nat} {forced : Bool} (below : (s.fireCore n inst detail forced).level n < 3)
    (calm : (s.fireCore n inst detail forced).bell.fatal = false) :
    s.fire n inst detail forced = (s.fireCore n inst detail forced).pairBell := by
  have mild : ¬ 4 ≤ (s.fireCore n inst detail forced).level n := by omega
  simp only [State.fire, if_neg mild, nowSafe_below below calm, List.foldl_nil, calm]
  rfl

theorem bellFiring_runs {s : State} (n inst detail : Nat) (runs : s.workRuns = true) :
    exec (.bellFiring n inst detail) s = .next (s.fire n inst detail) := by
  have bell : s.bellRuns = true := runs
  show execBellFiring n inst detail s = _
  rw [execBellFiring, if_pos bell]

/-- A firing of a source that does not exist records nothing. -/
theorem fireCore_absent {s : State} {n : Nat} (inst detail : Nat) (forced : Bool) (absent : srcRow? n = none) :
    s.fireCore n inst detail forced = s := by
  simp only [State.fireCore, absent]

theorem bellFiring_absent {s : State} {n : Nat} (inst detail : Nat) (runs : s.workRuns = true) (absent : srcRow? n = none)
    (quiet : s.src n = Source.quiet) (calm : s.bell.fatal = false) :
    exec (.bellFiring n inst detail) s = .next s.pairBell := by
  have same := fireCore_absent (s := s) inst detail false absent
  have low : s.level n = 0 := by
    simp only [State.level, quiet]
    rfl
  rw [bellFiring_runs n inst detail runs, fire_below (by rw [same, low]; decide) (by rw [same, calm]), same]

/-- The next state of a BELL_FIRING is one that a firing can make. -/
theorem bellFiring_fires (s : State) (n inst detail : Nat) : ∃ t, exec (.bellFiring n inst detail) s = .next t ∧ Fires s t := by
  refine ⟨_, rfl, ?_⟩
  split
  · exact fires_fire s n inst detail false (Fires.refl s)
  · exact Fires.refl s

section Exists

variable {s : State} {n : Nat} (runs : s.workRuns = true)
include runs

theorem bellForce_exists (inst : Nat) (exists_ : (srcRow? n).isSome = true) :
    exec (.bellForce n inst) s = .next (s.fire n inst 0 true) := by
  have bell : ¬ (!s.bellRuns) = true := by simp [State.bellRuns, runs]
  show execBellForce n inst s = _
  rw [execBellForce, if_neg bell, if_pos exists_]

theorem bellForce_absent (inst : Nat) (absent : srcRow? n = none) :
    exec (.bellForce n inst) s = .next (s.abort (0x0C004 + 8 * n) aNoObject) :=
  congrArg _ ((if_neg (by simp [State.bellRuns, runs])).trans (if_neg (by simp [absent])))

theorem bellAck_exists (session : Fin 16) (path : Fin 4) (exists_ : (srcRow? n).isSome = true) :
    exec (.bellAck n session path) s = .next (s.ackSource n session path) :=
  congrArg _ ((if_neg (by simp [State.bellRuns, runs])).trans (if_pos exists_))

theorem bellAck_absent (session : Fin 16) (path : Fin 4) (absent : srcRow? n = none) :
    exec (.bellAck n session path) s = .next (s.abort (0x0C004 + 8 * n) aNoObject) :=
  congrArg _ ((if_neg (by simp [State.bellRuns, runs])).trans (if_neg (by simp [absent])))

end Exists

/-- An ACK clears what is unacknowledged and nothing that the window or the latch holds. -/
theorem acked_keeps (x : Source) : x.acked.unack = 0 ∧ x.acked.raised = x.raised ∧ x.acked.latch = x.latch := by
  unfold Source.acked
  extract_lets y
  split <;> exact ⟨rfl, rfl, rfl⟩

/-! ### The window tick (R499) -/

/-- The operating hours once h more have passed: they count while supply 2 is UP. -/
def hoursCounted (s : State) (h : Nat) : Nat :=
  if (s.power.supplies.getD 2 (0, 0)).1 = 0 then satAdd 36 s.tally.ophours h else s.tally.ophours

/-- What a tick does once Bell's windows have moved: the hours, fabric time without a tide, and muster. -/
def tickRest (s : State) (h : Nat) : State :=
  let s : State := { s with tally.ophours := if s.supplyUp 2 then satAdd 36 s.tally.ophours h else s.tally.ophours }
  let s : State := if s.tide.runs then s
    else { s with
      time.base := s.time.base + 3125 * tickPerSc,
      tide.abs0 := if s.workRuns then s.tide.abs0 + 3125 * 400 else s.tide.abs0 }
  s.musterTick

theorem bellWindowTick_runs {s : State} (runs : s.workRuns = true) :
    exec .bellWindowTick s = .next (tickRest s.bellTick (hoursAt (s.bell.tick + 1) - hoursAt s.bell.tick)) :=
  congrArg (fun u : State => Host.Outcome.next (tickRest u _)) (if_pos runs)

theorem bellWindowTick_stopped {s : State} (stopped : s.workRuns = false) :
    exec .bellWindowTick s
      = .next (tickRest { s with bell.tick := s.bell.tick + 1 } (hoursAt (s.bell.tick + 1) - hoursAt s.bell.tick)) :=
  congrArg (fun u : State => Host.Outcome.next (tickRest u _)) (if_neg (Bool.eq_false_iff.1 stopped))

theorem hours_supplyUp (s : State) (h : Nat) :
    (if s.supplyUp 2 then satAdd 36 s.tally.ophours h else s.tally.ophours) = hoursCounted s h :=
  if_congr beq_iff_eq rfl rfl

theorem tickRest_tide {s : State} (h : Nat) (tide : s.tide.runs = true) :
    tickRest s h = State.musterTick { s with tally.ophours := hoursCounted s h } := by
  rw [tickRest, hours_supplyUp]
  exact congrArg State.musterTick (if_pos tide)

theorem tickRest_noTide {s : State} (h : Nat) (noTide : s.tide.runs = false) :
    tickRest s h = State.musterTick { s with
      tally.ophours := hoursCounted s h
      time.base := s.time.base + 3125 * tickPerSc
      tide.abs0 := if s.workRuns then s.tide.abs0 + 3125 * 400 else s.tide.abs0 } := by
  rw [tickRest, hours_supplyUp]
  exact congrArg State.musterTick (if_neg (Bool.eq_false_iff.1 noTide))

end Sys2Proof.Laws

namespace Sys2Proof.Proofs

/-- Settles O51: a firing through its record at Bell and the frame of a firing, the other commands by their conditions. -/
theorem bellCommands : Obligations.BellCommands := by
  intro s
  refine ⟨fun n => rfl, fun n inst detail exists_ => ⟨?_, fun k other => ?_, ?_, fun fault => ?_, fun runs below calm => ?_, ?_⟩,
    fun stopped => ?_, fun n inst runs exists_ => ⟨_, bellForce_exists runs inst exists_, rfl, ?_⟩,
    fun n inst detail runs absent session path => ⟨bellFiring_absent inst detail runs absent,
      bellForce_absent runs inst absent, bellAck_absent runs session path absent⟩,
    fun n session path runs exists_ => ⟨fun none => ?_, fun some => ?_⟩, acked_keeps,
    fun session path runs => congrArg _ (if_pos runs), ?_, rfl⟩
  · exact (firePlain_src s n inst detail false exists_).trans (if_pos rfl)
  · exact (firePlain_src s k inst detail false exists_).trans (if_neg other)
  · rw [firePlain_bell s inst detail false exists_]
    by_cases fatal : s.firingLevel n = 5 <;> simp [firedBell, fatal]
  · rw [firePlain_bell s inst detail false exists_]
    exact if_pos fault
  · rw [bellFiring_runs n inst detail runs, fire_below below calm]
  · obtain ⟨t, next, kept⟩ := bellFiring_fires s n inst detail
    exact ⟨t, next, kept.tide, kept.table, kept.image, kept.pen, kept.sw, kept.muster, kept.time, kept.upd, kept.power,
      kept.fold, kept.svc, kept.dict_settings, kept.dict_sessions⟩
  · have no : ¬ s.bellRuns = true := Bool.eq_false_iff.1 stopped
    have held : (!s.bellRuns) = true := by simp [State.bellRuns, stopped]
    exact ⟨fun n inst detail => ⟨congrArg _ (if_neg no), congrArg _ (if_pos held)⟩,
      fun n session path => ⟨congrArg _ (if_pos held), congrArg _ (if_neg no)⟩⟩
  · have kept : Fires s (s.fire n inst 0 true) := fires_fire s n inst 0 true (Fires.refl s)
    exact ⟨kept.tide, kept.table, kept.image, kept.pen, kept.time, kept.fold, kept.dict_settings⟩
  · rw [bellAck_exists runs session path exists_, State.ackSource, if_pos none]
  · rw [bellAck_exists runs session path exists_, State.ackSource, if_neg some]
  · refine ⟨fun runs tide => ?_, fun runs noTide => ?_, fun stopped tide => ?_, fun stopped noTide => ?_⟩
    · rw [bellWindowTick_runs runs]
      exact congrArg _ (tickRest_tide (s := s.bellTick) _ tide)
    · have runsAfter : s.bellTick.workRuns = true := runs
      rw [bellWindowTick_runs runs, tickRest_noTide (s := s.bellTick) _ noTide, if_pos runsAfter]
      rfl
    · rw [bellWindowTick_stopped stopped]
      exact congrArg _ (tickRest_tide (s := { s with bell.tick := s.bell.tick + 1 }) _ tide)
    · have stoppedAfter : ¬ State.workRuns { s with bell.tick := s.bell.tick + 1 } = true := Bool.eq_false_iff.1 stopped
      rw [bellWindowTick_stopped stopped, tickRest_noTide (s := { s with bell.tick := s.bell.tick + 1 }) _ noTide,
        if_neg stoppedAfter]
      rfl

end Sys2Proof.Proofs
end

section
/-! The Fold (R527 to R547): how an operation joins the engine, how the oldest one ends, and the Fold's events. -/

open Sys2Proof Sys2Proof.Machine Sys2Proof.Laws

namespace Sys2Proof.Laws

/-! ### A request joins the engine (R539) -/

/-- What a request's command does: BUSY beyond four waiting operations, else its words join the engine. -/
def Asks (s : State) (a : Asker) (c : Instr) (op slot target w1 w2 : Nat) (body : List Word) : Prop :=
  (5 ≤ s.fold.engine.length → exec c s = .next (s.foldReply a aBusy))
  ∧ (s.fold.engine.length < 5 → exec c s = .next { s with
      fold.engine := s.fold.engine ++ [⟨[foldWord op slot target, w1, w2] ++ body.map BitVec.toNat, a⟩] })

/-- Every command that is a State.foldAsk asks so. -/
theorem asks_of_foldAsk (s : State) (a : Asker) (c : Instr) (op slot target : Nat) (fill : Fill) (body : List Word)
    (isAsk : exec c s = .next (s.foldAsk a op slot target fill body)) :
    Asks s a c op slot target fill.info.toNat fill.count.toNat body :=
  ⟨fun full => isAsk.trans (congrArg _ (if_pos full)), fun room => isAsk.trans (congrArg _ (if_neg (Nat.not_le.2 room)))⟩

/-! ### FOLD_OP_DONE (R539 to R541) -/

/-- The state with a result kept for the session and path that asked. -/
def keepResult (s : State) (r : FoldReq) (ws : List Nat) : State :=
  { s with
    fold.results := Tab.set none s.fold.results (4 * r.asker.session.val + r.asker.path.val) (some (r.asker.source, ws)) }

/-- The oldest operation refused: the engine goes on without it, its result says so, and it counts and fires. -/
def foldRefused (s : State) (r : FoldReq) : State :=
  (keepResult s r [put 12 6 (fld (r.words.getD 0 0) 17 12) + put 10 2 2]).foldRefuse.foldReply r.asker aRefused

/-- The engine without its oldest operation. -/
def popFold (s : State) (rest : List FoldReq) : State := { s with fold.engine := rest, fold.spoiled := false }

section FoldOpDone

variable {s : State} {r : FoldReq} {rest : List FoldReq} (serves : s.fold.engine = r :: rest)
include serves

/-- The end of the oldest operation, by what it comes to. -/
theorem foldOpDone_some :
    exec .foldOpDone s = .next (match (if s.fold.spoiled || !s.foldReady then none else (popFold s rest).foldRun r) with
      | some (t, out) => ((keepResult t r ((put 12 6 (fld (r.words.getD 0 0) 17 12) + put 10 2 1) :: out)).foldGrant).foldReply r.asker 0
      | none => foldRefused (popFold s rest) r) := by
  show execFoldOpDone s = _
  simp only [execFoldOpDone, serves]
  rfl

theorem foldOpDone_held (held : s.fold.spoiled = true ∨ s.fold.standing ≠ 0 ∨ s.fold.trngOk = false) :
    exec .foldOpDone s = .next (foldRefused (popFold s rest) r) := by
  have barred : (s.fold.spoiled || !s.foldReady) = true := by
    rcases held with h | h | h <;> simp [State.foldReady, h]
  rw [foldOpDone_some serves, if_pos barred]

theorem foldOpDone_refused (refused : (popFold s rest).foldRun r = none) :
    exec .foldOpDone s = .next (foldRefused (popFold s rest) r) := by
  rw [foldOpDone_some serves, refused, ite_self]

theorem foldOpDone_granted {t : State} {out : List Nat} (unspoiled : s.fold.spoiled = false) (calm : s.fold.standing = 0)
    (healthy : s.fold.trngOk = true) (granted : (popFold s rest).foldRun r = some (t, out)) :
    exec .foldOpDone s = .next
      (((keepResult t r ((put 12 6 (fld (r.words.getD 0 0) 17 12) + put 10 2 1) :: out)).foldGrant).foldReply r.asker 0) := by
  have free : ¬ (s.fold.spoiled || !s.foldReady) = true := by simp [State.foldReady, unspoiled, calm, healthy]
  rw [foldOpDone_some serves, if_neg free, granted]

end FoldOpDone

theorem foldOpDone_empty {s : State} (empty : s.fold.engine = []) : exec .foldOpDone s = .next s := by
  show execFoldOpDone s = _
  simp only [execFoldOpDone, empty]

/-- An OP that R536 does not list is refused. -/
theorem foldRun_unlisted (s : State) {r : FoldReq}
    (unlisted : fld (r.words.getD 0 0) 17 12 = 0 ∨ 11 < fld (r.words.getD 0 0) 17 12) : s.foldRun r = none := by
  unfold State.foldRun
  extract_lets w0 slot target x
  have op : fld w0 17 12 = 0 ∨ 11 < fld w0 17 12 := unlisted
  split
  case h_12 => rfl
  all_goals
    rename_i listed
    rw [listed] at op
    omega

/-! ### What the operations ask for -/

theorem opInstallClear_fills (s : State) {a : Asker} {target w1 w2 : Nat} {m : List Nat} (provisioned : s.fold.lifecycle = 1)
    (service : a.path.val = 3) (form : fillOk w1 w2 = true) (empty : (s.slot target).kind = 0)
    (length : m.length = matWords (fld w1 17 15)) (plain : plain16 m = true) :
    s.opInstallClear a ([foldWord 1 0 target, w1, w2] ++ m) target = some (s.fillSlot target w1 w2 (big16 m), []) :=
  if_pos ⟨provisioned, beq_iff_eq.2 service, form, empty, length, plain⟩

theorem opInstallClear_late (s : State) (a : Asker) (w : List Nat) (target : Nat) (late : s.fold.lifecycle ≠ 1) :
    s.opInstallClear a w target = none :=
  if_neg fun h => late h.1

theorem opRevoke_last (s : State) (a : Asker) (w : List Nat) (slot target : Nat) (last : s.ownerHashes.length < 2) :
    s.opRevoke a w slot target = none :=
  if_neg fun ⟨_, _, _, _, _, _, two⟩ => absurd two (Nat.not_le.2 last)

theorem opOtpWrite_written (s : State) (a : Asker) (w : List Nat) (slot target : Nat) (written : (s.otp target).hash ≠ none) :
    s.opOtpWrite a w slot target = none :=
  if_neg fun ⟨_, _, _, _, _, _, unwritten, _⟩ => written unwritten

/-- The ends of sessions leave the key slots. -/
theorem endSessions_slots (s : State) (test : Session → Bool) : (s.endSessions test).fold.slots = s.fold.slots := by
  unfold State.endSessions
  generalize s.dict.sessions.filter _ = l
  induction l generalizing s with
  | nil => rfl
  | cons p l ih => exact ih (s.endSession p.1)

theorem slot_eraseSlot (s : State) (k : Nat) (wf : Tab.wf Slot.none s.fold.slots = true) : (s.eraseSlot k).slot k = Slot.none := by
  unfold State.slot State.eraseSlot
  rw [endSessions_slots]
  exact (get_set wf).trans (if_pos rfl)

/-! ### Tampers (R529) and the TRNG's root (R530) -/

/-- The Fold once a tamper cause has zeroed it. -/
def tampered (s : State) (cause : Fin 9) (v : Fin 4096) : State :=
  let z := s.foldZero
  { z with
    fold.vbat := v, fold.standing := z.fold.standing ||| 2 ^ cause.val, fold.latched := z.fold.latched ||| 2 ^ cause.val
    fold.events := z.fold.events + 1, dict.nonces := [], fold.spoiled := !z.fold.engine.isEmpty }

theorem foldTamper_unarmed {s : State} {cause : Fin 9} (v : Fin 4096) (unarmed : s.tamperArmed (cause.val + 1) = false) :
    exec (.foldTamper cause v) s = .next s :=
  congrArg _ (if_pos (by simp [unarmed]))

theorem foldTamper_armed {s : State} {cause : Fin 9} (v : Fin 4096) (armed : s.tamperArmed (cause.val + 1) = true) :
    exec (.foldTamper cause v) s = .next (
      if (tampered s cause v).workRuns then
        (((tampered s cause v).bump 0x0E00A 2).fire 304 (cause.val + 1)).endSessions fun _ => true
      else { tampered s cause v with fold.unfired := (tampered s cause v).fold.unfired + 1 }) :=
  congrArg _ (if_neg (by simp [armed]))

end Sys2Proof.Laws

namespace Sys2Proof.Proofs

/-- Settles O53: the engine's two ends, what the operations ask for, and the Fold's events. -/
theorem foldOperations : Obligations.FoldOperations := by
  intro s
  refine ⟨fun a slot target fill payload =>
      ⟨asks_of_foldAsk s a _ 1 0 target fill payload rfl, asks_of_foldAsk s a _ 2 0 target fill payload rfl,
        asks_of_foldAsk s a _ 3 slot target fill payload rfl, asks_of_foldAsk s a _ 4 slot target fill payload rfl,
        asks_of_foldAsk s a _ 5 0 target fill payload rfl, asks_of_foldAsk s a _ 6 0 target Fill.zero [] rfl,
        asks_of_foldAsk s a _ 7 slot 0 Fill.zero payload rfl, asks_of_foldAsk s a _ 8 slot 0 Fill.zero payload rfl,
        asks_of_foldAsk s a _ 9 0 0 Fill.zero payload rfl, asks_of_foldAsk s a _ 10 0 target Fill.zero payload rfl,
        asks_of_foldAsk s a _ 11 0 target Fill.zero [] rfl⟩,
    foldOpDone_empty, fun r rest serves => ⟨foldOpDone_held serves, foldOpDone_refused serves,
      fun t out => foldOpDone_granted serves, foldRun_unlisted _⟩,
    fun a target w1 w2 m => opInstallClear_fills s, opInstallClear_late s, slot_eraseSlot s, opRevoke_last s,
    opOtpWrite_written s,
    fun cause v => ⟨foldTamper_unarmed v, fun armed runs => (foldTamper_armed v armed).trans (congrArg _ (if_pos runs)),
      fun armed stopped => (foldTamper_armed v armed).trans (congrArg _ (if_neg (Bool.eq_false_iff.1 stopped)))⟩,
    ⟨fun keys none => ?_, fun held => ?_⟩,
    fun v => ⟨fun low high => congrArg _ (if_pos ⟨low, high⟩), fun out => congrArg _ (if_neg fun ⟨low, high⟩ => ?_)⟩,
    rfl, fun u n k => ⟨fun runs => if_pos runs, fun stopped => if_neg (Bool.eq_false_iff.1 stopped)⟩, rfl⟩
  · exact congrArg _ (if_pos (Bool.and_eq_true_iff.2 ⟨keys, Option.isNone_iff_eq_none.2 none⟩))
  · refine congrArg _ (if_neg fun h => ?_)
    obtain ⟨keys, none⟩ := Bool.and_eq_true_iff.1 h
    rcases held with h | h
    · exact Bool.noConfusion (h.symm.trans keys)
    · exact h (Option.isNone_iff_eq_none.1 none)
  · omega

end Sys2Proof.Proofs
end

section
/-! The gates for hot insertion (R577 to R591): each event and command of a gate under the condition that lists it. -/

open Sys2Proof Sys2Proof.Machine Sys2Proof.Laws

namespace Sys2Proof.Laws

/-! ### What the conditions of a gate say -/

theorem gCool_iff {s : State} {g t : Nat} : s.gCool g t = true ↔ t + 20 < fld (s.cfg 0x10004 g) 17 9 + 64 :=
  decide_eq_true_iff

theorem running_ne_disabled {x : Gate} (runs : x.running = true) : x.state ≠ .disabled := by
  intro disabled
  simp [Gate.running, disabled] at runs

/-! ### GATE_UNSEATED -/

/-- The gate once its seat inputs have changed. -/
def unseat (x : Gate) (a b : Bool) : Gate := { x with seatA := a, seatB := b }

section Unseated

variable {s : State} {g : Fin 16} {a b : Bool}

theorem gateUnseated_disabled (disabled : (s.gateAt g).state = .disabled) : exec (.gateUnseated g a b) s = .next s :=
  congrArg _ (if_pos (by simp [disabled]))

/-- A gate that samples its inputs, one of them open, turns off when it runs and else empties as its state says. -/
theorem gateUnseated_open (opened : ¬ (a = true ∧ b = true)) (enabled : (s.gateAt g).state ≠ .disabled) :
    exec (.gateUnseated g a b) s = .next (if (unseat (s.gateAt g) a b).running then
        (s.setGate g { (unseat (s.gateAt g) a b).off .empty 2 with tries := 0 }).fireLive 336 g
      else match (s.gateAt g).state with
        | .seating => s.setGate g { unseat (s.gateAt g) a b with state := .empty }
        | .ready | .cooldown | .lockout => s.setGate g { unseat (s.gateAt g) a b with state := .empty, tries := 0 }
        | _ => s.setGate g (unseat (s.gateAt g) a b)) := by
  have passes : ¬ ((a && b) || (s.gateAt g).state == .disabled) = true := by
    simpa [Bool.and_eq_true, enabled] using opened
  refine congrArg _ ((if_neg passes).trans ?_)
  cases (s.gateAt g).state <;> rfl

/-- The same for a gate in a state in which it does not run. -/
theorem gateUnseated_idle {st : GState} (opened : ¬ (a = true ∧ b = true)) (inState : (s.gateAt g).state = st)
    (enabled : st ≠ .disabled) (idle : Gate.running { s.gateAt g with state := st } = false) :
    exec (.gateUnseated g a b) s = .next (match (generalizing := false) st with
        | .seating => s.setGate g { unseat (s.gateAt g) a b with state := .empty }
        | .ready | .cooldown | .lockout => s.setGate g { unseat (s.gateAt g) a b with state := .empty, tries := 0 }
        | _ => s.setGate g (unseat (s.gateAt g) a b)) := by
  subst inState
  exact (gateUnseated_open opened enabled).trans (congrArg _ (if_neg (Bool.eq_false_iff.1 idle)))

end Unseated

/-! ### Trips (R581 to R583) -/

/-- The gate after a trip: a try more, its switches off. -/
def tripped (x : Gate) (st : GState) (cause : Nat) : Gate :=
  { x with state := st, cause := cause, banksOn := false, tries := min (x.tries + 1) 255, offDone := false }

/-- The trip's counts: a trip, and a fast one for CAUSE 4. -/
def tripCount (s : State) (g cause : Nat) : State :=
  let t := s.bump 0x1000A (4 * g + 1)
  if cause = 4 then t.bump 0x1000A (4 * g + 3) else t

theorem gateTrip_again {s : State} {g : Nat} (cause : Nat)
    (within : min ((s.gateAt g).tries + 1) 255 ≤ fld (s.cfg 0x10005 g) 25 18) :
    s.gateTrip g cause
      = (tripCount (s.setGate g (tripped (s.gateAt g) .cooldown cause)) g cause).fireLive
          (if cause = 7 then 338 else 337) g := by
  have few : ¬ fld (s.cfg 0x10005 g) 25 18 < satAdd 8 (s.gateAt g).tries 1 := Nat.not_lt.2 within
  simp only [State.gateTrip, if_neg few]
  rfl

theorem gateTrip_out {s : State} {g : Nat} (cause : Nat)
    (beyond : fld (s.cfg 0x10005 g) 25 18 < min ((s.gateAt g).tries + 1) 255) :
    s.gateTrip g cause
      = ((((tripCount (s.setGate g (tripped (s.gateAt g) .lockout cause)) g cause).fireLive
          (if cause = 7 then 338 else 337) g).bump 0x1000A (4 * g + 2)).fireLive 339 g) := by
  have many : fld (s.cfg 0x10005 g) 25 18 < satAdd 8 (s.gateAt g).tries 1 := beyond
  simp only [State.gateTrip, if_pos many]
  rfl

/-! ### GATE_CMD -/

theorem gateOff_idle {s : State} {g : Nat} (idle : (s.gateAt g).running = false)
    (waits : (s.gateAt g).state = .ready ∨ (s.gateAt g).state = .cooldown) :
    s.gateOffOp g = s.setGate g { s.gateAt g with state := .ready, req := false } := by
  rcases waits with h | h <;> simp only [State.gateOffOp, idle, h] <;> rfl

theorem gateOff_bad {s : State} {g : Nat} (idle : (s.gateAt g).running = false)
    (notReady : (s.gateAt g).state ≠ .ready) (notCooling : (s.gateAt g).state ≠ .cooldown) :
    s.gateOffOp g = s.gateBad := by
  simp only [State.gateOffOp, idle]
  cases h : (s.gateAt g).state
  case ready => exact absurd h notReady
  case cooldown => exact absurd h notCooling
  all_goals rfl

/-- The number whose bits below n are those that a test keeps. -/
def bitsBelow (p : Nat → Bool) (n : Nat) : Nat := (List.range n).foldl (fun a k => if p k then a + 2 ^ k else a) 0

theorem bitsBelow_succ (p : Nat → Bool) (n : Nat) :
    bitsBelow p (n + 1) = if p n then bitsBelow p n + 2 ^ n else bitsBelow p n := by
  simp [bitsBelow, List.range_succ]

theorem bitsBelow_lt (p : Nat → Bool) (n : Nat) : bitsBelow p n < 2 ^ n := by
  induction n with
  | zero => exact Nat.one_pos
  | succ n ih =>
    rw [bitsBelow_succ]
    split <;> omega

theorem testBit_bitsBelow (p : Nat → Bool) {n k : Nat} (below : k < n) : (bitsBelow p n).testBit k = p k := by
  induction n with
  | zero => exact absurd below (Nat.not_lt_zero k)
  | succ n ih =>
    have top : (bitsBelow p n).testBit n = false := Nat.testBit_lt_two_pow (bitsBelow_lt p n)
    rw [bitsBelow_succ, Nat.add_comm (bitsBelow p n)]
    rcases Nat.lt_succ_iff_lt_or_eq.1 below with lower | rfl
    · cases p n <;> simp [Nat.testBit_two_pow_add_gt lower, ih lower]
    · cases h : p k <;> simp [Nat.testBit_two_pow_add_eq, top]

end Sys2Proof.Laws

namespace Sys2Proof.Proofs

/-- Settles O55: each event and command under its own condition; a gate's write leaves the others. -/
theorem gateStates : Obligations.GateStates := by
  intro s g
  refine ⟨fun m => ⟨fun empty => ?_, fun disabled => congrArg _ (if_pos disabled), fun full enabled =>
      congrArg _ ((if_neg enabled).trans (if_neg full))⟩, rfl, fun a b opened => ⟨fun runs => ?_, fun seating => ?_,
      fun waits => ?_, fun rests => ?_, gateUnseated_disabled⟩,
    fun h => congrArg _ (if_pos h), fun h => congrArg _ (if_neg h), fun m => ?_,
    fun h => congrArg _ (if_pos h), fun h => congrArg _ (if_neg h),
    fun h => congrArg _ (if_pos h), fun h => congrArg _ (if_neg h),
    fun h => congrArg _ (if_pos h), fun h => congrArg _ (if_neg h),
    fun h => congrArg _ (if_pos h), fun h => congrArg _ (if_neg (Bool.eq_false_iff.1 h)),
    fun h => congrArg _ (if_pos h), fun h => congrArg _ (if_neg h),
    fun cause => ⟨gateTrip_again cause, gateTrip_out cause⟩,
    fun h => congrArg _ (if_pos h), fun h => congrArg _ (if_neg h),
    fun runs => congrArg _ (if_pos runs), fun waits => ?_, fun idle notReady notCooling => ?_,
    fun h => congrArg _ (if_pos h), fun h => congrArg _ (if_neg h),
    fun damaged => ⟨_, congrArg _ (if_pos ⟨damaged, rfl⟩), fun k below => testBit_bitsBelow _ below⟩,
    fun sound => congrArg _ (if_neg fun h => sound h.1), congrArg _ (if_neg fun h => nomatch h.2),
    fun y k shown other => ?_⟩
  · have enabled : (s.gateAt g).state ≠ .disabled := by rw [empty]; decide
    exact congrArg _ ((if_neg enabled).trans (if_pos empty))
  · exact (gateUnseated_open opened (running_ne_disabled runs)).trans (congrArg _ (if_pos runs))
  · exact gateUnseated_idle opened seating (by decide) rfl
  · rcases waits with h | h | h <;> exact gateUnseated_idle opened h (by decide) rfl
  · rcases rests with h | h <;> exact gateUnseated_idle opened h (by decide) rfl
  · refine ⟨fun starts => congrArg _ (if_pos ?_), fun waits => congrArg _ (if_neg fun h => waits ?_),
      ⟨fun h => congrArg _ (if_pos h), fun h => congrArg _ (if_neg h)⟩,
      ⟨fun h => congrArg _ (if_pos h), fun h => congrArg _ (if_neg h)⟩,
      ⟨fun h => congrArg _ (if_pos h), fun h => congrArg _ (if_neg h)⟩,
      ⟨fun cooling cool => ?_, fun cooling hot => ?_, fun other => congrArg _ (if_neg other),
        fun cooling off cool => congrArg _ (if_pos ⟨cooling, off, gCool_iff.2 cool⟩),
        fun not => congrArg _ (if_neg fun ⟨cooling, off, cool⟩ => ?_)⟩,
      ⟨fun h => congrArg _ (if_pos h), fun h => congrArg _ (if_neg h)⟩,
      ⟨fun h => congrArg _ (if_pos h), fun h => congrArg _ (if_neg h)⟩,
      ⟨fun h => congrArg _ (if_pos h), fun h => congrArg _ (if_neg h)⟩⟩
    · obtain ⟨ready, seatA, seatB, asked, window, cool, safe, runs⟩ := starts
      exact ⟨ready, seatA, seatB, asked, window, gCool_iff.2 cool, safe, runs⟩
    · obtain ⟨ready, seatA, seatB, asked, window, cool, safe, runs⟩ := h
      exact ⟨ready, seatA, seatB, asked, window, gCool_iff.1 cool, safe, runs⟩
    · exact congrArg _ ((if_pos cooling).trans (congrArg _ (if_pos (gCool_iff.2 cool))))
    · exact congrArg _ ((if_pos cooling).trans (congrArg _ (if_neg fun cool => hot (gCool_iff.1 cool))))
    · rcases not with h | h | h
      · exact h cooling
      · exact Bool.noConfusion (h.symm.trans off)
      · exact h (gCool_iff.1 cool)
  · exact congrArg _ <| gateOff_idle (by rcases waits with h | h <;> simp [Gate.running, h]) waits
  · exact congrArg _ (gateOff_bad idle notReady notCooling)
  · exact (State.gateAt_setGate s g k shown).trans (if_neg fun h => other (Fin.ext h))

end Sys2Proof.Proofs
end

section
/-! Starts, sleep and heat (R600 to R613): when each start is made and with which source, what its base keeps, how the bound of
fabric time grows, EBB_AT and the thresholds of T_J. -/

open Sys2Proof Sys2Proof.Machine Sys2Proof.Laws

namespace Sys2Proof.Laws

variable {s : State}

/-! ### When a start is made -/

/-- Supplies 0 to 8 are UP, no thermal hold stands, and the shore domain is powered. -/
def StartsMay (s : State) : Prop :=
  (∀ n < 9, (s.power.supplies.getD n (0, 0)).1 = 0) ∧ bit s.power.thresholds 2 = false ∧ s.power.state ≠ .dark

theorem mayStart_iff : s.mayStart = true ↔ StartsMay s := by
  simp only [State.mayStart, StartsMay, Bool.and_eq_true, List.all_eq_true, List.mem_range, State.supplyUp, beq_iff_eq,
    Bool.not_eq_true', bne_iff_ne, and_assoc]

/-- A warm restart can be made too: nothing was breached, in LIGHT, FULL or KEEP. -/
def WarmMay (s : State) : Prop :=
  StartsMay s ∧ s.power.breach = false ∧ (s.power.state = .light ∨ s.power.state = .full ∨ s.power.state = .keep)

theorem mayWarm_iff : s.mayWarm = true ↔ WarmMay s := by
  simp only [State.mayWarm, WarmMay, Bool.and_eq_true, Bool.or_eq_true, beq_iff_eq, mayStart_iff, Bool.not_eq_true', and_assoc,
    or_assoc]

/-! ### Which source a start carries (R610) -/

/-- The sources of cold starts, and those of warm restarts. -/
def ColdOne (v : Nat) : Prop := v = 1 ∨ v = 2 ∨ v = 4 ∨ v = 7 ∨ v = 8 ∨ v = 10
def WarmOne (v : Nat) : Prop := v = 3 ∨ v = 5 ∨ v = 6 ∨ v = 9 ∨ v = 11

theorem coldSource_cold {v : Nat} (cold : ColdOne v) : coldSource v = some v := by
  rcases cold with rfl | rfl | rfl | rfl | rfl | rfl <;> rfl

theorem warmSource_warm {v : Nat} (warm : WarmOne v) : warmSource v = some v := by
  rcases warm with rfl | rfl | rfl | rfl | rfl <;> rfl

theorem coldSource_other {v : Nat} (some : v ≠ 0) (other : ¬ ColdOne v) : coldSource v = none := by
  unfold ColdOne at other
  unfold coldSource
  split
  case h_8 => rfl
  all_goals omega

theorem warmSource_other {v : Nat} (some : v ≠ 0) (other : ¬ WarmOne v) : warmSource v = none := by
  unfold WarmOne at other
  unfold warmSource
  split
  case h_7 => rfl
  all_goals omega

section Start
variable (straps : Fin 64) (bad : Fin 16)

theorem coldStart_starts {v : Nat} (waits : coldSource s.power.source = some v) (may : StartsMay s) :
    exec (.coldStart straps bad) s = .next ((s.coldStartAs straps v).untrained bad) := by
  show execColdStart straps bad s = _
  simp only [execColdStart, waits, if_pos (mayStart_iff.2 may)]

theorem coldStart_none (none : coldSource s.power.source = .none) : exec (.coldStart straps bad) s = .next s := by
  show execColdStart straps bad s = _
  simp only [execColdStart, none]

theorem coldStart_held (held : ¬ StartsMay s) : exec (.coldStart straps bad) s = .next s := by
  show execColdStart straps bad s = _
  cases waits : coldSource s.power.source with
  | none => exact coldStart_none straps bad waits
  | some v => simp only [execColdStart, waits, if_neg (mt mayStart_iff.1 held)]

theorem warmRestart_starts {v : Nat} (waits : warmSource s.power.source = some v) (may : s.mayWarm = true) :
    exec (.warmRestart straps bad) s = .next ((s.warmStartAs straps v).untrained bad) := by
  show execWarmRestart straps bad s = _
  simp only [execWarmRestart, waits, if_pos may]

theorem warmRestart_none (none : warmSource s.power.source = .none) : exec (.warmRestart straps bad) s = .next s := by
  show execWarmRestart straps bad s = _
  simp only [execWarmRestart, none]

theorem warmRestart_held (held : ¬ WarmMay s) : exec (.warmRestart straps bad) s = .next s := by
  show execWarmRestart straps bad s = _
  cases waits : warmSource s.power.source with
  | none => exact warmRestart_none straps bad waits
  | some v => simp only [execWarmRestart, waits, if_neg (mt mayWarm_iff.1 held)]

/-- An exit from DEEP KEEP by the source that waits. -/
theorem deepKeepExit_exits (deep : s.power.state = .deepKeep) (may : StartsMay s) :
    exec (.deepKeepExit straps bad) s = .next ((match coldSource s.power.source with
      | some v => if s.power.source = 0 then s.deepExit straps 14 else s.coldStartAs straps v
      | none => s.deepExit straps (if s.power.source = 12 then 12 else 14)).untrained bad) :=
  congrArg _ (if_pos ⟨deep, mayStart_iff.2 may⟩)

theorem deepKeepExit_cold (deep : s.power.state = .deepKeep) (may : StartsMay s) (cold : ColdOne s.power.source) :
    exec (.deepKeepExit straps bad) s = .next ((s.coldStartAs straps s.power.source).untrained bad) := by
  have waits : s.power.source ≠ 0 := fun none => by simp [ColdOne, none] at cold
  rw [deepKeepExit_exits straps bad deep may, coldSource_cold cold]
  simp only [if_neg waits]

theorem deepKeepExit_keeps (deep : s.power.state = .deepKeep) (may : StartsMay s) (other : ¬ ColdOne s.power.source) :
    exec (.deepKeepExit straps bad) s
      = .next ((s.deepExit straps (if s.power.source = 12 then 12 else 14)).untrained bad) := by
  rw [deepKeepExit_exits straps bad deep may]
  by_cases none : s.power.source = 0
  · simp only [none]
    rfl
  · rw [coldSource_other none other]

theorem deepKeepExit_none (not : s.power.state ≠ .deepKeep ∨ ¬ StartsMay s) : exec (.deepKeepExit straps bad) s = .next s :=
  congrArg _ (if_neg fun ⟨deep, may⟩ => not.elim (· deep) (· (mayStart_iff.1 may)))

/-! ### RESET_N and WARM_N (R606) -/

theorem resetNRelease_starts (may : StartsMay s) (whole : s.power.breach = false) :
    exec (.resetNRelease straps bad) s = .next ((s.coldStartAs straps 2).untrained bad) := by
  have lit : s.power.state ≠ .dark := may.2.2
  have starts : (s.mayStart && !s.power.breach) = true := by simp [mayStart_iff.2 may, whole]
  exact congrArg _ ((if_neg lit).trans (if_pos starts))

theorem resetNRelease_breach (lit : s.power.state ≠ .dark) (breach : s.power.breach = true) :
    exec (.resetNRelease straps bad) s = .next { s with power.resetLow := false } := by
  have waits : ¬ (s.mayStart && !s.power.breach) = true := by simp [breach]
  exact congrArg _ ((if_neg lit).trans ((if_neg waits).trans (if_pos breach)))

/-- A hub whose start must wait notes the source in DEEP KEEP, and is held in reset elsewhere. -/
theorem resetNRelease_waits (lit : s.power.state ≠ .dark) (held : ¬ StartsMay s) (whole : s.power.breach = false) :
    exec (.resetNRelease straps bad) s = .next (if s.power.state = .deepKeep then
      { s with power.resetLow := false, power.source := 2 } else { s.beginCold 2 with power.resetLow := false }) := by
  have waits : ¬ (s.mayStart && !s.power.breach) = true := fun h => held (mayStart_iff.1 (Bool.and_eq_true_iff.1 h).1)
  exact congrArg _ ((if_neg lit).trans ((if_neg waits).trans (if_neg (by simp [whole]))))

theorem warmNRelease_starts (may : WarmMay s) (high : s.power.resetLow = false) (out : s.power.inReset = false) :
    exec (.warmNRelease straps bad) s = .next ((s.warmStartAs straps 3).untrained bad) :=
  congrArg _ (if_neg (by simp [mayWarm_iff.2 may, high, out]))

theorem warmNRelease_none (not : ¬ WarmMay s ∨ s.power.resetLow = true ∨ s.power.inReset = true) :
    exec (.warmNRelease straps bad) s = .next s := by
  have held : (s.power.resetLow || !s.mayWarm || s.power.inReset) = true := by
    rcases not with h | h | h
    · simp [Bool.eq_false_iff.2 (mt mayWarm_iff.1 h)]
    · simp [h]
    · simp [h]
  exact congrArg _ (if_pos held)

end Start

/-! ### The bound of fabric time over a start (R411) -/

theorem toTime_same {st : TimeState} (same : s.time.state = st) : s.toTime st = s := if_pos same

/-- HOLDOVER begins: the bound is noted, and the change counts and fires. -/
def holdoverBegun (s : State) : State :=
  (State.fire (State.bump { s with
    time.state := .holdover, time.errBase := s.errNow, time.errPpb := s.holdPpb, time.errTick := s.bell.tick } 0x09016 6) 224 0).fire 225 0

theorem toTime_holdover (other : s.time.state ≠ .holdover) : s.toTime .holdover = holdoverBegun s := if_neg other

theorem timeFlooded_keeps (keeps : s.time.state = .unset ∨ s.time.state = .holdover) :
    s.timeFlooded = { s with time.errBase := s.errGrown, time.errPpb := s.holdPpb, time.errTick := s.bell.tick } := by
  have same : (if s.time.state = .unset then s else s.toTime .holdover) = s := by
    rcases keeps with unset | holdover
    · exact if_pos unset
    · rw [toTime_same holdover, ite_self]
  simp only [State.timeFlooded, same]

theorem timeFlooded_begins {u : State} (begun : u = holdoverBegun s) (own : s.time.state = .free ∨ s.time.state = .locked) :
    s.timeFlooded = { u with time.errBase := s.errGrown, time.errPpb := u.holdPpb, time.errTick := u.bell.tick } := by
  have flooded : (if s.time.state = .unset then s else s.toTime .holdover) = u := by
    rw [begun]
    rcases own with h | h <;> rw [if_neg (by rw [h]; decide), toTime_holdover (by rw [h]; decide)]
  simp only [State.timeFlooded, flooded]

/-! ### What a start reports and where it ends -/

theorem untrained_none (u : State) : u.untrained 0 = u := rfl

theorem untrained_one (u : State) {c : Nat} (channel : c < 4) : u.untrained (2 ^ c) = u.loseChannel c 1 := by
  interval_cases c <;> rfl

theorem startLogs_power (s : State) (cause source : Nat) : (s.startLogs cause source).power = { s.power with
    startLog := cause % 8 * 2 ^ 33 + source % 64 * 2 ^ 27 + s.power.order % 2 ^ 18 * 2 ^ 9 } := by
  show ({ s.power with startLog := put 33 3 cause + put 27 6 source + put 9 18 s.power.order } : PowerSt) = _
  simp only [put, Nat.shiftLeft_eq]
  rfl

theorem deepExit_eq (s : State) (straps source : Nat) : s.deepExit straps source
    = (({ (s.wakeMarker.coldBase straps).keepRecord s.wakeMarker with
        trace.tail := s.wakeMarker.trace.tail, muster.state := .solo, time.afterFlood := true } : State).coldFrom s.wakeMarker
          straps 4 source).timeFlooded := by
  simp only [State.deepExit]

theorem warmStartAs_eq (s : State) (straps source : Nat) : s.warmStartAs straps source
    = ((s.holdEntry.abortCheck.errWarm.warmBase straps).warmFrom s.holdEntry.abortCheck.errWarm straps source).timeFlooded := by
  simp only [State.warmStartAs]

theorem endStart_full (good : s.upd.good = true) (notScrapped : s.fold.lifecycle ≠ 4) (full : bit (s.cfg 0x01001) 35 = true) :
    s.endStart = s.enterFull :=
  if_pos (Bool.and_eq_true_iff.2 ⟨firmware_iff.2 ⟨good, notScrapped⟩, full⟩)

theorem endStart_light (not : s.upd.good = false ∨ s.fold.lifecycle = 4 ∨ bit (s.cfg 0x01001) 35 = false) :
    s.endStart = s := by
  refine if_neg fun h => ?_
  obtain ⟨firmware, full⟩ := Bool.and_eq_true_iff.1 h
  obtain ⟨good, notScrapped⟩ := firmware_iff.1 firmware
  rcases not with h | h | h
  · exact Bool.noConfusion (h.symm.trans good)
  · exact notScrapped h
  · exact Bool.noConfusion (h.symm.trans full)

theorem warmBase_table (s : State) (straps : Nat) : (s.warmBase straps).table = { s.table with
    stage := if s.table.stage = .committed then .armed else s.table.stage, armedAt := 0, armUnits := 0 } := by
  show s.warmTable = _
  unfold State.warmTable
  cases s.table.stage <;> rfl

theorem warmBase_latch (s : State) (straps : Nat) : ∀ p ∈ (s.warmBase straps).bell.srcs, p.2.latch = false := by
  intro p mem
  obtain ⟨q, _, rfl⟩ := List.mem_map.1 (show p ∈ s.bell.srcs.map fun (p : Nat × Source) => (p.1, { p.2 with latch := false }) from mem)
  rfl

/-! ### EBB_AT (R363, R604) -/

/-- The station goes to sleep and wakes at once: its WAKE input is active or its late veto still has its need, and no thermal
hold stands. -/
def WakesAtOnce (s : State) : Prop :=
  (s.muster.wakeActive = true ∨ s.muster.vetoed = true ∧ s.ebbTest = false) ∧ bit s.power.thresholds 2 = false

theorem wakesAtOnce_iff :
    ((s.muster.wakeActive || s.muster.vetoed && !s.ebbTest) && !bit s.power.thresholds 2) = true ↔ WakesAtOnce s := by
  simp only [WakesAtOnce, Bool.and_eq_true, Bool.or_eq_true, Bool.not_eq_true']

theorem ebbNow_xtalSafe (safe : 3 ≤ s.level 369) :
    s.ebbNow = (s.ebbedNow.errKept.wakeNow s.muster.wakeCause s.muster.wakeLink).timeFlooded := if_pos safe

theorem ebbNow_sleeps (clear : s.level 369 < 3) (sleeps : ¬ WakesAtOnce s) :
    s.ebbNow = if bit (s.cfg 0x01100) 34 then s.deepEntry else s.keepEntry := by
  simp only [State.ebbNow, if_neg (Nat.not_le.2 clear), if_neg (mt wakesAtOnce_iff.1 sleeps)]

theorem ebbNow_wakes (clear : s.level 369 < 3) (wakes : WakesAtOnce s) :
    s.ebbNow = (if bit (s.cfg 0x01100) 34 then s.deepEntry else s.keepEntry).wakeNow 1 0 := by
  simp only [State.ebbNow, if_neg (Nat.not_le.2 clear), if_pos (wakesAtOnce_iff.2 wakes)]

theorem ebbAtReached_pending (pending : s.muster.state = .ebbPending) : exec .ebbAtReached s = .next s.tideEnds.ebbNow :=
  congrArg _ (if_pos pending)

theorem deepAfterExpiry_enters (keep : s.power.state = .keep) (ebbed : s.muster.state = .ebbed) :
    exec .deepAfterExpiry s = .next
      { s.gatesPower with power.previous := .keep, power.state := .deepKeep, pin.hold := false, pin.held := [] } := by
  show execDeepAfterExpiry s = _
  rw [execDeepAfterExpiry, if_pos ⟨keep, ebbed⟩]

/-! ### T_J (R611) -/

/-- A threshold that T_J has held long enough, noted. -/
def thresholdNoted (s : State) (tj k : Nat) : State :=
  { s.readJunction tj with power.thresholds := s.power.thresholds ||| 2 ^ k }

section Hot
variable {k src tj limit : Nat}

theorem hotAt_none (not : s.power.state = .dark ∨ tj < limit) : s.hotAt k src tj limit = s := if_pos not

section Held
variable (lit : s.power.state ≠ .dark) (held : limit ≤ tj)
include lit held

theorem hotAt_again (noted : bit s.power.thresholds k = true) : s.hotAt k src tj limit = s.readJunction tj :=
  (if_neg (not_or.2 ⟨lit, Nat.not_lt.2 held⟩)).trans (if_pos noted)

theorem hotAt_first (first : bit s.power.thresholds k = false) :
    s.hotAt k src tj limit = (thresholdNoted s tj k).fireLive src 0 :=
  (if_neg (not_or.2 ⟨lit, Nat.not_lt.2 held⟩)).trans (if_neg (Bool.eq_false_iff.1 first))

theorem hotAt_fires (first : bit s.power.thresholds k = false) (runs : s.workRuns = true) :
    s.hotAt k src tj limit = (thresholdNoted s tj k).fire src 0 :=
  (hotAt_first lit held first).trans (if_pos runs)

theorem hotAt_silent (first : bit s.power.thresholds k = false) (stopped : s.workRuns = false) :
    s.hotAt k src tj limit = thresholdNoted s tj k :=
  (hotAt_first lit held first).trans (if_neg (Bool.eq_false_iff.1 stopped))

end Held
end Hot

section Trip
variable {tj : Fin 512} (held : tMax + 10 ≤ tj.val)
include held

theorem thermalTrip_trips (lit : s.power.state ≠ .dark) :
    exec (.thermalTrip tj) s = .next { (if s.power.state = .deepKeep then thresholdNoted s tj 2
      else (thresholdNoted s tj 2).deepEntry) with power.source := 12 } :=
  congrArg _ (if_neg (not_or.2 ⟨lit, Nat.not_lt.2 held⟩))

theorem thermalTrip_deep (deep : s.power.state = .deepKeep) :
    exec (.thermalTrip tj) s = .next { thresholdNoted s tj 2 with power.source := 12 } := by
  rw [thermalTrip_trips held (by rw [deep]; decide), if_pos deep]

theorem thermalTrip_awake (lit : s.power.state ≠ .dark) (awake : s.power.state ≠ .deepKeep) :
    exec (.thermalTrip tj) s = .next { (thresholdNoted s tj 2).deepEntry with power.source := 12 } := by
  rw [thermalTrip_trips held lit, if_neg awake]

end Trip

/-- T_J lies below the threshold k, whose condition then ends. -/
def belowThreshold (k tj : Nat) : Prop :=
  (k = 0 → tj < tMax - 10) ∧ (k = 1 → tj < tMax) ∧ (k = 2 → tj ≤ tMax - 20)

theorem belowThreshold_iff (k : Fin 3) (tj : Nat) :
    (match k.val with
      | 0 => decide (tj < tMax - 10)
      | 1 => decide (tj < tMax)
      | _ => decide (tj ≤ tMax - 20)) = true ↔ belowThreshold k tj := by
  unfold belowThreshold
  fin_cases k <;> simp

theorem junctionThresholdClear_none {k : Fin 3} {tj : Fin 512} (not : s.power.state = .dark ∨ ¬ belowThreshold k tj) :
    exec (.junctionThresholdClear k tj) s = .next s :=
  congrArg _ (if_pos (not.imp_right fun above => Bool.eq_false_iff.2 (mt (belowThreshold_iff k tj).1 above)))

theorem junctionThresholdClear_clears {k : Fin 3} {tj : Fin 512} (lit : s.power.state ≠ .dark) (below : belowThreshold k tj) :
    exec (.junctionThresholdClear k tj) s = .next { s.readJunction tj with
      power.thresholds := if bit s.power.thresholds k then s.power.thresholds - 2 ^ k.val else s.power.thresholds } :=
  congrArg _ (if_neg (not_or.2 ⟨lit, ne_false_of_eq_true ((belowThreshold_iff k tj).2 below)⟩))

end Sys2Proof.Laws

namespace Sys2Proof.Proofs

/-- Settles O57: each start by what admits it, the parts of its base, and the thresholds each under its own condition. -/
theorem powerStarts : Obligations.PowerStarts := by
  intro s straps bad
  refine ⟨fun dark => congrArg _ (if_pos dark), fun lit => congrArg _ (if_neg lit), fun dark => congrArg _ (if_pos dark),
    resetNRelease_starts straps bad,
    fun deep held whole => (resetNRelease_waits straps bad (by rw [deep]; decide) held whole).trans (congrArg _ (if_pos deep)),
    fun lit awake held whole => (resetNRelease_waits straps bad lit held whole).trans (congrArg _ (if_neg awake)),
    resetNRelease_breach straps bad,
    warmNRelease_starts straps bad, warmNRelease_none straps bad,
    fun may none => coldStart_starts straps bad (by rw [none]; rfl) may,
    fun may cold => coldStart_starts straps bad (coldSource_cold cold) may,
    fun not => not.elim (coldStart_held straps bad) fun ⟨waits, other⟩ => coldStart_none straps bad (coldSource_other waits other),
    fun may none => warmRestart_starts straps bad (by rw [none]; rfl) (mayWarm_iff.2 may),
    fun may warm => warmRestart_starts straps bad (warmSource_warm warm) (mayWarm_iff.2 may),
    fun not => not.elim (warmRestart_held straps bad) fun ⟨waits, other⟩ => warmRestart_none straps bad (warmSource_other waits other),
    deepKeepExit_cold straps bad, deepKeepExit_keeps straps bad, deepKeepExit_none straps bad,
    fun source => ⟨rfl, deepExit_eq s straps source, warmStartAs_eq s straps source⟩,
    ?bound,
    ?coldBase, ?warmBase, ?keepRecord,
    fun u c => ⟨untrained_none u, untrained_one u⟩, startLogs_power s, endStart_full, endStart_light,
    fun keep listen may => congrArg _ (if_pos ⟨keep, listen, mayStart_iff.2 may⟩), fun otherwise => congrArg _ (if_neg ?flood),
    fun pending safe => (ebbAtReached_pending pending).trans (congrArg _ (ebbNow_xtalSafe safe)),
    fun pending clear => ⟨fun sleeps => (ebbAtReached_pending pending).trans (congrArg _ (ebbNow_sleeps clear sleeps)),
      fun wakes => (ebbAtReached_pending pending).trans (congrArg _ (ebbNow_wakes clear wakes))⟩,
    fun other => congrArg _ (if_neg other), ?deep,
    deepAfterExpiry_enters, fun otherwise => congrArg _ (if_neg ?after),
    fun tj => ⟨?junction, ?trip,
      fun k => ⟨junctionThresholdClear_none, junctionThresholdClear_clears⟩⟩⟩
  case deep => simp only [State.deepEntry]
  case bound =>
    intro grown u
    have begun : u = holdoverBegun s := rfl
    clear_value u
    exact ⟨timeFlooded_keeps, timeFlooded_begins begun, fun keep => ⟨if_pos keep, if_pos keep⟩, fun other => if_neg other,
      fun other => if_neg other⟩
  case coldBase =>
    exact ⟨rfl, rfl, rfl, rfl, rfl, rfl, rfl, rfl, rfl, rfl, rfl, rfl, rfl, rfl, rfl, rfl, rfl, rfl, rfl⟩
  case warmBase =>
    exact ⟨rfl, rfl, rfl, rfl, rfl, rfl, rfl, rfl, rfl, warmBase_table s straps, rfl, rfl, rfl, rfl, rfl, rfl, rfl,
      warmBase_latch s straps, rfl, rfl, rfl, rfl, rfl⟩
  case keepRecord => exact ⟨rfl, rfl, rfl, rfl, rfl, rfl, rfl, rfl, rfl⟩
  case flood =>
    rintro ⟨keep, listen, may⟩
    rcases otherwise with h | h | h
    · exact h keep
    · exact h listen
    · exact h (mayStart_iff.1 may)
  case trip =>
    intro tripped
    have noted : tripped = thresholdNoted s tj 2 := rfl
    clear_value tripped
    subst noted
    exact ⟨fun not => congrArg _ (if_pos not), fun deep held => thermalTrip_deep held deep,
      fun lit awake held => thermalTrip_awake held lit awake⟩
  case after => exact fun ⟨keep, ebbed⟩ => otherwise.elim (· keep) (· ebbed)
  case junction =>
    intro k src limit i threshold noted
    have marked : noted = thresholdNoted s tj k := rfl
    clear_value noted
    subst marked
    have judged : exec i s = .next (s.hotAt k src tj limit) := by
      rcases threshold with ⟨rfl, rfl, rfl, rfl⟩ | ⟨rfl, rfl, rfl, rfl⟩ <;> rfl
    rw [judged]
    exact ⟨fun not => congrArg _ (hotAt_none not), fun lit held noted => congrArg _ (hotAt_again lit held noted),
      fun lit held first runs => congrArg _ (hotAt_fires lit held first runs),
      fun lit held first stopped => congrArg _ (hotAt_silent lit held first stopped)⟩

end Sys2Proof.Proofs
end

section
/-! R602: the loss of VDDA acts as the loss of the work PLL. -/

open Sys2Proof Sys2Proof.Machine Sys2Proof.Laws

namespace Sys2Proof.Laws

variable {s : State}

/-- What runs the work domain is read from the power state alone. -/
theorem workRuns_of_power {u : State} (same : u.power = s.power) : u.workRuns = s.workRuns := by
  simp only [State.workRuns, same]

/-- A firing leaves the work domain as it runs. -/
theorem fire_workRuns (s : State) (n inst detail : Nat) (forced : Bool) : (s.fire n inst detail forced).workRuns = s.workRuns :=
  workRuns_of_power (fires_fire s n inst detail forced (Fires.refl s)).power

/-- The hub once VDDA has left UP, and SUPPLY_RANGE has fired for it. -/
def vddaFired (s : State) (now : Fin 4) (mv : Fin 4096) : State := (supplyRead s 7 now mv).fire 352 7

theorem vddaFired_workRuns (s : State) (now : Fin 4) (mv : Fin 4096) : (vddaFired s now mv).workRuns = s.workRuns :=
  fire_workRuns (supplyRead s 7 now mv) 352 7 0 false

theorem vddaLost {now : Fin 4} (mv : Fin 4096) (acts : lossActs s) (up : (s.power.supplies.getD 7 (0, 0)).1 = 0)
    (leaves : now.val ≠ 0) : exec (.supplyStateChange 7 now mv) s = .next ((vddaFired s now mv).pllLost false) :=
  supplyChange_lost (n := 7) (by decide) ⟨up, leaves⟩ acts

/-- A lost work PLL holds the hub in reset until a warm restart of source 11, and ends the tide. -/
theorem pllLost_waits (s : State) (ref : Bool) :
    (s.pllLost ref).power.inReset = true ∧ (s.pllLost ref).power.source = 11 ∧ (s.pllLost ref).tide.runs = false :=
  ⟨rfl, rfl, rfl⟩

end Sys2Proof.Laws

namespace Sys2Proof.Proofs

/-- Settles O59: the loss of supply 7 is a lost work PLL after SUPPLY_RANGE, whose warm restart carries source 11. -/
theorem vddaLossActsAsPllLoss : Obligations.VddaLossActsAsPllLoss := by
  refine ⟨fun s now mv acts up leaves => ⟨fun runs => ?_, _, vddaLost mv acts up leaves, pllLost_waits _ _⟩,
    fun s straps bad source may => warmRestart_starts straps bad (by rw [source]; rfl) may⟩
  exact (vddaLost mv acts up leaves).trans (workPllLoss_restarts false ((vddaFired_workRuns s now mv).trans runs)).symm

end Sys2Proof.Proofs
end
